-- ==== Sys2Proof/Word.lean ====
section
/-!
DEFINITION. Machine words of the FS7-2T6 model: the widths the manual gives registers, addresses and entries.
-/

namespace Sys2Proof

/-- One byte of memory (R9, R10). -/
abbrev Byte := BitVec 8

/-- A 32-bit register or doorbell value (R11, R474). -/
abbrev Word32 := BitVec 32

/-- A 64-bit counter, count or address pair (R94, R325). -/
abbrev Word64 := BitVec 64

/-- A 64-byte submission entry, task header or command (R131, R479). -/
abbrev Entry := BitVec 512

/-- A 256-byte Kelast flit, byte 0 in bits 7:0 (R431). -/
abbrev Flit := BitVec 2048

end Sys2Proof
end

