-- ==== Sys2Proof/Syntax.lean ====
section
/-!
DEFINITION. The commands and events of the module, one constructor per row of the operation table, and the names
their operands use. Operands are what the outside (host, partner, sensor, environment) supplies, or what names the
unit at which the event happens.
-/

namespace Sys2Proof

/-- The two wings (R16). -/
inductive Wing where
  | east | west
deriving DecidableEq, Repr

/-- The four compute tiles, in the tile order of R96. -/
inductive Tile where
  | e0 | e1 | w0 | w1
deriving DecidableEq, Repr

/-- PCIe functions (R465): PF0 and VF n + 1, which is partition n. -/
inductive Func where
  | pf0
  | vf (part : Fin 16)
deriving DecidableEq, Repr

/-- Structure instances edited by publishing editions (R36). -/
inductive Instance where
  | kv (part : Fin 16) (wing : Wing)
  | pfx (part : Fin 16) (wing : Wing)
  | cat (index : Fin 4096)
  | group
  | partCfg
deriving DecidableEq, Repr

/-- Units that pin structure instances (R36). -/
inductive PinUnit where
  | station (t : Tile)
  | junction (w : Wing)
  | eio
deriving DecidableEq, Repr

/-- This module's end of a link: a fabric port or one end of the Concourse (R426, R451). -/
inductive LinkEnd where
  | port (w : Wing) (p : Fin 6)
  | concourse (w : Wing)
deriving DecidableEq, Repr

/-- The neighbour on the ring that a beat, token or header comes from (R322, R329). -/
inductive Neighbour where
  | predecessor | successor
deriving DecidableEq, Repr

/-- Who made a stacked-memory access that failed (R124). -/
inductive Maker where
  | task (id : Nat) (write : Bool)
  | demandFill (frame : Fin 1600)
  | mmuWalk (id : Nat)
  | stageLoad (id : Nat) (frame : Fin 1600)
  | scheduledLoad (part : Fin 16) (frame : Fin 1600)
  | writeBack (frame : Fin 1600)
  | hostRead
  | hostWrite (data : List Byte)
deriving DecidableEq, Repr

/-- Port class codes of R73. -/
inductive PortClass where
  | idle | engine | dma | network
deriving DecidableEq, Repr

/-- The two paths to the object dictionary (R496). -/
inductive DictPath where
  | can | mailbox
deriving DecidableEq, Repr

/-- A car set instance: partition and car-set number (R338). -/
structure CarSetKey where
  part : Fin 16
  num : BitVec 16
deriving DecidableEq, Repr

/-- A collective: group number and sequence number (R396, R399). -/
structure CollKey where
  group : BitVec 8
  seq : Word32
deriving DecidableEq, Repr

/-- Where a register write lands (R466, R467): a register block of R98 by PF0 BAR0, or a function page. -/
inductive RegTarget where
  | block (num : Fin 26) (offset : BitVec 24)
  | page (f : Func) (offset : BitVec 16)
deriving DecidableEq, Repr

/-- Triggers of a PF0 reset (R482). -/
inductive Pf0Trigger where
  | flr | hotReset | linkDown | perst
deriving DecidableEq, Repr

/-- Formats of a CAN frame, an FD frame with or without bit-rate switch (R498). -/
inductive CanFormat where
  | classic
  | fd (switch : Bool)
deriving DecidableEq, Repr

/-- Whether a frame is an FD frame. -/
def CanFormat.isFd : CanFormat → Bool
  | .classic => false
  | .fd _ => true

/-- A column's factory defect as the fuses hold it (R21, R22, R527). -/
structure Defect where
  tile : Tile
  column : Fin 16
  row : Fin 22
deriving DecidableEq, Repr

/-- One delivery of the operand that the cores of a tile step share (R185): of operand B or of A, on a tile. -/
structure Delivery where
  operandB : Bool
  tile : Tile
deriving DecidableEq, Repr

/-- The body of a car once its last flit has come, with the slot of that moment (R347, R348). -/
structure CarBody where
  bytes : List Byte
  slot : Fin 16
deriving DecidableEq, Repr

/-- What the receiver's error correction saw of a flit: the lane of an error and how many it corrected (R433, R444). -/
structure LaneReport where
  lane : Fin 9
  corrected : Nat
deriving DecidableEq, Repr

/-- Whose message a Junction meets (R399): the collective, and whether it only passes on its way through this module. -/
structure JnRoute where
  key : CollKey
  passing : Bool
deriving DecidableEq, Repr

/-- What a step of a wake finds (R21, R527): pseudo-channels that do not train, and the defects of the fuses. -/
structure WakeFindings where
  untrained : List (Tile × Fin 512)
  fuses : List Defect
deriving DecidableEq, Repr

/-- A passed test of a core (R562): its physical number, and how many words of its memories were corrected. -/
structure CoreTestReport where
  core : Fin 336
  corrected : Nat
deriving DecidableEq, Repr

/-- The configuration-space fields that R465 and R477 name. -/
inductive ConfigField where
  | vendorId | deviceId | vfDeviceId | classCode | totalVfs | initialVfs | vfOffset | vfStride | busMaster | vfEnable
deriving DecidableEq, Repr

/-- What a configuration request does (R464, R465, R477, R482). -/
inductive ConfigRequest where
  | read (field : ConfigField)
  | setBusMaster (on : Bool)
  | setVfEnable
  | other
deriving DecidableEq, Repr

/-- One echo of a latency request: local time at its arrival, and the ECHO_T and TURN it brings, all in ps (R443). -/
structure Echo where
  arrival : Nat
  echoT : Nat
  turn : Nat
deriving DecidableEq, Repr

/-- Resources that own calibration slots (R450, R554). -/
inductive CalResource where
  | pseudoChannel (t : Tile) (pc : Fin 512)
  | lane (w : Wing) (p : Fin 6) (l : Fin 8)
  | bundle (b : Fin 9)
  /-- The latency item of a port, with the echoes of its 16 requests (R443, R450). -/
  | latency (w : Wing) (p : Fin 6) (echoes : List Echo)
  /-- The latency item of the Concourse (R450). -/
  | concourseLatency
deriving DecidableEq, Repr

/-- What a scrub or row-repair unit finds at its location (R546, R549, R554). -/
inductive ScrubFinding where
  | clean | correctable | uncorrectable | noResource
deriving DecidableEq, Repr

/-- Where an on-chip uncorrectable read lies (R547). -/
inductive OnChipPlace where
  | core (t : Tile) (n : Fin 336)
  | windowBuffer (t : Tile)
deriving DecidableEq, Repr

/-- What stopped a wake (R526). -/
inductive WakeFailure where
  | rail (k : Fin 6)
  | clocks
  | ioTile
deriving DecidableEq, Repr

/-- A lost party of a collective, seen from this wing (R402): a member by the root, or the root by a member. -/
inductive LostParty where
  | member (m : Fin 255)
  | root
deriving DecidableEq, Repr

/-- A core of a task: its rank in ascending core index (R176, R225). -/
abbrev Rank := Nat

/-- One access to a row of a bank: a read, or a write of consecutive bytes from one on (R72). -/
inductive RowAccess where
  | read
  | write (byte : Fin 64) (data : List Byte)
deriving DecidableEq, Repr

/-- One intruding bank access (R90, R91), as the reached core meets it, and the access of the bank's owner that meets it
on its row in the same cycle, if one does. -/
structure Intrusion where
  task : Nat
  tile : Tile
  core : Fin 336
  bank : Fin 40
  row : Fin 1024
  cls : PortClass
  access : RowAccess
  met : Option RowAccess
deriving DecidableEq, Repr

/-- The commands and events of the operation table, in its order. -/
inductive Instr where
  | sqTailDoorbell (f : Func) (r : Fin 64) (v : Word32)
  | cqHeadDoorbell (f : Func) (r : Fin 64) (v : Word32)
  | ringEnable (f : Func) (r : Fin 64) (cfg : Word32)
  | ringDisable (f : Func) (r : Fin 64) (cfg : Word32)
  | ringDrainDone (f : Func) (r : Fin 64)
  | submissionEntryFetch (f : Func) (r : Fin 64) (entry : Entry)
  | submissionFetchFailed (f : Func) (r : Fin 64)
  | completionWriteRefused (f : Func) (r : Fin 64)
  | msixCoalDelayExpiry (f : Func) (r : Fin 64)
  | loopTask (f : Func) (r : Fin 64)
  | chainTaskForward (f : Func) (r : Fin 64)
  | chainTaskBackward (f : Func) (r : Fin 64)
  | streamStage (f : Func) (r : Fin 64)
  | collectiveBroadcast (f : Func) (r : Fin 64)
  | collectiveReduce (f : Func) (r : Fin 64)
  | catalogueQuery (f : Func) (r : Fin 64)
  | catalogueMerge (f : Func) (r : Fin 64)
  | moveCopy (f : Func) (r : Fin 64)
  | moveMigrateIn (f : Func) (r : Fin 64)
  | moveFlush (f : Func) (r : Fin 64)
  | moveCompress (f : Func) (r : Fin 64)
  | moveDecompress (f : Func) (r : Fin 64)
  | moveStageLoad (f : Func) (r : Fin 64)
  | moveRelease (f : Func) (r : Fin 64)
  | moveScheduleStart (f : Func) (r : Fin 64)
  | moveScheduleStop (f : Func) (r : Fin 64)
  | taskDispatch (id : Nat) (t : Tile)
  | taskEnd (id : Nat)
  | taskFault (id : Nat) (cause : BitVec 16) (addr : BitVec 48) (core : BitVec 16)
  | taskStopDrained (id : Nat)
  | editionSwap (f : Func) (r : Fin 64)
  | swapNotice (u : PinUnit) (target : Instance)
  | editionSwapComplete (target : Instance)
  | partConfigDrainDone
  | mapInvalidate (f : Func) (r : Fin 64)
  | mapInvalidateDone (f : Func) (r : Fin 64)
  | sidingOpen (f : Func) (r : Fin 64)
  | sidingClose (f : Func) (r : Fin 64)
  | prefixLookup (f : Func) (r : Fin 64)
  | carSetStart (f : Func) (r : Fin 64)
  | carSetStop (f : Func) (r : Fin 64)
  | partitionResetCmd (f : Func) (r : Fin 64)
  | functionLevelReset (part : Fin 16)
  | pf0Reset (how : Pf0Trigger)
  | vfEnableClear
  | partitionResetDone (part : Fin 16)
  | windowedAccessMiss (part : Fin 16) (va : BitVec 48) (write : Bool) (id : Nat)
  | demandFillComplete (t : Tile) (frame : Fin 1600)
  | decompressComplete (t : Tile) (part : Fin 16) (va : BitVec 48)
  | stackedAccessLate (pa : BitVec 48) (m : Maker)
  | uncorrectableRead (pa : BitVec 48) (m : Maker)
  | writeBackStuck (t : Tile) (frame : Fin 1600) (pc : Fin 512)
  | stageLoadResume (id : Nat)
  | scheduleNextLoad (t : Tile) (part : Fin 16)
  | hostCxlMemAccess (dpa : BitVec 41) (len : Fin 65) (write : Option (List Byte))
  | partitionWindowAccess (part : Fin 16) (offset : BitVec 36) (len : Fin 65) (write : Option (List Byte))
  | phaseChange (id : Nat) (core : Rank) (phase : Fin 8)
  | tileStepBegin (id : Nat) (core : Rank)
  | multicastDelivery (id : Nat) (d : Delivery)
  | intrudingAccessForced (x : Intrusion)
  | partialArrival (id : Nat) (group : Fin 64) (part : Fin 336) (rowTile : Nat)
  | stageHandleTake (id : Nat) (binding : Fin 4)
  | stageHandleAcquire (id : Nat) (binding : Fin 4)
  | stageIterationEnd (id : Nat)
  | mergeHoldExpiry (id : Nat) (core : Rank)
  | deadlineCheck (t : Tile)
  | stallCheck (w : Wing)
  | timetableTick (w : Wing)
  | beatEmit (w : Wing)
  | beatReceive (w : Wing) (from_ : Neighbour) (beat : BitVec 256) (slot : Fin 16) (frac : BitVec 8)
  | masterListenExpiry
  | beatLossTimeout (w : Wing)
  | backupTakeover
  | barrierStart
  | arriveTokenReceive (w : Wing) (token : BitVec 256)
  | advanceTokenReceive (w : Wing) (token : BitVec 256)
  | reconfigWindowStart (w : Wing)
  | reconfigWindowEnd (w : Wing)
  | carSetFirstTick (w : Wing) (k : CarSetKey)
  | carSendSlot (w : Wing) (k : CarSetKey) (step : Nat)
  | carComputeSlot (w : Wing) (k : CarSetKey) (step : Nat) (car : BitVec 16) (id : Nat)
  | carHeaderReceive (w : Wing) (l : LinkEnd) (hseq : Fin 8) (header : Entry)
  | abortNoticeReceive (w : Wing) (l : LinkEnd) (hseq : Fin 8) (header : Entry)
  | carAnswerReceive (l : LinkEnd) (answer : BitVec 16)
  | carRetryBackoffExpiry (w : Wing) (k : CarSetKey) (step : Nat) (car : BitVec 16)
  | carPatienceExpiry (w : Wing) (k : CarSetKey) (step : Nat) (car : BitVec 16)
  | carBodyReceived (w : Wing) (k : CarSetKey) (step : Nat) (car : BitVec 16) (body : CarBody)
  | carStepFree (w : Wing) (k : CarSetKey) (step : Nat)
  | flitReceive (l : LinkEnd) (flit : Flit) (uncorrectable : Bool) (r : LaneReport)
  | nakReceive (l : LinkEnd) (ack : BitVec 12)
  | ackTimeoutReplay (l : LinkEnd)
  | nakResendTimeout (l : LinkEnd)
  | portSignalLoss (w : Wing) (p : Fin 6)
  | portSignalReturn (w : Wing) (p : Fin 6)
  | portTrainingDone (w : Wing) (p : Fin 6) (record : BitVec 256) (lanes : BitVec 8) (fallback : Bool)
      (echoes : List Echo)
  | portTrainingFail (w : Wing) (p : Fin 6) (step : Fin 7)
  | portTrainingRetry (w : Wing) (p : Fin 6)
  | laneRetire (w : Wing) (p : Fin 6) (lane : Fin 8)
  | darkLimitExpiry (w : Wing) (p : Fin 6)
  | widen (w : Wing) (p : Fin 6)
  | retrain (w : Wing) (p : Fin 6)
  | bundleRetire (b : Fin 9)
  | concourseDown
  | concourseRetrainDone (bundles : BitVec 9)
  | calibrationSlot (c : CalResource) (foreground : Bool) (ownedLeft : Nat)
  | scrubSlot (t : Tile) (pc : Fin 512) (foreground : Bool) (ownedLeft : Nat) (finding : ScrubFinding)
  | migrationGranuleMoved (t : Tile)
  | migrationDone (t : Tile)
  | coreTest (t : Tile) (n : Fin 336)
  | coreTestFail (t : Tile) (n : Fin 336)
  | coreSpared (t : Tile) (n : Fin 336)
  | onchipUncorrectable (at_ : OnChipPlace) (id : Nat)
  | jnCountMessage (w : Wing) (r : JnRoute) (member : Fin 255) (signature : Word32) (count : Word32) (capacity : Word32)
      (partials : Nat)
  | jnGoMessage (w : Wing) (r : JnRoute) (n : Word32)
  | jnChunkArrival (w : Wing) (r : JnRoute) (member : Fin 255) (core : BitVec 16) (chunk : Nat) (data : List Byte)
      (residueFails : Bool)
  | jnRerunMessage (w : Wing) (k : CollKey)
  | jnCompletionToken (w : Wing) (k : CollKey) (n : Word32) (flags : BitVec 5)
  | jnAbortMessage (w : Wing) (k : CollKey) (cause : BitVec 16)
  | jnWaitLimitExpiry (w : Wing) (k : CollKey) (lost : LostParty)
  | jnLossNotice (w : Wing) (group : BitVec 8) (member : Fin 255)
  | retireQueueRead (t : Tile)
  | counterLoRead (block : Fin 26) (offset : BitVec 24)
  | ttCountLoRead (w : Wing)
  | clogEntryRead
  | latClr (t : Tile) (n : Fin 336)
  | confClr (t : Tile) (n : Fin 336)
  | memFaultClr (t : Tile)
  | shapeClr (t : Tile)
  | dlClr (t : Tile)
  | stallClr (t : Tile)
  | heldClr (t : Tile)
  | labFlush (t : Tile)
  | pwFaultClr (t : Tile)
  | failClr (w : Wing)
  | catFaultClr (t : Tile)
  | laneClr (w : Wing)
  | jnFaultClr (w : Wing)
  | eventQueueEnable (v : Word32)
  | registerWrite (x : RegTarget) (v : Word32)
  | mailboxGo (deferred : Bool)
  | dapRead (fd : CanFormat) (frame : List Byte) (deferred : Bool)
  | dapWrite (fd : CanFormat) (frame : List Byte) (deferred : Bool)
  | dapWriteInit (fd : CanFormat) (frame : List Byte) (deferred : Bool)
  | dapSegment (fd : CanFormat) (frame : List Byte) (deferred : Bool)
  | dapSegAck (fd : CanFormat) (frame : List Byte) (deferred : Bool)
  | dapAbort (fd : CanFormat) (frame : List Byte)
  | dapTransferTimeout (p : DictPath)
  | dapStatusFrame
  | dictSave (p : DictPath) (key : Word32)
  | dictDefaults (p : DictPath) (key : Word32)
  | ctrClear (p : DictPath) (key : Word32)
  | stateCmdDepot (p : DictPath)
  | stateCmdShunt (p : DictPath)
  | stateCmdService (p : DictPath)
  | clearHalt (p : DictPath)
  | shuntDrainExpiry
  | leavingServiceDrained
  | depotRailsDown
  | channelSample (ch : BitVec 8) (value : Word32) (ms : Word64)
  | inputPowerOn (strap : Fin 128)
  | inputPowerLoss
  | mainPowerLoss
  | inputRecovery
  | railPhaseLost (w : Wing) (rail : Fin 6)
  | railOutOfRegulation (w : Wing) (rail : Fin 6)
  | railInRegulation (rail : Fin 6)
  | wakeFail (how : WakeFailure)
  | wakeStepDone (step : Fin 5) (found : WakeFindings)
  | serviceEntry (eastLanes : BitVec 2) (westLanes : BitVec 2)
  | perstDeassert
  | perstAssert
  | clusterClockGate (t : Tile) (row : Fin 22)
  | clusterRetention (t : Tile) (row : Fin 22)
  | clusterWakeDone (t : Tile) (row : Fin 22)
  | dvfsLoadWindow (t : Tile) (row : Fin 22) (waited : Nat) (cycles : Nat)
  | thermalCapSample (t : Tile) (row : Fin 22) (milliC : Int)
  | dvfsPointChangeDone (t : Tile) (row : Fin 22)
  | pseudoChannelPowerDown (t : Tile) (pc : Fin 512)
  | stackSelfRefreshEntry (stack : Fin 32)
  | configurationRequest (f : Func) (req : ConfigRequest)
  | pcieLinkUp (speed : BitVec 4) (width : Nat) (flit : Bool) (cxl : Bool)
  | stackRefreshDoubling (stack : Fin 32) (milliC : Int)
  | coreTestPass (t : Tile) (r : CoreTestReport)
deriving DecidableEq, Repr

end Sys2Proof
end

