-- ==== Sys2Proof/Decode.lean ====
section
/-!
DEFINITION. The table's words. spec/opcode_table.json gives no row any bits (its commands arrive as register writes,
entries, frames and events, never as one instruction word), so no word spells a command.
-/

namespace Sys2Proof

/-- The command that a word of the operation table spells: none, since the table gives its rows no bits. -/
def decodeTableWord (_nbits _w : Nat) : Option Instr := none

end Sys2Proof
end

