-- ==== Sys2Proof/Machine/Bits.lean ====
section
/-!
DEFINITION. Bit fields and little-endian bytes, in the manual's numbering: bit 0 is the least significant and
multi-byte fields are little-endian (R10).
-/

namespace Sys2Proof.Machine

/-- Bits hi:lo of a number. -/
def bits (x hi lo : Nat) : Nat := x / 2 ^ lo % 2 ^ (hi + 1 - lo)

/-- Bit i of a number. -/
def bit (x i : Nat) : Bool := x / 2 ^ i % 2 == 1

/-- A field of a 32-bit register value. -/
def fld (x : Word32) (hi lo : Nat) : Nat := bits x.toNat hi lo

/-- A bit of a 32-bit register value. -/
def flg (x : Word32) (i : Nat) : Bool := x.getLsbD i

/-- One as a number when true. -/
def b2n (b : Bool) : Nat := if b then 1 else 0

/-- The number of a little-endian byte string (R10). -/
def leNat : List Byte → Nat
  | [] => 0
  | b :: bs => b.toNat + 256 * leNat bs

/-- The n low bytes of a number, little-endian (R10). -/
def leBytes : Nat → Nat → List Byte
  | 0, _ => []
  | n + 1, x => BitVec.ofNat 8 x :: leBytes n (x / 256)

/-- Bytes off to off + n - 1 of a byte string as a number; absent bytes count as zero. -/
def at8 (l : List Byte) (off n : Nat) : Nat := leNat ((l.drop off).take n)

/-- Two's complement reading of an n-bit number. -/
def signed (n x : Nat) : Int := if 2 ^ n ≤ 2 * x then (x : Int) - (2 ^ n : Nat) else x

/-- A number modulo 2^n, from an integer. -/
def wrap (n : Nat) (x : Int) : Nat := (x % ((2 ^ n : Nat) : Int)).toNat

/-- Smallest multiple of n that is at least x (n > 0). -/
def roundUp (x n : Nat) : Nat := (x + n - 1) / n * n

/-- Quotient rounded up. -/
def ceilDiv (x n : Nat) : Nat := (x + n - 1) / n

/-- Floor of the binary logarithm; 0 for 0. -/
def flog2 (x : Nat) : Nat := Nat.log2 x

/-- Whether a number is a power of two. -/
def isPow2 (x : Nat) : Bool := x != 0 && 2 ^ flog2 x == x

/-- Population count of the low n bits. -/
def popcount (n x : Nat) : Nat := ((List.range n).filter fun i => bit x i).length

/-- A 64-bit value saturated at 2^64 - 1. -/
def sat64 (x : Nat) : Word64 := BitVec.ofNat 64 (min x (2 ^ 64 - 1))

/-- A 32-bit register image from fields (value, low bit). -/
def pack (fs : List (Nat × Nat)) : Word32 :=
  BitVec.ofNat 32 (fs.foldl (fun a f => a + f.1 * 2 ^ f.2) 0)

/-- A wider image from fields (value, low bit). -/
def packN (n : Nat) (fs : List (Nat × Nat)) : BitVec n :=
  BitVec.ofNat n (fs.foldl (fun a f => a + f.1 * 2 ^ f.2) 0)

/-- The fields of a list by position; a default past its end. -/
def nth {α : Type} (d : α) (l : List α) (i : Nat) : α := l.getD i d

/-- First element that satisfies a test, with the index it stands at. -/
def findIdx {α : Type} (p : α → Bool) : List α → Nat → Option (Nat × α)
  | [], _ => none
  | a :: l, i => if p a then some (i, a) else findIdx p l (i + 1)

/-- Apply a function to the elements that satisfy a test. -/
def updateWhere {α : Type} (p : α → Bool) (f : α → α) (l : List α) : List α :=
  l.map fun a => if p a then f a else a

/-- Insert in rising order without repeats. -/
def insertSorted : List Nat → Nat → List Nat
  | [], x => [x]
  | y :: ys, x => if x < y then x :: y :: ys else if x = y then y :: ys else y :: insertSorted ys x

end Sys2Proof.Machine
end

