-- ==== Sys2Proof/Machine/Codec.lean ====
section
/-!
DEFINITION. The codes the module computes over bytes: CRC-32 of flits (R431, R434), CRC-32C and the LZ4 decoder of
compressed pages (R118, R119).
-/

namespace Sys2Proof.Machine

/-- Eight steps of a reflected CRC with a given polynomial. -/
def crcByte (poly : Nat) : Nat → Nat → Nat
  | 0, c => c
  | n + 1, c => crcByte poly n (if c % 2 = 1 then (c / 2) ^^^ poly else c / 2)

/-- A reflected CRC over bytes, all-ones start and final inversion. -/
def crcOf (poly : Nat) (bs : List Byte) : Nat :=
  (bs.foldl (fun c b => crcByte poly 8 (c ^^^ b.toNat)) 0xFFFFFFFF) ^^^ 0xFFFFFFFF

/-- CRC-32C, Castagnoli polynomial (R118). -/
def crc32c (bs : List Byte) : Nat := crcOf 0x82F63B78 bs

/-- Length extension bytes of LZ4: 255 continues. -/
def lz4Len : List Byte → Nat → Option (Nat × List Byte)
  | [], _ => none
  | b :: bs, n => if b.toNat = 255 then lz4Len bs (n + 255) else some (n + b.toNat, bs)

/-- Copy n bytes from `off` back, byte by byte so that runs overlap. -/
def lz4Copy (off : Nat) : Nat → Array Byte → Array Byte
  | 0, out => out
  | n + 1, out => lz4Copy off n (out.push (out.getD (out.size - off) 0))

/-- LZ4 block decoding with fuel for the sequences; none when the block is malformed or the output passes 65,536 B. -/
def lz4Decode : Nat → List Byte → Array Byte → Option (Array Byte)
  | 0, _, _ => none
  | _ + 1, [], _ => none
  | f + 1, t :: src, out =>
    let lit := t.toNat / 16
    match (if lit = 15 then lz4Len src 15 else some (lit, src)) with
    | none => none
    | some (n, src) =>
      if src.length < n ∨ 65536 < out.size + n then none
      else
        let out := (src.take n).foldl (fun (o : Array Byte) b => o.push b) out
        match src.drop n with
        | [] => some out
        | [_] => none
        | a :: b :: src =>
          let off := a.toNat + 256 * b.toNat
          let ml := t.toNat % 16
          match (if ml = 15 then lz4Len src 15 else some (ml, src)) with
          | none => none
          | some (m, src) =>
            if off = 0 ∨ out.size < off ∨ 65536 < out.size + m + 4 then none
            else lz4Decode f src (lz4Copy off (m + 4) out)

/-- Undo the byte-plane shuffle of width w (R118). -/
def unshuffle (w : Nat) (x : Array Byte) : List Byte :=
  let n := 65536 / w
  (List.range 65536).map fun k => x.getD (k % w * n + k / w) 0

/-- SECTORS of an image's header (R118). -/
def imageSectors (h : List Byte) : Nat := bits (at8 h 0 4) 23 20

/-- The page a compressed image stands for; none when the image is corrupt (R118, R119). -/
def decodeImage (img : List Byte) : Option (List Byte) :=
  let h := at8 img 0 64
  let sectors := bits h 23 20
  let codec := bits h 19 16
  let clen := bits h 63 32
  if bits h 15 0 ≠ 0xC7F5 ∨ 2 < codec ∨ sectors = 0 ∨ clen = 0 ∨ sectors * 4096 - 64 < clen then none
  else
    match lz4Decode (clen + 1) ((img.drop 64).take clen) #[] with
    | none => none
    | some out =>
      if out.size ≠ 65536 then none
      else
        let page := if codec = 0 then out.toList else unshuffle (2 ^ codec) out
        if crc32c page = bits h 95 64 then some page else none

end Sys2Proof.Machine
end

