-- ==== Sys2Proof/Config.lean ====
section
/-!
DEFINITION. What one module fixes and what the manual leaves open: the free values. A free value is an opaque
constant, so nothing can be proved of it and every statement about it holds for every value.
-/

namespace Sys2Proof.Config

/-- Free value: the byte left in the n-th undefined destination byte (R123, R133, R138, R177, R209, R414).
Assumption log 3. -/
opaque freeByte : Nat → Byte

/-- Free value: the n-th choice the manual leaves undefined, or whose cause no command carries (whether a late write was
performed, R123; whether an access was in flight, R455; whether a lane trains or an adder fails, R445, R409).
Assumption log 3. -/
opaque freeBool : Nat → Bool

/-- Free value: the n-th choice among several the manual leaves open, taken modulo their number (which free handle of a
siding a producer acquires, R196), or a time that is not modelled (TURN of an echo, R443). Assumption log 3. -/
opaque freePick : Nat → Nat

/-- Free value: the image the compressor makes of a page (R117, R118: codec choice and match search are not
stated). Assumption log 4. -/
opaque compressedImage : List Byte → List Byte

/-- Free value: the reading that the module revision fixes at manufacture (0x1018.03, R494). Assumption log 5. -/
opaque revision : Word32

/-- Free value: the serial number fixed at manufacture (0x1018.04, R494). Assumption log 5. -/
opaque serial : Word32

/-- Free value: the Custodian firmware version string (0x1009.00, R494). Assumption log 5. -/
opaque firmware : List Byte

/-- Free value: the part number on the label and in the FRU EEPROM (R2, R583). Assumption log 140. -/
opaque partNumber : List Byte

/-- Free value: manufacturer and product name in the FRU EEPROM (R583). Assumption log 140. -/
opaque fruNames : List Byte × List Byte

/-- Free value: the bytes of the FRU EEPROM behind its product area (R583). Assumption log 140. -/
opaque fruRest : Nat → Byte

end Sys2Proof.Config
end

