-- ==== Sys2Proof/Machine/Table.lean ====
section
/-!
DEFINITION. Sparse tables: lists of (key, value) pairs with rising keys and no pair equal to the table's default, so
that equal tables are equal lists. Memory, counters and register arrays are such tables.
-/

namespace Sys2Proof.Machine

/-- A sparse table keyed by number. -/
abbrev Table (α : Type) := List (Nat × α)

/-- The value at a key; `d` where nothing is listed. -/
def Table.get {α : Type} (d : α) : Table α → Nat → α
  | [], _ => d
  | (k, v) :: t, a => if a = k then v else if a < k then d else Table.get d t a

/-- Set a key; a value equal to the default leaves no pair. -/
def Table.set {α : Type} [DecidableEq α] (d : α) : Table α → Nat → α → Table α
  | [], a, v => if v = d then [] else [(a, v)]
  | (k, w) :: t, a, v =>
    if a < k then (if v = d then (k, w) :: t else (a, v) :: (k, w) :: t)
    else if a = k then (if v = d then t else (k, v) :: t)
    else (k, w) :: Table.set d t a v

/-- The record at a key, where one is listed. -/
def Table.find {α : Type} : Table α → Nat → Option α
  | [], _ => none
  | (k, v) :: t, a => if a = k then some v else Table.find t a

/-- List a record under a key, in key order. -/
def Table.insert {α : Type} : Table α → Nat → α → Table α
  | [], a, v => [(a, v)]
  | (k, w) :: t, a, v =>
    if a < k then (a, v) :: (k, w) :: t
    else if a = k then (k, v) :: t
    else (k, w) :: Table.insert t a v

/-- Drop the record of a key. -/
def Table.erase {α : Type} (t : Table α) (a : Nat) : Table α := t.filter fun e => e.1 != a

/-- The canonical form: rising keys, no default listed. -/
def Table.canonical {α : Type} [DecidableEq α] (d : α) : Table α → Bool
  | [] => true
  | [(_, v)] => decide (v ≠ d)
  | (k, v) :: (k', v') :: t => decide (v ≠ d) && decide (k < k') && Table.canonical d ((k', v') :: t)

end Sys2Proof.Machine
end

