-- ==== Sys2Proof/Machine/State.lean ====
section
/-!
DEFINITION. The state of the module: every register, table, queue and mode the manual names, as plain data, and the
state after reset. Docstrings name the rule that gives the field; INVENTORY.md lists widths and reset values.
-/

namespace Sys2Proof.Machine

/-- One value per compute tile, in the tile order of R96. -/
structure PerTile (α : Type) where
  e0 : α
  e1 : α
  w0 : α
  w1 : α
deriving DecidableEq, Repr

/-- One value per wing. -/
structure PerWing (α : Type) where
  east : α
  west : α
deriving DecidableEq, Repr

/-- Why an access waits: for a page that a Junction has registered (R412), or for a demand frame without pins
(R111). -/
inductive WaitFor where
  | junction (w : Wing)
  | frames
deriving DecidableEq, Repr

/-! ### Compute tiles -/

/-- A retirement report of R158. -/
structure RetireReport where
  num : Word32
  struct : Nat
  part : Nat
  inst : Nat
deriving DecidableEq, Repr

/-- An outstanding transfer of the scoreboard (R79): the core whose memories it reads or writes, the task that made it,
the window offsets and lengths it names, and, for a transfer into the core, the bytes that land at its end. -/
structure CoreTransfer where
  core : Nat
  task : Nat
  write : Bool
  /-- Ranges of the core's window that it names: its banks and accumulator regions. -/
  ranges : List (Nat × Nat)
  data : List (Nat × List Byte) := []
  /-- Issued into an engine-class bank during the phase that makes it so: engine reads do not wait (R79). -/
  late : Bool := false
deriving DecidableEq, Repr

/-- The SCH_ block of one tile: Stationmaster and per-core registers. -/
structure Sch where
  /-- Factory defects: column to defective physical row (R21, R22). -/
  defects : Table Nat := []
  /-- STATE of SCH_CORE_STAT_n (R29). -/
  coreState : Table (BitVec 2) := []
  /-- Physical row of a logical position spared online; listed means ON_SPARE (R23, R29). -/
  onSpare : Table Nat := []
  /-- Positions whose spare's cluster is powering up (R553). -/
  sparing : List Nat := []
  /-- SCH_CONF_FIRST of each core (R94). -/
  confFirst : Table Word32 := []
  /-- SCH_LAT_MAX of each core (R94). -/
  latMax : Table Word32 := []
  /-- Virtual time of each partition (R156, R160). -/
  vtime : Table Word64 := []
  /-- Queue of retirement reports, oldest first (R158). -/
  retireQ : List RetireReport := []
  /-- SCH_RETIRE_HI latch (R158). -/
  retireHi : Word32 := 0
  shapeFirst : Word32 := 0
  shapeRt : Word32 := 0
  shapePlan : Word32 := 0
  stallInfo : Word32 := 0
  stallTag : Word32 := 0
  dlInfo : Word32 := 0
  dlTag : Word32 := 0
  heldInfo : Word32 := 0
  heldNeed : Word32 := 0
  /-- Outstanding transfers of the tile's cores, oldest first (R79, R122). -/
  transfers : List CoreTransfer := []
  /-- Accumulator regions of each core that an engine run holds (R89). -/
  busy : Table (List Nat) := []
  /-- Scale buffer of each core: the row of scales read last (R73). -/
  scales : Table (List Byte) := []
  /-- Pass-through buffer of each core's DMA port: the bytes passed last, 4 KiB at most (R74). -/
  through : Table (List Byte) := []
  /-- Statistics counters of the SCH_ block by offset, SCH_BANK_CONF_b among them (R94, R159, R191, R216, R263, R283, R570). -/
  ctrs : Table Word64 := []
deriving DecidableEq, Repr

/-- Kinds of window-buffer frame (R110). -/
inductive FrameKind where
  | stream | demand | staging
deriving DecidableEq, Repr

/-- One assigned frame of a window buffer (R110). -/
structure Frame where
  owner : Nat
  kind : FrameKind
  /-- Physical 64 KiB page held. -/
  page : Nat := 0
  valid : Bool := false
  /-- A fill is on its way (R111). -/
  filling : Bool := false
  dirty : BitVec 16 := 0
  pins : Nat := 0
  /-- Segment of a stream frame: layer and segment number. -/
  seg : Option (Nat × Nat) := none
  /-- Pseudo-channel of a stuck write-back that holds the frame outside its partition's counts (R124). -/
  stuck : Option Nat := none
  /-- Order of last use (R111). -/
  used : Nat := 0
  /-- Task that holds a staging frame (R184). -/
  task : Option Nat := none
  /-- Tasks whose accesses wait on the fill (R111, R124). -/
  waiters : List Nat := []
deriving DecidableEq, Repr

/-- A cached translation (R106). -/
structure TlbEntry where
  part : Nat
  va : Nat
  size : Nat
  leaf : Nat
deriving DecidableEq, Repr

/-- Schedule mode of one partition on one tile (R116). -/
structure Schedule where
  table : Nat
  count : Nat
  depth : Nat
  index : Nat := 0
  stopped : Bool := false
  /-- Segment of the entry marked LAST, once loaded. -/
  lastSeg : Option (Nat × Nat) := none
deriving DecidableEq, Repr

/-- A row repair item (R549, R554). -/
structure RowRepair where
  pc : Nat
  row : Nat
  unitsLeft : Nat
  forcedSeen : Bool := false
deriving DecidableEq, Repr

/-- A calibration or scrub item of one resource (R450, R554, R555). -/
structure SlotItem where
  done : Nat := 0
  forcedSeen : Bool := false
deriving DecidableEq, Repr

/-- The memory system of one tile: MEM_ block, window buffer and upkeep. -/
structure TileMem where
  faultInfo : Word32 := 0
  faultLo : Word32 := 0
  faultHi : Word32 := 0
  ctrs : Table Word64 := []
  tlb : List TlbEntry := []
  /-- Frame directory by frame number (R108, R110). -/
  frames : Table Frame := []
  /-- Schedule mode by partition (R116). -/
  sched : Table Schedule := []
  /-- MEM_RETIRE_STAT.USED (R568). -/
  used : Bool := false
  /-- MEM_RETIRE_STAT.EN (R568). -/
  en : Bool := true
  moving : Bool := false
  unspared : Bool := false
  retiredPc : Nat := 0
  /-- MEM_MOVE_POS (R568). -/
  movePos : Nat := 0
  /-- Sector count with which the last compress move of the tile completed (R117). -/
  sectors : Nat := 0
  /-- Uncorrectable reads of each pseudo-channel in this scrub period (R550). -/
  ueCount : Table Nat := []
  /-- Pseudo-channels that failed training and have no spare (R551). -/
  dead : List Nat := []
  /-- Distinct bursts with correctable errors, by row key 2^20 pc + row (R549). -/
  rowCe : Table (List Nat) := []
  repairs : List RowRepair := []
  cal : Table SlotItem := []
  scrub : Table SlotItem := []
deriving DecidableEq, Repr

/-- A look-aside entry: partition, edition, sequence, position / 4,096 and the level-2 entry (R298). -/
structure LabEntry where
  part : Nat
  edition : Word32
  seq : Nat
  span : Nat
  entry : Nat
deriving DecidableEq, Repr

/-- The Porter of one tile: PW_ block. The look-aside buffer lists the most recently used entry first (R298). -/
structure Porter where
  faultInfo : Word32 := 0
  faultSeq : Word32 := 0
  faultPos : Word32 := 0
  lab : List LabEntry := []
  ctrs : Table Word64 := []
deriving DecidableEq, Repr

/-- The Catalogue registers of one tile: CAT_ block (R386 to R389). -/
structure Catalogue where
  faultInfo : Word32 := 0
  faultId : Word32 := 0
  ctrs : Table Word64 := []
deriving DecidableEq, Repr

/-! ### Editions -/

/-- One live edition: number, base address, header as read at the swap, and, for the partition configuration, its
bytes as read (R37, R150). -/
structure Edition where
  num : Word32
  base : Nat
  hdr : Nat := 0
  copy : List Byte := []
deriving DecidableEq, Repr

/-- Where a swap in an instance's queue stands (R37, R41, R154). -/
inductive SwapStage where
  | queued
  | held
  | drain
  | applying (pending : List PinUnit)
deriving DecidableEq, Repr

/-- One edition swap waiting or being applied. -/
structure Swap where
  func : Func
  ring : Nat
  entry : Entry
  sqHead : Nat := 0
  answer : Bool := true
  stage : SwapStage := .queued
  /-- The new edition, once judged; none for a withdrawal. -/
  edition : Option Edition := none
deriving DecidableEq, Repr

/-- A structure instance (R36). -/
structure Inst where
  home : Tile := .e0
  part : Nat := 0
  current : Option Word32 := none
  live : List Edition := []
  /-- The edition current at each pinning unit (R38, R318). -/
  atUnit : List (PinUnit × Option Word32) := []
  swaps : List Swap := []
deriving DecidableEq, Repr

/-! ### Tasks -/

/-- A pin: instance, edition number, captured bound (R39, R43). -/
structure Pin where
  inst : Instance
  num : Word32
  bound : Nat := 0
deriving DecidableEq, Repr

/-- A row of the row-statistics unit with its running output, all FP32 (R232). -/
structure Row where
  m : Word32
  l : Word32
  o : List Word32
deriving DecidableEq, Repr

/-- A finished output tile on its way through the epilogue and the write (R179). -/
structure OutTile where
  /-- Step at which the tile was finished. -/
  at_ : Nat
  /-- Level indices of the tile's origin. -/
  point : List Nat
  /-- A elements of an element-wise tile, as the vector unit took them (R170). -/
  vec : List Word32 := []
deriving DecidableEq, Repr

/-- The walk of one core of a loop task (R176 to R179). -/
structure CoreWalk where
  first : Nat
  units : Nat
  /-- Next tile step. -/
  step : Nat := 0
  /-- Parity offset: steps run before this iteration (R203). -/
  base : Nat := 0
  /-- The same for the two sets of accumulator blocks (R179). -/
  setBase : Nat := 0
  outs : List OutTile := []
  done : Bool := false
  /-- The fills of A and of B for step 0 have been issued (R179, R203). -/
  fillA : Bool := false
  fillB : Bool := false
deriving DecidableEq, Repr

/-- A small transfer held for merging: whether it writes, its end address, its length, the phase it was made in, and,
for a transfer between two memories, the end of its source (R206). -/
structure MergeHold where
  write : Bool
  stop : Nat
  len : Nat
  phase : Nat
  source : Option Nat := none
deriving DecidableEq, Repr

/-- Loop work: selected bucket and the cores' walks (R172, R176). -/
structure LoopWork where
  bucket : Nat
  walks : Table CoreWalk := []
  /-- Tiles of multicast operands A and B delivered so far on each compute tile (R185). -/
  delivA : Table Nat := []
  delivB : Table Nat := []
deriving DecidableEq, Repr

/-- What a part core of a backward task holds of one row beside its query: the codes of dO, lse and delta (R253). -/
structure BackIn where
  dO : List Nat
  lse : Word32
  delta : Word32
deriving DecidableEq, Repr

/-- Chain work (R225 to R243, R253). Rows of a backward task carry dQ in their o. -/
structure ChainWork where
  /-- Captured sequence record (R291); 0 for CARS. -/
  record : Nat := 0
  /-- Mask descriptor; 0 when none (R304). -/
  mask : Nat := 0
  /-- Rotary fractions F_i (R306). -/
  rope : List Nat := []
  /-- Tokens of each car of a CARS task (R338). -/
  carTokens : Nat := 0
  /-- The prologue's rows of each rank of a backward task (R253). -/
  back : Table (List BackIn) := []
  /-- Rows of each part by rank (R225). -/
  parts : Table (List Row) := []
  /-- Incoming state of each head group, then its merged rows (R239, R242). -/
  state : Table (List Row) := []
  /-- Cars finished; those of both passes of a two-pass task (R248, R352). -/
  carsDone : Nat := 0
  /-- Every part has applied its last key block (R237). -/
  complete : Bool := false
  /-- Row tiles that have arrived of each part at key 512 h + j (R238). -/
  arrived : Table Nat := []
  /-- Row tiles merged of each part, at the same keys. -/
  merged : Table Nat := []
  /-- Head groups finished and written (R240, R242). -/
  finished : List Nat := []
deriving DecidableEq, Repr

/-- A handle a stage holds: binding, siding, handle number, last mark. -/
structure HeldHandle where
  binding : Nat
  siding : Nat
  handle : Nat
  last : Bool := false
deriving DecidableEq, Repr

/-- Why a stage is blocked (R210). -/
inductive BlockReason where
  | take (siding : Nat)
  | acquire (siding : Nat)
  | frames
deriving DecidableEq, Repr

/-- One iteration of a stage under way (R201 to R203). -/
structure StageRun where
  held : List HeldHandle := []
  loop : LoopWork
  /-- The iteration is the last one, known once every handle is held (R201). -/
  final : Bool := false
  /-- Its input handles have been returned (R201). -/
  returned : Bool := false
  /-- A core has run a drain step of it alone (R203). -/
  drained : Bool := false
deriving DecidableEq, Repr

/-- Stage work (R201 to R203). -/
structure StageWork where
  /-- Number of the running iteration. -/
  iter : Nat := 0
  /-- The running iteration, then those that the sequencer has begun ahead of its end (R203). -/
  runs : List StageRun := []
  /-- Small transfer that each rank's DMA port holds for merging (R206). -/
  merge : Table MergeHold := []
  /-- Count at the last commit, or at dispatch (R207), and whether this iteration's deadline has been missed. -/
  lastCommit : Nat := 0
  iterMissed : Bool := false
  /-- Bucket selected at issue (R204). -/
  bucket : Nat := 0
  /-- Schedule entry index of a LOAD stage (R201). -/
  sched : Nat := 0
  /-- The load of the running iteration waits for stream frames (R205). -/
  waiting : Bool := false
  ended : Bool := false
deriving DecidableEq, Repr

/-- What a task's units are doing. -/
inductive Work where
  | none
  | loop (x : LoopWork)
  | chain (x : ChainWork)
  | stage (x : StageWork)
  /-- A Catalogue task: done once its results are written. -/
  | cat (done : Bool)
  | coll (done : Bool)
  /-- A move: done, or a stage load waiting for frames. -/
  | move (done : Bool) (waiting : Bool)
deriving DecidableEq, Repr

/-- Life of an issued task (R140 to R142, R590). -/
inductive TaskStatus where
  | waiting
  | running
  | stopping (cause : BitVec 16)
deriving DecidableEq, Repr

/-- An issued task that has not ended (R139, R590). -/
structure Task where
  id : Nat
  func : Func
  ring : Nat
  part : Nat
  home : Tile
  hdr : Entry
  /-- SQ_HEAD after the entry was fetched (R476), and whether a completion entry is still owed (R482). -/
  sqHead : Nat := 0
  answer : Bool := true
  body : List Byte := []
  /-- Second body: the loop body of a COMPUTE stage, the block entries of a Catalogue query. -/
  body2 : List Byte := []
  plan : List Byte := []
  issueTick : Word64
  dispatchTick : Word64 := 0
  status : TaskStatus := .waiting
  /-- Tiles that carry the task, once dispatched (R134). -/
  tiles : List Tile := []
  /-- Core indices granted, ascending (R25, R141). -/
  cores : List Nat := []
  /-- Bank-plan phase each core is in, by rank (R76). -/
  phases : Table Nat := []
  pins : List Pin := []
  /-- Staging frames reserved on each tile (R184). -/
  staging : Nat := 0
  /-- Arithmetic flags of R54. -/
  flags : BitVec 5 := 0
  planv : Bool := false
  /-- Strict setting sampled at issue (R92). -/
  strict : Bool := false
  /-- Special-function class sampled at issue (R266). -/
  iterative : Bool := false
  /-- Rotary settings sampled at issue (R306). -/
  ropeVa : Nat := 0
  ropePair : Nat := 0
  zeroWork : Bool := false
  /-- Destination ranges that a task running at the same time also wrote (R177). -/
  clash : List (Nat × Nat) := []
  deadlineMissed : Bool := false
  /-- What the task waits for without cores at work, and the tick at which a stall check first saw it (R210). -/
  blocked : Option (BlockReason × Nat) := none
  work : Work := .none
deriving DecidableEq, Repr

/-- A command that has been performed in part and waits (R106, R194, R482). -/
inductive CmdWait where
  | mapInvalidate (tasks : List Nat)
  | sidingClose
  | partitionReset (part : Nat)
deriving DecidableEq, Repr

/-- A waiting command. -/
structure Cmd where
  func : Func
  ring : Nat
  entry : Entry
  sqHead : Nat := 0
  answer : Bool := true
  wait : CmdWait
deriving DecidableEq, Repr

/-! ### Sidings -/

/-- Handle states of R195. -/
inductive HandleState where
  | acquired (stream : Nat)
  | full (stream : Nat)
  | taken (stream : Nat)
deriving DecidableEq, Repr

/-- An open siding (R192, R195, R197). -/
structure Siding where
  part : Nat
  wing : Wing
  num : Nat
  desc : Nat
  home : Tile
  /-- State of each handle that is not free. -/
  handles : Table HandleState := []
  /-- Full handles in commit order: handle, stream, last mark. -/
  queue : List (Nat × Nat × Bool) := []
  /-- Segment held by a handle of a segment siding: layer, segment, pages, VA. -/
  segs : Table (Nat × Nat × Nat × Nat) := []
deriving DecidableEq, Repr

/-! ### Timetable and car sets -/

/-- LOCK of TT_STAT (R356). -/
inductive Lock where
  | down | acquiring | locked | holdover
deriving DecidableEq, Repr

/-- Sending one car or notice (R344, R347): consecutive refusals, and the patience timer at the first that counts. -/
inductive SendPhase where
  | ready (refusals : Nat) (since : Option Nat)
  | offered (refusals : Nat) (since : Option Nat)
  | backoff (refusals : Nat) (since : Option Nat)
  | admitted
  | sent
deriving DecidableEq, Repr

/-- An abort notice to be sent to the successor (R340, R345). -/
structure Notice where
  key : CarSetKey
  header : Entry
  phase : SendPhase := .ready 0 none
deriving DecidableEq, Repr

/-- The Timetable of one wing. -/
structure Timetable where
  /-- The counter runs: step 1 of the wake has ended (R333). -/
  running : Bool := false
  count : Word64 := 0
  slot : Nat := 0
  frac : Nat := 0
  lock : Lock := .down
  source : Bool := false
  follow : Option Neighbour := none
  hops : BitVec 8 := 0xFF
  /-- Inconsistent by its own configuration (R324). -/
  ownBad : Bool := false
  /-- Inconsistent by a received beat or token, or by a count ahead (R324, R330). -/
  beatBad : Bool := false
  goodBeats : Nat := 0
  farBeats : Nat := 0
  /-- Ticks for which a count ahead of its source still stands (R330). -/
  hold : Nat := 0
  /-- The count was ahead of the advance tokens and waits to be passed (R333). -/
  ahead : Bool := false
  /-- Rate correction in 2^-8 slot per beat (R329). -/
  rate : Int := 0
  /-- The last beat of each neighbour: HOPS and local tick of its arrival (R329). -/
  beatP : Option (Nat × Nat) := none
  beatS : Option (Nat × Nat) := none
  /-- The count has been set from the followed source since acquiring began (R330). -/
  stepped : Bool := false
  /-- Local ticks since the last beat or token of the followed neighbour, outside windows (R330, R332). -/
  sinceBeat : Nat := 0
  /-- Local timer, and its ticks outside windows (R334, R337). -/
  localTicks : Nat := 0
  openTicks : Nat := 0
  /-- Local tick at which listening began (R327). -/
  listenFrom : Option Nat := none
  /-- Count at which the last beat was emitted (R328). -/
  emitted : Option Nat := none
  winStart : Word64 := 0
  winTicks : Word32 := 0
  window : Bool := false
  ttError : Word32 := 0
  countHi : Word32 := 0
  failInfo : Word32 := 0
  failSet : Word32 := 0
  /-- An arrive token held until the stop is ready (R335). -/
  arriveHeld : Option (BitVec 256) := none
  /-- A barrier of this master is on its way (R335). -/
  barrier : Bool := false
  /-- Local tick at which the last barrier completed (R335). -/
  lastBarrier : Nat := 0
  /-- Abort notices not yet admitted by the successor, oldest first (R345). -/
  notices : List Notice := []
  ctrs : Table Word64 := []
deriving DecidableEq, Repr

/-- Life of a car set (R340). -/
inductive CarSetPhase where
  | armed
  | running
  | done
  | failed (cause : BitVec 16)
deriving DecidableEq, Repr

/-- One ring step of a car set at this stop (R346 to R350). -/
structure CarStep where
  /-- Headers admitted for the step, by car index (R343). -/
  admitted : Table Entry := []
  /-- Cars received in full, by car index. -/
  received : Table Entry := []
  /-- The origin's empty marker has been received (R348). -/
  empty : Option Entry := none
  /-- The sends have begun (R347), and each one by car index. -/
  sending : Bool := false
  sends : Table SendPhase := []
  free : Bool := false
deriving DecidableEq, Repr

/-- A started car set (R338 to R350). -/
structure CarSet where
  key : CarSetKey
  desc : Nat
  phase : CarSetPhase := .armed
  steps : Table CarStep := []
deriving DecidableEq, Repr

/-! ### The Junction -/

/-- Role of a context (R399). -/
inductive CollRole where
  | root | member | relay
deriving DecidableEq, Repr

/-- A count message as the root recorded it (R400). -/
structure Arrival where
  tick : Nat
  signature : Word32
  count : Nat
  capacity : Nat
  partials : Nat
deriving DecidableEq, Repr

/-- A message that a Junction could not take, held back by link credits (R399): a count message whose root has no context
yet, or one that passes through where no context is free; a chunk among the latter counts when it goes on. -/
inductive HeldMessage where
  | count (key : CollKey) (member : Nat) (arrival : Arrival)
  | passing (key : CollKey) (chunk : Bool)
deriving DecidableEq, Repr

/-- An open collective context (R399). -/
structure Coll where
  key : CollKey
  role : CollRole
  task : Option Nat
  broadcast : Bool
  arrivals : Table Arrival := []
  n : Option Nat := none
  /-- True: direct exchange; false: fixed tree (R403). -/
  direct : Bool := false
  lane : Bool := false
  rerun : Bool := false
  /-- Next chunk to be made or received. -/
  chunk : Nat := 0
  /-- Arrived partials waiting in slots: member, core, chunk, data (R406). -/
  waiting : List (Nat × Nat × Nat × List Byte) := []
  /-- RPOS of each live member, as its record gives it (R393). -/
  rpos : Table Nat := []
  /-- The running chunk's sum so far, and how many partials of each member are in it (R406). -/
  acc : Option (List Nat) := none
  taken : Table Nat := []
  /-- Members with an unanswered data request, and since which tick (R402). -/
  asked : Table Nat := []
  flags : BitVec 5 := 0
  /-- Registered pages, by physical page number: retained and provisional (R412). -/
  retained : List Nat := []
  provisional : List Nat := []
  /-- Tick of the count message, or of the last message or chunk since (R402). -/
  since : Nat := 0
deriving DecidableEq, Repr

/-- The Junction of one wing. -/
structure Junction where
  laneSel : Bool := false
  laneFailed : BitVec 2 := 0
  faultInfo : Word32 := 0
  faultSeq : Word32 := 0
  slowInfo : Word32 := 0
  slowLag : Word32 := 0
  ctxs : List Coll := []
  held : List HeldMessage := []
  /-- Members cleared from each group's live mask (R395, R416). -/
  lost : Table (List Nat) := []
  /-- Members of each group whose loss has re-formed it (R416). -/
  gone : Table (List Nat) := []
  /-- Parents after a re-form, at key 256 group + member (R416). -/
  parents : Table Nat := []
  ctrs : Table Word64 := []
deriving DecidableEq, Repr

/-! ### Links -/

/-- Port states of R440, and those of the Concourse (R459). -/
inductive PortState where
  | down | training | up | dark | disabled
deriving DecidableEq, Repr

/-- What a header or a body flit carries: a car set, the sender's step and index of the car, and the header's KIND
(R341, R342). -/
structure SentCar where
  key : CarSetKey
  step : Nat
  car : Nat
  kind : Nat := 0
deriving DecidableEq, Repr

/-- A flit but for what its link adds: TYPE, CLASS, HSEQ, ANSWER and payload (R432, R433). -/
structure FlitBody where
  type : Nat
  cls : Nat
  hseq : Nat := 0
  answer : BitVec 16 := 0
  payload : List Byte := []
  /-- The car it belongs to, and whether it is the car's last flit. -/
  car : Option (SentCar × Bool) := none
  /-- Whether it has been on the link before: a header then keeps its HSEQ (R342, R446). -/
  resent : Bool := false
deriving DecidableEq, Repr

/-- A flit kept for replay: sequence number, contents, the bits as sent, times replayed (R435, R437). -/
structure SentFlit where
  seq : BitVec 12
  body : FlitBody
  image : Flit
  replays : Nat := 0
deriving DecidableEq, Repr

/-- A car header sent and not yet answered (R342). -/
structure SentHeader where
  hseq : Nat
  car : SentCar
deriving DecidableEq, Repr

/-- The link layer of one link end (R431 to R439). -/
structure Link where
  nextSeq : BitVec 12 := 0
  /-- Expected SEQ x (R436). -/
  expected : BitVec 12 := 0
  nakOut : Bool := false
  replay : List SentFlit := []
  /-- Flits that wait for a credit or for room in the replay buffer, oldest first (R435, R439). -/
  waiting : List FlitBody := []
  /-- Credits this end may still use, by class (R439). -/
  credits : Table Nat := []
  /-- Last CR_TOTAL seen from the partner, by class. -/
  crSeen : Table Nat := []
  /-- Running total of credits this end has returned, by class, and those withheld before SERVICE (R532). -/
  crGiven : Table Nat := []
  crHeld : Table Nat := []
  /-- Turn of the class whose total the next flit reports. -/
  crTurn : Nat := 0
  nextHseq : Nat := 0
  unanswered : List SentHeader := []
  /-- Answers to received car headers that no flit has carried yet, oldest first (R342, R438). -/
  answers : List (BitVec 16) := []
  /-- Sequenced flits delivered to the units above: type, payload, oldest first (the model's own output). -/
  delivered : List (Nat × List Byte) := []
deriving DecidableEq, Repr

/-- A fabric port (R426, R440 to R448). -/
structure Port where
  state : PortState := .down
  gen : Nat := 0
  fallback : Bool := false
  lanes : BitVec 8 := 0
  /-- Lanes retired since the last training (R444, R445). -/
  retired : BitVec 8 := 0
  /-- Training keeps the sequence state (R440). -/
  kept : Bool := false
  /-- A failed attempt waits for its retry (R442). -/
  retry : Bool := false
  signal : Bool := false
  peer : Word32 := 0
  peerKnown : Bool := false
  lat : Word32 := 0
  /-- Tick at which the port last left Up (R402, R447). -/
  leftUp : Nat := 0
  /-- Uncorrectable codewords of each lane: the LNK_CAL_PERIOD counted in, and their number (R444). -/
  laneErrs : Table (Nat × Nat) := []
  cal : Table SlotItem := []
  link : Link := {}
deriving DecidableEq, Repr

/-- The Concourse (R451 to R455). -/
structure Concourse where
  state : PortState := .down
  bundles : BitVec 9 := 0
  /-- Bundles retired since the last Concourse training (R454). -/
  retired : BitVec 9 := 0
  /-- Tick at which the Concourse last left Up (R402). -/
  leftUp : Nat := 0
  /-- CRC failures of each bundle: the LNK_CAL_PERIOD counted in, and their number (R454). -/
  bundleErrs : Table (Nat × Nat) := []
  cal : Table SlotItem := []
  east : Link := {}
  west : Link := {}
  /-- Doorbells of West-homed rings kept by EIO: ring key, head or tail, value (R455). -/
  doorbells : List (Nat × Bool × Word32) := []
deriving DecidableEq, Repr

/-! ### Host interface -/

/-- What the module writes to the host: completion entries, events, MSI-X messages (R475, R478, R562). -/
inductive HostWrite where
  | completion (f : Func) (ring : Nat) (addr : Nat) (entry : BitVec 128)
  | event (addr : Nat) (record : BitVec 128)
  | msix (f : Func) (vector : Nat)
deriving DecidableEq, Repr

/-- One submission and completion ring pair (R472 to R478). -/
structure Ring where
  sqBase : Word64 := 0
  cqBase : Word64 := 0
  /-- RING_CFG.SIZE_LOG2, HOME, ENABLE. -/
  sizeLog2 : Nat := 0
  home : Tile := .e0
  enable : Bool := false
  enabled : Bool := false
  error : Bool := false
  cfgErr : Bool := false
  errKind : Nat := 0
  sqHead : Nat := 0
  sqTail : Nat := 0
  cqHead : Nat := 0
  /-- Entries fetched whose completion entries the CQ head has not yet passed (R475). -/
  owed : Nat := 0
  /-- Next completion position and its phase (R475). -/
  cqPos : Nat := 0
  phase : Bool := false
  /-- RING_IRQ. -/
  irqEn : Bool := false
  vector : Nat := 0
  coalCount : Nat := 1
  coalDelay : Nat := 0
  /-- Completion entries written since the last message (R478). -/
  unsignalled : Nat := 0
  /-- Entries fetched whose issue check has not begun, with SQ_HEAD after each (R475, R590). -/
  fetched : List (Entry × Nat) := []
  /-- Fetched entries whose completion entries have not been written. -/
  open_ : Nat := 0
  /-- Completion entries waiting for Bus Master Enable or the Concourse (R455, R477). -/
  heldEntries : List (BitVec 128) := []
deriving DecidableEq, Repr

/-- One function's page (R467, R488). -/
structure FuncPage where
  hostBase : Word64 := 0
  winVa : Word64 := 0
  winFault : Bool := false
  busMaster : Bool := false
  /-- MSI-X table words and Pending Bit Array by word index (R478). -/
  msix : Table Word32 := []
  pba : Table Word32 := []
deriving DecidableEq, Repr

/-- The PF0 mailbox (R504). -/
structure Mailbox where
  req : Table Byte := []
  rsp : Table Byte := []
  irqEn : Bool := false
  busy : Bool := false
  done : Bool := false
  rspLen : Nat := 0
deriving DecidableEq, Repr

/-- The event queue and cause log (R560, R562, R569). -/
structure Logs where
  evqBase : Word64 := 0
  evqSize : Nat := 0
  evqEnable : Bool := false
  evqHead : Nat := 0
  evqTail : Nat := 0
  evqPhase : Bool := false
  ovf : Bool := false
  cfgErr : Bool := false
  /-- Event records the West wing holds while it cannot reach EIO. -/
  westEvents : List (BitVec 128) := []
  clog : Table (BitVec 256) := []
  clogSeq : Word32 := 0
  clogSel : Nat := 0
  clogLatch : List Word32 := []
  /-- Entries WIO holds while the Concourse is down (R560). -/
  westLog : List (BitVec 256) := []
deriving DecidableEq, Repr

/-- The HIF_ block and the port (R462 to R490). -/
structure Hif where
  linkUp : Bool := false
  speed : BitVec 4 := 0
  width : Nat := 0
  flit : Bool := false
  cxl : Bool := false
  vfEnable : Bool := false
  resetting : BitVec 16 := 0
  pf0Resetting : Bool := false
  /-- Physical ranges that a partition's reset writes to zero before it ends (R315, R483). -/
  zeroing : Table (List (Nat × Nat)) := []
  /-- Commands that PF0's rings had fetched before a PF0 reset and that have not begun: ring, home, entry (R482). -/
  orphans : List (Nat × Tile × Entry) := []
  pages : Table FuncPage := []
  rings : Table Ring := []
  mbx : Mailbox := {}
  logs : Logs := {}
  ctrs : Table Word64 := []
deriving DecidableEq, Repr

/-! ### The Custodian -/

/-- Filter state of one channel (R512, R513). -/
structure Channel where
  samples : List Int := []
  median : Int := 0
  y : Option Int := none
  filtered : Int := 0
deriving DecidableEq, Repr

/-- Activity of one rule (R515). -/
structure RuleState where
  active : Bool := false
  trueRun : Nat := 0
  clearRun : Nat := 0
deriving DecidableEq, Repr

/-- One trip-log entry: ms, rule, action, channel, value (R517). -/
structure Trip where
  ms : Word64
  rule : Nat
  action : Nat
  channel : Nat
  value : Int
deriving DecidableEq, Repr

/-- A request in the Custodian's queue (R496). -/
inductive DictReq where
  | frame (fd : CanFormat) (bytes : List Byte)
  | mailbox (msg : List Byte)
deriving DecidableEq, Repr

/-- An open segmented transfer (R501, R502). -/
structure Transfer where
  write : Bool
  index : Nat
  sub : Nat
  total : Nat
  expect : Nat := 0
  offset : Nat := 0
  data : List Byte := []
  fd : CanFormat := .classic
deriving DecidableEq, Repr

/-- Device states of R506. -/
inductive DevState where
  | depot | shunt | service | limited | halt | waking | leaving | toDepot
deriving DecidableEq, Repr

/-- A CAN frame the Custodian sends: identifier and bytes (R498). -/
structure CanFrame where
  ident : Nat
  bytes : List Byte
  fd : CanFormat := .classic
deriving DecidableEq, Repr

/-- The Custodian (R491 to R520). -/
structure Custodian where
  state : DevState := .depot
  target : DevState := .depot
  limitedReasons : Word32 := 0
  haltRule : BitVec 8 := 0xFF
  /-- Values written, at key 256 index + sub; an entry not listed holds its default (R491). -/
  dict : Table (List Byte) := []
  /-- The non-volatile store (R493). -/
  store : Table (List Byte) := []
  worn : Bool := false
  /-- Node id, arbitration and data rates in force since input power (R494, R580). -/
  node : Nat := 127
  arbRate : Nat := 0
  dataRate : Nat := 2
  strap : Nat := 127
  queue : List DictReq := []
  canXfer : Option Transfer := none
  mbxXfer : Option Transfer := none
  channels : Table Channel := []
  rules : Table RuleState := []
  alertN : Bool := true
  trips : List Trip := []
  /-- ms since input power (R517, R522). -/
  ms : Word64 := 0
  wakeFail : Nat := 0
  wakeFails : Nat := 0
  mainLoss : Nat := 0
  /-- Main power was lost without a CUT and the recovery of R523 is still to come. -/
  lost : Bool := false
  /-- WAKE actions are ignored after a failed wake (R526). -/
  wakeIgnored : Bool := false
  /-- Dictionary writes held for the main device (R492). -/
  heldWrites : List (Nat × List Byte) := []
deriving DecidableEq, Repr

/-! ### Power -/

/-- Cluster states of R533. -/
inductive ClusterState where
  | run | gated | retention | off
deriving DecidableEq, Repr

/-- A power cluster (R533, R534, R542). -/
structure Cluster where
  state : ClusterState := .run
  point : Nat := 0
  load : Nat := 0
  cap : Nat := 0
  temp : Nat := 0
  /-- Consecutive samples above 105 °C, and below 100 °C (R534). -/
  hot : Nat := 0
  cool : Nat := 0
  /-- A change of point is running towards this point (R534). -/
  changing : Option Nat := none
  /-- The exit from clock-gated or retention is running (R533). -/
  waking : Bool := false
deriving DecidableEq, Repr

/-- A stack (R535, R542). -/
structure Stack where
  selfRefresh : Bool := false
  refresh2x : Bool := false
  temp : Nat := 0
  /-- Pseudo-channels powered down (R535). -/
  down : List Nat := []
deriving DecidableEq, Repr

/-- Rails, wake and block power (R521 to R543). -/
structure Power where
  inputPower : Bool := true
  /-- GOOD of PWR_RAIL_STAT per wing (R542). -/
  good : PerWing (BitVec 6) := ⟨0, 0⟩
  /-- PHASE_LOST of PWR_RAIL_STAT per wing (R542). -/
  phaseLost : PerWing (BitVec 6) := ⟨0, 0⟩
  pwrGood : Bool := false
  /-- Wake steps of R527 completed. -/
  wakeStep : Nat := 0
  /-- PERST_N level: true when deasserted (R511). -/
  perstN : Bool := false
  /-- WAKE_N level: true when not asserted (R579). -/
  wakeN : Bool := true
  /-- The PCIe port is held in reset (R529). -/
  portReset : Bool := true
  clusters : Table Cluster := []
  dram : Table Stack := []
  ctrs : PerWing (Table Word64) := ⟨[], []⟩
deriving DecidableEq, Repr

/-! ### The module -/

/-- What stops a step with a fault: nothing does. The manual confines every fault of the block to the work that
meets it (R6, R545) and keeps the module going, so this inductive has no constructor; safe. -/
inductive Fault where
deriving DecidableEq, Repr

/-- What stops a step with a refusal. -/
inductive Refusal where
  /-- Raised by exec's arm of a command that has no meaning yet; safe, since nothing is claimed of it. -/
  | notModelled (mnemonic : String)
deriving DecidableEq, Repr

/-- The state of the module. -/
structure State where
  /-- Commands waiting, first in first out (the model's own field). -/
  pending : List Instr := []
  /-- Bytes of the on-chip range and of stacked memory, by physical address (R95); unlisted bytes read 0. -/
  mem : List Host.Cell := []
  /-- Poisoned 64 B bursts, by physical address / 64 (R548). -/
  poison : List Nat := []
  sch : PerTile Sch := ⟨{}, {}, {}, {}⟩
  tmem : PerTile TileMem := ⟨{}, {}, {}, {}⟩
  porter : PerTile Porter := ⟨{}, {}, {}, {}⟩
  cat : PerTile Catalogue := ⟨{}, {}, {}, {}⟩
  insts : List (Instance × Inst) := []
  tasks : List Task := []
  /-- Next task number (the model's own name for issue order, R590). -/
  nextTask : Nat := 0
  cmds : List Cmd := []
  sidings : List Siding := []
  tt : PerWing Timetable := ⟨{}, {}⟩
  carSets : PerWing (List CarSet) := ⟨[], []⟩
  jn : PerWing Junction := ⟨{}, {}⟩
  /-- Ports by fabric port number q = 6 wing + p (R426). -/
  ports : Table Port := []
  cc : Concourse := {}
  /-- Statistics counters of each wing's LNK_ block (R460, R570). -/
  lnkCtrs : PerWing (Table Word64) := ⟨[], []⟩
  hif : Hif := {}
  cst : Custodian := {}
  power : Power := {}
  /-- COUNT_HI latches of the host path and of the Custodian path (R558). -/
  hiHost : Word32 := 0
  hiCst : Word32 := 0
  /-- Data returned to the last read command, and whether it was poisoned (the model's own output). -/
  readData : List Byte := []
  readPoison : Bool := false
  /-- The row that the last intruding read of a bank returned (the model's own output; R91). -/
  portData : List Byte := []
  /-- Whether the last configuration request was answered with Retry Status (the model's own output; R464). -/
  cfgRetry : Bool := false
  /-- Everything written to the host, oldest first (the model's own output). -/
  hostOut : List HostWrite := []
  /-- CAN frames sent, oldest first (the model's own output). -/
  canOut : List CanFrame := []
  /-- Flits sent, oldest first (the model's own output). -/
  flitOut : List (LinkEnd × Flit) := []
  /-- What an access of the running command must wait for (the model's own field; R111, R412). -/
  heldAt : Option WaitFor := none
  /-- Free values used so far (the model's own field, R138). -/
  freeCtr : Nat := 0
deriving DecidableEq, Repr

/-- The module right after reset: input power is present, the Custodian has started with every entry at its default
and no wake has begun (DEPOT), main power is off, and every register stands at its Reset column. Assumption log 1. -/
def State.reset : State := {}

end Sys2Proof.Machine
end

