-- ==== Sys2Proof/Machine/Ops.lean ====
section
/-!
DEFINITION. The operations every unit shares: tile and wing names, memory, statistics counters, events, MSI-X
messages, the cause log and completion entries. Everything a unit reports outside itself goes through one of these.
-/

namespace Sys2Proof.Machine

/-! ### Tiles and wings -/

/-- A per-tile value at one tile. -/
def PerTile.get {α : Type} (p : PerTile α) : Tile → α
  | .e0 => p.e0
  | .e1 => p.e1
  | .w0 => p.w0
  | .w1 => p.w1

/-- A per-tile value changed at one tile. -/
def PerTile.modify {α : Type} (p : PerTile α) (t : Tile) (f : α → α) : PerTile α :=
  match t with
  | .e0 => { p with e0 := f p.e0 }
  | .e1 => { p with e1 := f p.e1 }
  | .w0 => { p with w0 := f p.w0 }
  | .w1 => { p with w1 := f p.w1 }

/-- A per-tile value changed at every tile. -/
def PerTile.map {α : Type} (p : PerTile α) (f : Tile → α → α) : PerTile α :=
  ⟨f .e0 p.e0, f .e1 p.e1, f .w0 p.w0, f .w1 p.w1⟩

/-- A per-wing value at one wing. -/
def PerWing.get {α : Type} (p : PerWing α) : Wing → α
  | .east => p.east
  | .west => p.west

/-- A per-wing value changed at one wing. -/
def PerWing.modify {α : Type} (p : PerWing α) (w : Wing) (f : α → α) : PerWing α :=
  match w with
  | .east => { p with east := f p.east }
  | .west => { p with west := f p.west }

/-- Tile number in the order of R96. -/
def tileIdx : Tile → Nat
  | .e0 => 0
  | .e1 => 1
  | .w0 => 2
  | .w1 => 3

/-- The tile with a number, modulo 4. -/
def tileOf (n : Nat) : Tile :=
  match n % 4 with
  | 0 => .e0
  | 1 => .e1
  | 2 => .w0
  | _ => .w1

/-- Wing of a tile (R19). -/
def wingOf : Tile → Wing
  | .e0 => .east
  | .e1 => .east
  | .w0 => .west
  | .w1 => .west

/-- The other tile of the wing. -/
def sibling : Tile → Tile
  | .e0 => .e1
  | .e1 => .e0
  | .w0 => .w1
  | .w1 => .w0

/-- Wing number: 0 East, 1 West (R24). -/
def wingNum : Wing → Nat
  | .east => 0
  | .west => 1

/-- The wing with a number. -/
def wingOfNum (n : Nat) : Wing := if n % 2 = 0 then .east else .west

/-- The other wing. -/
def otherWing : Wing → Wing
  | .east => .west
  | .west => .east

/-- Tile t′ of a wing. -/
def tileIn (w : Wing) (t : Nat) : Tile := tileOf (2 * wingNum w + t % 2)

/-- All tiles in tile order. -/
def allTiles : List Tile := [.e0, .e1, .w0, .w1]

/-- The tiles of a wing. -/
def wingTiles (w : Wing) : List Tile := [tileIn w 0, tileIn w 1]

/-! ### One record of the state changed -/

/-- Change a tile's Stationmaster. -/
def State.modSch (s : State) (t : Tile) (f : Sch → Sch) : State := { s with sch := s.sch.modify t f }

/-- Change a tile's memory system. -/
def State.modMem (s : State) (t : Tile) (f : TileMem → TileMem) : State := { s with tmem := s.tmem.modify t f }

/-- Change a tile's Porter. -/
def State.modPorter (s : State) (t : Tile) (f : Porter → Porter) : State :=
  { s with porter := s.porter.modify t f }

/-- Change a tile's Catalogue. -/
def State.modCat (s : State) (t : Tile) (f : Catalogue → Catalogue) : State := { s with cat := s.cat.modify t f }

/-- Change a wing's Timetable. -/
def State.modTt (s : State) (w : Wing) (f : Timetable → Timetable) : State := { s with tt := s.tt.modify w f }

/-- Change a wing's Junction. -/
def State.modJn (s : State) (w : Wing) (f : Junction → Junction) : State := { s with jn := s.jn.modify w f }

/-- Change the host interface. -/
def State.modHif (s : State) (f : Hif → Hif) : State := { s with hif := f s.hif }

/-- Change the event queue and cause log. -/
def State.modLogs (s : State) (f : Logs → Logs) : State :=
  { s with hif := { s.hif with logs := f s.hif.logs } }

/-- Change the Custodian. -/
def State.modCst (s : State) (f : Custodian → Custodian) : State := { s with cst := f s.cst }

/-- Change rails, wake and clusters. -/
def State.modPower (s : State) (f : Power → Power) : State := { s with power := f s.power }

/-- Timetable count of a wing (R325). -/
def tickOf (s : State) (w : Wing) : Word64 := (s.tt.get w).count

/-- Whether the Concourse carries traffic (R451, R455). -/
def concourseUp (s : State) : Bool := s.cc.state == .up

/-! ### Memory -/

/-- The cells from an address on. -/
def cellsFrom (m : List Host.Cell) (a : Nat) : List Host.Cell := m.dropWhile fun c => decide (c.1 < a)

/-- n bytes starting at address a, walking cells that begin at or above a. -/
def readCells : List Host.Cell → Nat → Nat → List Byte
  | _, _, 0 => []
  | [], a, n + 1 => 0 :: readCells [] (a + 1) n
  | c :: m, a, n + 1 => if c.1 = a then c.2 :: readCells m (a + 1) n else 0 :: readCells (c :: m) (a + 1) n

/-- One byte of memory; an unlisted byte is 0. -/
def memByte (m : List Host.Cell) (a : Nat) : Byte := Table.get 0 m a

/-- n bytes of memory. -/
def memBytes (m : List Host.Cell) (a n : Nat) : List Byte := readCells (cellsFrom m a) a n

/-- A run of bytes as cells, zeros left out. -/
def runCells : Nat → List Byte → List Host.Cell
  | _, [] => []
  | a, b :: bs => if b = 0 then runCells (a + 1) bs else (a, b) :: runCells (a + 1) bs

/-- Write a run of bytes. -/
def memWrite (m : List Host.Cell) (a : Nat) (bs : List Byte) : List Host.Cell :=
  m.takeWhile (fun c => decide (c.1 < a)) ++ runCells a bs ++ cellsFrom m (a + bs.length)

/-- Write zeros to n bytes. -/
def memZero (m : List Host.Cell) (a n : Nat) : List Host.Cell :=
  m.takeWhile (fun c => decide (c.1 < a)) ++ cellsFrom m (a + n)

/-- The canonical form of memory: rising addresses, no zero byte listed. -/
def memCanonical (m : List Host.Cell) : Bool := Table.canonical 0 m

/-- Whether an address lies in stacked memory (R95). -/
def isStacked (a : Nat) : Bool := decide (0x010000000000 ≤ a ∧ a < 0x030000000000)

/-- Whether an address lies in the on-chip range (R95). -/
def isOnChip (a : Nat) : Bool := decide (a < 0x100000000)

/-- Home tile of a stacked address (R97). -/
def homeTile (a : Nat) : Tile :=
  if a < 0x018000000000 then .e0 else if a < 0x020000000000 then .e1 else if a < 0x028000000000 then .w0 else .w1

/-- Base of a tile's home region (R97). -/
def regionBase (t : Tile) : Nat := 0x010000000000 + 0x8000000000 * tileIdx t

/-- Tile-relative pseudo-channel of a stacked address: the hash of R99, over the offset in its home region (the regions are
2^39 bytes each and begin at multiples of that). -/
def pcOf (a : Nat) : Nat :=
  let g := a % 0x8000000000 / 256
  ((g ^^^ (g >>> 9)) ^^^ (g >>> 18) ^^^ (g >>> 27)) % 512

/-- Location within the pseudo-channel (R99). -/
def locationOf (a : Nat) : Nat :=
  let o := a % 0x8000000000
  o / 256 / 512 * 256 + o % 256

/-- Core window of a core index (R96). -/
def windowBase (core : Nat) : Nat := 0x2C0000 * core

/-- First byte of a frame of a window buffer, whose frames number 0 to 1599 (R96). -/
def frameBase (t : Tile) (f : Nat) : Nat := 0xE7000000 + 0x6400000 * tileIdx t + 0x10000 * (f % 1600)

/-- The poison mark of a 64 B burst (R548). -/
def poisoned (s : State) (a : Nat) : Bool := s.poison.contains (a / 64)

/-- The first poisoned burst met by an access of n bytes, as an address. -/
def firstPoison (s : State) (a n : Nat) : Option Nat :=
  (s.poison.find? fun b => decide (a < 64 * b + 64 ∧ 64 * b < a + n)).map fun b => max a (64 * b)

/-- Mark a burst poisoned (R548). -/
def setPoison (s : State) (a : Nat) : State := { s with poison := insertSorted s.poison (a / 64) }

/-- Physical write: the bytes are stored, and bursts written in full lose their poison mark (R548). -/
def writePa (s : State) (a : Nat) (bs : List Byte) : State :=
  { s with
    mem := memWrite s.mem a bs
    poison := s.poison.filter fun b => !decide (a ≤ 64 * b ∧ 64 * b + 64 ≤ a + bs.length) }

/-- Write the 64 KiB of a frame. -/
def writeFrame (s : State) (t : Tile) (f : Nat) (bs : List Byte) : State := writePa s (frameBase t f) (bs.take 0x10000)

/-- Write zeros to a physical range. -/
def zeroPa (s : State) (a n : Nat) : State :=
  { s with
    mem := memZero s.mem a n
    poison := s.poison.filter fun b => !decide (a ≤ 64 * b ∧ 64 * b + 64 ≤ a + n) }

/-- Draw n free bytes (R138: undefined destination bytes). Assumption log 3. -/
def freeBytes (s : State) (n : Nat) : List Byte × State :=
  ((List.range n).map fun i => Config.freeByte (s.freeCtr + i), { s with freeCtr := s.freeCtr + n })

/-- Draw one free choice. Assumption log 3. -/
def freeChoice (s : State) : Bool × State := (Config.freeBool s.freeCtr, { s with freeCtr := s.freeCtr + 1 })

/-! ### MSI-X -/

/-- Table size of a function (R478). -/
def msixSize : Func → Nat
  | .pf0 => 128
  | .vf _ => 120

/-- Function number in register fields: PF0 0, VF n + 1. -/
def funcNum : Func → Nat
  | .pf0 => 0
  | .vf n => n.val + 1

/-- A function's page. -/
def pageOf (s : State) (f : Func) : FuncPage := (Table.find s.hif.pages (funcNum f)).getD {}

/-- Change a function's page. -/
def State.modPage (s : State) (f : Func) (g : FuncPage → FuncPage) : State :=
  { s with hif := { s.hif with pages := Table.insert s.hif.pages (funcNum f) (g (pageOf s f)) } }

/-- A word of an MSI-X table; vector control words read 1 (masked) until written. -/
def msixWord (p : FuncPage) (w : Nat) : Word32 := (Table.find p.msix w).getD (if w % 4 = 3 then 1 else 0)

/-- Whether a vector is masked (R478: masking follows the PCIe specification). -/
def msixMasked (p : FuncPage) (v : Nat) : Bool := flg (msixWord p (4 * v + 3)) 0

/-- Send an MSI-X message; a masked vector, or a function without Bus Master Enable, leaves it pending (R477, R478). A
vector at or above the table size sends nothing. -/
def sendMsix (s : State) (f : Func) (v : Nat) : State :=
  if msixSize f ≤ v then s
  else
    let p := pageOf s f
    if msixMasked p v || !p.busMaster then
      s.modPage f fun p => { p with pba := Table.set 0 p.pba (v / 32) (Table.get 0 p.pba (v / 32) ||| BitVec.ofNat 32 (2 ^ (v % 32))) }
    else { s with hostOut := s.hostOut ++ [HostWrite.msix f v] }

/-- Whether a vector's message is pending. -/
def msixPending (p : FuncPage) (v : Nat) : Bool := (Table.get 0 p.pba (v / 32)).getLsbD (v % 32)

/-- Send one pending message that may now leave. -/
def flushVector (s : State) (f : Func) (v : Nat) : State :=
  let p := pageOf s f
  if msixPending p v && !msixMasked p v && p.busMaster then
    let s := s.modPage f fun p =>
      { p with pba := Table.set 0 p.pba (v / 32) (Table.get 0 p.pba (v / 32) &&& ~~~ BitVec.ofNat 32 (2 ^ (v % 32))) }
    { s with hostOut := s.hostOut ++ [HostWrite.msix f v] }
  else s

/-- Send every pending message of a function that may now leave. -/
def flushMsix (s : State) (f : Func) : State := (List.range (msixSize f)).foldl (fun s v => flushVector s f v) s

/-! ### Events -/

/-- Register blocks of R98 by unit. -/
def blkSch (t : Tile) : Nat := tileIdx t
def blkMem (t : Tile) : Nat := 4 + tileIdx t
def blkPw (t : Tile) : Nat := 8 + tileIdx t
def blkCat (t : Tile) : Nat := 12 + tileIdx t
def blkHif : Nat := 16
def blkTt (w : Wing) : Nat := 17 + wingNum w
def blkJn (w : Wing) : Nat := 19 + wingNum w
def blkLnk (w : Wing) : Nat := 21 + wingNum w
def blkPwr (w : Wing) : Nat := 23 + wingNum w
def blkCst : Nat := 25

/-- Wing that holds a register block (R98). -/
def blockWing (b : Nat) : Wing :=
  if b < 16 then wingOf (tileOf b)
  else if b = 18 ∨ b = 20 ∨ b = 22 ∨ b = 24 then .west else .east

/-- Records the event queue holds that the host has not consumed (R562). -/
def evqHeld (l : Logs) : Nat := (l.evqTail + 2 ^ l.evqSize - l.evqHead % 2 ^ l.evqSize) % 2 ^ l.evqSize

/-- Write a record to the event queue, PHASE filled in; none when it must be discarded (R562). -/
def postEvent (s : State) (rec : BitVec 128) : Option State :=
  let l := s.hif.logs
  let size := 2 ^ l.evqSize
  if !l.evqEnable || decide (size - 1 ≤ evqHeld l) then none
  else
    let wasEmpty := evqHeld l == 0
    let r := rec ||| (if l.evqPhase then 1 else 0)
    let s := { s with hostOut := s.hostOut ++ [HostWrite.event (l.evqBase.toNat + 16 * l.evqTail) r] }
    let tail := (l.evqTail + 1) % size
    let s := s.modLogs fun l => { l with evqTail := tail, evqPhase := if tail = 0 then !l.evqPhase else l.evqPhase }
    some (if wasEmpty then sendMsix s .pf0 0 else s)

/-- An event record without PHASE (R562). -/
def eventRecord (s : State) (ev data block part : Nat) : BitVec 128 :=
  packN 128 [((tickOf s (blockWing block)).toNat, 64), (data % 2 ^ 32, 32), (ev, 16), (block, 8), (part, 4)]

/-- Offset of HIF_EV_LOST (R570). -/
def offEvLost : Nat := 0x0120

/-- A discarded record: OVF is set and HIF_EV_LOST adds 1 without raising its own saturation event. -/
def countLost (s : State) : State :=
  let s := s.modLogs fun l => { l with ovf := true }
  s.modHif fun h => { h with ctrs := Table.set 0 h.ctrs offEvLost (sat64 ((Table.get 0 h.ctrs offEvLost).toNat + 1)) }

/-- A record offered by a wing: posted, held by the West wing while it cannot reach EIO, or discarded (R562). -/
def offerEvent (s : State) (w : Wing) (rec : BitVec 128) : Option State :=
  if w = .west ∧ !concourseUp s then
    if 64 ≤ s.hif.logs.westEvents.length then none
    else some (s.modLogs fun l => { l with westEvents := l.westEvents ++ [rec] })
  else postEvent s rec

/-- Discard a record; when HIF_EV_LOST reaches its limit, EV_CTR_SAT is offered once (R557, R562). -/
def loseEvent (s : State) : State :=
  let before := Table.get 0 s.hif.ctrs offEvLost
  let s := countLost s
  if before.toNat + 1 = 2 ^ 64 - 1 then
    (offerEvent s .east (eventRecord s 0x0901 offEvLost blkHif 0)).getD (countLost s)
  else s

/-- Raise an event (R562, R564). -/
def raise (s : State) (ev data block : Nat) (part : Nat := 0) : State :=
  match offerEvent s (blockWing block) (eventRecord s ev data block part) with
  | some s => s
  | none => loseEvent s

/-! ### Statistics counters -/

/-- The statistics counters of a register block. -/
def ctrTable (s : State) (block : Nat) : Table Word64 :=
  if block < 4 then (s.sch.get (tileOf block)).ctrs
  else if block < 8 then (s.tmem.get (tileOf block)).ctrs
  else if block < 12 then (s.porter.get (tileOf block)).ctrs
  else if block < 16 then (s.cat.get (tileOf block)).ctrs
  else if block = 16 then s.hif.ctrs
  else if block = 17 then s.tt.east.ctrs
  else if block = 18 then s.tt.west.ctrs
  else if block = 19 then s.jn.east.ctrs
  else if block = 20 then s.jn.west.ctrs
  else if block = 21 then s.lnkCtrs.east
  else if block = 22 then s.lnkCtrs.west
  else if block = 23 then s.power.ctrs.east
  else if block = 24 then s.power.ctrs.west
  else []

/-- Replace the statistics counters of a register block. -/
def setCtrTable (s : State) (block : Nat) (c : Table Word64) : State :=
  if block < 4 then s.modSch (tileOf block) fun x => { x with ctrs := c }
  else if block < 8 then s.modMem (tileOf block) fun x => { x with ctrs := c }
  else if block < 12 then s.modPorter (tileOf block) fun x => { x with ctrs := c }
  else if block < 16 then s.modCat (tileOf block) fun x => { x with ctrs := c }
  else if block = 16 then s.modHif fun x => { x with ctrs := c }
  else if block = 17 ∨ block = 18 then s.modTt (blockWing block) fun x => { x with ctrs := c }
  else if block = 19 ∨ block = 20 then s.modJn (blockWing block) fun x => { x with ctrs := c }
  else if block = 21 ∨ block = 22 then { s with lnkCtrs := s.lnkCtrs.modify (blockWing block) fun _ => c }
  else if block = 23 ∨ block = 24 then s.modPower fun p => { p with ctrs := p.ctrs.modify (blockWing block) fun _ => c }
  else s

/-- A statistics counter. -/
def ctr (s : State) (block off : Nat) : Word64 := Table.get 0 (ctrTable s block) off

/-- Add to a statistics counter: it stays at 2^64 − 1, and EV_CTR_SAT is raised once, when it reaches that value
(R557). -/
def addCtr (s : State) (block off : Nat) (n : Nat := 1) : State :=
  let old := (ctr s block off).toNat
  let s' := setCtrTable s block (Table.set 0 (ctrTable s block) off (sat64 (old + n)))
  if old < 2 ^ 64 - 1 ∧ 2 ^ 64 - 1 ≤ old + n then raise s' 0x0901 off block else s'

/-! ### The cause log -/

/-- Units of the cause log (R560). -/
inductive LogUnit where
  | stationmaster | core | memory | porter | catalogue | junction | ring | link | host
deriving DecidableEq, Repr

/-- Code of a unit in the cause log. -/
def LogUnit.code : LogUnit → Nat
  | .stationmaster => 0
  | .core => 1
  | .memory => 2
  | .porter => 3
  | .catalogue => 4
  | .junction => 5
  | .ring => 6
  | .link => 7
  | .host => 8

/-- What a cause-log entry records besides the tick and the sequence (R560). -/
structure CauseInfo where
  wing : Wing
  unit : LogUnit
  cause : Nat
  addr : Nat := 0
  tag : Nat := 0
  ring : Nat := 0
  part : Nat := 0
  detail : Nat := 0
deriving DecidableEq, Repr

/-- A cause-log entry with SEQ 0 (R560). -/
def causeEntry (s : State) (c : CauseInfo) : BitVec 256 :=
  packN 256 [((tickOf s c.wing).toNat, 192), (c.addr % 2 ^ 48, 112), (c.tag % 2 ^ 32, 80), (c.cause % 2 ^ 16, 64),
    (c.ring % 64, 58), (c.part % 16, 54), (wingNum c.wing, 53), (c.unit.code, 48), (c.detail % 2 ^ 16, 32)]

/-- Enter an entry at EIO: it takes the next SEQ and overwrites the oldest (R560). -/
def enterLog (s : State) (e : BitVec 256) : State :=
  s.modLogs fun l =>
    let q := l.clogSeq + 1
    { l with
      clogSeq := q
      clog := Table.insert l.clog (q.toNat % 256) (e ||| BitVec.ofNat 256 (q.toNat * 2 ^ 160)) }

/-- Report a cause: entered at EIO, or kept by WIO while the Concourse is down, up to 32 entries (R560). -/
def logCause (s : State) (c : CauseInfo) : State :=
  if c.wing = .west ∧ !concourseUp s then
    if 32 ≤ s.hif.logs.westLog.length then addCtr s blkHif 0x0128
    else s.modLogs fun l => { l with westLog := l.westLog ++ [causeEntry s c] }
  else enterLog s (causeEntry s c)

/-! ### Rings and completion entries -/

/-- Key of a ring. -/
def ringKey (f : Func) (r : Nat) : Nat := 64 * funcNum f + r % 64

/-- A ring's registers and progress. -/
def ringOf (s : State) (f : Func) (r : Nat) : Ring := (Table.find s.hif.rings (ringKey f r)).getD {}

/-- Change a ring. -/
def State.modRing (s : State) (f : Func) (r : Nat) (g : Ring → Ring) : State :=
  { s with hif := { s.hif with rings := Table.insert s.hif.rings (ringKey f r) (g (ringOf s f r)) } }

/-- Entries of a ring. -/
def ringSize (r : Ring) : Nat := 2 ^ r.sizeLog2

/-- A completion entry without PHASE (R476). -/
structure Completion where
  tag : Nat
  cause : Nat := 0
  sqHead : Nat
  ring : Nat
  command : Bool := false
  recFault : Bool := false
  zeroWork : Bool := false
  committed : Bool := false
deriving DecidableEq, Repr

/-- The 128 bits of a completion entry, PHASE 0 (R476). -/
def Completion.image (c : Completion) : BitVec 128 :=
  packN 128 [(c.tag % 2 ^ 32, 96), (c.cause % 2 ^ 16, 80), (c.sqHead % 4096, 68), (c.ring % 64, 58), (b2n c.command, 7),
    (b2n c.recFault, 6), (b2n c.zeroWork, 5), (b2n c.committed, 4)]

/-- Write one completion entry to the host: one 16 B write at the next position, PHASE inverted at every wrap, and a
message once COAL_COUNT entries stand unsignalled (R475, R478). -/
def writeCompletion (s : State) (f : Func) (r : Nat) (e : BitVec 128) : State :=
  let g := ringOf s f r
  let pos := (g.cqPos + 1) % ringSize g
  let out : HostWrite := .completion f r (g.cqBase.toNat + 16 * g.cqPos) (e ||| (if g.phase then 1 else 0))
  let s := { s with hostOut := s.hostOut ++ [out] }
  let fire := g.irqEn && decide (max 1 g.coalCount ≤ g.unsignalled + 1)
  let s := s.modRing f r fun g =>
    { g with cqPos := pos, phase := (if pos = 0 then !g.phase else g.phase)
             unsignalled := if fire then 0 else g.unsignalled + 1 }
  if fire then sendMsix s f g.vector else s

/-- Whether a ring's completion entries must wait: no Bus Master Enable (R477), or a West-homed ring while the
Concourse is down (R455). -/
def completionsWait (s : State) (f : Func) (g : Ring) : Bool :=
  !(pageOf s f).busMaster || (wingOf g.home == .west && !concourseUp s)

/-- Answer one fetched entry of a ring: the completion entry is written, kept while it must wait, or discarded by a
ring whose completion writes were refused (R475, R477). -/
def answerEntry (s : State) (f : Func) (r : Nat) (c : Completion) : State :=
  let g := ringOf s f r
  let s := s.modRing f r fun g => { g with open_ := g.open_ - 1 }
  if g.error && g.errKind == 2 then s
  else if completionsWait s f g || !g.heldEntries.isEmpty then
    s.modRing f r fun g => { g with heldEntries := g.heldEntries ++ [c.image] }
  else writeCompletion s f r c.image

/-- Write the completion entries that were waiting, oldest first, with fuel for their number. -/
def flushHeld : Nat → State → Func → Nat → State
  | 0, s, _, _ => s
  | n + 1, s, f, r =>
    let g := ringOf s f r
    match g.heldEntries with
    | [] => s
    | e :: es =>
      if completionsWait s f g then s
      else
        let s := s.modRing f r fun g => { g with heldEntries := es }
        flushHeld n (if g.error && g.errKind == 2 then s else writeCompletion s f r e) f r

/-- Every function. -/
def allFuncs : List Func := .pf0 :: (List.finRange 16).map .vf

/-- Write the waiting completion entries of every ring of a function. -/
def flushFunc (s : State) (f : Func) : State :=
  (List.range 64).foldl (fun s r => flushHeld (ringOf s f r).heldEntries.length s f r) s

/-- Partition of a function; none for PF0 (R149). -/
def partOf : Func → Option Nat
  | .pf0 => none
  | .vf n => some n.val

/-- VF of a partition number. -/
def vfOf (p : Nat) : Func := .vf (Fin.ofNat 16 p)

end Sys2Proof.Machine
end

