-- ==== Sys2Proof/Machine/Dictionary.lean ====
section
/-!
DEFINITION. The object dictionary's entries (R491 to R495 and the chapters they name): type, access, default and the
values a write refuses. Reading an entry's held value is here; the requests that reach it are the Custodian's.
-/

namespace Sys2Proof.Machine

/-- Types of R491; `fixed n` covers BOOL and the integers of n bytes. -/
inductive DType where
  | bool
  | unsigned (n : Nat)
  | signed (n : Nat)
  | str
  | dom (len : Nat)
deriving DecidableEq, Repr

/-- Access codes of R13. -/
inductive DAccess where
  | ro | rw | rws | wo | const
deriving DecidableEq, Repr

/-- One entry. -/
structure DEntry where
  type : DType
  access : DAccess
  dflt : Nat := 0
deriving DecidableEq, Repr

/-- Bytes of a fixed-size type; none for STR and DOM (R491). -/
def DType.size : DType → Option Nat
  | .bool => some 1
  | .unsigned n => some n
  | .signed n => some n
  | .str => none
  | .dom _ => none

/-- Fields of a rule (R514). -/
structure Rule where
  channel : Nat := 0
  op : Nat := 0
  source : Nat := 0
  action : Nat := 0
  states : Nat := 0
  hold : Nat := 1
  threshold : Nat := 0
  hyst : Nat := 0
deriving DecidableEq, Repr

/-- Default rules of R518; rules 14 to 31 have ACTION 0 (their other fields: assumption log 8). -/
def ruleDefault (r : Nat) : Rule :=
  match r with
  | 0 => ⟨0x01, 0, 1, 3, 0x0E, 3, 78000, 2000⟩
  | 1 => ⟨0x00, 0, 1, 3, 0x0E, 3, 64000, 500⟩
  | 2 => ⟨0x00, 1, 1, 3, 0x0E, 10, 44000, 500⟩
  | 3 => ⟨0xF0, 0, 0, 3, 0x0E, 2, 110000, 5000⟩
  | 4 => ⟨0xF2, 0, 0, 3, 0x0E, 2, 100000, 5000⟩
  | 5 => ⟨0x43, 2, 0, 3, 0x0F, 2, 1, 0⟩
  | 6 => ⟨0x42, 1, 0, 3, 0x0E, 5, 1200, 100⟩
  | 7 => ⟨0x40, 0, 0, 3, 0x0E, 5, 45000, 1000⟩
  | 8 => ⟨0x40, 0, 0, 2, 0x0E, 3, 40000, 1000⟩
  | 9 => ⟨0x42, 1, 0, 2, 0x0E, 3, 2000, 100⟩
  | 10 => ⟨0xF0, 0, 0, 2, 0x0E, 3, 100000, 5000⟩
  | 11 => ⟨0xF2, 0, 0, 2, 0x0E, 3, 92000, 5000⟩
  | 12 => ⟨0x01, 0, 0, 2, 0x0E, 100, 72000, 2000⟩
  | 13 => ⟨0x50, 2, 0, 1, 0x01, 5, 1, 0⟩
  | _ => {}

/-- A rule's field by subentry (R514). -/
def Rule.field (x : Rule) (sub : Nat) : Nat :=
  match sub with
  | 1 => x.channel
  | 2 => x.op
  | 3 => x.source
  | 4 => x.action
  | 5 => x.states
  | 6 => x.hold
  | 7 => x.threshold
  | _ => x.hyst

/-- Type of a rule's subentry (R514). -/
def ruleType (sub : Nat) : DType :=
  if sub ≤ 5 then .unsigned 1 else if sub = 6 then .unsigned 2 else .signed 4

/-- Entries of 0x8000 to 0x8FFF, by index for partition 0 (R495). -/
def partEntry (base : Nat) : Option DEntry :=
  match base with
  | 0x8010 => some ⟨.unsigned 1, .rw, 16⟩
  | 0x8031 => some ⟨.bool, .rw, 0⟩
  | 0x8032 => some ⟨.unsigned 4, .rw, 4096⟩
  | 0x8033 => some ⟨.unsigned 1, .rw, 16⟩
  | 0x8040 => some ⟨.unsigned 8, .rw, 0⟩
  | 0x8041 => some ⟨.unsigned 1, .rw, 0⟩
  | 0x8042 => some ⟨.unsigned 8, .rw, 0⟩
  | _ => none

/-- Entries with subindex 0 outside the partition range (R120, R123, R323, R402, R429, R494, R523, R526, R549 to R561). -/
def plainEntry (index : Nat) : Option DEntry :=
  match index with
  | 0x1000 => some ⟨.unsigned 4, .const, 0xF572⟩
  | 0x1008 => some ⟨.str, .const, 0⟩
  | 0x1009 => some ⟨.str, .ro, 0⟩
  | 0x1010 => some ⟨.unsigned 4, .wo, 0⟩
  | 0x1011 => some ⟨.unsigned 4, .wo, 0⟩
  | 0x1018 => some ⟨.unsigned 1, .const, 4⟩
  | 0x1030 => some ⟨.unsigned 1, .rw, 127⟩
  | 0x1031 => some ⟨.unsigned 1, .rw, 0⟩
  | 0x1032 => some ⟨.unsigned 1, .rw, 2⟩
  | 0x1033 => some ⟨.unsigned 2, .rw, 100⟩
  | 0x2000 => some ⟨.unsigned 1, .wo, 0⟩
  | 0x2001 => some ⟨.unsigned 1, .ro, 1⟩
  | 0x2002 => some ⟨.unsigned 1, .ro, 1⟩
  | 0x2003 => some ⟨.unsigned 4, .ro, 0⟩
  | 0x2004 => some ⟨.unsigned 4, .rws, 0⟩
  | 0x2005 => some ⟨.bool, .rw, 1⟩
  | 0x2006 => some ⟨.bool, .rw, 1⟩
  | 0x2007 => some ⟨.unsigned 4, .rw, 100⟩
  | 0x2008 => some ⟨.unsigned 1, .ro, 0xFF⟩
  | 0x2100 => some ⟨.dom 4096, .ro, 0⟩
  | 0x3010 => some ⟨.unsigned 4, .rws, 0x000F193C⟩
  | 0x3020 => some ⟨.unsigned 4, .rw, 50000⟩
  | 0x3030 => some ⟨.bool, .rws, 1⟩
  | 0x3031 => some ⟨.unsigned 1, .rw, 2⟩
  | 0x3032 => some ⟨.unsigned 2, .rw, 16⟩
  | 0x3033 => some ⟨.unsigned 4, .rws, 1048576⟩
  | 0x3034 => some ⟨.unsigned 8, .rws, 68719476736⟩
  | 0x3040 => some ⟨.unsigned 4, .rw, 86400⟩
  | 0x4000 => some ⟨.unsigned 2, .rws, 2⟩
  | 0x4001 => some ⟨.unsigned 1, .rws, 0⟩
  | 0x4002 => some ⟨.unsigned 1, .rws, 0⟩
  | 0x4003 => some ⟨.unsigned 1, .rws, 0⟩
  | 0x4010 => some ⟨.unsigned 1, .rws, 0⟩
  | 0x4011 => some ⟨.unsigned 4, .rws, 256⟩
  | 0x4012 => some ⟨.bool, .rws, 0⟩
  | 0x4013 => some ⟨.bool, .rws, 0⟩
  | 0x4014 => some ⟨.unsigned 8, .rws, 0⟩
  | 0x4015 => some ⟨.unsigned 1, .rws, 4⟩
  | 0x4016 => some ⟨.unsigned 8, .rw, 0⟩
  | 0x4017 => some ⟨.unsigned 4, .rw, 0⟩
  | 0x4018 => some ⟨.unsigned 4, .rw, 65536⟩
  | 0x4020 => some ⟨.unsigned 2, .rws, 0xFFFF⟩
  | 0x4022 => some ⟨.unsigned 4, .rw, 10000⟩
  | 0x4023 => some ⟨.unsigned 4, .rws, 1048576⟩
  | 0x4024 => some ⟨.unsigned 2, .rw, 16⟩
  | 0x4025 => some ⟨.unsigned 1, .rw, 8⟩
  | 0x4028 => some ⟨.unsigned 4, .rws, 0x2314230A⟩
  | 0x4030 => some ⟨.unsigned 4, .rw, 1048576⟩
  | 0x6000 => some ⟨.unsigned 4, .wo, 0⟩
  | 0x6010 => some ⟨.dom 8192, .ro, 0⟩
  | 0x6011 => some ⟨.unsigned 4, .ro, 0⟩
  | 0x7200 => some ⟨.unsigned 4, .ro, 0⟩
  | 0x7400 => some ⟨.unsigned 1, .ro, 0⟩
  | 0x7401 => some ⟨.unsigned 4, .ro, 0⟩
  | 0x7402 => some ⟨.unsigned 4, .ro, 0⟩
  | _ => none

/-- Channels of R511. -/
def isChannel (c : Nat) : Bool :=
  c ≤ 1 || (0x10 ≤ c && c ≤ 0x43) || (0x50 ≤ c && c ≤ 0x5C) || (0xF0 ≤ c && c ≤ 0xF3)

/-- The entry at an index and subindex; none where no chapter defines one (R495). -/
def dictEntry (index sub : Nat) : Option DEntry :=
  if 0x8000 ≤ index ∧ index < 0x9000 then
    if sub = 0 then partEntry (0x8000 + index % 256) else none
  else if 0x7100 ≤ index ∧ index < 0x7120 then
    if 1 ≤ sub ∧ sub ≤ 8 then
      some ⟨ruleType sub, if index < 0x7108 then .const else .rws, (ruleDefault (index - 0x7100)).field sub⟩
    else none
  else if 0x7000 ≤ index ∧ index ≤ 0x7002 then
    if 1 ≤ sub ∧ isChannel (sub - 1) then some ⟨.signed 4, .ro, 0⟩ else none
  else if index = 0x7010 then
    if sub = 1 ∨ sub = 2 then some ⟨.unsigned 1, .rws, 2⟩ else if sub = 3 then some ⟨.unsigned 1, .rws, 1⟩ else none
  else if index = 0x7300 then
    if 1 ≤ sub ∧ sub ≤ 8 then some ⟨.dom 16, .ro, 0⟩ else none
  else if index = 0x4021 then
    if 1 ≤ sub ∧ sub ≤ 12 then some ⟨.unsigned 1, .rw, 3⟩ else none
  else if index = 0x5030 then
    if 1 ≤ sub ∧ sub ≤ 16 then some ⟨.unsigned 1, .rw, 0⟩ else none
  else if index = 0x1018 then
    match sub with
    | 0 => plainEntry index
    | 1 => some ⟨.unsigned 4, .const, 0x1D6A⟩
    | 2 => some ⟨.unsigned 4, .const, 0xF572⟩
    | 3 => some ⟨.unsigned 4, .const, 0⟩
    | 4 => some ⟨.unsigned 4, .const, 0⟩
    | _ => none
  else if index = 0x2100 ∧ sub = 1 then some ⟨.unsigned 4, .ro, 0⟩
  else if sub = 0 then plainEntry index
  else none

/-- Key of an entry in the dictionary tables. -/
def dictKey (index sub : Nat) : Nat := 256 * index + sub

/-- Whether an entry is persistent (R493). -/
def isPersistent (index : Nat) (e : DEntry) : Bool :=
  (e.access == .rw || e.access == .rws) &&
    ((0x1000 ≤ index && index ≤ 0x5FFF) || (0x7000 ≤ index && index ≤ 0x8FFF))

/-- Default of an entry as bytes; the node id defaults to the strap (R494, R580). -/
def dictDefault (s : State) (index sub : Nat) : List Byte :=
  match dictEntry index sub with
  | none => []
  | some e =>
    if index = 0x1030 then [BitVec.ofNat 8 s.cst.strap]
    else leBytes ((e.type.size).getD 0) e.dflt

/-- The value held for an entry, as bytes (R491, R492). -/
def dictHeld (s : State) (index sub : Nat) : List Byte :=
  (Table.find s.cst.dict (dictKey index sub)).getD (dictDefault s index sub)

/-- The value held for an entry, as a number. -/
def dictVal (s : State) (index sub : Nat) : Nat := leNat (dictHeld s index sub)

/-- An entry of partition p (R495). -/
def partVal (s : State) (base p : Nat) : Nat := dictVal s (base + 0x100 * p) 0

/-- A rule as held (R514). -/
def ruleOf (s : State) (r : Nat) : Rule :=
  let v (sub : Nat) : Nat := dictVal s (0x7100 + r) sub
  ⟨v 1, v 2, v 3, v 4, v 5, v 6, v 7, v 8⟩

/-- Shares of one byte each in bits 8i+7:8i: all within 5 to 90 and summing to 100 (R120, R453). -/
def sharesFit (n v : Nat) : Bool :=
  let xs := (List.range n).map fun i => bits v (8 * i + 7) (8 * i)
  xs.all (fun x => decide (5 ≤ x ∧ x ≤ 90)) && decide (xs.foldl (· + ·) 0 = 100)

/-- Whether a value lies in the entry's stated range (R491 and the chapters of R495). The state bears on the ring
masters (R323). -/
def dictRange (s : State) (index sub v : Nat) : Bool :=
  if 0x8000 ≤ index ∧ index < 0x9000 then
    match 0x8000 + index % 256 with
    | 0x8010 => decide (v ≠ 0)
    | 0x8032 => decide (v ≠ 0)
    | 0x8033 => decide (v ≤ 64)
    | 0x8041 => decide (v ≤ 1)
    | 0x8042 => decide (v % 64 = 0)
    | _ => true
  else if 0x7100 ≤ index ∧ index < 0x7120 then
    match sub with
    | 2 => decide (v ≤ 3)
    | 3 => decide (v ≤ 1)
    | 4 => decide (v ≤ 3)
    | 6 => decide (1 ≤ v ∧ v ≤ 1000)
    | 8 => decide (v < 2 ^ 31)
    | _ => true
  else match index with
    | 0x1010 => decide (v = 0x65766173)
    | 0x1011 => decide (v = 0x64616F6C)
    | 0x1030 => decide (1 ≤ v ∧ v ≤ 127)
    | 0x1031 => decide (v ≤ 1)
    | 0x1032 => decide (v = 1 ∨ v = 2 ∨ v = 4 ∨ v = 5)
    | 0x1033 => decide (v = 0 ∨ (10 ≤ v ∧ v ≤ 10000))
    | 0x2000 => decide (v = 1 ∨ v = 2 ∨ v = 3 ∨ v = 6)
    | 0x2007 => decide (v ≤ 60000)
    | 0x3010 => sharesFit 3 v && decide (v < 2 ^ 24)
    | 0x3020 => decide (2000 ≤ v ∧ v ≤ 1000000)
    | 0x3031 => decide (v ≠ 0)
    | 0x3032 => decide (v ≠ 0)
    | 0x3033 => decide (65536 ≤ v ∧ v ≤ 16777216)
    | 0x3034 => decide (2 ^ 32 ≤ v ∧ v ≤ 2 ^ 40)
    | 0x3040 => decide (v = 0 ∨ (600 ≤ v ∧ v ≤ 2592000))
    | 0x4000 => decide (v % 2 = 0 ∧ 2 ≤ v ∧ v ≤ 256)
    | 0x4001 => decide (v % 2 = 0)
    | 0x4002 => decide (v < 64)
    | 0x4003 => decide (v < 64)
    | 0x4010 => decide (v ≤ 1)
    | 0x4011 => decide (v = 128 ∨ v = 256 ∨ v = 512 ∨ v = 1024 ∨ v = 2048 ∨ v = 4096)
    | 0x4012 => decide (v = 0 ∨ dictVal s 0x4013 0 = 0)
    | 0x4013 => decide (v = 0 ∨ dictVal s 0x4012 0 = 0)
    | 0x4015 => decide (1 ≤ v ∧ v ≤ 16)
    | 0x4018 => decide (v ≠ 0)
    | 0x4021 => decide (v ≤ 3)
    | 0x4022 => decide (2000 ≤ v ∧ v ≤ 1000000)
    | 0x4023 => decide (65536 ≤ v ∧ v ≤ 16777216)
    | 0x4024 => decide (v ≠ 0)
    | 0x4025 => decide (1 ≤ v ∧ v ≤ 64)
    | 0x4028 => sharesFit 4 v
    | 0x4030 => decide (v ≠ 0)
    | 0x5030 => decide (v ≤ 1)
    | 0x6000 => decide (v = 0x434C5231)
    | 0x7010 => decide (v ≤ 6)
    | _ => true

end Sys2Proof.Machine
end

