-- ==== Sys2Proof/Machine/Device.lean ====
section
/-!
DEFINITION. The device state of R506 as every unit meets it: entering a state, the standing actions of the Custodian's
rules on entry (R515, R516), the reasons of LIMITED (R510), and what loss of main power takes (R509, R523).
-/

namespace Sys2Proof.Machine

/-- State codes (R506). -/
def DevState.code : DevState → Nat
  | .depot => 0x01
  | .shunt => 0x02
  | .service => 0x03
  | .limited => 0x04
  | .halt => 0x05
  | .waking => 0x81
  | .leaving => 0x82
  | .toDepot => 0x83

/-- STATES bit of R514 that a state answers to; going to depot is always entered from SHUNT (R507, R509). -/
def DevState.maskBit : DevState → Nat
  | .depot => 0
  | .service => 2
  | .limited => 3
  | .halt => 4
  | _ => 1

/-- Whether the module is in SERVICE in the sense of R507. -/
def inService (s : State) : Bool := s.cst.state == .service || s.cst.state == .limited

/-- Whether the main device is up: SHUNT and every state from which SHUNT is left with power on. -/
def mainUp (s : State) : Bool :=
  match s.cst.state with
  | .shunt => true
  | .service => true
  | .limited => true
  | .leaving => true
  | .toDepot => s.power.pwrGood
  | _ => false

/-- Activity of rule r (R515). -/
def ruleState (s : State) (r : Nat) : RuleState := (Table.find s.cst.rules r).getD {}

/-- Whether a rule acts in a state (R514, R515). -/
def ruleActs (x : Rule) (d : DevState) : Bool := bit x.states d.maskBit

/-- Whether any ALARM rule is active in its states, or the module is in HALT (R516). -/
def alertDue (s : State) : Bool :=
  s.cst.state == .halt || (List.range 32).any fun r =>
    (ruleState s r).active && (ruleOf s r).action == 2 && ruleActs (ruleOf s r) s.cst.state

/-- ALERT_N as R516 holds it. -/
def settleAlert (s : State) : State := s.modCst fun c => { c with alertN := !alertDue s }

/-- Whether a request came by the mailbox. -/
def DictReq.isMailbox : DictReq → Bool
  | .mailbox _ => true
  | .frame _ _ => false

/-- What loss of main power leaves: the Custodian, the pins outside the main device, and the model's own records
(R505, R509, R522, R523). Bit 3 of the reasons stands until a wake settles it (R551). -/
def dropMain (s : State) : State :=
  { pending := s.pending
    cst := { s.cst with
      limitedReasons := s.cst.limitedReasons &&& 8
      mbxXfer := none
      queue := s.cst.queue.filter fun q => !q.isMailbox }
    power := { inputPower := s.power.inputPower, perstN := s.power.perstN }
    hiCst := s.hiCst
    readData := s.readData
    readPoison := s.readPoison
    portData := s.portData
    cfgRetry := s.cfgRetry
    nextTask := s.nextTask
    hostOut := s.hostOut
    canOut := s.canOut
    flitOut := s.flitOut
    freeCtr := s.freeCtr }

/-- HALT by a rule: main power is cut with no drain and HALT_RULE records the rule (R509). -/
def enterHalt (s : State) (rule : Nat) : State :=
  let s := dropMain s
  settleAlert (s.modCst fun c => { c with state := .halt, target := .halt, haltRule := BitVec.ofNat 8 rule })

/-- The lowest active CUT rule that acts in the present state. -/
def standingCut (s : State) : Option Nat :=
  (List.range 32).find? fun r =>
    (ruleState s r).active && (ruleOf s r).action == 3 && ruleActs (ruleOf s r) s.cst.state

/-- Enter a state: EV_STATE while the main device is powered (R509), and the action of every ALARM or CUT rule that
stands active there (R515). -/
def enterState (s : State) (d : DevState) : State :=
  let s := s.modCst fun c => { c with state := d }
  let s := if s.power.pwrGood then raise s 0x0701 d.code blkCst else s
  match (if d = .halt then none else standingCut s) with
  | some r => enterHalt s r
  | none => settleAlert s

/-- SERVICE and LIMITED follow the reasons of R510 (R509). -/
def settleLimited (s : State) : State :=
  if s.cst.state = .service ∧ s.cst.limitedReasons ≠ 0 then enterState s .limited
  else if s.cst.state = .limited ∧ s.cst.limitedReasons = 0 then enterState s .service
  else s

/-- A reason of R510 arises. -/
def setReason (s : State) (b : Nat) : State :=
  settleLimited (s.modCst fun c => { c with limitedReasons := c.limitedReasons ||| BitVec.ofNat 32 (2 ^ b) })

/-- A reason of R510 ends. -/
def clearReason (s : State) (b : Nat) : State :=
  settleLimited (s.modCst fun c => { c with limitedReasons := c.limitedReasons &&& ~~~ BitVec.ofNat 32 (2 ^ b) })

end Sys2Proof.Machine
end

