-- ==== Sys2Proof/Machine/Mmu.lean ====
section
/-!
DEFINITION. The partition configuration as read (R150 to R152), structure instances and their editions by number, the
partition MMU (R102 to R106), and reads and writes of partition memory, with the errors that end what their maker was
doing (R105, R124).
-/

namespace Sys2Proof.Machine

/-! ### Structure instances -/

/-- A structure instance's record. -/
def instOf (s : State) (i : Instance) : Inst := ((s.insts.find? fun x => x.1 = i).map (·.2)).getD {}

/-- Change a structure instance. -/
def State.modInst (s : State) (i : Instance) (f : Inst → Inst) : State :=
  if s.insts.any fun x => x.1 = i then
    { s with insts := s.insts.map fun x => if x.1 = i then (i, f x.2) else x }
  else { s with insts := s.insts ++ [(i, f {})] }

/-- A live edition of an instance by number. -/
def editionOf (s : State) (i : Instance) (num : Word32) : Option Edition :=
  (instOf s i).live.find? fun e => e.num = num

/-- The edition current at one pinning unit (R38, R39). -/
def currentAt (s : State) (i : Instance) (u : PinUnit) : Option Word32 :=
  ((instOf s i).atUnit.find? fun x => x.1 = u).bind (·.2)

/-- The partition configuration's bytes as copied by a numbered edition (R150). -/
def cfgCopy (s : State) (num : Word32) : List Byte := ((editionOf s .partCfg num).map (·.copy)).getD []

/-- The partition configuration in force at a Stationmaster. -/
def cfgAt (s : State) (t : Tile) : List Byte := cfgCopy s ((currentAt s .partCfg (.station t)).getD 0)

/-- The partition configuration in force at EIO. -/
def cfgEio (s : State) : List Byte := cfgCopy s ((currentAt s .partCfg .eio).getD 0)

/-! ### Partition records -/

/-- Record n of a partition configuration (R150). -/
def partRec (copy : List Byte) (n : Nat) : List Byte := (copy.drop (256 * n)).take 256

/-- The general word (R150). -/
def genWord (rec : List Byte) : Nat := at8 rec 0 16

/-- ENABLE of a record. -/
def recEnabled (rec : List Byte) : Bool := bit (genWord rec) 0

/-- RT of a record. -/
def recRt (rec : List Byte) : Bool := bit (genWord rec) 1

/-- PRIO_MAX of a record. -/
def recPrioMax (rec : List Byte) : Nat := bits (genWord rec) 7 5

/-- RINGS of a record. -/
def recRings (rec : List Byte) : Nat := bits (genWord rec) 14 8

/-- Level-1 table of a record, as a physical address. -/
def recL1 (rec : List Byte) : Nat := bits (genWord rec) 83 48 * 4096

/-- An extent: base and size in bytes (R151). -/
structure Extent where
  base : Nat
  size : Nat
deriving DecidableEq, Repr

/-- Extent i of a record (R151). -/
def recExtent (rec : List Byte) (i : Nat) : Extent :=
  let w := at8 rec (16 + 16 * i) 16
  ⟨bits w 47 0, bits w 95 64 * 0x200000⟩

/-- The used extents of a record. -/
def recExtents (rec : List Byte) : List Extent :=
  ((List.range 8).map (recExtent rec)).filter fun e => e.size != 0

/-- A tile grant (R152). -/
structure Grant where
  g : Nat
  d : Nat
  s : Nat
  accCount : Nat
  accFirst : Nat
  bankCount : Nat
  bankFirst : Nat
  rows : Nat
  rowFirst : Nat
  cols : Nat
  colFirst : Nat
deriving DecidableEq, Repr

/-- Grant of a tile in a record (R152). -/
def recGrant (rec : List Byte) (t : Tile) : Grant :=
  let w := at8 rec (144 + 16 * tileIdx t) 16
  { g := bits w 96 86, d := bits w 85 75, s := bits w 74 64, accCount := bits w 39 35, accFirst := bits w 34 31,
    bankCount := bits w 30 25, bankFirst := bits w 24 19, rows := bits w 18 14, rowFirst := bits w 13 9,
    cols := bits w 8 4, colFirst := bits w 3 0 }

/-- Whether a range lies wholly inside one extent (R105). -/
def insideOne (xs : List Extent) (a n : Nat) : Bool :=
  xs.any fun e => decide (e.base ≤ a ∧ a + n ≤ e.base + e.size)

/-! ### Access errors -/

/-- Why an access ended: its cause, the address concerned, and whether it is a stacked-memory failure of R124 (then the
address is physical). -/
structure AccErr where
  cause : Nat
  addr : Nat
  phys : Bool := false
  /-- The failed access was a table walk's (R128). -/
  walk : Bool := false
  /-- Address of a corrupt compressed image (R119). -/
  image : Nat := 0
  /-- The failed access was a demand fill (R124, R128). -/
  fill : Bool := false
  /-- The access must wait (R111, R412). -/
  wait : Option WaitFor := none
deriving DecidableEq, Repr

/-- The partition and tile an access is made for, and the configuration copy its maker pinned. -/
structure Ctx where
  part : Nat
  tile : Tile
  copy : List Byte
deriving DecidableEq, Repr

/-! ### Physical reads -/

/-- Cut a range into pieces at multiples of g, with fuel for their number. -/
def pieces (g : Nat) : Nat → Nat → Nat → List (Nat × Nat)
  | 0, _, _ => []
  | f + 1, a, n =>
    if n = 0 then []
    else
      let k := min n (g - a % g)
      (a, k) :: pieces g f (a + k) (n - k)

/-- Pieces of a range at 64 KiB pages. -/
def pagesOf (a n : Nat) : List (Nat × Nat) := pieces 0x10000 (n / 0x10000 + 2) a n

/-- Target in the reserve of granule n of a tile's retired pseudo-channel r (R550). -/
def migrationTarget (t : Tile) (r n : Nat) : Nat :=
  let p := if n % 511 < r then n % 511 else n % 511 + 1
  let q := 4186112 + n / 511
  let x := p ^^^ (q % 512) ^^^ (q / 512 % 512) ^^^ (q / 262144)
  regionBase t + (q * 512 + x) * 256

/-- Where a stacked address is served: the reserve, once its granule's redirect is set (R551). -/
def servedAt (s : State) (a : Nat) : Nat :=
  let t := homeTile a
  let m := s.tmem.get t
  let n := (a - regionBase t) / 131072
  if isStacked a ∧ (m.used ∨ m.moving) ∧ n < (if m.used then 4186112 else m.movePos) ∧ pcOf a = m.retiredPc then
    migrationTarget t m.retiredPc n + a % 256
  else a

/-- Whether the pseudo-channel of a stacked address failed training and has no spare (R551). -/
def deadAt (s : State) (a : Nat) : Bool :=
  isStacked a && (s.tmem.get (homeTile a)).dead.contains (pcOf (servedAt s a))

/-- Whether a valid frame of the home tile's window buffer holds the page of a stacked address (R108). -/
def frameHolds (s : State) (a : Nat) : Bool :=
  isStacked a && (s.tmem.get (homeTile a)).frames.any fun f => f.2.valid && f.2.page == a / 0x10000

/-- The first address of a range of stacked memory itself whose read is uncorrectable: a poisoned burst (R548), or a
pseudo-channel without training (R551). -/
def firstBadBelow (s : State) (a n : Nat) : Option Nat :=
  match firstPoison s a n with
  | some x => some x
  | none =>
    if allTiles.all fun t => (s.tmem.get t).dead.isEmpty then none
    else ((pieces 256 (n / 256 + 2) a n).find? fun p => deadAt s p.1).map (·.1)

/-- The first address of a range whose read is uncorrectable, pages that a frame serves apart (R108). -/
def firstBad (s : State) (a n : Nat) : Option Nat :=
  (pieces 0x10000 (n / 0x10000 + 2) a n).findSome? fun p =>
    if frameHolds s p.1 then none else firstBadBelow s p.1 p.2

/-- Whether a range of n bytes meets one of a list of 64 KiB pages. -/
def meetsPages (ps : List Nat) (a n : Nat) : Bool := ps.any fun p => decide (a < 65536 * p + 65536 ∧ 65536 * p < a + n)

/-- The Junction whose registration a read (of a provisional page) or a write (to a retained page) must wait for
(R412). -/
def registered (s : State) (write : Bool) (a n : Nat) : Option Wing :=
  let hit (w : Wing) : Bool := (s.jn.get w).ctxs.any fun c => meetsPages (if write then c.retained else c.provisional) a n
  if hit .east then some .east else if hit .west then some .west else none

/-- Read physical memory (R95, R412, R548): unassigned ranges read 0. -/
def readPa (s : State) (a n : Nat) : Except AccErr (List Byte) :=
  if isStacked a ∨ isOnChip a then
    match registered s false a n, firstBad s a n with
    | some w, _ => .error { cause := 0, addr := a, wait := some (.junction w) }
    | none, some x => .error { cause := 0x0201, addr := x, phys := true }
    | none, none => .ok (memBytes s.mem a n)
  else .ok (List.replicate n 0)

/-- Mark the sectors of a resident page dirty (R110, R112): only demand frames hold dirty sectors. -/
def markDirty (s : State) (a n : Nat) : State :=
  if isStacked a ∧ n ≠ 0 then
    s.modMem (homeTile a) fun m =>
      { m with frames := m.frames.map fun f =>
          if f.2.valid ∧ f.2.kind = .demand ∧ f.2.page = a / 0x10000 then
            (f.1, { f.2 with dirty := f.2.dirty ||| ((List.range 16).foldl (fun x i =>
              if a % 0x10000 / 4096 ≤ i ∧ i ≤ (a % 0x10000 + n - 1) / 4096 then x ||| BitVec.ofNat 16 (2 ^ i) else x) 0) })
          else f }
  else s

/-- A request reaches a pseudo-channel: it leaves power-down, and its stack self-refresh (R535). -/
def wakePc (s : State) (a : Nat) : State :=
  let t := homeTile a
  let pc := pcOf (servedAt s a)
  let k := 8 * tileIdx t + pc / 64
  match Table.find s.power.dram k with
  | none => s
  | some x =>
    if !x.selfRefresh && !x.down.contains pc then s
    else s.modPower fun p => { p with dram := Table.insert p.dram k { x with selfRefresh := false, down := x.down.erase pc } }

/-- A request reaches a range of stacked memory (R535). -/
def wakeStacks (s : State) (a n : Nat) : State :=
  if isStacked a && s.power.dram.any fun x => x.2.selfRefresh || !x.2.down.isEmpty then
    (pieces 256 (n / 256 + 2) a n).foldl (fun s p => wakePc s p.1) s
  else s

/-- Whether a demand frame serves the page of a stacked address: a write stays in the frame (R108, R111). -/
def demandHolds (s : State) (a : Nat) : Bool :=
  isStacked a && (s.tmem.get (homeTile a)).frames.any fun f => f.2.valid && f.2.kind = .demand && f.2.page == a / 0x10000

/-- Write physical memory (R95, R108, R551): unassigned ranges and untrained pseudo-channels discard the bytes. A write
that a demand frame serves leaves the poison marks of stacked memory until its sector is written back. -/
def storePa (s : State) (a : Nat) (bs : List Byte) : State :=
  if isStacked a then
    let s := wakeStacks (markDirty s a bs.length) a bs.length
    if demandHolds s a then { writePa s a bs with poison := s.poison }
    else if allTiles.all fun t => (s.tmem.get t).dead.isEmpty then writePa s a bs
    else (pieces 256 (bs.length / 256 + 2) a bs.length).foldl (fun s p =>
      if deadAt s p.1 then s else writePa s p.1 ((bs.drop (p.1 - a)).take p.2)) s
  else if isOnChip a then writePa s a bs
  else s

/-! ### Translation -/

/-- A translation: the address, the page it lies in, and the leaf's marks (R104). -/
structure Xlat where
  pa : Nat
  base : Nat
  size : Nat
  leaf : Nat
deriving DecidableEq, Repr

/-- Physical address at which the page of a translation begins: that of the image for a compressed page (R104). -/
def Xlat.image (x : Xlat) (va : Nat) : Nat := x.pa - va % 0x10000

/-- TIER of a leaf (R107). -/
def leafTier (leaf : Nat) : Nat := bits leaf 5 4

/-- W of a leaf. -/
def leafW (leaf : Nat) : Bool := bit leaf 3

/-- CMPX of a leaf. -/
def leafCmpx (leaf : Nat) : Bool := bit leaf 2

/-- ADDR of an entry as an address (R104). -/
def pteAddr (e : Nat) : Nat := bits e 47 8 * 256

/-- Size and index of the entries at a level (R103). -/
def levelShift (lvl : Nat) : Nat := if lvl = 4 then 16 else 48 - 9 * lvl

/-- Size of a table at a level (R103). -/
def tableSize (lvl : Nat) : Nat := if lvl = 4 then 256 else 4096

/-- Index of an address at a level (R103). -/
def levelIndex (lvl va : Nat) : Nat := va / 2 ^ levelShift lvl % (if lvl = 4 then 32 else 512)

/-- Whether a table of a level is well placed (R105). -/
def tableOk (lvl a : Nat) : Bool := a % tableSize lvl == 0 && isStacked a

/-- Faults of a leaf (R105), in the order of the table of R105 but for W, which is judged last: it depends on the
access. A compressed leaf names an image, aligned to a sector of 4 KiB (R118); the rest of the image is judged when it is
read. Assumption log 9. -/
def leafOk (xs : List Extent) (lvl e : Nat) : Bool :=
  let size := if leafTier e = 3 then 4096 else 2 ^ levelShift lvl
  decide (lvl ≠ 1) && pteAddr e % size == 0 && insideOne xs (pteAddr e) size
    && !(leafTier e == 2 && leafW e) && !(leafTier e == 3 && lvl != 4)

/-- Whether an access from a tile would cross a Concourse that is down (R18, R455). -/
def cutOff (s : State) (t : Tile) (a : Nat) : Bool :=
  isStacked a && wingOf (homeTile a) != wingOf t && !concourseUp s

/-- Walk the tables from a level for a unit of a tile (R103 to R105), with fuel for the levels. A table entry whose
TIER, W or CMPX is set is malformed too: R104 gives those fields to leaves only (DESIGN CHOICE, assumption log 117). -/
def walkFrom (s : State) (t : Tile) (xs : List Extent) (va : Nat) : Nat → Nat → Nat → Except AccErr Xlat
  | 0, _, _ => .error { cause := 0x0205, addr := va }
  | f + 1, lvl, table =>
    if !tableOk lvl table then .error { cause := 0x0205, addr := va }
    else if cutOff s t table then .error { cause := 0x0306, addr := va }
    else
      match readPa s (table + 8 * levelIndex lvl va) 8 with
      | .error e => .error { e with walk := true }
      | .ok bs =>
        let e := leNat bs
        let kind := bits e 7 6
        if kind = 0 then .error { cause := 0x0203, addr := va }
        else if kind = 3 ∨ bits e 63 48 ≠ 0 ∨ bits e 1 0 ≠ 0 then .error { cause := 0x0205, addr := va }
        else if kind = 1 then
          if lvl = 4 ∨ leafTier e ≠ 0 ∨ leafW e ∨ leafCmpx e then .error { cause := 0x0205, addr := va }
          else walkFrom s t xs va f (lvl + 1) (pteAddr e)
        else if leafOk xs lvl e then
          let size := 2 ^ levelShift lvl
          .ok { pa := pteAddr e + va % size, base := va / size * size, size := size, leaf := e }
        else .error { cause := 0x0205, addr := va }

/-- A cached translation that covers an address (R106). -/
def tlbHit (s : State) (c : Ctx) (va : Nat) : Option Xlat :=
  ((s.tmem.get c.tile).tlb.find? fun e => decide (e.part = c.part ∧ e.va ≤ va ∧ va < e.va + e.size)).map fun e =>
    { pa := pteAddr e.leaf + (va - e.va), base := e.va, size := e.size, leaf := e.leaf }

/-- Translate an address for reading or writing (R102 to R106). -/
def translate (s : State) (c : Ctx) (va : Nat) (write : Bool) : Except AccErr Xlat :=
  let va := va % 2 ^ 48
  let r := match tlbHit s c va with
    | some x => Except.ok x
    | none =>
      let r0 := partRec c.copy c.part
      walkFrom s c.tile (recExtents r0) va 4 1 (recL1 r0)
  match r with
  | .error e => .error e
  | .ok x =>
    if write ∧ (!leafW x.leaf ∨ leafTier x.leaf = 3) then .error { cause := 0x0204, addr := va }
    else if cutOff s c.tile x.pa then .error { cause := 0x0306, addr := va }
    else .ok x

/-- Keep a translation in the tile's cache: 4,096 entries, the oldest leaving first (R106). Which translations a tile
caches is not stated; the model caches those used at issue (assumption log 11). -/
def fillTlb (s : State) (c : Ctx) (va : Nat) : State :=
  match tlbHit s c (va % 2 ^ 48), translate s c va false with
  | none, .ok x =>
    s.modMem c.tile fun m =>
      { m with tlb := (⟨c.part, x.base, x.size, x.leaf⟩ :: m.tlb).take 4096 }
  | _, _ => s

/-! ### Partition reads and writes -/

/-- The image of a compressed page, read whole (R119); one that leaves the partition's extents is no page (R105). -/
def readImage (s : State) (c : Ctx) (va a : Nat) : Except AccErr (List Byte) :=
  match readPa s a 64 with
  | .error e => .error e
  | .ok h =>
    if insideOne (recExtents (partRec c.copy c.part)) a (imageSectors h * 4096) then readPa s a (imageSectors h * 4096)
    else .error { cause := 0x0205, addr := va }

/-- The 64 KiB page behind a compressed leaf (R119). -/
def readCompressed (s : State) (c : Ctx) (va a : Nat) : Except AccErr (List Byte) :=
  match readImage s c va a with
  | .error e => .error e
  | .ok img =>
    match decodeImage img with
    | some p => .ok p
    | none => .error { cause := 0x0206, addr := va, image := a }

/-- Key of a compressed page's frame: apart from every physical page (R119). -/
def imageKey (a : Nat) : Nat := 0x100000000 + a / 4096

/-- The frame that holds or awaits the page of a directory key, on a tile. -/
def frameOf (s : State) (t : Tile) (key : Nat) : Option (Nat × Frame) :=
  (s.tmem.get t).frames.find? fun f => f.2.page == key && (f.2.valid || f.2.filling)

/-- First byte of the frame that holds a compressed page, if one does (R119). -/
def pageFrame (s : State) (a : Nat) : Option Nat :=
  match frameOf s (homeTile a) (imageKey a) with
  | some (n, f) => if f.valid then some (frameBase (homeTile a) n) else none
  | none => none

/-- Read within one page of a partition (R102, R107, R108). A compressed page that a frame holds is served from it, and
is decompressed for this access alone otherwise (R119). -/
def readPiece (s : State) (c : Ctx) (va n : Nat) : Except AccErr (List Byte) :=
  match translate s c va false with
  | .error e => .error e
  | .ok x =>
    if leafTier x.leaf = 3 then
      match pageFrame s (x.image va) with
      | some f => readPa s (f + va % 0x10000) n
      | none =>
        match readCompressed s c va (x.image va) with
        | .error e => .error e
        | .ok p => .ok ((p.drop (va % 0x10000)).take n)
    else readPa s x.pa n

/-- Read pieces in ascending order; the first error ends the read. -/
def readPieces (s : State) (c : Ctx) : List (Nat × Nat) → Except AccErr (List Byte)
  | [] => .ok []
  | p :: ps =>
    match readPiece s c p.1 p.2 with
    | .error e => .error e
    | .ok x =>
      match readPieces s c ps with
      | .error e => .error e
      | .ok y => .ok (x ++ y)

/-- Read n bytes of partition memory. -/
def readVa (s : State) (c : Ctx) (va n : Nat) : Except AccErr (List Byte) := readPieces s c (pagesOf va n)

/-- Write pieces in ascending order; the first error ends the write, with what was written before it. -/
def writePieces (s : State) (c : Ctx) (va : Nat) (bs : List Byte) : List (Nat × Nat) → State × Option AccErr
  | [] => (s, none)
  | p :: ps =>
    match translate s c p.1 true with
    | .error e => (s, some e)
    | .ok x =>
      match registered s true x.pa p.2 with
      | some w => (s, some { cause := 0, addr := p.1, wait := some (.junction w) })
      | none => writePieces (storePa s x.pa ((bs.drop (p.1 - va)).take p.2)) c va bs ps

/-- Write bytes to partition memory. -/
def writeVa (s : State) (c : Ctx) (va : Nat) (bs : List Byte) : State × Option AccErr :=
  writePieces s c va bs (pagesOf va bs.length)

/-- The first error a write of n bytes would meet. -/
def writeFault (s : State) (c : Ctx) (va n : Nat) : Option AccErr :=
  (pagesOf va n).findSome? fun p =>
    match translate s c p.1 true with
    | .error e => some e
    | .ok _ => none

/-- Leave free bytes in every writable page of a range (R138); a page that a collective retains has not been written
(R412). -/
def scribble (s : State) (c : Ctx) (va n : Nat) : State :=
  (pagesOf va n).foldl (fun s p =>
    match translate s c p.1 true with
    | .error _ => s
    | .ok x =>
      if (registered s true x.pa p.2).isSome then s else let (bs, s) := freeBytes s p.2; storePa s x.pa bs) s

/-- A little-endian number of partition memory. -/
def readNum (s : State) (c : Ctx) (va n : Nat) : Except AccErr Nat := (readVa s c va n).map leNat

/-! ### Failures of stacked memory -/

/-- Sources of a failed access (R128). -/
inductive FailSrc where
  | task | demandFill | stageLoad | scheduledLoad | writeBack | mmuWalk | host | decompression
deriving DecidableEq, Repr

/-- SRC code of R128. -/
def FailSrc.code : FailSrc → Nat
  | .task => 0
  | .demandFill => 1
  | .stageLoad => 2
  | .scheduledLoad => 3
  | .writeBack => 4
  | .mmuWalk => 5
  | .host => 6
  | .decompression => 7

/-- Capture the first failure since the last FAULT_CLR (R128). -/
def captureFail (s : State) (t : Tile) (src : FailSrc) (part cause pa : Nat) : State :=
  if flg (s.tmem.get t).faultInfo 31 then s
  else s.modMem t fun m =>
    { m with
      faultInfo := pack [(1, 31), (part % 16, 20), (src.code, 16), (cause, 0)]
      faultLo := BitVec.ofNat 32 pa
      faultHi := BitVec.ofNat 32 (pa / 2 ^ 32 % 2 ^ 16) }

/-- Row of a stacked address within its pseudo-channel: 1 KiB rows (R549). -/
def rowOf (a : Nat) : Nat := locationOf a / 1024

/-- A new row-repair item of R549, unless the row already has one. -/
def triggerRepair (s : State) (t : Tile) (pc row : Nat) : State :=
  if (s.tmem.get t).repairs.any fun r => r.pc == pc && r.row == row then s
  else s.modMem t fun m => { m with repairs := m.repairs ++ [{ pc := pc, row := row, unitsLeft := 32 }] }

/-- A pseudo-channel meets a condition of R550: it is retired into the reserve, or has no spare (R550, R551). -/
def failPseudoChannel (s : State) (t : Tile) (pc : Nat) : State :=
  let m := s.tmem.get t
  if (m.used || m.moving) && m.retiredPc == pc then s
  else if m.en && !m.used && !m.moving then
    raise (s.modMem t fun m => { m with moving := true, retiredPc := pc, movePos := 0 }) 0x0206 pc (blkMem t)
  else setReason (raise (s.modMem t fun m => { m with unspared := true }) 0x0206 (2 ^ 31 + pc) (blkMem t)) 3

/-- An uncorrectable read counts toward the retirement of its pseudo-channel (R550). -/
def countUncorrectable (s : State) (t : Tile) (pc : Nat) : State :=
  let n := Table.get 0 (s.tmem.get t).ueCount pc + 1
  let s := s.modMem t fun m => { m with ueCount := Table.set 0 m.ueCount pc n }
  if n = dictVal s 0x3032 0 + 1 ∧ !(s.tmem.get t).dead.contains pc then failPseudoChannel s t pc else s

/-- What follows every failure under R124: event, counter, capture, cause log; an uncorrectable read also starts a row
repair (R549) and counts toward the retirement of its pseudo-channel (R550). -/
def memFailure (s : State) (src : FailSrc) (part cause pa : Nat) : State :=
  let t := homeTile pa
  let at_ := servedAt s pa
  let pc := pcOf at_
  let late := decide (cause = 0x0202)
  let s := raise s (if late then 0x0202 else 0x0201) pc (blkMem t) part
  let s := addCtr s (blkMem t) (if late then 0x0108 else 0x0100)
  let s := captureFail s t src part cause pa
  let s := logCause s { wing := wingOf t, unit := .memory, cause := cause, addr := pa, part := part, detail := pc }
  if late then s
  else
    let s := triggerRepair s t pc (rowOf at_)
    countUncorrectable s t pc

/-- A corrupt compressed image is counted and captured at its home tile (R119, R128). -/
def imageFailure (s : State) (part pa : Nat) : State :=
  let t := homeTile pa
  captureFail (addCtr s (blkMem t) 0x0128) t .decompression part 0x0206 pa

/-- The memory side of an error: a failure under R124 and a corrupt image are reported by the memory system, a
translation fault is not. -/
def failAcc (s : State) (src : FailSrc) (part : Nat) (e : AccErr) : State :=
  if e.wait.isSome then { s with heldAt := e.wait }
  else if e.cause = 0x0206 then imageFailure s part e.image
  else if e.phys then memFailure s (if e.walk then .mmuWalk else if e.fill then .demandFill else src) part e.cause e.addr
  else s

/-- A command whose access must wait, so that it takes no effect now and must come again: for a page that a Junction has
registered, where JN_RANGE_WAIT adds 1 (R412), or for a demand frame without pins (R111). -/
def orWait (s : State) (f : State → State) : State :=
  match (f { s with heldAt := none }).heldAt with
  | none => f { s with heldAt := none }
  | some (.junction w) => addCtr { s with heldAt := none } (blkJn w) 0x0130
  | some .frames => { s with heldAt := none }

end Sys2Proof.Machine
end

