-- ==== Sys2Proof/Machine/Pages.lean ====
section
/-!
DEFINITION. The window buffers as accesses meet them (R107 to R112, R119): the frame directory, demand frames and their
victims, and reads and writes of partition memory that bring windowed and compressed pages into frames. A frame's
bytes are those of the page it holds (R108); only a decompressed page has bytes of its own, in the window buffer.
-/

namespace Sys2Proof.Machine

/-- Go on with the value of a step that may fail, threading the state; an error ends the sequence. -/
def andThen {ε α β : Type} (r : State × Except ε α) (f : State → α → State × Except ε β) : State × Except ε β :=
  match r with
  | (s, .error e) => (s, .error e)
  | (s, .ok a) => f s a

/-! ### Directory -/

/-- Key under which the page of a translation stands in the directory. -/
def frameKey (x : Xlat) (va : Nat) : Nat := if leafTier x.leaf = 3 then imageKey (x.image va) else x.pa / 0x10000

/-- Home tile of the page of a translation: that of its image when it is compressed. -/
def pageHome (x : Xlat) (va : Nat) : Tile := homeTile (if leafTier x.leaf = 3 then x.image va else x.pa)

/-- Change a frame. -/
def modFrame (s : State) (t : Tile) (n : Nat) (f : Frame → Frame) : State :=
  s.modMem t fun m => { m with frames := m.frames.map fun x => if x.1 == n then (x.1, f x.2) else x }

/-- Free a frame. -/
def freeFrame (s : State) (t : Tile) (n : Nat) : State :=
  s.modMem t fun m => { m with frames := Table.erase m.frames n }

/-- Frames of a partition and kind that stand within its counts (R109, R124). -/
def ownFrames (s : State) (t : Tile) (p : Nat) (k : FrameKind) : List (Nat × Frame) :=
  (s.tmem.get t).frames.filter fun f => f.2.owner == p && f.2.kind = k && f.2.stuck.isNone

/-- Lowest frame number that is not assigned. -/
def spareFrame (s : State) (t : Tile) : Option Nat :=
  (List.range 1600).find? fun n => !(s.tmem.get t).frames.any fun f => f.1 == n

/-- One past the latest order of use at a tile (R111: least recently used). -/
def nextUse (s : State) (t : Tile) : Nat := (s.tmem.get t).frames.foldl (fun a f => max a f.2.used) 0 + 1

/-- Grant of a partition at a tile in the configuration current there. -/
def grantAt (s : State) (t : Tile) (p : Nat) : Grant := recGrant (partRec (cfgAt s t) p) t

/-! ### Demand frames -/

/-- Write back a frame's dirty sectors (R112): the bytes reach stacked memory, whose bursts there lose their poison. -/
def writeBack (s : State) (t : Tile) (n : Nat) (f : Frame) : State :=
  let s := modFrame s t n fun y => { y with dirty := 0 }
  { s with poison := s.poison.filter fun b =>
      !(64 * b / 0x10000 == f.page && f.dirty.getLsbD (64 * b % 0x10000 / 4096)) }

/-- The victim of R111: the least recently used demand frame without pins. -/
def victimOf (fs : List (Nat × Frame)) : Option (Nat × Frame) :=
  (fs.filter fun f => f.2.pins == 0 && !f.2.filling).foldl (fun (b : Option (Nat × Frame)) f =>
    match b with
    | none => some f
    | some g => if f.2.used < g.2.used then some f else some g) none

/-- A demand frame for a page: a free one within D, or a victim whose dirty sectors are written back (R111, R112);
none while every frame is pinned. -/
def takeDemand (s : State) (t : Tile) (p d : Nat) : Option (Nat × State) :=
  let own := ownFrames s t p .demand
  if own.length < d then (spareFrame s t).map fun n => (n, s)
  else (victimOf own).map fun v => (v.1, freeFrame (writeBack s t v.1 v.2) t v.1)

/-- Assign a frame. -/
def assignFrame (s : State) (t : Tile) (n : Nat) (f : Frame) : State :=
  s.modMem t fun m => { m with frames := Table.insert m.frames n { f with used := nextUse s t } }

/-- The access of a page that must wait for a frame without pins (R111). -/
def waitFrame (va : Nat) : AccErr := { cause := 0, addr := va, wait := some .frames }

/-- The content of a page as a fill finds it: all 64 KiB read from stacked memory, or the image decompressed (R111,
R119); a failed read is the fill's own (R124). -/
def fillContent (s : State) (c : Ctx) (x : Xlat) (va : Nat) : Except AccErr (Option (List Byte)) :=
  if leafTier x.leaf = 3 then (readCompressed s c va (x.image va)).map some
  else match firstBadBelow s (x.pa / 0x10000 * 0x10000) 0x10000 with
    | some b => .error { cause := 0x0201, addr := b, phys := true, fill := true }
    | none => .ok none

/-- Place a page in a frame that has been assigned: a decompressed page brings its bytes (R119). -/
def placePage (s : State) (t : Tile) (n : Nat) (page : Option (List Byte)) : State :=
  match page with
  | some bs => writeFrame s t n bs
  | none => s

/-- Bring a page into a demand frame in full (R111, R119). -/
def fillDemand (s : State) (c : Ctx) (x : Xlat) (va d : Nat) : State × Option AccErr :=
  let t := pageHome x va
  match takeDemand s t c.part d with
  | none => (s, some (waitFrame va))
  | some (n, s) =>
    match fillContent s c x va with
    | .error e => (s, some e)
    | .ok page =>
      (placePage (assignFrame s t n { owner := c.part, kind := .demand, page := frameKey x va, valid := true }) t n page, none)

/-! ### What an access meets -/

/-- What one access to one page does to the window buffers (R107, R111, R114, R119): a frame that holds or awaits the
page is used; a windowed or compressed page enters a demand frame, or is served directly where D = 0; a streamed page
that no frame holds is counted. -/
def meetPage (s : State) (c : Ctx) (x : Xlat) (va : Nat) : State × Option AccErr :=
  let t := pageHome x va
  let d := (recGrant (partRec c.copy c.part) t).d
  match frameOf s t (frameKey x va) with
  | some (n, _) => (modFrame s t n fun y => { y with used := nextUse s t }, none)
  | none =>
    match leafTier x.leaf with
    | 0 => (s, none)
    | 2 => (addCtr s (blkMem t) 0x0118, none)
    | k => if d = 0 then (if k = 1 then addCtr s (blkMem t) 0x0130 else s, none) else fillDemand s c x va d

/-- Read within one page of a partition, with what the access does below it (R102, R107, R108, R412). -/
def loadPiece (s : State) (c : Ctx) (va n : Nat) : State × Except AccErr (List Byte) :=
  match translate s c va false with
  | .error e => (s, .error e)
  | .ok x =>
    match registered s false x.pa n with
    | some w => (s, .error { cause := 0, addr := va, wait := some (.junction w) })
    | none =>
      match meetPage (wakeStacks s x.pa n) c x va with
      | (s, some e) => (s, .error e)
      | (s, none) => (s, readPiece s c va n)

/-- Read pieces in ascending order; the first error ends the read. -/
def loadPieces (s : State) (c : Ctx) : List (Nat × Nat) → State × Except AccErr (List Byte)
  | [] => (s, .ok [])
  | p :: ps => andThen (loadPiece s c p.1 p.2) fun s x => andThen (loadPieces s c ps) fun s y => (s, .ok (x ++ y))

/-- Read n bytes of partition memory, with what the access does below it. -/
def loadVa (s : State) (c : Ctx) (va n : Nat) : State × Except AccErr (List Byte) := loadPieces s c (pagesOf va n)

/-- Read a little-endian number, with what the access does below it. -/
def loadNum (s : State) (c : Ctx) (va n : Nat) : State × Except AccErr Nat :=
  andThen (loadVa s c va n) fun s bs => (s, .ok (leNat bs))

/-- Reads of several ranges, each one access, for what they do below them; their bytes are taken apart. -/
def touchRanges (s : State) (c : Ctx) : List (Nat × Nat) → State × Except AccErr Unit
  | [] => (s, .ok ())
  | r :: rs => andThen (loadVa s c r.1 r.2) fun s _ => touchRanges s c rs

/-- Write pieces in ascending order, each page entering its frame first where it is windowed (R111); the first error ends
the write, with what was written before it. -/
def savePieces (s : State) (c : Ctx) (va : Nat) (bs : List Byte) : List (Nat × Nat) → State × Option AccErr
  | [] => (s, none)
  | p :: ps =>
    match translate s c p.1 true with
    | .error e => (s, some e)
    | .ok x =>
      match registered s true x.pa p.2 with
      | some w => (s, some { cause := 0, addr := p.1, wait := some (.junction w) })
      | none =>
        match meetPage s c x p.1 with
        | (s, some e) => (s, some e)
        | (s, none) => savePieces (storePa s x.pa ((bs.drop (p.1 - va)).take p.2)) c va bs ps

/-- Write bytes to partition memory, with what the access does below it. -/
def saveVa (s : State) (c : Ctx) (va : Nat) (bs : List Byte) : State × Option AccErr :=
  savePieces s c va bs (pagesOf va bs.length)

end Sys2Proof.Machine
end

