-- ==== Sys2Proof/Machine/Editions.lean ====
section
/-!
DEFINITION. Editions: pins and retirement (R36 to R44, R158), the queue of swaps of each structure instance and their
judgement (R37, R41, R589), and the content checks of R153, R289, R308, R369 and R394.
-/

namespace Sys2Proof.Machine

/-! ### Instances and their units -/

/-- Home tile of an instance: tile 0 of the wing, the tile named at creation, or E0 (R36, R370). -/
def instHome (s : State) (i : Instance) : Tile :=
  match i with
  | .kv _ w => tileIn w 0
  | .pfx _ w => tileIn w 0
  | .cat _ => (instOf s i).home
  | .group => .e0
  | .partCfg => .e0

/-- Units that pin an instance (R36). -/
def pinUnits (s : State) (i : Instance) : List PinUnit :=
  match i with
  | .kv _ w => (wingTiles w).map .station
  | .pfx _ w => (wingTiles w).map .station
  | .cat _ => (wingTiles (wingOf (instHome s i))).map .station
  | .group => allTiles.map .station ++ [.junction .east, .junction .west]
  | .partCfg => allTiles.map .station ++ [.eio]

/-- STRUCT code (R158). -/
def structCode : Instance → Nat
  | .kv _ _ => 1
  | .pfx _ _ => 2
  | .cat _ => 3
  | .group => 4
  | .partCfg => 5

/-- PART and INSTANCE of a retirement report (R158). -/
def instNums : Instance → Nat × Nat
  | .kv p _ => (p.val, 0)
  | .pfx p _ => (p.val, 0)
  | .cat n => (0, n.val)
  | .group => (0, 0)
  | .partCfg => (0, 0)

/-- Wing of a pinning unit. -/
def unitWing : PinUnit → Wing
  | .station t => wingOf t
  | .junction w => w
  | .eio => .east

/-- Edition a is newer than b (R42). -/
def newer (a b : Word32) : Bool := let d := (a - b).toNat; decide (1 ≤ d ∧ d ≤ 2 ^ 31 - 1)

/-! ### Retirement -/

/-- Whether a task pins an edition (R39). -/
def pinnedBy (s : State) (i : Instance) (num : Word32) : Bool :=
  s.tasks.any fun t => t.pins.any fun p => p.inst = i ∧ p.num = num

/-- Whether an edition is current somewhere (R40). -/
def currentSomewhere (x : Inst) (num : Word32) : Bool :=
  x.current == some num || x.atUnit.any fun u => u.2 == some num

/-- Drop the look-aside entries of an edition at one tile, counted (R299, R319). -/
def dropLab (s : State) (t : Tile) (p : LabEntry → Bool) : State :=
  let n := ((s.porter.get t).lab.filter p).length
  let s := s.modPorter t fun x => { x with lab := x.lab.filter fun e => !p e }
  if n = 0 then s else addCtr s (blkPw t) 0x0218 n

/-- Report a retired edition in the home Stationmaster's queue of 64 (R158, R161). -/
def reportRetired (s : State) (i : Instance) (num : Word32) : State :=
  let t := instHome s i
  let (part, inst) := instNums i
  if 64 ≤ (s.sch.get t).retireQ.length then
    raise (addCtr s (blkSch t) 0x0120) 0x0107 num.toNat (blkSch t) part
  else
    raise (s.modSch t fun x => { x with retireQ := x.retireQ ++ [⟨num, structCode i, part, inst⟩] })
      0x0106 num.toNat (blkSch t) part

/-- Retire one edition (R40). -/
def retireOne (s : State) (i : Instance) (num : Word32) : State :=
  let s := s.modInst i fun x => { x with live := x.live.filter fun e => e.num ≠ num }
  let s := match i with
    | .kv p w => (wingTiles w).foldl (fun s t => dropLab s t fun e => e.part == p.val && e.edition == num) s
    | _ => s
  reportRetired s i num

/-- Retire every edition of an instance that is neither current anywhere nor pinned (R40). -/
def retireUnpinned (s : State) (i : Instance) : State :=
  let x := instOf s i
  let dead := x.live.filter fun e => !currentSomewhere x e.num && !pinnedBy s i e.num
  dead.foldl (fun s e => retireOne s i e.num) s

/-! ### Answering commands -/

/-- Field of an entry. -/
def ent (e : Entry) (hi lo : Nat) : Nat := bits e.toNat hi lo

/-- TAG of an entry. -/
def entryTag (e : Entry) : Nat := bits e.toNat 31 0

/-- KIND of an entry (R130, R479). -/
def entryKind (e : Entry) : Nat := bits e.toNat 35 32

/-- OPCODE of a command (R479). -/
def cmdOp (e : Entry) : Nat := bits e.toNat 43 36

/-- PART of a command (R479). -/
def cmdPart (e : Entry) : Nat := bits e.toNat 47 44

/-- Where an entry came from and whether its completion entry is still owed (R476, R482). -/
structure Origin where
  func : Func
  ring : Nat
  sqHead : Nat
  answer : Bool
deriving DecidableEq, Repr

/-- Answer a command: its completion entry, HIF_CMD when it was performed (R489), the cause log when it failed
(R560). -/
def answerCommand (s : State) (o : Origin) (e : Entry) (cause : Nat) (wing : Wing)
    (unit : LogUnit := .stationmaster) (addr : Nat := 0) (detail : Nat := 0) : State :=
  let s := if cause = 0 then addCtr s blkHif 0x0110
    else logCause s { wing := wing, unit := unit, cause := cause, addr := addr, tag := entryTag e, ring := o.ring,
                      part := (partOf o.func).getD (cmdPart e), detail := detail }
  if o.answer then
    answerEntry s o.func o.ring
      { tag := entryTag e, cause := cause, sqHead := o.sqHead, ring := o.ring, command := true, committed := cause == 0 }
  else s

/-! ### What a swap names -/

/-- HDR_VA of an edition swap (R480). -/
def swapHdr (e : Entry) : Nat := bits e.toNat 511 464

/-- EDITION of an edition swap. -/
def swapEdition (e : Entry) : Word32 := BitVec.ofNat 32 (bits e.toNat 463 432)

/-- STRUCT of an edition swap. -/
def swapStruct (e : Entry) : Nat := bits e.toNat 419 417

/-- WING of an edition swap. -/
def swapWing (e : Entry) : Wing := wingOfNum (bits e.toNat 416 416)

/-- The instance an edition swap names; none for an unlisted STRUCT (R480). -/
def swapInst (e : Entry) : Option Instance :=
  let p : Fin 16 := Fin.ofNat 16 (cmdPart e)
  match swapStruct e with
  | 1 => some (.kv p (swapWing e))
  | 2 => some (.pfx p (swapWing e))
  | 3 => some (.cat (Fin.ofNat 4096 (bits e.toNat 431 420)))
  | 4 => some .group
  | 5 => some .partCfg
  | _ => none

/-- Whether a swap withdraws a Catalogue index (R369). -/
def isWithdrawal (i : Instance) (e : Entry) : Bool :=
  match i with
  | .cat _ => swapHdr e == 0
  | _ => false

/-- Cause of a refused edition number or content (R589). -/
def structCause : Instance → Nat
  | .kv _ _ => 0x0602
  | .pfx _ _ => 0x0602
  | .cat _ => 0x0608
  | .group => 0x0407
  | .partCfg => 0x0153

/-! ### Content checks -/

/-- KV page table header (R288, R289). -/
def kvHeaderOk (h : Nat) : Bool :=
  bits h 15 0 == 0x5A71 && bits h 431 16 == 0 && bits h 511 464 % 64 == 0

/-- Prefix tree header (R308). -/
def pfxHeaderOk (h : Nat) : Bool :=
  bits h 15 0 == 0x5A72 && bits h 447 16 == 0 && bits h 511 464 % 16 == 0

/-- Catalogue index header (R364, R369), its PART judged apart. VEC_DIM64 0 beside a VEC_VA lies outside 1 to 64:
assumption log 13. -/
def catHeaderOk (h : Nat) : Bool :=
  let vec := bits h 463 416
  let nodes := bits h 319 288
  let entry := bits h 255 224
  let fmt := bits h 201 198
  let page := bit h 192
  bits h 15 0 == 0x5A73 && bits h 187 128 == 0 && bits h 63 16 == 0
    && bits h 511 464 % 64 == 0 && vec % 64 == 0 && bits h 415 368 % 64 == 0 && bits h 367 320 % 8 == 0
    && decide (nodes ≤ bits h 287 256) && (if nodes = 0 then entry == 0 else decide (entry < nodes))
    && (if vec = 0 then bits h 207 202 == 0 && fmt == 0 else bits h 207 202 != 0 && decide (1 ≤ fmt ∧ fmt ≤ 5))
    && bits h 194 193 != 3 && (!page || (vec == 0 && bits h 197 195 == 0))
    && decide (bits h 127 64 ≤ bits h 223 208)

/-- Group entry g of the edition whose header is h; 0 where there is none (R391, R392). -/
def groupEntryAt (s : State) (h g : Nat) : Except AccErr Nat :=
  if bits h 15 0 ≠ 0x5A74 then .ok 0 else (readPa s (bits h 511 464 + 32 * g) 32).map leNat

/-- Whether a valid group entry is well formed (R394). -/
def groupEntryOk (e : Nat) : Bool :=
  let c := bits e 207 199
  let m := bits e 255 208
  bits e 198 160 == 0 && bits e 127 2 == 0 && decide (1 ≤ c ∧ c ≤ 255) && isStacked m && isStacked (m + 16 * c - 1)

/-- Content of a group table (R394): none when it passes. -/
def groupFault (s : State) (h : Nat) : Option AccErr :=
  let pa := bits h 511 464
  if bits h 15 0 ≠ 0x5A74 ∨ bits h 463 16 ≠ 0 ∨ !isStacked pa ∨ !isStacked (pa + 32 * 256 - 1) then
    some { cause := 0x0407, addr := 0 }
  else
    let es := (List.range 256).map fun g => readPa s (pa + 32 * g) 32
    match es.findSome? (fun x => match x with | .error e => some e | .ok _ => none) with
    | some c => some c
    | none =>
      let vs := (es.filterMap fun x => match x with | .ok b => some (leNat b) | .error _ => none).filter fun e => bit e 0
      if !vs.all groupEntryOk then some { cause := 0x0407, addr := 0 }
      else if 16 < (vs.filter fun e => bit e 1).length then some { cause := 0x0407, addr := 0 }
      else none

/-- Two ranges [a, a+m) and [b, b+n) overlap. -/
def overlap (a m b n : Nat) : Bool := decide (a < b + n ∧ b < a + m)

/-- Reserved bits of a partition record (R150 to R152). -/
def recReservedOk (r : List Byte) : Bool :=
  let g := genWord r
  bits g 127 84 == 0 && bits g 47 15 == 0 && bits g 4 2 == 0
    && (List.range 8).all (fun i => let w := at8 r (16 + 16 * i) 16; bits w 127 96 == 0 && bits w 63 48 == 0)
    && (List.range 4).all (fun i => let w := at8 r (144 + 16 * i) 16; bits w 127 97 == 0 && bits w 63 40 == 0)
    && at8 r 208 48 == 0

/-- Ranges of an enabled record (R153). -/
def recRangesOk (r : List Byte) : Bool :=
  decide (recRings r ≤ 64) && allTiles.all fun t =>
    let g := recGrant r t
    decide (g.colFirst + g.cols ≤ 16 ∧ g.rowFirst + g.rows ≤ 21 ∧ g.bankFirst + g.bankCount ≤ 40 ∧
      g.accFirst + g.accCount ≤ 16)

/-- Two grants of one tile share a core and overlap in banks or accumulator regions (R153). -/
def grantsClash (a b : Grant) : Bool :=
  overlap a.colFirst a.cols b.colFirst b.cols && decide (0 < a.cols ∧ 0 < b.cols)
    && overlap a.rowFirst a.rows b.rowFirst b.rows && decide (0 < a.rows ∧ 0 < b.rows)
    && ((overlap a.bankFirst a.bankCount b.bankFirst b.bankCount && decide (0 < a.bankCount ∧ 0 < b.bankCount))
      || (overlap a.accFirst a.accCount b.accFirst b.accCount && decide (0 < a.accCount ∧ 0 < b.accCount)))

/-- The reserve of a tile: the top 1 GiB of its home region (R550). -/
def reserveBase (t : Tile) : Nat := regionBase t + 0x7FC0000000

/-- Whether a range meets a reserve. -/
def meetsReserve (a n : Nat) : Bool := allTiles.any fun t => overlap a n (reserveBase t) 0x40000000

/-- Ordered pairs of list positions i < j. -/
def pairs16 : List (Nat × Nat) :=
  (List.range 16).foldl (fun l i => l ++ (List.range i).map fun j => (j, i)) []

/-- Content of a partition configuration (R153): true when it passes. L1_TABLE is judged in every record; a disabled
partition whose L1_TABLE is 0 names no table (DEDUCED, assumption log 14). -/
def cfgContentOk (copy : List Byte) (reserve : Bool) : Bool :=
  let recs := (List.range 16).map (partRec copy)
  let en := recs.filter recEnabled
  let get (i : Nat) : List Byte := nth [] recs i
  recs.all recReservedOk && en.all recRangesOk
    && pairs16.all (fun p =>
      !(recEnabled (get p.1) && recEnabled (get p.2)) ||
        (allTiles.all fun t => !grantsClash (recGrant (get p.1) t) (recGrant (get p.2) t)))
    && recs.all (fun r => (recExtents r).all fun x => isStacked x.base && decide (x.base + x.size ≤ 0x030000000000))
    && pairs16.all (fun p =>
      !(recEnabled (get p.1) && recEnabled (get p.2)) ||
        ((recExtents (get p.1)).all fun x => (recExtents (get p.2)).all fun y => !overlap x.base x.size y.base y.size))
    && (!reserve || en.all fun r => (recExtents r).all fun x => !meetsReserve x.base x.size)
    && recs.all fun r => (!recEnabled r && recL1 r == 0) || insideOne (recExtents r) (recL1 r) 4096

/-- Frame sums of R109: at most 1,600 frames on every tile. -/
def frameSumsOk (copy : List Byte) : Bool :=
  let en := ((List.range 16).map (partRec copy)).filter recEnabled
  allTiles.all fun t =>
    decide ((en.foldl (fun a r => let g := recGrant r t; a + g.s + g.d + g.g) 0) ≤ 1600)

/-! ### The entry of a command (R479 to R481) -/

/-- Whether a partition is in reset (R488). -/
def resettingPart (s : State) (p : Nat) : Bool := s.hif.resetting.getLsbD p

/-- Alignment of HDR_VA by structure (R288, R308, R364, R391, R150). -/
def hdrAlign (struct : Nat) : Nat := if struct = 5 then 4096 else 64

/-- Whether the operands of a command are well formed: reserved bits zero, addresses aligned (R479 to R481). R192
states no alignment of DESC_VA, so every address serves (DEDUCED, assumption log 119). -/
def commandOk (e : Entry) : Bool :=
  ent e 63 48 == 0 && match cmdOp e with
    | 1 => ent e 414 64 == 0 && decide (1 ≤ swapStruct e ∧ swapStruct e ≤ 5) && swapHdr e % hdrAlign (swapStruct e) == 0
    | 2 => ent e 431 64 == 0 && ent e 511 464 % 0x10000 == 0
    | 3 => ent e 463 64 == 0
    | 4 => ent e 502 64 == 0
    | 5 => ent e 301 64 == 0 && ent e 463 416 % 64 == 0
    | 6 => ent e 494 64 == 0
    | 7 => ent e 494 64 == 0
    | 8 => ent e 511 64 == 0
    | _ => false

/-- Whether a command is one of the two module-wide swaps (R481). -/
def moduleWide (e : Entry) : Bool := cmdOp e == 1 && (swapStruct e == 4 || swapStruct e == 5)

/-- The first cause of R481 that applies to a command before its own chapter's. -/
def commandFault (s : State) (f : Func) (r : Nat) (e : Entry) : Option Nat :=
  let own := match f with
    | .pf0 => true
    | .vf p => cmdPart e == p.val
  if !commandOk e then some 0x0154
  else if f ≠ .pf0 ∧ cmdOp e = 1 ∧ swapStruct e = 5 then some 0x0153
  else if f ≠ .pf0 ∧ ((cmdOp e = 1 ∧ swapStruct e = 4) ∨ cmdOp e = 8 ∨ !own) then some 0x0155
  else if f ≠ .pf0 ∧ recRings (partRec (cfgAt s (ringOf s f r).home) (cmdPart e)) ≤ r then some 0x0132
  else if !moduleWide e && cmdOp e != 8 && resettingPart s (cmdPart e) then some 0x0802
  else none

/-! ### Judging a swap -/

/-- What judgement says of a swap (R589). -/
inductive Verdict where
  | refuse (cause : Nat) (err : Option AccErr := none)
  | accept (e : Edition)
  | withdraw
deriving DecidableEq, Repr

/-- Context in which an instance's home Stationmaster reads for a partition. -/
def homeCtx (s : State) (i : Instance) (home : Tile) (e : Entry) : Ctx :=
  { part := cmdPart e, tile := match i with | .cat _ => home | _ => instHome s i
    copy := cfgAt s (match i with | .cat _ => home | _ => instHome s i) }

/-- Home tile a Catalogue swap works on: the one named at a creation, the index's own otherwise (R370). -/
def swapHome (s : State) (i : Instance) (e : Entry) : Tile :=
  match i with
  | .cat _ =>
    if (instOf s i).current.isNone then tileIn (swapWing e) (bits e.toNat 415 415) else (instOf s i).home
  | _ => instHome s i

/-- What a swap's header address holds, as order 3 of R589 reads it. -/
def readHeader (s : State) (i : Instance) (e : Entry) : State × Except AccErr (List Byte) :=
  match i with
  | .group => (s, readPa s (swapHdr e) 64)
  | .partCfg => (s, readPa s (swapHdr e) 4096)
  | _ => loadVa s (homeCtx s i (swapHome s i e) e) (swapHdr e) 64

/-- Orders 4 and 5 of R589 on the bytes read. -/
def judgeContent (s : State) (i : Instance) (e : Entry) (bs : List Byte) : Verdict :=
  let x := instOf s i
  let num := swapEdition e
  let h := leNat (bs.take 64)
  match i with
  | .kv _ _ => if kvHeaderOk h then .accept { num := num, base := swapHdr e, hdr := h } else .refuse 0x0602
  | .pfx _ _ => if pfxHeaderOk h then .accept { num := num, base := swapHdr e, hdr := h } else .refuse 0x0602
  | .cat _ =>
    let owner := if x.current.isSome then x.part else cmdPart e
    if catHeaderOk h && bits h 191 188 == owner then .accept { num := num, base := swapHdr e, hdr := h }
    else .refuse 0x0608
  | .group =>
    match groupFault s h with
    | some er => .refuse er.cause (some er)
    | none => .accept { num := num, base := swapHdr e, hdr := h }
  | .partCfg =>
    if !cfgContentOk bs (dictVal s 0x3030 0 == 1) then .refuse 0x0153
    else if !frameSumsOk bs then .refuse 0x0208
    else .accept { num := num, base := swapHdr e, copy := bs }

/-- Orders 2 to 5 of R589; a withdrawal makes order 2 alone. -/
def judgeEdition (s : State) (i : Instance) (e : Entry) : State × Verdict :=
  let x := instOf s i
  let stale := match x.current with
    | some c => !newer (swapEdition e) c
    | none => false
  if isWithdrawal i e then
    (s, if x.current.isNone then .refuse 0x0607 else if stale then .refuse 0x0608 else .withdraw)
  else if stale then (s, .refuse (structCause i))
  else
    match readHeader s i e with
    | (s, .error er) => (s, .refuse er.cause (some er))
    | (s, .ok bs) => (s, judgeContent s i e bs)

/-! ### Drains of the partition configuration -/

/-- Whether every number of [a, a+m) lies in [b, b+n). -/
def covers (a m b n : Nat) : Bool := decide (m = 0 ∨ (b ≤ a ∧ a + m ≤ b + n))

/-- Whether every byte of an extent lies in the extents of a record, by 2 MiB pieces. -/
def extentCovered (x : Extent) (ys : List Extent) : Bool :=
  (List.range (x.size / 0x200000)).all fun k =>
    ys.any fun y => decide (y.base ≤ x.base + k * 0x200000 ∧ x.base + (k + 1) * 0x200000 ≤ y.base + y.size)

/-- Whether a new record removes or moves a grant of an old one (R154). -/
def removesGrant (old new : List Byte) : Bool :=
  (recEnabled old && !recEnabled new) ||
  (recEnabled old && (
    (allTiles.any fun t =>
      let a := recGrant old t
      let b := recGrant new t
      (decide (0 < a.cols ∧ 0 < a.rows) && !(covers a.colFirst a.cols b.colFirst b.cols && covers a.rowFirst a.rows b.rowFirst b.rows))
        || !covers a.bankFirst a.bankCount b.bankFirst b.bankCount || !covers a.accFirst a.accCount b.accFirst b.accCount
        || decide (b.s < a.s ∨ b.d < a.d ∨ b.g < a.g)) ||
    ((recExtents old).any fun x => !extentCovered x (recExtents new))))

/-- Partitions whose grants a configuration removes or moves (R154). -/
def drainedParts (old new : List Byte) : List Nat :=
  (List.range 16).filter fun p => removesGrant (partRec old p) (partRec new p)

/-- Partitions whose record a configuration changes in any byte (R486). -/
def changedParts (old new : List Byte) : List Nat :=
  (List.range 16).filter fun p => at8 (partRec old p) 0 256 ≠ at8 (partRec new p) 0 256

/-! ### Applying a swap -/

/-- What a unit does when it applies an edition: the Junction resets its live masks (R395). -/
def applyAtUnit (s : State) (i : Instance) (u : PinUnit) (num : Option Word32) : State :=
  let s := s.modInst i fun x =>
    { x with atUnit := (x.atUnit.filter fun y => y.1 ≠ u) ++ (match num with | some n => [(u, some n)] | none => []) }
  match i, u with
  | .group, .junction w => s.modJn w fun j => { j with lost := [], gone := [], parents := [] }
  | _, _ => s

/-- Make an accepted edition current at the home Stationmaster and send the notices (R37). -/
def applySwap (s : State) (i : Instance) (sw : Swap) : State :=
  let home := swapHome s i sw.entry
  let s := s.modInst i fun x =>
    { x with
      home := home
      part := match i, sw.edition with | .cat _, some e => bits e.hdr 191 188 | _, _ => x.part
      current := sw.edition.map (·.num)
      live := match sw.edition with | some e => x.live ++ [e] | none => x.live }
  let s := applyAtUnit s i (.station home) (sw.edition.map (·.num))
  let rest := (pinUnits s i).filter fun u => u ≠ .station home
  let s := s.modInst i fun x =>
    { x with swaps := match x.swaps with | [] => [] | y :: ys => { y with stage := .applying rest, edition := sw.edition } :: ys }
  retireUnpinned s i

/-- Whether a swap that makes an edition live must be held: four live already (R41), or an index number whose earlier
life still awaits retirement (R370). -/
def mustHold (s : State) (i : Instance) (sw : Swap) : Bool :=
  let x := instOf s i
  sw.edition.isSome && (decide (4 ≤ x.live.length) ||
    (match i with | .cat _ => x.current.isNone && !x.live.isEmpty | _ => false))

/-- Whether a configuration swap must wait for a drain or a reset (R154, R486). -/
def mustDrain (s : State) (i : Instance) (sw : Swap) : Bool :=
  match i, sw.edition with
  | .partCfg, some e =>
    let old := cfgAt s .e0
    !(drainedParts old e.copy).isEmpty || (changedParts old e.copy).any (resettingPart s)
  | _, _ => false

/-- Change the swap at the head of an instance's queue. -/
def setHeadSwap (s : State) (i : Instance) (f : Swap → Swap) : State :=
  s.modInst i fun x => { x with swaps := match x.swaps with | [] => [] | y :: ys => f y :: ys }

/-- Go on with a judged swap: hold it, drain for it, or apply it (R37, R41, R154). -/
def advanceSwap (s : State) (i : Instance) (sw : Swap) : State :=
  if mustHold s i sw then
    let s' := setHeadSwap s i fun _ => { sw with stage := .held }
    if sw.stage = .held then s'
    else raise s' 0x0105 (structCode i * 65536 + (instNums i).2) (blkSch (instHome s i)) (instNums i).1
  else if mustDrain s i sw && sw.stage != .drain then setHeadSwap s i fun _ => { sw with stage := .drain }
  else applySwap s i sw

/-- Judge a swap when its turn comes (R589): order 1 is the command entry. -/
def judge (s : State) (i : Instance) (sw : Swap) : State × Verdict :=
  match commandFault s sw.func sw.ring sw.entry with
  | some c => (s, .refuse c)
  | none => judgeEdition s i sw.entry

/-- Give the swap at the head of an instance's queue its turn, with fuel for refusals that pass the turn on (R37). -/
def serveSwaps : Nat → State → Instance → State
  | 0, s, _ => s
  | n + 1, s, i =>
    match (instOf s i).swaps with
    | [] => s
    | sw :: rest =>
      match sw.stage with
      | .queued =>
        match judge s i sw with
        | (s, .refuse c er) =>
          let s := match er with
            | some er => failAcc s .task (cmdPart sw.entry) er
            | none => s
          let s := s.modInst i fun x => { x with swaps := rest }
          serveSwaps n (answerCommand s ⟨sw.func, sw.ring, sw.sqHead, sw.answer⟩ sw.entry c (wingOf (instHome s i)) .stationmaster (swapHdr sw.entry)) i
        | (s, .accept e) => advanceSwap s i { sw with edition := some e }
        | (s, .withdraw) => advanceSwap s i { sw with edition := none }
      | .held => advanceSwap s i sw
      | _ => s

/-- Retire what may retire, then let a held swap go on (R40, R41). -/
def settleInst (s : State) (i : Instance) : State :=
  let s := retireUnpinned s i
  serveSwaps ((instOf s i).swaps.length + 1) s i

end Sys2Proof.Machine
end

