-- ==== Sys2Proof/Machine/Flags.lean ====
section
/-!
DEFINITION. The arithmetic flags of R54: sticky for the life of a task, gathered by or.
-/

namespace Sys2Proof.Machine

/-- The five arithmetic flags, in the bit order of R54. -/
abbrev AFlags := BitVec 5

/-- No flag. -/
def noFlags : AFlags := 0

/-- SAT: a narrowing conversion clamped (R54 bit 0). -/
def flagSat : AFlags := 1

/-- INF: an infinity was produced from finite operands (R54 bit 1). -/
def flagInf : AFlags := 2

/-- NAN: a NaN was produced from non-NaN operands, or a block scale of 0xFF (R54 bit 2). -/
def flagNan : AFlags := 4

/-- NANZ: a NaN became 0 (R54 bit 3). -/
def flagNanz : AFlags := 8

/-- ISAT: an INT32 accumulation saturated (R54 bit 4). -/
def flagIsat : AFlags := 16

/-- A flag set when a condition holds. -/
def flagIf (c : Bool) (f : AFlags) : AFlags := if c then f else noFlags

end Sys2Proof.Machine
end

