-- ==== Sys2Proof/Machine/Num.lean ====
section
/-!
DEFINITION. Exact values and their one rounding: the formats of R45 to R53, the microscaled blocks of R55 to R57, the
engine step of R58 to R66 and the vector unit of R67. Values are dyadic rationals, infinities and NaN; every
narrowing rounds once, to nearest, ties to even.
-/

namespace Sys2Proof.Machine

/-- A value: NaN, an infinity, or (-1)^neg × m × 2^e; m = 0 is a signed zero. -/
inductive Val where
  | nan
  | inf (neg : Bool)
  | fin (neg : Bool) (m : Nat) (e : Int)
deriving DecidableEq, Repr

/-- Whether a value is NaN. -/
def Val.isNan : Val → Bool
  | .nan => true
  | _ => false

/-- Whether a value is an infinity. -/
def Val.isInf : Val → Bool
  | .inf _ => true
  | _ => false

/-- Whether a value is finite. -/
def Val.isFin : Val → Bool
  | .fin _ _ _ => true
  | _ => false

/-- Whether a value is a zero. -/
def Val.isZero : Val → Bool
  | .fin _ 0 _ => true
  | _ => false

/-- Sign change. -/
def Val.negate : Val → Val
  | .nan => .nan
  | .inf n => .inf (!n)
  | .fin n m e => .fin (!n) m e

/-- Magnitude. -/
def Val.mag : Val → Val
  | .nan => .nan
  | .inf _ => .inf false
  | .fin _ m e => .fin false m e

/-- Exact product (R64): infinity times zero is NaN. -/
def Val.mul : Val → Val → Val
  | .nan, _ => .nan
  | _, .nan => .nan
  | .inf a, .inf b => .inf (a != b)
  | .inf a, .fin b m _ => if m = 0 then .nan else .inf (a != b)
  | .fin a m _, .inf b => if m = 0 then .nan else .inf (a != b)
  | .fin a m e, .fin b k f => .fin (a != b) (m * k) (e + f)

/-- Multiplication by a power of two, exact. -/
def Val.scale (v : Val) (k : Int) : Val :=
  match v with
  | .fin n m e => .fin n m (e + k)
  | v => v

/-- An integer as a value; zero is +0. -/
def Val.ofInt (i : Int) : Val := .fin (decide (i < 0)) i.natAbs 0

/-- The signed mantissa of a finite value brought to a lower exponent. -/
def alignTo (e : Int) : Val → Int
  | .fin n m f => let k : Int := (m * 2 ^ (f - e).toNat : Nat); if n then -k else k
  | _ => 0

/-- The lowest exponent among finite values. -/
def minExp : List Val → Int → Int
  | [], e => e
  | .fin _ m f :: l, e => minExp l (if m ≠ 0 ∧ f < e then f else e)
  | _ :: l, e => minExp l e

/-- A signed number of 2^e units as a value; zero takes the sign given. -/
def ofUnits (negZero : Bool) (i e : Int) : Val :=
  if i = 0 then .fin negZero 0 0 else .fin (decide (i < 0)) i.natAbs e

/-- The exact sum of several terms (R64): a NaN term or both infinities give NaN; an exact zero is +0 unless every
term is −0. -/
def Val.sum (ts : List Val) : Val :=
  if ts.any Val.isNan then .nan
  else if ts.any (· = .inf false) then (if ts.any (· = .inf true) then .nan else .inf false)
  else if ts.any (· = .inf true) then .inf true
  else
    let e := minExp ts 4096
    let allNegZero := ts.all fun t => match t with
      | .fin true 0 _ => true
      | _ => false
    ofUnits allNegZero (ts.foldl (fun a t => a + (if t.isZero then 0 else alignTo e t)) 0) e

/-- Exact sum of two terms. -/
def Val.add (a b : Val) : Val := Val.sum [a, b]

/-- Exact comparison of magnitudes m × 2^e ≥ k × 2^f. -/
def magGe (m : Nat) (e : Int) (k : Nat) (f : Int) : Bool :=
  if f ≤ e then decide (k ≤ m * 2 ^ (e - f).toNat) else decide (k * 2 ^ (f - e).toNat ≤ m)

/-- Exact order of two values that are not NaN: a < b. The zeros are equal. -/
def Val.lt : Val → Val → Bool
  | .nan, _ => false
  | _, .nan => false
  | .inf a, .inf b => a && !b
  | .inf a, .fin _ _ _ => a
  | .fin _ _ _, .inf b => !b
  | .fin a m e, .fin b k f =>
    let l := min e f
    decide (alignTo l (.fin a m e) < alignTo l (.fin b k f))

/-- m × 2^e as a multiple of 2^q, to nearest, ties to even. -/
def rneUnits (m : Nat) (e q : Int) : Nat :=
  if q ≤ e then m * 2 ^ (e - q).toNat
  else
    let sh := (q - e).toNat
    let n := m / 2 ^ sh
    let r := m % 2 ^ sh
    let half := 2 ^ (sh - 1)
    if half < r ∨ (r = half ∧ n % 2 = 1) then n + 1 else n

/-! ### Formats -/

/-- Element formats (R45), without the scale of the MX forms. -/
inductive Elem where
  | fp32 | bf16 | fp16 | e4m3 | e5m2 | e3m2 | e2m3 | e2m1 | int8 | int4 | int32
deriving DecidableEq, Repr

/-- A format code of R45 as element format and MX mark. -/
def elemOf (code : Nat) : Elem × Bool :=
  match code with
  | 0x0 => (.fp32, false)
  | 0x1 => (.bf16, false)
  | 0x2 => (.fp16, false)
  | 0x3 => (.e4m3, false)
  | 0x4 => (.e5m2, false)
  | 0x5 => (.int8, false)
  | 0x6 => (.e4m3, true)
  | 0x7 => (.e5m2, true)
  | 0x8 => (.e3m2, false)
  | 0x9 => (.e2m3, false)
  | 0xA => (.e3m2, true)
  | 0xB => (.e2m3, true)
  | 0xC => (.e2m1, false)
  | 0xD => (.e2m1, true)
  | 0xE => (.int4, false)
  | _ => (.int32, false)

/-- Width of an element in bits (R45). -/
def Elem.width : Elem → Nat
  | .fp32 => 32
  | .bf16 => 16
  | .fp16 => 16
  | .e4m3 => 8
  | .e5m2 => 8
  | .e3m2 => 6
  | .e2m3 => 6
  | .e2m1 => 4
  | .int8 => 8
  | .int4 => 4
  | .int32 => 32

/-- Depth classes of R45 and R58. -/
inductive DepthClass where
  | sixteen | eight | four
deriving DecidableEq, Repr

/-- Depth class of a format code; none for FP32 and INT32, which feed no engine (R45). -/
def depthOf (code : Nat) : Option DepthClass :=
  if code = 0x1 ∨ code = 0x2 then some .sixteen
  else if 0x3 ≤ code ∧ code ≤ 0xB then some .eight
  else if 0xC ≤ code ∧ code ≤ 0xE then some .four
  else none

/-- Depth k of an engine step (R58). -/
def DepthClass.k : DepthClass → Nat
  | .sixteen => 4
  | .eight => 8
  | .four => 16

/-- Whether a format is one of the plain integer formats. -/
def isIntCode (code : Nat) : Bool := code == 0x5 || code == 0xE || code == 0xF

/-- Shape of a floating format (R48): mantissa bits, bias, exponent field of the largest finite binade, overflow
point as mantissa and exponent (R53), codes of infinity and NaN where the format has them, and the largest finite
code. -/
structure FpShape where
  width : Nat
  mbits : Nat
  bias : Int
  overM : Nat
  overE : Int
  infCode : Option Nat
  nanCode : Option Nat
  maxCode : Nat
deriving DecidableEq, Repr

/-- The shape of a floating element format (R48, R51, R53); none for the integer formats. -/
def Elem.shape : Elem → Option FpShape
  | .fp32 => some ⟨32, 23, 127, 2 ^ 25 - 1, 103, some 0x7F800000, some 0x7FC00000, 0x7F7FFFFF⟩
  | .bf16 => some ⟨16, 7, 127, 2 ^ 9 - 1, 119, some 0x7F80, some 0x7FC0, 0x7F7F⟩
  | .fp16 => some ⟨16, 10, 15, 4095, 4, some 0x7C00, some 0x7E00, 0x7BFF⟩
  | .e4m3 => some ⟨8, 3, 7, 29, 4, none, some 0x7F, 0x7E⟩
  | .e5m2 => some ⟨8, 2, 15, 15, 12, some 0x7C, some 0x7E, 0x7B⟩
  | .e3m2 => some ⟨6, 2, 3, 15, 1, none, none, 0x1F⟩
  | .e2m3 => some ⟨6, 3, 1, 31, -2, none, none, 0x1F⟩
  | .e2m1 => some ⟨4, 1, 1, 7, 0, none, none, 0x7⟩
  | _ => none

/-- Whether a code of a floating format is a NaN, and whether it is an infinity (R48). -/
def FpShape.special (f : FpShape) (x : Nat) : Option Val :=
  let low := x % 2 ^ (f.width - 1)
  match f.infCode with
  | some i => if low = i then some (.inf (bit x (f.width - 1))) else if i < low then some .nan else none
  | none => match f.nanCode with
    | some n => if low = n then some .nan else none
    | none => none

/-- The value of a floating code (R48): an exponent field of 0 encodes zero and the subnormals. -/
def FpShape.decode (f : FpShape) (x : Nat) : Val :=
  match f.special x with
  | some v => v
  | none =>
    let neg := bit x (f.width - 1)
    let low := x % 2 ^ (f.width - 1)
    let ex := low / 2 ^ f.mbits
    let ma := low % 2 ^ f.mbits
    if ex = 0 then .fin neg ma (1 - f.bias - f.mbits)
    else .fin neg (2 ^ f.mbits + ma) ((ex : Int) - f.bias - f.mbits)

/-- The value of an element code (R48, R49). -/
def Elem.decode (el : Elem) (x : Nat) : Val :=
  match el.shape with
  | some f => f.decode (x % 2 ^ f.width)
  | none => Val.ofInt (signed el.width (x % 2 ^ el.width))

/-- Code and flags of a finite magnitude below the overflow point (R52). -/
def FpShape.encodeMag (f : FpShape) (m : Nat) (e : Int) : Nat :=
  let emin : Int := 1 - f.bias
  let top : Int := (flog2 m : Int) + e
  let q : Int := (if emin ≤ top then top else emin) - f.mbits
  let n := rneUnits m e q
  (q + f.mbits + f.bias - 1).toNat * 2 ^ f.mbits + n

/-- Narrow a value to a floating format (R52, R53); `sat` is the task's saturating overflow mode, which bears on
FP8 E5M2 only. -/
def FpShape.encode (f : FpShape) (sat : Bool) (v : Val) : Nat × AFlags :=
  let sgn (n : Bool) (x : Nat) : Nat := b2n n * 2 ^ (f.width - 1) + x
  let ovf (n fromFin : Bool) : Nat × AFlags :=
    match f.infCode with
    | some i => if sat && f.width == 8 then (sgn n f.maxCode, flagSat) else (sgn n i, flagIf fromFin flagInf)
    | none => (sgn n f.maxCode, flagSat)
  match v with
  | .nan => match f.nanCode with
    | some c => (c, noFlags)
    | none => (0, flagNanz)
  | .inf n => ovf n false
  | .fin n m e =>
    if m = 0 then (sgn n 0, noFlags)
    else if magGe m e f.overM f.overE then ovf n true
    else (sgn n (f.encodeMag m e), noFlags)

/-- Narrow a value to an integer format (R52, R53). -/
def encodeInt (w : Nat) (v : Val) : Nat × AFlags :=
  let lo : Int := -((2 ^ (w - 1) : Nat) : Int)
  let hi : Int := ((2 ^ (w - 1) : Nat) : Int) - 1
  match v with
  | .nan => (0, flagNanz)
  | .inf n => (wrap w (if n then lo else hi), flagSat)
  | .fin n m e =>
    let k : Int := rneUnits m e 0
    let i := if n then -k else k
    if i < lo then (wrap w lo, flagSat) else if hi < i then (wrap w hi, flagSat) else (wrap w i, noFlags)

/-- Narrow a value to an element format (R52). -/
def Elem.encode (el : Elem) (sat : Bool) (v : Val) : Nat × AFlags :=
  match el.shape with
  | some f => f.encode sat v
  | none => encodeInt el.width v

/-! ### Microscaled blocks -/

/-- The factor of an E8M0 scale (R49, R55): 0xFF marks every element NaN. -/
def scaled (x : Nat) (v : Val) : Val := if x = 0xFF then .nan else v.scale ((x : Int) - 127)

/-- Largest unbiased element exponent (R57). -/
def Elem.emax : Elem → Int
  | .e4m3 => 8
  | .e5m2 => 15
  | .e3m2 => 4
  | _ => 2

/-- floor(log2 |v|) of a finite nonzero value. -/
def Val.expo : Val → Int
  | .fin _ m e => (flog2 m : Int) + e
  | _ => 0

/-- The greatest exponent among the nonzero values of a block; none when all are zero. -/
def blockExpo : List Val → Option Int
  | [] => none
  | v :: l =>
    let r := blockExpo l
    if v.isZero then r
    else match r with
      | none => some v.expo
      | some k => some (if k < v.expo then v.expo else k)

/-- Write one MX block: its scale, its element codes and the flags (R57). An element at or beyond the overflow point
clamps in every MX format, MXFP8 E5M2 too (DEDUCED, assumption log 6). -/
def encodeBlock (el : Elem) (vs : List Val) : Nat × List Nat × AFlags :=
  if vs.any fun v => !v.isFin then (0xFF, vs.map fun _ => 0, flagNan)
  else
    let x : Int := match blockExpo vs with
      | none => 127
      | some k => max 0 (min 254 (k - el.emax + 127))
    let cs := vs.map fun v => el.encode true (v.scale (127 - x))
    (x.toNat, cs.map (·.1), cs.foldl (fun a c => a ||| c.2) noFlags)

/-! ### FP32 -/

/-- The value of an FP32 word. -/
def f32 (w : Word32) : Val := Elem.fp32.decode w.toNat

/-- Round a value to FP32 without flags (round_fp32_rne). -/
def toF32 (v : Val) : Word32 := BitVec.ofNat 32 (Elem.fp32.encode false v).1

/-- An FP32 result with the flags its production sets (R54): NAN from non-NaN operands, INF from finite ones. -/
def f32Result (operands : List Val) (exact : Val) : Word32 × AFlags :=
  let r := toF32 exact
  (r, flagIf ((f32 r).isNan && !operands.any Val.isNan) flagNan
      ||| flagIf ((f32 r).isInf && operands.all Val.isFin) flagInf)

/-- A value as the vector unit widens it to FP32: exact for every value FP32 holds. The widening of R170 is stated for
no other value: an INT32 element, which R49 keeps out of inputs, is rounded, and an MX element beyond the FP32 range
becomes an infinity, which R54 counts as produced (DESIGN CHOICE, assumption log 124). -/
def widenF32 (v : Val) : Word32 × AFlags := f32Result [v] v

/-- FP32 addition, one rounding (R67). -/
def f32Add (a b : Word32) : Word32 × AFlags := f32Result [f32 a, f32 b] ((f32 a).add (f32 b))

/-- FP32 subtraction. -/
def f32Sub (a b : Word32) : Word32 × AFlags := f32Result [f32 a, f32 b] ((f32 a).add (f32 b).negate)

/-- FP32 multiplication. -/
def f32Mul (a b : Word32) : Word32 × AFlags := f32Result [f32 a, f32 b] ((f32 a).mul (f32 b))

/-- FP32 fused multiply-add a × b + c. -/
def f32Fma (a b c : Word32) : Word32 × AFlags :=
  f32Result [f32 a, f32 b, f32 c] (((f32 a).mul (f32 b)).add (f32 c))

/-- One level of the lane-wise reduction: adjacent results are added, each addition rounding once (R67). -/
def laneLevel : List (Word32 × AFlags) → List (Word32 × AFlags)
  | a :: b :: l => let r := f32Add a.1 b.1; (r.1, r.2 ||| a.2 ||| b.2) :: laneLevel l
  | l => l

/-- The vector unit's reduction over 64 lanes: a fixed pairwise tree of six levels (R67). -/
def laneReduce (xs : List Word32) : Word32 × AFlags :=
  ((List.range 6).foldl (fun l _ => laneLevel l) (xs.map fun x => (x, noFlags))).headD (0, noFlags)

/-- FP32 maximum: NaN when either input is NaN (R67); of two zeros the positive one. -/
def f32Max (a b : Word32) : Word32 :=
  if (f32 a).isNan || (f32 b).isNan then 0x7FC00000
  else if (f32 a).lt (f32 b) then b
  else if (f32 b).lt (f32 a) then a
  else a &&& b

/-- FP32 minimum: NaN when either input is NaN (R67); of two zeros the negative one. -/
def f32Min (a b : Word32) : Word32 :=
  if (f32 a).isNan || (f32 b).isNan then 0x7FC00000
  else if (f32 a).lt (f32 b) then a
  else if (f32 b).lt (f32 a) then b
  else a ||| b

/-! ### The engine step -/

/-- One FP32 engine step of one output element (R64): the products are exact and the sum is rounded once. -/
def engineStep (c : Word32) (terms : List (Val × Val)) : Word32 × AFlags :=
  f32Result (f32 c :: terms.foldl (fun l p => p.1 :: p.2 :: l) [])
    (Val.sum (f32 c :: terms.map fun p => p.1.mul p.2))

/-- One INT32 engine step of one output element (R65). -/
def engineStepInt (c : Word32) (terms : List (Int × Int)) : Word32 × AFlags :=
  let s := terms.foldl (fun a p => a + p.1 * p.2) c.toInt
  if s < -2147483648 then (0x80000000, flagIsat)
  else if 2147483647 < s then (0x7FFFFFFF, flagIsat)
  else (BitVec.ofInt 32 s, noFlags)

end Sys2Proof.Machine
end

