-- ==== Sys2Proof/Machine/Operands.lean ====
section
/-!
DEFINITION. Operands in memory: packed elements of every format (R46), the scale arrays of microscaled operands (R47,
R55), and the packing of results with one rounding per element or one scale per block (R52, R57).
-/

namespace Sys2Proof.Machine

/-- First byte and byte count that n elements of width w from element e occupy (R46). -/
def elemSpan (w e n : Nat) : Nat × Nat := (e * w / 8, (e * w % 8 + n * w + 7) / 8)

/-- Split a number into n fields of w bits, lowest first. -/
def splitBits (w : Nat) : Nat → Nat → List Nat
  | 0, _ => []
  | n + 1, x => x % 2 ^ w :: splitBits w n (x / 2 ^ w)

/-- Join fields of w bits, lowest first. -/
def joinBits (w : Nat) : List Nat → Nat
  | [] => 0
  | x :: xs => x % 2 ^ w + 2 ^ w * joinBits w xs

/-- Read the codes of n consecutive elements of width w from element e (R46). -/
def readCodes (s : State) (c : Ctx) (base w e n : Nat) : Except AccErr (List Nat) :=
  let sp := elemSpan w e n
  match readVa s c (base + sp.1) sp.2 with
  | .error x => .error x
  | .ok bs => .ok (splitBits w n (leNat bs / 2 ^ (e * w % 8)))

/-- The bytes of n codes of width w that fill whole bytes (R46). -/
def packCodes (w : Nat) (cs : List Nat) : List Byte := leBytes (cs.length * w / 8) (joinBits w cs)

/-- Scale of element e of an operand: 127 where the format has none (R47, R55). -/
def readScale (s : State) (c : Ctx) (mx : Bool) (scaleVa e : Nat) : Except AccErr Nat :=
  if mx then readNum s c (scaleVa + e / 32) 1 else .ok 127

/-- The values of n consecutive elements from element e, each under the scale of its block (R48, R55). -/
def readElems (s : State) (c : Ctx) (fmt base scaleVa e : Nat) : Nat → Except AccErr (List Val)
  | 0 => .ok []
  | n + 1 =>
    let (el, mx) := elemOf fmt
    match readCodes s c base el.width e (n + 1) with
    | .error x => .error x
    | .ok cs =>
      if mx then
        match readVa s c (scaleVa + e / 32) ((e + n) / 32 - e / 32 + 1) with
        | .error x => .error x
        | .ok xs => .ok ((cs.zip (List.range (n + 1))).map fun p =>
            scaled ((xs.getD ((e + p.2) / 32 - e / 32) 0).toNat) (el.decode p.1))
      else .ok (cs.map el.decode)

/-- Run a fallible reading over a list, in order; the first error ends it. -/
def mapErr {α β : Type} (f : α → Except AccErr β) : List α → Except AccErr (List β)
  | [] => .ok []
  | a :: as =>
    match f a with
    | .error e => .error e
    | .ok b =>
      match mapErr f as with
      | .error e => .error e
      | .ok bs => .ok (b :: bs)

/-- A block of n1 × n2 elements at e0 + i × s1 + j × s2, row by row. -/
def readBlock (s : State) (c : Ctx) (fmt base scaleVa e0 s1 n1 s2 n2 : Nat) : Except AccErr (List (List Val)) :=
  mapErr (fun i =>
    if s2 = 1 then readElems s c fmt base scaleVa (e0 + i * s1) n2
    else (mapErr (fun j => readElems s c fmt base scaleVa (e0 + i * s1 + j * s2) 1) (List.range n2)).map List.flatten)
    (List.range n1)

/-- FP32 words of n consecutive positions. -/
def readWords (s : State) (c : Ctx) (va n : Nat) : Except AccErr (List Word32) :=
  (readVa s c va (4 * n)).map fun bs => (splitBits 32 n (leNat bs)).map (BitVec.ofNat 32)

/-- Bytes of FP32 or INT32 words. -/
def wordBytes (ws : List Word32) : List Byte := ws.foldr (fun w l => leBytes 4 w.toNat ++ l) []

/-- Cut a list into blocks of n, with fuel. -/
def chunks {α : Type} (n : Nat) : Nat → List α → List (List α)
  | 0, _ => []
  | f + 1, l => if l.isEmpty then [] else l.take n :: chunks n f (l.drop n)

/-- What a narrowing of a row gives: codes, scales, flags. -/
structure Narrowed where
  codes : List Nat
  scales : List Nat
  flags : AFlags
deriving DecidableEq, Repr

/-- Narrow a row of values to a format, blocks of 32 along the row for the microscaled ones (R52, R57). -/
def narrowRow (fmt : Nat) (sat : Bool) (vs : List Val) : Narrowed :=
  let (el, mx) := elemOf fmt
  if mx then
    (chunks 32 vs.length vs).foldl (fun a b =>
      let (x, cs, fl) := encodeBlock el b
      ⟨a.codes ++ cs, a.scales ++ [x], a.flags ||| fl⟩) ⟨[], [], noFlags⟩
  else
    let rs := vs.map (el.encode sat)
    ⟨rs.map (·.1), [], rs.foldl (fun a r => a ||| r.2) noFlags⟩

/-- The runs that store a narrowed row at element e (R46, R47). -/
def storeRuns (fmt base scaleVa e : Nat) (r : Narrowed) : List (Nat × List Byte) :=
  let w := (elemOf fmt).1.width
  (base + e * w / 8, packCodes w r.codes) ::
    (if (elemOf fmt).2 then [(scaleVa + e / 32, r.scales.map (BitVec.ofNat 8))] else [])

/-- Store runs in order, with what each write does below it; the first error ends the store. -/
def writeRuns (s : State) (c : Ctx) : List (Nat × List Byte) → State × Option AccErr
  | [] => (s, none)
  | r :: rs =>
    match saveVa s c r.1 r.2 with
    | (s, some e) => (s, some e)
    | (s, none) => writeRuns s c rs

/-- FP32 words of n consecutive positions, with what the read does below it. -/
def loadWords (s : State) (c : Ctx) (va n : Nat) : State × Except AccErr (List Word32) :=
  andThen (loadVa s c va (4 * n)) fun s bs => (s, .ok ((splitBits 32 n (leNat bs)).map (BitVec.ofNat 32)))

/-- Gather flags of a list. -/
def orFlags (l : List AFlags) : AFlags := l.foldl (fun a b => a ||| b) noFlags

end Sys2Proof.Machine
end

