-- ==== Sys2Proof/Machine/Scoreboard.lean ====
section
/-!
DEFINITION. The scoreboards of the cores (R79, R81, R86, R122) and the layout of a core window (R71, R72, R87, R89):
outstanding transfers, whose bytes land when they complete, the accumulator regions an engine run holds, the scale
buffer and the pass-through buffer (R73, R74).
-/

namespace Sys2Proof.Machine

/-! ### The core window -/

/-- Tile of a core index (R25). -/
def coreTile (i : Nat) : Tile := tileOf (i / 336)

/-- Window offset of the accumulator memory (R71). -/
def accBase : Nat := 0x280000

/-- Banks that a range of window offsets meets (R72). -/
def banksIn (off n : Nat) : List Nat :=
  if n = 0 ∨ accBase ≤ off then [] else (List.range ((off + n - 1) / 0x10000 + 1 - off / 0x10000)).map (off / 0x10000 + ·)

/-- Accumulator regions that a range of window offsets meets (R89). -/
def regionsIn (off n : Nat) : List Nat :=
  if n = 0 ∨ off < accBase then []
  else (List.range ((off - accBase + n - 1) / 0x4000 + 1 - (off - accBase) / 0x4000)).map ((off - accBase) / 0x4000 + ·)

/-- Window offset of word (i, j) of accumulator block k: quadrant by quadrant (R87). -/
def accWordAt (k i j : Nat) : Nat := accBase + 256 * k + 64 * (2 * (i / 4) + j / 4) + 4 * (4 * (i % 4) + j % 4)

/-- Bytes of a core's window. -/
def windowBytes (s : State) (i off n : Nat) : List Byte := memBytes s.mem (windowBase i + off) n

/-- Whether n bytes at an offset lie in the window of one of the 1,344 cores (R96). -/
def inCoreBytes (i off n : Nat) : Bool := decide (i < 1344 ∧ off + n ≤ 0x2C0000)

/-- Write bytes of a core's window. -/
def writeWindow (s : State) (i off : Nat) (bs : List Byte) : State :=
  if inCoreBytes i off bs.length then writePa s (windowBase i + off) bs else s

/-- Write zeros to bytes of a core's window. -/
def zeroWindow (s : State) (i off n : Nat) : State := if inCoreBytes i off n then zeroPa s (windowBase i + off) n else s

/-- The 64 words of an accumulator block, row by row (R87). -/
def readAccBlock (s : State) (i k : Nat) : List Word32 :=
  let bs := windowBytes s i (accBase + 256 * k) 256
  (List.range 64).map fun e => BitVec.ofNat 32 (at8 bs (accWordAt k (e / 8) (e % 8) - (accBase + 256 * k)) 4)

/-- Write the 64 words of an accumulator block, given row by row (R87). -/
def writeAccBlock (s : State) (i k : Nat) (ws : List Word32) : State :=
  writeWindow s i (accBase + 256 * k) ((List.range 64).foldr (fun q l =>
    leBytes 4 (nth 0 ws (8 * (4 * (q / 32) + q % 16 / 4) + 4 * (q / 16 % 2) + q % 4)).toNat ++ l) [])

/-! ### Outstanding transfers -/

/-- A transfer completes: the bytes it brings into the core land (R79, R86). -/
def landTransfer (s : State) (x : CoreTransfer) : State :=
  x.data.foldl (fun s d => writeWindow s x.core d.1 d.2) s

/-- The transfers of a tile that satisfy a test complete, oldest first. -/
def closeTransfers (s : State) (t : Tile) (p : CoreTransfer → Bool) : State :=
  let l := (s.sch.get t).transfers
  ((l.filter p).foldl landTransfer s).modSch t fun x => { x with transfers := l.filter fun y => !p y }

/-- The oldest transfer of a tile that satisfies a test completes. -/
def closeFirst (s : State) (t : Tile) (p : CoreTransfer → Bool) : State :=
  match (s.sch.get t).transfers.find? p with
  | none => s
  | some x => (landTransfer s x).modSch t fun y => { y with transfers := y.transfers.erase x }

/-- A transfer is issued: a 65th of its core, and a 2,049th of its tile, waits until an entry is free (R79, R122). -/
def openTransfer (s : State) (x : CoreTransfer) : State :=
  let t := coreTile x.core
  let mine (y : CoreTransfer) : Bool := y.core == x.core
  let s := if 64 ≤ ((s.sch.get t).transfers.filter mine).length then closeFirst s t mine else s
  let s := if 2048 ≤ (s.sch.get t).transfers.length then closeFirst s t (fun _ => true) else s
  s.modSch t fun y => { y with transfers := y.transfers ++ [x] }

/-- Every outstanding transfer of a core completes. -/
def closeCore (s : State) (i : Nat) : State := closeTransfers s (coreTile i) fun y => y.core == i

/-- Every outstanding transfer of a task completes. -/
def closeTask (s : State) (id : Nat) : State := allTiles.foldl (fun s t => closeTransfers s t fun y => y.task == id) s

/-- Whether a transfer names a bank of a list. -/
def CoreTransfer.names (x : CoreTransfer) (banks : List Nat) : Bool :=
  x.ranges.any fun r => (banksIn r.1 r.2).any banks.contains

/-- An engine read of banks waits for the transfers into them, those issued during the banks' own engine phase apart
(R79). -/
def awaitBanks (s : State) (i : Nat) (banks : List Nat) : State :=
  closeTransfers s (coreTile i) fun y => y.core == i && y.write && !y.late && y.names banks

/-- A bank is handed to its new class once no access of its old one is outstanding (R76). -/
def handOver (s : State) (i : Nat) (banks : List Nat) : State :=
  closeTransfers s (coreTile i) fun y => y.core == i && y.names banks

/-! ### Accumulator regions, scale buffer and pass-through buffer -/

/-- The regions that the engine runs of a core hold (R89). -/
def holdRegions (s : State) (i : Nat) (rs : List Nat) : State :=
  s.modSch (coreTile i) fun x => { x with busy := if rs.isEmpty then Table.erase x.busy (i % 336) else Table.insert x.busy (i % 336) rs }

/-- Whether a vector or network access to a range of accumulator memory must wait: an engine run holds its region, or a
transfer that writes it is outstanding (R89). -/
def regionBusy (s : State) (i off n : Nat) : Bool :=
  let rs := regionsIn off n
  rs.any ((Table.find (s.sch.get (coreTile i)).busy (i % 336)).getD []).contains
    || (s.sch.get (coreTile i)).transfers.any fun y =>
      y.core == i && y.write && y.ranges.any fun r => (regionsIn r.1 r.2).any rs.contains

/-- The scale lane reads the row of scales at a window offset into the scale buffer (R73). -/
def readScaleRow (s : State) (i off : Nat) : State :=
  s.modSch (coreTile i) fun x => { x with scales := Table.insert x.scales (i % 336) (windowBytes s i (off / 64 * 64) 64) }

/-- Bytes pass through the DMA port's own buffer, outside every bank (R74): it keeps the last 4 KiB. -/
def passThrough (s : State) (i : Nat) (bs : List Byte) : State :=
  s.modSch (coreTile i) fun x => { x with through := Table.insert x.through (i % 336) (bs.drop (bs.length - 4096)) }

end Sys2Proof.Machine
end

