-- ==== Sys2Proof/Machine/Tasks.lean ====
section
/-!
DEFINITION. Tasks as every kind shares them: the header (R131 to R133), cores and placement (R25, R134, R135), faults
and the end of a task (R138, R142), the completion record (R143, R144), virtual time (R156) and rank (R155).
-/

namespace Sys2Proof.Machine

/-! ### The header -/

def hSub (e : Entry) : Nat := ent e 39 36
def hPrio (e : Entry) : Nat := ent e 42 40
def hFence (e : Entry) : Bool := bit e.toNat 43
def hPlace (e : Entry) : Nat := ent e 47 46
def hCoreBase (e : Entry) : Nat := ent e 63 48
def hDeadline (e : Entry) : Nat := ent e 95 64
def hAccCount (e : Entry) : Nat := ent e 101 97
def hAccFirst (e : Entry) : Nat := ent e 105 102
def hBankCount (e : Entry) : Nat := ent e 111 106
def hBankFirst (e : Entry) : Nat := ent e 117 112
def hCols (e : Entry) : Nat := ent e 122 118
def hRows (e : Entry) : Nat := ent e 127 123
def hBody (e : Entry) : Nat := ent e 175 128
def hPlan (e : Entry) : Nat := ent e 239 192
def hRecord (e : Entry) : Nat := ent e 303 256

/-- First column and first logical row of the rectangle (R24, R134). -/
def hCol (e : Entry) : Nat := ent e 51 48
def hLrow (e : Entry) : Nat := ent e 56 52

/-- Move arguments (R133). -/
def mSrc (e : Entry) : Nat := ent e 367 320
def mDst (e : Entry) : Nat := ent e 415 368
def mCount (e : Entry) : Nat := ent e 447 416
def mLayer (e : Entry) : Nat := ent e 479 448
def mSeg (e : Entry) : Nat := ent e 491 480
def mPages (e : Entry) : Nat := ent e 503 492
def mHostSrc (e : Entry) : Bool := bit e.toNat 504

/-! ### Cores -/

/-- Positions n = 16 × LROW + COL of the rectangle, ascending (R29, R134). -/
def rectPositions (e : Entry) : List Nat :=
  (List.range (hRows e)).foldl (fun l r => l ++ (List.range (hCols e)).map fun c => 16 * (hLrow e + r) + hCol e + c) []

/-- Core index of a position on a tile (R25). -/
def coreIndex (t : Tile) (n : Nat) : Nat := 336 * tileIdx t + n

/-- STATE of a position (R29). -/
def coreStateOf (s : State) (t : Tile) (n : Nat) : Nat := (Table.get 0 (s.sch.get t).coreState n).toNat

/-- Whether the rectangle holds a retired position of a tile (R23, R134). -/
def rectRetired (s : State) (t : Tile) (e : Entry) : Bool :=
  (rectPositions e).any fun n => coreStateOf s t n == 2

/-- Tiles that PLACE could choose, the home tile first (R134). -/
def placeTiles (e : Entry) (home : Tile) : List Tile := if hPlace e = 0 then [home] else [home, sibling home]

/-- Whether a task has been dispatched. -/
def Task.dispatched (t : Task) : Bool := !t.tiles.isEmpty

/-- Whether some task holds a core (R141). -/
def coreHeld (s : State) (i : Nat) : Bool := s.tasks.any fun t => t.cores.contains i

/-- Tasks a Stationmaster holds, shares of the sibling's counted (R139). -/
def heldCount (s : State) (t : Tile) : Nat :=
  (s.tasks.filter fun x => x.home == t || x.tiles.contains t).length

/-- A task by number. -/
def taskOf (s : State) (id : Nat) : Option Task := s.tasks.find? fun t => t.id == id

/-- Change a task. -/
def State.modTask (s : State) (id : Nat) (f : Task → Task) : State :=
  { s with tasks := s.tasks.map fun t => if t.id == id then f t else t }

/-- Edition number a task has pinned of an instance. -/
def Task.pinned (t : Task) (i : Instance) : Option Pin := t.pins.find? fun p => p.inst = i

/-- The partition configuration a task pinned (R140). -/
def taskCfg (s : State) (t : Task) : List Byte := cfgCopy s (((t.pinned .partCfg).map (·.num)).getD 0)

/-- Context in which a task's home tile accesses memory. -/
def taskCtx (s : State) (t : Task) : Ctx := { part := t.part, tile := t.home, copy := taskCfg s t }

/-- The partition's record a task pinned. -/
def taskRec (s : State) (t : Task) : List Byte := partRec (taskCfg s t) t.part

/-- Wing of a task. -/
def Task.wing (t : Task) : Wing := wingOf t.home

/-- Staging frames a partition's dispatched tasks hold on a tile (R184). -/
def stagingHeld (s : State) (t : Tile) (part : Nat) : Nat :=
  (s.tasks.filter fun x => x.part == part && x.tiles.contains t).foldl (fun a x => a + x.staging) 0

/-! ### Virtual time and rank -/

/-- Virtual time of a partition at a tile. -/
def vtimeOf (s : State) (t : Tile) (p : Nat) : Nat := (Table.get 0 (s.sch.get t).vtime p).toNat

/-- Whether a partition has a ring head waiting or a task running at a tile (R156). -/
def activeAt (s : State) (t : Tile) (p : Nat) : Bool := s.tasks.any fun x => x.home == t && x.part == p

/-- The smallest virtual time among a tile's active partitions that satisfy a test. -/
def minVtime (s : State) (t : Tile) (ok : Nat → Bool) : Option Nat :=
  ((List.range 16).filter fun p => activeAt s t p && ok p).foldl (fun m p =>
    match m with
    | none => some (vtimeOf s t p)
    | some v => some (min v (vtimeOf s t p))) none

/-- A ring head of partition p comes to wait: an idle partition's virtual time is raised (R156). -/
def liftVtime (s : State) (t : Tile) (p : Nat) : State :=
  if activeAt s t p then s
  else match minVtime s t (fun q => q != p) with
    | none => s
    | some v =>
      if vtimeOf s t p < v then s.modSch t fun x => { x with vtime := Table.set 0 x.vtime p (BitVec.ofNat 64 v) } else s

/-- Once the smallest active virtual time exceeds 2^62, it is subtracted from every partition's (R156). -/
def rebaseVtime (s : State) (t : Tile) : State :=
  match minVtime s t (fun _ => true) with
  | none => s
  | some m =>
    if 2 ^ 62 < m then
      s.modSch t fun x =>
        { x with vtime := (List.range 16).foldl (fun tb q =>
            Table.set 0 tb q (BitVec.ofNat 64 ((Table.get 0 x.vtime q).toNat - m))) [] }
    else s

/-- Charge an ended task's partition (R156). -/
def chargeVtime (s : State) (t : Tile) (p ticks : Nat) : State :=
  let v := vtimeOf s t p + ticks * (65536 / max 1 (partVal s 0x8010 p))
  rebaseVtime (s.modSch t fun x => { x with vtime := Table.set 0 x.vtime p (BitVec.ofNat 64 v) }) t

/-- Lexicographic order of equally long number lists. -/
def lexLt : List Nat → List Nat → Bool
  | [], _ => false
  | _ :: _, [] => false
  | a :: as, b :: bs => decide (a < b) || (a == b && lexLt as bs)

/-- Keys of R155, smaller ranking higher. -/
def rankKey (s : State) (t : Task) : List Nat :=
  let r := taskRec s t
  [b2n (!recRt r), vtimeOf s t.home t.part, 7 - min (hPrio t.hdr) (recPrioMax r), t.part, t.ring]

/-! ### The end of a task -/

/-- Sum over the task's cores of ticks held (R143). -/
def coreTicks (s : State) (t : Task) : Nat :=
  if t.dispatched then
    min (2 ^ 32 - 1) (((tickOf s t.wing).toNat - t.dispatchTick.toNat) * t.cores.length)
  else 0

/-- The completion record (R143). -/
def recordImage (s : State) (t : Task) (cause : Nat) : List Byte :=
  leBytes 32 (packN 256 [((tickOf s t.wing).toNat, 192), (t.issueTick.toNat, 128), (coreTicks s t, 96),
    (entryTag t.hdr, 64), (cause % 2 ^ 16, 32), (b2n (cause == 0), 30), (b2n t.zeroWork, 29), (b2n t.planv, 28),
    (t.flags.toNat, 0)]).toNat

/-- Cause-log entry of a task (R560). -/
def logTask (s : State) (t : Task) (cause : Nat) (unit : LogUnit := .stationmaster) (addr : Nat := 0)
    (detail : Nat := 0) : State :=
  logCause s { wing := t.wing, unit := unit, cause := cause, addr := addr, tag := entryTag t.hdr, ring := t.ring,
               part := t.part, detail := detail }

/-- Write the completion record; true when its write faulted, which enters the cause log (R143, R144). A RECORD_VA
that is not 32 B aligned, which itself failed the task, receives no record, and neither does a task entry on a PF0 ring:
PF0 owns no partition whose tables could translate its RECORD_VA (DESIGN CHOICE, assumption log 120). -/
def writeRecord (s : State) (t : Task) (cause : Nat) : State × Bool :=
  let va := hRecord t.hdr
  if va = 0 ∨ va % 32 ≠ 0 ∨ t.func = .pf0 then (s, false)
  else
    let r := saveVa s (taskCtx s t) va (recordImage s t cause)
    match r.2 with
    | none => (r.1, false)
    | some e => (logTask (failAcc r.1 .task t.part e) t e.cause .stationmaster va, true)

/-- The completion entry of a task (R144, R476). -/
def answerTask (s : State) (t : Task) (cause : Nat) (recFault : Bool) : State :=
  if t.answer then
    answerEntry s t.func t.ring
      { tag := entryTag t.hdr, cause := cause, sqHead := t.sqHead, ring := t.ring, recFault := recFault,
        zeroWork := t.zeroWork, committed := cause == 0 }
  else s

/-- Let every instance a task had pinned retire and go on (R39 to R41). -/
def releasePins (s : State) (pins : List Pin) : State := pins.foldl (fun s p => settleInst s p.inst) s

/-- Free the staging frames that a task holds (R184). -/
def freeStaging (s : State) (id : Nat) : State :=
  { s with tmem := s.tmem.map fun _ m => { m with frames := m.frames.filter fun f => f.2.task != some id } }

/-- End a task: record, completion entry, the end of its transfers, release of its staging frames, pins and cores, and
the charge of R156. -/
def finishTask (s : State) (t : Task) (cause : Nat) : State :=
  let ticks := coreTicks s t
  let (s, rf) := if t.answer then writeRecord s t cause else (s, false)
  let s := answerTask s t cause rf
  let s := t.cores.foldl (fun s i => holdRegions s i []) (closeTask s t.id)
  let s := freeStaging s t.id
  let s := { s with tasks := s.tasks.filter fun x => x.id != t.id }
  let s := chargeVtime s t.home t.part ticks
  releasePins s t.pins

/-! ### Streams -/

/-- Whether a task is a stream stage (R130). -/
def Task.isStage (t : Task) : Bool := entryKind t.hdr == 3

/-- STREAM and MODE of a stage's body (R198). -/
def stageStream (t : Task) : Nat := bits (at8 t.body 0 64) 143 136
def stageMode (t : Task) : Nat := bits (at8 t.body 0 64) 1 0

/-- Whether a stage belongs to a stream: partition, wing and number (R209). -/
def inStream (part : Nat) (w : Wing) (st : Nat) (t : Task) : Bool :=
  t.isStage && t.part == part && t.wing == w && stageStream t == st

def sdPool (d : Nat) : Nat := bits d 255 208
def sdBytes (d : Nat) : Nat := bits d 207 184
def sdStride (d : Nat) : Nat := bits d 183 152
def sdHandles (d : Nat) : Nat := bits d 151 139
def sdFirst (d : Nat) : Nat := bits d 138 131
def sdStreams (d : Nat) : Nat := bits d 130 124
def sdNum (d : Nat) : Nat := bits d 123 116
def sdHome (d : Nat) : Nat := bits d 115 115
def sdWing (d : Nat) : Wing := wingOfNum (bits d 114 114)
def sdKind (d : Nat) : Nat := bits d 113 112

/-- VA of buffer h of a siding (R192). -/
def sidingBuffer (x : Siding) (h : Nat) : Nat := sdPool x.desc + h * sdStride x.desc

/-- Stream that a handle counts against (R195). -/
def HandleState.stream : HandleState → Nat
  | .acquired s => s
  | .full s => s
  | .taken s => s

/-- Free every handle of a stream in a siding (R209). -/
def Siding.dropStream (x : Siding) (st : Nat) : Siding :=
  { x with
    handles := x.handles.filter fun h => h.2.stream != st
    queue := x.queue.filter fun q => q.2.1 != st
    segs := x.segs.filter fun g => (Table.find (x.handles.filter fun h => h.2.stream == st) g.1).isNone }

/-- Leave free bytes in the buffers of a stream's handles, whose contents are undefined (R209). -/
def scribbleStream (s : State) (c : Ctx) (w : Wing) (st : Nat) : State :=
  (s.sidings.filter fun x => x.part == c.part && x.wing == w && sdKind x.desc == 0).foldl (fun s x =>
    (x.handles.filter fun h => h.2.stream == st).foldl (fun s h =>
      scribble s c (sidingBuffer x h.1) (sdBytes x.desc)) s) s

/-- A dispatched stage stops: its stream is broken in its wing (R209). The other stages of the stream are aborted, every
handle of the stream becomes free, and the break is reported. -/
def breakStream (s : State) (t : Task) : State :=
  let st := stageStream t
  let others := s.tasks.filter fun x => x.id != t.id && inStream t.part t.wing st x
  let s := others.foldl (fun s x => logTask s x 0x0504) s
  let s := scribbleStream s (taskCtx s t) t.wing st
  let s := { s with
    tasks := s.tasks.map fun x =>
      if x.id != t.id && inStream t.part t.wing st x then
        { x with status := match x.status with
          | .stopping c => .stopping c
          | _ => .stopping 0x0504 }
      else x
    sidings := updateWhere (fun x => x.part == t.part && x.wing == t.wing) (fun x => x.dropStream st) s.sidings }
  addCtr (raise s 0x0503 st (blkSch t.home) t.part) (blkSch t.home) 0x0438

/-- Report a fault of a task: it enters the cause log, and the first one to arrive stops the task and decides its
cause (R142). -/
def stopTask (s : State) (id cause : Nat) (unit : LogUnit := .stationmaster) (addr : Nat := 0) (detail : Nat := 0) :
    State :=
  match taskOf s id with
  | none => s
  | some t =>
    let s := logTask s t cause unit addr detail
    match t.status with
    | .stopping _ => s
    | _ =>
      s.modTask id fun t => { t with status := .stopping (BitVec.ofNat 16 cause) }

/-- A task meets an error of an access: the memory side is reported, then the task stops (R124, R142). -/
def faultTask (s : State) (id : Nat) (part : Nat) (e : AccErr) (unit : LogUnit := .core) (detail : Nat := 0) : State :=
  stopTask (failAcc s .task part e) id e.cause unit (if e.phys then 0 else e.addr) detail

/-- Leave free bytes in the destination ranges of a task that ends uncommitted (R138). -/
def scribbleRanges (s : State) (c : Ctx) (rs : List (Nat × Nat)) : State :=
  rs.foldl (fun s r => scribble s c r.1 r.2) s

end Sys2Proof.Machine
end

