-- ==== Sys2Proof/Machine/Issue.lean ====
section
/-!
DEFINITION. From a ring's fetched entries to issued tasks and performed commands: ring order (R145 to R147), the issue
checks every kind shares (R136), pins at issue (R140), and the checks of commands (R481).
-/

namespace Sys2Proof.Machine

/-! ### Ring order -/

/-- Whether a command of a ring is being performed (R147). -/
def ringCommanding (s : State) (f : Func) (r : Nat) : Bool :=
  (s.cmds.any fun c => c.answer && c.func == f && c.ring == r) ||
    s.insts.any fun x => x.2.swaps.any fun w => w.answer && w.func == f && w.ring == r

/-- Tasks of a ring that have been issued and have not ended. -/
def ringTasks (s : State) (f : Func) (r : Nat) : List Task :=
  s.tasks.filter fun t => t.answer && t.func == f && t.ring == r

/-- Partitions whose tasks a draining configuration swap holds back (R154). -/
def drainingParts (s : State) : List Nat :=
  match (instOf s .partCfg).swaps with
  | sw :: _ =>
    match sw.stage, sw.edition with
    | .drain, some e => drainedParts (cfgAt s .e0) e.copy
    | _, _ => []
  | [] => []

/-- Whether the image of a completion entry is a command's (R476). -/
def commandImage (e : BitVec 128) : Bool := e.getLsbD 7

/-- Whether the front entry of a ring may begin: nothing before a command's completion entry has been written (R147), a
command once every earlier entry has ended (R147), a task once every earlier task has been dispatched (R145), with FENCE
once every earlier completion entry has been written (R146), with room for it (R139) and no drain of its partition
(R154). -/
def mayBegin (s : State) (f : Func) (r : Nat) (e : Entry) : Bool :=
  let g := ringOf s f r
  let ts := ringTasks s f r
  mainUp s && !ringCommanding s f r && !g.heldEntries.any commandImage &&
    if entryKind e = 0 then ts.isEmpty
    else
      ts.all Task.dispatched && (!hFence e || (ts.isEmpty && g.heldEntries.isEmpty))
        && decide (heldCount s g.home < 512)
        && (match f with
          | .pf0 => true
          | .vf p => !(drainingParts s).contains p.val)

/-- The front entry of a ring, when it may begin. -/
def readyEntry (s : State) (f : Func) (r : Nat) : Option (Entry × Nat) :=
  match (ringOf s f r).fetched with
  | [] => none
  | (e, h) :: _ => if mayBegin s f r e then some (e, h) else none

/-- Take the front entry from its ring. -/
def takeEntry (s : State) (f : Func) (r : Nat) : State := s.modRing f r fun g => { g with fetched := g.fetched.drop 1 }

/-- SUB values of a KIND (R130). -/
def subCount (kind : Nat) : Nat :=
  match kind with
  | 1 => 1
  | 2 => 2
  | 3 => 1
  | 4 => 2
  | 5 => 2
  | 6 => 9
  | _ => 0

/-- Whether KIND and SUB are permitted (R130). -/
def kindSubOk (e : Entry) : Bool := decide (hSub e < subCount (entryKind e))

/-- Whether no row of the operation table names an entry: an unlisted KIND, SUB or OPCODE. Such an entry ends with its
cause when it is fetched, or, when it must wait its turn, in place of the next entry of its ring (assumption
log 16). -/
def nameless (e : Entry) : Bool :=
  if entryKind e = 0 then !decide (1 ≤ cmdOp e ∧ cmdOp e ≤ 8) else !kindSubOk e

/-! ### Issue checks that every kind shares -/

/-- Whether the arguments that a move's SUB does not use are zero, and those it uses lie in range (R133). -/
def moveArgsOk (e : Entry) : Bool :=
  let noSrc := mSrc e == 0
  let noDst := mDst e == 0
  let noCount := mCount e == 0
  let noSeg := mLayer e == 0 && mSeg e == 0
  let noPages := mPages e == 0 && !mHostSrc e
  ent e 511 505 == 0 && (match hSub e with
    | 0 => noSeg && noPages
    | 1 => noDst && noSeg && noPages
    | 2 => noDst && noSeg && noPages
    | 3 => noCount && noSeg && noPages
    | 4 => noCount && noSeg && noPages
    | 5 => noDst && noCount && decide (1 ≤ mPages e)
    | 6 => noSrc && noDst && noCount && noPages
    | 7 => noDst && noSeg && noPages && ent e 447 439 == 0 && ent e 431 416 != 0 && decide (1 ≤ ent e 438 432 ∧ ent e 438 432 ≤ 64)
    | _ => noSrc && noDst && noCount && noSeg && noPages)

/-- Bits of ARGS that a KIND leaves reserved (R131, R167, R199, R223, R396); step 1 judges them. Of a stage, whose ARGS
depend on the MODE of its body, it judges those that no MODE uses, and check 1 of R200 the rest (DEDUCED, assumption
log 118). -/
def argsReserved (e : Entry) : Nat :=
  match entryKind e with
  | 1 => ent e 507 500
  | 2 => ent e 383 320
  | 3 => ent e 507 500
  | 4 => ent e 479 320
  | _ => ent e 511 320

/-- Step 1 of R136. -/
def headerOk (e : Entry) (home : Tile) : Bool :=
  kindSubOk e && hPlace e != 3
    && ent e 319 304 == 0 && ent e 255 240 == 0 && ent e 191 176 == 0 && !bit e.toNat 96 && ent e 45 44 == 0
    && hRecord e % 32 == 0 && hPlan e % 64 == 0 && hBody e % 64 == 0
    && bits (hCoreBase e) 15 11 == 0 && bits (hCoreBase e) 10 9 == tileIdx home
    && (if entryKind e = 6 then
          hRows e == 0 && hCols e == 0 && hBankCount e == 0 && hAccCount e == 0 && hPlan e == 0 && hBody e == 0
            && moveArgsOk e
        else argsReserved e == 0 && (entryKind e == 5 || decide (1 ≤ hRows e ∧ 1 ≤ hCols e)))

/-- Whether the rectangle lies inside a grant (R136 step 2). -/
def rectGranted (e : Entry) (g : Grant) : Bool :=
  (hRows e == 0 || hCols e == 0) || (covers (hCol e) (hCols e) g.colFirst g.cols && covers (hLrow e) (hRows e) g.rowFirst g.rows)

/-- Step 2 of R136. -/
def coresGranted (s : State) (t : Task) : Bool :=
  let r := taskRec s t
  recEnabled r && decide (t.ring < recRings r)
    && (placeTiles t.hdr t.home).all fun x => rectGranted t.hdr (recGrant r x)

/-- Tiles of PLACE on which the rectangle is wholly enabled (R134). -/
def enabledTiles (s : State) (t : Task) : List Tile :=
  (placeTiles t.hdr t.home).filter fun x => !rectRetired s x t.hdr

/-- Step 3 of R136 (R26, R134). A move names no cores. -/
def rectEnabled (s : State) (t : Task) : Bool :=
  let e := t.hdr
  entryKind e == 6 ||
    (decide (hCol e + hCols e ≤ 16 ∧ hLrow e + hRows e ≤ 21 ∧ hLrow e ≤ 20)
      && (if hPlace e = 2 then !(enabledTiles s t).isEmpty
          else (enabledTiles s t).length == (placeTiles e t.home).length))

/-- Step 4 of R136. -/
def allocationGranted (s : State) (t : Task) : Bool :=
  (placeTiles t.hdr t.home).all fun x =>
    let g := recGrant (taskRec s t) x
    covers (hBankFirst t.hdr) (hBankCount t.hdr) g.bankFirst g.bankCount
      && covers (hAccFirst t.hdr) (hAccCount t.hdr) g.accFirst g.accCount

/-- Steps 1 to 4 of R136: the first cause that applies. -/
def commonFault (s : State) (t : Task) : Option Nat :=
  if !headerOk t.hdr t.home then some 0x0151
  else if !coresGranted s t then some 0x0132
  else if !rectEnabled s t then some 0x0131
  else if !allocationGranted s t then some 0x0133
  else none

/-! ### The bank plan -/

/-- Phase entry p of a plan (R75). -/
def planEntry (plan : List Byte) (p : Nat) : Nat := at8 plan (16 * p) 16

/-- Whether a phase is VALID. -/
def phaseValid (plan : List Byte) (p : Nat) : Bool := bit (planEntry plan p) 80

/-- Class code of a bank in a phase (R73, R75). -/
def phaseClass (plan : List Byte) (p b : Nat) : Nat := bits (planEntry plan p) (2 * b + 1) (2 * b)

/-- Step 6 of R136: the plan under R77, with the phases the descriptor names and those that carry engine steps. -/
def planOk (e : Entry) (plan : List Byte) (phases engine : List Nat) : Bool :=
  phaseValid plan 0 && phases.all (fun p =>
      phaseValid plan p && (List.range 40).all fun b =>
        phaseClass plan p b == 0 || decide (hBankFirst e ≤ b ∧ b < hBankFirst e + hBankCount e))
    && engine.all fun p => (List.range 40).any fun b => phaseClass plan p b == 1

/-! ### Issuing a task -/

/-- Fetch bytes of a task at step 5, as the home tile's MMU translates them (R136). -/
def fetch5 (s : State) (t : Task) (va n : Nat) : State × Except AccErr (List Byte) := loadVa s (taskCtx s t) va n

/-- A pin on the edition current at a tile (R39, R140). -/
def pinAt (s : State) (i : Instance) (t : Tile) (bound : Nat := 0) : Option Pin :=
  (currentAt s i (.station t)).map fun n => ⟨i, n, bound⟩

/-- A task as its issue check begins: step 1's tick, the pin of the partition configuration, and the settings sampled
(R92, R140, R143, R266, R306). -/
def newTask (s : State) (f : Func) (r : Nat) (e : Entry) (sqHead : Nat) : Task :=
  let home := (ringOf s f r).home
  let p := (partOf f).getD 0
  { id := s.nextTask, func := f, ring := r, part := p, home := home, hdr := e, sqHead := sqHead
    issueTick := tickOf s (wingOf home)
    pins := (pinAt s .partCfg home).toList
    strict := partVal s 0x8031 p == 1
    iterative := dictVal s 0x5030 (p + 1) == 1
    ropeVa := partVal s 0x8040 p
    ropePair := partVal s 0x8041 p }

/-- End a task at issue with a cause (R136, R138). -/
def failIssue (s : State) (t : Task) (e : AccErr) : State :=
  let s := failAcc s .task t.part e
  let s := addCtr s (blkSch t.home) 0x0130
  let s := logTask s t e.cause .stationmaster (if e.phys then 0 else e.addr)
  finishTask s t e.cause

/-- What a kind's own steps (5 to 7 of R136) say of a task: the task with its work, pins and settings, and the state
with what the steps recorded. -/
abbrev KindCheck := State → Task → State × Except AccErr Task

/-- A task that passed every check: it waits for its cores, or, with nothing to do, ends at once (R137). Its body,
plan and record pages enter the tile's translation cache (assumption log 11). -/
def acceptTask (s : State) (t : Task) : State :=
  let s := addCtr s (blkSch t.home) 0x0128
  if t.zeroWork then finishTask s t 0
  else
    let c := taskCtx s t
    let s := [hBody t.hdr, hPlan t.hdr, hRecord t.hdr].foldl (fun s va => if va = 0 then s else fillTlb s c va) s
    let s := liftVtime s t.home t.part
    rebaseVtime { s with tasks := s.tasks ++ [t] } t.home

/-- The issue check of a task (R136, R140): the checks in order, then waiting for cores. -/
def issueTask (s : State) (t : Task) (k : KindCheck) : State :=
  let s := { s with nextTask := s.nextTask + 1 }
  if t.func = .pf0 then failIssue s t { cause := 0x0155, addr := 0 }
  else match commonFault s t with
    | some c => failIssue s t { cause := c, addr := 0 }
    | none =>
      match k s t with
      | (s, .error e) => failIssue s t e
      | (s, .ok t) => acceptTask s t

/-- Begin the front entry of a ring as a task of one KIND and SUB; nothing happens when another entry stands there or
it may not begin yet. An entry that no row names ends with cause 0x0151. -/
def beginTask (s : State) (f : Func) (r kind sub : Nat) (k : KindCheck) : State :=
  match readyEntry s f r with
  | none => s
  | some (e, h) =>
    if entryKind e ≠ 0 ∧ ((entryKind e = kind ∧ hSub e = sub) ∨ nameless e) then
      orWait s fun s => issueTask (takeEntry s f r) (newTask s f r e h) k
    else s

/-! ### Commands -/

/-- A command begins: answered with the first cause of R481 that applies, or performed. A swap that names an instance is
judged when its turn comes (R37, R589). -/
def judgeCommand (s : State) (o : Origin) (e : Entry) (perform : State → Origin → Entry → State) : State :=
  match (if cmdOp e = 1 ∧ (swapInst e).isSome then none else commandFault s o.func o.ring e) with
  | some c => answerCommand s o e c (wingOf (ringOf s o.func o.ring).home)
  | none => perform s o e

/-- Whether a command of a PF0 ring is in progress, answered or not. -/
def pf0Commanding (s : State) (r : Nat) : Bool :=
  (s.cmds.any fun c => c.func == .pf0 && c.ring == r) ||
    s.insts.any fun x => x.2.swaps.any fun w => w.func == .pf0 && w.ring == r

/-- The next command that PF0's ring had fetched before a PF0 reset, when it may begin (R482). -/
def readyOrphan (s : State) (f : Func) (r : Nat) : Option (Nat × Tile × Entry) :=
  if f = .pf0 ∧ mainUp s ∧ !pf0Commanding s r then s.hif.orphans.find? fun x => x.1 == r else none

/-- Such a command begins at the home its ring had; nothing is answered (R482). -/
def beginOrphan (s : State) (x : Nat × Tile × Entry) (perform : State → Origin → Entry → State) : State :=
  let g := ringOf s .pf0 x.1
  let s := s.modHif fun h => { h with orphans := h.orphans.erase x }
  let s := s.modRing .pf0 x.1 fun g => { g with home := x.2.1 }
  (judgeCommand s ⟨.pf0, x.1, 0, false⟩ x.2.2 perform).modRing .pf0 x.1 fun _ => g

/-- Begin the front entry of a ring as a command of one OPCODE: nothing happens when another entry stands there or it
may not begin yet; a command that fails a check of R481 is answered with its cause. An entry that no row names is
answered with cause 0x0154. What PF0's ring had fetched before a PF0 reset comes first (R482). -/
def beginCommand (s : State) (f : Func) (r op : Nat) (perform : State → Origin → Entry → State) : State :=
  let mine (e : Entry) : Bool := entryKind e == 0 && (cmdOp e == op || nameless e)
  match (readyOrphan s f r).filter fun x => mine x.2.2 with
  | some x => orWait s fun s => beginOrphan s x perform
  | none =>
    match readyEntry s f r with
    | none => s
    | some (e, h) =>
      if mine e then orWait s fun s => judgeCommand (takeEntry s f r) ⟨f, r, h, true⟩ e perform else s

/-- Context in which a command's reads are made: its partition, the ring's home tile, the configuration current
there (R479). -/
def commandCtx (s : State) (o : Origin) (e : Entry) : Ctx :=
  let home := (ringOf s o.func o.ring).home
  { part := cmdPart e, tile := home, copy := cfgAt s home }

/-- End a fetched entry that no row names, where nothing of its ring holds it back. -/
def endNameless (s : State) (f : Func) (r : Nat) : State :=
  match readyEntry s f r with
  | none => s
  | some (e, h) =>
    if !nameless e then s
    else if entryKind e = 0 then beginCommand s f r 0 fun s _ _ => s
    else issueTask (takeEntry s f r) (newTask s f r e h) fun s t => (s, .ok t)

end Sys2Proof.Machine
end

