-- ==== Sys2Proof/Machine/Rings.lean ====
section
/-!
DEFINITION. Submission and completion rings: doorbells, enabling and draining, fetching, errors and coalesced messages
(R471 to R478).
-/

namespace Sys2Proof.Machine

/-! ### Who reaches the module -/

/-- Rings a function has (R467). -/
def hasRing (f : Func) (r : Nat) : Bool :=
  match f with
  | .pf0 => decide (r < 16)
  | .vf _ => decide (r < 64)

/-- Whether the host reaches a function: the main device is up, the link is up, and VFs answer only while VF Enable is
set (R482). -/
def hostReaches (s : State) (f : Func) : Bool :=
  mainUp s && s.hif.linkUp && (match f with
    | .pf0 => true
    | .vf _ => s.hif.vfEnable)

/-- FN_STAT.RESETTING of a function (R488). -/
def funcResetting (s : State) (f : Func) : Bool :=
  match f with
  | .pf0 => s.hif.pf0Resetting
  | .vf p => resettingPart s p.val

/-- PART of a function in records; 0 for PF0. -/
def evPart (f : Func) : Nat := (partOf f).getD 0

/-- DATA of a ring event (R564). -/
def ringData (f : Func) (r : Nat) : Nat := funcNum f * 65536 + r

/-! ### Doorbells -/

/-- A doorbell at its ring's home (R474): accepted, or discarded, counted and reported. -/
def applyDoorbell (s : State) (f : Func) (r : Nat) (head : Bool) (v : Word32) : State :=
  let g := ringOf s f r
  if decide (4096 ≤ v.toNat) || decide (ringSize g ≤ v.toNat) || !g.enabled then
    raise (addCtr s blkHif 0x0100) 0x0804 (ringData f r) blkHif (evPart f)
  else if head then s.modRing f r fun g =>
    { g with cqHead := v.toNat, owed := g.owed - (v.toNat + ringSize g - g.cqHead) % ringSize g }
  else s.modRing f r fun g => { g with sqTail := v.toNat }

/-- A doorbell write by the host: during the function's reset it is discarded without counting (R483); EIO keeps the
last value for a West-homed ring while the Concourse is down (R455). -/
def doorbell (s : State) (f : Func) (r : Nat) (head : Bool) (v : Word32) : State :=
  if !hostReaches s f || !hasRing f r || funcResetting s f then s
  else if wingOf (ringOf s f r).home = .west ∧ !concourseUp s then
    let k := ringKey f r
    { s with cc := { s.cc with doorbells := (s.cc.doorbells.filter fun d => !(d.1 == k && d.2.1 == head)) ++ [(k, head, v)] } }
  else applyDoorbell s f r head v

/-- SQ_TAIL_DOORBELL (R474). -/
def execSqTailDoorbell (f : Func) (r : Fin 64) (v : Word32) (s : State) : Host.Outcome State Fault Refusal :=
  .next (doorbell s f r.val false v)

/-- CQ_HEAD_DOORBELL (R474). -/
def execCqHeadDoorbell (f : Func) (r : Fin 64) (v : Word32) (s : State) : Host.Outcome State Fault Refusal :=
  .next (doorbell s f r.val true v)

/-! ### Enabling -/

/-- Whether an enable is refused (R473), judged on the values written (assumption log 15). -/
def enableRefused (s : State) (f : Func) (g : Ring) (v : Word32) : Bool :=
  decide (fld v 19 16 < 4 ∨ 12 < fld v 19 16) || decide (g.sqBase.toNat % 4096 ≠ 0 ∨ g.cqBase.toNat % 4096 ≠ 0)
    || funcResetting s f

/-- A write of RING_CFG (R472, R473). -/
def writeRingCfg (s : State) (f : Func) (r : Nat) (v : Word32) : State :=
  let g := ringOf s f r
  if flg v 0 then
    if g.enabled then (if g.enable then s else s.modRing f r fun g => { g with cfgErr := true })
    else if enableRefused s f g v then s.modRing f r fun g => { g with cfgErr := true }
    else s.modRing f r fun g =>
      { g with
        sizeLog2 := fld v 19 16, home := tileOf (fld v 9 8), enable := true, enabled := true
        error := false, cfgErr := false, errKind := 0, sqHead := 0, sqTail := 0, cqHead := 0, owed := 0, cqPos := 0, phase := true
        unsignalled := 0, fetched := [], open_ := 0, heldEntries := [] }
  else if g.enabled then s.modRing f r fun g => { g with enable := false }
  else s.modRing f r fun g => { g with sizeLog2 := fld v 19 16, home := tileOf (fld v 9 8), enable := false }

/-- RING_ENABLE: RING_CFG written with ENABLE = 1 (R473). -/
def execRingEnable (f : Func) (r : Fin 64) (cfg : Word32) (s : State) : Host.Outcome State Fault Refusal :=
  .next (if hostReaches s f ∧ hasRing f r.val then writeRingCfg s f r.val (cfg ||| 1) else s)

/-- RING_DISABLE: RING_CFG written with ENABLE = 0 (R473). -/
def execRingDisable (f : Func) (r : Fin 64) (cfg : Word32) (s : State) : Host.Outcome State Fault Refusal :=
  .next (if hostReaches s f ∧ hasRing f r.val then writeRingCfg s f r.val (cfg &&& ~~~1) else s)

/-- Whether a ring has drained: disabled, and every fetched entry's completion entry written (R473). -/
def ringDrained (g : Ring) : Bool := g.enabled && !g.enable && g.open_ == 0 && g.heldEntries.isEmpty

/-- RING_DRAIN_DONE (R473). -/
def execRingDrainDone (f : Func) (r : Fin 64) (s : State) : Host.Outcome State Fault Refusal :=
  .next (if ringDrained (ringOf s f r.val) then s.modRing f r.val fun g => { g with enabled := false } else s)

/-! ### Fetching -/

/-- Whether rings of a function are fetched in the present device state (R506, R509). -/
def fetchState (s : State) (f : Func) : Bool :=
  match s.cst.state with
  | .shunt => f == .pf0
  | .service => true
  | .limited => true
  | _ => false

/-- Whether a ring's next entry may be fetched (R473, R475, R477, R506). -/
def mayFetch (s : State) (f : Func) (r : Nat) : Bool :=
  let g := ringOf s f r
  hostReaches s f && hasRing f r && g.enabled && g.enable && !g.error && g.sqHead != g.sqTail
    && decide (g.owed < ringSize g) && (pageOf s f).busMaster && fetchState s f
    && (wingOf g.home == .east || concourseUp s)

/-- SUBMISSION_ENTRY_FETCH (R475): the entry joins the ring's fetched entries. A task header stays in its ring while
the tile holds 512 tasks (R139). -/
def execSubmissionEntryFetch (f : Func) (r : Fin 64) (entry : Entry) (s : State) : Host.Outcome State Fault Refusal :=
  if mayFetch s f r.val ∧ (entryKind entry = 0 ∨ heldCount s (ringOf s f r.val).home < 512) then
    let s := s.modRing f r.val fun g =>
      let h := (g.sqHead + 1) % ringSize g
      { g with sqHead := h, fetched := g.fetched ++ [(entry, h)], open_ := g.open_ + 1, owed := g.owed + 1 }
    .next (endNameless s f r.val)
  else .next s

/-- A ring stops under R477. -/
def stopRing (s : State) (f : Func) (r kind : Nat) : State :=
  let s := s.modRing f r fun g => { g with error := true, errKind := kind }
  raise (addCtr s blkHif 0x0108) 0x0803 (ringData f r) blkHif (evPart f)

/-- SUBMISSION_FETCH_FAILED (R477). -/
def execSubmissionFetchFailed (f : Func) (r : Fin 64) (s : State) : Host.Outcome State Fault Refusal :=
  .next (if mayFetch s f r.val then stopRing s f r.val 1 else s)

/-- COMPLETION_WRITE_REFUSED (R477): later completion entries of the ring, those that wait among them, are
discarded. -/
def execCompletionWriteRefused (f : Func) (r : Fin 64) (s : State) : Host.Outcome State Fault Refusal :=
  let g := ringOf s f r.val
  if g.enabled && !(g.error && g.errKind == 2) then
    .next ((stopRing s f r.val 2).modRing f r.val fun g => { g with heldEntries := [] })
  else .next s

/-- MSIX_COAL_DELAY_EXPIRY (R478): the message of entries not yet signalled; that of a West-homed ring waits for the
Concourse (R455). -/
def execMsixCoalDelayExpiry (f : Func) (r : Fin 64) (s : State) : Host.Outcome State Fault Refusal :=
  let g := ringOf s f r.val
  if g.irqEn && g.coalDelay != 0 && g.unsignalled != 0 && (wingOf g.home == .east || concourseUp s) then
    .next (sendMsix (s.modRing f r.val fun g => { g with unsignalled := 0 }) f g.vector)
  else .next s

end Sys2Proof.Machine
end

