-- ==== Sys2Proof/Machine/Swaps.lean ====
section
/-!
DEFINITION. The commands on editions and translations: edition swaps and their notices (R37 to R42, R589), the drain of
a partition-configuration swap (R154), and map invalidates (R106).
-/

namespace Sys2Proof.Machine

/-! ### Edition swaps -/

/-- A swap joins its instance's queue and is judged when its turn comes (R37). -/
def performSwap (s : State) (o : Origin) (e : Entry) : State :=
  match swapInst e with
  | none => answerCommand s o e 0x0154 (wingOf (ringOf s o.func o.ring).home)
  | some i =>
    let first := (instOf s i).swaps.isEmpty
    let s := s.modInst i fun x =>
      { x with swaps := x.swaps ++ [{ func := o.func, ring := o.ring, entry := e, sqHead := o.sqHead, answer := o.answer }] }
    if first then serveSwaps 1 s i else s

/-- EDITION_SWAP (R37, R480). -/
def execEditionSwap (f : Func) (r : Fin 64) (s : State) : Host.Outcome State Fault Refusal :=
  .next (beginCommand s f r.val 1 performSwap)

/-- Whether a notice can travel between two wings. -/
def wingsJoined (s : State) (a b : Wing) : Bool := a == b || concourseUp s

/-- SWAP_NOTICE: a pinning unit applies the swap between two issue checks (R37, R38). -/
def execSwapNotice (u : PinUnit) (i : Instance) (s : State) : Host.Outcome State Fault Refusal :=
  match (instOf s i).swaps with
  | sw :: _ =>
    match sw.stage with
    | .applying todo =>
      if todo.contains u ∧ wingsJoined s (unitWing u) (wingOf (instHome s i)) then
        let s := applyAtUnit s i u (sw.edition.map (·.num))
        let s := setHeadSwap s i fun w => { w with stage := .applying (todo.filter fun x => x ≠ u) }
        .next (retireUnpinned s i)
      else .next s
    | _ => .next s
  | [] => .next s

/-- EDITION_SWAP_COMPLETE: every pinning unit has applied the swap, so its completion entry is written and the next
swap of the instance takes its turn (R37). -/
def execEditionSwapComplete (i : Instance) (s : State) : Host.Outcome State Fault Refusal :=
  match (instOf s i).swaps with
  | sw :: rest =>
    match sw.stage with
    | .applying [] =>
      .next (orWait s fun s =>
        let s := answerCommand s ⟨sw.func, sw.ring, sw.sqHead, sw.answer⟩ sw.entry 0 (wingOf (instHome s i))
        let s := s.modInst i fun x => { x with swaps := rest }
        settleInst s i)
    | _ => .next s
  | [] => .next s

/-! ### The drain of a configuration swap -/

/-- Frames of a partition and kind at a tile that stand outside a count: those past the first n (R109). Frames held by
a stuck write-back lie outside the counts (R124). -/
def surplusFrames (m : TileMem) (p : Nat) (k : FrameKind) (n : Nat) : List Nat :=
  ((m.frames.filter fun f => f.2.owner == p && f.2.kind = k && f.2.stuck.isNone).drop n).map (·.1)

/-- Write back and free the frames that a lowered grant removes (R109, R112, R154 step 3). The bytes of a frame are
those of stacked memory in this model (assumption log 17). -/
def trimFrames (s : State) (t : Tile) (p : Nat) (g : Grant) : State :=
  let m := s.tmem.get t
  let gone := surplusFrames m p .demand g.d ++ surplusFrames m p .stream g.s
  (m.frames.filter fun f => gone.contains f.1).foldl (fun s f => freeFrame (writeBack s t f.1 f.2) t f.1) s

/-- Numbers of [a, a + m) outside [b, b + n). -/
def outsideOf (a m b n : Nat) : List Nat :=
  ((List.range m).map (a + ·)).filter fun x => !decide (b ≤ x ∧ x < b + n)

/-- Zero banks and accumulator regions of one core (R71, R72, R89). -/
def zeroCore (s : State) (i : Nat) (banks regions : List Nat) : State :=
  let s := banks.foldl (fun s b => zeroWindow s i (0x10000 * b) 0x10000) s
  regions.foldl (fun s r => zeroWindow s i (0x280000 + 0x4000 * r) 0x4000) s

/-- Whether a position lies in a core grant. -/
def inGrant (g : Grant) (n : Nat) : Bool :=
  decide (g.colFirst ≤ n % 16 ∧ n % 16 < g.colFirst + g.cols ∧ g.rowFirst ≤ n / 16 ∧ n / 16 < g.rowFirst + g.rows)

/-- Clear the banks and accumulator regions that a swap removes from one tile's grant (R154 step 4). -/
def clearRemoved (s : State) (t : Tile) (a b : Grant) : State :=
  ((List.range 336).filter (inGrant a)).foldl (fun s n =>
    let bk := if inGrant b n then outsideOf a.bankFirst a.bankCount b.bankFirst b.bankCount
      else (List.range a.bankCount).map (a.bankFirst + ·)
    let rg := if inGrant b n then outsideOf a.accFirst a.accCount b.accFirst b.accCount
      else (List.range a.accCount).map (a.accFirst + ·)
    zeroCore s (coreIndex t n) bk rg) s

/-- A record's grant of a tile, empty for a disabled partition. -/
def effectiveGrant (rec : List Byte) (t : Tile) : Grant :=
  if recEnabled rec then recGrant rec t else ⟨0, 0, 0, 0, 0, 0, 0, 0, 0, 0, 0⟩

/-- Steps 3 and 4 of R154 for one partition. -/
def drainPart (s : State) (old new : List Byte) (p : Nat) : State :=
  allTiles.foldl (fun s t =>
    let a := effectiveGrant (partRec old p) t
    let b := effectiveGrant (partRec new p) t
    clearRemoved (trimFrames s t p b) t a b) s

/-- PART_CONFIG_DRAIN_DONE: no task of a drained partition is left and no changed partition is in reset, so the swap is
applied (R154, R486). -/
def execPartConfigDrainDone (s : State) : Host.Outcome State Fault Refusal :=
  match (instOf s .partCfg).swaps with
  | sw :: _ =>
    match sw.stage, sw.edition with
    | .drain, some e =>
      let old := cfgAt s .e0
      let ps := drainedParts old e.copy
      if s.tasks.any (fun t => ps.contains t.part && t.func != .pf0) || (changedParts old e.copy).any (resettingPart s) then .next s
      else .next (orWait s fun s => applySwap (ps.foldl (fun s p => drainPart s old e.copy p) s) .partCfg sw)
    | _, _ => .next s
  | [] => .next s

/-! ### Map invalidate -/

/-- Drop a partition's cached translations that meet a range, on every tile (R106). -/
def dropTranslations (s : State) (p va n : Nat) : State :=
  { s with tmem := s.tmem.map fun _ m =>
      { m with tlb := m.tlb.filter fun e => !(e.part == p && overlap e.va e.size va n) } }

/-- A map invalidate begins: the range's translations are dropped, and the command waits for the partition's tasks
issued before it (R106). -/
def performInvalidate (s : State) (o : Origin) (e : Entry) : State :=
  let s := dropTranslations s (cmdPart e) (ent e 511 464) (ent e 463 432 * 0x10000)
  let ids := (s.tasks.filter fun t => t.func == vfOf (cmdPart e)).map (·.id)
  { s with cmds := s.cmds ++ [{ func := o.func, ring := o.ring, entry := e, sqHead := o.sqHead, answer := o.answer
                                wait := .mapInvalidate ids }] }

/-- MAP_INVALIDATE (R106). -/
def execMapInvalidate (f : Func) (r : Fin 64) (s : State) : Host.Outcome State Fault Refusal :=
  .next (beginCommand s f r.val 2 performInvalidate)

/-- The waiting command of a ring that satisfies a test. -/
def ringCmd (s : State) (f : Func) (r : Nat) (p : Cmd → Bool) : Option Cmd :=
  s.cmds.find? fun c => c.func == f && c.ring == r && p c

/-- Answer a waiting command with a cause and remove it. -/
def endCmd (s : State) (c : Cmd) (cause : Nat) : State :=
  let s := { s with cmds := s.cmds.filter fun x => x ≠ c }
  answerCommand s ⟨c.func, c.ring, c.sqHead, c.answer⟩ c.entry cause (wingOf (ringOf s c.func c.ring).home)

/-- Whether a command is a map invalidate whose tasks have all ended. -/
def invalidateDone (s : State) (c : Cmd) : Bool :=
  match c.wait with
  | .mapInvalidate ids => ids.all fun i => !s.tasks.any fun t => t.id == i
  | _ => false

/-- MAP_INVALIDATE_DONE: every task of the partition issued before the command has ended (R106). -/
def execMapInvalidateDone (f : Func) (r : Fin 64) (s : State) : Host.Outcome State Fault Refusal :=
  match ringCmd s f r.val (invalidateDone s) with
  | some c => .next (endCmd s c 0)
  | none => .next s

end Sys2Proof.Machine
end

