-- ==== Sys2Proof/Machine/Frames.lean ====
section
/-!
DEFINITION. The stream frames of the window buffers (R114 to R116): segments, their loads and releases, and schedule
mode.
-/

namespace Sys2Proof.Machine

/-! ### Stream frames -/

/-- Stream frames of a partition's share that are free at a tile (R114). -/
def freeStream (s : State) (t : Tile) (p : Nat) : Nat := (grantAt s t p).s - (ownFrames s t p .stream).length

/-- A page that a load must bring in: its tile, its directory key, and where the partition has it. -/
structure LoadPage where
  tile : Tile
  key : Nat
  va : Nat
  x : Xlat
deriving DecidableEq, Repr

/-- Pages of a segment that a load must bring in: streamed and compressed pages that no frame holds (R108, R114, R119).
Pages of other leaves are not streamed and take no frame. -/
def segmentPages (s : State) (c : Ctx) (va n : Nat) : Except AccErr (List LoadPage) :=
  (mapErr (fun k =>
    let a := va + 0x10000 * k
    match translate s c a false with
    | .error e => Except.error e
    | .ok x =>
      let p : LoadPage := { tile := pageHome x a, key := frameKey x a, va := a, x := x }
      .ok (if (leafTier x.leaf = 2 ∨ leafTier x.leaf = 3) ∧ (frameOf s p.tile p.key).isNone then [p] else []))
    (List.range n)).map List.flatten

/-- Whether every tile has room for the pages it must take. -/
def streamRoom (s : State) (p : Nat) (ts : List Tile) : Bool :=
  allTiles.all fun t => decide ((ts.filter fun x => x = t).length ≤ freeStream s t p)

/-- What a load is made for: the source its failures name, its context, layer and segment. -/
structure LoadFor where
  src : FailSrc
  ctx : Ctx
  layer : Nat
  seg : Nat
deriving DecidableEq, Repr

/-- The stream frame of a load before its page arrives. -/
def LoadFor.frame (l : LoadFor) (key : Nat) : Frame :=
  { owner := l.ctx.part, kind := .stream, page := key, valid := true, seg := some (l.layer, l.seg) }

/-- Fill a stream frame with one page: a compressed one is decompressed into it (R119). A failed fill leaves the frame
free and ends no task (R124); so does a corrupt image, on which no access waits (DEDUCED, assumption log 121). -/
def loadPage (s : State) (l : LoadFor) (p : LoadPage) : State :=
  match fillContent s l.ctx p.x p.va with
  | .error e => raise (failAcc s l.src l.ctx.part { e with fill := false }) 0x0203 l.layer (blkMem p.tile) l.ctx.part
  | .ok page =>
    match spareFrame s p.tile with
    | none => s
    | some n => placePage (assignFrame s p.tile n (l.frame p.key)) p.tile n page

/-- Fill stream frames with pages of one segment. -/
def loadPages (s : State) (l : LoadFor) (ps : List LoadPage) : State := ps.foldl (fun s p => loadPage s l p) s

/-- Key of a frame filled from host memory: apart from every physical page (R114, assumption log 18). -/
def hostKey (bus : Nat) : Nat := 0x2000000000000 + bus / 0x10000

/-- Fill stream frames of a tile with n pages of host memory from a bus address (R114, R481): their bytes are the host's,
which the model does not hold, so they are free values (assumption log 18). -/
def loadHostPages (s : State) (l : LoadFor) (t : Tile) (bus n : Nat) : State :=
  (List.range n).foldl (fun s k =>
    match spareFrame s t with
    | none => s
    | some f =>
      let (bs, s) := freeBytes (assignFrame s t f (l.frame (hostKey bus + k))) 0x10000
      writeFrame s t f bs) s

/-- Free a segment's frames without write-back (R114). -/
def releaseSegment (s : State) (p layer seg : Nat) : State :=
  { s with tmem := s.tmem.map fun _ m =>
      { m with frames := m.frames.filter fun f => !(f.2.owner == p && f.2.kind = .stream && f.2.seg == some (layer, seg)) } }

/-- Segments of a partition resident at a tile (R114, R116). -/
def residentSegs (s : State) (t : Tile) (p : Nat) : List (Nat × Nat) :=
  (ownFrames s t p .stream).foldl (fun l f =>
    match f.2.seg with
    | some x => if l.contains x then l else l ++ [x]
    | none => l) []

/-! ### Schedule mode -/

/-- Schedule mode of a partition at a tile (R116). -/
def schedOf (s : State) (t : Tile) (p : Nat) : Option Schedule := Table.find (s.tmem.get t).sched p

/-- End schedule mode. -/
def endSched (s : State) (t : Tile) (p : Nat) : State := s.modMem t fun m => { m with sched := Table.erase m.sched p }

/-- End schedule mode with a cause, which enters the cause log (R116, R560). -/
def failSched (s : State) (t : Tile) (p cause : Nat) (addr : Nat := 0) : State :=
  logCause (endSched s t p) { wing := wingOf t, unit := .memory, cause := cause, addr := addr, part := p }

/-- A segment was released: schedule mode whose LAST segment it was has ended (R116). -/
def settleSched (s : State) (p layer seg : Nat) : State :=
  allTiles.foldl (fun s t =>
    match schedOf s t p with
    | some c => if c.lastSeg = some (layer, seg) then endSched s t p else s
    | none => s) s

/-- Release of a segment (R114, R116). -/
def release (s : State) (p layer seg : Nat) : State := settleSched (releaseSegment s p layer seg) p layer seg

/-- Context of a tile's own accesses for a partition: the configuration current there. -/
def tileCtx (s : State) (t : Tile) (p : Nat) : Ctx := { part := p, tile := t, copy := cfgAt s t }

/-- One pass of the loop of R116: the next entry is loaded when the depth and the free frames allow it. R116 leaves two
points open, which the model settles (DESIGN CHOICE, assumption log 122): where the index reaches the entry count with
neither LAST nor WRAP, loading stops and schedule mode stays active; and a failed read or walk of the table itself ends
schedule mode with its cause. -/
def scheduleStep (s : State) (t : Tile) (p : Nat) : State :=
  match schedOf s t p with
  | none => s
  | some c =>
    if c.stopped ∨ c.count ≤ c.index ∨ c.depth ≤ (residentSegs s t p).length then s
    else
      let x := tileCtx s t p
      match loadNum s x (c.table + 16 * c.index) 16 with
      | (s, .error e) => failSched (failAcc s .scheduledLoad p e) t p e.cause (if e.phys then 0 else e.addr)
      | (s, .ok e) =>
        let pages := bits e 83 72
        if pages = 0 ∨ (grantAt s t p).s < pages ∨ bits e 71 66 ≠ 0 ∨ bits e 63 48 ≠ 0 ∨ bits e 15 0 ≠ 0 then
          failSched s t p 0x0207
        else
          let layer := bits e 127 96
          let seg := bits e 95 84
          match segmentPages s x (bits e 47 16 * 0x10000) pages with
          | .error e => failSched (failAcc s .scheduledLoad p e) t p e.cause (if e.phys then 0 else e.addr)
          | .ok ps =>
            if !streamRoom s p (ps.map (·.tile)) then s
            else
              let s := loadPages s { src := .scheduledLoad, ctx := x, layer := layer, seg := seg } ps
              let c := if bit e 64 then { c with stopped := true, lastSeg := some (layer, seg) }
                else { c with index := if bit e 65 then 0 else c.index + 1 }
              s.modMem t fun m => { m with sched := Table.insert m.sched p c }

end Sys2Proof.Machine
end

