-- ==== Sys2Proof/Machine/Moves.lean ====
section
/-!
DEFINITION. Moves (R133, R114 to R119): the checks of each SUB at issue and its effect. A move names no cores, so it is
dispatched when it is issued; its effect is one step, and TASK_END ends it.
-/

namespace Sys2Proof.Machine

/-- An issued move: dispatched on its home tile. -/
def moveTask (t : Task) : Task :=
  { t with tiles := [t.home], dispatchTick := t.issueTick, status := .running, work := .move false false }

/-- A move whose effect has been performed. -/
def moveDone (s : State) (id : Nat) : State := s.modTask id fun t => { t with work := .move true false }

/-- Checks of a move that works on COUNT bytes: with COUNT 0 it has nothing to do (R137). -/
def checkRange : KindCheck := fun s t => (s, .ok { moveTask t with zeroWork := mCount t.hdr == 0 })

/-- Checks of a compress: the page's leaf must carry CMPX (R117). -/
def checkCompress : KindCheck := fun s t =>
  match translate s (taskCtx s t) (mSrc t.hdr) false with
  | .error e => (s, .error e)
  | .ok x => if leafCmpx x.leaf then (s, .ok (moveTask t)) else (s, .error { cause := 0x020A, addr := mSrc t.hdr })

/-- Checks of a move that has none of its own. -/
def checkPlain : KindCheck := fun s t => (s, .ok (moveTask t))

/-- Checks of a stage load (R114, R116). -/
def checkStageLoad : KindCheck := fun s t =>
  if (recGrant (taskRec s t) t.home).s < mPages t.hdr then (s, .error { cause := 0x0207, addr := mSrc t.hdr })
  else if (schedOf s t.home t.part).isSome then (s, .error { cause := 0x0209, addr := mSrc t.hdr })
  else (s, .ok (moveTask t))

/-- Whether a LOAD stage of a partition is issued on a tile (R200). -/
def loadStageIssued (s : State) (t : Tile) (p : Nat) : Bool :=
  s.tasks.any fun x => x.isStage && stageMode x == 2 && x.part == p && x.home == t

/-- Checks of a schedule start (R116, R200). -/
def checkScheduleStart : KindCheck := fun s t =>
  if (schedOf s t.home t.part).isSome || loadStageIssued s t.home t.part then (s, .error { cause := 0x0209, addr := mSrc t.hdr }) else (s, .ok (moveTask t))

/-- Begin a move of one SUB and, where it was issued, perform its effect. -/
def beginMove (s : State) (f : Func) (r sub : Nat) (k : KindCheck) (effect : State → Task → State) : State :=
  orWait s fun s =>
    let s' := beginTask s f r 6 sub k
    match taskOf s' s.nextTask with
    | some t => if s'.nextTask = s.nextTask then s' else effect s' t
    | none => s'

/-- Bytes of a copy as they land: those that overlap the source are undefined (R133). -/
def copyBytes (s : State) (src dst : Nat) (bs : List Byte) : List Byte × State :=
  let n := bs.length
  let lo := max src dst
  let hi := min src dst + n
  if lo < hi then
    let (fr, s) := freeBytes s (hi - lo)
    (bs.take (lo - dst) ++ fr ++ bs.drop (hi - dst), s)
  else (bs, s)

/-- The effect of a copy (R133). -/
def runCopy (s : State) (t : Task) : State :=
  let c := taskCtx s t
  let n := mCount t.hdr
  match loadVa s c (mSrc t.hdr) n with
  | (s, .error e) => faultTask s t.id t.part e .stationmaster
  | (s, .ok bs) =>
    let (bs, s) := copyBytes s (mSrc t.hdr) (mDst t.hdr) bs
    match saveVa s c (mDst t.hdr) bs with
    | (s, some e) => faultTask s t.id t.part e .stationmaster
    | (s, none) => moveDone s t.id

/-- MOVE_COPY (R133). -/
def execMoveCopy (f : Func) (r : Fin 64) (s : State) : Host.Outcome State Fault Refusal :=
  .next (beginMove s f r.val 0 checkRange runCopy)

/-- What a move does with one page: its translation and its address. -/
abbrev PageVisit := Ctx → State → Xlat → Nat → State × Option AccErr

/-- Visit the pages of a range in ascending order until one faults. -/
def overPages (c : Ctx) (visit : PageVisit) : List (Nat × Nat) → State → State × Option AccErr
  | [], s => (s, none)
  | p :: ps, s =>
    match translate s c p.1 false with
    | .error e => (s, some e)
    | .ok x =>
      match visit c s x p.1 with
      | (s, some e) => (s, some e)
      | (s, none) => overPages c visit ps s

/-- A move over the pages of its range (R133). -/
def runPages (visit : PageVisit) (s : State) (t : Task) : State :=
  let c := taskCtx s t
  match overPages c visit (pagesOf (mSrc t.hdr) (mCount t.hdr)) s with
  | (s, some e) => faultTask s t.id t.part e .stationmaster
  | (s, none) => moveDone s t.id

/-- Migrate one page: a windowed page that is not resident enters a demand frame, or waits for one (R111, R133). -/
def migratePage : PageVisit := fun c s x va =>
  let t := pageHome x va
  let d := (recGrant (partRec c.copy c.part) t).d
  if leafTier x.leaf ≠ 1 ∨ (frameOf s t (frameKey x va)).isSome ∨ d = 0 then (s, none) else fillDemand s c x va d

/-- MOVE_MIGRATE_IN (R133). -/
def execMoveMigrateIn (f : Func) (r : Fin 64) (s : State) : Host.Outcome State Fault Refusal :=
  .next (beginMove s f r.val 1 checkRange (runPages migratePage))

/-- Write back the dirty sectors of one page's demand frame (R112, R133); a stuck write-back stays (R124). -/
def flushPage : PageVisit := fun _ s x va =>
  let t := pageHome x va
  match frameOf s t (frameKey x va) with
  | some (n, fr) => (if fr.kind = .demand ∧ fr.stuck.isNone then writeBack s t n fr else s, none)
  | none => (s, none)

/-- MOVE_FLUSH (R133). -/
def execMoveFlush (f : Func) (r : Fin 64) (s : State) : Host.Outcome State Fault Refusal :=
  .next (beginMove s f r.val 2 checkRange (runPages flushPage))

/-- Whether a byte string is a well-formed image of a page in at most 15 sectors (R118). -/
def isImageOf (img page : List Byte) : Bool :=
  decodeImage img = some page && img.length == 4096 * imageSectors img

/-- A compress move completes with a sector count (R117). The manual gives the count no register and no field of the
completion record; the model keeps the last one of each tile (assumption log 10). -/
def compressDone (s : State) (t : Task) (sectors : Nat) : State :=
  moveDone (s.modMem t.home fun m => { m with sectors := sectors }) t.id

/-- The effect of a compress (R117, R118): which image the device makes is open (assumption log 4); one that does not
fit leaves the destination unwritten, with a sector count of 0. -/
def runCompress (s : State) (t : Task) : State :=
  let c := taskCtx s t
  match loadVa s c (mSrc t.hdr / 0x10000 * 0x10000) 0x10000 with
  | (s, .error e) => faultTask s t.id t.part e .stationmaster
  | (s, .ok page) =>
    let img := Config.compressedImage page
    if !isImageOf img page then compressDone s t 0
    else match saveVa s c (mDst t.hdr) img with
      | (s, some e) => faultTask s t.id t.part e .stationmaster
      | (s, none) => compressDone s t (imageSectors img)

/-- MOVE_COMPRESS (R117). -/
def execMoveCompress (f : Func) (r : Fin 64) (s : State) : Host.Outcome State Fault Refusal :=
  .next (beginMove s f r.val 3 checkCompress runCompress)

/-- The page a decompress reads: that of a compressed leaf, or the one whose image lies at SRC (DEDUCED, assumption
log 19). -/
def decompressSource (s : State) (c : Ctx) (va : Nat) : State × Except AccErr (List Byte) :=
  match translate s c va false with
  | .error e => (s, .error e)
  | .ok x =>
    if leafTier x.leaf = 3 then loadVa s c (va / 0x10000 * 0x10000) 0x10000
    else
      andThen (loadVa s c va 64) fun s h =>
        andThen (loadVa s c va (imageSectors h * 4096)) fun s img =>
          (s, match decodeImage img with
            | some p => .ok p
            | none => .error { cause := 0x0206, addr := va, image := x.pa })

/-- The effect of a decompress (R117, R119). -/
def runDecompress (s : State) (t : Task) : State :=
  let c := taskCtx s t
  match decompressSource s c (mSrc t.hdr) with
  | (s, .error e) => faultTask s t.id t.part e .stationmaster
  | (s, .ok page) =>
    match saveVa s c (mDst t.hdr) page with
    | (s, some e) => faultTask s t.id t.part e .stationmaster
    | (s, none) => moveDone s t.id

/-- MOVE_DECOMPRESS (R117). -/
def execMoveDecompress (f : Func) (r : Fin 64) (s : State) : Host.Outcome State Fault Refusal :=
  .next (beginMove s f r.val 4 checkPlain runDecompress)

/-- What a stage load is made for. -/
def stageLoadFor (s : State) (t : Task) : LoadFor :=
  { src := .stageLoad, ctx := taskCtx s t, layer := mLayer t.hdr, seg := mSeg t.hdr }

/-- A stage load waits for free frames as a blocked stage (R114). -/
def awaitFrames (s : State) (t : Task) : State := s.modTask t.id fun t => { t with work := .move false true }

/-- A stage load from host memory at HOST_BASE + SRC (R114, R481). The host's data for a West tile cross the Concourse
(R17, R455). -/
def runHostLoad (s : State) (t : Task) : State :=
  if t.wing = .west ∧ !concourseUp s then faultTask s t.id t.part { cause := 0x0306, addr := 0 } .stationmaster
  else if streamRoom s t.part (List.replicate (mPages t.hdr) t.home) then
    moveDone (loadHostPages s (stageLoadFor s t) t.home ((pageOf s t.func).hostBase.toNat + mSrc t.hdr) (mPages t.hdr)) t.id
  else awaitFrames s t

/-- The effect of a stage load (R114): it takes its frames, or waits for them. -/
def runStageLoad (s : State) (t : Task) : State :=
  if mHostSrc t.hdr then runHostLoad s t
  else
    match segmentPages s (taskCtx s t) (mSrc t.hdr) (mPages t.hdr) with
    | .error e => faultTask s t.id t.part e .stationmaster
    | .ok ps =>
      if streamRoom s t.part (ps.map (·.tile)) then moveDone (loadPages s (stageLoadFor s t) ps) t.id else awaitFrames s t

/-- MOVE_STAGE_LOAD (R114). -/
def execMoveStageLoad (f : Func) (r : Fin 64) (s : State) : Host.Outcome State Fault Refusal :=
  .next (beginMove s f r.val 5 checkStageLoad runStageLoad)

/-- MOVE_RELEASE (R114). -/
def execMoveRelease (f : Func) (r : Fin 64) (s : State) : Host.Outcome State Fault Refusal :=
  .next (beginMove s f r.val 6 checkPlain fun s t => moveDone (release s t.part (mLayer t.hdr) (mSeg t.hdr)) t.id)

/-- The effect of a schedule start (R116). -/
def runScheduleStart (s : State) (t : Task) : State :=
  let c : Schedule := { table := mSrc t.hdr, count := ent t.hdr 431 416, depth := ent t.hdr 438 432 }
  moveDone (s.modMem t.home fun m => { m with sched := Table.insert m.sched t.part c }) t.id

/-- MOVE_SCHEDULE_START (R116). -/
def execMoveScheduleStart (f : Func) (r : Fin 64) (s : State) : Host.Outcome State Fault Refusal :=
  .next (beginMove s f r.val 7 checkScheduleStart runScheduleStart)

/-- MOVE_SCHEDULE_STOP (R116). -/
def execMoveScheduleStop (f : Func) (r : Fin 64) (s : State) : Host.Outcome State Fault Refusal :=
  .next (beginMove s f r.val 8 checkPlain fun s t => moveDone (endSched s t.home t.part) t.id)

end Sys2Proof.Machine
end

