-- ==== Sys2Proof/Machine/Tiers.lean ====
section
/-!
DEFINITION. What happens below a partition's accesses: misses and fills of the window buffers (R111, R119), failed and
late accesses (R123, R124), stuck write-backs, scheduled loads (R116), and the host's own accesses to memory (R468,
R470).
-/

namespace Sys2Proof.Machine

/-! ### Misses and fills -/

/-- Context of the maker of an access: the task's, or the home tile's for an access of no task. -/
def makerCtx (s : State) (id part : Nat) : Ctx :=
  match taskOf s id with
  | some t => taskCtx s t
  | none => tileCtx s .e0 part

/-- Dirty mask of a write to one address: its sector (R110, R111). -/
def sectorMask (write : Bool) (va : Nat) : BitVec 16 := if write then BitVec.ofNat 16 (2 ^ (va % 0x10000 / 4096)) else 0

/-- A windowed or compressed access that misses the directory (R111, R119): it joins a fill under way, which it pins as
well (R110), takes a demand frame, or waits while every frame is pinned. With D = 0 it is served directly. -/
def windowMiss (s : State) (p va : Nat) (write : Bool) (id : Nat) (x : Xlat) : State :=
  let t := pageHome x va
  let key := frameKey x va
  let d := (grantAt s t p).d
  match frameOf s t key with
  | some (n, fr) =>
    if fr.filling then
      modFrame s t n fun y =>
        { y with waiters := insertSorted y.waiters id, dirty := y.dirty ||| sectorMask write va, pins := y.pins + 1 }
    else modFrame s t n fun y => { y with used := nextUse s t }
  | none =>
    if d = 0 then (if leafTier x.leaf = 1 then addCtr s (blkMem t) 0x0130 else s)
    else match takeDemand s t p d with
      | none => s
      | some (n, s) => assignFrame s t n
          { owner := p, kind := .demand, page := key, filling := true, dirty := sectorMask write va, waiters := [id], pins := 1 }

/-- WINDOWED_ACCESS_MISS (R111, R119). -/
def execWindowedAccessMiss (part : Fin 16) (va : BitVec 48) (write : Bool) (id : Nat) (s : State) :
    Host.Outcome State Fault Refusal :=
  .next (match translate s (makerCtx s id part.val) va.toNat write with
    | .error _ => s
    | .ok x => if leafTier x.leaf = 1 ∨ leafTier x.leaf = 3 then windowMiss s part.val va.toNat write id x else s)

/-- A fill has brought its page: the accesses that waited are served and pin the frame no longer (R110, R111). -/
def fillDone (s : State) (t : Tile) (n : Nat) : State :=
  modFrame s t n fun y => { y with filling := false, valid := true, waiters := [], pins := 0 }

/-- End every task that waits on a fill, with the fill's cause (R119, R124). -/
def failWaiters (s : State) (ids : List Nat) (cause addr : Nat) : State :=
  ids.foldl (fun s id => stopTask s id cause .stationmaster addr) s

/-- A fill fails: its frame is freed unfilled, and every task that waited on it ends with the cause (R119, R124). -/
def failFill (s : State) (t : Tile) (n : Nat) (fr : Frame) (src : FailSrc) (e : AccErr) : State :=
  failWaiters (freeFrame (failAcc s src fr.owner e) t n) fr.waiters e.cause (if e.phys then 0 else e.addr)

/-- A frame that is being filled. -/
def fillingFrame (s : State) (t : Tile) (n : Nat) : Option Frame :=
  (Table.find (s.tmem.get t).frames n).filter (·.filling)

/-- DEMAND_FILL_COMPLETE: all 64 KiB have arrived and the waiting accesses are served, or their read was uncorrectable
(R111, R124). -/
def execDemandFillComplete (t : Tile) (frame : Fin 1600) (s : State) : Host.Outcome State Fault Refusal :=
  .next (match fillingFrame s t frame.val with
    | none => s
    | some fr =>
      if 0x100000000 ≤ fr.page then s
      else match firstBadBelow s (0x10000 * fr.page) 0x10000 with
        | some b => failFill s t frame.val fr .demandFill { cause := 0x0201, addr := b, phys := true }
        | none => fillDone s t frame.val)

/-- DECOMPRESS_COMPLETE: the page enters its demand frame, or a corrupt image fails every task that waited on it and
leaves the frame unfilled (R119). -/
def execDecompressComplete (t : Tile) (part : Fin 16) (va : BitVec 48) (s : State) : Host.Outcome State Fault Refusal :=
  .next (orWait s fun s =>
    match translate s (tileCtx s t part.val) va.toNat false with
    | .error _ => s
    | .ok x =>
      let h := pageHome x va.toNat
      match frameOf s h (frameKey x va.toNat) with
      | none => s
      | some (n, fr) =>
        if !fr.filling ∨ leafTier x.leaf ≠ 3 then s
        else match readCompressed s (tileCtx s t part.val) va.toNat (x.image va.toNat) with
          | .ok page => fillDone (placePage s h n (some page)) h n
          | .error e => failFill s h n fr .decompression e)

/-! ### Failures below a maker (R123, R124) -/

/-- A load's failure: the page's stream frame is freed unfilled and no task ends (R124). -/
def failLoad (s : State) (t : Tile) (p : Nat) (frame : Nat) : State :=
  match (Table.find (s.tmem.get t).frames frame).filter fun fr => decide (fr.kind = .stream) with
  | some fr => raise (freeFrame s t frame) 0x0203 ((fr.seg.map (·.1)).getD 0) (blkMem t) p
  | none => raise s 0x0203 0 (blkMem t) p

/-- Partition of a task. -/
def partOfTask (s : State) (id : Nat) : Nat := ((taskOf s id).map (·.part)).getD 0

/-- The outcome of a failed access for its maker (R124): cause 0x0201 uncorrectable, 0x0202 late. The fill of a frame
for a compressed page is its decompression. -/
def makerFails (s : State) (pa : Nat) (m : Maker) (cause : Nat) : State :=
  let t := homeTile pa
  match m with
  | .task id _ =>
    let s := memFailure s .task (partOfTask s id) cause pa
    stopTask s id cause .core
  | .demandFill n =>
    match fillingFrame s t n.val with
    | none => s
    | some fr =>
      failFill s t n.val fr (if fr.page < 0x100000000 then .demandFill else .decompression)
        { cause := cause, addr := pa, phys := true }
  | .mmuWalk id =>
    let s := memFailure s .mmuWalk (partOfTask s id) cause pa
    stopTask s id cause
  | .stageLoad id n =>
    let p := partOfTask s id
    failLoad (memFailure s .stageLoad p cause pa) t p n.val
  | .scheduledLoad p n => failLoad (memFailure s .scheduledLoad p.val cause pa) t p.val n.val
  | .writeBack n =>
    let p := ((Table.find (s.tmem.get t).frames n.val).map (·.owner)).getD 0
    addCtr (memFailure s .writeBack p cause pa) (blkMem t) 0x0120
  | .hostRead => { memFailure s .host 0 cause pa with readPoison := true }
  | .hostWrite data =>
    let (performed, s) := freeChoice (memFailure s .host 0 cause pa)
    if performed then storePa s pa (data.take (64 - pa % 64)) else s

/-- Whether a maker reads: data that arrives for its late access is discarded (R123). -/
def makerReads : Maker → Bool
  | .task _ write => !write
  | .writeBack _ => false
  | .hostWrite _ => false
  | _ => true

/-- STACKED_ACCESS_LATE (R123, R124). Whether a late host write was performed or dropped is open: a free choice
(assumption log 38). -/
def execStackedAccessLate (pa : BitVec 48) (m : Maker) (s : State) : Host.Outcome State Fault Refusal :=
  if isStacked pa.toNat then
    let s := if makerReads m then addCtr s (blkMem (homeTile pa.toNat)) 0x0110 else s
    .next (makerFails s pa.toNat m 0x0202)
  else .next s

/-- UNCORRECTABLE_READ (R124, R546). -/
def execUncorrectableRead (pa : BitVec 48) (m : Maker) (s : State) : Host.Outcome State Fault Refusal :=
  if isStacked pa.toNat ∧ makerReads m then .next (makerFails s pa.toNat m 0x0201) else .next s

/-- WRITE_BACK_STUCK: after three retries the frame is held outside its partition's counts, and its pseudo-channel is
retired (R124, R550). -/
def execWriteBackStuck (t : Tile) (frame : Fin 1600) (pc : Fin 512) (s : State) : Host.Outcome State Fault Refusal :=
  match Table.find (s.tmem.get t).frames frame.val with
  | some fr =>
    if fr.valid ∧ fr.dirty ≠ 0 ∧ fr.stuck.isNone then
      let s := modFrame s t frame.val fun y => { y with stuck := some pc.val }
      let s := raise s 0x0204 pc.val (blkMem t) fr.owner
      .next (failPseudoChannel s t pc.val)
    else .next s
  | none => .next s

/-! ### Loads that waited -/

/-- SCHEDULE_NEXT_LOAD (R116). -/
def execScheduleNextLoad (t : Tile) (part : Fin 16) (s : State) : Host.Outcome State Fault Refusal :=
  .next (orWait s fun s => scheduleStep s t part.val)

/-! ### Host accesses -/

/-- Data answered to a read of the host. -/
def setRead (s : State) (bs : List Byte) (poison : Bool) : State := { s with readData := bs, readPoison := poison }

/-- Whether a physical address lies in a reserve that is set aside (R550). -/
def inReserve (s : State) (pa : Nat) : Bool := dictVal s 0x3030 0 == 1 && meetsReserve pa 1

/-- Whether the host reaches a stacked address: West memory lies behind the Concourse (R455). -/
def hostReachesPa (s : State) (pa : Nat) : Bool := wingOf (homeTile pa) == .east || concourseUp s

/-- An access by physical address uses the frame that serves its page (R108, R111). -/
def useFrame (s : State) (pa : Nat) : State :=
  if frameHolds s pa then
    let t := homeTile pa
    s.modMem t fun m => { m with frames := m.frames.map fun f =>
      if f.2.valid && f.2.page == pa / 0x10000 then (f.1, { f.2 with used := nextUse s t }) else f }
  else s

/-- One piece of a host read: bytes, and whether they are poisoned (R124, R455, R470, R550). -/
def hostReadPiece (s : State) (pa n : Nat) : State × List Byte × Bool :=
  if !isStacked pa ∨ inReserve s pa then (s, List.replicate n 0, false)
  else if !hostReachesPa s pa then (s, List.replicate n 0, true)
  else
  let s := useFrame (wakeStacks s pa n) pa
  match registered s false pa n, firstBad s pa n with
    | some w, _ => ({ s with heldAt := some (.junction w) }, [], false)
    | none, some x => (memFailure s .host 0 0x0201 x, memBytes s.mem pa n, true)
    | none, none => (s, memBytes s.mem pa n, false)

/-- Store one piece of a host write, unless it must wait (R412). -/
def hostStore (s : State) (pa : Nat) (bs : List Byte) : State :=
  match registered s true pa bs.length with
  | some w => { s with heldAt := some (.junction w) }
  | none => storePa (useFrame s pa) pa bs

/-- One piece of a host write (R455, R470, R550). -/
def hostWritePiece (s : State) (pa : Nat) (bs : List Byte) : State :=
  if !isStacked pa ∨ inReserve s pa then s
  else if !hostReachesPa s pa then addCtr s (blkLnk .east) 0x0928
  else hostStore s pa bs

/-- Read pieces of physical memory for the host. -/
def hostReadPieces : List (Nat × Nat) → State → State × List Byte × Bool
  | [], s => (s, [], false)
  | p :: ps, s =>
    let (s, b, x) := hostReadPiece s p.1 p.2
    let (s, bs, y) := hostReadPieces ps s
    (s, b ++ bs, x || y)

/-- Write pieces of physical memory for the host. -/
def hostWritePieces (pa : Nat) (d : List Byte) (ps : List (Nat × Nat)) (s : State) : State :=
  ps.foldl (fun s p => hostWritePiece s p.1 ((d.drop (p.1 - pa)).take p.2)) s

/-- HOST_CXL_MEM_ACCESS: CXL.mem or PF0 BAR4 by device physical address (R470). The two stacked ranges follow each
other, so one base serves both halves. -/
def execHostCxlMemAccess (dpa : BitVec 41) (len : Fin 65) (write : Option (List Byte)) (s : State) :
    Host.Outcome State Fault Refusal :=
  if !hostReaches s .pf0 then .next s
  else
    let pa := 0x010000000000 + dpa.toNat
    .next (orWait s fun s =>
      match write with
      | none =>
        let (s, bs, x) := hostReadPieces (pieces 64 3 pa len.val) s
        setRead s bs x
      | some d => hostWritePieces pa d (pieces 64 3 pa d.length) s)

/-- Context of a function's window accesses: the configuration at EIO. -/
def windowCtx (s : State) (p : Nat) : Ctx := { part := p, tile := .e0, copy := cfgEio s }

/-- FN_STAT.WIN_FAULT is set (R468). -/
def winFault (s : State) (f : Func) : State := s.modPage f fun g => { g with winFault := true }

/-- An error of a window access: a translation fault sets WIN_FAULT, memory that lies behind the Concourse while it is
down does not (R455, R468). -/
def failWindow (s : State) (f : Func) (e : AccErr) : State :=
  let s := failAcc s .host 0 e
  if e.phys ∧ !e.walk ∨ e.wait.isSome ∨ e.cause = 0x0306 ∨ e.cause = 0x0206 then s else winFault s f

/-- Read pieces of a partition window: a fault poisons the data and sets WIN_FAULT; an uncorrectable read poisons it
(R124, R468). -/
def windowReadPieces (c : Ctx) (f : Func) : List (Nat × Nat) → State → State × List Byte × Bool
  | [], s => (s, [], false)
  | p :: ps, s =>
    let (s, b, x) : State × List Byte × Bool :=
      match loadPiece s c p.1 p.2 with
      | (s, .error e) => (failWindow s f e, List.replicate p.2 0, true)
      | (s, .ok bs) => (s, bs, false)
    let (s, bs, y) := windowReadPieces c f ps s
    (s, b ++ bs, x || y)

/-- Write pieces of a partition window: a piece that faults is discarded and sets WIN_FAULT (R468); one for memory behind
the Concourse while it is down is discarded and counted (R455). -/
def windowWritePieces (c : Ctx) (f : Func) (va : Nat) (d : List Byte) (ps : List (Nat × Nat)) (s : State) : State :=
  ps.foldl (fun s p =>
    match savePieces s c va d [p] with
    | (s, none) => s
    | (s, some e) => if e.cause = 0x0306 then addCtr s (blkLnk .east) 0x0928 else failWindow s f e) s

/-- PARTITION_WINDOW_ACCESS: offset o of a VF's BAR2 is partition VA WIN_VA + o (R468). -/
def execPartitionWindowAccess (part : Fin 16) (offset : BitVec 36) (len : Fin 65) (write : Option (List Byte))
    (s : State) : Host.Outcome State Fault Refusal :=
  let f : Func := .vf part
  if !hostReaches s f then .next s
  else
    let c := windowCtx s part.val
    let va := ((pageOf s f).winVa.toNat + offset.toNat) % 2 ^ 48
    .next (orWait s fun s =>
      match write with
      | none =>
        let (s, bs, x) := windowReadPieces c f (pieces 64 3 va len.val) s
        setRead s bs x
      | some d => windowWritePieces c f va d (pieces 64 3 va d.length) s)

end Sys2Proof.Machine
end

