-- ==== Sys2Proof/Machine/Scratch.lean ====
section
/-!
DEFINITION. The ports of a core as they meet its banks (R73, R76, R78, R84, R90 to R92): the class a phase gives a bank,
accesses by class, and the violations of a plan.
-/

namespace Sys2Proof.Machine

/-- Code of a port class (R73). -/
def portClassCode : PortClass → Nat
  | .idle => 0
  | .engine => 1
  | .dma => 2
  | .network => 3

/-- The task that holds a core, and the core's rank in it. -/
def holderOf (s : State) (i : Nat) : Option (Task × Nat) :=
  (s.tasks.find? fun t => t.cores.contains i).bind fun t => (findIdx (fun c => c == i) t.cores 0).map fun r => (t, r.1)

/-- Phase in force on a core and the class it gives a bank; network class where no phase is active (R78). -/
def bankOwner (s : State) (i bank : Nat) : Nat × Nat :=
  match holderOf s i with
  | some (t, r) =>
    if t.plan.isEmpty then (0, 3) else let p := Table.get 0 t.phases r; (p, phaseClass t.plan p bank)
  | none => (0, 3)

/-- Offset of a core's register block in SCH_ (R94). -/
def coreBlock (n : Nat) : Nat := 0x100000 + 0x400 * n

/-- Context of the core of a rank. -/
def coreCtx (s : State) (t : Task) (rank : Nat) : Ctx :=
  { part := t.part, tile := coreTile (nth 0 t.cores rank), copy := taskCfg s t }

/-! ### Violations -/

/-- Intruding accesses of a class to one bank of a core: each is counted, and the first since CONF_CLR is captured
(R90, R94). -/
def noteIntrusion (s : State) (i bank row cls n : Nat) (write sameRow : Bool) : State :=
  let (phase, owner) := bankOwner s i bank
  let t := coreTile i
  let k := i % 336
  let s := addCtr s (blkSch t) (coreBlock k + 0x100 + 8 * bank) n
  if flg (Table.get 0 (s.sch.get t).confFirst k) 31 then s
  else
    let v := pack [(1, 31), (phase, 28), (owner, 26), (cls, 24), (bank, 18), (b2n sameRow, 17), (b2n write, 16), (row, 0)]
    s.modSch t fun y => { y with confFirst := Table.set 0 y.confFirst k v }

/-- The task that made an intruding access: it faults in strict mode, and its record reports the violation otherwise
(R92). -/
def settleIntrusion (s : State) (id i : Nat) : State :=
  match taskOf s id with
  | none => s
  | some t => if t.strict then stopTask s id 0x0121 .core 0 i else s.modTask id fun y => { y with planv := true }

/-! ### Accesses by class -/

/-- Bytes of one access of a class: one row, or 32 B of the network port (R73, R90). -/
def accessUnit (c : PortClass) : Nat := if c = .network then 32 else 64

/-- Accesses of a unit that the part of a range in one bank takes, and the row of the first (R72, R90). -/
def accessesIn (unit off n bank : Nat) : Nat × Nat :=
  let lo := max off (0x10000 * bank)
  let hi := min (off + n) (0x10000 * bank + 0x10000)
  if lo < hi then ((hi - 1) / unit + 1 - lo / unit, lo % 0x10000 / 64) else (0, 0)

/-- An access of a class to a range of a core's window: every bank of another class is intruded on (R84, R90). The state,
and whether the access broke the plan. Accumulator memory lies outside the plan (R89). -/
def portAccess1 (s : State) (i : Nat) (c : PortClass) (write : Bool) (r : Nat × Nat) : State × Bool :=
  (banksIn r.1 r.2).foldl (fun a b =>
    if (bankOwner a.1 i b).2 = portClassCode c then a
    else
      let k := accessesIn (accessUnit c) r.1 r.2 b
      (noteIntrusion a.1 i b k.2 (portClassCode c) k.1 write false, true)) (s, false)

/-- An access of a class to ranges of a core's window, made for a task: the state, and whether it broke the plan. -/
def portAccess (s : State) (i : Nat) (c : PortClass) (write : Bool) (rs : List (Nat × Nat)) : State × Bool :=
  rs.foldl (fun a r => let x := portAccess1 a.1 i c write r; (x.1, a.2 || x.2)) (s, false)

/-- Whether the phase in force on a core gives some bank of a range to the engine class (R79). -/
def meetsEngine (s : State) (i : Nat) (r : Nat × Nat) : Bool := (banksIn r.1 r.2).any fun b => (bankOwner s i b).2 == 1

/-- A remote write to ranges of a core's window through its network port (R84, R86): vector and network accesses wait
while an accumulator region is busy (R89), so transfers that write it complete first. -/
def netWrite (s : State) (i off : Nat) (bs : List Byte) : State × Bool :=
  let s := closeTransfers s (coreTile i) fun y =>
    y.core == i && y.write && y.ranges.any fun r => (regionsIn r.1 r.2).any (regionsIn off bs.length).contains
  let r := portAccess1 s i .network true (off, bs.length)
  (writeWindow r.1 i off bs, r.2)

/-- A strided read: four segments of 16 B at base + i × S make one delivery of 64 B (R83). No descriptor of a loop task
may select it (R165). -/
def stridedRead (s : State) (i base step : Nat) : List Byte :=
  (List.range 4).foldr (fun k l => windowBytes s i (base + k * step) 16 ++ l) []

/-- Whether the segments of a strided read lie in a task's banks, S being a multiple of 16 B (R83): otherwise the task
fails at issue with cause 0x0102. -/
def stridedFits (e : Entry) (base step : Nat) : Bool :=
  base % 16 == 0 && step % 16 == 0 && decide (0x10000 * hBankFirst e ≤ base ∧ base + 3 * step + 16 ≤ 0x10000 * (hBankFirst e + hBankCount e))

/-! ### Staging frames (R184, R185) -/

/-- The staging frames of a task on a tile, by rising number. -/
def stagingFrames (s : State) (t : Tile) (id : Nat) : List Nat :=
  ((s.tmem.get t).frames.filter fun f => f.2.task == some id).map (·.1)

/-- Reserve staging frames for a task on a tile; they stand outside the directory of R108. -/
def reserveStaging (s : State) (t : Tile) (part id n : Nat) : State :=
  (List.range n).foldl (fun s _ =>
    match spareFrame s t with
    | none => s
    | some f => assignFrame s t f { owner := part, kind := .staging, task := some id }) s

/-- Bytes fetched into staging frames, 64 KiB to each. -/
def stageBytes (s : State) (t : Tile) (frames : List Nat) (bs : List Byte) : State :=
  (frames.zip (chunks 0x10000 bs.length bs)).foldl (fun s p => writeFrame s t p.1 p.2) s

/-! ### Phases (R76) -/

/-- Banks whose class differs between two phases of a plan. -/
def changedBanks (plan : List Byte) (p q : Nat) : List Nat :=
  (List.range 40).filter fun b => phaseClass plan p b != phaseClass plan q b

/-- A core of a task enters a phase: the banks whose class changes are handed over once no access of their old class is
outstanding (R76). -/
def enterPhase (s : State) (id rank phase : Nat) : State :=
  match taskOf s id with
  | none => s
  | some t =>
    let s := handOver s (nth 0 t.cores rank) (changedBanks t.plan (Table.get 0 t.phases rank) phase)
    s.modTask id fun y => { y with phases := Table.insert y.phases rank phase }

/-! ### Intruding accesses that meet their owner (R90, R91) -/

/-- Whether an access to a row writes it. -/
def rowWrites : RowAccess → Bool
  | .read => false
  | .write _ _ => true

/-- Whether an intruding access met its owner's under R91: a read and a write, or two writes. -/
def metSameRow (x : Intrusion) : Bool := x.met.any fun o => rowWrites x.access || rowWrites o

/-- Window offset of an intrusion's row (R72). -/
def rowOffset (x : Intrusion) : Nat := 0x10000 * x.bank.val + 64 * x.row.val

/-- Perform an access to a row: a write stores its bytes of the row. -/
def storeRow (s : State) (i off : Nat) : RowAccess → State
  | .read => s
  | .write b d => writeWindow s i (off + b.val) (d.take (64 - b.val))

/-- An intruding access and the owner's access that met it: reads return the row as it stood before any write, and of two
writes the intruder's bytes remain (R91). -/
def performIntrusion (s : State) (i : Nat) (x : Intrusion) : State :=
  let old := windowBytes s i (rowOffset x) 64
  let s := storeRow (storeRow s i (rowOffset x) (x.met.getD .read)) i (rowOffset x) x.access
  if x.access = .read ∨ x.met = some .read then { s with portData := old } else s

/-- INTRUDING_ACCESS_FORCED (R90 to R92): the access is performed, counted and captured; the task that made it faults in
strict mode and is marked otherwise. A core of the other wing is reached over the Concourse alone (R32). -/
def execIntrudingAccessForced (x : Intrusion) (s : State) : Host.Outcome State Fault Refusal :=
  let i := coreIndex x.tile x.core.val
  .next (match taskOf s x.task with
    | none => s
    | some t =>
      if (bankOwner s i x.bank.val).2 = portClassCode x.cls ∨ x.cls = .idle ∨ !t.dispatched then s
      else if wingOf x.tile ≠ t.wing ∧ !concourseUp s then stopTask s t.id 0x0306 .core 0 i
      else
        let s := noteIntrusion s i x.bank.val x.row.val (portClassCode x.cls) 1 (rowWrites x.access) (metSameRow x)
        settleIntrusion (performIntrusion s i x) t.id i)

end Sys2Proof.Machine
end

