-- ==== Sys2Proof/Machine/Sfu.lean ====
section
/-!
DEFINITION. The special-function unit (R265 to R274) in both classes, with correctly rounded tables (R271), and the
root-mean-square normalisation (R278 to R281).
-/

namespace Sys2Proof.Machine

/-! ### Correctly rounded constants -/

/-- The greatest number below 2^n that satisfies a test true on an initial segment, found bit by bit. -/
def bitSearch (p : Nat → Bool) : Nat → Nat → Nat
  | 0, acc => acc
  | n + 1, acc => bitSearch p n (if p (acc + 2 ^ n) then acc + 2 ^ n else acc)

/-- FP32 nearest to a positive real given as floor(x × 2^s) when the real is no multiple of 2^-s, or is one that
FP32 represents: the sticky half unit decides no tie (R271). -/
def nearestOf (floorScaled s : Nat) (neg : Bool) : Word32 :=
  toF32 (.fin neg (2 * floorScaled + 1) (-(s : Int) - 1))

/-- FP32 nearest to the rational p / q (R271), exact below the sticky bit. -/
def nearestRat (p q : Nat) (neg : Bool) : Word32 :=
  let n := p * 2 ^ 80 / q
  toF32 (.fin neg (2 * n + (if p * 2 ^ 80 % q = 0 then 0 else 1)) (-81))

/-- floor(2^32 × 2^(a/d)) for 0 ≤ a < d, by exact comparison of powers. -/
def pow2Frac (a d : Nat) : Nat := bitSearch (fun n => decide (n ^ d ≤ 2 ^ (a + 32 * d))) 33 0

/-- FP32 nearest to 2^(a/d), a any integer (R271). -/
def nearestPow2 (a : Int) (d : Nat) : Word32 :=
  let r := (a % (d : Int)).toNat
  let k := a / (d : Int)
  if r = 0 then toF32 (.fin false 1 k)
  else toF32 ((Val.fin false (2 * pow2Frac r d + 1) (-33)).scale k)

/-- FP32 nearest to (p/q)^(-1/2) (R271). -/
def nearestRsqrt (p q : Nat) : Word32 :=
  -- floor(2^64 (q/p)^(1/2))
  let n := bitSearch (fun n => decide (n ^ 2 * p ≤ q * 2 ^ 128)) 66 0
  toF32 (.fin false (2 * n + (if n ^ 2 * p = q * 2 ^ 128 then 0 else 1)) (-65))

/-- Digits of log2 of m / 2^255 in [1, 2), by repeated squaring. -/
def log2Digits : Nat → Nat → Nat → Nat
  | 0, _, acc => acc
  | n + 1, m, acc =>
    let s := m * m / 2 ^ 255
    if 2 ^ 256 ≤ s then log2Digits n (s / 2) (2 * acc + 1) else log2Digits n s (2 * acc)

/-- floor(2^96 log2(m)) of m in [1, 2) given as p / q. -/
def log2Fixed (p q : Nat) : Nat := log2Digits 96 (p * 2 ^ 255 / q) 0

/-- FP32 nearest to log2(p/q) for p/q in [1, 2) (R271). -/
def nearestLog2 (p q : Nat) : Word32 := if p = q then 0 else nearestOf (log2Fixed p q) 96 false

/-- Fixed-point arctan(1/n) with 256 fraction bits. -/
def atanInv (n : Nat) : Nat → Nat → Nat → Int → Int
  | 0, _, _, acc => acc
  | f + 1, pw, k, acc => atanInv n f (pw / (n * n)) (k + 2) (if k % 4 = 1 then acc + (pw / k : Nat) else acc - (pw / k : Nat))

/-- π with 256 fraction bits (Machin's formula; the last bits are inexact). -/
def piFixed : Int :=
  16 * atanInv 5 64 (2 ^ 256 / 5) 1 0 - 4 * atanInv 239 24 (2 ^ 256 / 239) 1 0

/-- ln 2 with 256 fraction bits: the sum of 1 / (k 2^k). -/
def ln2Fixed : Nat → Nat → Nat
  | 0, acc => acc
  | k + 1, acc => ln2Fixed k (acc + 2 ^ 256 / ((k + 1) * 2 ^ (k + 1)))

/-- ln 2 × 2^256. -/
def ln2 : Nat := ln2Fixed 256 0

/-- Taylor series of sine (start 1) or cosine (start 0) in 256-bit fixed point. -/
def trigSeries (x2 : Int) : Nat → Int → Nat → Int → Int
  | 0, _, _, acc => acc
  | f + 1, term, k, acc =>
    trigSeries x2 f (-(term * x2 / ((2 ^ 256 : Nat) : Int) / (((k + 1) * (k + 2) : Nat) : Int))) (k + 2) (acc + term)

/-- FP32 nearest to sin(2πj/4096), 0 ≤ j ≤ 512 (R271). -/
def nearestSin (j : Nat) : Word32 :=
  if j = 0 then 0
  else
    let x := piFixed * j / 2048
    nearestOf ((trigSeries (x * x / ((2 ^ 256 : Nat) : Int)) 32 x 1 0).toNat / 2 ^ 128) 128 false

/-- FP32 nearest to cos(2πj/4096), 0 ≤ j ≤ 512 (R271). -/
def nearestCos (j : Nat) : Word32 :=
  if j = 0 then 0x3F800000
  else
    let x := piFixed * j / 2048
    nearestOf ((trigSeries (x * x / ((2 ^ 256 : Nat) : Int)) 32 ((2 ^ 256 : Nat) : Int) 0 0).toNat / 2 ^ 128) 128 false

/-- FP32 nearest to a real given with 256 fraction bits. -/
def nearestFixed (x : Nat) (neg : Bool) : Word32 := nearestOf (x / 2 ^ 128) 128 neg

/-! ### Arithmetic without flags, one rounding each -/

/-- round(a × b + c). -/
def fmaR (a b c : Word32) : Word32 := (f32Fma a b c).1

/-- round(a × b). -/
def mulR (a b : Word32) : Word32 := (f32Mul a b).1

/-- round(a + b). -/
def addR (a b : Word32) : Word32 := (f32Add a b).1

/-- FP32 of 1. -/
def one32 : Word32 := 0x3F800000

/-- FP32 of -1. -/
def negOne32 : Word32 := 0xBF800000

/-- Floor of m × 2^e. -/
def floorOf (v : Val) : Int :=
  match v with
  | .fin n m e =>
    if 0 ≤ e then (let k : Int := (m * 2 ^ e.toNat : Nat); if n then -k else k)
    else
      let d : Int := (2 ^ (-e).toNat : Nat)
      (if n then -(m : Int) else m) / d
  | _ => 0

/-- Nearest integer, ties to even. -/
def rintOf (v : Val) : Int :=
  match v with
  | .fin n m e => let k : Int := rneUnits m e 0; if n then -k else k
  | _ => 0

/-- Split a positive value as 2^k × m with m in [1, 2). -/
def splitVal (v : Val) : Int × Val := let k := v.expo; (k, v.scale (-k))

/-- Exact difference. -/
def Val.minus (a b : Val) : Val := a.add b.negate

/-! ### The piecewise-linear class -/

/-- One segment of R270: round(u × (Y1 − Y0) + Y0), the difference exact. -/
def pwl (y0 y1 : Word32) (u : Val) : Word32 := toF32 ((u.mul ((f32 y1).minus (f32 y0))).add (f32 y0))

/-- Segment number and offset of t over segments of width 2^-h from lo (R270). -/
def segment (t : Val) (lo : Int) (h : Int) : Nat × Val :=
  let x := (t.minus (Val.ofInt lo)).scale h
  let j := floorOf x
  (j.toNat, x.minus (Val.ofInt j))

/-- Octant sine in the piecewise-linear class. -/
def pwlSin (a : Val) : Word32 :=
  let (j, u) := segment a 0 12
  if j = 512 then nearestSin 512 else pwl (nearestSin j) (nearestSin (j + 1)) u

/-- Octant cosine in the piecewise-linear class. -/
def pwlCos (a : Val) : Word32 :=
  let (j, u) := segment a 0 12
  if j = 512 then nearestCos 512 else pwl (nearestCos j) (nearestCos (j + 1)) u

/-! ### The iterative class -/

/-- n! for the constants of R273. -/
def fact : Nat → Nat
  | 0 => 1
  | n + 1 => (n + 1) * fact n

/-- c_i of R273: round((ln 2)^i / i!). -/
def expC (i : Nat) : Word32 := nearestFixed (ln2 ^ i / 2 ^ (256 * (i - 1)) / fact i) false

/-- d_i of R273: round((−1)^(i+1) / (i ln 2)). -/
def logD (i : Nat) : Word32 := nearestFixed (2 ^ 512 / (i * ln2)) (i % 2 == 0)

/-- e[j] of R273. -/
def logE (j : Nat) : Word32 := nearestRat 128 (96 + j) false

/-- l[j] of R273: −log2 of the stored e[j], rounded. -/
def logL (j : Nat) : Word32 :=
  if j = 32 then 0
  else match f32 (logE j) with
    | .fin _ m e =>
      let k := (flog2 m : Int) + e
      let frac := log2Fixed m (2 ^ flog2 m)
      -- −(k + frac/2^96), frac truncated
      let lo : Int := k * ((2 ^ 96 : Nat) : Int) + frac
      if lo < 0 then toF32 (.fin false (2 * (-lo).toNat - (if frac = 0 then 0 else 1)) (-97))
      else toF32 (.fin true (2 * lo.toNat + (if frac = 0 then 0 else 1)) (-97))
    | _ => 0

/-- Octant polynomials of R273 over v and v². -/
def iterSinCos (a : Val) : Word32 × Word32 :=
  let piR := nearestFixed piFixed.toNat false
  let twoPi := toF32 ((f32 piR).scale 1)
  let v := mulR twoPi (toF32 a)
  let v2 := mulR v v
  let k (neg : Bool) (n : Nat) : Word32 := nearestRat 1 (fact n) neg
  let s := mulR v (fmaR (fmaR (fmaR (fmaR (k false 9) v2 (k true 7)) v2 (k false 5)) v2 (k true 3)) v2 one32)
  let c := fmaR (fmaR (fmaR (fmaR (fmaR (k true 10) v2 (k false 8)) v2 (k true 6)) v2 (k false 4)) v2 (k true 2)) v2 one32
  (s, c)

/-! ### The six functions -/

/-- Canonical NaN of FP32. -/
def nan32 : Word32 := 0x7FC00000

/-- An infinity of FP32. -/
def inf32 (neg : Bool) : Word32 := if neg then 0xFF800000 else 0x7F800000

/-- A zero of FP32. -/
def zero32 (neg : Bool) : Word32 := if neg then 0x80000000 else 0

/-- EXP2 (R267 to R273). -/
def sfExp2 (iter : Bool) (x : Word32) : Word32 × AFlags :=
  match f32 x with
  | .nan => (nan32, noFlags)
  | .inf n => (if n then zero32 false else inf32 false, noFlags)
  | .fin n m e =>
    let v : Val := .fin n m e
    if m = 0 then (one32, noFlags)
    else if magGe m e 1 9 then
      if n then (zero32 false, noFlags) else (inf32 false, flagInf)
    else
      let k := if iter then rintOf v else floorOf v
      let f := v.minus (Val.ofInt k)
      let r : Word32 :=
        if f.isZero then toF32 (.fin false 1 k)
        else if iter then
          let j := rintOf (f.scale 6)
          let g := toF32 (f.minus ((Val.ofInt j).scale (-6)))
          let p := fmaR (fmaR (fmaR (expC 3) g (expC 2)) g (expC 1)) g one32
          toF32 (((f32 (nearestPow2 j 64)).mul (f32 p)).scale k)
        else
          let (j, u) := segment f 0 9
          toF32 ((f32 (pwl (nearestPow2 j 512) (nearestPow2 (j + 1) 512) u)).scale k)
      (r, flagIf (f32 r).isInf flagInf)

/-- LG2 (R267 to R273). -/
def sfLg2 (iter : Bool) (x : Word32) : Word32 × AFlags :=
  match f32 x with
  | .nan => (nan32, noFlags)
  | .inf n => if n then (nan32, flagNan) else (inf32 false, noFlags)
  | .fin n m e =>
    if m = 0 then (inf32 true, flagInf)
    else if n then (nan32, flagNan)
    else
      let (k0, m0) := splitVal (.fin false m e)
      if m0.lt (.fin false 3 (-1)) && isPow2 m then (toF32 (Val.ofInt k0), noFlags)
      else if iter then
        let up := !(m0.lt (.fin false 3 (-1)))
        let k := if up then k0 + 1 else k0
        let mm := if up then m0.scale (-1) else m0
        let j := (floorOf ((mm.minus (.fin false 3 (-2))).scale 7)).toNat
        let r := fmaR (toF32 mm) (logE j) negOne32
        let p := mulR r (fmaR (fmaR (fmaR (logD 4) r (logD 3)) r (logD 2)) r (logD 1))
        (addR (toF32 ((Val.ofInt k).add (f32 (logL j)))) p, noFlags)
      else
        let (j, u) := segment m0 1 9
        let y := pwl (nearestLog2 (512 + j) 512) (if j = 511 then one32 else nearestLog2 (513 + j) 512) u
        (toF32 ((Val.ofInt k0).add (f32 y)), noFlags)

/-- RCP (R267 to R273). -/
def sfRcp (iter : Bool) (x : Word32) : Word32 × AFlags :=
  match f32 x with
  | .nan => (nan32, noFlags)
  | .inf n => (zero32 n, noFlags)
  | .fin n m e =>
    if m = 0 then (inf32 n, flagInf)
    else
      let (k, m0) := splitVal (.fin false m e)
      let y : Word32 :=
        if isPow2 m then one32
        else if iter then
          let nm := toF32 m0.negate
          let j := (floorOf ((m0.minus (Val.ofInt 1)).scale 8)).toNat
          let y0 := nearestRat 512 (512 + 2 * j + 1) false
          let y1 := fmaR y0 (fmaR nm y0 one32) y0
          fmaR y1 (fmaR nm y1 one32) y1
        else
          let (j, u) := segment m0 1 10
          pwl (nearestRat 1024 (1024 + j) false) (nearestRat 1024 (1025 + j) false) u
      let v := (f32 y).scale (-k)
      let r := toF32 (if n then v.negate else v)
      (r, flagIf (f32 r).isInf flagInf)

/-- RSQRT (R267 to R273). -/
def sfRsqrt (iter : Bool) (x : Word32) : Word32 × AFlags :=
  match f32 x with
  | .nan => (nan32, noFlags)
  | .inf n => if n then (nan32, flagNan) else (zero32 false, noFlags)
  | .fin n m e =>
    if m = 0 then (inf32 n, flagInf)
    else if n then (nan32, flagNan)
    else
      let k0 := (Val.fin false m e).expo
      let k := k0 / 2
      let m0 := (Val.fin false m e).scale (-(2 * k))
      let y : Word32 :=
        if isPow2 m && decide (k0 % 2 = 0) then one32
        else if iter then
          let j := (floorOf ((m0.minus (Val.ofInt 1)).scale 7)).toNat
          let mw := toF32 m0
          let it (y : Word32) : Word32 :=
            let h := mulR mw y
            let z := toF32 (((f32 h).negate.mul (f32 y)).add (Val.ofInt 1))
            fmaR (toF32 ((f32 y).scale (-1))) z y
          it (it (nearestRsqrt (256 + 2 * j + 1) 256))
        else if m0.lt (Val.ofInt 2) then
          let (j, u) := segment m0 1 9
          pwl (nearestRsqrt (512 + j) 512) (nearestRsqrt (513 + j) 512) u
        else
          let (j, u) := segment m0 2 8
          pwl (nearestRsqrt (512 + j) 256) (nearestRsqrt (513 + j) 256) u
      (toF32 ((f32 y).scale (-k)), noFlags)

/-- Octant sine of the class. -/
def octSin (iter : Bool) (a : Val) : Word32 := if iter then (iterSinCos a).1 else pwlSin a

/-- Octant cosine of the class. -/
def octCos (iter : Bool) (a : Val) : Word32 := if iter then (iterSinCos a).2 else pwlCos a

/-- Sign change of an FP32 word that is no NaN. -/
def flipIf (n : Bool) (w : Word32) : Word32 := if n then w ^^^ 0x80000000 else w

/-- SIN2PI and COS2PI of one argument (R265 to R273). -/
def sfSinCos (iter : Bool) (x : Word32) : (Word32 × Word32) × AFlags :=
  match f32 x with
  | .nan => ((nan32, nan32), noFlags)
  | .inf _ => ((nan32, nan32), flagNan)
  | .fin n m e =>
    let v : Val := .fin n m e
    if m = 0 then ((x, one32), noFlags)
    else
      let k := rintOf v
      let r := v.minus (Val.ofInt k)
      let quarter : Val := .fin false 1 (-2)
      let half : Val := .fin false 1 (-1)
      let eighth : Val := .fin false 1 (-3)
      if r.isZero then ((zero32 false, one32), noFlags)
      else
        let sg := r.lt (Val.ofInt 0)
        let a := r.mag
        if !(a.lt half) then ((zero32 n, negOne32), noFlags)
        else if a = quarter || (!(a.lt quarter) && !(quarter.lt a)) then ((flipIf sg one32, zero32 false), noFlags)
        else
          let tg := quarter.lt a
          let b := if tg then half.minus a else a
          let low := !(eighth.lt b)
          let s := if low then octSin iter b else octCos iter (quarter.minus b)
          let c := if low then octCos iter b else octSin iter (quarter.minus b)
          ((flipIf sg s, flipIf tg c), noFlags)

/-! ### Root-mean-square normalisation -/

/-- The merge tree of R279 over n values, with fuel for its depth. -/
def meanTree : Nat → List Word32 → Word32
  | 0, l => nth 0 l 0
  | f + 1, l =>
    let cnt := l.length
    if cnt ≤ 1 then nth 0 l 0
    else
      let ca := 2 ^ flog2 (cnt - 1)
      let a := meanTree f (l.take ca)
      let b := meanTree f (l.drop ca)
      let wb := nearestRat (cnt - ca) cnt false
      fmaR (f32Sub b a).1 wb a

/-- What an RMS row computed, with the two counters it may add to (R281). -/
structure RmsOut where
  res : List Word32
  flags : AFlags := 0
  zeroRow : Bool := false
  noScale : Bool := false
deriving DecidableEq, Repr

/-- One RMS row (R278 to R281): finished values, BF16 weights widened, epsilon. An ep whose scaling leaves the FP32 range
selects the unscaled form of R278 and sets no INF: it is a test value that reaches no result (DESIGN CHOICE, assumption
log 125). -/
def rmsRow (iter : Bool) (y wt : List Word32) (eps : Word32) : RmsOut :=
  if y.any fun w => !(f32 w).isFin then { res := y.map fun _ => nan32, flags := flagNan }
  else
    let ex := blockExpo (y.map f32)
    let zr := ex.isNone
    let e : Int := ex.getD 0
    let z := y.map fun w => toF32 ((f32 w).scale (-e))
    let sq := z.map fun w => mulR w w
    let ms := meanTree 32 sq
    let ep := toF32 ((f32 eps).scale (-(2 * e)))
    let apply (xs : List Word32) (sc : Word32) : List Word32 × AFlags :=
      ((xs.zip wt).map fun p =>
        let a := f32Mul p.1 sc
        let b := f32Mul a.1 p.2
        (b.1, a.2 ||| b.2)).foldr (fun p acc => (p.1 :: acc.1, p.2 ||| acc.2)) ([], noFlags)
    if (f32 ep).isInf then
      let sc := sfRsqrt iter eps
      let r := apply y sc.1
      { res := r.1, flags := r.2 ||| sc.2, zeroRow := zr, noScale := true }
    else
      let den := (f32Add ms ep).1
      let sc : Word32 × AFlags := if den = 0 then (0, noFlags) else sfRsqrt iter den
      let r := apply z sc.1
      { res := r.1, flags := r.2 ||| sc.2, zeroRow := zr }

end Sys2Proof.Machine
end

