-- ==== Sys2Proof/Machine/Loop.lean ====
section
/-!
DEFINITION. Loop tasks as they are issued (R162 to R175, R180 to R187): the body and its checks in the order of R187.
-/

namespace Sys2Proof.Machine

/-! ### The body -/

/-- A level entry (R164). -/
structure Level where
  role : Nat
  aS : Nat
  bS : Nat
  oS : Nat
deriving DecidableEq, Repr

/-- An operand descriptor (R165). -/
structure Opnd where
  fmt : Nat
  base : Nat
  scale : Nat
  sbFirst : Nat
  sbCount : Nat
  mode : Nat
  mcast : Bool
  sat : Bool
  outMode : Nat
  raw : Nat
deriving DecidableEq, Repr

/-- A bucket entry (R166). -/
structure Bucket where
  tileM : Nat
  tileN : Nat
  tileK : Nat
  plan : List Nat
  raw : Nat
deriving DecidableEq, Repr

/-- A loop body (R162, R163). -/
structure LoopBody where
  op : Nat
  accFmt : Nat
  split : Nat
  phPro : Nat
  phEven : Nat
  phOdd : Nat
  alpha : Word32
  bias : Nat
  /-- Levels in use. -/
  lv : List Level
  a : Opnd
  b : Opnd
  o : Opnd
  /-- Buckets present. -/
  bk : List Bucket
deriving DecidableEq, Repr

/-- Level entry L of a body. -/
def levelOf (body : List Byte) (l : Nat) : Level :=
  let w := at8 body (64 + 16 * l) 16
  ⟨bits w 127 126, bits w 31 0, bits w 63 32, bits w 95 64⟩

/-- Operand descriptor at an offset. -/
def opndOf (body : List Byte) (off : Nat) : Opnd :=
  let w := at8 body off 32
  { fmt := bits w 3 0, base := bits w 207 160, scale := bits w 255 208, sbFirst := bits w 31 26, sbCount := bits w 25 20
    mode := bits w 17 16, mcast := bit w 15, sat := bit w 14, outMode := bits w 13 12, raw := w }

/-- Bucket entry b of a body. -/
def bucketOf (body : List Byte) (b : Nat) : Bucket :=
  let w := at8 body (256 + 32 * b) 32
  { tileM := bits w 192 180, tileN := bits w 205 193, tileK := bits w 220 206
    plan := (List.range 6).map fun l => bits w (30 * l + 29) (30 * l), raw := w }

/-- LEVELS and BUCKETS of a body. -/
def bodyLevels (body : List Byte) : Nat := bits (at8 body 0 64) 48 46
def bodyBuckets (body : List Byte) : Nat := bits (at8 body 0 64) 55 52

/-- A body read (R162 to R166). -/
def parseLoop (body : List Byte) : LoopBody :=
  let g := at8 body 0 64
  { op := bits g 3 0, accFmt := bits g 63 60, split := bits g 51 49
    phPro := bits g 34 32, phEven := bits g 37 35, phOdd := bits g 40 38
    alpha := BitVec.ofNat 32 (bits g 511 480), bias := bits g 479 432
    lv := (List.range (min 6 (bodyLevels body))).map (levelOf body)
    a := opndOf body 160, b := opndOf body 192, o := opndOf body 224
    bk := (List.range (min 8 (bodyBuckets body))).map (bucketOf body) }

/-- Roles (R164). -/
def roleM : Nat := 1
def roleN : Nat := 2
def roleK : Nat := 3

/-- The tiled level of a role: the highest-numbered level that has it (R168). -/
def tiled (d : LoopBody) (role : Nat) : Option Nat :=
  (List.range d.lv.length).foldl (fun r l => if (nth ⟨0, 0, 0, 0⟩ d.lv l).role = role then some l else r) none

/-- Level L of a body. -/
def LoopBody.level (d : LoopBody) (l : Nat) : Level := nth ⟨0, 0, 0, 0⟩ d.lv l

/-- Tile extent along a level: that of its role when the level is tiled, 1 otherwise (R168). -/
def tileAlong (d : LoopBody) (k : Bucket) (l : Nat) : Nat :=
  if tiled d roleM = some l then k.tileM
  else if tiled d roleN = some l then k.tileN
  else if tiled d roleK = some l then k.tileK
  else 1

/-- Run-time extent of a level (R167). -/
def extOf (e : Entry) (l : Nat) : Nat := ent e (349 + 30 * l) (320 + 30 * l)

/-- BUCKET_SEL (R167). -/
def bucketSel (e : Entry) : Nat := ent e 511 508

/-- Whether a format has no transposed read: 6-bit formats, FP32 and INT32 (R82). -/
def noTranspose (fmt : Nat) : Bool := (elemOf fmt).1.width == 6 || fmt == 0 || fmt == 15

/-! ### Check 1: body and ARGS -/

/-- Reserved bits and plain ranges of the general word (R163). -/
def genOk (body : List Byte) (d : LoopBody) : Bool :=
  let g := at8 body 0 64
  bits g 431 64 == 0 && bits g 59 56 == 0 && bits g 45 41 == 0 && bits g 31 4 == 0
    && decide (d.op ≤ 1 ∧ 1 ≤ bodyLevels body ∧ bodyLevels body ≤ 6 ∧ 1 ≤ bodyBuckets body ∧ bodyBuckets body ≤ 8)
    && (d.accFmt == 0 || (d.accFmt == 15 && d.op == 0))

/-- Level entries: reserved bits, unused entries zero, roles and strides of R168. -/
def levelsOk (body : List Byte) (d : LoopBody) : Bool :=
  (List.range 6).all (fun l =>
      let w := at8 body (64 + 16 * l) 16
      if l < d.lv.length then bits w 125 96 == 0 else w == 0)
    && (tiled d roleM).isSome && (tiled d roleN).isSome && ((tiled d roleK).isSome == (d.op == 0))
    && d.lv.all (fun l =>
      (l.role != roleM || l.bS == 0) && (l.role != roleN || d.op == 1 || l.aS == 0)
        && (l.role != roleK || l.oS == 0) && (d.op == 0 || l.bS == 0))
    && decide (d.split < d.lv.length)
    && (let l := d.level d.split; l.role != roleN && l.role != roleK && l.oS != 0)

/-- ARGS (R167), the reserved bits apart, which step 1 of R136 judges. -/
def loopArgsOk (e : Entry) (d : LoopBody) : Bool :=
  (decide (bucketSel e ≤ 7) || bucketSel e == 15)
    && (List.range 6).all fun l => decide (l < d.lv.length) || extOf e l == 0

/-- Strides of an operand, level by level. -/
def stridesOf (d : LoopBody) (pick : Level → Nat) : List Nat := d.lv.map pick

/-- Whether an operand may be contiguous along one level: stride 1 there, the others multiples of the granule
(R169). -/
def contiguousAlong (ss : List Nat) (l step : Nat) : Bool :=
  nth 0 ss l == 1 && (List.range ss.length).all fun i => i == l || nth 0 ss i % step == 0

/-- Granule of the other strides (R169). -/
def strideStep (fmt : Nat) : Nat :=
  if (elemOf fmt).2 then 32 else if (elemOf fmt).1.width = 4 then 2 else if (elemOf fmt).1.width = 6 then 4 else 1

/-- Layout and MODE of an input of OP 0x0, contiguous along K or along its tiled row or column level (R169). A
transposing MODE on a format that R82 excludes is left to check 3. -/
def inputLayoutOk (d : LoopBody) (o : Opnd) (ss : List Nat) (other : Nat) : Bool :=
  let k := (tiled d roleK).getD 0
  let st := strideStep o.fmt
  let alongK := contiguousAlong ss k st
  let alongO := contiguousAlong ss other st && !(elemOf o.fmt).2
  if !alongK && !alongO then false
  else if o.mode ≠ 0 ∧ noTranspose o.fmt then true
  else (alongK && o.mode == 0)
    || (alongO && o.mode == (if (elemOf o.fmt).1.width = 16 then 1 else 2) && !noTranspose o.fmt)

/-- Layout of A in OP 0x1 (R169). -/
def vectorLayoutOk (d : LoopBody) : Bool :=
  let ss := stridesOf d (·.aS)
  let st := strideStep d.a.fmt
  d.a.mode == 0 && (contiguousAlong ss ((tiled d roleN).getD 0) st
    || (!(elemOf d.a.fmt).2 && contiguousAlong ss ((tiled d roleM).getD 0) st))

/-- Fields of one operand descriptor (R165). -/
def opndOk (o : Opnd) (isOut : Bool) : Bool :=
  bits o.raw 159 32 == 0 && bits o.raw 19 18 == 0 && bits o.raw 11 4 == 0
    && o.sbCount % 2 == 0 && decide (2 ≤ o.sbCount ∧ o.sbCount ≤ 40) && o.mode != 3
    && ((elemOf o.fmt).2 || o.scale == 0)
    && (if isOut then o.mode == 0 && !o.mcast && decide (o.outMode ≤ 1) else !o.sat && o.outMode == 0)

/-- Multicast permitted (R183). -/
def mcastOk (d : LoopBody) (o : Opnd) (stride0 : Nat) : Bool := !o.mcast || (d.split == 0 && stride0 == 0)

/-- Operands (R165, R169, R180, R183). -/
def operandsOk (d : LoopBody) : Bool :=
  opndOk d.a false && opndOk d.o true
    && (if d.op = 0 then
          opndOk d.b false && inputLayoutOk d d.a (stridesOf d (·.aS)) ((tiled d roleM).getD 0)
            && inputLayoutOk d d.b (stridesOf d (·.bS)) ((tiled d roleN).getD 0) && mcastOk d d.b (d.level 0).bS
        else d.b.raw == 0 && vectorLayoutOk d)
    && mcastOk d d.a (d.level 0).aS
    && contiguousAlong (stridesOf d (·.oS)) ((tiled d roleN).getD 0) (strideStep d.o.fmt)
    && !(d.accFmt == 15 && d.o.fmt == 15 && (d.alpha != 0x3F800000 || d.bias != 0 || d.o.outMode != 0))
    && (d.o.outMode == 0 || d.o.fmt == 0)

/-- Depth of the operands' class; that of the 16-bit class where they have none in common (judged at check 2). -/
def depthK (d : LoopBody) : Nat :=
  match depthOf d.a.fmt, depthOf d.b.fmt with
  | some x, some y => if x = y then x.k else 4
  | _, _ => 4

/-- One bucket entry under R171, its MX alignment apart. -/
def bucketOk (d : LoopBody) (k : Bucket) : Bool :=
  let n := d.lv.length
  bits k.raw 255 221 == 0
    && decide (8 ≤ k.tileM ∧ k.tileM ≤ 4096) && k.tileM % 8 == 0
    && decide (8 ≤ k.tileN ∧ k.tileN ≤ 4096) && k.tileN % (if (elemOf d.o.fmt).2 then 32 else 8) == 0
    && (if d.op = 0 then decide (4 ≤ k.tileK ∧ k.tileK ≤ 16384) && k.tileK % depthK d == 0 else k.tileK == 0)
    && (List.range 6).all (fun l => if l < n then nth 0 k.plan l != 0 else nth 0 k.plan l == 0)
    && (List.range n).all fun l => nth 0 k.plan l % tileAlong d k l == 0

/-- Check 1 of R187. -/
def loopBodyOk (e : Entry) (body : List Byte) (d : LoopBody) : Bool :=
  genOk body d && levelsOk body d && loopArgsOk e d && operandsOk d && d.bk.all (bucketOk d)

/-! ### Checks 2 to 8 -/

/-- Check 2: operand pairing and accumulator code (R62, R63). -/
def pairingOk (d : LoopBody) : Bool :=
  d.op == 1 ||
    ((depthOf d.a.fmt).isSome && depthOf d.a.fmt == depthOf d.b.fmt
      && d.accFmt == (if isIntCode d.a.fmt && isIntCode d.b.fmt then 15 else 0))

/-- Check 3: read modes (R82). -/
def modesOk (d : LoopBody) : Bool :=
  !(d.a.mode != 0 && noTranspose d.a.fmt) && !(d.op == 0 && d.b.mode != 0 && noTranspose d.b.fmt)

/-- The first level of a bucket that the run-time extents exceed (R173). -/
def exceedsAt (e : Entry) (d : LoopBody) (k : Bucket) : Option Nat :=
  (List.range d.lv.length).find? fun l => decide (nth 0 k.plan l < extOf e l)

/-- The bucket selected or compared with (R172, R173); none for an entry number at or above BUCKETS. -/
def selectBucket (e : Entry) (d : LoopBody) : Option Nat :=
  if bucketSel e = 15 then
    some (((List.range d.bk.length).find? fun i => (exceedsAt e d (nth (bucketOf [] 0) d.bk i)).isNone).getD (d.bk.length - 1))
  else if bucketSel e < d.bk.length then some (bucketSel e) else none

/-- Bucket i of a body. -/
def LoopBody.bucket (d : LoopBody) (i : Nat) : Bucket := nth (bucketOf [] 0) d.bk i

/-- Check 5: MX alignment (R56, R171). -/
def mxAligned (d : LoopBody) (k : Bucket) : Bool :=
  if d.op = 0 then !((elemOf d.a.fmt).2 || (elemOf d.b.fmt).2) || k.tileK % 32 == 0
  else !(elemOf d.a.fmt).2 || k.tileN % 32 == 0

/-- Bytes of n elements with their scales (R181). -/
def bufBytes (fmt n : Nat) : Nat := n * (elemOf fmt).1.width / 8 + (if (elemOf fmt).2 then n / 32 else 0)

/-- Bytes per buffer of A, B and OUT (R181). -/
def bufA (d : LoopBody) (k : Bucket) : Nat := bufBytes d.a.fmt (k.tileM * (if d.op = 0 then k.tileK else k.tileN))
def bufB (d : LoopBody) (k : Bucket) : Nat := bufBytes d.b.fmt (k.tileK * k.tileN)
def bufO (d : LoopBody) (k : Bucket) : Nat := bufBytes d.o.fmt (k.tileM * k.tileN)

/-- One operand's banks hold its buffers and lie in the allocation (R181). -/
def banksFit (e : Entry) (o : Opnd) (need : Nat) : Bool :=
  decide (need ≤ o.sbCount / 2 * 65536) && covers o.sbFirst o.sbCount (hBankFirst e) (hBankCount e)

/-- Check 6: scratchpad (R181). -/
def scratchOk (e : Entry) (d : LoopBody) (k : Bucket) : Bool :=
  let clash (x y : Opnd) : Bool := overlap x.sbFirst x.sbCount y.sbFirst y.sbCount
  banksFit e d.a (bufA d k) && banksFit e d.o (bufO d k) && !clash d.a d.o
    && (d.op == 1 || (banksFit e d.b (bufB d k) && !clash d.a d.b && !clash d.b d.o))

/-- Units of a level: its planned extent over its tile (R176, R182). -/
def unitsOf (d : LoopBody) (k : Bucket) (l : Nat) : Nat := nth 0 k.plan l / tileAlong d k l

/-- Share of rank r among P cores of U units: first unit and count (R176). -/
def shareOf (u p r : Nat) : Nat × Nat := (r * u / p, (r + 1) * u / p - r * u / p)

/-- Live count of R182. -/
def liveCount (d : LoopBody) (k : Bucket) (p : Nat) : Nat :=
  let k0 := ((List.range d.lv.length).find? fun l => (d.level l).role == roleK).getD 0
  ((List.range d.lv.length).filter fun l => decide (k0 < l) && (d.level l).role != roleK).foldl (fun a l =>
    a * (if l = d.split then ceilDiv (unitsOf d k l) p else unitsOf d k l)) 1

/-- Check 7: accumulator (R182). -/
def accFits (e : Entry) (d : LoopBody) (k : Bucket) (p : Nat) : Bool :=
  d.op == 1 || decide (2 * liveCount d k p * k.tileM * k.tileN * 4 ≤ hAccCount e * 16384)

/-- Staging frames of the multicast operands (R184). -/
def stagingNeed (d : LoopBody) (k : Bucket) : Nat :=
  (if d.a.mcast then 2 * ceilDiv (bufA d k) 65536 else 0)
    + (if d.op = 0 ∧ d.b.mcast then 2 * ceilDiv (bufB d k) 65536 else 0)

/-- Check 8: staging frames within G on the tiles that must carry the task; under PLACE 0b10, on some tile (R134,
R184). -/
def stagingOk (s : State) (t : Task) (need : Nat) : Bool :=
  let fits (x : Tile) : Bool := decide (need ≤ (recGrant (taskRec s t) x).g)
  if need = 0 then true
  else if hPlace t.hdr = 2 then (placeTiles t.hdr t.home).any fits else (placeTiles t.hdr t.home).all fits

/-- Cores of a task on a set of tiles, by ascending core index (R25, R176). -/
def coresOn (e : Entry) (tiles : List Tile) : List Nat :=
  (allTiles.filter tiles.contains).foldl (fun l x => l ++ (rectPositions e).map (coreIndex x)) []

/-- Number of cores a task will have. -/
def coreCount (e : Entry) : Nat := hRows e * hCols e * (if hPlace e = 1 then 2 else 1)

/-- Capture the first shape fault since SHAPE_CLR (R189). -/
def captureShape (s : State) (t : Task) (level bucket rt plan : Nat) : State :=
  if flg (s.sch.get t.home).shapeFirst 31 then s
  else s.modSch t.home fun x =>
    { x with
      shapeFirst := pack [(1, 31), (level, 28), (bucket, 24), (b2n (bucketSel t.hdr == 15), 23), (t.part, 16), (t.ring, 0)]
      shapeRt := BitVec.ofNat 32 rt
      shapePlan := BitVec.ofNat 32 plan }

/-- A plain failure of a check. -/
def bad (c : Nat) : AccErr := { cause := c, addr := 0 }

/-- Checks 4 to 8 of R187 on a body that passed the first three; the task's work on success. -/
def loopCapacity (s : State) (t : Task) (d : LoopBody) : State × Except AccErr (Nat × Nat) :=
  match selectBucket t.hdr d with
  | none => (s, .error (bad 0x0112))
  | some i =>
    let k := d.bucket i
    match exceedsAt t.hdr d k with
    | some l => (captureShape s t l i (extOf t.hdr l) (nth 0 k.plan l), .error (bad 0x0111))
    | none =>
      if !mxAligned d k then (s, .error (bad 0x0142))
      else if !scratchOk t.hdr d k then (s, .error (bad 0x0102))
      else if !accFits t.hdr d k (coreCount t.hdr) then (s, .error (bad 0x0101))
      else if !stagingOk s t (stagingNeed d k) then (s, .error (bad 0x0104))
      else (s, .ok (i, stagingNeed d k))

/-- Checks 1 to 8 of R187. -/
def loopChecks (s : State) (t : Task) (body : List Byte) : State × Except AccErr (Nat × Nat) :=
  let d := parseLoop body
  if !loopBodyOk t.hdr body d then (s, .error (bad 0x0112))
  else if !pairingOk d then (s, .error (bad 0x0141))
  else if !modesOk d then (s, .error (bad 0x0123))
  else loopCapacity s t d

/-- Phases a loop body names, and those that carry engine steps (R77, R179). -/
def loopPhases (body : List Byte) : List Nat × List Nat :=
  let d := parseLoop body
  ([d.phPro, d.phEven, d.phOdd], if d.op = 0 then [d.phEven, d.phOdd] else [])

/-- Whether a run-time extent of a used level is zero (R175). -/
def zeroExtent (e : Entry) (d : LoopBody) : Bool := (List.range d.lv.length).any fun l => extOf e l == 0

/-- Whether a run-time extent lies below the planned one (R174). -/
def padded (e : Entry) (d : LoopBody) (k : Bucket) : Bool :=
  (List.range d.lv.length).any fun l => decide (extOf e l < nth 0 k.plan l)

/-- Count what the selected bucket shows of a task (R174, R175, R191). A task that ends under R175 runs on no bucket, so
it counts in SCH_ZERO_WORK alone (DESIGN CHOICE, assumption log 123). -/
def countLoop (s : State) (t : Task) (d : LoopBody) (i : Nat) : State :=
  if zeroExtent t.hdr d then addCtr s (blkSch t.home) 0x0330
  else if padded t.hdr d (d.bucket i) then addCtr s (blkSch t.home) 0x0328
  else s

/-- Fetch body and plan (R136 step 5) and judge the plan (step 6). -/
def fetchBodyPlan (s : State) (t : Task) (n : Nat) (phases : List Byte → List Nat × List Nat) :
    State × Except AccErr Task :=
  andThen (fetch5 s t (hBody t.hdr) n) fun s body => andThen (fetch5 s t (hPlan t.hdr) 128) fun s plan =>
    let (ph, en) := phases body
    (s, if planOk t.hdr plan ph en then .ok { t with body := body, plan := plan } else .error (bad 0x0122))

/-- Steps 5 to 7 of R136 for a loop task. -/
def checkLoop : KindCheck := fun s t =>
  andThen (fetchBodyPlan s t 512 loopPhases) fun s t => andThen (loopChecks s t t.body) fun s r =>
    let d := parseLoop t.body
    (countLoop s t d r.1,
      .ok { t with staging := r.2, zeroWork := zeroExtent t.hdr d, work := .loop { bucket := r.1 } })

/-- LOOP_TASK (R136, R187). -/
def execLoopTask (f : Func) (r : Fin 64) (s : State) : Host.Outcome State Fault Refusal :=
  .next (beginTask s f r.val 1 0 checkLoop)

end Sys2Proof.Machine
end

