-- ==== Sys2Proof/Machine/Walk.lean ====
section
/-!
DEFINITION. The walk of one core of a loop body (R169, R176 to R181): operand tiles packed into scratchpad buffers, engine
runs onto the accumulator memory, the epilogue into the OUT buffer and the write of a finished tile, one tile step at a
time.
-/

namespace Sys2Proof.Machine

/-! ### Tile steps in level order (R176, R178) -/

/-- Unit counts of the levels for one core (R178). -/
def walkUnits (d : LoopBody) (k : Bucket) (units : Nat) : List Nat :=
  (List.range d.lv.length).map fun l => if l = d.split then units else unitsOf d k l

/-- Digits of a step, the last level innermost. -/
def digitsOf : List Nat → Nat → List Nat × Nat
  | [], n => ([], n)
  | u :: us, n =>
    let (ds, q) := digitsOf us n
    (q % u :: ds, q / u)

/-- Tile steps of one core. -/
def stepCount (us : List Nat) : Nat := us.foldl (· * ·) 1

/-- Index of a level at a digit: the split level starts at the core's first unit. -/
def indexAt (d : LoopBody) (k : Bucket) (first l digit : Nat) : Nat :=
  (digit + (if l = d.split then first else 0)) * tileAlong d k l

/-- Level indices of the origin of a tile step. -/
def originOf (d : LoopBody) (k : Bucket) (first : Nat) (ds : List Nat) : List Nat :=
  (List.range d.lv.length).map fun l => indexAt d k first l (nth 0 ds l)

/-- Element offset of an index vector (R164). -/
def offsetOf (ss idx : List Nat) : Nat := ((ss.zip idx).map fun p => p.1 * p.2).foldl (· + ·) 0

/-- Whether every K level stands at a given end of its range. -/
def kAt (d : LoopBody) (us ds : List Nat) (last : Bool) : Bool :=
  (List.range d.lv.length).all fun l =>
    (d.level l).role != roleK || nth 0 ds l == (if last then nth 1 us l - 1 else 0)

/-- Stride of an operand along the tiled level of a role. -/
def strideAlong (d : LoopBody) (pick : Level → Nat) (role : Nat) : Nat :=
  match tiled d role with
  | some l => pick (d.level l)
  | none => 0

/-- What the units of one core know of the walk they run: the task, the core and its rank, the context of its accesses,
the body on its bucket, the task's first accumulator region and the number of its cores. -/
structure WalkEnv where
  id : Nat
  core : Nat
  rank : Nat
  ctx : Ctx
  d : LoopBody
  k : Bucket
  acc : Nat
  cores : Nat
deriving DecidableEq, Repr

/-- Tile steps of a walk, drain steps apart. -/
def walkSteps (v : WalkEnv) (w : CoreWalk) : Nat :=
  if w.units = 0 then 0 else stepCount (walkUnits v.d v.k w.units)

/-- Digits of a tile step of a walk. -/
def walkDigits (v : WalkEnv) (w : CoreWalk) (step : Nat) : List Nat := (digitsOf (walkUnits v.d v.k w.units) step).1

/-- Level indices of a tile step of a walk. -/
def walkOrigin (v : WalkEnv) (w : CoreWalk) (step : Nat) : List Nat :=
  originOf v.d v.k w.first (walkDigits v w step)

/-! ### Byte ranges of the operands -/

/-- Element offsets over the planned extents of the levels below l, those of stride 0 and one skipped level apart. -/
def spanOffsets (k : Bucket) (ss : List Nat) (skip : Option Nat) : Nat → List Nat
  | 0 => [0]
  | l + 1 =>
    let rest := spanOffsets k ss skip l
    if nth 0 ss l = 0 ∨ skip = some l then rest
    else rest.foldr (fun o acc => ((List.range (nth 0 k.plan l)).map fun i => o + i * nth 0 ss l) ++ acc) []

/-- Byte ranges that an operand touches over a bucket's planned extents, scales included. -/
def opndRanges (d : LoopBody) (k : Bucket) (o : Opnd) (ss : List Nat) : List (Nat × Nat) :=
  let run := (List.range d.lv.length).find? fun l => nth 0 ss l == 1
  let n := match run with | some l => nth 0 k.plan l | none => 1
  let w := (elemOf o.fmt).1.width
  (spanOffsets k ss run d.lv.length).foldr (fun e acc =>
    let sp := elemSpan w e n
    (o.base + sp.1, sp.2) :: (if (elemOf o.fmt).2 then [(o.scale + e / 32, max 1 (n / 32))] else []) ++ acc) []

/-- Destination ranges of a loop body on a bucket (R138). -/
def loopDests (d : LoopBody) (k : Bucket) : List (Nat × Nat) := opndRanges d k d.o (stridesOf d (·.oS))

/-- Whether every output element has another with its address: some level but K goes on in OUT by no stride (R177). -/
def outRepeats (d : LoopBody) (k : Bucket) : Bool :=
  (List.range d.lv.length).any fun l =>
    (d.level l).role != roleK && (d.level l).oS == 0 && decide (1 < nth 0 k.plan l)

/-- The part two ranges share. -/
def shared (a b : Nat × Nat) : Option (Nat × Nat) :=
  let lo := max a.1 b.1
  let hi := min (a.1 + a.2) (b.1 + b.2)
  if lo < hi then some (lo, hi - lo) else none

/-- The parts that ranges of two lists share. -/
def sharedRanges (xs ys : List (Nat × Nat)) : List (Nat × Nat) :=
  xs.foldr (fun x acc => ys.filterMap (shared x) ++ acc) []

/-- The smallest range over a list of ranges. -/
def hullOf : List (Nat × Nat) → Nat × Nat
  | [] => (0, 0)
  | [x] => x
  | x :: xs =>
    let h := hullOf xs
    let lo := min x.1 h.1
    (lo, max (x.1 + x.2) (h.1 + h.2) - lo)

/-- The parts that two ranges of one list share. -/
def sharedWithin : List (Nat × Nat) → List (Nat × Nat)
  | [] => []
  | x :: xs => xs.filterMap (shared x) ++ sharedWithin xs

/-- Ranges that two output elements of one body address: the bytes left there are undefined (R177). -/
def aliasedDests (d : LoopBody) (k : Bucket) : List (Nat × Nat) :=
  if outRepeats d k then loopDests d k else sharedWithin (loopDests d k)

/-- Ranges of A and B that OUT overlaps: the bytes read there are undefined (R177). -/
def undefinedReads (d : LoopBody) (k : Bucket) : List (Nat × Nat) :=
  let outs := loopDests d k
  let ins := opndRanges d k d.a (stridesOf d (·.aS)) ++ (if d.op = 0 then opndRanges d k d.b (stridesOf d (·.bS)) else [])
  if (shared (hullOf ins) (hullOf outs)).isNone then [] else sharedRanges ins outs

/-- Memory as the fills of a task read it: free bytes where OUT overlaps an input (R177). -/
def readView (s : State) (c : Ctx) (d : LoopBody) (k : Bucket) : State :=
  scribbleRanges s c (undefinedReads d k)

/-! ### Tiles of the operands -/

/-- A tile of an operand in memory: the element offset of its first element, its rows and columns, and their strides. -/
structure TileAt where
  e0 : Nat
  n1 : Nat
  s1 : Nat
  n2 : Nat
  s2 : Nat
deriving DecidableEq, Repr

/-- The A tile at a point of the walk: TILE_M rows along K, or along N in OP 0x1. -/
def tileA (d : LoopBody) (k : Bucket) (idx : List Nat) : TileAt :=
  { e0 := offsetOf (stridesOf d (·.aS)) idx, n1 := k.tileM, s1 := strideAlong d (·.aS) roleM
    n2 := if d.op = 0 then k.tileK else k.tileN, s2 := strideAlong d (·.aS) (if d.op = 0 then roleK else roleN) }

/-- The B tile: TILE_N columns along K. -/
def tileB (d : LoopBody) (k : Bucket) (idx : List Nat) : TileAt :=
  { e0 := offsetOf (stridesOf d (·.bS)) idx, n1 := k.tileN, s1 := strideAlong d (·.bS) roleN
    n2 := k.tileK, s2 := strideAlong d (·.bS) roleK }

/-- The OUT tile: TILE_M rows along N. -/
def tileO (d : LoopBody) (k : Bucket) (idx : List Nat) : TileAt :=
  { e0 := offsetOf (stridesOf d (·.oS)) idx, n1 := k.tileM, s1 := strideAlong d (·.oS) roleM
    n2 := k.tileN, s2 := strideAlong d (·.oS) roleN }

/-- Whether a tile's memory runs lie along its rows (R169). -/
def alongRows (o : Opnd) (x : TileAt) : Bool := o.mode == 0 && x.s2 == 1

/-- The contiguous runs of a tile: first element and length of each, row by row or column by column. -/
def tileRuns (o : Opnd) (x : TileAt) : List (Nat × Nat) :=
  if alongRows o x then (List.range x.n1).map fun i => (x.e0 + i * x.s1, x.n2)
  else (List.range x.n2).map fun j => (x.e0 + j * x.s2, x.n1)

/-- Addresses and lengths of a tile's runs: the tile transfers of its data (R122). -/
def dataRanges (o : Opnd) (x : TileAt) : List (Nat × Nat) :=
  (tileRuns o x).map fun r => let sp := elemSpan (elemOf o.fmt).1.width r.1 r.2; (o.base + sp.1, sp.2)

/-- Addresses and lengths of a tile's scales, row by row (R47, R169). -/
def scaleRanges (o : Opnd) (x : TileAt) : List (Nat × Nat) :=
  if (elemOf o.fmt).2 then (List.range x.n1).map fun i => (o.scale + (x.e0 + i * x.s1) / 32, x.n2 / 32) else []

/-! ### Blocks -/

/-- A list cut into pieces of n. -/
def cut {α : Type} (n : Nat) (l : List α) : List (List α) := chunks n l.length l

/-- The n columns of a matrix given row by row. -/
def columns {α : Type} : Nat → List (List α) → List (List α)
  | 0, _ => []
  | n + 1, rows => rows.filterMap List.head? :: columns n (rows.map List.tail)

/-- A matrix cut into blocks of r rows and c columns, one band of rows after the other. -/
def cutBlocks {α : Type} (r c : Nat) (m : List (List α)) : List (List (List α)) :=
  ((cut r m).map fun band => columns ((band.headD []).length / c) (band.map (cut c))).flatten

/-- The matrix whose blocks of r rows are given, `per` blocks to a band. -/
def joinBlocks {α : Type} (r per : Nat) (bs : List (List (List α))) : List (List α) :=
  ((cut per bs).map fun band => (columns r band).map List.flatten).flatten

/-- Edge of the sub-blocks of a step block (R82): 4 for 16-bit elements, 8 for narrower ones. -/
def subEdge (w : Nat) : Nat := if w = 16 then 4 else 8

/-- A sub-block as it is stored, or, read by T4 or T8, as it is delivered: position r × n + c against c × n + r (R82). -/
def turnBlock {α : Type} (turned : Bool) (n : Nat) (b : List (List α)) : List (List α) := if turned then columns n b else b

/-- The codes of a tile's rows in the order of its step blocks: block (mb, kb) is number mb × TILE_K ÷ k + kb, in
sub-blocks of n × n, transposed where the memory runs do not lie along K (R169). The engine order within a block is not
stated; the model takes that which T4 and T8 deliver (DEDUCED, assumption log 126). -/
def packTile (n k : Nat) (turned : Bool) (rows : List (List Nat)) : List Nat :=
  ((cutBlocks 8 k rows).map fun b => ((cutBlocks n n b).map fun x => (turnBlock turned n x).flatten).flatten).flatten

/-- The rows of a tile from its stored codes, as the engine port delivers them (R82, R169). -/
def unpackTile (n k per : Nat) (turned : Bool) (cs : List Nat) : List (List Nat) :=
  joinBlocks 8 per ((cut (8 * k) cs).map fun b =>
    joinBlocks n (k / n) ((cut (n * n) b).map fun x => turnBlock turned n (cut n x)))

/-- The scales of a tile in the order in which steps need them: the eight rows of a block together (R60). -/
def packScales (rows : List (List Nat)) : List Nat :=
  ((cut 8 rows).map fun band => (columns (band.headD []).length band).flatten).flatten

/-- The rows of scales from their stored order. -/
def unpackScales (per : Nat) (xs : List Nat) : List (List Nat) :=
  ((cut (8 * per) xs).map fun band => columns 8 (cut 8 band)).flatten

/-! ### Operand buffers (R179, R181) -/

/-- Window offset of buffer q of an operand: buffer 0 begins at SB_FIRST. -/
def bufBase (o : Opnd) (q : Nat) : Nat := 0x10000 * (o.sbFirst + q % 2 * (o.sbCount / 2))

/-- Bytes of the data of a tile, scales apart. -/
def dataBytes (o : Opnd) (x : TileAt) : Nat := x.n1 * x.n2 * (elemOf o.fmt).1.width / 8

/-- Bytes of a tile's scales. -/
def tileScaleBytes (o : Opnd) (x : TileAt) : Nat := if (elemOf o.fmt).2 then x.n1 * x.n2 / 32 else 0

/-- The codes of a tile, row by row, and its scales, row by row. -/
structure TileCodes where
  rows : List (List Nat)
  scales : List (List Nat)
deriving DecidableEq, Repr

/-- The bytes that a tile's runs hold in memory. -/
def peekTile (s : State) (c : Ctx) (o : Opnd) (x : TileAt) : Except AccErr TileCodes :=
  match mapErr (fun r : Nat × Nat => readCodes s c o.base (elemOf o.fmt).1.width r.1 r.2) (tileRuns o x) with
  | .error e => .error e
  | .ok runs =>
    match mapErr (fun r : Nat × Nat => readVa s c r.1 r.2) (scaleRanges o x) with
    | .error e => .error e
    | .ok sc => .ok ⟨if alongRows o x then runs else columns x.n1 runs, sc.map fun l => l.map BitVec.toNat⟩

/-- Fetch a tile from memory, with what its transfers do below them. -/
def loadTile (s : State) (v : WalkEnv) (o : Opnd) (x : TileAt) : State × Except AccErr TileCodes :=
  andThen (touchRanges s v.ctx (dataRanges o x ++ scaleRanges o x)) fun s _ =>
    let u := readView s v.ctx v.d v.k
    ({ s with freeCtr := u.freeCtr }, peekTile u v.ctx o x)

/-- The image of a tile in its buffer: step blocks for the engines; for the vector unit, which reads elements and not
blocks, the runs as they lie in memory (DESIGN CHOICE, assumption log 127); then the scales. -/
def tileImage (d : LoopBody) (o : Opnd) (x : TileAt) (m : TileCodes) : List Byte :=
  let w := (elemOf o.fmt).1.width
  let turned := !alongRows o x
  let codes := if d.op = 0 then packTile (subEdge w) (depthK d) turned m.rows
    else (if turned then columns x.n2 m.rows else m.rows).flatten
  packCodes w codes ++ (packScales m.scales).map (BitVec.ofNat 8)

/-- The values of a tile from its image. -/
def imageValues (d : LoopBody) (o : Opnd) (x : TileAt) (bs : List Byte) : List (List Val) :=
  let (el, mx) := elemOf o.fmt
  let codes := splitBits el.width (x.n1 * x.n2) (leNat (bs.take (dataBytes o x)))
  let turned := !alongRows o x
  let rows := if d.op = 0 then unpackTile (subEdge el.width) (depthK d) (x.n2 / depthK d) turned codes
    else if turned then columns x.n1 (cut x.n1 codes) else cut x.n2 codes
  if mx then
    let sc := unpackScales (x.n2 / 32) ((bs.drop (dataBytes o x)).map BitVec.toNat)
    (rows.zip sc).map fun r => ((cut 32 r.1).zip r.2).foldr (fun b l => b.1.map (fun c => scaled b.2 (el.decode c)) ++ l) []
  else rows.map fun r => r.map el.decode

/-- One scoreboard entry for each tile transfer of a tile; the bytes land with the last (R79, R122). -/
def openTile (s : State) (i id : Nat) (write : Bool) (n off : Nat) (bs : List Byte) (late : Bool) : State :=
  let x : CoreTransfer := { core := i, task := id, write := write, ranges := [(off, bs.length)], late := late }
  let s := (List.range (n - 1)).foldl (fun s _ => openTransfer s x) s
  openTransfer s { x with data := if write then [(off, bs)] else [] }

/-- The DMA port of a core fills buffer q of an operand with the image of a tile: the state, and whether the plan was
broken (R79, R90). -/
def fillBuffer (s : State) (i id : Nat) (o : Opnd) (q n : Nat) (bs : List Byte) : State × Bool :=
  let r := portAccess1 s i .dma true (bufBase o q, bs.length)
  (openTile r.1 i id true n (bufBase o q) bs (meetsEngine s i (bufBase o q, bs.length)), r.2)

/-- Fetch a tile and fill buffer q of its operand with it. -/
def fillOperand (s : State) (v : WalkEnv) (o : Opnd) (x : TileAt) (q : Nat) : State × Except AccErr Bool :=
  andThen (loadTile s v o x) fun s m =>
    let r := fillBuffer s v.core v.id o q ((dataRanges o x).length + (scaleRanges o x).length) (tileImage v.d o x m)
    (r.1, .ok r.2)

/-- The operands of a body that its cores fill themselves: A or B, staged ones apart (R179, R185). -/
def ownFills (d : LoopBody) : List Bool := (if d.a.mcast then [] else [false]) ++ (if d.op = 0 ∧ !d.b.mcast then [true] else [])

/-- An input operand, and its tile at a point of the walk. -/
def inputOf (d : LoopBody) (b : Bool) : Opnd := if b then d.b else d.a
def inputTile (d : LoopBody) (k : Bucket) (idx : List Nat) (b : Bool) : TileAt := if b then tileB d k idx else tileA d k idx

/-- Fill the buffers that a tile step will read (R179): the state, and whether the plan was broken. -/
def fillStep (s : State) (v : WalkEnv) (w : CoreWalk) (step : Nat) : List Bool → State × Except AccErr Bool
  | [] => (s, .ok false)
  | b :: l =>
    andThen (fillOperand s v (inputOf v.d b) (inputTile v.d v.k (walkOrigin v w step) b) (w.base + step)) fun s x =>
      andThen (fillStep s v w step l) fun s y => (s, .ok (x || y))

/-- The engine port, or the vector unit, reads the tile in buffer q of an operand: it waits for the fills of its banks
(R79), and the scale lane takes the scales (R73). -/
def readOperand (s : State) (v : WalkEnv) (o : Opnd) (x : TileAt) (q : Nat) : State × Bool × List (List Val) :=
  let off := bufBase o q
  let n := dataBytes o x + tileScaleBytes o x
  let s := awaitBanks s v.core (banksIn off n)
  let r := portAccess1 s v.core .engine false (off, n)
  let s := if tileScaleBytes o x = 0 then r.1 else readScaleRow r.1 v.core (off + n - 1)
  (s, r.2, imageValues v.d o x (windowBytes s v.core off n))

/-! ### Accumulators (R178, R179, R182) -/

/-- The outermost K level (R182). -/
def k0Of (d : LoopBody) : Nat := ((List.range d.lv.length).find? fun l => (d.level l).role == roleK).getD 0

/-- Number of the group of output tiles that a step belongs to: those that share the levels outside the outermost K
level. -/
def groupOf (d : LoopBody) (us ds : List Nat) : Nat :=
  (List.range (k0Of d)).foldl (fun a l => a * nth 1 us l + nth 0 ds l) 0

/-- Groups of a walk. -/
def groupCount (d : LoopBody) (us : List Nat) : Nat := (List.range (k0Of d)).foldl (fun a l => a * nth 1 us l) 1

/-- Place of a step's output tile among the live tiles of its group (R182). -/
def accSlot (d : LoopBody) (k : Bucket) (p : Nat) (ds : List Nat) : Nat :=
  ((List.range d.lv.length).filter fun l => decide (k0Of d < l) && (d.level l).role != roleK).foldl (fun a l =>
    a * (if l = d.split then ceilDiv (unitsOf d k l) p else unitsOf d k l) + nth 0 ds l) 0

/-- First accumulator block of the output tile of a step: two sets of live tiles from the task's first region on, used by
turns (R179, R182). Which blocks a tile takes within its set is not stated (DESIGN CHOICE, assumption log 128). -/
def accBlockOf (v : WalkEnv) (w : CoreWalk) (ds : List Nat) : Nat :=
  let us := walkUnits v.d v.k w.units
  64 * v.acc + ((groupOf v.d us ds + w.setBase) % 2 * liveCount v.d v.k v.cores + accSlot v.d v.k v.cores ds)
    * (v.k.tileM / 8 * (v.k.tileN / 8))

/-- Accumulator blocks of an output tile. -/
def tileBlocks (k : Bucket) : Nat := k.tileM / 8 * (k.tileN / 8)

/-- The words of an output tile, row by row, from its accumulator blocks. -/
def readAccTile (s : State) (i : Nat) (k : Bucket) (base : Nat) : List (List Word32) :=
  joinBlocks 8 (k.tileN / 8) ((List.range (tileBlocks k)).map fun b => cut 8 (readAccBlock s i (base + b)))

/-- Write the words of an output tile to its accumulator blocks. -/
def writeAccTile (s : State) (i base : Nat) (rows : List (List Word32)) : State :=
  let bs := cutBlocks 8 8 rows
  ((List.range bs.length).zip bs).foldl (fun s b => writeAccBlock s i (base + b.1) b.2.flatten) s

/-- A vector or engine access to the accumulator blocks of a tile waits for the transfers that write their regions
(R89). -/
def awaitAcc (s : State) (i base n : Nat) : State :=
  closeTransfers s (coreTile i) fun y =>
    y.core == i && y.write && y.ranges.any fun r => (regionsIn r.1 r.2).any (regionsIn (accBase + 256 * base) (256 * n)).contains

/-- One element's engine steps over a K run (R58, R64, R65). -/
def engineRun (int : Bool) (k : Nat) (c : Word32) (xs ys : List Val) : Word32 × AFlags :=
  (chunks k xs.length (xs.zip ys)).foldl (fun a g =>
    let r := if int then engineStepInt a.1 (g.map fun p => (rintOf p.1, rintOf p.2)) else engineStep a.1 g
    (r.1, a.2 ||| r.2)) (c, noFlags)

/-- The engine work of one tile step: rows of A against columns of B, onto the accumulators (R178). -/
def engineTile (int : Bool) (k : Nat) (acc : List (List Word32)) (as bs : List (List Val)) : List (List Word32) × AFlags :=
  let rs := (as.zip acc).map fun p => (bs.zip p.2).map fun q => engineRun int k q.2 p.1 q.1
  (rs.map fun r => r.map (·.1), orFlags (rs.flatten.map (·.2)))

/-- What one activity of a tile step leaves: the walk, its flags, and whether it broke the bank plan. -/
structure StepOut where
  walk : CoreWalk
  flags : AFlags := 0
  broke : Bool := false
deriving DecidableEq, Repr

/-- The tile finished at a step. -/
def finishedAt (v : WalkEnv) (w : CoreWalk) (vec : List Word32) : OutTile :=
  { at_ := w.step, point := walkOrigin v w w.step, vec := vec }

/-- Engine work of a walk's step (R178): the tiles in the buffers of its parity onto the accumulators of its output tile,
whose regions stay busy until the next step (R89). -/
def stepEngine (s : State) (v : WalkEnv) (w : CoreWalk) : State × StepOut :=
  let ds := walkDigits v w w.step
  let idx := walkOrigin v w w.step
  let q := w.base + w.step
  let (s, b1, as) := readOperand s v v.d.a (tileA v.d v.k idx) q
  let (s, b2, bs) := readOperand s v v.d.b (tileB v.d v.k idx) q
  let us := walkUnits v.d v.k w.units
  let base := accBlockOf v w ds
  let s := holdRegions (awaitAcc s v.core base (tileBlocks v.k)) v.core (regionsIn (accBase + 256 * base) (256 * tileBlocks v.k))
  let old := if kAt v.d us ds false then List.replicate v.k.tileM (List.replicate v.k.tileN 0) else readAccTile s v.core v.k base
  let (acc, fl) := engineTile (v.d.accFmt = 15) (depthK v.d) old as bs
  let outs := if kAt v.d us ds true then w.outs ++ [finishedAt v w []] else w.outs
  (writeAccTile s v.core base acc, { walk := { w with outs := outs }, flags := fl, broke := b1 || b2 })

/-- The vector unit takes the A tile of a step of OP 0x1, each element widened to FP32 (R170). -/
def stepVector (s : State) (v : WalkEnv) (w : CoreWalk) : State × StepOut :=
  let (s, b, rows) := readOperand s v v.d.a (tileA v.d v.k (walkOrigin v w w.step)) (w.base + w.step)
  let xs := rows.flatten.map widenF32
  (s, { walk := { w with outs := w.outs ++ [finishedAt v w (xs.map (·.1))] }, flags := orFlags (xs.map (·.2)), broke := b })

/-- The work of the engines or the vector unit in a step; a drain step carries none (R179). -/
def stepWork (s : State) (v : WalkEnv) (w : CoreWalk) : State × StepOut :=
  if walkSteps v w ≤ w.step then (holdRegions s v.core [], { walk := w })
  else if v.d.op = 0 then stepEngine s v w else stepVector s v w

/-! ### The epilogue (R180) -/

/-- One row through the epilogue: scaled and biased FP32 words, then added to the old values where asked. -/
def epilogueRow (d : LoopBody) (xs bias old : List Word32) : List Word32 × AFlags :=
  let ys := if d.bias = 0 then xs.map (f32Mul d.alpha) else (xs.zip bias).map fun p => f32Fma d.alpha p.1 p.2
  let zs := if d.o.outMode = 1 then (ys.zip old).map fun p => let r := f32Add p.1.1 p.2; (r.1, r.2 ||| p.1.2) else ys
  (zs.map (·.1), orFlags (zs.map (·.2)))

/-- An accumulator word as the epilogue takes it: an INT32 one is rounded to FP32 (R180). -/
def accWord (d : LoopBody) (w : Word32) : Word32 := if d.accFmt = 15 then toF32 (Val.ofInt w.toInt) else w

/-- The stored form of one output row (R180). -/
def outRow (s : State) (v : WalkEnv) (idx : List Nat) (i : Nat) (row : List Word32) : State × Except AccErr Narrowed :=
  let d := v.d
  if d.accFmt = 15 ∧ d.o.fmt = 15 then (s, .ok ⟨row.map BitVec.toNat, [], noFlags⟩)
  else
    let x := tileO d v.k idx
    let n0 := nth 0 idx ((tiled d roleN).getD 0)
    andThen (if d.bias = 0 then (s, .ok []) else loadWords s v.ctx (d.bias + 4 * n0) row.length) fun s bias =>
      andThen (if d.o.outMode = 1 then loadWords s v.ctx (d.o.base + 4 * (x.e0 + i * x.s1)) row.length else (s, .ok []))
        fun s old =>
          let (ys, fl) := epilogueRow d (row.map (accWord d)) bias old
          let r := narrowRow d.o.fmt d.o.sat (ys.map f32)
          (s, .ok { r with flags := fl ||| r.flags })

/-- The stored forms of the rows of a finished tile, from row i on. -/
def outRows (s : State) (v : WalkEnv) (idx : List Nat) : Nat → List (List Word32) → State × Except AccErr (List Narrowed)
  | _, [] => (s, .ok [])
  | i, r :: rs => andThen (outRow s v idx i r) fun s x => andThen (outRows s v idx (i + 1) rs) fun s xs => (s, .ok (x :: xs))

/-- The image of a finished tile in the OUT buffer: rows of codes, then their scales. The layout of the buffer is not
stated (DESIGN CHOICE, assumption log 127). -/
def outImage (o : Opnd) (rs : List Narrowed) : List Byte :=
  packCodes (elemOf o.fmt).1.width (rs.map (·.codes)).flatten ++ ((rs.map (·.scales)).flatten).map (BitVec.ofNat 8)

/-- The words that the epilogue of a finished tile takes: its accumulators, or the A elements of OP 0x1. -/
def finishedWords (s : State) (v : WalkEnv) (w : CoreWalk) (o : OutTile) : List (List Word32) :=
  if v.d.op = 1 then cut v.k.tileN o.vec else readAccTile s v.core v.k (accBlockOf v w (walkDigits v w o.at_))

/-- The epilogue of the tile finished at the step before: the vector unit writes the OUT buffer of this step's parity
(R179, R180). -/
def stepEpilogue (s : State) (v : WalkEnv) (w : CoreWalk) : State × Except AccErr (AFlags × Bool) :=
  match w.outs.find? fun o => o.at_ + 1 == w.step with
  | none => (s, .ok (noFlags, false))
  | some o =>
    let s := if v.d.op = 1 then s else awaitAcc s v.core (accBlockOf v w (walkDigits v w o.at_)) (tileBlocks v.k)
    andThen (outRows s v o.point 0 (finishedWords s v w o)) fun s rs =>
      let bs := outImage v.d.o rs
      let off := bufBase v.d.o (w.base + w.step)
      let r := portAccess1 s v.core .engine true (off, bs.length)
      (writeWindow r.1 v.core off bs, .ok (orFlags (rs.map (·.flags)), r.2))

/-- The runs of memory that the image of a finished tile goes to. -/
def outRuns (o : Opnd) (x : TileAt) (bs : List Byte) : List (Nat × List Byte) :=
  let w := (elemOf o.fmt).1.width
  let n := x.n2 * w / 8
  let sc := bs.drop (dataBytes o x)
  (List.range x.n1).foldr (fun i l =>
    let e := x.e0 + i * x.s1
    (o.base + e * w / 8, (bs.drop (i * n)).take n) ::
      (if (elemOf o.fmt).2 then [(o.scale + e / 32, (sc.drop (i * (x.n2 / 32))).take (x.n2 / 32))] else []) ++ l) []

/-- The write of the tile finished two steps before: the DMA port reads the OUT buffer (R179). -/
def stepWrite (s : State) (v : WalkEnv) (w : CoreWalk) : State × Except AccErr StepOut :=
  match w.outs.find? fun o => o.at_ + 2 == w.step with
  | none => (s, .ok { walk := w })
  | some o =>
    let x := tileO v.d v.k o.point
    let off := bufBase v.d.o (w.base + w.step + 1)
    let bs := windowBytes s v.core off (dataBytes v.d.o x + tileScaleBytes v.d.o x)
    let r := portAccess1 s v.core .dma false (off, bs.length)
    let runs := outRuns v.d.o x bs
    let s := openTile r.1 v.core v.id false runs.length off bs false
    match writeRuns s v.ctx runs with
    | (s, some e) => (s, .error e)
    | (s, none) => (s, .ok { walk := { w with outs := w.outs.filter fun y => y.at_ != o.at_ }, broke := r.2 })

/-! ### One tile step -/

/-- Phase of a tile step: parity counted from the steps run before this iteration (R179, R203). -/
def stepPhase (d : LoopBody) (w : CoreWalk) : Nat := if (w.base + w.step) % 2 = 0 then d.phEven else d.phOdd

/-- The activities of one tile step of a core in their places (R179): the write, the epilogue, the engine work and the
fills of the next step. The walk is done after two drain steps. -/
def walkStep (s : State) (v : WalkEnv) (w : CoreWalk) : State × Except AccErr StepOut :=
  andThen (stepWrite s v w) fun s x => andThen (stepEpilogue s v x.walk) fun s e =>
    let (s, y) := stepWork s v x.walk
    andThen (if w.step + 1 < walkSteps v w then fillStep s v w (w.step + 1) (ownFills v.d) else (s, .ok false)) fun s b =>
      (s, .ok { walk := { y.walk with step := w.step + 1, done := w.step == walkSteps v w + 1 }
                flags := e.1 ||| y.flags, broke := x.broke || e.2 || y.broke || b })

/-- The phase of a step is entered once everything that the step before placed has completed (R76, R179). -/
def enterStep (s : State) (v : WalkEnv) (w : CoreWalk) : State :=
  enterPhase (closeCore s v.core) v.id v.rank (stepPhase v.d w)

/-- Record what a step left: its flags, and a break of the bank plan at the step boundary (R54, R92). -/
def noteStep (s : State) (id core : Nat) (fl : AFlags) (broke : Bool) : State :=
  let s := s.modTask id fun t => { t with flags := t.flags ||| fl }
  if broke then settleIntrusion s id core else s

/-- Count of deliveries of a staged operand on a tile (R185). -/
def deliveriesOf (x : LoopWork) (b : Bool) (t : Tile) : Nat := Table.get 0 (if b then x.delivB else x.delivA) (tileIdx t)

/-- Whether the buffers that the next step of a walk reads have been filled: by the core, for step 0 before the walk
began, or by a delivery of each staged tile (R179, R185). -/
def stepReady (v : WalkEnv) (x : LoopWork) (w : CoreWalk) : Bool :=
  let t := coreTile v.core
  decide (walkSteps v w ≤ w.step) ||
    ((if v.d.a.mcast then decide (w.step < deliveriesOf x false t) else w.step != 0 || w.fillA)
      && (v.d.op == 1 || (if v.d.b.mcast then decide (w.step < deliveriesOf x true t) else w.step != 0 || w.fillB)))

/-- Walks of the cores as they start: ranges of R176, an empty one done at dispatch. -/
def startWalks (d : LoopBody) (k : Bucket) (p : Nat) : Table CoreWalk :=
  let u := unitsOf d k d.split
  (List.range p).map fun r =>
    let sh := shareOf u p r
    (r, { first := sh.1, units := sh.2, done := sh.2 == 0 })

/-- Whether every walk is done. -/
def walksDone (x : LoopWork) : Bool := x.walks.all fun w => w.2.done

/-- What a rank of a task knows of the walk of a body. -/
def walkEnv (s : State) (t : Task) (d : LoopBody) (bucket rank : Nat) : WalkEnv :=
  { id := t.id, core := nth 0 t.cores rank, rank := rank, ctx := coreCtx s t rank, d := d, k := d.bucket bucket
    acc := hAccFirst t.hdr, cores := t.cores.length }

/-- Mark the fills of a walk's step 0 as issued. -/
def markFill (b : Bool) (w : CoreWalk) : CoreWalk := if b then { w with fillB := true } else { w with fillA := true }

/-- One operand's fill for step 0 of a rank's walk, unless the walk has no step (R179). -/
def fillFirst (s : State) (v : WalkEnv) (w : CoreWalk) (b : Bool) : State × Except AccErr StepOut :=
  if w.units = 0 then (s, .ok { walk := w })
  else andThen (fillStep s v w 0 [b]) fun s x => (s, .ok { walk := markFill b w, broke := x })

end Sys2Proof.Machine
end

