-- ==== Sys2Proof/Machine/Attn.lean ====
section
/-!
DEFINITION. The arithmetic of the attention chain on rows: scores (R232), weights (R235), one block of one row with its
correction (R232, R233, R236), the merge of partials (R239), the finishing of a row (R240, R241) and the backward
products (R253).
-/

namespace Sys2Proof.Machine

/-- FP32 minus infinity. -/
def negInf : Word32 := 0xFF800000

/-- A fresh row (R232). -/
def newRow (d : Nat) : Row := { m := negInf, l := 0, o := List.replicate d 0 }

/-- A row with canonical NaN in every field (R233). -/
def nanRow (d : Nat) : Row := { m := nan32, l := nan32, o := List.replicate d nan32 }

/-- Whether the merge core must finish a row as NaN because of this partial or state (R233). -/
def rowNan (r : Row) : Bool :=
  (f32 r.m).isNan || r.m == 0x7F800000 || (f32 r.l).isNan || r.o.any fun w => (f32 w).isNan

/-- The score of one key against one query: the engine product over d, scaled once (R232). -/
def scoreOf (scale : Word32) (q k : List Val) : Word32 × AFlags :=
  let s := engineRun false 4 0 q k
  let t := f32Mul s.1 scale
  (t.1, s.2 ||| t.2)

/-- A weight as the engines take it: its high and low parts and what l adds (R232, R235). -/
structure Weight where
  hi : Val
  lo : Val
  sum : Word32
deriving DecidableEq, Repr

/-- The zero weight of a masked key. -/
def zeroWeight : Weight := ⟨.fin false 0 0, .fin false 0 0, 0⟩

/-- Round to nearest even onto the grid of R235. -/
def gridRound (w : Word32) : Val :=
  match f32 w with
  | .fin n m e =>
    if m = 0 then .fin n 0 0
    else let q := max ((f32 w).expo - 15) (-133); .fin n (rneUnits m e q) q
  | v => v

/-- The weight of a value, whole in BF16 or split in two (R232, R235). -/
def weightOf (psplit : Bool) (p : Word32) : Weight × AFlags :=
  if psplit then
    let v := gridRound p
    let h := Elem.bf16.encode false v
    let hi := Elem.bf16.decode h.1
    (⟨hi, v.minus hi, toF32 v⟩, h.2)
  else
    let h := Elem.bf16.encode false (f32 p)
    let v := Elem.bf16.decode h.1
    (⟨v, .fin false 0 0, toF32 v⟩, h.2)

/-- One output element's PV steps: groups of 4 keys, with the low step after the high one under PSPLIT (R64, R235). -/
def pvRun (psplit : Bool) (o : Word32) (ws : List Weight) (vs : List Val) : Word32 × AFlags :=
  (chunks 4 ws.length (ws.zip vs)).foldl (fun a g =>
    let h := engineStep a.1 (g.map fun p => (p.1.hi, p.2))
    if psplit then
      let l := engineStep h.1 (g.map fun p => (p.1.lo, p.2))
      (l.1, a.2 ||| h.2 ||| l.2)
    else (h.1, a.2 ||| h.2)) (o, noFlags)

/-- Every output element's PV steps; V by rows of keys. -/
def pvRow (psplit : Bool) (o : List Word32) (ws : List Weight) (vs : List (List Val)) : List Word32 × AFlags :=
  let rs := (o.zip (List.range o.length)).map fun p => pvRun psplit p.1 ws (vs.map fun v => nth (.fin false 0 0) v p.2)
  (rs.map (·.1), orFlags (rs.map (·.2)))

/-- What an operation on a row gives: the row, its flags, and the corrections or factors computed (R236). -/
structure RowOut where
  row : Row
  flags : AFlags := 0
  rescales : Nat := 0
deriving DecidableEq, Repr

/-- Multiply l and every o by a factor (R236). -/
def scaleRow (r : Row) (a : Word32) : Row × AFlags :=
  let l := f32Mul r.l a
  let os := r.o.map fun x => f32Mul x a
  ({ r with l := l.1, o := os.map (·.1) }, l.2 ||| orFlags (os.map (·.2)))

/-- The correction of a row whose maximum rises from a value that is not empty (R236). -/
def correct (iter : Bool) (r : Row) (mn : Word32) : RowOut :=
  if (f32 r.m).lt (f32 mn) && r.m != negInf then
    let d := f32Sub r.m mn
    let a := sfExp2 iter d.1
    let (r, fl) := scaleRow r a.1
    { row := r, flags := d.2 ||| a.2 ||| fl, rescales := 1 }
  else { row := r }

/-- The weights of a row's keys under its maximum, with the new sum (R232). -/
def weigh (iter psplit : Bool) (m : Word32) (ts : List (Option Word32)) (l : Word32) : List Weight × Word32 × AFlags :=
  ts.foldl (fun a t =>
    let (w, fl) : Weight × AFlags := match t with
      | none => (zeroWeight, noFlags)
      | some t =>
        if t = negInf then (zeroWeight, noFlags)
        else
          let d := f32Sub t m
          let p := sfExp2 iter d.1
          let w := weightOf psplit p.1
          (w.1, d.2 ||| p.2 ||| w.2)
    let s := f32Add a.2.1 w.sum
    (a.1 ++ [w], s.1, a.2.2 ||| fl ||| s.2)) ([], l, noFlags)

/-- The largest score of a row's keys; minus infinity where every key is masked. -/
def blockMax (ts : List (Option Word32)) : Word32 := ts.foldl (fun m t => f32Max m (t.getD negInf)) negInf

/-- Whether a row meets the condition of R233 in a block. -/
def meetsNan (ts : List (Option Word32)) : Bool :=
  ts.any fun t => match t with
    | none => false
    | some w => (f32 w).isNan || w == 0x7F800000

/-- One block of one row (R232 to R236); ts holds none for a masked key. A row already NaN stays so. -/
def blockRow (iter psplit : Bool) (r : Row) (ts : List (Option Word32)) (vs : List (List Val)) : RowOut :=
  if (f32 r.m).isNan then { row := r }
  else if meetsNan ts then { row := nanRow r.o.length, flags := flagNan }
  else
    let mn := f32Max r.m (blockMax ts)
    let c := correct iter r mn
    let (ws, l, f1) := weigh iter psplit mn ts c.row.l
    let (o, f2) := pvRow psplit c.row.o ws vs
    { row := { m := mn, l := l, o := o }, flags := c.flags ||| f1 ||| f2, rescales := c.rescales }

/-- Pass 1 of a two-pass task: the maximum alone; a row that meets R233 is NaN (R248). -/
def maxRow (r : Row) (ts : List (Option Word32)) : RowOut :=
  if (f32 r.m).isNan then { row := r }
  else if meetsNan ts then { row := { r with m := nan32 }, flags := flagNan }
  else { row := { r with m := f32Max r.m (blockMax ts) } }

/-- A factor of the merge: 1 at the new maximum, else computed (R239). -/
def mergeFactor (iter : Bool) (m mn : Word32) : Word32 × AFlags × Nat :=
  if (f32 m).lt (f32 mn) then
    let d := f32Sub m mn
    let a := sfExp2 iter d.1
    (a.1, d.2 ||| a.2, 1)
  else (one32, noFlags, 0)

/-- Two products and their sum, each rounded (R239). -/
def blend (x a y b : Word32) : Word32 × AFlags :=
  let p := f32Mul x a
  let q := f32Mul y b
  let r := f32Add p.1 q.1
  (r.1, p.2 ||| q.2 ||| r.2)

/-- Merge one partial into a row (R239). A row that R233 makes NaN, which its m says, takes no part. -/
def mergeRow (iter : Bool) (a b : Row) : RowOut :=
  if (f32 a.m).isNan then { row := a }
  else if b.m = negInf then { row := a }
  else if a.m = negInf then { row := b }
  else
    let mn := f32Max a.m b.m
    let (x, f1, n1) := mergeFactor iter a.m mn
    let (y, f2, n2) := mergeFactor iter b.m mn
    let l := blend a.l x b.l y
    let os := (a.o.zip b.o).map fun p => blend p.1 x p.2 y
    { row := { m := mn, l := l.1, o := os.map (·.1) }, flags := f1 ||| f2 ||| l.2 ||| orFlags (os.map (·.2))
      rescales := n1 + n2 }

/-- A finished row: output before the epilogue, log-sum-exp, flags, and the counter it adds to (R240, R241, R233). -/
structure Finished where
  y : List Word32
  lse : Word32
  flags : AFlags := 0
  nan : Bool := false
  empty : Bool := false
deriving DecidableEq, Repr

/-- Finish a merged row (R240). A NaN in m marks a row that R233 makes NaN; one that the merge itself formed in an
element stays in that element. -/
def finishRow (iter : Bool) (r : Row) : Finished :=
  let d := r.o.length
  if (f32 r.m).isNan then { y := List.replicate d nan32, lse := nan32, flags := flagNan, nan := true }
  else if r.m = negInf then { y := List.replicate d 0, lse := negInf, empty := true }
  else
    let rc := sfRcp iter r.l
    let ys := r.o.map fun x => f32Mul x rc.1
    let lg := sfLg2 iter r.l
    let e := f32Add r.m lg.1
    { y := ys.map (·.1), lse := e.1, flags := rc.2 ||| lg.2 ||| e.2 ||| orFlags (ys.map (·.2)) }

/-! ### The backward pass -/

/-- Delta of a row (R253). -/
def deltaOf (dos os : List Word32) : Word32 × AFlags :=
  (dos.zip os).foldl (fun a p => let r := f32Fma p.1 p.2 a.1; (r.1, a.2 ||| r.2)) (0, noFlags)

/-- A query row of a backward task: q, do, lse and delta. -/
structure BackRow where
  q : List Val
  dO : List Val
  lse : Word32
  delta : Word32
deriving DecidableEq, Repr

/-- Weight and gradient weight of one key for one row (R253). A masked key of a row that has no unmasked key gives
+0 in both. -/
def backKey (iter psplit : Bool) (gs : Word32) (r : BackRow) (t : Option Word32) (v : List Val) :
    (Weight × Weight) × AFlags :=
  if t.isNone && r.lse == negInf then ((zeroWeight, zeroWeight), noFlags)
  else
    let (p, f1) : Word32 × AFlags := match t with
      | none => (0, noFlags)
      | some t =>
        if t = negInf then (0, noFlags)
        else let d := f32Sub t r.lse; let e := sfExp2 iter d.1; (e.1, d.2 ||| e.2)
    let w := weightOf psplit p
    let dp := engineRun false 4 0 r.dO v
    let a := f32Sub dp.1 r.delta
    let b := f32Mul p a.1
    let ds := f32Mul b.1 gs
    let u := weightOf psplit ds.1
    ((w.1, u.1), f1 ||| w.2 ||| dp.2 ||| a.2 ||| b.2 ||| ds.2 ||| u.2)

/-- Accumulate weights of the rows of a tile times vectors onto one key's gradient, rows ascending (R64, R253). A key
that is masked for every row of the tile receives nothing (R254). -/
def keyGrad (psplit masked : Bool) (acc : List Word32) (ws : List Weight) (xs : List (List Val)) : List Word32 × AFlags :=
  if masked then (acc, noFlags) else pvRow psplit acc ws xs

end Sys2Proof.Machine
end

