-- ==== Sys2Proof/Machine/Cars.lean ====
section
/-!
DEFINITION. What the ring unit and the chains share: the geometry of pages and cars (R285, R286, R338), the descriptor of
a car set, its frames and steps (R346, R348), and the order in which a chain takes cars (R349, R352).
-/

namespace Sys2Proof.Machine

/-! ### Pages -/

/-- Element format of a page format code (R285). -/
def pageElem : Nat → Elem
  | 0 => .bf16
  | 1 => .e4m3
  | 2 => .int8
  | _ => .int4

/-- Head dimension of a DCODE (R219). -/
def headDim (dcode : Nat) : Nat := 64 * 2 ^ dcode

/-- Bytes of one token's data in a region. -/
def tokenBytes (d fmt : Nat) : Nat := d * (pageElem fmt).width / 8

/-- Bytes of one token's scales in a region. -/
def scaleBytes (d fmt : Nat) : Nat := if fmt = 0 then 0 else d / 16

/-- Rg of R286: bytes of one region of T tokens. -/
def regionBytes (t d fmt : Nat) : Nat := t * (tokenBytes d fmt + scaleBytes d fmt)

/-- A page or car body as a chain reads it: where it lies, its format, its tokens and its first position. -/
structure PageRef where
  va : Nat
  fmt : Nat
  tokens : Nat
  first : Nat
deriving DecidableEq, Repr

/-! ### Car-set descriptors (R338) -/

def csLocalVa (d : Nat) : Nat := bits d 511 464
def csBufVa (d : Nat) : Nat := bits d 463 416
def csBufBytes (d : Nat) : Nat := bits d 415 384
def csLocalPos (d : Nat) : Nat := bits d 383 352
def csLocalKeys (d : Nat) : Nat := bits d 351 320
def csFirstTick (d : Nat) : Nat := bits d 319 256
def csFrameTicks (d : Nat) : Nat := bits d 255 224
def csSendSlot (d : Nat) : Nat := bits d 223 212
def csComputeSlot (d : Nat) : Nat := bits d 211 200
def csSteps (d : Nat) : Nat := bits d 199 191
def csHeads (d : Nat) : Nat := bits d 190 182
def csTokens (d : Nat) : Nat := 16 * 2 ^ bits d 181 178
def csFmt (d : Nat) : Nat := bits d 177 176
def csDcode (d : Nat) : Nat := bits d 175 174

/-- CAR_BYTES (R338). -/
def carBytes (d : Nat) : Nat := 2 * csHeads d * regionBytes (csTokens d) (headDim (csDcode d)) (csFmt d)

/-- The stop's own cars (R338). -/
def ownCars (d : Nat) : Nat := ceilDiv (csLocalKeys d) (csTokens d)

/-- A started car set. -/
def carSetOf (s : State) (w : Wing) (k : CarSetKey) : Option CarSet := (s.carSets.get w).find? fun c => c.key = k

/-- Change a car set. -/
def State.modCarSet (s : State) (w : Wing) (k : CarSetKey) (f : CarSet → CarSet) : State :=
  { s with carSets := s.carSets.modify w fun l => updateWhere (fun c => c.key = k) f l }

/-- Step k of a car set. -/
def CarSet.step (c : CarSet) (k : Nat) : CarStep := (Table.find c.steps k).getD {}

/-- Change step k. -/
def CarSet.modStep (c : CarSet) (k : Nat) (f : CarStep → CarStep) : CarSet :=
  { c with steps := Table.insert c.steps k (f (c.step k)) }

/-! ### Header fields of cars (R341) -/

def carFirstPos (h : Entry) : Nat := ent h 511 480
def carSetNum (h : Entry) : Nat := ent h 479 464
def carIndex (h : Entry) : Nat := ent h 463 448
def carOrigin (h : Entry) : Nat := ent h 447 440
def carStep (h : Entry) : Nat := ent h 439 432
def carValid (h : Entry) : Nat := ent h 431 419
def carPart (h : Entry) : Nat := ent h 401 398
def carKind (h : Entry) : Nat := ent h 397 396
def carLast (h : Entry) : Bool := bit h.toNat 395
def carCause (h : Entry) : Nat := ent h 394 379

/-! ### Frames and steps -/

/-- Whether the wing's count has reached a slot after a tick (R325). -/
def slotReached (s : State) (w : Wing) (tick slot : Nat) : Bool :=
  let t := s.tt.get w
  decide (16 * tick + slot ≤ 16 * t.count.toNat + t.slot)

/-- Tick at which frame k begins (R346). -/
def frameTick (d k : Nat) : Nat := csFirstTick d + k * csFrameTicks d

/-- Whether frame k has begun. -/
def frameBegun (s : State) (w : Wing) (d k : Nat) : Bool := slotReached s w (frameTick d k) 0

/-- Whether a car set is running: its first tick has come and it is neither done nor failed (R340). -/
def CarSet.running (c : CarSet) : Bool := c.phase == .running

/-- Cars of a step once it has closed; the stop's own at step 0 (R348). -/
def stepCars (c : CarSet) (k : Nat) : Option Nat :=
  if k = 0 then some (ownCars c.desc)
  else
    let st := c.step k
    if st.empty.isSome then some 0
    else match st.received.find? fun x => carLast x.2 with
      | none => none
      | some (j, _) => if (List.range (j + 1)).all fun i => (Table.find st.received i).isSome then some (j + 1) else none

/-- Whether a step has closed. -/
def stepClosed (c : CarSet) (k : Nat) : Bool := (stepCars c k).isSome

/-- Header of an own car j (R341). -/
def ownFirst (d j : Nat) : Nat := csLocalPos d + j * csTokens d

/-- Valid tokens of an own car j (R338). -/
def ownValid (d j : Nat) : Nat := min (csTokens d) (csLocalKeys d - j * csTokens d)

/-- Where the body of car j of step k lies (R338, R346). -/
def carVa (d k j : Nat) : Nat :=
  if k = 0 then csLocalVa d + j * carBytes d
  else csBufVa d + (k - 1) % 2 * csBufBytes d + j * carBytes d

/-- A car that a chain may take: its step, index, body and valid tokens. -/
structure CarRef where
  step : Nat
  index : Nat
  page : PageRef
  valid : Nat
deriving DecidableEq, Repr

/-- Car j of step k, when the stop holds it in full. -/
def heldCar (c : CarSet) (k j : Nat) : Option CarRef :=
  let d := c.desc
  if k = 0 then
    if j < ownCars d then some ⟨0, j, ⟨carVa d 0 j, csFmt d, csTokens d, ownFirst d j⟩, ownValid d j⟩ else none
  else (Table.find (c.step k).received j).map fun h => ⟨k, j, ⟨carVa d k j, csFmt d, csTokens d, carFirstPos h⟩, carValid h⟩

/-- The n-th car in ascending (step, index) from step k, with fuel for the steps (R352). -/
def nthCar (c : CarSet) : Nat → Nat → Nat → Option CarRef
  | 0, _, _ => none
  | f + 1, k, n =>
    match heldCar c k n with
    | some x => some x
    | none =>
      match stepCars c k with
      | some m => if m ≤ n then nthCar c f (k + 1) (n - m) else none
      | none => none

/-- Cars that stand before step k in the order of R352, every step below it being closed. -/
def carsBefore (c : CarSet) : Nat → Option Nat
  | 0 => some 0
  | k + 1 =>
    match carsBefore c k, stepCars c k with
    | some a, some b => some (a + b)
    | _, _ => none

/-- Whether a wing's stop is locked; holdover counts (R330, R336). -/
def stopLocked (s : State) (w : Wing) : Bool :=
  let t := s.tt.get w
  (t.lock == .locked || t.lock == .holdover) && !t.ownBad && !t.beatBad

end Sys2Proof.Machine
end

