-- ==== Sys2Proof/Machine/Porter.lean ====
section
/-!
DEFINITION. The Porter: sequence records (R288, R290 to R292), the walk of the KV page table with its look-aside buffer
(R293 to R299), walk faults (R296, R317), the contents of pages (R231, R285 to R287), masks (R304, R305), rotary
encoding (R306, R307) and prefix lookups (R309 to R313).
-/

namespace Sys2Proof.Machine

/-- An error with the unit of the cause log that met it (R560). -/
structure UnitErr where
  err : AccErr
  unit : LogUnit := .core
  /-- Core index for DETAIL (R560). -/
  core : Nat := 0
deriving DecidableEq, Repr

/-- Name the core at which an outcome arose. -/
def atCore {α : Type} (i : Nat) (r : State × Except UnitErr α) : State × Except UnitErr α :=
  match r with
  | (s, .error e) => (s, .error { e with core := i })
  | (s, .ok a) => (s, .ok a)

/-- Run a step over a list, threading the state and a value; the first error ends it. -/
def foldErr {ε α β : Type} (f : State → β → α → State × Except ε β) : State → β → List α → State × Except ε β
  | s, b, [] => (s, .ok b)
  | s, b, a :: as =>
    match f s b a with
    | (s, .error e) => (s, .error e)
    | (s, .ok b) => foldErr f s b as

/-- An access error met by a core. -/
def coreErr (e : AccErr) : UnitErr := { err := e }

/-! ### Sequence records -/

def seqEnd (r : Nat) : Nat := bits r 511 448
def seqStart (r : Nat) : Nat := bits r 447 416
def seqL1 (r : Nat) : Nat := bits r 415 368
def seqL1Count (r : Nat) : Nat := bits r 367 355
def seqHeads (r : Nat) : Nat := bits r 354 346
def seqDcode (r : Nat) : Nat := bits r 345 344
def seqWide (r : Nat) : Nat := bits r 343 342
def seqValid (r : Nat) : Bool := bit r 0

/-- Whether a record matches a task (R291): DCODE, heads, WIDE, START and END, reserved bits. -/
def seqMatches (r dcode heads : Nat) : Bool :=
  seqDcode r == dcode && decide (heads ≤ seqHeads r) && seqWide r != 3 && decide (seqStart r ≤ seqEnd r)
    && bits r 341 1 == 0

/-- The sequence record of a task at step 5 (R291), from the pinned edition's header. -/
def captureSeq (s : State) (c : Ctx) (hdr seq dcode heads : Nat) : State × Except AccErr Nat :=
  if bits hdr 463 432 ≤ seq then (s, .error (bad 0x0603))
  else andThen (loadNum s c (bits hdr 511 464 + 8 * (seq / 64)) 8) fun s i =>
    if i = 0 then (s, .error (bad 0x0603))
    else if bits i 63 48 ≠ 0 ∨ bits i 11 0 ≠ 0 then (s, .error (bad 0x0602))
    else andThen (loadNum s c (bits i 47 12 * 4096 + 64 * (seq % 64)) 64) fun s r =>
      (s, if !seqValid r then .error (bad 0x0603) else if !seqMatches r dcode heads then .error (bad 0x0605) else .ok r)

/-! ### Walk faults -/

/-- Record a walk fault at a tile's Porter (R296, R317). -/
def walkFault (s : State) (t : Tile) (part tag seq pos level cause : Nat) : State :=
  let s := raise s 0x0601 tag (blkPw t) part
  let s := addCtr s (blkPw t) 0x0220
  if flg (s.porter.get t).faultInfo 31 then s
  else s.modPorter t fun p =>
    { p with
      faultInfo := pack [(1, 31), (level % 4, 24), (part % 16, 20), (cause % 2 ^ 16, 0)]
      faultSeq := BitVec.ofNat 32 seq
      faultPos := BitVec.ofNat 32 pos }

/-- What a walk is made for: the core's context, the task's tag, the edition pinned, the sequence and its record. -/
structure WalkFor where
  ctx : Ctx
  tag : Nat
  edition : Word32
  seq : Nat
  rec_ : Nat
deriving DecidableEq, Repr

/-- A walk fault at a level, as the chain meets it. -/
def failWalk (s : State) (v : WalkFor) (pos level : Nat) (e : AccErr) : State × UnitErr :=
  (walkFault s v.ctx.tile v.ctx.part v.tag v.seq pos level e.cause, { err := e, unit := .porter })

/-! ### Directory entries (R294) -/

def dirKind (e : Nat) : Nat := bits e 55 54
def dirSize (e : Nat) : Nat := bits e 59 56
def dirFmt (e : Nat) : Nat := bits e 53 52
def dirVa (e : Nat) : Nat := bits e 47 6 * 64

/-- Reserved bits of a directory entry. -/
def dirClean (e : Nat) : Bool := bits e 63 60 == 0 && bits e 51 48 == 0 && bits e 5 0 == 0 && dirKind e != 3

/-- The cause with which an entry fails as a table entry, if it does (R295): invalid 0x0604, else malformed. -/
def tableFault (e : Nat) : Option Nat :=
  if dirKind e = 0 then some 0x0604
  else if dirClean e && dirKind e == 1 && dirSize e == 0 && dirFmt e == 0 && dirVa e % 2048 == 0 then none
  else some 0x0602

/-- Formats that WIDE permits (R290). -/
def widePermits (wide fmt : Nat) : Bool :=
  match wide with
  | 0 => fmt == 0
  | 1 => true
  | 2 => fmt == 0 || fmt == 3
  | _ => false

/-- Whether an entry is a leaf of a permitted size and format. -/
def leafFine (e wide lo hi : Nat) : Bool :=
  dirClean e && dirKind e == 2 && decide (lo ≤ dirSize e ∧ dirSize e ≤ hi) && widePermits wide (dirFmt e)

/-- The cause with which an entry fails as a level-3 leaf, if it does. -/
def leafFault (e wide : Nat) : Option Nat :=
  if dirKind e = 0 then some 0x0604 else if leafFine e wide 0 7 then none else some 0x0602

/-! ### The look-aside buffer -/

/-- The level-2 entry that the buffer holds for a span (R298). -/
def labFind (s : State) (v : WalkFor) (span : Nat) : Option LabEntry :=
  (s.porter.get v.ctx.tile).lab.find? fun x =>
    x.part == v.ctx.part && x.edition == v.edition && x.seq == v.seq && x.span == span

/-- Put an entry first, the least recently used one leaving a full buffer (R298). -/
def labUse (s : State) (t : Tile) (x : LabEntry) : State :=
  s.modPorter t fun p =>
    { p with lab := (x :: p.lab.filter fun y => !(y.part == x.part && y.edition == x.edition && y.seq == x.seq && y.span == x.span)).take 512 }

/-- The level-2 entry of a position, from the buffer or from levels 1 and 2 (R295, R298). -/
def level2 (s : State) (v : WalkFor) (pos : Nat) : State × Except UnitErr Nat :=
  let t := v.ctx.tile
  let fail (s : State) (level : Nat) (e : AccErr) : State × Except UnitErr Nat :=
    let r := failWalk s v pos level e
    (r.1, .error r.2)
  if seqL1Count v.rec_ ≤ pos / 2 ^ 20 then fail s 1 (bad 0x0604)
  else match labFind s v (pos / 4096) with
    | some x => (labUse (addCtr s (blkPw t) 0x0208) t x, .ok x.entry)
    | none =>
      let s := addCtr s (blkPw t) 0x0210
      if seqL1 v.rec_ % 64 ≠ 0 then fail s 1 (bad 0x0602)
      else match loadNum s v.ctx (seqL1 v.rec_ + 8 * (pos / 2 ^ 20)) 8 with
        | (s, .error e) => fail s 1 e
        | (s, .ok e1) =>
          match tableFault e1 with
          | some c => fail s 1 (bad c)
          | none =>
            match loadNum s v.ctx (dirVa e1 + 8 * (pos / 4096 % 256)) 8 with
            | (s, .error e) => fail s 2 e
            | (s, .ok e2) =>
              if dirKind e2 = 2 then
                if leafFine e2 (seqWide v.rec_) 8 8 then
                  (labUse s t ⟨v.ctx.part, v.edition, v.seq, pos / 4096, e2⟩, .ok e2)
                else fail s 2 (bad 0x0602)
              else match tableFault e2 with
                | some c => fail s 2 (bad c)
                | none => (labUse s t ⟨v.ctx.part, v.edition, v.seq, pos / 4096, e2⟩, .ok e2)

/-- A span of 4,096 positions as a core's Porter keeps it: the level-2 entry and, for a table, the level-3 table
(R298). -/
structure Span where
  num : Nat
  entry : Nat
  table : List Byte
deriving DecidableEq, Repr

/-- The span of a position: the one kept, or looked up anew (R298). -/
def spanOf (s : State) (v : WalkFor) (pos : Nat) (kept : Option Span) : State × Except UnitErr Span :=
  match kept with
  | some x => if x.num = pos / 4096 then (s, .ok x) else fresh s
  | none => fresh s
where
  /-- Look the span up and, for a table, read its 2 KiB. -/
  fresh (s : State) : State × Except UnitErr Span :=
    match level2 s v pos with
    | (s, .error e) => (s, .error e)
    | (s, .ok e2) =>
      if dirKind e2 = 2 then (s, .ok ⟨pos / 4096, e2, []⟩)
      else match loadVa s v.ctx (dirVa e2) 2048 with
        | (s, .error e) => let r := failWalk s v pos 3 e; (r.1, .error r.2)
        | (s, .ok bs) => (s, .ok ⟨pos / 4096, e2, bs⟩)

/-- The page that a leaf names for a position. -/
def leafPage (e pos : Nat) : PageRef :=
  let t := 16 * 2 ^ dirSize e
  ⟨dirVa e, dirFmt e, t, pos / t * t⟩

/-- Whether a position lies in [START, END) of the captured record (R295, R301). -/
def inSequence (r pos : Nat) : Bool := decide (seqStart r ≤ pos ∧ pos < seqEnd r)

/-- Resolve a position of the sequence (R295); the position lies in [START, END). -/
def resolve (s : State) (v : WalkFor) (pos : Nat) (kept : Option Span) : State × Except UnitErr (PageRef × Span) :=
  let s := addCtr s (blkPw v.ctx.tile) 0x0200
  match spanOf s v pos kept with
  | (s, .error e) => (s, .error e)
  | (s, .ok x) =>
    if dirKind x.entry = 2 then (s, .ok (leafPage x.entry pos, x))
    else
      let e := at8 x.table (8 * (pos / 16 % 256)) 8
      match leafFault e (seqWide v.rec_) with
      | some c => let r := failWalk s v pos 3 (bad c); (r.1, .error r.2)
      | none => (s, .ok (leafPage e pos, x))

/-! ### Page contents -/

/-- One token's key or value: elements times their scales, one FP32 rounding where the product is not exact (R231,
R286, R287), with the flags of the products (R54). -/
def readToken (s : State) (c : Ctx) (p : PageRef) (d region token : Nat) : Except AccErr (List Word32 × AFlags) :=
  let el := pageElem p.fmt
  let base := p.va + region * regionBytes p.tokens d p.fmt
  match readVa s c (base + token * tokenBytes d p.fmt) (tokenBytes d p.fmt) with
  | .error e => .error e
  | .ok bs =>
    let xs := (splitBits el.width d (leNat bs)).map el.decode
    if p.fmt = 0 then .ok (xs.map toF32, noFlags)
    else
      match readVa s c (base + p.tokens * tokenBytes d p.fmt + token * scaleBytes d p.fmt) (scaleBytes d p.fmt) with
      | .error e => .error e
      | .ok sb =>
        let sc := (splitBits 16 (d / 32) (leNat sb)).map Elem.bf16.decode
        let rs := (xs.zip (List.range d)).map fun q =>
          let f := nth (Val.ofInt 0) sc (q.2 / 32)
          f32Result [q.1, f] (q.1.mul f)
        .ok (rs.map (·.1), orFlags (rs.map (·.2)))

/-- Round FP32 words once to a format; the values kept and the flags (R52, R54). -/
def roundTo (el : Elem) (ws : List Word32) : List Val × AFlags :=
  let rs := ws.map fun w => el.encode false (f32 w)
  (rs.map fun r => el.decode r.1, orFlags (rs.map (·.2)))

/-! ### Rotary encoding -/

/-- Rotate one pair by an angle of 24 bits of a turn (R307). -/
def rotatePair (iter : Bool) (ang : Nat) (u v : Word32) : (Word32 × Word32) × AFlags :=
  let x := toF32 (.fin false ang (-24))
  let (sc, f0) := sfSinCos iter x
  let vs := f32Mul v sc.1
  let vc := f32Mul v sc.2
  let a := f32Fma u sc.2 (vs.1 ^^^ 0x80000000)
  let b := f32Fma u sc.1 vc.1
  ((a.1, b.1), f0 ||| vs.2 ||| vc.2 ||| a.2 ||| b.2)

/-- Angle of pair i at a position (R307): an exact product, modulo one turn, cut to 24 bits. -/
def ropeAngle (f pos : Nat) : Nat := pos * f % 2 ^ 64 / 2 ^ 40

/-- Rotate a vector at a position; PAIR selects how elements are paired (R306, R307). -/
def rotate (iter : Bool) (pair : Nat) (fs : List Nat) (e : List Word32) (pos : Nat) : List Word32 × AFlags :=
  let h := e.length / 2
  let at_ (i : Nat) : Nat × Nat := if pair = 0 then (i, i + h) else (2 * i, 2 * i + 1)
  let rs := (List.range h).map fun i =>
    rotatePair iter (ropeAngle (nth 0 fs i) (pos % 2 ^ 32)) (nth 0 e (at_ i).1) (nth 0 e (at_ i).2)
  let out := if pair = 0 then rs.map (·.1.1) ++ rs.map (·.1.2) else rs.foldr (fun r l => r.1.1 :: r.1.2 :: l) []
  (out, orFlags (rs.map (·.2)))

/-! ### Masks -/

/-- Whether a mask descriptor is well formed (R304). -/
def maskOk (m : Nat) : Bool :=
  let bitsVa := bits m 511 464
  let rowBytes := bits m 463 432
  let span := bits m 399 368
  bits m 335 4 == 0 && !bit m 0 && bitsVa % 64 == 0 && rowBytes % 64 == 0 && decide (span ≤ rowBytes * 8)
    && !(bitsVa == 0 && span != 0)

/-- The bitmap bit of R305 for a query row, its query position and a key position. -/
def maskBit (s : State) (c : Ctx) (m row q kp : Nat) : Except AccErr Bool :=
  let lo := bits m 431 400
  if lo ≤ kp ∧ kp - lo < bits m 399 368 then
    let i := kp - lo
    let r := if bit m 2 then row else q
    (readNum s c (bits m 511 464 + r * bits m 463 432 + i / 8) 1).map fun b => bit b (i % 8)
  else .ok (bit m 3)

/-- The bytes of the bitmap that one row of keys from position lo to position hi needs, as one read (R305). -/
def maskRange (m row q lo hi : Nat) : List (Nat × Nat) :=
  let first := max lo (bits m 431 400)
  let past := min (hi + 1) (bits m 431 400 + bits m 399 368)
  if first < past then
    let i := first - bits m 431 400
    [(bits m 511 464 + (if bit m 2 then row else q) * bits m 463 432 + i / 8, (past - 1 - bits m 431 400) / 8 + 1 - i / 8)]
  else []

/-- Whether the causal rule masks a key (R305). -/
def causalMasks (m posBase q kp : Nat) : Bool :=
  bit m 1 && decide ((posBase : Int) + q + signed 32 (bits m 367 336) < kp)

/-- Whether a key is masked for a row (R305). -/
def keyMasked (s : State) (c : Ctx) (m posBase row q kp : Nat) : Except AccErr Bool :=
  (maskBit s c m row q kp).map fun b => b || causalMasks m posBase q kp

/-! ### Prefix lookups (R309 to R313) -/

/-- Operands of a prefix-lookup command (R480). -/
structure PfxArgs where
  result : Nat
  start : Nat
  tokens : Nat
  count : Nat
  hash : Nat
  verify : Bool
  wing : Wing
deriving DecidableEq, Repr

/-- A prefix lookup as it proceeds: the last node matched, hashes matched, whether a collision was met. -/
structure PfxState where
  node : Nat
  matched : Nat := 0
  collision : Bool := false
deriving DecidableEq, Repr

def nodeTokens (n : Nat) : Nat := bits n 447 400
def nodeChild (n : Nat) : Nat := bits n 399 352
def nodeChildren (n : Nat) : Nat := bits n 351 336

/-- Whether a node is well formed (R309, R313). -/
def nodeOk (n : Nat) : Bool :=
  nodeTokens n % 64 == 0 && bits n 275 256 == 0 && bits n 191 0 == 0 && nodeChild n % 16 == 0
    && (nodeChildren n != 0 || nodeChild n == 0) && bits n 287 276 != 0

/-- Read a node. -/
def readNode (s : State) (c : Ctx) (va : Nat) : State × Except AccErr Nat :=
  if va % 64 ≠ 0 then (s, .error (bad 0x0602))
  else andThen (loadNum s c va 64) fun s n => (s, if nodeOk n then .ok n else .error (bad 0x0602))

/-- Entry i of a child array: HASH and the child's VA (R309). -/
def childEntry (s : State) (c : Ctx) (base i : Nat) : State × Except AccErr (Nat × Nat) :=
  andThen (loadNum s c (base + 16 * i) 16) fun s x =>
    (s, if bits x 15 0 ≠ 0 then .error (bad 0x0602) else .ok (bits x 127 64, bits x 63 16))

/-- Order of child entries (R309). -/
def pairLe (a b : Nat × Nat) : Bool := decide (a.1 < b.1) || (a.1 == b.1 && decide (a.2 ≤ b.2))

/-- Binary search for the first entry whose hash is not below h, with the lowest and highest entries compared so far as
bounds of the order (R312, R313); fuel for the halvings. -/
def childSearch (s : State) (c : Ctx) (base h : Nat) : Nat → Nat → Nat → Option (Nat × Nat) → Option (Nat × Nat) →
    State × Except AccErr Nat
  | 0, lo, _, _, _ => (s, .ok lo)
  | f + 1, lo, hi, low, high =>
    if hi ≤ lo then (s, .ok lo)
    else
      let mid := (lo + hi) / 2
      match childEntry s c base mid with
      | (s, .error e) => (s, .error e)
      | (s, .ok x) =>
        if !((low.map fun y => pairLe y x).getD true) || !((high.map fun y => pairLe x y).getD true) then
          (s, .error (bad 0x0602))
        else if x.1 < h then childSearch s c base h f (mid + 1) hi (some x) high
        else childSearch s c base h f lo mid low (some x)

/-- Children of the current node: the array and its entries (R308, R309). -/
def childrenOf (s : State) (c : Ctx) (hdr node : Nat) : State × Except AccErr (Nat × Nat) :=
  if node = 0 then (s, .ok (if bits hdr 511 464 = 0 then (0, 0) else (bits hdr 511 464, bits hdr 463 448)))
  else andThen (readNode s c node) fun s n => (s, .ok (nodeChild n, nodeChildren n))

/-- Whether a child matches: without VERIFY at once, with it when its stored tokens equal the request's (R312). -/
def childMatches (s : State) (c : Ctx) (a : PfxArgs) (i node : Nat) : State × Except AccErr Bool :=
  andThen (readNode s c node) fun s n =>
    if !a.verify then (s, .ok true)
    else if nodeTokens n = 0 then (s, .ok false)
    else andThen (loadVa s c (nodeTokens n) 256) fun s x => andThen (loadVa s c (a.tokens + 256 * i) 256) fun s y =>
      (s, .ok (x == y))

/-- Record a collision (R312, R313). -/
def pfxCollide (s : State) (t : Tile) (part tag : Nat) (p : PfxState) : State × PfxState :=
  let s := addCtr s (blkPw t) 0x0230
  (if p.collision then s else raise s 0x0602 tag (blkPw t) part, { p with collision := true })

/-- Try the children from entry j on whose hash is h, in ascending order (R312); fuel for their number. -/
def tryChildren (c : Ctx) (a : PfxArgs) (tag base n i h : Nat) :
    Nat → Nat → State → PfxState → State × PfxState × Except AccErr (Option Nat)
  | 0, _, s, p => (s, p, .ok none)
  | f + 1, j, s, p =>
    if n ≤ j then (s, p, .ok none)
    else match childEntry s c base j with
      | (s, .error e) => (s, p, .error e)
      | (s, .ok (h', va)) =>
        if h' ≠ h then (s, p, .ok none)
        else match childMatches s c a i va with
          | (s, .error e) => (s, p, .error e)
          | (s, .ok true) => (s, p, .ok (some va))
          | (s, .ok false) =>
            let (s, p) := pfxCollide s c.tile c.part tag p
            tryChildren c a tag base n i h f (j + 1) s p

/-- One hash of the list: the node it leads to, if any. -/
def lookupOne (s : State) (c : Ctx) (a : PfxArgs) (hdr tag i : Nat) (p : PfxState) :
    State × PfxState × Except AccErr (Option Nat) :=
  match (andThen (loadNum s c (a.hash + 8 * i) 8) fun s h => andThen (childrenOf s c hdr p.node) fun s b =>
      andThen (childSearch s c b.1 h 17 0 b.2 none none) fun s j => (s, .ok (h, b.1, b.2, j))) with
  | (s, .error e) => (s, p, .error e)
  | (s, .ok (h, base, n, j)) => tryChildren c a tag base n i h n j s p

/-- The lookup of R312 from hash i on, with fuel for the hashes left. -/
def lookupFrom (c : Ctx) (a : PfxArgs) (hdr tag : Nat) : Nat → Nat → State → PfxState → State × PfxState × Option AccErr
  | 0, _, s, p => (s, p, none)
  | f + 1, i, s, p =>
    match lookupOne s c a hdr tag i p with
    | (s, p, .error e) => (s, p, some e)
    | (s, p, .ok none) => (s, p, none)
    | (s, p, .ok (some va)) => lookupFrom c a hdr tag f (i + 1) s { p with node := va, matched := i + 1 }

/-- The result record (R313): DEPTH and REFS are those of the node named, 0 for the root. -/
def pfxRecord (s : State) (c : Ctx) (p : PfxState) (cause : Nat) : List Byte :=
  let n := if p.node = 0 then 0 else match readNum s c p.node 64 with
    | .ok n => n
    | .error _ => 0
  leBytes 32 (packN 256 [(p.node, 208), (bits n 223 192, 160), (bits n 255 224, 128), (p.matched, 96), (cause, 80),
    (b2n (cause == 0x0602), 1), (b2n p.collision, 0)]).toNat

/-- Operands of a prefix-lookup command (R480). -/
def pfxArgs (e : Entry) : PfxArgs :=
  { hash := ent e 511 464, start := ent e 463 416, tokens := ent e 415 368, result := ent e 367 320, count := ent e 319 304
    verify := bit e.toNat 303, wing := wingOfNum (ent e 302 302) }

/-- Header of the prefix tree current at a tile; an absent tree reads as an empty one (assumption log 27). -/
def pfxHeader (s : State) (t : Tile) (part : Nat) : Nat :=
  let i : Instance := .pfx (Fin.ofNat 16 part) (wingOf t)
  (((currentAt s i (.station t)).bind (editionOf s i)).map (·.hdr)).getD 0

/-- The lookup of a command: a TOKENS_VA that VERIFY needs and that is not aligned ends it before its first hash
(R312, R313). -/
def lookup (s : State) (c : Ctx) (a : PfxArgs) (tag : Nat) : State × PfxState × Option AccErr :=
  if a.verify ∧ a.tokens % 64 ≠ 0 then (s, { node := a.start }, some (bad 0x0602))
  else lookupFrom c a (pfxHeader s c.tile c.part) tag a.count 0 s { node := a.start }

/-- Perform a prefix lookup (R311 to R313): the lookup, its record, its answer. -/
def performPfx (s : State) (o : Origin) (e : Entry) : State :=
  let a := pfxArgs e
  let c := commandCtx s o e
  let w := wingOf c.tile
  if a.wing ≠ w then answerCommand s o e 0x0154 w
  else
    let s := addCtr s (blkPw c.tile) 0x0228
    let (s, p, err) := lookup s c a (entryTag e)
    let s := match err with
      | some x => failAcc s .task c.part x
      | none => s
    let cause := (err.map (·.cause)).getD 0
    match saveVa s c a.result (pfxRecord s c p cause) with
    | (s, none) => answerCommand s o e cause w .porter ((err.map (·.addr)).getD 0)
    | (s, some x) =>
      let s := failAcc s .task c.part x
      answerCommand s o e (if cause = 0 then x.cause else cause) w .porter (if x.phys then 0 else x.addr)

/-- PREFIX_LOOKUP (R311). -/
def execPrefixLookup (f : Func) (r : Fin 64) (s : State) : Host.Outcome State Fault Refusal :=
  .next (beginCommand s f r.val 5 performPfx)

end Sys2Proof.Machine
end

