-- ==== Sys2Proof/Machine/Chain.lean ====
section
/-!
DEFINITION. Chain tasks (R218 to R264): the body, its checks in the order of R257, the key blocks of each part, the
merge of the parts and the results.
-/

namespace Sys2Proof.Machine

/-! ### The body -/

/-- A chain body read (R219 to R222). -/
structure ChainBody where
  scale : Word32
  grad : Word32
  eps : Word32
  rmsW : Nat
  lse : Nat
  stateIn : Nat
  stateOut : Nat
  /-- First bank and count of the Q, key-value, P, carry and inbox ranges. -/
  q : Nat × Nat
  k : Nat × Nat
  p : Nat × Nat
  c : Nat × Nat
  i : Nat × Nat
  phMrg : Nat
  phOdd : Nat
  phEven : Nat
  phPro : Nat
  ksplit : Nat
  kvh : Nat
  g : Nat
  span : Nat
  tq : Nat
  bk : Nat
  dcode : Nat
  src : Nat
  rope : Nat
  epi : Nat
  order : Bool
  twoPass : Bool
  psplit : Bool
  maskVa : Nat
  qVa : Nat
  qHs : Nat
  qPs : Nat
  oVa : Nat
  oHs : Nat
  oPs : Nat
  ovfSat : Bool
  oFmt : Nat
  qFmt : Nat
  list : Nat
  seq : Nat
  kvhBase : Nat
  carSet : Nat
  doVa : Nat
  dqVa : Nat
  dkVa : Nat
  dvVa : Nat
  dkvHs : Nat
  dkvKs : Nat
  dkvFmt : Nat
  dqFmt : Nat
deriving DecidableEq, Repr

/-- Word w of a chain body. -/
def chainWord (body : List Byte) (w : Nat) : Nat := at8 body (64 * w) 64

/-- A chain body read. -/
def parseChain (body : List Byte) : ChainBody :=
  let x := chainWord body 0
  let y := chainWord body 1
  let z := chainWord body 2
  let b := chainWord body 3
  { scale := BitVec.ofNat 32 (bits x 511 480), grad := BitVec.ofNat 32 (bits x 479 448)
    eps := BitVec.ofNat 32 (bits x 447 416), rmsW := bits x 415 368, lse := bits x 367 320
    stateIn := bits x 319 272, stateOut := bits x 271 224
    q := (bits x 223 218, bits x 217 212), k := (bits x 211 206, bits x 205 200), p := (bits x 199 194, bits x 193 188)
    c := (bits x 187 182, bits x 181 176), i := (bits x 175 170, bits x 169 164)
    phMrg := bits x 151 149, phOdd := bits x 148 146, phEven := bits x 145 143, phPro := bits x 142 140
    ksplit := bits x 139 131, kvh := bits x 130 124, g := bits x 123 119, span := bits x 118 114
    tq := 8 * bits x 113 107, bk := 16 * 2 ^ bits x 106 104, dcode := bits x 103 102, src := bits x 101 100
    rope := bits x 99 98, epi := bits x 97 96, order := bit x 95, twoPass := bit x 94, psplit := bit x 93
    maskVa := bits x 92 45
    qVa := bits y 511 464, qHs := bits y 463 432, qPs := bits y 431 400, oVa := bits y 399 352, oHs := bits y 351 320
    oPs := bits y 319 288, ovfSat := bit y 15, oFmt := bits y 11 8, qFmt := bits y 3 0
    list := bits z 511 464, seq := bits z 463 432, kvhBase := bits z 431 424, carSet := bits z 423 408
    doVa := bits b 511 464, dqVa := bits b 463 416, dkVa := bits b 415 368, dvVa := bits b 367 320
    dkvHs := bits b 319 288, dkvKs := bits b 287 256, dkvFmt := bits b 11 8, dqFmt := bits b 7 4 }

/-- Head dimension D. -/
def ChainBody.d (b : ChainBody) : Nat := headDim b.dcode

/-- Run-time extents (R223). -/
def argQn (e : Entry) : Nat := ent e 511 480
def argKcount (e : Entry) : Nat := ent e 479 448
def argKvFirst (e : Entry) : Nat := ent e 447 416
def argPosBase (e : Entry) : Nat := ent e 415 384

/-- Query rows of a core (R224). -/
def rowsOf (e : Entry) (b : ChainBody) : Nat := argQn e * b.g

/-- Whether a task is a backward one. -/
def isBack (e : Entry) : Bool := hSub e == 1

/-! ### Check 1 of R257 -/

/-- Reserved bits of the words (R219 to R222); step 1 of R136 judges those of ARGS. -/
def chainReserved (e : Entry) (body : List Byte) : Bool :=
  let x := chainWord body 0
  let y := chainWord body 1
  let z := chainWord body 2
  let w := chainWord body 3
  bits x 163 152 == 0 && bits x 44 0 == 0 && bits y 287 16 == 0 && bits y 14 12 == 0 && bits y 7 4 == 0
    && bits z 407 0 == 0
    && (if isBack e then bits w 255 12 == 0 && bits w 3 0 == 0 else w == 0)

/-- Ranges of the general word (R219, R221) and the cores the task needs (R225). -/
def chainRanges (e : Entry) (body : List Byte) (b : ChainBody) : Bool :=
  decide (1 ≤ b.ksplit ∧ b.ksplit ≤ 336 ∧ 1 ≤ b.kvh ∧ b.kvh ≤ 64 ∧ 1 ≤ b.g ∧ b.g ≤ 16 ∧ 8 ≤ b.tq ∧ b.tq ≤ 512
      ∧ bits (chainWord body 0) 106 104 ≤ 5)
    && b.dcode != 3 && b.src != 3 && b.rope != 3 && decide (b.epi ≤ 1) && b.k.2 % 2 == 0
    && (b.ksplit != 1 || b.i.2 == 0) && (isBack e || b.order || b.c.2 == 0)
    && decide (b.kvhBase + b.kvh ≤ 256 ∧ b.kvh * b.ksplit ≤ coreCount e)
    && (b.src == 0 || argKvFirst e == 0) && decide (argKvFirst e + argKcount e ≤ 2 ^ 32)

/-- RMS_EPS is a finite value of at least +0, −0 counting as +0 (R280). -/
def epsOk (w : Word32) : Bool := (f32 w).isFin && !(f32 w).lt (.fin false 0 0)

/-- RMS rows (R219, R244). -/
def spanOk (e : Entry) (b : ChainBody) : Bool :=
  if b.epi = 0 then b.span == 0
  else
    let n := b.span * argQn e
    decide (1 ≤ b.span ∧ b.span ≤ b.g) && b.g % b.span == 0 && (n == 0 || b.tq % n == 0 || n % b.tq == 0)

/-- The rules on modes: R242, R248 and R254. -/
def modesFit (e : Entry) (b : ChainBody) : Bool :=
  (b.stateOut == 0 || b.epi == 0) && (!b.twoPass || (b.stateIn == 0 && b.stateOut == 0 && !isBack e))
    && (if isBack e then
          b.src != 1 && b.lse != 0 && !b.twoPass && b.epi == 0 && !b.order && b.stateIn == 0 && b.stateOut == 0
        else b.grad == 0)

/-- Check 1 of R257; the mask descriptor and the rotary table stand as fetched (R304, R306). -/
def chainBodyOk (e : Entry) (body : List Byte) (mask ropeVa : Nat) : Bool :=
  let b := parseChain body
  chainReserved e body && chainRanges e body b && epsOk b.eps && spanOk e b && modesFit e b
    && (b.maskVa == 0 || maskOk mask) && (b.rope == 0 || ropeVa != 0)

/-! ### Checks 2 to 7 of R257 -/

/-- Check 2. -/
def chainFormats (e : Entry) (b : ChainBody) : Bool :=
  (b.qFmt == 1 || b.qFmt == 2) && decide (b.oFmt ≤ 4) && (!isBack e || decide (b.dqFmt ≤ 1 ∧ b.dkvFmt ≤ 1))

/-- The car set a chain names, in its partition and wing (R351). -/
def chainCarKey (t : Task) (b : ChainBody) : CarSetKey := ⟨Fin.ofNat 16 t.part, BitVec.ofNat 16 b.carSet⟩

/-- The two checks of R351 on a CARS task; the descriptor of its car set on success. -/
def carChecks (s : State) (t : Task) (b : ChainBody) : Except AccErr Nat :=
  if !(stopLocked s t.wing && inService s) then .error (bad 0x0302)
  else match carSetOf s t.wing (chainCarKey t b) with
    | none => .error (bad 0x0302)
    | some c =>
      if !(c.phase == .armed || (c.running && !frameBegun s t.wing c.desc 1)) then .error (bad 0x0302)
      else if csDcode c.desc ≠ b.dcode ∨ csHeads c.desc < b.kvhBase + b.kvh then .error (bad 0x0304)
      else .ok c.desc

/-- wkv of R255 and R291: 0 for BF16. -/
def wkvOf (b : ChainBody) (record car : Nat) : Nat :=
  if b.src = 2 then (if csFmt car = 0 then 0 else (pageElem (csFmt car)).width)
  else match seqWide record with
    | 1 => 8
    | 2 => 4
    | _ => 0

/-- Bytes each range must hold, in the order Q, half key-value, P, carry, inbox (R255). -/
def rangeNeeds (e : Entry) (b : ChainBody) (wkv : Nat) : List Nat :=
  let r := rowsOf e b
  let d := b.d
  let f := if isBack e then 2 else 1
  let raw := if wkv = 0 then 0 else 2 * b.bk * (d * wkv / 8 + d / 16)
  [f * r * d * 2, 4 * b.bk * d + raw, f * (2 * b.tq * b.bk * 2 * (if b.psplit then 2 else 1)),
   if isBack e || b.order then r * d * 4 else 0, (b.ksplit - 1) * b.tq * (if isBack e then 4 * d else 4 * d + 8)]

/-- Check 4 (R255). -/
def chainBanksOk (e : Entry) (b : ChainBody) (wkv : Nat) : Bool :=
  let rs := [b.q, b.k, b.p, b.c, b.i]
  let hold := [b.q.2, b.k.2 / 2, b.p.2, b.c.2, b.i.2]
  (hold.zip (rangeNeeds e b wkv)).all (fun x => decide (x.2 ≤ x.1 * 65536))
    && rs.all (fun r => r.2 == 0 || covers r.1 r.2 (hBankFirst e) (hBankCount e))
    && (List.range 5).all fun x => (List.range x).all fun y =>
        let p := nth (0, 0) rs x
        let q := nth (0, 0) rs y
        p.2 == 0 || q.2 == 0 || !overlap p.1 p.2 q.1 q.2

/-- Working set (R256). -/
def workingSet (e : Entry) (b : ChainBody) : Nat :=
  2 * b.tq * b.bk * 4 + b.tq * b.d * 4 + (if isBack e then 2 * b.bk * b.d * 4 else 0)

/-- HOLD (R245). -/
def holdBytes (e : Entry) (b : ChainBody) : Nat :=
  if b.epi = 0 ∨ b.span ≤ 1 then 0 else (max b.tq (b.span * argQn e) - b.tq) * b.d * 4

/-- Capture the first held-row refusal since HELD_CLR (R262). -/
def captureHeld (s : State) (t : Task) (need : Nat) : State :=
  if flg (s.sch.get t.home).heldInfo 31 then s
  else s.modSch t.home fun x =>
    { x with
      heldInfo := pack [(1, 31), (t.ring % 64, 20), (t.part % 16, 16), (hAccCount t.hdr, 0)]
      heldNeed := BitVec.ofNat 32 (min need (2 ^ 32 - 1)) }

/-- Staging frames of the Q groups (R229). -/
def chainStaging (e : Entry) (b : ChainBody) : Nat := b.kvh * ceilDiv (rowsOf e b * b.d * 2) 65536

/-- Checks 4 to 7 of R257. -/
def chainCapacity (s : State) (t : Task) (b : ChainBody) (wkv : Nat) : State × Except AccErr Nat :=
  let cap := hAccCount t.hdr * 16384
  let ws := workingSet t.hdr b
  let need := chainStaging t.hdr b
  if !chainBanksOk t.hdr b wkv then (s, .error (bad 0x0102))
  else if cap < ws then (s, .error (bad 0x0101))
  else if cap < ws + holdBytes t.hdr b then (captureHeld s t (ws + holdBytes t.hdr b), .error (bad 0x0103))
  else if !stagingOk s t need then (s, .error (bad 0x0104))
  else (s, .ok need)

/-- Checks 1 to 7 of R257 with those of R351; the staging need on success. -/
def chainChecks (s : State) (t : Task) (x : ChainWork) : State × Except AccErr Nat :=
  let b := parseChain t.body
  if !chainBodyOk t.hdr t.body x.mask t.ropeVa then (s, .error (bad 0x0161))
  else if !chainFormats t.hdr b then (s, .error (bad 0x0141))
  else if 4096 < rowsOf t.hdr b then (s, .error (bad 0x0162))
  else if b.src = 2 then
    match carChecks s t b with
    | .error e => (s, .error e)
    | .ok d => chainCapacity s t b (wkvOf b x.record d)
  else chainCapacity s t b (wkvOf b x.record 0)

/-! ### Step 5 -/

/-- The pin of a task on its KV page table, and the edition's header. -/
def kvPin (s : State) (t : Task) : Option (Pin × Nat) :=
  let i : Instance := .kv (Fin.ofNat 16 t.part) t.wing
  (t.pinned i).bind fun p => (editionOf s i p.num).map fun e => (p, e.hdr)

/-- The sequence record of a PAGED or SELECTED task; its failures with a cause of class 0x06 are walk faults at the home
tile (R291, R296). No current page table is a sequence not present (R483). -/
def fetchRecord (s : State) (t : Task) (b : ChainBody) : State × Except AccErr Nat :=
  let r : State × Except AccErr Nat := match kvPin s t with
    | none => (s, .error (bad 0x0603))
    | some (_, h) => captureSeq s (taskCtx s t) h b.seq b.dcode (b.kvhBase + b.kvh)
  match r with
  | (s, .ok x) => (s, .ok x)
  | (s, .error e) =>
    (if 0x0600 ≤ e.cause then walkFault s t.home t.part (entryTag t.hdr) b.seq 0 0 e.cause else s, .error e)

/-- The parts of a chain task beside its body and plan that step 5 fetches: mask, rotary table, sequence record (R291,
R304, R306). -/
def fetchChain (s : State) (t : Task) (b : ChainBody) : State × Except AccErr ChainWork :=
  andThen (if b.maskVa = 0 then (s, .ok []) else fetch5 s t b.maskVa 64) fun s mask =>
    andThen (if b.rope = 0 ∨ t.ropeVa = 0 then (s, .ok []) else fetch5 s t t.ropeVa (8 * (b.d / 2))) fun s rope =>
      let x : ChainWork := { mask := leNat mask, rope := if rope.isEmpty then [] else splitBits 64 (b.d / 2) (leNat rope) }
      if b.src = 0 ∨ b.src = 1 then andThen (fetchRecord s t b) fun s r => (s, .ok { x with record := r })
      else (s, .ok x)

/-- Phases a chain body names, and those that carry engine steps (R77, R219). -/
def chainPhases (b : ChainBody) : List Nat × List Nat := ([b.phPro, b.phEven, b.phOdd, b.phMrg], [b.phEven, b.phOdd])

/-- Steps 5 to 7 of R136 for a chain task. It pins its partition's KV page table and prefix tree of the wing
(assumption log 12). -/
def checkChain : KindCheck := fun s t =>
  let p : Fin 16 := Fin.ofNat 16 t.part
  let t := { t with pins := t.pins ++ (pinAt s (.kv p t.wing) t.home).toList ++ (pinAt s (.pfx p t.wing) t.home).toList }
  andThen (fetch5 s t (hBody t.hdr) 256) fun s body => andThen (fetch5 s t (hPlan t.hdr) 128) fun s plan =>
    let t := { t with body := body, plan := plan }
    let b := parseChain body
    andThen (fetchChain s t b) fun s x =>
      if !planOk t.hdr plan (chainPhases b).1 (chainPhases b).2 then (s, .error (bad 0x0122))
      else andThen (chainChecks s t x) fun s need =>
        let x := { x with carTokens := if b.src = 2 then ((carSetOf s t.wing (chainCarKey t b)).map fun c => csTokens c.desc).getD 0 else 0 }
        (s, .ok { t with staging := need, zeroWork := argQn t.hdr == 0 || argKcount t.hdr == 0, work := .chain x })

/-- CHAIN_TASK_FORWARD (R257). -/
def execChainTaskForward (f : Func) (r : Fin 64) (s : State) : Host.Outcome State Fault Refusal :=
  .next (beginTask s f r.val 2 0 checkChain)

/-- CHAIN_TASK_BACKWARD (R253, R254). -/
def execChainTaskBackward (f : Func) (r : Fin 64) (s : State) : Host.Outcome State Fault Refusal :=
  .next (beginTask s f r.val 2 1 checkChain)

/-! ### Operands of a core -/

/-- Byte offset of element (head e, position q, 0) of an operand of width w bytes (R220). -/
def headOffset (hs ps e q w : Nat) : Nat := (e * hs + q * ps) * w

/-- Query head and position of row ρ of head group h (R224). -/
def rowHead (t : Task) (b : ChainBody) (h row : Nat) : Nat := (b.kvhBase + h) * b.g + row / argQn t.hdr
def rowPos (t : Task) (row : Nat) : Nat := row % argQn t.hdr

/-- Address of one query row. -/
def queryVa (t : Task) (b : ChainBody) (h row : Nat) : Nat :=
  b.qVa + headOffset b.qHs b.qPs (rowHead t b h row) (rowPos t row) 2

/-- The codes of one query row, rotated where asked and rounded once to Q_FMT (R230). -/
def queryRow (s : State) (c : Ctx) (t : Task) (b : ChainBody) (x : ChainWork) (h row : Nat) :
    Except AccErr (List Nat × AFlags) :=
  let el := (elemOf b.qFmt).1
  (readCodes s c (queryVa t b h row) 16 0 b.d).map fun cs =>
    if b.rope = 0 then (cs, noFlags)
    else
      let (ws, f) := rotate t.iterative t.ropePair x.rope (cs.map fun w => toF32 (el.decode w)) (argPosBase t.hdr + rowPos t row)
      let rs := ws.map fun w => el.encode false (f32 w)
      (rs.map (·.1), f ||| orFlags (rs.map (·.2)))

/-- Window offset of a range of banks. -/
def rangeBase (r : Nat × Nat) : Nat := 0x10000 * r.1

/-- The query rows of a core, as its Q range holds them. -/
def coreQueries (s : State) (t : Task) (b : ChainBody) (rank : Nat) : List (List Val) :=
  let n := rowsOf t.hdr b * b.d
  (cut b.d (splitBits 16 n (leNat (windowBytes s (nth 0 t.cores rank) (rangeBase b.q) (2 * n))))).map fun r =>
    r.map (elemOf b.qFmt).1.decode

/-- Tiles with a core of a head group (R185, R229). -/
def groupTiles (t : Task) (b : ChainBody) (h : Nat) : List Tile :=
  t.tiles.filter fun y => (List.range b.ksplit).any fun j => coreTile (nth 0 t.cores (h * b.ksplit + j)) == y

/-- Fetch the Q of a head group once for a tile, into its staging frames there (R229). -/
def stageQuery (t : Task) (b : ChainBody) (h : Nat) (s : State) (y : Tile) : State × Except UnitErr Unit :=
  let c : Ctx := { part := t.part, tile := y, copy := taskCfg s t }
  let rs := (List.range (rowsOf t.hdr b)).map fun i => (queryVa t b h i, 2 * b.d)
  match andThen (touchRanges s c rs) fun s _ => (s, mapErr (fun r : Nat × Nat => readVa s c r.1 r.2) rs) with
  | (s, .error e) => (s, .error (coreErr e))
  | (s, .ok bs) =>
    let n := ceilDiv (rowsOf t.hdr b * b.d * 2) 65536
    (addCtr (stageBytes s y (((stagingFrames s y t.id).drop (h * n)).take n) bs.flatten) (blkSch y) 0x0320, .ok ())

/-- One row of a backward task with its stored values (R253). -/
structure BackRanges where
  dO : Nat × Nat
  o : Nat × Nat
  lse : Nat × Nat
deriving DecidableEq, Repr

/-- Where the stored values of one row of a backward task lie (R220, R222, R253). -/
def backRanges (t : Task) (b : ChainBody) (h row : Nat) : BackRanges :=
  let w := (elemOf b.oFmt).1.width / 8
  let off := headOffset b.oHs b.oPs (rowHead t b h row) (rowPos t row) w
  ⟨(b.doVa + off, b.d * w), (b.oVa + off, b.d * w), (b.lse + 4 * (h * rowsOf t.hdr b + row), 4)⟩

/-- The prologue of one row of a backward task: dO, lse and delta (R253). -/
def backIn (s : State) (c : Ctx) (b : ChainBody) (r : BackRanges) : Except AccErr (BackIn × AFlags) :=
  let el := (elemOf b.oFmt).1
  match readCodes s c r.dO.1 el.width 0 b.d, readCodes s c r.o.1 el.width 0 b.d, readNum s c r.lse.1 4 with
  | .error e, _, _ => .error e
  | _, .error e, _ => .error e
  | _, _, .error e => .error e
  | .ok dos, .ok os, .ok l =>
    let f32s (cs : List Nat) : List Word32 := cs.map fun x => toF32 (el.decode x)
    let dl := deltaOf (f32s dos) (f32s os)
    .ok (⟨dos, BitVec.ofNat 32 l, dl.1⟩, dl.2)

/-- Chain work with the flags gathered so far. -/
abbrev ChainRun := ChainWork × AFlags

/-- The prologue of one core: its query rows into its Q range and, of a backward task, what its rows have stored (R230,
R247, R253). -/
def prologueCore (t : Task) (b : ChainBody) (h : Nat) (s : State) (r : ChainRun) (j : Nat) : State × Except UnitErr ChainRun :=
  let rank := h * b.ksplit + j
  let c := coreCtx s t rank
  let rows := List.range (rowsOf t.hdr b)
  match mapErr (queryRow s c t b r.1 h) rows with
  | .error e => (s, .error (coreErr e))
  | .ok qs =>
    let s := writeWindow s (nth 0 t.cores rank) (rangeBase b.q) (packCodes 16 (qs.map (·.1)).flatten)
    let fl := r.2 ||| orFlags (qs.map (·.2))
    if !isBack t.hdr then (s, .ok (r.1, fl))
    else
      let bs := rows.map (backRanges t b h)
      match andThen (touchRanges s c (bs.foldr (fun x l => x.dO :: x.o :: x.lse :: l) [])) fun s _ =>
          (s, mapErr (backIn s c b) bs) with
      | (s, .error e) => (s, .error (coreErr e))
      | (s, .ok l) => (s, .ok ({ r.1 with back := Table.insert r.1.back rank (l.map (·.1)) }, fl ||| orFlags (l.map (·.2))))

/-- The prologue of every head group: Q is multicast once on each tile of the group, then each core prepares its rows
(R229, R230, R253). -/
def prologue (t : Task) (b : ChainBody) (s : State) (r : ChainRun) : State × Except UnitErr ChainRun :=
  foldErr (fun s r h =>
    match foldErr (fun s _ y => stageQuery t b h s y) s () (groupTiles t b h) with
    | (s, .error e) => atCore (nth 0 t.cores (h * b.ksplit)) (s, .error e)
    | (s, .ok _) =>
      foldErr (fun s r j => atCore (nth 0 t.cores (h * b.ksplit + j)) (prologueCore t b h s r j)) s r (List.range b.ksplit))
    s r (List.range b.kvh)

/-! ### Keys -/

/-- A key slot of a block: the key's number in the task's order, its position, its page once known, and whether it
delivers a key at all (R226, R301). -/
structure Slot where
  num : Nat
  pos : Nat
  page : Option PageRef := none
  live : Bool
  /-- False past the end of the sequence, list or car. -/
  key : Bool := true
deriving DecidableEq, Repr

/-- A slot past the end of its sequence, list or car. -/
def deadSlot : Slot := ⟨0, 0, none, false, false⟩

/-- Key blocks of BK slots, the last filled with dead slots (R226). -/
def keyBlocks (bk : Nat) (xs : List Slot) : List (List Slot) :=
  (chunks bk xs.length xs).map fun l => l ++ List.replicate (bk - l.length) deadSlot

/-- The blocks of part j of KSPLIT (R226). -/
def partBlocks (ksplit j : Nat) (bs : List (List Slot)) : List (List Slot) :=
  let sh := shareOf bs.length ksplit j
  (bs.drop sh.1).take sh.2

/-- Slots of a PAGED task (R301). -/
def pagedSlots (e : Entry) (record : Nat) : List Slot :=
  (List.range (argKcount e)).map fun k =>
    let pos := argKvFirst e + k
    { num := k, pos := pos, live := inSequence record pos }

/-- Slots of a car: tokens at and beyond VALID are masked (R352). -/
def carSlots (c : CarRef) (base : Nat) : List Slot :=
  (List.range c.page.tokens).map fun t =>
    { num := base + t, pos := c.page.first + t, page := some c.page, live := decide (t < c.valid) }

/-- Slots of a SELECTED list entry (R302). -/
def entrySlots (record base : Nat) (p : PageRef) : List Slot :=
  (List.range p.tokens).map fun t =>
    { num := base + t, pos := p.first + t, page := some p, live := inSequence record (p.first + t) }

/-- What the walks of one core are made for. -/
def walkForCore (s : State) (c : Ctx) (t : Task) (b : ChainBody) (x : ChainWork) : WalkFor :=
  { ctx := c, tag := entryTag t.hdr, edition := ((kvPin s t).map (·.1.num)).getD 0, seq := b.seq, rec_ := x.record }

/-- Add one entry of a page list: it must name the first position of a page inside the sequence (R302). -/
def listEntry (v : WalkFor) (s : State) (acc : List Slot × Option Span) (pos : Nat) :
    State × Except UnitErr (List Slot × Option Span) :=
  let invalid (s : State) : State × Except UnitErr (List Slot × Option Span) :=
    let r := failWalk s v pos 0 (bad 0x0606)
    (r.1, .error r.2)
  if !inSequence v.rec_ pos then invalid s
  else match resolve s v pos acc.2 with
    | (s, .error e) => (s, .error e)
    | (s, .ok (p, sp)) =>
      if p.first ≠ pos then invalid s
      else (s, .ok (acc.1 ++ entrySlots v.rec_ acc.1.length p, some sp))

/-- Slots of head group h of a SELECTED task, as the Porter of one core's tile resolves its list (R297, R302, R381). -/
def selectedSlots (s : State) (t : Task) (b : ChainBody) (x : ChainWork) (h rank : Nat) : State × Except UnitErr (List Slot) :=
  let c := coreCtx s t rank
  let n := argKcount t.hdr
  match loadVa s c (b.list + 8 * n * h) (8 * n) with
  | (s, .error e) => (s, .error (coreErr e))
  | (s, .ok bs) =>
    let ps := (splitBits 64 n (leNat bs)).map fun e => bits e 31 0
    andThen (foldErr (listEntry (walkForCore s c t b x)) s ([], none) ps) fun s r => (s, .ok r.1)

/-! ### One key block of one part -/

/-- A key slot's K and V as the engines take them; a dead slot feeds zero. -/
structure KeyVal where
  k : List Val
  v : List Val
deriving DecidableEq, Repr

/-- Zero K and V of a slot that delivers no key. -/
def zeroKey (d : Nat) : KeyVal := let z := List.replicate d (.fin false 0 0 : Val); ⟨z, z⟩

/-- Form one key and, but in pass 1 of a two-pass task, its value (R231, R251). -/
def formKey (s : State) (c : Ctx) (t : Task) (b : ChainBody) (x : ChainWork) (h : Nat) (pass1 : Bool) (p : PageRef)
    (pos : Nat) : Except AccErr (KeyVal × AFlags) :=
  let head := b.kvhBase + h
  match readToken s c p b.d (2 * head) (pos - p.first) with
  | .error e => .error e
  | .ok (k, f0) =>
    let (k, f1) := if b.rope = 2 then rotate t.iterative t.ropePair x.rope k pos else (k, noFlags)
    let (k, f2) := roundTo .bf16 k
    if pass1 then .ok (⟨k, (zeroKey b.d).v⟩, f0 ||| f1 ||| f2)
    else (readToken s c p b.d (2 * head + 1) (pos - p.first)).map fun (v, f3) =>
      let (v, f4) := roundTo .bf16 v
      (⟨k, v⟩, f0 ||| f1 ||| f2 ||| f3 ||| f4)

/-- What a core carries from block to block. -/
structure PartState where
  rows : List Row
  flags : AFlags := 0
  span : Option Span := none
deriving DecidableEq, Repr

/-- The pages of a block's live slots, in order, and the span kept. -/
abbrev BlockPages := List (PageRef × Nat) × Option Span

/-- Resolve one slot of a block: its page is known, or the Porter resolves it (R295). -/
def slotPage (v : WalkFor) (s : State) (a : BlockPages) (sl : Slot) : State × Except UnitErr BlockPages :=
  match sl.page with
  | some p => (s, .ok (a.1 ++ [(p, sl.pos)], a.2))
  | none => andThen (resolve s v sl.pos a.2) fun s r => (s, .ok (a.1 ++ [(r.1, sl.pos)], some r.2))

/-- Runs of consecutive tokens of one page: page, first token, count. -/
def tokenRuns : List (PageRef × Nat) → List (PageRef × Nat × Nat)
  | [] => []
  | (p, t) :: l =>
    match tokenRuns l with
    | [] => [(p, t, 1)]
    | (q, t', n) :: r => if p = q ∧ t' = t + 1 then (p, t, n + 1) :: r else (p, t, 1) :: (q, t', n) :: r

/-- The tile transfers of a block: data and scales of the key, and but in pass 1 of the value, of each run (R251,
R297). -/
def blockRanges (b : ChainBody) (h : Nat) (pass1 : Bool) (ps : List (PageRef × Nat)) : List (Nat × Nat) :=
  (tokenRuns (ps.map fun p => (p.1, p.2 - p.1.first))).foldr (fun r l =>
    let (p, t, n) := r
    (if pass1 then [2 * (b.kvhBase + h)] else [2 * (b.kvhBase + h), 2 * (b.kvhBase + h) + 1]).foldr (fun reg l =>
      let base := p.va + reg * regionBytes p.tokens b.d p.fmt
      let tb := tokenBytes b.d p.fmt
      let sb := scaleBytes b.d p.fmt
      (base + t * tb, n * tb) :: (base + p.tokens * tb + t * sb, n * sb) :: l) l) []

/-- The keys of a block's slots from the pages of its live ones, with their flags. -/
def formKeys (s : State) (c : Ctx) (t : Task) (b : ChainBody) (x : ChainWork) (h : Nat) (pass1 : Bool) :
    List Slot → List (PageRef × Nat) → Except AccErr (List (KeyVal × AFlags))
  | [], _ => .ok []
  | sl :: ss, ps =>
    match sl.live, ps with
    | true, p :: ps =>
      match formKey s c t b x h pass1 p.1 p.2 with
      | .error e => .error e
      | .ok k => (formKeys s c t b x h pass1 ss ps).map (k :: ·)
    | _, ps => (formKeys s c t b x h pass1 ss ps).map ((zeroKey b.d, noFlags) :: ·)

/-- A block as it is loaded: its keys, their flags and the span kept. -/
structure Loaded where
  keys : List KeyVal
  flags : AFlags := 0
  span : Option Span := none
deriving DecidableEq, Repr

/-- Load a block: its pages are resolved, its transfers made, its keys formed (R231, R295, R297). -/
def loadBlock (c : Ctx) (t : Task) (b : ChainBody) (x : ChainWork) (h : Nat) (pass1 : Bool) (v : WalkFor) (s : State)
    (kept : Option Span) (slots : List Slot) : State × Except UnitErr Loaded :=
  andThen (foldErr (slotPage v) s ([], kept) (slots.filter (·.live))) fun s ps =>
    match touchRanges s c (blockRanges b h pass1 ps.1) with
    | (s, .error e) => (s, .error (coreErr e))
    | (s, .ok _) =>
      match formKeys s c t b x h pass1 slots ps.1 with
      | .error e => (s, .error (coreErr e))
      | .ok ks => (s, .ok { keys := ks.map (·.1), flags := orFlags (ks.map (·.2)), span := ps.2 })

/-- Which slots of a block are masked for one row (R226, R305). -/
def rowMask (s : State) (c : Ctx) (t : Task) (x : ChainWork) (slots : List Slot) (row : Nat) : Except AccErr (List Bool) :=
  mapErr (fun sl : Slot =>
    if !sl.live then .ok true
    else if x.mask = 0 then .ok false
    else keyMasked s c x.mask (argPosBase t.hdr) row (rowPos t row) sl.pos) slots

/-- The bitmap bytes that the rows of a core need for a block, one read for each bitmap row. -/
def maskRanges (t : Task) (x : ChainWork) (slots : List Slot) (n : Nat) : List (Nat × Nat) :=
  match x.mask, (slots.filter (·.live)).map (·.pos) with
  | 0, _ => []
  | _, [] => []
  | m, p :: ps =>
    let lo := ps.foldl min p
    let hi := ps.foldl max p
    ((List.range n).foldr (fun row l => maskRange m row (rowPos t row) lo hi ++ l) []).eraseDups

/-- The masks of a block for every row of a core (R226, R305). -/
def blockMasks (s : State) (c : Ctx) (t : Task) (x : ChainWork) (slots : List Slot) (n : Nat) :
    State × Except UnitErr (List (List Bool)) :=
  match andThen (touchRanges s c (maskRanges t x slots n)) fun s _ => (s, mapErr (rowMask s c t x slots) (List.range n)) with
  | (s, .error e) => (s, .error (coreErr e))
  | (s, .ok ms) => (s, .ok ms)

/-- Scores of a row against a block; none where the key is masked (R232). -/
def rowScores (b : ChainBody) (q : List Val) (keys : List KeyVal) (mask : List Bool) : List (Option Word32) × AFlags :=
  let rs := (keys.zip mask).map fun p =>
    if p.2 then (none, noFlags) else let r := scoreOf b.scale q p.1.k; (some r.1, r.2)
  (rs.map (·.1), orFlags (rs.map (·.2)))

/-- One block of a part on every row tile that is not empty: pass 1 takes maxima only (R227, R232, R248). -/
def applyBlock (t : Task) (b : ChainBody) (pass1 : Bool) (qs : List (List Val)) (masks : List (List Bool))
    (keys : List KeyVal) (rows : List Row) : List RowOut :=
  ((rows.zip qs).zip masks).map fun p =>
    let (ts, f1) := rowScores b p.1.2 keys p.2
    let o := if pass1 then maxRow p.1.1 ts else blockRow t.iterative b.psplit p.1.1 ts (keys.map (·.v))
    { o with flags := o.flags ||| f1 }

/-- Rows of a tile kept as they are. -/
def keepRows (rows : List Row) : List RowOut := rows.map fun r => { row := r }

/-- Whether every key is masked for every row of a tile (R227). -/
def emptyStep (masks : List (List Bool)) : Bool := masks.all fun m => m.all id

/-- Add to a counter of a tile when there is something to add. -/
def addSch (s : State) (t : Tile) (off n : Nat) : State := if n = 0 then s else addCtr s (blkSch t) off n

/-- One key block of one part of a forward task: the tiles' masks, the skipped steps, the block's read where a tile
needs it, and the rows (R227, R231, R232). -/
def forwardBlock (c : Ctx) (t : Task) (b : ChainBody) (x : ChainWork) (h : Nat) (pass1 : Bool) (qs : List (List Val))
    (v : WalkFor) (s : State) (st : PartState) (slots : List Slot) : State × Except UnitErr PartState :=
  andThen (blockMasks s c t x slots st.rows.length) fun s masks =>
    let tiles := chunks b.tq masks.length masks
    let skipped := (tiles.filter emptyStep).length
    let s := addSch s c.tile 0x0520 skipped
    if skipped = tiles.length then (s, .ok st)
    else andThen (loadBlock c t b x h pass1 v s st.span slots) fun s ld =>
      let rows := chunks b.tq st.rows.length st.rows
      let q := chunks b.tq qs.length qs
      let outs := ((rows.zip q).zip tiles).foldr (fun p l =>
        (if emptyStep p.2 then keepRows p.1.1 else applyBlock t b pass1 p.1.2 p.2 ld.keys p.1.1) ++ l) []
      (addSch s c.tile 0x0510 (outs.foldl (fun a o => a + o.rescales) 0),
        .ok { rows := outs.map (·.row), flags := st.flags ||| ld.flags ||| orFlags (outs.map (·.flags)), span := ld.span })

/-! ### Backward blocks (R253) -/

/-- The rows of a core of a backward task as its prologue left them. -/
def backRows (s : State) (t : Task) (b : ChainBody) (x : ChainWork) (rank : Nat) : List BackRow :=
  ((coreQueries s t b rank).zip ((Table.find x.back rank).getD [])).map fun p =>
    { q := p.1, dO := p.2.dO.map (elemOf b.oFmt).1.decode, lse := p.2.lse, delta := p.2.delta }

/-- Gradients of a block as they accumulate: dK and dV of each slot, and the dQ carries. -/
structure BackAcc where
  dk : List (List Word32)
  dv : List (List Word32)
  rows : List Row
  flags : AFlags := 0
deriving DecidableEq, Repr

/-- One row tile of a block: weights of each row and key, then the three products (R253). -/
def backTile (t : Task) (b : ChainBody) (rs : List BackRow) (masks : List (List Bool)) (keys : List KeyVal)
    (carry : List Row) (a : BackAcc) : BackAcc :=
  let one (p : BackRow × List Bool) : List (Weight × Weight) × AFlags :=
    let (ts, f1) := rowScores b p.1.q keys p.2
    let ks := (ts.zip keys).map fun (y : Option Word32 × KeyVal) => backKey t.iterative b.psplit b.grad p.1 y.1 y.2.v
    (ks.map (·.1), f1 ||| orFlags (ks.map (·.2)))
  let per := (rs.zip masks).map one
  let hidden (i : Nat) : Bool := masks.all fun m => nth true m i
  let col (pick : Weight × Weight → Weight) (i : Nat) : List Weight :=
    per.map fun r => pick (nth (zeroWeight, zeroWeight) r.1 i)
  let dvs := (a.dv.zip (List.range a.dv.length)).map fun p =>
    keyGrad b.psplit (hidden p.2) p.1 (col (·.1) p.2) (rs.map (·.dO))
  let dks := (a.dk.zip (List.range a.dk.length)).map fun p =>
    keyGrad b.psplit (hidden p.2) p.1 (col (·.2) p.2) (rs.map (·.q))
  let dqs := (carry.zip per).map fun p => pvRow b.psplit p.1.o (p.2.1.map (·.2)) (keys.map (·.k))
  { dk := dks.map (·.1), dv := dvs.map (·.1)
    rows := a.rows ++ (carry.zip dqs).map fun p => { p.1 with o := p.2.1 }
    flags := a.flags ||| orFlags (per.map (·.2)) ||| orFlags (dvs.map (·.2)) ||| orFlags (dks.map (·.2))
      ||| orFlags (dqs.map (·.2)) }

/-- Runs of the gradients of a block: dK and dV of every key of the part, masked keys included (R254). -/
def gradRuns (b : ChainBody) (h : Nat) (slots : List Slot) (a : BackAcc) :
    List (Nat × List Byte) × AFlags :=
  let w := (elemOf b.dkvFmt).1.width / 8
  let one (base : Nat) (sl : Slot) (g : List Word32) : (Nat × List Byte) × AFlags :=
    let r := narrowRow b.dkvFmt false (g.map f32)
    ((base + (h * b.dkvHs + sl.num * b.dkvKs) * w, packCodes (8 * w) r.codes), r.flags)
  let rs : List ((Nat × List Byte) × AFlags) := ((slots.zip (a.dk.zip a.dv)).filter fun p => p.1.key).foldr (fun p l =>
    one b.dkVa p.1 p.2.1 :: one b.dvVa p.1 p.2.2 :: l) []
  (rs.map (·.1), orFlags (rs.map (·.2)))

/-- One key block of one part of a backward task: the three products, then dK and dV written (R253). -/
def backBlock (c : Ctx) (t : Task) (b : ChainBody) (x : ChainWork) (h : Nat) (rs : List BackRow) (v : WalkFor)
    (s : State) (st : PartState) (slots : List Slot) : State × Except UnitErr PartState :=
  andThen (blockMasks s c t x slots st.rows.length) fun s masks =>
    let tiles := chunks b.tq masks.length masks
    let skipped := (tiles.filter emptyStep).length
    let s := addSch s c.tile 0x0520 skipped
    andThen (if skipped = tiles.length then (s, .ok { keys := slots.map fun _ => zeroKey b.d, span := st.span })
        else loadBlock c t b x h false v s st.span slots) fun s ld =>
      let z := slots.map fun _ => List.replicate b.d (0 : Word32)
      let acc := (((chunks b.tq rs.length rs).zip (chunks b.tq st.rows.length st.rows)).zip tiles).foldl (fun a p =>
        if emptyStep p.2 then { a with rows := a.rows ++ p.1.2 } else backTile t b p.1.1 p.2 ld.keys p.1.2 a)
        { dk := z, dv := z, rows := [] }
      let (runs, f2) := gradRuns b h slots acc
      match writeRuns s c runs with
      | (s, some e) => (s, .error (coreErr e))
      | (s, none) => (s, .ok { rows := acc.rows, flags := st.flags ||| ld.flags ||| acc.flags ||| f2, span := ld.span })

/-! ### The parts -/

/-- Row tiles of a core. -/
def tileCount (t : Task) (b : ChainBody) : Nat := ceilDiv (rowsOf t.hdr b) b.tq

/-- A core has run the chain steps of some blocks: it stands in the phase of the last one (R76, R219, R227), and under
ORDER 1 and in a backward task its carry range holds the running output of every row (R228, R255). -/
def leavePart (s : State) (t : Task) (b : ChainBody) (rank blocks : Nat) (rows : List Row) : State :=
  if blocks = 0 then s
  else
    let s := enterPhase s t.id rank (if (blocks * tileCount t b) % 2 = 1 then b.phEven else b.phOdd)
    if b.order || isBack t.hdr then
      writeWindow s (nth 0 t.cores rank) (rangeBase b.c) (wordBytes (rows.map (·.o)).flatten)
    else s

/-- The blocks of one part on its rows; rows start as given. -/
def runPart (s : State) (t : Task) (b : ChainBody) (x : ChainWork) (h j : Nat) (pass1 : Bool) (rows : List Row)
    (slots : List Slot) : State × Except UnitErr PartState :=
  let rank := h * b.ksplit + j
  let c := coreCtx s t rank
  let v := walkForCore s c t b x
  let blocks := partBlocks b.ksplit j (keyBlocks b.bk slots)
  andThen (if isBack t.hdr then foldErr (backBlock c t b x h (backRows s t b x rank) v) s { rows := rows } blocks
      else foldErr (forwardBlock c t b x h pass1 (coreQueries s t b rank) v) s { rows := rows } blocks) fun s p =>
    (leavePart s t b rank blocks.length p.rows, .ok p)

/-- Rows of a part as listed, or fresh (R232). -/
def partRows (t : Task) (b : ChainBody) (x : ChainWork) (rank : Nat) : List Row :=
  (Table.find x.parts rank).getD ((List.range (rowsOf t.hdr b)).map fun _ => newRow b.d)

/-- Run one head group on every part of it; each core's slots come from its own Porter (R297). -/
def runGroup (t : Task) (b : ChainBody) (pass1 : Bool) (h : Nat)
    (slots : State → ChainWork → Nat → State × Except UnitErr (List Slot)) (s : State) (r : ChainRun) :
    State × Except UnitErr ChainRun :=
  foldErr (fun s (r : ChainRun) j =>
    let rank := h * b.ksplit + j
    atCore (nth 0 t.cores rank) (andThen (slots s r.1 rank) fun s sl =>
      andThen (runPart s t b r.1 h j pass1 (partRows t b r.1 rank) sl) fun s p =>
        (s, .ok ({ r.1 with parts := Table.insert r.1.parts rank p.rows }, r.2 ||| p.flags))))
    s r (List.range b.ksplit)

/-- Exchange of maxima between the passes: every part's rows start again under the group's maximum (R248). -/
def exchangeMaxima (t : Task) (b : ChainBody) (x : ChainWork) : ChainWork :=
  let n := rowsOf t.hdr b
  { x with parts := (List.range (b.kvh * b.ksplit)).foldl (fun tb rank =>
      let h := rank / b.ksplit
      Table.insert tb rank ((List.range n).map fun i =>
        let m := (List.range b.ksplit).foldl (fun m j =>
          f32Max m (nth (newRow b.d) (partRows t b x (h * b.ksplit + j)) i).m) negInf
        { newRow b.d with m := m })) [] }

/-- Slots of head group h of a PAGED or SELECTED task, for one core. -/
def groupSlots (t : Task) (b : ChainBody) (h : Nat) (s : State) (x : ChainWork) (rank : Nat) :
    State × Except UnitErr (List Slot) :=
  if b.src = 0 then (s, .ok (pagedSlots t.hdr x.record)) else selectedSlots s t b x h rank

/-- One pass over every head group of a PAGED or SELECTED task. -/
def runPass (t : Task) (b : ChainBody) (pass1 : Bool) (s : State) (r : ChainRun) : State × Except UnitErr ChainRun :=
  foldErr (fun s r h => runGroup t b pass1 h (groupSlots t b h) s r) s r (List.range b.kvh)

/-- Every key block of a PAGED or SELECTED task, in two passes where asked (R248). -/
def runKeys (t : Task) (b : ChainBody) (s : State) (r : ChainRun) : State × Except UnitErr ChainRun :=
  if b.twoPass then
    andThen (runPass t b true s r) fun s r => runPass t b false s (exchangeMaxima t b r.1, r.2)
  else runPass t b false s r

/-- One car of a CARS task on every part; its keys start at n × T (R226, R352). -/
def runCar (t : Task) (b : ChainBody) (c : CarRef) (n : Nat) (s : State) (r : ChainRun) : State × Except UnitErr ChainRun :=
  let pass1 := b.twoPass && decide (r.1.carsDone < argKcount t.hdr)
  let done (r : ChainRun) : ChainRun :=
    let x := { r.1 with carsDone := r.1.carsDone + 1 }
    (if pass1 ∧ x.carsDone = argKcount t.hdr then exchangeMaxima t b x else x, r.2)
  andThen (foldErr (fun s r h => runGroup t b pass1 h (fun s _ _ => (s, .ok (carSlots c (n * c.page.tokens)))) s r)
    s r (List.range b.kvh)) fun s r => (s, .ok (done r))

/-- Cars a CARS task must still finish, both passes counted. -/
def carsNeeded (t : Task) (b : ChainBody) : Nat := argKcount t.hdr * (if b.twoPass then 2 else 1)

/-! ### Results -/

/-- Rows as a state record and a partial hold them: m, l, then o of each (R243). A partial has no layout of its own
(DEDUCED, assumption log 129). -/
def rowBytes (rows : List Row) : List Byte := rows.foldr (fun r l => wordBytes (r.m :: r.l :: r.o) ++ l) []

/-- Rows of a state record (R243). -/
def parseState (d n : Nat) (ws : List Word32) : List Row :=
  (chunks (d + 2) n ws).map fun l => { m := nth 0 l 0, l := nth 0 l 1, o := l.drop 2 }

/-- The RMS epilogue on finished rows (R244, R278): its outputs by row, flags and counters. -/
def rmsRows (t : Task) (b : ChainBody) (wt : List Word32) (ys : List (List Word32)) :
    List (List Word32) × AFlags × Nat × Nat :=
  let qn := argQn t.hdr
  let one (q g0 : Nat) : RmsOut :=
    rmsRow t.iterative (((List.range b.span).map fun i => nth [] ys ((g0 + i) * qn + q)).flatten) wt b.eps
  let outs : List ((Nat × Nat) × RmsOut) :=
    (List.range (b.g / b.span)).foldr (fun k l => (List.range qn).map (fun q => ((q, k), one q (k * b.span))) ++ l) []
  let row (i : Nat) : List Word32 :=
    let g := i / qn
    let k := g / b.span
    match outs.find? fun o => o.1 == (i % qn, k) with
    | some o => (o.2.res.drop ((g - k * b.span) * b.d)).take b.d
    | none => []
  ((List.range ys.length).map row, orFlags (outs.map (·.2.flags)), (outs.filter (·.2.zeroRow)).length,
    (outs.filter (·.2.noScale)).length)

/-- Weights of the RMS epilogue, BF16 in memory (R278). -/
def rmsWeights (s : State) (c : Ctx) (b : ChainBody) : State × Except AccErr (List Word32) :=
  let n := b.span * b.d
  if b.rmsW = 0 then (s, .ok (List.replicate n one32))
  else andThen (loadVa s c b.rmsW (2 * n)) fun s bs =>
    (s, .ok ((splitBits 16 n (leNat bs)).map fun x => toF32 ((elemOf 1).1.decode x)))

/-- Runs of one output row (R220, R240). -/
def outputRun (t : Task) (b : ChainBody) (va hs ps fmt : Nat) (sat : Bool) (h row : Nat) (y : List Word32) :
    (Nat × List Byte) × AFlags :=
  let w := (elemOf fmt).1.width
  let r := narrowRow fmt sat (y.map f32)
  ((va + headOffset hs ps (rowHead t b h row) (rowPos t row) (w / 8), packCodes w r.codes), r.flags)

/-- Results of a merged head group of a forward task without a state record: rows finished, the epilogue, the narrowing
(R240, R241, R244). -/
def finishForward (s : State) (c : Ctx) (t : Task) (b : ChainBody) (h : Nat) (rows : List Row) :
    State × Except UnitErr AFlags :=
  let fs := rows.map (finishRow t.iterative)
  let s := addSch (addSch s c.tile 0x0528 (fs.filter (·.nan)).length) c.tile 0x0518 (fs.filter (·.empty)).length
  let f0 := orFlags (fs.map (·.flags))
  let r : State × Except AccErr (List (List Word32) × AFlags × Nat × Nat) :=
    if b.epi = 0 then (s, .ok (fs.map (·.y), noFlags, 0, 0))
    else andThen (rmsWeights s c b) fun s wt => (s, .ok (rmsRows t b wt (fs.map (·.y))))
  match r with
  | (s, .error e) => (s, .error (coreErr e))
  | (s, .ok (ys, f1, z, n)) =>
    let s := addSch (addSch s c.tile 0x0608 z) c.tile 0x0610 n
    let outs := (ys.zip (List.range ys.length)).map fun p => outputRun t b b.oVa b.oHs b.oPs b.oFmt b.ovfSat h p.2 p.1
    let runs := outs.map (·.1) ++
      (if b.lse = 0 then [] else [(b.lse + 4 * h * rowsOf t.hdr b, wordBytes (fs.map (·.lse)))])
    match writeRuns s c runs with
    | (s, some e) => (s, .error (coreErr e))
    | (s, none) => (s, .ok (f0 ||| f1 ||| orFlags (outs.map (·.2))))

/-- The state record of a merged head group instead (R242, R243). -/
def finishState (s : State) (c : Ctx) (t : Task) (b : ChainBody) (h : Nat) (rows : List Row) : State × Except UnitErr AFlags :=
  let n := (rows.filter fun r => (f32 r.m).isNan).length
  match writeRuns (addSch s c.tile 0x0528 n) c [(b.stateOut + h * rowsOf t.hdr b * (8 + 4 * b.d), rowBytes rows)] with
  | (s, some e) => (s, .error (coreErr e))
  | (s, none) => (s, .ok (if n = 0 then noFlags else flagNan))

/-- The query gradient of a merged head group (R253). -/
def finishBack (s : State) (c : Ctx) (t : Task) (b : ChainBody) (h : Nat) (rows : List Row) : State × Except UnitErr AFlags :=
  let outs := (rows.zip (List.range rows.length)).map fun p => outputRun t b b.dqVa b.qHs b.qPs b.dqFmt false h p.2 p.1.o
  match writeRuns s c (outs.map (·.1)) with
  | (s, some e) => (s, .error (coreErr e))
  | (s, none) => (s, .ok (orFlags (outs.map (·.2))))

/-- Finish a head group on its merge core (R225, R240, R242). -/
def finishGroup (s : State) (t : Task) (b : ChainBody) (h : Nat) (r : ChainRun) : State × Except UnitErr ChainRun :=
  let c := coreCtx s t (h * b.ksplit)
  let rows := (Table.find r.1.state h).getD []
  let out : State × Except UnitErr AFlags := if isBack t.hdr then finishBack s c t b h rows
    else if b.stateOut ≠ 0 then finishState s c t b h rows
    else finishForward s c t b h rows
  match atCore (nth 0 t.cores (h * b.ksplit)) out with
  | (s, .error e) => (s, .error e)
  | (s, .ok fl) => (s, .ok ({ r.1 with finished := r.1.finished ++ [h] }, r.2 ||| fl))

/-! ### The merge -/

/-- Key of a part in the merge's tables. -/
def mergeKey (h j : Nat) : Nat := 512 * h + j

/-- One partial row merged; a backward task adds its dQ carry (R239, R253). -/
def mergePartial (t : Task) (a b : Row) : RowOut :=
  if isBack t.hdr then
    let os := (a.o.zip b.o).map fun p => f32Add p.1 p.2
    { row := { a with o := os.map (·.1) }, flags := orFlags (os.map (·.2)) }
  else mergeRow t.iterative a b

/-- Bytes of one row's partial: m, l and o, or the dQ carry alone (R253, R255). -/
def partialSize (t : Task) (b : ChainBody) : Nat := if isBack t.hdr then 4 * b.d else 4 * b.d + 8

/-- The bytes of a row tile's partial, and the rows read back from them (R238, R253). -/
def partialBytes (t : Task) (rows : List Row) : List Byte :=
  if isBack t.hdr then wordBytes (rows.map (·.o)).flatten else rowBytes rows
def partialRows (t : Task) (b : ChainBody) (n : Nat) (bs : List Byte) : List Row :=
  let ws := (splitBits 32 (n * partialSize t b / 4) (leNat bs)).map (BitVec.ofNat 32)
  if isBack t.hdr then (chunks b.d n ws).map fun l => { newRow b.d with o := l } else parseState b.d n ws

/-- Window offset of inbox slot j of a merge core (R238). -/
def inboxSlot (t : Task) (b : ChainBody) (j : Nat) : Nat := rangeBase b.i + (j - 1) * (b.tq * partialSize t b)

/-- Rows of row tile x of a list. -/
def tileOfRows (b : ChainBody) (x : Nat) (rows : List Row) : List Row := (rows.drop (x * b.tq)).take b.tq

/-- A part sends a row tile's partial: its core's scoreboard holds the transfer until the inbox has it (R86, R238). -/
def sendPartial (s : State) (t : Task) (b : ChainBody) (h j tile : Nat) : State :=
  if 1 ≤ j ∧ tile < tileCount t b then
    openTransfer s { core := nth 0 t.cores (h * b.ksplit + j), task := t.id, write := false, ranges := [] }
  else s

/-- Merge rows lo to lo + n - 1 of a head group with those of one partial (R239). -/
def mergeRows (s : State) (t : Task) (b : ChainBody) (h lo : Nat) (part : List Row) (r : ChainRun) : State × ChainRun :=
  let acc := (Table.find r.1.state h).getD []
  let outs := ((acc.drop lo).zip part).map fun p => mergePartial t p.1 p.2
  (addSch s (coreTile (nth 0 t.cores (h * b.ksplit))) 0x0510 (outs.foldl (fun a o => a + o.rescales) 0),
    { r.1 with state := Table.insert r.1.state h (acc.take lo ++ outs.map (·.row) ++ acc.drop (lo + outs.length)) },
    r.2 ||| orFlags (outs.map (·.flags)))

/-- Merge the row tile that waits in inbox slot j; the part may then send the next (R238). -/
def mergeSlot (s : State) (t : Task) (b : ChainBody) (h j x : Nat) (r : ChainRun) : State × ChainRun :=
  let n := min b.tq (rowsOf t.hdr b - x * b.tq)
  let bs := windowBytes s (nth 0 t.cores (h * b.ksplit)) (inboxSlot t b j) (n * partialSize t b)
  let (s, r) := mergeRows s t b h (x * b.tq) (partialRows t b n bs) r
  (sendPartial s t b h j (x + 1), { r.1 with merged := Table.insert r.1.merged (mergeKey h j) (x + 1) }, r.2)

/-- Merge what has arrived for a head group, parts in ascending order (R239). -/
def mergeArrived (s : State) (t : Task) (b : ChainBody) (h : Nat) (r : ChainRun) : State × ChainRun :=
  (List.range b.ksplit).foldl (fun sr j =>
    let x := sr.2.1
    let n := Table.get 0 x.merged (mergeKey h j)
    if 1 ≤ j ∧ n < Table.get 0 x.arrived (mergeKey h j) ∧ (j = 1 ∨ n < Table.get 0 x.merged (mergeKey h (j - 1))) then
      mergeSlot sr.1 t b h j n sr.2
    else sr) (s, r)

/-- Whether R233 makes row i of a head group NaN: by the incoming state or by the partial of any part. -/
def groupNan (t : Task) (b : ChainBody) (x : ChainWork) (h i : Nat) : Bool :=
  ((Table.find x.state h).bind fun l => l[i]?).any rowNan
    || (List.range b.ksplit).any fun j => (partRows t b x (h * b.ksplit + j))[i]?.any rowNan

/-- The rows of a head group that R233 makes NaN, made so: the merge leaves them as they are (R239). -/
def dropNan (t : Task) (b : ChainBody) (x : ChainWork) (h : Nat) (rows : List Row) : List Row :=
  if isBack t.hdr then rows
  else (rows.zip (List.range rows.length)).map fun p => if groupNan t b x h p.2 then nanRow b.d else p.1

/-- A merge core takes part 0, after an incoming state, in the merge phase (R238, R239). -/
def beginMerge (t : Task) (b : ChainBody) (s : State) (r : ChainRun) (h : Nat) : State × ChainRun :=
  let s := enterPhase s t.id (h * b.ksplit) b.phMrg
  let own := partRows t b r.1 (h * b.ksplit)
  let start (rows : List Row) : ChainRun :=
    ({ r.1 with state := Table.insert r.1.state h (dropNan t b r.1 h rows) }, r.2)
  match Table.find r.1.state h with
  | none => (s, start own)
  | some rows => mergeRows s t b h 0 own (start rows)

/-- Every part has applied its last key block: the merge cores begin, the other parts send their first row tiles, and a
head group of one part is finished (R237 to R239). -/
def completeParts (t : Task) (b : ChainBody) (s : State) (r : ChainRun) : State × Except UnitErr ChainRun :=
  foldErr (fun s (r : ChainRun) h =>
    let (s, r) := beginMerge t b s r h
    let s := (List.range b.ksplit).foldl (fun s j => sendPartial s t b h j 0) s
    if b.ksplit = 1 then finishGroup s t b h r else (s, .ok r))
    s ({ r.1 with complete := true }, r.2) (List.range b.kvh)

/-- The incoming state, read at dispatch (R242, R243). -/
def readStateIn (t : Task) (b : ChainBody) (s : State) (x : ChainWork) : State × Except UnitErr ChainWork :=
  if b.stateIn = 0 then (s, .ok x)
  else
    let n := rowsOf t.hdr b
    foldErr (fun s x h =>
      match loadWords s (coreCtx s t (h * b.ksplit)) (b.stateIn + h * n * (8 + 4 * b.d)) (n * (b.d + 2)) with
      | (s, .error e) => atCore (nth 0 t.cores (h * b.ksplit)) (s, .error (coreErr e))
      | (s, .ok ws) => (s, .ok { x with state := Table.insert x.state h (parseState b.d n ws) })) s x (List.range b.kvh)

/-- Start a dispatched chain task: the incoming state, the prologues and, for PAGED and SELECTED, every key block of
every part (R225 to R243). -/
def startChain (s : State) (t : Task) (x : ChainWork) : State × Except UnitErr ChainRun :=
  let b := parseChain t.body
  andThen (readStateIn t b s x) fun s x => andThen (prologue t b s (x, noFlags)) fun s r =>
    if b.src = 2 then (s, .ok r) else andThen (runKeys t b s r) fun s r => completeParts t b s r

/-- Put chain work and flags back into a task. -/
def putChain (s : State) (id : Nat) (r : ChainRun) : State :=
  s.modTask id fun t => { t with work := .chain r.1, flags := t.flags ||| r.2 }

/-- Take the outcome of chain work: new work, or a fault of the task (R260). -/
def settleChain (id part : Nat) : State × Except UnitErr ChainRun → State
  | (s, .ok r) => putChain s id r
  | (s, .error e) => faultTask s id part e.err e.unit e.core

/-- The bytes of a row tile's partial reach the inbox through the merge core's network port (R84, R86, R238): the part's
transfer is complete, and inbox banks of another class are a violation. -/
def landPartial (s : State) (t : Task) (b : ChainBody) (x : ChainWork) (h j tile : Nat) : State :=
  let i := nth 0 t.cores (h * b.ksplit)
  let rank := h * b.ksplit + j
  let s := closeFirst s (coreTile (nth 0 t.cores rank)) fun y =>
    y.core == nth 0 t.cores rank && y.task == t.id && y.ranges.isEmpty
  let (s, broke) := netWrite s i (inboxSlot t b j) (partialBytes t (tileOfRows b tile (partRows t b x rank)))
  if broke then settleIntrusion s t.id i else s

/-- A partial of row tile x of part j lands in its inbox slot and the merge goes on (R238, R239). -/
def arrivePartial (s : State) (t : Task) (b : ChainBody) (x : ChainWork) (h j tile : Nat) : State :=
  let k := mergeKey h j
  let n := Table.get 0 x.arrived k
  if x.complete ∧ h < b.kvh ∧ 1 ≤ j ∧ j < b.ksplit ∧ tile = n ∧ n < tileCount t b ∧ Table.get 0 x.merged k = n then
    let s := landPartial s t b x h j tile
    if !((taskOf s t.id).any fun y => y.status == .running) then s
    else
      let (s, r) := mergeArrived s t b h ({ x with arrived := Table.insert x.arrived k (n + 1) }, noFlags)
      if Table.get 0 r.1.merged (mergeKey h (b.ksplit - 1)) = tileCount t b then
        settleChain t.id t.part (finishGroup s t b h r)
      else putChain s t.id r
  else s

/-- PARTIAL_ARRIVAL (R238). -/
def execPartialArrival (id : Nat) (group : Fin 64) (part : Fin 336) (rowTile : Nat) (s : State) :
    Host.Outcome State Fault Refusal :=
  match taskOf s id with
  | none => .next s
  | some t =>
    match t.status, t.work with
    | .running, .chain x => .next (orWait s fun s => arrivePartial s t (parseChain t.body) x group.val part.val rowTile)
    | _, _ => .next s

/-- Whether a chain task has finished every head group. -/
def chainDone (t : Task) (x : ChainWork) : Bool := decide (x.finished.length = (parseChain t.body).kvh)

/-- Destination ranges of a chain task (R138, R260). -/
def chainDests (t : Task) (x : ChainWork) : List (Nat × Nat) :=
  let b := parseChain t.body
  let n := rowsOf t.hdr b
  let rows (va hs ps w : Nat) : List (Nat × Nat) :=
    (List.range b.kvh).foldr (fun h l =>
      (List.range n).map (fun i => (va + headOffset hs ps (rowHead t b h i) (rowPos t i) w, b.d * w)) ++ l) []
  if isBack t.hdr then
    let w := (elemOf b.dkvFmt).1.width / 8
    let keys := argKcount t.hdr * (if b.src = 2 then x.carTokens else 1)
    rows b.dqVa b.qHs b.qPs ((elemOf b.dqFmt).1.width / 8) ++
      (List.range b.kvh).foldr (fun h l => (List.range keys).foldr (fun k l =>
        let off := (h * b.dkvHs + k * b.dkvKs) * w
        (b.dkVa + off, b.d * w) :: (b.dvVa + off, b.d * w) :: l) l) []
  else if b.stateOut ≠ 0 then [(b.stateOut, b.kvh * n * (8 + 4 * b.d))]
  else rows b.oVa b.oHs b.oPs ((elemOf b.oFmt).1.width / 8) ++ (if b.lse = 0 then [] else [(b.lse, 4 * b.kvh * n)])

end Sys2Proof.Machine
end

