-- ==== Sys2Proof/Machine/Stream.lean ====
section
/-!
DEFINITION. Streams (R192 to R217): sidings and their handles, stream stages with their checks and iterations, merged
transfers, deadlines and stall cycles.
-/

namespace Sys2Proof.Machine

/-! ### Sidings -/

/-- Whether a siding descriptor obeys R192. -/
def sidingDescOk (d : Nat) : Bool :=
  let seg := sdKind d == 1
  bits d 111 0 == 0 && decide (sdKind d ≤ 1) && decide (2 ≤ sdHandles d ∧ sdHandles d ≤ 4096)
    && decide (1 ≤ sdStreams d ∧ sdStreams d ≤ 64 ∧ sdFirst d + sdStreams d ≤ 256)
    && (if seg then sdPool d == 0 && sdBytes d == 0 && sdStride d == 0
        else sdPool d % 64 == 0 && sdBytes d % 64 == 0 && decide (64 ≤ sdBytes d) && sdStride d % 64 == 0
          && decide (sdBytes d ≤ sdStride d))

/-- An open siding by partition, wing and number. -/
def sidingOf (s : State) (part : Nat) (w : Wing) (num : Nat) : Option Siding :=
  s.sidings.find? fun x => x.part == part && x.wing == w && x.num == num

/-- Change a siding. -/
def State.modSiding (s : State) (part : Nat) (w : Wing) (num : Nat) (f : Siding → Siding) : State :=
  { s with sidings := updateWhere (fun x => x.part == part && x.wing == w && x.num == num) f s.sidings }

/-- Home tile that a siding descriptor names. -/
def sdTile (d : Nat) : Tile := tileIn (sdWing d) (sdHome d)

/-- Whether a home tile has room for a siding (R193). -/
def sidingRoom (s : State) (d : Nat) : Bool :=
  let here := s.sidings.filter fun x => x.home == sdTile d
  decide (here.length + 1 ≤ 512) && decide (here.foldl (fun a x => a + sdHandles x.desc) (sdHandles d) ≤ 32768)

/-- Perform a siding open (R192, R193). -/
def performSidingOpen (s : State) (o : Origin) (e : Entry) : State :=
  let c := commandCtx s o e
  let va := ent e 511 464
  match loadNum s c va 32 with
  | (s, .error x) => answerCommand (failAcc s .task c.part x) o e x.cause (wingOf c.tile) .stationmaster (if x.phys then 0 else x.addr)
  | (s, .ok d) =>
    if !sidingDescOk d || decide (sdHandles d < 2 * sdStreams d) || (sidingOf s c.part (sdWing d) (sdNum d)).isSome
        || !sidingRoom s d then
      answerCommand s o e 0x0505 (sdWing d) .stationmaster va
    else
      let x : Siding := { part := c.part, wing := sdWing d, num := sdNum d, desc := d, home := sdTile d }
      answerCommand { s with sidings := s.sidings ++ [x] } o e 0 (sdWing d)

/-- SIDING_OPEN (R193). -/
def execSidingOpen (f : Func) (r : Fin 64) (s : State) : Host.Outcome State Fault Refusal :=
  .next (beginCommand s f r.val 3 performSidingOpen)

/-! ### Bindings -/

/-- A binding of a stage (R198). -/
structure Binding where
  num : Nat
  out : Bool
  release : Bool
  target : Nat
  siding : Nat
deriving DecidableEq, Repr

/-- Binding word i of a stage body. -/
def bindWord (body : List Byte) (i : Nat) : Nat := bits (at8 body 0 64) (175 + 32 * i) (144 + 32 * i)

/-- Valid bindings of a stage body, by rising number. -/
def bindingsOf (body : List Byte) : List Binding :=
  ((List.range 4).filter fun i => bit (bindWord body i) 31).map fun i =>
    let w := bindWord body i
    { num := i, out := bit w 30, release := bit w 29, target := bits w 28 27, siding := bits w 7 0 }

def inputsOf (body : List Byte) : List Binding := (bindingsOf body).filter fun b => !b.out
def outputsOf (body : List Byte) : List Binding := (bindingsOf body).filter fun b => b.out

def sgTable (body : List Byte) : Nat := bits (at8 body 0 64) 511 464
def sgSrc (body : List Byte) : Nat := bits (at8 body 0 64) 463 416
def sgDst (body : List Byte) : Nat := bits (at8 body 0 64) 415 368
def sgStep (body : List Byte) : Nat := bits (at8 body 0 64) 367 336
def sgIters (body : List Byte) : Nat := bits (at8 body 0 64) 335 304
def sgIterDl (body : List Byte) : Nat := bits (at8 body 0 64) 303 272
def sgMode (body : List Byte) : Nat := bits (at8 body 0 64) 1 0
def sgStream (body : List Byte) : Nat := bits (at8 body 0 64) 143 136

/-- Bytes per iteration of a COPY stage (R199). -/
def copyLen (e : Entry) : Nat := ent e 343 320

/-! ### Checks of a stage (R200) -/

/-- Check 1: fields of the body and ARGS, bindings apart. -/
def stageBodyOk (e : Entry) (body : List Byte) : Bool :=
  let g := at8 body 0 64
  bits g 135 2 == 0 && decide (sgMode body ≤ 2)
    && ((inputsOf body).isEmpty || sgIters body == 0)
    && (match sgMode body with
      | 0 => true
      | 1 => sgTable body == 0 && coreCount e == 1 && ent e 511 344 == 0 && decide (1 ≤ copyLen e)
      | _ => coreCount e == 1 && ent e 511 320 == 0)

/-- Operand of a loop body that a target names. -/
def targetOpnd (d : LoopBody) (target : Nat) : Opnd :=
  match target with
  | 0 => d.a
  | 1 => d.b
  | _ => d.o

/-- Strides of a target's operand. -/
def targetStrides (d : LoopBody) (target : Nat) : List Nat :=
  match target with
  | 0 => stridesOf d (·.aS)
  | 1 => stridesOf d (·.bS)
  | _ => stridesOf d (·.oS)

/-- Bytes an operand reaches from its base over a bucket's planned extents (R199). -/
def footprint (d : LoopBody) (k : Bucket) (target : Nat) : Nat :=
  let ss := targetStrides d target
  let last := (List.range d.lv.length).foldl (fun a l => a + (nth 0 k.plan l - 1) * nth 0 ss l) 0
  ((last + 1) * (elemOf (targetOpnd d target).fmt).1.width + 7) / 8

/-- Targets and number of bindings that a mode permits (R199). -/
def bindShapeOk (body : List Byte) : Bool :=
  let ins := inputsOf body
  let outs := outputsOf body
  match sgMode body with
  | 0 => decide (1 ≤ ins.length ∧ ins.length ≤ 2 ∧ outs.length ≤ 1) && ins.all (fun b => decide (b.target ≤ 1))
      && outs.all (fun b => b.target == 2) && (ins.map (·.target)).eraseDups.length == ins.length
  | 1 => decide (ins.length ≤ 1 ∧ outs.length ≤ 1) && (bindingsOf body).all fun b => b.target == 3
  | _ => ins.isEmpty && outs.length == 1 && outs.all fun b => b.target == 3

/-- Siding kind that a binding may name in a mode (R199). -/
def bindKindOk (mode : Nat) (b : Binding) (kind : Nat) : Bool :=
  (!b.release || (!b.out && kind == 1)) && match mode with
    | 0 => kind == 0 || (b.target == 1 && kind == 1)
    | 1 => kind == 0
    | _ => kind == 1

/-- Whether another issued stage consumes a stream of a siding (R197). -/
def consumed (s : State) (t : Task) (num : Nat) : Bool :=
  s.tasks.any fun x => x.id != t.id && inStream t.part t.wing (stageStream t) x
    && (inputsOf x.body).any fun b => b.siding == num

/-- Footprint and format of one binding against its siding (R199). -/
def bindFits (t : Task) (bucket : Nat) (b : Binding) (x : Siding) : Bool :=
  match stageMode t with
  | 0 =>
    let d := parseLoop t.body2
    let o := targetOpnd d b.target
    o.base == 0 && !(elemOf o.fmt).2 && (b.target != 1 || d.op == 0)
      && (sdKind x.desc == 1 || decide (footprint d (d.bucket bucket) b.target ≤ sdBytes x.desc))
  | 1 => decide (copyLen t.hdr ≤ sdBytes x.desc)
  | _ => true

/-- Check 3: every binding (R200). -/
def bindingsOk (s : State) (t : Task) (bucket : Nat) : Bool :=
  (List.range 4).all (fun i => bits (bindWord t.body i) 26 8 == 0) && bindShapeOk t.body
    && (bindingsOf t.body).all fun b =>
      match sidingOf s t.part t.wing b.siding with
      | none => false
      | some x =>
        bindKindOk (stageMode t) b (sdKind x.desc)
          && decide (sdFirst x.desc ≤ stageStream t ∧ stageStream t < sdFirst x.desc + sdStreams x.desc)
          && (b.out || !consumed s t b.siding) && bindFits t bucket b x

/-- Step 5 for a stage: body, plan and, for COMPUTE, the loop body (R198). -/
def fetchStage (s : State) (t : Task) : State × Except AccErr Task :=
  andThen (fetch5 s t (hBody t.hdr) 64) fun s body => andThen (fetch5 s t (hPlan t.hdr) 128) fun s plan =>
    if sgMode body ≠ 0 then (s, .ok { t with body := body, plan := plan })
    else andThen (fetch5 s t (sgTable body) 512) fun s l => (s, .ok { t with body := body, body2 := l, plan := plan })

/-- Step 6 for a stage: a COPY or LOAD stage's entry 0 assigns every bank idle (R199). -/
def stagePlanOk (t : Task) : Bool :=
  if stageMode t = 0 then
    let (ph, en) := loopPhases t.body2
    planOk t.hdr t.plan ph en
  else phaseValid t.plan 0 && bits (planEntry t.plan 0) 79 0 == 0

/-- Check 2 of R200, for COMPUTE: bucket and staging need. -/
def stageLoopChecks (s : State) (t : Task) : State × Except AccErr (Nat × Nat) :=
  if stageMode t = 0 then loopChecks s t t.body2 else (s, .ok (0, 0))

/-- Whether a stage has nothing to do (R200). -/
def stageZero (t : Task) : Bool :=
  if stageMode t = 0 then zeroExtent t.hdr (parseLoop t.body2)
  else (inputsOf t.body).isEmpty && sgIters t.body == 0

/-- Steps 5 to 7 of R136 for a stream stage (R198 to R200, R204). Whether a COMPUTE stage is a loop task to the counters
of R191 is open: the model counts it once, at issue (DESIGN CHOICE, assumption log 131). -/
def checkStage : KindCheck := fun s t =>
  andThen (fetchStage s t) fun s t =>
    if !stagePlanOk t then (s, .error (bad 0x0122))
    else if !stageBodyOk t.hdr t.body then (s, .error (bad 0x0112))
    else andThen (stageLoopChecks s t) fun s r =>
      if !bindingsOk s t r.1 then (s, .error (bad 0x0503))
      else if stageMode t = 2 ∧ (schedOf s t.home t.part).isSome then (s, .error (bad 0x0209))
      else
        (if stageMode t = 0 then countLoop s t (parseLoop t.body2) r.1 else s,
          .ok { t with staging := r.2, zeroWork := stageZero t, work := .stage { bucket := r.1 } })

/-- STREAM_STAGE (R200). -/
def execStreamStage (f : Func) (r : Fin 64) (s : State) : Host.Outcome State Fault Refusal :=
  .next (beginTask s f r.val 3 0 checkStage)

/-! ### Closing a siding -/

/-- Whether an issued stage binds a siding (R194). -/
def sidingBound (s : State) (part : Nat) (w : Wing) (num : Nat) : Bool :=
  s.tasks.any fun t => t.isStage && t.part == part && t.wing == w && (bindingsOf t.body).any fun b => b.siding == num

/-- Siding and wing that a siding close names (R480). -/
def closeNum (e : Entry) : Nat := ent e 511 504
def closeWing (e : Entry) : Wing := wingOfNum (ent e 503 503)

/-- Discard a siding with every handle (R194). -/
def dropSiding (s : State) (part : Nat) (w : Wing) (num : Nat) : State :=
  { s with sidings := s.sidings.filter fun x => !(x.part == part && x.wing == w && x.num == num) }

/-- Perform a siding close, or let it wait for the stages that bind the siding (R194). -/
def performSidingClose (s : State) (o : Origin) (e : Entry) : State :=
  let p := cmdPart e
  if sidingBound s p (closeWing e) (closeNum e) then
    { s with cmds := s.cmds ++ [{ func := o.func, ring := o.ring, entry := e, sqHead := o.sqHead, answer := o.answer, wait := .sidingClose }] }
  else answerCommand (dropSiding s p (closeWing e) (closeNum e)) o e 0 (closeWing e)

/-- Whether a waiting command is a siding close whose stages have ended. -/
def closeReady (s : State) (c : Cmd) : Bool :=
  match c.wait with
  | .sidingClose => !sidingBound s (cmdPart c.entry) (closeWing c.entry) (closeNum c.entry)
  | _ => false

/-- SIDING_CLOSE (R194): the command begins, or one that waited is performed. -/
def execSidingClose (f : Func) (r : Fin 64) (s : State) : Host.Outcome State Fault Refusal :=
  match ringCmd s f r.val (closeReady s) with
  | some c => .next (endCmd (dropSiding s (cmdPart c.entry) (closeWing c.entry) (closeNum c.entry)) c 0)
  | none => .next (beginCommand s f r.val 4 performSidingClose)

/-! ### Handles (R195 to R197) -/

/-- Handles of a siding that count against a stream. -/
def countHandles (x : Siding) (st : Nat) : Nat := (x.handles.filter fun h => h.2.stream == st).length

/-- Handles of the shared part in use (R196). -/
def sharedUsed (x : Siding) : Nat :=
  (List.range (sdStreams x.desc)).foldl (fun a i => a + (countHandles x (sdFirst x.desc + i) - 2)) 0

/-- Whether a producer of a stream may acquire a handle (R196). -/
def mayAcquire (x : Siding) (st : Nat) : Bool :=
  decide (countHandles x st < 2) || decide (sharedUsed x < sdHandles x.desc - 2 * sdStreams x.desc)

/-- Free handles of a siding. -/
def freeHandles (x : Siding) : List Nat := (List.range (sdHandles x.desc)).filter fun h => (Table.find x.handles h).isNone

/-- Remove the first full handle of a stream from a queue. -/
def dropFirst (st : Nat) : List (Nat × Nat × Bool) → List (Nat × Nat × Bool)
  | [] => []
  | q :: qs => if q.2.1 = st then qs else q :: dropFirst st qs

/-- Free a handle that its holder gives back. -/
def Siding.freeHandle (x : Siding) (h : Nat) : Siding :=
  { x with handles := Table.erase x.handles h, segs := Table.erase x.segs h }

/-- Commit a handle into its stream's queue (R195, R202). -/
def Siding.commit (x : Siding) (h st : Nat) (last : Bool) : Siding :=
  { x with handles := Table.insert x.handles h (.full st), queue := x.queue ++ [(h, st, last)] }

/-! ### The iterations of a stage (R201 to R203) -/

/-- The next binding of an iteration whose handle is missing: inputs first, by rising number (R201). -/
def nextNeed (body : List Byte) (held : List HeldHandle) : Option Binding :=
  (inputsOf body ++ outputsOf body).find? fun b => !held.any fun h => h.binding == b.num

/-- Whether every handle of an iteration is held. -/
def allHeld (body : List Byte) (held : List HeldHandle) : Bool := (nextNeed body held).isNone

/-- Whether the iteration whose handles are held is the last one (R201). -/
def isFinal (body : List Byte) (iter : Nat) (held : List HeldHandle) : Bool :=
  match (inputsOf body).head? with
  | some b => held.any fun h => h.binding == b.num && h.last
  | none => decide (iter + 1 = sgIters body)

/-- Where a held handle puts its operand: its buffer, or the first page of its segment (R201). -/
def handleVa (s : State) (t : Task) (h : HeldHandle) : Nat :=
  match sidingOf s t.part t.wing h.siding with
  | none => 0
  | some x => if sdKind x.desc = 0 then sidingBuffer x h.handle else ((Table.find x.segs h.handle).map (·.2.2.2)).getD 0

/-- A loop body with its bound operands at their handles (R201). -/
def boundBody (s : State) (t : Task) (held : List HeldHandle) : LoopBody :=
  held.foldl (fun d h =>
    match (bindingsOf t.body).find? fun b => b.num == h.binding with
    | none => d
    | some b =>
      let va := handleVa s t h
      match b.target with
      | 0 => { d with a := { d.a with base := va } }
      | 1 => { d with b := { d.b with base := va } }
      | _ => { d with o := { d.o with base := va } }) (parseLoop t.body2)

/-- What a rank of a stage knows of the walk of one iteration. -/
def runEnv (s : State) (t : Task) (x : StageWork) (y : StageRun) (rank : Nat) : WalkEnv :=
  walkEnv s t (boundBody s t y.held) x.bucket rank

/-- Unit counts of the levels for a walk of a stage. -/
def stageUnits (t : Task) (bucket : Nat) (w : CoreWalk) : List Nat :=
  let d := parseLoop t.body2
  walkUnits d (d.bucket bucket) w.units

/-- Tile steps of a walk of a stage, drain steps apart. -/
def stageSteps (t : Task) (bucket : Nat) (w : CoreWalk) : Nat := if w.units = 0 then 0 else stepCount (stageUnits t bucket w)

/-- Whether a core has begun the last tile step of a walk. -/
def begunLast (t : Task) (bucket : Nat) (w : CoreWalk) : Bool := w.units != 0 && decide (stageSteps t bucket w ≤ w.step)

/-- The walk of the next iteration goes on with the parity of the one before and with its accumulator sets (R203). -/
def continueWalk (t : Task) (bucket : Nat) (prev : Option StageRun) (rank : Nat) (w : CoreWalk) : CoreWalk :=
  match prev.bind fun p => Table.find p.loop.walks rank with
  | none => w
  | some p =>
    { w with
      base := (p.base + stageSteps t bucket p) % 2
      setBase := (p.setBase + groupCount (parseLoop t.body2) (stageUnits t bucket p)) % 2 }

/-- An iteration as the sequencer begins it, after another or as the first. -/
def openRun (t : Task) (bucket : Nat) (prev : Option StageRun) : StageRun :=
  let d := parseLoop t.body2
  { loop := { bucket := bucket
              walks := if stageMode t ≠ 0 then [] else (startWalks d (d.bucket bucket) t.cores.length).map fun w =>
                (w.1, continueWalk t bucket prev w.1 w.2) } }

/-- Change one iteration of a stage. -/
def StageWork.modRun (x : StageWork) (j : Nat) (f : StageRun → StageRun) : StageWork := { x with runs := x.runs.modify j f }

/-- Put back the walk of a rank in one iteration. -/
def StageWork.setWalk (x : StageWork) (j rank : Nat) (w : CoreWalk) : StageWork :=
  x.modRun j fun y => { y with loop := { y.loop with walks := Table.insert y.loop.walks rank w } }

/-- Put stage work back; whatever the stage was blocked on has ended. -/
def putStage (s : State) (id : Nat) (x : StageWork) : State :=
  s.modTask id fun t => { t with work := .stage x, blocked := none }

/-- Begin the takes and acquires of the next iteration once the last tile step of the youngest one has begun (R203). -/
def openAhead (t : Task) (x : StageWork) : StageWork :=
  match x.runs.getLast? with
  | none => x
  | some y =>
    if stageMode t == 0 && allHeld t.body y.held && !y.final && y.loop.walks.any (fun w => begunLast t x.bucket w.2) then
      { x with runs := x.runs ++ [openRun t x.bucket (some y)] }
    else x

/-! ### Merged transfers (R206) -/

/-- A transfer as merging sees it: whether it writes, where it starts, its length and, for one between two memories, its
source. -/
structure Transfer1 where
  write : Bool
  va : Nat
  len : Nat
  source : Option Nat := none
deriving DecidableEq, Repr

/-- Transfers that fill one operand for a tile step. -/
def fillTransfers (v : WalkEnv) (w : CoreWalk) (step : Nat) (b : Bool) : List Transfer1 :=
  let o := inputOf v.d b
  let x := inputTile v.d v.k (walkOrigin v w step) b
  (dataRanges o x ++ scaleRanges o x).map fun r => { write := false, va := r.1, len := r.2 }

/-- Transfers that one tile step makes: the write of the tile finished two steps before, then the fills of the next
step. -/
def stepTransfers (v : WalkEnv) (w : CoreWalk) : List Transfer1 :=
  let x (o : OutTile) : TileAt := tileO v.d v.k o.point
  (match w.outs.find? fun o => o.at_ + 2 == w.step with
  | none => []
  | some o =>
    (outRuns v.d.o (x o) (List.replicate (dataBytes v.d.o (x o) + tileScaleBytes v.d.o (x o)) 0)).map fun r =>
      { write := true, va := r.1, len := r.2.length }) ++
  (if w.step + 1 < walkSteps v w then (ownFills v.d).foldr (fun b l => fillTransfers v w (w.step + 1) b ++ l) [] else [])

/-- Tile whose memory system a transfer is aimed at (R206). -/
def aimOf (s : State) (c : Ctx) (va : Nat) : Option Tile :=
  match translate s c va false with
  | .ok x => if isStacked x.pa then some (homeTile x.pa) else none
  | .error _ => none

/-- What stays held after a transfer of a phase that ends at `stop` with n bytes: nothing once it has 4 KiB. -/
def holdFor (phase : Nat) (x : Transfer1) (n : Nat) : Option MergeHold :=
  if n < 4096 then
    some { write := x.write, stop := x.va + x.len, len := n, phase := phase, source := x.source.map fun a => a + x.len }
  else none

/-- Whether a transfer joins the held one (R206). -/
def joins (s : State) (c : Ctx) (phase : Nat) (h : MergeHold) (x : Transfer1) : Bool :=
  h.write == x.write && h.stop == x.va && h.source == x.source && h.phase == phase && decide (h.len + x.len ≤ 65536)
    && (aimOf s c (h.stop - 1)).isSome && aimOf s c (h.stop - 1) == aimOf s c x.va

/-- Transfers of a phase against the held one: what stays held, and how many were merged away (R206). -/
def mergeAll (s : State) (c : Ctx) (phase : Nat) (held : Option MergeHold) (xs : List Transfer1) : Option MergeHold × Nat :=
  xs.foldl (fun a x =>
    match a.1 with
    | none => (holdFor phase x x.len, a.2)
    | some h => if joins s c phase h x then (holdFor phase x (h.len + x.len), a.2 + 1) else (holdFor phase x x.len, a.2))
    (held, 0)

/-- The DMA port of a rank's core issues transfers: small ones merge unless merging is off (R206). -/
def mergeRank (s : State) (t : Task) (x : StageWork) (rank phase : Nat) (xs : List Transfer1) : State × StageWork :=
  if partVal s 0x8033 t.part = 0 then (s, { x with merge := Table.erase x.merge rank })
  else
    let r := mergeAll s (coreCtx s t rank) phase (Table.find x.merge rank) xs
    (if r.2 = 0 then s else addCtr s (blkSch t.home) 0x0420 r.2,
      { x with merge := match r.1 with | some h => Table.insert x.merge rank h | none => Table.erase x.merge rank })

/-- MERGE_HOLD_EXPIRY: the held transfer of a core is issued (R206). -/
def expireHold (s : State) (t : Task) (x : StageWork) (rank : Nat) : State :=
  s.modTask t.id fun y => { y with work := .stage { x with merge := Table.erase x.merge rank } }

/-! ### Fills of step 0 -/

/-- Whether a fill for step 0 of an iteration may begin: the operand is not bound, or its handle is held (R203). -/
def inputHeld (t : Task) (held : List HeldHandle) (b : Bool) : Bool :=
  match (inputsOf t.body).find? fun y => y.target == b2n b with
  | none => true
  | some y => held.any fun h => h.binding == y.num

/-- Whether the fill of a walk's step 0 for one operand is due: not yet issued, and the core has begun the last tile step
of the iteration before (R203). -/
def fillDue (t : Task) (x : StageWork) (j rank : Nat) (w : CoreWalk) (y : StageRun) (b : Bool) : Bool :=
  w.units != 0 && w.step == 0 && !(if b then w.fillB else w.fillA) && inputHeld t y.held b
    && (j == 0 || (x.runs[j - 1]?.bind fun p => Table.find p.loop.walks rank).any (begunLast t x.bucket))

/-- The fills of step 0 that are due: iteration, rank and operand of each. -/
def fillsDue (t : Task) (x : StageWork) : List (Nat × Nat × Bool) :=
  (x.runs.zip (List.range x.runs.length)).foldr (fun y l => y.1.loop.walks.foldr (fun w l =>
    ((ownFills (parseLoop t.body2)).filter (fillDue t x y.2 w.1 w.2 y.1)).map (fun b => (y.2, w.1, b)) ++ l) l) []

/-- One fill of step 0 (R203). -/
def fillRun (t : Task) (s : State) (x : StageWork) (f : Nat × Nat × Bool) : State × Except UnitErr StageWork :=
  match x.runs[f.1]?.bind fun y => (Table.find y.loop.walks f.2.1).map fun w => (y, w) with
  | none => (s, .ok x)
  | some (y, w) =>
    let v := runEnv s t x y f.2.1
    let (s, x) := mergeRank s t x f.2.1 (Table.get 0 t.phases f.2.1) (fillTransfers v w 0 f.2.2)
    match fillFirst s v w f.2.2 with
    | (s, .error e) => (s, .error { coreErr e with core := v.core })
    | (s, .ok o) => (noteStep s t.id v.core o.flags o.broke, .ok (x.setWalk f.1 f.2.1 o.walk))

/-! ### Aliased outputs (R177) -/

/-- The loop bodies that a loop task, or the iterations of a COMPUTE stage under way, write OUT under, and their
bucket. -/
def bodiesOf (s : State) (t : Task) : List (LoopBody × Nat) :=
  match t.work with
  | .loop x => [(parseLoop t.body, x.bucket)]
  | .stage x => if stageMode t = 0 then x.runs.map fun y => (boundBody s t y.held, x.bucket) else []
  | _ => []

/-- Destination ranges of loop bodies. -/
def bodyDests (bs : List (LoopBody × Nat)) : List (Nat × Nat) := bs.foldr (fun b l => loopDests b.1 (b.1.bucket b.2) ++ l) []

/-- Ranges that two tasks write while both are dispatched (R177). -/
def sharedDests (s : State) (own : List (Nat × Nat)) (t x : Task) : List (Nat × Nat) :=
  if x.id != t.id && x.part == t.part && x.dispatched then
    let ys := bodyDests (bodiesOf s x)
    if ys.isEmpty || (shared (hullOf own) (hullOf ys)).isNone then [] else sharedRanges own ys
  else []

/-- Bytes that two output elements have written, of one body or of two tasks at the same time, are undefined (R177): those
of the bodies whose writes are complete are left free, and the tasks that still run remember theirs. The iterations of a
stage write their elements in order, so one does not alias the next (DEDUCED, assumption log 132). -/
def settleAliases (s : State) (t : Task) (bs : List (LoopBody × Nat)) : State :=
  let own := bodyDests bs
  if own.isEmpty then s
  else
    let other := sharedDests s own t
    let s := scribbleRanges s (taskCtx s t)
      (bs.foldr (fun b l => aliasedDests b.1 (b.1.bucket b.2) ++ l) [] ++ t.clash ++ s.tasks.foldr (fun x l => other x ++ l) [])
    { s with tasks := s.tasks.map fun x =>
        if x.id == t.id then { x with clash := [] } else let o := other x; if o.isEmpty then x else { x with clash := x.clash ++ o } }

/-! ### The end of an iteration (R202) -/

/-- Return the input handles of an iteration: a segment marked RELEASE is released first (R202). -/
def returnInputs (s : State) (t : Task) (held : List HeldHandle) : State :=
  held.foldl (fun s h =>
    match (bindingsOf t.body).find? (fun b => b.num == h.binding), sidingOf s t.part t.wing h.siding with
    | some b, some y =>
      if b.out then s
      else
        let s := match b.release, Table.find y.segs h.handle with
          | true, some g => release s t.part g.1 g.2.1
          | _, _ => s
        s.modSiding t.part t.wing h.siding fun y => y.freeHandle h.handle
    | _, _ => s) s

/-- Commit the output handles of an iteration (R202). -/
def commitOutputs (s : State) (t : Task) (held : List HeldHandle) (last : Bool) : State :=
  held.foldl (fun s h =>
    match (bindingsOf t.body).find? fun b => b.num == h.binding with
    | some b => if b.out then s.modSiding t.part t.wing h.siding fun y => y.commit h.handle (stageStream t) last else s
    | none => s) s

/-- Whether every core has run its last tile step of an iteration, so that its inputs have been read (R201). -/
def readsDone (t : Task) (bucket : Nat) (y : StageRun) : Bool :=
  y.loop.walks.all fun w => w.2.done || decide (stageSteps t bucket w.2 < w.2.step)

/-- Return the inputs of every iteration of a COMPUTE stage whose last read has been performed (R201). -/
def returnRead (s : State) (t : Task) (x : StageWork) : State × StageWork :=
  (List.range x.runs.length).foldl (fun (a : State × StageWork) j =>
    match a.2.runs[j]? with
    | none => a
    | some y =>
      if stageMode t == 0 && allHeld t.body y.held && !y.returned && readsDone t x.bucket y then
        (returnInputs a.1 t y.held, a.2.modRun j fun y => { y with returned := true })
      else a) (s, x)

/-- Take up stage work: the next iteration begins where it may, the fills due are made, inputs that have been read are
returned, and a failed fill faults the task. -/
def settleStage (s : State) (t : Task) (x : StageWork) : State :=
  let x := openAhead t x
  match foldErr (fillRun t) s x (fillsDue t x) with
  | (s, .error e) => faultTask (putStage s t.id x) t.id t.part e.err e.unit e.core
  | (s, .ok x) => let r := returnRead s t x; putStage r.1 t.id r.2

/-- The running iteration has ended: inputs returned, outputs committed, and the next iteration taken up (R201 to
R203). -/
def endIteration (s : State) (t : Task) (x : StageWork) : State :=
  match x.runs with
  | [] => s
  | y :: ys =>
    let s := if stageMode t = 0 then settleAliases s t [(boundBody s t y.held, x.bucket)] else s
    let s := if y.returned then s else returnInputs s t y.held
    let s := commitOutputs s t y.held y.final
    let s := if y.drained then addCtr s (blkSch t.home) 0x0440 else s
    settleStage s t { x with
      iter := x.iter + 1
      runs := if y.final then [] else if ys.isEmpty then [openRun t x.bucket (some y)] else ys
      lastCommit := (tickOf s t.wing).toNat, iterMissed := false, waiting := false, ended := y.final }

/-- A stage is dispatched: its first iteration begins, with the fills of operands that are not bound (R201, R203). -/
def startStage (s : State) (t : Task) (x : StageWork) : State :=
  let y := openRun t x.bucket none
  settleStage s t { x with
    lastCommit := t.dispatchTick.toNat
    runs := [{ y with final := allHeld t.body [] && isFinal t.body 0 [] }] }

/-! ### Taking and acquiring -/

/-- The binding for which a stage may hold a handle now: that of its youngest iteration (R201, R203). -/
def wants (t : Task) (x : StageWork) : Option Binding :=
  if x.ended then none else x.runs.getLast?.bind fun y => nextNeed t.body y.held

/-- Add a handle to the youngest iteration of a stage; the last one tells whether it is final (R201). -/
def holdHandle (t : Task) (x : StageWork) (h : HeldHandle) : StageWork :=
  x.modRun (x.runs.length - 1) fun y =>
    let held := y.held ++ [h]
    { y with held := held, final := allHeld t.body held && isFinal t.body (x.iter + (x.runs.length - 1)) held }

/-- Whether a segment is large enough for the operand it is bound to (R199). -/
def segmentFits (t : Task) (bucket : Nat) (b : Binding) (x : Siding) (h : Nat) : Bool :=
  sdKind x.desc == 0 || stageMode t != 0 ||
    match Table.find x.segs h with
    | none => true
    | some g => let d := parseLoop t.body2; decide (footprint d (d.bucket bucket) b.target ≤ g.2.2.1 * 65536)

/-- Take the next full handle of the stream (R195, R197, R201). -/
def takeHandle (s : State) (t : Task) (x : StageWork) (b : Binding) : State :=
  match sidingOf s t.part t.wing b.siding with
  | none => s
  | some y =>
    match y.queue.find? fun q => q.2.1 == stageStream t with
    | none => s
    | some (h, st, last) =>
      let s := s.modSiding t.part t.wing b.siding fun y =>
        { y with queue := dropFirst st y.queue, handles := Table.insert y.handles h (.taken st) }
      let x' := holdHandle t x { binding := b.num, siding := b.siding, handle := h, last := last }
      if segmentFits t x.bucket b y h then settleStage s t x' else stopTask (putStage s t.id x') t.id 0x0503

/-- Acquire a free handle for the stream; which one is open (R196). -/
def acquireHandle (s : State) (t : Task) (x : StageWork) (b : Binding) : State :=
  match sidingOf s t.part t.wing b.siding with
  | none => s
  | some y =>
    let fr := freeHandles y
    if !mayAcquire y (stageStream t) || fr.isEmpty then s
    else
      let h := nth 0 fr (Config.freePick s.freeCtr % fr.length)
      let s := { s with freeCtr := s.freeCtr + 1 }
      let s := s.modSiding t.part t.wing b.siding fun y => { y with handles := Table.insert y.handles h (.acquired (stageStream t)) }
      settleStage s t (holdHandle t x { binding := b.num, siding := b.siding, handle := h })

/-- Run an effect on a stage that holds its cores. -/
def onStage (s : State) (id : Nat) (f : Task → StageWork → State) : State :=
  match taskOf s id with
  | none => s
  | some t =>
    match t.status, t.work with
    | .running, .stage x => f t x
    | _, _ => s

/-- STAGE_HANDLE_TAKE (R201). -/
def execStageHandleTake (id : Nat) (binding : Fin 4) (s : State) : Host.Outcome State Fault Refusal :=
  .next (orWait s fun s => onStage s id fun t x =>
    match wants t x with
    | some b => if b.num = binding.val ∧ !b.out then takeHandle s t x b else s
    | none => s)

/-- STAGE_HANDLE_ACQUIRE (R196, R201). -/
def execStageHandleAcquire (id : Nat) (binding : Fin 4) (s : State) : Host.Outcome State Fault Refusal :=
  .next (orWait s fun s => onStage s id fun t x =>
    match wants t x with
    | some b => if b.num = binding.val ∧ b.out then acquireHandle s t x b else s
    | none => s)

/-- MERGE_HOLD_EXPIRY (R206). -/
def execMergeHoldExpiry (id : Nat) (core : Rank) (s : State) : Host.Outcome State Fault Refusal :=
  .next (onStage s id fun t x => expireHold s t x core)

/-! ### Tile steps of a COMPUTE stage -/

/-- The iterations that a rank steps together, the oldest first: a younger one begins once every tile step of the one
before has run, its own handles are all held, and that one has not gone to drain alone (R203). -/
def stepPlan (t : Task) (bucket rank : Nat) : Bool → Nat → List StageRun → List (Nat × CoreWalk)
  | _, _, [] => []
  | go, j, y :: ys =>
    match Table.find y.loop.walks rank with
    | none => []
    | some w =>
      if w.done then stepPlan t bucket rank (go && !y.drained) (j + 1) ys
      else if go && allHeld t.body y.held then
        (j, w) :: stepPlan t bucket rank (decide (stageSteps t bucket w ≤ w.step) && !y.drained) (j + 1) ys
      else []

/-- Whether everything the next step of a rank needs has been filled (R179). -/
def planReady (s : State) (t : Task) (x : StageWork) (rank : Nat) (ps : List (Nat × CoreWalk)) : Bool :=
  ps.all fun p => x.runs[p.1]?.any fun y => stepReady (runEnv s t x y rank) y.loop p.2

/-- A step that carries no engine work of any iteration drains the youngest of them alone (R203). -/
def markDrain (t : Task) (x : StageWork) (ps : List (Nat × CoreWalk)) : StageWork :=
  match ps.getLast? with
  | some (j, w) => if stageSteps t x.bucket w ≤ w.step then x.modRun j fun y => { y with drained := true } else x
  | none => x

/-- The part of one iteration in a rank's step (R179, R203). -/
def stepRun (t : Task) (rank : Nat) (s : State) (x : StageWork) (p : Nat × CoreWalk) : State × Except UnitErr StageWork :=
  match x.runs[p.1]? with
  | none => (s, .ok x)
  | some y =>
    let v := runEnv s t x y rank
    let (s, x) := mergeRank s t x rank (stepPhase v.d p.2) (stepTransfers v p.2)
    match walkStep s v p.2 with
    | (s, .error e) => (s, .error { coreErr e with core := v.core })
    | (s, .ok o) => (noteStep s t.id v.core o.flags o.broke, .ok (x.setWalk p.1 rank o.walk))

/-- One tile step of a rank of a COMPUTE stage (R179, R203): the drain steps of an iteration run within the first steps of
the next one when that goes straight on, and alone otherwise. -/
def stageStep (s : State) (t : Task) (x : StageWork) (rank : Nat) : State :=
  let ps := stepPlan t x.bucket rank true 0 x.runs
  match ps.head? with
  | none => s
  | some (j, w) =>
    if !planReady s t x rank ps then s
    else
      let s := enterStep s (runEnv s t x ((x.runs[j]?).getD (openRun t x.bucket none)) rank) w
      match foldErr (stepRun t rank) s (markDrain t x ps) ps with
      | (s, .error e) => faultTask (putStage s t.id x) t.id t.part e.err e.unit e.core
      | (s, .ok x) => settleStage s t x

/-! ### Transfers of COPY and LOAD stages -/

/-- One end of an iteration of a COPY stage: its handle's buffer, or the address its body gives (R201). -/
def copyEnd (s : State) (t : Task) (x : StageWork) (y : StageRun) (out : Bool) (va : Nat) : Nat :=
  match y.held.find? fun h => (bindingsOf t.body).any fun b => b.num == h.binding && b.out == out with
  | some h => handleVa s t h
  | none => (va + x.iter * sgStep t.body) % 2 ^ 48

/-- The transfer of one iteration of a COPY stage through its core's pass-through buffer, in ascending address order
(R74, R201). Only a destination above its source can meet bytes still to be read, and what is left there is not stated:
free bytes, as in a copy (DEDUCED, assumption log 61). -/
def runCopyIter (s : State) (t : Task) (x : StageWork) (y : StageRun) : State :=
  let c := coreCtx s t 0
  let i := nth 0 t.cores 0
  let src := copyEnd s t x y false (sgSrc t.body)
  let dst := copyEnd s t x y true (sgDst t.body)
  let n := copyLen t.hdr
  let (s, x) := mergeRank s t x 0 0 [{ write := true, va := dst, len := n, source := some src }]
  let s := openTransfer s { core := i, task := t.id, write := false, ranges := [] }
  match loadVa s c src n with
  | (s, .error e) => faultTask s t.id t.part e .core i
  | (s, .ok bs) =>
    let r : List Byte × State := if dst ≤ src then (bs, s) else copyBytes s src dst bs
    match saveVa (passThrough r.2 i r.1) c dst r.1 with
    | (s, some e) => faultTask s t.id t.part e .core i
    | (s, none) => endIteration (closeCore s i) t x

/-- Whether a schedule entry may be loaded (R116). -/
def schedEntryOk (s : State) (t : Task) (e : Nat) : Bool :=
  decide (bits e 83 72 ≠ 0 ∧ bits e 83 72 ≤ (recGrant (taskRec s t) t.home).s)
    && bits e 71 66 == 0 && bits e 63 48 == 0 && bits e 15 0 == 0

/-- The load of one iteration of a LOAD stage (R201, R205): it performs the stage load of its entry, or waits for
stream frames. An entry that R116 turns away ends the stage with the cause it has there, which R201 does not say
(DESIGN CHOICE, assumption log 130). -/
def runLoadIter (s : State) (t : Task) (x : StageWork) (y : StageRun) : State :=
  let c := taskCtx s t
  match loadNum s c (sgTable t.body + 16 * x.sched) 16 with
  | (s, .error e) => faultTask s t.id t.part e .stationmaster
  | (s, .ok e) =>
    if !schedEntryOk s t e then stopTask s t.id 0x0207
    else
      let pages := bits e 83 72
      let va := bits e 47 16 * 0x10000
      match segmentPages s c va pages with
      | .error e => faultTask s t.id t.part e .stationmaster
      | .ok ps =>
        if !streamRoom s t.part (ps.map (·.tile)) then s.modTask t.id fun z => { z with work := .stage { x with waiting := true } }
        else
          let s := loadPages s { src := .stageLoad, ctx := c, layer := bits e 127 96, seg := bits e 95 84 } ps
          let s := match y.held.head? with
            | some h => s.modSiding t.part t.wing h.siding fun z =>
                { z with segs := Table.insert z.segs h.handle (bits e 127 96, bits e 95 84, pages, va) }
            | none => s
          endIteration s t { x.modRun 0 fun y => { y with final := y.final || bit e 64 } with
            sched := if bit e 65 then 0 else x.sched + 1 }

/-- STAGE_ITERATION_END (R201, R202): a COMPUTE iteration ends once every core has finished its walk; a COPY or LOAD
stage performs its transfer. -/
def execStageIterationEnd (id : Nat) (s : State) : Host.Outcome State Fault Refusal :=
  .next (orWait s fun s => onStage s id fun t x =>
    match x.runs.head? with
    | none => s
    | some y =>
      if x.ended || !allHeld t.body y.held || x.waiting then s
      else match stageMode t with
        | 0 => if walksDone y.loop then endIteration s t x else s
        | 1 => runCopyIter s t x y
        | _ => runLoadIter s t x y)

/-- STAGE_LOAD_RESUME: frames have come free for a waiting stage load, a move or a LOAD stage's (R114, R205). -/
def execStageLoadResume (id : Nat) (s : State) : Host.Outcome State Fault Refusal :=
  match taskOf s id with
  | some t =>
    match t.work, t.status with
    | .move false true, .running => .next (orWait s fun s => runStageLoad s t)
    | .stage x, .running => .next (orWait s fun s =>
        match x.waiting, x.runs.head? with
        | true, some y => runLoadIter s t { x with waiting := false } y
        | _, _ => s)
    | _, _ => .next s
  | none => .next s

/-! ### Deadlines (R207, R208) -/

/-- Whether a task misses its own deadline now. -/
def missesDeadline (now : Nat) (t : Task) : Bool :=
  hDeadline t.hdr != 0 && !t.deadlineMissed && decide (t.issueTick.toNat + hDeadline t.hdr ≤ now)

/-- Whether a stage misses its iteration deadline now. -/
def missesIter (now : Nat) (t : Task) : Bool :=
  match t.work with
  | .stage x => t.dispatched && sgIterDl t.body != 0 && !x.iterMissed && !x.ended && decide (x.lastCommit + sgIterDl t.body ≤ now)
  | _ => false

/-- Capture the first miss since DL_CLR (R215). -/
def captureDeadline (s : State) (t : Task) (iter : Bool) : State :=
  if flg (s.sch.get t.home).dlInfo 31 then s
  else s.modSch t.home fun x =>
    { x with
      dlInfo := pack [(1, 31), (b2n (recRt (taskRec s t)), 30), (b2n iter, 29), (t.part, 20), (t.ring, 0)]
      dlTag := BitVec.ofNat 32 (entryTag t.hdr) }

/-- Report one miss, and abort the task in a real-time partition (R208). -/
def reportMiss (s : State) (t : Task) (iter : Bool) : State :=
  let s := s.modTask t.id fun y =>
    if iter then { y with work := match y.work with | .stage x => .stage { x with iterMissed := true } | w => w }
    else { y with deadlineMissed := true }
  let s := captureDeadline (addCtr (raise s 0x0501 (entryTag t.hdr) (blkSch t.home) t.part) (blkSch t.home) 0x0428) t iter
  if recRt (taskRec s t) then stopTask s t.id 0x0501 else logTask s t 0x0501

/-- DEADLINE_CHECK (R208). -/
def execDeadlineCheck (t : Tile) (s : State) : Host.Outcome State Fault Refusal :=
  let now := (tickOf s (wingOf t)).toNat
  .next ((s.tasks.filter fun x => x.home == t).foldl (fun s x =>
    let s := if missesDeadline now x then reportMiss s x false else s
    if missesIter now x then reportMiss s x true else s) s)

/-! ### Stall cycles (R210, R211) -/

/-- What a stage waits for at this moment to hold a binding's handle. -/
def waitFor (s : State) (t : Task) (b : Binding) : Option BlockReason :=
  match sidingOf s t.part t.wing b.siding with
  | none => none
  | some y =>
    if b.out then (if mayAcquire y (stageStream t) then none else some (.acquire b.siding))
    else if y.queue.any fun q => q.2.1 == stageStream t then none else some (.take b.siding)

/-- What a task waits for at this moment without holding cores at work (R210): a stage whose earlier iteration still runs
has its cores at work. -/
def blockNow (s : State) (t : Task) : Option BlockReason :=
  match t.status, t.work with
  | .running, .move false true => some .frames
  | .running, .stage x =>
    if x.ended then none
    else if x.waiting then some .frames
    else match x.runs with
      | [y] => (nextNeed t.body y.held).bind (waitFor s t)
      | _ => none
  | _, _ => none

/-- Whether a task is blocked at a count: it has waited for a whole tick since a check first saw it wait (R210). -/
def blockedAt (s : State) (now : Nat) (t : Task) : Bool :=
  match t.blocked with
  | some (r, k) => decide (k + 1 ≤ now) && blockNow s t == some r
  | none => false

/-- Update since when each task of a wing has waited. -/
def refreshBlocked (s : State) (w : Wing) : State :=
  let now := (tickOf s w).toNat
  { s with tasks := s.tasks.map fun t =>
      if t.wing ≠ w then t
      else { t with blocked := match blockNow s t, t.blocked with
        | none, _ => none
        | some r, some (q, k) => if r = q then some (r, k) else some (r, now)
        | some r, none => some (r, now) } }

/-- Issued stages that hold their cores. -/
def liveStages (s : State) (part : Nat) (w : Wing) : List Task :=
  s.tasks.filter fun t => t.isStage && t.part == part && t.wing == w && t.dispatched && t.status == .running

/-- Whether a stage holds a segment handle that it will release (R210). -/
def holdsRelease (t : Task) : Bool :=
  match t.work with
  | .stage x => x.runs.any fun y => !y.returned && y.held.any fun h =>
      (bindingsOf t.body).any fun b => b.num == h.binding && b.release
  | _ => false

/-- Tasks that a blocked task waits on (R210). -/
def waitsOn (s : State) (t : Task) : List Nat :=
  let live := liveStages s t.part t.wing
  match t.blocked with
  | none => []
  | some (.take n, _) =>
    (live.filter fun x => stageStream x == stageStream t && (outputsOf x.body).any fun b => b.siding == n).map (·.id)
  | some (.acquire n, _) =>
    (match sidingOf s t.part t.wing n with
    | none => []
    | some y => (live.filter fun x =>
        decide (0 < countHandles y (stageStream x)) && (inputsOf x.body).any fun b => b.siding == n).map (·.id))
  | some (.frames, _) => (live.filter fun x => x.home == t.home && holdsRelease x).map (·.id)

/-- The greatest stall set within a list of blocked tasks, with fuel for its length (R210). -/
def stallSet (s : State) : Nat → List Task → List Task
  | 0, z => z
  | n + 1, z =>
    let z' := z.filter fun t => !(waitsOn s t).isEmpty && (waitsOn s t).all fun i => z.any fun x => x.id == i
    if z'.length = z.length then z else stallSet s n z'

/-- Whether one stage is a better victim than another (R211). -/
def worseStage (s : State) (a b : Task) : Bool :=
  let prio (t : Task) : Nat := min (hPrio t.hdr) (recPrioMax (taskRec s t))
  lexLt [prio a, 256 - stageStream a, 2 ^ 64 - a.id] [prio b, 256 - stageStream b, 2 ^ 64 - b.id]

/-- The victim of a stall cycle (R211). -/
def stallVictim (s : State) (z : List Task) : Option Task :=
  (z.filter Task.isStage).foldl (fun (b : Option Task) t =>
    match b with
    | none => some t
    | some v => if worseStage s t v then some t else some v) none

/-- Capture the first victim since STALL_CLR (R214). -/
def captureStall (s : State) (w : Wing) (v : Task) (members : Nat) : State :=
  let t := tileIn w 0
  if flg (s.sch.get t).stallInfo 31 then s
  else s.modSch t fun x =>
    { x with
      stallInfo := pack [(1, 31), (v.part, 24), (stageStream v, 16), (members, 0)]
      stallTag := BitVec.ofNat 32 (entryTag v.hdr) }

/-- Find and break the stall cycle of one partition: its members have been blocked for PART_STALL_TICKS, each from the
tick after it began to wait (R210, R211). -/
def breakStall (s : State) (w : Wing) (p : Nat) : State :=
  let now := (tickOf s w).toNat
  let old := s.tasks.filter fun t => t.part == p && t.wing == w &&
    (match t.blocked with
    | some (_, k) => decide (k + 1 + max 1 (partVal s 0x8032 p) ≤ now)
    | none => false)
  let z := stallSet s old.length old
  match stallVictim s z with
  | none => s
  | some v =>
    let s := raise s 0x0502 (entryTag v.hdr) (blkSch (tileIn w 0)) p
    let s := captureStall (addCtr s (blkSch (tileIn w 0)) 0x0430) w v z.length
    let s := stopTask s v.id 0x0502
    { s with tasks := s.tasks.map fun t =>
        if z.any fun x => x.id == t.id then { t with blocked := t.blocked.map fun b => (b.1, now - 1) } else t }

/-- STALL_CHECK (R211). -/
def execStallCheck (w : Wing) (s : State) : Host.Outcome State Fault Refusal :=
  .next ((List.range 16).foldl (fun s p => breakStall s w p) (refreshBlocked s w))

end Sys2Proof.Machine
end

