-- ==== Sys2Proof/Machine/Catalogue.lean ====
section
/-!
DEFINITION. The Catalogue (R362 to R390): indexes as a task sees them, item search and re-ranking, page selection and
merges. A Catalogue task's work is performed in one step when it is dispatched.
-/

namespace Sys2Proof.Machine

/-! ### Index headers (R364, R365) -/

def chNode (h : Nat) : Nat := bits h 511 464
def chVec (h : Nat) : Nat := bits h 463 416
def chSide (h : Nat) : Nat := bits h 415 368
def chTomb (h : Nat) : Nat := bits h 367 320
def chNodes (h : Nat) : Nat := bits h 319 288
def chLimit (h : Nat) : Nat := bits h 287 256
def chEntry (h : Nat) : Nat := bits h 255 224
def chCap (h : Nat) : Nat := bits h 223 208
def chDim (h : Nat) : Nat := 64 * bits h 207 202
def chFmt (h : Nat) : Nat := bits h 201 198
def chPage (h : Nat) : Bool := bit h 192
def chDegree (h : Nat) : Nat := if chPage h then 0 else 8 * (bits h 197 195 + 1)
def chPart (h : Nat) : Nat := bits h 191 188
def chLen (h : Nat) : Nat := bits h 127 64

/-- Bytes of a sketch (R362). -/
def sketchBytes (h : Nat) : Nat := 32 * 2 ^ bits h 194 193

/-- NODE_BYTES (R365) and SIDE_BYTES (R366). -/
def nodeBytes (h : Nat) : Nat := roundUp (sketchBytes h + 8 + 4 * chDegree h) 64
def sideBytes (h : Nat) : Nat := roundUp (sketchBytes h + 16) 64

/-- Bytes of one vector (R365). -/
def vecBytes (h : Nat) : Nat := chDim h * (elemOf (chFmt h)).1.width / 8

/-! ### Bodies (R371, R372, R382) -/

def qMask (b : List Byte) : Nat := bits (at8 b 0 64) 511 448
def qValue (b : List Byte) : Nat := bits (at8 b 0 64) 447 384
def qBlockVa (b : List Byte) : Nat := bits (at8 b 0 64) 383 336
def qResult (b : List Byte) : Nat := bits (at8 b 0 64) 335 288
def qVisit (b : List Byte) : Nat := bits (at8 b 0 64) 287 272
def qQueue (b : List Byte) : Nat := bits (at8 b 0 64) 271 260
def qK (b : List Byte) : Nat := bits (at8 b 0 64) 259 248
def qRerank (b : List Byte) : Nat := bits (at8 b 0 64) 247 236
def qNq (b : List Byte) : Nat := bits (at8 b 0 64) 235 229
def qIndex (b : List Byte) : Nat := bits (at8 b 0 64) 228 217
def qPages (b : List Byte) : Bool := bit (at8 b 0 64) 216
def qRbFirst (b : List Byte) : Nat := bits (at8 b 0 64) 215 210
def qRbCount (b : List Byte) : Nat := bits (at8 b 0 64) 209 204

/-- Block entry b of the entries read. -/
def blockEntry (bs : List Byte) (b : Nat) : Nat := at8 bs (32 * b) 32
def beSketch (x : Nat) : Nat := bits x 255 208
def beVec (x : Nat) : Nat := bits x 207 160
def beForce (x : Nat) : Nat := bits x 159 112
def beList (x : Nat) : Nat := bits x 111 64
def beIndex (x : Nat) : Nat := bits x 63 52

def mgHdr (b : List Byte) : Nat := bits (at8 b 0 64) 511 464
def mgNode (b : List Byte) : Nat := bits (at8 b 0 64) 463 416
def mgTomb (b : List Byte) : Nat := bits (at8 b 0 64) 415 368
def mgSide (b : List Byte) : Nat := bits (at8 b 0 64) 367 320
def mgCap (b : List Byte) : Nat := bits (at8 b 0 64) 319 304
def mgVisit (b : List Byte) : Nat := bits (at8 b 0 64) 303 288
def mgQueue (b : List Byte) : Nat := bits (at8 b 0 64) 287 276
def mgIndex (b : List Byte) : Nat := bits (at8 b 0 64) 275 264

/-- Whether a Catalogue task is a merge. -/
def isMerge (t : Task) : Bool := hSub t.hdr == 1

/-- Block entries of a query. -/
def queryBlocks (t : Task) : List Nat := (List.range (qNq t.body)).map (blockEntry t.body2)

/-- Index numbers a task names, without repeats (R371, R372, R382). -/
def indexesOf (t : Task) : List Nat :=
  if isMerge t then [mgIndex t.body]
  else if qPages t.body then ((queryBlocks t).map beIndex).eraseDups
  else [qIndex t.body]

/-- Index of one block. -/
def blockIndex (t : Task) (x : Nat) : Nat := if qPages t.body then beIndex x else qIndex t.body

/-! ### Checks (R373) -/

/-- Instance of an index number. -/
def catInst (n : Nat) : Instance := .cat (Fin.ofNat 4096 n)

/-- The edition of an index current at a task's home tile. -/
def catCurrent (s : State) (t : Task) (n : Nat) : Option Edition :=
  (currentAt s (catInst n) (.station t.home)).bind (editionOf s (catInst n))

/-- Whether an index is homed in the task's wing and owned by its partition (R373 check 2). -/
def catOwned (s : State) (t : Task) (n : Nat) (e : Edition) : Bool :=
  wingOf (instOf s (catInst n)).home == t.wing && chPart e.hdr == t.part

/-- General word of a query (R371). -/
def queryWordOk (b : List Byte) : Bool :=
  bits (at8 b 0 64) 203 0 == 0 && decide (1 ≤ qNq b ∧ qNq b ≤ 64 ∧ 1 ≤ qK b) && qBlockVa b % 32 == 0 && qResult b % 64 == 0
    && (if qPages b then qVisit b == 0 && qQueue b == 0 && qRerank b == 0 && qIndex b == 0
        else decide (1 ≤ qVisit b ∧ 1 ≤ qQueue b ∧ qQueue b ≤ 2048 ∧ qK b ≤ qQueue b)
          && (qRerank b == 0 || decide (qK b ≤ qRerank b ∧ qRerank b ≤ qQueue b)))
    && (qRerank b != 0 || qRbCount b == 0)

/-- Block entries of a query (R372). -/
def blockOk (b : List Byte) (x : Nat) : Bool :=
  bits x 51 0 == 0 && beSketch x % 8 == 0 && beVec x % 64 == 0 && (qRerank b != 0 || beVec x == 0)
    && (!qPages b || (beForce x % 8 == 0 && beList x % 8 == 0))

/-- Body of a merge (R382); DEGREE is judged against the index's current edition, where there is one. -/
def mergeWordOk (s : State) (t : Task) : Bool :=
  let b := t.body
  bits (at8 b 0 64) 263 0 == 0 && mgHdr b % 64 == 0 && mgNode b % 64 == 0 && mgTomb b % 8 == 0 && mgSide b % 64 == 0
    && decide (1 ≤ mgVisit b ∧ mgQueue b ≤ 2048)
    && (match catCurrent s t (mgIndex b) with
      | some e => decide (chDegree e.hdr ≤ mgQueue b)
      | none => true)

/-- Cores and plan are named only by a task that re-ranks. -/
def catCoresOk (t : Task) : Bool :=
  let e := t.hdr
  if !isMerge t && qRerank t.body != 0 then decide (1 ≤ hRows e ∧ 1 ≤ hCols e)
  else hRows e == 0 && hCols e == 0 && hBankCount e == 0 && hAccCount e == 0 && hPlan e == 0

/-- Check 1. -/
def catBodyOk (s : State) (t : Task) : Bool :=
  catCoresOk t && if isMerge t then mergeWordOk s t else queryWordOk t.body && (queryBlocks t).all (blockOk t.body)

/-- Check 2. -/
def catPresent (s : State) (t : Task) : Bool :=
  (indexesOf t).all fun n =>
    match catCurrent s t n with
    | none => false
    | some e => catOwned s t n e && chPage e.hdr == (!isMerge t && qPages t.body)

/-- Check 3: the re-rank range. -/
def rerankFits (s : State) (t : Task) : Bool :=
  isMerge t || qRerank t.body == 0 ||
    (covers (qRbFirst t.body) (qRbCount t.body) (hBankFirst t.hdr) (hBankCount t.hdr)
      && match catCurrent s t (qIndex t.body) with
        | some e => decide (24 * vecBytes e.hdr ≤ qRbCount t.body * 65536)
        | none => true)

/-- Whether a Catalogue task re-ranks. -/
def reranks (t : Task) : Bool := !isMerge t && qRerank t.body != 0

/-- Body, plan and block entries at step 5; a task that does not re-rank carries a plan only where PLAN_VA is not 0. -/
def fetchCat (s : State) (t : Task) : State × Except AccErr Task :=
  andThen (fetch5 s t (hBody t.hdr) 64) fun s body =>
    let t := { t with body := body }
    andThen (if reranks t || hPlan t.hdr != 0 then fetch5 s t (hPlan t.hdr) 128 else (s, .ok [])) fun s plan =>
      andThen (if isMerge t then (s, .ok []) else fetch5 s t (qBlockVa body) (32 * qNq body)) fun s bs =>
        (s, .ok { t with body2 := bs, plan := plan })

/-- Step 6: a task that re-ranks names phases 0 and 1, any other that carries a plan phase 0 (R77). -/
def catPlanOk (t : Task) : Bool :=
  if reranks t then planOk t.hdr t.plan [0, 1] [0, 1] else t.plan.isEmpty || planOk t.hdr t.plan [0] []

/-- The last part of step 5: pin every index named and capture its SIDE_LEN (R368, R373). -/
def captureSides (s : State) (t : Task) : List Nat → State × Except AccErr (List Pin)
  | [] => (s, .ok [])
  | n :: ns =>
    match (catCurrent s t n).filter (catOwned s t n) with
    | none => captureSides s t ns
    | some e =>
      andThen (loadNum s (taskCtx s t) (e.base + 8) 8) fun s len =>
        if chCap e.hdr < len then (s, .error (bad 0x0608))
        else andThen (captureSides s t ns) fun s ps => (s, .ok (⟨catInst n, e.num, len⟩ :: ps))

/-- Steps 5 to 7 of R136 for a Catalogue task (R373). -/
def checkCat : KindCheck := fun s t =>
  andThen (fetchCat s t) fun s t => andThen (captureSides s t (indexesOf t)) fun s ps =>
    let t := { t with pins := t.pins ++ ps, work := .cat false }
    if !catPlanOk t then (s, .error (bad 0x0122))
    else if !catBodyOk s t then (s, .error (bad 0x0171))
    else if !catPresent s t then (s, .error (bad 0x0607))
    else if !rerankFits s t then (s, .error (bad 0x0102))
    else if reranks t && hAccCount t.hdr == 0 then (s, .error (bad 0x0101))
    else (s, .ok t)

/-- CATALOGUE_QUERY (R373). -/
def execCatalogueQuery (f : Func) (r : Fin 64) (s : State) : Host.Outcome State Fault Refusal :=
  .next (beginTask s f r.val 5 0 checkCat)

/-- CATALOGUE_MERGE (R373, R382). -/
def execCatalogueMerge (f : Func) (r : Fin 64) (s : State) : Host.Outcome State Fault Refusal :=
  .next (beginTask s f r.val 5 1 checkCat)

/-! ### An index as a task sees it -/

/-- What ends a Catalogue task: an access error, or a fault of R384 with SIDE, id or position, and index. -/
structure CatErr where
  err : AccErr
  mal : Option (Bool × Nat × Nat) := none
  unit : LogUnit := .catalogue
  core : Nat := 0
deriving DecidableEq, Repr

def catErr (e : AccErr) : CatErr := { err := e }

/-- A fault of R384. -/
def malformed (side : Bool) (id index : Nat) : CatErr := { err := bad 0x0608, mal := some (side, id, index) }

/-- A side entry (R366). -/
structure SideEntry where
  pos : Nat
  ins : Bool
  id : Nat
  attr : Nat
  sketch : List Byte
deriving DecidableEq, Repr

/-- An index as a task sees it: number, edition, header, captured length, context and side list. -/
structure Index where
  num : Nat
  edition : Word32
  hdr : Nat
  len : Nat
  ctx : Ctx
  side : List SideEntry := []
deriving DecidableEq, Repr

/-- Lift an access error. -/
def liftCat {α : Type} (r : State × Except AccErr α) : State × Except CatErr α :=
  match r with
  | (s, .ok a) => (s, .ok a)
  | (s, .error e) => (s, .error (catErr e))

/-- Address of side entry j. -/
def sideVa (x : Index) (j : Nat) : Nat := chSide x.hdr + j * sideBytes x.hdr

/-- A side entry as its bytes give it (R366). -/
def sideEntry (x : Index) (pos : Nat) (bs : List Byte) : SideEntry :=
  let w := at8 bs 0 8
  { pos := pos, ins := bits w 33 32 == 1, id := bits w 31 0, attr := at8 bs 8 8, sketch := (bs.drop 16).take (sketchBytes x.hdr) }

/-- Whether the bytes of a side entry obey R366. -/
def sideOk (x : Index) (bs : List Byte) : Bool :=
  let w := at8 bs 0 8
  bits w 63 34 == 0 && (bits w 33 32 == 2 || (bits w 33 32 == 1 && decide (chNodes x.hdr ≤ bits w 31 0 ∧ bits w 31 0 < chLimit x.hdr)))

/-- Read side entries from a position on, n of them, after d delete entries (R366, R374, R384). -/
def readSide (s : State) (x : Index) : Nat → Nat → Nat → State × Except CatErr (List SideEntry)
  | 0, _, _ => (s, .ok [])
  | n + 1, pos, d =>
    andThen (liftCat (loadVa s x.ctx (sideVa x pos) (16 + sketchBytes x.hdr))) fun s bs =>
      let e := sideEntry x pos bs
      if !sideOk x bs then (s, .error (malformed true pos x.num))
      else if !e.ins ∧ 8192 ≤ d then (s, .error (catErr (bad 0x0609)))
      else andThen (readSide s x n (pos + 1) (if e.ins then d else d + 1)) fun s l => (s, .ok (e :: l))

/-- An index of a task under the edition it pinned, its side list not yet read. -/
def pinnedIndex (s : State) (t : Task) (n : Nat) : Index :=
  let p := (t.pinned (catInst n)).getD ⟨catInst n, 0, 0⟩
  { num := n, edition := p.num, hdr := ((editionOf s (catInst n) p.num).map (·.hdr)).getD 0, len := p.bound, ctx := taskCtx s t }

/-- The pinned edition of an index, its side list read once for the task (R374, R378). -/
def openIndex (s : State) (t : Task) (n : Nat) : State × Except CatErr Index :=
  let x := pinnedIndex s t n
  andThen (readSide s x x.len 0 0) fun s l => (s, .ok { x with side := l })

/-- Whether a delete entry for an id stands at a position from p on. -/
def deletedFrom (x : Index) (p id : Nat) : Bool := x.side.any fun e => !e.ins && e.id == id && decide (p ≤ e.pos)

/-- Live inserts by rising position (R367). -/
def liveInserts (x : Index) : List SideEntry := x.side.filter fun e => e.ins && !deletedFrom x (e.pos + 1) e.id

/-- Whether the tombstone bit of a node is clear. -/
def tombClear (s : State) (x : Index) (id : Nat) : State × Except CatErr Bool :=
  if chTomb x.hdr = 0 then (s, .ok true)
  else andThen (liftCat (loadNum s x.ctx (chTomb x.hdr + id / 8) 1)) fun s b => (s, .ok !bit b (id % 8))

/-- Whether a node is live (R367). -/
def nodeLive (s : State) (x : Index) (id : Nat) : State × Except CatErr Bool :=
  andThen (tombClear s x id) fun s b => (s, .ok (b && !deletedFrom x 0 id))

/-- Whether an item passes a filter (R371). -/
def passes (mask value attr : Nat) : Bool := attr &&& mask == value

/-- Hamming distance (R362). -/
def hamming (a b : List Byte) : Nat := (a.zip b).foldl (fun n p => n + popcount 8 (p.1 ^^^ p.2).toNat) 0

/-- Order of keys (R363). -/
def keyLt (a b : Nat × Nat) : Bool := decide (a.1 < b.1) || (a.1 == b.1 && decide (a.2 < b.2))

/-- Insert a key in order; equal keys stand side by side. -/
def insertKey (k : Nat × Nat) : List (Nat × Nat) → List (Nat × Nat)
  | [] => [k]
  | x :: xs => if keyLt k x then k :: x :: xs else x :: insertKey k xs

/-! ### The search of R374 -/

/-- A graph that is searched: where its nodes lie, the sketch searched for, the limits, and who passes. -/
structure Graph where
  x : Index
  nodeVa : Nat
  sketch : List Byte
  queue : Nat
  visitMax : Nat
  mask : Nat := 0
  value : Nat := 0
  /-- A merge's graph: every node counts as live and passing, but the one that is inserted (R383). -/
  merging : Option Nat := none
  /-- Inserts that the merge has already processed. -/
  written : List Nat := []
deriving DecidableEq, Repr

/-- State of a search. -/
structure Search where
  visited : List Nat := []
  cand : List (Nat × Nat) := []
  best : List (Nat × Nat) := []
  expanded : Nat := 0
  filtered : Nat := 0
  budget : Bool := false
  /-- The search has stopped. -/
  spent : Bool := false
deriving DecidableEq, Repr

/-- Bytes of a node that a search reads: sketch, attribute word and slots. -/
def nodeLen (h : Nat) : Nat := sketchBytes h + 8 + 4 * chDegree h

/-- Address of a node. -/
def Graph.va (g : Graph) (id : Nat) : Nat := g.nodeVa + id * nodeBytes g.x.hdr

/-- Read a node of a graph. -/
def loadNode (s : State) (g : Graph) (id : Nat) : State × Except CatErr (List Byte) :=
  liftCat (loadVa s g.x.ctx (g.va id) (nodeLen g.x.hdr))

/-- A node that has been read in this round, or that a context holds since it met it (R378). -/
def heldNode (s : State) (g : Graph) (id : Nat) : State × Except CatErr (List Byte) :=
  liftCat (s, readVa s g.x.ctx (g.va id) (nodeLen g.x.hdr))

/-- Whether a node may stand among the best. -/
def counts (s : State) (g : Graph) (id : Nat) (node : List Byte) : State × Except CatErr Bool :=
  match g.merging with
  | some y => (s, .ok (y != id))
  | none => andThen (nodeLive s g.x id) fun s l => (s, .ok (l && passes g.mask g.value (at8 node (sketchBytes g.x.hdr) 8)))

/-- Distance of a node from the graph's sketch. -/
def Graph.dist (g : Graph) (node : List Byte) : Nat := hamming (node.take (sketchBytes g.x.hdr)) g.sketch

/-- A search that has met a node: a candidate, and one of the best where it counts. -/
def Search.add (q : Search) (g : Graph) (id : Nat) (node : List Byte) (ok : Bool) : Search :=
  let k := (g.dist node, id)
  { q with
    visited := id :: q.visited
    cand := (insertKey k q.cand).take g.queue
    best := if ok then (insertKey k q.best).take g.queue else q.best
    filtered := if ok then q.filtered else q.filtered + 1 }

/-- A search with the nodes that its round has read so far: a node that several blocks need is read once (R378). -/
abbrev RoundState := Search × List Nat

/-- Meet a node for the first time. -/
def meet (s : State) (g : Graph) (a : RoundState) (id : Nat) : State × Except CatErr RoundState :=
  andThen (if a.2.contains id then heldNode s g id else loadNode s g id) fun s node =>
    andThen (counts s g id node) fun s ok => (s, .ok (a.1.add g id node ok, id :: a.2))

/-- Slot j of a node. -/
def nodeSlot (g : Graph) (node : List Byte) (j : Nat) : Nat := at8 node (sketchBytes g.x.hdr + 8 + 4 * j) 4

/-- Whether slot j of the old array's node c named id u when the merge copied it. -/
def copiedSlot (s : State) (g : Graph) (c j u : Nat) : Bool :=
  decide (c < chNodes g.x.hdr) &&
    match readNum s g.x.ctx (chNode g.x.hdr + c * nodeBytes g.x.hdr + sketchBytes g.x.hdr + 8 + 4 * j) 4 with
    | .ok v => v == u
    | .error _ => false

/-- Whether a slot names a node: one below NODES or, in a merge, an insert that the merge itself linked there (R383,
R384). -/
def slotNames (s : State) (g : Graph) (c j u : Nat) : Bool :=
  decide (u < chNodes g.x.hdr) || (g.written.contains u && !copiedSlot s g c j u)

/-- Visit the slots of an expanded node, ascending; n remain (R374, R384). -/
def visitSlots (s : State) (g : Graph) (id : Nat) (node : List Byte) : Nat → RoundState → State × Except CatErr RoundState
  | 0, a => (s, .ok a)
  | n + 1, a =>
    let j := chDegree g.x.hdr - (n + 1)
    let u := nodeSlot g node j
    if u = 0xFFFFFFFF ∨ a.1.visited.contains u then visitSlots s g id node n a
    else if !slotNames s g id j u then (s, .error (malformed false id g.x.num))
    else andThen (meet s g a u) fun s a => visitSlots s g id node n a

/-- One round of a search: it converges, spends its budget, or expands its nearest candidate (R374, R375). -/
def expand (s : State) (g : Graph) (a : RoundState) : State × Except CatErr RoundState :=
  let q := a.1
  match q.cand with
  | [] => (s, .ok ({ q with spent := true }, a.2))
  | c :: cs =>
    let q := { q with cand := cs }
    if g.queue ≤ q.best.length ∧ keyLt ((q.best.getLast?).getD (0, 0)) c then (s, .ok ({ q with spent := true }, a.2))
    else if q.expanded = g.visitMax ∨ 65536 ≤ q.visited.length then (s, .ok ({ q with spent := true, budget := true }, a.2))
    else andThen (heldNode s g c.2) fun s node =>
      visitSlots s g c.2 node (chDegree g.x.hdr) ({ q with expanded := q.expanded + 1 }, a.2)

/-- One round of the searches that still run, in the order of the blocks, with the nodes read in it so far. -/
def roundOf (s : State) : List (Graph × Search) → List Nat → State × Except CatErr (List (Graph × Search))
  | [], _ => (s, .ok [])
  | (g, q) :: l, seen =>
    andThen (if q.spent then (s, .ok (q, seen)) else expand s g (q, seen)) fun s a =>
      andThen (roundOf s l a.2) fun s r => (s, .ok ((g, a.1) :: r))

/-- Rounds until every search has stopped, with fuel VISIT_MAX + 1 (R374, R378). -/
def rounds (s : State) : Nat → List (Graph × Search) → State × Except CatErr (List (Graph × Search))
  | 0, l => (s, .ok l)
  | n + 1, l => if l.all (fun x => x.2.spent) then (s, .ok l) else andThen (roundOf s l []) fun s l => rounds s n l

/-- The entry node is met by every search. -/
def enterAll (s : State) (entry : Nat) : List Graph → List Nat → State × Except CatErr (List (Graph × Search))
  | [], _ => (s, .ok [])
  | g :: gs, seen =>
    andThen (meet s g ({}, seen) entry) fun s a => andThen (enterAll s entry gs a.2) fun s r => (s, .ok ((g, a.1) :: r))

/-- Graph searches from an entry node, all at the same time (R374, R378). -/
def searchAll (s : State) (gs : List Graph) (entry : Nat) : State × Except CatErr (List (Graph × Search)) :=
  andThen (enterAll s entry gs []) fun s l => rounds s (((gs.head?).map (·.visitMax)).getD 0 + 1) l

/-- The scan of the side inserts after the search (R374). -/
def scanSide (g : Graph) (q : Search) : Search :=
  (g.x.side.filter (·.ins)).foldl (fun q e =>
    if !deletedFrom g.x (e.pos + 1) e.id && passes g.mask g.value e.attr then
      { q with best := (insertKey (hamming e.sketch g.sketch, e.id) q.best).take g.queue }
    else { q with filtered := q.filtered + 1 }) q

/-! ### Re-ranking (R376) -/

/-- A candidate with its key and score. -/
structure Ranked where
  dist : Nat
  id : Nat
  score : Word32 := 0
deriving DecidableEq, Repr

/-- Whether a re-ranked item stands before another: score descending, NaN last, then id ascending. -/
def rankedBefore (a b : Ranked) : Bool :=
  let x := f32 a.score
  let y := f32 b.score
  if x.isNan then y.isNan && decide (a.id < b.id)
  else y.isNan || y.lt x || (!x.lt y && decide (a.id < b.id))

/-- Insert by rank. -/
def insertRanked (k : Ranked) : List Ranked → List Ranked
  | [] => [k]
  | x :: xs => if rankedBefore k x then k :: x :: xs else x :: insertRanked k xs

/-- Bytes of a re-rank buffer: eight vectors (R376). -/
def rerankBuf (h : Nat) : Nat := 8 * vecBytes h

/-- Window offset of the query buffer, and of candidate buffer q of the re-rank range. -/
def queryBuf (t : Task) : Nat := 0x10000 * qRbFirst t.body
def candBuf (t : Task) (h q : Nat) : Nat := queryBuf t + (1 + q) * rerankBuf h

/-- The vector that a core holds at a window offset. -/
def heldVector (s : State) (i h off : Nat) : List Val :=
  let el := (elemOf (chFmt h)).1
  (splitBits el.width (chDim h) (leNat (windowBytes s i off (vecBytes h)))).map el.decode

/-- The score of the candidate in one place of a buffer: one engine run of ascending d (R376). -/
def scoreHeld (s : State) (t : Task) (i h off : Nat) : Word32 × AFlags :=
  let int := isIntCode (chFmt h)
  let r := engineRun int (((depthOf (chFmt h)).map (·.k)).getD 4) 0 (heldVector s i h (queryBuf t)) (heldVector s i h off)
  (if int then toF32 (Val.ofInt r.1.toInt) else r.1, r.2)

/-- Bring the vectors of a group into a candidate buffer, one place after the other. -/
def loadGroup (s : State) (c : Ctx) (i h off : Nat) : List Nat → State × Except AccErr Unit
  | [] => (s, .ok ())
  | id :: ids =>
    andThen (loadVa s c (chVec h + id * vecBytes h) (vecBytes h)) fun s bs =>
      loadGroup (writeWindow s i off bs) c i h (off + vecBytes h) ids

/-- One group of up to 8 candidates on one core: the query vector and the candidates are fetched into their buffers, the
core enters the group's phase, and each candidate is scored (R376). How the query buffer is filled, and what the classes
are where buffers share a bank, is not stated: these accesses are taken to keep the plan (DEDUCED, assumption log
133). -/
def scoreGroup (s : State) (t : Task) (h qvec g : Nat) (ks : List (Nat × Nat)) :
    State × Except AccErr (List Ranked × AFlags) :=
  let n := max 1 t.cores.length
  let r := g % n
  let i := nth 0 t.cores r
  let c := coreCtx s t r
  let q := g / n % 2
  andThen (loadVa s c qvec (vecBytes h)) fun s bs =>
    andThen (loadGroup (writeWindow s i (queryBuf t) bs) c i h (candBuf t h q) (ks.map (·.2))) fun s _ =>
      let s := enterPhase s t.id r q
      let xs := (ks.zip (List.range ks.length)).map fun k =>
        let w := scoreHeld s t i h (candBuf t h q + k.2 * vecBytes h)
        (({ dist := k.1.1, id := k.1.2, score := w.1 } : Ranked), w.2)
      (s, .ok (xs.map (·.1), orFlags (xs.map (·.2))))

/-- Score the groups of a block from number g on: they go to the cores in rank order (R376). -/
def scoreAll (s : State) (t : Task) (h qvec : Nat) : Nat → List (List (Nat × Nat)) → State × Except CatErr (List Ranked × AFlags)
  | _, [] => (s, .ok ([], noFlags))
  | g, ks :: l =>
    match scoreGroup s t h qvec g ks with
    | (s, .error e) => (s, .error { err := e, unit := .core, core := nth 0 t.cores (g % max 1 t.cores.length) })
    | (s, .ok a) => andThen (scoreAll s t h qvec (g + 1) l) fun s b => (s, .ok (a.1.foldr insertRanked b.1, a.2 ||| b.2))

/-! ### Results (R377) -/

/-- What one block delivers. -/
structure BlockResult where
  entries : List Ranked := []
  dist : Nat := 0
  expanded : Nat := 0
  filtered : Nat := 0
  budget : Bool := false
  forced : Nat := 0
  reranked : Nat := 0
  flags : AFlags := noFlags
deriving DecidableEq, Repr

/-- Bytes from one result to the next. -/
def resultStride (b : List Byte) : Nat := if qPages b then 64 else roundUp (64 + 16 * qK b) 64

/-- The 64-byte header of a result. -/
def resultHeader (b : List Byte) (x : Index) (r : BlockResult) : List Byte :=
  leBytes 64 (packN 512 [(x.edition.toNat, 480), (x.len % 65536, 464), (r.expanded, 432), (r.dist % 2 ^ 32, 400),
    (r.filtered % 2 ^ 32, 368), (r.entries.length, 356), (b2n r.budget, 351), (b2n (r.entries.length < qK b), 350),
    (r.forced, 338)]).toNat

/-- One 16-byte entry. -/
def resultEntry (r : Ranked) : List Byte :=
  leBytes 16 (packN 128 [(r.score.toNat, 96), (r.dist, 80), (r.id, 0)]).toNat

/-- Entries of an item search, empty ones after the last. -/
def resultEntries (b : List Byte) (r : BlockResult) : List Byte :=
  let empty : Ranked := { dist := 0xFFFF, id := 0xFFFFFFFF }
  (r.entries ++ List.replicate (qK b - r.entries.length) empty).foldr (fun e l => resultEntry e ++ l) []

/-- The graph that one block of an item search looks through, its query sketch read. -/
def blockGraph (s : State) (t : Task) (x : Index) (be : Nat) : State × Except CatErr Graph :=
  let b := t.body
  andThen (liftCat (loadVa s x.ctx (beSketch be) (sketchBytes x.hdr))) fun s sk =>
    (s, .ok { x := x, nodeVa := chNode x.hdr, sketch := sk, queue := qQueue b, visitMax := qVisit b, mask := qMask b, value := qValue b })

/-- The graphs of every block. -/
def blockGraphs (s : State) (t : Task) (x : Index) : List Nat → State × Except CatErr (List Graph)
  | [] => (s, .ok [])
  | be :: bes => andThen (blockGraph s t x be) fun s g => andThen (blockGraphs s t x bes) fun s gs => (s, .ok (g :: gs))

/-- One block of an item search after its search: the side inserts, and the re-ranking where asked (R374 to R376). -/
def searchBlock (s : State) (t : Task) (x : Index) (be : Nat) (gq : Graph × Search) : State × Except CatErr BlockResult :=
  let b := t.body
  let q := scanSide gq.1 gq.2
  let r : BlockResult := { dist := q.visited.length, expanded := q.expanded, filtered := q.filtered, budget := q.budget }
  if qRerank b = 0 then (s, .ok { r with entries := (q.best.take (qK b)).map fun k => { dist := k.1, id := k.2 } })
  else
    let top := q.best.take (qRerank b)
    andThen (scoreAll s t x.hdr (beVec be) 0 (cut 8 top)) fun s p =>
      (s, .ok { r with entries := p.1.take (qK b), reranked := top.length, flags := p.2 })

/-! ### Page selection (R380, R381) -/

/-- An item of a page index: its sketch, id, ATTR, live. -/
structure PageItem where
  sketch : List Byte
  id : Nat
  attr : Nat
  live : Bool
deriving DecidableEq, Repr

/-- Items held as nodes, from id i on, n of them. -/
def pageNodes (s : State) (g : Graph) : Nat → Nat → State × Except CatErr (List PageItem)
  | 0, _ => (s, .ok [])
  | n + 1, i =>
    andThen (loadNode s g i) fun s node => andThen (nodeLive s g.x i) fun s l =>
      andThen (pageNodes s g n (i + 1)) fun s ps =>
        (s, .ok (⟨node.take (sketchBytes g.x.hdr), i, at8 node (sketchBytes g.x.hdr) 8, l⟩ :: ps))

/-- Items inserted below the captured length. -/
def pageInserts (x : Index) : List PageItem :=
  (x.side.filter (·.ins)).map fun e => ⟨e.sketch, e.id, e.attr, !deletedFrom x (e.pos + 1) e.id⟩

/-- The items of a page index, its nodes scanned once for all blocks that name it (R378). -/
def pageItems (s : State) (x : Index) : State × Except CatErr (List PageItem) :=
  let g : Graph := { x := x, nodeVa := chNode x.hdr, sketch := [], queue := 0, visitMax := 0 }
  andThen (pageNodes s g (chNodes x.hdr) 0) fun s ns => (s, .ok (ns ++ pageInserts x))

/-- The items of several page indexes. -/
def pageScans (s : State) : List Index → State × Except CatErr (List (Nat × List PageItem))
  | [] => (s, .ok [])
  | x :: xs => andThen (pageItems s x) fun s l => andThen (pageScans s xs) fun s r => (s, .ok ((x.num, l) :: r))

/-- Ids whose bit is set in a forced bitmap. -/
def forcedIds (s : State) (x : Index) (va : Nat) : State × Except CatErr (List Nat) :=
  if va = 0 then (s, .ok [])
  else andThen (liftCat (loadVa s x.ctx va ((chLimit x.hdr + 7) / 8))) fun s bs =>
    (s, .ok ((List.range (chLimit x.hdr)).filter fun i => bit (at8 bs (i / 8) 1) (i % 8)))

/-- Insert an item by a strict order. -/
def insertBy {α : Type} (lt : α → α → Bool) (k : α) : List α → List α
  | [] => [k]
  | x :: xs => if lt k x then k :: x :: xs else x :: insertBy lt k xs

/-- An item picked for a page list: its distance, and whether it was forced. -/
structure Picked where
  item : PageItem
  dist : Nat
  forced : Bool
deriving DecidableEq, Repr

/-- Order of page lists: ascending position, then ascending id (R380). -/
def pageLt (a b : Picked) : Bool :=
  let p := bits a.item.attr 31 0
  let q := bits b.item.attr 31 0
  decide (p < q) || (p == q && decide (a.item.id < b.item.id))

/-- An entry of a page list (R381). -/
def pageEntry (i : Picked) : List Byte := leBytes 8 (bits i.item.attr 31 0 + (if i.forced then 0xFFFF else i.dist) * 2 ^ 32)

/-- The selection of R380 over the items of a block: the result and the page list; none where it is infeasible. -/
def pickPages (b : List Byte) (f : List Nat) (items : List Picked) : Option (BlockResult × List Byte) :=
  let live := items.filter (·.item.live)
  let forced := live.filter (·.forced)
  let free := live.filter fun i => !i.forced && passes (qMask b) (qValue b) i.item.attr
  if f.any (fun id => !live.any fun i => i.item.id == id) || decide (qK b < forced.length)
      || decide (forced.length + free.length < qK b) then none
  else
    let sorted := free.foldl (fun l i => insertBy (fun a b => keyLt (a.dist, a.item.id) (b.dist, b.item.id)) i l) []
    let list := (forced ++ sorted.take (qK b - forced.length)).foldl (fun l i => insertBy pageLt i l) []
    some ({ entries := list.map fun i => { dist := i.dist, id := i.item.id }, dist := items.length, forced := forced.length
            filtered := (items.filter fun i => !i.forced && !(i.item.live && passes (qMask b) (qValue b) i.item.attr)).length },
          list.foldr (fun i l => pageEntry i ++ l) [])

/-- One block of a page selection: the result and the page list (R380, R381). -/
def selectBlock (s : State) (t : Task) (x : Index) (items : List PageItem) (be : Nat) :
    State × Except CatErr (BlockResult × List Byte) :=
  andThen (liftCat (loadVa s x.ctx (beSketch be) (sketchBytes x.hdr))) fun s sk =>
    andThen (forcedIds s x (beForce be)) fun s f =>
      match pickPages t.body f (items.map fun i => ⟨i, hamming i.sketch sk, f.contains i.id⟩) with
      | none => (s, .error (catErr (bad 0x060A)))
      | some r => (s, .ok r)

/-! ### Running a query -/

/-- Write the result of block i, and add to its counters (R377, R389). -/
def deliverBlock (t : Task) (x : Index) (i : Nat) (p : BlockResult) (runs : List (Nat × List Byte)) (s : State) :
    State × Except CatErr Unit :=
  match writeRuns s x.ctx ((qResult t.body + i * resultStride t.body, resultHeader t.body x p) :: runs) with
  | (s, some e) => (s, .error (catErr e))
  | (s, none) =>
    let b := blkCat t.home
    let s := addCtr (addCtr (addCtr s b 0x0100) b 0x0108 p.dist) b 0x0110 p.expanded
    let s := if p.budget then addCtr s b 0x0118 else s
    let s := if p.entries.length < qK t.body then addCtr s b 0x0120 else s
    (addCtr s b 0x0128 p.reranked, .ok ())

/-- The blocks of an item search from number i on, their searches done. -/
def runSearch (t : Task) (x : Index) : Nat → List (Nat × Graph × Search) → State → AFlags → State × Except CatErr AFlags
  | _, [], s, fl => (s, .ok fl)
  | i, (be, gq) :: l, s, fl =>
    andThen (searchBlock s t x be gq) fun s p =>
      andThen (deliverBlock t x i p [(qResult t.body + i * resultStride t.body + 64, resultEntries t.body p)] s) fun s _ =>
        runSearch t x (i + 1) l s (fl ||| p.flags)

/-- The blocks of a page selection from number i on. -/
def runSelect (t : Task) (xs : List Index) (scans : List (Nat × List PageItem)) : Nat → List Nat → State → State × Except CatErr AFlags
  | _, [], s => (s, .ok noFlags)
  | i, be :: bes, s =>
    match xs.find? fun x => x.num == beIndex be with
    | none => runSelect t xs scans (i + 1) bes s
    | some x =>
      andThen (selectBlock s t x ((Table.find scans x.num).getD []) be) fun s p =>
        andThen (deliverBlock t x i p.1 [(beList be, p.2)] s) fun s _ => runSelect t xs scans (i + 1) bes s

/-- Open every index a task names, in the order named. -/
def openAll (s : State) (t : Task) : List Nat → State × Except CatErr (List Index)
  | [] => (s, .ok [])
  | n :: ns => andThen (openIndex s t n) fun s x => andThen (openAll s t ns) fun s l => (s, .ok (x :: l))

/-- The searches of every block of an item search; an index without nodes is not searched (R374). -/
def querySearches (s : State) (t : Task) (x : Index) : State × Except CatErr (List (Graph × Search)) :=
  andThen (blockGraphs s t x (queryBlocks t)) fun s gs =>
    if chNodes x.hdr = 0 then (s, .ok (gs.map fun g => (g, {}))) else searchAll s gs (chEntry x.hdr)

/-- The whole of a query. -/
def runQuery (s : State) (t : Task) : State × Except CatErr AFlags :=
  andThen (openAll s t (indexesOf t)) fun s xs =>
    if qPages t.body then andThen (pageScans s xs) fun s scans => runSelect t xs scans 0 (queryBlocks t) s
    else match xs with
      | [] => (s, .ok noFlags)
      | x :: _ => andThen (querySearches s t x) fun s l => runSearch t x 0 ((queryBlocks t).zip l) s noFlags

/-! ### Merges (R383) -/

/-- Items of the new edition. -/
def mergedNodes (x : Index) : Nat := x.side.foldl (fun n e => if e.ins then max n (e.id + 1) else n) (chNodes x.hdr)

/-- Write bytes as one Catalogue access. -/
def catWrite (s : State) (c : Ctx) (va : Nat) (bs : List Byte) : State × Except CatErr Unit :=
  match saveVa s c va bs with
  | (s, some e) => (s, .error (catErr e))
  | (s, none) => (s, .ok ())

/-- Copy bytes of the old edition. -/
def catCopy (s : State) (c : Ctx) (src dst n : Nat) : State × Except CatErr Unit :=
  andThen (liftCat (loadVa s c src n)) fun s bs => catWrite s c dst bs

/-- Empty slots of a node. -/
def noSlots (h : Nat) : List Byte := List.replicate (4 * chDegree h) 0xFF

/-- The tombstone bitmap before any insert is written: copied bits, gaps set, deletes set. -/
def mergedTombs (x : Index) (old : List Byte) (n1 : Nat) : List Byte :=
  let n0 := chNodes x.hdr
  let set (id : Nat) : Bool := (decide (id < n0) && bit (at8 old (id / 8) 1) (id % 8)) || decide (n0 ≤ id ∧ id < n1)
    || deletedFrom x 0 id
  (List.range ((chLimit x.hdr + 7) / 8)).map fun k =>
    BitVec.ofNat 8 ((List.range 8).foldl (fun a i => a + (if 8 * k + i < chLimit x.hdr ∧ set (8 * k + i) then 2 ^ i else 0)) 0)

/-- Change one slot word of a node of the new array. -/
def setSlot (s : State) (g : Graph) (u j x : Nat) : State × Except CatErr Unit :=
  catWrite s g.x.ctx (g.va u + sketchBytes g.x.hdr + 8 + 4 * j) (leBytes 4 x)

/-- Distance between a node and another of the new array. -/
def nodeDist (s : State) (g : Graph) (node : List Byte) (v : Nat) : State × Except CatErr Nat :=
  andThen (loadNode s g v) fun s b => (s, .ok (hamming (node.take (sketchBytes g.x.hdr)) (b.take (sketchBytes g.x.hdr))))

/-- The slot of u whose neighbour has the largest key against u's sketch: slot and key; n remain. -/
def worstSlot (g : Graph) (u : Nat) (node : List Byte) : Nat → State → Option (Nat × Nat × Nat) →
    State × Except CatErr (Option (Nat × Nat × Nat))
  | 0, s, w => (s, .ok w)
  | n + 1, s, w =>
    let j := chDegree g.x.hdr - (n + 1)
    let v := nodeSlot g node j
    if !slotNames s g u j v then (s, .error (malformed false u g.x.num))
    else andThen (nodeDist s g node v) fun s d =>
      worstSlot g u node n s (match w with
        | none => some (j, d, v)
        | some (i, e, y) => if keyLt (e, y) (d, v) then some (j, d, v) else some (i, e, y))

/-- Link an inserted node into a neighbour u; the distances computed (R383). -/
def linkInto (g : Graph) (x : Nat) (s : State) (n : Nat) (u : Nat) : State × Except CatErr Nat :=
  andThen (loadNode s g u) fun s node =>
    match (List.range (chDegree g.x.hdr)).find? fun j => nodeSlot g node j == 0xFFFFFFFF with
    | some j => andThen (setSlot s g u j x) fun s _ => (s, .ok n)
    | none =>
      andThen (worstSlot g u node (chDegree g.x.hdr) s none) fun s w => andThen (nodeDist s g node x) fun s d =>
        let n := n + chDegree g.x.hdr + 1
        match w with
        | some (j, e, y) => if keyLt (d, x) (e, y) then andThen (setSlot s g u j x) fun s _ => (s, .ok n) else (s, .ok n)
        | none => (s, .ok n)

/-- What a merge has done so far: distances, expansions, and the inserts processed. -/
structure Merging where
  dist : Nat := 0
  expanded : Nat := 0
  written : List Nat := []
deriving DecidableEq, Repr

/-- Search the new array for the neighbours of an insert, write them into its slots, and link it into each (R383). -/
def linkInsert (t : Task) (x : Index) (ent : Nat) (s : State) (a : Merging) (e : SideEntry) : State × Except CatErr Merging :=
  let g : Graph := { x := x, nodeVa := mgNode t.body, sketch := e.sketch, queue := mgQueue t.body, visitMax := mgVisit t.body
                     merging := some e.id, written := a.written }
  andThen (searchAll s [g] ent) fun s l =>
    let q := ((l.head?).map (·.2)).getD {}
    let nb := (q.best.take (chDegree x.hdr)).map (·.2)
    let slots := nb ++ List.replicate (chDegree x.hdr - nb.length) 0xFFFFFFFF
    andThen (catWrite s x.ctx (g.va e.id + sketchBytes x.hdr + 8) (slots.foldr (fun u l => leBytes 4 u ++ l) [])) fun s _ =>
      andThen (foldErr (linkInto { g with written := e.id :: a.written } e.id) s 0 nb) fun s n =>
        (s, .ok { a with dist := a.dist + q.visited.length + n, expanded := a.expanded + q.expanded })

/-- Fold one live insert into the new array (R383). -/
def foldInsert (t : Task) (x : Index) (ent : Nat) (s : State) (a : Merging) (e : SideEntry) : State × Except CatErr Merging :=
  let c := x.ctx
  let tv := mgTomb t.body + e.id / 8
  andThen (catWrite s c (mgNode t.body + e.id * nodeBytes x.hdr) (e.sketch ++ leBytes 8 e.attr)) fun s _ =>
    andThen (liftCat (loadNum s c tv 1)) fun s b =>
      andThen (catWrite s c tv (leBytes 1 (if bit b (e.id % 8) then b - 2 ^ (e.id % 8) else b))) fun s _ =>
        andThen (if chPage x.hdr then (s, .ok a) else linkInsert t x ent s a e) fun s a =>
          (s, .ok { a with written := e.id :: a.written })

/-- The new header. -/
def mergedHeader (b : List Byte) (h n1 ent : Nat) : List Byte :=
  let keep := bits h 463 416 * 2 ^ 416 + bits h 287 256 * 2 ^ 256 + bits h 207 128 * 2 ^ 128 + bits h 63 0
  leBytes 64 (keep + mgNode b * 2 ^ 464 + mgSide b * 2 ^ 368 + mgTomb b * 2 ^ 320 + n1 * 2 ^ 288 + ent * 2 ^ 224
    + mgCap b * 2 ^ 208)

/-- Node of the gap above the old nodes. -/
def gapNode (h : Nat) : List Byte :=
  List.replicate (sketchBytes h + 8) 0 ++ noSlots h

/-- Copy the old nodes and tombstones, write the gap nodes, and mark what the side list deletes (R383). -/
def copyOld (s : State) (t : Task) (x : Index) : State × Except CatErr Unit :=
  let b := t.body
  let c := x.ctx
  let h := x.hdr
  let n0 := chNodes h
  let n1 := mergedNodes x
  andThen (catCopy s c (chNode h) (mgNode b) (n0 * nodeBytes h)) fun s _ =>
    andThen (if chTomb h = 0 then (s, .ok []) else liftCat (loadVa s c (chTomb h) ((n0 + 7) / 8))) fun s old =>
      andThen (catWrite s c (mgTomb b) (mergedTombs x old n1)) fun s _ =>
        foldErr (fun s (_ : Unit) i => catWrite s c (mgNode b + (n0 + i) * nodeBytes h) (gapNode h)) s () (List.range (n1 - n0))

/-- The whole of a merge (R383). -/
def runMerge (s : State) (t : Task) : State × Except CatErr Unit :=
  andThen (openIndex s t (mgIndex t.body)) fun s x =>
    let ins := liveInserts x
    let ent := if chNodes x.hdr = 0 then ((ins.head?).map (·.id)).getD (chEntry x.hdr) else chEntry x.hdr
    andThen (copyOld s t x) fun s _ => andThen (foldErr (foldInsert t x ent) s {} ins) fun s m =>
      let k := blkCat t.home
      let s := addCtr (addCtr (addCtr s k 0x0108 m.dist) k 0x0110 m.expanded) k 0x0130 ins.length
      catWrite s x.ctx (mgHdr t.body) (mergedHeader t.body x.hdr (mergedNodes x) ent)

/-! ### Faults and the task's run -/

/-- Capture the first fault of R384 since FAULT_CLR (R388). -/
def captureCat (s : State) (t : Tile) (side : Bool) (id index : Nat) : State :=
  if flg (s.cat.get t).faultInfo 31 then s
  else s.modCat t fun x =>
    { x with
      faultInfo := pack [(1, 31), (b2n side, 30), (index, 16), (0x0608, 0)]
      faultId := BitVec.ofNat 32 id }

/-- A Catalogue task meets a fault (R384). -/
def failCat (s : State) (t : Task) (e : CatErr) : State :=
  let s := match e.mal with
    | none => s
    | some (side, id, n) =>
      let s := addCtr (raise s 0x0603 n (blkCat t.home) t.part) (blkCat t.home) 0x0138
      captureCat s t.home side id n
  faultTask s t.id t.part e.err e.unit e.core

/-- Run a dispatched Catalogue task. -/
def runCat (s : State) (t : Task) : State :=
  let done (fl : AFlags) (s : State) : State :=
    s.modTask t.id fun y => { y with work := .cat true, flags := y.flags ||| fl }
  if isMerge t then
    match runMerge s t with
    | (s, .error e) => failCat s t e
    | (s, .ok _) => done noFlags s
  else
    match runQuery s t with
    | (s, .error e) => failCat s t e
    | (s, .ok fl) => done fl s

/-- Query contexts in use on a tile (R385, R387). -/
def contextsUsed (s : State) (t : Tile) : Nat :=
  (s.tasks.filter fun x => entryKind x.hdr == 5 && x.home == t && x.dispatched && !isMerge x).foldl (fun a x => a + qNq x.body) 0

/-- Whether a merge runs on a tile (R382). -/
def mergeRuns (s : State) (t : Tile) : Bool :=
  s.tasks.any fun x => entryKind x.hdr == 5 && x.home == t && x.dispatched && isMerge x

/-- Whether a Catalogue task's own resources are free (R373, R382). -/
def catRoom (s : State) (t : Task) : Bool :=
  if isMerge t then !mergeRuns s t.home else decide (contextsUsed s t.home + qNq t.body ≤ 64)

/-- The side entries of an index that can be read and obey R366. -/
def readableSide (s : State) (x : Index) : List SideEntry :=
  (List.range x.len).filterMap fun j =>
    match readVa s x.ctx (sideVa x j) (16 + sketchBytes x.hdr) with
    | .ok bs => if sideOk x bs then some (sideEntry x j bs) else none
    | .error _ => none

/-- Destination ranges of a Catalogue task (R138). The new arrays of a merge reach as far as the side entries that can be
read give them (R383). -/
def catDests (s : State) (t : Task) : List (Nat × Nat) :=
  let b := t.body
  if isMerge t then
    let x := pinnedIndex s t (mgIndex b)
    [(mgNode b, mergedNodes { x with side := readableSide s x } * nodeBytes x.hdr), (mgTomb b, (chLimit x.hdr + 7) / 8),
      (mgHdr b, 64)]
  else
    (List.range (qNq b)).map (fun i => (qResult b + i * resultStride b, resultStride b)) ++
      (if qPages b then (queryBlocks t).map fun be => (beList be, 8 * qK b) else [])

end Sys2Proof.Machine
end

