-- ==== Sys2Proof/Machine/Junction.lean ====
section
/-!
DEFINITION. The Junction (R391 to R425): groups and members, the checks of a collective, its contexts, the count
exchange, chunks and their addition, residue failures, lost members. Messages of other wings arrive as commands; what
this wing's Junction sends is not part of the state.
-/

namespace Sys2Proof.Machine

/-! ### Bodies and groups -/

def cbSrc (b : List Byte) : Nat := bits (at8 b 0 64) 511 464
def cbDst (b : List Byte) : Nat := bits (at8 b 0 64) 463 416
def cbStride (b : List Byte) : Nat := bits (at8 b 0 64) 415 384
def cbReport (b : List Byte) : Nat := bits (at8 b 0 64) 383 336
def cbSeq (b : List Byte) : Nat := bits (at8 b 0 64) 335 304
def cbGroup (b : List Byte) : Nat := bits (at8 b 0 64) 303 296
def cbRoot (b : List Byte) : Nat := bits (at8 b 0 64) 295 288
def cbSelf (b : List Byte) : Nat := bits (at8 b 0 64) 287 280
def cbFmt (b : List Byte) : Nat := bits (at8 b 0 64) 279 276
def cbCap (b : List Byte) : Nat := bits (at8 b 0 64) 271 240

/-- COUNT of a collective (R396). -/
def collCount (e : Entry) : Nat := ent e 511 480

/-- Whether a collective is a broadcast (R130). -/
def isBroadcast (t : Task) : Bool := hSub t.hdr == 0

/-- Bytes of an element: counts of a broadcast are in bytes. -/
def collElem (t : Task) : Nat := if isBroadcast t then 1 else max 1 ((elemOf (cbFmt t.body)).1.width / 8)

/-- Whether this wing is the root of a collective. -/
def isRoot (t : Task) : Bool := cbSelf t.body == cbRoot t.body

/-- Key of a collective (R399). -/
def collKey (t : Task) : CollKey := ⟨BitVec.ofNat 8 (cbGroup t.body), BitVec.ofNat 32 (cbSeq t.body)⟩

/-- Header of the group table a task pinned. -/
def pinnedGroup (s : State) (t : Task) : Nat :=
  (((t.pinned .group).bind fun p => editionOf s .group p.num).map (·.hdr)).getD 0

/-- The Junction of a wing reads and writes the pages it has registered itself (R412). -/
def hideRegs (s : State) (w : Wing) : State := s.modJn w fun j => { j with ctxs := [] }

/-- Group entry of a collective (R392). -/
def collGroup (s : State) (t : Task) : Except AccErr Nat := groupEntryAt s (pinnedGroup s t) (cbGroup t.body)

def geMembers (e : Nat) : Nat := bits e 255 208
def geCount (e : Nat) : Nat := bits e 207 199
def geSignature (e : Nat) : Nat := bits e 159 128
def geResilient (e : Nat) : Bool := bit e 1
def geValid (e : Nat) : Bool := bit e 0

/-- Member record m of a group entry (R393). -/
def memberRec (s : State) (e m : Nat) : Except AccErr Nat := (readPa s (geMembers e + 16 * m) 16).map leNat

def mrModule (r : Nat) : Nat := bits r 111 96
def mrRpos (r : Nat) : Nat := bits r 95 88
def mrParent (r : Nat) : Nat := bits r 87 80
def mrPart (r : Nat) : Nat := bits r 79 76
def mrWing (r : Nat) : Wing := wingOfNum (bits r 75 75)

/-- Live mask of a group at a wing (R395), as a number with bit m for member m. -/
def liveMask (s : State) (w : Wing) (g count : Nat) : Nat :=
  (List.range count).foldl (fun a m => if (Table.get [] (s.jn.get w).lost g).contains m then a else a + 2 ^ m) 0

/-- Live members of a task's captured mask. -/
def liveOf (t : Task) : List Nat :=
  let b := ((t.pinned .group).map (·.bound)).getD 0
  (List.range 255).filter (bit b)

/-- Node id of this module (R430). -/
def ownNode (s : State) : Nat := dictVal s 0x4020 0

/-- Whether a one-hop link joins a wing of this module to a wing of a module (R403, R449). -/
def oneHop (s : State) (w : Wing) (node : Nat) (v : Wing) : Bool :=
  if node = ownNode s then v != w && concourseUp s
  else (List.range 6).any fun p =>
    match Table.find s.ports (6 * wingNum w + p) with
    | some x => x.state == .up && x.peerKnown && fld x.peer 31 16 == node && wingOfNum (fld x.peer 8 8) == v
    | none => false

/-- Whether a tree edge between two members may be a one-hop link: an edge with no end in this module is taken as one
(R404; the module knows its own links alone). -/
def edgeJoined (s : State) (a b : Nat) : Bool :=
  if mrModule a = ownNode s then oneHop s (mrWing a) (mrModule b) (mrWing b)
  else if mrModule b = ownNode s then oneHop s (mrWing b) (mrModule a) (mrWing a)
  else true

/-! ### Checks (R398) -/

/-- Ranges of a task's own partials (R397); those without a byte are none. -/
def partialRanges (t : Task) : List (Nat × Nat) :=
  let n := collCount t.hdr * collElem t
  if n = 0 then []
  else if isBroadcast t then (if isRoot t then [(cbSrc t.body, n)] else [])
  else (List.range (coreCount t.hdr)).map fun r => (cbSrc t.body + r * cbStride t.body, n)

/-- The task's destination range. -/
def collDest (t : Task) : List (Nat × Nat) :=
  if cbDst t.body = 0 then [] else [(cbDst t.body, cbCap t.body * collElem t)]

/-- 64 KiB pages that ranges touch. -/
def rangePages (rs : List (Nat × Nat)) : List Nat :=
  (rs.foldr (fun r l => (pagesOf r.1 r.2).map (fun p => p.1 / 65536) ++ l) []).eraseDups

/-- Check 1: fields of R396 and R397. -/
def collBodyOk (t : Task) : Bool :=
  let b := t.body
  let e := t.hdr
  let root := isRoot t
  bits (at8 b 0 64) 275 272 == 0 && bits (at8 b 0 64) 239 0 == 0 && ent e 479 320 == 0
    && hBankCount e == 0 && hAccCount e == 0 && bits (planEntry t.plan 0) 79 0 == 0
    && cbSrc b % 64 == 0 && cbStride b % 64 == 0 && cbReport b % 64 == 0
    && (root || cbReport b == 0)
    && (if isBroadcast t then (root || cbSrc b == 0) && (!root || cbDst b == 0) else root || cbDst b == 0)
    && (cbDst b != 0 || cbCap b == 0)
    && (isBroadcast t || coreCount e ≤ 1 || decide (collCount e * collElem t ≤ cbStride b))
    && (partialRanges t).all (fun r => (collDest t).all fun d => !(overlap r.1 r.2 d.1 d.2))
    && decide ((rangePages (partialRanges t ++ collDest t)).length ≤ 16384)

/-- Check 2: FMT. -/
def collFmtOk (t : Task) : Bool :=
  if isBroadcast t then cbFmt t.body == 0 else [0, 1, 2, 15].contains (cbFmt t.body)

/-- Checks 3 to 5 of R398. -/
def collMembership (s : State) (t : Task) (entry : Nat) : Except AccErr Unit :=
  if !geValid entry || decide (geCount entry ≤ cbRoot t.body) || decide (geCount entry ≤ cbSelf t.body) then .error (bad 0x0406)
  else
    match memberRec s entry (cbSelf t.body) with
    | .error e => .error e
    | .ok r =>
      if mrModule r ≠ ownNode s ∨ mrWing r ≠ t.wing ∨ mrPart r ≠ t.part then .error (bad 0x0404)
      else if !(liveOf t).contains (cbSelf t.body) || !(liveOf t).contains (cbRoot t.body) then .error (bad 0x0401)
      else .ok ()

/-- Steps 5 to 7 of R136 for a collective (R398). The mask is captured with the pin (R395). -/
def checkColl : KindCheck := fun s t =>
  andThen (fetchBodyPlan s t 64 fun _ => ([0], [])) fun s t =>
    let t := { t with work := .coll false, pins := t.pins ++ (pinAt s .group t.home).toList }
    if !collBodyOk t then (s, .error (bad 0x0181))
    else if !collFmtOk t then (s, .error (bad 0x0141))
    else match collGroup s t with
      | .error e => (s, .error e)
      | .ok entry =>
        let mask := liveMask s t.wing (cbGroup t.body) (geCount entry)
        let t := { t with pins := t.pins.map fun p => if p.inst = .group then { p with bound := mask } else p }
        match collMembership s t entry with
        | .error e => (s, .error e)
        | .ok _ => (s, .ok t)

/-- COLLECTIVE_BROADCAST (R398). -/
def execCollectiveBroadcast (f : Func) (r : Fin 64) (s : State) : Host.Outcome State Fault Refusal :=
  .next (beginTask s f r.val 4 0 checkColl)

/-- COLLECTIVE_REDUCE (R398). -/
def execCollectiveReduce (f : Func) (r : Fin 64) (s : State) : Host.Outcome State Fault Refusal :=
  .next (beginTask s f r.val 4 1 checkColl)

/-! ### Contexts (R399) -/

/-- A context by key. -/
def collOf (s : State) (w : Wing) (k : CollKey) : Option Coll := (s.jn.get w).ctxs.find? fun c => c.key = k

/-- Change a context. -/
def State.modColl (s : State) (w : Wing) (k : CollKey) (f : Coll → Coll) : State :=
  s.modJn w fun j => { j with ctxs := updateWhere (fun c => c.key = k) f j.ctxs }

/-- Slots a context holds: its reserve of 2, or what its arrivals fill (R405, R421). -/
def slotsHeld (c : Coll) : Nat := max 2 c.waiting.length

/-- Slots held at a Junction. -/
def slotsUsed (s : State) (w : Wing) : Nat := (s.jn.get w).ctxs.foldl (fun a c => a + slotsHeld c) 0

/-- Whether one more arrival finds a slot (R405). -/
def slotFree (s : State) (w : Wing) (c : Coll) : Bool := decide (c.waiting.length < 2) || decide (slotsUsed s w < 16)

/-- Whether a context is free, and with it the two slots of its reserve (R399, R405): where other contexts have taken
more slots than theirs, it opens once they are free (DEDUCED, assumption log 134). -/
def contextFree (s : State) (w : Wing) : Bool := decide ((s.jn.get w).ctxs.length < 8) && decide (slotsUsed s w + 2 ≤ 16)

/-- Whether a collective finds a free context: a relay's own one serves (R399). -/
def collRoom (s : State) (t : Task) : Bool :=
  match collOf s t.wing (collKey t) with
  | some c => c.role == .relay
  | none => contextFree s t.wing

/-- Hold a message back (R399). -/
def holdBack (s : State) (w : Wing) (m : HeldMessage) : State := s.modJn w fun j => { j with held := j.held ++ [m] }

/-- A message passes through on its way (R399, R403, R408): a relay's context opens with the first, or the message is held
back; a chunk is held in a slot of the context's reserve and forwarded. -/
def passMessage (s : State) (w : Wing) (k : CollKey) (chunk : Bool) : State :=
  let on (s : State) : State := if chunk then addCtr s (blkJn w) 0x0108 else s
  match collOf s w k with
  | some _ => on s
  | none =>
    if !contextFree s w then holdBack s w (.passing k chunk)
    else
      let c : Coll := { key := k, role := .relay, task := none, broadcast := false, since := (tickOf s w).toNat }
      on (s.modJn w fun j => { j with ctxs := j.ctxs ++ [c] })

/-- Messages held back that wait for a context alone are tried again, in the order in which they came. -/
def admitHeld (s : State) (w : Wing) : State :=
  let l := (s.jn.get w).held
  l.foldl (fun s m =>
    match m with
    | .count .. => holdBack s w m
    | .passing k chunk => passMessage s w k chunk) (s.modJn w fun j => { j with held := [] })

/-- Key of a message held back. -/
def HeldMessage.key : HeldMessage → CollKey
  | .count k _ _ => k
  | .passing k _ => k

/-- Close a context: its registrations are released, and messages held back may find it free (R399, R413, R414). -/
def closeColl (s : State) (w : Wing) (k : CollKey) : State :=
  admitHeld (s.modJn w fun j => { j with ctxs := j.ctxs.filter fun c => c.key ≠ k }) w

/-- Messages held back for a collective that has ended before it had a context are dropped. -/
def dropHeld (s : State) (w : Wing) (k : CollKey) : State :=
  s.modJn w fun j => { j with held := j.held.filter fun m => m.key ≠ k }

/-- Capture the first failure since FAULT_CLR (R422). -/
def captureJn (s : State) (w : Wing) (k : CollKey) (cause : Nat) : State :=
  if flg (s.jn.get w).faultInfo 31 ∨ cause / 256 ≠ 4 then s
  else s.modJn w fun j =>
    { j with faultInfo := pack [(1, 31), (k.group.toNat, 16), (cause, 0)], faultSeq := k.seq }

/-- Report the failure of a member's collective (R414, R422). -/
def reportColl (s : State) (w : Wing) (k : CollKey) (part cause : Nat) : State :=
  captureJn (raise s 0x0404 k.group.toNat (blkJn w) part) w k cause

/-- A collective fails at this wing (R414): the context closes and the member's task ends uncommitted. -/
def failColl (s : State) (w : Wing) (k : CollKey) (cause : Nat) : State :=
  match collOf s w k with
  | none => dropHeld s w k
  | some c =>
    let s := closeColl s w k
    match c.task with
    | none => s
    | some id => stopTask (reportColl s w k (partOfTask s id) cause) id cause .junction 0 k.group.toNat

/-- A collective fails at this wing by an error of an access. -/
def failCollAcc (s : State) (w : Wing) (k : CollKey) (part : Nat) (e : AccErr) : State :=
  failColl (failAcc s .task part e) w k e.cause

/-- Read partition memory for a Junction through the pass-through buffer of a core (R74, R397). -/
def jnLoad (s : State) (w : Wing) (c : Ctx) (i va n : Nat) : State × Except AccErr (List Byte) :=
  match loadVa (hideRegs s w) c va n with
  | (u, .error e) => ({ u with jn := s.jn }, .error e)
  | (u, .ok bs) => (passThrough { u with jn := s.jn } i bs, .ok bs)

/-- Write partition memory for a Junction through the pass-through buffer of a core (R74, R397). -/
def jnSave (s : State) (w : Wing) (c : Ctx) (i va : Nat) (bs : List Byte) : State × Option AccErr :=
  let r := saveVa (hideRegs s w) c va bs
  (passThrough { r.1 with jn := s.jn } i bs, r.2)

/-- Core that handles chunk c: that of rank c mod P (R397). -/
def chunkRank (t : Task) (c : Nat) : Nat := c % max 1 t.cores.length

/-- Read n bytes of a chunk's data from an address. -/
def chunkLoad (s : State) (w : Wing) (t : Task) (c va n : Nat) : State × Except AccErr (List Byte) :=
  jnLoad s w (coreCtx s t (chunkRank t c)) (nth 0 t.cores (chunkRank t c)) va n

/-- Write a chunk's bytes to an address. -/
def chunkSave (s : State) (w : Wing) (t : Task) (c va : Nat) (bs : List Byte) : State × Option AccErr :=
  jnSave s w (coreCtx s t (chunkRank t c)) (nth 0 t.cores (chunkRank t c)) va bs

/-- Physical pages that ranges touch (R412). -/
def physPages (s : State) (c : Ctx) (rs : List (Nat × Nat)) : Except AccErr (List Nat) :=
  (mapErr (fun p => (translate s c (p * 65536) false).map fun x => x.pa / 65536) (rangePages rs)).map List.eraseDups

/-- Commit a collective at this wing (R413): registrations released, flags and ZERO_WORK for the record. -/
def commitColl (s : State) (w : Wing) (k : CollKey) (n : Nat) (flags : AFlags) : State :=
  match collOf s w k with
  | none => s
  | some c =>
    let s := closeColl s w k
    match c.task with
    | none => s
    | some id =>
      let s := addCtr s (blkJn w) 0x0100
      s.modTask id fun t => { t with work := .coll true, flags := flags, zeroWork := n == 0 }

/-! ### Adding (R407) -/

/-- Elements and bytes of a chunk (R405). -/
def chunkElems (t : Task) : Nat := 262144 / collElem t

/-- Chunks of a result of n elements. -/
def chunkCount (t : Task) (n : Nat) : Nat := ceilDiv n (chunkElems t)

/-- One addition in the data's own format. -/
def addCode (fmt a b : Nat) : Nat × AFlags :=
  if fmt = 15 then
    let r := encodeInt 32 (Val.ofInt (signed 32 a + signed 32 b))
    (r.1, flagIf (r.2 == flagSat) flagIsat)
  else
    let el := (elemOf fmt).1
    let x := el.decode a
    let y := el.decode b
    let r := el.encode false (x.add y)
    (r.1, r.2 ||| flagIf ((el.decode r.1).isNan && !x.isNan && !y.isNan) flagNan)

/-- Add a partial's chunk onto the accumulator; what only one of them covers is copied. -/
def addChunk (fmt : Nat) : List Nat → List Nat → List Nat × AFlags
  | [], ys => (ys, noFlags)
  | xs, [] => (xs, noFlags)
  | x :: xs, y :: ys =>
    let r := addCode fmt x y
    let l := addChunk fmt xs ys
    (r.1 :: l.1, r.2 ||| l.2)

/-- Elements that a partial of a member supplies to chunk c. -/
def chunkShare (t : Task) (count c : Nat) : Nat := min (chunkElems t) (count - c * chunkElems t)

/-! ### The root of a reduce (R406) -/

/-- Partials of a member that the running chunk still needs. -/
def partsLeft (t : Task) (x : Coll) (m : Nat) (a : Arrival) : Nat :=
  if chunkShare t a.count x.chunk = 0 then 0 else a.partials - Table.get 0 x.taken m

/-- The next partial of the running chunk in key order. -/
inductive NextPart where
  /-- Every partial is in the sum. -/
  | done
  /-- It has not arrived. -/
  | wait
  | own (rank : Nat)
  | other (member core : Nat) (data : List Byte)
deriving DecidableEq, Repr

/-- Members with partials still to be added to the running chunk whose RPOS is the smallest. -/
def nextMembers (t : Task) (x : Coll) : List Nat :=
  let left := (x.arrivals.filter fun a => partsLeft t x a.1 a.2 != 0).map (·.1)
  let least := left.foldl (fun r m => min r (Table.get 0 x.rpos m)) 255
  left.filter fun m => Table.get 0 x.rpos m == least

/-- A member's next partial: its core index and itself; none until it has arrived. A member's partials come in rank order,
as they are requested (R406). -/
def memberNext (t : Task) (x : Coll) (m : Nat) : Option (Nat × NextPart) :=
  if m = cbSelf t.body then let r := Table.get 0 x.taken m; some (nth 0 t.cores r, .own r)
  else (x.waiting.find? fun a => a.1 == m && a.2.2.1 == x.chunk).map fun a => (a.2.1, .other m a.2.1 a.2.2.2)

/-- The next partial in key order (R68, R406): core index, then member index, decide between members of one RPOS. -/
def nextPart (t : Task) (x : Coll) : NextPart :=
  let ms := nextMembers t x
  let cs := ms.map (memberNext t x)
  if ms.isEmpty then .done
  else if cs.any Option.isNone then .wait
  else ((cs.filterMap id).foldl (fun (b : Option (Nat × NextPart)) c =>
    match b with
    | none => some c
    | some d => if c.1 < d.1 then some c else some d) none).elim .wait (·.2)

/-- Add the codes of one partial to the running chunk's sum; the first is copied (R406, R407). -/
def takePart (t : Task) (x : Coll) (m : Nat) (cs : List Nat) : Coll :=
  let r := match x.acc with
    | none => (cs, noFlags)
    | some acc => addChunk (cbFmt t.body) acc cs
  { x with acc := some r.1, flags := x.flags ||| r.2, taken := Table.insert x.taken m (Table.get 0 x.taken m + 1) }

/-- The codes of n elements. -/
def collCodes (t : Task) (n : Nat) (bs : List Byte) : List Nat := splitBits (8 * collElem t) n (leNat bs)

/-- Codes of the root's own partial of a rank, for the running chunk (R397). -/
def ownCodes (s : State) (w : Wing) (t : Task) (x : Coll) (rank : Nat) : State × Except AccErr (List Nat) :=
  let n := chunkShare t (collCount t.hdr) x.chunk
  andThen (chunkLoad s w t x.chunk (cbSrc t.body + rank * cbStride t.body + x.chunk * 262144) (n * collElem t)) fun s bs =>
    (s, .ok (collCodes t n bs))

/-- The running chunk is complete: its sum is written and its successor begins (R406). -/
def finishChunk (s : State) (w : Wing) (t : Task) (x : Coll) : State × Except AccErr Coll :=
  match chunkSave s w t x.chunk (cbDst t.body + x.chunk * 262144) (packCodes (8 * collElem t) (x.acc.getD [])) with
  | (s, some e) => (s, .error e)
  | (s, none) => (s, .ok { x with chunk := x.chunk + 1, acc := none, taken := [] })

/-- Add partials in key order while they are there, and write the chunks that become complete, with fuel for both; the
context and the number of additions made (R406). -/
def addParts (w : Wing) (t : Task) (n : Nat) : Nat → State → Coll → Nat → State × Except AccErr (Coll × Nat)
  | 0, s, x, k => (s, .ok (x, k))
  | f + 1, s, x, k =>
    if chunkCount t n ≤ x.chunk then (s, .ok (x, k))
    else
      let add := if x.acc.isSome then k + 1 else k
      let more (s : State) : State := addCtr s (blkJn w) 0x0108
      match nextPart t x with
      | .wait => (s, .ok (x, k))
      | .done => andThen (finishChunk s w t x) fun s x => addParts w t n f s x k
      | .own r => andThen (ownCodes s w t x r) fun s cs => addParts w t n f (more s) (takePart t x (cbSelf t.body) cs) add
      | .other m core data =>
        let share := chunkShare t (((Table.find x.arrivals m).map (·.count)).getD 0) x.chunk
        addParts w t n f (more s) (takePart t { x with waiting := x.waiting.filter fun a => !(a.1 == m && a.2.1 == core && a.2.2.1 == x.chunk) }
          m (collCodes t share data)) add

/-- Steps that suffice for every partial and chunk of a reduce. -/
def addFuel (t : Task) (x : Coll) (n : Nat) : Nat := (chunkCount t n + 1) * (x.arrivals.foldl (fun a y => a + y.2.partials) 0 + 1)

/-- Members from whom a partial of the running chunk is requested and has not arrived, in key order: as many requests as
the context finds slots for (R406). -/
def requested (s : State) (w : Wing) (t : Task) (x : Coll) : List Nat :=
  let open_ := (2 - x.waiting.length) + (16 - slotsUsed s w)
  let key (m : Nat) : Nat := 256 * Table.get 0 x.rpos m + m
  let ms := (x.arrivals.filter fun a => a.1 != cbSelf t.body).foldl (fun l a =>
    let here := (x.waiting.filter fun y => y.1 == a.1 && y.2.2.1 == x.chunk).length
    insertBy (fun a b => decide (a.1 < b.1)) (key a.1, a.1, partsLeft t x a.1 a.2 - here) l) []
  ((ms.map fun m => List.replicate m.2.2 m.2.1).flatten.take open_).eraseDups

/-- The clocks of the data requests (R402): a member that has just answered, or is newly asked, counts from now. -/
def askMembers (s : State) (w : Wing) (t : Task) (x : Coll) (answered : Option Nat) : Coll :=
  let now := (tickOf s w).toNat
  { x with asked := (requested s w t x).map fun m =>
      (m, if answered = some m then now else (Table.find x.asked m).getD now) }

/-- Put a root's context back after additions: the collective commits after its last chunk (R413). -/
def settleRoot (s : State) (w : Wing) (t : Task) (k : CollKey) (n : Nat) (x : Coll) (answered : Option Nat) : State :=
  if chunkCount t n ≤ x.chunk then commitColl (s.modColl w k fun _ => x) w k n x.flags
  else
    let s := s.modColl w k fun _ => x
    s.modColl w k fun x => askMembers s w t x answered

/-! ### Routes (R403, R404) -/

/-- Parent of a member as this Junction holds it: its record's, or the one a re-form gave it (R416). -/
def parentOf (s : State) (w : Wing) (g m r : Nat) : Nat :=
  (Table.find (s.jn.get w).parents (256 * g + m)).getD (mrParent r)

/-- Whether a chain of parents reaches a tree top, with fuel for the members. -/
def reachesTop (ps : Table Nat) : Nat → Nat → Bool
  | 0, _ => false
  | f + 1, m =>
    match Table.find ps m with
    | none => false
    | some p => p == 255 || reachesTop ps f p

/-- Whether the tree over the live members is well formed (R404). -/
def treeOk (s : State) (w : Wing) (g : Nat) (recs : Table Nat) : Bool :=
  let ps : Table Nat := recs.map fun r => (r.1, parentOf s w g r.1 r.2)
  (ps.filter fun p => p.2 == 255).length == 1
    && ps.all (fun p => p.2 == 255 || (Table.find ps p.2).isSome)
    && ps.all (fun p => reachesTop ps 256 p.1)
    && recs.all fun r =>
      match (Table.find ps r.1).bind (Table.find recs) with
      | some q => edgeJoined s r.2 q
      | none => true

/-- Whether direct exchange serves every live member (R403). -/
def directOk (s : State) (w : Wing) (self : Nat) (recs : Table Nat) : Bool :=
  recs.all fun r => r.1 == self || oneHop s w (mrModule r.2) (mrWing r.2)

/-- Tree edges from a member up to the top, as pairs of members, with fuel for the members. -/
def edgesUp (ps : Table Nat) : Nat → Nat → List (Nat × Nat)
  | 0, _ => []
  | f + 1, m =>
    match Table.find ps m with
    | none => []
    | some p => if p = 255 then [] else (m, p) :: edgesUp ps f p

/-- Links on the route between the root and a member, as pairs of members: their own one under direct exchange, else
those of the tree path between them (R403). -/
def routeEdges (s : State) (w : Wing) (g root : Nat) (recs : Table Nat) (direct : Bool) (m : Nat) : List (Nat × Nat) :=
  if m = root then []
  else if direct then [(root, m)]
  else
    let ps : Table Nat := recs.map fun r => (r.1, parentOf s w g r.1 r.2)
    let a := edgesUp ps 256 m
    let b := edgesUp ps 256 root
    (a.filter fun e => !b.contains e) ++ b.filter fun e => !a.contains e

/-- Whether a link between two members is up, as far as this module knows (R404). -/
def linkJoined (s : State) (recs : Table Nat) (e : Nat × Nat) : Bool :=
  edgeJoined s (Table.get 0 recs e.1) (Table.get 0 recs e.2)

/-- Ticks at which the ports of a wing that led to a wing of another module left Up. -/
def portsLeft (s : State) (w : Wing) (r : Nat) : List Nat :=
  (List.range 6).filterMap fun p =>
    (Table.find s.ports (6 * wingNum w + p)).bind fun x =>
      if x.peerKnown && fld x.peer 31 16 == mrModule r && wingOfNum (fld x.peer 8 8) == mrWing r then some x.leftUp else none

/-- Ticks at which the links between two members left Up, where one of the two is in this module. -/
def linksLeft (s : State) (a b : Nat) : List Nat :=
  if mrModule a = ownNode s ∧ mrModule b = ownNode s then [s.cc.leftUp]
  else if mrModule a = ownNode s then portsLeft s (mrWing a) b
  else if mrModule b = ownNode s then portsLeft s (mrWing b) a
  else []

/-- Whether a link on a route is down and has not been retrained within the limit (R402). -/
def linkLost (s : State) (w : Wing) (recs : Table Nat) (e : Nat × Nat) : Bool :=
  let l := linksLeft s (Table.get 0 recs e.1) (Table.get 0 recs e.2)
  !linkJoined s recs e && !l.isEmpty && l.all fun k => decide (k + dictVal s 0x4030 0 ≤ (tickOf s w).toNat)

/-- Records of the live members. -/
def liveRecs (s : State) (w : Wing) (t : Task) : Except AccErr (Table Nat) :=
  (collGroup (hideRegs s w) t).bind fun entry =>
    mapErr (fun m => (memberRec (hideRegs s w) entry m).map fun r => (m, r)) (liveOf t)

/-- The route of a rerun: chosen again only if a link of the present one is down (R410). -/
def routeAgain (s : State) (w : Wing) (t : Task) (c : Coll) : Bool :=
  match liveRecs s w t with
  | .error _ => c.direct
  | .ok recs =>
    let g := cbGroup t.body
    let root := cbSelf t.body
    let whole := recs.all fun r => (routeEdges s w g root recs c.direct r.1).all (linkJoined s recs)
    if whole then c.direct else directOk s w root recs

/-! ### Residue failures (R409 to R411) -/

/-- A residue failure: the first discards every chunk and starts the rerun on the other lane, the second ends the
collective. -/
def residueFailure (s : State) (w : Wing) (k : CollKey) (c : Coll) (t : Task) : State :=
  let s := addCtr (raise s 0x0401 k.group.toNat (blkJn w) t.part) (blkJn w) 0x0110
  let s := s.modJn w fun j => { j with laneFailed := j.laneFailed ||| (if c.lane then 2 else 1) }
  if c.rerun then failColl s w k 0x0402
  else
    let s := addCtr s (blkJn w) 0x0118
    let c := { c with rerun := true, lane := !c.lane, direct := routeAgain s w t c, chunk := 0, waiting := [], acc := none
                      taken := [], asked := [], flags := noFlags, since := (tickOf s w).toNat }
    settleRoot s w t k (c.n.getD 0) c none

/-- What follows a round of additions: a residue failure where one of them failed, else the context goes on. -/
def addedTo (w : Wing) (t : Task) (k : CollKey) (n : Nat) (fails : Bool) (answered : Option Nat)
    (r : State × Except AccErr (Coll × Nat)) : State :=
  match r with
  | (s, .error e) => failCollAcc s w k t.part e
  | (s, .ok (x, added)) =>
    if fails && added != 0 then residueFailure (s.modColl w k fun _ => x) w k x t else settleRoot s w t k n x answered

/-- A reduce to which no other member contributes runs whole at its go message, and again after a residue failure; whether
its lane fails is free, since no command brings a chunk (assumption log 67). -/
def addAlone (w : Wing) (t : Task) (k : CollKey) (n : Nat) : Nat → State → State
  | 0, s => s
  | f + 1, s =>
    match collOf s w k with
    | none => s
    | some x =>
      let fails := freeChoice s
      addAlone w t k n f (addedTo w t k n fails.1 none (addParts w t n (addFuel t x n) fails.2 x 0))

/-! ### Count messages and go (R400 to R404) -/

/-- Result length N (R400). -/
def resultLen (t : Task) (x : Coll) : Nat :=
  if isBroadcast t then collCount t.hdr else x.arrivals.foldl (fun n a => max n a.2.count) 0

/-- Whether some capacity is below N (R400). -/
def capacityShort (t : Task) (x : Coll) (n : Nat) : Bool :=
  if isBroadcast t then x.arrivals.any fun a => a.1 != cbSelf t.body && decide (a.2.capacity < n)
  else decide (cbCap t.body < n)

/-- First and last count messages (R418). -/
def firstArrival (x : Coll) : Nat := x.arrivals.foldl (fun a y => min a y.2.tick) ((x.arrivals.head?.map (·.2.tick)).getD 0)

/-- Member whose count message arrived last, the higher index at a tie (R418). -/
def lastMember (x : Coll) : Nat × Nat :=
  x.arrivals.foldl (fun a y => if a.2 ≤ y.2.tick then (y.1, y.2.tick) else a) (0, 0)

/-- The arrival report (R418). -/
def reportBytes (t : Task) (x : Coll) (count : Nat) : List Byte :=
  (List.range count).foldr (fun m l =>
    let lag := ((Table.find x.arrivals m).map fun a => min (a.tick - firstArrival x) (2 ^ 32 - 1)).getD 0
    leBytes 8 (if (liveOf t).contains m then 2 ^ 63 + lag else 0) ++ l) []

/-- Record the slowest member (R418, R423). -/
def noteSlow (s : State) (w : Wing) (k : CollKey) (x : Coll) : State :=
  let (m, tick) := lastMember x
  let lag := min (tick - firstArrival x) (2 ^ 32 - 1)
  let s := s.modJn w fun j =>
    { j with slowInfo := pack [(1, 31), (k.group.toNat, 16), (m, 0)], slowLag := BitVec.ofNat 32 lag }
  addCtr s (blkJn w) (0x1000 + 8 * m)

/-- Register a member's pages at the go message (R412). -/
def registerPages (s : State) (w : Wing) (t : Task) (k : CollKey) : Except AccErr State :=
  match physPages s (taskCtx s t) (partialRanges t), physPages s (taskCtx s t) (collDest t) with
  | .error e, _ => .error e
  | _, .error e => .error e
  | .ok a, .ok b => .ok (s.modColl w k fun c => { c with retained := a, provisional := b })

/-- Read and send the chunks of a broadcast of n bytes from chunk c on, with their number for fuel (R408). -/
def sendChunks (w : Wing) (t : Task) (n : Nat) : Nat → Nat → State → State × Option AccErr
  | 0, _, s => (s, none)
  | f + 1, c, s =>
    match chunkLoad s w t c (cbSrc t.body + c * 262144) (min 262144 (n - c * 262144)) with
    | (s, .error e) => (s, some e)
    | (s, .ok _) => sendChunks w t n f (c + 1) (addCtr s (blkJn w) 0x0108)

/-- The data phase at the root (R406, R408): a broadcast sends its chunks (within the go step: assumption log 136); a
reduce requests the partials of the other members, or runs whole where none contributes. -/
def rootData (s : State) (w : Wing) (t : Task) (k : CollKey) (n : Nat) : State :=
  if isBroadcast t then
    match sendChunks w t n (chunkCount t n) 0 s with
    | (s, some e) => failCollAcc s w k t.part e
    | (s, none) => commitColl s w k n noFlags
  else
    match collOf s w k with
    | none => s
    | some x =>
      if x.arrivals.any fun a => a.1 != cbSelf t.body && a.2.count != 0 then settleRoot s w t k n x none
      else addAlone w t k n 2 s

/-- Write the arrival report where one is asked for (R418). -/
def writeReport (s : State) (w : Wing) (t : Task) (x : Coll) (count : Nat) : State × Option AccErr :=
  if cbReport t.body = 0 then (s, none)
  else jnSave s w (taskCtx s t) (nth 0 t.cores 0) (cbReport t.body) (reportBytes t x count)

/-- Every live member has reported: the root sets N, checks the tree, chooses a route, sends go and starts the data phase
(R400 to R406, R418). -/
def rootGo (s : State) (w : Wing) (t : Task) (x : Coll) : State :=
  let k := x.key
  let n := resultLen t x
  if capacityShort t x n then failColl s w k 0x0405
  else
    match liveRecs s w t, collGroup (hideRegs s w) t with
    | .error e, _ => failCollAcc s w k t.part e
    | _, .error e => failCollAcc s w k t.part e
    | .ok recs, .ok entry =>
      if !treeOk s w (cbGroup t.body) recs then failColl s w k 0x0407
      else
        match writeReport s w t x (geCount entry) with
        | (s, some e) => failCollAcc s w k t.part e
        | (s, none) =>
          let s := noteSlow s w k x
          let s := s.modColl w k fun c =>
            { c with n := some n, direct := directOk s w (cbSelf t.body) recs, lane := (s.jn.get w).laneSel
                     rpos := recs.map fun r => (r.1, mrRpos r.2), since := (tickOf s w).toNat }
          if n = 0 then commitColl s w k 0 noFlags
          else
            match registerPages s w t k with
            | .error e => failCollAcc s w k t.part e
            | .ok s => rootData s w t k n

/-- Whether every live member has reported. -/
def allReported (t : Task) (x : Coll) : Bool := (liveOf t).all fun m => (Table.find x.arrivals m).isSome

/-- The root takes a count message (R400). -/
def takeCount (s : State) (w : Wing) (t : Task) (k : CollKey) (m : Nat) (a : Arrival) : State :=
  let s := s.modColl w k fun c => { c with arrivals := Table.insert c.arrivals m a }
  match collOf s w k with
  | none => s
  | some x => if allReported t x then rootGo s w t x else s

/-- Whether a count message agrees with the group and the operation (R400). -/
def countAgrees (t : Task) (entry : Nat) (a : Arrival) : Bool :=
  a.signature.toNat == geSignature entry
    && (if isBroadcast t then a.count == 0 else decide (1 ≤ a.partials ∧ a.partials ≤ 672))

/-- A member's count message reaches the context of its root (R400); a second one of a member changes nothing. -/
def receiveCount (s : State) (w : Wing) (k : CollKey) (c : Coll) (t : Task) (m : Nat) (a : Arrival) : State :=
  if c.role ≠ .root ∨ c.n.isSome ∨ !(liveOf t).contains m ∨ (Table.find c.arrivals m).isSome then s
  else
    match collGroup (hideRegs s w) t with
    | .error e => failCollAcc s w k t.part e
    | .ok entry =>
      let a := { a with tick := (tickOf s w).toNat }
      if !countAgrees t entry a then failColl s w k 0x0404 else takeCount s w t k m a

/-- Run an effect on a context of a running task. -/
def onColl (s : State) (w : Wing) (k : CollKey) (f : Coll → Task → State) : State :=
  match collOf s w k with
  | none => s
  | some c =>
    match c.task.bind (taskOf s) with
    | some t => if t.status == .running then f c t else s
    | none => s

/-- Count messages held back for a context that is open now reach it (R399). -/
def deliverHeld (s : State) (w : Wing) (k : CollKey) : State :=
  ((s.jn.get w).held.filter fun m => m.key = k).foldl (fun s m =>
    match m with
    | .count _ member a => onColl s w k fun c t => receiveCount s w k c t member a
    | .passing .. => s) (dropHeld s w k)

/-- A dispatched collective opens its context and sends its count message; the root's own arrives at once, with those that
were held back for it (R399, R400). -/
def startColl (s : State) (t : Task) : State :=
  let w := t.wing
  let k := collKey t
  let now := (tickOf s w).toNat
  let c : Coll := { key := k, role := if isRoot t then .root else .member, task := some t.id, broadcast := isBroadcast t, since := now }
  let s := s.modJn w fun j => { j with ctxs := (j.ctxs.filter fun x => x.key ≠ k) ++ [c] }
  if !isRoot t then s
  else
    match collGroup (hideRegs s w) t with
    | .error e => failCollAcc s w k t.part e
    | .ok entry =>
      deliverHeld (takeCount s w t k (cbSelf t.body)
        { tick := now, signature := BitVec.ofNat 32 (geSignature entry), count := collCount t.hdr, capacity := cbCap t.body
          partials := t.cores.length }) w k

/-- JN_COUNT_MESSAGE (R400): one on its way to another Junction passes through; one for a root that has no context yet is
held back (R399). -/
def execJnCountMessage (w : Wing) (r : JnRoute) (member : Fin 255) (signature count capacity : Word32) (partials : Nat)
    (s : State) : Host.Outcome State Fault Refusal :=
  .next (orWait s fun s =>
    let a : Arrival := { tick := 0, signature := signature, count := count.toNat, capacity := capacity.toNat, partials := partials }
    if r.passing then passMessage s w r.key false
    else
      match collOf s w r.key with
      | none => holdBack s w (.count r.key member.val a)
      | some c =>
        if c.role = .relay then holdBack s w (.count r.key member.val a)
        else onColl s w r.key fun c t => receiveCount s w r.key c t member.val a)

/-- JN_GO_MESSAGE (R401, R412): a member registers its pages; with N = 0 it commits. -/
def execJnGoMessage (w : Wing) (r : JnRoute) (n : Word32) (s : State) : Host.Outcome State Fault Refusal :=
  .next (orWait s fun s =>
    let k := r.key
    let s := if r.passing then passMessage s w k false else s
    onColl s w k fun c t =>
      if c.role ≠ .member ∨ c.n.isSome then s
      else
        let s := s.modColl w k fun c => { c with n := some n.toNat, since := (tickOf s w).toNat }
        if n = 0 then commitColl s w k 0 noFlags
        else
          match registerPages s w t k with
          | .error e => failCollAcc s w k t.part e
          | .ok s => s)

/-! ### Chunks (R405 to R411) -/

/-- Partials of the running chunk that other members still owe. -/
def partsMissing (t : Task) (x : Coll) : Nat :=
  x.arrivals.foldl (fun n a =>
    if a.1 = cbSelf t.body then n
    else n + partsLeft t x a.1 a.2 - (x.waiting.filter fun y => y.1 == a.1 && y.2.2.1 == x.chunk).length) 0

/-- Whether the root has requested a partial of a member's chunk (R406): requests go in key order, so one of a later chunk
finds a slot only beside all that the running chunk still needs; and a member's partials come by ascending core. -/
def wasAsked (s : State) (w : Wing) (t : Task) (c : Coll) (m : Nat) (a : Arrival) (core chunk : Nat) : Bool :=
  let mine := c.waiting.filter fun y => y.1 == m && y.2.2.1 == chunk
  let taken := if chunk = c.chunk then Table.get 0 c.taken m else 0
  m != cbSelf t.body && chunkShare t a.count chunk != 0 && decide (taken + mine.length < a.partials)
    && mine.all (fun y => decide (y.2.1 < core))
    && (if chunk = c.chunk then (requested s w t c).contains m
      else decide (c.chunk < chunk ∧ partsMissing t c < (2 - c.waiting.length) + (16 - slotsUsed s w)))

/-- A chunk of a partial reaches the root of a reduce (R406): it waits in its slot, and what is next in key order is
added. -/
def rootChunk (s : State) (w : Wing) (k : CollKey) (c : Coll) (t : Task) (m core chunk : Nat) (data : List Byte) (fails : Bool) :
    State :=
  match Table.find c.arrivals m with
  | none => s
  | some a =>
    if !wasAsked s w t c m a core chunk then s
    else
      let n := c.n.getD 0
      let c := { c with waiting := c.waiting ++ [(m, core, chunk, data)], since := (tickOf s w).toNat }
      addedTo w t k n fails (some m) (addParts w t n (addFuel t c n) (s.modColl w k fun _ => c) c 0)

/-- A chunk of a broadcast reaches a receiver: it is written provisionally and, where others get it from here, forwarded
(R408). -/
def receiverChunk (s : State) (w : Wing) (k : CollKey) (c : Coll) (t : Task) (chunk : Nat) (data : List Byte) (passing : Bool) :
    State :=
  let n := c.n.getD 0
  if chunk ≠ c.chunk ∨ n ≤ chunk * 262144 then s
  else
    let s := if passing then addCtr s (blkJn w) 0x0108 else s
    match chunkSave s w t chunk (cbDst t.body + chunk * 262144) (data.take (n - chunk * 262144)) with
    | (s, some e) => failCollAcc s w k t.part e
    | (s, none) => s.modColl w k fun c => { c with chunk := c.chunk + 1, since := (tickOf s w).toNat }

/-- JN_CHUNK_ARRIVAL (R406, R408): a chunk for this wing, one that passes through, or for a receiver of a broadcast
both. -/
def execJnChunkArrival (w : Wing) (r : JnRoute) (member : Fin 255) (core : BitVec 16) (chunk : Nat) (data : List Byte)
    (residueFails : Bool) (s : State) : Host.Outcome State Fault Refusal :=
  .next (orWait s fun s =>
    let k := r.key
    let passing := r.passing
    match (collOf s w k).bind fun c => (c.task.bind (taskOf s)).map fun t => (c, t) with
    | some (c, t) =>
      if c.role = .member ∧ c.broadcast then
        if t.status == .running && c.n.isSome then receiverChunk s w k c t chunk data passing else s
      else if passing then passMessage s w k true
      else if c.role = .root ∧ !c.broadcast ∧ t.status = .running ∧ c.n.isSome then
        rootChunk s w k c t member.val core.toNat chunk data residueFails
      else s
    | none => if passing then passMessage s w k true else s)

/-- JN_RERUN_MESSAGE: a member supplies its partials again from chunk 0 (R410). -/
def execJnRerunMessage (w : Wing) (k : CollKey) (s : State) : Host.Outcome State Fault Refusal :=
  .next (onColl s w k fun c _ =>
    if c.role ≠ .member ∨ c.n.isNone ∨ c.rerun then s
    else s.modColl w k fun c => { c with rerun := true, chunk := 0, since := (tickOf s w).toNat })

/-- JN_COMPLETION_TOKEN (R413): a member whose writes have been performed commits; a relay closes its context. -/
def execJnCompletionToken (w : Wing) (k : CollKey) (n : Word32) (flags : BitVec 5) (s : State) :
    Host.Outcome State Fault Refusal :=
  .next (match collOf s w k with
    | none => s
    | some c =>
      if c.role = .relay then closeColl s w k
      else if c.role = .root ∨ c.n ≠ some n.toNat ∨ (c.broadcast ∧ c.chunk * 262144 < n.toNat) then s
      else commitColl s w k n.toNat flags)

/-- JN_ABORT_MESSAGE (R414): an abort after the token finds no context and is ignored. -/
def execJnAbortMessage (w : Wing) (k : CollKey) (cause : BitVec 16) (s : State) : Host.Outcome State Fault Refusal :=
  .next (failColl s w k cause.toNat)

/-! ### Lost members (R402, R415, R416) -/

/-- Clear a member's bit of a group (R416). -/
def clearBit (s : State) (w : Wing) (g m : Nat) : State :=
  s.modJn w fun j => { j with lost := Table.insert j.lost g (insertSorted (Table.get [] j.lost g) m) }

/-- Member records of a group, as far as they can be read. -/
def memberRecs (s : State) (w : Wing) (entry : Nat) : Table Nat :=
  (List.range (geCount entry)).filterMap fun i =>
    match memberRec (hideRegs s w) entry i with
    | .ok r => some (i, r)
    | .error _ => none

/-- The lost members that a member's path to the tree top meets before the first that is not lost, from p on, with fuel
for the members. -/
def lostAbove (recs : Table Nat) (gone : List Nat) : Nat → Nat → List Nat
  | 0, _ => []
  | f + 1, p =>
    if gone.contains p then
      p :: (match Table.find recs p with
        | some r => lostAbove recs gone f (mrParent r)
        | none => [])
    else []

/-- The parent that a member with record r takes (R416): in place of each lost parent p that parent's own PARENT, where a
one-hop link joins the two; none where the member is removed. -/
def newParent (s : State) (recs : Table Nat) (gone : List Nat) (r : Nat) : Nat → Nat → Option Nat
  | 0, _ => none
  | f + 1, p =>
    if gone.contains p then
      match (Table.find recs p).bind fun x => (Table.find recs (mrParent x)).map fun q => (mrParent x, q) with
      | some q => if edgeJoined s r q.2 then newParent s recs gone r f q.1 else none
      | none => none
    else some p

/-- Re-form a group after a loss (R416): each child of the lost member takes its parent where a one-hop link joins the
two, and is removed otherwise. A parent that is lost too is passed in the same way, so that losses give the same mask in any
order. -/
def reform (s : State) (w : Wing) (entry g m : Nat) : State :=
  let recs := memberRecs s w entry
  let gone := insertSorted (Table.get [] (s.jn.get w).gone g) m
  let s := clearBit (s.modJn w fun j => { j with gone := Table.insert j.gone g gone }) w g m
  let live (i : Nat) : Bool := !(Table.get [] (s.jn.get w).lost g).contains i
  let children := recs.filter fun r => live r.1 && (lostAbove recs gone 256 (mrParent r.2)).contains m
  let s := children.foldl (fun s r =>
    match newParent s recs gone r.2 256 (mrParent r.2) with
    | some p => s.modJn w fun j => { j with parents := Table.insert j.parents (256 * g + r.1) p }
    | none => clearBit s w g r.1) s
  addCtr (raise s 0x0403 g (blkJn w)) (blkJn w) 0x0128

/-- Entry of a group in the edition current at a Junction. -/
def groupNow (s : State) (w : Wing) (g : Nat) : Nat :=
  let h := (((currentAt s .group (.junction w)).bind (editionOf s .group)).map (·.hdr)).getD 0
  match groupEntryAt (hideRegs s w) h g with
  | .ok e => e
  | .error _ => 0

/-- Re-form a resilient group, unless this loss has re-formed it already. -/
def reformIf (s : State) (w : Wing) (g m : Nat) : State :=
  let e := groupNow s w g
  if geValid e && geResilient e && decide (m < geCount e) && !(Table.get [] (s.jn.get w).gone g).contains m then reform s w e g m
  else s

/-- A party of a collective is lost (R415, R416). -/
def losePart (s : State) (w : Wing) (k : CollKey) (part m : Nat) : State :=
  let s := addCtr (raise s 0x0402 k.group.toNat (blkJn w) part) (blkJn w) 0x0120
  reformIf (failColl s w k 0x0401) w k.group.toNat m

/-- Whether JN_WAIT_LIMIT has passed since a tick (R402). -/
def waitPassed (s : State) (w : Wing) (since : Nat) : Bool := decide (since + dictVal s 0x4030 0 ≤ (tickOf s w).toNat)

/-- Whether the root may declare a member lost (R402): its count message, a link of its route or its answer to a data
request has been missing for the limit. -/
def memberLost (s : State) (w : Wing) (c : Coll) (t : Task) (m : Nat) : Bool :=
  if c.n.isNone then (Table.find c.arrivals m).isNone && waitPassed s w (firstArrival c)
  else
    ((Table.find c.asked m).map (waitPassed s w)).getD false
      || match liveRecs s w t with
        | .error _ => false
        | .ok recs => (routeEdges s w (cbGroup t.body) (cbSelf t.body) recs c.direct m).any (linkLost s w recs)

/-- JN_WAIT_LIMIT_EXPIRY (R402). -/
def execJnWaitLimitExpiry (w : Wing) (k : CollKey) (lost : LostParty) (s : State) : Host.Outcome State Fault Refusal :=
  .next (onColl s w k fun c t =>
    match lost with
    | .member m =>
      if c.role = .root ∧ (liveOf t).contains m.val ∧ m.val ≠ cbSelf t.body ∧ memberLost s w c t m.val then
        losePart s w k t.part m.val
      else s
    | .root =>
      if c.role = .member ∧ waitPassed s w c.since then losePart s w k t.part (cbRoot t.body) else s)

/-- JN_LOSS_NOTICE (R416). -/
def execJnLossNotice (w : Wing) (group : BitVec 8) (member : Fin 255) (s : State) : Host.Outcome State Fault Refusal :=
  .next (reformIf s w group.toNat member.val)

end Sys2Proof.Machine
end

