-- ==== Sys2Proof/Machine/TaskRows.lean ====
section
/-!
DEFINITION. The life of an issued task (R141, R142, R155): dispatch, tile steps, phases, multicast deliveries, forced
intruding accesses, faults and ends.
-/

namespace Sys2Proof.Machine

/-! ### Clusters of cores -/

/-- Physical row that carries a logical position (R22, R23). -/
def physRow (s : State) (t : Tile) (n : Nat) : Nat :=
  match Table.find (s.sch.get t).onSpare n with
  | some r => r
  | none =>
    match Table.find (s.sch.get t).defects (n % 16) with
    | some d => if n / 16 < d then n / 16 else n / 16 + 1
    | none => n / 16

/-- Key of a power cluster (R27). -/
def clusterKey (t : Tile) (row : Nat) : Nat := 22 * tileIdx t + row

/-- A power cluster. -/
def clusterOf (s : State) (t : Tile) (row : Nat) : Cluster := (Table.find s.power.clusters (clusterKey t row)).getD {}

/-- Change a power cluster. -/
def State.modCluster (s : State) (t : Tile) (row : Nat) (f : Cluster → Cluster) : State :=
  s.modPower fun p => { p with clusters := Table.insert p.clusters (clusterKey t row) (f (clusterOf s t row)) }

/-- Begin the exit of a gated or retained cluster (R533). -/
def wakeCluster (s : State) (t : Tile) (row : Nat) : State :=
  match (clusterOf s t row).state with
  | .gated => s.modCluster t row fun c => { c with waking := true }
  | .retention => s.modCluster t row fun c => { c with waking := true }
  | _ => s

/-- Wake the clusters of a list of cores (R533). -/
def wakeCores (s : State) (cores : List Nat) : State :=
  cores.foldl (fun s i => wakeCluster s (coreTile i) (physRow s (coreTile i) (i % 336))) s

/-- Whether a core can step: its cluster runs and no change of point stalls it (R533, R534). -/
def coreReady (s : State) (i : Nat) : Bool :=
  let c := clusterOf s (coreTile i) (physRow s (coreTile i) (i % 336))
  c.state == .run && c.changing.isNone

/-! ### Dispatch -/

/-- Tiles that could carry a task (R134). -/
def possibleTiles (s : State) (t : Task) : List Tile :=
  if hPlace t.hdr = 2 then
    (enabledTiles s t).filter fun x => decide (t.staging ≤ (recGrant (taskRec s t) x).g)
  else placeTiles t.hdr t.home

/-- Cores that a waiting task names (R155). -/
def namedCores (s : State) (t : Task) : List Nat := coresOn t.hdr (possibleTiles s t)

/-- Whether a core may be granted: in service and held by no task (R141, R553). -/
def coreFree (s : State) (i : Nat) : Bool := coreStateOf s (coreTile i) (i % 336) == 0 && !coreHeld s i

/-- Whether everything a task needs on some tiles is free: cores, a place among the 512 tasks of a sibling that takes a
share (R139), staging frames (R184) and its unit's contexts (R373, R399). -/
def roomOn (s : State) (t : Task) (tiles : List Tile) : Bool :=
  (coresOn t.hdr tiles).all (coreFree s)
    && tiles.all (fun x => x == t.home || decide (heldCount s x < 512))
    && tiles.all (fun x => t.staging == 0 || decide (stagingHeld s x t.part + t.staging ≤ (recGrant (taskRec s t) x).g))
    && (match entryKind t.hdr with
      | 4 => collRoom s t
      | 5 => catRoom s t
      | _ => true)

/-- Whether a waiting task waits for something that another would take on some tiles: a core, a staging frame of their
partition, or a context of their kind (R155, R184, R373, R382, R399). -/
def contends (s : State) (u t : Task) (tiles : List Tile) : Bool :=
  (namedCores s u).any (coresOn t.hdr tiles).contains
    || (u.part == t.part && u.staging != 0 && t.staging != 0 && tiles.any (possibleTiles s u).contains)
    || (entryKind u.hdr == 4 && entryKind t.hdr == 4)
    || (entryKind u.hdr == 5 && entryKind t.hdr == 5 && isMerge u == isMerge t)

/-- Whether a higher-ranked waiting task of the same Stationmaster waits for what a task would take (R155). -/
def outranked (s : State) (t : Task) (tiles : List Tile) : Bool :=
  s.tasks.any fun u => u.id != t.id && u.home == t.home && u.status == .waiting && lexLt (rankKey s u) (rankKey s t)
    && contends s u t tiles

/-- Tiles on which a dispatch places a task: under PLACE 0b10 the home tile comes first when both are free (R134). -/
def dispatchTiles (s : State) (t : Task) (x : Tile) : Option (List Tile) :=
  if hPlace t.hdr = 2 then
    let ok := possibleTiles s t
    if ok.contains x && (x == t.home || !(ok.contains t.home && roomOn s t [t.home])) then some [x] else none
  else if x = t.home then some (placeTiles t.hdr t.home) else none

/-- Phase in which a task's cores start (R76, R77). -/
def firstPhase (t : Task) : Nat :=
  match t.work with
  | .loop _ => (parseLoop t.body).phPro
  | .chain _ => (parseChain t.body).phPro
  | .stage _ => if stageMode t = 0 then (parseLoop t.body2).phPro else 0
  | _ => 0

/-- Put loop work back into a task. -/
def putLoop (s : State) (id : Nat) (x : LoopWork) : State := s.modTask id fun t => { t with work := .loop x }

/-- The fill of step 0 of one operand for one rank of a loop task, made in PH_PRO (R179). -/
def fillRank (t : Task) (s : State) (x : LoopWork) (f : Nat × Bool) : State × Except UnitErr LoopWork :=
  match Table.find x.walks f.1 with
  | none => (s, .ok x)
  | some w =>
    let v := walkEnv s t (parseLoop t.body) x.bucket f.1
    match fillFirst s v w f.2 with
    | (s, .error e) => (s, .error { coreErr e with core := v.core })
    | (s, .ok o) => (noteStep s t.id v.core o.flags o.broke, .ok { x with walks := Table.insert x.walks f.1 o.walk })

/-- A loop task starts: its walks begin and every core fills its own operands for step 0 (R176, R179). -/
def startLoop (s : State) (t : Task) (x : LoopWork) : State :=
  let d := parseLoop t.body
  let x := { x with walks := startWalks d (d.bucket x.bucket) t.cores.length }
  let fs := x.walks.foldr (fun w l => (ownFills d).map (fun b => (w.1, b)) ++ l) []
  match foldErr (fillRank t) s x fs with
  | (s, .error e) => faultTask (putLoop s t.id x) t.id t.part e.err e.unit e.core
  | (s, .ok x) => putLoop s t.id x

/-- The units of a dispatched task start (R141). -/
def startWork (s : State) (t : Task) : State :=
  match t.work with
  | .loop x => startLoop s t x
  | .chain x => settleChain t.id t.part (startChain s t x)
  | .stage x => startStage s t x
  | .cat _ => runCat s t
  | .coll _ => startColl s t
  | _ => s

/-- Grant a task its cores and staging frames and dispatch it (R141, R184). -/
def dispatchTask (s : State) (t : Task) (tiles : List Tile) : State :=
  let cores := coresOn t.hdr tiles
  let t := { t with
    tiles := tiles, cores := cores, dispatchTick := tickOf s t.wing, status := .running
    phases := (List.range cores.length).map fun r => (r, firstPhase t) }
  let s := tiles.foldl (fun s y => reserveStaging s y t.part t.id t.staging) (s.modTask t.id fun _ => t)
  startWork (wakeCores s cores) t

/-- TASK_DISPATCH (R141, R155). -/
def execTaskDispatch (id : Nat) (t : Tile) (s : State) : Host.Outcome State Fault Refusal :=
  .next (orWait s fun s =>
    match taskOf s id with
    | none => s
    | some x =>
      match x.status, dispatchTiles s x t with
      | .waiting, some tiles =>
        if mainUp s && roomOn s x tiles && !outranked s x tiles then dispatchTask s x tiles else s
      | _, _ => s)

/-! ### Steps -/

/-- One tile step of a loop task's core, once its buffers have been filled (R179). -/
def loopTaskStep (s : State) (t : Task) (x : LoopWork) (rank : Nat) : State :=
  match Table.find x.walks rank with
  | none => s
  | some w =>
    let v := walkEnv s t (parseLoop t.body) x.bucket rank
    if w.done || !stepReady v x w then s
    else match walkStep (enterStep s v w) v w with
      | (s, .error e) => faultTask s t.id t.part e .core v.core
      | (s, .ok o) => noteStep (putLoop s t.id { x with walks := Table.insert x.walks rank o.walk }) t.id v.core o.flags o.broke

/-- TILE_STEP_BEGIN (R179, R203). -/
def execTileStepBegin (id : Nat) (core : Rank) (s : State) : Host.Outcome State Fault Refusal :=
  .next (orWait s fun s =>
    match taskOf s id with
    | none => s
    | some t =>
      if t.cores.length ≤ core || !coreReady s (nth 0 t.cores core) then s
      else match t.status, t.work with
        | .running, .loop x => loopTaskStep s t x core
        | .running, .stage x => stageStep s t x core
        | _, _ => s)

/-- Phase of a chain's core after another, in the order of its descriptor (R219, R227): the prologue, the chain steps by
turns, and on a merge core the merge once every part is complete (R238). -/
def chainNext (b : ChainBody) (x : ChainWork) (rank cur : Nat) : List Nat :=
  if x.complete then (if rank % b.ksplit = 0 then [b.phMrg] else [])
  else (if cur = b.phPro ∨ cur = b.phOdd then [b.phEven] else []) ++ (if cur = b.phEven then [b.phOdd] else [])

/-- The phase that the sequencer of a task's core enters next, if any (R76, R179, R376). -/
def nextPhase (t : Task) (rank : Nat) : List Nat :=
  let step (d : LoopBody) (w : Option CoreWalk) : List Nat :=
    match w with
    | some w => if w.done then [] else [stepPhase d w]
    | none => []
  match t.work with
  | .loop x => step (parseLoop t.body) (Table.find x.walks rank)
  | .chain x => chainNext (parseChain t.body) x rank (Table.get 0 t.phases rank)
  | .stage x => step (parseLoop t.body2) ((stepPlan t x.bucket rank true 0 x.runs).head?.map (·.2))
  | _ => []

/-- PHASE_CHANGE (R76): the sequencer enters its next phase, and the banks whose class changes are handed over; it never
faults. -/
def execPhaseChange (id : Nat) (core : Rank) (phase : Fin 8) (s : State) : Host.Outcome State Fault Refusal :=
  .next (match taskOf s id with
    | none => s
    | some t =>
      if t.status == .running && decide (core < t.cores.length) && (nextPhase t core).contains phase.val then
        enterPhase s id core phase.val
      else s)

/-! ### Multicast deliveries (R185, R186) -/

/-- Ranks on a tile that receive the next staged tile of an operand, each with its walk (R183, R185). -/
def receivers (s : State) (t : Task) (d : LoopBody) (l : LoopWork) (b : Bool) (y : Tile) : List (Nat × CoreWalk) :=
  l.walks.filter fun w => coreTile (nth 0 t.cores w.1) == y
    && decide (deliveriesOf l b y < walkSteps (walkEnv s t d l.bucket w.1) w.2)

/-- Whether an operand is staged. -/
def staged (d : LoopBody) (b : Bool) : Bool := if b then d.op == 0 && d.b.mcast else d.a.mcast

/-- Whether the next staged tile of an operand may be delivered on a tile: every receiving core has entered the step
before (R185). -/
def mayDeliver (s : State) (t : Task) (d : LoopBody) (l : LoopWork) (b : Bool) (y : Tile) : Bool :=
  let rs := receivers s t d l b y
  staged d b && !rs.isEmpty && rs.all fun w => decide (deliveriesOf l b y ≤ w.2.step)

/-- Staging frames of one half of an operand on a tile: those of A come first (R184, R185). -/
def halfFrames (s : State) (t : Task) (d : LoopBody) (k : Bucket) (b : Bool) (y : Tile) (half : Nat) : List Nat :=
  let n := ceilDiv (if b then bufB d k else bufA d k) 65536
  let skip := if b && d.a.mcast then 2 * ceilDiv (bufA d k) 65536 else 0
  ((stagingFrames s y t.id).drop (skip + half % 2 * n)).take n

/-- Fill the buffers of the receiving cores from a staged tile. -/
def fillReceivers (t : Task) (d : LoopBody) (b : Bool) (n : Nat) (bs : List Byte) (s : State)
    (rs : List (Nat × CoreWalk)) : State :=
  rs.foldl (fun s w =>
    let i := nth 0 t.cores w.1
    let r := fillBuffer s i t.id (inputOf d b) (w.2.base + n) 1 bs
    noteStep r.1 t.id i noFlags r.2) s

/-- Fetch the next tile of a staged operand once for a tile, into one half of its frames, and deliver it (R185). -/
def deliverTile (s : State) (t : Task) (d : LoopBody) (l : LoopWork) (b : Bool) (y : Tile) : State × Except AccErr Unit :=
  let rs := receivers s t d l b y
  match rs with
  | [] => (s, .ok ())
  | (r, w) :: _ =>
    let v := walkEnv s t d l.bucket r
    let n := deliveriesOf l b y
    let o := inputOf d b
    let x := inputTile d v.k (walkOrigin v w n) b
    andThen (loadTile s v o x) fun s m =>
      let bs := tileImage d o x m
      let s := stageBytes s y (halfFrames s t d v.k b y n) bs
      (addCtr (fillReceivers t d b n bs s rs) (blkSch y) 0x0320, .ok ())

/-- Count a delivery of an operand on a tile. -/
def delivered (l : LoopWork) (b : Bool) (y : Tile) : LoopWork :=
  let n := deliveriesOf l b y + 1
  if b then { l with delivB := Table.insert l.delivB (tileIdx y) n } else { l with delivA := Table.insert l.delivA (tileIdx y) n }

/-- A delivery made for a task, whose work is then put back; a failed fetch ends the task (R186). -/
def makeDelivery (s : State) (t : Task) (d : LoopBody) (l : LoopWork) (b : Bool) (y : Tile) (put : State → LoopWork → State) :
    State :=
  match deliverTile s t d l b y with
  | (s, .error e) => faultTask s t.id t.part e .memory
  | (s, .ok _) => put s (delivered l b y)

/-- The iteration of a stage that the next delivery of an operand on a tile serves: the first one not yet served whole
(R185, R203). -/
def deliverRun (s : State) (t : Task) (x : StageWork) (b : Bool) (y : Tile) : Option Nat :=
  (List.range x.runs.length).find? fun j =>
    x.runs[j]?.any fun z => !(receivers s t (boundBody s t z.held) z.loop b y).isEmpty

/-- Whether iteration j of a stage may have its next delivery: for its step 0, the operand's handle is held and every
receiving core has begun the last tile step of the iteration before (R185, R203). -/
def stageMayDeliver (s : State) (t : Task) (x : StageWork) (j : Nat) (z : StageRun) (b : Bool) (y : Tile) : Bool :=
  let d := boundBody s t z.held
  mayDeliver s t d z.loop b y && inputHeld t z.held b &&
    (j == 0 || deliveriesOf z.loop b y != 0 || (receivers s t d z.loop b y).all fun w =>
      (x.runs[j - 1]?.bind fun p => Table.find p.loop.walks w.1).any (begunLast t x.bucket))

/-- A delivery of a stage. -/
def stageDelivery (s : State) (t : Task) (x : StageWork) (b : Bool) (y : Tile) : State :=
  match (deliverRun s t x b y).bind fun j => (x.runs[j]?).map fun z => (j, z) with
  | none => s
  | some (j, z) =>
    if stageMayDeliver s t x j z b y then
      makeDelivery s t (boundBody s t z.held) z.loop b y fun s l => putStage s t.id (x.modRun j fun z => { z with loop := l })
    else s

/-- MULTICAST_DELIVERY (R185): the next tile of a staged operand on one tile. -/
def execMulticastDelivery (id : Nat) (r : Delivery) (s : State) : Host.Outcome State Fault Refusal :=
  .next (orWait s fun s =>
    match taskOf s id with
    | none => s
    | some t =>
      match t.status, t.work with
      | .running, .loop x =>
        let d := parseLoop t.body
        if mayDeliver s t d x r.operandB r.tile then
          makeDelivery s t d x r.operandB r.tile fun s l => putLoop s t.id l
        else s
      | .running, .stage x => stageDelivery s t x r.operandB r.tile
      | _, _ => s)

/-! ### Faults and ends -/

/-- A collective fails at this wing by what ends its task (R414): the failure is reported and its registrations are
released. -/
def closeTaskColl (s : State) (t : Task) (cause : Nat) : State :=
  match t.work with
  | .coll _ =>
    (match collOf s t.wing (collKey t) with
    | some c =>
      if c.task = some t.id then reportColl (closeColl s t.wing (collKey t)) t.wing (collKey t) t.part cause else s
    | none => s)
  | _ => s

/-- TASK_FAULT (R142, R414). -/
def execTaskFault (id : Nat) (cause : BitVec 16) (addr : BitVec 48) (core : BitVec 16) (s : State) :
    Host.Outcome State Fault Refusal :=
  .next (match taskOf s id with
    | none => s
    | some t =>
      if t.dispatched && cause != 0 then
        stopTask (closeTaskColl s t cause.toNat) id cause.toNat .core addr.toNat core.toNat
      else s)

/-- Whether every core and unit of a task has reported done (R141). -/
def workDone (t : Task) : Bool :=
  match t.work with
  | .none => false
  | .loop x => walksDone x
  | .chain x => chainDone t x
  | .stage x => x.ended
  | .cat d => d
  | .coll d => d
  | .move d _ => d

/-- TASK_END (R141, R143, R144). -/
def execTaskEnd (id : Nat) (s : State) : Host.Outcome State Fault Refusal :=
  .next (orWait s fun s =>
    match taskOf s id with
    | none => s
    | some t => if t.status == .running && workDone t then finishTask (settleAliases s t (bodiesOf s t)) t 0 else s)

/-- Destination ranges of a stage (R209): those its body names, and the buffers it holds. -/
def stageDests (t : Task) (x : StageWork) : List (Nat × Nat) :=
  if (outputsOf t.body).isEmpty then
    match stageMode t with
    | 0 => let d := parseLoop t.body2; loopDests d (d.bucket x.bucket)
    | 1 => (List.range (max (sgIters t.body) (x.iter + 1))).map fun i => ((sgDst t.body + i * sgStep t.body) % 2 ^ 48, copyLen t.hdr)
    | _ => []
  else []

/-- Destination ranges of a move (R133, R117). -/
def moveDests (t : Task) : List (Nat × Nat) :=
  match hSub t.hdr with
  | 0 => [(mDst t.hdr, mCount t.hdr)]
  | 3 => [(mDst t.hdr, 15 * 4096)]
  | 4 => [(mDst t.hdr, 65536)]
  | _ => []

/-- Destination ranges of a task (R138). -/
def taskDests (s : State) (t : Task) : List (Nat × Nat) :=
  match t.work with
  | .none => []
  | .loop _ => bodyDests (bodiesOf s t)
  | .chain x => chainDests t x
  | .stage x => stageDests t x
  | .cat _ => catDests s t
  | .coll _ => collDest t
  | .move _ _ => moveDests t

/-- End a stopped task uncommitted (R138, R142, R209): its destinations hold undefined bytes, a stage breaks its
stream. -/
def endStopped (s : State) (t : Task) (cause : Nat) : State :=
  let s := if t.dispatched then scribbleRanges s (taskCtx s t) (taskDests s t) else s
  let s := closeTaskColl s t cause
  let s := if t.isStage && t.dispatched && cause != 0x0504 then breakStream s t else s
  finishTask (addCtr s (blkSch t.home) 0x0138) t cause

/-- TASK_STOP_DRAINED (R142). -/
def execTaskStopDrained (id : Nat) (s : State) : Host.Outcome State Fault Refusal :=
  .next (orWait s fun s =>
    match taskOf s id with
    | none => s
    | some t =>
      match t.status with
      | .stopping c => endStopped s t c.toNat
      | _ => s)

end Sys2Proof.Machine
end

