-- ==== Sys2Proof/Machine/Link.lean ====
section
/-!
DEFINITION. The Kelast link layer: the flit and its CRC (R431 to R434), sequence numbers and replay (R435 to R437),
credits (R439), trunks (R448, R449) and the links that join a stop to its neighbours on the ring (R322).
-/

namespace Sys2Proof.Machine

/-! ### Link ends -/

/-- Wing of a link end. -/
def endWing : LinkEnd → Wing
  | .port w _ => w
  | .concourse w => w

/-- Whether a link end belongs to the Concourse. -/
def isConcourse : LinkEnd → Bool
  | .port _ _ => false
  | .concourse _ => true

/-- Fabric port number q = 6 × WING + p (R426). -/
def portNum (w : Wing) (p : Nat) : Nat := 6 * wingNum w + p

/-- A fabric port. -/
def portOf (s : State) (w : Wing) (p : Nat) : Port := (Table.find s.ports (portNum w p)).getD {}

/-- Change a fabric port. -/
def State.modPort (s : State) (w : Wing) (p : Nat) (f : Port → Port) : State :=
  { s with ports := Table.insert s.ports (portNum w p) (f (portOf s w p)) }

/-- The link layer of a link end. -/
def linkOf (s : State) : LinkEnd → Link
  | .port w p => (portOf s w p).link
  | .concourse .east => s.cc.east
  | .concourse .west => s.cc.west

/-- Change the link layer of a link end. -/
def State.modLink (s : State) (l : LinkEnd) (f : Link → Link) : State :=
  match l with
  | .port w p => s.modPort w p fun x => { x with link := f x.link }
  | .concourse .east => { s with cc := { s.cc with east := f s.cc.east } }
  | .concourse .west => { s with cc := { s.cc with west := f s.cc.west } }

/-- State of a link end (R440, R459). -/
def endState (s : State) : LinkEnd → PortState
  | .port w p => (portOf s w p).state
  | .concourse _ => s.cc.state

/-- Whether a link end carries traffic. -/
def linkUp (s : State) (l : LinkEnd) : Bool := endState s l == .up

/-- Whether a link end keeps its sequence state while it carries nothing (R440). -/
def linkKept (s : State) (l : LinkEnd) : Bool :=
  match endState s l with
  | .dark => true
  | .training => (match l with
    | .port w p => (portOf s w p).kept
    | .concourse _ => true)
  | _ => false

/-- Offset of a port's counters in its LNK_ block (R460). -/
def portCtr (p off : Nat) : Nat := 0x1000 + 0x100 * p + off

/-- Count on a link end: a port's counter, or the Concourse's (R460). -/
def countLink (s : State) (l : LinkEnd) (port cc : Nat) : State :=
  match l with
  | .port w p => addCtr s (blkLnk w) (portCtr p.val port)
  | .concourse w => addCtr s (blkLnk w) cc

/-! ### Windows -/

/-- The window that applies at a wing: a source's own entries, otherwise what the last beat or token carried (R337). -/
def windowOf (s : State) (w : Wing) : Nat × Nat :=
  let t := s.tt.get w
  if t.source ∧ (dictVal s 0x4017 0 ≠ 0 ∨ dictVal s 0x4012 0 = 1) then (dictVal s 0x4016 0, dictVal s 0x4017 0)
  else (t.winStart.toNat, t.winTicks.toNat)

/-- Whether the count lies in a reconfiguration window (R337). -/
def inWindow (s : State) (w : Wing) : Bool :=
  let x := windowOf s w
  let c := (tickOf s w).toNat
  decide (x.1 ≤ c ∧ c < x.1 + x.2)

/-! ### The flit -/

/-- CRC-32 of IEEE 802.3 over a byte string (R434). -/
def flitCrc (bs : List Byte) : Nat := crcOf 0xEDB88320 bs

/-- The bytes of a flit with its CRC field taken as 0 (R434). -/
def flitCrcInput (x : Nat) : List Byte := leBytes 256 (x - bits x 127 96 * 2 ^ 96)

/-- A flit with the CRC that fits its other bits (R434). -/
def withCrc (x : Nat) : Flit := BitVec.ofNat 2048 (x - bits x 127 96 * 2 ^ 96 + flitCrc (flitCrcInput x) * 2 ^ 96)

/-- Field of a flit's header (R432). -/
def flitField (x : Flit) (hi lo : Nat) : Nat := bits x.toNat hi lo

/-- Whether a flit's CRC matches (R434). -/
def crcGood (x : Flit) : Bool := flitCrc (flitCrcInput x.toNat) == flitField x 127 96

def fSeq (x : Flit) : BitVec 12 := BitVec.ofNat 12 (flitField x 95 84)
def fAck (x : Flit) : BitVec 12 := BitVec.ofNat 12 (flitField x 83 72)
def fType (x : Flit) : Nat := flitField x 71 68
def fClass (x : Flit) : Nat := flitField x 67 65
def fHseq (x : Flit) : Nat := flitField x 64 62
def fLen (x : Flit) : Nat := flitField x 61 54
def fCrClass (x : Flit) : Nat := flitField x 53 51
def fCrTotal (x : Flit) : Nat := flitField x 50 39
def fNak (x : Flit) : Bool := bit x.toNat 22
def fAnswer (x : Flit) : BitVec 16 := BitVec.ofNat 16 (flitField x 38 23)

/-- Payload bytes in use. -/
def fPayload (x : Flit) : List Byte := leBytes (fLen x) (x.toNat / 2 ^ 128)

/-- Whether a TYPE is sequenced (R433). -/
def sequenced (type : Nat) : Bool := decide (2 ≤ type)

/-- Whether a flit's TYPE and fields are those of R433. -/
def flitPermitted (l : LinkEnd) (x : Flit) : Bool :=
  decide (fLen x ≤ 240) && (sequenced (fType x) || fSeq x == 0) && match fType x with
    | 0 => fAnswer x == 0 && fLen x == 0
    | 1 => fLen x == 32
    | 2 => fLen x == 64
    | 3 => true
    | 4 => fLen x == 32
    | 5 => true
    | 6 => true
    | 7 => fLen x == 0
    | 8 => isConcourse l
    | _ => false

/-- Credited classes of a link end and their buffers, in flits (R439). -/
def creditClasses (l : LinkEnd) : List (Nat × Nat) :=
  if isConcourse l then [(0, 256), (2, 64), (3, 256), (5, 128), (6, 256), (7, 16)] else [(0, 512), (2, 64), (3, 448)]

/-- Whether flits of a class need a credit (R439). -/
def credited (cls : Nat) : Bool := cls != 1 && cls != 4

/-- The flit a link end sends now with given contents: ACK = x − 1 and the credit total of the class whose turn it is
(R432, R436, R439). -/
def encodeFlit (s : State) (l : LinkEnd) (seq : BitVec 12) (nak : Bool) (b : FlitBody) : Flit :=
  let k := linkOf s l
  let cr := (nth (0, 0) (creditClasses l) (k.crTurn % (creditClasses l).length)).1
  withCrc (packN 2048 [(leNat b.payload, 128), (seq.toNat, 84), ((k.expected - 1).toNat, 72), (b.type, 68), (b.cls, 65),
    (b.hseq % 8, 62), (b.payload.length, 54), (cr, 51), (Table.get 0 k.crGiven cr % 4096, 39), (b.answer.toNat, 23),
    (b2n nak, 22)]).toNat

/-- Put a flit's bits on a link (R460). -/
def putImage (s : State) (l : LinkEnd) (x : Flit) : State :=
  countLink { s with flitOut := s.flitOut ++ [(l, x)] } l 0x00 0x0900

/-- Put a new flit on a link; the turn of the credit totals moves on. -/
def putNew (s : State) (l : LinkEnd) (x : Flit) : State :=
  putImage (s.modLink l fun k => { k with crTurn := (k.crTurn + 1) % (creditClasses l).length }) l x

/-- Put an unsequenced flit on a link: IDLE or TRAIN (R433). -/
def putPlain (s : State) (l : LinkEnd) (nak : Bool) (b : FlitBody) : State := putNew s l (encodeFlit s l 0 nak b)

/-- Put an IDLE flit on a link. -/
def putIdle (s : State) (l : LinkEnd) : State := putPlain s l false { type := 0, cls := 0 }

/-- A TIME flit's payload with its COUNT set at the flit's departure (R328, R437). -/
def stampCount (s : State) (l : LinkEnd) (payload : List Byte) : List Byte :=
  leBytes 32 (leNat payload % 2 ^ 192 + (tickOf s (endWing l)).toNat * 2 ^ 192)

/-- A beat that leaves carries the count at that instant (R328); a token's COUNT names its barrier (R335). -/
def stampBeat (s : State) (l : LinkEnd) (b : FlitBody) : FlitBody :=
  if b.type = 4 ∧ bits (leNat b.payload) 71 68 = 0 then { b with payload := stampCount s l b.payload } else b

/-! ### Sending -/

/-- Whether a window keeps a car header off a fabric link (R337). -/
def heldByWindow (s : State) (l : LinkEnd) (b : FlitBody) : Bool := b.type == 2 && !isConcourse l && inWindow s (endWing l)

/-- Whether a flit may leave now: the link is up, its class holds a credit, the replay buffer has room and no window keeps
it back (R337, R435, R439). -/
def mayLeave (s : State) (l : LinkEnd) (b : FlitBody) : Bool :=
  let k := linkOf s l
  linkUp s l && decide (k.replay.length < 1024) && (!credited b.cls || Table.get 0 k.credits b.cls != 0)
    && !heldByWindow s l b

/-- The last byte of a car has been sent (R347). -/
def carLeft (s : State) (w : Wing) (c : SentCar) : State :=
  addCtr (s.modCarSet w c.key fun x => x.modStep c.step fun y => { y with sends := Table.insert y.sends c.car .sent })
    (blkTt w) 0x0120

/-- What a flit takes with it as it begins: a header its HSEQ, and any flit the oldest answer that waits for one (R342,
R438). -/
def FlitBody.fill (k : Link) (b : FlitBody) : FlitBody :=
  let b := if b.type = 2 ∧ !b.resent then { b with hseq := k.nextHseq } else b
  if b.answer = 0 then { b with answer := k.answers.head?.getD 0 } else b

/-- The link layer after a flit has begun: SEQ, replay buffer, credit, answer and header number (R342, R435, R438,
R439). -/
def Link.after (k : Link) (old b : FlitBody) (x : Flit) : Link :=
  let header := match old.car with
    | some (c, _) => if old.type = 2 ∧ !old.resent then [⟨k.nextHseq, c⟩] else []
    | none => []
  { k with
    nextSeq := k.nextSeq + 1
    replay := k.replay ++ [{ seq := k.nextSeq, body := { b with resent := true }, image := x }]
    credits := if credited b.cls then Table.set 0 k.credits b.cls (Table.get 0 k.credits b.cls - 1) else k.credits
    answers := if old.answer = 0 then k.answers.drop 1 else k.answers
    nextHseq := (k.nextHseq + header.length) % 8
    unanswered := k.unanswered ++ header }

/-- A sequenced flit leaves: it takes the next SEQ and is kept for replay (R435). -/
def sendSequenced (s : State) (l : LinkEnd) (b : FlitBody) : State :=
  let k := linkOf s l
  let b' := stampBeat s l (b.fill k)
  let x := encodeFlit s l k.nextSeq false b'
  let s := putNew (s.modLink l fun k => k.after b b' x) l x
  match b.type, b.car with
  | 3, some (c, true) => if b.resent then s else carLeft s (endWing l) c
  | _, _ => s

/-- With the replay buffer full the link sends IDLE flits until an ACK frees space; one stands for them (R435, assumption
log 138). -/
def idleIfFull (s : State) (l : LinkEnd) : State :=
  if linkUp s l && decide (1024 ≤ (linkOf s l).replay.length) then putIdle s l else s

/-- Offer a sequenced flit to its link: it leaves at once, or waits; flits of one class stay in order, but those behind
headers that a window keeps back pass them (R337, R439). A link that has discarded its state sends nothing. -/
def offerFlit (s : State) (l : LinkEnd) (b : FlitBody) : State :=
  if mayLeave s l b && !(linkOf s l).waiting.any fun x => x.cls == b.cls && !heldByWindow s l x then sendSequenced s l b
  else if linkUp s l || linkKept s l then s.modLink l fun k => { k with waiting := k.waiting ++ [b] }
  else s

/-- Send a sequenced flit. -/
def sendFlit (s : State) (l : LinkEnd) (b : FlitBody) : State := idleIfFull (offerFlit s l b) l

/-- ANSWER flits for the answers that no flit could take, with their number for fuel (R438). -/
def sendAnswers (l : LinkEnd) : Nat → State → State
  | 0, s => s
  | f + 1, s =>
    let b : FlitBody := { type := 7, cls := 4 }
    if !(linkOf s l).answers.isEmpty && mayLeave s l b then sendAnswers l f (sendSequenced s l b) else s

/-- Let the waiting flits leave that now may, oldest first, and then the answers left over. -/
def drainLink (s : State) (l : LinkEnd) : State :=
  let s := ((linkOf s l).waiting).foldl (fun s b => offerFlit s l b) (s.modLink l fun k => { k with waiting := [] })
  idleIfFull (sendAnswers l (linkOf s l).answers.length s) l

/-- Send an unsequenced flit that asks for a replay (R436). -/
def sendNak (s : State) (l : LinkEnd) : State :=
  if (linkOf s l).nakOut then s
  else putPlain (s.modLink l fun k => { k with nakOut := true }) l true { type := 0, cls := 0 }

/-- Answer a car header (R342, R438): in the first sequenced flit that begins afterwards; none being ready, in an ANSWER
flit. What waits on a link is never ready, so that flit is the ANSWER flit while the link can send any. -/
def sendAnswer (s : State) (l : LinkEnd) (hseq : Nat) (reason : Nat) : State :=
  let a := if reason = 0 then 0x4000 + hseq % 8 * 2048 else 0x8000 + hseq % 8 * 2048 + reason
  let s := if linkUp s l || linkKept s l then s.modLink l fun k => { k with answers := k.answers ++ [BitVec.ofNat 16 a] } else s
  idleIfFull (sendAnswers l (linkOf s l).answers.length s) l

/-- SEQ a is after SEQ b (R435). -/
def seqAfter (a b : BitVec 12) : Bool := decide (1 ≤ (a - b).toNat ∧ (a - b).toNat ≤ 2047)

/-- An ACK frees the flits it covers (R435). -/
def ackLink (s : State) (l : LinkEnd) (ack : BitVec 12) : State :=
  s.modLink l fun k => { k with replay := k.replay.filter fun x => seqAfter x.seq ack }

/-- The credit total of a received header (R439). -/
def takeCredits (s : State) (l : LinkEnd) (cls total : Nat) : State :=
  if (creditClasses l).any fun c => c.1 == cls then
    s.modLink l fun k =>
      { k with
        credits := Table.set 0 k.credits cls (Table.get 0 k.credits cls + (total + 4096 - Table.get 0 k.crSeen cls % 4096) % 4096)
        crSeen := Table.set 0 k.crSeen cls total }
  else s

/-- A fresh link, its credits set from the buffer sizes (R446). -/
def freshLink (l : LinkEnd) : Link :=
  { credits := (creditClasses l).foldl (fun t c => Table.set 0 t c.1 c.2) [] }

/-! ### Trunks -/

/-- NODE and WING of a port's partner (R458). -/
def peerOf (x : Port) : Nat × Nat := (fld x.peer 31 16, fld x.peer 8 8)

/-- The Up ports of a wing, ascending. -/
def upPorts (s : State) (w : Wing) : List (Fin 6) := (List.finRange 6).filter fun p => linkUp s (.port w p)

/-- The trunk of a port: the four lowest Up ports of its wing with the same partner (R448). -/
def trunkOf (s : State) (w : Wing) (p : Fin 6) : List (Fin 6) :=
  ((upPorts s w).filter fun q => peerOf (portOf s w q.val) == peerOf (portOf s w p.val)).take 4

/-- Ports of a mask that a ring link uses: those of the trunk of the mask's lowest Up port (R449). -/
def trunkIn (s : State) (w : Wing) (mask : Nat) : List (Fin 6) :=
  match (upPorts s w).filter fun q => bit mask q.val with
  | [] => []
  | p :: _ => (trunkOf s w p).filter fun q => bit mask q.val

/-! ### The ring -/

/-- RING_SIZE in force (R321). -/
def ringStops (s : State) : Nat := dictVal s 0x4000 0

/-- Stop number of a wing (R321). -/
def stopNum (s : State) (w : Wing) : Nat := dictVal s 0x4001 0 + wingNum w

/-- Whether the ring link to a neighbour is the Concourse (R322). -/
def ringByConcourse (s : State) (w : Wing) (n : Neighbour) : Bool :=
  decide (ringStops s = 2) || (match w, n with
    | .east, .successor => true
    | .west, .predecessor => true
    | _, _ => false)

/-- Port mask towards a neighbour (R322, R323). -/
def ringMask (s : State) (w : Wing) : Nat :=
  (match w with
    | .east => dictVal s 0x4003 0
    | .west => dictVal s 0x4002 0) % 64

/-- Link ends that lead to a neighbour and carry traffic, the lead first (R322, R449). -/
def ringEnds (s : State) (w : Wing) (n : Neighbour) : List LinkEnd :=
  if ringByConcourse s w n then (if concourseUp s then [.concourse w] else [])
  else (trunkIn s w (ringMask s w)).map fun p => .port w p

/-- Whether the ring link to a neighbour is up. -/
def ringUp (s : State) (w : Wing) (n : Neighbour) : Bool := !(ringEnds s w n).isEmpty

/-- One-way latency in ps of the ring link to a neighbour: the Concourse's is fixed, a trunk's is its lead port's (R443,
R449, R452); 0 while the link is not up. -/
def ringLat (s : State) (w : Wing) (n : Neighbour) : Nat :=
  match ringEnds s w n with
  | [] => 0
  | .port w p :: _ => (portOf s w p.val).lat.toNat
  | .concourse _ :: _ => 38400

/-- Whether a received header's link end is the ring link from the predecessor. -/
def fromPredecessor (s : State) (w : Wing) (l : LinkEnd) : Bool := (ringEnds s w .predecessor).contains l

/-- Send a beat or barrier token on the lead port towards a neighbour (R449). -/
def sendTime (s : State) (w : Wing) (n : Neighbour) (x : BitVec 256) : State :=
  match ringEnds s w n with
  | [] => s
  | l :: _ => sendFlit s l { type := 4, cls := 1, payload := leBytes 32 x.toNat }

end Sys2Proof.Machine
end

