-- ==== Sys2Proof/Machine/Timetable.lean ====
section
/-!
DEFINITION. The Timetable of each wing (R321 to R337): the count, beats, lock, sources, barrier tokens and
reconfiguration windows.
-/

namespace Sys2Proof.Machine

/-! ### Configuration -/

/-- TT_MODE is barrier mode (R334). -/
def barrierMode (s : State) : Bool := dictVal s 0x4010 0 == 1

/-- Tick period in ps (R325). -/
def tickPs (s : State) : Nat := 1000 * dictVal s 0x4011 0

/-- Whether a stop's own ring configuration is consistent (R324). -/
def ringConfigOk (s : State) : Bool :=
  let next := popcount 8 (dictVal s 0x4002 0)
  let prev := popcount 8 (dictVal s 0x4003 0)
  decide (dictVal s 0x4001 0 < ringStops s) &&
    (if ringStops s = 2 then next == 0 && prev == 0
     else decide (1 ≤ next ∧ next ≤ 4 ∧ 1 ≤ prev ∧ prev ≤ 4))

/-- Whether a stop is consistent (R324). -/
def Timetable.consistent (t : Timetable) : Bool := !t.ownBad && !t.beatBad

/-- Whether a Timetable is locked; holdover counts (R330). -/
def Timetable.isLocked (t : Timetable) : Bool := t.lock == .locked || t.lock == .holdover

/-- Whether a wing's Timetable takes part: the counter runs and SHUNT has been reached (R333, R532). -/
def ttActive (s : State) (w : Wing) : Bool := mainUp s && (s.tt.get w).running

/-- Raise a Timetable event (R361, R564). -/
def raiseTt (s : State) (w : Wing) (ev : Nat) : State := raise s ev (stopNum s w) (blkTt w)

/-! ### Beats and tokens (R328) -/

def btCount (x : BitVec 256) : Nat := bits x.toNat 255 192
def btWinStart (x : BitVec 256) : Nat := bits x.toNat 191 128
def btWinTicks (x : BitVec 256) : Nat := bits x.toNat 127 96
def btSender (x : BitVec 256) : Nat := bits x.toNat 95 88
def btHops (x : BitVec 256) : Nat := bits x.toNat 87 80
def btSize (x : BitVec 256) : Nat := bits x.toNat 79 72
def btKind (x : BitVec 256) : Nat := bits x.toNat 71 68
def btTick (x : BitVec 256) : Nat := bits x.toNat 67 65
def btMode (x : BitVec 256) : Nat := bits x.toNat 64 64

/-- A beat or token as this wing sends it now (R328). -/
def makeBeat (s : State) (w : Wing) (kind count hops : Nat) : BitVec 256 :=
  let x := windowOf s w
  packN 256 [(count, 192), (x.1, 128), (x.2, 96), (stopNum s w % 256, 88), (min hops 255, 80),
    ((ringStops s - 1) % 256, 72), (kind, 68), (flog2 (dictVal s 0x4011 0 / 128), 65), (dictVal s 0x4010 0, 64)]

/-- Whether a received beat or token agrees with the stop (R324). -/
def beatAgrees (s : State) (w : Wing) (n : Neighbour) (x : BitVec 256) : Bool :=
  btSize x + 1 == ringStops s && btMode x == dictVal s 0x4010 0 && 128 * 2 ^ btTick x == dictVal s 0x4011 0
    && (n == .successor || btSender x == (stopNum s w + ringStops s - 1) % ringStops s)

/-- Learn the window that a beat or token announces (R337). -/
def learnWindow (s : State) (w : Wing) (x : BitVec 256) : State :=
  s.modTt w fun t => { t with winStart := BitVec.ofNat 64 (btWinStart x), winTicks := BitVec.ofNat 32 (btWinTicks x) }

/-! ### The count -/

/-- Move the count forward; it never decreases, and EV_TT_END marks its end (R326). -/
def moveCount (s : State) (w : Wing) (c slot frac : Nat) : State :=
  let old := (tickOf s w).toNat
  let new := min (2 ^ 64 - 1) (max old c)
  let s := s.modTt w fun t => { t with count := BitVec.ofNat 64 new, slot := slot % 16, frac := frac % 256 }
  if old < 2 ^ 64 - 1 ∧ new = 2 ^ 64 - 1 then raiseTt s w 0x0303 else s

/-! ### Lock -/

/-- Fall to a state without a source (R324, R330). -/
def dropLock (s : State) (w : Wing) (l : Lock) : State :=
  s.modTt w fun t =>
    { t with lock := l, source := false, follow := none, hops := 0xFF, goodBeats := 0, farBeats := 0, stepped := false
             hold := 0, ahead := false, rate := 0, listenFrom := none, arriveHeld := none, barrier := false }

/-- Lose lock and begin acquiring again (R330). -/
def loseLock (s : State) (w : Wing) : State :=
  dropLock (raiseTt (addCtr s (blkTt w) 0x0110) w 0x0302) w .acquiring

/-- Become inconsistent: the Timetable goes down, and a locked stop loses lock (R324, R330, R336). A stop made so by a beat
keeps the neighbour it follows, whose next good beat clears it. -/
def becomeBad (s : State) (w : Wing) (own : Bool) (n : Neighbour) : State :=
  let t := s.tt.get w
  let s := if t.consistent then raiseTt s w 0x0304 else s
  let s := if t.isLocked then raiseTt (addCtr s (blkTt w) 0x0110) w 0x0302 else s
  let s := dropLock s w .down
  s.modTt w fun x =>
    if own then { x with ownBad := true } else { x with beatBad := true, follow := some (t.follow.getD n) }

/-- The check of R324 on leaving SHUNT, and, where the configuration is corrected, the end of the stop's own
inconsistency. -/
def checkRing (s : State) (w : Wing) : State :=
  if ringConfigOk s then
    s.modTt w fun t =>
      { t with ownBad := false, lock := if t.ownBad && !t.beatBad && t.lock == .down then .acquiring else t.lock }
  else if (s.tt.get w).ownBad then s
  else becomeBad s w true .predecessor

/-- Entering SHUNT, a consistent stop begins to acquire (R354). -/
def startAcquiring (s : State) (w : Wing) : State :=
  s.modTt w fun t => if t.consistent && t.lock == .down then { t with lock := .acquiring } else t

/-- Whether a ring link is lost altogether: neither up nor keeping its state (R336). -/
def ringLost (s : State) (w : Wing) (n : Neighbour) : Bool :=
  if ringByConcourse s w n then s.cc.state == .down
  else (List.finRange 6).all fun p => !bit (ringMask s w) p.val || !(linkUp s (.port w p) || linkKept s (.port w p))

/-- What a change of a link does to a wing's Timetable: beats over a link that is not up are forgotten, a locked stop in
barrier mode loses lock with a ring link, a follower whose link is gone is in holdover, and a listening master starts
afresh (R327, R336, R455). -/
def linkChangedAt (s : State) (w : Wing) : State :=
  let upP := ringUp s w .predecessor
  let upS := ringUp s w .successor
  let s := s.modTt w fun t =>
    { t with
      beatP := if upP then t.beatP else none
      beatS := if upS then t.beatS else none
      listenFrom := if upP && upS then t.listenFrom else none }
  let t := s.tt.get w
  if barrierMode s then
    if t.isLocked && (ringLost s w .predecessor || ringLost s w .successor) then loseLock s w else s
  else if t.lock == .locked && !t.source && ((t.follow == some .predecessor && !upP) || (t.follow == some .successor && !upS)) then
    s.modTt w fun t => { t with lock := .holdover }
  else s

/-- A link of the module has changed. -/
def linkChanged (s : State) : State := linkChangedAt (linkChangedAt s .east) .west

/-- Whether a wing is the master's (R327). -/
def isMaster (s : State) (w : Wing) : Bool := w == .east && dictVal s 0x4012 0 == 1

/-- A wing becomes the source of beats or tokens (R327, R332). -/
def becomeSource (s : State) (w : Wing) (c ev : Nat) : State :=
  let t := s.tt.get w
  let s := if (tickOf s w).toNat < c then moveCount s w c 0 0 else moveCount s w 0 t.slot t.frac
  raiseTt (s.modTt w fun t =>
    { t with lock := .locked, source := true, follow := none, hops := 0, listenFrom := none, hold := 0, ahead := false
             lastBarrier := t.localTicks, barrier := false, arriveHeld := none }) w ev

/-! ### TIMETABLE_TICK -/

/-- The listening period of a master begins once both ring links are up (R327). -/
def noteListening (s : State) (w : Wing) : State :=
  let t := s.tt.get w
  if isMaster s w && t.lock == .acquiring && t.listenFrom.isNone && ringUp s w .predecessor && ringUp s w .successor then
    s.modTt w fun t => { t with listenFrom := some t.localTicks }
  else s

/-- Local time goes on by one tick: the timers of R330, R334 and R337. -/
def passTick (s : State) (w : Wing) : State :=
  let out := !inWindow s w
  let s := s.modTt w fun t =>
    { t with localTicks := t.localTicks + 1, openTicks := t.openTicks + b2n out, sinceBeat := t.sinceBeat + b2n out }
  let b := barrierMode s
  s.modTt w fun t =>
    if !b && t.lock == .locked && !t.source && decide (1024 < t.sinceBeat) then { t with lock := .holdover } else t

/-- TIMETABLE_TICK (R325, R326, R333, R334): in beat mode the count advances by one unless it is held (R330); in barrier
mode only the local timer does. What waits at the tick is noted, for a wait of a whole tick blocks a stage (R210). -/
def execTimetableTick (w : Wing) (s : State) : Host.Outcome State Fault Refusal :=
  .next (if !(s.tt.get w).running then s
    else
      let s := passTick s w
      let t := s.tt.get w
      let s := if barrierMode s then s
        else if t.hold ≠ 0 then s.modTt w fun t => { t with hold := t.hold - 1 }
        else moveCount s w (t.count.toNat + 1) 0 0
      refreshBlocked (if mainUp s then noteListening s w else s) w)

/-! ### Beats -/

/-- Whether a wing emits a beat now (R328). -/
def mayEmit (s : State) (w : Wing) : Bool :=
  let t := s.tt.get w
  ttActive s w && !barrierMode s && t.consistent && t.isLocked && t.count.toNat % 1024 == 0
    && t.emitted != some t.count.toNat

/-- BEAT_EMIT (R328): a source emits on both ring links, a follower on the link away from its own beats. At RING_SIZE 2
both ring links are the Concourse, and a source sends one beat for each. -/
def execBeatEmit (w : Wing) (s : State) : Host.Outcome State Fault Refusal :=
  .next (if !mayEmit s w then s
    else
      let t := s.tt.get w
      let x := makeBeat s w 0 t.count.toNat t.hops.toNat
      let s := s.modTt w fun t => { t with emitted := some t.count.toNat }
      if t.source then
        sendTime (sendTime s w .successor x) w .predecessor x
      else if t.follow = some .successor then sendTime s w .predecessor x
      else sendTime s w .successor x)

/-- The neighbour a stop follows: the lower HOPS of the beats no older than 4 beat intervals, the predecessor at a tie
(R329). -/
def chosenNeighbour (t : Timetable) : Option Neighbour :=
  let fresh (b : Option (Nat × Nat)) : Option Nat := b.bind fun x => if t.localTicks ≤ x.2 + 4096 then some x.1 else none
  match fresh t.beatP, fresh t.beatS with
  | some p, some n => if n < p then some .successor else some .predecessor
  | some _, none => some .predecessor
  | none, some _ => some .successor
  | none, none => none

/-- Expected count of a beat on arrival, in 2^-8 slot, rounded down (R329). -/
def expectedAt (s : State) (w : Wing) (n : Neighbour) (x : BitVec 256) : Nat :=
  4096 * btCount x + 4096 * ringLat s w n / tickPs s

/-- The error E of a beat, in ps × 4,096 (R329): exact, the local count taken with the slot and fraction sampled at the
beat's first byte. -/
def beatError (s : State) (w : Wing) (n : Neighbour) (x : BitVec 256) (slot frac : Nat) : Int :=
  ((4096 * btCount x : Nat) - (4096 * (tickOf s w).toNat + 256 * slot + frac : Nat) : Int) * tickPs s + (4096 * ringLat s w n : Nat)

/-- E in 2^-8 slot as TT_ERROR shows it, saturating (R358). -/
def errorImage (e : Int) : Word32 := BitVec.ofNat 32 (wrap 32 (max (-(2 ^ 31 : Nat)) (min (2 ^ 31 - 1 : Nat) e)))

/-- The first beat of a source: the count steps forward to it or stands until it is reached (R330). The caller has ruled
out a count ahead by more than 2^24 ticks. -/
def stepToBeat (s : State) (w : Wing) (n : Neighbour) (x : BitVec 256) (e : Int) (slot frac : Nat) : State :=
  let s := if 0 ≤ e then
      (let u := expectedAt s w n x
       moveCount s w (u / 4096) (u / 256) u)
    else s.modTt w fun t => { t with slot := slot, frac := frac, hold := ((-e).toNat / 4096) / tickPs s }
  s.modTt w fun t => { t with stepped := true }

/-- A beat of the followed neighbour once the count has been set: good or not, it acquires, keeps or loses lock, and a
locked stop changes its rate by at most 1 slot per beat (R329, R330). -/
def judgeBeat (s : State) (w : Wing) (x : BitVec 256) (e : Int) : State :=
  let good := decide (e.natAbs ≤ 2000 * 4096)
  let far := decide (8000 * 4096 < e.natAbs)
  let s := if good then s else addCtr s (blkTt w) 0x0108
  let units := e / (tickPs s : Int)
  let hops := BitVec.ofNat 8 (min 255 (btHops x + 1))
  if (s.tt.get w).isLocked then
    let s := s.modTt w fun t =>
      { t with lock := .locked, hops := hops, farBeats := if far then t.farBeats + 1 else 0
               rate := max (-256) (min 256 units) }
    if 2 ≤ (s.tt.get w).farBeats then loseLock s w else s
  else
    let s := s.modTt w fun t => { t with goodBeats := if good then t.goodBeats + 1 else 0 }
    if dictVal s 0x4015 0 ≤ (s.tt.get w).goodBeats then
      raiseTt (s.modTt w fun t => { t with lock := .locked, hops := hops, farBeats := 0, rate := 0 }) w 0x0301
    else s

/-- A beat that passed the checks of R324, from the neighbour the stop follows. -/
def followBeat (s : State) (w : Wing) (n : Neighbour) (x : BitVec 256) (slot frac : Nat) : State :=
  let s := addCtr s (blkTt w) 0x0100
  let e := beatError s w n x slot frac
  let tooFar := !(s.tt.get w).stepped && !(s.tt.get w).isLocked && decide ((2 ^ 24 * 4096 * tickPs s : Nat) < -e)
  if tooFar then (if (s.tt.get w).beatBad then s else becomeBad s w false n)
  else
    let s := s.modTt w fun t =>
      { t with beatBad := false, lock := if t.lock = .down then .acquiring else t.lock, follow := some n
               sinceBeat := 0, listenFrom := none, ttError := errorImage (e / (tickPs s : Int)) }
    let s := learnWindow s w x
    let t := s.tt.get w
    let s := if t.isLocked || t.stepped then s else stepToBeat s w n x e slot frac
    judgeBeat s w x e

/-- Two sources meet: that of the higher stop number yields and acquires the other's beats; the other stays (R333). -/
def yieldSource (s : State) (w : Wing) : State :=
  dropLock (raiseTt (addCtr s (blkTt w) 0x0110) w 0x0304) w .acquiring

/-- Keep the record of a neighbour's last beat. -/
def recordBeat (s : State) (w : Wing) (n : Neighbour) (hops : Nat) : State :=
  s.modTt w fun t =>
    match n with
    | .predecessor => { t with beatP := some (hops, t.localTicks) }
    | .successor => { t with beatS := some (hops, t.localTicks) }

/-- Whether a source yields to another whose beat arrives with HOPS 0 (R333). -/
def mustYield (s : State) (w : Wing) (x : BitVec 256) : Bool :=
  (s.tt.get w).source && btHops x == 0 && decide (btSender x < stopNum s w)

/-- Count a beat that disagrees, where it comes from the neighbour the stop follows (R360). -/
def countFollowed (s : State) (w : Wing) (n : Neighbour) : State :=
  if (s.tt.get w).follow = some n then addCtr s (blkTt w) 0x0100 else s

/-- A beat at a stop that takes part (R324, R329, R330, R333). -/
def receiveBeat (s : State) (w : Wing) (n : Neighbour) (x : BitVec 256) (slot frac : Nat) : State :=
  if !beatAgrees s w n x then becomeBad (countFollowed s w n) w false n
  else if !ringConfigOk s && !(s.tt.get w).ownBad then becomeBad (countFollowed s w n) w true n
  else if (s.tt.get w).ownBad || ((s.tt.get w).beatBad && (s.tt.get w).follow != some n) then s
  else
    let s := recordBeat s w n (btHops x)
    let s := if mustYield s w x then yieldSource s w else s
    if (s.tt.get w).source || chosenNeighbour (s.tt.get w) != some n then s else followBeat s w n x slot frac

/-- BEAT_RECEIVE. -/
def execBeatReceive (w : Wing) (from_ : Neighbour) (beat : BitVec 256) (slot : Fin 16) (frac : BitVec 8) (s : State) :
    Host.Outcome State Fault Refusal :=
  .next (if ttActive s w && ringUp s w from_ && btKind beat == 0 then receiveBeat s w from_ beat slot.val frac.toNat else s)

/-- MASTER_LISTEN_EXPIRY (R327, R336). -/
def execMasterListenExpiry (s : State) : Host.Outcome State Fault Refusal :=
  let t := s.tt.east
  .next (match t.listenFrom with
    | some a =>
      if ttActive s .east && isMaster s .east && t.lock == .acquiring && t.consistent && decide (a + 4096 ≤ t.localTicks)
          && ringUp s .east .predecessor && ringUp s .east .successor then
        becomeSource s .east (dictVal s 0x4014 0) 0x0301
      else s
    | none => s)

/-- BEAT_LOSS_TIMEOUT (R330). -/
def execBeatLossTimeout (w : Wing) (s : State) : Host.Outcome State Fault Refusal :=
  let t := s.tt.get w
  .next (if ttActive s w && !barrierMode s && t.isLocked && !t.source && decide (4096 ≤ t.sinceBeat) then loseLock s w else s)

/-- BACKUP_TAKEOVER (R332, R336): three beat intervals, or three barrier intervals of at least one local tick each. -/
def execBackupTakeover (s : State) : Host.Outcome State Fault Refusal :=
  let t := s.tt.east
  .next (if ttActive s .east && dictVal s 0x4013 0 == 1 && t.isLocked && !t.source && t.consistent
        && decide ((if barrierMode s then 3 else 3072) ≤ t.sinceBeat) then becomeSource s .east 0 0x0305
    else s)

/-! ### Barriers -/

/-- Whether every send of step k has been admitted and sent (R335, R350). -/
def sendsDone (c : CarSet) (k : Nat) : Bool :=
  match stepCars c k with
  | none => false
  | some n => (List.range (max 1 n)).all fun j => Table.find (c.step k).sends j == some .sent

/-- Whether the buffer of step k can be opened for receipt (R348). -/
def bufferFree (c : CarSet) (k : Nat) : Bool := decide (k ≤ 2) || (c.step (k - 2)).free

/-- Whether a car set lets the arrive token pass at a count (R335). -/
def carSetReady (c : CarSet) (count : Nat) : Bool :=
  let d := c.desc
  let k := (count - csFirstTick d) / max 1 (csFrameTicks d)
  !c.running || decide (count < csFirstTick d) ||
    ((decide (csSteps d ≤ k + 1) || sendsDone c k)
      && (decide (csSteps d ≤ k + 1) || !bufferFree c (k + 1) || stepClosed c (k + 1)))

/-- Whether a stop is ready (R335). -/
def stopReady (s : State) (w : Wing) : Bool := (s.carSets.get w).all fun c => carSetReady c (tickOf s w).toNat

/-- Forward a token to the successor. -/
def forwardToken (s : State) (w : Wing) (x : BitVec 256) : State :=
  sendTime s w .successor (makeBeat s w (btKind x) (btCount x) (btHops x + 1))

/-- Forward a held arrive token once the stop is ready (R335). -/
def settleArrive (s : State) (w : Wing) : State :=
  match (s.tt.get w).arriveHeld with
  | none => s
  | some x => if stopReady s w then forwardToken (s.modTt w fun t => { t with arriveHeld := none }) w x else s

/-- BARRIER_START (R335): the master's own readiness is asked before it sends. -/
def execBarrierStart (s : State) : Host.Outcome State Fault Refusal :=
  let t := s.tt.east
  .next (if ttActive s .east && barrierMode s && t.source && t.consistent && !t.barrier
        && decide (t.lastBarrier + 1 ≤ t.localTicks) && ringUp s .east .successor && stopReady s .east then
      sendTime (s.modTt .east fun t => { t with barrier := true }) .east .successor (makeBeat s .east 1 t.count.toNat 0)
    else s)

/-- Stop that made a token: HOPS + 1 stops back from the one it reaches (R328, R335). -/
def tokenMaker (s : State) (w : Wing) (x : BitVec 256) : Nat := (stopNum s w + 256 * ringStops s - btHops x - 1) % ringStops s

/-- Whether a master yields to another whose token has come to it (R333). -/
def mustYieldToken (s : State) (w : Wing) (x : BitVec 256) : Bool :=
  (s.tt.get w).source && decide (tokenMaker s w x < stopNum s w)

/-- The checks that a token from the predecessor meets (R324, R333): the state after them, and whether the stop goes on
with the token. A master goes on with its own alone. -/
def checkToken (s : State) (w : Wing) (x : BitVec 256) : State × Bool :=
  if !beatAgrees s w .predecessor x then (becomeBad s w false .predecessor, false)
  else if !ringConfigOk s && !(s.tt.get w).ownBad then (becomeBad s w true .predecessor, false)
  else if (s.tt.get w).ownBad || ((s.tt.get w).beatBad && (s.tt.get w).follow != some .predecessor) then (s, false)
  else
    let s := if mustYieldToken s w x then yieldSource s w else s
    if (s.tt.get w).source then (s, tokenMaker s w x == stopNum s w)
    else if (tickOf s w).toNat > btCount x + 2 ^ 24 then
      ((if (s.tt.get w).beatBad then s else becomeBad s w false .predecessor), false)
    else
      (learnWindow (s.modTt w fun t =>
        { t with beatBad := false, lock := if t.lock = .down then .acquiring else t.lock, follow := some .predecessor
                 sinceBeat := 0, listenFrom := none }) w x, true)

/-- Count a barrier advance at a stop (R335). -/
def advanceCount (s : State) (w : Wing) (c : Nat) : State :=
  if (tickOf s w).toNat < c then addCtr (moveCount s w c 0 0) (blkTt w) 0x0118 else s

/-- ARRIVE_TOKEN_RECEIVE (R335): the master advances its count when its token returns; every other stop forwards it once
ready. -/
def execArriveTokenReceive (w : Wing) (token : BitVec 256) (s : State) : Host.Outcome State Fault Refusal :=
  .next (if !(ttActive s w && barrierMode s && ringUp s w .predecessor && btKind token == 1) then s
    else match checkToken s w token with
      | (s, false) => s
      | (s, true) =>
        let t := s.tt.get w
        if t.source then
          if t.barrier && btCount token == t.count.toNat then
            (let s := advanceCount s w (btCount token + 1)
             sendTime s w .successor (makeBeat s w 2 (btCount token + 1) 0))
          else s
        else settleArrive (s.modTt w fun t => { t with arriveHeld := some token }) w)

/-- A stop that is not the source takes an advance token (R333, R335, R336). -/
def takeAdvance (s : State) (w : Wing) (c : Nat) : State :=
  let t := s.tt.get w
  let own := t.count.toNat
  if t.isLocked then advanceCount s w c
  else if own < c ∨ (own = c ∧ !t.ahead) then
    raiseTt ((advanceCount s w c).modTt w fun t => { t with lock := .locked, ahead := false }) w 0x0301
  else s.modTt w fun t => { t with ahead := decide (c < own) || t.ahead }

/-- ADVANCE_TOKEN_RECEIVE (R335): the barrier completes when the token returns to the master. -/
def execAdvanceTokenReceive (w : Wing) (token : BitVec 256) (s : State) : Host.Outcome State Fault Refusal :=
  .next (if !(ttActive s w && barrierMode s && ringUp s w .predecessor && btKind token == 2) then s
    else match checkToken s w token with
      | (s, false) => s
      | (s, true) =>
        let t := s.tt.get w
        if t.source then
          (if t.barrier && btCount token == t.count.toNat then
            s.modTt w fun t => { t with barrier := false, lastBarrier := t.localTicks } else s)
        else
          let s := takeAdvance s w (btCount token)
          let s := s.modTt w fun t => { t with hops := if t.isLocked then BitVec.ofNat 8 (min 255 (btHops token + 1)) else t.hops }
          forwardToken s w token)

/-! ### Windows -/

/-- RECONFIG_WINDOW_START (R337). -/
def execReconfigWindowStart (w : Wing) (s : State) : Host.Outcome State Fault Refusal :=
  .next (if inWindow s w then s.modTt w fun t => { t with window := true } else s)

/-- TT_STAT (R356): its Reset column until the counter runs (R333). -/
def ttStat (s : State) (w : Wing) : Word32 :=
  let t := s.tt.get w
  if !t.running then pack [(0xFF, 16)] else
  let lock := match t.lock with
    | .down => 0
    | .acquiring => 1
    | .locked => 2
    | .holdover => 3
  let src := if t.source then 3 else if t.lock = .down then 0 else match t.follow with
    | none => 0
    | some .predecessor => 1
    | some .successor => 2
  pack [(stopNum s w % 256, 24), (if t.isLocked then t.hops.toNat else 255, 16), ((ringStops s - 1) % 256, 8), (b2n !t.consistent, 7),
    (b2n (inWindow s w), 6), (b2n t.source, 5), (dictVal s 0x4010 0 % 2, 4), (src, 2), (lock, 0)]

end Sys2Proof.Machine
end

