-- ==== Sys2Proof/Machine/CarSet.lean ====
section
/-!
DEFINITION. Car sets at a stop (R338 to R354): starting and stopping, headers and answers, retries, bodies, steps, and
the chain tasks that compute on cars.
-/

namespace Sys2Proof.Machine

/-! ### Building headers (R341) -/

/-- A header's geometry fields, as the descriptor has them. -/
def geometryFields (d : Nat) (k : CarSetKey) : List (Nat × Nat) :=
  [(k.num.toNat, 464), (csHeads d, 410), (bits d 181 178, 406), (csFmt d, 404), (csDcode d, 402), (k.part.val, 398)]

/-- Header of own car j. -/
def ownHeader (s : State) (w : Wing) (c : CarSet) (j : Nat) : Entry :=
  packN 512 (geometryFields c.desc c.key ++
    [(ownFirst c.desc j % 2 ^ 32, 480), (j, 448), (stopNum s w % 256, 440), (1, 432), (ownValid c.desc j, 419),
     (b2n (j + 1 == ownCars c.desc), 395)])

/-- The empty marker of a stop without cars (R338). -/
def ownMarker (s : State) (w : Wing) (c : CarSet) : Entry :=
  packN 512 (geometryFields c.desc c.key ++
    [(csLocalPos c.desc, 480), (stopNum s w % 256, 440), (1, 432), (2, 396), (1, 395)])

/-- A received header forwarded, only STEP changed. -/
def forwardHeader (h : Entry) (step : Nat) : Entry :=
  BitVec.ofNat 512 (h.toNat - carStep h * 2 ^ 432 + step % 256 * 2 ^ 432)

/-- Header with which car j of step k is sent, a marker in place of the cars of an origin without any. -/
def headerFor (s : State) (w : Wing) (c : CarSet) (k j : Nat) : Option Entry :=
  if k = 0 then some (if ownCars c.desc = 0 then ownMarker s w c else ownHeader s w c j)
  else match (c.step k).empty with
    | some h => some (forwardHeader h (k + 1))
    | none => (Table.find (c.step k).received j).map fun h => forwardHeader h (k + 1)

/-- An abort notice of this stop (R340, R345). -/
def makeNotice (s : State) (w : Wing) (c : CarSet) (cause : Nat) : Entry :=
  packN 512 (geometryFields c.desc c.key ++ [(stopNum s w % 256, 440), (1, 396), (cause % 65536, 379)])

/-! ### Sending headers (R342, R347) -/

/-- Change the sending of car j of step k. -/
def CarSet.setSend (c : CarSet) (k j : Nat) (p : SendPhase) : CarSet :=
  c.modStep k fun x => { x with sends := Table.insert x.sends j p }

/-- Whether a wing may send car headers to its successor: none go out on a fabric link in a window (R337). -/
def maySendHeaders (s : State) (w : Wing) : Bool :=
  ringByConcourse s w .successor || !inWindow s w

/-- Payload bytes queued on a link end. -/
def queuedBytes (k : Link) : Nat := k.waiting.foldl (fun n b => n + b.payload.length) 0

/-- The member with the fewest bytes queued, the lower port at a tie (R449). -/
def leastQueued (s : State) : List LinkEnd → Option LinkEnd
  | [] => none
  | l :: ls =>
    match leastQueued s ls with
    | none => some l
    | some m => if queuedBytes (linkOf s m) < queuedBytes (linkOf s l) then some m else some l

/-- Headers given to a link and not yet answered, those that still wait to begin among them. -/
def openHeaders (k : Link) : Nat := k.unanswered.length + (k.waiting.filter fun b => b.type == 2 && !b.resent).length

/-- A member with fewer than 8 unanswered headers (R342). -/
def pickMember (s : State) (w : Wing) : Option LinkEnd :=
  leastQueued s ((ringEnds s w .successor).filter fun l => decide (openHeaders (linkOf s l) < 8))

/-- Send a header on a link end; it takes the next HSEQ as it begins. -/
def sendHeader (s : State) (l : LinkEnd) (c : SentCar) (h : Entry) : State :=
  sendFlit s l { type := 2, cls := 0, payload := leBytes 64 h.toNat, car := some (c, false) }

/-- Notices that can be sent now. -/
def readyNotices (s : State) (w : Wing) : List Notice :=
  (s.tt.get w).notices.filter fun n => match n.phase with
    | .ready _ _ => true
    | _ => false

/-- Whether sending has reached a phase in which the header may go out. -/
def SendPhase.isReady : SendPhase → Bool
  | .ready _ _ => true
  | _ => false

/-- Whether a header is out and not answered. -/
def SendPhase.isOffered : SendPhase → Bool
  | .offered _ _ => true
  | _ => false

/-- Whether a header that goes out now has been refused before (R344). -/
def SendPhase.wasRefused : SendPhase → Bool
  | .ready n _ => n != 0
  | _ => false

/-- Count a header that is resent after a refusal (R344, R360). -/
def countRetry (s : State) (w : Wing) (p : SendPhase) : State := if p.wasRefused then addCtr s (blkTt w) 0x0138 else s

/-- What a notice is on a link: its car set, the stop that began it, its cause. -/
def sentNotice (n : Notice) : SentCar := ⟨n.key, carOrigin n.header, carCause n.header, 1⟩

/-- Change the first element that satisfies a test. -/
def modifyFirst {α : Type} (p : α → Bool) (f : α → List α) : List α → List α
  | [] => []
  | x :: xs => if p x then f x ++ xs else x :: modifyFirst p f xs

/-- Change the oldest notice of an identity that is out and not answered; answers come in order (R342). -/
def modOffered (s : State) (w : Wing) (c : SentCar) (f : Notice → List Notice) : State :=
  s.modTt w fun t => { t with notices := modifyFirst (fun n => sentNotice n == c && n.phase.isOffered) f t.notices }

/-- The phase of a header just sent. -/
def SendPhase.offer : SendPhase → SendPhase
  | .ready n t => .offered n t
  | p => p

/-- Send one notice, if a member may take it. -/
def offerNotice (w : Wing) (s : State) (n : Notice) : State :=
  match pickMember s w with
  | none => s
  | some l =>
    let s := (countRetry s w n.phase).modTt w fun t =>
      { t with notices := modifyFirst (fun x => x == n) (fun x => [{ x with phase := x.phase.offer }]) t.notices }
    sendHeader s l (sentNotice n) n.header

/-- Cars of a car set whose headers can be sent now, in step and CAR_INDEX order: step, index, phase. -/
def readySends (c : CarSet) : List (Nat × Nat × SendPhase) :=
  if c.running then
    c.steps.foldr (fun k l => ((k.2.sends.filter fun x => x.2.isReady).map fun x => (k.1, x.1, x.2)) ++ l) []
  else []

/-- Send one car's header, if a member may take it. -/
def offerCar (w : Wing) (c : CarSet) (s : State) (x : Nat × Nat × SendPhase) : State :=
  match pickMember s w, headerFor s w c x.1 x.2.1 with
  | some l, some h =>
    let s := (countRetry s w x.2.2).modCarSet w c.key fun c => c.setSend x.1 x.2.1 x.2.2.offer
    sendHeader s l ⟨c.key, x.1, x.2.1, carKind h⟩ h
  | _, _ => s

/-- Send every header that may go out now, notices first; then forward an arrive token the stop no longer holds back
(R335, R347). -/
def pumpRing (s : State) (w : Wing) : State :=
  let s := if maySendHeaders s w then
      (let s := (readyNotices s w).foldl (offerNotice w) s
       (s.carSets.get w).foldl (fun s c => (readySends c).foldl (offerCar w c) s) s)
    else s
  settleArrive s w

/-- Queue a notice for the successor. -/
def queueNotice (s : State) (w : Wing) (k : CarSetKey) (h : Entry) : State :=
  pumpRing (s.modTt w fun t => { t with notices := t.notices ++ [{ key := k, header := h }] }) w

/-! ### Bound tasks, stops and failures -/

/-- Whether a task is bound to a car set of a wing (R351). -/
def boundTo (w : Wing) (k : CarSetKey) (t : Task) : Bool :=
  match t.work with
  | .chain _ => let b := parseChain t.body; b.src == 2 && t.wing == w && chainCarKey t b == k
  | _ => false

/-- Chain tasks bound to a car set end with a cause (R340, R345). -/
def stopBound (s : State) (w : Wing) (k : CarSetKey) (cause : Nat) : State :=
  (s.tasks.filter (boundTo w k)).foldl (fun s t => stopTask s t.id cause .ring 0 k.num.toNat) s

/-- Link ends of a wing. -/
def wingEnds (w : Wing) : List LinkEnd := .concourse w :: (List.finRange 6).map fun p => .port w p

/-- A car set stops sending: what of it has not begun on a link leaves the queues, but for its notices (R345). -/
def stopSending (s : State) (w : Wing) (k : CarSetKey) : State :=
  let mine (b : FlitBody) : Bool := match b.car with
    | some (c, _) => c.key == k && c.kind != 1 && !b.resent
    | none => false
  (wingEnds w).foldl (fun s l => s.modLink l fun x => { x with waiting := x.waiting.filter fun b => !mine b }) s

/-- Capture the first failure since the last FAIL_CLR (R359). -/
def captureCarFail (s : State) (w : Wing) (k : CarSetKey) (cause origin : Nat) (own : Bool) : State :=
  if flg (s.tt.get w).failInfo 31 then s
  else s.modTt w fun t =>
    { t with
      failInfo := pack [(1, 31), (b2n own, 28), (k.part.val, 24), (origin % 256, 16), (cause % 65536, 0)]
      failSet := pack [(k.num.toNat, 0)] }

/-- A car set fails at a stop: it stops sending, is reported and captured, and its bound tasks end (R345, R359). -/
def failCarSet (s : State) (w : Wing) (c : CarSet) (cause origin : Nat) (own : Bool) : State :=
  if !(c.phase == .armed || c.running) then s
  else
    let s := stopSending (s.modCarSet w c.key fun x => { x with phase := .failed (BitVec.ofNat 16 cause) }) w c.key
    let s := raise s 0x0306 c.key.num.toNat (blkTt w) c.key.part.val
    let s := captureCarFail s w c.key cause origin own
    let s := logCause s { wing := w, unit := .ring, cause := cause, part := c.key.part.val, detail := c.key.num.toNat }
    stopBound s w c.key cause

/-- A failure that begins at this stop, with its notice to the successor (R345). -/
def failHere (s : State) (w : Wing) (c : CarSet) (cause : Nat) (notice : Bool := true) : State :=
  if !(c.phase == .armed || c.running) then s
  else
    let s := failCarSet s w c cause (stopNum s w) true
    if notice then queueNotice s w c.key (makeNotice s w c cause) else pumpRing s w

/-- End a car set (R340): armed or running, its bound tasks end with 0x0307, and a notice goes round unless a reset ends
it (R483). -/
def endCarSet (s : State) (w : Wing) (c : CarSet) (notice : Bool) : State :=
  let live := c.phase == .armed || c.running
  let s := if live then stopBound s w c.key 0x0307 else s
  let s := stopSending { s with carSets := s.carSets.modify w fun l => l.filter fun x => x.key != c.key } w c.key
  if live && notice then queueNotice s w c.key (makeNotice s w c 0x0307) else pumpRing s w

/-! ### Starting and stopping -/

/-- Cause of a car set whose body cannot be read or stored: of those that R359 lists, 0x0306 where the Concourse is down,
else 0x0303 (DESIGN CHOICE, assumption log 137: the manual names none). -/
def bodyCause (e : AccErr) : Nat := if e.cause = 0x0306 then 0x0306 else 0x0303

/-- A car body cannot be read or stored: the access is reported with its own cause, and the car set fails. -/
def failBody (s : State) (w : Wing) (c : CarSet) (e : AccErr) : State :=
  let s := failAcc s .task c.key.part.val e
  let s := if e.phys then s
    else logCause s { wing := w, unit := .ring, cause := e.cause, part := c.key.part.val, addr := e.addr, detail := c.key.num.toNat }
  failHere s w c (bodyCause e)

/-- Context in which a wing's ring unit reads and writes a partition's memory. -/
def ringCtx (s : State) (w : Wing) (part : Nat) : Ctx :=
  { part := part, tile := tileIn w 0, copy := cfgAt s (tileIn w 0) }

/-- Ranges of a descriptor's fields and its reserved bits (R338, R339). -/
def carDescOk (s : State) (d : Nat) : Bool :=
  bits d 173 0 == 0 && csLocalVa d % 64 == 0 && csBufVa d % 64 == 0 && csBufBytes d % 64 == 0
    && decide (1 ≤ csFrameTicks d ∧ 1 ≤ csSteps d ∧ csSteps d ≤ ringStops s ∧ 1 ≤ csHeads d ∧ csHeads d ≤ 256)
    && decide (bits d 181 178 ≤ 8) && csDcode d != 3

/-- The other conditions of R339. -/
def carStartOk (s : State) (w : Wing) (k : CarSetKey) (d : Nat) : Bool :=
  decide (csLocalPos d + csLocalKeys d ≤ 2 ^ 32)
    && decide (csSendSlot d < 16 * csFrameTicks d ∧ csComputeSlot d < 16 * csFrameTicks d)
    && (!barrierMode s || (csFrameTicks d == 1 && csSendSlot d == 0 && csComputeSlot d == 0))
    && (csSteps d == 1 || decide (carBytes d ≤ csBufBytes d))
    && decide (ownCars d ≤ 65536) && decide ((tickOf s w).toNat < csFirstTick d)
    && (carSetOf s w k).isNone && decide ((s.carSets.get w).length < 64)

/-- Perform a car-set start (R338, R339). -/
def performCarStart (s : State) (o : Origin) (e : Entry) : State :=
  let w := wingOfNum (ent e 495 495)
  let k : CarSetKey := ⟨Fin.ofNat 16 (cmdPart e), BitVec.ofNat 16 (ent e 511 496)⟩
  let va := partVal s 0x8042 (cmdPart e) + 128 * k.num.toNat + 64 * wingNum w
  match loadNum s (ringCtx s w (cmdPart e)) va 64 with
  | (s, .error x) => answerCommand (failAcc s .task (cmdPart e) x) o e x.cause w .ring (if x.phys then 0 else x.addr) k.num.toNat
  | (s, .ok d) =>
    if carDescOk s d && carStartOk s w k d then
      answerCommand { s with carSets := s.carSets.modify w fun l => l ++ [{ key := k, desc := d }] } o e 0 w
    else answerCommand s o e 0x0305 w .ring va k.num.toNat

/-- CAR_SET_START (R338, R339). -/
def execCarSetStart (f : Func) (r : Fin 64) (s : State) : Host.Outcome State Fault Refusal :=
  .next (beginCommand s f r.val 6 performCarStart)

/-- Perform a car-set stop (R340). -/
def performCarStop (s : State) (o : Origin) (e : Entry) : State :=
  let w := wingOfNum (ent e 495 495)
  let k : CarSetKey := ⟨Fin.ofNat 16 (cmdPart e), BitVec.ofNat 16 (ent e 511 496)⟩
  let s := match carSetOf s w k with
    | none => s
    | some c => endCarSet s w c true
  answerCommand s o e 0 w

/-- CAR_SET_STOP (R340). -/
def execCarSetStop (f : Func) (r : Fin 64) (s : State) : Host.Outcome State Fault Refusal :=
  .next (beginCommand s f r.val 7 performCarStop)

/-! ### Slots of a frame -/

/-- Whether the count has come to the tick of a slot: the event itself says that the slot within it has come. -/
def slotCome (s : State) (w : Wing) (tick slot : Nat) : Bool :=
  decide (16 * tick + slot ≤ 16 * (tickOf s w).toNat + 15)

/-- The slot that an event names has come: the interpolated slot is at least it (R325). -/
def atSlot (s : State) (w : Wing) (tick slot : Nat) : State :=
  if 16 * (tickOf s w).toNat ≤ 16 * tick + slot then
    s.modTt w fun t => { t with slot := max t.slot ((16 * tick + slot) % 16) }
  else s

/-- CAR_SET_FIRST_TICK (R340). -/
def execCarSetFirstTick (w : Wing) (k : CarSetKey) (s : State) : Host.Outcome State Fault Refusal :=
  .next (match carSetOf s w k with
    | some c =>
      if c.phase == .armed && decide (csFirstTick c.desc ≤ (tickOf s w).toNat) then
        pumpRing (s.modCarSet w k fun c => { c with phase := .running }) w
      else s
    | none => s)

/-- Queue the header of car j of step k, unless it is already under way. -/
def CarSet.queueSend (c : CarSet) (k j : Nat) : CarSet :=
  if (Table.find (c.step k).sends j).isNone then c.setSend k j (.ready 0 none) else c

/-- Queue every car that step k holds, or its marker. -/
def CarSet.queueStep (c : CarSet) (k : Nat) : CarSet :=
  let c := c.modStep k fun x => { x with sending := true }
  if k = 0 then (List.range (max 1 (ownCars c.desc))).foldl (fun c j => c.queueSend 0 j) c
  else if (c.step k).empty.isSome then c.queueSend k 0
  else (c.step k).received.foldl (fun c x => c.queueSend k x.1) c

/-- CAR_SEND_SLOT (R347): the sends of step k begin. -/
def execCarSendSlot (w : Wing) (k : CarSetKey) (step : Nat) (s : State) : Host.Outcome State Fault Refusal :=
  .next (match carSetOf s w k with
    | some c =>
      let f := frameTick c.desc step
      if c.running && decide (step + 1 < csSteps c.desc) && slotCome s w f (csSendSlot c.desc) && !(c.step step).sending then
        pumpRing ((atSlot s w f (csSendSlot c.desc)).modCarSet w k fun c => c.queueStep step) w
      else s
    | none => s)

/-! ### Computing on cars -/

/-- One car of a bound chain task: the next one in its order, and the end of its parts with the last (R349, R352). -/
def computeCar (s : State) (t : Task) (x : ChainWork) (c : CarSet) (step car : Nat) : State :=
  let b := parseChain t.body
  let kc := argKcount t.hdr
  match heldCar c step car, carsBefore c step with
  | some ref, some before =>
    let n := before + car
    if x.carsDone < carsNeeded t b ∧ n = x.carsDone % kc then
      settleChain t.id t.part (match runCar t b ref n s (x, noFlags) with
        | (s, .error e) => (s, .error e)
        | (s, .ok r) => if r.1.carsDone = carsNeeded t b then completeParts t b s r else (s, .ok r))
    else s
  | _, _ => s

/-- CAR_COMPUTE_SLOT (R349): a bound chain task works on a car that the stop holds in full, once its frame's
COMPUTE_SLOT has come. -/
def execCarComputeSlot (w : Wing) (k : CarSetKey) (step : Nat) (car : BitVec 16) (id : Nat) (s : State) :
    Host.Outcome State Fault Refusal :=
  .next (orWait s fun s =>
    match carSetOf s w k, taskOf s id with
    | some c, some t =>
      let f := frameTick c.desc step
      if !(c.running && boundTo w k t && decide (step < csSteps c.desc) && slotCome s w f (csComputeSlot c.desc)) then s
      else match t.status, t.work with
        | .running, .chain x => computeCar (atSlot s w f (csComputeSlot c.desc)) t x c step car.toNat
        | _, _ => s
    | _, _ => s)

/-! ### Receiving headers (R343) -/

/-- Whether reason 0x01 applies. -/
def notTimetabled (s : State) (w : Wing) (l : LinkEnd) : Bool :=
  !stopLocked s w || !inService s || (!isConcourse l && inWindow s w)

/-- Conditions of reason 0x05 on a header and the receiver's descriptor. -/
def headerMismatch (s : State) (w : Wing) (c : CarSet) (h : Entry) : Bool :=
  let d := c.desc
  let k := carStep h
  let size := ringStops s
  ent h 378 0 != 0 || ent h 418 410 != csHeads d || ent h 409 406 != bits d 181 178 || ent h 405 404 != csFmt d
    || ent h 403 402 != csDcode d || decide (k = 0 ∨ csSteps d ≤ k) || stepClosed c k
    || carOrigin h != (stopNum s w + size - k % size) % size
    || (carKind h != 2 && decide (csBufBytes d < (carIndex h + 1) * carBytes d)) || carKind h == 3

/-- The reason for which a data header or a marker is refused; none admits it (R343). -/
def judgeHeader (s : State) (w : Wing) (l : LinkEnd) (h : Entry) : Option Nat :=
  if notTimetabled s w l then some 0x01
  else if !recEnabled (partRec (cfgAt s (tileIn w 0)) (carPart h)) then some 0x06
  else match carSetOf s w ⟨Fin.ofNat 16 (carPart h), BitVec.ofNat 16 (carSetNum h)⟩ with
    | none => some 0x05
    | some c =>
      if headerMismatch s w c h then some 0x05
      else match c.phase with
        | .failed _ => some 0x04
        | .armed => some 0x02
        | _ =>
          if !frameBegun s w c.desc (carStep h - 1) then some 0x02
          else if !bufferFree c (carStep h) then some 0x03
          else none

/-- Answer a header and count it (R344, R360). -/
def answerHeader (s : State) (w : Wing) (l : LinkEnd) (hseq : Nat) (reason : Option Nat) : State :=
  let s := addCtr s (blkTt w) (if reason.isSome then 0x0130 else 0x0128)
  sendAnswer s l hseq (reason.getD 0)

/-- The receiver keeps an admitted header; a marker closes its step and is forwarded in turn (R338, R348). -/
def admitHeader (s : State) (w : Wing) (h : Entry) : State :=
  let key : CarSetKey := ⟨Fin.ofNat 16 (carPart h), BitVec.ofNat 16 (carSetNum h)⟩
  let k := carStep h
  s.modCarSet w key fun c =>
    if carKind h = 2 then
      (let c := c.modStep k fun x => { x with empty := some h }
       if (c.step k).sending then c.queueSend k 0 else c)
    else c.modStep k fun x => { x with admitted := Table.insert x.admitted (carIndex h) h }

/-- CAR_HEADER_RECEIVE (R342, R343, R354). -/
def execCarHeaderReceive (w : Wing) (l : LinkEnd) (hseq : Fin 8) (header : Entry) (s : State) :
    Host.Outcome State Fault Refusal :=
  .next (if !fromPredecessor s w l || carKind header == 1 then s
    else
      let reason := judgeHeader s w l header
      let s := if reason.isNone then admitHeader s w header else s
      pumpRing (answerHeader s w l hseq.val reason) w)

/-- ABORT_NOTICE_RECEIVE (R343, R345): admitted unless reason 1 applies; the stop fails its own car set and forwards the
notice unless it began it. -/
def execAbortNoticeReceive (w : Wing) (l : LinkEnd) (hseq : Fin 8) (header : Entry) (s : State) :
    Host.Outcome State Fault Refusal :=
  .next (if !fromPredecessor s w l || carKind header != 1 then s
    else if notTimetabled s w l then answerHeader s w l hseq.val (some 0x01)
    else
      let key : CarSetKey := ⟨Fin.ofNat 16 (carPart header), BitVec.ofNat 16 (carSetNum header)⟩
      let s := answerHeader s w l hseq.val none
      let s := match carSetOf s w key with
        | some c => failCarSet s w c (carCause header) (carOrigin header) false
        | none => s
      if carOrigin header = stopNum s w then pumpRing s w else queueNotice s w key header)

/-! ### Answers (R344) -/

/-- Flits of a car body (R433). -/
def bodyFlits (c : SentCar) (bs : List Byte) : List FlitBody :=
  let ps := chunks 240 bs.length bs
  (ps.zip (List.range ps.length)).map fun p =>
    { type := 3, cls := 0, payload := p.1, car := some (c, p.2 + 1 == ps.length) }

/-- An admit arrives: a marker is done, a car's body leaves on the same link (R343, R347). A body that cannot be read
fails the car set. -/
def onAdmit (s : State) (l : LinkEnd) (c : SentCar) : State :=
  let w := endWing l
  if c.kind = 1 then
    modOffered s w c fun _ => []
  else match carSetOf s w c.key with
    | none => s
    | some x =>
      if !x.running then s
      else if c.kind = 2 then s.modCarSet w c.key fun x => x.setSend c.step c.car .sent
      else
        let s := s.modCarSet w c.key fun x => x.setSend c.step c.car .admitted
        match loadVa s (ringCtx s w c.key.part.val) (carVa x.desc c.step c.car) (carBytes x.desc) with
        | (s, .error e) => failBody s w x e
        | (s, .ok bs) => (bodyFlits c bs).foldl (fun s b => sendFlit s l b) s

/-- The phase after a refusal: the back-off runs; refusals in a window leave the patience timer alone (R337, R344). -/
def SendPhase.refuse (p : SendPhase) (window : Bool) (now : Nat) : SendPhase :=
  match p with
  | .offered n t => .backoff (n + 1) (if t.isNone && !window then some now else t)
  | p => p

/-- A refusal arrives (R343, R344). -/
def onRefuse (s : State) (l : LinkEnd) (c : SentCar) (reason : Nat) : State :=
  let w := endWing l
  let win := inWindow s w
  let now := (s.tt.get w).openTicks
  if c.kind = 1 then
    modOffered s w c fun n => [{ n with phase := n.phase.refuse win now }]
  else match carSetOf s w c.key with
    | none => s
    | some x =>
      if !x.running then s
      else if reason = 0x05 ∨ reason = 0x06 then failHere s w x 0x0303
      else if reason = 0x04 then failHere s w x 0x0303 (notice := false)
      else s.modCarSet w c.key fun x =>
        match Table.find (x.step c.step).sends c.car with
        | some p => x.setSend c.step c.car (p.refuse win now)
        | none => x

/-- Take an answer on a link end: answers come back in header order, and one that answers no header is ignored
(R342). -/
def takeAnswer (s : State) (l : LinkEnd) (answer : BitVec 16) : State :=
  let code := bits answer.toNat 15 14
  match (linkOf s l).unanswered with
  | [] => s
  | h :: hs =>
    if (code = 1 ∨ code = 2) ∧ bits answer.toNat 13 11 = h.hseq then
      let s := s.modLink l fun k => { k with unanswered := hs }
      let s := if code = 1 then onAdmit s l h.car else onRefuse s l h.car (bits answer.toNat 7 0)
      pumpRing s (endWing l)
    else s

/-- CAR_ANSWER_RECEIVE (R342, R344). -/
def execCarAnswerReceive (l : LinkEnd) (answer : BitVec 16) (s : State) : Host.Outcome State Fault Refusal :=
  .next (if linkUp s l then orWait s fun s => takeAnswer s l answer else s)

/-- CAR_RETRY_BACKOFF_EXPIRY (R344): the header is sent again; a refused notice of the car set as well. -/
def execCarRetryBackoffExpiry (w : Wing) (k : CarSetKey) (step : Nat) (car : BitVec 16) (s : State) :
    Host.Outcome State Fault Refusal :=
  let again (p : SendPhase) : Option SendPhase := match p with
    | .backoff n t => some (.ready n t)
    | _ => none
  let send := ((carSetOf s w k).bind fun c => if c.running then Table.find (c.step step).sends car.toNat else none).bind again
  .next (match send with
    | some p => pumpRing (s.modCarSet w k fun c => c.setSend step car.toNat p) w
    | none =>
      match (s.tt.get w).notices.find? fun n => n.key == k && (again n.phase).isSome with
      | some n =>
        let s := s.modTt w fun t =>
          { t with notices := modifyFirst (fun x => x == n) (fun x => [{ x with phase := (again x.phase).getD x.phase }]) t.notices }
        pumpRing s w
      | none => s)

/-- Whether a car has been refused for RING_CAR_PATIENCE local ticks since its first refusal without an admit. -/
def patienceOver (s : State) (w : Wing) (p : SendPhase) : Bool :=
  let since := match p with
    | .ready _ t => t
    | .offered _ t => t
    | .backoff _ t => t
    | _ => none
  match since with
  | some t => decide (t + dictVal s 0x4018 0 ≤ (s.tt.get w).openTicks)
  | none => false

/-- CAR_PATIENCE_EXPIRY (R344). -/
def execCarPatienceExpiry (w : Wing) (k : CarSetKey) (step : Nat) (car : BitVec 16) (s : State) :
    Host.Outcome State Fault Refusal :=
  .next (match carSetOf s w k with
    | some c =>
      (match Table.find (c.step step).sends car.toNat with
      | some p => if c.running && patienceOver s w p then failHere s w c 0x0301 else s
      | none => s)
    | none => s)

/-! ### Bodies and steps -/

/-- A body arrives in full at the receiver, at a slot of the current tick: stored, counted when late, and forwarded once its
step's sends have begun (R346 to R348). -/
def receiveBody (s : State) (w : Wing) (c : CarSet) (k j : Nat) (h : Entry) (body : List Byte) : State :=
  let d := c.desc
  match saveVa s (ringCtx s w c.key.part.val) (carVa d k j) body with
  | (s, some e) => failBody s w c e
  | (s, none) =>
    let t := s.tt.get w
    let late := decide (16 * frameTick d k + csComputeSlot d < 16 * t.count.toNat + t.slot)
    let s := if late then addCtr s (blkTt w) 0x0140 else s
    let s := s.modCarSet w c.key fun c =>
      let c := c.modStep k fun x => { x with received := Table.insert x.received j h, admitted := Table.erase x.admitted j }
      if (c.step k).sending then c.queueSend k j else c
    pumpRing s w

/-- CAR_BODY_RECEIVED (R343, R348): only an admitted car's body is expected, and it is accepted whatever has become of the
car set since. -/
def execCarBodyReceived (w : Wing) (k : CarSetKey) (step : Nat) (car : BitVec 16) (body : CarBody) (s : State) :
    Host.Outcome State Fault Refusal :=
  .next (orWait s fun s =>
    match carSetOf s w k with
    | none => s
    | some c =>
      match Table.find (c.step step).admitted car.toNat with
      | some h =>
        if body.bytes.length == carBytes c.desc then
          receiveBody (atSlot s w (tickOf s w).toNat body.slot.val) w c step car.toNat h body.bytes
        else s
      | none => s)

/-- Whether a bound task has finished every key block of the cars of the steps up to k (R350). -/
def taskPast (c : CarSet) (k : Nat) (t : Task) : Bool :=
  match t.work, carsBefore c (k + 1) with
  | .chain x, some total =>
    let b := parseChain t.body
    let kc := argKcount t.hdr
    decide ((if b.twoPass then kc else 0) + min kc total ≤ x.carsDone)
  | _, _ => false

/-- Whether step k is free (R350). -/
def stepMayFree (s : State) (w : Wing) (c : CarSet) (k : Nat) : Bool :=
  let last := decide (k + 1 = csSteps c.desc)
  decide (k < csSteps c.desc) && !(c.step k).free && (k == 0 || stepClosed c k) && (last || sendsDone c k)
    && (s.tasks.filter (boundTo w c.key)).all (taskPast c k)

/-- CAR_STEP_FREE (R350, R352): with the last step the car set is done, and a task that still needs cars ends with
0x0304. -/
def execCarStepFree (w : Wing) (k : CarSetKey) (step : Nat) (s : State) : Host.Outcome State Fault Refusal :=
  .next (match carSetOf s w k with
    | none => s
    | some c =>
      if !(c.running && stepMayFree s w c step) then s
      else
        let s := s.modCarSet w k fun c => c.modStep step fun x => { x with free := true }
        let s := if step + 1 = csSteps c.desc then
            (let s := s.modCarSet w k fun c => { c with phase := .done }
             (s.tasks.filter fun t => boundTo w k t && (match t.work with
                | .chain x => decide (x.carsDone < carsNeeded t (parseChain t.body))
                | _ => false)).foldl (fun s t => stopTask s t.id 0x0304) s)
          else s
        pumpRing s w)

/-- RECONFIG_WINDOW_END (R337): headers go out again on fabric links, those of cars cut off and those that waited on a link
among them. -/
def execReconfigWindowEnd (w : Wing) (s : State) : Host.Outcome State Fault Refusal :=
  .next (if (s.tt.get w).window && !inWindow s w then
      pumpRing ((wingEnds w).foldl drainLink (s.modTt w fun t => { t with window := false })) w
    else s)

/-- TT_CARSETS (R358). -/
def ttCarSets (s : State) (w : Wing) : Word32 :=
  let l := s.carSets.get w
  pack [((l.filter fun c => match c.phase with
    | .failed _ => true
    | _ => false).length, 16), (l.length, 0)]

end Sys2Proof.Machine
end

