-- ==== Sys2Proof/Machine/Ports.lean ====
section
/-!
DEFINITION. Fabric ports and the Concourse (R436 to R447, R454, R455): flits received, replay, training, Dark and Down,
lanes and bundles retired, and what a lost Concourse does to the module.
-/

namespace Sys2Proof.Machine

/-- A host write that reaches a register block of a wing; with the Concourse down, one for the West is discarded and
counted (R455). -/
def hostWriteAt (s : State) (w : Wing) (f : State → State) : State :=
  if !hostReaches s .pf0 then s
  else if w = .west ∧ !concourseUp s then addCtr s (blkLnk .east) 0x0928
  else f s

/-! ### Cars on a link that stops -/

/-- Data cars with a flit unacknowledged on a link, once each (R446). -/
def cutCars (k : Link) : List SentCar :=
  (k.replay.filterMap (fun x => x.body.car.map (·.1)) ++ k.waiting.filterMap (fun x => x.car.map (·.1))).foldl
    (fun l c => if c.kind = 0 ∧ !l.contains c then l ++ [c] else l) []

/-- Every header on a link whose car, marker or notice has not been answered or is not all sent. -/
def openCars (k : Link) : List SentCar :=
  (k.unanswered.map (·.car) ++ k.replay.filterMap (fun x => x.body.car.map (·.1)) ++ k.waiting.filterMap (fun x => x.car.map (·.1))).foldl
    (fun l c => if l.contains c then l else l ++ [c]) []

/-- The phase of what goes out again: refusals and the patience timer stay until an admit (R344, R446). -/
def SendPhase.anew : SendPhase → SendPhase
  | .offered n t => .ready n t
  | .ready n t => .ready n t
  | .backoff n t => .backoff n t
  | _ => .ready 0 none

/-- Queue a car, marker or notice again, header first (R337, R446); TT_CARS_RESENT counts the cars. -/
def requeueCar (w : Wing) (s : State) (c : SentCar) : State :=
  if c.kind = 1 then modOffered s w c fun n => [{ n with phase := n.phase.anew }]
  else
    let s := s.modCarSet w c.key fun x =>
      if x.running then x.setSend c.step c.car (((Table.find (x.step c.step).sends c.car).getD (.ready 0 none)).anew) else x
    if c.kind = 0 then addCtr s (blkTt w) 0x0148 else s

/-- Drop cars from a link and queue them again. -/
def dropCars (s : State) (l : LinkEnd) (cs : List SentCar) : State :=
  let hit (b : FlitBody) : Bool := match b.car with
    | some (c, _) => cs.contains c
    | none => false
  let s := s.modLink l fun k =>
    { k with replay := k.replay.filter (fun x => !hit x.body), waiting := k.waiting.filter (fun b => !hit b)
             unanswered := k.unanswered.filter fun h => !cs.contains h.car }
  cs.foldl (requeueCar (endWing l)) s

/-- A link discards its state; what it was sending of the ring's is queued again (R440, R449). -/
def discardLink (s : State) (l : LinkEnd) : State :=
  (dropCars s l (openCars (linkOf s l))).modLink l fun k => { delivered := k.delivered }

/-! ### Changes of a port's state -/

/-- Raise an event of a port (R461). -/
def raisePort (s : State) (w : Wing) (p : Nat) (ev : Nat) : State := raise s ev (portNum w p) (blkLnk w)

/-- Whether the fabric takes part in the present power state: training begins once the clocks have locked (R527). -/
def fabricOn (s : State) : Bool := s.power.pwrGood && decide (1 ≤ s.power.wakeStep)

/-- After a change of a link: the Timetables see it, and cars go out where they now may. -/
def settleLinks (s : State) : State := pumpRing (pumpRing (linkChanged s) .east) .west

/-- Change a port; where it leaves Up, the tick is kept (R402). -/
def leavePort (s : State) (w : Wing) (p : Fin 6) (f : Port → Port) : State :=
  let now := (tickOf s w).toNat
  s.modPort w p.val fun x => { f x with leftUp := if x.state = .up then now else x.leftUp }

/-! ### Training records (R442, R443) -/

/-- The training record that a port sends (R442). Lanes received without error are those of the argument. -/
def trainRecord (s : State) (w : Wing) (p : Fin 6) (lanes : BitVec 8) (step echoT turn : Nat) (echo : Bool) : BitVec 256 :=
  let x := portOf s w p.val
  let kept := x.kept || x.state == .up
  packN 256 [(echoT % 2 ^ 64, 192), (turn % 2 ^ 32, 160), (if kept then (x.link.expected - 1).toNat else 0, 148),
    (b2n kept, 147), (b2n echo, 146), (lanes.toNat, 138), (dictVal s 0x4021 (portNum w p.val + 1) % 4, 136), (p.val, 133),
    (wingNum w, 132), (ownNode s % 2 ^ 16, 116), (step, 112)]

/-- Send a TRAIN flit (R433). -/
def sendTrain (s : State) (l : LinkEnd) (r : BitVec 256) : State :=
  putPlain s l false { type := 1, cls := 0, payload := leBytes 32 r.toNat }

/-- Send the requests of a latency measurement (R443). -/
def sendRequests (s : State) (w : Wing) (p : Fin 6) (lanes : BitVec 8) (es : List Echo) : State :=
  es.foldl (fun s e => sendTrain s (.port w p) (trainRecord s w p lanes 5 e.echoT 0 false)) s

/-- One-way latency in ps: the average over the echoes of (arrival − ECHO_T − TURN) ÷ 2 (R443). -/
def oneWay (es : List Echo) : Word32 :=
  BitVec.ofNat 32 (es.foldl (fun n e => n + (e.arrival - e.echoT - e.turn)) 0 / (2 * max 1 es.length))

/-- A port begins its training: it sends TRAIN flits alone (R440, R442). -/
def beginTraining (s : State) (w : Wing) (p : Fin 6) : State :=
  sendTrain s (.port w p) (trainRecord s w p 0 1 0 0 false)

/-- Answer a latency request by an echo (R443); what passes between the two is a free value (assumption log 139). -/
def echoRequest (s : State) (l : LinkEnd) (r : BitVec 256) : State :=
  match l with
  | .port w p =>
    if bits r.toNat 115 112 = 5 ∧ !bit r.toNat 146 then
      (let turn := Config.freePick s.freeCtr % 2 ^ 32
       let s := { s with freeCtr := s.freeCtr + 1 }
       sendTrain s l (trainRecord s w p (portOf s w p.val).lanes 5 (bits r.toNat 255 192) turn true))
    else s
  | .concourse _ => s

/-- A port enters Down, or Disabled, from Up or Dark, a retrain from them included (R440, R441). -/
def portDown (s : State) (w : Wing) (p : Fin 6) (dest : PortState) : State :=
  let s := discardLink s (.port w p)
  let s := leavePort s w p fun x =>
    { x with state := dest, gen := 0, fallback := false, lanes := 0, retired := 0, kept := false, retry := false, laneErrs := [] }
  settleLinks (raisePort (addCtr s (blkLnk w) (portCtr p.val 0x40)) w p.val 0x0311)

/-- A port begins to retrain from Up, keeping its sequence state; its cars are resent as when it goes Dark (R441, R445,
R449). -/
def retrainPort (s : State) (w : Wing) (p : Fin 6) : State :=
  let s := leavePort s w p fun x => { x with state := .training, kept := true, retry := false, fallback := false }
  let s := beginTraining (dropCars s (.port w p) (cutCars (linkOf s (.port w p)))) w p
  settleLinks (addCtr s (blkLnk w) (portCtr p.val 0x38))

/-! ### The Concourse goes down (R455) -/

/-- Byte ranges that a loop, a COPY, LOAD or COMPUTE stage or a move touches; none where the work does not name them
all. -/
def workRanges (t : Task) : Option (List (Nat × Nat)) :=
  let loopRanges (body : List Byte) (i : Nat) : List (Nat × Nat) :=
    let d := parseLoop body
    let k := d.bucket i
    opndRanges d k d.a (stridesOf d (·.aS)) ++ opndRanges d k d.b (stridesOf d (·.bS)) ++ loopDests d k
  match t.work with
  | .loop x => some (loopRanges t.body x.bucket)
  | .move _ _ => some [(mSrc t.hdr, max 1 (mCount t.hdr)), (mDst t.hdr, max 1 (mCount t.hdr))]
  | _ => none

/-- Whether a range has a page whose home lies in the other wing. -/
def crossesWing (s : State) (t : Task) (r : Nat × Nat) : Bool :=
  (pagesOf r.1 r.2).any fun p => match translate s (taskCtx s t) p.1 false with
    | .ok x => isStacked x.pa && wingOf (homeTile x.pa) != t.wing
    | .error _ => false

/-- Whether a task can have an access in flight across the Concourse: one whose work names its ranges, by them;
any other, when its partition owns memory of the other wing. -/
def mayCross (s : State) (t : Task) : Bool :=
  t.dispatched && (match t.work, workRanges t with
    | .coll _, _ => false
    | _, some rs => rs.any (crossesWing s t)
    | _, none => (recExtents (taskRec s t)).any fun x => wingOf (homeTile x.base) != t.wing || wingOf (homeTile (x.base + x.size - 1)) != t.wing)

/-- Every task with an access in flight across the Concourse ends with 0x0306: whether a task that may have one does is a
free choice, since it turns on the instant. -/
def cutTasks (s : State) : State :=
  (s.tasks.filter (mayCross s)).foldl (fun s t =>
    let (hit, s) := freeChoice s
    if hit then stopTask s t.id 0x0306 else s) s

/-- Every car set of a wing fails at once with 0x0306 (R455): the Concourse is a ring link of each stop. -/
def cutCarSets (s : State) (w : Wing) : State := (s.carSets.get w).foldl (fun s c => failHere s w c 0x0306) s

/-- The Concourse leaves Up; the tick is kept (R402). -/
def leaveConcourse (s : State) (x : PortState) : State :=
  { s with cc := { s.cc with state := x, leftUp := if s.cc.state = .up then (tickOf s .east).toNat else s.cc.leftUp } }

/-- The Concourse goes down (R455). -/
def concourseFalls (s : State) : State :=
  let s := leaveConcourse { s with cc := { s.cc with bundles := 0, retired := 0, bundleErrs := [] } } .down
  let s := addCtr (addCtr s (blkLnk .east) 0x0920) (blkLnk .west) 0x0920
  let s := setReason (raise s 0x0317 0 (blkLnk .east)) 2
  settleLinks (cutCarSets (cutCarSets (cutTasks s) .east) .west)

/-- CONCOURSE_DOWN (R455). -/
def execConcourseDown (s : State) : Host.Outcome State Fault Refusal :=
  .next (if s.cc.state = .up ∨ s.cc.state = .training then concourseFalls s else s)

/-! ### Replay (R437) -/

/-- The contents of a flit sent again: a TIME flit carries the count at its actual departure. -/
def replayBody (s : State) (l : LinkEnd) (b : FlitBody) : FlitBody :=
  if b.type = 4 then { b with payload := stampCount s l b.payload } else b

/-- A flit as it is replayed: unchanged, but for a TIME flit's COUNT and with it the CRC. -/
def replayFlit (s : State) (l : LinkEnd) (x : SentFlit) : SentFlit :=
  let b := replayBody s l x.body
  let n := x.image.toNat
  { x with body := b, replays := x.replays + 1
           image := if b = x.body then x.image
             else withCrc (n - bits n 383 128 * 2 ^ 128 + leNat b.payload * 2 ^ 128) }

/-- Resend every unacknowledged flit in SEQ order. -/
def resendAll (s : State) (l : LinkEnd) : State :=
  let fs := (linkOf s l).replay.map (replayFlit s l)
  fs.foldl (fun s x => putImage s l x.image) (s.modLink l fun k => { k with replay := fs })

/-- Replay, and past the limit of one flit's replays the link retrains (R437); the Concourse goes down (R455). -/
def replayLink (s : State) (l : LinkEnd) : State :=
  if (linkOf s l).replay.isEmpty then s
  else
    let s := countLink (resendAll s l) l 0x18 0x0910
    let most := (linkOf s l).replay.foldl (fun n x => max n x.replays) 0
    match l with
    | .port w p => if dictVal s 0x4025 0 ≤ most then retrainPort s w p else s
    | .concourse _ => if dictVal s 0x4025 0 < most then concourseFalls s else s

/-- NAK_RECEIVE (R437). -/
def execNakReceive (l : LinkEnd) (ack : BitVec 12) (s : State) : Host.Outcome State Fault Refusal :=
  .next (if linkUp s l then replayLink (ackLink s l ack) l else s)

/-- ACK_TIMEOUT_REPLAY (R437). -/
def execAckTimeoutReplay (l : LinkEnd) (s : State) : Host.Outcome State Fault Refusal :=
  .next (if linkUp s l then replayLink s l else s)

/-- NAK_RESEND_TIMEOUT (R436). -/
def execNakResendTimeout (l : LinkEnd) (s : State) : Host.Outcome State Fault Refusal :=
  .next (if linkUp s l && (linkOf s l).nakOut then sendNak (s.modLink l fun k => { k with nakOut := false }) l else s)

/-! ### FLIT_RECEIVE (R433, R436, R439) -/

/-- Retire a lane (R444): the port narrows, or is Down below 4 lanes. -/
def retireLane (s : State) (w : Wing) (p : Fin 6) (lane : Nat) : State :=
  let m : BitVec 8 := BitVec.ofNat 8 (2 ^ lane)
  let x := portOf s w p.val
  if x.state ≠ .up ∨ x.lanes &&& m = 0 then s
  else
    let s := s.modPort w p.val fun x =>
      { x with lanes := x.lanes &&& ~~~m, retired := x.retired ||| m, laneErrs := Table.erase x.laneErrs lane }
    let s := sendTrain s (.port w p) (trainRecord s w p (portOf s w p.val).lanes 4 0 0 false)
    let s := raisePort (addCtr s (blkLnk w) (portCtr p.val 0x30)) w p.val 0x0312
    if popcount 8 (portOf s w p.val).lanes.toNat < 4 then portDown s w p .down else s

/-- Retire a bundle (R454): the spare takes the place of the first one retired; the next leaves fewer than 8, and the
module is LIMITED; the last takes the Concourse down. -/
def retireBundle (s : State) (b : Nat) : State :=
  let m : BitVec 9 := BitVec.ofNat 9 (2 ^ b)
  let c := s.cc
  let spare : BitVec 9 := ~~~(c.bundles ||| c.retired) &&& ~~~m
  let heir := (List.range 9).find? fun i => spare.getLsbD i
  if c.state ≠ .up ∨ c.bundles &&& m = 0 then s
  else
    let left := c.bundles &&& ~~~m
    let now := match heir with
      | some i => left ||| BitVec.ofNat 9 (2 ^ i)
      | none => left
    let s := { s with cc := { c with bundles := now, retired := c.retired ||| m, bundleErrs := Table.erase c.bundleErrs b } }
    let s := raise (addCtr (addCtr s (blkLnk .east) 0x0918) (blkLnk .west) 0x0918) 0x0316 b (blkLnk .east)
    if now = 0 then concourseFalls s
    else if popcount 9 now.toNat < 8 then setReason s 1 else s

/-- One more error of a lane or bundle in the LNK_CAL_PERIOD that its wing's count lies in (R444, R454). -/
def errorsAfter (s : State) (w : Wing) (t : Table (Nat × Nat)) (lane : Nat) : Nat × Nat :=
  let period := (tickOf s w).toNat / dictVal s 0x4023 0
  match Table.find t lane with
  | some x => if x.1 = period then (period, x.2 + 1) else (period, 1)
  | none => (period, 1)

/-- An error of a lane: LNK_SPARE_CW of them within a period retire it (R444). -/
def laneError (s : State) (w : Wing) (p : Fin 6) (lane : Nat) : State :=
  let e := errorsAfter s w (portOf s w p.val).laneErrs lane
  let s := s.modPort w p.val fun x => { x with laneErrs := Table.insert x.laneErrs lane e }
  if dictVal s 0x4024 0 ≤ e.2 then retireLane s w p lane else s

/-- An error of a bundle: LNK_SPARE_CW of them within a period retire it (R454). -/
def bundleError (s : State) (w : Wing) (b : Nat) : State :=
  let e := errorsAfter s w s.cc.bundleErrs b
  let s := { s with cc := { s.cc with bundleErrs := Table.insert s.cc.bundleErrs b e } }
  if dictVal s 0x4024 0 ≤ e.2 then retireBundle s b else s

/-- A flit lost on the link: counted, a NAK sent, and the error held against its lane or bundle (R436, R444, R454). -/
def loseFlit (s : State) (l : LinkEnd) (uncorrectable : Bool) (lane : Nat) : State :=
  let s := sendNak (countLink s l 0x10 0x0908) l
  match l with
  | .port w p =>
    if uncorrectable then laneError (addCtr s (blkLnk w) (portCtr p.val 0x28)) w p lane else s
  | .concourse w => bundleError s w lane

/-- A protocol error: the flit is discarded and the link retrains (R433). -/
def protocolError (s : State) (l : LinkEnd) : State :=
  match l with
  | .port w p => retrainPort (addCtr s (blkLnk w) (portCtr p.val 0x48)) w p
  | .concourse _ => settleLinks (leaveConcourse s .training)

/-- Whether credits of a class are granted now: those of collective traffic only in SERVICE (R532). -/
def creditGranted (s : State) (cls : Nat) : Bool := (cls != 2 && cls != 3) || inService s

/-- Deliver an accepted flit to the units above; its buffer is free again, and the credit goes back (R436, R439). -/
def deliverFlit (s : State) (l : LinkEnd) (x : Flit) : State :=
  let give := credited (fClass x)
  let now := creditGranted s (fClass x)
  let bump (t : Table Nat) : Table Nat := Table.set 0 t (fClass x) (Table.get 0 t (fClass x) + 1)
  let s := s.modLink l fun k =>
    { k with
      expected := k.expected + 1, nakOut := false
      delivered := k.delivered ++ [(fType x, fPayload x)]
      crGiven := if give && now then bump k.crGiven else k.crGiven
      crHeld := if give && !now then bump k.crHeld else k.crHeld }
  match l with
  | .port w p => addCtr s (blkLnk w) (portCtr p.val 0x08)
  | .concourse _ => s

/-- The ACK, NAK, credit and ANSWER fields of a good flit are used; what waits for room or credits leaves, and a stop whose
last car has gone may let an arrive token pass (R335, R436). -/
def useHeader (s : State) (l : LinkEnd) (x : Flit) : State :=
  let s := takeCredits (ackLink s l (fAck x)) l (fCrClass x) (fCrTotal x)
  let s := if fNak x then replayLink s l else s
  let s := if fAnswer x = 0 then s else takeAnswer s l (fAnswer x)
  pumpRing (drainLink s l) (endWing l)

/-- A flit with a good CRC (R436). -/
def acceptFlit (s : State) (l : LinkEnd) (x : Flit) : State :=
  if !flitPermitted l x then protocolError s l
  else if !sequenced (fType x) then
    (let s := useHeader s l x
     if fType x = 1 then echoRequest s l (BitVec.ofNat 256 (leNat (fPayload x))) else s)
  else
    let e := (linkOf s l).expected
    if fSeq x = e then useHeader (deliverFlit s l x) l x
    else if seqAfter (fSeq x) e then sendNak s l
    else s

/-- Symbols that the codewords of a flit had corrected (R460); the Concourse has no such counter. -/
def countCorrected (s : State) (l : LinkEnd) (n : Nat) : State :=
  match l with
  | .port w p => if n = 0 then s else addCtr s (blkLnk w) (portCtr p.val 0x20) n
  | .concourse _ => s

/-- FLIT_RECEIVE (R434, R436, R460); a port in training takes TRAIN flits alone (R440). -/
def execFlitReceive (l : LinkEnd) (flit : Flit) (uncorrectable : Bool) (r : LaneReport) (s : State) :
    Host.Outcome State Fault Refusal :=
  let s := if linkUp s l ∨ endState s l = .training then countCorrected s l r.corrected else s
  .next (if endState s l = .training ∧ !uncorrectable ∧ crcGood flit ∧ flitPermitted l flit ∧ fType flit = 1 then
      echoRequest s l (BitVec.ofNat 256 (leNat (fPayload flit)))
    else if !linkUp s l then s
    else if uncorrectable || !crcGood flit then loseFlit s l uncorrectable r.lane.val
    else orWait s fun s => acceptFlit s l flit)

/-! ### Signal and training (R440 to R447) -/

/-- LNK_GEN_ALLOW of a port (R429). -/
def genAllow (s : State) (w : Wing) (p : Nat) : Nat := dictVal s 0x4021 (portNum w p + 1)

/-- PORT_SIGNAL_LOSS (R446): Up and a retrain from it go Dark, their cars queued for resending, and IDLE flits go out; any
other attempt ends. -/
def execPortSignalLoss (w : Wing) (p : Fin 6) (s : State) : Host.Outcome State Fault Refusal :=
  let x := portOf s w p.val
  let dark (s : State) : State :=
    let s := putIdle (leavePort s w p fun x => { x with state := .dark, signal := false, retry := false }) (.port w p)
    settleLinks (raisePort (dropCars s (.port w p) (cutCars (linkOf s (.port w p)))) w p.val 0x0313)
  .next (match x.state with
    | .up => dark s
    | .training =>
      if x.kept then dark s else s.modPort w p.val fun x => { x with state := .down, signal := false, retry := false }
    | _ => s.modPort w p.val fun x => { x with signal := false })

/-- A port trains without sequence state (R440, R442). -/
def trainAfresh (s : State) (w : Wing) (p : Fin 6) : State :=
  beginTraining (s.modPort w p.val fun x =>
    { x with state := .training, kept := false, signal := true, retry := false, fallback := false }) w p

/-- PORT_SIGNAL_RETURN (R442): training begins, from Dark with the sequence state kept. -/
def execPortSignalReturn (w : Wing) (p : Fin 6) (s : State) : Host.Outcome State Fault Refusal :=
  let x := portOf s w p.val
  .next (if !fabricOn s || genAllow s w p.val == 0 then s
    else match x.state with
      | .dark =>
        addCtr (beginTraining (s.modPort w p.val fun x =>
          { x with state := .training, kept := true, signal := true, retry := false, fallback := false }) w p)
          (blkLnk w) (portCtr p.val 0x38)
      | .down => trainAfresh s w p
      | .disabled => trainAfresh s w p
      | _ => s)

/-- Fields of a training record (R442). -/
def trLastSeq (r : BitVec 256) : BitVec 12 := BitVec.ofNat 12 (bits r.toNat 159 148)
def trKept (r : BitVec 256) : Bool := bit r.toNat 147
def trLanes (r : BitVec 256) : BitVec 8 := BitVec.ofNat 8 (bits r.toNat 145 138)
def trAllow (r : BitVec 256) : Nat := bits r.toNat 137 136
def trPort (r : BitVec 256) : Nat := bits r.toNat 135 133
def trWing (r : BitVec 256) : Nat := bits r.toNat 132 132
def trNode (r : BitVec 256) : Nat := bits r.toNat 131 116

/-- LNK_PEER_p of a partner (R458). -/
def peerImage (r : BitVec 256) : Word32 := pack [(trNode r, 16), (trWing r, 8), (trPort r, 0)]

/-- The generation both ends admit, the highest but for a fall-back; 0 for none (R442). -/
def agreedGen (a b : Nat) (fallback : Bool) : Nat :=
  if !fallback && bit a 1 && bit b 1 then 2 else if bit a 0 && bit b 0 then 1 else 0

/-- The same partner again (R446): SEQ restarts at 0, the flits after its LAST_SEQ are resent, renumbered, and credits
are set afresh. Where the partner kept nothing, every unacknowledged flit counts as not received. -/
def resumeLink (s : State) (l : LinkEnd) (last : Option (BitVec 12)) : State :=
  let k := linkOf s l
  let again := (k.replay.filter fun x => match last with
    | some q => seqAfter x.seq q
    | none => true).map fun x => x.body
  let wait := k.waiting
  let s := s.modLink l fun k =>
    { freshLink l with nextHseq := k.nextHseq, unanswered := k.unanswered, answers := k.answers, delivered := k.delivered }
  drainLink (wait.foldl (fun s b => offerFlit s l b) (again.foldl (fun s b => offerFlit s l (replayBody s l b)) s)) l

/-- A different partner, or a training from Down: everything the link held is gone (R446). -/
def restartLink (s : State) (l : LinkEnd) : State :=
  (discardLink s l).modLink l fun k => { freshLink l with delivered := k.delivered }

/-- Step 6 of R442: the port comes Up. -/
def portUp (s : State) (w : Wing) (p : Fin 6) (r : BitVec 256) (lanes : BitVec 8) (gen : Nat) (fallback : Bool) (lat : Word32) :
    State :=
  let old := portOf s w p.val
  let l : LinkEnd := .port w p
  let same := old.peer == peerImage r
  let s := s.modPort w p.val fun x =>
    { x with state := .up, gen := gen, fallback := fallback, lanes := lanes, retired := 0, kept := false, retry := false
             peer := peerImage r, peerKnown := true, lat := lat, laneErrs := [] }
  let s := if old.kept && same then resumeLink s l (if trKept r then some (trLastSeq r) else none) else restartLink s l
  let s := if old.kept && !same then raisePort s w p.val 0x0314 else s
  settleLinks (raisePort s w p.val 0x0310)

/-- PORT_TRAINING_DONE (R430, R442, R446): without node ids at both ends, or with the module's own, the port stays in
training; below 4 common lanes, or without a common generation, the attempt fails, and a retrain ends in Down. -/
def execPortTrainingDone (w : Wing) (p : Fin 6) (record : BitVec 256) (lanes : BitVec 8) (fallback : Bool)
    (echoes : List Echo) (s : State) : Host.Outcome State Fault Refusal :=
  let x := portOf s w p.val
  let node := dictVal s 0x4020 0
  let fail (s : State) : State := s.modPort w p.val fun x => { x with retry := true, fallback := false }
  let told := sendTrain s (.port w p) (trainRecord s w p lanes 4 0 0 false)
  let both := lanes &&& trLanes record
  let fb := fallback || x.fallback
  let gen := agreedGen (genAllow s w p.val) (trAllow record) fb
  .next (if x.state ≠ .training ∨ !x.signal ∨ x.retry then s
    else if node = 0xFFFF ∨ trNode record = 0xFFFF then told
    else if trNode record = node then raisePort told w p.val 0x0315
    else if gen = 0 then fail told
    else if popcount 8 both.toNat < 4 then (if x.kept then portDown told w p .down else fail told)
    else portUp (sendRequests told w p both echoes) w p record both gen (gen == 1 && fb) (oneWay echoes))

/-- PORT_TRAINING_FAIL (R442): step 3 at the current generation falls back where the previous is admitted; any other
failure waits for its retry. -/
def execPortTrainingFail (w : Wing) (p : Fin 6) (step : Fin 7) (s : State) : Host.Outcome State Fault Refusal :=
  let x := portOf s w p.val
  .next (if x.state ≠ .training ∨ x.retry then s
    else if step.val = 3 ∧ genAllow s w p.val = 3 ∧ !x.fallback then s.modPort w p.val fun x => { x with fallback := true }
    else s.modPort w p.val fun x => { x with retry := true, fallback := false })

/-- PORT_TRAINING_RETRY (R442, R447): a failed attempt is made again while signal is present, and so is that of a port in
Down. -/
def execPortTrainingRetry (w : Wing) (p : Fin 6) (s : State) : Host.Outcome State Fault Refusal :=
  let x := portOf s w p.val
  .next (if !x.signal || genAllow s w p.val == 0 then s
    else if x.state = .training ∧ x.retry then beginTraining (s.modPort w p.val fun x => { x with retry := false }) w p
    else if x.state = .down ∧ fabricOn s then trainAfresh s w p
    else s)

/-- LANE_RETIRE (R444): a lane has lost codeword lock. -/
def execLaneRetire (w : Wing) (p : Fin 6) (lane : Fin 8) (s : State) : Host.Outcome State Fault Refusal :=
  .next (retireLane s w p lane.val)

/-- DARK_LIMIT_EXPIRY (R447): outside a window, or 2.0 ms after one. -/
def execDarkLimitExpiry (w : Wing) (p : Fin 6) (s : State) : Host.Outcome State Fault Refusal :=
  .next (if !inWindow s w && (portOf s w p.val).state == .dark then portDown s w p .down else s)

/-- Steps 1 to 3 of R442 on one retired lane: whether they succeed is free, since no command says (assumption log 79). -/
def widenLane (w : Wing) (p : Fin 6) (s : State) (lane : Nat) : State :=
  let m : BitVec 8 := BitVec.ofNat 8 (2 ^ lane)
  if (portOf s w p.val).retired &&& m = 0 then s
  else
    let r := freeChoice s
    if r.1 then
      (let s := r.2.modPort w p.val fun x => { x with lanes := x.lanes ||| m, retired := x.retired &&& ~~~m }
       sendTrain s (.port w p) (trainRecord s w p (portOf s w p.val).lanes 4 0 0 false))
    else r.2

/-- WIDEN (R445, R457): the retired lanes are trained alone, and those that come through join the port again. -/
def widenPort (s : State) (w : Wing) (p : Fin 6) : State :=
  if (portOf s w p.val).state = .up then (List.range 8).foldl (widenLane w p) s else s

/-- WIDEN, as a register write. -/
def execWiden (w : Wing) (p : Fin 6) (s : State) : Host.Outcome State Fault Refusal :=
  .next (hostWriteAt s w fun s => widenPort s w p)

/-- RETRAIN (R441, R457). -/
def retrainNow (s : State) (w : Wing) (p : Fin 6) : State :=
  if (portOf s w p.val).state = .up then retrainPort s w p else s

/-- RETRAIN, as a register write. -/
def execRetrain (w : Wing) (p : Fin 6) (s : State) : Host.Outcome State Fault Refusal :=
  .next (hostWriteAt s w fun s => retrainNow s w p)

/-- A write of LNK_GEN_ALLOW that has taken place: 0 takes the port down at once (R429, R440). -/
def applyGenAllow (s : State) (w : Wing) (p : Fin 6) : State :=
  let x := portOf s w p.val
  if genAllow s w p.val ≠ 0 then s
  else match x.state with
    | .disabled => s
    | .up => portDown s w p .disabled
    | .dark => portDown s w p .disabled
    | .training => if x.kept then portDown s w p .disabled else s.modPort w p.val fun x => { x with state := .disabled, retry := false }
    | .down => s.modPort w p.val fun x => { x with state := .disabled }

/-! ### Bundles (R454, R455) -/

/-- BUNDLE_RETIRE (R454): a bundle has lost lock. -/
def execBundleRetire (b : Fin 9) (s : State) : Host.Outcome State Fault Refusal := .next (retireBundle s b.val)

/-- What the West wing and EIO kept while the Concourse was down goes on its way (R455, R560, R562). -/
def releaseWest (s : State) : State :=
  let bells := s.cc.doorbells
  let evs := s.hif.logs.westEvents
  let log := s.hif.logs.westLog
  let s := { s with cc := { s.cc with doorbells := [] } }
  let s := s.modLogs fun l => { l with westEvents := [], westLog := [] }
  let s := log.foldl enterLog s
  let s := evs.foldl (fun s e => (postEvent s e).getD (loseEvent s)) s
  let funcAt (n : Nat) : Func := if n = 0 then .pf0 else .vf (Fin.ofNat 16 (n - 1))
  let s := bells.foldl (fun s d => applyDoorbell s (funcAt (d.1 / 64)) (d.1 % 64) d.2.1 d.2.2) s
  allFuncs.foldl flushFunc s

/-- CONCOURSE_RETRAIN_DONE (R454, R455): both ends go on from their kept state, over the bundles that are now active. -/
def execConcourseRetrainDone (bundles : BitVec 9) (s : State) : Host.Outcome State Fault Refusal :=
  .next (if !fabricOn s || s.cc.state == .up || bundles == 0 || decide (8 < popcount 9 bundles.toNat) then s
    else
      let e := s.cc.east.expected - 1
      let w := s.cc.west.expected - 1
      let s := { s with cc := { s.cc with state := .up, bundles := bundles, retired := 0, bundleErrs := [] } }
      let s := resumeLink (resumeLink s (.concourse .east) (some w)) (.concourse .west) (some e)
      let s := clearReason s 2
      let s := if popcount 9 bundles.toNat = 8 then clearReason s 1 else setReason s 1
      settleLinks (releaseWest s))

/-! ### Registers of the links -/

/-- Code of a port's state (R440). -/
def portStateCode : PortState → Nat
  | .down => 0
  | .training => 1
  | .up => 2
  | .dark => 3
  | .disabled => 4

/-- LNK_PORT_STAT_p (R456). -/
def portStat (s : State) (w : Wing) (p : Fin 6) : Word32 :=
  let x := portOf s w p.val
  let up := x.state == .up
  let lead := if up then ((trunkOf s w p).head?.map (·.val)).getD p.val else 0
  pack [(portStateCode x.state, 28), (if up then x.gen else 0, 26), (b2n (up && x.fallback), 25),
    (if up then popcount 8 x.lanes.toNat else 0, 16), (if up then x.lanes.toNat else 0, 8), (lead, 0)]

/-- CC_STAT (R459). -/
def ccStat (s : State) : Word32 :=
  pack [(portStateCode s.cc.state, 28), (s.cc.bundles.toNat, 16), (popcount 9 s.cc.bundles.toNat, 0)]

end Sys2Proof.Machine
end

