-- ==== Sys2Proof/Machine/Reset.lean ====
section
/-!
DEFINITION. Function-level reset (R44, R482 to R486): the reset of a partition by each of its triggers, the end of its
zeroing, PF0 resets and the clearing of VF Enable.
-/

namespace Sys2Proof.Machine

/-! ### KV pages (R315) -/

/-- An 8-byte entry or 64-byte record of partition memory as the reset reads it; 0 where it cannot be read. -/
def resetRead (s : State) (c : Ctx) (va n : Nat) : Nat :=
  match readNum s c va n with
  | .ok x => x
  | .error _ => 0

/-- The VALID sequence records of an edition's header (R288 to R290). -/
def validRecords (s : State) (c : Ctx) (hdr : Nat) : List Nat :=
  let seqs := bits hdr 463 432
  ((List.range (ceilDiv seqs 64)).map fun b =>
    let i := resetRead s c (bits hdr 511 464 + 8 * b) 8
    if i = 0 ∨ bits i 63 48 ≠ 0 ∨ bits i 11 0 ≠ 0 then []
    else ((List.range (min 64 (seqs - 64 * b))).map fun q => resetRead s c (bits i 47 12 * 4096 + 64 * q) 64).filter seqValid).flatten

/-- The leaves that a record's directory maps (R293 to R295): none under an L1_VA that no walk goes through. -/
def recordLeaves (s : State) (c : Ctx) (r : Nat) : List Nat :=
  if seqL1 r % 64 ≠ 0 then [] else
  ((List.range (seqL1Count r)).map fun i =>
    let e1 := resetRead s c (seqL1 r + 8 * i) 8
    if (tableFault e1).isSome then []
    else ((List.range 256).map fun j =>
      let e2 := resetRead s c (dirVa e1 + 8 * j) 8
      if dirKind e2 = 2 then (if leafFine e2 (seqWide r) 8 8 then [e2] else [])
      else if (tableFault e2).isSome then []
      else ((List.range 256).map fun k => resetRead s c (dirVa e2 + 8 * k) 8).filter fun e =>
        (leafFault e (seqWide r)).isNone).flatten).flatten

/-- Bytes of the page that a leaf of a record maps (R286, R315). -/
def leafBytes (r e : Nat) : Nat :=
  2 * seqHeads r * regionBytes (16 * 2 ^ dirSize e) (headDim (seqDcode r)) (dirFmt e)

/-- Bytes of a compressed page's image, as its header gives its sectors (R118); one sector where it cannot be read. -/
def imageRange (s : State) (a : Nat) : Nat × Nat :=
  match readPa s a 64 with
  | .ok h => (a, 4096 * max 1 (bits (leNat h) 23 20))
  | .error _ => (a, 4096)

/-- Physical ranges of a range of partition memory, a compressed page's being its image's (DESIGN CHOICE, assumption log
81); a page that does not translate is left out. -/
def physRanges (s : State) (c : Ctx) (va n : Nat) : List (Nat × Nat) :=
  (pagesOf va n).filterMap fun p =>
    match translate s c p.1 false with
    | .ok x => some (if leafTier x.leaf = 3 then imageRange s (x.image p.1) else (x.pa, p.2))
    | .error _ => none

/-- Physical ranges of a partition's KV pages: those of every live edition in both wings (R315). -/
def kvRanges (s : State) (p : Fin 16) : List (Nat × Nat) :=
  let s := hideRegs (hideRegs s .east) .west
  ([Wing.east, Wing.west].map fun w =>
    let i := Instance.kv p w
    let c := tileCtx s (instHome s i) p.val
    ((instOf s i).live.map fun e =>
      ((validRecords s c e.hdr).map fun r =>
        ((recordLeaves s c r).map fun l => physRanges s c (dirVa l) (leafBytes r l)).flatten).flatten).flatten).flatten

/-! ### Steps 1 and 2 of R483 -/

/-- A cause that ends a command or a task of a ring before any completion entry (R560). -/
def logEntryEnd (s : State) (f : Func) (r : Nat) (e : Entry) (cause : Nat) : State :=
  logCause s { wing := wingOf (ringOf s f r).home, unit := .stationmaster, cause := cause, tag := entryTag e, ring := r,
               part := (partOf f).getD (cmdPart e) }

/-- Disable a ring without draining it: entries fetched and not begun end with a cause, and nothing more is written for
the ring (R482, R483). -/
def cutRing (s : State) (f : Func) (r cause : Nat) : State :=
  match Table.find s.hif.rings (ringKey f r) with
  | none => s
  | some g =>
    let s := g.fetched.foldl (fun s x => logEntryEnd s f r x.1 cause) s
    let s := { s with cc := { s.cc with doorbells := s.cc.doorbells.filter fun d => d.1 != ringKey f r } }
    s.modRing f r fun g => { g with enable := false, enabled := false, fetched := [], open_ := 0, heldEntries := [] }

/-- Disable every ring of a function. -/
def cutRings (s : State) (f : Func) (cause : Nat) : State := (List.range 64).foldl (fun s r => cutRing s f r cause) s

/-- Whether a command in progress is a partition reset's own. -/
def isResetCmd (c : Cmd) : Bool :=
  match c.wait with
  | .partitionReset _ => true
  | _ => false

/-- A command in progress that a partition's reset ends (R483): silently on its own rings, with its completion entry
elsewhere. -/
def endCmdByReset (p : Nat) (s : State) (c : Cmd) : State :=
  if isResetCmd c ∨ !(c.func == vfOf p || cmdPart c.entry == p) then s
  else if c.func == vfOf p then
    logEntryEnd { s with cmds := s.cmds.filter fun x => x ≠ c } c.func c.ring c.entry 0x0801
  else endCmd s c 0x0801

/-- The swaps of an instance of the partition end (R483). -/
def endSwapsByReset (p : Nat) (s : State) (i : Instance) : State :=
  let ws := (instOf s i).swaps
  let s := s.modInst i fun x => { x with swaps := [] }
  ws.foldl (fun s w =>
    if w.func == vfOf p then logEntryEnd s w.func w.ring w.entry 0x0801
    else answerCommand s ⟨w.func, w.ring, w.sqHead, w.answer⟩ w.entry 0x0801 (wingOf (instHome s i))) s

/-- Swaps of other instances that rings of a function began go on without their completion entries (R482, R483). -/
def muteSwaps (s : State) (p : Func → Bool) : State :=
  { s with insts := s.insts.map fun x =>
      (x.1, { x.2 with swaps := x.2.swaps.map fun w => if p w.func then { w with answer := false } else w }) }

/-- Structure instances of a partition. -/
def partInsts (p : Fin 16) : List Instance := [.kv p .east, .kv p .west, .pfx p .east, .pfx p .west]

/-- An issued task ends uncommitted at once with a cause (R138, R142). -/
def endTaskNow (s : State) (t : Task) (cause : Nat) : State :=
  let s := logTask s t cause
  let s := if t.dispatched then scribbleRanges s (taskCtx s t) (taskDests s t) else s
  finishTask (addCtr (closeTaskColl s t cause) (blkSch t.home) 0x0138) t cause

/-- A task of the partition ends uncommitted with 0x0801 and no record (R142, R483). -/
def endTaskByReset (s : State) (t : Task) : State := endTaskNow s { t with answer := false } 0x0801

/-- Tasks of a partition. -/
def partTasks (s : State) (p : Nat) : List Task := s.tasks.filter fun t => t.func != .pf0 && t.part == p

/-! ### Step 3 of R483 -/

/-- Whether this module's member of a context's group that relays at a wing belongs to the partition (R417). -/
def relaysFor (s : State) (w : Wing) (p : Nat) (k : CollKey) : Bool :=
  let s := hideRegs (hideRegs s .east) .west
  match (currentAt s .group (.junction w)).bind fun n => editionOf s .group n with
  | none => false
  | some e =>
    match groupEntryAt s e.hdr k.group.toNat with
    | .error _ => false
    | .ok g => (List.range (geCount g)).any fun m =>
        match memberRec s g m with
        | .ok x => mrModule x == ownNode s && mrWing x == w && mrPart x == p
        | .error _ => false

/-- Whether a context ends with a partition's reset (R417). -/
def collOfPart (s : State) (w : Wing) (p : Nat) (c : Coll) : Bool :=
  match c.task.bind (taskOf s) with
  | some t => t.part == p
  | none => relaysFor s w p c.key

/-- A collective fails at this wing with cause 0x0403 (R417). -/
def resetColl (s : State) (w : Wing) (p : Nat) (c : Coll) : State :=
  let s := closeColl s w c.key
  if c.task.isNone then s
  else
    logCause (reportColl s w c.key p 0x0403) { wing := w, unit := .junction, cause := 0x0403, part := p, detail := c.key.group.toNat }

/-- The partition's collectives end in a wing. -/
def resetColls (p : Nat) (s : State) (w : Wing) : State :=
  ((s.jn.get w).ctxs.filter (collOfPart s w p)).foldl (fun s c => resetColl s w p c) s

/-- The partition's car sets end in a wing, without a notice (R340, R483). -/
def resetCarSets (p : Nat) (s : State) (w : Wing) : State :=
  ((s.carSets.get w).filter fun c => c.key.part.val == p).foldl (fun s c => endCarSet s w c false) s

/-! ### Steps 4 to 6 of R483 -/

/-- Withdraw an instance's current edition everywhere; it retires once unpinned (R40, R483). -/
def withdrawInst (s : State) (i : Instance) : State :=
  retireUnpinned (s.modInst i fun x => { x with current := none, atUnit := [] }) i

/-- Return a frame of the partition: its dirty sectors are written back and its bytes written to zero (R483). -/
def returnFrame (t : Tile) (s : State) (f : Nat × Frame) : State :=
  freeFrame (zeroPa (writeBack s t f.1 f.2) (frameBase t f.1) 0x10000) t f.1

/-- Drop what a tile keeps for a partition: translations, look-aside entries and frames but those of a stuck
write-back (R483, assumption log 17). -/
def dropTileState (p : Nat) (s : State) (t : Tile) : State :=
  let s := ((s.tmem.get t).frames.filter fun f => f.2.owner == p && f.2.stuck.isNone).foldl (returnFrame t) s
  dropLab (s.modMem t fun m => { m with tlb := m.tlb.filter fun e => e.part != p }) t fun e => e.part == p

/-- Zero the granted banks and accumulator regions of a partition on a tile (R483). -/
def zeroGrant (p : Nat) (s : State) (t : Tile) : State :=
  let g := effectiveGrant (partRec (cfgAt s t) p) t
  ((List.range 336).filter (inGrant g)).foldl (fun s n =>
    zeroCore s (coreIndex t n) ((List.range g.bankCount).map (g.bankFirst + ·)) ((List.range g.accCount).map (g.accFirst + ·))) s

/-! ### A partition's reset -/

/-- Steps 1 to 6 of R483, with the ranges of step 7 recorded; a reset in progress absorbs another (R486). -/
def beginReset (s : State) (p : Fin 16) : State :=
  if resettingPart s p.val then s
  else
    let pages := kvRanges s p
    let s := s.modHif fun h =>
      { h with resetting := h.resetting ||| BitVec.ofNat 16 (2 ^ p.val), zeroing := Table.set [] h.zeroing p.val pages }
    let s := raise (addCtr s blkHif 0x0118) 0x0801 p.val blkHif p.val
    let s := cutRings s (.vf p) 0x0801
    let s := [Wing.east, .west].foldl (resetColls p.val) s
    let s := s.cmds.foldl (endCmdByReset p.val) s
    let s := (partInsts p).foldl (endSwapsByReset p.val) s
    let s := muteSwaps s fun f => f == .vf p
    let s := (partTasks s p.val).foldl endTaskByReset s
    let s := { s with sidings := s.sidings.filter fun x => x.part != p.val }
    let s := [Wing.east, .west].foldl (resetCarSets p.val) s
    let s := (partInsts p).foldl withdrawInst s
    let s := allTiles.foldl (dropTileState p.val) s
    allTiles.foldl (zeroGrant p.val) s

/-- Perform a partition reset command: its completion entry waits for the reset's end (R482, R486). -/
def performReset (s : State) (o : Origin) (e : Entry) : State :=
  let p : Fin 16 := Fin.ofNat 16 (cmdPart e)
  beginReset { s with cmds := s.cmds ++ [{ func := o.func, ring := o.ring, entry := e, sqHead := o.sqHead, answer := o.answer
                                           wait := .partitionReset p.val }] } p

/-- PARTITION_RESET_CMD (R482). -/
def execPartitionResetCmd (f : Func) (r : Fin 64) (s : State) : Host.Outcome State Fault Refusal :=
  .next (beginCommand s f r.val 8 performReset)

/-- FUNCTION_LEVEL_RESET (R482, R483): Initiate Function Level Reset on a VF that answers. -/
def execFunctionLevelReset (part : Fin 16) (s : State) : Host.Outcome State Fault Refusal :=
  .next (if hostReaches s (.vf part) then beginReset s part else s)

/-- Whether a command waits for the reset of a partition. -/
def waitsReset (p : Nat) (c : Cmd) : Bool :=
  match c.wait with
  | .partitionReset q => q == p
  | _ => false

/-- PARTITION_RESET_DONE (R483): the pages have been written to zero; the reset ends, and with the last partition's a
PF0 reset. -/
def execPartitionResetDone (part : Fin 16) (s : State) : Host.Outcome State Fault Refusal :=
  .next (if !resettingPart s part.val then s
    else
      let s := (Table.get [] s.hif.zeroing part.val).foldl (fun s r => zeroPa s r.1 r.2) s
      let s := s.modHif fun h =>
        let left := h.resetting &&& ~~~ BitVec.ofNat 16 (2 ^ part.val)
        { h with resetting := left, zeroing := Table.set [] h.zeroing part.val [], pf0Resetting := h.pf0Resetting && left != 0 }
      let s := raise s 0x0802 part.val blkHif part.val
      (s.cmds.filter (waitsReset part.val)).foldl (fun s c => endCmd s c 0) s)

/-! ### VF Enable and PF0 -/

/-- VF Enable goes from 1 to 0: every VF's rings and page return to their reset values (R482). -/
def clearVfs (s : State) : State :=
  s.modHif fun h =>
    { h with vfEnable := false, rings := h.rings.filter fun x => decide (x.1 < 64), pages := h.pages.filter fun x => x.1 == 0 }

/-- Reset every partition (R482). -/
def resetAll (s : State) : State := (List.finRange 16).foldl beginReset s

/-- VF Enable is cleared: every partition is reset (R482). -/
def dropVfEnable (s : State) : State := clearVfs (resetAll s)

/-- VF_ENABLE_CLEAR (R482). -/
def execVfEnableClear (s : State) : Host.Outcome State Fault Refusal :=
  .next (if hostReaches s .pf0 && s.hif.vfEnable then dropVfEnable s else s)

/-- A PF0 ring is reset: the commands it had fetched go on unanswered, task entries end with 0x0155 (R481, R482). -/
def orphanRing (s : State) (r : Nat) : State :=
  let g := ringOf s .pf0 r
  let s := (g.fetched.filter fun x => entryKind x.1 != 0).foldl (fun s x => logEntryEnd s .pf0 r x.1 0x0155) s
  s.modHif fun h =>
    { h with
      orphans := h.orphans ++ (g.fetched.filter fun x => entryKind x.1 == 0).map fun x => (r, g.home, x.1)
      rings := Table.erase h.rings (ringKey .pf0 r) }

/-- A PF0 reset (R482): commands in progress of PF0's rings go on unanswered, PF0's rings and page return to their reset
values, the event queue is disabled (R562), VF Enable clears and every partition is reset; a reset in progress absorbs
another. -/
def resetPf0 (s : State) : State :=
  if s.hif.pf0Resetting then s
  else
    let s := { s with cmds := updateWhere (fun c => c.func == .pf0) (fun c => { c with answer := false }) s.cmds }
    let s := muteSwaps s fun f => f == .pf0
    let s := (List.range 16).foldl orphanRing s
    let s := { s with cc := { s.cc with doorbells := s.cc.doorbells.filter fun d => !decide (d.1 < 64) } }
    let s := s.modHif fun h =>
      { h with
        pf0Resetting := true
        pages := Table.erase h.pages 0
        mbx := {}
        logs := { h.logs with evqEnable := false } }
    let s := s.modCst fun c => { c with queue := c.queue.filter fun q => !q.isMailbox, mbxXfer := none }
    dropVfEnable s

/-- The data link is down (R487). -/
def linkDown (s : State) : State :=
  s.modHif fun h => { h with linkUp := false, speed := 0, width := 0, flit := false, cxl := false }

/-- PERST_N is asserted: the port is held in reset; after SHUNT that is a PF0 reset (R482, R529). -/
def assertPerst (s : State) : State :=
  let s := linkDown (s.modPower fun p => { p with perstN := false, portReset := true })
  if mainUp s then resetPf0 s else s

/-- PF0_RESET by each of its triggers (R482). A link that goes down before SHUNT resets nothing. -/
def execPf0Reset (how : Pf0Trigger) (s : State) : Host.Outcome State Fault Refusal :=
  .next (match how with
    | .flr => if hostReaches s .pf0 then resetPf0 s else s
    | .hotReset => if hostReaches s .pf0 then resetPf0 s else s
    | .linkDown => if !s.hif.linkUp then s else (let s := linkDown s; if mainUp s then resetPf0 s else s)
    | .perst => assertPerst s)

end Sys2Proof.Machine
end

