-- ==== Sys2Proof/Machine/Power.lean ====
section
/-!
DEFINITION. Rails, waking and the transitions of the device state (R507 to R509, R521 to R532), the PCIe port's own
events (R462, R464, R529, R530), and the power states of clusters and stacks (R533 to R535).
-/

namespace Sys2Proof.Machine

/-! ### Transitions (R508, R509) -/

/-- Target of a wake by rule or at power (R509). -/
def wakeTarget (s : State) : DevState := if dictVal s 0x2005 0 = 1 then .service else .shunt

/-- A wake begins (R509, R525). -/
def startWake (s : State) (target : DevState) : State :=
  enterState (s.modCst fun c => { c with target := target, lost := false }) .waking

/-- A wake by a rule or at power. -/
def autoWake (s : State) : State := startWake s (wakeTarget s)

/-- The function of a number (R564). -/
def funcOfNum (n : Nat) : Func := if n = 0 then .pf0 else .vf (Fin.ofNat 16 (n - 1))

/-- A fetched entry whose issue check has not begun ends with a cause (R509). -/
def endUnissued (f : Func) (r cause : Nat) (s : State) (x : Entry × Nat) : State :=
  if entryKind x.1 = 0 then answerCommand s ⟨f, r, x.2, true⟩ x.1 cause (wingOf (ringOf s f r).home)
  else answerEntry (logEntryEnd s f r x.1 cause) f r { tag := entryTag x.1, cause := cause, sqHead := x.2, ring := r }

/-- Every ring's fetched entries that have not begun end with 0x0803 (R509). -/
def endAllUnissued (s : State) : State :=
  let orphans := s.hif.orphans
  let s := s.modHif fun h => { h with orphans := [] }
  let s := orphans.foldl (fun s x => logEntryEnd s .pf0 x.1 x.2.2 0x0803) s
  s.hif.rings.foldl (fun s x =>
    let f := funcOfNum (x.1 / 64)
    let r := x.1 % 64
    x.2.fetched.foldl (endUnissued f r 0x0803) (s.modRing f r fun g => { g with fetched := [] })) s

/-- SERVICE or LIMITED is left (R509). -/
def leaveService (s : State) : State := endAllUnissued (enterState s .leaving)

/-- Go on towards the target from a state in which no transition runs (R508, R509). From SHUNT, SERVICE_ENTRY goes on
to SERVICE. -/
def settleTarget (s : State) : State :=
  match s.cst.state, s.cst.target with
  | .shunt, .depot => enterState s .toDepot
  | .service, .shunt => leaveService s
  | .service, .depot => leaveService s
  | .limited, .shunt => leaveService s
  | .limited, .depot => leaveService s
  | .depot, .shunt => enterState (s.modCst fun c => { c with lost := false }) .waking
  | .depot, .service => enterState (s.modCst fun c => { c with lost := false }) .waking
  | _, _ => s

/-- Enter SHUNT and go on (R508). -/
def enterShunt (s : State) : State := settleTarget (enterState s .shunt)

/-- Main power has been taken down: the module is in DEPOT (R509). -/
def enterDepot (s : State) : State := enterState (dropMain s) .depot

/-! ### Leaving service -/

/-- Break the streams of stages that end together: every handle of each becomes free (R209). -/
def breakStreams (s : State) (ts : List Task) : State :=
  let ks := (ts.map fun t => (t.part, t.wing, stageStream t, t.home)).foldl (fun l k =>
    if l.any fun (y : Nat × Wing × Nat × Tile) => y.1 == k.1 && y.2.1 == k.2.1 && y.2.2.1 == k.2.2.1 then l else l ++ [k]) []
  ks.foldl (fun s k =>
    let s := { s with sidings := updateWhere (fun x => x.part == k.1 && x.wing == k.2.1) (fun x => x.dropStream k.2.2.1) s.sidings }
    addCtr (raise s 0x0503 k.2.2.1 (blkSch k.2.2.2) k.1) (blkSch k.2.2.2) 0x0438) s

/-- Whether a swap is being applied at its units. -/
def Swap.applying (w : Swap) : Bool :=
  match w.stage with
  | .applying _ => true
  | _ => false

/-- Swaps of an instance that are not yet being applied end with a cause (R509). -/
def endWaitingSwaps (cause : Nat) (s : State) (i : Instance) : State :=
  let ws := (instOf s i).swaps.filter fun w => !w.applying
  let s := s.modInst i fun x => { x with swaps := x.swaps.filter Swap.applying }
  ws.foldl (fun s w =>
    answerCommand s ⟨w.func, w.ring, w.sqHead, w.answer⟩ w.entry cause (wingOf (instHome s i))) s

/-- Cause with which a task that is still there ends: its first fault's, if it has one (R142, R509). -/
def drainCause (t : Task) : Nat :=
  match t.status with
  | .stopping c => c.toNat
  | _ => 0x0803

/-- Everything still running ends uncommitted with 0x0803 (R509). -/
def endAllWork (s : State) : State :=
  let ts := s.tasks
  let s := ts.foldl (fun s t => endTaskNow s t (drainCause t)) s
  let s := breakStreams s (ts.filter fun t => t.isStage && t.dispatched)
  let s := s.cmds.foldl (fun s c => endCmd s c 0x0803) s
  (s.insts.map (·.1)).foldl (endWaitingSwaps 0x0803) s

/-- SHUNT_DRAIN_EXPIRY (R509). -/
def execShuntDrainExpiry (s : State) : Host.Outcome State Fault Refusal :=
  .next (if s.cst.state = .leaving then orWait s fun s => enterShunt (endAllWork s) else s)

/-- Whether nothing issued is left. -/
def workEnded (s : State) : Bool := s.tasks.isEmpty && s.cmds.isEmpty && s.insts.all fun x => x.2.swaps.isEmpty

/-- LEAVING_SERVICE_DRAINED (R509). -/
def execLeavingServiceDrained (s : State) : Host.Outcome State Fault Refusal :=
  .next (if s.cst.state = .leaving ∧ workEnded s then enterShunt s else s)

/-- DEPOT_RAILS_DOWN (R509, R525): the module is in DEPOT, and wakes again if its target has changed meanwhile. -/
def execDepotRailsDown (s : State) : Host.Outcome State Fault Refusal :=
  .next (if s.cst.state = .toDepot then settleTarget (enterDepot s) else s)

/-! ### The input (R522, R523) -/

/-- Node of a strap value (R580). -/
def nodeOf (strap : Fin 128) : Nat := if strap.val = 0 then 127 else strap.val

/-- INPUT_POWER_ON (R493, R522, R529): the Custodian restarts with its stored entries, and wakes when WAKE_AT_POWER
is 1. -/
def execInputPowerOn (strap : Fin 128) (s : State) : Host.Outcome State Fault Refusal :=
  .next (if s.power.inputPower then s
    else
      let fresh : Custodian := { dict := s.cst.store, store := s.cst.store, worn := s.cst.worn, strap := nodeOf strap }
      let s := { s with cst := fresh, power := { s.power with inputPower := true } }
      let s := s.modCst fun c =>
        { c with node := dictVal s 0x1030 0, arbRate := dictVal s 0x1031 0, dataRate := dictVal s 0x1032 0 }
      if dictVal s 0x2006 0 = 1 then autoWake s else s)

/-- INPUT_POWER_LOSS (R522): the Custodian stops, and all but its store is lost. -/
def execInputPowerLoss (s : State) : Host.Outcome State Fault Refusal :=
  .next (if s.power.inputPower then
      let s := dropMain s
      { s with
        cst := { store := s.cst.store, worn := s.cst.worn, strap := s.cst.strap, node := s.cst.node }
        power := { s.power with inputPower := false }
        hiCst := 0 }
    else s)

/-- Whether main power is on or rising. -/
def mainOn (s : State) : Bool :=
  match s.cst.state with
  | .depot => false
  | .halt => false
  | _ => s.power.inputPower

/-- A loss of main power that no CUT caused (R523): MAIN_LOSS counts, and the module is in DEPOT, or in HALT when
rule 2 is active. -/
def loseMain (s : State) : State :=
  let s := s.modCst fun c => { c with mainLoss := min (2 ^ 32 - 1) (c.mainLoss + 1), target := .depot, lost := true }
  if (ruleState s 2).active then enterHalt s 2 else enterDepot s

/-- MAIN_POWER_LOSS (R523). -/
def execMainPowerLoss (s : State) : Host.Outcome State Fault Refusal := .next (if mainOn s then loseMain s else s)

/-- Filtered value of a channel (R512, R513). -/
def filteredOf (s : State) (c : Nat) : Int := ((Table.find s.cst.channels c).map (·.filtered)).getD 0

/-- INPUT_RECOVERY (R523): the recovery counts as input power for WAKE_AT_POWER alone. -/
def execInputRecovery (s : State) : Host.Outcome State Fault Refusal :=
  .next (if s.power.inputPower ∧ s.cst.lost ∧ 46000 ≤ filteredOf s 0 then
      let s := s.modCst fun c => { c with lost := false }
      if s.cst.state = .depot ∧ dictVal s 0x2006 0 = 1 then autoWake s else s
    else s)

/-! ### Rails (R524 to R526) -/

/-- Bit of a rail. -/
def railBit (k : Nat) : BitVec 6 := BitVec.ofNat 6 (2 ^ k)

/-- RAIL_PHASE_LOST (R524). -/
def execRailPhaseLost (w : Wing) (rail : Fin 6) (s : State) : Host.Outcome State Fault Refusal :=
  .next (if (s.power.good.get w).getLsbD rail.val ∧ !(s.power.phaseLost.get w).getLsbD rail.val then
      let s := s.modPower fun p => { p with phaseLost := p.phaseLost.modify w fun b => b ||| railBit rail.val }
      raise (addCtr s (blkPwr w) 0x1018) 0x0706 rail.val (blkPwr w)
    else s)

/-- RAIL_OUT_OF_REGULATION (R524): a loss of main power. -/
def execRailOutOfRegulation (w : Wing) (rail : Fin 6) (s : State) : Host.Outcome State Fault Refusal :=
  .next (if mainOn s ∧ (s.power.good.get w).getLsbD rail.val then loseMain s else s)

/-- Whether rail k is the next to rise (R525). -/
def railNext (s : State) (k : Nat) : Bool :=
  s.cst.state == .waking && !s.power.pwrGood && s.power.good.east.toNat == 2 ^ k - 1

/-- RAIL_IN_REGULATION (R525): after the last rail PWR_GOOD is asserted, and the PCIe port may leave reset (R529), or WAKE_N
asks for PERST_N's release (R579). -/
def execRailInRegulation (rail : Fin 6) (s : State) : Host.Outcome State Fault Refusal :=
  .next (if railNext s rail.val then
      s.modPower fun p =>
        let last := rail.val == 5
        { p with
          good := ⟨p.good.east ||| railBit rail.val, p.good.west ||| railBit rail.val⟩
          pwrGood := last
          portReset := !(last && p.perstN)
          wakeN := !(last && !p.perstN) }
    else s)

/-- WAKE_FAIL code (R526). -/
def wakeFailCode : WakeFailure → Nat
  | .rail k => 0x10 + k.val
  | .clocks => 0x20
  | .ioTile => 0x30

/-- Whether a wake can fail so now: a rail in its window, clocks and I/O tiles in step 1 (R526, R527). -/
def wakeMayFail (s : State) (how : WakeFailure) : Bool :=
  match how with
  | .rail k => railNext s k.val
  | _ => s.cst.state == .waking && s.power.pwrGood && s.power.wakeStep == 0

/-- WAKE_FAIL (R526). -/
def execWakeFail (how : WakeFailure) (s : State) : Host.Outcome State Fault Refusal :=
  .next (if wakeMayFail s how then
      enterDepot (s.modCst fun c =>
        { c with wakeFail := wakeFailCode how, wakeFails := min (2 ^ 32 - 1) (c.wakeFails + 1), target := .depot, wakeIgnored := true })
    else s)

/-! ### Waking (R527, R528) -/

/-- The fuses' map of each column (R22, R527). -/
def loadFuses (s : State) (fuses : List Defect) : State :=
  fuses.foldl (fun s d => s.modSch d.tile fun x => { x with defects := Table.insert x.defects d.column.val d.row.val }) s

/-- Step 1: the fuses are loaded, the Timetable counters run, held writes have reached the main device, and fabric and Concourse begin to
train (R333, R429, R442, R492, R527). -/
def wakeStep1 (s : State) (fuses : List Defect) : State :=
  let s := (loadFuses s fuses).modCst fun c => { c with heldWrites := [] }
  let run (t : Timetable) : Timetable := { t with running := true }
  let s := (s.modTt .east run).modTt .west run
  let en := dictVal s 0x3030 0 == 1
  let s := { s with tmem := s.tmem.map fun _ m => { m with en := en }, cc := { s.cc with state := .training } }
  [Wing.east, .west].foldl (fun s w => (List.finRange 6).foldl (fun s p => applyGenAllow s w p) s) s

/-- A pseudo-channel that has not trained (R550, R551): retired into a free reserve; without one its reads fail and its
writes are lost. -/
def failTraining (s : State) (x : Tile × Fin 512) : State :=
  let s := failPseudoChannel s x.1 x.2.val
  let m := s.tmem.get x.1
  if m.moving && m.retiredPc == x.2.val then s
  else s.modMem x.1 fun m => { m with dead := insertSorted m.dead x.2.val }

/-- Step 3: stacked memory is zero and free of poison; pseudo-channels that have not trained are failed, and bit 3 of
the reasons follows (R527, R551). -/
def wakeStep3 (s : State) (untrained : List (Tile × Fin 512)) : State :=
  let s := { s with mem := memZero s.mem 0x010000000000 0x020000000000, poison := s.poison.filter fun b => !isStacked (64 * b) }
  let s := untrained.foldl failTraining s
  if allTiles.any fun t => (s.tmem.get t).unspared then setReason s 3 else clearReason s 3

/-- A current edition 0 of all zero bytes at every unit that pins it (R528). -/
def zeroEdition (s : State) (i : Instance) (copy : List Byte) : State :=
  s.modInst i fun _ =>
    { home := .e0, current := some 0, live := [{ num := 0, base := 0, hdr := 0, copy := copy }]
      atUnit := (pinUnits s i).map fun u => (u, some 0) }

/-- Step 4: on-chip memory is zero, the Stationmasters start, and the module enters SHUNT (R527, R528). -/
def wakeStep4 (s : State) : State :=
  let s := { s with mem := memZero s.mem 0 0x100000000, poison := s.poison.filter fun b => !isOnChip (64 * b) }
  let s := zeroEdition (zeroEdition s .partCfg (List.replicate 4096 0)) .group []
  enterShunt (startAcquiring (startAcquiring s .east) .west)

/-- WAKE_STEP_DONE (R527). -/
def execWakeStepDone (step : Fin 5) (found : WakeFindings) (s : State) : Host.Outcome State Fault Refusal :=
  .next (if s.cst.state = .waking ∧ s.power.pwrGood ∧ step.val = s.power.wakeStep + 1 then
      let s := s.modPower fun p => { p with wakeStep := step.val }
      match step.val with
      | 1 => wakeStep1 s found.fuses
      | 3 => wakeStep3 s found.untrained
      | 4 => wakeStep4 s
      | _ => s
    else s)

/-- Grant the credits that were withheld before SERVICE (R532). -/
def grantCredits (k : Link) : Link :=
  { k with
    crGiven := k.crHeld.foldl (fun t x => Table.set 0 t x.1 (Table.get 0 t x.1 + x.2)) k.crGiven
    crHeld := [] }

/-- Grant them on every link. -/
def grantAllCredits (s : State) : State :=
  { s with
    ports := s.ports.map fun x => (x.1, { x.2 with link := grantCredits x.2.link })
    cc := { s.cc with east := grantCredits s.cc.east, west := grantCredits s.cc.west } }

/-- Whether a tile's array tests have ended: no position is under test or being spared (R531). -/
def testsEnded (s : State) (t : Tile) : Bool :=
  (s.sch.get t).coreState.all fun x => x.2 == 2

/-- SERVICE_ENTRY (R531): the lanes that failed are marked, the ring configuration is checked, and the module enters
SERVICE, or LIMITED by a reason that is not accepted (R509, R510). -/
def execServiceEntry (eastLanes westLanes : BitVec 2) (s : State) : Host.Outcome State Fault Refusal :=
  .next (if s.cst.state = .shunt ∧ s.cst.target = .service ∧ allTiles.all (testsEnded s) then
      let s := s.modJn .east fun j => { j with laneFailed := j.laneFailed ||| eastLanes }
      let s := s.modJn .west fun j => { j with laneFailed := j.laneFailed ||| westLanes }
      let s := checkRing (checkRing s .east) .west
      let s := if concourseUp s then s else setReason s 2
      let bad := s.cst.limitedReasons &&& ~~~ BitVec.ofNat 32 (dictVal s 0x2004 0)
      grantAllCredits (enterState s (if bad = 0 then .service else .limited))
    else s)

/-! ### The PCIe port (R462, R464, R477, R482, R529, R530) -/

/-- PERST_N_DEASSERT (R529, R579): before PWR_GOOD the port stays in reset until it, and WAKE_N ends. -/
def execPerstDeassert (s : State) : Host.Outcome State Fault Refusal :=
  .next (s.modPower fun p => { p with perstN := true, portReset := !p.pwrGood, wakeN := true })

/-- PERST_N_ASSERT (R529). -/
def execPerstAssert (s : State) : Host.Outcome State Fault Refusal := .next (assertPerst s)

/-- Whether a rate, width and mode belong together (R462, R469, R487). -/
def linkModeOk (speed : BitVec 4) (width : Nat) (flit cxl : Bool) : Bool :=
  (width == 8 || width == 16) && (speed == 4 || speed == 5 || speed == 6)
    && (if speed == 6 then flit else !(cxl && flit))

/-- PCIE_LINK_UP (R462, R487): the port trains once it is out of reset. -/
def execPcieLinkUp (speed : BitVec 4) (width : Nat) (flit cxl : Bool) (s : State) : Host.Outcome State Fault Refusal :=
  .next (if !s.power.portReset && fabricOn s && !s.hif.linkUp && linkModeOk speed width flit cxl then
      s.modHif fun h => { h with linkUp := true, speed := speed, width := width, flit := flit, cxl := cxl }
    else s)

/-- Bus Master Enable of a function is written; when set, what waited goes out (R477). -/
def setBusMaster (s : State) (f : Func) (on : Bool) : State :=
  let s := s.modPage f fun p => { p with busMaster := on }
  if on then flushMsix (flushFunc s f) f else s

/-- A configuration-space field of a function (R465, R477, R482); none where the spec gives it no value: the SR-IOV fields and
the identification of a VF. -/
def configField (s : State) (f : Func) (r : ConfigField) : Option Nat :=
  match f, r with
  | _, .busMaster => some (pageOf s f).busMaster.toNat
  | .pf0, .vendorId => some (dictVal s 0x1018 1 % 0x10000)
  | .pf0, .deviceId => some 0xF572
  | .pf0, .vfDeviceId => some 0xF573
  | .pf0, .classCode => some 0x120000
  | .pf0, .totalVfs | .pf0, .initialVfs => some 16
  | .pf0, .vfOffset | .pf0, .vfStride => some 1
  | .pf0, .vfEnable => some s.hif.vfEnable.toNat
  | .vf _, _ => none

/-- A field is read; one without a value of the spec's returns free bytes. Assumption log 141. -/
def readConfig (s : State) (f : Func) (r : ConfigField) : State :=
  match configField s f r with
  | some v => setRead s (leBytes 4 v) false
  | none => let (bs, s) := freeBytes s 4; setRead s bs false

/-- CONFIGURATION_REQUEST (R464, R482, R530): Retry Status until SHUNT; a VF answers only while VF Enable is set. -/
def execConfigurationRequest (f : Func) (req : ConfigRequest) (s : State) : Host.Outcome State Fault Refusal :=
  .next (if !s.hif.linkUp then s
    else if !mainUp s then { s with cfgRetry := true }
    else
      let s := { s with cfgRetry := false }
      if !hostReaches s f then s
      else match req with
        | .setBusMaster on => setBusMaster s f on
        | .setVfEnable => if f = .pf0 then s.modHif fun h => { h with vfEnable := true } else s
        | .read r => readConfig s f r
        | .other => s)

/-! ### Output pins (R578, R579, R581) -/

/-- The sideband pins that the module drives (R578). -/
inductive OutPin where
  | wakeN | alertN | pwrGood | prsntN
deriving DecidableEq, Repr

/-- Level of a pin; none while it is not driven: an open drain that is not asserted, or no input power. PRSNT_N is tied to
ground. -/
def pinLevel (s : State) : OutPin → Option Bool
  | .prsntN => some false
  | .pwrGood => if s.power.inputPower then some s.power.pwrGood else none
  | .wakeN => if s.power.inputPower && !s.power.wakeN then some false else none
  | .alertN => if s.power.inputPower && !s.cst.alertN then some false else none

/-! ### Clusters (R533, R534) -/

/-- Whether a cluster holds no enabled core: every core is a spare or retired, and no spare of it is being started
(R27, R553). -/
def clusterOff (s : State) (t : Tile) (row : Nat) : Bool :=
  !((List.range 336).any fun n => physRow s t n == row && coreStateOf s t n != 2)
    && !(row == 21 && !(s.sch.get t).sparing.isEmpty)

/-- Whether a phase is active on a core of a cluster. -/
def clusterBusy (s : State) (t : Tile) (row : Nat) : Bool :=
  s.tasks.any fun x => x.cores.any fun i => coreTile i == t && physRow s t (i % 336) == row

/-- CLUSTER_CLOCK_GATE (R533). -/
def execClusterClockGate (t : Tile) (row : Fin 22) (s : State) : Host.Outcome State Fault Refusal :=
  .next (if mainUp s && !clusterOff s t row && (clusterOf s t row).state == .run && !clusterBusy s t row then
      s.modCluster t row fun c => { c with state := .gated, waking := false }
    else s)

/-- CLUSTER_RETENTION (R533). -/
def execClusterRetention (t : Tile) (row : Fin 22) (s : State) : Host.Outcome State Fault Refusal :=
  let c := clusterOf s t row
  .next (if mainUp s && c.state == .gated && !c.waking then s.modCluster t row fun c => { c with state := .retention } else s)

/-- CLUSTER_WAKE_DONE (R533). -/
def execClusterWakeDone (t : Tile) (row : Fin 22) (s : State) : Host.Outcome State Fault Refusal :=
  .next (if (clusterOf s t row).waking then s.modCluster t row fun c => { c with state := .run, waking := false } else s)

/-- Begin a change to the lower of the load point and the thermal cap, if it differs from the point (R534). -/
def settlePoint (c : Cluster) : Cluster :=
  let want := max c.load c.cap
  if c.changing.isSome || want == c.point then c else { c with changing := some want }

/-- DVFS_LOAD_WINDOW (R534): more than half of the cycles waited lowers the load point, less than a quarter raises
it. -/
def execDvfsLoadWindow (t : Tile) (row : Fin 22) (waited cycles : Nat) (s : State) : Host.Outcome State Fault Refusal :=
  .next (if mainUp s && !clusterOff s t row && (clusterOf s t row).state == .run && cycles != 0 then
      s.modCluster t row fun c =>
        settlePoint { c with load :=
          if cycles < 2 * waited then min 2 (c.load + 1) else if 4 * waited < cycles then c.load - 1 else c.load }
    else s)

/-- A temperature in whole °C, saturating in 8 bits (R542). -/
def tempField (milliC : Int) : Nat := min 255 (milliC / 1000).toNat

/-- Number of a cluster within its wing (R542). -/
def clusterNum (t : Tile) (row : Nat) : Nat := 22 * (tileIdx t % 2) + row

/-- One reading of a cluster's sensor (R534): ten in a row above 105 °C lower the cap, a hundred below 100 °C raise
it. -/
def heatCluster (c : Cluster) (milliC : Int) : Cluster :=
  let hot := if 105000 < milliC then c.hot + 1 else 0
  let cool := if milliC < 100000 then c.cool + 1 else 0
  let c := { c with temp := tempField milliC, hot := hot % 10, cool := cool % 100 }
  settlePoint (if hot = 10 then { c with cap := min 3 (c.cap + 1) } else if cool = 100 then { c with cap := c.cap - 1 } else c)

/-- THERMAL_CAP_SAMPLE (R534, R544). -/
def execThermalCapSample (t : Tile) (row : Fin 22) (milliC : Int) (s : State) : Host.Outcome State Fault Refusal :=
  .next (if !mainUp s || clusterOff s t row then s
    else
      let old := clusterOf s t row
      let now := heatCluster old milliC
      let s := s.modCluster t row fun _ => now
      let b := blkPwr (wingOf t)
      if old.cap = 0 ∧ now.cap ≠ 0 then raise (addCtr s b 0x1008) 0x0704 (clusterNum t row) b
      else if old.cap ≠ 0 ∧ now.cap = 0 then raise s 0x0705 (clusterNum t row) b
      else s)

/-- DVFS_POINT_CHANGE_DONE (R534). -/
def execDvfsPointChangeDone (t : Tile) (row : Fin 22) (s : State) : Host.Outcome State Fault Refusal :=
  .next (match (clusterOf s t row).changing with
    | none => s
    | some x => addCtr (s.modCluster t row fun c => settlePoint { c with point := x, changing := none }) (blkPwr (wingOf t)) 0x1000)

/-! ### Stacks (R535) -/

/-- A stack. -/
def stackOf (s : State) (k : Nat) : Stack := (Table.find s.power.dram k).getD {}

/-- Change a stack. -/
def State.modStack (s : State) (k : Nat) (f : Stack → Stack) : State :=
  s.modPower fun p => { p with dram := Table.insert p.dram k (f (stackOf s k)) }

/-- Whether the stacks have trained (R527). -/
def memoryUp (s : State) : Bool := s.power.pwrGood && decide (3 ≤ s.power.wakeStep)

/-- Wing of a stack (R542). -/
def stackWing (k : Nat) : Wing := if k < 16 then .east else .west

/-- PSEUDO_CHANNEL_POWER_DOWN (R535). -/
def execPseudoChannelPowerDown (t : Tile) (pc : Fin 512) (s : State) : Host.Outcome State Fault Refusal :=
  .next (if memoryUp s then
      s.modStack (8 * tileIdx t + pc.val / 64) fun x => { x with down := insertSorted x.down pc.val }
    else s)

/-- STACK_SELF_REFRESH_ENTRY (R535). -/
def execStackSelfRefreshEntry (stack : Fin 32) (s : State) : Host.Outcome State Fault Refusal :=
  .next (if memoryUp s && !(stackOf s stack).selfRefresh then
      addCtr (s.modStack stack fun x => { x with selfRefresh := true }) (blkPwr (stackWing stack)) 0x1010
    else s)

/-- STACK_REFRESH_DOUBLING (R535): above 85 °C the refresh rate is doubled. -/
def execStackRefreshDoubling (stack : Fin 32) (milliC : Int) (s : State) : Host.Outcome State Fault Refusal :=
  .next (if memoryUp s then
      s.modStack stack fun x => { x with temp := tempField milliC, refresh2x := decide (85000 < milliC) }
    else s)

end Sys2Proof.Machine
end

