-- ==== Sys2Proof/Machine/Upkeep.lean ====
section
/-!
DEFINITION. Reliability upkeep: calibration, scrub and row-repair slots (R450, R549, R554 to R556), migration of a
retired pseudo-channel (R550, R551), on-chip errors (R547), core tests and online sparing (R552, R553).
-/

namespace Sys2Proof.Machine

/-! ### What a unit does in an owned slot (R555) -/

/-- Outcome of an owned slot for an item: taken or yielded, and whether it was forced. -/
def slotTaken (foreground : Bool) (ownedLeft unitsLeft : Nat) : Bool × Bool :=
  if unitsLeft = 0 then (false, false)
  else if !foreground then (true, false)
  else if ownedLeft ≤ unitsLeft then (true, true)
  else (false, false)

/-- An item after an owned slot of its own: one unit more when taken; a new period after the last owned slot. -/
def itemAfter (i : SlotItem) (taken forced : Bool) (ownedLeft : Nat) : SlotItem :=
  if ownedLeft ≤ 1 then {} else { done := i.done + b2n taken, forcedSeen := i.forcedSeen || forced }

/-- An item of a table. -/
def itemOf (t : Table SlotItem) (k : Nat) : SlotItem := Table.get {} t k

/-- Whether calibration slots of lanes and bundles are scheduled: beat mode and lock (R450). -/
def slotsScheduled (s : State) (w : Wing) : Bool := !barrierMode s && (s.tt.get w).isLocked

/-- A forced calibration slot is counted, and reported once per item and period (R555). -/
def calForced (s : State) (i : SlotItem) (block off data : Nat) : State :=
  let s := addCtr s block off
  if i.forcedSeen then s else raise s 0x0902 data block

/-! ### Calibration slots -/

/-- Units of PHY retraining (R554). -/
def calUnits : Nat := 32

/-- A pseudo-channel's calibration slot (R554). -/
def calPc (s : State) (t : Tile) (pc : Nat) (foreground : Bool) (ownedLeft : Nat) : State :=
  let i := itemOf (s.tmem.get t).cal pc
  let r := slotTaken foreground ownedLeft (calUnits - i.done)
  let s := s.modMem t fun m => { m with cal := Table.set {} m.cal pc (itemAfter i r.1 r.2 ownedLeft) }
  if r.2 then calForced s i (blkMem t) 0x0150 pc else s

/-- A lane's or port item's calibration slot: one unit each (R450). -/
def calPort (s : State) (w : Wing) (p : Fin 6) (key lane : Nat) (foreground : Bool) (ownedLeft : Nat) : State × Bool :=
  let i := itemOf (portOf s w p.val).cal key
  let r := slotTaken foreground ownedLeft (1 - i.done)
  let s := s.modPort w p.val fun x => { x with cal := Table.set {} x.cal key (itemAfter i r.1 r.2 ownedLeft) }
  (if r.2 then calForced s i (blkLnk w) (portCtr p.val 0x50) (0x1000 + 8 * portNum w p.val + lane) else s, r.1)

/-- A bundle's calibration slot, or at number 9 that of the Concourse's latency item, which leaves the fixed latency as it
is (R450, R452, R555). -/
def calBundle (s : State) (b : Nat) (foreground : Bool) (ownedLeft : Nat) : State :=
  let i := itemOf s.cc.cal b
  let r := slotTaken foreground ownedLeft (1 - i.done)
  let s := { s with cc := { s.cc with cal := Table.set {} s.cc.cal b (itemAfter i r.1 r.2 ownedLeft) } }
  if r.2 then addCtr (calForced s i (blkLnk .east) 0x0930 (0x2000 + b)) (blkLnk .west) 0x0930 else s

/-- CALIBRATION_SLOT (R450, R554, R555). -/
def execCalibrationSlot (c : CalResource) (foreground : Bool) (ownedLeft : Nat) (s : State) :
    Host.Outcome State Fault Refusal :=
  .next (if ownedLeft = 0 then s
    else match c with
      | .pseudoChannel t pc =>
        if memoryUp s then calPc (wakePcOf s t pc.val) t pc.val foreground ownedLeft else s
      | .lane w p l =>
        if slotsScheduled s w && linkUp s (.port w p) && (portOf s w p.val).lanes.getLsbD l.val then
          (calPort s w p l.val l.val foreground ownedLeft).1
        else s
      | .latency w p echoes =>
        if slotsScheduled s w && linkUp s (.port w p) then
          let r := calPort s w p 8 0 foreground ownedLeft
          if r.2 then
            (sendRequests r.1 w p (portOf s w p.val).lanes echoes).modPort w p.val fun x => { x with lat := oneWay echoes }
          else r.1
        else s
      | .concourseLatency =>
        if slotsScheduled s .east && slotsScheduled s .west && concourseUp s then calBundle s 9 foreground ownedLeft else s
      | .bundle b =>
        if slotsScheduled s .east && slotsScheduled s .west && concourseUp s && s.cc.bundles.getLsbD b.val then
          calBundle s b.val foreground ownedLeft
        else s)
where
  /-- A slot wakes its stack (R535). -/
  wakePcOf (s : State) (t : Tile) (pc : Nat) : State :=
    let k := 8 * tileIdx t + pc / 64
    match Table.find s.power.dram k with
    | none => s
    | some x => s.modStack k fun _ => { x with selfRefresh := false, down := x.down.erase pc }

/-! ### Scrub slots -/

/-- Units of a scrub pass (R554). -/
def scrubUnits : Nat := 4194304

/-- Key of a row of a pseudo-channel (R549). -/
def rowKey (pc row : Nat) : Nat := 2 ^ 20 * pc + row

/-- A corrected burst of a row: MEM_CE_CNT, and a repair once MEM_ROW_CE_LIMIT distinct bursts have been found
(R546, R549). -/
def correctedBurst (s : State) (t : Tile) (pc row burst : Nat) : State :=
  let s := addCtr s (blkMem t) 0x0138
  let seen := insertSorted (Table.get [] (s.tmem.get t).rowCe (rowKey pc row)) burst
  let s := s.modMem t fun m => { m with rowCe := Table.set [] m.rowCe (rowKey pc row) seen }
  if seen.length = dictVal s 0x3031 0 then triggerRepair s t pc row else s

/-- What a unit finds at a location (R546, R548, R549): nothing, a corrected burst, an uncorrectable burst, which is a
failed read of no maker, or a bank with no repair resource. -/
def scrubFinds (s : State) (t : Tile) (pc row burst : Nat) (f : ScrubFinding) : State :=
  match f with
  | .clean => s
  | .correctable => correctedBurst s t pc row burst
  | .uncorrectable =>
    let s := addCtr (raise s 0x0201 pc (blkMem t)) (blkMem t) 0x0100
    let s := logCause s { wing := wingOf t, unit := .memory, cause := 0x0201, detail := pc }
    countUncorrectable (triggerRepair s t pc row) t pc
  | .noResource => failPseudoChannel s t pc

/-- A scrub unit or the repair of a row is forced (R555). -/
def scrubForced (s : State) (seen : Bool) (t : Tile) (pc : Nat) : State :=
  let s := addCtr s (blkMem t) 0x0158
  if seen then s else raise s 0x0903 pc (blkMem t)

/-- A unit of a row repair runs (R549): the last one ends the repair. -/
def repairUnit (s : State) (t : Tile) (r : RowRepair) (f : ScrubFinding) : State :=
  let others (m : TileMem) : List RowRepair := m.repairs.filter fun x => !(x.pc == r.pc && x.row == r.row)
  match f with
  | .noResource => failPseudoChannel (s.modMem t fun m => { m with repairs := others m }) t r.pc
  | _ =>
    let s := scrubFinds s t r.pc r.row (16 * r.row + (calUnits - r.unitsLeft) / 2) f
    if r.unitsLeft ≤ 1 then
      raise (addCtr (s.modMem t fun m => { m with repairs := others m }) (blkMem t) 0x0140) 0x0205 r.pc (blkMem t)
    else s.modMem t fun m =>
      { m with repairs := updateWhere (fun x => x.pc == r.pc && x.row == r.row) (fun x => { x with unitsLeft := x.unitsLeft - 1 }) m.repairs }

/-- The row repair of a pseudo-channel that is under way. -/
def repairOf (s : State) (t : Tile) (pc : Nat) : Option RowRepair := (s.tmem.get t).repairs.find? fun r => r.pc == pc

/-- A row repair's turn at a scrub slot. -/
def repairTurn (s : State) (t : Tile) (r : RowRepair) (foreground : Bool) (ownedLeft : Nat) (f : ScrubFinding) : State :=
  let x := slotTaken foreground ownedLeft r.unitsLeft
  if !x.1 then s
  else
    let s := if x.2 then
        scrubForced (s.modMem t fun m =>
          { m with repairs := updateWhere (fun y => y.pc == r.pc && y.row == r.row) (fun y => { y with forcedSeen := true }) m.repairs })
          r.forcedSeen t r.pc
      else s
    repairUnit s t r f

/-- The scrub pass's turn: one location of 256 B in ascending order; MEM_SCRUB_PASS counts at the end of a pass. -/
def scrubTurn (s : State) (t : Tile) (pc : Nat) (foreground : Bool) (ownedLeft : Nat) (f : ScrubFinding) : State :=
  let i := itemOf (s.tmem.get t).scrub pc
  let x := slotTaken foreground ownedLeft (scrubUnits - i.done)
  let s := s.modMem t fun m =>
    { m with scrub := Table.set {} m.scrub pc { done := i.done + b2n x.1, forcedSeen := i.forcedSeen || x.2 } }
  let s := if x.2 then scrubForced s i.forcedSeen t pc else s
  if !x.1 then s
  else
    let s := scrubFinds s t pc (i.done / 4) (4 * i.done) f
    if i.done + 1 = scrubUnits then addCtr s (blkMem t) 0x0148 else s

/-- The scrub period of a pseudo-channel ends with its last owned slot: the pass starts again and its uncorrectable
reads are counted afresh (R550, R554). -/
def endScrubPeriod (s : State) (t : Tile) (pc : Nat) : State :=
  s.modMem t fun m => { m with scrub := Table.set {} m.scrub pc {}, ueCount := Table.set 0 m.ueCount pc 0 }

/-- Whether a calibration unit takes a scrub slot first (R556). -/
def calFirst (s : State) (t : Tile) (pc : Nat) (foreground : Bool) (ownedLeft : Nat) : Bool :=
  (slotTaken foreground ownedLeft (calUnits - (itemOf (s.tmem.get t).cal pc).done)).1

/-- A calibration unit runs in a scrub slot (R556). -/
def calInScrub (s : State) (t : Tile) (pc : Nat) (foreground : Bool) : State :=
  let i := itemOf (s.tmem.get t).cal pc
  let s := s.modMem t fun m =>
    { m with cal := Table.set {} m.cal pc { done := i.done + 1, forcedSeen := i.forcedSeen || foreground } }
  if foreground then calForced s i (blkMem t) 0x0150 pc else s

/-- SCRUB_SLOT (R554 to R556): a calibration unit first, then a row repair, then the scrub pass. -/
def execScrubSlot (t : Tile) (pc : Fin 512) (foreground : Bool) (ownedLeft : Nat) (finding : ScrubFinding) (s : State) :
    Host.Outcome State Fault Refusal :=
  .next (if !memoryUp s || ownedLeft == 0 then s
    else
      let s := execCalibrationSlot.wakePcOf s t pc.val
      let s := if calFirst s t pc.val foreground ownedLeft then calInScrub s t pc.val foreground
        else match repairOf s t pc.val with
          | some r => repairTurn s t r foreground ownedLeft finding
          | none => scrubTurn s t pc.val foreground ownedLeft finding
      if ownedLeft = 1 then endScrubPeriod s t pc.val else s)

/-! ### Migration (R551) -/

/-- Granules of a retired pseudo-channel (R550). -/
def granules : Nat := 4186112

/-- Whether a page has a granule of pseudo-channel r that has not moved: granule numbers below n have. -/
def pageWaits (t : Tile) (r n page : Nat) : Bool :=
  (List.range 256).any fun i =>
    let a := page * 65536 + 256 * i
    pcOf a == r && decide (n ≤ (a - regionBase t) / 131072)

/-- Write-backs held under R124 complete once the page's granules are redirected: the frame is free (R551). -/
def releaseStuck (s : State) (t : Tile) : State :=
  let m := s.tmem.get t
  s.modMem t fun x =>
    { x with frames := x.frames.filter fun f =>
        !(f.2.stuck == some m.retiredPc && !pageWaits t m.retiredPc m.movePos f.2.page) }

/-- MIGRATION_GRANULE_MOVED (R551). -/
def execMigrationGranuleMoved (t : Tile) (s : State) : Host.Outcome State Fault Refusal :=
  let m := s.tmem.get t
  .next (if m.moving ∧ m.movePos < granules then
      releaseStuck (s.modMem t fun m => { m with movePos := m.movePos + 1 }) t
    else s)

/-- MIGRATION_DONE (R551). -/
def execMigrationDone (t : Tile) (s : State) : Host.Outcome State Fault Refusal :=
  let m := s.tmem.get t
  .next (if m.moving ∧ m.movePos = granules then
      let s := s.modMem t fun m =>
        { m with moving := false, used := true
                 frames := m.frames.filter fun f => !(f.2.stuck == some m.retiredPc) }
      raise s 0x0207 m.retiredPc (blkMem t)
    else s)

/-! ### Core tests and sparing (R552, R553) -/

/-- Set STATE of a position. -/
def setCoreState (s : State) (t : Tile) (n : Nat) (v : BitVec 2) : State :=
  s.modSch t fun x => { x with coreState := Table.set 0 x.coreState n v }

/-- A core begins its in-service test: STATE reads 0b11 (R552). -/
def startCoreTest (s : State) (t : Tile) (n : Nat) : State :=
  addCtr (setCoreState s t n 3) (blkSch t) 0x0718

/-- Whether a core's test may begin of itself: in service with no phase active, in a period or at the entry to SERVICE
(R531, R552). -/
def coreTestDue (s : State) (t : Tile) (n : Nat) : Bool :=
  mainUp s && coreStateOf s t n == 0 && !coreHeld s (coreIndex t n)
    && (dictVal s 0x3040 0 != 0 || (s.cst.state == .shunt && s.cst.target == .service))

/-- CORE_TEST (R552). -/
def execCoreTest (t : Tile) (n : Fin 336) (s : State) : Host.Outcome State Fault Refusal :=
  .next (if coreTestDue s t n then startCoreTest s t n else s)

/-- Words that a test's reads of every memory word found correctable and had corrected in place (R547, R552). -/
def countWords (s : State) (t : Tile) (n : Nat) : State := if n = 0 then s else addCtr s (blkSch t) 0x0700 n

/-- CORE_TEST_PASS (R547, R552). -/
def execCoreTestPass (t : Tile) (r : CoreTestReport) (s : State) : Host.Outcome State Fault Refusal :=
  .next (if coreStateOf s t r.core = 3 then setCoreState (countWords s t r.corrected) t r.core 0 else s)

/-- Whether a column's spare is in use, or taken for a position whose sparing is under way (R21, R23, R553). -/
def spareUsed (s : State) (t : Tile) (n : Nat) : Bool :=
  let x := s.sch.get t
  (Table.find x.defects (n % 16)).isSome || x.onSpare.any (fun y => y.1 % 16 == n % 16) || x.sparing.any (fun y => y % 16 == n % 16)

/-- A position is retired (R23, R553). -/
def retireCore (s : State) (t : Tile) (n : Nat) : State :=
  let s := s.modSch t fun x => { x with sparing := x.sparing.filter fun y => y != n }
  setReason (raise (setCoreState s t n 2) 0x0109 (coreIndex t n) (blkSch t)) 0

/-- Physical row of the spares of columns without a factory defect (R22). -/
def spareRow : Nat := 21

/-- CORE_TEST_FAIL (R553): a tested core's position begins to be spared, or is retired when its column's spare is in
use; a spare that fails its own test retires the position. -/
def execCoreTestFail (t : Tile) (n : Fin 336) (s : State) : Host.Outcome State Fault Refusal :=
  .next (if (s.sch.get t).sparing.contains n.val then retireCore (addCtr s (blkSch t) 0x0718) t n
    else if coreStateOf s t n ≠ 3 then s
    else
      let s := setCoreState s t n 1
      if spareUsed s t n then retireCore s t n
      else
        let off := clusterOff s t spareRow
        let s := s.modSch t fun x => { x with sparing := x.sparing ++ [n.val] }
        if off then s.modCluster t spareRow fun c => { c with state := .run, waking := false } else s)

/-- CORE_SPARED (R553): the spare has passed its test and carries the position, its memories zeroed. -/
def execCoreSpared (t : Tile) (n : Fin 336) (s : State) : Host.Outcome State Fault Refusal :=
  .next (if (s.sch.get t).sparing.contains n.val then
      let s := addCtr s (blkSch t) 0x0718
      let s := s.modSch t fun x =>
        { x with sparing := x.sparing.filter (fun y => y != n.val), onSpare := Table.insert x.onSpare n.val spareRow }
      let s := zeroWindow (setCoreState s t n 0) (coreIndex t n) 0 0x2C0000
      raise (addCtr s (blkSch t) 0x0710) 0x0108 (coreIndex t n) (blkSch t)
    else s)

/-! ### On-chip errors (R547) -/

/-- ONCHIP_UNCORRECTABLE (R547): the task whose access met it ends; a core's memory also starts its test. -/
def execOnchipUncorrectable (at_ : OnChipPlace) (id : Nat) (s : State) : Host.Outcome State Fault Refusal :=
  .next (if !mainUp s then s
    else match at_ with
      | .core t n =>
        if coreStateOf s t n = 2 then s
        else
          let s := addCtr (raise s 0x0208 (coreIndex t n) (blkSch t)) (blkSch t) 0x0708
          let s := stopTask s id 0x020B .core 0 (coreIndex t n)
          if coreStateOf s t n = 0 then startCoreTest s t n else s
      | .windowBuffer t =>
        stopTask (addCtr (raise s 0x0208 0xFFFF (blkSch t)) (blkSch t) 0x0708) id 0x020B .memory)

end Sys2Proof.Machine
end

