-- ==== Sys2Proof/Machine/Custodian.lean ====
section
/-!
DEFINITION. The Custodian: reading and writing dictionary entries (R491 to R495), the request queue (R496, R497), the
Dictionary Access Protocol (R498 to R503), the PF0 mailbox (R504, R505), state commands (R508), and channels and rules
(R511 to R518).
-/

namespace Sys2Proof.Machine

/-! ### Reading entries -/

/-- ASCII bytes of a string. -/
def ascii (t : String) : List Byte := t.toList.map fun c => BitVec.ofNat 8 c.toNat

/-- RULES_ACTIVE (R517). -/
def rulesActive (s : State) : Word32 := BitVec.ofNat 32 ((List.range 32).foldl (fun a r => a + b2n (ruleState s r).active * 2 ^ r) 0)

/-- Four bytes of an I32. -/
def i32Bytes (x : Int) : List Byte := leBytes 4 (wrap 32 x)

/-- One trip-log entry as 16 bytes (R517). -/
def tripBytes (t : Trip) : List Byte :=
  leBytes 8 t.ms.toNat ++ [BitVec.ofNat 8 t.rule, BitVec.ofNat 8 t.action, BitVec.ofNat 8 t.channel, 0] ++ i32Bytes t.value

/-- A channel's state (R512, R513). -/
def channelOf (s : State) (c : Nat) : Channel := (Table.find s.cst.channels c).getD {}

/-- The partition configuration current at its home, as 4,096 bytes (R494). -/
def partTable (s : State) : List Byte :=
  let c := cfgAt s .e0
  if c.isEmpty then List.replicate 4096 0 else c

/-- The 8,192 B of the cause log in slot order (R561). -/
def causeLog (s : State) : List Byte :=
  ((List.range 256).map fun i => leBytes 32 (Table.get 0 s.hif.logs.clog i).toNat).flatten

/-- The value of a defined entry, as bytes (R491, R494, R513, R517, R523, R526, R561). -/
def dictRead (s : State) (index sub : Nat) : List Byte :=
  if 0x7000 ≤ index ∧ index ≤ 0x7002 then
    let c := channelOf s (sub - 1)
    i32Bytes (match index with
      | 0x7000 => c.samples.getLast?.getD 0
      | 0x7001 => c.median
      | _ => c.filtered)
  else match index with
    | 0x1008 => ascii "FS7-2T6"
    | 0x1009 => Config.firmware
    | 0x1018 => (match sub with
      | 3 => leBytes 4 Config.revision.toNat
      | 4 => leBytes 4 Config.serial.toNat
      | _ => dictHeld s index sub)
    | 0x2001 => [BitVec.ofNat 8 s.cst.state.code]
    | 0x2002 => [BitVec.ofNat 8 s.cst.target.code]
    | 0x2003 => leBytes 4 s.cst.limitedReasons.toNat
    | 0x2008 => [s.cst.haltRule]
    | 0x2100 => if sub = 0 then partTable s else leBytes 4 ((instOf s .partCfg).current.getD 0).toNat
    | 0x6010 => causeLog s
    | 0x6011 => leBytes 4 s.hif.logs.clogSeq.toNat
    | 0x7200 => leBytes 4 (rulesActive s).toNat
    | 0x7300 => ((s.cst.trips[sub - 1]?).map tripBytes).getD (List.replicate 16 0)
    | 0x7400 => [BitVec.ofNat 8 s.cst.wakeFail]
    | 0x7401 => leBytes 4 s.cst.wakeFails
    | 0x7402 => leBytes 4 s.cst.mainLoss
    | _ => dictHeld s index sub

/-- Whether an entry is read from the main device (R492). -/
def mainEntry (index : Nat) : Bool := decide ((0x6000 ≤ index ∧ index < 0x7000) ∨ 0xF000 ≤ index)

/-- Whether the main device serves the dictionary (R492). -/
def mainServes (s : State) : Bool :=
  match s.cst.state with
  | .depot => false
  | .halt => false
  | .waking => false
  | _ => true

/-- Reason for which a read or write of an entry is refused before its value is looked at (R495, R492, R13, R497). -/
def accessReason (s : State) (index sub : Nat) (write : Bool) : Option Nat :=
  match dictEntry index sub with
  | none => some 0x0001
  | some e =>
    if mainEntry index && !mainServes s then some 0x0006
    else if !write then (if e.access = .wo then some 0x0002 else none)
    else match e.access with
      | .ro => some 0x0002
      | .const => some 0x0002
      | .rws => if s.cst.state = .shunt then none else some 0x0003
      | _ => none

/-! ### Writing entries -/

/-- Whether an enabled partition has an extent in a reserve (R550). -/
def reserveInUse (s : State) : Bool :=
  let c := cfgAt s .e0
  (List.range 16).any fun p =>
    recEnabled (partRec c p) && (recExtents (partRec c p)).any fun x => meetsReserve x.base x.size

/-- Value of bytes written to an entry: signed types are read in two's complement. -/
def typedValue (e : DEntry) (bs : List Byte) : Int :=
  match e.type with
  | .signed n => signed (8 * n) (leNat bs)
  | _ => leNat bs

/-- Reason of a STATE_CMD value (R508). -/
def stateCmdReason (s : State) (v : Nat) : Option Nat :=
  if v = 6 then
    (if s.cst.state ≠ .halt then some 0x0006
     else if (ruleState s s.cst.haltRule.toNat).active then some 0x000A else none)
  else if s.cst.state = .halt then some 0x0006
  else none

/-- Reason for which the value of a write is refused (R491, R493, R508, R550): length, range, then the entry's own. -/
def valueReason (s : State) (index sub : Nat) (e : DEntry) (bs : List Byte) : Option Nat :=
  match e.type.size with
  | none => some 0x0005
  | some n =>
    let v := leNat bs
    if bs.length ≠ n then some 0x0005
    else if (e.type = .bool ∧ 1 < v) ∨ !dictRange s index sub v then some 0x0004
    else match index with
      | 0x1010 => if s.cst.worn then some 0x000B else none
      | 0x2000 => stateCmdReason s v
      | 0x3030 => if v = 1 ∧ reserveInUse s then some 0x0004 else none
      | _ => none

/-- The first reason for which a write is refused. -/
def writeReason (s : State) (index sub : Nat) (bs : List Byte) : Option Nat :=
  match accessReason s index sub true, dictEntry index sub with
  | some r, _ => some r
  | none, some e => valueReason s index sub e bs
  | none, none => some 0x0001

/-- The store after a save (R493): the values of every persistent entry; those not listed hold their defaults. -/
def savedStore (s : State) : Table (List Byte) :=
  Table.insert (s.cst.dict.filter fun x =>
    match dictEntry (x.1 / 256) (x.1 % 256) with
    | some e => isPersistent (x.1 / 256) e
    | none => false) (dictKey 0x1030 0) (dictHeld s 0x1030 0)

/-- Every statistics counter and both latches are cleared (R559). -/
def clearCounters (s : State) : State :=
  { (List.range 26).foldl (fun s b => setCtrTable s b []) s with hiHost := 0, hiCst := 0 }

/-- A rule notice (R517). -/
def ruleNotice (s : State) (r : Nat) (x : Rule) (clearing : Bool) (v : Int) : State :=
  { s with canOut := s.canOut ++ [{
      ident := 0x080 + s.cst.node
      bytes := [BitVec.ofNat 8 r, BitVec.ofNat 8 (x.action + 128 * b2n clearing), BitVec.ofNat 8 x.channel,
        BitVec.ofNat 8 s.cst.state.code] ++ i32Bytes v }] }

/-- The value a rule compares (R512, R514). -/
def ruleValue (s : State) (x : Rule) : Int :=
  let c := channelOf s x.channel
  if x.source = 0 then c.filtered else c.median

/-- A rule clears: its notice, and EV_CST_CLEAR for an ALARM rule while the main device is powered (R517). -/
def clearedRule (s : State) (r : Nat) (x : Rule) (v : Int) : State :=
  let s := ruleNotice s r x true v
  if x.action = 2 ∧ s.power.pwrGood then raise s 0x0703 r blkCst else s

/-- A write to a rule resets its counts and clears it (R514). -/
def resetRule (s : State) (r : Nat) (x : Rule) : State :=
  let was := (ruleState s r).active
  let s := s.modCst fun c => { c with rules := Table.insert c.rules r {} }
  settleAlert (if was then clearedRule s r x (ruleValue s x) else s)

/-- What follows an accepted write of an entry, its value already held (R429, R493, R514, R550, R559). -/
def afterWrite (s : State) (index sub v : Nat) (old : Rule) : State :=
  if 0x7100 ≤ index ∧ index < 0x7120 then resetRule s (index - 0x7100) old
  else match index with
    | 0x3030 => { s with tmem := s.tmem.map fun _ m => { m with en := v == 1 } }
    | 0x4021 => if fabricOn s then applyGenAllow s (wingOfNum ((sub - 1) / 6)) (Fin.ofNat 6 ((sub - 1) % 6)) else s
    | _ => s

/-- Whether a write waits for the main device (R492). -/
def writeHeld (s : State) (index : Nat) : Bool :=
  decide ((0x3000 ≤ index ∧ index < 0x6000) ∨ (0x8000 ≤ index ∧ index < 0x9000)) && !(s.power.pwrGood && decide (1 ≤ s.power.wakeStep))

/-- Perform an accepted write (R492, R493, R559); STATE_CMD acts apart, after its reply. -/
def performWrite (s : State) (index sub : Nat) (bs : List Byte) : State :=
  match index with
  | 0x1010 => s.modCst fun c => { c with store := savedStore s }
  | 0x1011 => s.modCst fun c => { c with store := [] }
  | 0x2000 => s
  | 0x6000 => clearCounters s
  | _ =>
    let old := ruleOf s (index - 0x7100)
    let k := dictKey index sub
    let s := s.modCst fun c => { c with dict := Table.insert c.dict k bs, heldWrites := if writeHeld s index then c.heldWrites ++ [(k, bs)] else c.heldWrites }
    afterWrite s index sub (leNat bs) old

/-- A served STATE_CMD (R508, R509, R526). -/
def stateCmd (s : State) (v : Nat) : State :=
  let aim (d : DevState) (s : State) : State := settleTarget (s.modCst fun c => { c with target := d })
  match v with
  | 1 => aim .depot s
  | 2 => aim .shunt (s.modCst fun c => { c with wakeIgnored := false })
  | 3 => aim .service (s.modCst fun c => { c with wakeIgnored := false })
  | _ => enterState (s.modCst fun c => { c with haltRule := 0xFF, target := .depot }) .depot

/-- What a write does after its reply: a STATE_CMD acts from its DONE reply on (R508). -/
def afterReply (s : State) (index : Nat) (bs : List Byte) : State := if index = 0x2000 then stateCmd s (leNat bs) else s

/-! ### Frames (R498 to R502) -/

/-- Kinds of request frame (R499); `bad` for an unknown kind, or a frame too short for its kind. -/
inductive FrameKindCan where
  | write (l : Nat)
  | segment (q : Nat)
  | read
  | writeInit
  | segAck
  | abort
  | bad
deriving DecidableEq, Repr

/-- Byte i of a frame as a number; absent bytes read 0. -/
def frByte (b : List Byte) (i : Nat) : Nat := (b.getD i 0).toNat

/-- Index and subindex of a frame. -/
def frIndex (b : List Byte) : Nat := frByte b 1 + 256 * frByte b 2
def frSub (b : List Byte) : Nat := frByte b 3

/-- Expedited bytes and segment bytes of a format (R499). -/
def expedited (fd : CanFormat) : Nat := if fd.isFd then 60 else 4
def segBytes (fd : CanFormat) : Nat := if fd.isFd then 63 else 7

/-- Kind of a request frame. -/
def frameKind (fd : CanFormat) (b : List Byte) : FrameKindCan :=
  let k := frByte b 0
  if b.isEmpty then .bad
  else if k < 64 then (if 4 + k ≤ b.length ∧ k ≤ expedited fd then .write k else .bad)
  else if 128 ≤ k ∧ k < 192 then .segment (k - 128)
  else match k with
    | 0xC1 => if 4 ≤ b.length then .read else .bad
    | 0xC2 => if 8 ≤ b.length then .writeInit else .bad
    | 0xC5 => if 5 ≤ b.length then .segAck else .bad
    | 0xC9 => if 6 ≤ b.length then .abort else .bad
    | _ => .bad

/-- Send a frame to the client. -/
def sendFrame (s : State) (fd : CanFormat) (bytes : List Byte) : State :=
  { s with canOut := s.canOut ++ [{ ident := 0x300 + s.cst.node, bytes := bytes, fd := fd }] }

/-- A reply frame with its index and subindex. -/
def replyFrame (s : State) (fd : CanFormat) (kind index sub : Nat) (rest : List Byte := []) : State :=
  sendFrame s fd ([BitVec.ofNat 8 kind, BitVec.ofNat 8 index, BitVec.ofNat 8 (index / 256), BitVec.ofNat 8 sub] ++ rest)

/-- REFUSE with a reason. -/
def refuse (s : State) (fd : CanFormat) (index sub reason : Nat) : State := replyFrame s fd 0xC7 index sub (leBytes 2 reason)

/-- ABORT with a reason, and the transfer ends (R502). -/
def abortCan (s : State) (fd : CanFormat) (reason index sub : Nat) : State :=
  replyFrame (s.modCst fun c => { c with canXfer := none }) fd 0xC9 index sub (leBytes 2 reason)

/-- Send segment q of a segmented read. -/
def sendSegment (s : State) (fd : CanFormat) (x : Transfer) : State :=
  sendFrame (s.modCst fun c => { c with canXfer := some x }) fd
    (BitVec.ofNat 8 (128 + x.expect) :: (x.data.drop x.offset).take (segBytes fd))

/-- A READ frame (R500, R501). -/
def serveRead (s : State) (fd : CanFormat) (index sub : Nat) : State :=
  let s := s.modCst fun c => { c with canXfer := none }
  match accessReason s index sub false, dictEntry index sub with
  | some r, _ => refuse s fd index sub r
  | none, none => refuse s fd index sub 0x0001
  | none, some e =>
    let v := dictRead s index sub
    if e.type.size.isSome ∧ v.length ≤ expedited fd then replyFrame s fd (64 + v.length) index sub v
    else
      let s := replyFrame s fd 0xC3 index sub (leBytes 4 v.length)
      if v.isEmpty then s
      else sendSegment s fd { write := false, index := index, sub := sub, total := v.length, data := v, fd := fd }

/-- A WRITE frame (R500). -/
def serveWrite (s : State) (fd : CanFormat) (index sub : Nat) (bs : List Byte) : State :=
  let s := s.modCst fun c => { c with canXfer := none }
  match writeReason s index sub bs with
  | some r => refuse s fd index sub r
  | none => afterReply (replyFrame (performWrite s index sub bs) fd 0xC6 index sub) index bs

/-- A WRITE_INIT frame (R501). -/
def serveWriteInit (s : State) (fd : CanFormat) (index sub total : Nat) : State :=
  let s := s.modCst fun c => { c with canXfer := none }
  match accessReason s index sub true with
  | some r => refuse s fd index sub r
  | none =>
    replyFrame (s.modCst fun c => { c with canXfer := some { write := true, index := index, sub := sub, total := total, fd := fd } })
      fd 0xC4 index sub

/-- A SEGMENT frame (R501, R502). -/
def serveSegment (s : State) (fd : CanFormat) (q : Nat) (bs : List Byte) : State :=
  match s.cst.canXfer with
  | none => abortCan s fd 0x0007 0 0
  | some x =>
    if !x.write ∨ q ≠ x.expect then abortCan s fd 0x0007 x.index x.sub
    else
      let data := x.data ++ bs.take (x.total - x.data.length)
      if data.length < x.total then
        replyFrame (s.modCst fun c => { c with canXfer := some { x with data := data, expect := (x.expect + 1) % 64 } })
          fd 0xC5 x.index x.sub [BitVec.ofNat 8 q]
      else serveWrite s fd x.index x.sub data

/-- A SEG_ACK frame (R501, R502). -/
def serveSegAck (s : State) (fd : CanFormat) (index sub q : Nat) : State :=
  match s.cst.canXfer with
  | none => abortCan s fd 0x0007 index sub
  | some x =>
    if x.write ∨ q ≠ x.expect then abortCan s fd 0x0007 x.index x.sub
    else
      let off := x.offset + segBytes x.fd
      if x.total ≤ off then s.modCst fun c => { c with canXfer := none }
      else sendSegment s fd { x with offset := off, expect := (x.expect + 1) % 64 }

/-- Serve a frame (R496, R499). -/
def serveFrame (s : State) (fd : CanFormat) (b : List Byte) : State :=
  match frameKind fd b with
  | .write l => serveWrite s fd (frIndex b) (frSub b) ((b.drop 4).take l)
  | .segment q => serveSegment s fd q (b.drop 1)
  | .read => serveRead s fd (frIndex b) (frSub b)
  | .writeInit => serveWriteInit s fd (frIndex b) (frSub b) (at8 b 4 4)
  | .segAck => serveSegAck s fd (frIndex b) (frSub b) (frByte b 4)
  | .abort => s.modCst fun c => { c with canXfer := none }
  | .bad => refuse s fd (frIndex b) (frSub b) 0x0009

/-! ### The mailbox (R504, R505) -/

/-- Write a reply into MBX_RSP (R504, R505). -/
def mailboxReply (s : State) (status reason total : Nat) (data : List Byte) : State :=
  let m := leBytes 1 status ++ [0] ++ leBytes 2 reason ++ leBytes 4 0 ++ leBytes 4 total ++ leBytes 4 data.length ++ data
  let rsp := ((m.zip (List.range m.length)).foldl (fun t x => Table.set 0 t x.2 x.1) s.hif.mbx.rsp)
  let s := s.modHif fun h => { h with mbx := { h.mbx with rsp := rsp, busy := false, done := true, rspLen := m.length } }
  if s.hif.mbx.irqEn then sendMsix s .pf0 1 else s

/-- A mailbox read: up to LEN bytes from OFFSET; a transfer open on the path ends (R502, R505). -/
def mailboxRead (s : State) (index sub off len : Nat) : State :=
  let s := s.modCst fun c => { c with mbxXfer := none }
  match accessReason s index sub false with
  | some r => mailboxReply s 1 r 0 []
  | none =>
    let v := dictRead s index sub
    mailboxReply s 0 0 v.length ((v.drop off).take len)

/-- The object so far, when a write runs on from it; none for a gap (R505). -/
def mailboxObject (s : State) (index sub off : Nat) : Option (List Byte) :=
  if off = 0 then some []
  else match s.cst.mbxXfer with
    | some x => if x.index = index ∧ x.sub = sub ∧ off = x.data.length then some x.data else none
    | none => none

/-- A mailbox write: the object is applied at the write with FINAL = 1 (R505). -/
def mailboxWrite (s : State) (index sub off : Nat) (final : Bool) (bs : List Byte) : State :=
  let before := mailboxObject s index sub off
  let s := s.modCst fun c => { c with mbxXfer := none }
  match accessReason s index sub true, before with
  | some r, _ => mailboxReply s 1 r 0 []
  | none, none => mailboxReply s 1 0x0005 0 []
  | none, some old =>
    let data := old ++ bs
    if !final then
      mailboxReply (s.modCst fun c => { c with mbxXfer := some { write := true, index := index, sub := sub, total := 0, data := data } })
        0 0 data.length []
    else match writeReason s index sub data with
      | some r => mailboxReply s 1 r 0 []
      | none => afterReply (mailboxReply (performWrite s index sub data) 0 0 data.length []) index data

/-- Serve a mailbox request (R505). -/
def serveMailbox (s : State) (m : List Byte) : State :=
  let len := at8 m 12 4
  let index := at8 m 2 2
  let sub := at8 m 4 1
  if 2016 < len ∨ 1 < at8 m 1 1 ∨ at8 m 5 3 ≠ 0 then mailboxReply s 1 0x0009 0 []
  else match at8 m 0 1 with
    | 1 => mailboxRead s index sub (at8 m 8 4) len
    | 2 => mailboxWrite s index sub (at8 m 8 4) (at8 m 1 1 == 1) ((m.drop 16).take len)
    | _ => mailboxReply s 1 0x0009 0 []

/-! ### The queue (R496) -/

/-- Serve the request at the head of the queue. -/
def serveHead (s : State) : State :=
  match s.cst.queue with
  | [] => s
  | q :: qs =>
    let s := s.modCst fun c => { c with queue := qs }
    match q with
    | .frame fd b => serveFrame s fd b
    | .mailbox m => serveMailbox s m

/-- Function and ring number of a ring's key. -/
def keyFunc (k : Nat) : Func := if k < 64 then .pf0 else .vf (Fin.ofNat 16 (k / 64 - 1))

/-- End, ring by ring, the entries that no row names and that wait their turn (assumption log 16). -/
def endWaitingNameless (s : State) : State :=
  s.hif.rings.foldl (fun s x => endNameless s (keyFunc x.1) (x.1 % 64)) s

/-- What the block does when no command waits: the Custodian serves the request at the head of its queue, and fetched
entries that no row names end (assumption log 2). -/
def idle (s : State) : Host.Outcome State Fault Refusal := .next (endWaitingNameless (serveHead s))

/-- Serve n requests in queue order. -/
def serveQueue : Nat → State → State
  | 0, s => s
  | n + 1, s => serveQueue n (serveHead s)

/-- Serve everything queued, unless the new request is left to wait. -/
def serveUnless (deferred : Bool) (s : State) : State := if deferred then s else serveQueue s.cst.queue.length s

/-- A frame arrives: it is queued, or answered BUSY when 16 wait (R496). -/
def receiveFrame (s : State) (fd : CanFormat) (b : List Byte) (deferred : Bool) : State :=
  if !s.power.inputPower then s
  else if 16 ≤ s.cst.queue.length then serveUnless deferred (replyFrame s fd 0xC8 (frIndex b) (frSub b))
  else serveUnless deferred (s.modCst fun c => { c with queue := c.queue ++ [.frame fd b] })

/-- GO (R504, R505): discarded while BUSY; a full queue is answered busy (R496). -/
def submitMailbox (s : State) (deferred : Bool) : State :=
  if !hostReaches s .pf0 ∨ s.hif.mbx.busy then s
  else
    let msg := (List.range 2032).map fun i => Table.get 0 s.hif.mbx.req i
    let s := s.modHif fun h => { h with mbx := { h.mbx with busy := true } }
    if 16 ≤ s.cst.queue.length then serveUnless deferred (mailboxReply s 2 0 0 [])
    else serveUnless deferred (s.modCst fun c => { c with queue := c.queue ++ [.mailbox msg] })

/-- MAILBOX_GO (R504, R505). -/
def execMailboxGo (deferred : Bool) (s : State) : Host.Outcome State Fault Refusal := .next (submitMailbox s deferred)

/-- Whether a frame is of a kind, or malformed. -/
def frameIs (fd : CanFormat) (b : List Byte) (p : FrameKindCan → Bool) : Bool :=
  let k := frameKind fd b
  k == .bad || p k

/-- DAP_READ (R500, R501). -/
def execDapRead (fd : CanFormat) (frame : List Byte) (deferred : Bool) (s : State) : Host.Outcome State Fault Refusal :=
  .next (if frameIs fd frame (· == .read) then receiveFrame s fd frame deferred else s)

/-- DAP_WRITE (R500). -/
def execDapWrite (fd : CanFormat) (frame : List Byte) (deferred : Bool) (s : State) : Host.Outcome State Fault Refusal :=
  .next (if frameIs fd frame (fun k => match k with
      | .write _ => true
      | _ => false) then receiveFrame s fd frame deferred else s)

/-- DAP_WRITE_INIT (R501). -/
def execDapWriteInit (fd : CanFormat) (frame : List Byte) (deferred : Bool) (s : State) : Host.Outcome State Fault Refusal :=
  .next (if frameIs fd frame (· == .writeInit) then receiveFrame s fd frame deferred else s)

/-- DAP_SEGMENT (R501, R502). -/
def execDapSegment (fd : CanFormat) (frame : List Byte) (deferred : Bool) (s : State) : Host.Outcome State Fault Refusal :=
  .next (if frameIs fd frame (fun k => match k with
      | .segment _ => true
      | _ => false) then receiveFrame s fd frame deferred else s)

/-- DAP_SEG_ACK (R501, R502). -/
def execDapSegAck (fd : CanFormat) (frame : List Byte) (deferred : Bool) (s : State) : Host.Outcome State Fault Refusal :=
  .next (if frameIs fd frame (· == .segAck) then receiveFrame s fd frame deferred else s)

/-- DAP_ABORT (R502). -/
def execDapAbort (fd : CanFormat) (frame : List Byte) (s : State) : Host.Outcome State Fault Refusal :=
  .next (if frameIs fd frame (· == .abort) then receiveFrame s fd frame false else s)

/-- DAP_TRANSFER_TIMEOUT (R502). -/
def execDapTransferTimeout (p : DictPath) (s : State) : Host.Outcome State Fault Refusal :=
  .next (match p with
    | .can => (match s.cst.canXfer with
      | some x => abortCan s x.fd 0x0008 x.index x.sub
      | none => s)
    | .mailbox => s.modCst fun c => { c with mbxXfer := none })

/-- DAP_STATUS_FRAME (R503). -/
def execDapStatusFrame (s : State) : Host.Outcome State Fault Refusal :=
  .next (if s.power.inputPower ∧ dictVal s 0x1033 0 ≠ 0 then
      { s with canOut := s.canOut ++ [{
          ident := 0x680 + s.cst.node
          bytes := [BitVec.ofNat 8 s.cst.state.code, BitVec.ofNat 8 s.cst.target.code, s.cst.haltRule, 0]
            ++ leBytes 4 (rulesActive s).toNat }] }
    else s)

/-! ### Entries with effects of their own -/

/-- A write of an entry on a path: a classic WRITE frame, or a one-message mailbox write. -/
def requestWrite (s : State) (p : DictPath) (index sub : Nat) (bs : List Byte) : State :=
  match p with
  | .can =>
    receiveFrame s .classic ([BitVec.ofNat 8 bs.length, BitVec.ofNat 8 index, BitVec.ofNat 8 (index / 256), BitVec.ofNat 8 sub] ++ bs) false
  | .mailbox =>
    if !hostReaches s .pf0 ∨ s.hif.mbx.busy then s
    else
      let m := [2, 1] ++ leBytes 2 index ++ leBytes 1 sub ++ leBytes 3 0 ++ leBytes 4 0 ++ leBytes 4 bs.length ++ bs
      let req := (m.zip (List.range m.length)).foldl (fun t x => Table.set 0 t x.2 x.1) s.hif.mbx.req
      submitMailbox (s.modHif fun h => { h with mbx := { h.mbx with req := req } }) false

/-- DICT_SAVE (R493). -/
def execDictSave (p : DictPath) (key : Word32) (s : State) : Host.Outcome State Fault Refusal :=
  .next (requestWrite s p 0x1010 0 (leBytes 4 key.toNat))

/-- DICT_DEFAULTS (R493). -/
def execDictDefaults (p : DictPath) (key : Word32) (s : State) : Host.Outcome State Fault Refusal :=
  .next (requestWrite s p 0x1011 0 (leBytes 4 key.toNat))

/-- CTR_CLEAR (R559). -/
def execCtrClear (p : DictPath) (key : Word32) (s : State) : Host.Outcome State Fault Refusal :=
  .next (requestWrite s p 0x6000 0 (leBytes 4 key.toNat))

/-- STATE_CMD_DEPOT (R508). -/
def execStateCmdDepot (p : DictPath) (s : State) : Host.Outcome State Fault Refusal := .next (requestWrite s p 0x2000 0 [1])

/-- STATE_CMD_SHUNT (R508). -/
def execStateCmdShunt (p : DictPath) (s : State) : Host.Outcome State Fault Refusal := .next (requestWrite s p 0x2000 0 [2])

/-- STATE_CMD_SERVICE (R508). -/
def execStateCmdService (p : DictPath) (s : State) : Host.Outcome State Fault Refusal := .next (requestWrite s p 0x2000 0 [3])

/-- CLEAR_HALT (R508, R516). -/
def execClearHalt (p : DictPath) (s : State) : Host.Outcome State Fault Refusal := .next (requestWrite s p 0x2000 0 [6])

/-! ### Channels (R511 to R513) -/

/-- Insert in rising order. -/
def insertInt (x : Int) : List Int → List Int
  | [] => [x]
  | y :: ys => if x ≤ y then x :: y :: ys else y :: insertInt x ys

/-- Median of five samples (R512). -/
def median5 (l : List Int) : Int := (l.foldr insertInt []).getD 2 0

/-- Whether a channel takes the median only (R512). -/
def isDigital (c : Nat) : Bool := c == 0x43 || decide (0x50 ≤ c)

/-- Filter constant of a channel (R512). -/
def filterK (s : State) (c : Nat) : Nat :=
  dictVal s 0x7010 (if c ≤ 1 then 1 else if 0x40 ≤ c ∧ c ≤ 0x42 then 3 else 2)

/-- Floor of x / 2^k: the arithmetic shift of R512. -/
def sarInt (x : Int) (k : Nat) : Int := Int.fdiv x ((2 ^ k : Nat) : Int)

/-- A channel after one more sample (R512). -/
def filterStep (digital : Bool) (k : Nat) (c : Channel) (v : Int) : Channel :=
  let xs := (c.samples ++ [v]).drop (c.samples.length - 4)
  if xs.length < 5 then { c with samples := xs }
  else
    let m := median5 xs
    if digital then { samples := xs, median := m, y := none, filtered := m }
    else
      let y0 := c.y.getD (256 * m)
      let y := y0 + sarInt (256 * m - y0) k
      { samples := xs, median := m, y := some y, filtered := sarInt y 8 }

/-- Channels of which 0xF0 to 0xF3 hold the largest filtered value (R511). -/
def groupChannels (c : Nat) : List Nat :=
  match c with
  | 0xF0 => (List.range 20).map (0x10 + ·)
  | 0xF1 => (List.range 4).map (0x24 + ·)
  | 0xF2 => (List.range 16).map (0x28 + ·)
  | _ => (List.range 8).map (0x38 + ·)

/-- Largest filtered value of a group, once any of its channels has a median. -/
def groupValue (s : State) (c : Nat) : Option Int :=
  ((groupChannels c).filterMap fun i =>
    match Table.find s.cst.channels i with
    | some x => if x.samples.length = 5 then some x.filtered else none
    | none => none).foldl (fun (m : Option Int) v =>
      match m with
      | none => some v
      | some w => some (max v w)) none

/-! ### Rules (R514 to R517) -/

/-- Condition of a rule on a value (R515). -/
def ruleTrue (x : Rule) (v : Int) : Bool :=
  let t := signed 32 x.threshold
  match x.op with
  | 0 => decide (t < v)
  | 1 => decide (v < t)
  | 2 => v == t
  | _ => v != t

/-- Clearing condition of a rule on a value (R515). -/
def ruleFalse (x : Rule) (v : Int) : Bool :=
  let t := signed 32 x.threshold
  let h := signed 32 x.hyst
  match x.op with
  | 0 => decide (v ≤ t - h)
  | 1 => decide (t + h ≤ v)
  | 2 => v != t
  | _ => v == t

/-- One evaluation of a rule (R515). -/
def ruleStep (x : Rule) (q : RuleState) (v : Int) : RuleState :=
  let a := if ruleTrue x v then q.trueRun + 1 else 0
  let b := if ruleFalse x v then q.clearRun + 1 else 0
  let active := if q.active then !decide (x.hold ≤ b) else decide (x.hold ≤ a)
  { active := active, trueRun := min a 65535, clearRun := min b 65535 }

/-- A rule becomes active: its notice, its trip-log entry, and EV_CST_ALARM for an ALARM rule while the main device is
powered (R517). -/
def activatedRule (s : State) (r : Nat) (x : Rule) (v : Int) : State :=
  let s := ruleNotice s r x false v
  let s := s.modCst fun c => { c with trips := ({ ms := c.ms, rule := r, action := x.action, channel := x.channel, value := v } :: c.trips).take 8 }
  if x.action = 2 ∧ s.power.pwrGood then raise s 0x0702 r blkCst else s

/-- Evaluate one rule; the rules that became active are gathered. -/
def evalRule (ch : Nat) (a : State × List Nat) (r : Nat) : State × List Nat :=
  let s := a.1
  let x := ruleOf s r
  if x.channel ≠ ch then a
  else
    let v := ruleValue s x
    let old := ruleState s r
    let new := ruleStep x old v
    let s := s.modCst fun c => { c with rules := Table.insert c.rules r new }
    if !old.active && new.active then (activatedRule s r x v, a.2 ++ [r])
    else if old.active && !new.active then (clearedRule s r x v, a.2)
    else (s, a.2)

/-- Actions of the rules that became active in one cycle (R515, R516): a CUT overrides, then a WAKE in DEPOT; ALERT_N
follows. -/
def takeActions (s : State) (rs : List Nat) : State :=
  let acting (k : Nat) : List Nat := rs.filter fun r => (ruleOf s r).action == k && ruleActs (ruleOf s r) s.cst.state
  match acting 3 with
  | r :: _ => enterHalt s r
  | [] =>
    if !(acting 1).isEmpty ∧ s.cst.state = .depot ∧ !s.cst.wakeIgnored then settleAlert (autoWake s) else settleAlert s

/-- Evaluate the rules of a channel (R515). -/
def evalRules (s : State) (ch : Nat) : State :=
  let r := (List.range 32).foldl (evalRule ch) (s, [])
  takeActions r.1 r.2

/-- A sampled channel: filtered, then its rules (R512). -/
def sampleChannel (s : State) (ch : Nat) (v : Int) : State :=
  let c := filterStep (isDigital ch) (filterK s ch) (channelOf s ch) v
  let s := s.modCst fun x => { x with channels := Table.insert x.channels ch c }
  if c.samples.length < 5 then s else evalRules s ch

/-- A group channel takes the largest filtered value of its group (R511). -/
def sampleGroup (s : State) (ch : Nat) : State :=
  match groupValue s ch with
  | none => s
  | some v =>
    evalRules (s.modCst fun x => { x with channels := Table.insert x.channels ch { samples := [v], median := v, filtered := v } }) ch

/-- CHANNEL_SAMPLE (R511 to R517); for 0xF0 to 0xF3 the value is the module's own. -/
def execChannelSample (ch : BitVec 8) (value : Word32) (ms : Word64) (s : State) : Host.Outcome State Fault Refusal :=
  .next (if !s.power.inputPower || !isChannel ch.toNat then s
    else
      let s := s.modCst fun c => { c with ms := ms }
      if 0xF0 ≤ ch.toNat then sampleGroup s ch.toNat else sampleChannel s ch.toNat value.toInt)

end Sys2Proof.Machine
end

