-- ==== Sys2Proof/Machine/Regs.lean ====
section
/-!
DEFINITION. The registers as the host meets them: what every register reads (R28 to R30, R94, R98, R126 to R129, R157 to
R160, R188 to R191, R212 to R216, R261 to R263, R283, R316 to R319, R355 to R360, R386 to R389, R420 to R424, R456 to
R460, R466, R467, R472, R487 to R489, R504, R519, R542, R543, R568 to R570), the reads that have an effect (R158, R357,
R558, R569), and writes under the access codes of R11.
-/

namespace Sys2Proof.Machine

/-! ### 64-bit quantities and their latch -/

/-- Offset by which a member of an array of registers lies above the array's base, when it is one. -/
def arrayIdx (off base stride count : Nat) : Option Nat :=
  if base ≤ off ∧ (off - base) % stride = 0 ∧ (off - base) / stride < count then some ((off - base) / stride) else none

/-- Whether an offset is one of n COUNT_LO words from a base on. -/
def inRun (off base n : Nat) : Bool := (arrayIdx off base 8 n).isSome

/-- Core and offset within its block of a per-core register (R94). -/
def coreReg (off : Nat) : Option (Nat × Nat) :=
  if 0x100000 ≤ off ∧ (off - 0x100000) / 0x400 < 336 then some ((off - 0x100000) / 0x400, (off - 0x100000) % 0x400) else none

/-- Whether a block defines a statistics counter whose COUNT_LO has an offset. -/
def isCounter (b off : Nat) : Bool :=
  if b < 4 then
    inRun off 0x0120 4 || inRun off 0x0320 3 || inRun off 0x0420 5 || inRun off 0x0510 4 || inRun off 0x0600 3 || inRun off 0x0700 4
      || (match coreReg off with
        | some (_, o) => inRun o 0x100 40
        | none => false)
  else if b < 8 then inRun off 0x0100 12
  else if b < 12 then inRun off 0x0200 7
  else if b < 16 then inRun off 0x0100 8
  else if b = 16 then inRun off 0x0100 6
  else if b = 17 ∨ b = 18 then inRun off 0x0100 10
  else if b = 19 ∨ b = 20 then inRun off 0x0100 7 || inRun off 0x1000 255
  else if b = 21 ∨ b = 22 then
    inRun off 0x0900 7 || (decide (0x1000 ≤ off ∧ off < 0x1600) && inRun (off % 0x100) 0 11)
  else if b = 23 ∨ b = 24 then inRun off 0x1000 4
  else false

/-- The 64-bit quantity read through the latch of R94 whose low word has an offset: a statistics counter, or the virtual
time of a partition (R160). -/
def wideReg (s : State) (b off : Nat) : Option Word64 :=
  if isCounter b off then some (ctr s b off)
  else if b < 4 then (arrayIdx off 0x0200 8 16).map fun p => Table.get 0 (s.sch.get (tileOf b)).vtime p
  else none

/-- Low word of a 64-bit quantity, and its high word. -/
def lo32 (x : Word64) : Word32 := BitVec.ofNat 32 x.toNat
def hi32 (x : Word64) : Word32 := BitVec.ofNat 32 (x.toNat / 2 ^ 32)

/-! ### Stationmaster registers -/

/-- SCH_TILE_INFO (R28). -/
def tileInfo (s : State) (t : Tile) : Word32 :=
  let enabled := ((List.range 336).filter fun n => coreStateOf s t n != 2).length
  let x := s.sch.get t
  let spares := ((List.range 16).filter fun c => !(Table.find x.defects c).isSome && !x.onSpare.any fun y => y.1 % 16 == c).length
  pack [(enabled, 16), (spares, 8), (wingNum (wingOf t), 1), (tileIdx t % 2, 0)]

/-- SCH_CORE_STAT_n (R29, R30). -/
def coreStat (s : State) (t : Tile) (n : Nat) : Word32 :=
  if n < 336 then pack [(coreStateOf s t n, 30), (physRow s t n, 8), (b2n (Table.find (s.sch.get t).onSpare n).isSome, 0)] else 0

/-- SCH_ISSUE_STAT (R157). -/
def issueStat (s : State) (t : Tile) : Word32 :=
  pack [((s.tasks.filter fun x => x.home == t && !x.dispatched).length, 16), (heldCount s t, 0)]

/-- SCH_STAGE_STAT (R190). -/
def stageStat (s : State) (t : Tile) : Word32 :=
  let held := (s.tasks.filter fun x => x.tiles.contains t).foldl (fun a x => a + x.staging) 0
  let granted := (List.range 16).foldl (fun a p => if recEnabled (partRec (cfgAt s t) p) then a + (grantAt s t p).g else a) 0
  pack [(held, 16), (granted - held, 0)]

/-- SCH_STREAM_STAT (R213). -/
def streamStat (s : State) (t : Tile) : Word32 :=
  let now := (tickOf s (wingOf t)).toNat
  pack [((s.tasks.filter fun x => x.home == t && blockedAt s now x).length, 16), ((s.sidings.filter fun x => x.home == t).length, 0)]

/-- A register of a SCH_ block. -/
def schReg (s : State) (t : Tile) (off : Nat) : Word32 :=
  let x := s.sch.get t
  match coreReg off with
  | some (n, 0x008) => Table.get 0 x.confFirst n
  | some (n, 0x010) => Table.get 0 x.latMax n
  | some _ => 0
  | none =>
    match arrayIdx off 0x1000 4 512 with
    | some n => coreStat s t n
    | none =>
      match off with
      | 0x0000 => tileInfo s t
      | 0x0100 => issueStat s t
      | 0x0110 => (x.retireQ.head?.map (·.num)).getD 0
      | 0x0114 => x.retireHi
      | 0x0304 => x.shapeFirst
      | 0x0308 => x.shapeRt
      | 0x030C => x.shapePlan
      | 0x0310 => stageStat s t
      | 0x0404 => streamStat s t
      | 0x0408 => x.stallInfo
      | 0x040C => x.stallTag
      | 0x0410 => x.dlInfo
      | 0x0414 => x.dlTag
      | 0x0504 => x.heldInfo
      | 0x0508 => x.heldNeed
      | _ => 0

/-! ### Registers of the other blocks of a tile -/

/-- MEM_RETIRE_STAT (R568). -/
def retireStat (m : TileMem) : Word32 :=
  pack [(b2n m.used, 31), (b2n m.en, 30), (b2n m.moving, 29), (b2n m.unspared, 28), (m.retiredPc, 16)]

/-- Frames of a tile that partitions hold: S + D + G of the enabled ones, in the configuration current there (R109,
R127). -/
def framesHeld (s : State) (t : Tile) : Nat :=
  (List.range 16).foldl (fun n p =>
    let r := partRec (cfgAt s t) p
    let g := recGrant r t
    if recEnabled r then n + g.s + g.d + g.g else n) 0

/-- A register of a MEM_ block (R127, R128, R568). -/
def memReg (s : State) (t : Tile) (off : Nat) : Word32 :=
  let m := s.tmem.get t
  match off with
  | 0x0004 => pack [((m.frames.filter fun f => f.2.dirty != 0).length, 16), (framesHeld s t, 0)]
  | 0x0010 => m.faultInfo
  | 0x0014 => m.faultLo
  | 0x0018 => m.faultHi
  | 0x0020 => retireStat m
  | 0x0024 => BitVec.ofNat 32 m.movePos
  | _ => 0

/-- An edition number current at a tile; 0 while none is. -/
def editionAt (s : State) (t : Tile) (i : Instance) : Word32 := (currentAt s i (.station t)).getD 0

/-- A register of a PW_ block (R317, R318). -/
def pwReg (s : State) (t : Tile) (off : Nat) : Word32 :=
  let x := s.porter.get t
  match arrayIdx off 0x0100 4 32 with
  | some k =>
    let p : Fin 16 := Fin.ofNat 16 (k / 2)
    if k % 2 = 0 then editionAt s t (.kv p (wingOf t)) else editionAt s t (.pfx p (wingOf t))
  | none =>
    match off with
    | 0x0010 => x.faultInfo
    | 0x0014 => x.faultSeq
    | 0x0018 => x.faultPos
    | _ => 0

/-- CAT_STAT (R387): one context per block of each query at work, 64 at most. -/
def catStat (s : State) (t : Tile) : Word32 :=
  let l := s.tasks.filter fun x => x.home == t && x.dispatched && (match x.work with
    | .cat _ => true
    | _ => false)
  pack [(min 64 ((l.filter fun x => !isMerge x).foldl (fun a x => a + qNq x.body) 0), 16), (b2n (l.any isMerge), 0)]

/-- A register of a CAT_ block (R387, R388). -/
def catReg (s : State) (t : Tile) (off : Nat) : Word32 :=
  match off with
  | 0x0004 => catStat s t
  | 0x0010 => (s.cat.get t).faultInfo
  | 0x0014 => (s.cat.get t).faultId
  | _ => 0

/-! ### Registers of the I/O tiles -/

/-- HIF_LINK_STAT (R487). -/
def hifLinkStat (s : State) : Word32 :=
  let h := s.hif
  if h.linkUp then pack [(h.speed.toNat, 20), (h.width, 11), (b2n h.flit, 2), (b2n h.cxl, 1), (1, 0)] else 0

/-- The cause-log entry that CLOG_SEL names (R569). -/
def clogEntry (s : State) : BitVec 256 := Table.get 0 s.hif.logs.clog s.hif.logs.clogSel

/-- A register of the HIF_ block (R487, R488, R569). -/
def hifReg (s : State) (off : Nat) : Word32 :=
  let l := s.hif.logs
  match arrayIdx off 0x0310 4 8 with
  | some 0 => BitVec.ofNat 32 (clogEntry s).toNat
  | some w => nth 0 l.clogLatch (w - 1)
  | none =>
    match off with
    | 0x0000 => hifLinkStat s
    | 0x0004 => pack [(b2n s.hif.pf0Resetting, 16), (s.hif.resetting.toNat, 0)]
    | 0x0200 => lo32 l.evqBase &&& 0xFFFFF000
    | 0x0204 => hi32 l.evqBase
    | 0x0208 => pack [(l.evqSize, 16), (b2n l.evqEnable, 0)]
    | 0x020C => BitVec.ofNat 32 l.evqHead
    | 0x0210 => pack [(b2n l.ovf, 31), (b2n l.cfgErr, 30), (l.evqTail, 0)]
    | 0x0300 => l.clogSeq
    | 0x0304 => BitVec.ofNat 32 l.clogSel
    | _ => 0

/-- A register of a TT_ block (R356 to R359). -/
def ttReg (s : State) (w : Wing) (off : Nat) : Word32 :=
  let t := s.tt.get w
  match off with
  | 0x0004 => ttStat s w
  | 0x0008 => lo32 t.count
  | 0x000C => t.countHi
  | 0x0010 => t.ttError
  | 0x0014 => ttCarSets s w
  | 0x0018 => t.failInfo
  | 0x001C => t.failSet
  | 0x0020 => BitVec.ofNat 32 (ringLat s w .predecessor)
  | 0x0024 => BitVec.ofNat 32 (ringLat s w .successor)
  | _ => 0

/-- A register of a JN_ block (R420 to R423). -/
def jnReg (s : State) (w : Wing) (off : Nat) : Word32 :=
  let j := s.jn.get w
  match off with
  | 0x0000 => pack [(b2n j.laneSel, 2)]
  | 0x0004 => pack [(min 16 (slotsUsed s w), 16), (j.ctxs.length, 8), (j.laneFailed.toNat, 0)]
  | 0x0010 => j.faultInfo
  | 0x0014 => j.faultSeq
  | 0x0018 => j.slowInfo
  | 0x001C => j.slowLag
  | _ => 0

/-- A port and the register of its set, of an offset of a LNK_ block (R456 to R458). -/
def portReg (off : Nat) : Option (Fin 6 × Nat) :=
  if 0x0100 ≤ off ∧ off < 0x01C0 then some (Fin.ofNat 6 ((off - 0x0100) / 0x20), (off - 0x0100) % 0x20) else none

/-- A register of a LNK_ block (R456 to R459). -/
def lnkReg (s : State) (w : Wing) (off : Nat) : Word32 :=
  match portReg off with
  | some (p, 0x00) => portStat s w p
  | some (p, 0x08) => (portOf s w p.val).peer
  | some (p, 0x0C) => (portOf s w p.val).lat
  | some _ => 0
  | none => if off = 0x0800 then ccStat s else 0

/-- PWR_CLUSTER_n (R542). -/
def clusterReg (s : State) (t : Tile) (row : Nat) : Word32 :=
  let c := clusterOf s t row
  let st := if clusterOff s t row then 3 else match c.state with
    | .run => 0
    | .gated => 1
    | .retention => 2
    | .off => 3
  pack [(min 255 c.temp, 24), (st, 16), (c.point, 8), (c.cap, 0)]

/-- PWR_STACK_s (R542). -/
def stackReg (s : State) (k : Nat) : Word32 :=
  let x := stackOf s k
  let st := if !memoryUp s then 3 else if x.selfRefresh then 2 else if !x.down.isEmpty then 1 else 0
  pack [(min 255 x.temp, 24), (b2n x.refresh2x, 2), (st, 0)]

/-- A register of a PWR_ block (R542). -/
def pwrReg (s : State) (w : Wing) (off : Nat) : Word32 :=
  match arrayIdx off 0x0100 4 44, arrayIdx off 0x0200 4 16 with
  | some n, _ => clusterReg s (tileIn w (n / 22)) (n % 22)
  | none, some k => stackReg s (16 * wingNum w + k)
  | none, none => if off = 0 then pack [((s.power.phaseLost.get w).toNat, 8), ((s.power.good.get w).toNat, 0)] else 0

/-- A register of the CST_ block (R519). -/
def cstReg (s : State) (off : Nat) : Word32 :=
  match off with
  | 0x0000 => pack [(s.cst.state.code, 24), (s.cst.target.code, 16), (s.cst.limitedReasons.toNat % 256, 0)]
  | 0x0004 => rulesActive s
  | _ => 0

/-- What a register of a block reads; offsets that the block does not define read 0 (R98). -/
def blockReg (s : State) (b off : Nat) : Word32 :=
  match wideReg s b off, (if off % 8 = 4 then wideReg s b (off - 4) else none) with
  | some v, _ => lo32 v
  | none, some _ => s.hiHost
  | none, none =>
    if b < 4 then schReg s (tileOf b) off
    else if b < 8 then memReg s (tileOf b) off
    else if b < 12 then pwReg s (tileOf b) off
    else if b < 16 then catReg s (tileOf b) off
    else if b = 16 then hifReg s off
    else if b < 19 then ttReg s (blockWing b) off
    else if b < 21 then jnReg s (blockWing b) off
    else if b < 23 then lnkReg s (blockWing b) off
    else if b < 25 then pwrReg s (blockWing b) off
    else cstReg s off

/-! ### Function pages (R467) -/

/-- FN_STAT (R488). -/
def fnStat (s : State) (f : Func) : Word32 :=
  let r := partRec (cfgEio s) (evPart f)
  pack [(b2n (funcResetting s f), 31), (b2n (f != .pf0 && recEnabled r), 30), (b2n (pageOf s f).winFault, 29), (b2n (f == .pf0), 28),
    (evPart f, 16), (if f = .pf0 then 16 else recRings r, 0)]

/-- RING_STAT (R472). -/
def ringStat (g : Ring) : Word32 :=
  pack [(b2n g.enabled, 31), (b2n g.error, 30), (b2n g.cfgErr, 29), (g.errKind, 16), (g.sqHead, 0)]

/-- A register of a ring's set (R472). -/
def ringReg (g : Ring) (o : Nat) : Word32 :=
  match o with
  | 0x00 => pack [(g.sizeLog2, 16), (tileIdx g.home, 8), (b2n g.enable, 0)]
  | 0x04 => ringStat g
  | 0x08 => lo32 g.sqBase &&& 0xFFFFF000
  | 0x0C => hi32 g.sqBase
  | 0x10 => lo32 g.cqBase &&& 0xFFFFF000
  | 0x14 => hi32 g.cqBase
  | 0x18 => pack [(b2n g.irqEn, 31), (g.vector, 16), (g.coalCount, 8), (g.coalDelay, 0)]
  | _ => 0

/-- Where an offset of a function page leads (R467). -/
inductive PageSlot where
  | doorbell (ring : Nat) (head : Bool)
  | ring (r : Nat) (o : Nat)
  | msix (w : Nat)
  | pba (w : Nat)
  | req (i : Nat)
  | rsp (i : Nat)
  | other
deriving DecidableEq, Repr

/-- The slot of an offset; registers are 32 bits wide and 4-byte aligned. -/
def pageSlot (off : Nat) : PageSlot :=
  if off % 4 ≠ 0 then .other
  else if off < 0x0200 then .doorbell (off / 8) (off % 8 == 4)
  else if 0x1000 ≤ off ∧ off < 0x2000 then .ring ((off - 0x1000) / 0x40) (off % 0x40)
  else if 0x3000 ≤ off ∧ off < 0x3800 then .msix ((off - 0x3000) / 4)
  else if 0x3800 ≤ off ∧ off < 0x3810 then .pba ((off - 0x3800) / 4)
  else if 0x4000 ≤ off ∧ off < 0x4800 then .req (off - 0x4000)
  else if 0x4800 ≤ off ∧ off < 0x4FF0 then .rsp (off - 0x4800)
  else .other

/-- Four bytes of a buffer as a word. -/
def bufWord (t : Table Byte) (i : Nat) : Word32 := BitVec.ofNat 32 (leNat ((List.range 4).map fun k => Table.get 0 t (i + k)))

/-- What a register of a function page reads (R467). -/
def pageReg (s : State) (f : Func) (off : Nat) : Word32 :=
  let p := pageOf s f
  match pageSlot off with
  | .doorbell r head =>
    if hasRing f r then BitVec.ofNat 32 (if head then (ringOf s f r).cqHead else (ringOf s f r).sqTail) else 0
  | .ring r o => if hasRing f r then ringReg (ringOf s f r) o else 0
  | .msix w => if w < 4 * msixSize f then msixWord p w else 0
  | .pba w => Table.get 0 p.pba w
  | .req i => if f = .pf0 then bufWord s.hif.mbx.req i else 0
  | .rsp i => if f = .pf0 then bufWord s.hif.mbx.rsp i else 0
  | .other =>
    match off with
    | 0x2000 => fnStat s f
    | 0x2008 => lo32 p.hostBase
    | 0x200C => hi32 p.hostBase
    | 0x2010 => if f = .pf0 then 0 else lo32 p.winVa
    | 0x2014 => if f = .pf0 then 0 else hi32 p.winVa
    | 0x4FF0 => if f = .pf0 then pack [(b2n s.hif.mbx.irqEn, 1)] else 0
    | 0x4FF4 => if f = .pf0 then pack [(b2n s.hif.mbx.busy, 31), (b2n s.hif.mbx.done, 30), (s.hif.mbx.rspLen, 0)] else 0
    | _ => 0

/-- What a register reads. -/
def regRead (s : State) : RegTarget → Word32
  | .block b off => blockReg s b.val off.toNat
  | .page f off => pageReg s f off.toNat

/-! ### Reads with an effect -/

/-- Return a word to the host. -/
def giveWord (s : State) (v : Word32) : State := setRead s (leBytes 4 v.toNat) false

/-- A host read of a register block of a wing: with the Concourse down, one of the West returns 0xFFFF_FFFF (R455). -/
def hostReadAt (s : State) (w : Wing) (f : State → State) : State :=
  if !hostReaches s .pf0 then s
  else if w = .west ∧ !concourseUp s then giveWord s 0xFFFFFFFF
  else f s

/-- SCH_RETIRE_HI of a report (R158). -/
def retireHiOf (x : RetireReport) : Word32 := pack [(1, 31), (x.struct, 24), (x.part, 20), (x.inst, 0)]

/-- A read of SCH_RETIRE_LO (R158). -/
def readRetire (s : State) (t : Tile) : State :=
  match (s.sch.get t).retireQ with
  | [] => giveWord (s.modSch t fun x => { x with retireHi := 0 }) 0
  | r :: rest => giveWord (s.modSch t fun x => { x with retireQ := rest, retireHi := retireHiOf r }) r.num

/-- RETIRE_QUEUE_READ (R158). -/
def execRetireQueueRead (t : Tile) (s : State) : Host.Outcome State Fault Refusal :=
  .next (hostReadAt s (wingOf t) fun s => readRetire s t)

/-- A read of a 64-bit quantity's low word: a snapshot, its high word latched for the host's path (R94, R558). -/
def readWide (s : State) (b off : Nat) : State :=
  match wideReg s b off with
  | some v => giveWord { s with hiHost := hi32 v } (lo32 v)
  | none => giveWord s (blockReg s b off)

/-- COUNTER_LO_READ (R94, R558). -/
def execCounterLoRead (block : Fin 26) (offset : BitVec 24) (s : State) : Host.Outcome State Fault Refusal :=
  .next (hostReadAt s (blockWing block.val) fun s => readWide s block.val offset.toNat)

/-- TT_COUNT_LO_READ (R357). -/
def execTtCountLoRead (w : Wing) (s : State) : Host.Outcome State Fault Refusal :=
  .next (hostReadAt s w fun s =>
    giveWord (s.modTt w fun t => { t with countHi := hi32 t.count }) (lo32 (tickOf s w)))

/-- CLOG_ENTRY_READ (R569). -/
def execClogEntryRead (s : State) : Host.Outcome State Fault Refusal :=
  .next (hostReadAt s .east fun s =>
    let e := (clogEntry s).toNat
    giveWord (s.modLogs fun l => { l with clogLatch := (List.range 7).map fun w => BitVec.ofNat 32 (e / 2 ^ (32 * (w + 1))) })
      (BitVec.ofNat 32 e))

/-! ### Clearing captures -/

/-- LAT_CLR (R94). -/
def clearLat (s : State) (t : Tile) (n : Nat) : State := s.modSch t fun x => { x with latMax := Table.erase x.latMax n }

/-- CONF_CLR (R94). -/
def clearConf (s : State) (t : Tile) (n : Nat) : State :=
  s.modSch t fun x =>
    { x with
      confFirst := Table.erase x.confFirst n
      ctrs := x.ctrs.filter fun c => !decide (coreBlock n + 0x100 ≤ c.1 ∧ c.1 < coreBlock n + 0x240) }

/-- FAULT_CLR of MEM_CTL (R126). -/
def clearMemFault (s : State) (t : Tile) : State := s.modMem t fun m => { m with faultInfo := 0, faultLo := 0, faultHi := 0 }

/-- SHAPE_CLR (R188). -/
def clearShape (s : State) (t : Tile) : State := s.modSch t fun x => { x with shapeFirst := 0, shapeRt := 0, shapePlan := 0 }

/-- DL_CLR (R212). -/
def clearDl (s : State) (t : Tile) : State := s.modSch t fun x => { x with dlInfo := 0, dlTag := 0 }

/-- STALL_CLR (R212). -/
def clearStall (s : State) (t : Tile) : State := s.modSch t fun x => { x with stallInfo := 0, stallTag := 0 }

/-- HELD_CLR (R261). -/
def clearHeld (s : State) (t : Tile) : State := s.modSch t fun x => { x with heldInfo := 0, heldNeed := 0 }

/-- LAB_FLUSH (R298, R316, R319). -/
def flushLab (s : State) (t : Tile) : State := dropLab s t fun _ => true

/-- FAULT_CLR of PW_CTL (R316). -/
def clearPwFault (s : State) (t : Tile) : State := s.modPorter t fun x => { x with faultInfo := 0, faultSeq := 0, faultPos := 0 }

/-- FAIL_CLR (R355). -/
def clearFail (s : State) (w : Wing) : State := s.modTt w fun t => { t with failInfo := 0, failSet := 0 }

/-- FAULT_CLR of CAT_CTL (R386). -/
def clearCatFault (s : State) (t : Tile) : State := s.modCat t fun x => { x with faultInfo := 0, faultId := 0 }

/-- LANE_CLR (R420). -/
def clearLane (s : State) (w : Wing) : State := s.modJn w fun j => { j with laneFailed := 0 }

/-- FAULT_CLR of JN_CTL (R420). -/
def clearJnFault (s : State) (w : Wing) : State := s.modJn w fun j => { j with faultInfo := 0, faultSeq := 0 }

/-- LAT_CLR, as a register write. -/
def execLatClr (t : Tile) (n : Fin 336) (s : State) : Host.Outcome State Fault Refusal :=
  .next (hostWriteAt s (wingOf t) fun s => clearLat s t n.val)

/-- CONF_CLR, as a register write. -/
def execConfClr (t : Tile) (n : Fin 336) (s : State) : Host.Outcome State Fault Refusal :=
  .next (hostWriteAt s (wingOf t) fun s => clearConf s t n.val)

/-- MEM_FAULT_CLR, as a register write. -/
def execMemFaultClr (t : Tile) (s : State) : Host.Outcome State Fault Refusal :=
  .next (hostWriteAt s (wingOf t) fun s => clearMemFault s t)

/-- SHAPE_CLR, as a register write. -/
def execShapeClr (t : Tile) (s : State) : Host.Outcome State Fault Refusal :=
  .next (hostWriteAt s (wingOf t) fun s => clearShape s t)

/-- DL_CLR, as a register write. -/
def execDlClr (t : Tile) (s : State) : Host.Outcome State Fault Refusal :=
  .next (hostWriteAt s (wingOf t) fun s => clearDl s t)

/-- STALL_CLR, as a register write. -/
def execStallClr (t : Tile) (s : State) : Host.Outcome State Fault Refusal :=
  .next (hostWriteAt s (wingOf t) fun s => clearStall s t)

/-- HELD_CLR, as a register write. -/
def execHeldClr (t : Tile) (s : State) : Host.Outcome State Fault Refusal :=
  .next (hostWriteAt s (wingOf t) fun s => clearHeld s t)

/-- LAB_FLUSH, as a register write. -/
def execLabFlush (t : Tile) (s : State) : Host.Outcome State Fault Refusal :=
  .next (hostWriteAt s (wingOf t) fun s => flushLab s t)

/-- PW_FAULT_CLR, as a register write. -/
def execPwFaultClr (t : Tile) (s : State) : Host.Outcome State Fault Refusal :=
  .next (hostWriteAt s (wingOf t) fun s => clearPwFault s t)

/-- FAIL_CLR, as a register write. -/
def execFailClr (w : Wing) (s : State) : Host.Outcome State Fault Refusal :=
  .next (hostWriteAt s w fun s => clearFail s w)

/-- CAT_FAULT_CLR, as a register write. -/
def execCatFaultClr (t : Tile) (s : State) : Host.Outcome State Fault Refusal :=
  .next (hostWriteAt s (wingOf t) fun s => clearCatFault s t)

/-- LANE_CLR, as a register write. -/
def execLaneClr (w : Wing) (s : State) : Host.Outcome State Fault Refusal :=
  .next (hostWriteAt s w fun s => clearLane s w)

/-- JN_FAULT_CLR, as a register write. -/
def execJnFaultClr (w : Wing) (s : State) : Host.Outcome State Fault Refusal :=
  .next (hostWriteAt s w fun s => clearJnFault s w)

/-! ### Writes -/

/-- Apply each action whose bit is set in the value written: a WO bit acts when 1 is written. -/
def actBits (s : State) (v : Word32) (l : List (Nat × (State → State))) : State :=
  l.foldl (fun s a => if flg v a.1 then a.2 s else s) s

/-- A 64-bit value with its low or high word replaced. -/
def setLo (x : Word64) (v : Word32) : Word64 := BitVec.ofNat 64 (x.toNat / 2 ^ 32 * 2 ^ 32 + v.toNat)
def setHi (x : Word64) (v : Word32) : Word64 := BitVec.ofNat 64 (x.toNat % 2 ^ 32 + v.toNat * 2 ^ 32)

/-- A write of the event queue's control word (R569): SIZE_LOG2 first, then ENABLE judged on it. -/
def writeEvqCtl (s : State) (v : Word32) : State :=
  s.modLogs fun l =>
    let l := if l.evqEnable then l else { l with evqSize := fld v 19 16 }
    if !flg v 0 then { l with evqEnable := false }
    else if l.evqEnable then l
    else if l.evqSize < 4 ∨ 12 < l.evqSize ∨ l.evqBase.toNat % 4096 ≠ 0 then { l with cfgErr := true }
    else { l with evqEnable := true, evqTail := 0, evqPhase := true, cfgErr := false }

/-- A write of a HIF_ register (R569). -/
def writeHif (s : State) (off : Nat) (v : Word32) : State :=
  match off with
  | 0x0200 => s.modLogs fun l => { l with evqBase := setLo l.evqBase v }
  | 0x0204 => s.modLogs fun l => { l with evqBase := setHi l.evqBase v }
  | 0x0208 => writeEvqCtl s v
  | 0x020C => s.modLogs fun l => { l with evqHead := fld v 11 0 }
  | 0x0210 => if flg v 31 then s.modLogs fun l => { l with ovf := false } else s
  | 0x0304 => s.modLogs fun l => { l with clogSel := fld v 7 0 }
  | _ => s

/-- A write of a SCH_ register (R94, R188, R212, R261). -/
def writeSch (s : State) (t : Tile) (off : Nat) (v : Word32) : State :=
  match coreReg off with
  | some (n, 0) => actBits s v [(1, fun s => clearLat s t n), (0, fun s => clearConf s t n)]
  | some _ => s
  | none =>
    match off with
    | 0x0300 => actBits s v [(0, fun s => clearShape s t)]
    | 0x0400 => actBits s v [(1, fun s => clearDl s t), (0, fun s => clearStall s t)]
    | 0x0500 => actBits s v [(0, fun s => clearHeld s t)]
    | _ => s

/-- A write of a register of a block; what no access code lets be written stays (R11, R98). -/
def writeBlock (s : State) (b off : Nat) (v : Word32) : State :=
  if b < 4 then writeSch s (tileOf b) off v
  else if b < 8 then (if off = 0 then actBits s v [(0, fun s => clearMemFault s (tileOf b))] else s)
  else if b < 12 then
    (if off = 0 then actBits s v [(1, fun s => flushLab s (tileOf b)), (0, fun s => clearPwFault s (tileOf b))] else s)
  else if b < 16 then (if off = 0 then actBits s v [(0, fun s => clearCatFault s (tileOf b))] else s)
  else if b = 16 then writeHif s off v
  else if b < 19 then (if off = 0 then actBits s v [(0, fun s => clearFail s (blockWing b))] else s)
  else if b < 21 then
    (if off = 0 then
      actBits (s.modJn (blockWing b) fun j => { j with laneSel := flg v 2 }) v
        [(1, fun s => clearLane s (blockWing b)), (0, fun s => clearJnFault s (blockWing b))]
    else s)
  else if b < 23 then
    (match portReg off with
      | some (p, 0x04) => actBits s v [(2, fun s => widenPort s (blockWing b) p), (1, fun s => retrainNow s (blockWing b) p)]
      | _ => s)
  else s

/-- A write of a ring's registers (R472, R473). -/
def writeRingReg (s : State) (f : Func) (r o : Nat) (v : Word32) : State :=
  let base (g : Ring → Ring) : State := s.modRing f r fun x => if x.enabled then x else g x
  match o with
  | 0x00 => writeRingCfg s f r v
  | 0x08 => base fun g => { g with sqBase := setLo g.sqBase v }
  | 0x0C => base fun g => { g with sqBase := setHi g.sqBase v }
  | 0x10 => base fun g => { g with cqBase := setLo g.cqBase v }
  | 0x14 => base fun g => { g with cqBase := setHi g.cqBase v }
  | 0x18 => s.modRing f r fun g =>
      { g with irqEn := flg v 31, vector := fld v 26 16, coalCount := fld v 15 8, coalDelay := fld v 7 0 }
  | _ => s

/-- Four bytes of a word into a buffer. -/
def putWord (t : Table Byte) (i : Nat) (v : Word32) : Table Byte :=
  (List.range 4).foldl (fun t k => Table.set 0 t (i + k) (BitVec.ofNat 8 (v.toNat / 2 ^ (8 * k)))) t

/-- A write of MBX_CTL (R504). -/
def writeMbxCtl (s : State) (v : Word32) : State :=
  let s := s.modHif fun h => { h with mbx := { h.mbx with irqEn := flg v 1 } }
  if flg v 0 then submitMailbox s false else s

/-- A write of a register of a function page (R467, R468, R474, R478, R488, R504). -/
def writePage (s : State) (f : Func) (off : Nat) (v : Word32) : State :=
  match pageSlot off with
  | .doorbell r head => doorbell s f r head v
  | .ring r o => if hasRing f r then writeRingReg s f r o v else s
  | .msix w =>
    if w < 4 * msixSize f then
      flushMsix (s.modPage f fun p => { p with msix := Table.insert p.msix w (if w % 4 = 3 then v &&& 1 else v) }) f
    else s
  | .pba _ => s
  | .req i =>
    if f = .pf0 then s.modHif fun h => { h with mbx := { h.mbx with req := putWord h.mbx.req i v } } else s
  | .rsp _ => s
  | .other =>
    match off with
    | 0x2000 => if flg v 29 then s.modPage f fun p => { p with winFault := false } else s
    | 0x2008 => s.modPage f fun p => { p with hostBase := setLo p.hostBase (v &&& 0xFFFF0000) }
    | 0x200C => s.modPage f fun p => { p with hostBase := setHi p.hostBase v }
    | 0x2010 => if f = .pf0 then s else s.modPage f fun p => { p with winVa := setLo p.winVa (v &&& 0xFFFF0000) }
    | 0x2014 => if f = .pf0 then s else s.modPage f fun p => { p with winVa := setHi p.winVa v }
    | 0x4FF0 => if f = .pf0 then writeMbxCtl s v else s
    | 0x4FF4 =>
      if f = .pf0 ∧ flg v 30 then s.modHif fun h => { h with mbx := { h.mbx with done := false } } else s
    | _ => s

/-- EVENT_QUEUE_ENABLE: the event queue's control word written with ENABLE = 1 (R569). -/
def execEventQueueEnable (v : Word32) (s : State) : Host.Outcome State Fault Refusal :=
  .next (hostWriteAt s .east fun s => writeEvqCtl s (v ||| 1))

/-- REGISTER_WRITE (R11): every field takes the write under its access code, those with an effect among them. A VF
reaches its own page alone (R466). -/
def execRegisterWrite (x : RegTarget) (v : Word32) (s : State) : Host.Outcome State Fault Refusal :=
  .next (match x with
    | .block b off => hostWriteAt s (blockWing b.val) fun s => writeBlock s b.val off.toNat v
    | .page f off => if hostReaches s f then writePage s f off.toNat v else s)

end Sys2Proof.Machine
end

