-- ==== Sys2Proof/Machine/Dispatch.lean ====
section
/-!
DEFINITION. The dispatch of a command to its meaning, one arm per row of the operation table.
-/

namespace Sys2Proof.Machine

def exec (i : Instr) (s : State) : Host.Outcome State Fault Refusal :=
  match i with
  | .sqTailDoorbell f r v => Sys2Proof.Machine.execSqTailDoorbell f r v s
  | .cqHeadDoorbell f r v => Sys2Proof.Machine.execCqHeadDoorbell f r v s
  | .ringEnable f r cfg => Sys2Proof.Machine.execRingEnable f r cfg s
  | .ringDisable f r cfg => Sys2Proof.Machine.execRingDisable f r cfg s
  | .ringDrainDone f r => Sys2Proof.Machine.execRingDrainDone f r s
  | .submissionEntryFetch f r entry => Sys2Proof.Machine.execSubmissionEntryFetch f r entry s
  | .submissionFetchFailed f r => Sys2Proof.Machine.execSubmissionFetchFailed f r s
  | .completionWriteRefused f r => Sys2Proof.Machine.execCompletionWriteRefused f r s
  | .msixCoalDelayExpiry f r => Sys2Proof.Machine.execMsixCoalDelayExpiry f r s
  | .loopTask f r => Sys2Proof.Machine.execLoopTask f r s
  | .chainTaskForward f r => Sys2Proof.Machine.execChainTaskForward f r s
  | .chainTaskBackward f r => Sys2Proof.Machine.execChainTaskBackward f r s
  | .streamStage f r => Sys2Proof.Machine.execStreamStage f r s
  | .collectiveBroadcast f r => Sys2Proof.Machine.execCollectiveBroadcast f r s
  | .collectiveReduce f r => Sys2Proof.Machine.execCollectiveReduce f r s
  | .catalogueQuery f r => Sys2Proof.Machine.execCatalogueQuery f r s
  | .catalogueMerge f r => Sys2Proof.Machine.execCatalogueMerge f r s
  | .moveCopy f r => Sys2Proof.Machine.execMoveCopy f r s
  | .moveMigrateIn f r => Sys2Proof.Machine.execMoveMigrateIn f r s
  | .moveFlush f r => Sys2Proof.Machine.execMoveFlush f r s
  | .moveCompress f r => Sys2Proof.Machine.execMoveCompress f r s
  | .moveDecompress f r => Sys2Proof.Machine.execMoveDecompress f r s
  | .moveStageLoad f r => Sys2Proof.Machine.execMoveStageLoad f r s
  | .moveRelease f r => Sys2Proof.Machine.execMoveRelease f r s
  | .moveScheduleStart f r => Sys2Proof.Machine.execMoveScheduleStart f r s
  | .moveScheduleStop f r => Sys2Proof.Machine.execMoveScheduleStop f r s
  | .taskDispatch id t => Sys2Proof.Machine.execTaskDispatch id t s
  | .taskEnd id => Sys2Proof.Machine.execTaskEnd id s
  | .taskFault id cause addr core => Sys2Proof.Machine.execTaskFault id cause addr core s
  | .taskStopDrained id => Sys2Proof.Machine.execTaskStopDrained id s
  | .editionSwap f r => Sys2Proof.Machine.execEditionSwap f r s
  | .swapNotice u target => Sys2Proof.Machine.execSwapNotice u target s
  | .editionSwapComplete target => Sys2Proof.Machine.execEditionSwapComplete target s
  | .partConfigDrainDone => Sys2Proof.Machine.execPartConfigDrainDone s
  | .mapInvalidate f r => Sys2Proof.Machine.execMapInvalidate f r s
  | .mapInvalidateDone f r => Sys2Proof.Machine.execMapInvalidateDone f r s
  | .sidingOpen f r => Sys2Proof.Machine.execSidingOpen f r s
  | .sidingClose f r => Sys2Proof.Machine.execSidingClose f r s
  | .prefixLookup f r => Sys2Proof.Machine.execPrefixLookup f r s
  | .carSetStart f r => Sys2Proof.Machine.execCarSetStart f r s
  | .carSetStop f r => Sys2Proof.Machine.execCarSetStop f r s
  | .partitionResetCmd f r => Sys2Proof.Machine.execPartitionResetCmd f r s
  | .functionLevelReset part => Sys2Proof.Machine.execFunctionLevelReset part s
  | .pf0Reset how => Sys2Proof.Machine.execPf0Reset how s
  | .vfEnableClear => Sys2Proof.Machine.execVfEnableClear s
  | .partitionResetDone part => Sys2Proof.Machine.execPartitionResetDone part s
  | .windowedAccessMiss part va write id => Sys2Proof.Machine.execWindowedAccessMiss part va write id s
  | .demandFillComplete t frame => Sys2Proof.Machine.execDemandFillComplete t frame s
  | .decompressComplete t part va => Sys2Proof.Machine.execDecompressComplete t part va s
  | .stackedAccessLate pa m => Sys2Proof.Machine.execStackedAccessLate pa m s
  | .uncorrectableRead pa m => Sys2Proof.Machine.execUncorrectableRead pa m s
  | .writeBackStuck t frame pc => Sys2Proof.Machine.execWriteBackStuck t frame pc s
  | .stageLoadResume id => Sys2Proof.Machine.execStageLoadResume id s
  | .scheduleNextLoad t part => Sys2Proof.Machine.execScheduleNextLoad t part s
  | .hostCxlMemAccess dpa len write => Sys2Proof.Machine.execHostCxlMemAccess dpa len write s
  | .partitionWindowAccess part offset len write => Sys2Proof.Machine.execPartitionWindowAccess part offset len write s
  | .phaseChange id core phase => Sys2Proof.Machine.execPhaseChange id core phase s
  | .tileStepBegin id core => Sys2Proof.Machine.execTileStepBegin id core s
  | .multicastDelivery id d => Sys2Proof.Machine.execMulticastDelivery id d s
  | .intrudingAccessForced x => Sys2Proof.Machine.execIntrudingAccessForced x s
  | .partialArrival id group part rowTile => Sys2Proof.Machine.execPartialArrival id group part rowTile s
  | .stageHandleTake id binding => Sys2Proof.Machine.execStageHandleTake id binding s
  | .stageHandleAcquire id binding => Sys2Proof.Machine.execStageHandleAcquire id binding s
  | .stageIterationEnd id => Sys2Proof.Machine.execStageIterationEnd id s
  | .mergeHoldExpiry id core => Sys2Proof.Machine.execMergeHoldExpiry id core s
  | .deadlineCheck t => Sys2Proof.Machine.execDeadlineCheck t s
  | .stallCheck w => Sys2Proof.Machine.execStallCheck w s
  | .timetableTick w => Sys2Proof.Machine.execTimetableTick w s
  | .beatEmit w => Sys2Proof.Machine.execBeatEmit w s
  | .beatReceive w from_ beat slot frac => Sys2Proof.Machine.execBeatReceive w from_ beat slot frac s
  | .masterListenExpiry => Sys2Proof.Machine.execMasterListenExpiry s
  | .beatLossTimeout w => Sys2Proof.Machine.execBeatLossTimeout w s
  | .backupTakeover => Sys2Proof.Machine.execBackupTakeover s
  | .barrierStart => Sys2Proof.Machine.execBarrierStart s
  | .arriveTokenReceive w token => Sys2Proof.Machine.execArriveTokenReceive w token s
  | .advanceTokenReceive w token => Sys2Proof.Machine.execAdvanceTokenReceive w token s
  | .reconfigWindowStart w => Sys2Proof.Machine.execReconfigWindowStart w s
  | .reconfigWindowEnd w => Sys2Proof.Machine.execReconfigWindowEnd w s
  | .carSetFirstTick w k => Sys2Proof.Machine.execCarSetFirstTick w k s
  | .carSendSlot w k step => Sys2Proof.Machine.execCarSendSlot w k step s
  | .carComputeSlot w k step car id => Sys2Proof.Machine.execCarComputeSlot w k step car id s
  | .carHeaderReceive w l hseq header => Sys2Proof.Machine.execCarHeaderReceive w l hseq header s
  | .abortNoticeReceive w l hseq header => Sys2Proof.Machine.execAbortNoticeReceive w l hseq header s
  | .carAnswerReceive l answer => Sys2Proof.Machine.execCarAnswerReceive l answer s
  | .carRetryBackoffExpiry w k step car => Sys2Proof.Machine.execCarRetryBackoffExpiry w k step car s
  | .carPatienceExpiry w k step car => Sys2Proof.Machine.execCarPatienceExpiry w k step car s
  | .carBodyReceived w k step car body => Sys2Proof.Machine.execCarBodyReceived w k step car body s
  | .carStepFree w k step => Sys2Proof.Machine.execCarStepFree w k step s
  | .flitReceive l flit uncorrectable r => Sys2Proof.Machine.execFlitReceive l flit uncorrectable r s
  | .nakReceive l ack => Sys2Proof.Machine.execNakReceive l ack s
  | .ackTimeoutReplay l => Sys2Proof.Machine.execAckTimeoutReplay l s
  | .nakResendTimeout l => Sys2Proof.Machine.execNakResendTimeout l s
  | .portSignalLoss w p => Sys2Proof.Machine.execPortSignalLoss w p s
  | .portSignalReturn w p => Sys2Proof.Machine.execPortSignalReturn w p s
  | .portTrainingDone w p record lanes fallback echoes => Sys2Proof.Machine.execPortTrainingDone w p record lanes fallback echoes s
  | .portTrainingFail w p step => Sys2Proof.Machine.execPortTrainingFail w p step s
  | .portTrainingRetry w p => Sys2Proof.Machine.execPortTrainingRetry w p s
  | .laneRetire w p lane => Sys2Proof.Machine.execLaneRetire w p lane s
  | .darkLimitExpiry w p => Sys2Proof.Machine.execDarkLimitExpiry w p s
  | .widen w p => Sys2Proof.Machine.execWiden w p s
  | .retrain w p => Sys2Proof.Machine.execRetrain w p s
  | .bundleRetire b => Sys2Proof.Machine.execBundleRetire b s
  | .concourseDown => Sys2Proof.Machine.execConcourseDown s
  | .concourseRetrainDone bundles => Sys2Proof.Machine.execConcourseRetrainDone bundles s
  | .calibrationSlot c foreground ownedLeft => Sys2Proof.Machine.execCalibrationSlot c foreground ownedLeft s
  | .scrubSlot t pc foreground ownedLeft finding => Sys2Proof.Machine.execScrubSlot t pc foreground ownedLeft finding s
  | .migrationGranuleMoved t => Sys2Proof.Machine.execMigrationGranuleMoved t s
  | .migrationDone t => Sys2Proof.Machine.execMigrationDone t s
  | .coreTest t n => Sys2Proof.Machine.execCoreTest t n s
  | .coreTestFail t n => Sys2Proof.Machine.execCoreTestFail t n s
  | .coreSpared t n => Sys2Proof.Machine.execCoreSpared t n s
  | .onchipUncorrectable at_ id => Sys2Proof.Machine.execOnchipUncorrectable at_ id s
  | .jnCountMessage w r member signature count capacity partials => Sys2Proof.Machine.execJnCountMessage w r member signature count capacity partials s
  | .jnGoMessage w r n => Sys2Proof.Machine.execJnGoMessage w r n s
  | .jnChunkArrival w r member core chunk data residueFails => Sys2Proof.Machine.execJnChunkArrival w r member core chunk data residueFails s
  | .jnRerunMessage w k => Sys2Proof.Machine.execJnRerunMessage w k s
  | .jnCompletionToken w k n flags => Sys2Proof.Machine.execJnCompletionToken w k n flags s
  | .jnAbortMessage w k cause => Sys2Proof.Machine.execJnAbortMessage w k cause s
  | .jnWaitLimitExpiry w k lost => Sys2Proof.Machine.execJnWaitLimitExpiry w k lost s
  | .jnLossNotice w group member => Sys2Proof.Machine.execJnLossNotice w group member s
  | .retireQueueRead t => Sys2Proof.Machine.execRetireQueueRead t s
  | .counterLoRead block offset => Sys2Proof.Machine.execCounterLoRead block offset s
  | .ttCountLoRead w => Sys2Proof.Machine.execTtCountLoRead w s
  | .clogEntryRead => Sys2Proof.Machine.execClogEntryRead s
  | .latClr t n => Sys2Proof.Machine.execLatClr t n s
  | .confClr t n => Sys2Proof.Machine.execConfClr t n s
  | .memFaultClr t => Sys2Proof.Machine.execMemFaultClr t s
  | .shapeClr t => Sys2Proof.Machine.execShapeClr t s
  | .dlClr t => Sys2Proof.Machine.execDlClr t s
  | .stallClr t => Sys2Proof.Machine.execStallClr t s
  | .heldClr t => Sys2Proof.Machine.execHeldClr t s
  | .labFlush t => Sys2Proof.Machine.execLabFlush t s
  | .pwFaultClr t => Sys2Proof.Machine.execPwFaultClr t s
  | .failClr w => Sys2Proof.Machine.execFailClr w s
  | .catFaultClr t => Sys2Proof.Machine.execCatFaultClr t s
  | .laneClr w => Sys2Proof.Machine.execLaneClr w s
  | .jnFaultClr w => Sys2Proof.Machine.execJnFaultClr w s
  | .eventQueueEnable v => Sys2Proof.Machine.execEventQueueEnable v s
  | .registerWrite x v => Sys2Proof.Machine.execRegisterWrite x v s
  | .mailboxGo deferred => Sys2Proof.Machine.execMailboxGo deferred s
  | .dapRead fd frame deferred => Sys2Proof.Machine.execDapRead fd frame deferred s
  | .dapWrite fd frame deferred => Sys2Proof.Machine.execDapWrite fd frame deferred s
  | .dapWriteInit fd frame deferred => Sys2Proof.Machine.execDapWriteInit fd frame deferred s
  | .dapSegment fd frame deferred => Sys2Proof.Machine.execDapSegment fd frame deferred s
  | .dapSegAck fd frame deferred => Sys2Proof.Machine.execDapSegAck fd frame deferred s
  | .dapAbort fd frame => Sys2Proof.Machine.execDapAbort fd frame s
  | .dapTransferTimeout p => Sys2Proof.Machine.execDapTransferTimeout p s
  | .dapStatusFrame => Sys2Proof.Machine.execDapStatusFrame s
  | .dictSave p key => Sys2Proof.Machine.execDictSave p key s
  | .dictDefaults p key => Sys2Proof.Machine.execDictDefaults p key s
  | .ctrClear p key => Sys2Proof.Machine.execCtrClear p key s
  | .stateCmdDepot p => Sys2Proof.Machine.execStateCmdDepot p s
  | .stateCmdShunt p => Sys2Proof.Machine.execStateCmdShunt p s
  | .stateCmdService p => Sys2Proof.Machine.execStateCmdService p s
  | .clearHalt p => Sys2Proof.Machine.execClearHalt p s
  | .shuntDrainExpiry => Sys2Proof.Machine.execShuntDrainExpiry s
  | .leavingServiceDrained => Sys2Proof.Machine.execLeavingServiceDrained s
  | .depotRailsDown => Sys2Proof.Machine.execDepotRailsDown s
  | .channelSample ch value ms => Sys2Proof.Machine.execChannelSample ch value ms s
  | .inputPowerOn strap => Sys2Proof.Machine.execInputPowerOn strap s
  | .inputPowerLoss => Sys2Proof.Machine.execInputPowerLoss s
  | .mainPowerLoss => Sys2Proof.Machine.execMainPowerLoss s
  | .inputRecovery => Sys2Proof.Machine.execInputRecovery s
  | .railPhaseLost w rail => Sys2Proof.Machine.execRailPhaseLost w rail s
  | .railOutOfRegulation w rail => Sys2Proof.Machine.execRailOutOfRegulation w rail s
  | .railInRegulation rail => Sys2Proof.Machine.execRailInRegulation rail s
  | .wakeFail how => Sys2Proof.Machine.execWakeFail how s
  | .wakeStepDone step found => Sys2Proof.Machine.execWakeStepDone step found s
  | .serviceEntry eastLanes westLanes => Sys2Proof.Machine.execServiceEntry eastLanes westLanes s
  | .perstDeassert => Sys2Proof.Machine.execPerstDeassert s
  | .perstAssert => Sys2Proof.Machine.execPerstAssert s
  | .clusterClockGate t row => Sys2Proof.Machine.execClusterClockGate t row s
  | .clusterRetention t row => Sys2Proof.Machine.execClusterRetention t row s
  | .clusterWakeDone t row => Sys2Proof.Machine.execClusterWakeDone t row s
  | .dvfsLoadWindow t row waited cycles => Sys2Proof.Machine.execDvfsLoadWindow t row waited cycles s
  | .thermalCapSample t row milliC => Sys2Proof.Machine.execThermalCapSample t row milliC s
  | .dvfsPointChangeDone t row => Sys2Proof.Machine.execDvfsPointChangeDone t row s
  | .pseudoChannelPowerDown t pc => Sys2Proof.Machine.execPseudoChannelPowerDown t pc s
  | .stackSelfRefreshEntry stack => Sys2Proof.Machine.execStackSelfRefreshEntry stack s
  | .configurationRequest f req => Sys2Proof.Machine.execConfigurationRequest f req s
  | .pcieLinkUp speed width flit cxl => Sys2Proof.Machine.execPcieLinkUp speed width flit cxl s
  | .stackRefreshDoubling stack milliC => Sys2Proof.Machine.execStackRefreshDoubling stack milliC s
  | .coreTestPass t r => Sys2Proof.Machine.execCoreTestPass t r s

end Sys2Proof.Machine
end

