-- ==== Sys2Proof/Machine/Parts.lean ====
section
/-!
DEFINITION. Names for the parts of the state, for frames: what it means that a part is the same in two states, and that
one state differs from another only in named parts.
-/

namespace Sys2Proof.Machine

/-- The parts of the state that frames name. The host interface is named by its own parts: `port` is what the PCIe port
and VF Enable hold, `resets` what resets in progress hold; memory by the cores' windows, `scratch`, the window buffers, `frameBytes`, and all else, `mem`. -/
inductive StatePart where
  | pending | mem | poison | sch | tmem | porter | cat | insts | tasks | nextTask | cmds | sidings | tt | carSets | jn
  | ports | cc | lnkCtrs | hifCtrs | logs | pages | rings | mbx | orphans | port | resets | cst | power | latches
  | readOut | cfgRetry | hostOut | canOut | flitOut | heldAt | freeCtr | frameBytes
  | scratch
deriving DecidableEq, Repr

/-- Addresses of the four window buffers (R96). -/
def inFrames (a : Nat) : Prop := 0xE7000000 ≤ a ∧ a < 0x100000000

/-- Addresses of the core windows (R96). -/
def inScratch (a : Nat) : Prop := a < 0xE7000000

/-- A part is the same in two states. Memory is the same when every byte reads the same. -/
def StatePart.same (p : StatePart) (s t : State) : Prop :=
  match p with
  | .pending => t.pending = s.pending
  | .mem => ∀ a, ¬ inScratch a → ¬ inFrames a → memByte t.mem a = memByte s.mem a
  | .poison => t.poison = s.poison
  | .sch => t.sch = s.sch
  | .tmem => t.tmem = s.tmem
  | .porter => t.porter = s.porter
  | .cat => t.cat = s.cat
  | .insts => t.insts = s.insts
  | .tasks => t.tasks = s.tasks
  | .nextTask => t.nextTask = s.nextTask
  | .cmds => t.cmds = s.cmds
  | .sidings => t.sidings = s.sidings
  | .tt => t.tt = s.tt
  | .carSets => t.carSets = s.carSets
  | .jn => t.jn = s.jn
  | .ports => t.ports = s.ports
  | .cc => t.cc = s.cc
  | .lnkCtrs => t.lnkCtrs = s.lnkCtrs
  | .hifCtrs => t.hif.ctrs = s.hif.ctrs
  | .logs => t.hif.logs = s.hif.logs
  | .pages => t.hif.pages = s.hif.pages
  | .rings => t.hif.rings = s.hif.rings
  | .mbx => t.hif.mbx = s.hif.mbx
  | .orphans => t.hif.orphans = s.hif.orphans
  | .port => t.hif.linkUp = s.hif.linkUp ∧ t.hif.speed = s.hif.speed ∧ t.hif.width = s.hif.width ∧ t.hif.flit = s.hif.flit
      ∧ t.hif.cxl = s.hif.cxl ∧ t.hif.vfEnable = s.hif.vfEnable
  | .resets => t.hif.resetting = s.hif.resetting ∧ t.hif.pf0Resetting = s.hif.pf0Resetting ∧ t.hif.zeroing = s.hif.zeroing
  | .cst => t.cst = s.cst
  | .power => t.power = s.power
  | .latches => t.hiHost = s.hiHost ∧ t.hiCst = s.hiCst
  | .readOut => t.readData = s.readData ∧ t.readPoison = s.readPoison ∧ t.portData = s.portData
  | .cfgRetry => t.cfgRetry = s.cfgRetry
  | .hostOut => t.hostOut = s.hostOut
  | .canOut => t.canOut = s.canOut
  | .flitOut => t.flitOut = s.flitOut
  | .heldAt => t.heldAt = s.heldAt
  | .freeCtr => t.freeCtr = s.freeCtr
  | .frameBytes => ∀ a, inFrames a → memByte t.mem a = memByte s.mem a
  | .scratch => ∀ a, inScratch a → memByte t.mem a = memByte s.mem a

/-- The state t differs from s in no other part than those listed. -/
def OnlyChanges (ps : List StatePart) (s t : State) : Prop := ∀ p : StatePart, p ∉ ps → p.same s t

/-- Every task that has not ended bears a number below the next one to be given (the model's own numbers). -/
def TasksNumbered (s : State) : Prop := ∀ t ∈ s.tasks, t.id < s.nextTask

end Sys2Proof.Machine
end

