-- ==== Sys2Proof/Safety.lean ====
section
/-!
DEFINITION. What a safe run is, and the conditions and effects that several statements share.
-/

namespace Sys2Proof

open Sys2Proof.Machine

/-- The invariant of the machine: memory lists rising addresses and no byte that an unlisted address reads as, so that
equal memories are equal data; and every task bears a number below the next one to be given. -/
def Inv (s : State) : Prop := memCanonical s.mem = true ∧ TasksNumbered s

/-- A step that answers a next state. -/
def Steps (s s' : State) : Prop := Machine.step s = .next s'

/-- The front entry of a ring may begin, names a task of one KIND and SUB on a partition's ring, and passes its issue check
(R136): steps 1 to 4 find nothing, and the steps 5 to 7 of its kind leave the state p and make of it the task x. -/
def Issues (s : State) (f : Func) (r kind sub : Nat) (k : KindCheck) (p : State) (x : Task) : Prop :=
  ∃ e h, readyEntry s f r = some (e, h) ∧ entryKind e = kind ∧ kind ≠ 0 ∧ hSub e = sub ∧ f ≠ .pf0
    ∧ commonFault { takeEntry { s with heldAt := none } f r with nextTask := s.nextTask + 1 }
        (newTask { s with heldAt := none } f r e h) = none
    ∧ k { takeEntry { s with heldAt := none } f r with nextTask := s.nextTask + 1 }
        (newTask { s with heldAt := none } f r e h) = (p, .ok x)

/-- The front entry of a ring may begin and is a command of one OPCODE, nothing that PF0's rings had fetched before a reset
standing before it (R482): p is the state with that entry e taken and h the SQ_HEAD it had. -/
def Begins (s : State) (f : Func) (r op : Nat) (p : State) (e : Entry) (h : Nat) : Prop :=
  p = takeEntry { s with heldAt := none } f r ∧ (f ≠ .pf0 ∨ s.hif.orphans = []) ∧ readyEntry s f r = some (e, h)
    ∧ entryKind e = 0 ∧ cmdOp e = op ∧ 1 ≤ op ∧ op ≤ 8

/-- A command begins and passes the checks of R481. -/
def Performs (s : State) (f : Func) (r op : Nat) (p : State) (e : Entry) (h : Nat) : Prop :=
  Begins s f r op p e h ∧ commandFault p f r e = none

/-- The effects of a partition's reset that has begun (R483 steps 1 to 6): its rings are disabled and hold nothing, and nothing
of the partition is kept in the sidings, the car sets, the translation caches, the window buffers, the look-aside buffers and
its structures' current editions. -/
def ResetBegun (q : Fin 16) (t : State) : Prop :=
  resettingPart t q.val = true
    ∧ (∀ r, (ringOf t (.vf q) r).enabled = false ∧ (ringOf t (.vf q) r).fetched = [] ∧ (ringOf t (.vf q) r).heldEntries = [])
    ∧ (∀ x ∈ t.sidings, x.part ≠ q.val)
    ∧ (∀ w, ∀ c ∈ t.carSets.get w, c.key.part ≠ q)
    ∧ (∀ d, (∀ x ∈ (t.tmem.get d).tlb, x.part ≠ q.val)
        ∧ (∀ x ∈ (t.tmem.get d).frames, x.2.owner = q.val → x.2.stuck ≠ none)
        ∧ ∀ x ∈ (t.porter.get d).lab, x.part ≠ q.val)
    ∧ ∀ i ∈ partInsts q, (instOf t i).current = none ∧ (instOf t i).atUnit = [] ∧ (instOf t i).swaps = []

/-- A register of a block by the block's number (R98). -/
def blockTarget (b : Nat) (off : BitVec 24) : RegTarget := .block (Fin.ofNat 26 b) off

/-- The Custodian serves a request of one entry on a path as it comes: nothing waits before it, and the path takes requests. -/
def PathFree (s : State) (p : DictPath) : Prop :=
  s.cst.queue = [] ∧ match p with
    | .can => s.power.inputPower = true
    | .mailbox => hostReaches s .pf0 = true ∧ s.hif.mbx.busy = false ∧ Table.canonical 0 s.hif.mbx.req = true

/-- No rule of the Custodian is active. -/
def RulesQuiet (s : State) : Prop := ∀ r, (ruleState s r).active = false

end Sys2Proof
end

