-- ==== Sys2Proof/Certificates/Slice0/Obligations.lean ====
section
/-!
DEFINITION. The statements for the provers.
-/

open Sys2Proof Sys2Proof.Machine

/-! ### The block's step and the whole machine -/

/-- R527: the state right after reset meets the invariant: memory lists nothing, and every task bears a number below the next
one (the numbers are the model's own, assumption log 2). -/
def Obligations.ResetInv : Prop := Inv State.reset

/-- A step runs the command at the front of the queue on the state with the rest of the queue (the queue is the model's own,
assumption log 2). -/
def Obligations.StepRunsFront : Prop :=
  ∀ (s : State) (c : Instr) (rest : List Instr), s.pending = c :: rest → step s = exec c { s with pending := rest }

/-- No step ends in a fault or a refusal, and the queue loses its front and nothing else: no command and no idle step adds to it
(assumption log 2). -/
def Obligations.EveryStepAnswers : Prop := ∀ s : State, ∃ t, step s = .next t ∧ t.pending = s.pending.tail

/-- Every step keeps the invariant: memory's addresses rise and no byte is listed that an unlisted address reads as, so that
equal memories are equal data, and every task bears a number below the next one to be given (both the model's own, assumption
log 2). -/
def Obligations.InvariantKept : Prop := ∀ s t : State, Inv s → step s = .next t → Inv t

/-- R557: a statistics counter that counts rises to 2^64 − 1 at most, and EV_CTR_SAT is raised once, when it reaches that value;
otherwise counting raises nothing. HIF_EV_LOST, which R562 makes count what cannot be reported, is apart. R562: a record offered
while the event queue is enabled, has room and can be reached is written at the tail's slot with the fields of R562, where the
queue was empty sends PF0's MSI-X entry 0 (which stays pending while it is masked or PF0 is no bus master, R478), and moves the
tail; otherwise it is discarded, OVF is set and HIF_EV_LOST counts it. -/
def Obligations.CountersAndEvents : Prop :=
  (∀ (s : State) (block off n : Nat), block < 25 → ¬ (block = blkHif ∧ off = offEvLost) → 1 ≤ n →
     (ctr (addCtr s block off n) block off).toNat = min (2 ^ 64 - 1) ((ctr s block off).toNat + n)
     ∧ ((ctr s block off).toNat < 2 ^ 64 - 1 ∧ 2 ^ 64 - 1 ≤ (ctr s block off).toNat + n →
         addCtr s block off n =
           raise (setCtrTable s block (Table.set 0 (ctrTable s block) off (BitVec.ofNat 64 (2 ^ 64 - 1)))) 0x0901 off block)
     ∧ (¬ ((ctr s block off).toNat < 2 ^ 64 - 1 ∧ 2 ^ 64 - 1 ≤ (ctr s block off).toNat + n) →
         addCtr s block off n = setCtrTable s block (Table.set 0 (ctrTable s block) off
           (BitVec.ofNat 64 (min (2 ^ 64 - 1) ((ctr s block off).toNat + n))))))
  ∧ (∀ (s : State) (ev data block part : Nat),
       (blockWing block = .east ∨ concourseUp s = true) →
       (s.hif.logs.evqEnable = true → evqHeld s.hif.logs < 2 ^ s.hif.logs.evqSize - 1 →
         (raise s ev data block part).hif.logs.evqTail = (s.hif.logs.evqTail + 1) % 2 ^ s.hif.logs.evqSize
         ∧ (raise s ev data block part).hif.logs.ovf = s.hif.logs.ovf
         ∧ (raise s ev data block part).hif.ctrs = s.hif.ctrs
         ∧ (raise s ev data block part).hostOut =
             s.hostOut ++ HostWrite.event (s.hif.logs.evqBase.toNat + 16 * s.hif.logs.evqTail)
               (eventRecord s ev data block part ||| (if s.hif.logs.evqPhase then 1 else 0)) ::
               (if evqHeld s.hif.logs = 0 ∧ msixMasked (pageOf s .pf0) 0 = false ∧ (pageOf s .pf0).busMaster = true
                 then [HostWrite.msix .pf0 0] else [])
         ∧ (evqHeld s.hif.logs = 0 → (msixMasked (pageOf s .pf0) 0 = true ∨ (pageOf s .pf0).busMaster = false) →
             msixPending (pageOf (raise s ev data block part) .pf0) 0 = true))
       ∧ (s.hif.logs.evqEnable = false ∨ 2 ^ s.hif.logs.evqSize - 1 ≤ evqHeld s.hif.logs →
         (ctr s blkHif offEvLost).toNat + 1 < 2 ^ 64 - 1 →
         raise s ev data block part =
           { s with hif := { s.hif with
             logs := { s.hif.logs with ovf := true }
             ctrs := Table.set 0 s.hif.ctrs offEvLost (ctr s blkHif offEvLost + 1) } }))

/-! ### Rings and commands -/

/-- R474, R475, R483, R455: a doorbell of an enabled ring that the host reaches, whose function is not in reset, with an index
below the ring's size: the tail or head becomes the value, and the head consumes the completion entries before it. R474, R483,
R455: the doorbells that are not accepted. A reserved bit, an index that is not below SIZE or a ring that is not enabled
discards the write, adds 1 to HIF_DB_BAD and raises EV_HIF_DB_BAD; during the function's reset it is discarded without counting;
with the Concourse down, EIO keeps the last value written for a West-homed ring. -/
def Obligations.Doorbells : Prop :=
  (∀ (f : Func) (r : Fin 64) (v : Word32) (s : State),
     hostReaches s f = true → hasRing f r.val = true → funcResetting s f = false →
     (wingOf (ringOf s f r.val).home = .east ∨ concourseUp s = true) →
     (ringOf s f r.val).enabled = true → v.toNat < 4096 → v.toNat < ringSize (ringOf s f r.val) →
       exec (.sqTailDoorbell f r v) s = .next (s.modRing f r.val fun g => { g with sqTail := v.toNat })
       ∧ exec (.cqHeadDoorbell f r v) s = .next (s.modRing f r.val fun g =>
           { g with cqHead := v.toNat
                    owed := g.owed - (v.toNat + 2 ^ g.sizeLog2 - g.cqHead) % 2 ^ g.sizeLog2 }))
  ∧ (∀ (f : Func) (r : Fin 64) (v : Word32) (s : State),
       hostReaches s f = true → hasRing f r.val = true →
       (funcResetting s f = true → exec (.sqTailDoorbell f r v) s = .next s ∧ exec (.cqHeadDoorbell f r v) s = .next s)
       ∧ (funcResetting s f = false → (wingOf (ringOf s f r.val).home = .east ∨ concourseUp s = true) →
           (4096 ≤ v.toNat ∨ ringSize (ringOf s f r.val) ≤ v.toNat ∨ (ringOf s f r.val).enabled = false) →
           ∃ t, t = raise (addCtr s blkHif 0x0100) 0x0804 (65536 * funcNum f + r.val) blkHif (evPart f)
             ∧ exec (.sqTailDoorbell f r v) s = .next t ∧ exec (.cqHeadDoorbell f r v) s = .next t
             ∧ t.hif.rings = s.hif.rings)
       ∧ (funcResetting s f = false → wingOf (ringOf s f r.val).home = .west → concourseUp s = false →
           ∀ head : Bool, ∃ t, exec (if head then .cqHeadDoorbell f r v else .sqTailDoorbell f r v) s = .next t
             ∧ t.hif = s.hif ∧ OnlyChanges [.cc] s t
             ∧ (∀ w, (ringKey f r.val, head, w) ∈ t.cc.doorbells ↔ w = v)
             ∧ (∀ k h w, (k, h) ≠ (ringKey f r.val, head) → ((k, h, w) ∈ t.cc.doorbells ↔ (k, h, w) ∈ s.cc.doorbells))))

/-- R473, R472: RING_ENABLE of a ring that is not enabled, with SIZE_LOG2 in 4 to 12, bases without reserved bits and no reset:
the ring is enabled with its size and home, its errors cleared, its indices 0 and its completion phase 1. R473: a refused enable
sets CFG_ERR and changes nothing else, on a ring that is not enabled as on one that drains; an enable of a ring that is enabled
and whose ENABLE reads 1 changes nothing. R473: RING_DISABLE of an enabled ring stops its fetching and changes nothing else;
once every fetched entry's completion entry has been written, RING_DRAIN_DONE lets ENABLED fall to 0. -/
def Obligations.RingsEnabledAndDisabled : Prop :=
  (∀ (f : Func) (r : Fin 64) (cfg : Word32) (s : State),
     hostReaches s f = true → hasRing f r.val = true → (ringOf s f r.val).enabled = false →
     4 ≤ fld cfg 19 16 → fld cfg 19 16 ≤ 12 → (ringOf s f r.val).sqBase.toNat % 4096 = 0 →
     (ringOf s f r.val).cqBase.toNat % 4096 = 0 → funcResetting s f = false →
       ∃ t, exec (.ringEnable f r cfg) s = .next t ∧ OnlyChanges [.rings] s t
         ∧ (∀ g q, ringKey g q ≠ ringKey f r.val → ringOf t g q = ringOf s g q)
         ∧ (ringOf t f r.val).enabled = true ∧ (ringOf t f r.val).enable = true
         ∧ (ringOf t f r.val).sizeLog2 = fld cfg 19 16 ∧ (ringOf t f r.val).home = tileOf (fld cfg 9 8)
         ∧ (ringOf t f r.val).error = false ∧ (ringOf t f r.val).cfgErr = false ∧ (ringOf t f r.val).errKind = 0
         ∧ (ringOf t f r.val).sqHead = 0 ∧ (ringOf t f r.val).sqTail = 0 ∧ (ringOf t f r.val).cqHead = 0
         ∧ (ringOf t f r.val).cqPos = 0 ∧ (ringOf t f r.val).phase = true
         ∧ (ringOf t f r.val).sqBase = (ringOf s f r.val).sqBase ∧ (ringOf t f r.val).cqBase = (ringOf s f r.val).cqBase
         ∧ (ringOf t f r.val).irqEn = (ringOf s f r.val).irqEn ∧ (ringOf t f r.val).vector = (ringOf s f r.val).vector
         ∧ (ringOf t f r.val).coalCount = (ringOf s f r.val).coalCount
         ∧ (ringOf t f r.val).coalDelay = (ringOf s f r.val).coalDelay)
  ∧ (∀ (f : Func) (r : Fin 64) (cfg : Word32) (s : State),
       hostReaches s f = true → hasRing f r.val = true →
       ((ringOf s f r.val).enabled = false →
           (fld cfg 19 16 < 4 ∨ 12 < fld cfg 19 16 ∨ (ringOf s f r.val).sqBase.toNat % 4096 ≠ 0
             ∨ (ringOf s f r.val).cqBase.toNat % 4096 ≠ 0 ∨ funcResetting s f = true) →
           exec (.ringEnable f r cfg) s = .next (s.modRing f r.val fun g => { g with cfgErr := true }))
       ∧ ((ringOf s f r.val).enabled = true → (ringOf s f r.val).enable = false →
           exec (.ringEnable f r cfg) s = .next (s.modRing f r.val fun g => { g with cfgErr := true }))
       ∧ ((ringOf s f r.val).enabled = true → (ringOf s f r.val).enable = true → exec (.ringEnable f r cfg) s = .next s))
  ∧ (∀ (f : Func) (r : Fin 64) (cfg : Word32) (s : State),
       (hostReaches s f = true → hasRing f r.val = true → (ringOf s f r.val).enabled = true →
         ∃ t, exec (.ringDisable f r cfg) s = .next t ∧ t = s.modRing f r.val (fun g => { g with enable := false })
           ∧ mayFetch t f r.val = false)
       ∧ ((ringOf s f r.val).enabled = true → (ringOf s f r.val).enable = false → (ringOf s f r.val).open_ = 0 →
           (ringOf s f r.val).heldEntries = [] →
           exec (.ringDrainDone f r) s = .next (s.modRing f r.val fun g => { g with enabled := false })))

/-- R475, R139: an entry that may be fetched (the ring enabled and without error, the function a bus master, entries up to the
tail, fewer than SIZE not yet passed by the CQ head; a task header only while its tile holds fewer than 512 tasks) is fetched
from SQ_HEAD, which moves on, and waits behind the entries fetched before it. An entry whose ring's oldest waiting entry the
operation table names changes nothing else. R477: a submission fetch that fails sets ERROR with ERR_KIND 0x01, adds 1 to
HIF_RING_ERR and raises EV_HIF_RING_ERROR; a completion write that the port refuses does the same with ERR_KIND 0x02 and
discards the completion entries that wait. No other ring changes, and the stopped ring is fetched no further. -/
def Obligations.EntriesFetched : Prop :=
  (∀ (f : Func) (r : Fin 64) (entry : Entry) (s : State),
     mayFetch s f r.val = true → (entryKind entry = 0 ∨ heldCount s (ringOf s f r.val).home < 512) →
     ((((ringOf s f r.val).fetched.map Prod.fst ++ [entry]).head?.all fun x => !nameless x) = true) →
       exec (.submissionEntryFetch f r entry) s = .next (s.modRing f r.val fun g =>
         { g with sqHead := (g.sqHead + 1) % 2 ^ g.sizeLog2
                  fetched := g.fetched ++ [(entry, (g.sqHead + 1) % 2 ^ g.sizeLog2)]
                  open_ := g.open_ + 1, owed := g.owed + 1 }))
  ∧ (∀ (f : Func) (r : Fin 64) (s : State),
       (mayFetch s f r.val = true →
         ∃ t, exec (.submissionFetchFailed f r) s = .next t
           ∧ t = raise (addCtr (s.modRing f r.val fun g => { g with error := true, errKind := 1 }) blkHif 0x0108) 0x0803
               (65536 * funcNum f + r.val) blkHif (evPart f)
           ∧ t.hif.rings = (s.modRing f r.val fun g => { g with error := true, errKind := 1 }).hif.rings
           ∧ mayFetch t f r.val = false)
       ∧ ((ringOf s f r.val).enabled = true → ((ringOf s f r.val).error = false ∨ (ringOf s f r.val).errKind ≠ 2) →
         ∃ t, exec (.completionWriteRefused f r) s = .next t
           ∧ t = (raise (addCtr (s.modRing f r.val fun g => { g with error := true, errKind := 2 }) blkHif 0x0108) 0x0803
               (65536 * funcNum f + r.val) blkHif (evPart f)).modRing f r.val (fun g => { g with heldEntries := [] })
           ∧ ringOf t f r.val = { ringOf s f r.val with error := true, errKind := 2, heldEntries := [] }))

/-- R478: COAL_DELAY µs after the first entry not yet signalled, a ring with IRQ_EN and a COAL_DELAY that is not 0 sends its
message, and its count of entries not yet signalled starts again. R478, R477: a vector below the function's table size that is
not masked is sent when the function is a bus master, and stays pending otherwise; a VECTOR at or above the table size sends
nothing. -/
def Obligations.MessagesSent : Prop :=
  (∀ (f : Func) (r : Fin 64) (s : State),
     (ringOf s f r.val).irqEn = true → (ringOf s f r.val).coalDelay ≠ 0 → (ringOf s f r.val).unsignalled ≠ 0 →
     (wingOf (ringOf s f r.val).home = .east ∨ concourseUp s = true) →
       exec (.msixCoalDelayExpiry f r) s =
         .next (sendMsix (s.modRing f r.val fun g => { g with unsignalled := 0 }) f (ringOf s f r.val).vector))
  ∧ (∀ (s : State) (f : Func) (v : Nat),
       (msixSize f ≤ v → sendMsix s f v = s)
       ∧ (v < msixSize f → msixMasked (pageOf s f) v = false → (pageOf s f).busMaster = true →
           sendMsix s f v = { s with hostOut := s.hostOut ++ [HostWrite.msix f v] })
       ∧ (v < msixSize f → (msixMasked (pageOf s f) v = true ∨ (pageOf s f).busMaster = false) →
           (sendMsix s f v).hostOut = s.hostOut ∧ msixPending (pageOf (sendMsix s f v) f) v = true))

/-- R481, R589: a command that fails one of the common checks takes no effect but its answer with the first cause that applies;
a swap of an instance fails them when its turn comes, at once where no swap of the instance waits. R475, R476, R489, R560: the
answer of a command on a ring whose completions flow and which sends no messages is one completion entry at the ring's next
position, with the command's TAG, its cause, its SQ_HEAD, COMMAND, COMMITTED where the cause is 0, and the ring's phase; a
performed command counts in HIF_CMD, a failed one enters the cause log under the next number. -/
def Obligations.CommandsAnswered : Prop :=
  (∀ (s : State) (f : Func) (r : Fin 64) (row : Instr × Nat) (p : State) (e : Entry) (h c : Nat),
     row ∈ [(Instr.editionSwap f r, 1), (.mapInvalidate f r, 2), (.sidingOpen f r, 3), (.sidingClose f r, 4), (.prefixLookup f r, 5),
       (.carSetStart f r, 6), (.carSetStop f r, 7), (.partitionResetCmd f r, 8)] →
     (row.2 = 4 → ∀ x ∈ s.cmds, x.func = f → x.ring = r.val → closeReady s x = false) →
     Begins s f r.val row.2 p e h → commandFault p f r.val e = some c →
       ((row.2 = 1 → swapInst e = none) →
         exec row.1 s = .next (answerCommand p ⟨f, r.val, h, true⟩ e c (wingOf (ringOf s f r.val).home)))
       ∧ (∀ i, row.2 = 1 → swapInst e = some i → (instOf p i).swaps = [] →
         let q := p.modInst i fun x => { x with swaps := x.swaps ++ [{ func := f, ring := r.val, entry := e, sqHead := h, answer := true }] }
         exec row.1 s = .next (answerCommand (q.modInst i fun x => { x with swaps := [] }) ⟨f, r.val, h, true⟩ e c
           (wingOf (instHome p i)) .stationmaster (swapHdr e)))
       ∧ (commandOk e = false → c = 0x0154)
       ∧ (commandOk e = true → f ≠ .pf0 → cmdOp e = 1 → swapStruct e = 5 → c = 0x0153))
  ∧ (∀ (s : State) (f : Func) (r h cause : Nat) (e : Entry) (w : Wing),
       let g := ringOf s f r
       let img := (Completion.image { tag := entryTag e, cause := cause, sqHead := h, ring := r, command := true, committed := cause == 0 })
       g.error = false → completionsWait s f g = false → g.heldEntries = [] → g.irqEn = false → cause < 2 ^ 16 →
       (w = .east ∨ concourseUp s = true) → (ctr s blkHif 0x0110).toNat + 1 < 2 ^ 64 - 1 →
         ∃ t, answerCommand s ⟨f, r, h, true⟩ e cause w = t
           ∧ t.hostOut = s.hostOut ++ [.completion f r (g.cqBase.toNat + 16 * g.cqPos) (img ||| (if g.phase then 1 else 0))]
           ∧ bits img.toNat 127 96 = entryTag e ∧ bits img.toNat 95 80 = cause ∧ bits img.toNat 79 68 = h % 4096
           ∧ bits img.toNat 63 58 = r % 64 ∧ bit img.toNat 7 = true ∧ bit img.toNat 4 = (cause == 0) ∧ bit img.toNat 0 = false
           ∧ ringOf t f r = { g with open_ := g.open_ - 1, cqPos := (g.cqPos + 1) % 2 ^ g.sizeLog2
                                     phase := if (g.cqPos + 1) % 2 ^ g.sizeLog2 = 0 then !g.phase else g.phase
                                     unsignalled := g.unsignalled + 1 }
           ∧ (∀ k q, ringKey k q ≠ ringKey f r → ringOf t k q = ringOf s k q)
           ∧ (cause = 0 → (ctr t blkHif 0x0110).toNat = (ctr s blkHif 0x0110).toNat + 1 ∧ t.hif.logs = s.hif.logs)
           ∧ (cause ≠ 0 → t.hif.logs.clogSeq = s.hif.logs.clogSeq + 1 ∧ t.hif.ctrs = s.hif.ctrs)
           ∧ OnlyChanges [.hifCtrs, .logs, .rings, .hostOut] s t)

/-- R37, R38: a swap whose instance has no other swap waiting, which the home Stationmaster judges good, and which neither waits
for a free edition nor for a drain, is applied, u being the state in which it is judged: the edition is live and current, at the
home unit at once, and the other pinning units are sent the swap. R37, R41, R154, R589: a swap behind another one waits its turn
unjudged; one that would make a fifth edition live is held, with EV_EDITION_HELD; one that removes or moves grants waits for the
drain; one that fails its checks is answered with the cause. -/
def Obligations.EditionSwapsBegin : Prop :=
  (∀ (s : State) (f : Func) (r : Fin 64) (p u : State) (e : Entry) (h : Nat) (i : Instance) (v : Option Edition),
     memCanonical s.mem = true → Begins s f r.val 1 p e h → swapInst e = some i → (instOf p i).swaps = [] →
     let sw : Swap := { func := f, ring := r.val, entry := e, sqHead := h, answer := true }
     judge (p.modInst i fun x => { x with swaps := x.swaps ++ [sw] }) i sw
       = (u, match v with | some ed => .accept ed | none => .withdraw) →
     mustHold u i { sw with edition := v } = false → mustDrain u i { sw with edition := v } = false →
       ∃ t, exec (.editionSwap f r) s = .next t
         ∧ (instOf t i).current = v.map (·.num)
         ∧ (∀ ed, v = some ed → ed ∈ (instOf t i).live)
         ∧ currentAt t i (.station (swapHome u i e)) = v.map (·.num)
         ∧ (instOf t i).swaps = [{ sw with
             edition := v, stage := .applying ((pinUnits t i).filter fun u => u ≠ .station (swapHome p i e)) }]
         ∧ (∀ j, j ≠ i → instOf t j = instOf s j)
         ∧ ringOf t f r.val = { ringOf s f r.val with fetched := (ringOf s f r.val).fetched.drop 1 }
         ∧ OnlyChanges [.poison, .sch, .tmem, .porter, .insts, .jn, .hifCtrs, .logs, .pages, .rings, .power, .hostOut, .heldAt,
             .frameBytes] s t)
  ∧ (∀ (s : State) (f : Func) (r : Fin 64) (p u : State) (e : Entry) (h : Nat) (i : Instance),
       Begins s f r.val 1 p e h → swapInst e = some i →
       let sw : Swap := { func := f, ring := r.val, entry := e, sqHead := h, answer := true }
       let q := p.modInst i fun x => { x with swaps := x.swaps ++ [sw] }
       ((instOf p i).swaps ≠ [] → exec (.editionSwap f r) s = .next q)
       ∧ (∀ ed, (instOf p i).swaps = [] → judge q i sw = (u, .accept ed) → mustHold u i { sw with edition := some ed } = true →
           exec (.editionSwap f r) s = .next (raise (setHeadSwap u i fun _ => { sw with edition := some ed, stage := .held }) 0x0105
             (structCode i * 65536 + (instNums i).2) (blkSch (instHome u i)) (instNums i).1))
       ∧ (∀ ed, (instOf p i).swaps = [] → judge q i sw = (u, .accept ed) → mustHold u i { sw with edition := some ed } = false →
           mustDrain u i { sw with edition := some ed } = true →
           exec (.editionSwap f r) s = .next (setHeadSwap u i fun _ => { sw with edition := some ed, stage := .drain }))
       ∧ (∀ c er, (instOf p i).swaps = [] → judge q i sw = (u, .refuse c er) →
           let v := (match er with | some x => failAcc u .task (cmdPart e) x | none => u).modInst i fun x => { x with swaps := [] }
           v.heldAt = none →
           exec (.editionSwap f r) s = .next (answerCommand v ⟨f, r.val, h, true⟩ e c (wingOf (instHome v i)) .stationmaster (swapHdr e))))

/-- R37, R38, R40, R395: a pinning unit that has not applied a swap applies it when its notice comes: from then on it pins the
new edition. An edition that is current nowhere and that no task pins is no longer live; a Junction that applies a group table
forgets its lost members. R37, R40: a swap that every pinning unit has applied is answered with success and leaves its
instance's queue; what may retire retires, and the next swap takes its turn. R154: once no task of a drained partition is left
and no changed partition is in reset, the swap of the partition configuration is applied at E0. The banks of the cores that the
swap takes from a drained partition then read 0. -/
def Obligations.EditionSwapsEnd : Prop :=
  (∀ (s : State) (u : PinUnit) (i : Instance) (sw : Swap) (rest : List Swap) (todo : List PinUnit),
     (instOf s i).swaps = sw :: rest → sw.stage = .applying todo → u ∈ todo →
     (unitWing u = wingOf (instHome s i) ∨ concourseUp s = true) →
       ∃ t, exec (.swapNotice u i) s = .next t
         ∧ currentAt t i u = sw.edition.map (·.num)
         ∧ (∀ k, k ≠ u → currentAt t i k = currentAt s i k)
         ∧ (instOf t i).current = (instOf s i).current
         ∧ (instOf t i).swaps = { sw with stage := .applying (todo.filter fun x => x ≠ u) } :: rest
         ∧ (∀ x, x ∈ (instOf t i).live ↔
             x ∈ (instOf s i).live ∧ (currentSomewhere (instOf t i) x.num = true ∨ pinnedBy s i x.num = true))
         ∧ (∀ j, j ≠ i → instOf t j = instOf s j)
         ∧ (∀ w, i = .group → u = .junction w → (t.jn.get w).lost = [] ∧ (t.jn.get w).gone = [] ∧ (t.jn.get w).parents = [])
         ∧ OnlyChanges [.insts, .sch, .porter, .jn, .hifCtrs, .logs, .pages, .hostOut] s t)
  ∧ (∀ (s : State) (i : Instance) (sw : Swap) (rest : List Swap),
       (instOf s i).swaps = sw :: rest → sw.stage = .applying [] →
       let a := (answerCommand { s with heldAt := none } ⟨sw.func, sw.ring, sw.sqHead, sw.answer⟩ sw.entry 0
         (wingOf (instHome s i))).modInst i fun x => { x with swaps := rest }
       (rest = [] → ∃ t, exec (.editionSwapComplete i) s = .next t ∧ t = retireUnpinned a i ∧ (instOf t i).swaps = []
         ∧ (instOf t i).current = (instOf s i).current ∧ ∀ j, j ≠ i → instOf t j = instOf s j)
       ∧ ((settleInst a i).heldAt = none → exec (.editionSwapComplete i) s = .next (settleInst a i)))
  ∧ (∀ (s : State) (sw : Swap) (rest : List Swap) (e : Edition),
       let old := cfgAt s .e0
       (instOf s .partCfg).swaps = sw :: rest → sw.stage = .drain → sw.edition = some e → memCanonical s.mem = true →
       (∀ x ∈ s.tasks, x.part ∈ drainedParts old e.copy → x.func = .pf0) →
       (∀ p ∈ changedParts old e.copy, resettingPart s p = false) →
         ∃ t, exec .partConfigDrainDone s = .next t
           ∧ t = applySwap ((drainedParts old e.copy).foldl (fun s p => drainPart s old e.copy p) { s with heldAt := none }) .partCfg sw
           ∧ (instOf t .partCfg).current = some e.num ∧ currentAt t .partCfg (.station .e0) = some e.num
           ∧ (∀ p ∈ drainedParts old e.copy, ∀ (d : Tile) (n b a : Nat), n < 336 →
               let g := effectiveGrant (partRec old p) d
               inGrant g n = true → inGrant (effectiveGrant (partRec e.copy p) d) n = false →
               g.bankFirst ≤ b → b < g.bankFirst + g.bankCount →
               windowBase (coreIndex d n) + 0x10000 * b ≤ a → a < windowBase (coreIndex d n) + 0x10000 * b + 0x10000 →
               memByte t.mem a = 0)
           ∧ OnlyChanges [.scratch, .poison, .tmem, .insts, .sch, .porter, .jn, .hifCtrs, .logs, .pages, .hostOut, .heldAt] s t)

/-- R106: a map invalidate drops every cached translation of its partition that meets the range, on every tile, and no other,
and then waits; it is answered with success once every task of the partition issued before it has ended, and not before. R192,
R193, R194: a siding open whose descriptor is well formed, whose siding is not open and for which the home tile has room opens
the siding with every handle free; otherwise it fails with cause 0x0505. A siding close that no issued stage binds discards the
siding; one that is bound waits, and is performed once no stage binds it. R311, R312, R313: a prefix lookup on its ring's home
wing counts in PW_LOOKUPS, follows the partition's tree from the start node, writes its 32-byte record and is answered with
success; the record names the node reached and the number of hashes matched, which is at most COUNT. With COUNT 0 nothing is
matched and the node is the start node. A lookup that verifies hashes at a TOKENS_VA that is not a multiple of 64 matches
nothing and ends with cause 0x0602. R338, R339, R340: a car-set start whose descriptor passes every condition arms the set at
the wing's stop; otherwise it fails with cause 0x0305. A stop ends the set, whether it was started or not, and no other. -/
def Obligations.CommandsPerformed : Prop :=
  ((∀ (s : State) (f : Func) (r : Fin 64) (p : State) (e : Entry) (h : Nat), Performs s f r.val 2 p e h →
     let c : Cmd := { func := f, ring := r.val, entry := e, sqHead := h, answer := true
                      wait := .mapInvalidate ((s.tasks.filter fun t => t.func == vfOf (cmdPart e)).map (·.id)) }
     ∃ t, exec (.mapInvalidate f r) s = .next t
       ∧ t.cmds = s.cmds ++ [c]
       ∧ (∀ d x, x ∈ (t.tmem.get d).tlb ↔ x ∈ (s.tmem.get d).tlb
           ∧ (x.part ≠ cmdPart e ∨ overlap x.va x.size (bits e.toNat 511 464) (65536 * bits e.toNat 463 432) = false))
       ∧ (∀ d, { t.tmem.get d with tlb := [] } = { s.tmem.get d with tlb := [] })
       ∧ ringOf t f r.val = { ringOf s f r.val with fetched := (ringOf s f r.val).fetched.drop 1 }
       ∧ OnlyChanges [.tmem, .cmds, .rings, .heldAt] s t)
   ∧ ∀ (s : State) (f : Func) (r : Fin 64) (c : Cmd) (ids : List Nat),
     c ∈ s.cmds → c.func = f → c.ring = r.val → c.wait = .mapInvalidate ids →
     (∀ x ∈ s.cmds, x.func = f → x.ring = r.val → x = c) →
     ((∀ t ∈ s.tasks, t.id ∉ ids) → exec (.mapInvalidateDone f r) s = .next (answerCommand
         { s with cmds := s.cmds.filter fun x => x ≠ c } ⟨f, r.val, c.sqHead, c.answer⟩ c.entry 0 (wingOf (ringOf s f r.val).home)))
     ∧ ((∃ t ∈ s.tasks, t.id ∈ ids) → exec (.mapInvalidateDone f r) s = .next s))
  ∧ ((∀ (s : State) (f : Func) (r : Fin 64) (p u : State) (e : Entry) (h d : Nat), Performs s f r.val 3 p e h →
       loadNum p { part := cmdPart e, tile := (ringOf s f r.val).home, copy := cfgAt p (ringOf s f r.val).home } (bits e.toNat 511 464) 32
         = (u, .ok d) →
       let good := sidingDescOk d = true ∧ 2 * sdStreams d ≤ sdHandles d ∧ sidingOf s (cmdPart e) (sdWing d) (sdNum d) = none
         ∧ sidingRoom s d = true
       (good → exec (.sidingOpen f r) s = .next (answerCommand { u with sidings := s.sidings ++
           [{ part := cmdPart e, wing := sdWing d, num := sdNum d, desc := d, home := sdTile d }] } ⟨f, r.val, h, true⟩ e 0 (sdWing d)))
       ∧ (¬ good → exec (.sidingOpen f r) s = .next (answerCommand u ⟨f, r.val, h, true⟩ e 0x0505 (sdWing d) .stationmaster
           (bits e.toNat 511 464))))
     ∧ (∀ (s : State) (f : Func) (r : Fin 64) (p : State) (e : Entry) (h : Nat), Performs s f r.val 4 p e h →
       (∀ c ∈ s.cmds, c.func = f → c.ring = r.val → closeReady s c = false) →
       (sidingBound s (cmdPart e) (closeWing e) (closeNum e) = false → ∃ t,
           exec (.sidingClose f r) s = .next (answerCommand t ⟨f, r.val, h, true⟩ e 0 (closeWing e))
           ∧ t = dropSiding p (cmdPart e) (closeWing e) (closeNum e)
           ∧ sidingOf t (cmdPart e) (closeWing e) (closeNum e) = none ∧ OnlyChanges [.sidings] p t)
       ∧ (sidingBound s (cmdPart e) (closeWing e) (closeNum e) = true →
           exec (.sidingClose f r) s = .next { p with
             cmds := p.cmds ++ [{ func := f, ring := r.val, entry := e, sqHead := h, answer := true, wait := .sidingClose }] }))
     ∧ ∀ (s : State) (f : Func) (r : Fin 64) (c : Cmd), c ∈ s.cmds → c.func = f → c.ring = r.val → c.wait = .sidingClose →
       (∀ x ∈ s.cmds, x.func = f → x.ring = r.val → x = c) →
       sidingBound s (cmdPart c.entry) (closeWing c.entry) (closeNum c.entry) = false →
         exec (.sidingClose f r) s = .next (answerCommand
           { dropSiding s (cmdPart c.entry) (closeWing c.entry) (closeNum c.entry) with cmds := s.cmds.filter fun x => x ≠ c }
           ⟨f, r.val, c.sqHead, c.answer⟩ c.entry 0 (wingOf (ringOf s f r.val).home)))
  ∧ (∀ (s : State) (f : Func) (r : Fin 64) (p : State) (e : Entry) (h : Nat) (u v : State) (x : PfxState),
       Performs s f r.val 5 p e h → (pfxArgs e).wing = wingOf (ringOf s f r.val).home →
       let c : Ctx := { part := cmdPart e, tile := (ringOf s f r.val).home, copy := cfgAt p (ringOf s f r.val).home }
       let a := pfxArgs e
       let q := addCtr p (blkPw c.tile) 0x0228
       (¬ (a.verify = true ∧ a.tokens % 64 ≠ 0) →
         lookupFrom c a (pfxHeader q c.tile c.part) (entryTag e) a.count 0 q { node := a.start } = (u, x, none) →
         saveVa u c a.result (pfxRecord u c x 0) = (v, none) →
           exec (.prefixLookup f r) s = .next (answerCommand v ⟨f, r.val, h, true⟩ e 0 (wingOf c.tile) .porter)
           ∧ x.matched ≤ a.count ∧ (x.matched = 0 → x.node = a.start)
           ∧ (pfxRecord u c x 0).length = 32
           ∧ bits (leNat (pfxRecord u c x 0)) 255 208 = x.node % 2 ^ 48 ∧ bits (leNat (pfxRecord u c x 0)) 127 96 = x.matched)
       ∧ (a.verify = true → a.tokens % 64 ≠ 0 → saveVa q c a.result (pfxRecord q c { node := a.start } 0x0602) = (v, none) →
           exec (.prefixLookup f r) s = .next (answerCommand v ⟨f, r.val, h, true⟩ e 0x0602 (wingOf c.tile) .porter 0)))
  ∧ (∀ (s : State) (f : Func) (r : Fin 64) (p : State) (e : Entry) (h : Nat),
       let w := wingOfNum (bits e.toNat 495 495)
       let k : CarSetKey := ⟨Fin.ofNat 16 (cmdPart e), BitVec.ofNat 16 (bits e.toNat 511 496)⟩
       let va := partVal p 0x8042 (cmdPart e) + 128 * k.num.toNat + 64 * wingNum w
       (∀ u d, Performs s f r.val 6 p e h → loadNum p (ringCtx p w (cmdPart e)) va 64 = (u, .ok d) →
         (carDescOk u d = true → carStartOk u w k d = true → exec (.carSetStart f r) s = .next (answerCommand
             { u with carSets := u.carSets.modify w fun l => l ++ [{ key := k, desc := d }] } ⟨f, r.val, h, true⟩ e 0 w))
         ∧ ((carDescOk u d = false ∨ carStartOk u w k d = false) →
             exec (.carSetStart f r) s = .next (answerCommand u ⟨f, r.val, h, true⟩ e 0x0305 w .ring va k.num.toNat)))
       ∧ (Performs s f r.val 7 p e h → ∃ t, exec (.carSetStop f r) s = .next (answerCommand t ⟨f, r.val, h, true⟩ e 0 w)
           ∧ (∀ x ∈ t.carSets.get w, x.key ≠ k)
           ∧ (∀ x ∈ s.carSets.get w, x.key ≠ k → ∃ y ∈ t.carSets.get w, y.key = x.key ∧ y.phase = x.phase)
           ∧ t.carSets.get (otherWing w) = s.carSets.get (otherWing w)
           ∧ OnlyChanges [.rings, .tasks, .tt, .carSets, .ports, .cc, .lnkCtrs, .hifCtrs, .logs, .pages, .hostOut, .flitOut, .heldAt] s t))

/-- R482, R483, R486: a function-level reset of a VF that answers, and a partition reset command, begin the reset of the
partition unless one is in progress. Where the partition has no task, RESETTING is 1, its rings are disabled and nothing of it
is kept; the tasks of others, and memory outside the on-chip range, are as they were. R483, R482: the end of a partition's
reset: its KV pages read 0, every other byte is as it was, RESETTING is 0, and with the last partition's reset a PF0 reset has
ended; each partition reset command that waited for it is answered. A partition that is not in reset is left as it is. R482,
R488: a PF0 reset by a function-level reset or a hot reset, unless one is in progress: where no task is left, every ring of
every function and every function's page are as after reset, VF Enable is 0, the mailbox is as after reset and its request is
dropped, the event queue is disabled, and every partition is in reset. Link down and PERST_N do the same in SHUNT and after.
R482: clearing VF Enable while it is set resets every partition; where no task is left, every VF's rings and page are as after
reset, and PF0's rings keep their settings. -/
def Obligations.FunctionsReset : Prop :=
  ((∀ (s : State) (q : Fin 16), hostReaches s (.vf q) = true →
     (resettingPart s q.val = true → exec (.functionLevelReset q) s = .next s)
     ∧ (resettingPart s q.val = false → exec (.functionLevelReset q) s = .next (beginReset s q)))
   ∧ (∀ (s : State) (f : Func) (r : Fin 64) (p : State) (e : Entry) (h : Nat), Performs s f r.val 8 p e h →
     let c : Cmd := { func := f, ring := r.val, entry := e, sqHead := h, answer := true, wait := .partitionReset (cmdPart e % 16) }
     let a := { p with cmds := p.cmds ++ [c] }
     (resettingPart s (cmdPart e) = true → exec (.partitionResetCmd f r) s = .next a)
     ∧ ((beginReset a (Fin.ofNat 16 (cmdPart e))).heldAt = none →
         exec (.partitionResetCmd f r) s = .next (beginReset a (Fin.ofNat 16 (cmdPart e)))))
   ∧ ∀ (s : State) (q : Fin 16), partTasks s q.val = [] → resettingPart s q.val = false → memCanonical s.mem = true →
     ResetBegun q (beginReset s q)
     ∧ (∀ x ∈ s.cmds, isResetCmd x = true → x ∈ (beginReset s q).cmds)
     ∧ (beginReset s q).heldAt = s.heldAt
     ∧ (∀ a, 2 ^ 32 ≤ a → memByte (beginReset s q).mem a = memByte s.mem a)
     ∧ OnlyChanges [.mem, .frameBytes, .poison, .sch, .tmem, .porter, .insts, .tasks, .cmds, .sidings, .tt, .carSets, .jn, .ports, .cc, .lnkCtrs,
         .hifCtrs, .logs, .pages, .rings, .resets, .hostOut, .flitOut] s (beginReset s q))
  ∧ (∀ (s : State) (q : Fin 16), memCanonical s.mem = true →
       (resettingPart s q.val = false → exec (.partitionResetDone q) s = .next s)
       ∧ (resettingPart s q.val = true → ∃ t, exec (.partitionResetDone q) s = .next t
           ∧ resettingPart t q.val = false
           ∧ (∀ p < 16, p ≠ q.val → resettingPart t p = resettingPart s p)
           ∧ t.hif.pf0Resetting = (s.hif.pf0Resetting && (List.range 16).any (resettingPart t))
           ∧ (Table.canonical [] s.hif.zeroing = true → Table.get [] t.hif.zeroing q.val = [])
           ∧ (∀ a, memByte t.mem a =
               if (Table.get [] s.hif.zeroing q.val).any (fun x => decide (x.1 ≤ a ∧ a < x.1 + x.2)) then 0 else memByte s.mem a)
           ∧ (∀ c, c ∈ t.cmds ↔ c ∈ s.cmds ∧ c.wait ≠ .partitionReset q.val)
           ∧ ((∀ c ∈ s.cmds, c.wait ≠ .partitionReset q.val) →
               OnlyChanges [.mem, .frameBytes, .poison, .hifCtrs, .logs, .pages, .resets, .hostOut] s t)
           ∧ OnlyChanges [.mem, .frameBytes, .poison, .cmds, .hifCtrs, .logs, .pages, .rings, .resets, .hostOut] s t))
  ∧ (∀ (s : State), s.tasks = [] → memCanonical s.mem = true →
       (s.hif.pf0Resetting = true → ∀ how ∈ [Pf0Trigger.flr, .hotReset], exec (.pf0Reset how) s = .next s)
       ∧ (∀ how t, hostReaches s .pf0 = true → s.hif.pf0Resetting = false → exec (.pf0Reset how) s = .next t →
           (∀ f r, hasRing f r = true → ringOf t f r = {}) ∧ t.hif.pages = [] ∧ t.hif.vfEnable = false ∧ t.hif.mbx = {}
           ∧ t.hif.logs.evqEnable = false ∧ t.hif.pf0Resetting = true ∧ t.hif.resetting = 0xFFFF
           ∧ (∀ q ∈ t.cst.queue, q.isMailbox = false) ∧ t.cst.mbxXfer = none
           ∧ t.hif.linkUp = (how == .flr || how == .hotReset)
           ∧ t.cst.state = s.cst.state ∧ t.cst.dict = s.cst.dict
           ∧ t.power = (if how = .perst then { s.power with perstN := false, portReset := true } else s.power)
           ∧ (∀ a, 2 ^ 32 ≤ a → memByte t.mem a = memByte s.mem a))
       ∧ (∀ how ∈ [Pf0Trigger.flr, .hotReset, .linkDown, .perst], hostReaches s .pf0 = true → s.hif.pf0Resetting = false →
           ∃ t, exec (.pf0Reset how) s = .next t ∧ ∀ q : Fin 16, resettingPart s q.val = false → ResetBegun q t))
  ∧ (∀ (s : State), s.tasks = [] → hostReaches s .pf0 = true →
       (s.hif.vfEnable = false → exec .vfEnableClear s = .next s)
       ∧ (s.hif.vfEnable = true → ∃ t, exec .vfEnableClear s = .next t
           ∧ t.hif.vfEnable = false ∧ t.hif.resetting = 0xFFFF
           ∧ (∀ (q : Fin 16) (r : Nat), ringOf t (.vf q) r = {} ∧ pageOf t (.vf q) = {})
           ∧ (∀ q : Fin 16, resettingPart s q.val = false → ResetBegun q t)
           ∧ (∀ r, (ringOf t .pf0 r).enabled = (ringOf s .pf0 r).enabled ∧ (ringOf t .pf0 r).sqHead = (ringOf s .pf0 r).sqHead
               ∧ (ringOf t .pf0 r).sqTail = (ringOf s .pf0 r).sqTail ∧ (ringOf t .pf0 r).fetched = (ringOf s .pf0 r).fetched)
           ∧ (pageOf t .pf0).busMaster = (pageOf s .pf0).busMaster
           ∧ t.hif.mbx = s.hif.mbx ∧ t.hif.orphans = s.hif.orphans ∧ t.cst = s.cst ∧ t.power = s.power))

/-! ### Tasks and moves -/

/-- R136, R139, R145: the front entry of a ring that may begin and passes every check of its kind is issued: the task joins the
tasks that have not ended, waiting for its cores, SCH_ISSUED of its home tile adds 1, and the ring's entry is gone. The check
reads the task's bodies through the window buffers, whose frames it may fill (R111, R119); every other byte of memory, and
whatever is not a counter, a translation cache, a frame, the clock of a stack or the ring, is as it was. -/
def Obligations.TaskIssued : Prop :=
  ∀ (s : State) (f : Func) (r : Fin 64) (row : Instr × Nat × Nat × KindCheck) (p : State) (x : Task),
    row ∈ [(Instr.loopTask f r, 1, 0, checkLoop), (.chainTaskForward f r, 2, 0, checkChain),
      (.chainTaskBackward f r, 2, 1, checkChain), (.streamStage f r, 3, 0, checkStage),
      (.collectiveBroadcast f r, 4, 0, checkColl), (.collectiveReduce f r, 4, 1, checkColl),
      (.catalogueQuery f r, 5, 0, checkCat), (.catalogueMerge f r, 5, 1, checkCat)] →
    memCanonical s.mem = true → Issues s f r.val row.2.1 row.2.2.1 row.2.2.2 p x → x.zeroWork = false →
      ∃ t, exec row.1 s = .next t
        ∧ t.tasks = s.tasks ++ [x] ∧ x.id = s.nextTask ∧ t.nextTask = s.nextTask + 1
        ∧ ringOf t f r.val = { ringOf s f r.val with fetched := (ringOf s f r.val).fetched.drop 1 }
        ∧ (∀ g q, ringKey g q ≠ ringKey f r.val → ringOf t g q = ringOf s g q)
        ∧ (ctr t (blkSch x.home) 0x0128).toNat = min (2 ^ 64 - 1) ((ctr s (blkSch x.home) 0x0128).toNat + 1)
        ∧ OnlyChanges [.poison, .sch, .tmem, .porter, .tasks, .nextTask, .hifCtrs, .logs, .pages, .rings, .power, .hostOut, .heldAt,
            .frameBytes] s t

/-- R137: a task that passes every check and has nothing to do ends at issue without a fault, and reports ZERO_WORK. R136, R481:
a task entry on a PF0 ring ends at issue with cause 0x0155, and a task that fails one of the checks of steps 1 to 4 with that
check's cause. -/
def Obligations.TaskEndsAtIssue : Prop :=
  (∀ (s : State) (f : Func) (r : Fin 64) (row : Instr × Nat × Nat × KindCheck) (p : State) (x : Task),
     row ∈ [(Instr.loopTask f r, 1, 0, checkLoop), (.chainTaskForward f r, 2, 0, checkChain),
       (.chainTaskBackward f r, 2, 1, checkChain), (.streamStage f r, 3, 0, checkStage)] →
     Issues s f r.val row.2.1 row.2.2.1 row.2.2.2 p x → x.zeroWork = true →
     (finishTask (addCtr p (blkSch x.home) 0x0128) x 0).heldAt = none →
       exec row.1 s = .next (finishTask (addCtr p (blkSch x.home) 0x0128) x 0)
         ∧ (recordImage p x 0).length = 32 ∧ bit (leNat (recordImage p x 0)) 29 = true
         ∧ bit (leNat (recordImage p x 0)) 30 = true)
  ∧ (∀ (s : State) (f : Func) (r : Fin 64) (row : Instr × Nat × Nat) (e : Entry) (h : Nat),
       row ∈ [(Instr.loopTask f r, 1, 0), (.chainTaskForward f r, 2, 0), (.chainTaskBackward f r, 2, 1), (.streamStage f r, 3, 0),
         (.collectiveBroadcast f r, 4, 0), (.collectiveReduce f r, 4, 1), (.catalogueQuery f r, 5, 0), (.catalogueMerge f r, 5, 1)] →
       readyEntry s f r.val = some (e, h) → entryKind e = row.2.1 → hSub e = row.2.2 →
       let a : State := { takeEntry { s with heldAt := none } f r.val with nextTask := s.nextTask + 1 }
       let x := newTask { s with heldAt := none } f r.val e h
       ∀ c, (f = .pf0 ∧ c = 0x0155) ∨ (f ≠ .pf0 ∧ headerOk e x.home = false ∧ c = 0x0151)
           ∨ (f ≠ .pf0 ∧ headerOk e x.home = true ∧ coresGranted a x = false ∧ c = 0x0132)
           ∨ (f ≠ .pf0 ∧ headerOk e x.home = true ∧ coresGranted a x = true ∧ rectEnabled a x = false ∧ c = 0x0131)
           ∨ (f ≠ .pf0 ∧ headerOk e x.home = true ∧ coresGranted a x = true ∧ rectEnabled a x = true
               ∧ allocationGranted a x = false ∧ c = 0x0133) →
         (failIssue a x { cause := c, addr := 0 }).heldAt = none →
         exec row.1 s = .next (failIssue a x { cause := c, addr := 0 }))

/-- R133: a copy that passes its check is performed when it is issued, a being the state with the move issued: it reads COUNT
bytes at SRC and writes them at DST, where a byte of DST that overlaps the source becomes undefined (a free byte, assumption log
3). The move is then done; a read or a write that meets a fault stops it with that fault. R117, R119: a compress and a
decompress that pass their checks are performed when they are issued, a being the state with the move issued: a compress reads
the page and writes its image at DST, or leaves DST unwritten where the page does not fit (the image is the device's own,
assumption log 4; the sector count it completes with is kept per tile, assumption log 10); a decompress writes the page. The
move is then done; a write that meets a fault stops it with that fault. -/
def Obligations.CopyingMovesPerform : Prop :=
  (∀ (s : State) (f : Func) (r : Fin 64) (p : State) (x : Task),
     TasksNumbered s → x.zeroWork = false → Issues s f r.val 6 0 checkRange p x →
     let a := acceptTask p x
     let c := taskCtx a x
     (∀ b bs, loadVa a c (mSrc x.hdr) (mCount x.hdr) = (b, .ok bs) →
         let w := copyBytes b (mSrc x.hdr) (mDst x.hdr) bs
         let u := saveVa w.2 c (mDst x.hdr) w.1
         w.1.length = bs.length
         ∧ (∀ i, i < bs.length → (mDst x.hdr + i < mSrc x.hdr ∨ mSrc x.hdr + bs.length ≤ mDst x.hdr + i) → w.1[i]? = bs[i]?)
         ∧ (u.2 = none → exec (.moveCopy f r) s = .next (moveDone u.1 x.id))
         ∧ (∀ e, u.2 = some e → (faultTask u.1 x.id x.part e .stationmaster).heldAt = none →
             exec (.moveCopy f r) s = .next (faultTask u.1 x.id x.part e .stationmaster)))
     ∧ (∀ b e, loadVa a c (mSrc x.hdr) (mCount x.hdr) = (b, .error e) →
         (faultTask b x.id x.part e .stationmaster).heldAt = none →
         exec (.moveCopy f r) s = .next (faultTask b x.id x.part e .stationmaster)))
  ∧ (∀ (s : State) (f : Func) (r : Fin 64) (p : State) (x : Task),
       TasksNumbered s → x.zeroWork = false →
       let a := acceptTask p x
       let c := taskCtx a x
       (∀ b page, Issues s f r.val 6 3 checkCompress p x → loadVa a c (mSrc x.hdr / 0x10000 * 0x10000) 0x10000 = (b, .ok page) →
           let img := Config.compressedImage page
           let w := saveVa b c (mDst x.hdr) img
           let u := if isImageOf img page then
               match w.2 with
               | none => moveDone (w.1.modMem x.home fun m => { m with sectors := imageSectors img }) x.id
               | some e => faultTask w.1 x.id x.part e .stationmaster
             else moveDone (b.modMem x.home fun m => { m with sectors := 0 }) x.id
           exec (.moveCompress f r) s = .next (orWait s fun _ => u))
       ∧ (∀ b page, Issues s f r.val 6 4 checkPlain p x → decompressSource a c (mSrc x.hdr) = (b, .ok page) →
           let w := saveVa b c (mDst x.hdr) page
           (w.2 = none → exec (.moveDecompress f r) s = .next (moveDone w.1 x.id))
           ∧ (∀ e, w.2 = some e → (faultTask w.1 x.id x.part e .stationmaster).heldAt = none →
               exec (.moveDecompress f r) s = .next (faultTask w.1 x.id x.part e .stationmaster))))

/-- R111, R112, R133: a migrate-in over a range inside one page brings a windowed page that no frame holds into a demand frame
of its home tile, or waits while every frame is pinned; and a flush writes back the dirty sectors of the page's demand frame. A
page in no frame, or of another tier, is left as it is. R114, R116: a stage load takes stream frames for the pages it must bring
in, or waits while some tile's share has no room for them; from host memory it needs the Concourse where its tile is a West one
(R17); a release frees the segment's frames; a schedule start puts the partition into schedule mode on its tile with the table,
the entries and the depth of its arguments; a schedule stop ends it. -/
def Obligations.PageAndWindowMovesPerform : Prop :=
  (∀ (s : State) (f : Func) (r : Fin 64) (p : State) (x : Task) (y : Xlat),
     TasksNumbered s → x.zeroWork = false → 1 ≤ mCount x.hdr → mSrc x.hdr % 0x10000 + mCount x.hdr ≤ 0x10000 →
     let a := acceptTask p x
     let c := taskCtx a x
     let h := pageHome y (mSrc x.hdr)
     let d := (recGrant (partRec c.copy c.part) h).d
     let held := frameOf a h (frameKey y (mSrc x.hdr))
     translate a c (mSrc x.hdr) false = .ok y →
     (∀ w, Issues s f r.val 6 1 checkRange p x → leafTier y.leaf = 1 → held = none → d ≠ 0 →
         fillDemand a c y (mSrc x.hdr) d = (w, none) → exec (.moveMigrateIn f r) s = .next (moveDone w x.id))
     ∧ (Issues s f r.val 6 1 checkRange p x → leafTier y.leaf = 1 → held = none → d ≠ 0 →
         takeDemand a h c.part d = none → exec (.moveMigrateIn f r) s = .next { s with heldAt := none })
     ∧ (Issues s f r.val 6 1 checkRange p x → (leafTier y.leaf ≠ 1 ∨ held ≠ none ∨ d = 0) →
         exec (.moveMigrateIn f r) s = .next (moveDone a x.id))
     ∧ (∀ n fr, Issues s f r.val 6 2 checkRange p x → held = some (n, fr) → fr.kind = .demand → fr.stuck = none →
         exec (.moveFlush f r) s = .next (moveDone (writeBack a h n fr) x.id))
     ∧ (Issues s f r.val 6 2 checkRange p x → held = none → exec (.moveFlush f r) s = .next (moveDone a x.id)))
  ∧ (∀ (s : State) (f : Func) (r : Fin 64) (p : State) (x : Task),
       TasksNumbered s → x.zeroWork = false →
       let a := acceptTask p x
       let l := stageLoadFor a x
       (∀ ps, Issues s f r.val 6 5 checkStageLoad p x → mHostSrc x.hdr = false →
           segmentPages a (taskCtx a x) (mSrc x.hdr) (mPages x.hdr) = .ok ps →
           (streamRoom a x.part (ps.map (·.tile)) = true → (loadPages a l ps).heldAt = none →
             exec (.moveStageLoad f r) s = .next (moveDone (loadPages a l ps) x.id))
           ∧ (streamRoom a x.part (ps.map (·.tile)) = false →
             exec (.moveStageLoad f r) s = .next (a.modTask x.id fun t => { t with work := .move false true })))
       ∧ (Issues s f r.val 6 5 checkStageLoad p x → mHostSrc x.hdr = true → (x.wing = .east ∨ concourseUp a = true) →
           let room := streamRoom a x.part (List.replicate (mPages x.hdr) x.home)
           (room = true → exec (.moveStageLoad f r) s = .next (moveDone
               (loadHostPages a l x.home ((pageOf a x.func).hostBase.toNat + mSrc x.hdr) (mPages x.hdr)) x.id))
           ∧ (room = false →
             exec (.moveStageLoad f r) s = .next (a.modTask x.id fun t => { t with work := .move false true })))
       ∧ (Issues s f r.val 6 6 checkPlain p x →
           exec (.moveRelease f r) s = .next (moveDone (release a x.part (mLayer x.hdr) (mSeg x.hdr)) x.id))
       ∧ (Issues s f r.val 6 7 checkScheduleStart p x →
           let z : Schedule := { table := mSrc x.hdr, count := ent x.hdr 431 416, depth := ent x.hdr 438 432 }
           exec (.moveScheduleStart f r) s =
             .next (moveDone (a.modMem x.home fun m => { m with sched := Table.insert m.sched x.part z }) x.id))
       ∧ (Issues s f r.val 6 8 checkPlain p x →
           exec (.moveScheduleStop f r) s = .next (moveDone (endSched a x.home x.part) x.id)))

/-- A move that has been issued is one task more, running on its home tile and numbered anew, and its ring's entry is gone; a
move that is done bears its mark and nothing else has changed (R133, R141). -/
def Obligations.MoveIssuedAndDone : Prop :=
  ∀ (s : State) (f : Func) (r : Fin 64) (sub : Nat) (k : KindCheck) (p : State) (x : Task), TasksNumbered s →
    k ∈ [checkRange, checkCompress, checkPlain, checkStageLoad, checkScheduleStart] →
    Issues s f r.val 6 sub k p x → x.zeroWork = false →
      (acceptTask p x).tasks = s.tasks ++ [x] ∧ x.id = s.nextTask ∧ x.status = .running ∧ x.tiles = [x.home]
      ∧ x.work = .move false false
      ∧ ringOf (acceptTask p x) f r.val = { ringOf s f r.val with fetched := (ringOf s f r.val).fetched.drop 1 }
      ∧ OnlyChanges [.sch, .tmem, .tasks, .nextTask, .rings, .hifCtrs, .logs, .pages, .hostOut, .heldAt] s (acceptTask p x)
      ∧ (∀ w : State, OnlyChanges [.tasks] w (moveDone w x.id)
          ∧ ∀ y ∈ w.tasks, (if y.id = x.id then { y with work := .move true false } else y) ∈ (moveDone w x.id).tasks)

/-- R141, R134, R155, R184: a waiting task for which some tiles of its PLACE have cores, staging frames and contexts free, and
which no higher-ranked waiting task of its Stationmaster holds back, is granted its cores and its staging frames and is
dispatched: it runs from now on, its cores in their first phase, its clusters are woken and its units start, a loop task's with
the fill of step 0 of every core (R179). -/
def Obligations.TaskDispatched : Prop :=
  ∀ (s : State) (id : Nat) (t : Tile) (x : Task) (tiles : List Tile),
    let a : State := { s with heldAt := none }
    taskOf s id = some x → x.status = .waiting → dispatchTiles a x t = some tiles → mainUp s = true →
    roomOn a x tiles = true → outranked a x tiles = false →
    let y := { x with
      tiles := tiles, cores := coresOn x.hdr tiles, dispatchTick := tickOf s x.wing, status := .running
      phases := (List.range (coresOn x.hdr tiles).length).map fun q => (q, firstPhase x) }
    let g := tiles.foldl (fun s z => reserveStaging s z x.part x.id x.staging) (a.modTask id fun _ => y)
    let b := wakeCores g y.cores
    ((startWork b y).heldAt = none → exec (.taskDispatch id t) s = .next (startWork b y))
    ∧ taskOf b id = some y ∧ (∀ i, i ≠ id → taskOf b i = taskOf s i) ∧ OnlyChanges [.tasks, .tmem, .power, .heldAt] s b
    ∧ (∀ l m z, x.work = .loop l →
        let d := parseLoop x.body
        let w := startWalks d (d.bucket l.bucket) y.cores.length
        foldErr (fillRank y) b { l with walks := w } (w.flatMap fun q => (ownFills d).map fun o => (q.1, o)) = (z, .ok m) →
        exec (.taskDispatch id t) s = .next (putLoop z id m))

/-- R141, R143, R144: a running task whose cores and units have all reported done ends with cause 0. Where it keeps no record
and pins nothing, and wrote no bytes that another element also wrote, its completion entry is written, it stands no more among
the tasks, and memory is as it was. R142, R414: the first fault of a dispatched task enters the cause log and stops the task
with its cause; a later one enters the log alone. A collective whose task it is fails at this wing and reports it first. R142,
R138, R209: a stopped task whose units have drained ends uncommitted with its cause: its destination ranges hold undefined
bytes, a collective's context closes, a stage breaks its stream unless the break stopped it, and SCH_UNCOMMITTED adds 1. -/
def Obligations.TaskEndsAndFaults : Prop :=
  (∀ (s : State) (id : Nat) (x : Task),
     let a : State := { s with heldAt := none }
     let b := settleAliases a x (bodiesOf a x)
     taskOf s id = some x → x.status = .running → workDone x = true →
     ((finishTask b x 0).heldAt = none → exec (.taskEnd id) s = .next (finishTask b x 0))
     ∧ (bodyDests (bodiesOf a x) = [] → hRecord x.hdr = 0 → x.pins = [] → ∃ u, exec (.taskEnd id) s = .next u
         ∧ taskOf u id = none ∧ (∀ i, i ≠ id → taskOf u i = taskOf s i)
         ∧ OnlyChanges [.tasks, .sch, .tmem, .hifCtrs, .logs, .rings, .pages, .hostOut, .heldAt] s u
         ∧ (x.answer = true → u.hif = (answerEntry s x.func x.ring
             { tag := entryTag x.hdr, sqHead := x.sqHead, ring := x.ring, zeroWork := x.zeroWork, committed := true }).hif)))
  ∧ (∀ (s : State) (id : Nat) (cause : BitVec 16) (addr : BitVec 48) (core : BitVec 16) (x : Task),
       taskOf s id = some x → x.tiles ≠ [] → cause ≠ 0 →
       let a := closeTaskColl s x cause.toNat
       let l := logCause a { wing := x.wing, unit := .core, cause := cause.toNat, addr := addr.toNat, tag := entryTag x.hdr,
                             ring := x.ring, part := x.part, detail := core.toNat }
       ((∀ d, x.work ≠ .coll d) → a = s)
       ∧ ((∀ c, x.status ≠ .stopping c) →
           exec (.taskFault id cause addr core) s = .next (l.modTask id fun t => { t with status := .stopping cause }))
       ∧ (∀ c, x.status = .stopping c → exec (.taskFault id cause addr core) s = .next l))
  ∧ (∀ (s : State) (id : Nat) (x : Task) (c : BitVec 16),
       let a : State := { s with heldAt := none }
       taskOf s id = some x → x.status = .stopping c →
       let b := if x.tiles ≠ [] then scribbleRanges a (taskCtx a x) (taskDests a x) else a
       let d := closeTaskColl b x c.toNat
       let e := if x.isStage = true ∧ x.tiles ≠ [] ∧ c.toNat ≠ 0x0504 then breakStream d x else d
       (finishTask (addCtr e (blkSch x.home) 0x0138) x c.toNat).heldAt = none →
         exec (.taskStopDrained id) s = .next (finishTask (addCtr e (blkSch x.home) 0x0138) x c.toNat))

/-! ### Memory -/

/-- R102 to R107, R118, R151: a page found by a walk of a partition's tables lies wholly inside one of the partition's extents,
and a write passes only through a leaf with W whose page is not compressed. A compressed leaf names an image, aligned to 4 KiB,
and the image that is read lies wholly inside one extent. -/
def Obligations.TranslationStaysInside : Prop :=
  ∀ (s : State) (c : Ctx) (va : Nat) (write : Bool) (x : Xlat),
    tlbHit s c (va % 2 ^ 48) = none → translate s c va write = .ok x →
      let n := if leafTier x.leaf = 3 then 4096 else x.size
      (∃ e ∈ recExtents (partRec c.copy c.part), e.base ≤ pteAddr x.leaf ∧ pteAddr x.leaf + n ≤ e.base + e.size)
      ∧ pteAddr x.leaf ≤ x.pa ∧ x.pa < pteAddr x.leaf + x.size ∧ pteAddr x.leaf % n = 0
      ∧ (x.size = 2 ^ 30 ∨ x.size = 2 ^ 21 ∨ x.size = 2 ^ 16)
      ∧ (write = true → leafW x.leaf = true ∧ leafTier x.leaf ≠ 3)
      ∧ (∀ img, readImage s c va (x.image va) = .ok img →
          ∃ e ∈ recExtents (partRec c.copy c.part), e.base ≤ x.image va ∧ x.image va + img.length ≤ e.base + e.size)

/-- R95, R112, R548: a physical store over trained memory writes its bytes and no other, and clears the poison of the bursts it
writes in full, where no demand frame keeps the page from stacked memory; reading them back gives what was written. A store to
an unassigned range writes nothing. R470: CXL.mem and PF0's BAR4 read and write stacked memory as it stands, where no reserve,
no registered page, no poison and no untrained pseudo-channel is met; a write stores its bytes and changes no other. R455: with
the Concourse down, West memory answers poisoned data and its writes are lost, and counted. R468: an access through a VF's
partition window, within one 64-byte line, reads or writes the partition's memory at WIN_VA plus the offset, through the window
buffers as any access of the partition does (R111); an address that does not translate answers poisoned data or discards the
write, and sets WIN_FAULT. R455: West memory behind the Concourse while it is down answers poisoned data, and a write for it is
discarded and counted; neither sets WIN_FAULT. -/
def Obligations.StoresAndHostAccess : Prop :=
  (∀ (s : State) (a : Nat) (bs : List Byte), memCanonical s.mem = true → (∀ t, (s.tmem.get t).dead = []) →
     ((isStacked a = true ∨ isOnChip a = true) →
       (∀ x, memByte (storePa s a bs).mem x = if a ≤ x ∧ x < a + bs.length then nth 0 bs (x - a) else memByte s.mem x)
       ∧ memBytes (storePa s a bs).mem a bs.length = bs
       ∧ (∀ b, b ∈ (storePa s a bs).poison ↔
           b ∈ s.poison ∧ (demandHolds s a = true ∨ ¬ (a ≤ 64 * b ∧ 64 * b + 64 ≤ a + bs.length)))
       ∧ OnlyChanges [.mem, .frameBytes, .poison, .tmem, .power] s (storePa s a bs))
     ∧ (isStacked a = false → isOnChip a = false → storePa s a bs = s))
  ∧ (∀ (s : State) (dpa : BitVec 41) (len : Fin 65) (d : List Byte),
       let pa := 0x010000000000 + dpa.toNat
       hostReaches s .pf0 = true → isStacked (pa + 64) = true → dictVal s 0x3030 0 ≠ 1 → d.length ≤ 64 →
       (∀ w, (s.jn.get w).ctxs = []) → s.poison = [] → (∀ t, (s.tmem.get t).dead = []) → memCanonical s.mem = true →
       (concourseUp s = true →
         (∃ u, exec (.hostCxlMemAccess dpa len none) s = .next u ∧ u.readData = memBytes s.mem pa len.val ∧ u.readPoison = false
           ∧ u.portData = s.portData ∧ OnlyChanges [.tmem, .readOut, .power, .heldAt] s u)
         ∧ (∃ u, exec (.hostCxlMemAccess dpa len (some d)) s = .next u
           ∧ (∀ x, memByte u.mem x = if pa ≤ x ∧ x < pa + d.length then nth 0 d (x - pa) else memByte s.mem x)
           ∧ OnlyChanges [.mem, .frameBytes, .poison, .tmem, .power, .heldAt] s u))
       ∧ (concourseUp s = false → 0x020000000000 ≤ pa →
         (∃ u, exec (.hostCxlMemAccess dpa len none) s = .next u ∧ (1 ≤ len.val → u.readPoison = true)
           ∧ OnlyChanges [.readOut, .heldAt] s u)
         ∧ (∃ u, exec (.hostCxlMemAccess dpa len (some d)) s = .next u
           ∧ (1 ≤ d.length → (ctr u (blkLnk .east) 0x0928).toNat > (ctr s (blkLnk .east) 0x0928).toNat
               ∨ (ctr s (blkLnk .east) 0x0928).toNat = 2 ^ 64 - 1)
           ∧ OnlyChanges [.lnkCtrs, .hifCtrs, .logs, .pages, .hostOut, .heldAt] s u)))
  ∧ (∀ (s : State) (part : Fin 16) (offset : BitVec 36) (len : Fin 65) (d : List Byte),
       let va := ((pageOf s (.vf part)).winVa.toNat + offset.toNat) % 2 ^ 48
       let c : Ctx := { part := part.val, tile := .e0, copy := cfgEio s }
       let a : State := { s with heldAt := none }
       hostReaches s (.vf part) = true → 1 ≤ len.val → va % 64 + len.val ≤ 64 → 1 ≤ d.length → va % 64 + d.length ≤ 64 →
       (∀ x b bs, translate a c va false = .ok x → registered s false x.pa len.val = none →
         meetPage (wakeStacks a x.pa len.val) c x va = (b, none) → readPiece b c va len.val = .ok bs →
         exec (.partitionWindowAccess part offset len none) s = .next { b with readData := bs, readPoison := false })
       ∧ (∀ e, translate a c va false = .error e → e.wait = none → e.phys = false → e.cause ≠ 0x0206 →
         ∃ u, exec (.partitionWindowAccess part offset len none) s = .next u ∧ u.readPoison = true
           ∧ (e.cause ≠ 0x0306 → (pageOf u (.vf part)).winFault = true ∧ OnlyChanges [.pages, .readOut, .heldAt] s u)
           ∧ (e.cause = 0x0306 → OnlyChanges [.readOut, .heldAt] s u))
       ∧ (∀ x b, translate a c va true = .ok x → registered s true x.pa d.length = none → meetPage a c x va = (b, none) →
         exec (.partitionWindowAccess part offset len (some d)) s = .next (storePa b x.pa d))
       ∧ (∀ e, translate a c va true = .error e → e.wait = none → e.phys = false → e.cause ≠ 0x0206 →
         (e.cause ≠ 0x0306 → ∃ u, exec (.partitionWindowAccess part offset len (some d)) s = .next u
           ∧ (pageOf u (.vf part)).winFault = true ∧ OnlyChanges [.pages, .heldAt] s u)
         ∧ (e.cause = 0x0306 →
           exec (.partitionWindowAccess part offset len (some d)) s = .next (addCtr a (blkLnk .east) 0x0928))))

/-- R110, R111, R119: a windowed or compressed access that misses joins the fill under way and pins it, or takes a demand frame
and starts its fill; a windowed access with D = 0 is counted and served directly; while every frame is pinned the access waits.
R111, R119, R124: a fill whose 64 KiB have arrived makes its frame valid and lets its accesses go on; one whose read is
uncorrectable frees its frame and ends the tasks that waited. A page that decompresses enters its frame, which becomes valid; a
corrupt image frees the frame, is counted in MEM_IMG_FAULTS and ends every task that waited for it with cause 0x0206. R114,
R116, R205: a stage load that waited goes on when stream frames have come free for all its pages, and waits on otherwise; a LOAD
stage's does too. In schedule mode the next entry is loaded while fewer segments than the depth are resident and there is room;
an entry that is not well formed ends schedule mode with cause 0x0207. -/
def Obligations.WindowsFill : Prop :=
  (∀ (s : State) (part : Fin 16) (va : BitVec 48) (write : Bool) (id : Nat) (x : Xlat),
     translate s (makerCtx s id part.val) va.toNat write = .ok x → (leafTier x.leaf = 1 ∨ leafTier x.leaf = 3) →
     let t := pageHome x va.toNat
     let held := frameOf s t (frameKey x va.toNat)
     let d := (grantAt s t part.val).d
     (∀ n fr, held = some (n, fr) → fr.filling = true →
       exec (.windowedAccessMiss part va write id) s = .next (modFrame s t n fun y =>
         { y with waiters := insertSorted y.waiters id, dirty := y.dirty ||| sectorMask write va.toNat, pins := y.pins + 1 }))
     ∧ (∀ n fr, held = some (n, fr) → fr.filling = false →
       exec (.windowedAccessMiss part va write id) s = .next (modFrame s t n fun y => { y with used := nextUse s t }))
     ∧ (held = none → d = 0 → exec (.windowedAccessMiss part va write id) s
         = .next (if leafTier x.leaf = 1 then addCtr s (blkMem t) 0x0130 else s))
     ∧ (∀ n u, held = none → d ≠ 0 → takeDemand s t part.val d = some (n, u) →
       ∃ v, exec (.windowedAccessMiss part va write id) s = .next v
         ∧ Table.find (v.tmem.get t).frames n = some
           { owner := part.val, kind := .demand, page := frameKey x va.toNat, filling := true, dirty := sectorMask write va.toNat
             waiters := [id], pins := 1, used := nextUse u t }
         ∧ (∀ k, k ≠ n → Table.find (v.tmem.get t).frames k = Table.find (s.tmem.get t).frames k)
         ∧ (∀ k, k ≠ t → v.tmem.get k = s.tmem.get k) ∧ OnlyChanges [.tmem, .poison] s v)
     ∧ (held = none → d ≠ 0 → takeDemand s t part.val d = none → exec (.windowedAccessMiss part va write id) s = .next s))
  ∧ ((∀ (s : State) (t : Tile) (n : Fin 1600) (fr : Frame),
       (∀ f ∈ (s.tmem.get t).frames, f.1 = n.val → f.2 = fr) → Table.find (s.tmem.get t).frames n.val = some fr →
       fr.filling = true → fr.page < 2 ^ 32 →
       (firstBadBelow s (0x10000 * fr.page) 0x10000 = none →
         ∃ u, exec (.demandFillComplete t n) s = .next u
           ∧ Table.find (u.tmem.get t).frames n.val = some { fr with filling := false, valid := true, waiters := [], pins := 0 }
           ∧ (∀ k, k ≠ n.val → Table.find (u.tmem.get t).frames k = Table.find (s.tmem.get t).frames k)
           ∧ (∀ k, k ≠ t → u.tmem.get k = s.tmem.get k) ∧ OnlyChanges [.tmem] s u)
       ∧ (∀ b, firstBadBelow s (0x10000 * fr.page) 0x10000 = some b → exec (.demandFillComplete t n) s
           = .next (failWaiters (freeFrame (memFailure s .demandFill fr.owner 0x0201 b) t n.val) fr.waiters 0x0201 0)))
     ∧ ∀ (s : State) (t : Tile) (part : Fin 16) (va : BitVec 48) (x : Xlat) (n : Nat) (fr : Frame),
       let a : State := { s with heldAt := none }
       let c := tileCtx a t part.val
       let h := pageHome x va.toNat
       translate a c va.toNat false = .ok x → leafTier x.leaf = 3 →
       frameOf a h (frameKey x va.toNat) = some (n, fr) → fr.filling = true → memCanonical s.mem = true →
       (∀ page, readCompressed a c va.toNat (x.image va.toNat) = .ok page →
         ∃ u, exec (.decompressComplete t part va) s = .next u
           ∧ u = modFrame (writeFrame a h n page) h n (fun y => { y with filling := false, valid := true, waiters := [], pins := 0 })
           ∧ (page.length = 0x10000 → memBytes u.mem (frameBase h n) 0x10000 = page)
           ∧ OnlyChanges [.poison, .tmem, .heldAt, .frameBytes] s u)
       ∧ (∀ e, readCompressed a c va.toNat (x.image va.toNat) = .error e → e.wait = none → e.cause = 0x0206 → e.phys = false →
         ∃ u, exec (.decompressComplete t part va) s = .next u
           ∧ u = failWaiters (freeFrame (imageFailure a fr.owner e.image) h n) fr.waiters 0x0206 e.addr
           ∧ (∀ id ∈ fr.waiters, ∀ y, taskOf u id = some y → ∃ c, y.status = .stopping c)
           ∧ (∀ id ∉ fr.waiters, taskOf u id = taskOf s id)
           ∧ Table.find (u.tmem.get h).frames n = none))
  ∧ ((∀ (s : State) (id : Nat) (x : Task), taskOf s id = some x → x.status = .running →
       let a : State := { s with heldAt := none }
       (∀ ps, x.work = .move false true → mHostSrc x.hdr = false →
         segmentPages a (taskCtx a x) (mSrc x.hdr) (mPages x.hdr) = .ok ps →
         (streamRoom a x.part (ps.map (·.tile)) = true → (loadPages a (stageLoadFor a x) ps).heldAt = none →
           exec (.stageLoadResume id) s = .next (moveDone (loadPages a (stageLoadFor a x) ps) x.id))
         ∧ (streamRoom a x.part (ps.map (·.tile)) = false →
           exec (.stageLoadResume id) s = .next (a.modTask x.id fun t => { t with work := .move false true })))
       ∧ (x.work = .move false true → mHostSrc x.hdr = true → (runHostLoad a x).heldAt = none →
           exec (.stageLoadResume id) s = .next (runHostLoad a x))
       ∧ (∀ z y, x.work = .stage z → z.waiting = true → z.runs.head? = some y →
           (runLoadIter a x { z with waiting := false } y).heldAt = none →
           exec (.stageLoadResume id) s = .next (runLoadIter a x { z with waiting := false } y)))
     ∧ ∀ (s b : State) (t : Tile) (part : Fin 16) (c : Schedule) (e : Nat),
       let a : State := { s with heldAt := none }
       let v := tileCtx a t part.val
       let l : LoadFor := { src := .scheduledLoad, ctx := v, layer := bits e 127 96, seg := bits e 95 84 }
       let good := 1 ≤ bits e 83 72 ∧ bits e 83 72 ≤ (grantAt s t part.val).s ∧ bits e 71 66 = 0 ∧ bits e 63 48 = 0 ∧ bits e 15 0 = 0
       schedOf s t part.val = some c → c.stopped = false → c.index < c.count → (residentSegs s t part.val).length < c.depth →
       loadNum a v (c.table + 16 * c.index) 16 = (b, .ok e) →
       (¬ good → exec (.scheduleNextLoad t part) s = .next (failSched b t part.val 0x0207))
       ∧ (∀ ps, good → segmentPages b v (bits e 47 16 * 0x10000) (bits e 83 72) = .ok ps →
         (streamRoom b part.val (ps.map (·.tile)) = false → exec (.scheduleNextLoad t part) s = .next b)
         ∧ (streamRoom b part.val (ps.map (·.tile)) = true → (loadPages b l ps).heldAt = none →
             let z := if bit e 64 then { c with stopped := true, lastSeg := some (bits e 127 96, bits e 95 84) }
               else { c with index := if bit e 65 then 0 else c.index + 1 }
             exec (.scheduleNextLoad t part) s = .next ((loadPages b l ps).modMem t fun m =>
               { m with sched := Table.insert m.sched part.val z }))))

/-- R124, R128, R560: a failed access to stacked memory is counted at its home tile, MEM_LATE for a late one and MEM_UE
otherwise, and the first failure since FAULT_CLR is captured with its cause, source, partition and address. An uncorrectable
read also triggers the repair of its row; unless it completes the number of R550, nothing else follows. R123, R124: what a late
access, and an uncorrectable read, mean for their makers: a task's access and a walk for it stop the task with the cause; a fill
frees its frame and stops the tasks that wait for it; a load frees its frame and stops no task; a write-back is tried again; a
host read is answered with poisoned data, and a late host write was performed or dropped (which one is a free choice, assumption
log 38). Data that a late read still brings is discarded and counted. R124, R550, R551: a write-back that failed its retries
keeps its dirty frame outside the partition's counts, and its pseudo-channel is given up: with its tile's reserve granted and
unused the tile begins to move it there, and raises EV_MEM_PC_RETIRE; without, it stays unspared. -/
def Obligations.MemoryFailures : Prop :=
  (∀ (s : State) (src : FailSrc) (p cause pa : Nat),
     let t := homeTile pa
     let pc := pcOf (servedAt s pa)
     let u := memFailure s src p cause pa
     (cause = 0x0202 ∨ (cause = 0x0201 ∧ Table.get 0 (s.tmem.get t).ueCount pc ≠ dictVal s 0x3032 0)) →
       (let off := if cause = 0x0202 then 0x0108 else 0x0100
        (ctr u (blkMem t) off).toNat = min (2 ^ 64 - 1) ((ctr s (blkMem t) off).toNat + 1))
       ∧ (flg (s.tmem.get t).faultInfo 31 = true →
           (u.tmem.get t).faultInfo = (s.tmem.get t).faultInfo ∧ (u.tmem.get t).faultLo = (s.tmem.get t).faultLo
           ∧ (u.tmem.get t).faultHi = (s.tmem.get t).faultHi)
       ∧ (flg (s.tmem.get t).faultInfo 31 = false →
           (u.tmem.get t).faultInfo = pack [(1, 31), (p % 16, 20), (src.code, 16), (cause, 0)]
           ∧ (u.tmem.get t).faultLo = BitVec.ofNat 32 pa ∧ (u.tmem.get t).faultHi = BitVec.ofNat 32 (pa / 2 ^ 32 % 2 ^ 16))
       ∧ (cause = 0x0201 → ∃ r ∈ (u.tmem.get t).repairs, r.pc = pc ∧ r.row = rowOf (servedAt s pa))
       ∧ (cause = 0x0202 → (u.tmem.get t).repairs = (s.tmem.get t).repairs ∧ (u.tmem.get t).ueCount = (s.tmem.get t).ueCount)
       ∧ (∀ k, k ≠ t → u.tmem.get k = s.tmem.get k)
       ∧ OnlyChanges [.tmem, .hifCtrs, .logs, .pages, .hostOut] s u)
  ∧ (∀ (s : State) (pa : BitVec 48) (row : (Maker → Instr) × Nat), isStacked pa.toNat = true →
       row ∈ [(fun m => Instr.stackedAccessLate pa m, 0x0202), (fun m => Instr.uncorrectableRead pa m, 0x0201)] →
       let t := homeTile pa.toNat
       let a := if row.2 = 0x0202 then addCtr s (blkMem t) 0x0110 else s
       (∀ id, exec (row.1 (.task id false)) s = .next (stopTask (memFailure a .task (partOfTask s id) row.2 pa.toNat) id row.2 .core))
       ∧ (∀ id, row.2 = 0x0202 →
           exec (row.1 (.task id true)) s = .next (stopTask (memFailure s .task (partOfTask s id) row.2 pa.toNat) id row.2 .core))
       ∧ (∀ id, exec (row.1 (.mmuWalk id)) s = .next (stopTask (memFailure a .mmuWalk (partOfTask s id) row.2 pa.toNat) id row.2))
       ∧ (∀ n fr, Table.find (s.tmem.get t).frames n.val = some fr → exec (row.1 (.demandFill n)) s =
           .next (if fr.filling = true then failWaiters (freeFrame
               (memFailure a (if fr.page < 2 ^ 32 then .demandFill else .decompression) fr.owner row.2 pa.toNat) t n.val) fr.waiters row.2 0
             else a))
       ∧ (∀ id n, exec (row.1 (.stageLoad id n)) s =
           .next (failLoad (memFailure a .stageLoad (partOfTask s id) row.2 pa.toNat) t (partOfTask s id) n.val))
       ∧ (∀ p n, exec (row.1 (.scheduledLoad p n)) s =
           .next (failLoad (memFailure a .scheduledLoad p.val row.2 pa.toNat) t p.val n.val))
       ∧ (∀ n fr, row.2 = 0x0202 → Table.find (s.tmem.get t).frames n.val = some fr → exec (row.1 (.writeBack n)) s =
           .next (addCtr (memFailure s .writeBack fr.owner row.2 pa.toNat) (blkMem t) 0x0120))
       ∧ exec (row.1 .hostRead) s = .next { memFailure a .host 0 row.2 pa.toNat with readPoison := true }
       ∧ (∀ d, row.2 = 0x0202 →
           let v : State := (freeChoice (memFailure s .host 0 row.2 pa.toNat)).2
           exec (row.1 (.hostWrite d)) s = .next v
             ∨ exec (row.1 (.hostWrite d)) s = .next (storePa v pa.toNat (d.take (64 - pa.toNat % 64)))))
  ∧ (∀ (s : State) (t : Tile) (n : Fin 1600) (pc : Fin 512) (fr : Frame),
       Table.find (s.tmem.get t).frames n.val = some fr → fr.valid = true → fr.dirty ≠ 0 → fr.stuck = none →
       let a := raise (modFrame s t n.val fun y => { y with stuck := some pc.val }) 0x0204 pc.val (blkMem t) fr.owner
       exec (.writeBackStuck t n pc) s = .next (failPseudoChannel a t pc.val)
       ∧ ((s.tmem.get t).en = true → (s.tmem.get t).used = false → (s.tmem.get t).moving = false →
           failPseudoChannel a t pc.val = raise (a.modMem t fun m => { m with moving := true, retiredPc := pc.val, movePos := 0 }) 0x0206
             pc.val (blkMem t))
       ∧ (((s.tmem.get t).used = true ∨ (s.tmem.get t).moving = true) → (s.tmem.get t).retiredPc ≠ pc.val →
           failPseudoChannel a t pc.val =
             setReason (raise (a.modMem t fun m => { m with unspared := true }) 0x0206 (2 ^ 31 + pc.val) (blkMem t)) 3))

/-! ### Work on cores, and streams -/

/-- R65: an INT32 step adds the incoming value and the products exactly, clamps the sum to the nearer limit when it lies outside
−2^31 to 2^31 − 1 and sets ISAT then, and only then. -/
def Obligations.IntegerEngineStep : Prop :=
  ∀ (c : Word32) (terms : List (Int × Int)),
    let sum := c.toInt + (terms.map fun p => p.1 * p.2).sum
    (engineStepInt c terms).1.toInt = max (-2147483648) (min 2147483647 sum)
    ∧ (engineStepInt c terms).2 = if sum < -2147483648 ∨ 2147483647 < sum then flagIsat else noFlags

/-- R76, R179: one tile step of a core of a loop task, once the buffers that the step reads have been filled: the core enters
the step's phase, once everything that the step before placed has completed, and does the activities of the step. Its walk is
one step on, done after two drain steps; the walks of the other cores and the other tasks stay. Where no tile was finished two
steps before, every byte of memory outside the windows and the frames is as it was. A core whose buffers have not been filled
waits; a step that meets a fault stops the task with that fault. R179, R203: a core of a COMPUTE stage takes its tile step in
every iteration it has work in: the oldest one it has not finished and, when that one has run its last tile step and goes
straight on, the next one, whose handles are all held, with it. The iterations that step together hold their handles and their
walks are not done. A core with no such iteration, or whose buffers have not been filled, waits; a step that meets a fault stops
the task. -/
def Obligations.StepsTaken : Prop :=
  (∀ (s : State) (id core : Nat) (t : Task) (x : LoopWork) (w : CoreWalk),
     taskOf s id = some t → t.status = .running → t.work = .loop x → core < t.cores.length →
     coreReady s (nth 0 t.cores core) = true → Table.find x.walks core = some w → w.done = false →
     let h : State := { s with heldAt := none }
     let v := walkEnv h t (parseLoop t.body) x.bucket core
     (stepReady v x w = false → exec (.tileStepBegin id core) s = .next h)
     ∧ (∀ u o, stepReady v x w = true → walkStep (enterStep h v w) v w = (u, .ok o) →
       exec (.tileStepBegin id core) s =
         .next (noteStep (putLoop u id { x with walks := Table.insert x.walks core o.walk }) id v.core o.flags o.broke)
       ∧ o.walk.step = w.step + 1 ∧ (o.walk.done = true ↔ w.step = walkSteps v w + 1)
       ∧ (∀ i, i ≠ core → Table.find (Table.insert x.walks core o.walk) i = Table.find x.walks i)
       ∧ taskOf u id = some { t with phases := Table.insert t.phases core (stepPhase v.d w) }
       ∧ (∀ i, i ≠ id → taskOf u i = taskOf s i)
       ∧ (memCanonical s.mem = true → (∀ y ∈ w.outs, y.at_ + 2 ≠ w.step) → StatePart.mem.same s u)
       ∧ OnlyChanges [.mem, .frameBytes, .scratch, .poison, .sch, .tmem, .tasks, .hifCtrs, .logs, .pages, .power, .hostOut, .freeCtr,
           .heldAt] s u)
     ∧ (∀ u e, stepReady v x w = true → walkStep (enterStep h v w) v w = (u, .error e) →
         (faultTask u id t.part e .core v.core).heldAt = none →
         exec (.tileStepBegin id core) s = .next (faultTask u id t.part e .core v.core)))
  ∧ ((∀ (s : State) (id core : Nat) (t : Task) (x : StageWork),
       taskOf s id = some t → t.status = .running → t.work = .stage x → core < t.cores.length →
       coreReady s (nth 0 t.cores core) = true →
       let h : State := { s with heldAt := none }
       let ps := stepPlan t x.bucket core true 0 x.runs
       ((ps = [] ∨ planReady h t x core ps = false) → exec (.tileStepBegin id core) s = .next h)
       ∧ (∀ j w rest y, ps = (j, w) :: rest → planReady h t x core ps = true → x.runs[j]? = some y →
         let a := enterStep h (runEnv h t x y core) w
         (∀ u z, foldErr (stepRun t core) a (markDrain t x ps) ps = (u, .ok z) → (settleStage u t z).heldAt = none →
           exec (.tileStepBegin id core) s = .next (settleStage u t z))
         ∧ (∀ u e, foldErr (stepRun t core) a (markDrain t x ps) ps = (u, .error e) →
           (faultTask (putStage u id (markDrain t x ps)) id t.part e.err e.unit e.core).heldAt = none →
           exec (.tileStepBegin id core) s = .next (faultTask (putStage u id (markDrain t x ps)) id t.part e.err e.unit e.core))))
     ∧ ∀ (t : Task) (bucket core : Nat) (rs : List StageRun), let ps := stepPlan t bucket core true 0 rs
         (∀ p ∈ ps, ∃ y, rs[p.1]? = some y ∧ Table.find y.loop.walks core = some p.2 ∧ p.2.done = false ∧ allHeld t.body y.held = true)
         ∧ (∀ i p q, ps[i]? = some p → ps[i + 1]? = some q → p.1 < q.1 ∧ stageSteps t bucket p.2 ≤ p.2.step))

/-- R177, R179: an output tile goes through the stations of R179 in order: it is finished at the step whose K indices are all
last (at every step of an element-wise task), waits for its epilogue at the next step and for its write at the one after, and is
gone then. No two tiles are finished at one step. -/
def Obligations.OutputTileStations : Prop :=
  ∀ (s u : State) (v : WalkEnv) (w : CoreWalk) (x : StepOut),
    (∀ o ∈ w.outs, o.at_ < w.step) → (∀ o ∈ w.outs, w.step ≤ o.at_ + 2) →
    (∀ o ∈ w.outs, ∀ p ∈ w.outs, o.at_ = p.at_ → o = p) →
    walkStep s v w = (u, .ok x) →
      (∀ o ∈ x.walk.outs, o.at_ < x.walk.step ∧ x.walk.step ≤ o.at_ + 2)
      ∧ (∀ o ∈ x.walk.outs, ∀ p ∈ x.walk.outs, o.at_ = p.at_ → o = p)
      ∧ (∀ o ∈ w.outs, o.at_ + 2 ≠ w.step → o ∈ x.walk.outs)
      ∧ ((∃ o ∈ x.walk.outs, o.at_ = w.step) ↔ w.step < walkSteps v w
          ∧ (v.d.op = 0 → kAt v.d (walkUnits v.d v.k w.units) (walkDigits v w w.step) true = true))

/-- R76, R185: a core of a running task that enters the next phase of its sequencer is in that phase from then on; the banks
whose class changes are handed over with no access of their old class outstanding, and nothing else changes. The next tile of a
staged operand that may be delivered on a tile is fetched and delivered there once, and counted in that tile's SCH_MCAST_DELIV,
for a loop task and for a COMPUTE stage; a fetch that fails stops the task. R32, R90 to R92, R94: an access of a dispatched task
to a bank that belongs to another class than the access is performed and counted on the reached core, and the first one since
CONF_CLR is captured there; in strict mode it stops the task with cause 0x0121, otherwise it marks the task PLANV. Where it
meets its owner's access to the same row, a read returns the row as it was before and of two writes the intruder's bytes remain.
An access of the class the bank belongs to changes nothing, and one to a core of the other wing while the Concourse is down
fails with cause 0x0306. R238, R239, R240: the next partial of a part lands in its slot of the inbox, and the merge goes on from
there; a head group whose last part's row tiles have all been merged is finished. A partial that is not the next one of its part
changes nothing, and one whose landing stops its task, the inbox banks not being of network class in strict mode, merges
nothing. -/
def Obligations.CoreTraffic : Prop :=
  (∀ (s : State) (id : Nat) (t : Task), taskOf s id = some t → t.status = .running →
     (∀ (core : Nat) (phase : Fin 8), core < t.cores.length →
       (phase.val ∉ nextPhase t core → exec (.phaseChange id core phase) s = .next s)
       ∧ (phase.val ∈ nextPhase t core → memCanonical s.mem = true → ∃ u, exec (.phaseChange id core phase) s = .next u
         ∧ taskOf u id = some { t with phases := Table.insert t.phases core phase.val }
         ∧ (∀ i, i ≠ id → taskOf u i = taskOf s i)
         ∧ (∀ y ∈ (u.sch.get (coreTile (nth 0 t.cores core))).transfers, y.core = nth 0 t.cores core →
             y.names (changedBanks t.plan (Table.get 0 t.phases core) phase.val) = false)
         ∧ OnlyChanges [.poison, .sch, .tasks, .scratch] s u))
     ∧ (∀ (b : Bool) (y : Tile), let h : State := { s with heldAt := none }
       (∀ x, t.work = .loop x → mayDeliver h t (parseLoop t.body) x b y = true →
         (∀ u, deliverTile h t (parseLoop t.body) x b y = (u, .ok ()) →
           exec (.multicastDelivery id ⟨b, y⟩) s = .next (putLoop u id (delivered x b y))
           ∧ ∃ m, u = addCtr m (blkSch y) 0x0320 ∧ OnlyChanges [.mem, .frameBytes, .scratch, .poison, .sch, .tmem, .tasks, .hifCtrs,
               .logs, .pages, .power, .hostOut, .freeCtr, .heldAt] s m)
         ∧ (∀ u e, deliverTile h t (parseLoop t.body) x b y = (u, .error e) → (faultTask u id t.part e .memory).heldAt = none →
           exec (.multicastDelivery id ⟨b, y⟩) s = .next (faultTask u id t.part e .memory)))
       ∧ (∀ x j z u, t.work = .stage x → deliverRun h t x b y = some j → x.runs[j]? = some z →
         stageMayDeliver h t x j z b y = true → deliverTile h t (boundBody h t z.held) z.loop b y = (u, .ok ()) →
           exec (.multicastDelivery id ⟨b, y⟩) s =
               .next (putStage u id (x.modRun j fun z' => { z' with loop := delivered z.loop b y }))
           ∧ ∃ m, u = addCtr m (blkSch y) 0x0320)))
  ∧ (∀ (s : State) (x : Intrusion) (t : Task), taskOf s x.task = some t → t.dispatched = true → x.cls ≠ .idle →
       memCanonical s.mem = true →
       let i := coreIndex x.tile x.core.val
       let q := bankOwner s i x.bank.val
       let off := 0x100000 + 0x400 * x.core.val + 0x100 + 8 * x.bank.val
       let row := windowBase i + rowOffset x
       let stores (r : Option RowAccess) (k : Nat) (v : Byte) : Prop :=
         ∃ b d, r = some (.write b d) ∧ b.val ≤ k ∧ d[k - b.val]? = some v
       (q.2 = portClassCode x.cls → exec (.intrudingAccessForced x) s = .next s)
       ∧ (q.2 ≠ portClassCode x.cls → wingOf x.tile ≠ t.wing → concourseUp s = false →
           exec (.intrudingAccessForced x) s = .next (stopTask s t.id 0x0306 .core 0 i))
       ∧ (q.2 ≠ portClassCode x.cls → (wingOf x.tile = t.wing ∨ concourseUp s = true) → ∃ u, exec (.intrudingAccessForced x) s = .next u
           ∧ (ctr u (blkSch x.tile) off).toNat = min (2 ^ 64 - 1) ((ctr s (blkSch x.tile) off).toNat + 1)
           ∧ (flg (Table.get 0 (s.sch.get x.tile).confFirst x.core.val) 31 = false → q.1 < 8 →
               Table.get 0 (u.sch.get x.tile).confFirst x.core.val = pack [(1, 31), (q.1, 28), (q.2, 26), (portClassCode x.cls, 24),
                 (x.bank.val, 18), (b2n (metSameRow x), 17), (b2n (rowWrites x.access), 16), (x.row.val, 0)])
           ∧ (flg (Table.get 0 (s.sch.get x.tile).confFirst x.core.val) 31 = true →
               (u.sch.get x.tile).confFirst = (s.sch.get x.tile).confFirst)
           ∧ (t.strict = false → taskOf u x.task = some { t with planv := true })
           ∧ (t.strict = true → (∀ c, t.status ≠ .stopping c) → taskOf u x.task = some { t with status := .stopping 0x0121 })
           ∧ (∀ n, n ≠ x.task → taskOf u n = taskOf s n)
           ∧ (∀ k v, k < 64 → stores (some x.access) k v → memByte u.mem (row + k) = v)
           ∧ (∀ k v, k < 64 → (¬ ∃ v', stores (some x.access) k v') → stores x.met k v → memByte u.mem (row + k) = v)
           ∧ (∀ a, (∀ k v, k < 64 → a = row + k → ¬ stores (some x.access) k v ∧ ¬ stores x.met k v) → memByte u.mem a = memByte s.mem a)
           ∧ u.readData = s.readData ∧ u.readPoison = s.readPoison
           ∧ u.portData = (if x.access = .read ∨ x.met = some .read then memBytes s.mem row 64 else s.portData)
           ∧ OnlyChanges [.sch, .tasks, .hifCtrs, .logs, .pages, .hostOut, .scratch, .poison, .readOut] s u))
  ∧ (∀ (s : State) (id : Nat) (t : Task) (x : ChainWork) (h : Fin 64) (j : Fin 336) (tile : Nat),
       taskOf s id = some t → t.status = .running → t.work = .chain x →
       let b := parseChain t.body
       let n := Table.get 0 x.arrived (mergeKey h.val j.val)
       let a : State := { s with heldAt := none }
       let m := landPartial a t b x h.val j.val tile
       let r := mergeArrived m t b h.val ({ x with arrived := Table.insert x.arrived (mergeKey h.val j.val) (n + 1) }, noFlags)
       let i := nth 0 t.cores (h.val * b.ksplit)
       let bs := partialBytes t (tileOfRows b tile (partRows t b x (h.val * b.ksplit + j.val)))
       let next := x.complete = true ∧ h.val < b.kvh ∧ 1 ≤ j.val ∧ j.val < b.ksplit ∧ tile = n ∧ n < tileCount t b
         ∧ Table.get 0 x.merged (mergeKey h.val j.val) = n
       let runs := (taskOf m t.id).any (fun y => y.status == .running) = true
       (¬ next → exec (.partialArrival id h j tile) s = .next a)
       ∧ (memCanonical s.mem = true → inCoreBytes i (inboxSlot t b j.val) bs.length = true →
           memBytes m.mem (windowBase i + inboxSlot t b j.val) bs.length = bs)
       ∧ (memCanonical s.mem = true →
           OnlyChanges [.poison, .sch, .tasks, .hifCtrs, .logs, .pages, .hostOut, .scratch, .heldAt] s m)
       ∧ (next → ¬ runs → exec (.partialArrival id h j tile) s = .next m)
       ∧ (next → runs → Table.get 0 r.2.1.merged (mergeKey h.val (b.ksplit - 1)) ≠ tileCount t b →
           exec (.partialArrival id h j tile) s = .next (putChain r.1 t.id r.2))
       ∧ (∀ u z, next → runs → Table.get 0 r.2.1.merged (mergeKey h.val (b.ksplit - 1)) = tileCount t b →
           finishGroup r.1 t b h.val r.2 = (u, .ok z) → exec (.partialArrival id h j tile) s = .next (putChain u t.id z)))

/-- R195, R196, R197, R201: a stage that wants a handle for an input binding takes the oldest full one of its stream; for an
output binding it acquires some free handle while its stream has fewer than two or the shared part has room. The siding records
it, the stage holds it and goes on with it; no other state part changes before that. A segment too small for the operand it is
bound to stops the stage with cause 0x0503. Without a handle the stage waits. R201, R202, R203, R207: an iteration whose handles
are held ends: a COMPUTE stage's once every core has finished its walk, a COPY stage's with its transfer, a LOAD stage's with
its load. What was written reaches memory before the outputs are committed for their stream, with the last mark of a final
iteration; the count at the commit is noted, and the stage goes on with the next iteration, or has ended after the final one.
R205, R206: a LOAD stage's iteration loads its segment into stream frames when every tile has room for the pages it must take,
and waits otherwise; an entry whose page count is 0 or above the home tile's share, or with a reserved bit, stops it with cause
0x0207 (the model's choice, assumption log 130). A held small transfer whose time is over is let go. -/
def Obligations.StagesProgress : Prop :=
  (∀ (s : State) (id : Nat) (k : Fin 4) (t : Task) (x : StageWork) (b : Binding) (y : Siding),
     taskOf s id = some t → t.status = .running → t.work = .stage x → wants t x = some b → b.num = k.val →
     sidingOf s t.part t.wing b.siding = some y →
     let a : State := { s with heldAt := none }
     (b.out = false → y.queue.all (fun q => q.2.1 != stageStream t) = true → exec (.stageHandleTake id k) s = .next a)
     ∧ (∀ h st last, b.out = false → y.queue.find? (fun q => q.2.1 == stageStream t) = some (h, st, last) →
         let z := holdHandle t x { binding := k.val, siding := b.siding, handle := h, last := last }
         ∃ u, sidingOf u t.part t.wing b.siding = some { y with
               queue := dropFirst (stageStream t) y.queue, handles := Table.insert y.handles h (.taken (stageStream t)) }
           ∧ OnlyChanges [.sidings, .heldAt] s u
           ∧ (segmentFits t x.bucket b y h = true → (settleStage u t z).heldAt = none →
               exec (.stageHandleTake id k) s = .next (settleStage u t z))
           ∧ (segmentFits t x.bucket b y h = false → exec (.stageHandleTake id k) s = .next (stopTask (putStage u id z) id 0x0503)))
     ∧ (b.out = true → (mayAcquire y (stageStream t) = false ∨ freeHandles y = []) → exec (.stageHandleAcquire id k) s = .next a)
     ∧ (b.out = true → mayAcquire y (stageStream t) = true → freeHandles y ≠ [] → ∃ u h, h ∈ freeHandles y
           ∧ sidingOf u t.part t.wing b.siding = some { y with handles := Table.insert y.handles h (.acquired (stageStream t)) }
           ∧ OnlyChanges [.sidings, .freeCtr, .heldAt] s u
           ∧ (let z := holdHandle t x { binding := k.val, siding := b.siding, handle := h }
              (settleStage u t z).heldAt = none → exec (.stageHandleAcquire id k) s = .next (settleStage u t z)))
     ∧ ∀ h, ∃ c, (holdHandle t x h).runs.getLast? = (x.runs.getLast?).map fun r => { r with held := r.held ++ [h], final := c })
  ∧ ((∀ (s : State) (id : Nat) (t : Task) (x : StageWork) (y : StageRun) (ys : List StageRun),
       taskOf s id = some t → t.status = .running → t.work = .stage x → x.runs = y :: ys → x.ended = false →
       allHeld t.body y.held = true → x.waiting = false →
       let a : State := { s with heldAt := none }
       (stageMode t = 0 → walksDone y.loop = false → exec (.stageIterationEnd id) s = .next a)
       ∧ (stageMode t = 0 → walksDone y.loop = true → (endIteration a t x).heldAt = none →
           exec (.stageIterationEnd id) s = .next (endIteration a t x))
       ∧ (∀ p x' q bs w, stageMode t = 1 →
           let c := coreCtx a t 0
           let i := nth 0 t.cores 0
           let src := copyEnd a t x y false (sgSrc t.body)
           let dst := copyEnd a t x y true (sgDst t.body)
           let r : List Byte × State := if dst ≤ src then (bs, q) else copyBytes q src dst bs
           mergeRank a t x 0 0 [{ write := true, va := dst, len := copyLen t.hdr, source := some src }] = (p, x') →
           loadVa (openTransfer p { core := i, task := id, write := false, ranges := [] }) c src (copyLen t.hdr) = (q, .ok bs) →
           saveVa (passThrough r.2 i r.1) c dst r.1 = (w, none) →
           (endIteration (closeCore w i) t x').heldAt = none →
           exec (.stageIterationEnd id) s = .next (endIteration (closeCore w i) t x'))
       ∧ (stageMode t = 2 → (runLoadIter a t x y).heldAt = none → exec (.stageIterationEnd id) s = .next (runLoadIter a t x y)))
     ∧ ∀ (a : State) (t : Task) (x : StageWork) (y : StageRun) (ys : List StageRun), x.runs = y :: ys →
         ∃ u z, endIteration a t x = settleStage u t z
         ∧ z.iter = x.iter + 1 ∧ z.ended = y.final ∧ z.waiting = false ∧ z.lastCommit = (tickOf a t.wing).toNat ∧ z.iterMissed = false
         ∧ (y.final = true → z.runs = [])
         ∧ (y.final = false → ys = [] → ∃ n, z.runs = [n] ∧ n.held = [])
         ∧ (y.final = false → ys ≠ [] → z.runs = ys)
         ∧ (∀ h b, h ∈ y.held → (bindingsOf t.body).find? (fun b => b.num == h.binding) = some b → b.out = true →
             sidingOf a t.part t.wing h.siding ≠ none →
             ∃ q, sidingOf u t.part t.wing h.siding = some q ∧ (h.handle, stageStream t, y.final) ∈ q.queue)
         ∧ OnlyChanges [.mem, .frameBytes, .scratch, .poison, .sch, .tmem, .tasks, .sidings, .hifCtrs, .logs, .pages, .power, .hostOut,
             .freeCtr] a u)
  ∧ ((∀ (s a : State) (t : Task) (x : StageWork) (y : StageRun) (e : Nat),
       loadNum s (taskCtx s t) (sgTable t.body + 16 * x.sched) 16 = (a, .ok e) →
       let ok := bits e 83 72 ≠ 0 ∧ bits e 83 72 ≤ (recGrant (taskRec a t) t.home).s ∧ bits e 71 66 = 0 ∧ bits e 63 48 = 0
         ∧ bits e 15 0 = 0
       (¬ ok → runLoadIter s t x y = stopTask a t.id 0x0207)
       ∧ (∀ ps, ok → segmentPages a (taskCtx s t) (bits e 47 16 * 0x10000) (bits e 83 72) = .ok ps →
           (streamRoom a t.part (ps.map (·.tile)) = false →
             runLoadIter s t x y = a.modTask t.id fun z => { z with work := .stage { x with waiting := true } })
           ∧ (∀ h rest, streamRoom a t.part (ps.map (·.tile)) = true → y.held = h :: rest → runLoadIter s t x y =
               endIteration ((loadPages a { src := .stageLoad, ctx := taskCtx s t, layer := bits e 127 96, seg := bits e 95 84 } ps).modSiding
                   t.part t.wing h.siding fun z =>
                   { z with segs := Table.insert z.segs h.handle (bits e 127 96, bits e 95 84, bits e 83 72, bits e 47 16 * 0x10000) }) t
                 { x.modRun 0 fun r => { r with final := r.final || bit e 64 } with
                   sched := if bit e 65 then 0 else x.sched + 1 })))
     ∧ ∀ (s : State) (id : Nat) (core : Rank) (t : Task) (x : StageWork),
         taskOf s id = some t → t.status = .running → t.work = .stage x → ∃ u, exec (.mergeHoldExpiry id core) s = .next u
           ∧ taskOf u id = some { t with work := .stage { x with merge := Table.erase x.merge core } }
           ∧ (∀ i, i ≠ id → taskOf u i = taskOf s i) ∧ OnlyChanges [.tasks] s u)

/-- R207, R208, R215: a deadline check reports every task of the tile whose deadline, or iteration deadline, has passed once,
with EV_DEADLINE, in SCH_DL_MISS and, for the first miss, in the capture; it stops a task of a real-time partition with cause
0x0501 and lets another one go on. A task that has missed nothing, or lives on another tile, is as it was. R210, R211: the tasks
of a wing that wait on each other for longer than the stall limit form a stall set: each waits on some task, and only on tasks
of the set. Its victim is a stage of the set; breaking it stops the victim with cause 0x0502 and counts it in SCH_STALLS. A
check stops such victims and otherwise only notes how long each task has been blocked. -/
def Obligations.DeadlinesAndStalls : Prop :=
  ((∀ (s : State) (t : Tile), (s.tasks.map (·.id)).Nodup →
     let now := (tickOf s (wingOf t)).toNat
     ∃ u, exec (.deadlineCheck t) s = .next u
       ∧ (∀ x ∈ s.tasks, ∃ y, taskOf u x.id = some y
         ∧ ((x.home ≠ t ∨ missesDeadline now x = false ∧ missesIter now x = false) → y = x)
         ∧ (x.home = t → y.deadlineMissed = (x.deadlineMissed || missesDeadline now x))
         ∧ (x.home = t → (missesDeadline now x || missesIter now x) = true →
             (recRt (taskRec s x) = false → y.status = x.status)
             ∧ (recRt (taskRec s x) = true → (∀ c, x.status ≠ .stopping c) → y.status = .stopping 0x0501)))
       ∧ u.tasks.map (·.id) = s.tasks.map (·.id)
       ∧ (ctr u (blkSch t) 0x0428).toNat = min (2 ^ 64 - 1) ((ctr s (blkSch t) 0x0428).toNat
           + (s.tasks.filter fun x => x.home == t && missesDeadline now x).length
           + (s.tasks.filter fun x => x.home == t && missesIter now x).length)
       ∧ OnlyChanges [.sch, .tasks, .hifCtrs, .logs, .pages, .hostOut] s u)
   ∧ ∀ (s : State) (t : Tile) (x : Task), let now := (tickOf s (wingOf t)).toNat
       (s.tasks.filter fun y => y.home == t) = [x] → missesDeadline now x = true → missesIter now x = false →
       flg (s.sch.get t).dlInfo 31 = false → ∃ u, exec (.deadlineCheck t) s = .next u
         ∧ (u.sch.get t).dlInfo = pack [(1, 31), (b2n (recRt (taskRec s x)), 30), (0, 29), (x.part, 20), (x.ring, 0)]
         ∧ (u.sch.get t).dlTag = BitVec.ofNat 32 (entryTag x.hdr))
  ∧ ((∀ (s : State) (n : Nat) (z : List Task), z.length ≤ n → ∀ x ∈ stallSet s n z, x ∈ z ∧ waitsOn s x ≠ []
         ∧ ∀ i ∈ waitsOn s x, ∃ y ∈ stallSet s n z, y.id = i)
     ∧ (∀ (s : State) (z : List Task) (v : Task), stallVictim s z = some v → v ∈ z ∧ v.isStage = true)
     ∧ (∀ (s : State) (w : Wing), (s.tasks.map (·.id)).Nodup → ∃ u, exec (.stallCheck w) s = .next u
         ∧ u.tasks.map (·.id) = s.tasks.map (·.id)
         ∧ (∀ x ∈ s.tasks, ∃ y, taskOf u x.id = some y
           ∧ { y with blocked := none, status := .waiting } = { x with blocked := none, status := .waiting }
           ∧ (x.wing ≠ w → y.blocked = x.blocked)
           ∧ (y.status = x.status ∨ (x.isStage = true ∧ x.wing = w ∧ y.status = .stopping 0x0502)))
         ∧ OnlyChanges [.sch, .tasks, .hifCtrs, .logs, .pages, .hostOut] s u)
     ∧ ∀ (s : State) (w : Wing) (p : Nat) (v : Task),
         let old := s.tasks.filter fun t => t.part == p && t.wing == w && (match t.blocked with
           | some (_, k) => decide (k + 1 + max 1 (partVal s 0x8032 p) ≤ (tickOf s w).toNat)
           | none => false)
         stallVictim s (stallSet s old.length old) = some v → taskOf s v.id = some v → (∀ c, v.status ≠ .stopping c) →
           (∃ y, taskOf (breakStall s w p) v.id = some y ∧ y.status = .stopping 0x0502)
           ∧ (∀ i, i ≠ v.id → (taskOf (breakStall s w p) i).map (fun t => { t with blocked := none }) =
               (taskOf s i).map (fun t => { t with blocked := none }))
           ∧ (ctr (breakStall s w p) (blkSch (tileIn w 0)) 0x0430).toNat =
               min (2 ^ 64 - 1) ((ctr s (blkSch (tileIn w 0)) 0x0430).toNat + 1))

/-! ### The ring -/

/-- R210, R325, R326, R330, R333, R334: at a tick the local timer of a running Timetable goes on by one; the count does too in
beat mode, unless it is held for a tick, stands at its end 2^64 − 1, and stands in barrier mode. What the wing's tasks wait for
is noted; nothing else changes but the report that the end was reached. R328: a beat is emitted once at each count that is a
multiple of 1024, by a locked and consistent wing in beat mode: on both ring links by a source (both of them the Concourse in a
ring of two), on the link away from its own beats by a follower. It carries the count, the sender's stop number, its HOPS and
the ring's size, mode and tick. R324, R329, R330: a beat from the neighbour that a locked stop follows. Within 8 ns it keeps the
stop locked; the second in a row beyond 8 ns costs it its lock, which is counted; the count itself never moves with it, and the
rate changes by at most one slot per beat. A beat that disagrees with the stop's ring configuration makes the stop inconsistent,
and its Timetable goes down, with its lock. -/
def Obligations.TimetableCounts : Prop :=
  (∀ (s : State) (w : Wing), ((s.tt.get w).running = false → exec (.timetableTick w) s = .next s)
     ∧ ((s.tt.get w).running = true → ∃ t, exec (.timetableTick w) s = .next t
       ∧ (t.tt.get w).localTicks = (s.tt.get w).localTicks + 1
       ∧ (barrierMode s = true → (t.tt.get w).count = (s.tt.get w).count)
       ∧ (barrierMode s = false → (s.tt.get w).hold ≠ 0 →
           (t.tt.get w).count = (s.tt.get w).count ∧ (t.tt.get w).hold = (s.tt.get w).hold - 1)
       ∧ (barrierMode s = false → (s.tt.get w).hold = 0 →
           (t.tt.get w).count.toNat = min (2 ^ 64 - 1) ((s.tt.get w).count.toNat + 1) ∧ (t.tt.get w).slot = 0)
       ∧ ((s.tt.get w).count.toNat + 1 ≠ 2 ^ 64 - 1 → OnlyChanges [.tt, .tasks] s t)
       ∧ (t.tt.get w).source = (s.tt.get w).source ∧ (t.tt.get w).follow = (s.tt.get w).follow
       ∧ t.tt.get (otherWing w) = s.tt.get (otherWing w)
       ∧ t.tasks.map (fun x => { x with blocked := none }) = s.tasks.map (fun x => { x with blocked := none })
       ∧ (∀ x ∈ s.tasks, x.wing ≠ w → x ∈ t.tasks)
       ∧ OnlyChanges [.tt, .tasks, .hifCtrs, .logs, .pages, .hostOut] s t))
  ∧ (∀ (s : State) (w : Wing), mayEmit s w = true →
       let t := s.tt.get w
       let x := makeBeat s w 0 t.count.toNat t.hops.toNat
       let a := s.modTt w fun t => { t with emitted := some t.count.toNat }
       (t.source = true → exec (.beatEmit w) s = .next (sendTime (sendTime a w .successor x) w .predecessor x))
       ∧ (t.source = false → t.follow = some .successor → exec (.beatEmit w) s = .next (sendTime a w .predecessor x))
       ∧ (t.source = false → t.follow ≠ some .successor → exec (.beatEmit w) s = .next (sendTime a w .successor x))
       ∧ (∀ u, exec (.beatEmit w) s = .next u → exec (.beatEmit w) u = .next u)
       ∧ ((windowOf s w).1 < 2 ^ 64 → (windowOf s w).2 < 2 ^ 32 → flog2 (dictVal s 0x4011 0 / 128) < 8 → dictVal s 0x4010 0 < 2 →
         btCount x = t.count.toNat ∧ btHops x = t.hops.toNat ∧ btSender x = stopNum s w % 256 ∧ btKind x = 0
         ∧ btSize x = (ringStops s - 1) % 256))
  ∧ (∀ (s : State) (w : Wing) (n : Neighbour) (x : BitVec 256) (slot : Fin 16) (frac : BitVec 8),
       let t := s.tt.get w
       ttActive s w = true → ringUp s w n = true → btKind x = 0 →
       (beatAgrees s w n x = false → ∃ u, exec (.beatReceive w n x slot frac) s = .next u
         ∧ (u.tt.get w).lock = .down ∧ (u.tt.get w).beatBad = true ∧ (u.tt.get w).source = false
         ∧ (u.tt.get w).count = t.count
         ∧ (t.isLocked = true → (ctr u (blkTt w) 0x0110).toNat = min (2 ^ 64 - 1) ((ctr s (blkTt w) 0x0110).toNat + 1))
         ∧ (t.follow = some n → (ctr u (blkTt w) 0x0100).toNat = min (2 ^ 64 - 1) ((ctr s (blkTt w) 0x0100).toNat + 1))
         ∧ OnlyChanges [.tt, .hifCtrs, .logs, .pages, .hostOut] s u)
       ∧ (beatAgrees s w n x = true → ringConfigOk s = true → t.consistent = true → t.isLocked = true → t.source = false →
         chosenNeighbour ((recordBeat s w n (btHops x)).tt.get w) = some n → 0 < tickPs s →
         let e := beatError s w n x slot.val frac.toNat
         ∃ u, exec (.beatReceive w n x slot frac) s = .next u
           ∧ (u.tt.get w).count = t.count ∧ (u.tt.get w).slot = t.slot ∧ (u.tt.get w).ttError = errorImage (e / (tickPs s : Int))
           ∧ (ctr u (blkTt w) 0x0100).toNat = min (2 ^ 64 - 1) ((ctr s (blkTt w) 0x0100).toNat + 1)
           ∧ (e.natAbs ≤ 8000 * 4096 → (u.tt.get w).lock = .locked ∧ (u.tt.get w).farBeats = 0 ∧ (u.tt.get w).follow = some n
               ∧ (u.tt.get w).hops.toNat = min 255 (btHops x + 1) ∧ -256 ≤ (u.tt.get w).rate ∧ (u.tt.get w).rate ≤ 256)
           ∧ (8000 * 4096 < e.natAbs → t.farBeats = 0 → (u.tt.get w).lock = .locked ∧ (u.tt.get w).farBeats = 1)
           ∧ (8000 * 4096 < e.natAbs → 1 ≤ t.farBeats → (u.tt.get w).lock = .acquiring ∧ (u.tt.get w).follow = none
               ∧ (ctr u (blkTt w) 0x0110).toNat = min (2 ^ 64 - 1) ((ctr s (blkTt w) 0x0110).toNat + 1))
           ∧ (e.natAbs ≤ 2000 * 4096 → (ctr u (blkTt w) 0x0108) = ctr s (blkTt w) 0x0108)
           ∧ OnlyChanges [.tt, .hifCtrs, .logs, .pages, .hostOut] s u))

/-- R327, R330, R332: a master that heard no beat for its listening time becomes the source, from RING_FIRST_COUNT on or its own
count where that is later; a backup takes over after three intervals without its source; a follower that heard nothing for four
loses its lock. Otherwise nothing changes. R335: in barrier mode the master starts a barrier when its stop is ready; a stop that
is not ready holds the arrive token back, and passes it on with one more hop when it is. When the token has come round, the
master's count advances by one and the advance token goes out; it advances every other stop and completes the barrier at the
master. A master whose stop is reached by another's token yields when its own stop number is the higher one, and drops the token
otherwise (R333). R337: a reconfiguration window begins when the count has come to it, and ends once the count has left it; the
headers that waited for its end then go out. Outside these moments the events change nothing. -/
def Obligations.RingSources : Prop :=
  (∀ (s : State) (w : Wing),
     (∀ a, s.tt.east.listenFrom = some a → ttActive s .east = true → isMaster s .east = true → s.tt.east.lock = .acquiring →
       s.tt.east.consistent = true → ringUp s .east .predecessor = true → ringUp s .east .successor = true →
       (s.tt.east.localTicks < a + 4096 → exec .masterListenExpiry s = .next s)
       ∧ (a + 4096 ≤ s.tt.east.localTicks → ∃ u, exec .masterListenExpiry s = .next u
         ∧ u.tt.east.lock = .locked ∧ u.tt.east.source = true ∧ u.tt.east.hops = 0
         ∧ u.tt.east.count.toNat = min (2 ^ 64 - 1) (max s.tt.east.count.toNat (dictVal s 0x4014 0))
         ∧ u.tt.west = s.tt.west ∧ OnlyChanges [.tt, .hifCtrs, .logs, .pages, .hostOut] s u))
     ∧ (ttActive s .east = true → dictVal s 0x4013 0 = 1 → s.tt.east.isLocked = true → s.tt.east.source = false →
       s.tt.east.consistent = true →
       (s.tt.east.sinceBeat < (if barrierMode s then 3 else 3072) → exec .backupTakeover s = .next s)
       ∧ ((if barrierMode s then 3 else 3072) ≤ s.tt.east.sinceBeat → ∃ u, exec .backupTakeover s = .next u
         ∧ u.tt.east.lock = .locked ∧ u.tt.east.source = true ∧ u.tt.east.hops = 0 ∧ u.tt.east.count = s.tt.east.count
         ∧ u.tt.west = s.tt.west ∧ OnlyChanges [.tt, .hifCtrs, .logs, .pages, .hostOut] s u))
     ∧ (ttActive s w = true → barrierMode s = false → (s.tt.get w).isLocked = true → (s.tt.get w).source = false →
       ((s.tt.get w).sinceBeat < 4096 → exec (.beatLossTimeout w) s = .next s)
       ∧ (4096 ≤ (s.tt.get w).sinceBeat → ∃ u, exec (.beatLossTimeout w) s = .next u
         ∧ (u.tt.get w).lock = .acquiring ∧ (u.tt.get w).follow = none ∧ (u.tt.get w).count = (s.tt.get w).count
         ∧ (ctr u (blkTt w) 0x0110).toNat = min (2 ^ 64 - 1) ((ctr s (blkTt w) 0x0110).toNat + 1)
         ∧ u.tt.get (otherWing w) = s.tt.get (otherWing w) ∧ OnlyChanges [.tt, .hifCtrs, .logs, .pages, .hostOut] s u)))
  ∧ (∀ (s : State) (w : Wing) (x : BitVec 256), barrierMode s = true →
       (ttActive s .east = true → s.tt.east.source = true → s.tt.east.consistent = true → s.tt.east.barrier = false →
         s.tt.east.lastBarrier < s.tt.east.localTicks → ringUp s .east .successor = true →
         (stopReady s .east = true → exec .barrierStart s = .next (sendTime (s.modTt .east fun t => { t with barrier := true }) .east
             .successor (makeBeat s .east 1 s.tt.east.count.toNat 0)))
         ∧ (stopReady s .east = false → exec .barrierStart s = .next s))
       ∧ (ttActive s w = true → ringUp s w .predecessor = true → beatAgrees s w .predecessor x = true → ringConfigOk s = true →
         (s.tt.get w).consistent = true →
         ((s.tt.get w).source = true → btKind x = 1 → tokenMaker s w x < stopNum s w → ∃ u,
             exec (.arriveTokenReceive w x) s = .next u ∧ (u.tt.get w).source = false
             ∧ (ctr u (blkTt w) 0x0110).toNat = min (2 ^ 64 - 1) ((ctr s (blkTt w) 0x0110).toNat + 1))
         ∧ ((s.tt.get w).source = true → stopNum s w < tokenMaker s w x →
             (btKind x = 1 → exec (.arriveTokenReceive w x) s = .next s) ∧ (btKind x = 2 → exec (.advanceTokenReceive w x) s = .next s))
         ∧ ((s.tt.get w).source = true → tokenMaker s w x = stopNum s w → (s.tt.get w).barrier = true → btCount x = (s.tt.get w).count.toNat → btCount x + 1 < 2 ^ 64 - 1 →
           (btKind x = 1 → ∃ u, exec (.arriveTokenReceive w x) s = .next (sendTime u w .successor (makeBeat u w 2 (btCount x + 1) 0))
             ∧ (u.tt.get w).count.toNat = btCount x + 1
             ∧ (ctr u (blkTt w) 0x0118).toNat = min (2 ^ 64 - 1) ((ctr s (blkTt w) 0x0118).toNat + 1)
             ∧ OnlyChanges [.tt, .hifCtrs, .logs, .pages, .hostOut] s u)
           ∧ (btKind x = 2 → exec (.advanceTokenReceive w x) s = .next (s.modTt w fun t =>
               { t with barrier := false, lastBarrier := t.localTicks })))
         ∧ ((s.tt.get w).source = false → (s.tt.get w).isLocked = true → (tickOf s w).toNat ≤ btCount x → btCount x < 2 ^ 64 - 1 →
           let a := learnWindow (s.modTt w fun t => { t with follow := some .predecessor, sinceBeat := 0, listenFrom := none }) w x
           (btKind x = 1 → stopReady s w = false →
             exec (.arriveTokenReceive w x) s = .next (a.modTt w fun t => { t with arriveHeld := some x }))
           ∧ (btKind x = 1 → stopReady s w = true → ∃ u,
             exec (.arriveTokenReceive w x) s = .next (sendTime u w .successor (makeBeat u w 1 (btCount x) (btHops x + 1)))
             ∧ (u.tt.get w).arriveHeld = none ∧ (u.tt.get w).count = (s.tt.get w).count ∧ OnlyChanges [.tt] s u)
           ∧ (btKind x = 2 → ∃ u,
             exec (.advanceTokenReceive w x) s = .next (sendTime u w .successor (makeBeat u w 2 (btCount x) (btHops x + 1)))
             ∧ (u.tt.get w).count.toNat = btCount x ∧ (u.tt.get w).hops.toNat = min 255 (btHops x + 1)
             ∧ OnlyChanges [.tt, .hifCtrs, .logs, .pages, .hostOut] s u))))
  ∧ (∀ (s : State) (w : Wing),
       (inWindow s w = true ↔ (windowOf s w).1 ≤ (tickOf s w).toNat ∧ (tickOf s w).toNat < (windowOf s w).1 + (windowOf s w).2)
       ∧ (inWindow s w = true → exec (.reconfigWindowStart w) s = .next (s.modTt w fun t => { t with window := true }))
       ∧ (inWindow s w = false → exec (.reconfigWindowStart w) s = .next s)
       ∧ ((s.tt.get w).window = true → inWindow s w = false →
           exec (.reconfigWindowEnd w) s =
             .next (pumpRing ((wingEnds w).foldl drainLink (s.modTt w fun t => { t with window := false })) w))
       ∧ (((s.tt.get w).window = false ∨ inWindow s w = true) → exec (.reconfigWindowEnd w) s = .next s))

/-- R340, R346, R347: an armed car set runs from its first tick on; the sends of a step begin at its SEND_SLOT, for each car the
step holds or its marker; a step that has been sent, received and computed on is free, and the last one ends the set. R349,
R352: at its step's COMPUTE_SLOT a bound chain task works on the next car in its order that the stop holds in full; a car that
is not the next one, or that the stop does not hold, changes nothing but the slot reached. R342, R347: sending what may go out
on the ring changes nothing of a car set but the progress of its sends: its phase, its descriptor, and what each step has
admitted, received and freed stay. -/
def Obligations.CarSetsRun : Prop :=
  (∀ (s : State) (w : Wing) (k : CarSetKey) (step : Nat) (c : CarSet), carSetOf s w k = some c →
     (c.phase = .armed → csFirstTick c.desc ≤ (tickOf s w).toNat →
       exec (.carSetFirstTick w k) s = .next (pumpRing (s.modCarSet w k fun c => { c with phase := .running }) w))
     ∧ ((c.phase ≠ .armed ∨ (tickOf s w).toNat < csFirstTick c.desc) → exec (.carSetFirstTick w k) s = .next s)
     ∧ (c.phase = .running → step + 1 < csSteps c.desc →
         16 * frameTick c.desc step + csSendSlot c.desc ≤ 16 * (tickOf s w).toNat + 15 → (c.step step).sending = false →
       exec (.carSendSlot w k step) s =
         .next (pumpRing ((atSlot s w (frameTick c.desc step) (csSendSlot c.desc)).modCarSet w k fun c => c.queueStep step) w)
       ∧ (c.queueStep step).phase = .running ∧ ((c.queueStep step).step step).sending = true
       ∧ (step = 0 → ∀ j < max 1 (ownCars c.desc), Table.find ((c.queueStep 0).step 0).sends j ≠ none))
     ∧ (c.phase = .running → stepMayFree s w c step = true → step + 1 ≠ csSteps c.desc →
       exec (.carStepFree w k step) s =
         .next (pumpRing (s.modCarSet w k fun c => c.modStep step fun x => { x with free := true }) w))
     ∧ (c.phase = .running → stepMayFree s w c step = true → step + 1 = csSteps c.desc →
       ∃ u d, exec (.carStepFree w k step) s = .next u ∧ carSetOf u w k = some d ∧ d.phase = .done
         ∧ (∀ i, (∀ t ∈ s.tasks, t.id = i → boundTo w k t = false) → taskOf u i = taskOf s i))
     ∧ ((c.phase ≠ .running ∨ stepMayFree s w c step = false) → exec (.carStepFree w k step) s = .next s))
  ∧ (∀ (s : State) (w : Wing) (k : CarSetKey) (step : Nat) (car : BitVec 16) (id : Nat) (c : CarSet) (t : Task) (x : ChainWork),
       carSetOf s w k = some c → taskOf s id = some t → c.phase = .running → boundTo w k t = true → step < csSteps c.desc →
       16 * frameTick c.desc step + csComputeSlot c.desc ≤ 16 * (tickOf s w).toNat + 15 → t.status = .running → t.work = .chain x →
       let a := atSlot { s with heldAt := none } w (frameTick c.desc step) (csComputeSlot c.desc)
       let b := parseChain t.body
       (heldCar c step car.toNat = none → exec (.carComputeSlot w k step car id) s = .next a)
       ∧ (∀ ref n, heldCar c step car.toNat = some ref → carsBefore c step = some n →
         (x.carsDone < carsNeeded t b → n + car.toNat = x.carsDone % argKcount t.hdr →
           (∀ u r, runCar t b ref (n + car.toNat) a (x, noFlags) = (u, .ok r) → r.1.carsDone ≠ carsNeeded t b →
             exec (.carComputeSlot w k step car id) s =
               .next (u.modTask t.id fun y => { y with work := .chain r.1, flags := y.flags ||| r.2 }))
           ∧ (∀ u r v q, runCar t b ref (n + car.toNat) a (x, noFlags) = (u, .ok r) → r.1.carsDone = carsNeeded t b →
             completeParts t b u r = (v, .ok q) →
             exec (.carComputeSlot w k step car id) s =
               .next (v.modTask t.id fun y => { y with work := .chain q.1, flags := y.flags ||| q.2 })))
         ∧ ((carsNeeded t b ≤ x.carsDone ∨ n + car.toNat ≠ x.carsDone % argKcount t.hdr) →
           exec (.carComputeSlot w k step car id) s = .next a)))
  ∧ (∀ (s : State) (w : Wing) (k : CarSetKey) (c : CarSet), carSetOf s w k = some c →
       ∃ d, carSetOf (pumpRing s w) w k = some d ∧ d.phase = c.phase ∧ d.desc = c.desc
         ∧ (∀ n, (d.step n).admitted = (c.step n).admitted ∧ (d.step n).received = (c.step n).received
             ∧ (d.step n).empty = (c.step n).empty ∧ (d.step n).free = (c.step n).free ∧ (d.step n).sending = (c.step n).sending)
         ∧ (pumpRing s w).carSets.get (otherWing w) = s.carSets.get (otherWing w)
         ∧ (pumpRing s w).tasks = s.tasks ∧ (pumpRing s w).mem = s.mem)

/-- R342, R343, R344: each car header from the predecessor is answered with an admit or the first reason that applies, and
counted; an admitted header is kept for its step, a refused one leaves the car set as it was. R343, R345, R359: an abort notice
from the predecessor is admitted, fails this stop's own car set with the notice's cause, ends its bound tasks, and goes on to
the successor unless this stop began it. R342, R343, R344, R360: an answer belongs to the oldest unanswered header of its link
and is ignored where it names another; an admit lets a car's body leave on that link, a marker is done, and a refusal starts the
back-off or, for the reasons a receiver will not change, fails the car set. After the back-off the header may be sent again, and
is counted when it is; a car refused for longer than the patience fails its set with cause 0x0301. -/
def Obligations.CarsAnswered : Prop :=
  (∀ (s : State) (w : Wing) (l : LinkEnd) (q : Fin 8) (h : Entry), fromPredecessor s w l = true → carKind h ≠ 1 →
     (∀ r, judgeHeader s w l h = some r → exec (.carHeaderReceive w l q h) s =
       .next (pumpRing (sendAnswer (addCtr s (blkTt w) 0x0130) l q.val r) w))
     ∧ (judgeHeader s w l h = none → exec (.carHeaderReceive w l q h) s =
       .next (pumpRing (sendAnswer (addCtr (admitHeader s w h) (blkTt w) 0x0128) l q.val 0) w))
     ∧ ((stopLocked s w = false ∨ inService s = false ∨ (isConcourse l = false ∧ inWindow s w = true)) → judgeHeader s w l h = some 0x01)
     ∧ (stopLocked s w = true → inService s = true → (isConcourse l = true ∨ inWindow s w = false) →
       recEnabled (partRec (cfgAt s (tileIn w 0)) (carPart h)) = false → judgeHeader s w l h = some 0x06)
     ∧ (∀ c, let k : CarSetKey := ⟨Fin.ofNat 16 (carPart h), BitVec.ofNat 16 (carSetNum h)⟩
       carSetOf s w k = some c → carKind h ≠ 2 → ∃ d, carSetOf (admitHeader s w h) w k = some d
         ∧ Table.find (d.step (carStep h)).admitted (carIndex h) = some h ∧ d.phase = c.phase
         ∧ ∀ n, n ≠ carStep h → d.step n = c.step n))
  ∧ (∀ (s : State) (w : Wing) (l : LinkEnd) (q : Fin 8) (h : Entry), fromPredecessor s w l = true → carKind h = 1 →
       let k : CarSetKey := ⟨Fin.ofNat 16 (carPart h), BitVec.ofNat 16 (carSetNum h)⟩
       (notTimetabled s w l = true → exec (.abortNoticeReceive w l q h) s = .next (sendAnswer (addCtr s (blkTt w) 0x0130) l q.val 1))
       ∧ (notTimetabled s w l = false →
         let a := sendAnswer (addCtr s (blkTt w) 0x0128) l q.val 0
         let b := (carSetOf a w k).elim a fun c => failCarSet a w c (carCause h) (carOrigin h) false
         (carOrigin h ≠ stopNum s w → exec (.abortNoticeReceive w l q h) s =
           .next (pumpRing (b.modTt w fun t => { t with notices := t.notices ++ [{ key := k, header := h }] }) w))
         ∧ (carOrigin h = stopNum s w → exec (.abortNoticeReceive w l q h) s = .next (pumpRing b w)))
       ∧ (∀ c cause origin own, carSetOf s w k = some c → c.phase = .running → ∃ d,
         carSetOf (failCarSet s w c cause origin own) w k = some d ∧ d.phase = .failed (BitVec.ofNat 16 cause) ∧ d.desc = c.desc
         ∧ (flg (s.tt.get w).failInfo 31 = false → ((failCarSet s w c cause origin own).tt.get w).failInfo =
             pack [(1, 31), (b2n own, 28), (k.part.val, 24), (origin % 256, 16), (cause % 65536, 0)])
         ∧ (∀ i t, taskOf s i = some t → boundTo w k t = true → (∀ z, t.status ≠ .stopping z) →
             ∃ y, taskOf (failCarSet s w c cause origin own) i = some y ∧ y.status = .stopping (BitVec.ofNat 16 cause))))
  ∧ ((∀ (s : State) (l : LinkEnd) (answer : BitVec 16) (h : SentHeader) (hs : List SentHeader),
       linkUp s l = true → (linkOf s l).unanswered = h :: hs →
       let a := ({ s with heldAt := none } : State).modLink l fun k => { k with unanswered := hs }
       (bits answer.toNat 13 11 = h.hseq → bits answer.toNat 15 14 = 2 → (onRefuse a l h.car (bits answer.toNat 7 0)).heldAt = none →
         exec (.carAnswerReceive l answer) s = .next (pumpRing (onRefuse a l h.car (bits answer.toNat 7 0)) (endWing l)))
       ∧ (bits answer.toNat 13 11 = h.hseq → bits answer.toNat 15 14 = 1 → (onAdmit a l h.car).heldAt = none →
         exec (.carAnswerReceive l answer) s = .next (pumpRing (onAdmit a l h.car) (endWing l)))
       ∧ ((bits answer.toNat 13 11 ≠ h.hseq ∨ bits answer.toNat 15 14 ≠ 1 ∧ bits answer.toNat 15 14 ≠ 2) →
         exec (.carAnswerReceive l answer) s = .next { s with heldAt := none }))
     ∧ (∀ (s : State) (l : LinkEnd) (c : SentCar) (x : CarSet), c.kind = 0 → carSetOf s (endWing l) c.key = some x →
       x.phase = .running →
       let a := s.modCarSet (endWing l) c.key fun x => x.setSend c.step c.car .admitted
       (∀ b bs, loadVa a (ringCtx a (endWing l) c.key.part.val) (carVa x.desc c.step c.car) (carBytes x.desc) = (b, .ok bs) →
         onAdmit s l c = (bodyFlits c bs).foldl (fun s b => sendFlit s l b) b)
       ∧ (∀ n t r, Table.find (x.step c.step).sends c.car = some (.offered n t) → r ≠ 4 → r ≠ 5 → r ≠ 6 →
         ∃ d, carSetOf (onRefuse s l c r) (endWing l) c.key = some d ∧ ∃ t', Table.find (d.step c.step).sends c.car = some (.backoff (n + 1) t')
           ∧ (t ≠ none → t' = t) ∧ (inWindow s (endWing l) = true → t' = t)
           ∧ (t = none → inWindow s (endWing l) = false → t' = some (s.tt.get (endWing l)).openTicks)))
     ∧ (∀ (s : State) (w : Wing) (k : CarSetKey) (step : Nat) (car : BitVec 16) (c : CarSet), carSetOf s w k = some c → c.phase = .running →
       (∀ n t, Table.find (c.step step).sends car.toNat = some (.backoff n t) → exec (.carRetryBackoffExpiry w k step car) s =
         .next (pumpRing (s.modCarSet w k fun c => c.setSend step car.toNat (.ready n t)) w))
       ∧ (∀ p, Table.find (c.step step).sends car.toNat = some p →
         (patienceOver s w p = true → exec (.carPatienceExpiry w k step car) s = .next (failHere s w c 0x0301))
         ∧ (patienceOver s w p = false → exec (.carPatienceExpiry w k step car) s = .next s)))
     ∧ ∀ (s : State) (w : Wing) (c : CarSet) (k j n : Nat) (t : Option Nat) (l : LinkEnd) (h : Entry),
       pickMember s w = some l → headerFor s w c k j = some h →
       offerCar w c s (k, j, .ready n t) =
         sendHeader ((if n = 0 then s else addCtr s (blkTt w) 0x0138).modCarSet w c.key fun c => c.setSend k j (.offered n t)) l
           ⟨c.key, k, j, carKind h⟩ h)

/-- R343, R346, R347, R348: the body of an admitted car is stored where its step and index place it, whatever has become of the
car set since, counted when it came after its frame's COMPUTE_SLOT, and kept as received; a body that was not admitted is
discarded, and one that cannot be stored fails the car set. -/
def Obligations.CarBodyStored : Prop :=
  ∀ (s : State) (w : Wing) (k : CarSetKey) (step : Nat) (car : BitVec 16) (body : List Byte) (slot : Fin 16) (c : CarSet),
    carSetOf s w k = some c →
    let a := atSlot { s with heldAt := none } w (tickOf s w).toNat slot.val
    ((Table.find (c.step step).admitted car.toNat = none ∨ body.length ≠ carBytes c.desc) →
      exec (.carBodyReceived w k step car ⟨body, slot⟩) s = .next { s with heldAt := none })
    ∧ (∀ h u e, Table.find (c.step step).admitted car.toNat = some h → body.length = carBytes c.desc →
      saveVa a (ringCtx a w k.part.val) (carVa c.desc step car.toNat) body = (u, some e) → (failBody u w c e).heldAt = none →
        exec (.carBodyReceived w k step car ⟨body, slot⟩) s = .next (failBody u w c e))
    ∧ (∀ h u, Table.find (c.step step).admitted car.toNat = some h → body.length = carBytes c.desc →
      saveVa a (ringCtx a w k.part.val) (carVa c.desc step car.toNat) body = (u, none) →
      ∃ v d, exec (.carBodyReceived w k step car ⟨body, slot⟩) s = .next v ∧ v.mem = u.mem
        ∧ carSetOf v w k = some d ∧ d.phase = c.phase ∧ Table.find (d.step step).received car.toNat = some h
        ∧ Table.find (d.step step).admitted car.toNat = none
        ∧ (let late := 16 * frameTick c.desc step + csComputeSlot c.desc <
              16 * (s.tt.get w).count.toNat + max (s.tt.get w).slot slot.val
           (late → (ctr v (blkTt w) 0x0140).toNat = min (2 ^ 64 - 1) ((ctr s (blkTt w) 0x0140).toNat + 1))
           ∧ (¬ late → ctr v (blkTt w) 0x0140 = ctr s (blkTt w) 0x0140))
        ∧ OnlyChanges [.mem, .frameBytes, .scratch, .poison, .tmem, .power, .tt, .carSets, .ports, .cc, .lnkCtrs, .hifCtrs, .logs, .pages,
            .hostOut, .flitOut, .heldAt] s v)

/-! ### Links -/

/-- R434: a flit that a link end sends carries the CRC that its receiver checks; the flit's fields are those it was made of.
R337, R342, R435, R438, R439: a sequenced flit leaves under the next SEQ, is kept for replay as it was sent and uses one credit
of its class; the oldest answer that waits for a flit goes in its ANSWER field, and a header takes the next HSEQ. Without a
credit, or with 1,024 flits unacknowledged, it waits behind those of its class; in the second case the link sends IDLE flits. -/
def Obligations.FlitsSent : Prop :=
  (∀ (s : State) (l : LinkEnd) (seq : BitVec 12) (nak : Bool) (b : FlitBody), b.type < 16 → b.cls < 8 → b.payload.length ≤ 240 →
     let x := encodeFlit s l seq nak b
     crcGood x = true ∧ fSeq x = seq ∧ fAck x = (linkOf s l).expected - 1 ∧ fType x = b.type ∧ fClass x = b.cls
       ∧ fLen x = b.payload.length ∧ fPayload x = b.payload ∧ fAnswer x = b.answer ∧ fHseq x = b.hseq % 8 ∧ fNak x = nak)
  ∧ (∀ (s : State) (l : LinkEnd) (b : FlitBody), linkUp s l = true → b.type ≠ 3 →
       let k := linkOf s l
       let t := sendFlit s l b
       let x' := linkOf t l
       (credited b.cls = true → Table.get 0 k.credits b.cls = 0 → k.replay.length < 1024 →
         t = s.modLink l fun k => { k with waiting := k.waiting ++ [b] })
       ∧ (1024 ≤ k.replay.length → (∃ y, t.flitOut = s.flitOut ++ [(l, y)] ∧ fType y = 0)
           ∧ x'.waiting = k.waiting ++ [b] ∧ x'.replay = k.replay ∧ x'.nextSeq = k.nextSeq)
       ∧ (k.replay.length < 1024 → (credited b.cls = true → Table.get 0 k.credits b.cls ≠ 0) →
         heldByWindow s l b = false → (∀ y ∈ k.waiting, y.cls ≠ b.cls) →
         ∃ x ys, t.flitOut = s.flitOut ++ (l, x) :: ys ∧ (k.replay.length + 1 < 1024 → ys = [])
           ∧ x'.nextSeq = k.nextSeq + 1
           ∧ (∃ y, x'.replay = k.replay ++ [y] ∧ y.seq = k.nextSeq ∧ y.image = x ∧ y.replays = 0 ∧ y.body.type = b.type ∧ y.body.cls = b.cls)
           ∧ (credited b.cls = true → Table.get 0 x'.credits b.cls = Table.get 0 k.credits b.cls - 1)
           ∧ (b.cls < 8 → b.type < 16 → b.payload.length ≤ 240 → fSeq x = k.nextSeq ∧ fType x = b.type
               ∧ fAnswer x = (if b.answer = 0 then k.answers.head?.getD 0 else b.answer)
               ∧ (b.type = 2 → b.resent = false → fHseq x = k.nextHseq % 8))
           ∧ x'.answers = (if b.answer = 0 then k.answers.drop 1 else k.answers)
           ∧ x'.waiting = k.waiting ∧ x'.expected = k.expected
           ∧ (∀ m, m ≠ l → linkOf t m = linkOf s m)))

/-- R433, R434, R436, R440, R443, R444, R460: a flit that arrives: the next one in sequence is delivered once and SEQ x
advances; one after a gap is discarded and a NAK sent, unless one is already out; one already received is discarded. A flit lost
to its CRC or uncorrectable is counted and answered with a NAK; a flit that R433 does not permit makes the link retrain.
Corrected symbols are counted. A link in training takes TRAIN flits alone, and one that is neither up nor in training takes
nothing. R435, R436, R437: a NAK frees the flits that its ACK covers and has every other unacknowledged flit resent in SEQ
order, and so has an ACK that does not come; a resent flit is the one that was sent, but for a TIME flit's COUNT. A port's flit
that has been replayed LNK_REPLAY_MAX times makes the port retrain, one of the Concourse's replayed more often takes it down. A
NAK of ours that brought no flit is sent again. -/
def Obligations.FlitsReceivedAndReplayed : Prop :=
  (∀ (s : State) (l : LinkEnd) (x : Flit) (lane : Fin 9) (n : Nat),
     let h := countCorrected s l n
     let a : State := { h with heldAt := none }
     let record : BitVec 256 := BitVec.ofNat 256 (leNat (fPayload x))
     (∀ w p, l = .port w p →
       (ctr h (blkLnk w) (portCtr p.val 0x20)).toNat = min (2 ^ 64 - 1) ((ctr s (blkLnk w) (portCtr p.val 0x20)).toNat + n))
     ∧ (∀ un, linkUp s l = false → endState s l ≠ .training → exec (.flitReceive l x un ⟨lane, n⟩) s = .next s)
     ∧ (∀ un, endState s l = .training →
       let train := un = false ∧ crcGood x = true ∧ flitPermitted l x = true ∧ fType x = 1
       (train → exec (.flitReceive l x un ⟨lane, n⟩) s = .next (echoRequest h l record))
       ∧ (¬ train → exec (.flitReceive l x un ⟨lane, n⟩) s = .next h))
     ∧ (∀ un, linkUp s l = true → (un = true ∨ crcGood x = false) → exec (.flitReceive l x un ⟨lane, n⟩) s = .next (loseFlit h l un lane.val))
     ∧ (linkUp s l = true → crcGood x = true →
       (flitPermitted l x = false → exec (.flitReceive l x false ⟨lane, n⟩) s = .next (protocolError a l))
       ∧ (flitPermitted l x = true → sequenced (fType x) = false → (useHeader a l x).heldAt = none →
           exec (.flitReceive l x false ⟨lane, n⟩) s =
             .next (if fType x = 1 then echoRequest (useHeader a l x) l record else useHeader a l x))
       ∧ (flitPermitted l x = true → sequenced (fType x) = true →
         (fSeq x = (linkOf s l).expected → fAnswer x = 0 → fNak x = false → ∃ u, exec (.flitReceive l x false ⟨lane, n⟩) s = .next u
           ∧ (linkOf u l).expected = (linkOf s l).expected + 1 ∧ (linkOf u l).nakOut = false
           ∧ (linkOf u l).delivered = (linkOf s l).delivered ++ [(fType x, fPayload x)]
           ∧ (∀ m, m ≠ l → (linkOf u m).expected = (linkOf s m).expected ∧ (linkOf u m).delivered = (linkOf s m).delivered)
           ∧ OnlyChanges [.ports, .cc, .lnkCtrs, .tt, .carSets, .hifCtrs, .logs, .pages, .hostOut, .flitOut, .heldAt] s u)
         ∧ (fSeq x = (linkOf s l).expected → (useHeader (deliverFlit a l x) l x).heldAt = none →
           exec (.flitReceive l x false ⟨lane, n⟩) s = .next (useHeader (deliverFlit a l x) l x))
         ∧ (fSeq x ≠ (linkOf s l).expected → seqAfter (fSeq x) (linkOf s l).expected = true →
           exec (.flitReceive l x false ⟨lane, n⟩) s = .next (sendNak a l))
         ∧ (fSeq x ≠ (linkOf s l).expected → seqAfter (fSeq x) (linkOf s l).expected = false →
           exec (.flitReceive l x false ⟨lane, n⟩) s = .next a)))
     ∧ ((linkOf s l).nakOut = true → sendNak s l = s)
     ∧ ((linkOf s l).nakOut = false → (linkOf (sendNak s l) l).nakOut = true
         ∧ ∃ y, (sendNak s l).flitOut = s.flitOut ++ [(l, y)] ∧ fNak y = true ∧ fType y = 0))
  ∧ (∀ (s : State) (l : LinkEnd) (ack : BitVec 12), linkUp s l = true →
       (∀ row ∈ [(Instr.nakReceive l ack, (linkOf s l).replay.filter fun x => seqAfter x.seq ack), (.ackTimeoutReplay l, (linkOf s l).replay)],
         (row.2 = [] → ∃ u, exec row.1 s = .next u ∧ u.flitOut = s.flitOut ∧ (linkOf u l).replay = [] ∧ OnlyChanges [.ports, .cc] s u)
         ∧ (row.2 ≠ [] → (∀ x ∈ row.2, x.replays + 1 < dictVal s 0x4025 0) → ∃ u : State, exec row.1 s = .next u
           ∧ (linkOf u l).replay = row.2.map (replayFlit s l)
           ∧ u.flitOut = s.flitOut ++ row.2.map (fun x => (l, (replayFlit s l x).image))
           ∧ (linkOf u l).nextSeq = (linkOf s l).nextSeq ∧ (linkOf u l).expected = (linkOf s l).expected
           ∧ (∀ m, m ≠ l → linkOf u m = linkOf s m)
           ∧ OnlyChanges [.ports, .cc, .lnkCtrs, .hifCtrs, .logs, .pages, .hostOut, .flitOut] s u)
         ∧ (∀ w p, l = .port w p → (∃ x ∈ row.2, dictVal s 0x4025 0 ≤ x.replays + 1) →
           ∃ u, exec row.1 s = .next u ∧ (portOf u w p.val).state = .training ∧ (portOf u w p.val).kept = true)
         ∧ (∀ w, l = .concourse w → (∃ x ∈ row.2, dictVal s 0x4025 0 < x.replays + 1) → ∃ u, exec row.1 s = .next u ∧ u.cc.state = .down))
       ∧ (∀ x, x.body.type ≠ 4 → replayFlit s l x = { x with replays := x.replays + 1 })
       ∧ ((linkOf s l).nakOut = true → ∃ u y, exec (.nakResendTimeout l) s = .next u ∧ u.flitOut = s.flitOut ++ [(l, y)]
           ∧ (linkOf u l).nakOut = true ∧ OnlyChanges [.ports, .cc, .lnkCtrs, .hifCtrs, .logs, .pages, .hostOut, .flitOut] s u)
       ∧ ((linkOf s l).nakOut = false → exec (.nakResendTimeout l) s = .next s))

/-- R440, R442, R446, R447: a port that loses its signal while Up, or in a retrain from it, goes Dark, keeps its sequence state
and sends IDLE flits; an attempt from Down ends. When the signal returns, training begins with that state from Dark and without
it from Down. A training that fails falls back a generation once where step 3 fails and the previous one is allowed, and
otherwise waits for its retry; a port in Down with signal trains again too. R430, R442, R443, R446, R458: a training that ends
with at least four common lanes, a common generation and two nodes that differ brings the port Up with what was agreed, its
partner and the latency of its echoes; both ends start at SEQ 0. With too few lanes or no common generation the attempt fails;
without node numbers the port stays in training; a port joined to its own module is reported. In each case the port has sent its
record. R441, R444, R445, R447, R457: a retired lane leaves an Up port, which goes Down below four lanes; WIDEN lets retired
lanes join again (which of them come through is free, assumption log 79), and RETRAIN starts a training that keeps the sequence
state; a Dark port goes Down at the dark limit outside windows. Register writes for the West wing are lost, and counted, while
the Concourse is down. -/
def Obligations.PortsTrain : Prop :=
  (∀ (s : State) (w : Wing) (p : Fin 6),
     let x := portOf s w p.val
     let fresh := beginTraining (s.modPort w p.val fun x =>
       { x with state := .training, kept := false, signal := true, retry := false, fallback := false }) w p
     ((x.state = .up ∨ (x.state = .training ∧ x.kept = true)) → ∃ u y rest, exec (.portSignalLoss w p) s = .next u
       ∧ { portOf u w p.val with link := x.link } = { x with
           state := .dark, signal := false, retry := false, leftUp := if x.state = .up then (tickOf s w).toNat else x.leftUp }
       ∧ u.flitOut = s.flitOut ++ (.port w p, y) :: rest ∧ fType y = 0
       ∧ (∀ v q, portNum v q ≠ portNum w p.val → { portOf u v q with link := {} } = { portOf s v q with link := {} })
       ∧ OnlyChanges [.ports, .cc, .tt, .carSets, .lnkCtrs, .hifCtrs, .logs, .pages, .hostOut, .flitOut] s u)
     ∧ (x.state = .training → x.kept = false → exec (.portSignalLoss w p) s =
       .next (s.modPort w p.val fun x => { x with state := .down, signal := false, retry := false }))
     ∧ (fabricOn s = true → genAllow s w p.val ≠ 0 →
       (x.state = .dark → exec (.portSignalReturn w p) s = .next (addCtr (beginTraining (s.modPort w p.val fun x =>
           { x with state := .training, kept := true, signal := true, retry := false, fallback := false }) w p) (blkLnk w)
             (portCtr p.val 0x38)))
       ∧ ((x.state = .down ∨ x.state = .disabled) → exec (.portSignalReturn w p) s = .next fresh))
     ∧ ((fabricOn s = false ∨ genAllow s w p.val = 0) → exec (.portSignalReturn w p) s = .next s)
     ∧ (∀ step : Fin 7, x.state = .training → x.retry = false →
       ((step.val = 3 ∧ genAllow s w p.val = 3 ∧ x.fallback = false) → exec (.portTrainingFail w p step) s =
         .next (s.modPort w p.val fun x => { x with fallback := true }))
       ∧ (¬ (step.val = 3 ∧ genAllow s w p.val = 3 ∧ x.fallback = false) → exec (.portTrainingFail w p step) s =
         .next (s.modPort w p.val fun x => { x with retry := true, fallback := false })))
     ∧ (x.signal = true → genAllow s w p.val ≠ 0 →
       (x.state = .training → x.retry = true → exec (.portTrainingRetry w p) s =
         .next (beginTraining (s.modPort w p.val fun x => { x with retry := false }) w p))
       ∧ (x.state = .down → fabricOn s = true → exec (.portTrainingRetry w p) s = .next fresh)))
  ∧ (∀ (s : State) (w : Wing) (p : Fin 6) (r : BitVec 256) (lanes : BitVec 8) (fb : Bool) (es : List Echo),
       let x := portOf s w p.val
       let both := lanes &&& trLanes r
       let gen := agreedGen (genAllow s w p.val) (trAllow r) (fb || x.fallback)
       let told := sendTrain s (.port w p) (trainRecord s w p lanes 4 0 0 false)
       x.state = .training → x.signal = true → x.retry = false →
       ((dictVal s 0x4020 0 = 0xFFFF ∨ trNode r = 0xFFFF) → exec (.portTrainingDone w p r lanes fb es) s = .next told)
       ∧ (dictVal s 0x4020 0 ≠ 0xFFFF → trNode r ≠ 0xFFFF →
         (trNode r = dictVal s 0x4020 0 → exec (.portTrainingDone w p r lanes fb es) s =
           .next (raise told 0x0315 (portNum w p.val) (blkLnk w)))
         ∧ (trNode r ≠ dictVal s 0x4020 0 →
           ((gen = 0 ∨ (popcount 8 both.toNat < 4 ∧ x.kept = false)) → exec (.portTrainingDone w p r lanes fb es) s =
             .next (told.modPort w p.val fun x => { x with retry := true, fallback := false }))
           ∧ (gen ≠ 0 → popcount 8 both.toNat < 4 → x.kept = true →
             exec (.portTrainingDone w p r lanes fb es) s = .next (portDown told w p .down))
           ∧ (gen ≠ 0 → 4 ≤ popcount 8 both.toNat → ∃ u, exec (.portTrainingDone w p r lanes fb es) s = .next u
             ∧ { portOf u w p.val with link := x.link } = { x with
                 state := .up, gen := gen, fallback := (gen == 1 && (fb || x.fallback)), lanes := both, retired := 0, kept := false
                 retry := false, peer := peerImage r, peerKnown := true, lat := oneWay es, laneErrs := [] }
             ∧ (linkOf u (.port w p)).expected = 0 ∧ (linkOf u (.port w p)).delivered = x.link.delivered
             ∧ (∀ v q, portNum v q ≠ portNum w p.val → { portOf u v q with link := {} } = { portOf s v q with link := {} })
             ∧ OnlyChanges [.ports, .cc, .tt, .carSets, .lnkCtrs, .hifCtrs, .logs, .pages, .hostOut, .flitOut] s u))))
  ∧ (∀ (s : State) (w : Wing) (p : Fin 6),
       let x := portOf s w p.val
       (∀ lane : Fin 8, let m : BitVec 8 := BitVec.ofNat 8 (2 ^ lane.val)
         ((x.state ≠ .up ∨ x.lanes &&& m = 0) → exec (.laneRetire w p lane) s = .next s)
         ∧ (x.state = .up → x.lanes &&& m ≠ 0 → 4 ≤ popcount 8 (x.lanes &&& ~~~m).toNat → ∃ u, exec (.laneRetire w p lane) s = .next u
           ∧ { portOf u w p.val with link := x.link } = { x with
               lanes := x.lanes &&& ~~~m, retired := x.retired ||| m, laneErrs := Table.erase x.laneErrs lane.val }
           ∧ (ctr u (blkLnk w) (portCtr p.val 0x30)).toNat = min (2 ^ 64 - 1) ((ctr s (blkLnk w) (portCtr p.val 0x30)).toNat + 1)
           ∧ (∃ y, u.flitOut = s.flitOut ++ [(.port w p, y)] ∧ fType y = 1)
           ∧ (∀ v q, portNum v q ≠ portNum w p.val → portOf u v q = portOf s v q)
           ∧ OnlyChanges [.ports, .lnkCtrs, .hifCtrs, .logs, .pages, .hostOut, .flitOut] s u)
         ∧ (x.state = .up → x.lanes &&& m ≠ 0 → popcount 8 (x.lanes &&& ~~~m).toNat < 4 → ∃ u, exec (.laneRetire w p lane) s = .next u
           ∧ (portOf u w p.val).state = .down ∧ (portOf u w p.val).lanes = 0 ∧ (portOf u w p.val).kept = false))
       ∧ (hostReaches s .pf0 = true → (w = .east ∨ concourseUp s = true) → x.state = .up →
         (∃ u, exec (.widen w p) s = .next u
           ∧ { portOf u w p.val with link := x.link, lanes := x.lanes, retired := x.retired } = x
           ∧ (portOf u w p.val).lanes ||| (portOf u w p.val).retired = x.lanes ||| x.retired
           ∧ x.lanes &&& (portOf u w p.val).lanes = x.lanes
           ∧ (x.retired = 0 → u = s)
           ∧ OnlyChanges [.ports, .lnkCtrs, .hifCtrs, .logs, .pages, .hostOut, .flitOut, .freeCtr] s u)
         ∧ ∃ u, exec (.retrain w p) s = .next u ∧ (portOf u w p.val).state = .training ∧ (portOf u w p.val).kept = true)
       ∧ (hostReaches s .pf0 = true → w = .west → concourseUp s = false →
         exec (.widen w p) s = .next (addCtr s (blkLnk .east) 0x0928) ∧ exec (.retrain w p) s = .next (addCtr s (blkLnk .east) 0x0928))
       ∧ (inWindow s w = false → x.state = .dark →
         exec (.darkLimitExpiry w p) s = .next (portDown s w p .down) ∧ (portOf (portDown s w p .down) w p.val).state = .down)
       ∧ ((inWindow s w = true ∨ x.state ≠ .dark) → exec (.darkLimitExpiry w p) s = .next s))

/-- R454, R455, R459: a bundle that is retired is replaced by the spare where there is one; below eight bundles the module is
LIMITED with reason 1, and without any the Concourse is down. When it falls, every car set that was armed or running fails with
cause 0x0306, a task either goes on or is stopped with that cause, the module has reason 2, and both wings count it. When its
training is done it is up over the bundles that trained, and what West kept goes on its way. -/
def Obligations.ConcourseBundles : Prop :=
  (∀ (s : State) (b : Fin 9), s.cc.state = .up → s.cc.bundles.getLsbD b.val = true →
    let m : BitVec 9 := BitVec.ofNat 9 (2 ^ b.val)
    let left := s.cc.bundles &&& ~~~m
    let heir := (List.range 9).find? fun i => (~~~(s.cc.bundles ||| s.cc.retired) &&& ~~~m).getLsbD i
    let now := match heir with
      | some i => left ||| BitVec.ofNat 9 (2 ^ i)
      | none => left
    let a := { s with cc := { s.cc with bundles := now, retired := s.cc.retired ||| m, bundleErrs := Table.erase s.cc.bundleErrs b.val } }
    let c := raise (addCtr (addCtr a (blkLnk .east) 0x0918) (blkLnk .west) 0x0918) 0x0316 b.val (blkLnk .east)
    (now ≠ 0 → 8 ≤ popcount 9 now.toNat → exec (.bundleRetire b) s = .next c)
    ∧ (now ≠ 0 → popcount 9 now.toNat < 8 → exec (.bundleRetire b) s = .next (setReason c 1))
    ∧ (now = 0 → exec (.bundleRetire b) s = .next (concourseFalls c)))
  ∧ (∀ (s : State), s.cc.state ≠ .up → s.cc.state ≠ .training → exec .concourseDown s = .next s)
  ∧ (∀ (s : State), (s.cc.state = .up ∨ s.cc.state = .training) → s.cst.state ≠ .service → (∀ w, ((s.carSets.get w).map (·.key)).Nodup) →
    ∃ u, exec .concourseDown s = .next u
    ∧ u.cc.state = .down ∧ u.cc.bundles = 0 ∧ u.cst.limitedReasons = s.cst.limitedReasons ||| 4
    ∧ (∀ w, (ctr u (blkLnk w) 0x0920).toNat = min (2 ^ 64 - 1) ((ctr s (blkLnk w) 0x0920).toNat + 1))
    ∧ (∀ w k c, carSetOf s w k = some c → ∃ d, carSetOf u w k = some d ∧ d.desc = c.desc
        ∧ d.phase = (if c.phase = .armed ∨ c.phase = .running then .failed 0x0306 else c.phase))
    ∧ (∀ i t, taskOf s i = some t → ∃ y, taskOf u i = some y ∧ (y.status = t.status ∨ y.status = .stopping 0x0306))
    ∧ (∀ w q, (portOf u w q).state = (portOf s w q).state) ∧ u.mem = s.mem)
  ∧ ∀ (s : State) (bundles : BitVec 9), fabricOn s = true → s.cc.state ≠ .up → bundles ≠ 0 → popcount 9 bundles.toNat ≤ 8 →
    s.cst.state ≠ .service → s.cst.state ≠ .limited → ∃ u, exec (.concourseRetrainDone bundles) s = .next u
      ∧ u.cc.state = .up ∧ u.cc.bundles = bundles ∧ u.cc.retired = 0 ∧ u.cc.doorbells = [] ∧ u.hif.logs.westEvents = []
      ∧ u.hif.logs.westLog = [] ∧ u.cst.limitedReasons.getLsbD 2 = false
      ∧ u.cst.limitedReasons.getLsbD 1 = decide (popcount 9 bundles.toNat ≠ 8) ∧ u.cst.state = s.cst.state
      ∧ u.hif.logs.clogSeq = s.hif.logs.clogSeq + BitVec.ofNat 32 s.hif.logs.westLog.length

/-! ### Upkeep -/

/-- R450, R554, R555: an owned calibration slot is taken when it is not needed in the foreground, yielded when enough owned
slots are left, and forced, and then counted, when no more are left than units. A taken slot is one unit of the item done; the
period's last owned slot starts the item afresh. A latency item that is taken sends its requests and brings the port's latency
up to date from their echoes. R546, R549, R554, R556: in an owned scrub slot of a pseudo-channel with its calibration done and
no row repair, that is taken, the scrub pass reads its next location; a corrected burst is counted, and enough distinct ones of
one row start its repair; the end of a pass is counted. A row repair goes first, one unit a slot, and its last unit ends it.
R550, R551: the granules of a retired pseudo-channel move one by one; an address of it is served in the reserve once its granule
has moved, and where it was before then; every target lies in the reserve. When all have moved the migration is done, and the
frames whose write-backs waited for it are free. -/
def Obligations.UpkeepSlots : Prop :=
  ((∀ (s : State) (t : Tile) (pc : Fin 512) (fg : Bool) (left : Nat), memoryUp s = true → 2 ≤ left →
     Table.canonical {} (s.tmem.get t).cal = true →
     let i := itemOf (s.tmem.get t).cal pc.val
     ∃ u, exec (.calibrationSlot (.pseudoChannel t pc) fg left) s = .next u
       ∧ (i.done < 32 → fg = false → itemOf (u.tmem.get t).cal pc.val = { i with done := i.done + 1 } ∧ u.hif = s.hif)
       ∧ ((32 ≤ i.done ∨ (fg = true ∧ 32 - i.done < left)) → itemOf (u.tmem.get t).cal pc.val = i ∧ u.hif = s.hif)
       ∧ (i.done < 32 → fg = true → left ≤ 32 - i.done →
           itemOf (u.tmem.get t).cal pc.val = { done := i.done + 1, forcedSeen := true }
           ∧ (ctr u (blkMem t) 0x0150).toNat = min (2 ^ 64 - 1) ((ctr s (blkMem t) 0x0150).toNat + 1))
       ∧ (∀ k, k ≠ pc.val → itemOf (u.tmem.get t).cal k = itemOf (s.tmem.get t).cal k)
       ∧ OnlyChanges [.tmem, .power, .hifCtrs, .logs, .pages, .hostOut] s u)
   ∧ (∀ (s : State) (w : Wing) (p : Fin 6) (lane : Fin 8) (es : List Echo) (fg : Bool) (left : Nat), slotsScheduled s w = true → 1 ≤ left →
     linkUp s (.port w p) = true →
     ((portOf s w p.val).lanes.getLsbD lane.val = true →
       exec (.calibrationSlot (.lane w p lane) fg left) s = .next (calPort s w p lane.val lane.val fg left).1)
     ∧ ((portOf s w p.val).lanes.getLsbD lane.val = false → exec (.calibrationSlot (.lane w p lane) fg left) s = .next s)
     ∧ ((itemOf (portOf s w p.val).cal 8).done = 0 → (fg = false ∨ left = 1) → ∃ u,
       exec (.calibrationSlot (.latency w p es) fg left) s = .next u ∧ (portOf u w p.val).lat = oneWay es
       ∧ (portOf u w p.val).state = .up ∧ (∀ v q, portNum v q ≠ portNum w p.val → portOf u v q = portOf s v q)
       ∧ (fg = true → (ctr u (blkLnk w) (portCtr p.val 0x50)).toNat = min (2 ^ 64 - 1) ((ctr s (blkLnk w) (portCtr p.val 0x50)).toNat + 1))
       ∧ OnlyChanges [.ports, .lnkCtrs, .hifCtrs, .logs, .pages, .hostOut, .flitOut] s u))
   ∧ ∀ (s : State) (b : Fin 9) (fg : Bool) (left : Nat), 1 ≤ left → slotsScheduled s .east = true → slotsScheduled s .west = true →
     concourseUp s = true → s.cc.bundles.getLsbD b.val = true →
       exec (.calibrationSlot (.bundle b) fg left) s = .next (calBundle s b.val fg left)
       ∧ OnlyChanges [.cc, .lnkCtrs, .hifCtrs, .logs, .pages, .hostOut] s (calBundle s b.val fg left))
  ∧ (∀ (s : State) (t : Tile) (pc : Fin 512) (left : Nat) (f : ScrubFinding), memoryUp s = true → 2 ≤ left →
       calUnits ≤ (itemOf (s.tmem.get t).cal pc.val).done →
       let i := itemOf (s.tmem.get t).scrub pc.val
       (repairOf s t pc.val = none → i.done < scrubUnits → (f = .clean ∨ f = .correctable) → ∃ u,
         exec (.scrubSlot t pc false left f) s = .next u
         ∧ itemOf (u.tmem.get t).scrub pc.val = { i with done := i.done + 1 }
         ∧ (f = .clean → i.done + 1 < scrubUnits → u.hif = s.hif ∧ (u.tmem.get t).ctrs = (s.tmem.get t).ctrs
             ∧ (u.tmem.get t).repairs = (s.tmem.get t).repairs)
         ∧ (f = .correctable → (ctr u (blkMem t) 0x0138).toNat = min (2 ^ 64 - 1) ((ctr s (blkMem t) 0x0138).toNat + 1)
             ∧ (let seen := insertSorted (Table.get [] (s.tmem.get t).rowCe (rowKey pc.val (i.done / 4))) (4 * i.done)
                (seen.length = dictVal s 0x3031 0 → ∃ r ∈ (u.tmem.get t).repairs, r.pc = pc.val ∧ r.row = i.done / 4)
                ∧ (seen.length ≠ dictVal s 0x3031 0 → (u.tmem.get t).repairs = (s.tmem.get t).repairs)))
         ∧ (i.done + 1 = scrubUnits →
             (ctr u (blkMem t) 0x0148).toNat = min (2 ^ 64 - 1) ((ctr s (blkMem t) 0x0148).toNat + 1))
         ∧ OnlyChanges [.tmem, .power, .hifCtrs, .logs, .pages, .hostOut] s u)
       ∧ (∀ r, repairOf s t pc.val = some r → f = .clean → ∃ u, exec (.scrubSlot t pc false left f) s = .next u
         ∧ (2 ≤ r.unitsLeft → repairOf u t pc.val = some { r with unitsLeft := r.unitsLeft - 1 })
         ∧ (r.unitsLeft = 1 → (∀ x ∈ (u.tmem.get t).repairs, ¬ (x.pc = r.pc ∧ x.row = r.row))
             ∧ (ctr u (blkMem t) 0x0140).toNat = min (2 ^ 64 - 1) ((ctr s (blkMem t) 0x0140).toNat + 1))
         ∧ (u.tmem.get t).scrub = (s.tmem.get t).scrub
         ∧ OnlyChanges [.tmem, .power, .hifCtrs, .logs, .pages, .hostOut] s u))
  ∧ (∀ (s : State) (t : Tile),
       ((s.tmem.get t).moving = true → (s.tmem.get t).movePos < 4186112 → ∃ u, exec (.migrationGranuleMoved t) s = .next u
         ∧ (u.tmem.get t).movePos = (s.tmem.get t).movePos + 1 ∧ (u.tmem.get t).moving = true
         ∧ (∀ f ∈ (u.tmem.get t).frames, f ∈ (s.tmem.get t).frames)
         ∧ (∀ f ∈ (s.tmem.get t).frames, f.2.stuck = none → f ∈ (u.tmem.get t).frames)
         ∧ (∀ k, k ≠ t → u.tmem.get k = s.tmem.get k) ∧ OnlyChanges [.tmem] s u)
       ∧ ((s.tmem.get t).moving = false → exec (.migrationGranuleMoved t) s = .next s ∧ exec (.migrationDone t) s = .next s)
       ∧ ((s.tmem.get t).moving = true → (s.tmem.get t).movePos = 4186112 → ∃ u, exec (.migrationDone t) s = .next u
         ∧ (u.tmem.get t).moving = false ∧ (u.tmem.get t).used = true ∧ (u.tmem.get t).retiredPc = (s.tmem.get t).retiredPc
         ∧ (∀ f, f ∈ (u.tmem.get t).frames ↔ f ∈ (s.tmem.get t).frames ∧ f.2.stuck ≠ some (s.tmem.get t).retiredPc)
         ∧ OnlyChanges [.tmem, .hifCtrs, .logs, .pages, .hostOut] s u)
       ∧ (∀ a, isStacked a = true → homeTile a = t → (s.tmem.get t).used = false → (s.tmem.get t).moving = true →
           let n := (a - regionBase t) / 131072
           (pcOf a ≠ (s.tmem.get t).retiredPc → servedAt s a = a)
           ∧ (pcOf a = (s.tmem.get t).retiredPc → (s.tmem.get t).movePos ≤ n → servedAt s a = a)
           ∧ (pcOf a = (s.tmem.get t).retiredPc → n < (s.tmem.get t).movePos → servedAt s a = migrationTarget t (pcOf a) n + a % 256))
       ∧ (∀ r n i, r < 512 → n < 4186112 → i < 256 →
           reserveBase t ≤ migrationTarget t r n + i ∧ migrationTarget t r n + i < reserveBase t + 2 ^ 30))

/-- R547, R552, R553: a core that is due begins its test and reads STATE 0b11; one that passes is in service, the words that its
test had corrected counted in SCH_ONCHIP_CE; one that fails is spared where its column's spare is free, and retired otherwise; a
spare that passed carries the position, its memories zeroed, and is counted. R547: an uncorrectable error of an on-chip memory
is reported and counted in SCH_OC_UE, and the task whose access met it is stopped with cause 0x020B; a core in service begins
its test. -/
def Obligations.CoresAndMemoriesTested : Prop :=
  (∀ (s : State) (t : Tile) (n : Fin 336),
     (coreTestDue s t n.val = true → ∃ u, exec (.coreTest t n) s = .next u ∧ coreStateOf u t n.val = 3
       ∧ (∀ k, k ≠ n.val → coreStateOf u t k = coreStateOf s t k)
       ∧ (ctr u (blkSch t) 0x0718).toNat = min (2 ^ 64 - 1) ((ctr s (blkSch t) 0x0718).toNat + 1)
       ∧ OnlyChanges [.sch, .hifCtrs, .logs, .pages, .hostOut] s u)
     ∧ (coreTestDue s t n.val = false → exec (.coreTest t n) s = .next s)
     ∧ (coreStateOf s t n.val = 3 → Table.canonical 0 (s.sch.get t).coreState = true → ∀ words, ∃ u,
       exec (.coreTestPass t ⟨n, words⟩) s = .next u
       ∧ coreStateOf u t n.val = 0 ∧ (∀ k, k ≠ n.val → coreStateOf u t k = coreStateOf s t k)
       ∧ (ctr u (blkSch t) 0x0700).toNat = min (2 ^ 64 - 1) ((ctr s (blkSch t) 0x0700).toNat + words)
       ∧ OnlyChanges [.sch, .hifCtrs, .logs, .pages, .hostOut] s u)
     ∧ (coreStateOf s t n.val = 3 → n.val ∉ (s.sch.get t).sparing →
       (spareUsed s t n.val = false → ∃ u, exec (.coreTestFail t n) s = .next u ∧ coreStateOf u t n.val = 1
         ∧ (u.sch.get t).sparing = (s.sch.get t).sparing ++ [n.val] ∧ OnlyChanges [.sch, .power] s u)
       ∧ (spareUsed s t n.val = true → exec (.coreTestFail t n) s = .next (retireCore (setCoreState s t n.val 1) t n.val)))
     ∧ (n.val ∈ (s.sch.get t).sparing → exec (.coreTestFail t n) s = .next (retireCore (addCtr s (blkSch t) 0x0718) t n.val))
     ∧ (s.cst.state ≠ .service → coreStateOf (retireCore s t n.val) t n.val = 2
         ∧ (retireCore s t n.val).cst.limitedReasons = s.cst.limitedReasons ||| 1
         ∧ n.val ∉ ((retireCore s t n.val).sch.get t).sparing)
     ∧ (n.val ∈ (s.sch.get t).sparing → memCanonical s.mem = true → Table.canonical 0 (s.sch.get t).coreState = true →
       ∃ u, exec (.coreSpared t n) s = .next u ∧ coreStateOf u t n.val = 0 ∧ n.val ∉ (u.sch.get t).sparing
         ∧ Table.find (u.sch.get t).onSpare n.val = some 21
         ∧ (∀ a, memByte u.mem a = if windowBase (coreIndex t n.val) ≤ a ∧ a < windowBase (coreIndex t n.val) + 0x2C0000 then 0
             else memByte s.mem a)
         ∧ (ctr u (blkSch t) 0x0710).toNat = min (2 ^ 64 - 1) ((ctr s (blkSch t) 0x0710).toNat + 1)
         ∧ OnlyChanges [.sch, .scratch, .poison, .hifCtrs, .logs, .pages, .hostOut] s u))
  ∧ (∀ (s : State) (t : Tile) (n : Fin 336) (id : Nat) (x : Task), mainUp s = true → taskOf s id = some x → (∀ c, x.status ≠ .stopping c) →
       (coreStateOf s t n.val ≠ 2 → ∃ u, exec (.onchipUncorrectable (.core t n) id) s = .next u
         ∧ taskOf u id = some { x with status := .stopping 0x020B }
         ∧ (∀ i, i ≠ id → taskOf u i = taskOf s i)
         ∧ (ctr u (blkSch t) 0x0708).toNat = min (2 ^ 64 - 1) ((ctr s (blkSch t) 0x0708).toNat + 1)
         ∧ coreStateOf u t n.val = (if coreStateOf s t n.val = 0 then 3 else coreStateOf s t n.val)
         ∧ OnlyChanges [.sch, .tasks, .hifCtrs, .logs, .pages, .hostOut] s u)
       ∧ (coreStateOf s t n.val = 2 → exec (.onchipUncorrectable (.core t n) id) s = .next s)
       ∧ (∃ u, exec (.onchipUncorrectable (.windowBuffer t) id) s = .next u
         ∧ taskOf u id = some { x with status := .stopping 0x020B }
         ∧ (ctr u (blkSch t) 0x0708).toNat = min (2 ^ 64 - 1) ((ctr s (blkSch t) 0x0708).toNat + 1)
         ∧ (u.sch.get t).coreState = (s.sch.get t).coreState
         ∧ OnlyChanges [.sch, .tasks, .hifCtrs, .logs, .pages, .hostOut] s u))

/-! ### Collectives -/

/-- R399, R414, R422, R142: a collective that fails at a wing closes its context, which releases its registrations, and stops
its member's task with the cause; the first failure since FAULT_CLR is captured. The other contexts stay. Memory does not
change, and an abort that finds no context only drops the messages held back for it. R402, R415: the root declares a live member
lost, once JN_WAIT_LIMIT ticks have passed, for want of its count message, of its answer to a data request, or of a link of its
route; a member declares the root lost that long after the last message: the collective fails with cause 0x0401 and the loss is
counted. Otherwise nothing happens. R395, R416: a notice of a loss clears the member's bit in the live mask of a resilient group
and of no other group, and counts a re-form; every bit that was clear stays clear. A group without RESILIENT, and a loss already
known, change nothing. -/
def Obligations.CollectivesFail : Prop :=
  (∀ (s : State) (w : Wing) (k : CollKey) (cause : BitVec 16),
     (collOf s w k = none → exec (.jnAbortMessage w k cause) s = .next (dropHeld s w k))
     ∧ (∀ c id x, collOf s w k = some c → c.task = some id → taskOf s id = some x → (∀ d, x.status ≠ .stopping d) →
       ∃ u, exec (.jnAbortMessage w k cause) s = .next u
         ∧ ((∀ m ∈ (s.jn.get w).held, m.key ≠ k) → collOf u w k = none)
         ∧ (∀ j d, j ≠ k → collOf s w j = some d → collOf u w j = some d)
         ∧ taskOf u id = some { x with status := .stopping cause } ∧ (∀ i, i ≠ id → taskOf u i = taskOf s i)
         ∧ (flg (s.jn.get w).faultInfo 31 = false → cause.toNat / 256 = 4 →
             (u.jn.get w).faultInfo = pack [(1, 31), (k.group.toNat, 16), (cause.toNat, 0)] ∧ (u.jn.get w).faultSeq = k.seq)
         ∧ (flg (s.jn.get w).faultInfo 31 = true →
             (u.jn.get w).faultInfo = (s.jn.get w).faultInfo ∧ (u.jn.get w).faultSeq = (s.jn.get w).faultSeq)
         ∧ OnlyChanges [.tasks, .jn, .hifCtrs, .logs, .pages, .hostOut] s u))
  ∧ (∀ (s : State) (w : Wing) (k : CollKey) (c : Coll) (id : Nat) (t : Task),
       collOf s w k = some c → c.task = some id → taskOf s id = some t → t.status = .running → (∀ h ∈ (s.jn.get w).held, h.key ≠ k) →
       (∀ m : Fin 255, c.role = .root → m.val ∈ liveOf t → m.val ≠ cbSelf t.body →
         (memberLost s w c t m.val = true → ∃ u, exec (.jnWaitLimitExpiry w k (.member m)) s = .next u
           ∧ collOf u w k = none ∧ taskOf u id = some { t with status := .stopping 0x0401 }
           ∧ (ctr u (blkJn w) 0x0120).toNat = min (2 ^ 64 - 1) ((ctr s (blkJn w) 0x0120).toNat + 1)
           ∧ OnlyChanges [.tasks, .jn, .hifCtrs, .logs, .pages, .hostOut] s u)
         ∧ (memberLost s w c t m.val = false → exec (.jnWaitLimitExpiry w k (.member m)) s = .next s)
         ∧ (c.n = none → Table.find c.arrivals m.val = none →
             (memberLost s w c t m.val = true ↔ firstArrival c + dictVal s 0x4030 0 ≤ (tickOf s w).toNat))
         ∧ (∀ a, c.n = none → Table.find c.arrivals m.val = some a → memberLost s w c t m.val = false)
         ∧ (∀ a, c.n ≠ none → Table.find c.asked m.val = some a → a + dictVal s 0x4030 0 ≤ (tickOf s w).toNat →
             memberLost s w c t m.val = true)
         ∧ (∀ recs, c.n ≠ none → liveRecs s w t = .ok recs → (∀ a, Table.find c.asked m.val = some a →
             (tickOf s w).toNat < a + dictVal s 0x4030 0) → (memberLost s w c t m.val = true ↔
               ∃ e ∈ routeEdges s w (cbGroup t.body) (cbSelf t.body) recs c.direct m.val, linkLost s w recs e = true)))
       ∧ (c.role = .member →
         (c.since + dictVal s 0x4030 0 ≤ (tickOf s w).toNat → ∃ u, exec (.jnWaitLimitExpiry w k .root) s = .next u
           ∧ collOf u w k = none ∧ taskOf u id = some { t with status := .stopping 0x0401 }
           ∧ (ctr u (blkJn w) 0x0120).toNat = min (2 ^ 64 - 1) ((ctr s (blkJn w) 0x0120).toNat + 1)
           ∧ OnlyChanges [.tasks, .jn, .hifCtrs, .logs, .pages, .hostOut] s u)
         ∧ ((tickOf s w).toNat < c.since + dictVal s 0x4030 0 → exec (.jnWaitLimitExpiry w k .root) s = .next s)))
  ∧ (∀ (s : State) (w : Wing) (g : BitVec 8) (m : Fin 255),
       let e := groupNow s w g.toNat
       ((geValid e = false ∨ geResilient e = false ∨ geCount e ≤ m.val ∨ m.val ∈ Table.get [] (s.jn.get w).gone g.toNat) →
         exec (.jnLossNotice w g m) s = .next s)
       ∧ (geValid e = true → geResilient e = true → m.val < geCount e → m.val ∉ Table.get [] (s.jn.get w).gone g.toNat →
         ∃ u, exec (.jnLossNotice w g m) s = .next u
           ∧ m.val ∈ Table.get [] (u.jn.get w).lost g.toNat ∧ m.val ∈ Table.get [] (u.jn.get w).gone g.toNat
           ∧ (∀ i ∈ Table.get [] (s.jn.get w).lost g.toNat, i ∈ Table.get [] (u.jn.get w).lost g.toNat)
           ∧ (∀ h, h ≠ g.toNat → Table.get [] (u.jn.get w).lost h = Table.get [] (s.jn.get w).lost h)
           ∧ (u.jn.get (otherWing w)).lost = (s.jn.get (otherWing w)).lost
           ∧ (ctr u (blkJn w) 0x0128).toNat = min (2 ^ 64 - 1) ((ctr s (blkJn w) 0x0128).toNat + 1)
           ∧ OnlyChanges [.jn, .hifCtrs, .logs, .pages, .hostOut] s u))

/-- R399, R400, R401, R404, R418: a count message of a live member that agrees with the group and the operation is recorded with
its tick; one that disagrees fails the collective with cause 0x0404. With the last one the root sets N: a capacity below N fails
it with cause 0x0405, a malformed tree with 0x0407; with N = 0 the collective commits with ZERO_WORK, and otherwise its data
phase begins. The slowest member is noted and counted. A message for a root without a context is held back; one on its way opens
a relay's context. -/
def Obligations.CountMessagesReachTheRoot : Prop :=
  (∀ (s : State) (w : Wing) (k : CollKey) (m : Fin 255) (sig count cap : Word32) (p : Nat) (c : Coll) (id : Nat) (t : Task)
    (entry : Nat),
    s.heldAt = none → collOf s w k = some c → c.role = .root → c.n = none → c.task = some id → taskOf s id = some t →
    t.id = id → t.status = .running → m.val ∈ liveOf t → Table.find c.arrivals m.val = none →
    collGroup (hideRegs s w) t = .ok entry → (∀ h ∈ (s.jn.get w).held, h.key ≠ k) →
    let e := Instr.jnCountMessage w ⟨k, false⟩ m sig count cap p
    let a : Arrival := { tick := (tickOf s w).toNat, signature := sig, count := count.toNat, capacity := cap.toNat, partials := p }
    let x : Coll := { c with arrivals := Table.insert c.arrivals m.val a }
    let z := s.modColl w k fun c => { c with arrivals := Table.insert c.arrivals m.val a }
    (countAgrees t entry a = false → exec e s = .next (failColl s w k 0x0404))
    ∧ (countAgrees t entry a = true → allReported t x = false → ∃ u, exec e s = .next u
        ∧ collOf u w k = some x ∧ (∀ j, j ≠ k → collOf u w j = collOf s w j) ∧ OnlyChanges [.jn] s u)
    ∧ (countAgrees t entry a = true → allReported t x = true → capacityShort t x (resultLen t x) = true →
        exec e s = .next (failColl z w k 0x0405))
    ∧ (∀ recs, countAgrees t entry a = true → allReported t x = true → capacityShort t x (resultLen t x) = false →
        collGroup (hideRegs z w) t = .ok entry → liveRecs z w t = .ok recs →
        (treeOk z w (cbGroup t.body) recs = false → exec e s = .next (failColl z w k 0x0407))
        ∧ (treeOk z w (cbGroup t.body) recs = true → cbReport t.body = 0 → resultLen t x = 0 → (lastMember x).1 < 255 →
          ∃ u, exec e s = .next u
            ∧ collOf u w k = none
            ∧ taskOf u id = some { t with work := .coll true, flags := noFlags, zeroWork := true }
            ∧ (u.jn.get w).slowInfo = pack [(1, 31), (k.group.toNat, 16), ((lastMember x).1, 0)]
            ∧ (u.jn.get w).slowLag = BitVec.ofNat 32 (min ((lastMember x).2 - firstArrival x) (2 ^ 32 - 1))
            ∧ (ctr u (blkJn w) (0x1000 + 8 * (lastMember x).1)).toNat
                = min (2 ^ 64 - 1) ((ctr s (blkJn w) (0x1000 + 8 * (lastMember x).1)).toNat + 1)
            ∧ (ctr u (blkJn w) 0x0100).toNat = min (2 ^ 64 - 1) ((ctr s (blkJn w) 0x0100).toNat + 1)
            ∧ OnlyChanges [.jn, .tasks, .hifCtrs, .logs, .pages, .hostOut] s u)
        ∧ (∀ v, treeOk z w (cbGroup t.body) recs = true → cbReport t.body = 0 → resultLen t x ≠ 0 →
          registerPages ((noteSlow z w k x).modColl w k fun c =>
            { c with n := some (resultLen t x), direct := directOk (noteSlow z w k x) w (cbSelf t.body) recs
                     lane := ((noteSlow z w k x).jn.get w).laneSel, rpos := recs.map fun r => (r.1, mrRpos r.2)
                     since := (tickOf s w).toNat }) w t k = .ok v →
          (rootData v w t k (resultLen t x)).heldAt = none → exec e s = .next (rootData v w t k (resultLen t x)))))
  ∧ ∀ (s : State) (w : Wing) (k : CollKey) (m : Fin 255) (sig count cap : Word32) (p : Nat), s.heldAt = none → collOf s w k = none →
      exec (.jnCountMessage w ⟨k, false⟩ m sig count cap p) s =
        .next (holdBack s w (.count k m.val { tick := 0, signature := sig, count := count.toNat, capacity := cap.toNat, partials := p }))
      ∧ (contextFree s w = false → exec (.jnCountMessage w ⟨k, true⟩ m sig count cap p) s = .next (holdBack s w (.passing k false)))
      ∧ (contextFree s w = true → ∃ u, exec (.jnCountMessage w ⟨k, true⟩ m sig count cap p) s = .next u
        ∧ (∃ c, collOf u w k = some c ∧ c.role = .relay ∧ c.task = none) ∧ (u.jn.get w).ctxs.length = (s.jn.get w).ctxs.length + 1
        ∧ (∀ j, j ≠ k → collOf u w j = collOf s w j) ∧ OnlyChanges [.jn] s u)

/-- R401, R410, R412, R413: what a member's Junction does with the root's messages. A go message with N = 0 commits the
collective; with another N it registers the pages of the member's partials and of its destination. A rerun message starts the
member's part afresh, once. The completion token releases the registrations and commits the member's task with the token's
flags, once every chunk of a broadcast has been written; a relay's context closes. -/
def Obligations.MembersFollowTheRoot : Prop :=
  ∀ (s : State) (w : Wing) (k : CollKey) (c : Coll) (n : Word32),
    s.heldAt = none → collOf s w k = some c → (∀ h ∈ (s.jn.get w).held, h.key ≠ k) →
    (∀ id t, c.task = some id → taskOf s id = some t → t.id = id → c.role = .member →
      let z := s.modColl w k fun c => { c with n := some n.toNat, since := (tickOf s w).toNat }
      (∀ pass, c.n = none → t.status = .running → n = 0 → ∃ u, exec (.jnGoMessage w ⟨k, pass⟩ n) s = .next u ∧ collOf u w k = none
          ∧ taskOf u id = some { t with work := .coll true, flags := noFlags, zeroWork := true }
          ∧ (ctr u (blkJn w) 0x0100).toNat = min (2 ^ 64 - 1) ((ctr s (blkJn w) 0x0100).toNat + 1)
          ∧ OnlyChanges [.tasks, .jn, .hifCtrs, .logs, .pages, .hostOut] s u)
      ∧ (∀ pass a b, c.n = none → t.status = .running → n ≠ 0 → physPages z (taskCtx z t) (partialRanges t) = .ok a →
          physPages z (taskCtx z t) (collDest t) = .ok b → ∃ u, exec (.jnGoMessage w ⟨k, pass⟩ n) s = .next u
            ∧ collOf u w k = some { c with n := some n.toNat, since := (tickOf s w).toNat, retained := a, provisional := b }
            ∧ (∀ j, j ≠ k → collOf u w j = collOf s w j) ∧ OnlyChanges [.jn] s u)
      ∧ (c.n ≠ none → t.status = .running → c.rerun = false → ∃ u, exec (.jnRerunMessage w k) s = .next u
          ∧ collOf u w k = some { c with rerun := true, chunk := 0, since := (tickOf s w).toNat }
          ∧ (∀ j, j ≠ k → collOf u w j = collOf s w j) ∧ OnlyChanges [.jn] s u)
      ∧ (c.n ≠ none → c.rerun = true → exec (.jnRerunMessage w k) s = .next s)
      ∧ (∀ fl, c.n = some n.toNat → (c.broadcast = false ∨ n.toNat ≤ c.chunk * 262144) →
          ∃ u, exec (.jnCompletionToken w k n fl) s = .next u ∧ collOf u w k = none
            ∧ (∀ j d, j ≠ k → collOf s w j = some d → collOf u w j = some d)
            ∧ taskOf u id = some { t with work := .coll true, flags := fl, zeroWork := n.toNat == 0 }
            ∧ (∀ i, i ≠ id → taskOf u i = taskOf s i)
            ∧ (ctr u (blkJn w) 0x0100).toNat = min (2 ^ 64 - 1) ((ctr s (blkJn w) 0x0100).toNat + 1)
            ∧ OnlyChanges [.tasks, .jn, .hifCtrs, .logs, .pages, .hostOut] s u)
      ∧ (∀ fl, c.n = some n.toNat → c.broadcast = true → c.chunk * 262144 < n.toNat →
          exec (.jnCompletionToken w k n fl) s = .next s))
    ∧ (∀ fl, c.role = .relay → ∃ u, exec (.jnCompletionToken w k n fl) s = .next u ∧ collOf u w k = none
        ∧ (∀ j d, j ≠ k → collOf s w j = some d → collOf u w j = some d) ∧ OnlyChanges [.jn, .hifCtrs, .logs, .pages, .hostOut] s u)

/-- R399, R403, R405, R406, R408, R410: chunks that arrive. At the root of a reduce a chunk that was requested takes a slot, and
what is next in key order is added; a residue failure starts the rerun on the other lane, and a second one ends the collective
with cause 0x0402. At the receiver of a broadcast a chunk is written at its place in DST, and forwarded where it passes on.
Elsewhere a relay forwards and counts it, its context opening with the first, or holds it back. R401, R406, R407: adding a
partial onto the accumulator gives, element by element, the sum in the data's format where both have an element, and the one
element there is where only one has it. -/
def Obligations.ChunksArrive : Prop :=
  (∀ (s : State) (w : Wing) (k : CollKey) (m : Fin 255) (core : BitVec 16) (chunk : Nat) (data : List Byte),
     s.heldAt = none →
     (∀ c id t n a bad, collOf s w k = some c → c.task = some id → taskOf s id = some t → t.id = id → t.status = .running →
       c.role = .root → c.n = some n → c.broadcast = false → Table.find c.arrivals m.val = some a →
       let e := Instr.jnChunkArrival w ⟨k, false⟩ m core chunk data bad
       let x : Coll := { c with waiting := c.waiting ++ [(m.val, core.toNat, chunk, data)], since := (tickOf s w).toNat }
       let r := addParts w t n (addFuel t x n) (s.modColl w k fun _ => x) x 0
       (wasAsked s w t c m.val a core.toNat chunk = false → exec e s = .next s)
       ∧ (wasAsked s w t c m.val a core.toNat chunk = true →
         (∀ v y added, r = (v, .ok (y, added)) → (bad = false ∨ added = 0) → (settleRoot v w t k n y (some m.val)).heldAt = none →
           exec e s = .next (settleRoot v w t k n y (some m.val)))
         ∧ (∀ v err, r = (v, .error err) → (failCollAcc v w k t.part err).heldAt = none →
           exec e s = .next (failCollAcc v w k t.part err))
         ∧ (∀ v y added, r = (v, .ok (y, added)) → bad = true → added ≠ 0 → y.rerun = false → y.key = k → y.n = some n →
           chunkCount t n ≠ 0 → (collOf v w k).isSome = true → v.heldAt = none → ∃ u d, exec e s = .next u
             ∧ collOf u w k = some d ∧ d.rerun = true ∧ d.lane = !y.lane ∧ d.chunk = 0 ∧ d.waiting = [] ∧ d.acc = none
             ∧ d.flags = noFlags ∧ d.n = y.n ∧ d.arrivals = y.arrivals
             ∧ (u.jn.get w).laneFailed = (v.jn.get w).laneFailed ||| (if y.lane then 2 else 1)
             ∧ (ctr u (blkJn w) 0x0110).toNat = min (2 ^ 64 - 1) ((ctr v (blkJn w) 0x0110).toNat + 1)
             ∧ (ctr u (blkJn w) 0x0118).toNat = min (2 ^ 64 - 1) ((ctr v (blkJn w) 0x0118).toNat + 1)
             ∧ OnlyChanges [.jn, .hifCtrs, .logs, .pages, .hostOut] v u)
         ∧ (∀ v y added, r = (v, .ok (y, added)) → bad = true → added ≠ 0 → y.rerun = true → y.task = some id → y.key = k →
           (collOf v w k).isSome = true → taskOf v id = some t → v.heldAt = none → (∀ h ∈ (v.jn.get w).held, h.key ≠ k) → ∃ u,
             exec e s = .next u ∧ collOf u w k = none ∧ taskOf u id = some { t with status := .stopping 0x0402 }
             ∧ (ctr u (blkJn w) 0x0110).toNat = min (2 ^ 64 - 1) ((ctr v (blkJn w) 0x0110).toNat + 1)
             ∧ OnlyChanges [.tasks, .jn, .hifCtrs, .logs, .pages, .hostOut] v u)))
     ∧ (∀ c id t n v bad pass, collOf s w k = some c → c.task = some id → taskOf s id = some t → t.status = .running → c.role = .member →
         c.n = some n → c.broadcast = true → chunk = c.chunk → chunk * 262144 < n →
         chunkSave (if pass then addCtr s (blkJn w) 0x0108 else s) w t chunk (cbDst t.body + chunk * 262144)
           (data.take (n - chunk * 262144)) = (v, none) → v.heldAt = none →
           exec (.jnChunkArrival w ⟨k, pass⟩ m core chunk data bad) s
             = .next (v.modColl w k fun c => { c with chunk := c.chunk + 1, since := (tickOf v w).toNat }))
     ∧ (∀ bad, collOf s w k = none → exec (.jnChunkArrival w ⟨k, false⟩ m core chunk data bad) s = .next s)
     ∧ (∀ bad, collOf s w k = none → contextFree s w = false →
         exec (.jnChunkArrival w ⟨k, true⟩ m core chunk data bad) s = .next (holdBack s w (.passing k true)))
     ∧ (∀ bad, collOf s w k = none → contextFree s w = true → ∃ u, exec (.jnChunkArrival w ⟨k, true⟩ m core chunk data bad) s = .next u
         ∧ (∃ c, collOf u w k = some c ∧ c.role = .relay ∧ c.task = none) ∧ (u.jn.get w).ctxs.length = (s.jn.get w).ctxs.length + 1
         ∧ (ctr u (blkJn w) 0x0108).toNat = min (2 ^ 64 - 1) ((ctr s (blkJn w) 0x0108).toNat + 1)
         ∧ OnlyChanges [.jn, .hifCtrs, .logs, .pages, .hostOut] s u)
     ∧ (∀ c bad, collOf s w k = some c → c.role = .relay → c.task = none → ∃ u,
         exec (.jnChunkArrival w ⟨k, true⟩ m core chunk data bad) s = .next u
         ∧ (u.jn.get w).ctxs = (s.jn.get w).ctxs
         ∧ (ctr u (blkJn w) 0x0108).toNat = min (2 ^ 64 - 1) ((ctr s (blkJn w) 0x0108).toNat + 1)
         ∧ OnlyChanges [.jn, .hifCtrs, .logs, .pages, .hostOut] s u))
  ∧ (∀ (fmt : Nat) (xs ys : List Nat) (i : Nat),
       (addChunk fmt xs ys).1.length = max xs.length ys.length
         ∧ (i < xs.length → i < ys.length → nth 0 (addChunk fmt xs ys).1 i = (addCode fmt (nth 0 xs i) (nth 0 ys i)).1)
         ∧ (xs.length ≤ i → nth 0 (addChunk fmt xs ys).1 i = nth 0 ys i)
         ∧ (ys.length ≤ i → nth 0 (addChunk fmt xs ys).1 i = nth 0 xs i))

/-- R416: notices of two losses clear the same bits of a group in whichever order they arrive. -/
def Obligations.LossOrderDoesNotMatter : Prop :=
  ∀ (s : State) (w : Wing) (g : BitVec 8) (a b : Fin 255) (x y u v : State) (i : Nat),
    exec (.jnLossNotice w g a) s = .next x → exec (.jnLossNotice w g b) x = .next u →
    exec (.jnLossNotice w g b) s = .next y → exec (.jnLossNotice w g a) y = .next v →
      (i ∈ Table.get [] (u.jn.get w).lost g.toNat ↔ i ∈ Table.get [] (v.jn.get w).lost g.toNat)

/-! ### Registers -/

/-- R94, R158, R357, R558, R569, R455: the reads of the host that have an effect. A read of SCH_RETIRE_LO takes the queue's
oldest entry and latches its other fields; a read of a statistics counter's low word latches its high word on the host's path,
one of TT_COUNT_LO latches TT_COUNT_HI, and one of word 0 of the cause-log entry latches the other seven. The high words then
read as latched. With the Concourse down a register of the West wing reads all ones. -/
def Obligations.ReadsWithAnEffect : Prop :=
  ∀ (s : State), hostReaches s .pf0 = true →
    (∀ t : Tile, (wingOf t = .east ∨ concourseUp s = true) → ∃ u, exec (.retireQueueRead t) s = .next u
        ∧ u.readData = leBytes 4 (((s.sch.get t).retireQ.head?.map (·.num.toNat)).getD 0)
        ∧ (u.sch.get t).retireQ = (s.sch.get t).retireQ.tail
        ∧ (u.sch.get t).retireHi = (((s.sch.get t).retireQ.head?.map fun r =>
            pack [(1, 31), (r.struct, 24), (r.part, 20), (r.inst, 0)]).getD 0)
        ∧ regRead u (blockTarget (blkSch t) 0x0114) = (u.sch.get t).retireHi
        ∧ (∀ k, k ≠ t → u.sch.get k = s.sch.get k) ∧ OnlyChanges [.sch, .readOut] s u)
    ∧ (∀ (b : Fin 26) (off : BitVec 24), (blockWing b.val = .east ∨ concourseUp s = true) → isCounter b.val off.toNat = true →
        ∃ u, exec (.counterLoRead b off) s = .next u
          ∧ u.readData = leBytes 4 (ctr s b.val off.toNat).toNat
          ∧ u.hiHost.toNat = (ctr s b.val off.toNat).toNat / 2 ^ 32 ∧ u.hiCst = s.hiCst
          ∧ regRead u (.block b (off + 4)) = u.hiHost
          ∧ OnlyChanges [.latches, .readOut] s u)
    ∧ (∀ w : Wing, (w = .east ∨ concourseUp s = true) → ∃ u, exec (.ttCountLoRead w) s = .next u
        ∧ u.readData = leBytes 4 (tickOf s w).toNat
        ∧ (regRead u (blockTarget (blkTt w) 0x000C)).toNat = (tickOf s w).toNat / 2 ^ 32
        ∧ tickOf u w = tickOf s w ∧ u.tt.get (otherWing w) = s.tt.get (otherWing w) ∧ OnlyChanges [.tt, .readOut] s u)
    ∧ (∃ u, exec .clogEntryRead s = .next u
        ∧ u.readData = leBytes 4 (Table.get 0 s.hif.logs.clog s.hif.logs.clogSel).toNat
        ∧ (∀ w, 1 ≤ w → w < 8 → regRead u (blockTarget blkHif (BitVec.ofNat 24 (0x0310 + 4 * w)))
            = BitVec.ofNat 32 ((Table.get 0 s.hif.logs.clog s.hif.logs.clogSel).toNat / 2 ^ (32 * w)))
        ∧ OnlyChanges [.logs, .readOut] s u)
    ∧ (concourseUp s = false → ∀ row ∈ [Instr.retireQueueRead .w0, .retireQueueRead .w1, .counterLoRead (Fin.ofNat 26 2) 0x0120,
          .counterLoRead (Fin.ofNat 26 18) 0x0100, .counterLoRead (Fin.ofNat 26 24) 0x1000, .ttCountLoRead .west],
        exec row s = .next { s with readData := [0xFF, 0xFF, 0xFF, 0xFF], readPoison := false })

/-- R126, R188, R212, R261: MEM_CTL and the Stationmaster's control registers of loops, streams and chains read 0. Each of their
bits, written 1 by the host, clears the capture registers it names, and written 0 does nothing; the other bits do nothing. -/
def Obligations.StationmasterControls : Prop :=
  ∀ (s : State) (t : Tile) (v : Word32),
    regRead s (blockTarget (blkMem t) 0) = 0 ∧ regRead s (blockTarget (blkSch t) 0x0300) = 0
    ∧ regRead s (blockTarget (blkSch t) 0x0400) = 0 ∧ regRead s (blockTarget (blkSch t) 0x0500) = 0
    ∧ (hostReaches s .pf0 = true → (wingOf t = .east ∨ concourseUp s = true) →
      exec (.registerWrite (blockTarget (blkMem t) 0) v) s = .next (if v.getLsbD 0 then
          s.modMem t fun m => { m with faultInfo := 0, faultLo := 0, faultHi := 0 } else s)
      ∧ exec (.registerWrite (blockTarget (blkSch t) 0x0300) v) s = .next (if v.getLsbD 0 then
          s.modSch t fun x => { x with shapeFirst := 0, shapeRt := 0, shapePlan := 0 } else s)
      ∧ exec (.registerWrite (blockTarget (blkSch t) 0x0400) v) s = .next (s.modSch t fun x =>
          { x with dlInfo := if v.getLsbD 1 then 0 else x.dlInfo, dlTag := if v.getLsbD 1 then 0 else x.dlTag
                   stallInfo := if v.getLsbD 0 then 0 else x.stallInfo, stallTag := if v.getLsbD 0 then 0 else x.stallTag })
      ∧ exec (.registerWrite (blockTarget (blkSch t) 0x0500) v) s = .next (if v.getLsbD 0 then
          s.modSch t fun x => { x with heldInfo := 0, heldNeed := 0 } else s))

/-- R316, R355, R386, R420: PW_CTL, TT_CTL and CAT_CTL read 0, and JN_CTL reads LANE, which is 0 at reset and as last written,
in bit 2. Each of their other bits, written 1 by the host, clears what it names: the capture registers of the Porter, the
Timetable, the Catalogue and the Junction, the failed lanes, and every look-aside entry. Written 0 it does nothing; the other
bits do nothing. -/
def Obligations.UnitControls : Prop :=
  (∀ (s : State) (t : Tile) (w : Wing), regRead s (blockTarget (blkPw t) 0) = 0 ∧ regRead s (blockTarget (blkTt w) 0) = 0
    ∧ regRead s (blockTarget (blkCat t) 0) = 0
    ∧ regRead s (blockTarget (blkJn w) 0) = (if (s.jn.get w).laneSel then 4 else 0)
    ∧ regRead State.reset (blockTarget (blkJn w) 0) = 0)
  ∧ (∀ (s : State) (t : Tile) (v : Word32), hostReaches s .pf0 = true → (wingOf t = .east ∨ concourseUp s = true) →
    exec (.registerWrite (blockTarget (blkCat t) 0) v) s = .next (if v.getLsbD 0 then
        s.modCat t fun x => { x with faultInfo := 0, faultId := 0 } else s)
    ∧ ∃ u, exec (.registerWrite (blockTarget (blkPw t) 0) v) s = .next u
        ∧ (u.porter.get t).lab = (if v.getLsbD 1 then [] else (s.porter.get t).lab)
        ∧ (u.porter.get t).faultInfo = (if v.getLsbD 0 then 0 else (s.porter.get t).faultInfo)
        ∧ (u.porter.get t).faultSeq = (if v.getLsbD 0 then 0 else (s.porter.get t).faultSeq)
        ∧ (u.porter.get t).faultPos = (if v.getLsbD 0 then 0 else (s.porter.get t).faultPos)
        ∧ (∀ k, k ≠ t → u.porter.get k = s.porter.get k)
        ∧ OnlyChanges [.porter, .hifCtrs, .logs, .pages, .hostOut] s u)
  ∧ ∀ (s : State) (w : Wing) (v : Word32), hostReaches s .pf0 = true → (w = .east ∨ concourseUp s = true) →
    exec (.registerWrite (blockTarget (blkTt w) 0) v) s = .next (if v.getLsbD 0 then
        s.modTt w fun x => { x with failInfo := 0, failSet := 0 } else s)
    ∧ exec (.registerWrite (blockTarget (blkJn w) 0) v) s = .next (s.modJn w fun j =>
        { j with laneSel := v.getLsbD 2, laneFailed := if v.getLsbD 1 then 0 else j.laneFailed
                 faultInfo := if v.getLsbD 0 then 0 else j.faultInfo, faultSeq := if v.getLsbD 0 then 0 else j.faultSeq })

/-- R94, R126, R188, R212, R261, R298, R316, R355, R386, R420, R455: the commands that write one such bit act on it alone; so do
the bits of a core's SCH_MEMCTL, which clear its SCH_LAT_MAX, and its SCH_CONF_FIRST with every SCH_BANK_CONF counter of the
core. With the Concourse down, a write of the West wing is lost and counted. R569, R562: an enable of the event queue that is
not enabled writes SIZE_LOG2 first; with it in 4 to 12 and no reserved bit of the base, the queue is enabled with its tail 0 and
its phase 1; otherwise ENABLE stays 0 and CFG_ERR is set. On an enabled queue nothing changes. R11, R467, R468, R472, R488,
R569: what the host writes to a register of its own it reads back in the bits the register has; ring bases and the event queue's
size hold while the ring or the queue is enabled; a bit that is written 1 to clear is cleared; a VF's page is out of reach while
VF Enable is 0. -/
def Obligations.RegisterWrites : Prop :=
  (∀ (s : State), hostReaches s .pf0 = true →
     (∀ (t : Tile) (n : Fin 336), (wingOf t = .east ∨ concourseUp s = true) →
       exec (.memFaultClr t) s = .next (s.modMem t fun m => { m with faultInfo := 0, faultLo := 0, faultHi := 0 })
       ∧ exec (.shapeClr t) s = .next (s.modSch t fun x => { x with shapeFirst := 0, shapeRt := 0, shapePlan := 0 })
       ∧ exec (.dlClr t) s = .next (s.modSch t fun x => { x with dlInfo := 0, dlTag := 0 })
       ∧ exec (.stallClr t) s = .next (s.modSch t fun x => { x with stallInfo := 0, stallTag := 0 })
       ∧ exec (.heldClr t) s = .next (s.modSch t fun x => { x with heldInfo := 0, heldNeed := 0 })
       ∧ exec (.pwFaultClr t) s = .next (s.modPorter t fun x => { x with faultInfo := 0, faultSeq := 0, faultPos := 0 })
       ∧ exec (.catFaultClr t) s = .next (s.modCat t fun x => { x with faultInfo := 0, faultId := 0 })
       ∧ (∃ u, exec (.labFlush t) s = .next u ∧ (u.porter.get t).lab = []
           ∧ (ctr u (blkPw t) 0x0218).toNat = min (2 ^ 64 - 1) ((ctr s (blkPw t) 0x0218).toNat + (s.porter.get t).lab.length)
           ∧ OnlyChanges [.porter, .hifCtrs, .logs, .pages, .hostOut] s u)
       ∧ (∃ u, exec (.latClr t n) s = .next u ∧ Table.get 0 (u.sch.get t).latMax n.val = 0
           ∧ u = s.modSch t fun x => { x with latMax := Table.erase x.latMax n.val })
       ∧ (∃ u, exec (.confClr t n) s = .next u ∧ Table.get 0 (u.sch.get t).confFirst n.val = 0
           ∧ (∀ b, b < 40 → ctr u (blkSch t) (coreBlock n.val + 0x100 + 8 * b) = 0)
           ∧ (u.sch.get t).latMax = (s.sch.get t).latMax ∧ OnlyChanges [.sch] s u))
     ∧ (∀ w : Wing, (w = .east ∨ concourseUp s = true) →
       exec (.failClr w) s = .next (s.modTt w fun x => { x with failInfo := 0, failSet := 0 })
       ∧ exec (.laneClr w) s = .next (s.modJn w fun j => { j with laneFailed := 0 })
       ∧ exec (.jnFaultClr w) s = .next (s.modJn w fun j => { j with faultInfo := 0, faultSeq := 0 }))
     ∧ (concourseUp s = false → ∀ row ∈ [Instr.memFaultClr .w0, .shapeClr .w0, .dlClr .w1, .stallClr .w1, .heldClr .w0, .labFlush .w0,
           .pwFaultClr .w1, .catFaultClr .w0, .latClr .w0 0, .confClr .w1 335, .failClr .west, .laneClr .west, .jnFaultClr .west],
         exec row s = .next (addCtr s (blkLnk .east) 0x0928)))
  ∧ (∀ (s : State) (v : Word32), hostReaches s .pf0 = true →
       (s.hif.logs.evqEnable = false → s.hif.logs.evqBase.toNat % 4096 = 0 → 4 ≤ fld v 19 16 → fld v 19 16 ≤ 12 →
         exec (.eventQueueEnable v) s = .next (s.modLogs fun l =>
           { l with evqSize := fld v 19 16, evqEnable := true, evqTail := 0, evqPhase := true, cfgErr := false }))
       ∧ (s.hif.logs.evqEnable = false → (s.hif.logs.evqBase.toNat % 4096 ≠ 0 ∨ fld v 19 16 < 4 ∨ 12 < fld v 19 16) →
         exec (.eventQueueEnable v) s = .next (s.modLogs fun l => { l with evqSize := fld v 19 16, cfgErr := true }))
       ∧ (s.hif.logs.evqEnable = true → exec (.eventQueueEnable v) s = .next s))
  ∧ (∀ (s : State) (f : Func) (v : Word32) (r : Fin 64),
       (hostReaches s f = false → ∀ o, exec (.registerWrite (.page f o) v) s = .next s)
       ∧ (hostReaches s f = true →
         (∃ u, exec (.registerWrite (.page f 0x2008) v) s = .next u ∧ regRead u (.page f 0x2008) = v &&& 0xFFFF0000
           ∧ regRead u (.page f 0x200C) = regRead s (.page f 0x200C) ∧ OnlyChanges [.pages] s u)
         ∧ (∃ u, exec (.registerWrite (.page f 0x200C) v) s = .next u ∧ regRead u (.page f 0x200C) = v
           ∧ regRead u (.page f 0x2008) = regRead s (.page f 0x2008) ∧ OnlyChanges [.pages] s u)
         ∧ (f ≠ .pf0 → ∃ u, exec (.registerWrite (.page f 0x2010) v) s = .next u ∧ regRead u (.page f 0x2010) = v &&& 0xFFFF0000
           ∧ regRead u (.page f 0x2014) = regRead s (.page f 0x2014) ∧ OnlyChanges [.pages] s u)
         ∧ (hasRing f r.val = true → (ringOf s f r.val).enabled = false →
             (∃ u, exec (.registerWrite (.page f (BitVec.ofNat 16 (0x1008 + 0x40 * r.val))) v) s = .next u
               ∧ regRead u (.page f (BitVec.ofNat 16 (0x1008 + 0x40 * r.val))) = v &&& 0xFFFFF000 ∧ OnlyChanges [.rings] s u)
             ∧ (∃ u, exec (.registerWrite (.page f (BitVec.ofNat 16 (0x1014 + 0x40 * r.val))) v) s = .next u
               ∧ regRead u (.page f (BitVec.ofNat 16 (0x1014 + 0x40 * r.val))) = v ∧ OnlyChanges [.rings] s u))
         ∧ (hasRing f r.val = true → (ringOf s f r.val).enabled = true →
             ∃ u, exec (.registerWrite (.page f (BitVec.ofNat 16 (0x1008 + 0x40 * r.val))) v) s = .next u
               ∧ ringOf u f r.val = ringOf s f r.val ∧ OnlyChanges [.rings] s u)
         ∧ (hasRing f r.val = true →
             ∃ u, exec (.registerWrite (.page f (BitVec.ofNat 16 (0x1018 + 0x40 * r.val))) v) s = .next u
               ∧ regRead u (.page f (BitVec.ofNat 16 (0x1018 + 0x40 * r.val))) = v &&& 0x87FFFFFF ∧ OnlyChanges [.rings] s u))
       ∧ (hostReaches s .pf0 = true →
         (∃ u, exec (.registerWrite (blockTarget blkHif 0x0304) v) s = .next u ∧ regRead u (blockTarget blkHif 0x0304) = v &&& 0xFF
           ∧ OnlyChanges [.logs] s u)
         ∧ (∃ u, exec (.registerWrite (blockTarget blkHif 0x020C) v) s = .next u ∧ regRead u (blockTarget blkHif 0x020C) = v &&& 0xFFF
           ∧ OnlyChanges [.logs] s u)
         ∧ (v.getLsbD 31 = true →
             exec (.registerWrite (blockTarget blkHif 0x0210) v) s = .next (s.modLogs fun l => { l with ovf := false }))
         ∧ (v.getLsbD 31 = false → exec (.registerWrite (blockTarget blkHif 0x0210) v) s = .next s)
         ∧ (∀ o, exec (.registerWrite (blockTarget blkCst o) v) s = .next s)))

/-! ### The Custodian -/

/-- R495, R499, R500, R501: a READ frame on an idle path is answered by REFUSE with its reason, by VALUE where the value fits
one frame, and otherwise by READ_INIT with the length and the first segment. R491, R492, R495, R499, R500: a WRITE frame on an
idle path that is refused answers REFUSE with its reason and changes no entry; one that is accepted gives the entry the bytes
written, leaves every other entry and the store, and is answered by DONE. An entry that is not defined, that may not be written,
that is rws outside SHUNT, of another length, or out of its range is refused. -/
def Obligations.DictionaryReadAndWritten : Prop :=
  (∀ (s : State) (fd : CanFormat) (i j k : Byte), s.power.inputPower = true → s.cst.queue = [] →
     let index := i.toNat + 256 * j.toNat
     let sub := k.toNat
     let v := dictRead s index sub
     let answer (frames : List (List Byte)) (x : Option Transfer) : State :=
       { s with cst := { s.cst with canXfer := x }
                canOut := s.canOut ++ frames.map fun b => { ident := 0x300 + s.cst.node, bytes := b, fd := fd } }
     (∀ c, accessReason s index sub false = some c →
         exec (.dapRead fd [0xC1, i, j, k] false) s = .next (answer [[0xC7, i, j, k] ++ leBytes 2 c] none))
     ∧ (∀ e, accessReason s index sub false = none → dictEntry index sub = some e → e.type.size.isSome = true → v.length ≤ expedited fd →
         exec (.dapRead fd [0xC1, i, j, k] false) s = .next (answer [[BitVec.ofNat 8 (0x40 + v.length), i, j, k] ++ v] none))
     ∧ (∀ e, accessReason s index sub false = none → dictEntry index sub = some e → (e.type.size = none ∨ expedited fd < v.length) → v ≠ [] →
         exec (.dapRead fd [0xC1, i, j, k] false) s = .next
           (answer [[0xC3, i, j, k] ++ leBytes 4 v.length, 0x80 :: v.take (segBytes fd)]
             (some { write := false, index := index, sub := sub, total := v.length, data := v, fd := fd })))
     ∧ (dictEntry index sub = none → accessReason s index sub false = some 0x0001))
  ∧ (∀ (s : State) (fd : CanFormat) (i j k : Byte) (bs : List Byte), s.power.inputPower = true → s.cst.queue = [] →
       bs.length ≤ expedited fd →
       let index := i.toNat + 256 * j.toNat
       let sub := k.toNat
       let frame := [BitVec.ofNat 8 bs.length, i, j, k] ++ bs
       (∀ c, writeReason s index sub bs = some c → exec (.dapWrite fd frame false) s = .next
           { s with cst := { s.cst with canXfer := none }
                    canOut := s.canOut ++ [{ ident := 0x300 + s.cst.node, bytes := [0xC7, i, j, k] ++ leBytes 2 c, fd := fd }] })
       ∧ (writeReason s index sub bs = none → index ≠ 0x1010 → index ≠ 0x1011 → index ≠ 0x2000 → index ≠ 0x6000 →
           ∃ u, exec (.dapWrite fd frame false) s = .next u ∧ dictHeld u index sub = bs
             ∧ (∀ x, x ≠ dictKey index sub → Table.find u.cst.dict x = Table.find s.cst.dict x) ∧ u.cst.store = s.cst.store
             ∧ u.canOut.getLast? = some { ident := 0x300 + s.cst.node, bytes := [0xC6, i, j, k], fd := fd })
       ∧ (dictEntry index sub = none → writeReason s index sub bs = some 0x0001)
       ∧ (∀ e, dictEntry index sub = some e → (mainEntry index = false ∨ mainServes s = true) →
           ((e.access = .ro ∨ e.access = .const) → writeReason s index sub bs = some 0x0002)
           ∧ (e.access = .rws → s.cst.state ≠ .shunt → writeReason s index sub bs = some 0x0003)
           ∧ (∀ n, e.access = .rw → e.type.size = some n → bs.length ≠ n → writeReason s index sub bs = some 0x0005)
           ∧ (e.access = .rw → e.type.size = some bs.length → dictRange s index sub (leNat bs) = false →
               writeReason s index sub bs = some 0x0004)))

/-- R496, R502, R499: a frame that waits joins the queue at its end, and one that finds 16 waiting is answered BUSY; a timeout
aborts the open transfer with reason 0x0008, and the client's ABORT ends it without an answer. R501, R502: segmented transfers.
WRITE_INIT of a writable entry opens one and is answered by WRITE_READY; a segment in sequence that does not complete the value
is acknowledged with its number, the last one performs the write as a WRITE frame would; SEG_ACK of the segment sent brings the
next, or ends the transfer. A segment out of sequence, or with no transfer open, is answered by ABORT with reason 0x0007 and
ends the transfer. R503: the status frame carries STATE, STATE_TARGET, HALT_RULE, a reserved byte and the bitmap of the active
rules; a period of 0 sends none. R496, R504, R505: GO is discarded while BUSY. Otherwise BUSY is set and the request enters the
Custodian's queue, or is answered busy when 16 requests wait. An undeferred read of a readable entry on an empty queue is
answered at once: the reply bears status 0, the object's length, as many of its bytes from OFFSET on as asked for, and clears
BUSY and sets DONE. -/
def Obligations.RequestsQueueAndSegments : Prop :=
  (∀ (s : State) (fd : CanFormat) (i j k : Byte), s.power.inputPower = true →
     (s.cst.queue.length < 16 → exec (.dapRead fd [0xC1, i, j, k] true) s = .next
         { s with cst := { s.cst with queue := s.cst.queue ++ [.frame fd [0xC1, i, j, k]] } })
     ∧ (16 ≤ s.cst.queue.length → exec (.dapRead fd [0xC1, i, j, k] true) s = .next
         { s with canOut := s.canOut ++ [{ ident := 0x300 + s.cst.node, bytes := [0xC8, i, j, k], fd := fd }] })
     ∧ (s.pending = [] → ∀ qs, s.cst.queue = .frame fd [0xC1, i, j, k] :: qs → s.hif.rings = [] →
         step s = .next (serveFrame { s with cst := { s.cst with queue := qs } } fd [0xC1, i, j, k]))
     ∧ (∀ x, s.cst.canXfer = some x → ∃ u, exec (.dapTransferTimeout .can) s = .next u ∧ u.cst = { s.cst with canXfer := none }
         ∧ u.canOut = s.canOut ++ [{ ident := 0x300 + s.cst.node
                                     bytes := [0xC9, BitVec.ofNat 8 x.index, BitVec.ofNat 8 (x.index / 256), BitVec.ofNat 8 x.sub] ++ leBytes 2 8
                                     fd := x.fd }]
         ∧ OnlyChanges [.cst, .canOut] s u)
     ∧ (s.cst.canXfer = none → exec (.dapTransferTimeout .can) s = .next s)
     ∧ exec (.dapTransferTimeout .mailbox) s = .next { s with cst := { s.cst with mbxXfer := none } }
     ∧ (∀ a b, s.cst.queue = [] → exec (.dapAbort fd [0xC9, i, j, k, a, b]) s = .next { s with cst := { s.cst with canXfer := none } }))
  ∧ (∀ (s : State) (fd : CanFormat) (i j k : Byte) (bs : List Byte) (q : Fin 64), s.power.inputPower = true → s.cst.queue = [] →
       let index := i.toNat + 256 * j.toNat
       let send (bytes : List Byte) (x : Option Transfer) : State :=
         { s with cst := { s.cst with canXfer := x }
                  canOut := s.canOut ++ [{ ident := 0x300 + s.cst.node, bytes := bytes, fd := fd }] }
       (∀ n, n < 2 ^ 32 → accessReason s index k.toNat true = none →
           exec (.dapWriteInit fd ([0xC2, i, j, k] ++ leBytes 4 n) false) s
             = .next (send [0xC4, i, j, k] (some { write := true, index := index, sub := k.toNat, total := n, fd := fd })))
       ∧ (∀ n c, n < 2 ^ 32 → accessReason s index k.toNat true = some c →
           exec (.dapWriteInit fd ([0xC2, i, j, k] ++ leBytes 4 n) false) s = .next (send ([0xC7, i, j, k] ++ leBytes 2 c) none))
       ∧ (∀ x, s.cst.canXfer = some x → x.write = true → x.expect = q.val → x.data.length + bs.length < x.total →
           exec (.dapSegment fd (BitVec.ofNat 8 (0x80 + q.val) :: bs) false) s = .next (send
             [0xC5, BitVec.ofNat 8 x.index, BitVec.ofNat 8 (x.index / 256), BitVec.ofNat 8 x.sub, BitVec.ofNat 8 q.val]
             (some { x with data := x.data ++ bs, expect := (x.expect + 1) % 64 })))
       ∧ (∀ x, s.cst.canXfer = some x → x.write = true → x.expect = q.val → x.data.length + bs.length = x.total →
           exec (.dapSegment fd (BitVec.ofNat 8 (0x80 + q.val) :: bs) false) s = .next (serveWrite s fd x.index x.sub (x.data ++ bs)))
       ∧ (∀ x, s.cst.canXfer = some x → (x.write = false ∨ x.expect ≠ q.val) →
           exec (.dapSegment fd (BitVec.ofNat 8 (0x80 + q.val) :: bs) false) s = .next (send
             ([0xC9, BitVec.ofNat 8 x.index, BitVec.ofNat 8 (x.index / 256), BitVec.ofNat 8 x.sub] ++ leBytes 2 7) none))
       ∧ (s.cst.canXfer = none → exec (.dapSegment fd (BitVec.ofNat 8 (0x80 + q.val) :: bs) false) s
           = .next (send ([0xC9, 0, 0, 0] ++ leBytes 2 7) none))
       ∧ (∀ x, s.cst.canXfer = some x → x.write = false → x.expect = q.val → x.fd = fd →
           (x.total ≤ x.offset + segBytes fd → exec (.dapSegAck fd [0xC5, i, j, k, BitVec.ofNat 8 q.val] false) s
               = .next { s with cst := { s.cst with canXfer := none } })
           ∧ (x.offset + segBytes fd < x.total → exec (.dapSegAck fd [0xC5, i, j, k, BitVec.ofNat 8 q.val] false) s = .next (send
               (BitVec.ofNat 8 (0x80 + (x.expect + 1) % 64) :: (x.data.drop (x.offset + segBytes fd)).take (segBytes fd))
               (some { x with offset := x.offset + segBytes fd, expect := (x.expect + 1) % 64 })))))
  ∧ (∀ (s : State), s.power.inputPower = true →
       (dictVal s 0x1033 0 ≠ 0 → exec .dapStatusFrame s = .next { s with canOut := s.canOut ++ [{
           ident := 0x680 + s.cst.node
           bytes := [BitVec.ofNat 8 s.cst.state.code, BitVec.ofNat 8 s.cst.target.code, s.cst.haltRule, 0] ++ leBytes 4 (rulesActive s).toNat }] })
       ∧ (∀ r, r < 32 → (rulesActive s).getLsbD r = (ruleState s r).active)
       ∧ (dictVal s 0x1033 0 = 0 → exec .dapStatusFrame s = .next s))
  ∧ (∀ (s : State), hostReaches s .pf0 = true →
       (s.hif.mbx.busy = true → ∀ d, exec (.mailboxGo d) s = .next s)
       ∧ (s.hif.mbx.busy = false → s.cst.queue.length < 16 → ∃ u, exec (.mailboxGo true) s = .next u
           ∧ u.hif.mbx = { s.hif.mbx with busy := true }
           ∧ u.cst = { s.cst with queue := s.cst.queue ++ [.mailbox ((List.range 2032).map fun i => Table.get 0 s.hif.mbx.req i)] }
           ∧ OnlyChanges [.mbx, .cst] s u)
       ∧ (s.hif.mbx.busy = false → 16 ≤ s.cst.queue.length → Table.canonical 0 s.hif.mbx.rsp = true → ∃ u, exec (.mailboxGo true) s = .next u
           ∧ Table.get 0 u.hif.mbx.rsp 0 = 2 ∧ u.hif.mbx.busy = false ∧ u.hif.mbx.done = true ∧ u.hif.mbx.rspLen = 16
           ∧ u.cst = s.cst ∧ OnlyChanges [.mbx, .pages, .hostOut] s u)
       ∧ (∀ (index sub off len : Nat) (bytes : List Byte), s.hif.mbx.busy = false → s.cst.queue = [] → Table.canonical 0 s.hif.mbx.rsp = true →
           bytes = leBytes 1 1 ++ [0] ++ leBytes 2 index ++ leBytes 1 sub ++ leBytes 3 0 ++ leBytes 4 off ++ leBytes 4 len →
           index < 2 ^ 16 → sub < 2 ^ 8 → off < 2 ^ 32 → len ≤ 2016 → (∀ i, i < 16 → Table.get 0 s.hif.mbx.req i = nth 0 bytes i) →
           accessReason s index sub false = none →
           let v := dictRead s index sub
           let reply := leBytes 4 0 ++ leBytes 4 0 ++ leBytes 4 v.length ++ leBytes 4 ((v.drop off).take len).length ++ (v.drop off).take len
           ∃ u, exec (.mailboxGo false) s = .next u
             ∧ (∀ i, i < reply.length → Table.get 0 u.hif.mbx.rsp i = nth 0 reply i)
             ∧ u.hif.mbx.busy = false ∧ u.hif.mbx.done = true ∧ u.hif.mbx.rspLen = reply.length ∧ u.hif.mbx.req = s.hif.mbx.req
             ∧ u.cst.mbxXfer = none ∧ u.cst.dict = s.cst.dict ∧ OnlyChanges [.mbx, .cst, .pages, .hostOut] s u))

/-- R493, R559: the entries that act. DICT_SAVE with its key saves every persistent entry, unless the store is worn;
DICT_DEFAULTS with its key empties the store; CTR_CLEAR with its key, in a state that serves the main device's entries, clears
every statistics counter and both latches. With another value nothing but the answer happens. The values held stay in each case.
R508, R509: state commands. In every state but HALT the target becomes the one commanded, and where no transition runs the
module goes on towards it: from SHUNT to DEPOT, from SERVICE and LIMITED to leaving service, where nothing fetched is left
unissued, from DEPOT to waking. In HALT they are refused; CLEAR_HALT is accepted there alone, once the tripping rule is false,
and enters DEPOT. R508, R516: while the condition of the tripping rule persists, CLEAR_HALT is refused with reason 0x000A and
the module stays in HALT. -/
def Obligations.EntriesThatAct : Prop :=
  (∀ (s : State) (p : DictPath) (key : Word32), PathFree s p →
     let reply : List StatePart := [.cst, .canOut, .mbx, .pages, .hostOut]
     (∃ u, exec (.dictSave p key) s = .next u ∧ u.cst.dict = s.cst.dict ∧ OnlyChanges reply s u
       ∧ (key = 0x65766173 → s.cst.worn = false →
           (∀ i j e, j < 256 → dictEntry i j = some e → isPersistent i e = true → i ≠ 0x1030 →
             Table.find u.cst.store (dictKey i j) = Table.find s.cst.dict (dictKey i j))
           ∧ Table.find u.cst.store (dictKey 0x1030 0) = some (dictHeld s 0x1030 0))
       ∧ ((key ≠ 0x65766173 ∨ s.cst.worn = true) → u.cst.store = s.cst.store))
     ∧ (∃ u, exec (.dictDefaults p key) s = .next u ∧ u.cst.dict = s.cst.dict ∧ OnlyChanges reply s u
       ∧ u.cst.store = (if key = 0x64616F6C then [] else s.cst.store))
     ∧ (mainServes s = true → ∃ u, exec (.ctrClear p key) s = .next u ∧ u.cst.dict = s.cst.dict
       ∧ (key = 0x434C5231 → (∀ b off, ctr u b off = 0) ∧ u.hiHost = 0 ∧ u.hiCst = 0)
       ∧ (key ≠ 0x434C5231 → OnlyChanges reply s u))
     ∧ (mainServes s = false → ∃ u, exec (.ctrClear p key) s = .next u ∧ OnlyChanges reply s u))
  ∧ (∀ (s : State) (p : DictPath), PathFree s p → RulesQuiet s →
       let rows : List (Instr × DevState) := [(.stateCmdDepot p, .depot), (.stateCmdShunt p, .shunt), (.stateCmdService p, .service)]
       (∀ row ∈ rows, s.cst.state ≠ .halt → ∃ u, exec row.1 s = .next u ∧ u.cst.target = row.2 ∧ u.cst.haltRule = s.cst.haltRule
           ∧ u.cst.state = (match s.cst.state, row.2 with
               | .shunt, .depot => .toDepot
               | .service, .depot => .leaving
               | .limited, .depot => .leaving
               | .service, .shunt => .leaving
               | .limited, .shunt => .leaving
               | .depot, .shunt => .waking
               | .depot, .service => .waking
               | d, _ => d)
           ∧ ((s.cst.state = .service ∨ s.cst.state = .limited) → row.2 ≠ .service →
               ∀ f r, r < 64 → (ringOf u f r).fetched = [])
           ∧ (∀ a, memByte u.mem a = memByte s.mem a) ∧ u.tasks = s.tasks)
       ∧ (∀ row ∈ rows, s.cst.state = .halt → ∃ u, exec row.1 s = .next u ∧ u.cst.state = .halt ∧ u.cst.target = s.cst.target
           ∧ OnlyChanges [.cst, .canOut] s u)
       ∧ (s.cst.state = .halt → ∃ u, exec (.clearHalt p) s = .next u ∧ u.cst.state = .depot ∧ u.cst.target = .depot
           ∧ u.cst.haltRule = 0xFF ∧ u.cst.alertN = true)
       ∧ (s.cst.state ≠ .halt → ∃ u, exec (.clearHalt p) s = .next u ∧ u.cst.state = s.cst.state ∧ u.cst.target = s.cst.target
           ∧ u.cst.haltRule = s.cst.haltRule ∧ OnlyChanges [.cst, .canOut, .mbx, .pages, .hostOut] s u))
  ∧ (∀ (s : State), PathFree s .can → s.cst.state = .halt → (ruleState s s.cst.haltRule.toNat).active = true →
       exec (.clearHalt .can) s = .next { s with
         cst := { s.cst with canXfer := none }
         canOut := s.canOut ++ [{ ident := 0x300 + s.cst.node, bytes := [0xC7, 0x00, 0x20, 0x00] ++ leBytes 2 0x000A }] })

/-- R512, R513: a channel's median is of its last five samples, a value of which at least three are no larger and at least three
no smaller; an analogue channel's filtered value, kept with 8 fractional bits, follows it by 2^-K of the distance, rounded down;
before the fifth sample there is neither, and no rule is evaluated. R514, R515, R516, R517: a rule is true above, below, equal
to or unequal to its threshold as OP says; it becomes active once it has been true for HOLD evaluations in a row, and clears
once its value has stood beyond the hysteresis for as many. The one rule of a channel that becomes active there is noticed and
logged; a CUT that acts in the present state then enters HALT and records the rule, an ALARM asserts ALERT_N and the module
stays in its state, and a WAKE in DEPOT starts the wake. -/
def Obligations.ChannelsAndRules : Prop :=
  (∀ (s : State) (ch : BitVec 8) (v : Word32) (ms : Word64), isChannel ch.toNat = true → ch.toNat < 0xF0 →
     let c := channelOf s ch.toNat
     (s.power.inputPower = true → c.samples.length < 4 → exec (.channelSample ch v ms) s = .next { s with cst := { s.cst with
         ms := ms, channels := Table.insert s.cst.channels ch.toNat { c with samples := c.samples ++ [v.toInt] } } })
     ∧ (s.power.inputPower = true → (c.samples.length = 4 ∨ c.samples.length = 5) → ∃ u, exec (.channelSample ch v ms) s = .next u ∧ u.cst.ms = ms
         ∧ (let xs := (c.samples ++ [v.toInt]).drop (c.samples.length - 4)
            let m := (channelOf u ch.toNat).median
            let y := c.y.getD (256 * m) + (256 * m - c.y.getD (256 * m)) / 2 ^ filterK s ch.toNat
            (channelOf u ch.toNat).samples = xs ∧ m ∈ xs ∧ 3 ≤ (xs.filter fun x => decide (x ≤ m)).length
              ∧ 3 ≤ (xs.filter fun x => decide (m ≤ x)).length
              ∧ (isDigital ch.toNat = true → (channelOf u ch.toNat).filtered = m)
              ∧ (isDigital ch.toNat = false → (channelOf u ch.toNat).y = some y ∧ (channelOf u ch.toNat).filtered = y / 256)))
     ∧ (s.power.inputPower = false → exec (.channelSample ch v ms) s = .next s))
  ∧ ((∀ (x : Rule) (q : RuleState) (v : Int), 1 ≤ x.hold → x.hold ≤ 65535 →
       (ruleTrue x v = true ↔ (x.op = 0 ∧ signed 32 x.threshold < v) ∨ (x.op = 1 ∧ v < signed 32 x.threshold)
           ∨ (x.op = 2 ∧ v = signed 32 x.threshold) ∨ (3 ≤ x.op ∧ v ≠ signed 32 x.threshold))
       ∧ (q.active = false → ((ruleStep x q v).active = true ↔ ruleTrue x v = true ∧ x.hold ≤ q.trueRun + 1))
       ∧ (q.active = true → ((ruleStep x q v).active = false ↔ ruleFalse x v = true ∧ x.hold ≤ q.clearRun + 1))
       ∧ (ruleTrue x v = false → (ruleStep x q v).trueRun = 0) ∧ (ruleTrue x v = true → (ruleStep x q v).trueRun = min (q.trueRun + 1) 65535))
     ∧ ∀ (s : State) (ch : BitVec 8) (v : Word32) (ms : Word64) (r : Fin 32), s.power.inputPower = true → isChannel ch.toNat = true →
       ch.toNat < 0xF0 → 4 ≤ (channelOf s ch.toNat).samples.length → RulesQuiet s → (ruleOf s r.val).channel = ch.toNat →
       (∀ k, k < 32 → k ≠ r.val → (ruleOf s k).channel ≠ ch.toNat) →
       let n := filterStep (isDigital ch.toNat) (filterK s ch.toNat) (channelOf s ch.toNat) v.toInt
       let x := ruleOf s r.val
       let value := if x.source = 0 then n.filtered else n.median
       (ruleStep x (ruleState s r.val) value).active = true → ruleActs x s.cst.state = true →
       let notice : CanFrame := { ident := 0x080 + s.cst.node
                                  bytes := [BitVec.ofNat 8 r.val, BitVec.ofNat 8 x.action, BitVec.ofNat 8 x.channel, BitVec.ofNat 8 s.cst.state.code]
                                    ++ leBytes 4 (wrap 32 value) }
       let trip : Trip := { ms := ms, rule := r.val, action := x.action, channel := x.channel, value := value }
       ∃ u, exec (.channelSample ch v ms) s = .next u ∧ u.canOut = s.canOut ++ [notice] ∧ u.cst.trips = (trip :: s.cst.trips).take 8
         ∧ (ruleState u r.val).active = true
         ∧ (x.action = 3 → u.cst.state = .halt ∧ u.cst.haltRule = BitVec.ofNat 8 r.val ∧ u.cst.alertN = false ∧ u.power.pwrGood = false
             ∧ ∀ a, memByte u.mem a = 0)
         ∧ (x.action = 2 → u.cst.state = s.cst.state ∧ u.cst.alertN = false ∧ OnlyChanges [.cst, .canOut, .hifCtrs, .logs, .pages, .hostOut] s u)
         ∧ (x.action = 1 → s.cst.state = .depot → s.cst.wakeIgnored = false → s.power.pwrGood = false → u.cst.state = .waking
             ∧ u.cst.target = (if dictVal s 0x2005 0 = 1 then .service else .shunt) ∧ OnlyChanges [.cst, .canOut] s u)
         ∧ (x.action = 0 → u.cst.state = s.cst.state ∧ OnlyChanges [.cst, .canOut] s u))

/-! ### Device states and power -/

/-- R509, R510, R531, R532: with target SERVICE and every core tested, the module enters LIMITED where a reason stands that
LIMITED_ACCEPT does not accept, a Concourse that is down among the reasons, and SERVICE otherwise; the Junctions' failed lanes
are marked and the credits withheld until then are granted. R509: while the module leaves service, it enters SHUNT once nothing
issued is left, or, when the drain time has passed, with every task and command still there ended and no swap left but those
being applied; with target DEPOT it goes on to going to depot. In any other state both change nothing. -/
def Obligations.ServiceEnteredAndLeft : Prop :=
  (∀ (s : State) (e w : BitVec 2), RulesQuiet s →
     (s.cst.state = .shunt → s.cst.target = .service → (∀ t, ∀ x ∈ (s.sch.get t).coreState, x.2 = 2) →
       let reasons := s.cst.limitedReasons ||| (if concourseUp s then 0 else 4)
       ∃ u, exec (.serviceEntry e w) s = .next u
         ∧ u.cst.limitedReasons = reasons
         ∧ u.cst.state = (if reasons &&& ~~~ BitVec.ofNat 32 (dictVal s 0x2004 0) = 0 then .service else .limited)
         ∧ u.cst.target = .service
         ∧ (u.jn.get .east).laneFailed = (s.jn.get .east).laneFailed ||| e ∧ (u.jn.get .west).laneFailed = (s.jn.get .west).laneFailed ||| w
         ∧ (∀ x ∈ u.ports, x.2.link.crHeld = []) ∧ u.cc.east.crHeld = [] ∧ u.cc.west.crHeld = []
         ∧ OnlyChanges [.cst, .jn, .tt, .ports, .cc, .hifCtrs, .logs, .pages, .hostOut] s u)
     ∧ ((s.cst.state ≠ .shunt ∨ s.cst.target ≠ .service) → exec (.serviceEntry e w) s = .next s))
  ∧ (∀ (s : State), RulesQuiet s →
       let z : State := { s with heldAt := none }
       (s.cst.state = .leaving → s.tasks = [] → s.cmds = [] → (∀ x ∈ s.insts, x.2.swaps = []) →
         ∃ u, exec .leavingServiceDrained s = .next u ∧ u.cst.state = (if s.cst.target = .depot then .toDepot else .shunt)
           ∧ u.cst.target = s.cst.target ∧ OnlyChanges [.cst, .hifCtrs, .logs, .pages, .hostOut] s u)
       ∧ (s.cst.state = .leaving → s.tasks ≠ [] → exec .leavingServiceDrained s = .next s)
       ∧ (s.cst.state = .leaving → (enterShunt (endAllWork z)).heldAt = none →
         ∃ u, exec .shuntDrainExpiry s = .next u ∧ u.cst.state = (if s.cst.target = .depot then .toDepot else .shunt)
           ∧ u.cst.target = s.cst.target ∧ u.tasks = [] ∧ u.cmds = [] ∧ (∀ i, ∀ x ∈ (instOf u i).swaps, x.applying = true))
       ∧ (s.cst.state ≠ .leaving → exec .leavingServiceDrained s = .next s ∧ exec .shuntDrainExpiry s = .next s))

/-- R509, R522, R523, R524: main power that goes takes with it the contents of memory, every task and everything of the host
interface; the Custodian keeps its values. Once the rails are down the module is in DEPOT, and wakes again where its target is
not DEPOT. A loss that no CUT caused counts in MAIN_LOSS and leaves DEPOT with target DEPOT, or HALT by rule 2 where rule 2 is
active; a rail out of regulation is such a loss. R493, R509, R522, R523: at input power the Custodian restarts with its stored
entries, and its trip log, channels, rules and counts are fresh; it wakes where WAKE_AT_POWER is 1, with target SERVICE or SHUNT
as AUTO_SERVICE says. At the loss of input power all but the store is lost. The recovery after a loss of main power, the input
at or above 46 V, wakes in the same way. -/
def Obligations.PowerLostAndFound : Prop :=
  (∀ (s : State),
     let gone (u : State) : Prop := (∀ a, memByte u.mem a = 0) ∧ u.tasks = [] ∧ u.hif = {} ∧ u.sch = State.reset.sch
       ∧ u.power.pwrGood = false ∧ u.cst.dict = s.cst.dict ∧ u.cst.store = s.cst.store ∧ u.cst.channels = s.cst.channels
       ∧ u.cst.rules = s.cst.rules ∧ u.cst.trips = s.cst.trips
     (s.cst.state = .toDepot → RulesQuiet s → s.cst.target = .depot →
       ∃ u, exec .depotRailsDown s = .next u ∧ gone u ∧ u.cst.state = .depot ∧ u.cst.target = .depot ∧ u.cst.mainLoss = s.cst.mainLoss)
     ∧ (s.cst.state = .toDepot → RulesQuiet s → (s.cst.target = .shunt ∨ s.cst.target = .service) →
       ∃ u, exec .depotRailsDown s = .next u ∧ gone u ∧ u.cst.state = .waking ∧ u.cst.target = s.cst.target)
     ∧ (s.cst.state ≠ .toDepot → exec .depotRailsDown s = .next s)
     ∧ (mainOn s = true → RulesQuiet s → ∃ u, exec .mainPowerLoss s = .next u ∧ gone u ∧ u.cst.state = .depot ∧ u.cst.target = .depot
         ∧ u.cst.mainLoss = min (2 ^ 32 - 1) (s.cst.mainLoss + 1) ∧ u.cst.haltRule = s.cst.haltRule)
     ∧ (mainOn s = true → (ruleState s 2).active = true → ∃ u, exec .mainPowerLoss s = .next u ∧ gone u ∧ u.cst.state = .halt
         ∧ u.cst.mainLoss = min (2 ^ 32 - 1) (s.cst.mainLoss + 1) ∧ u.cst.haltRule = 2 ∧ u.cst.alertN = false)
     ∧ (∀ w k, mainOn s = true → (s.power.good.get w).getLsbD (Fin.val k) = true →
         ∃ u, exec (.railOutOfRegulation w k) s = .next u ∧ exec .mainPowerLoss s = .next u))
  ∧ (∀ (s : State),
       (∀ strap : Fin 128, s.power.inputPower = false → s.power.pwrGood = false →
         ∃ u, exec (.inputPowerOn strap) s = .next u ∧ u.power = { s.power with inputPower := true }
           ∧ u.cst.dict = s.cst.store ∧ u.cst.store = s.cst.store ∧ u.cst.trips = [] ∧ u.cst.rules = [] ∧ u.cst.channels = [] ∧ u.cst.queue = []
           ∧ u.cst.ms = 0 ∧ u.cst.node = dictVal u 0x1030 0 ∧ u.cst.strap = strap.val ∧ u.cst.mainLoss = 0
           ∧ u.cst.state = (if dictVal u 0x2006 0 = 1 then .waking else .depot)
           ∧ u.cst.target = (if dictVal u 0x2006 0 = 1 then (if dictVal u 0x2005 0 = 1 then .service else .shunt) else .depot)
           ∧ OnlyChanges [.cst, .power] s u)
       ∧ (∀ strap : Fin 128, s.power.inputPower = true → exec (.inputPowerOn strap) s = .next s)
       ∧ (s.power.inputPower = true → ∃ u, exec .inputPowerLoss s = .next u ∧ u.power.inputPower = false ∧ u.power.pwrGood = false
           ∧ u.cst.store = s.cst.store ∧ u.cst.dict = [] ∧ u.cst.trips = [] ∧ u.cst.state = .depot ∧ (∀ a, memByte u.mem a = 0)
           ∧ u.tasks = [] ∧ u.hif = {})
       ∧ (s.power.inputPower = true → s.cst.lost = true → 46000 ≤ filteredOf s 0 → s.cst.state = .depot → RulesQuiet s →
           s.power.pwrGood = false → ∃ u, exec .inputRecovery s = .next u ∧ u.cst.lost = false ∧ u.cst.dict = s.cst.dict
             ∧ u.cst.state = (if dictVal s 0x2006 0 = 1 then .waking else .depot)
             ∧ (dictVal s 0x2006 0 = 1 → u.cst.target = (if dictVal s 0x2005 0 = 1 then .service else .shunt))
             ∧ OnlyChanges [.cst] s u)
       ∧ ((s.cst.lost = false ∨ filteredOf s 0 < 46000) → exec .inputRecovery s = .next s))

/-- R524, R525, R526, R529: a rail that loses a phase sets its PHASE_LOST bit once, counts and is reported, and the module stays
in its state. The rails rise in their order, both wings' together, and the last asserts PWR_GOOD, with which the PCIe port
leaves reset where PERST_N stands deasserted. A wake that fails records its code, counts, takes main power down and leaves DEPOT
with target DEPOT and WAKE actions ignored. R527, R528, R551: the steps of a wake in their order. After step 1 a column's defect
is where its fuses say, the Timetable counters run, the held writes have gone out and the Concourse trains; step 3 zeroes
stacked memory, retires a pseudo-channel that has not trained where its tile's reserve is free, and otherwise fails it and gives
the reason of LIMITED; step 4 zeroes on-chip memory, gives the partition configuration and the group table an edition 0 of
zeros, and enters SHUNT, or goes on to DEPOT. -/
def Obligations.RailsAndWaking : Prop :=
  (∀ (s : State),
     (∀ (w : Wing) (k : Fin 6), (s.power.good.get w).getLsbD k.val = true → (s.power.phaseLost.get w).getLsbD k.val = false →
       ∃ u, exec (.railPhaseLost w k) s = .next u ∧ (u.power.phaseLost.get w).getLsbD k.val = true
         ∧ (∀ j, j ≠ k.val → (u.power.phaseLost.get w).getLsbD j = (s.power.phaseLost.get w).getLsbD j)
         ∧ (u.power.phaseLost.get (otherWing w)) = (s.power.phaseLost.get (otherWing w)) ∧ u.power.good = s.power.good
         ∧ (ctr u (blkPwr w) 0x1018).toNat = min (2 ^ 64 - 1) ((ctr s (blkPwr w) 0x1018).toNat + 1)
         ∧ OnlyChanges [.power, .hifCtrs, .logs, .pages, .hostOut] s u)
     ∧ (∀ (w : Wing) (k : Fin 6), (s.power.phaseLost.get w).getLsbD k.val = true → exec (.railPhaseLost w k) s = .next s)
     ∧ (∀ k : Fin 6, s.cst.state = .waking → s.power.pwrGood = false → s.power.good.east.toNat = 2 ^ k.val - 1 →
       ∃ u, exec (.railInRegulation k) s = .next u
         ∧ (∀ w j, (u.power.good.get w).getLsbD j = ((s.power.good.get w).getLsbD j || (j == k.val)))
         ∧ u.power.pwrGood = (k.val == 5) ∧ u.power.portReset = !(k.val == 5 && s.power.perstN)
         ∧ u.power.perstN = s.power.perstN ∧ OnlyChanges [.power] s u)
     ∧ (∀ k : Fin 6, s.power.good.east.toNat ≠ 2 ^ k.val - 1 → exec (.railInRegulation k) s = .next s)
     ∧ (∀ how : WakeFailure, wakeMayFail s how = true → RulesQuiet s → ∃ u, exec (.wakeFail how) s = .next u
         ∧ u.cst.wakeFail = (match how with
           | .rail k => 0x10 + k.val
           | .clocks => 0x20
           | .ioTile => 0x30)
         ∧ u.cst.wakeFails = min (2 ^ 32 - 1) (s.cst.wakeFails + 1) ∧ u.cst.state = .depot ∧ u.cst.target = .depot ∧ u.cst.wakeIgnored = true
         ∧ u.cst.dict = s.cst.dict ∧ u.power.good = ⟨0, 0⟩ ∧ u.power.pwrGood = false))
  ∧ (∀ (s : State) (list : List (Tile × Fin 512)) (fuses : List Defect), s.cst.state = .waking → s.power.pwrGood = true → RulesQuiet s →
       memCanonical s.mem = true →
       (s.power.wakeStep = 0 → ∃ u, exec (.wakeStepDone 1 ⟨list, fuses⟩) s = .next u ∧ u.power.wakeStep = 1 ∧ u.cst.state = .waking
           ∧ u.cst.heldWrites = [] ∧ (∀ w, (u.tt.get w).running = true) ∧ u.cc.state = .training
           ∧ (∀ t, (u.tmem.get t).en = (dictVal s 0x3030 0 == 1)) ∧ (∀ a, memByte u.mem a = memByte s.mem a)
           ∧ (∀ d, fuses = [d] → Table.find (u.sch.get d.tile).defects d.column.val = some d.row.val))
       ∧ (s.power.wakeStep = 1 → exec (.wakeStepDone 2 ⟨list, fuses⟩) s = .next { s with power := { s.power with wakeStep := 2 } })
       ∧ (s.power.wakeStep = 2 → ∃ u, exec (.wakeStepDone 3 ⟨list, fuses⟩) s = .next u ∧ u.power.wakeStep = 3 ∧ u.cst.state = .waking
           ∧ (∀ a, memByte u.mem a = if isStacked a then 0 else memByte s.mem a)
           ∧ (∀ b ∈ u.poison, b ∈ s.poison ∧ isStacked (64 * b) = false)
           ∧ (list = [] → u.tmem = s.tmem)
           ∧ (∀ t pc, list = [(t, pc)] → (s.tmem.get t).en = true → (s.tmem.get t).used = false → (s.tmem.get t).moving = false →
               (u.tmem.get t).moving = true ∧ (u.tmem.get t).retiredPc = pc.val ∧ (u.tmem.get t).movePos = 0
                 ∧ (u.tmem.get t).dead = (s.tmem.get t).dead)
           ∧ (∀ t pc, list = [(t, pc)] → (s.tmem.get t).en = false → (s.tmem.get t).used = false → (s.tmem.get t).moving = false →
               pc.val ∈ (u.tmem.get t).dead ∧ (u.tmem.get t).unspared = true ∧ u.cst.limitedReasons.getLsbD 3 = true))
       ∧ (s.power.wakeStep = 3 → ∃ u, exec (.wakeStepDone 4 ⟨list, fuses⟩) s = .next u ∧ u.power.wakeStep = 4
           ∧ u.cst.state = (if s.cst.target = .depot then .toDepot else .shunt) ∧ u.cst.target = s.cst.target
           ∧ (∀ a, memByte u.mem a = if isOnChip a then 0 else memByte s.mem a)
           ∧ (instOf u .partCfg).current = some 0 ∧ (instOf u .group).current = some 0
           ∧ (editionOf u .partCfg 0).map (·.copy) = some (List.replicate 4096 0)
           ∧ (editionOf u .group 0).map (·.hdr) = some 0)
       ∧ (∀ k : Fin 5, k.val ≠ s.power.wakeStep + 1 → exec (.wakeStepDone k ⟨list, fuses⟩) s = .next s))

/-- R462, R464, R477, R482, R487, R529, R530: PERST_N and the PCIe port. Deasserted before PWR_GOOD it leaves the port in reset;
asserted it takes the link down, which after SHUNT resets PF0. The port trains only once out of reset, at the rates, widths and
modes it supports. Configuration requests are answered with Retry Status until SHUNT; from then on they set Bus Master Enable
and VF Enable, and a VF answers only while VF Enable is set. -/
def Obligations.PciePort : Prop :=
  ∀ (s : State),
    exec .perstDeassert s = .next { s with
        power := { s.power with perstN := true, portReset := !s.power.pwrGood, wakeN := true } }
    ∧ (mainUp s = false → exec .perstAssert s = .next { s with
        power := { s.power with perstN := false, portReset := true }
        hif := { s.hif with linkUp := false, speed := 0, width := 0, flit := false, cxl := false } })
    ∧ (mainUp s = true → s.hif.pf0Resetting = false → ∃ u, exec .perstAssert s = .next u ∧ exec (.pf0Reset .perst) s = .next u
        ∧ u.hif.linkUp = false ∧ u.power.portReset = true ∧ u.power.perstN = false ∧ u.hif.pf0Resetting = true ∧ u.hif.vfEnable = false
        ∧ u.hif.logs.evqEnable = false ∧ ∀ p : Fin 16, resettingPart u p.val = true)
    ∧ (∀ (sp : BitVec 4) (width : Nat) (flit cxl : Bool), s.power.portReset = false → s.power.pwrGood = true → 1 ≤ s.power.wakeStep →
        s.hif.linkUp = false → (width = 8 ∨ width = 16) → ((sp = 6 ∧ flit = true) ∨ ((sp = 4 ∨ sp = 5) ∧ (cxl = false ∨ flit = false))) →
        exec (.pcieLinkUp sp width flit cxl) s
          = .next { s with hif := { s.hif with linkUp := true, speed := sp, width := width, flit := flit, cxl := cxl } })
    ∧ (∀ (sp : BitVec 4) (width : Nat) (flit cxl : Bool),
        (s.power.portReset = true ∨ (width ≠ 8 ∧ width ≠ 16) ∨ (sp ≠ 4 ∧ sp ≠ 5 ∧ sp ≠ 6) ∨ (sp = 6 ∧ flit = false)) →
        exec (.pcieLinkUp sp width flit cxl) s = .next s)
    ∧ (∀ f req, s.hif.linkUp = true → mainUp s = false → exec (.configurationRequest f req) s = .next { s with cfgRetry := true })
    ∧ (∀ f, hostReaches s f = true →
        (∀ v, configField s f .busMaster = some v →
          exec (.configurationRequest f (.read .busMaster)) s = .next { s with cfgRetry := false, readData := leBytes 4 v, readPoison := false })
        ∧ exec (.configurationRequest f (.setBusMaster false)) s
            = .next (({ s with cfgRetry := false }).modPage f fun p => { p with busMaster := false })
        ∧ (∃ u, exec (.configurationRequest f (.setBusMaster true)) s = .next u ∧ (pageOf u f).busMaster = true ∧ u.cfgRetry = false
            ∧ (∀ r, r < 64 → hasRing f r = true → (wingOf (ringOf s f r).home = .east ∨ concourseUp s = true) → (ringOf u f r).heldEntries = [])
            ∧ OnlyChanges [.pages, .rings, .cfgRetry, .hostOut] s u))
    ∧ (hostReaches s .pf0 = true → exec (.configurationRequest .pf0 .setVfEnable) s
        = .next { s with cfgRetry := false, hif := { s.hif with vfEnable := true } })
    ∧ (∀ p req, s.hif.linkUp = true → mainUp s = true → s.hif.vfEnable = false →
        exec (.configurationRequest (.vf p) req) s = .next { s with cfgRetry := false })

/-- R533, R535: the power states that blocks choose by themselves. A running cluster with no phase active is clock-gated, from
there it enters retention, and it runs again when its exit has ended. A pseudo-channel powers down; a stack enters self-refresh,
which is counted, and doubles its refresh above 85 °C. R534: the load point steps down when the engines waited for more than
half of the cycles, not below P2, and up when they waited for less than a quarter; the thermal cap steps down after ten samples
in a row above 105 °C, to P3 at most, and up after a hundred below 100 °C; the first step from P0 is counted. Where the lower of
the two is not the cluster's point, a change to it runs, and once it is done it is the point and is counted. -/
def Obligations.BlocksSaveEnergy : Prop :=
  (∀ (s : State) (t : Tile) (row : Fin 22),
     let c := clusterOf s t row.val
     (mainUp s = true → clusterOff s t row.val = false → c.state = .run → clusterBusy s t row.val = false →
       exec (.clusterClockGate t row) s = .next (s.modCluster t row.val fun c => { c with state := .gated, waking := false }))
     ∧ (clusterBusy s t row.val = true → exec (.clusterClockGate t row) s = .next s)
     ∧ (mainUp s = true → c.state = .gated → c.waking = false →
       exec (.clusterRetention t row) s = .next (s.modCluster t row.val fun c => { c with state := .retention }))
     ∧ (c.waking = true → exec (.clusterWakeDone t row) s = .next (s.modCluster t row.val fun c => { c with state := .run, waking := false }))
     ∧ (c.waking = false → exec (.clusterWakeDone t row) s = .next s)
     ∧ (memoryUp s = true → ∀ pc : Fin 512, ∃ u, exec (.pseudoChannelPowerDown t pc) s = .next u
         ∧ pc.val ∈ (stackOf u (8 * tileIdx t + pc.val / 64)).down
         ∧ (∀ k, k ≠ 8 * tileIdx t + pc.val / 64 → stackOf u k = stackOf s k) ∧ OnlyChanges [.power] s u)
     ∧ (memoryUp s = true → ∀ k : Fin 32, (stackOf s k.val).selfRefresh = false → ∃ u, exec (.stackSelfRefreshEntry k) s = .next u
         ∧ stackOf u k.val = { stackOf s k.val with selfRefresh := true } ∧ (∀ j, j ≠ k.val → stackOf u j = stackOf s j)
         ∧ (ctr u (blkPwr (stackWing k.val)) 0x1010).toNat = min (2 ^ 64 - 1) ((ctr s (blkPwr (stackWing k.val)) 0x1010).toNat + 1)
         ∧ OnlyChanges [.power, .hifCtrs, .logs, .pages, .hostOut] s u)
     ∧ (memoryUp s = true → ∀ (k : Fin 32) (m : Int), ∃ u, exec (.stackRefreshDoubling k m) s = .next u
         ∧ (stackOf u k.val).refresh2x = decide (85000 < m) ∧ (stackOf u k.val).selfRefresh = (stackOf s k.val).selfRefresh
         ∧ (stackOf u k.val).down = (stackOf s k.val).down ∧ (∀ j, j ≠ k.val → stackOf u j = stackOf s j) ∧ OnlyChanges [.power] s u))
  ∧ (∀ (s : State) (t : Tile) (row : Fin 22), mainUp s = true → clusterOff s t row.val = false →
       let c := clusterOf s t row.val
       (∀ waited cycles : Nat, c.state = .run → 0 < cycles → ∃ u, exec (.dvfsLoadWindow t row waited cycles) s = .next u
           ∧ (clusterOf u t row.val).load
               = (if cycles < 2 * waited then min 2 (c.load + 1) else if 4 * waited < cycles then c.load - 1 else c.load)
           ∧ (clusterOf u t row.val).cap = c.cap ∧ (clusterOf u t row.val).point = c.point
           ∧ (c.changing = none → (clusterOf u t row.val).changing
               = (if max (clusterOf u t row.val).load c.cap = c.point then none else some (max (clusterOf u t row.val).load c.cap)))
           ∧ (∀ x, c.changing = some x → (clusterOf u t row.val).changing = some x) ∧ OnlyChanges [.power] s u)
       ∧ (∀ milliC : Int, ∃ u, exec (.thermalCapSample t row milliC) s = .next u
           ∧ (clusterOf u t row.val).cap = (if 105000 < milliC ∧ c.hot = 9 then min 3 (c.cap + 1)
               else if milliC < 100000 ∧ c.cool = 99 then c.cap - 1 else c.cap)
           ∧ (milliC ≤ 105000 → (clusterOf u t row.val).hot = 0) ∧ (100000 ≤ milliC → (clusterOf u t row.val).cool = 0)
           ∧ (clusterOf u t row.val).point = c.point ∧ (clusterOf u t row.val).load = c.load
           ∧ (ctr u (blkPwr (wingOf t)) 0x1008).toNat = (if c.cap = 0 ∧ 105000 < milliC ∧ c.hot = 9 then
               min (2 ^ 64 - 1) ((ctr s (blkPwr (wingOf t)) 0x1008).toNat + 1) else (ctr s (blkPwr (wingOf t)) 0x1008).toNat)
           ∧ OnlyChanges [.power, .hifCtrs, .logs, .pages, .hostOut] s u)
       ∧ (∀ x, c.changing = some x → ∃ u, exec (.dvfsPointChangeDone t row) s = .next u ∧ (clusterOf u t row.val).point = x
           ∧ (clusterOf u t row.val).load = c.load ∧ (clusterOf u t row.val).cap = c.cap
           ∧ (clusterOf u t row.val).changing = (if max c.load c.cap = x then none else some (max c.load c.cap))
           ∧ (ctr u (blkPwr (wingOf t)) 0x1000).toNat = min (2 ^ 64 - 1) ((ctr s (blkPwr (wingOf t)) 0x1000).toNat + 1)
           ∧ OnlyChanges [.power, .hifCtrs, .logs, .pages, .hostOut] s u)
       ∧ (c.changing = none → exec (.dvfsPointChangeDone t row) s = .next s))
end

