-- ==== Sys2Proof/Laws/Table.lean ====
section
/-!
SUPPORT. Sparse tables: the canonical form as an order on keys, and what reading and setting a key give.
-/

namespace Sys2Proof.Machine

variable {α : Type}

/-- The canonical form: keys rise, and no pair holds the default. -/
theorem Table.canonical_iff [DecidableEq α] (d : α) (t : Table α) :
    Table.canonical d t = true ↔ (t.map Prod.fst).Pairwise (· < ·) ∧ ∀ e ∈ t, e.2 ≠ d := by
  induction t with
  | nil => simp [Table.canonical]
  | cons e t ih =>
    cases t with
    | nil => simp [Table.canonical]
    | cons f t =>
      simp only [Table.canonical, Bool.and_eq_true, decide_eq_true_eq, ih, List.map_cons, List.pairwise_cons,
        List.mem_cons, forall_eq_or_imp]
      constructor
      · rintro ⟨⟨hd, hk⟩, ⟨hlt, hp⟩, hf⟩
        refine ⟨⟨⟨hk, fun k hk' => ?_⟩, hlt, hp⟩, hd, hf⟩
        exact Nat.lt_trans hk (hlt k hk')
      · rintro ⟨⟨⟨hk, _⟩, hlt, hp⟩, hd, hf⟩
        exact ⟨⟨hd, hk⟩, ⟨hlt, hp⟩, hf⟩

theorem Table.get_nil (d : α) (a : Nat) : Table.get d ([] : Table α) a = d := rfl

/-- A key below every listed key reads the default. -/
theorem Table.get_of_lt (d : α) {t : Table α} {a : Nat} (h : ∀ e ∈ t, a < e.1) : Table.get d t a = d := by
  cases t with
  | nil => rfl
  | cons e t =>
    have := h e (by simp)
    simp [Table.get, Nat.ne_of_lt this, this]

/-- In a table whose keys rise, reading a listed key gives its value. -/
theorem Table.get_of_mem (d : α) {t : Table α} (ht : (t.map Prod.fst).Pairwise (· < ·)) {e : Nat × α} (h : e ∈ t) :
    Table.get d t e.1 = e.2 := by
  induction t with
  | nil => cases h
  | cons f t ih =>
    simp only [List.map_cons, List.pairwise_cons] at ht
    rcases List.mem_cons.1 h with rfl | h
    · simp [Table.get]
    · have hlt := ht.1 e.1 (List.mem_map_of_mem h)
      have h1 : e.1 ≠ f.1 := by omega
      have h2 : ¬ e.1 < f.1 := by omega
      simp [Table.get, h1, h2, ih ht.2 h]

/-- In a table whose keys rise, a key that is not listed reads the default. -/
theorem Table.get_of_not_mem (d : α) {t : Table α} (ht : (t.map Prod.fst).Pairwise (· < ·)) {a : Nat}
    (h : a ∉ t.map Prod.fst) : Table.get d t a = d := by
  induction t with
  | nil => rfl
  | cons f t ih =>
    simp only [List.map_cons, List.pairwise_cons, List.mem_cons, not_or] at ht h
    by_cases hlt : a < f.1
    · simp [Table.get, h.1, hlt]
    · simp [Table.get, h.1, hlt, ih ht.2 h.2]

/-- Reading across an append whose first part lies below its second. -/
theorem Table.get_append (d : α) {t u : Table α} (h : ((t ++ u).map Prod.fst).Pairwise (· < ·)) (a : Nat) :
    Table.get d (t ++ u) a = if a ∈ t.map Prod.fst then Table.get d t a else Table.get d u a := by
  rw [List.map_append, List.pairwise_append] at h
  obtain ⟨ht, hu, htu⟩ := h
  have htu' : ((t ++ u).map Prod.fst).Pairwise (· < ·) := by
    rw [List.map_append, List.pairwise_append]; exact ⟨ht, hu, htu⟩
  by_cases hm : a ∈ t.map Prod.fst
  · rw [if_pos hm]
    obtain ⟨e, he, rfl⟩ := List.mem_map.1 hm
    rw [Table.get_of_mem d htu' (List.mem_append_left u he), Table.get_of_mem d ht he]
  · rw [if_neg hm]
    by_cases hn : a ∈ u.map Prod.fst
    · obtain ⟨e, he, rfl⟩ := List.mem_map.1 hn
      rw [Table.get_of_mem d htu' (List.mem_append_right t he), Table.get_of_mem d hu he]
    · rw [Table.get_of_not_mem d hu hn, Table.get_of_not_mem d htu' (by simp only [List.map_append, List.mem_append]; exact not_or.2 ⟨hm, hn⟩)]

/-- Keys of a table after a set. -/
theorem Table.mem_set [DecidableEq α] (d : α) {t : Table α} {a : Nat} {v : α} {e : Nat × α} (h : e ∈ Table.set d t a v) :
    (e = (a, v) ∧ v ≠ d) ∨ (e ∈ t) := by
  induction t with
  | nil =>
    simp only [Table.set] at h
    split at h <;> simp_all
  | cons f t ih =>
    simp only [Table.set] at h
    split at h
    · split at h
      · exact .inr h
      · rcases List.mem_cons.1 h with h | h
        · exact .inl ⟨h, ‹_›⟩
        · exact .inr h
    · split at h
      · split at h
        · exact .inr (List.mem_cons_of_mem _ h)
        · rename_i hk hv
          rcases List.mem_cons.1 h with h | h
          · exact .inl ⟨by rw [h, hk], hv⟩
          · exact .inr (List.mem_cons_of_mem _ h)
      · rcases List.mem_cons.1 h with h | h
        · exact .inr (by simp [h])
        · rcases ih h with h | h
          · exact .inl h
          · exact .inr (List.mem_cons_of_mem _ h)

/-- Setting a key keeps the canonical form. -/
theorem Table.set_canonical [DecidableEq α] (d : α) {t : Table α} (a : Nat) (v : α) (h : Table.canonical d t = true) :
    Table.canonical d (Table.set d t a v) = true := by
  rw [Table.canonical_iff] at h ⊢
  obtain ⟨hp, hd⟩ := h
  refine ⟨?_, fun e he => ?_⟩
  · clear hd
    induction t with
    | nil => simp only [Table.set]; split <;> simp
    | cons f t ih =>
      simp only [List.map_cons, List.pairwise_cons] at hp
      simp only [Table.set]
      split
      · rename_i hlt
        split
        · simpa using hp
        · simp only [List.map_cons, List.pairwise_cons, List.mem_cons, forall_eq_or_imp]
          exact ⟨⟨hlt, fun k hk => Nat.lt_trans hlt (hp.1 k hk)⟩, hp⟩
      · split
        · split
          · exact hp.2
          · simpa using hp
        · rename_i h1 h2
          simp only [List.map_cons, List.pairwise_cons]
          refine ⟨fun k hk => ?_, ih hp.2⟩
          obtain ⟨e, he, rfl⟩ := List.mem_map.1 hk
          rcases Table.mem_set d he with ⟨rfl, _⟩ | he
          · simp only; omega
          · exact hp.1 _ (List.mem_map_of_mem he)
  · rcases Table.mem_set d he with ⟨rfl, hv⟩ | he
    · exact hv
    · exact hd e he

/-- Reading after a set. -/
theorem Table.get_set [DecidableEq α] (d : α) {t : Table α} (h : Table.canonical d t = true) (a b : Nat) (v : α) :
    Table.get d (Table.set d t a v) b = if b = a then v else Table.get d t b := by
  have hp := ((Table.canonical_iff d t).1 h).1
  clear h
  induction t with
  | nil =>
    simp only [Table.set]
    split
    · simp_all [Table.get]
    · simp only [Table.get]
      split
      · rfl
      · split <;> rfl
  | cons f t ih =>
    simp only [List.map_cons, List.pairwise_cons] at hp
    have ih := ih hp.2
    have hlow : ∀ x, x ≤ f.1 → Table.get d t x = d := fun x hx =>
      Table.get_of_lt d fun e he => by have := hp.1 e.1 (List.mem_map_of_mem he); omega
    simp only [Table.set]
    split
    · rename_i hlt
      split
      · rename_i hv
        by_cases hb : b = a
        · subst hb; simp [Table.get, Nat.ne_of_lt hlt, hlt, hv]
        · simp [hb]
      · by_cases hb : b = a
        · subst hb; simp [Table.get]
        · simp only [Table.get, hb, if_false]
          split
          · have : ¬ b = f.1 := by omega
            have h2 : b < f.1 := by omega
            simp [this, h2]
          · rfl
    · split
      · rename_i h1 h2
        subst h2
        split
        · rename_i hv
          by_cases hb : b = f.1
          · subst hb; simp [hlow, hv]
          · simp only [Table.get, hb, if_false]
            split
            · exact hlow b (by omega)
            · rfl
        · by_cases hb : b = f.1
          · simp [Table.get, hb]
          · simp [Table.get, hb]
      · rename_i h1 h2
        simp only [Table.get]
        by_cases hb : b = a
        · subst hb
          have : ¬ b = f.1 := h2
          simp [this, h1, ih]
        · rw [ih]; simp [hb]

end Sys2Proof.Machine
end

