-- ==== Sys2Proof/Laws/Memory.lean ====
section
/-!
SUPPORT. Memory: every operation on it keeps the canonical form, and what a byte reads after each.
-/

namespace Sys2Proof.Machine

/-- Rising addresses of a list of cells. -/
def Rising (m : List Host.Cell) : Prop := (m.map Prod.fst).Pairwise (· < ·)

theorem memCanonical_iff (m : List Host.Cell) : memCanonical m = true ↔ Rising m ∧ ∀ e ∈ m, e.2 ≠ 0 :=
  Table.canonical_iff 0 m

theorem Rising.tail {e : Host.Cell} {m : List Host.Cell} (h : Rising (e :: m)) : Rising m := by
  simp only [Rising, List.map_cons, List.pairwise_cons] at h; exact h.2

theorem Rising.head {e : Host.Cell} {m : List Host.Cell} (h : Rising (e :: m)) : ∀ f ∈ m, e.1 < f.1 := by
  simp only [Rising, List.map_cons, List.pairwise_cons] at h
  exact fun f hf => h.1 f.1 (List.mem_map_of_mem hf)

theorem Rising.sublist {m n : List Host.Cell} (h : Rising m) (hs : List.Sublist n m) : Rising n :=
  List.Pairwise.sublist (hs.map Prod.fst) h

/-- The cells below an address. -/
theorem mem_below {m : List Host.Cell} {a : Nat} {e : Host.Cell} (h : e ∈ m.takeWhile fun c => decide (c.1 < a)) :
    e.1 < a := by
  induction m with
  | nil => cases h
  | cons f m ih =>
    rw [List.takeWhile_cons] at h
    split at h
    · rcases List.mem_cons.1 h with rfl | h
      · exact of_decide_eq_true (by assumption)
      · exact ih h
    · cases h

/-- The cells from an address on. -/
theorem mem_cellsFrom {m : List Host.Cell} (hm : Rising m) {a : Nat} {e : Host.Cell} :
    e ∈ cellsFrom m a ↔ e ∈ m ∧ a ≤ e.1 := by
  induction m with
  | nil => simp [cellsFrom]
  | cons f m ih =>
    simp only [cellsFrom, List.dropWhile_cons]
    by_cases hf : f.1 < a
    · simp only [hf, decide_true, if_true]
      rw [show List.dropWhile (fun c : Host.Cell => decide (c.1 < a)) m = cellsFrom m a from rfl, ih hm.tail]
      constructor
      · exact fun h => ⟨List.mem_cons_of_mem _ h.1, h.2⟩
      · rintro ⟨h, ha⟩
        rcases List.mem_cons.1 h with rfl | h
        · omega
        · exact ⟨h, ha⟩
    · simp only [hf, decide_false, Bool.false_eq_true, if_false]
      constructor
      · intro h
        refine ⟨h, ?_⟩
        rcases List.mem_cons.1 h with rfl | h
        · omega
        · have := hm.head e h; omega
      · exact fun h => h.1

theorem cellsFrom_sublist (m : List Host.Cell) (a : Nat) : List.Sublist (cellsFrom m a) m := List.dropWhile_sublist _

theorem below_sublist (m : List Host.Cell) (a : Nat) : List.Sublist (m.takeWhile fun c => decide (c.1 < a)) m :=
  List.takeWhile_sublist _

/-- Cells of a run: inside its range, rising, none zero. -/
theorem mem_runCells {bs : List Byte} {a : Nat} {e : Host.Cell} (h : e ∈ runCells a bs) :
    a ≤ e.1 ∧ e.1 < a + bs.length ∧ e.2 ≠ 0 ∧ bs[e.1 - a]? = some e.2 := by
  induction bs generalizing a with
  | nil => cases h
  | cons b bs ih =>
    have step : e ∈ runCells (a + 1) bs →
        a ≤ e.1 ∧ e.1 < a + (b :: bs).length ∧ e.2 ≠ 0 ∧ (b :: bs)[e.1 - a]? = some e.2 := by
      intro h
      obtain ⟨h1, h2, h3, h4⟩ := ih h
      refine ⟨by omega, by simp only [List.length_cons]; omega, h3, ?_⟩
      rw [show e.1 - a = (e.1 - (a + 1)) + 1 by omega, List.getElem?_cons_succ]; exact h4
    simp only [runCells] at h
    split at h
    · exact step h
    · rcases List.mem_cons.1 h with rfl | h
      · exact ⟨Nat.le_refl _, by simp, ‹_›, by simp⟩
      · exact step h

theorem runCells_rising (bs : List Byte) (a : Nat) : Rising (runCells a bs) := by
  induction bs generalizing a with
  | nil => exact List.Pairwise.nil
  | cons b bs ih =>
    simp only [runCells]
    split
    · exact ih _
    · simp only [Rising, List.map_cons, List.pairwise_cons]
      refine ⟨fun k hk => ?_, ih _⟩
      obtain ⟨e, he, rfl⟩ := List.mem_map.1 hk
      have := (mem_runCells he).1; omega

theorem Rising.append {m n : List Host.Cell} (hm : Rising m) (hn : Rising n) (h : ∀ e ∈ m, ∀ f ∈ n, e.1 < f.1) :
    Rising (m ++ n) := by
  rw [Rising, List.map_append, List.pairwise_append]
  refine ⟨hm, hn, fun x hx y hy => ?_⟩
  obtain ⟨e, he, rfl⟩ := List.mem_map.1 hx
  obtain ⟨f, hf, rfl⟩ := List.mem_map.1 hy
  exact h e he f hf

theorem memWrite_rising {m : List Host.Cell} (hm : Rising m) (a : Nat) (bs : List Byte) : Rising (memWrite m a bs) := by
  unfold memWrite
  refine Rising.append (Rising.append (hm.sublist (below_sublist m a)) (runCells_rising bs a) ?_)
    (hm.sublist (cellsFrom_sublist m _)) ?_
  · intro e he f hf
    have := mem_below he; have := (mem_runCells hf).1; omega
  · intro e he f hf
    have hf := ((mem_cellsFrom hm).1 hf).2
    rcases List.mem_append.1 he with he | he
    · have := mem_below he; omega
    · have := (mem_runCells he).2.1; omega

/-- Writing keeps the canonical form. -/
theorem memWrite_canonical {m : List Host.Cell} (h : memCanonical m = true) (a : Nat) (bs : List Byte) :
    memCanonical (memWrite m a bs) = true := by
  rw [memCanonical_iff] at h ⊢
  refine ⟨memWrite_rising h.1 a bs, fun e he => ?_⟩
  rcases List.mem_append.1 he with he | he
  · rcases List.mem_append.1 he with he | he
    · exact h.2 e ((below_sublist m a).subset he)
    · exact (mem_runCells he).2.2.1
  · exact h.2 e ((cellsFrom_sublist m _).subset he)

theorem memZero_eq (m : List Host.Cell) (a n : Nat) : memZero m a n =
    m.takeWhile (fun c => decide (c.1 < a)) ++ cellsFrom m (a + n) := rfl

theorem memZero_rising {m : List Host.Cell} (hm : Rising m) (a n : Nat) : Rising (memZero m a n) := by
  unfold memZero
  refine Rising.append (hm.sublist (below_sublist m a)) (hm.sublist (cellsFrom_sublist m _)) fun e he f hf => ?_
  have := mem_below he; have := ((mem_cellsFrom hm).1 hf).2; omega

/-- Zeroing a range keeps the canonical form. -/
theorem memZero_canonical {m : List Host.Cell} (h : memCanonical m = true) (a n : Nat) :
    memCanonical (memZero m a n) = true := by
  rw [memCanonical_iff] at h ⊢
  refine ⟨memZero_rising h.1 a n, fun e he => ?_⟩
  rcases List.mem_append.1 he with he | he
  · exact h.2 e ((below_sublist m a).subset he)
  · exact h.2 e ((cellsFrom_sublist m _).subset he)

/-- The memory at reset is canonical. -/
theorem reset_memCanonical : memCanonical State.reset.mem = true := rfl

theorem memByte_of_mem {m : List Host.Cell} (hm : Rising m) {e : Host.Cell} (h : e ∈ m) : memByte m e.1 = e.2 :=
  Table.get_of_mem 0 hm h

theorem memByte_of_not_mem {m : List Host.Cell} (hm : Rising m) {a : Nat} (h : ∀ e ∈ m, e.1 ≠ a) : memByte m a = 0 :=
  Table.get_of_not_mem 0 hm fun hk => by obtain ⟨e, he, hea⟩ := List.mem_map.1 hk; exact h e he hea

/-- A byte reads the same in two rising memories that hold the same cell there. -/
theorem memByte_congr {m n : List Host.Cell} (hm : Rising m) (hn : Rising n) {a : Nat}
    (h : ∀ e : Host.Cell, e.1 = a → (e ∈ m ↔ e ∈ n)) : memByte m a = memByte n a := by
  by_cases hx : ∃ e ∈ m, e.1 = a
  · obtain ⟨e, he, rfl⟩ := hx
    rw [memByte_of_mem hm he, memByte_of_mem hn ((h e rfl).1 he)]
  · rw [memByte_of_not_mem hm fun e he hea => hx ⟨e, he, hea⟩,
      memByte_of_not_mem hn fun e he hea => hx ⟨e, (h e hea).2 he, hea⟩]

/-- Cells of a memory below an address. -/
theorem mem_below_iff {m : List Host.Cell} (hm : Rising m) {a : Nat} {e : Host.Cell} :
    e ∈ m.takeWhile (fun c => decide (c.1 < a)) ↔ e ∈ m ∧ e.1 < a := by
  constructor
  · exact fun h => ⟨(below_sublist m a).subset h, mem_below h⟩
  · rintro ⟨h, hlt⟩
    rw [← List.takeWhile_append_dropWhile (p := fun c : Host.Cell => decide (c.1 < a)) (l := m)] at h
    rcases List.mem_append.1 h with h | h
    · exact h
    · have := ((mem_cellsFrom hm (a := a)).1 h).2; omega

/-- A byte outside a written range reads as before. -/
theorem memByte_memWrite_out {m : List Host.Cell} (hm : Rising m) {a x : Nat} {bs : List Byte}
    (h : x < a ∨ a + bs.length ≤ x) : memByte (memWrite m a bs) x = memByte m x := by
  refine memByte_congr (memWrite_rising hm a bs) hm fun e he => ?_
  subst he
  simp only [memWrite, List.mem_append, mem_below_iff hm, mem_cellsFrom hm]
  constructor
  · rintro ((h' | h') | h')
    · exact h'.1
    · have := mem_runCells h'; omega
    · exact h'.1
  · intro h'
    rcases h with h | h
    · exact .inl (.inl ⟨h', h⟩)
    · exact .inr ⟨h', h⟩

/-- A byte inside a written range reads what was written. -/
theorem memByte_memWrite_in {m : List Host.Cell} (hm : Rising m) {a i : Nat} {bs : List Byte} (h : i < bs.length) :
    memByte (memWrite m a bs) (a + i) = bs[i] := by
  have hw := memWrite_rising hm a bs
  by_cases hz : bs[i] = 0
  · rw [hz]
    refine memByte_of_not_mem hw fun e he hea => ?_
    simp only [memWrite, List.mem_append, mem_below_iff hm, mem_cellsFrom hm] at he
    rcases he with (he | he) | he
    · omega
    · obtain ⟨_, _, hne, hb⟩ := mem_runCells he
      rw [hea, Nat.add_sub_cancel_left, List.getElem?_eq_getElem h] at hb
      exact hne (by rw [← Option.some.inj hb, hz])
    · omega
  · have key : ∀ (bs : List Byte) (a i : Nat) (h : i < bs.length), bs[i] ≠ 0 → (a + i, bs[i]) ∈ runCells a bs := by
      intro bs
      induction bs with
      | nil => intro a i h; simp at h
      | cons b bs ih =>
        intro a i h hne
        cases i with
        | zero =>
          simp only [List.getElem_cons_zero, Nat.add_zero] at hne ⊢
          simp only [runCells]
          rw [if_neg hne]; exact List.mem_cons_self
        | succ i =>
          simp only [List.getElem_cons_succ] at hne ⊢
          have := ih (a + 1) i (by simpa using h) hne
          rw [show a + 1 + i = a + (i + 1) by omega] at this
          simp only [runCells]
          split
          · exact this
          · exact List.mem_cons_of_mem _ this
    exact memByte_of_mem hw (e := (a + i, bs[i])) (by
      simp only [memWrite, List.mem_append]
      exact .inl (.inr (key bs a i h hz)))

/-- A byte of a zeroed range reads 0; one outside reads as before. -/
theorem memByte_memZero {m : List Host.Cell} (hm : Rising m) (a n x : Nat) :
    memByte (memZero m a n) x = if a ≤ x ∧ x < a + n then 0 else memByte m x := by
  have hz := memZero_rising hm a n
  split
  · refine memByte_of_not_mem hz fun e he hea => ?_
    simp only [memZero, List.mem_append, mem_below_iff hm, mem_cellsFrom hm] at he
    omega
  · refine memByte_congr hz hm fun e he => ?_
    subst he
    simp only [memZero, List.mem_append, mem_below_iff hm, mem_cellsFrom hm]
    constructor
    · rintro (h | h) <;> exact h.1
    · intro h
      by_cases hlt : e.1 < a
      · exact .inl ⟨h, hlt⟩
      · exact .inr ⟨h, by omega⟩

/-- Reading a run of n bytes gives the byte at each address. -/
theorem readCells_length (m : List Host.Cell) (a n : Nat) : (readCells m a n).length = n := by
  induction n generalizing m a with
  | zero => rfl
  | succ n ih =>
    cases m with
    | nil => simp [readCells, ih]
    | cons c m => simp only [readCells]; split <;> simp [ih]

theorem memBytes_length (m : List Host.Cell) (a n : Nat) : (memBytes m a n).length = n := readCells_length _ _ _

end Sys2Proof.Machine
end

