-- ==== Sys2Proof/Laws/Touch.lean ====
section
/-!
SUPPORT. A calculus of what an operation may change: `Touch m s t` says that t differs from s only in the parts whose
bits stand in the mask m, and that memory keeps its canonical form.
-/

namespace Sys2Proof.Machine

/-- Bit of a part in a mask. -/
def StatePart.idx (p : StatePart) : Nat := p.ctorIdx

/-- As `same`, but the bytes of memory are compared where memory has its canonical form. -/
def StatePart.eq (p : StatePart) (s t : State) : Prop :=
  match p with
  | .mem => memCanonical s.mem = true → StatePart.mem.same s t
  | .frameBytes => memCanonical s.mem = true → StatePart.frameBytes.same s t
  | .scratch => memCanonical s.mem = true → StatePart.scratch.same s t
  | p => p.same s t

/-- The parts of memory in a mask. -/
def memBits : Nat := 2 ^ StatePart.mem.idx + 2 ^ StatePart.frameBytes.idx + 2 ^ StatePart.scratch.idx

/-- t differs from s only in the parts of the mask, memory being the same list of cells where no part of it is in the mask;
it keeps the canonical form of memory, and numbers no task anew but from the next task number on. -/
structure Touch (m : Nat) (s t : State) : Prop where
  eq : ∀ p : StatePart, m.testBit p.idx = false → p.eq s t
  cells : m &&& memBits = 0 → t.mem = s.mem
  wf : memCanonical s.mem = true → memCanonical t.mem = true
  next : s.nextTask ≤ t.nextTask
  fresh : TasksNumbered s → TasksNumbered t

theorem StatePart.eq_refl (p : StatePart) (s : State) : p.eq s s := by
  cases p <;> simp [StatePart.eq, StatePart.same]

theorem StatePart.eq_trans {p : StatePart} {s t u : State} (w : memCanonical s.mem = true → memCanonical t.mem = true)
    (h : p.eq s t) (h' : p.eq t u) : p.eq s u := by
  cases p <;> simp_all [StatePart.eq, StatePart.same]

/-- Every part outside a mask is the same, where memory has its canonical form. -/
theorem Touch.same {m : Nat} {s t : State} (h : Touch m s t) (w : memCanonical s.mem = true) {p : StatePart}
    (hp : m.testBit p.idx = false) : p.same s t := by
  have e := h.eq p hp
  cases p <;> first
    | exact e
    | exact e w

/-- Every part outside a mask is the same where no part of memory is in the mask. -/
theorem Touch.same_of_cells {m : Nat} {s t : State} (h : Touch m s t) (w : m &&& memBits = 0)
    {p : StatePart} (hp : m.testBit p.idx = false) : p.same s t := by
  have e := h.eq p hp
  have k : t.mem = s.mem := h.cells w
  cases p <;> first
    | exact e
    | exact fun a _ _ => by rw [k]
    | exact fun a _ => by rw [k]

theorem Touch.refl {m : Nat} (s : State) : Touch m s s := ⟨fun p _ => p.eq_refl s, fun _ => rfl, id, Nat.le_refl _, id⟩

theorem testBit_of_lor {a b i : Nat} (h : a ||| b = b) (hb : b.testBit i = false) : a.testBit i = false := by
  have := congrArg (fun n => n.testBit i) h
  simp [Nat.testBit_or, hb] at this
  exact this

/-- A mask inside a mask that lies inside m lies inside m. -/
theorem testBit_sub {a b m : Nat} (h : a ||| b = b) (hm : b ||| m = m) : a ||| m = m := by
  rw [← hm, ← Nat.or_assoc, h]

theorem and_of_lor {a b k : Nat} (h : a ||| b = b) (hb : b &&& k = 0) : a &&& k = 0 := by
  have : (a ||| b) &&& k = 0 := by rw [h]; exact hb
  rw [Nat.and_or_distrib_right] at this
  exact (Nat.or_eq_zero_iff.1 this).1

theorem Touch.step {a m : Nat} {s x y : State} (h : Touch a x y) (ha : a ||| m = m) (hs : Touch m s x) : Touch m s y :=
  ⟨fun p hp => StatePart.eq_trans hs.wf (hs.eq p hp) (h.eq p (testBit_of_lor ha hp)),
    fun hm => (h.cells (and_of_lor ha hm)).trans (hs.cells hm), fun w => h.wf (hs.wf w),
    Nat.le_trans hs.next h.next, fun f => h.fresh (hs.fresh f)⟩

theorem Touch.ite {m : Nat} {s x y : State} {c : Prop} [Decidable c] (hx : c → Touch m s x) (hy : ¬c → Touch m s y) :
    Touch m s (if c then x else y) := by
  split
  · exact hx ‹_›
  · exact hy ‹_›

theorem Touch.ite_fst {α : Type} {m : Nat} {s : State} {x y : State × α} {c : Prop} [Decidable c]
    (hx : c → Touch m s x.1) (hy : ¬c → Touch m s y.1) : Touch m s (if c then x else y).1 := by
  split
  · exact hx ‹_›
  · exact hy ‹_›

theorem Touch.foldl {α : Type} {m : Nat} {s x : State} {f : State → α → State} {l : List α}
    (hx : Touch m s x) (hf : ∀ y a, Touch m s y → Touch m s (f y a)) : Touch m s (l.foldl f x) := by
  induction l generalizing x with
  | nil => exact hx
  | cons a l ih => exact ih (hf x a hx)

theorem Touch.foldl_fst {α β : Type} {m : Nat} {s : State} {x : State × β} {f : State × β → α → State × β} {l : List α}
    (hx : Touch m s x.1) (hf : ∀ y a, Touch m s y.1 → Touch m s (f y a).1) : Touch m s (l.foldl f x).1 := by
  induction l generalizing x with
  | nil => exact hx
  | cons a l ih => exact ih (hf x a hx)

theorem Touch.foldr {α : Type} {m : Nat} {s x : State} {f : α → State → State} {l : List α}
    (hx : Touch m s x) (hf : ∀ a y, Touch m s y → Touch m s (f a y)) : Touch m s (l.foldr f x) := by
  induction l with
  | nil => exact hx
  | cons a l ih => exact hf a _ ih

theorem Touch.fst {β : Type} {m : Nat} {s x : State} {b : β} {p : State × β} (h : p = (x, b)) (hp : Touch m s p.1) :
    Touch m s x := by
  subst h; exact hp

theorem Touch.snd {β : Type} {m : Nat} {s x : State} {b : β} {p : β × State} (h : p = (b, x)) (hp : Touch m s p.2) :
    Touch m s x := by
  subst h; exact hp

/-- What a step that answers a next state may change. -/
def TouchNext (m : Nat) (s : State) (o : Host.Outcome State Fault Refusal) : Prop := ∀ t, o = .next t → Touch m s t

theorem TouchNext.next {m : Nat} {s t : State} (h : Touch m s t) : TouchNext m s (.next t) := by
  intro u hu; cases hu; exact h

theorem TouchNext.ite {m : Nat} {s : State} {x y : Host.Outcome State Fault Refusal} {c : Prop} [Decidable c]
    (hx : c → TouchNext m s x) (hy : ¬c → TouchNext m s y) : TouchNext m s (if c then x else y) := by
  split
  · exact hx ‹_›
  · exact hy ‹_›

theorem TouchNext.weaken {a m : Nat} {s : State} {o : Host.Outcome State Fault Refusal} (h : TouchNext a s o)
    (ha : a ||| m = m) : TouchNext m s o := fun t ht => (h t ht).step ha (Touch.refl s)

theorem Touch.weaken {a m : Nat} {s t : State} (h : Touch a s t) (ha : a ||| m = m) : Touch m s t :=
  Touch.step h ha (Touch.refl s)

/-- Tasks whose numbers stood before are numbered as before. -/
theorem fresh_of_ids {s : State} {l : List Task} (h : ∀ y ∈ l, ∃ z ∈ s.tasks, z.id = y.id) :
    TasksNumbered s → ∀ y ∈ l, y.id < s.nextTask := fun hs y hy => by
  obtain ⟨z, hz, he⟩ := h y hy
  exact he ▸ hs z hz

theorem ids_map {l : List Task} {f : Task → Task} (hf : ∀ y, (f y).id = y.id) : ∀ y ∈ l.map f, ∃ z ∈ l, z.id = y.id := by
  intro y hy
  obtain ⟨z, hz, rfl⟩ := List.mem_map.1 hy
  exact ⟨z, hz, (hf z).symm⟩

theorem ids_filter {l : List Task} {p : Task → Bool} : ∀ y ∈ l.filter p, ∃ z ∈ l, z.id = y.id :=
  fun y hy => ⟨y, (List.mem_filter.1 hy).1, rfl⟩

/-- A state whose next task number has moved on. -/
theorem touch_nextTask (s : State) : Touch 0x200 s { s with nextTask := s.nextTask + 1 } :=
  ⟨fun p hp => by cases p <;> first | rfl | exact fun _ _ _ => rfl | exact fun _ _ _ _ => rfl | exact ⟨rfl, rfl⟩ | exact ⟨rfl, rfl, rfl⟩ | exact ⟨rfl, rfl, rfl, rfl, rfl, rfl⟩ | exact absurd hp (by decide),
    fun _ => rfl, id, Nat.le_succ _, fun h y hy => Nat.lt_succ_of_lt (h y hy)⟩

/-- A task numbered below the next task number joins the tasks. -/
theorem Touch.append {m : Nat} {s x : State} {t : Task} (h : Touch m s x) (hm : 0x100 ||| m = m) (ht : t.id < x.nextTask) :
    Touch m s { x with tasks := x.tasks ++ [t] } := by
  have h1 : Touch 0x100 x { x with tasks := x.tasks ++ [t] } := by
    refine ⟨fun p hp => ?_, fun _ => rfl, id, Nat.le_refl _, fun hx y hy => ?_⟩
    · cases p <;> first | rfl | exact fun _ _ _ => rfl | exact fun _ _ _ _ => rfl | exact ⟨rfl, rfl⟩ | exact ⟨rfl, rfl, rfl⟩ | exact ⟨rfl, rfl, rfl, rfl, rfl, rfl⟩ | exact absurd hp (by decide)
    · rcases List.mem_append.1 hy with hy | hy
      · exact hx y hy
      · rw [List.mem_singleton.1 hy]; exact ht
  exact h1.step hm h

end Sys2Proof.Machine
end

