-- ==== Sys2Proof/Laws/TouchBase.lean ====
section
/-!
SUPPORT. What an update of one part, or of the parts that change together, touches.
-/

namespace Sys2Proof.Machine

theorem touch_canOut (s : State) {x0} : Touch 0x100000000 s { s with canOut := x0 } :=
  ⟨fun p hp => by cases p <;> first | rfl | exact fun _ _ _ => rfl | exact fun _ _ _ _ => rfl | exact ⟨rfl, rfl⟩ | exact ⟨rfl, rfl, rfl⟩ | exact ⟨rfl, rfl, rfl, rfl, rfl, rfl⟩ | exact absurd hp (by decide), fun _ => rfl, id, Nat.le_refl _, id⟩

theorem touch_carSets (s : State) {x0} : Touch 0x2000 s { s with carSets := x0 } :=
  ⟨fun p hp => by cases p <;> first | rfl | exact fun _ _ _ => rfl | exact fun _ _ _ _ => rfl | exact ⟨rfl, rfl⟩ | exact ⟨rfl, rfl, rfl⟩ | exact ⟨rfl, rfl, rfl, rfl, rfl, rfl⟩ | exact absurd hp (by decide), fun _ => rfl, id, Nat.le_refl _, id⟩

theorem touch_cat (s : State) {x0} : Touch 0x40 s { s with cat := x0 } :=
  ⟨fun p hp => by cases p <;> first | rfl | exact fun _ _ _ => rfl | exact fun _ _ _ _ => rfl | exact ⟨rfl, rfl⟩ | exact ⟨rfl, rfl, rfl⟩ | exact ⟨rfl, rfl, rfl, rfl, rfl, rfl⟩ | exact absurd hp (by decide), fun _ => rfl, id, Nat.le_refl _, id⟩

theorem touch_cc (s : State) {x0} : Touch 0x10000 s { s with cc := x0 } :=
  ⟨fun p hp => by cases p <;> first | rfl | exact fun _ _ _ => rfl | exact fun _ _ _ _ => rfl | exact ⟨rfl, rfl⟩ | exact ⟨rfl, rfl, rfl⟩ | exact ⟨rfl, rfl, rfl, rfl, rfl, rfl⟩ | exact absurd hp (by decide), fun _ => rfl, id, Nat.le_refl _, id⟩

theorem touch_cfgRetry (s : State) {x0} : Touch 0x40000000 s { s with cfgRetry := x0 } :=
  ⟨fun p hp => by cases p <;> first | rfl | exact fun _ _ _ => rfl | exact fun _ _ _ _ => rfl | exact ⟨rfl, rfl⟩ | exact ⟨rfl, rfl, rfl⟩ | exact ⟨rfl, rfl, rfl, rfl, rfl, rfl⟩ | exact absurd hp (by decide), fun _ => rfl, id, Nat.le_refl _, id⟩

theorem touch_cmds (s : State) {x0} : Touch 0x400 s { s with cmds := x0 } :=
  ⟨fun p hp => by cases p <;> first | rfl | exact fun _ _ _ => rfl | exact fun _ _ _ _ => rfl | exact ⟨rfl, rfl⟩ | exact ⟨rfl, rfl, rfl⟩ | exact ⟨rfl, rfl, rfl, rfl, rfl, rfl⟩ | exact absurd hp (by decide), fun _ => rfl, id, Nat.le_refl _, id⟩

theorem touch_cst (s : State) {x0} : Touch 0x4000000 s { s with cst := x0 } :=
  ⟨fun p hp => by cases p <;> first | rfl | exact fun _ _ _ => rfl | exact fun _ _ _ _ => rfl | exact ⟨rfl, rfl⟩ | exact ⟨rfl, rfl, rfl⟩ | exact ⟨rfl, rfl, rfl, rfl, rfl, rfl⟩ | exact absurd hp (by decide), fun _ => rfl, id, Nat.le_refl _, id⟩

theorem touch_cst_power (s : State) {x0 x1} : Touch 0xc000000 s { s with cst := x0, power := x1 } :=
  ⟨fun p hp => by cases p <;> first | rfl | exact fun _ _ _ => rfl | exact fun _ _ _ _ => rfl | exact ⟨rfl, rfl⟩ | exact ⟨rfl, rfl, rfl⟩ | exact ⟨rfl, rfl, rfl, rfl, rfl, rfl⟩ | exact absurd hp (by decide), fun _ => rfl, id, Nat.le_refl _, id⟩

theorem touch_cst_power_hiCst (s : State) {x0 x1 x2} : Touch 0x1c000000 s { s with cst := x0, power := x1, hiCst := x2 } :=
  ⟨fun p hp => by cases p <;> first | rfl | exact fun _ _ _ => rfl | exact fun _ _ _ _ => rfl | exact ⟨rfl, rfl⟩ | exact ⟨rfl, rfl, rfl⟩ | exact ⟨rfl, rfl, rfl, rfl, rfl, rfl⟩ | exact absurd hp (by decide), fun _ => rfl, id, Nat.le_refl _, id⟩

theorem touch_flitOut (s : State) {x0} : Touch 0x200000000 s { s with flitOut := x0 } :=
  ⟨fun p hp => by cases p <;> first | rfl | exact fun _ _ _ => rfl | exact fun _ _ _ _ => rfl | exact ⟨rfl, rfl⟩ | exact ⟨rfl, rfl, rfl⟩ | exact ⟨rfl, rfl, rfl, rfl, rfl, rfl⟩ | exact absurd hp (by decide), fun _ => rfl, id, Nat.le_refl _, id⟩

theorem touch_freeCtr (s : State) {x0} : Touch 0x800000000 s { s with freeCtr := x0 } :=
  ⟨fun p hp => by cases p <;> first | rfl | exact fun _ _ _ => rfl | exact fun _ _ _ _ => rfl | exact ⟨rfl, rfl⟩ | exact ⟨rfl, rfl, rfl⟩ | exact ⟨rfl, rfl, rfl, rfl, rfl, rfl⟩ | exact absurd hp (by decide), fun _ => rfl, id, Nat.le_refl _, id⟩

theorem touch_heldAt (s : State) {x0} : Touch 0x400000000 s { s with heldAt := x0 } :=
  ⟨fun p hp => by cases p <;> first | rfl | exact fun _ _ _ => rfl | exact fun _ _ _ _ => rfl | exact ⟨rfl, rfl⟩ | exact ⟨rfl, rfl, rfl⟩ | exact ⟨rfl, rfl, rfl, rfl, rfl, rfl⟩ | exact absurd hp (by decide), fun _ => rfl, id, Nat.le_refl _, id⟩

theorem touch_hiHost (s : State) {x0} : Touch 0x10000000 s { s with hiHost := x0 } :=
  ⟨fun p hp => by cases p <;> first | rfl | exact fun _ _ _ => rfl | exact fun _ _ _ _ => rfl | exact ⟨rfl, rfl⟩ | exact ⟨rfl, rfl, rfl⟩ | exact ⟨rfl, rfl, rfl, rfl, rfl, rfl⟩ | exact absurd hp (by decide), fun _ => rfl, id, Nat.le_refl _, id⟩

theorem touch_hiHost_hiCst (s : State) {x0 x1} : Touch 0x10000000 s { s with hiHost := x0, hiCst := x1 } :=
  ⟨fun p hp => by cases p <;> first | rfl | exact fun _ _ _ => rfl | exact fun _ _ _ _ => rfl | exact ⟨rfl, rfl⟩ | exact ⟨rfl, rfl, rfl⟩ | exact ⟨rfl, rfl, rfl, rfl, rfl, rfl⟩ | exact absurd hp (by decide), fun _ => rfl, id, Nat.le_refl _, id⟩

theorem touch_hostOut (s : State) {x0} : Touch 0x80000000 s { s with hostOut := x0 } :=
  ⟨fun p hp => by cases p <;> first | rfl | exact fun _ _ _ => rfl | exact fun _ _ _ _ => rfl | exact ⟨rfl, rfl⟩ | exact ⟨rfl, rfl, rfl⟩ | exact ⟨rfl, rfl, rfl, rfl, rfl, rfl⟩ | exact absurd hp (by decide), fun _ => rfl, id, Nat.le_refl _, id⟩

theorem touch_insts (s : State) {x0} : Touch 0x80 s { s with insts := x0 } :=
  ⟨fun p hp => by cases p <;> first | rfl | exact fun _ _ _ => rfl | exact fun _ _ _ _ => rfl | exact ⟨rfl, rfl⟩ | exact ⟨rfl, rfl, rfl⟩ | exact ⟨rfl, rfl, rfl, rfl, rfl, rfl⟩ | exact absurd hp (by decide), fun _ => rfl, id, Nat.le_refl _, id⟩

theorem touch_jn (s : State) {x0} : Touch 0x4000 s { s with jn := x0 } :=
  ⟨fun p hp => by cases p <;> first | rfl | exact fun _ _ _ => rfl | exact fun _ _ _ _ => rfl | exact ⟨rfl, rfl⟩ | exact ⟨rfl, rfl, rfl⟩ | exact ⟨rfl, rfl, rfl, rfl, rfl, rfl⟩ | exact absurd hp (by decide), fun _ => rfl, id, Nat.le_refl _, id⟩

theorem touch_lnkCtrs (s : State) {x0} : Touch 0x20000 s { s with lnkCtrs := x0 } :=
  ⟨fun p hp => by cases p <;> first | rfl | exact fun _ _ _ => rfl | exact fun _ _ _ _ => rfl | exact ⟨rfl, rfl⟩ | exact ⟨rfl, rfl, rfl⟩ | exact ⟨rfl, rfl, rfl, rfl, rfl, rfl⟩ | exact absurd hp (by decide), fun _ => rfl, id, Nat.le_refl _, id⟩

theorem touch_poison (s : State) {x0} : Touch 0x4 s { s with poison := x0 } :=
  ⟨fun p hp => by cases p <;> first | rfl | exact fun _ _ _ => rfl | exact fun _ _ _ _ => rfl | exact ⟨rfl, rfl⟩ | exact ⟨rfl, rfl, rfl⟩ | exact ⟨rfl, rfl, rfl, rfl, rfl, rfl⟩ | exact absurd hp (by decide), fun _ => rfl, id, Nat.le_refl _, id⟩

theorem touch_portData (s : State) {x0} : Touch 0x20000000 s { s with portData := x0 } :=
  ⟨fun p hp => by cases p <;> first | rfl | exact fun _ _ _ => rfl | exact fun _ _ _ _ => rfl | exact ⟨rfl, rfl⟩ | exact ⟨rfl, rfl, rfl⟩ | exact ⟨rfl, rfl, rfl, rfl, rfl, rfl⟩ | exact absurd hp (by decide), fun _ => rfl, id, Nat.le_refl _, id⟩

theorem touch_porter (s : State) {x0} : Touch 0x20 s { s with porter := x0 } :=
  ⟨fun p hp => by cases p <;> first | rfl | exact fun _ _ _ => rfl | exact fun _ _ _ _ => rfl | exact ⟨rfl, rfl⟩ | exact ⟨rfl, rfl, rfl⟩ | exact ⟨rfl, rfl, rfl, rfl, rfl, rfl⟩ | exact absurd hp (by decide), fun _ => rfl, id, Nat.le_refl _, id⟩

theorem touch_ports (s : State) {x0} : Touch 0x8000 s { s with ports := x0 } :=
  ⟨fun p hp => by cases p <;> first | rfl | exact fun _ _ _ => rfl | exact fun _ _ _ _ => rfl | exact ⟨rfl, rfl⟩ | exact ⟨rfl, rfl, rfl⟩ | exact ⟨rfl, rfl, rfl, rfl, rfl, rfl⟩ | exact absurd hp (by decide), fun _ => rfl, id, Nat.le_refl _, id⟩

theorem touch_ports_cc (s : State) {x0 x1} : Touch 0x18000 s { s with ports := x0, cc := x1 } :=
  ⟨fun p hp => by cases p <;> first | rfl | exact fun _ _ _ => rfl | exact fun _ _ _ _ => rfl | exact ⟨rfl, rfl⟩ | exact ⟨rfl, rfl, rfl⟩ | exact ⟨rfl, rfl, rfl, rfl, rfl, rfl⟩ | exact absurd hp (by decide), fun _ => rfl, id, Nat.le_refl _, id⟩

theorem touch_power (s : State) {x0} : Touch 0x8000000 s { s with power := x0 } :=
  ⟨fun p hp => by cases p <;> first | rfl | exact fun _ _ _ => rfl | exact fun _ _ _ _ => rfl | exact ⟨rfl, rfl⟩ | exact ⟨rfl, rfl, rfl⟩ | exact ⟨rfl, rfl, rfl, rfl, rfl, rfl⟩ | exact absurd hp (by decide), fun _ => rfl, id, Nat.le_refl _, id⟩

theorem touch_readData_readPoison (s : State) {x0 x1} : Touch 0x20000000 s { s with readData := x0, readPoison := x1 } :=
  ⟨fun p hp => by cases p <;> first | rfl | exact fun _ _ _ => rfl | exact fun _ _ _ _ => rfl | exact ⟨rfl, rfl⟩ | exact ⟨rfl, rfl, rfl⟩ | exact ⟨rfl, rfl, rfl, rfl, rfl, rfl⟩ | exact absurd hp (by decide), fun _ => rfl, id, Nat.le_refl _, id⟩

theorem touch_readPoison (s : State) {x0} : Touch 0x20000000 s { s with readPoison := x0 } :=
  ⟨fun p hp => by cases p <;> first | rfl | exact fun _ _ _ => rfl | exact fun _ _ _ _ => rfl | exact ⟨rfl, rfl⟩ | exact ⟨rfl, rfl, rfl⟩ | exact ⟨rfl, rfl, rfl, rfl, rfl, rfl⟩ | exact absurd hp (by decide), fun _ => rfl, id, Nat.le_refl _, id⟩

theorem touch_sch (s : State) {x0} : Touch 0x8 s { s with sch := x0 } :=
  ⟨fun p hp => by cases p <;> first | rfl | exact fun _ _ _ => rfl | exact fun _ _ _ _ => rfl | exact ⟨rfl, rfl⟩ | exact ⟨rfl, rfl, rfl⟩ | exact ⟨rfl, rfl, rfl, rfl, rfl, rfl⟩ | exact absurd hp (by decide), fun _ => rfl, id, Nat.le_refl _, id⟩

theorem touch_sidings (s : State) {x0} : Touch 0x800 s { s with sidings := x0 } :=
  ⟨fun p hp => by cases p <;> first | rfl | exact fun _ _ _ => rfl | exact fun _ _ _ _ => rfl | exact ⟨rfl, rfl⟩ | exact ⟨rfl, rfl, rfl⟩ | exact ⟨rfl, rfl, rfl, rfl, rfl, rfl⟩ | exact absurd hp (by decide), fun _ => rfl, id, Nat.le_refl _, id⟩

theorem touch_tasks (s : State) {x0} (h : ∀ y ∈ x0, ∃ z ∈ s.tasks, z.id = y.id) : Touch 0x100 s { s with tasks := x0 } :=
  ⟨fun p hp => by cases p <;> first | rfl | exact fun _ _ _ => rfl | exact fun _ _ _ _ => rfl | exact ⟨rfl, rfl⟩ | exact ⟨rfl, rfl, rfl⟩ | exact ⟨rfl, rfl, rfl, rfl, rfl, rfl⟩ | exact absurd hp (by decide), fun _ => rfl, id, Nat.le_refl _, fresh_of_ids h⟩

theorem touch_tasks_sidings (s : State) {x0 x1} (h : ∀ y ∈ x0, ∃ z ∈ s.tasks, z.id = y.id) : Touch 0x900 s { s with tasks := x0, sidings := x1 } :=
  ⟨fun p hp => by cases p <;> first | rfl | exact fun _ _ _ => rfl | exact fun _ _ _ _ => rfl | exact ⟨rfl, rfl⟩ | exact ⟨rfl, rfl, rfl⟩ | exact ⟨rfl, rfl, rfl, rfl, rfl, rfl⟩ | exact absurd hp (by decide), fun _ => rfl, id, Nat.le_refl _, fresh_of_ids h⟩

theorem touch_tmem (s : State) {x0} : Touch 0x10 s { s with tmem := x0 } :=
  ⟨fun p hp => by cases p <;> first | rfl | exact fun _ _ _ => rfl | exact fun _ _ _ _ => rfl | exact ⟨rfl, rfl⟩ | exact ⟨rfl, rfl, rfl⟩ | exact ⟨rfl, rfl, rfl, rfl, rfl, rfl⟩ | exact absurd hp (by decide), fun _ => rfl, id, Nat.le_refl _, id⟩

theorem touch_tmem_cc (s : State) {x0 x1} : Touch 0x10010 s { s with tmem := x0, cc := x1 } :=
  ⟨fun p hp => by cases p <;> first | rfl | exact fun _ _ _ => rfl | exact fun _ _ _ _ => rfl | exact ⟨rfl, rfl⟩ | exact ⟨rfl, rfl, rfl⟩ | exact ⟨rfl, rfl, rfl, rfl, rfl, rfl⟩ | exact absurd hp (by decide), fun _ => rfl, id, Nat.le_refl _, id⟩

theorem touch_tt (s : State) {x0} : Touch 0x1000 s { s with tt := x0 } :=
  ⟨fun p hp => by cases p <;> first | rfl | exact fun _ _ _ => rfl | exact fun _ _ _ _ => rfl | exact ⟨rfl, rfl⟩ | exact ⟨rfl, rfl, rfl⟩ | exact ⟨rfl, rfl, rfl, rfl, rfl, rfl⟩ | exact absurd hp (by decide), fun _ => rfl, id, Nat.le_refl _, id⟩

theorem touch_hif_ctrs (s : State) {x0} : Touch 0x40000 s { s with hif := { s.hif with ctrs := x0 } } :=
  ⟨fun p hp => by cases p <;> first | rfl | exact fun _ _ _ => rfl | exact fun _ _ _ _ => rfl | exact ⟨rfl, rfl⟩ | exact ⟨rfl, rfl, rfl⟩ | exact ⟨rfl, rfl, rfl, rfl, rfl, rfl⟩ | exact absurd hp (by decide), fun _ => rfl, id, Nat.le_refl _, id⟩

theorem touch_hif_linkUp_speed_width_flit_cxl (s : State) {x0 x1 x2 x3 x4} : Touch 0x1000000 s { s with hif := { s.hif with linkUp := x0, speed := x1, width := x2, flit := x3, cxl := x4 } } :=
  ⟨fun p hp => by cases p <;> first | rfl | exact fun _ _ _ => rfl | exact fun _ _ _ _ => rfl | exact ⟨rfl, rfl⟩ | exact ⟨rfl, rfl, rfl⟩ | exact ⟨rfl, rfl, rfl, rfl, rfl, rfl⟩ | exact absurd hp (by decide), fun _ => rfl, id, Nat.le_refl _, id⟩

theorem touch_hif_logs (s : State) {x0} : Touch 0x80000 s { s with hif := { s.hif with logs := x0 } } :=
  ⟨fun p hp => by cases p <;> first | rfl | exact fun _ _ _ => rfl | exact fun _ _ _ _ => rfl | exact ⟨rfl, rfl⟩ | exact ⟨rfl, rfl, rfl⟩ | exact ⟨rfl, rfl, rfl, rfl, rfl, rfl⟩ | exact absurd hp (by decide), fun _ => rfl, id, Nat.le_refl _, id⟩

theorem touch_hif_mbx (s : State) {x0} : Touch 0x400000 s { s with hif := { s.hif with mbx := x0 } } :=
  ⟨fun p hp => by cases p <;> first | rfl | exact fun _ _ _ => rfl | exact fun _ _ _ _ => rfl | exact ⟨rfl, rfl⟩ | exact ⟨rfl, rfl, rfl⟩ | exact ⟨rfl, rfl, rfl, rfl, rfl, rfl⟩ | exact absurd hp (by decide), fun _ => rfl, id, Nat.le_refl _, id⟩

theorem touch_hif_orphans (s : State) {x0} : Touch 0x800000 s { s with hif := { s.hif with orphans := x0 } } :=
  ⟨fun p hp => by cases p <;> first | rfl | exact fun _ _ _ => rfl | exact fun _ _ _ _ => rfl | exact ⟨rfl, rfl⟩ | exact ⟨rfl, rfl, rfl⟩ | exact ⟨rfl, rfl, rfl, rfl, rfl, rfl⟩ | exact absurd hp (by decide), fun _ => rfl, id, Nat.le_refl _, id⟩

theorem touch_hif_orphans_rings (s : State) {x0 x1} : Touch 0xa00000 s { s with hif := { s.hif with orphans := x0, rings := x1 } } :=
  ⟨fun p hp => by cases p <;> first | rfl | exact fun _ _ _ => rfl | exact fun _ _ _ _ => rfl | exact ⟨rfl, rfl⟩ | exact ⟨rfl, rfl, rfl⟩ | exact ⟨rfl, rfl, rfl, rfl, rfl, rfl⟩ | exact absurd hp (by decide), fun _ => rfl, id, Nat.le_refl _, id⟩

theorem touch_hif_pages (s : State) {x0} : Touch 0x100000 s { s with hif := { s.hif with pages := x0 } } :=
  ⟨fun p hp => by cases p <;> first | rfl | exact fun _ _ _ => rfl | exact fun _ _ _ _ => rfl | exact ⟨rfl, rfl⟩ | exact ⟨rfl, rfl, rfl⟩ | exact ⟨rfl, rfl, rfl, rfl, rfl, rfl⟩ | exact absurd hp (by decide), fun _ => rfl, id, Nat.le_refl _, id⟩

theorem touch_hif_pf0Resetting_pages_mbx_logs (s : State) {x0 x1 x2 x3} : Touch 0x2580000 s { s with hif := { s.hif with pf0Resetting := x0, pages := x1, mbx := x2, logs := x3 } } :=
  ⟨fun p hp => by cases p <;> first | rfl | exact fun _ _ _ => rfl | exact fun _ _ _ _ => rfl | exact ⟨rfl, rfl⟩ | exact ⟨rfl, rfl, rfl⟩ | exact ⟨rfl, rfl, rfl, rfl, rfl, rfl⟩ | exact absurd hp (by decide), fun _ => rfl, id, Nat.le_refl _, id⟩

theorem touch_hif_resetting_pf0Resetting_zeroing (s : State) {x0 x1 x2} : Touch 0x2000000 s { s with hif := { s.hif with resetting := x0, pf0Resetting := x1, zeroing := x2 } } :=
  ⟨fun p hp => by cases p <;> first | rfl | exact fun _ _ _ => rfl | exact fun _ _ _ _ => rfl | exact ⟨rfl, rfl⟩ | exact ⟨rfl, rfl, rfl⟩ | exact ⟨rfl, rfl, rfl, rfl, rfl, rfl⟩ | exact absurd hp (by decide), fun _ => rfl, id, Nat.le_refl _, id⟩

theorem touch_hif_resetting_zeroing (s : State) {x0 x1} : Touch 0x2000000 s { s with hif := { s.hif with resetting := x0, zeroing := x1 } } :=
  ⟨fun p hp => by cases p <;> first | rfl | exact fun _ _ _ => rfl | exact fun _ _ _ _ => rfl | exact ⟨rfl, rfl⟩ | exact ⟨rfl, rfl, rfl⟩ | exact ⟨rfl, rfl, rfl, rfl, rfl, rfl⟩ | exact absurd hp (by decide), fun _ => rfl, id, Nat.le_refl _, id⟩

theorem touch_hif_rings (s : State) {x0} : Touch 0x200000 s { s with hif := { s.hif with rings := x0 } } :=
  ⟨fun p hp => by cases p <;> first | rfl | exact fun _ _ _ => rfl | exact fun _ _ _ _ => rfl | exact ⟨rfl, rfl⟩ | exact ⟨rfl, rfl, rfl⟩ | exact ⟨rfl, rfl, rfl, rfl, rfl, rfl⟩ | exact absurd hp (by decide), fun _ => rfl, id, Nat.le_refl _, id⟩

theorem touch_hif_vfEnable (s : State) {x0} : Touch 0x1000000 s { s with hif := { s.hif with vfEnable := x0 } } :=
  ⟨fun p hp => by cases p <;> first | rfl | exact fun _ _ _ => rfl | exact fun _ _ _ _ => rfl | exact ⟨rfl, rfl⟩ | exact ⟨rfl, rfl, rfl⟩ | exact ⟨rfl, rfl, rfl, rfl, rfl, rfl⟩ | exact absurd hp (by decide), fun _ => rfl, id, Nat.le_refl _, id⟩

theorem touch_hif_vfEnable_pages_rings (s : State) {x0 x1 x2} : Touch 0x1300000 s { s with hif := { s.hif with vfEnable := x0, pages := x1, rings := x2 } } :=
  ⟨fun p hp => by cases p <;> first | rfl | exact fun _ _ _ => rfl | exact fun _ _ _ _ => rfl | exact ⟨rfl, rfl⟩ | exact ⟨rfl, rfl, rfl⟩ | exact ⟨rfl, rfl, rfl, rfl, rfl, rfl⟩ | exact absurd hp (by decide), fun _ => rfl, id, Nat.le_refl _, id⟩

theorem touch_modHif_ctrs (s : State) (x0 : Hif → Table Word64) : Touch 0x40000 s (s.modHif fun h => { h with ctrs := x0 h }) :=
  ⟨fun p hp => by cases p <;> first | rfl | exact fun _ _ _ => rfl | exact fun _ _ _ _ => rfl | exact ⟨rfl, rfl⟩ | exact ⟨rfl, rfl, rfl⟩ | exact ⟨rfl, rfl, rfl, rfl, rfl, rfl⟩ | exact absurd hp (by decide), fun _ => rfl, id, Nat.le_refl _, id⟩

theorem touch_modHif_linkUp_speed_width_flit_cxl (s : State) (x0 : Hif → Bool) (x1 : Hif → BitVec 4) (x2 : Hif → Nat) (x3 : Hif → Bool) (x4 : Hif → Bool) : Touch 0x1000000 s (s.modHif fun h => { h with linkUp := x0 h, speed := x1 h, width := x2 h, flit := x3 h, cxl := x4 h }) :=
  ⟨fun p hp => by cases p <;> first | rfl | exact fun _ _ _ => rfl | exact fun _ _ _ _ => rfl | exact ⟨rfl, rfl⟩ | exact ⟨rfl, rfl, rfl⟩ | exact ⟨rfl, rfl, rfl, rfl, rfl, rfl⟩ | exact absurd hp (by decide), fun _ => rfl, id, Nat.le_refl _, id⟩

theorem touch_modHif_logs (s : State) (x0 : Hif → Logs) : Touch 0x80000 s (s.modHif fun h => { h with logs := x0 h }) :=
  ⟨fun p hp => by cases p <;> first | rfl | exact fun _ _ _ => rfl | exact fun _ _ _ _ => rfl | exact ⟨rfl, rfl⟩ | exact ⟨rfl, rfl, rfl⟩ | exact ⟨rfl, rfl, rfl, rfl, rfl, rfl⟩ | exact absurd hp (by decide), fun _ => rfl, id, Nat.le_refl _, id⟩

theorem touch_modHif_mbx (s : State) (x0 : Hif → Mailbox) : Touch 0x400000 s (s.modHif fun h => { h with mbx := x0 h }) :=
  ⟨fun p hp => by cases p <;> first | rfl | exact fun _ _ _ => rfl | exact fun _ _ _ _ => rfl | exact ⟨rfl, rfl⟩ | exact ⟨rfl, rfl, rfl⟩ | exact ⟨rfl, rfl, rfl, rfl, rfl, rfl⟩ | exact absurd hp (by decide), fun _ => rfl, id, Nat.le_refl _, id⟩

theorem touch_modHif_orphans (s : State) (x0 : Hif → List (Nat × Tile × Entry)) : Touch 0x800000 s (s.modHif fun h => { h with orphans := x0 h }) :=
  ⟨fun p hp => by cases p <;> first | rfl | exact fun _ _ _ => rfl | exact fun _ _ _ _ => rfl | exact ⟨rfl, rfl⟩ | exact ⟨rfl, rfl, rfl⟩ | exact ⟨rfl, rfl, rfl, rfl, rfl, rfl⟩ | exact absurd hp (by decide), fun _ => rfl, id, Nat.le_refl _, id⟩

theorem touch_modHif_orphans_rings (s : State) (x0 : Hif → List (Nat × Tile × Entry)) (x1 : Hif → Table Ring) : Touch 0xa00000 s (s.modHif fun h => { h with orphans := x0 h, rings := x1 h }) :=
  ⟨fun p hp => by cases p <;> first | rfl | exact fun _ _ _ => rfl | exact fun _ _ _ _ => rfl | exact ⟨rfl, rfl⟩ | exact ⟨rfl, rfl, rfl⟩ | exact ⟨rfl, rfl, rfl, rfl, rfl, rfl⟩ | exact absurd hp (by decide), fun _ => rfl, id, Nat.le_refl _, id⟩

theorem touch_modHif_pages (s : State) (x0 : Hif → Table FuncPage) : Touch 0x100000 s (s.modHif fun h => { h with pages := x0 h }) :=
  ⟨fun p hp => by cases p <;> first | rfl | exact fun _ _ _ => rfl | exact fun _ _ _ _ => rfl | exact ⟨rfl, rfl⟩ | exact ⟨rfl, rfl, rfl⟩ | exact ⟨rfl, rfl, rfl, rfl, rfl, rfl⟩ | exact absurd hp (by decide), fun _ => rfl, id, Nat.le_refl _, id⟩

theorem touch_modHif_pf0Resetting_pages_mbx_logs (s : State) (x0 : Hif → Bool) (x1 : Hif → Table FuncPage) (x2 : Hif → Mailbox) (x3 : Hif → Logs) : Touch 0x2580000 s (s.modHif fun h => { h with pf0Resetting := x0 h, pages := x1 h, mbx := x2 h, logs := x3 h }) :=
  ⟨fun p hp => by cases p <;> first | rfl | exact fun _ _ _ => rfl | exact fun _ _ _ _ => rfl | exact ⟨rfl, rfl⟩ | exact ⟨rfl, rfl, rfl⟩ | exact ⟨rfl, rfl, rfl, rfl, rfl, rfl⟩ | exact absurd hp (by decide), fun _ => rfl, id, Nat.le_refl _, id⟩

theorem touch_modHif_resetting_pf0Resetting_zeroing (s : State) (x0 : Hif → BitVec 16) (x1 : Hif → Bool) (x2 : Hif → Table (List (Nat × Nat))) : Touch 0x2000000 s (s.modHif fun h => { h with resetting := x0 h, pf0Resetting := x1 h, zeroing := x2 h }) :=
  ⟨fun p hp => by cases p <;> first | rfl | exact fun _ _ _ => rfl | exact fun _ _ _ _ => rfl | exact ⟨rfl, rfl⟩ | exact ⟨rfl, rfl, rfl⟩ | exact ⟨rfl, rfl, rfl, rfl, rfl, rfl⟩ | exact absurd hp (by decide), fun _ => rfl, id, Nat.le_refl _, id⟩

theorem touch_modHif_resetting_zeroing (s : State) (x0 : Hif → BitVec 16) (x1 : Hif → Table (List (Nat × Nat))) : Touch 0x2000000 s (s.modHif fun h => { h with resetting := x0 h, zeroing := x1 h }) :=
  ⟨fun p hp => by cases p <;> first | rfl | exact fun _ _ _ => rfl | exact fun _ _ _ _ => rfl | exact ⟨rfl, rfl⟩ | exact ⟨rfl, rfl, rfl⟩ | exact ⟨rfl, rfl, rfl, rfl, rfl, rfl⟩ | exact absurd hp (by decide), fun _ => rfl, id, Nat.le_refl _, id⟩

theorem touch_modHif_rings (s : State) (x0 : Hif → Table Ring) : Touch 0x200000 s (s.modHif fun h => { h with rings := x0 h }) :=
  ⟨fun p hp => by cases p <;> first | rfl | exact fun _ _ _ => rfl | exact fun _ _ _ _ => rfl | exact ⟨rfl, rfl⟩ | exact ⟨rfl, rfl, rfl⟩ | exact ⟨rfl, rfl, rfl, rfl, rfl, rfl⟩ | exact absurd hp (by decide), fun _ => rfl, id, Nat.le_refl _, id⟩

theorem touch_modHif_vfEnable (s : State) (x0 : Hif → Bool) : Touch 0x1000000 s (s.modHif fun h => { h with vfEnable := x0 h }) :=
  ⟨fun p hp => by cases p <;> first | rfl | exact fun _ _ _ => rfl | exact fun _ _ _ _ => rfl | exact ⟨rfl, rfl⟩ | exact ⟨rfl, rfl, rfl⟩ | exact ⟨rfl, rfl, rfl, rfl, rfl, rfl⟩ | exact absurd hp (by decide), fun _ => rfl, id, Nat.le_refl _, id⟩

theorem touch_modHif_vfEnable_pages_rings (s : State) (x0 : Hif → Bool) (x1 : Hif → Table FuncPage) (x2 : Hif → Table Ring) : Touch 0x1300000 s (s.modHif fun h => { h with vfEnable := x0 h, pages := x1 h, rings := x2 h }) :=
  ⟨fun p hp => by cases p <;> first | rfl | exact fun _ _ _ => rfl | exact fun _ _ _ _ => rfl | exact ⟨rfl, rfl⟩ | exact ⟨rfl, rfl, rfl⟩ | exact ⟨rfl, rfl, rfl, rfl, rfl, rfl⟩ | exact absurd hp (by decide), fun _ => rfl, id, Nat.le_refl _, id⟩

end Sys2Proof.Machine
end

