-- ==== Sys2Proof/Laws/TouchOps.lean ====
section
/-!
SUPPORT. What the operations of Ops may change.
-/

namespace Sys2Proof.Machine

theorem State_modSch_touch (s : State) (t : Tile) (f : Sch → Sch) : Touch 0x8 s (State.modSch s t f) := by
  unfold State.modSch
  repeat' first
    | with_reducible exact Touch.refl _
    | (with_reducible apply Touch.step (touch_sch ..)); exact rfl

theorem State_modMem_touch (s : State) (t : Tile) (f : TileMem → TileMem) : Touch 0x10 s (State.modMem s t f) := by
  unfold State.modMem
  repeat' first
    | with_reducible exact Touch.refl _
    | (with_reducible apply Touch.step (touch_tmem ..)); exact rfl

theorem State_modPorter_touch (s : State) (t : Tile) (f : Porter → Porter) : Touch 0x20 s (State.modPorter s t f) := by
  unfold State.modPorter
  repeat' first
    | with_reducible exact Touch.refl _
    | (with_reducible apply Touch.step (touch_porter ..)); exact rfl

theorem State_modCat_touch (s : State) (t : Tile) (f : Catalogue → Catalogue) : Touch 0x40 s (State.modCat s t f) := by
  unfold State.modCat
  repeat' first
    | with_reducible exact Touch.refl _
    | (with_reducible apply Touch.step (touch_cat ..)); exact rfl

theorem State_modTt_touch (s : State) (w : Wing) (f : Timetable → Timetable) : Touch 0x1000 s (State.modTt s w f) := by
  unfold State.modTt
  repeat' first
    | with_reducible exact Touch.refl _
    | (with_reducible apply Touch.step (touch_tt ..)); exact rfl

theorem State_modJn_touch (s : State) (w : Wing) (f : Junction → Junction) : Touch 0x4000 s (State.modJn s w f) := by
  unfold State.modJn
  repeat' first
    | with_reducible exact Touch.refl _
    | (with_reducible apply Touch.step (touch_jn ..)); exact rfl

theorem State_modLogs_touch (s : State) (f : Logs → Logs) : Touch 0x80000 s (State.modLogs s f) := by
  unfold State.modLogs
  repeat' first
    | with_reducible exact Touch.refl _
    | dsimp only
    | (with_reducible apply Touch.step (touch_hif_logs ..)); exact rfl

theorem State_modCst_touch (s : State) (f : Custodian → Custodian) : Touch 0x4000000 s (State.modCst s f) := by
  unfold State.modCst
  repeat' first
    | with_reducible exact Touch.refl _
    | (with_reducible apply Touch.step (touch_cst ..)); exact rfl

theorem State_modPower_touch (s : State) (f : Power → Power) : Touch 0x8000000 s (State.modPower s f) := by
  unfold State.modPower
  repeat' first
    | with_reducible exact Touch.refl _
    | (with_reducible apply Touch.step (touch_power ..)); exact rfl

theorem setPoison_touch (s : State) (a : Nat) : Touch 0x4 s (setPoison s a) := by
  unfold setPoison
  repeat' first
    | with_reducible exact Touch.refl _
    | (with_reducible apply Touch.step (touch_poison ..)); exact rfl

theorem writePa_touch (s : State) (a : Nat) (bs : List Byte) : Touch 0x3000000006 s (writePa s a bs) :=
  ⟨fun p hp => by cases p <;> first | rfl | exact fun _ _ _ => rfl | exact fun _ _ _ _ => rfl | exact ⟨rfl, rfl⟩ | exact ⟨rfl, rfl, rfl⟩ | exact ⟨rfl, rfl, rfl, rfl, rfl, rfl⟩ | exact absurd hp (by decide), fun h => absurd h (by decide), fun h => memWrite_canonical h _ _, Nat.le_refl _, id⟩

theorem writeFrame_touch (s : State) (t : Tile) (f : Nat) (bs : List Byte) : Touch 0x1000000004 s (writeFrame s t f bs) := by
  refine ⟨fun p hp => ?_, fun h => absurd h (by decide), fun h => memWrite_canonical h _ _, Nat.le_refl _, id⟩
  cases p <;> first
    | rfl
    | exact ⟨rfl, rfl⟩
    | exact ⟨rfl, rfl, rfl⟩
    | exact ⟨rfl, rfl, rfl, rfl, rfl, rfl⟩
    | exact absurd hp (by decide)
    | skip
  all_goals
    intro w a
    intros
    refine memByte_memWrite_out ((memCanonical_iff _).1 w).1 ?_
    have : tileIdx t < 4 := by cases t <;> decide
    have : f % 1600 < 1600 := Nat.mod_lt _ (by decide)
    simp only [inFrames, inScratch, frameBase, List.length_take] at *
    omega

theorem zeroPa_touch (s : State) (a n : Nat) : Touch 0x3000000006 s (zeroPa s a n) :=
  ⟨fun p hp => by cases p <;> first | rfl | exact fun _ _ _ => rfl | exact fun _ _ _ _ => rfl | exact ⟨rfl, rfl⟩ | exact ⟨rfl, rfl, rfl⟩ | exact ⟨rfl, rfl, rfl, rfl, rfl, rfl⟩ | exact absurd hp (by decide), fun h => absurd h (by decide), fun h => memZero_canonical h _ _, Nat.le_refl _, id⟩

theorem freeBytes_touch (s : State) (n : Nat) : Touch 0x800000000 s (freeBytes s n).2 := by
  unfold freeBytes
  repeat' first
    | with_reducible exact Touch.refl _
    | dsimp only
    | (with_reducible apply Touch.step (touch_freeCtr ..)); exact rfl

theorem freeChoice_touch (s : State) : Touch 0x800000000 s (freeChoice s).2 := by
  unfold freeChoice
  repeat' first
    | with_reducible exact Touch.refl _
    | dsimp only
    | (with_reducible apply Touch.step (touch_freeCtr ..)); exact rfl

theorem State_modPage_touch (s : State) (f : Func) (g : FuncPage → FuncPage) : Touch 0x100000 s (State.modPage s f g) := by
  unfold State.modPage
  repeat' first
    | with_reducible exact Touch.refl _
    | dsimp only
    | (with_reducible apply Touch.step (touch_hif_pages ..)); exact rfl

theorem sendMsix_touch (s : State) (f : Func) (v : Nat) : Touch 0x80100000 s (sendMsix s f v) := by
  unfold sendMsix
  repeat' first
    | with_reducible exact Touch.refl _
    | (with_reducible apply Touch.step (State_modPage_touch ..)); exact rfl
    | with_reducible apply Touch.ite
    | split
    | dsimp only
    | intro _
    | (with_reducible apply Touch.step (touch_hostOut ..)); exact rfl

theorem flushVector_touch (s : State) (f : Func) (v : Nat) : Touch 0x80100000 s (flushVector s f v) := by
  unfold flushVector
  repeat' first
    | with_reducible exact Touch.refl _
    | (with_reducible apply Touch.step (State_modPage_touch ..)); exact rfl
    | with_reducible apply Touch.ite
    | dsimp only
    | intro _
    | (with_reducible apply Touch.step (touch_hostOut ..)); exact rfl

theorem flushMsix_touch (s : State) (f : Func) : Touch 0x80100000 s (flushMsix s f) := by
  unfold flushMsix
  repeat' first
    | with_reducible exact Touch.refl _
    | (with_reducible apply Touch.step (flushVector_touch ..)); exact rfl
    | with_reducible apply Touch.foldl
    | intro _

theorem postEvent_touch {s t : State} {r : BitVec 128} (h : postEvent s r = some t) : Touch 0x80180000 s t := by
  unfold postEvent at h
  dsimp only at h
  split at h
  · cases h
  · rw [← Option.some.inj h]
    repeat' first
      | with_reducible refine Touch.ite (fun _ => ?_) (fun _ => ?_)
      | (with_reducible apply Touch.step (sendMsix_touch ..)); exact rfl
      | (with_reducible apply Touch.step (State_modLogs_touch ..)); exact rfl
      | exact Touch.step (touch_hostOut s) rfl (Touch.refl s)

theorem countLost_touch (s : State) : Touch 0xc0000 s (countLost s) :=
  Touch.step (touch_hif_ctrs _) rfl (Touch.step (State_modLogs_touch ..) rfl (Touch.refl s))

theorem offerEvent_touch {s t : State} {w : Wing} {r : BitVec 128} (h : offerEvent s w r = some t) : Touch 0x80180000 s t := by
  unfold offerEvent at h
  split at h
  · split at h
    · cases h
    · rw [← Option.some.inj h]; exact Touch.step (State_modLogs_touch ..) rfl (Touch.refl s)
  · exact postEvent_touch h

theorem loseEvent_touch (s : State) : Touch 0x801c0000 s (loseEvent s) := by
  have hc := Touch.step (countLost_touch s) (m := 0x801c0000) rfl (Touch.refl s)
  unfold loseEvent
  dsimp only
  split
  · cases h : offerEvent (countLost s) .east (eventRecord (countLost s) 0x0901 offEvLost blkHif 0) with
    | none => exact Touch.step (countLost_touch _) rfl hc
    | some t => exact Touch.step (offerEvent_touch h) rfl hc
  · exact hc

theorem raise_touch (s : State) (ev data block part : Nat) : Touch 0x801c0000 s (raise s ev data block part) := by
  unfold raise
  split
  · exact Touch.step (offerEvent_touch ‹_›) rfl (Touch.refl s)
  · exact loseEvent_touch s

theorem setCtrTable_touch (s : State) (block : Nat) (c : Table Word64) : Touch 0x8065078 s (setCtrTable s block c) := by
  unfold setCtrTable
  repeat' first
    | exact Touch.refl s
    | (with_reducible apply Touch.step (State_modSch_touch ..)); exact rfl
    | (with_reducible apply Touch.step (State_modMem_touch ..)); exact rfl
    | (with_reducible apply Touch.step (State_modPorter_touch ..)); exact rfl
    | (with_reducible apply Touch.step (State_modCat_touch ..)); exact rfl
    | (with_reducible apply Touch.step (State_modTt_touch ..)); exact rfl
    | (with_reducible apply Touch.step (State_modJn_touch ..)); exact rfl
    | (with_reducible apply Touch.step (State_modPower_touch ..)); exact rfl
    | exact Touch.step (touch_hif_ctrs s) rfl (Touch.refl s)
    | exact Touch.step (touch_lnkCtrs s) rfl (Touch.refl s)
    | split

theorem addCtr_touch (s : State) (block off n : Nat) : Touch 0x881e5078 s (addCtr s block off n) := by
  unfold addCtr
  dsimp only
  split
  · exact Touch.step (raise_touch ..) rfl (Touch.step (setCtrTable_touch ..) rfl (Touch.refl s))
  · exact Touch.step (setCtrTable_touch ..) rfl (Touch.refl s)

theorem setCtr_touch_sch (s : State) (t : Tile) (c : Table Word64) : Touch 0x8 s (setCtrTable s (blkSch t) c) := by
  cases t <;> exact touch_sch s

theorem addCtr_touch_sch (s : State) (t : Tile) (off n : Nat) : Touch 0x801c0008 s (addCtr s (blkSch t) off n) := by
  unfold addCtr
  dsimp only
  split
  · exact Touch.step (raise_touch ..) rfl (Touch.step (setCtr_touch_sch ..) rfl (Touch.refl s))
  · exact Touch.step (setCtr_touch_sch ..) rfl (Touch.refl s)

theorem setCtr_touch_mem (s : State) (t : Tile) (c : Table Word64) : Touch 0x10 s (setCtrTable s (blkMem t) c) := by
  cases t <;> exact touch_tmem s

theorem addCtr_touch_mem (s : State) (t : Tile) (off n : Nat) : Touch 0x801c0010 s (addCtr s (blkMem t) off n) := by
  unfold addCtr
  dsimp only
  split
  · exact Touch.step (raise_touch ..) rfl (Touch.step (setCtr_touch_mem ..) rfl (Touch.refl s))
  · exact Touch.step (setCtr_touch_mem ..) rfl (Touch.refl s)

theorem setCtr_touch_pw (s : State) (t : Tile) (c : Table Word64) : Touch 0x20 s (setCtrTable s (blkPw t) c) := by
  cases t <;> exact touch_porter s

theorem addCtr_touch_pw (s : State) (t : Tile) (off n : Nat) : Touch 0x801c0020 s (addCtr s (blkPw t) off n) := by
  unfold addCtr
  dsimp only
  split
  · exact Touch.step (raise_touch ..) rfl (Touch.step (setCtr_touch_pw ..) rfl (Touch.refl s))
  · exact Touch.step (setCtr_touch_pw ..) rfl (Touch.refl s)

theorem setCtr_touch_cat (s : State) (t : Tile) (c : Table Word64) : Touch 0x40 s (setCtrTable s (blkCat t) c) := by
  cases t <;> exact touch_cat s

theorem addCtr_touch_cat (s : State) (t : Tile) (off n : Nat) : Touch 0x801c0040 s (addCtr s (blkCat t) off n) := by
  unfold addCtr
  dsimp only
  split
  · exact Touch.step (raise_touch ..) rfl (Touch.step (setCtr_touch_cat ..) rfl (Touch.refl s))
  · exact Touch.step (setCtr_touch_cat ..) rfl (Touch.refl s)

theorem setCtr_touch_hif (s : State) (c : Table Word64) : Touch 0x40000 s (setCtrTable s (blkHif) c) := by
  exact touch_hif_ctrs s

theorem addCtr_touch_hif (s : State) (off n : Nat) : Touch 0x801c0000 s (addCtr s (blkHif) off n) := by
  unfold addCtr
  dsimp only
  split
  · exact Touch.step (raise_touch ..) rfl (Touch.step (setCtr_touch_hif ..) rfl (Touch.refl s))
  · exact Touch.step (setCtr_touch_hif ..) rfl (Touch.refl s)

theorem setCtr_touch_tt (s : State) (w : Wing) (c : Table Word64) : Touch 0x1000 s (setCtrTable s (blkTt w) c) := by
  cases w <;> exact touch_tt s

theorem addCtr_touch_tt (s : State) (w : Wing) (off n : Nat) : Touch 0x801c1000 s (addCtr s (blkTt w) off n) := by
  unfold addCtr
  dsimp only
  split
  · exact Touch.step (raise_touch ..) rfl (Touch.step (setCtr_touch_tt ..) rfl (Touch.refl s))
  · exact Touch.step (setCtr_touch_tt ..) rfl (Touch.refl s)

theorem setCtr_touch_jn (s : State) (w : Wing) (c : Table Word64) : Touch 0x4000 s (setCtrTable s (blkJn w) c) := by
  cases w <;> exact touch_jn s

theorem addCtr_touch_jn (s : State) (w : Wing) (off n : Nat) : Touch 0x801c4000 s (addCtr s (blkJn w) off n) := by
  unfold addCtr
  dsimp only
  split
  · exact Touch.step (raise_touch ..) rfl (Touch.step (setCtr_touch_jn ..) rfl (Touch.refl s))
  · exact Touch.step (setCtr_touch_jn ..) rfl (Touch.refl s)

theorem setCtr_touch_lnk (s : State) (w : Wing) (c : Table Word64) : Touch 0x20000 s (setCtrTable s (blkLnk w) c) := by
  cases w <;> exact touch_lnkCtrs s

theorem addCtr_touch_lnk (s : State) (w : Wing) (off n : Nat) : Touch 0x801e0000 s (addCtr s (blkLnk w) off n) := by
  unfold addCtr
  dsimp only
  split
  · exact Touch.step (raise_touch ..) rfl (Touch.step (setCtr_touch_lnk ..) rfl (Touch.refl s))
  · exact Touch.step (setCtr_touch_lnk ..) rfl (Touch.refl s)

theorem setCtr_touch_pwr (s : State) (w : Wing) (c : Table Word64) : Touch 0x8000000 s (setCtrTable s (blkPwr w) c) := by
  cases w <;> exact touch_power s

theorem addCtr_touch_pwr (s : State) (w : Wing) (off n : Nat) : Touch 0x881c0000 s (addCtr s (blkPwr w) off n) := by
  unfold addCtr
  dsimp only
  split
  · exact Touch.step (raise_touch ..) rfl (Touch.step (setCtr_touch_pwr ..) rfl (Touch.refl s))
  · exact Touch.step (setCtr_touch_pwr ..) rfl (Touch.refl s)

theorem enterLog_touch (s : State) (e : BitVec 256) : Touch 0x80000 s (enterLog s e) := by
  unfold enterLog
  repeat' first
    | with_reducible exact Touch.refl _
    | (with_reducible apply Touch.step (State_modLogs_touch ..)); exact rfl

theorem logCause_touch (s : State) (c : CauseInfo) : Touch 0x801c0000 s (logCause s c) := by
  unfold logCause
  repeat' first
    | with_reducible exact Touch.refl _
    | (with_reducible apply Touch.step (State_modLogs_touch ..)); exact rfl
    | (with_reducible apply Touch.step (enterLog_touch ..)); exact rfl
    | (with_reducible apply Touch.step (addCtr_touch_hif ..)); exact rfl
    | with_reducible apply Touch.ite
    | split
    | intro _

theorem State_modRing_touch (s : State) (f : Func) (r : Nat) (g : Ring → Ring) : Touch 0x200000 s (State.modRing s f r g) := by
  unfold State.modRing
  repeat' first
    | with_reducible exact Touch.refl _
    | dsimp only
    | (with_reducible apply Touch.step (touch_hif_rings ..)); exact rfl

theorem writeCompletion_touch (s : State) (f : Func) (r : Nat) (e : BitVec 128) : Touch 0x80300000 s (writeCompletion s f r e) := by
  unfold writeCompletion
  repeat' first
    | with_reducible exact Touch.refl _
    | (with_reducible apply Touch.step (sendMsix_touch ..)); exact rfl
    | (with_reducible apply Touch.step (State_modRing_touch ..)); exact rfl
    | with_reducible apply Touch.ite
    | split
    | intro _
    | (with_reducible apply Touch.step (touch_hostOut ..)); exact rfl

theorem answerEntry_touch (s : State) (f : Func) (r : Nat) (c : Completion) : Touch 0x80300000 s (answerEntry s f r c) := by
  unfold answerEntry
  repeat' first
    | with_reducible exact Touch.refl _
    | (with_reducible apply Touch.step (State_modRing_touch ..)); exact rfl
    | (with_reducible apply Touch.step (writeCompletion_touch ..)); exact rfl
    | with_reducible apply Touch.ite
    | split
    | intro _

theorem flushHeld_touch (n : Nat) (s : State) (f : Func) (r : Nat) : Touch 0x80300000 s (flushHeld n s f r) := by
  induction n generalizing s with
  | zero => exact Touch.refl s
  | succ n ih =>
    unfold flushHeld
    dsimp only
    split
    · exact Touch.refl s
    · split
      · exact Touch.refl s
      · refine Touch.step (ih _) rfl ?_
        split
        · exact State_modRing_touch .. |>.weaken rfl
        · exact Touch.step (writeCompletion_touch ..) rfl (State_modRing_touch .. |>.weaken rfl)

theorem flushFunc_touch (s : State) (f : Func) : Touch 0x80300000 s (flushFunc s f) := by
  unfold flushFunc
  repeat' first
    | with_reducible exact Touch.refl _
    | (with_reducible apply Touch.step (flushHeld_touch ..)); exact rfl
    | with_reducible apply Touch.foldl
    | intro _

end Sys2Proof.Machine
end

