-- ==== Sys2Proof/Laws/Ops.lean ====
section
/-!
SUPPORT. What the operations every unit shares leave unchanged, field by field: reports, counters, messages, completion
entries and physical writes.
-/

namespace Sys2Proof.Machine

@[simp] theorem raise_pending (s : State) (e d b p : Nat) : (raise s e d b p).pending = s.pending := (raise_touch s e d b p).eq .pending rfl
@[simp] theorem raise_mem (s : State) (e d b p : Nat) : (raise s e d b p).mem = s.mem := (raise_touch s e d b p).cells rfl
@[simp] theorem raise_poison (s : State) (e d b p : Nat) : (raise s e d b p).poison = s.poison := (raise_touch s e d b p).eq .poison rfl
@[simp] theorem raise_sch (s : State) (e d b p : Nat) : (raise s e d b p).sch = s.sch := (raise_touch s e d b p).eq .sch rfl
@[simp] theorem raise_tmem (s : State) (e d b p : Nat) : (raise s e d b p).tmem = s.tmem := (raise_touch s e d b p).eq .tmem rfl
@[simp] theorem raise_porter (s : State) (e d b p : Nat) : (raise s e d b p).porter = s.porter := (raise_touch s e d b p).eq .porter rfl
@[simp] theorem raise_cat (s : State) (e d b p : Nat) : (raise s e d b p).cat = s.cat := (raise_touch s e d b p).eq .cat rfl
@[simp] theorem raise_insts (s : State) (e d b p : Nat) : (raise s e d b p).insts = s.insts := (raise_touch s e d b p).eq .insts rfl
@[simp] theorem raise_tasks (s : State) (e d b p : Nat) : (raise s e d b p).tasks = s.tasks := (raise_touch s e d b p).eq .tasks rfl
@[simp] theorem raise_nextTask (s : State) (e d b p : Nat) : (raise s e d b p).nextTask = s.nextTask := (raise_touch s e d b p).eq .nextTask rfl
@[simp] theorem raise_cmds (s : State) (e d b p : Nat) : (raise s e d b p).cmds = s.cmds := (raise_touch s e d b p).eq .cmds rfl
@[simp] theorem raise_sidings (s : State) (e d b p : Nat) : (raise s e d b p).sidings = s.sidings := (raise_touch s e d b p).eq .sidings rfl
@[simp] theorem raise_tt (s : State) (e d b p : Nat) : (raise s e d b p).tt = s.tt := (raise_touch s e d b p).eq .tt rfl
@[simp] theorem raise_carSets (s : State) (e d b p : Nat) : (raise s e d b p).carSets = s.carSets := (raise_touch s e d b p).eq .carSets rfl
@[simp] theorem raise_jn (s : State) (e d b p : Nat) : (raise s e d b p).jn = s.jn := (raise_touch s e d b p).eq .jn rfl
@[simp] theorem raise_ports (s : State) (e d b p : Nat) : (raise s e d b p).ports = s.ports := (raise_touch s e d b p).eq .ports rfl
@[simp] theorem raise_cc (s : State) (e d b p : Nat) : (raise s e d b p).cc = s.cc := (raise_touch s e d b p).eq .cc rfl
@[simp] theorem raise_lnkCtrs (s : State) (e d b p : Nat) : (raise s e d b p).lnkCtrs = s.lnkCtrs := (raise_touch s e d b p).eq .lnkCtrs rfl
@[simp] theorem raise_cst (s : State) (e d b p : Nat) : (raise s e d b p).cst = s.cst := (raise_touch s e d b p).eq .cst rfl
@[simp] theorem raise_power (s : State) (e d b p : Nat) : (raise s e d b p).power = s.power := (raise_touch s e d b p).eq .power rfl
@[simp] theorem raise_cfgRetry (s : State) (e d b p : Nat) : (raise s e d b p).cfgRetry = s.cfgRetry := (raise_touch s e d b p).eq .cfgRetry rfl
@[simp] theorem raise_canOut (s : State) (e d b p : Nat) : (raise s e d b p).canOut = s.canOut := (raise_touch s e d b p).eq .canOut rfl
@[simp] theorem raise_flitOut (s : State) (e d b p : Nat) : (raise s e d b p).flitOut = s.flitOut := (raise_touch s e d b p).eq .flitOut rfl
@[simp] theorem raise_heldAt (s : State) (e d b p : Nat) : (raise s e d b p).heldAt = s.heldAt := (raise_touch s e d b p).eq .heldAt rfl
@[simp] theorem raise_freeCtr (s : State) (e d b p : Nat) : (raise s e d b p).freeCtr = s.freeCtr := (raise_touch s e d b p).eq .freeCtr rfl
@[simp] theorem raise_hif_rings (s : State) (e d b p : Nat) : (raise s e d b p).hif.rings = s.hif.rings := (raise_touch s e d b p).eq .rings rfl
@[simp] theorem raise_hif_mbx (s : State) (e d b p : Nat) : (raise s e d b p).hif.mbx = s.hif.mbx := (raise_touch s e d b p).eq .mbx rfl
@[simp] theorem raise_hif_orphans (s : State) (e d b p : Nat) : (raise s e d b p).hif.orphans = s.hif.orphans := (raise_touch s e d b p).eq .orphans rfl
@[simp] theorem raise_hif_linkUp (s : State) (e d b p : Nat) : (raise s e d b p).hif.linkUp = s.hif.linkUp := ((raise_touch s e d b p).eq .port rfl).1
@[simp] theorem raise_hif_vfEnable (s : State) (e d b p : Nat) : (raise s e d b p).hif.vfEnable = s.hif.vfEnable := ((raise_touch s e d b p).eq .port rfl).2.2.2.2.2
@[simp] theorem raise_hif_resetting (s : State) (e d b p : Nat) : (raise s e d b p).hif.resetting = s.hif.resetting := ((raise_touch s e d b p).eq .resets rfl).1
@[simp] theorem raise_hif_pf0Resetting (s : State) (e d b p : Nat) : (raise s e d b p).hif.pf0Resetting = s.hif.pf0Resetting := ((raise_touch s e d b p).eq .resets rfl).2.1
@[simp] theorem raise_hif_zeroing (s : State) (e d b p : Nat) : (raise s e d b p).hif.zeroing = s.hif.zeroing := ((raise_touch s e d b p).eq .resets rfl).2.2
@[simp] theorem raise_hiHost (s : State) (e d b p : Nat) : (raise s e d b p).hiHost = s.hiHost := ((raise_touch s e d b p).eq .latches rfl).1
@[simp] theorem raise_hiCst (s : State) (e d b p : Nat) : (raise s e d b p).hiCst = s.hiCst := ((raise_touch s e d b p).eq .latches rfl).2
@[simp] theorem raise_readData (s : State) (e d b p : Nat) : (raise s e d b p).readData = s.readData := ((raise_touch s e d b p).eq .readOut rfl).1
@[simp] theorem raise_readPoison (s : State) (e d b p : Nat) : (raise s e d b p).readPoison = s.readPoison := ((raise_touch s e d b p).eq .readOut rfl).2.1
@[simp] theorem raise_portData (s : State) (e d b p : Nat) : (raise s e d b p).portData = s.portData := ((raise_touch s e d b p).eq .readOut rfl).2.2
@[simp] theorem logCause_pending (s : State) (c : CauseInfo) : (logCause s c).pending = s.pending := (logCause_touch s c).eq .pending rfl
@[simp] theorem logCause_mem (s : State) (c : CauseInfo) : (logCause s c).mem = s.mem := (logCause_touch s c).cells rfl
@[simp] theorem logCause_poison (s : State) (c : CauseInfo) : (logCause s c).poison = s.poison := (logCause_touch s c).eq .poison rfl
@[simp] theorem logCause_sch (s : State) (c : CauseInfo) : (logCause s c).sch = s.sch := (logCause_touch s c).eq .sch rfl
@[simp] theorem logCause_tmem (s : State) (c : CauseInfo) : (logCause s c).tmem = s.tmem := (logCause_touch s c).eq .tmem rfl
@[simp] theorem logCause_porter (s : State) (c : CauseInfo) : (logCause s c).porter = s.porter := (logCause_touch s c).eq .porter rfl
@[simp] theorem logCause_cat (s : State) (c : CauseInfo) : (logCause s c).cat = s.cat := (logCause_touch s c).eq .cat rfl
@[simp] theorem logCause_insts (s : State) (c : CauseInfo) : (logCause s c).insts = s.insts := (logCause_touch s c).eq .insts rfl
@[simp] theorem logCause_tasks (s : State) (c : CauseInfo) : (logCause s c).tasks = s.tasks := (logCause_touch s c).eq .tasks rfl
@[simp] theorem logCause_nextTask (s : State) (c : CauseInfo) : (logCause s c).nextTask = s.nextTask := (logCause_touch s c).eq .nextTask rfl
@[simp] theorem logCause_cmds (s : State) (c : CauseInfo) : (logCause s c).cmds = s.cmds := (logCause_touch s c).eq .cmds rfl
@[simp] theorem logCause_sidings (s : State) (c : CauseInfo) : (logCause s c).sidings = s.sidings := (logCause_touch s c).eq .sidings rfl
@[simp] theorem logCause_tt (s : State) (c : CauseInfo) : (logCause s c).tt = s.tt := (logCause_touch s c).eq .tt rfl
@[simp] theorem logCause_carSets (s : State) (c : CauseInfo) : (logCause s c).carSets = s.carSets := (logCause_touch s c).eq .carSets rfl
@[simp] theorem logCause_jn (s : State) (c : CauseInfo) : (logCause s c).jn = s.jn := (logCause_touch s c).eq .jn rfl
@[simp] theorem logCause_ports (s : State) (c : CauseInfo) : (logCause s c).ports = s.ports := (logCause_touch s c).eq .ports rfl
@[simp] theorem logCause_cc (s : State) (c : CauseInfo) : (logCause s c).cc = s.cc := (logCause_touch s c).eq .cc rfl
@[simp] theorem logCause_lnkCtrs (s : State) (c : CauseInfo) : (logCause s c).lnkCtrs = s.lnkCtrs := (logCause_touch s c).eq .lnkCtrs rfl
@[simp] theorem logCause_cst (s : State) (c : CauseInfo) : (logCause s c).cst = s.cst := (logCause_touch s c).eq .cst rfl
@[simp] theorem logCause_power (s : State) (c : CauseInfo) : (logCause s c).power = s.power := (logCause_touch s c).eq .power rfl
@[simp] theorem logCause_cfgRetry (s : State) (c : CauseInfo) : (logCause s c).cfgRetry = s.cfgRetry := (logCause_touch s c).eq .cfgRetry rfl
@[simp] theorem logCause_canOut (s : State) (c : CauseInfo) : (logCause s c).canOut = s.canOut := (logCause_touch s c).eq .canOut rfl
@[simp] theorem logCause_flitOut (s : State) (c : CauseInfo) : (logCause s c).flitOut = s.flitOut := (logCause_touch s c).eq .flitOut rfl
@[simp] theorem logCause_heldAt (s : State) (c : CauseInfo) : (logCause s c).heldAt = s.heldAt := (logCause_touch s c).eq .heldAt rfl
@[simp] theorem logCause_freeCtr (s : State) (c : CauseInfo) : (logCause s c).freeCtr = s.freeCtr := (logCause_touch s c).eq .freeCtr rfl
@[simp] theorem logCause_hif_rings (s : State) (c : CauseInfo) : (logCause s c).hif.rings = s.hif.rings := (logCause_touch s c).eq .rings rfl
@[simp] theorem logCause_hif_mbx (s : State) (c : CauseInfo) : (logCause s c).hif.mbx = s.hif.mbx := (logCause_touch s c).eq .mbx rfl
@[simp] theorem logCause_hif_orphans (s : State) (c : CauseInfo) : (logCause s c).hif.orphans = s.hif.orphans := (logCause_touch s c).eq .orphans rfl
@[simp] theorem logCause_hif_linkUp (s : State) (c : CauseInfo) : (logCause s c).hif.linkUp = s.hif.linkUp := ((logCause_touch s c).eq .port rfl).1
@[simp] theorem logCause_hif_vfEnable (s : State) (c : CauseInfo) : (logCause s c).hif.vfEnable = s.hif.vfEnable := ((logCause_touch s c).eq .port rfl).2.2.2.2.2
@[simp] theorem logCause_hif_resetting (s : State) (c : CauseInfo) : (logCause s c).hif.resetting = s.hif.resetting := ((logCause_touch s c).eq .resets rfl).1
@[simp] theorem logCause_hif_pf0Resetting (s : State) (c : CauseInfo) : (logCause s c).hif.pf0Resetting = s.hif.pf0Resetting := ((logCause_touch s c).eq .resets rfl).2.1
@[simp] theorem logCause_hif_zeroing (s : State) (c : CauseInfo) : (logCause s c).hif.zeroing = s.hif.zeroing := ((logCause_touch s c).eq .resets rfl).2.2
@[simp] theorem logCause_hiHost (s : State) (c : CauseInfo) : (logCause s c).hiHost = s.hiHost := ((logCause_touch s c).eq .latches rfl).1
@[simp] theorem logCause_hiCst (s : State) (c : CauseInfo) : (logCause s c).hiCst = s.hiCst := ((logCause_touch s c).eq .latches rfl).2
@[simp] theorem logCause_readData (s : State) (c : CauseInfo) : (logCause s c).readData = s.readData := ((logCause_touch s c).eq .readOut rfl).1
@[simp] theorem logCause_readPoison (s : State) (c : CauseInfo) : (logCause s c).readPoison = s.readPoison := ((logCause_touch s c).eq .readOut rfl).2.1
@[simp] theorem logCause_portData (s : State) (c : CauseInfo) : (logCause s c).portData = s.portData := ((logCause_touch s c).eq .readOut rfl).2.2
@[simp] theorem sendMsix_pending (s : State) (f : Func) (v : Nat) : (sendMsix s f v).pending = s.pending := (sendMsix_touch s f v).eq .pending rfl
@[simp] theorem sendMsix_mem (s : State) (f : Func) (v : Nat) : (sendMsix s f v).mem = s.mem := (sendMsix_touch s f v).cells rfl
@[simp] theorem sendMsix_poison (s : State) (f : Func) (v : Nat) : (sendMsix s f v).poison = s.poison := (sendMsix_touch s f v).eq .poison rfl
@[simp] theorem sendMsix_sch (s : State) (f : Func) (v : Nat) : (sendMsix s f v).sch = s.sch := (sendMsix_touch s f v).eq .sch rfl
@[simp] theorem sendMsix_tmem (s : State) (f : Func) (v : Nat) : (sendMsix s f v).tmem = s.tmem := (sendMsix_touch s f v).eq .tmem rfl
@[simp] theorem sendMsix_porter (s : State) (f : Func) (v : Nat) : (sendMsix s f v).porter = s.porter := (sendMsix_touch s f v).eq .porter rfl
@[simp] theorem sendMsix_cat (s : State) (f : Func) (v : Nat) : (sendMsix s f v).cat = s.cat := (sendMsix_touch s f v).eq .cat rfl
@[simp] theorem sendMsix_insts (s : State) (f : Func) (v : Nat) : (sendMsix s f v).insts = s.insts := (sendMsix_touch s f v).eq .insts rfl
@[simp] theorem sendMsix_tasks (s : State) (f : Func) (v : Nat) : (sendMsix s f v).tasks = s.tasks := (sendMsix_touch s f v).eq .tasks rfl
@[simp] theorem sendMsix_nextTask (s : State) (f : Func) (v : Nat) : (sendMsix s f v).nextTask = s.nextTask := (sendMsix_touch s f v).eq .nextTask rfl
@[simp] theorem sendMsix_cmds (s : State) (f : Func) (v : Nat) : (sendMsix s f v).cmds = s.cmds := (sendMsix_touch s f v).eq .cmds rfl
@[simp] theorem sendMsix_sidings (s : State) (f : Func) (v : Nat) : (sendMsix s f v).sidings = s.sidings := (sendMsix_touch s f v).eq .sidings rfl
@[simp] theorem sendMsix_tt (s : State) (f : Func) (v : Nat) : (sendMsix s f v).tt = s.tt := (sendMsix_touch s f v).eq .tt rfl
@[simp] theorem sendMsix_carSets (s : State) (f : Func) (v : Nat) : (sendMsix s f v).carSets = s.carSets := (sendMsix_touch s f v).eq .carSets rfl
@[simp] theorem sendMsix_jn (s : State) (f : Func) (v : Nat) : (sendMsix s f v).jn = s.jn := (sendMsix_touch s f v).eq .jn rfl
@[simp] theorem sendMsix_ports (s : State) (f : Func) (v : Nat) : (sendMsix s f v).ports = s.ports := (sendMsix_touch s f v).eq .ports rfl
@[simp] theorem sendMsix_cc (s : State) (f : Func) (v : Nat) : (sendMsix s f v).cc = s.cc := (sendMsix_touch s f v).eq .cc rfl
@[simp] theorem sendMsix_lnkCtrs (s : State) (f : Func) (v : Nat) : (sendMsix s f v).lnkCtrs = s.lnkCtrs := (sendMsix_touch s f v).eq .lnkCtrs rfl
@[simp] theorem sendMsix_cst (s : State) (f : Func) (v : Nat) : (sendMsix s f v).cst = s.cst := (sendMsix_touch s f v).eq .cst rfl
@[simp] theorem sendMsix_power (s : State) (f : Func) (v : Nat) : (sendMsix s f v).power = s.power := (sendMsix_touch s f v).eq .power rfl
@[simp] theorem sendMsix_cfgRetry (s : State) (f : Func) (v : Nat) : (sendMsix s f v).cfgRetry = s.cfgRetry := (sendMsix_touch s f v).eq .cfgRetry rfl
@[simp] theorem sendMsix_canOut (s : State) (f : Func) (v : Nat) : (sendMsix s f v).canOut = s.canOut := (sendMsix_touch s f v).eq .canOut rfl
@[simp] theorem sendMsix_flitOut (s : State) (f : Func) (v : Nat) : (sendMsix s f v).flitOut = s.flitOut := (sendMsix_touch s f v).eq .flitOut rfl
@[simp] theorem sendMsix_heldAt (s : State) (f : Func) (v : Nat) : (sendMsix s f v).heldAt = s.heldAt := (sendMsix_touch s f v).eq .heldAt rfl
@[simp] theorem sendMsix_freeCtr (s : State) (f : Func) (v : Nat) : (sendMsix s f v).freeCtr = s.freeCtr := (sendMsix_touch s f v).eq .freeCtr rfl
@[simp] theorem sendMsix_hif_ctrs (s : State) (f : Func) (v : Nat) : (sendMsix s f v).hif.ctrs = s.hif.ctrs := (sendMsix_touch s f v).eq .hifCtrs rfl
@[simp] theorem sendMsix_hif_logs (s : State) (f : Func) (v : Nat) : (sendMsix s f v).hif.logs = s.hif.logs := (sendMsix_touch s f v).eq .logs rfl
@[simp] theorem sendMsix_hif_rings (s : State) (f : Func) (v : Nat) : (sendMsix s f v).hif.rings = s.hif.rings := (sendMsix_touch s f v).eq .rings rfl
@[simp] theorem sendMsix_hif_mbx (s : State) (f : Func) (v : Nat) : (sendMsix s f v).hif.mbx = s.hif.mbx := (sendMsix_touch s f v).eq .mbx rfl
@[simp] theorem sendMsix_hif_orphans (s : State) (f : Func) (v : Nat) : (sendMsix s f v).hif.orphans = s.hif.orphans := (sendMsix_touch s f v).eq .orphans rfl
@[simp] theorem sendMsix_hif_linkUp (s : State) (f : Func) (v : Nat) : (sendMsix s f v).hif.linkUp = s.hif.linkUp := ((sendMsix_touch s f v).eq .port rfl).1
@[simp] theorem sendMsix_hif_vfEnable (s : State) (f : Func) (v : Nat) : (sendMsix s f v).hif.vfEnable = s.hif.vfEnable := ((sendMsix_touch s f v).eq .port rfl).2.2.2.2.2
@[simp] theorem sendMsix_hif_resetting (s : State) (f : Func) (v : Nat) : (sendMsix s f v).hif.resetting = s.hif.resetting := ((sendMsix_touch s f v).eq .resets rfl).1
@[simp] theorem sendMsix_hif_pf0Resetting (s : State) (f : Func) (v : Nat) : (sendMsix s f v).hif.pf0Resetting = s.hif.pf0Resetting := ((sendMsix_touch s f v).eq .resets rfl).2.1
@[simp] theorem sendMsix_hif_zeroing (s : State) (f : Func) (v : Nat) : (sendMsix s f v).hif.zeroing = s.hif.zeroing := ((sendMsix_touch s f v).eq .resets rfl).2.2
@[simp] theorem sendMsix_hiHost (s : State) (f : Func) (v : Nat) : (sendMsix s f v).hiHost = s.hiHost := ((sendMsix_touch s f v).eq .latches rfl).1
@[simp] theorem sendMsix_hiCst (s : State) (f : Func) (v : Nat) : (sendMsix s f v).hiCst = s.hiCst := ((sendMsix_touch s f v).eq .latches rfl).2
@[simp] theorem sendMsix_readData (s : State) (f : Func) (v : Nat) : (sendMsix s f v).readData = s.readData := ((sendMsix_touch s f v).eq .readOut rfl).1
@[simp] theorem sendMsix_readPoison (s : State) (f : Func) (v : Nat) : (sendMsix s f v).readPoison = s.readPoison := ((sendMsix_touch s f v).eq .readOut rfl).2.1
@[simp] theorem sendMsix_portData (s : State) (f : Func) (v : Nat) : (sendMsix s f v).portData = s.portData := ((sendMsix_touch s f v).eq .readOut rfl).2.2
@[simp] theorem addCtr_pending (s : State) (b off n : Nat) : (addCtr s b off n).pending = s.pending := (addCtr_touch s b off n).eq .pending rfl
@[simp] theorem addCtr_mem (s : State) (b off n : Nat) : (addCtr s b off n).mem = s.mem := (addCtr_touch s b off n).cells rfl
@[simp] theorem addCtr_poison (s : State) (b off n : Nat) : (addCtr s b off n).poison = s.poison := (addCtr_touch s b off n).eq .poison rfl
@[simp] theorem addCtr_insts (s : State) (b off n : Nat) : (addCtr s b off n).insts = s.insts := (addCtr_touch s b off n).eq .insts rfl
@[simp] theorem addCtr_tasks (s : State) (b off n : Nat) : (addCtr s b off n).tasks = s.tasks := (addCtr_touch s b off n).eq .tasks rfl
@[simp] theorem addCtr_nextTask (s : State) (b off n : Nat) : (addCtr s b off n).nextTask = s.nextTask := (addCtr_touch s b off n).eq .nextTask rfl
@[simp] theorem addCtr_cmds (s : State) (b off n : Nat) : (addCtr s b off n).cmds = s.cmds := (addCtr_touch s b off n).eq .cmds rfl
@[simp] theorem addCtr_sidings (s : State) (b off n : Nat) : (addCtr s b off n).sidings = s.sidings := (addCtr_touch s b off n).eq .sidings rfl
@[simp] theorem addCtr_carSets (s : State) (b off n : Nat) : (addCtr s b off n).carSets = s.carSets := (addCtr_touch s b off n).eq .carSets rfl
@[simp] theorem addCtr_ports (s : State) (b off n : Nat) : (addCtr s b off n).ports = s.ports := (addCtr_touch s b off n).eq .ports rfl
@[simp] theorem addCtr_cc (s : State) (b off n : Nat) : (addCtr s b off n).cc = s.cc := (addCtr_touch s b off n).eq .cc rfl
@[simp] theorem addCtr_cst (s : State) (b off n : Nat) : (addCtr s b off n).cst = s.cst := (addCtr_touch s b off n).eq .cst rfl
@[simp] theorem addCtr_cfgRetry (s : State) (b off n : Nat) : (addCtr s b off n).cfgRetry = s.cfgRetry := (addCtr_touch s b off n).eq .cfgRetry rfl
@[simp] theorem addCtr_canOut (s : State) (b off n : Nat) : (addCtr s b off n).canOut = s.canOut := (addCtr_touch s b off n).eq .canOut rfl
@[simp] theorem addCtr_flitOut (s : State) (b off n : Nat) : (addCtr s b off n).flitOut = s.flitOut := (addCtr_touch s b off n).eq .flitOut rfl
@[simp] theorem addCtr_heldAt (s : State) (b off n : Nat) : (addCtr s b off n).heldAt = s.heldAt := (addCtr_touch s b off n).eq .heldAt rfl
@[simp] theorem addCtr_freeCtr (s : State) (b off n : Nat) : (addCtr s b off n).freeCtr = s.freeCtr := (addCtr_touch s b off n).eq .freeCtr rfl
@[simp] theorem addCtr_hif_rings (s : State) (b off n : Nat) : (addCtr s b off n).hif.rings = s.hif.rings := (addCtr_touch s b off n).eq .rings rfl
@[simp] theorem addCtr_hif_mbx (s : State) (b off n : Nat) : (addCtr s b off n).hif.mbx = s.hif.mbx := (addCtr_touch s b off n).eq .mbx rfl
@[simp] theorem addCtr_hif_orphans (s : State) (b off n : Nat) : (addCtr s b off n).hif.orphans = s.hif.orphans := (addCtr_touch s b off n).eq .orphans rfl
@[simp] theorem addCtr_hif_linkUp (s : State) (b off n : Nat) : (addCtr s b off n).hif.linkUp = s.hif.linkUp := ((addCtr_touch s b off n).eq .port rfl).1
@[simp] theorem addCtr_hif_vfEnable (s : State) (b off n : Nat) : (addCtr s b off n).hif.vfEnable = s.hif.vfEnable := ((addCtr_touch s b off n).eq .port rfl).2.2.2.2.2
@[simp] theorem addCtr_hif_resetting (s : State) (b off n : Nat) : (addCtr s b off n).hif.resetting = s.hif.resetting := ((addCtr_touch s b off n).eq .resets rfl).1
@[simp] theorem addCtr_hif_pf0Resetting (s : State) (b off n : Nat) : (addCtr s b off n).hif.pf0Resetting = s.hif.pf0Resetting := ((addCtr_touch s b off n).eq .resets rfl).2.1
@[simp] theorem addCtr_hif_zeroing (s : State) (b off n : Nat) : (addCtr s b off n).hif.zeroing = s.hif.zeroing := ((addCtr_touch s b off n).eq .resets rfl).2.2
@[simp] theorem addCtr_hiHost (s : State) (b off n : Nat) : (addCtr s b off n).hiHost = s.hiHost := ((addCtr_touch s b off n).eq .latches rfl).1
@[simp] theorem addCtr_hiCst (s : State) (b off n : Nat) : (addCtr s b off n).hiCst = s.hiCst := ((addCtr_touch s b off n).eq .latches rfl).2
@[simp] theorem addCtr_readData (s : State) (b off n : Nat) : (addCtr s b off n).readData = s.readData := ((addCtr_touch s b off n).eq .readOut rfl).1
@[simp] theorem addCtr_readPoison (s : State) (b off n : Nat) : (addCtr s b off n).readPoison = s.readPoison := ((addCtr_touch s b off n).eq .readOut rfl).2.1
@[simp] theorem addCtr_portData (s : State) (b off n : Nat) : (addCtr s b off n).portData = s.portData := ((addCtr_touch s b off n).eq .readOut rfl).2.2
@[simp] theorem answerEntry_pending (s : State) (f : Func) (r : Nat) (c : Completion) : (answerEntry s f r c).pending = s.pending := (answerEntry_touch s f r c).eq .pending rfl
@[simp] theorem answerEntry_mem (s : State) (f : Func) (r : Nat) (c : Completion) : (answerEntry s f r c).mem = s.mem := (answerEntry_touch s f r c).cells rfl
@[simp] theorem answerEntry_poison (s : State) (f : Func) (r : Nat) (c : Completion) : (answerEntry s f r c).poison = s.poison := (answerEntry_touch s f r c).eq .poison rfl
@[simp] theorem answerEntry_sch (s : State) (f : Func) (r : Nat) (c : Completion) : (answerEntry s f r c).sch = s.sch := (answerEntry_touch s f r c).eq .sch rfl
@[simp] theorem answerEntry_tmem (s : State) (f : Func) (r : Nat) (c : Completion) : (answerEntry s f r c).tmem = s.tmem := (answerEntry_touch s f r c).eq .tmem rfl
@[simp] theorem answerEntry_porter (s : State) (f : Func) (r : Nat) (c : Completion) : (answerEntry s f r c).porter = s.porter := (answerEntry_touch s f r c).eq .porter rfl
@[simp] theorem answerEntry_cat (s : State) (f : Func) (r : Nat) (c : Completion) : (answerEntry s f r c).cat = s.cat := (answerEntry_touch s f r c).eq .cat rfl
@[simp] theorem answerEntry_insts (s : State) (f : Func) (r : Nat) (c : Completion) : (answerEntry s f r c).insts = s.insts := (answerEntry_touch s f r c).eq .insts rfl
@[simp] theorem answerEntry_tasks (s : State) (f : Func) (r : Nat) (c : Completion) : (answerEntry s f r c).tasks = s.tasks := (answerEntry_touch s f r c).eq .tasks rfl
@[simp] theorem answerEntry_nextTask (s : State) (f : Func) (r : Nat) (c : Completion) : (answerEntry s f r c).nextTask = s.nextTask := (answerEntry_touch s f r c).eq .nextTask rfl
@[simp] theorem answerEntry_cmds (s : State) (f : Func) (r : Nat) (c : Completion) : (answerEntry s f r c).cmds = s.cmds := (answerEntry_touch s f r c).eq .cmds rfl
@[simp] theorem answerEntry_sidings (s : State) (f : Func) (r : Nat) (c : Completion) : (answerEntry s f r c).sidings = s.sidings := (answerEntry_touch s f r c).eq .sidings rfl
@[simp] theorem answerEntry_tt (s : State) (f : Func) (r : Nat) (c : Completion) : (answerEntry s f r c).tt = s.tt := (answerEntry_touch s f r c).eq .tt rfl
@[simp] theorem answerEntry_carSets (s : State) (f : Func) (r : Nat) (c : Completion) : (answerEntry s f r c).carSets = s.carSets := (answerEntry_touch s f r c).eq .carSets rfl
@[simp] theorem answerEntry_jn (s : State) (f : Func) (r : Nat) (c : Completion) : (answerEntry s f r c).jn = s.jn := (answerEntry_touch s f r c).eq .jn rfl
@[simp] theorem answerEntry_ports (s : State) (f : Func) (r : Nat) (c : Completion) : (answerEntry s f r c).ports = s.ports := (answerEntry_touch s f r c).eq .ports rfl
@[simp] theorem answerEntry_cc (s : State) (f : Func) (r : Nat) (c : Completion) : (answerEntry s f r c).cc = s.cc := (answerEntry_touch s f r c).eq .cc rfl
@[simp] theorem answerEntry_lnkCtrs (s : State) (f : Func) (r : Nat) (c : Completion) : (answerEntry s f r c).lnkCtrs = s.lnkCtrs := (answerEntry_touch s f r c).eq .lnkCtrs rfl
@[simp] theorem answerEntry_cst (s : State) (f : Func) (r : Nat) (c : Completion) : (answerEntry s f r c).cst = s.cst := (answerEntry_touch s f r c).eq .cst rfl
@[simp] theorem answerEntry_power (s : State) (f : Func) (r : Nat) (c : Completion) : (answerEntry s f r c).power = s.power := (answerEntry_touch s f r c).eq .power rfl
@[simp] theorem answerEntry_cfgRetry (s : State) (f : Func) (r : Nat) (c : Completion) : (answerEntry s f r c).cfgRetry = s.cfgRetry := (answerEntry_touch s f r c).eq .cfgRetry rfl
@[simp] theorem answerEntry_canOut (s : State) (f : Func) (r : Nat) (c : Completion) : (answerEntry s f r c).canOut = s.canOut := (answerEntry_touch s f r c).eq .canOut rfl
@[simp] theorem answerEntry_flitOut (s : State) (f : Func) (r : Nat) (c : Completion) : (answerEntry s f r c).flitOut = s.flitOut := (answerEntry_touch s f r c).eq .flitOut rfl
@[simp] theorem answerEntry_heldAt (s : State) (f : Func) (r : Nat) (c : Completion) : (answerEntry s f r c).heldAt = s.heldAt := (answerEntry_touch s f r c).eq .heldAt rfl
@[simp] theorem answerEntry_freeCtr (s : State) (f : Func) (r : Nat) (c : Completion) : (answerEntry s f r c).freeCtr = s.freeCtr := (answerEntry_touch s f r c).eq .freeCtr rfl
@[simp] theorem answerEntry_hif_ctrs (s : State) (f : Func) (r : Nat) (c : Completion) : (answerEntry s f r c).hif.ctrs = s.hif.ctrs := (answerEntry_touch s f r c).eq .hifCtrs rfl
@[simp] theorem answerEntry_hif_logs (s : State) (f : Func) (r : Nat) (c : Completion) : (answerEntry s f r c).hif.logs = s.hif.logs := (answerEntry_touch s f r c).eq .logs rfl
@[simp] theorem answerEntry_hif_mbx (s : State) (f : Func) (r : Nat) (c : Completion) : (answerEntry s f r c).hif.mbx = s.hif.mbx := (answerEntry_touch s f r c).eq .mbx rfl
@[simp] theorem answerEntry_hif_orphans (s : State) (f : Func) (r : Nat) (c : Completion) : (answerEntry s f r c).hif.orphans = s.hif.orphans := (answerEntry_touch s f r c).eq .orphans rfl
@[simp] theorem answerEntry_hif_linkUp (s : State) (f : Func) (r : Nat) (c : Completion) : (answerEntry s f r c).hif.linkUp = s.hif.linkUp := ((answerEntry_touch s f r c).eq .port rfl).1
@[simp] theorem answerEntry_hif_vfEnable (s : State) (f : Func) (r : Nat) (c : Completion) : (answerEntry s f r c).hif.vfEnable = s.hif.vfEnable := ((answerEntry_touch s f r c).eq .port rfl).2.2.2.2.2
@[simp] theorem answerEntry_hif_resetting (s : State) (f : Func) (r : Nat) (c : Completion) : (answerEntry s f r c).hif.resetting = s.hif.resetting := ((answerEntry_touch s f r c).eq .resets rfl).1
@[simp] theorem answerEntry_hif_pf0Resetting (s : State) (f : Func) (r : Nat) (c : Completion) : (answerEntry s f r c).hif.pf0Resetting = s.hif.pf0Resetting := ((answerEntry_touch s f r c).eq .resets rfl).2.1
@[simp] theorem answerEntry_hif_zeroing (s : State) (f : Func) (r : Nat) (c : Completion) : (answerEntry s f r c).hif.zeroing = s.hif.zeroing := ((answerEntry_touch s f r c).eq .resets rfl).2.2
@[simp] theorem answerEntry_hiHost (s : State) (f : Func) (r : Nat) (c : Completion) : (answerEntry s f r c).hiHost = s.hiHost := ((answerEntry_touch s f r c).eq .latches rfl).1
@[simp] theorem answerEntry_hiCst (s : State) (f : Func) (r : Nat) (c : Completion) : (answerEntry s f r c).hiCst = s.hiCst := ((answerEntry_touch s f r c).eq .latches rfl).2
@[simp] theorem answerEntry_readData (s : State) (f : Func) (r : Nat) (c : Completion) : (answerEntry s f r c).readData = s.readData := ((answerEntry_touch s f r c).eq .readOut rfl).1
@[simp] theorem answerEntry_readPoison (s : State) (f : Func) (r : Nat) (c : Completion) : (answerEntry s f r c).readPoison = s.readPoison := ((answerEntry_touch s f r c).eq .readOut rfl).2.1
@[simp] theorem answerEntry_portData (s : State) (f : Func) (r : Nat) (c : Completion) : (answerEntry s f r c).portData = s.portData := ((answerEntry_touch s f r c).eq .readOut rfl).2.2
@[simp] theorem writePa_pending (s : State) (a : Nat) (bs : List Byte) : (writePa s a bs).pending = s.pending := (writePa_touch s a bs).eq .pending rfl
@[simp] theorem writePa_sch (s : State) (a : Nat) (bs : List Byte) : (writePa s a bs).sch = s.sch := (writePa_touch s a bs).eq .sch rfl
@[simp] theorem writePa_tmem (s : State) (a : Nat) (bs : List Byte) : (writePa s a bs).tmem = s.tmem := (writePa_touch s a bs).eq .tmem rfl
@[simp] theorem writePa_porter (s : State) (a : Nat) (bs : List Byte) : (writePa s a bs).porter = s.porter := (writePa_touch s a bs).eq .porter rfl
@[simp] theorem writePa_cat (s : State) (a : Nat) (bs : List Byte) : (writePa s a bs).cat = s.cat := (writePa_touch s a bs).eq .cat rfl
@[simp] theorem writePa_insts (s : State) (a : Nat) (bs : List Byte) : (writePa s a bs).insts = s.insts := (writePa_touch s a bs).eq .insts rfl
@[simp] theorem writePa_tasks (s : State) (a : Nat) (bs : List Byte) : (writePa s a bs).tasks = s.tasks := (writePa_touch s a bs).eq .tasks rfl
@[simp] theorem writePa_nextTask (s : State) (a : Nat) (bs : List Byte) : (writePa s a bs).nextTask = s.nextTask := (writePa_touch s a bs).eq .nextTask rfl
@[simp] theorem writePa_cmds (s : State) (a : Nat) (bs : List Byte) : (writePa s a bs).cmds = s.cmds := (writePa_touch s a bs).eq .cmds rfl
@[simp] theorem writePa_sidings (s : State) (a : Nat) (bs : List Byte) : (writePa s a bs).sidings = s.sidings := (writePa_touch s a bs).eq .sidings rfl
@[simp] theorem writePa_tt (s : State) (a : Nat) (bs : List Byte) : (writePa s a bs).tt = s.tt := (writePa_touch s a bs).eq .tt rfl
@[simp] theorem writePa_carSets (s : State) (a : Nat) (bs : List Byte) : (writePa s a bs).carSets = s.carSets := (writePa_touch s a bs).eq .carSets rfl
@[simp] theorem writePa_jn (s : State) (a : Nat) (bs : List Byte) : (writePa s a bs).jn = s.jn := (writePa_touch s a bs).eq .jn rfl
@[simp] theorem writePa_ports (s : State) (a : Nat) (bs : List Byte) : (writePa s a bs).ports = s.ports := (writePa_touch s a bs).eq .ports rfl
@[simp] theorem writePa_cc (s : State) (a : Nat) (bs : List Byte) : (writePa s a bs).cc = s.cc := (writePa_touch s a bs).eq .cc rfl
@[simp] theorem writePa_lnkCtrs (s : State) (a : Nat) (bs : List Byte) : (writePa s a bs).lnkCtrs = s.lnkCtrs := (writePa_touch s a bs).eq .lnkCtrs rfl
@[simp] theorem writePa_cst (s : State) (a : Nat) (bs : List Byte) : (writePa s a bs).cst = s.cst := (writePa_touch s a bs).eq .cst rfl
@[simp] theorem writePa_power (s : State) (a : Nat) (bs : List Byte) : (writePa s a bs).power = s.power := (writePa_touch s a bs).eq .power rfl
@[simp] theorem writePa_cfgRetry (s : State) (a : Nat) (bs : List Byte) : (writePa s a bs).cfgRetry = s.cfgRetry := (writePa_touch s a bs).eq .cfgRetry rfl
@[simp] theorem writePa_hostOut (s : State) (a : Nat) (bs : List Byte) : (writePa s a bs).hostOut = s.hostOut := (writePa_touch s a bs).eq .hostOut rfl
@[simp] theorem writePa_canOut (s : State) (a : Nat) (bs : List Byte) : (writePa s a bs).canOut = s.canOut := (writePa_touch s a bs).eq .canOut rfl
@[simp] theorem writePa_flitOut (s : State) (a : Nat) (bs : List Byte) : (writePa s a bs).flitOut = s.flitOut := (writePa_touch s a bs).eq .flitOut rfl
@[simp] theorem writePa_heldAt (s : State) (a : Nat) (bs : List Byte) : (writePa s a bs).heldAt = s.heldAt := (writePa_touch s a bs).eq .heldAt rfl
@[simp] theorem writePa_freeCtr (s : State) (a : Nat) (bs : List Byte) : (writePa s a bs).freeCtr = s.freeCtr := (writePa_touch s a bs).eq .freeCtr rfl
@[simp] theorem writePa_hif_ctrs (s : State) (a : Nat) (bs : List Byte) : (writePa s a bs).hif.ctrs = s.hif.ctrs := (writePa_touch s a bs).eq .hifCtrs rfl
@[simp] theorem writePa_hif_logs (s : State) (a : Nat) (bs : List Byte) : (writePa s a bs).hif.logs = s.hif.logs := (writePa_touch s a bs).eq .logs rfl
@[simp] theorem writePa_hif_pages (s : State) (a : Nat) (bs : List Byte) : (writePa s a bs).hif.pages = s.hif.pages := (writePa_touch s a bs).eq .pages rfl
@[simp] theorem writePa_hif_rings (s : State) (a : Nat) (bs : List Byte) : (writePa s a bs).hif.rings = s.hif.rings := (writePa_touch s a bs).eq .rings rfl
@[simp] theorem writePa_hif_mbx (s : State) (a : Nat) (bs : List Byte) : (writePa s a bs).hif.mbx = s.hif.mbx := (writePa_touch s a bs).eq .mbx rfl
@[simp] theorem writePa_hif_orphans (s : State) (a : Nat) (bs : List Byte) : (writePa s a bs).hif.orphans = s.hif.orphans := (writePa_touch s a bs).eq .orphans rfl
@[simp] theorem writePa_hif_linkUp (s : State) (a : Nat) (bs : List Byte) : (writePa s a bs).hif.linkUp = s.hif.linkUp := ((writePa_touch s a bs).eq .port rfl).1
@[simp] theorem writePa_hif_vfEnable (s : State) (a : Nat) (bs : List Byte) : (writePa s a bs).hif.vfEnable = s.hif.vfEnable := ((writePa_touch s a bs).eq .port rfl).2.2.2.2.2
@[simp] theorem writePa_hif_resetting (s : State) (a : Nat) (bs : List Byte) : (writePa s a bs).hif.resetting = s.hif.resetting := ((writePa_touch s a bs).eq .resets rfl).1
@[simp] theorem writePa_hif_pf0Resetting (s : State) (a : Nat) (bs : List Byte) : (writePa s a bs).hif.pf0Resetting = s.hif.pf0Resetting := ((writePa_touch s a bs).eq .resets rfl).2.1
@[simp] theorem writePa_hif_zeroing (s : State) (a : Nat) (bs : List Byte) : (writePa s a bs).hif.zeroing = s.hif.zeroing := ((writePa_touch s a bs).eq .resets rfl).2.2
@[simp] theorem writePa_hiHost (s : State) (a : Nat) (bs : List Byte) : (writePa s a bs).hiHost = s.hiHost := ((writePa_touch s a bs).eq .latches rfl).1
@[simp] theorem writePa_hiCst (s : State) (a : Nat) (bs : List Byte) : (writePa s a bs).hiCst = s.hiCst := ((writePa_touch s a bs).eq .latches rfl).2
@[simp] theorem writePa_readData (s : State) (a : Nat) (bs : List Byte) : (writePa s a bs).readData = s.readData := ((writePa_touch s a bs).eq .readOut rfl).1
@[simp] theorem writePa_readPoison (s : State) (a : Nat) (bs : List Byte) : (writePa s a bs).readPoison = s.readPoison := ((writePa_touch s a bs).eq .readOut rfl).2.1
@[simp] theorem writePa_portData (s : State) (a : Nat) (bs : List Byte) : (writePa s a bs).portData = s.portData := ((writePa_touch s a bs).eq .readOut rfl).2.2

end Sys2Proof.Machine
end

