-- ==== Sys2Proof/Laws/State.lean ====
section
/-!
SUPPORT. The state under each change of one record: the changed record, and every other field unchanged.
-/

namespace Sys2Proof.Machine

/-! ### One value per tile or wing, and tables -/

@[simp] theorem PerTile.get_modify_self {α : Type} (p : PerTile α) (t : Tile) (f : α → α) :
    (p.modify t f).get t = f (p.get t) := by cases t <;> rfl

theorem PerTile.get_modify_of_ne {α : Type} (p : PerTile α) {t u : Tile} (f : α → α) (h : u ≠ t) :
    (p.modify t f).get u = p.get u := by cases t <;> cases u <;> first | rfl | exact absurd rfl h

@[simp] theorem PerTile.get_map {α : Type} (p : PerTile α) (f : Tile → α → α) (t : Tile) :
    (p.map f).get t = f t (p.get t) := by cases t <;> rfl

@[simp] theorem PerWing.get_modify_self {α : Type} (p : PerWing α) (w : Wing) (f : α → α) :
    (p.modify w f).get w = f (p.get w) := by cases w <;> rfl

theorem PerWing.get_modify_of_ne {α : Type} (p : PerWing α) {w u : Wing} (f : α → α) (h : u ≠ w) :
    (p.modify w f).get u = p.get u := by cases w <;> cases u <;> first | rfl | exact absurd rfl h

/-- Looking up a record after one has been listed. -/
theorem Table.find_insert {α : Type} (t : Table α) (a b : Nat) (v : α) :
    Table.find (Table.insert t a v) b = if b = a then some v else Table.find t b := by
  induction t with
  | nil => simp [Table.insert, Table.find]
  | cons e t ih =>
    simp only [Table.insert]
    split
    · simp [Table.find]
    · split
      · rename_i h
        subst h
        by_cases hb : b = e.1 <;> simp [Table.find, hb]
      · simp only [Table.find, ih]
        by_cases hb : b = a
        · subst hb; simp [*]
        · simp [hb]

@[simp] theorem Table.find_insert_self {α : Type} (t : Table α) (a : Nat) (v : α) :
    Table.find (Table.insert t a v) a = some v := by simp [Table.find_insert]

theorem Table.find_insert_of_ne {α : Type} (t : Table α) {a b : Nat} (v : α) (h : b ≠ a) :
    Table.find (Table.insert t a v) b = Table.find t b := by simp [Table.find_insert, h]

/-- A key just set to a value that is not the default reads that value, in any table. -/
theorem Table.get_set_self {α : Type} [DecidableEq α] {d : α} (t : Table α) (a : Nat) {v : α} (hv : v ≠ d) :
    Table.get d (Table.set d t a v) a = v := by
  induction t with
  | nil => simp [Table.set, hv, Table.get]
  | cons e t ih =>
    simp only [Table.set]
    split
    · simp [Table.get]
    · split
      · rename_i h; simp [Table.get, h]
      · rename_i h1 h2; simp [Table.get, h1, h2, ih]

/-! ### Records read back -/

@[simp] theorem modSch_get (s : State) (t : Tile) (f : Sch → Sch) : (s.modSch t f).sch.get t = f (s.sch.get t) := by simp [State.modSch]
@[simp] theorem modMem_get (s : State) (t : Tile) (f : TileMem → TileMem) : (s.modMem t f).tmem.get t = f (s.tmem.get t) := by
  simp [State.modMem]
@[simp] theorem modPorter_get (s : State) (t : Tile) (f : Porter → Porter) : (s.modPorter t f).porter.get t = f (s.porter.get t) := by
  simp [State.modPorter]
@[simp] theorem modCat_get (s : State) (t : Tile) (f : Catalogue → Catalogue) : (s.modCat t f).cat.get t = f (s.cat.get t) := by
  simp [State.modCat]
@[simp] theorem modTt_get (s : State) (w : Wing) (f : Timetable → Timetable) : (s.modTt w f).tt.get w = f (s.tt.get w) := by
  simp [State.modTt]
@[simp] theorem modJn_get (s : State) (w : Wing) (f : Junction → Junction) : (s.modJn w f).jn.get w = f (s.jn.get w) := by
  simp [State.modJn]

@[simp] theorem modHif_hif (s : State) (f : Hif → Hif) : (s.modHif f).hif = f s.hif := rfl
@[simp] theorem modLogs_logs (s : State) (f : Logs → Logs) : (s.modLogs f).hif.logs = f s.hif.logs := rfl
@[simp] theorem modCst_cst (s : State) (f : Custodian → Custodian) : (s.modCst f).cst = f s.cst := rfl
@[simp] theorem modPower_power (s : State) (f : Power → Power) : (s.modPower f).power = f s.power := rfl

/-- A ring after a ring has been changed. -/
theorem ringOf_modRing (s : State) (f g : Func) (r q : Nat) (h : Ring → Ring) :
    ringOf (s.modRing f r h) g q = if ringKey g q = ringKey f r then h (ringOf s f r) else ringOf s g q := by
  simp only [ringOf, State.modRing, Table.find_insert]
  split <;> rfl

@[simp] theorem ringOf_modRing_self (s : State) (f : Func) (r : Nat) (h : Ring → Ring) :
    ringOf (s.modRing f r h) f r = h (ringOf s f r) := by simp [ringOf_modRing]

/-- A function's page after a page has been changed. -/
theorem pageOf_modPage (s : State) (f g : Func) (h : FuncPage → FuncPage) :
    pageOf (s.modPage f h) g = if funcNum g = funcNum f then h (pageOf s f) else pageOf s g := by
  simp only [pageOf, State.modPage, Table.find_insert]
  split <;> rfl

@[simp] theorem pageOf_modPage_self (s : State) (f : Func) (h : FuncPage → FuncPage) :
    pageOf (s.modPage f h) f = h (pageOf s f) := by simp [pageOf_modPage]

/-- A port after a port has been changed. -/
theorem portOf_modPort (s : State) (w v : Wing) (p q : Nat) (h : Port → Port) :
    portOf (s.modPort w p h) v q = if portNum v q = portNum w p then h (portOf s w p) else portOf s v q := by
  simp only [portOf, State.modPort, Table.find_insert]
  split <;> rfl

@[simp] theorem portOf_modPort_self (s : State) (w : Wing) (p : Nat) (h : Port → Port) :
    portOf (s.modPort w p h) w p = h (portOf s w p) := by simp [portOf_modPort]

/-- A cluster after a cluster has been changed. -/
theorem clusterOf_modCluster (s : State) (t u : Tile) (r q : Nat) (h : Cluster → Cluster) :
    clusterOf (s.modCluster t r h) u q =
      if clusterKey u q = clusterKey t r then h (clusterOf s t r) else clusterOf s u q := by
  simp only [clusterOf, State.modCluster, modPower_power, Table.find_insert]
  split <;> rfl

@[simp] theorem clusterOf_modCluster_self (s : State) (t : Tile) (r : Nat) (h : Cluster → Cluster) :
    clusterOf (s.modCluster t r h) t r = h (clusterOf s t r) := by simp [clusterOf_modCluster]

@[simp] theorem stackOf_modStack_self (s : State) (k : Nat) (h : Stack → Stack) :
    stackOf (s.modStack k h) k = h (stackOf s k) := by
  simp [stackOf, State.modStack]

/-! ### Fields that a change leaves -/

@[simp] theorem State.modSch_pending (s : State) (t : Tile) (f : Sch → Sch) : (s.modSch t f).pending = s.pending := rfl
@[simp] theorem State.modSch_mem (s : State) (t : Tile) (f : Sch → Sch) : (s.modSch t f).mem = s.mem := rfl
@[simp] theorem State.modSch_poison (s : State) (t : Tile) (f : Sch → Sch) : (s.modSch t f).poison = s.poison := rfl
@[simp] theorem State.modSch_tmem (s : State) (t : Tile) (f : Sch → Sch) : (s.modSch t f).tmem = s.tmem := rfl
@[simp] theorem State.modSch_porter (s : State) (t : Tile) (f : Sch → Sch) : (s.modSch t f).porter = s.porter := rfl
@[simp] theorem State.modSch_cat (s : State) (t : Tile) (f : Sch → Sch) : (s.modSch t f).cat = s.cat := rfl
@[simp] theorem State.modSch_insts (s : State) (t : Tile) (f : Sch → Sch) : (s.modSch t f).insts = s.insts := rfl
@[simp] theorem State.modSch_tasks (s : State) (t : Tile) (f : Sch → Sch) : (s.modSch t f).tasks = s.tasks := rfl
@[simp] theorem State.modSch_nextTask (s : State) (t : Tile) (f : Sch → Sch) : (s.modSch t f).nextTask = s.nextTask := rfl
@[simp] theorem State.modSch_cmds (s : State) (t : Tile) (f : Sch → Sch) : (s.modSch t f).cmds = s.cmds := rfl
@[simp] theorem State.modSch_sidings (s : State) (t : Tile) (f : Sch → Sch) : (s.modSch t f).sidings = s.sidings := rfl
@[simp] theorem State.modSch_tt (s : State) (t : Tile) (f : Sch → Sch) : (s.modSch t f).tt = s.tt := rfl
@[simp] theorem State.modSch_carSets (s : State) (t : Tile) (f : Sch → Sch) : (s.modSch t f).carSets = s.carSets := rfl
@[simp] theorem State.modSch_jn (s : State) (t : Tile) (f : Sch → Sch) : (s.modSch t f).jn = s.jn := rfl
@[simp] theorem State.modSch_ports (s : State) (t : Tile) (f : Sch → Sch) : (s.modSch t f).ports = s.ports := rfl
@[simp] theorem State.modSch_cc (s : State) (t : Tile) (f : Sch → Sch) : (s.modSch t f).cc = s.cc := rfl
@[simp] theorem State.modSch_lnkCtrs (s : State) (t : Tile) (f : Sch → Sch) : (s.modSch t f).lnkCtrs = s.lnkCtrs := rfl
@[simp] theorem State.modSch_hif (s : State) (t : Tile) (f : Sch → Sch) : (s.modSch t f).hif = s.hif := rfl
@[simp] theorem State.modSch_cst (s : State) (t : Tile) (f : Sch → Sch) : (s.modSch t f).cst = s.cst := rfl
@[simp] theorem State.modSch_power (s : State) (t : Tile) (f : Sch → Sch) : (s.modSch t f).power = s.power := rfl
@[simp] theorem State.modSch_hiHost (s : State) (t : Tile) (f : Sch → Sch) : (s.modSch t f).hiHost = s.hiHost := rfl
@[simp] theorem State.modSch_hiCst (s : State) (t : Tile) (f : Sch → Sch) : (s.modSch t f).hiCst = s.hiCst := rfl
@[simp] theorem State.modSch_readData (s : State) (t : Tile) (f : Sch → Sch) : (s.modSch t f).readData = s.readData := rfl
@[simp] theorem State.modSch_readPoison (s : State) (t : Tile) (f : Sch → Sch) : (s.modSch t f).readPoison = s.readPoison := rfl
@[simp] theorem State.modSch_portData (s : State) (t : Tile) (f : Sch → Sch) : (s.modSch t f).portData = s.portData := rfl
@[simp] theorem State.modSch_cfgRetry (s : State) (t : Tile) (f : Sch → Sch) : (s.modSch t f).cfgRetry = s.cfgRetry := rfl
@[simp] theorem State.modSch_hostOut (s : State) (t : Tile) (f : Sch → Sch) : (s.modSch t f).hostOut = s.hostOut := rfl
@[simp] theorem State.modSch_canOut (s : State) (t : Tile) (f : Sch → Sch) : (s.modSch t f).canOut = s.canOut := rfl
@[simp] theorem State.modSch_flitOut (s : State) (t : Tile) (f : Sch → Sch) : (s.modSch t f).flitOut = s.flitOut := rfl
@[simp] theorem State.modSch_heldAt (s : State) (t : Tile) (f : Sch → Sch) : (s.modSch t f).heldAt = s.heldAt := rfl
@[simp] theorem State.modSch_freeCtr (s : State) (t : Tile) (f : Sch → Sch) : (s.modSch t f).freeCtr = s.freeCtr := rfl
@[simp] theorem State.modMem_pending (s : State) (t : Tile) (f : TileMem → TileMem) : (s.modMem t f).pending = s.pending := rfl
@[simp] theorem State.modMem_mem (s : State) (t : Tile) (f : TileMem → TileMem) : (s.modMem t f).mem = s.mem := rfl
@[simp] theorem State.modMem_poison (s : State) (t : Tile) (f : TileMem → TileMem) : (s.modMem t f).poison = s.poison := rfl
@[simp] theorem State.modMem_sch (s : State) (t : Tile) (f : TileMem → TileMem) : (s.modMem t f).sch = s.sch := rfl
@[simp] theorem State.modMem_porter (s : State) (t : Tile) (f : TileMem → TileMem) : (s.modMem t f).porter = s.porter := rfl
@[simp] theorem State.modMem_cat (s : State) (t : Tile) (f : TileMem → TileMem) : (s.modMem t f).cat = s.cat := rfl
@[simp] theorem State.modMem_insts (s : State) (t : Tile) (f : TileMem → TileMem) : (s.modMem t f).insts = s.insts := rfl
@[simp] theorem State.modMem_tasks (s : State) (t : Tile) (f : TileMem → TileMem) : (s.modMem t f).tasks = s.tasks := rfl
@[simp] theorem State.modMem_nextTask (s : State) (t : Tile) (f : TileMem → TileMem) : (s.modMem t f).nextTask = s.nextTask := rfl
@[simp] theorem State.modMem_cmds (s : State) (t : Tile) (f : TileMem → TileMem) : (s.modMem t f).cmds = s.cmds := rfl
@[simp] theorem State.modMem_sidings (s : State) (t : Tile) (f : TileMem → TileMem) : (s.modMem t f).sidings = s.sidings := rfl
@[simp] theorem State.modMem_tt (s : State) (t : Tile) (f : TileMem → TileMem) : (s.modMem t f).tt = s.tt := rfl
@[simp] theorem State.modMem_carSets (s : State) (t : Tile) (f : TileMem → TileMem) : (s.modMem t f).carSets = s.carSets := rfl
@[simp] theorem State.modMem_jn (s : State) (t : Tile) (f : TileMem → TileMem) : (s.modMem t f).jn = s.jn := rfl
@[simp] theorem State.modMem_ports (s : State) (t : Tile) (f : TileMem → TileMem) : (s.modMem t f).ports = s.ports := rfl
@[simp] theorem State.modMem_cc (s : State) (t : Tile) (f : TileMem → TileMem) : (s.modMem t f).cc = s.cc := rfl
@[simp] theorem State.modMem_lnkCtrs (s : State) (t : Tile) (f : TileMem → TileMem) : (s.modMem t f).lnkCtrs = s.lnkCtrs := rfl
@[simp] theorem State.modMem_hif (s : State) (t : Tile) (f : TileMem → TileMem) : (s.modMem t f).hif = s.hif := rfl
@[simp] theorem State.modMem_cst (s : State) (t : Tile) (f : TileMem → TileMem) : (s.modMem t f).cst = s.cst := rfl
@[simp] theorem State.modMem_power (s : State) (t : Tile) (f : TileMem → TileMem) : (s.modMem t f).power = s.power := rfl
@[simp] theorem State.modMem_hiHost (s : State) (t : Tile) (f : TileMem → TileMem) : (s.modMem t f).hiHost = s.hiHost := rfl
@[simp] theorem State.modMem_hiCst (s : State) (t : Tile) (f : TileMem → TileMem) : (s.modMem t f).hiCst = s.hiCst := rfl
@[simp] theorem State.modMem_readData (s : State) (t : Tile) (f : TileMem → TileMem) : (s.modMem t f).readData = s.readData := rfl
@[simp] theorem State.modMem_readPoison (s : State) (t : Tile) (f : TileMem → TileMem) : (s.modMem t f).readPoison = s.readPoison := rfl
@[simp] theorem State.modMem_portData (s : State) (t : Tile) (f : TileMem → TileMem) : (s.modMem t f).portData = s.portData := rfl
@[simp] theorem State.modMem_cfgRetry (s : State) (t : Tile) (f : TileMem → TileMem) : (s.modMem t f).cfgRetry = s.cfgRetry := rfl
@[simp] theorem State.modMem_hostOut (s : State) (t : Tile) (f : TileMem → TileMem) : (s.modMem t f).hostOut = s.hostOut := rfl
@[simp] theorem State.modMem_canOut (s : State) (t : Tile) (f : TileMem → TileMem) : (s.modMem t f).canOut = s.canOut := rfl
@[simp] theorem State.modMem_flitOut (s : State) (t : Tile) (f : TileMem → TileMem) : (s.modMem t f).flitOut = s.flitOut := rfl
@[simp] theorem State.modMem_heldAt (s : State) (t : Tile) (f : TileMem → TileMem) : (s.modMem t f).heldAt = s.heldAt := rfl
@[simp] theorem State.modMem_freeCtr (s : State) (t : Tile) (f : TileMem → TileMem) : (s.modMem t f).freeCtr = s.freeCtr := rfl
@[simp] theorem State.modPorter_pending (s : State) (t : Tile) (f : Porter → Porter) : (s.modPorter t f).pending = s.pending := rfl
@[simp] theorem State.modPorter_mem (s : State) (t : Tile) (f : Porter → Porter) : (s.modPorter t f).mem = s.mem := rfl
@[simp] theorem State.modPorter_poison (s : State) (t : Tile) (f : Porter → Porter) : (s.modPorter t f).poison = s.poison := rfl
@[simp] theorem State.modPorter_sch (s : State) (t : Tile) (f : Porter → Porter) : (s.modPorter t f).sch = s.sch := rfl
@[simp] theorem State.modPorter_tmem (s : State) (t : Tile) (f : Porter → Porter) : (s.modPorter t f).tmem = s.tmem := rfl
@[simp] theorem State.modPorter_cat (s : State) (t : Tile) (f : Porter → Porter) : (s.modPorter t f).cat = s.cat := rfl
@[simp] theorem State.modPorter_insts (s : State) (t : Tile) (f : Porter → Porter) : (s.modPorter t f).insts = s.insts := rfl
@[simp] theorem State.modPorter_tasks (s : State) (t : Tile) (f : Porter → Porter) : (s.modPorter t f).tasks = s.tasks := rfl
@[simp] theorem State.modPorter_nextTask (s : State) (t : Tile) (f : Porter → Porter) : (s.modPorter t f).nextTask = s.nextTask := rfl
@[simp] theorem State.modPorter_cmds (s : State) (t : Tile) (f : Porter → Porter) : (s.modPorter t f).cmds = s.cmds := rfl
@[simp] theorem State.modPorter_sidings (s : State) (t : Tile) (f : Porter → Porter) : (s.modPorter t f).sidings = s.sidings := rfl
@[simp] theorem State.modPorter_tt (s : State) (t : Tile) (f : Porter → Porter) : (s.modPorter t f).tt = s.tt := rfl
@[simp] theorem State.modPorter_carSets (s : State) (t : Tile) (f : Porter → Porter) : (s.modPorter t f).carSets = s.carSets := rfl
@[simp] theorem State.modPorter_jn (s : State) (t : Tile) (f : Porter → Porter) : (s.modPorter t f).jn = s.jn := rfl
@[simp] theorem State.modPorter_ports (s : State) (t : Tile) (f : Porter → Porter) : (s.modPorter t f).ports = s.ports := rfl
@[simp] theorem State.modPorter_cc (s : State) (t : Tile) (f : Porter → Porter) : (s.modPorter t f).cc = s.cc := rfl
@[simp] theorem State.modPorter_lnkCtrs (s : State) (t : Tile) (f : Porter → Porter) : (s.modPorter t f).lnkCtrs = s.lnkCtrs := rfl
@[simp] theorem State.modPorter_hif (s : State) (t : Tile) (f : Porter → Porter) : (s.modPorter t f).hif = s.hif := rfl
@[simp] theorem State.modPorter_cst (s : State) (t : Tile) (f : Porter → Porter) : (s.modPorter t f).cst = s.cst := rfl
@[simp] theorem State.modPorter_power (s : State) (t : Tile) (f : Porter → Porter) : (s.modPorter t f).power = s.power := rfl
@[simp] theorem State.modPorter_hiHost (s : State) (t : Tile) (f : Porter → Porter) : (s.modPorter t f).hiHost = s.hiHost := rfl
@[simp] theorem State.modPorter_hiCst (s : State) (t : Tile) (f : Porter → Porter) : (s.modPorter t f).hiCst = s.hiCst := rfl
@[simp] theorem State.modPorter_readData (s : State) (t : Tile) (f : Porter → Porter) : (s.modPorter t f).readData = s.readData := rfl
@[simp] theorem State.modPorter_readPoison (s : State) (t : Tile) (f : Porter → Porter) : (s.modPorter t f).readPoison = s.readPoison := rfl
@[simp] theorem State.modPorter_portData (s : State) (t : Tile) (f : Porter → Porter) : (s.modPorter t f).portData = s.portData := rfl
@[simp] theorem State.modPorter_cfgRetry (s : State) (t : Tile) (f : Porter → Porter) : (s.modPorter t f).cfgRetry = s.cfgRetry := rfl
@[simp] theorem State.modPorter_hostOut (s : State) (t : Tile) (f : Porter → Porter) : (s.modPorter t f).hostOut = s.hostOut := rfl
@[simp] theorem State.modPorter_canOut (s : State) (t : Tile) (f : Porter → Porter) : (s.modPorter t f).canOut = s.canOut := rfl
@[simp] theorem State.modPorter_flitOut (s : State) (t : Tile) (f : Porter → Porter) : (s.modPorter t f).flitOut = s.flitOut := rfl
@[simp] theorem State.modPorter_heldAt (s : State) (t : Tile) (f : Porter → Porter) : (s.modPorter t f).heldAt = s.heldAt := rfl
@[simp] theorem State.modPorter_freeCtr (s : State) (t : Tile) (f : Porter → Porter) : (s.modPorter t f).freeCtr = s.freeCtr := rfl
@[simp] theorem State.modCat_pending (s : State) (t : Tile) (f : Catalogue → Catalogue) : (s.modCat t f).pending = s.pending := rfl
@[simp] theorem State.modCat_mem (s : State) (t : Tile) (f : Catalogue → Catalogue) : (s.modCat t f).mem = s.mem := rfl
@[simp] theorem State.modCat_poison (s : State) (t : Tile) (f : Catalogue → Catalogue) : (s.modCat t f).poison = s.poison := rfl
@[simp] theorem State.modCat_sch (s : State) (t : Tile) (f : Catalogue → Catalogue) : (s.modCat t f).sch = s.sch := rfl
@[simp] theorem State.modCat_tmem (s : State) (t : Tile) (f : Catalogue → Catalogue) : (s.modCat t f).tmem = s.tmem := rfl
@[simp] theorem State.modCat_porter (s : State) (t : Tile) (f : Catalogue → Catalogue) : (s.modCat t f).porter = s.porter := rfl
@[simp] theorem State.modCat_insts (s : State) (t : Tile) (f : Catalogue → Catalogue) : (s.modCat t f).insts = s.insts := rfl
@[simp] theorem State.modCat_tasks (s : State) (t : Tile) (f : Catalogue → Catalogue) : (s.modCat t f).tasks = s.tasks := rfl
@[simp] theorem State.modCat_nextTask (s : State) (t : Tile) (f : Catalogue → Catalogue) : (s.modCat t f).nextTask = s.nextTask := rfl
@[simp] theorem State.modCat_cmds (s : State) (t : Tile) (f : Catalogue → Catalogue) : (s.modCat t f).cmds = s.cmds := rfl
@[simp] theorem State.modCat_sidings (s : State) (t : Tile) (f : Catalogue → Catalogue) : (s.modCat t f).sidings = s.sidings := rfl
@[simp] theorem State.modCat_tt (s : State) (t : Tile) (f : Catalogue → Catalogue) : (s.modCat t f).tt = s.tt := rfl
@[simp] theorem State.modCat_carSets (s : State) (t : Tile) (f : Catalogue → Catalogue) : (s.modCat t f).carSets = s.carSets := rfl
@[simp] theorem State.modCat_jn (s : State) (t : Tile) (f : Catalogue → Catalogue) : (s.modCat t f).jn = s.jn := rfl
@[simp] theorem State.modCat_ports (s : State) (t : Tile) (f : Catalogue → Catalogue) : (s.modCat t f).ports = s.ports := rfl
@[simp] theorem State.modCat_cc (s : State) (t : Tile) (f : Catalogue → Catalogue) : (s.modCat t f).cc = s.cc := rfl
@[simp] theorem State.modCat_lnkCtrs (s : State) (t : Tile) (f : Catalogue → Catalogue) : (s.modCat t f).lnkCtrs = s.lnkCtrs := rfl
@[simp] theorem State.modCat_hif (s : State) (t : Tile) (f : Catalogue → Catalogue) : (s.modCat t f).hif = s.hif := rfl
@[simp] theorem State.modCat_cst (s : State) (t : Tile) (f : Catalogue → Catalogue) : (s.modCat t f).cst = s.cst := rfl
@[simp] theorem State.modCat_power (s : State) (t : Tile) (f : Catalogue → Catalogue) : (s.modCat t f).power = s.power := rfl
@[simp] theorem State.modCat_hiHost (s : State) (t : Tile) (f : Catalogue → Catalogue) : (s.modCat t f).hiHost = s.hiHost := rfl
@[simp] theorem State.modCat_hiCst (s : State) (t : Tile) (f : Catalogue → Catalogue) : (s.modCat t f).hiCst = s.hiCst := rfl
@[simp] theorem State.modCat_readData (s : State) (t : Tile) (f : Catalogue → Catalogue) : (s.modCat t f).readData = s.readData := rfl
@[simp] theorem State.modCat_readPoison (s : State) (t : Tile) (f : Catalogue → Catalogue) : (s.modCat t f).readPoison = s.readPoison := rfl
@[simp] theorem State.modCat_portData (s : State) (t : Tile) (f : Catalogue → Catalogue) : (s.modCat t f).portData = s.portData := rfl
@[simp] theorem State.modCat_cfgRetry (s : State) (t : Tile) (f : Catalogue → Catalogue) : (s.modCat t f).cfgRetry = s.cfgRetry := rfl
@[simp] theorem State.modCat_hostOut (s : State) (t : Tile) (f : Catalogue → Catalogue) : (s.modCat t f).hostOut = s.hostOut := rfl
@[simp] theorem State.modCat_canOut (s : State) (t : Tile) (f : Catalogue → Catalogue) : (s.modCat t f).canOut = s.canOut := rfl
@[simp] theorem State.modCat_flitOut (s : State) (t : Tile) (f : Catalogue → Catalogue) : (s.modCat t f).flitOut = s.flitOut := rfl
@[simp] theorem State.modCat_heldAt (s : State) (t : Tile) (f : Catalogue → Catalogue) : (s.modCat t f).heldAt = s.heldAt := rfl
@[simp] theorem State.modCat_freeCtr (s : State) (t : Tile) (f : Catalogue → Catalogue) : (s.modCat t f).freeCtr = s.freeCtr := rfl
@[simp] theorem State.modTt_pending (s : State) (w : Wing) (f : Timetable → Timetable) : (s.modTt w f).pending = s.pending := rfl
@[simp] theorem State.modTt_mem (s : State) (w : Wing) (f : Timetable → Timetable) : (s.modTt w f).mem = s.mem := rfl
@[simp] theorem State.modTt_poison (s : State) (w : Wing) (f : Timetable → Timetable) : (s.modTt w f).poison = s.poison := rfl
@[simp] theorem State.modTt_sch (s : State) (w : Wing) (f : Timetable → Timetable) : (s.modTt w f).sch = s.sch := rfl
@[simp] theorem State.modTt_tmem (s : State) (w : Wing) (f : Timetable → Timetable) : (s.modTt w f).tmem = s.tmem := rfl
@[simp] theorem State.modTt_porter (s : State) (w : Wing) (f : Timetable → Timetable) : (s.modTt w f).porter = s.porter := rfl
@[simp] theorem State.modTt_cat (s : State) (w : Wing) (f : Timetable → Timetable) : (s.modTt w f).cat = s.cat := rfl
@[simp] theorem State.modTt_insts (s : State) (w : Wing) (f : Timetable → Timetable) : (s.modTt w f).insts = s.insts := rfl
@[simp] theorem State.modTt_tasks (s : State) (w : Wing) (f : Timetable → Timetable) : (s.modTt w f).tasks = s.tasks := rfl
@[simp] theorem State.modTt_nextTask (s : State) (w : Wing) (f : Timetable → Timetable) : (s.modTt w f).nextTask = s.nextTask := rfl
@[simp] theorem State.modTt_cmds (s : State) (w : Wing) (f : Timetable → Timetable) : (s.modTt w f).cmds = s.cmds := rfl
@[simp] theorem State.modTt_sidings (s : State) (w : Wing) (f : Timetable → Timetable) : (s.modTt w f).sidings = s.sidings := rfl
@[simp] theorem State.modTt_carSets (s : State) (w : Wing) (f : Timetable → Timetable) : (s.modTt w f).carSets = s.carSets := rfl
@[simp] theorem State.modTt_jn (s : State) (w : Wing) (f : Timetable → Timetable) : (s.modTt w f).jn = s.jn := rfl
@[simp] theorem State.modTt_ports (s : State) (w : Wing) (f : Timetable → Timetable) : (s.modTt w f).ports = s.ports := rfl
@[simp] theorem State.modTt_cc (s : State) (w : Wing) (f : Timetable → Timetable) : (s.modTt w f).cc = s.cc := rfl
@[simp] theorem State.modTt_lnkCtrs (s : State) (w : Wing) (f : Timetable → Timetable) : (s.modTt w f).lnkCtrs = s.lnkCtrs := rfl
@[simp] theorem State.modTt_hif (s : State) (w : Wing) (f : Timetable → Timetable) : (s.modTt w f).hif = s.hif := rfl
@[simp] theorem State.modTt_cst (s : State) (w : Wing) (f : Timetable → Timetable) : (s.modTt w f).cst = s.cst := rfl
@[simp] theorem State.modTt_power (s : State) (w : Wing) (f : Timetable → Timetable) : (s.modTt w f).power = s.power := rfl
@[simp] theorem State.modTt_hiHost (s : State) (w : Wing) (f : Timetable → Timetable) : (s.modTt w f).hiHost = s.hiHost := rfl
@[simp] theorem State.modTt_hiCst (s : State) (w : Wing) (f : Timetable → Timetable) : (s.modTt w f).hiCst = s.hiCst := rfl
@[simp] theorem State.modTt_readData (s : State) (w : Wing) (f : Timetable → Timetable) : (s.modTt w f).readData = s.readData := rfl
@[simp] theorem State.modTt_readPoison (s : State) (w : Wing) (f : Timetable → Timetable) : (s.modTt w f).readPoison = s.readPoison := rfl
@[simp] theorem State.modTt_portData (s : State) (w : Wing) (f : Timetable → Timetable) : (s.modTt w f).portData = s.portData := rfl
@[simp] theorem State.modTt_cfgRetry (s : State) (w : Wing) (f : Timetable → Timetable) : (s.modTt w f).cfgRetry = s.cfgRetry := rfl
@[simp] theorem State.modTt_hostOut (s : State) (w : Wing) (f : Timetable → Timetable) : (s.modTt w f).hostOut = s.hostOut := rfl
@[simp] theorem State.modTt_canOut (s : State) (w : Wing) (f : Timetable → Timetable) : (s.modTt w f).canOut = s.canOut := rfl
@[simp] theorem State.modTt_flitOut (s : State) (w : Wing) (f : Timetable → Timetable) : (s.modTt w f).flitOut = s.flitOut := rfl
@[simp] theorem State.modTt_heldAt (s : State) (w : Wing) (f : Timetable → Timetable) : (s.modTt w f).heldAt = s.heldAt := rfl
@[simp] theorem State.modTt_freeCtr (s : State) (w : Wing) (f : Timetable → Timetable) : (s.modTt w f).freeCtr = s.freeCtr := rfl
@[simp] theorem State.modJn_pending (s : State) (w : Wing) (f : Junction → Junction) : (s.modJn w f).pending = s.pending := rfl
@[simp] theorem State.modJn_mem (s : State) (w : Wing) (f : Junction → Junction) : (s.modJn w f).mem = s.mem := rfl
@[simp] theorem State.modJn_poison (s : State) (w : Wing) (f : Junction → Junction) : (s.modJn w f).poison = s.poison := rfl
@[simp] theorem State.modJn_sch (s : State) (w : Wing) (f : Junction → Junction) : (s.modJn w f).sch = s.sch := rfl
@[simp] theorem State.modJn_tmem (s : State) (w : Wing) (f : Junction → Junction) : (s.modJn w f).tmem = s.tmem := rfl
@[simp] theorem State.modJn_porter (s : State) (w : Wing) (f : Junction → Junction) : (s.modJn w f).porter = s.porter := rfl
@[simp] theorem State.modJn_cat (s : State) (w : Wing) (f : Junction → Junction) : (s.modJn w f).cat = s.cat := rfl
@[simp] theorem State.modJn_insts (s : State) (w : Wing) (f : Junction → Junction) : (s.modJn w f).insts = s.insts := rfl
@[simp] theorem State.modJn_tasks (s : State) (w : Wing) (f : Junction → Junction) : (s.modJn w f).tasks = s.tasks := rfl
@[simp] theorem State.modJn_nextTask (s : State) (w : Wing) (f : Junction → Junction) : (s.modJn w f).nextTask = s.nextTask := rfl
@[simp] theorem State.modJn_cmds (s : State) (w : Wing) (f : Junction → Junction) : (s.modJn w f).cmds = s.cmds := rfl
@[simp] theorem State.modJn_sidings (s : State) (w : Wing) (f : Junction → Junction) : (s.modJn w f).sidings = s.sidings := rfl
@[simp] theorem State.modJn_tt (s : State) (w : Wing) (f : Junction → Junction) : (s.modJn w f).tt = s.tt := rfl
@[simp] theorem State.modJn_carSets (s : State) (w : Wing) (f : Junction → Junction) : (s.modJn w f).carSets = s.carSets := rfl
@[simp] theorem State.modJn_ports (s : State) (w : Wing) (f : Junction → Junction) : (s.modJn w f).ports = s.ports := rfl
@[simp] theorem State.modJn_cc (s : State) (w : Wing) (f : Junction → Junction) : (s.modJn w f).cc = s.cc := rfl
@[simp] theorem State.modJn_lnkCtrs (s : State) (w : Wing) (f : Junction → Junction) : (s.modJn w f).lnkCtrs = s.lnkCtrs := rfl
@[simp] theorem State.modJn_hif (s : State) (w : Wing) (f : Junction → Junction) : (s.modJn w f).hif = s.hif := rfl
@[simp] theorem State.modJn_cst (s : State) (w : Wing) (f : Junction → Junction) : (s.modJn w f).cst = s.cst := rfl
@[simp] theorem State.modJn_power (s : State) (w : Wing) (f : Junction → Junction) : (s.modJn w f).power = s.power := rfl
@[simp] theorem State.modJn_hiHost (s : State) (w : Wing) (f : Junction → Junction) : (s.modJn w f).hiHost = s.hiHost := rfl
@[simp] theorem State.modJn_hiCst (s : State) (w : Wing) (f : Junction → Junction) : (s.modJn w f).hiCst = s.hiCst := rfl
@[simp] theorem State.modJn_readData (s : State) (w : Wing) (f : Junction → Junction) : (s.modJn w f).readData = s.readData := rfl
@[simp] theorem State.modJn_readPoison (s : State) (w : Wing) (f : Junction → Junction) : (s.modJn w f).readPoison = s.readPoison := rfl
@[simp] theorem State.modJn_portData (s : State) (w : Wing) (f : Junction → Junction) : (s.modJn w f).portData = s.portData := rfl
@[simp] theorem State.modJn_cfgRetry (s : State) (w : Wing) (f : Junction → Junction) : (s.modJn w f).cfgRetry = s.cfgRetry := rfl
@[simp] theorem State.modJn_hostOut (s : State) (w : Wing) (f : Junction → Junction) : (s.modJn w f).hostOut = s.hostOut := rfl
@[simp] theorem State.modJn_canOut (s : State) (w : Wing) (f : Junction → Junction) : (s.modJn w f).canOut = s.canOut := rfl
@[simp] theorem State.modJn_flitOut (s : State) (w : Wing) (f : Junction → Junction) : (s.modJn w f).flitOut = s.flitOut := rfl
@[simp] theorem State.modJn_heldAt (s : State) (w : Wing) (f : Junction → Junction) : (s.modJn w f).heldAt = s.heldAt := rfl
@[simp] theorem State.modJn_freeCtr (s : State) (w : Wing) (f : Junction → Junction) : (s.modJn w f).freeCtr = s.freeCtr := rfl
@[simp] theorem State.modHif_pending (s : State) (f : Hif → Hif) : (s.modHif f).pending = s.pending := rfl
@[simp] theorem State.modHif_mem (s : State) (f : Hif → Hif) : (s.modHif f).mem = s.mem := rfl
@[simp] theorem State.modHif_poison (s : State) (f : Hif → Hif) : (s.modHif f).poison = s.poison := rfl
@[simp] theorem State.modHif_sch (s : State) (f : Hif → Hif) : (s.modHif f).sch = s.sch := rfl
@[simp] theorem State.modHif_tmem (s : State) (f : Hif → Hif) : (s.modHif f).tmem = s.tmem := rfl
@[simp] theorem State.modHif_porter (s : State) (f : Hif → Hif) : (s.modHif f).porter = s.porter := rfl
@[simp] theorem State.modHif_cat (s : State) (f : Hif → Hif) : (s.modHif f).cat = s.cat := rfl
@[simp] theorem State.modHif_insts (s : State) (f : Hif → Hif) : (s.modHif f).insts = s.insts := rfl
@[simp] theorem State.modHif_tasks (s : State) (f : Hif → Hif) : (s.modHif f).tasks = s.tasks := rfl
@[simp] theorem State.modHif_nextTask (s : State) (f : Hif → Hif) : (s.modHif f).nextTask = s.nextTask := rfl
@[simp] theorem State.modHif_cmds (s : State) (f : Hif → Hif) : (s.modHif f).cmds = s.cmds := rfl
@[simp] theorem State.modHif_sidings (s : State) (f : Hif → Hif) : (s.modHif f).sidings = s.sidings := rfl
@[simp] theorem State.modHif_tt (s : State) (f : Hif → Hif) : (s.modHif f).tt = s.tt := rfl
@[simp] theorem State.modHif_carSets (s : State) (f : Hif → Hif) : (s.modHif f).carSets = s.carSets := rfl
@[simp] theorem State.modHif_jn (s : State) (f : Hif → Hif) : (s.modHif f).jn = s.jn := rfl
@[simp] theorem State.modHif_ports (s : State) (f : Hif → Hif) : (s.modHif f).ports = s.ports := rfl
@[simp] theorem State.modHif_cc (s : State) (f : Hif → Hif) : (s.modHif f).cc = s.cc := rfl
@[simp] theorem State.modHif_lnkCtrs (s : State) (f : Hif → Hif) : (s.modHif f).lnkCtrs = s.lnkCtrs := rfl
@[simp] theorem State.modHif_cst (s : State) (f : Hif → Hif) : (s.modHif f).cst = s.cst := rfl
@[simp] theorem State.modHif_power (s : State) (f : Hif → Hif) : (s.modHif f).power = s.power := rfl
@[simp] theorem State.modHif_hiHost (s : State) (f : Hif → Hif) : (s.modHif f).hiHost = s.hiHost := rfl
@[simp] theorem State.modHif_hiCst (s : State) (f : Hif → Hif) : (s.modHif f).hiCst = s.hiCst := rfl
@[simp] theorem State.modHif_readData (s : State) (f : Hif → Hif) : (s.modHif f).readData = s.readData := rfl
@[simp] theorem State.modHif_readPoison (s : State) (f : Hif → Hif) : (s.modHif f).readPoison = s.readPoison := rfl
@[simp] theorem State.modHif_portData (s : State) (f : Hif → Hif) : (s.modHif f).portData = s.portData := rfl
@[simp] theorem State.modHif_cfgRetry (s : State) (f : Hif → Hif) : (s.modHif f).cfgRetry = s.cfgRetry := rfl
@[simp] theorem State.modHif_hostOut (s : State) (f : Hif → Hif) : (s.modHif f).hostOut = s.hostOut := rfl
@[simp] theorem State.modHif_canOut (s : State) (f : Hif → Hif) : (s.modHif f).canOut = s.canOut := rfl
@[simp] theorem State.modHif_flitOut (s : State) (f : Hif → Hif) : (s.modHif f).flitOut = s.flitOut := rfl
@[simp] theorem State.modHif_heldAt (s : State) (f : Hif → Hif) : (s.modHif f).heldAt = s.heldAt := rfl
@[simp] theorem State.modHif_freeCtr (s : State) (f : Hif → Hif) : (s.modHif f).freeCtr = s.freeCtr := rfl
@[simp] theorem State.modLogs_pending (s : State) (f : Logs → Logs) : (s.modLogs f).pending = s.pending := rfl
@[simp] theorem State.modLogs_mem (s : State) (f : Logs → Logs) : (s.modLogs f).mem = s.mem := rfl
@[simp] theorem State.modLogs_poison (s : State) (f : Logs → Logs) : (s.modLogs f).poison = s.poison := rfl
@[simp] theorem State.modLogs_sch (s : State) (f : Logs → Logs) : (s.modLogs f).sch = s.sch := rfl
@[simp] theorem State.modLogs_tmem (s : State) (f : Logs → Logs) : (s.modLogs f).tmem = s.tmem := rfl
@[simp] theorem State.modLogs_porter (s : State) (f : Logs → Logs) : (s.modLogs f).porter = s.porter := rfl
@[simp] theorem State.modLogs_cat (s : State) (f : Logs → Logs) : (s.modLogs f).cat = s.cat := rfl
@[simp] theorem State.modLogs_insts (s : State) (f : Logs → Logs) : (s.modLogs f).insts = s.insts := rfl
@[simp] theorem State.modLogs_tasks (s : State) (f : Logs → Logs) : (s.modLogs f).tasks = s.tasks := rfl
@[simp] theorem State.modLogs_nextTask (s : State) (f : Logs → Logs) : (s.modLogs f).nextTask = s.nextTask := rfl
@[simp] theorem State.modLogs_cmds (s : State) (f : Logs → Logs) : (s.modLogs f).cmds = s.cmds := rfl
@[simp] theorem State.modLogs_sidings (s : State) (f : Logs → Logs) : (s.modLogs f).sidings = s.sidings := rfl
@[simp] theorem State.modLogs_tt (s : State) (f : Logs → Logs) : (s.modLogs f).tt = s.tt := rfl
@[simp] theorem State.modLogs_carSets (s : State) (f : Logs → Logs) : (s.modLogs f).carSets = s.carSets := rfl
@[simp] theorem State.modLogs_jn (s : State) (f : Logs → Logs) : (s.modLogs f).jn = s.jn := rfl
@[simp] theorem State.modLogs_ports (s : State) (f : Logs → Logs) : (s.modLogs f).ports = s.ports := rfl
@[simp] theorem State.modLogs_cc (s : State) (f : Logs → Logs) : (s.modLogs f).cc = s.cc := rfl
@[simp] theorem State.modLogs_lnkCtrs (s : State) (f : Logs → Logs) : (s.modLogs f).lnkCtrs = s.lnkCtrs := rfl
@[simp] theorem State.modLogs_cst (s : State) (f : Logs → Logs) : (s.modLogs f).cst = s.cst := rfl
@[simp] theorem State.modLogs_power (s : State) (f : Logs → Logs) : (s.modLogs f).power = s.power := rfl
@[simp] theorem State.modLogs_hiHost (s : State) (f : Logs → Logs) : (s.modLogs f).hiHost = s.hiHost := rfl
@[simp] theorem State.modLogs_hiCst (s : State) (f : Logs → Logs) : (s.modLogs f).hiCst = s.hiCst := rfl
@[simp] theorem State.modLogs_readData (s : State) (f : Logs → Logs) : (s.modLogs f).readData = s.readData := rfl
@[simp] theorem State.modLogs_readPoison (s : State) (f : Logs → Logs) : (s.modLogs f).readPoison = s.readPoison := rfl
@[simp] theorem State.modLogs_portData (s : State) (f : Logs → Logs) : (s.modLogs f).portData = s.portData := rfl
@[simp] theorem State.modLogs_cfgRetry (s : State) (f : Logs → Logs) : (s.modLogs f).cfgRetry = s.cfgRetry := rfl
@[simp] theorem State.modLogs_hostOut (s : State) (f : Logs → Logs) : (s.modLogs f).hostOut = s.hostOut := rfl
@[simp] theorem State.modLogs_canOut (s : State) (f : Logs → Logs) : (s.modLogs f).canOut = s.canOut := rfl
@[simp] theorem State.modLogs_flitOut (s : State) (f : Logs → Logs) : (s.modLogs f).flitOut = s.flitOut := rfl
@[simp] theorem State.modLogs_heldAt (s : State) (f : Logs → Logs) : (s.modLogs f).heldAt = s.heldAt := rfl
@[simp] theorem State.modLogs_freeCtr (s : State) (f : Logs → Logs) : (s.modLogs f).freeCtr = s.freeCtr := rfl
@[simp] theorem State.modLogs_hif_linkUp (s : State) (f : Logs → Logs) : (s.modLogs f).hif.linkUp = s.hif.linkUp := rfl
@[simp] theorem State.modLogs_hif_speed (s : State) (f : Logs → Logs) : (s.modLogs f).hif.speed = s.hif.speed := rfl
@[simp] theorem State.modLogs_hif_width (s : State) (f : Logs → Logs) : (s.modLogs f).hif.width = s.hif.width := rfl
@[simp] theorem State.modLogs_hif_flit (s : State) (f : Logs → Logs) : (s.modLogs f).hif.flit = s.hif.flit := rfl
@[simp] theorem State.modLogs_hif_cxl (s : State) (f : Logs → Logs) : (s.modLogs f).hif.cxl = s.hif.cxl := rfl
@[simp] theorem State.modLogs_hif_vfEnable (s : State) (f : Logs → Logs) : (s.modLogs f).hif.vfEnable = s.hif.vfEnable := rfl
@[simp] theorem State.modLogs_hif_resetting (s : State) (f : Logs → Logs) : (s.modLogs f).hif.resetting = s.hif.resetting := rfl
@[simp] theorem State.modLogs_hif_pf0Resetting (s : State) (f : Logs → Logs) : (s.modLogs f).hif.pf0Resetting = s.hif.pf0Resetting := rfl
@[simp] theorem State.modLogs_hif_zeroing (s : State) (f : Logs → Logs) : (s.modLogs f).hif.zeroing = s.hif.zeroing := rfl
@[simp] theorem State.modLogs_hif_orphans (s : State) (f : Logs → Logs) : (s.modLogs f).hif.orphans = s.hif.orphans := rfl
@[simp] theorem State.modLogs_hif_pages (s : State) (f : Logs → Logs) : (s.modLogs f).hif.pages = s.hif.pages := rfl
@[simp] theorem State.modLogs_hif_rings (s : State) (f : Logs → Logs) : (s.modLogs f).hif.rings = s.hif.rings := rfl
@[simp] theorem State.modLogs_hif_mbx (s : State) (f : Logs → Logs) : (s.modLogs f).hif.mbx = s.hif.mbx := rfl
@[simp] theorem State.modLogs_hif_ctrs (s : State) (f : Logs → Logs) : (s.modLogs f).hif.ctrs = s.hif.ctrs := rfl
@[simp] theorem State.modCst_pending (s : State) (f : Custodian → Custodian) : (s.modCst f).pending = s.pending := rfl
@[simp] theorem State.modCst_mem (s : State) (f : Custodian → Custodian) : (s.modCst f).mem = s.mem := rfl
@[simp] theorem State.modCst_poison (s : State) (f : Custodian → Custodian) : (s.modCst f).poison = s.poison := rfl
@[simp] theorem State.modCst_sch (s : State) (f : Custodian → Custodian) : (s.modCst f).sch = s.sch := rfl
@[simp] theorem State.modCst_tmem (s : State) (f : Custodian → Custodian) : (s.modCst f).tmem = s.tmem := rfl
@[simp] theorem State.modCst_porter (s : State) (f : Custodian → Custodian) : (s.modCst f).porter = s.porter := rfl
@[simp] theorem State.modCst_cat (s : State) (f : Custodian → Custodian) : (s.modCst f).cat = s.cat := rfl
@[simp] theorem State.modCst_insts (s : State) (f : Custodian → Custodian) : (s.modCst f).insts = s.insts := rfl
@[simp] theorem State.modCst_tasks (s : State) (f : Custodian → Custodian) : (s.modCst f).tasks = s.tasks := rfl
@[simp] theorem State.modCst_nextTask (s : State) (f : Custodian → Custodian) : (s.modCst f).nextTask = s.nextTask := rfl
@[simp] theorem State.modCst_cmds (s : State) (f : Custodian → Custodian) : (s.modCst f).cmds = s.cmds := rfl
@[simp] theorem State.modCst_sidings (s : State) (f : Custodian → Custodian) : (s.modCst f).sidings = s.sidings := rfl
@[simp] theorem State.modCst_tt (s : State) (f : Custodian → Custodian) : (s.modCst f).tt = s.tt := rfl
@[simp] theorem State.modCst_carSets (s : State) (f : Custodian → Custodian) : (s.modCst f).carSets = s.carSets := rfl
@[simp] theorem State.modCst_jn (s : State) (f : Custodian → Custodian) : (s.modCst f).jn = s.jn := rfl
@[simp] theorem State.modCst_ports (s : State) (f : Custodian → Custodian) : (s.modCst f).ports = s.ports := rfl
@[simp] theorem State.modCst_cc (s : State) (f : Custodian → Custodian) : (s.modCst f).cc = s.cc := rfl
@[simp] theorem State.modCst_lnkCtrs (s : State) (f : Custodian → Custodian) : (s.modCst f).lnkCtrs = s.lnkCtrs := rfl
@[simp] theorem State.modCst_hif (s : State) (f : Custodian → Custodian) : (s.modCst f).hif = s.hif := rfl
@[simp] theorem State.modCst_power (s : State) (f : Custodian → Custodian) : (s.modCst f).power = s.power := rfl
@[simp] theorem State.modCst_hiHost (s : State) (f : Custodian → Custodian) : (s.modCst f).hiHost = s.hiHost := rfl
@[simp] theorem State.modCst_hiCst (s : State) (f : Custodian → Custodian) : (s.modCst f).hiCst = s.hiCst := rfl
@[simp] theorem State.modCst_readData (s : State) (f : Custodian → Custodian) : (s.modCst f).readData = s.readData := rfl
@[simp] theorem State.modCst_readPoison (s : State) (f : Custodian → Custodian) : (s.modCst f).readPoison = s.readPoison := rfl
@[simp] theorem State.modCst_portData (s : State) (f : Custodian → Custodian) : (s.modCst f).portData = s.portData := rfl
@[simp] theorem State.modCst_cfgRetry (s : State) (f : Custodian → Custodian) : (s.modCst f).cfgRetry = s.cfgRetry := rfl
@[simp] theorem State.modCst_hostOut (s : State) (f : Custodian → Custodian) : (s.modCst f).hostOut = s.hostOut := rfl
@[simp] theorem State.modCst_canOut (s : State) (f : Custodian → Custodian) : (s.modCst f).canOut = s.canOut := rfl
@[simp] theorem State.modCst_flitOut (s : State) (f : Custodian → Custodian) : (s.modCst f).flitOut = s.flitOut := rfl
@[simp] theorem State.modCst_heldAt (s : State) (f : Custodian → Custodian) : (s.modCst f).heldAt = s.heldAt := rfl
@[simp] theorem State.modCst_freeCtr (s : State) (f : Custodian → Custodian) : (s.modCst f).freeCtr = s.freeCtr := rfl
@[simp] theorem State.modPower_pending (s : State) (f : Power → Power) : (s.modPower f).pending = s.pending := rfl
@[simp] theorem State.modPower_mem (s : State) (f : Power → Power) : (s.modPower f).mem = s.mem := rfl
@[simp] theorem State.modPower_poison (s : State) (f : Power → Power) : (s.modPower f).poison = s.poison := rfl
@[simp] theorem State.modPower_sch (s : State) (f : Power → Power) : (s.modPower f).sch = s.sch := rfl
@[simp] theorem State.modPower_tmem (s : State) (f : Power → Power) : (s.modPower f).tmem = s.tmem := rfl
@[simp] theorem State.modPower_porter (s : State) (f : Power → Power) : (s.modPower f).porter = s.porter := rfl
@[simp] theorem State.modPower_cat (s : State) (f : Power → Power) : (s.modPower f).cat = s.cat := rfl
@[simp] theorem State.modPower_insts (s : State) (f : Power → Power) : (s.modPower f).insts = s.insts := rfl
@[simp] theorem State.modPower_tasks (s : State) (f : Power → Power) : (s.modPower f).tasks = s.tasks := rfl
@[simp] theorem State.modPower_nextTask (s : State) (f : Power → Power) : (s.modPower f).nextTask = s.nextTask := rfl
@[simp] theorem State.modPower_cmds (s : State) (f : Power → Power) : (s.modPower f).cmds = s.cmds := rfl
@[simp] theorem State.modPower_sidings (s : State) (f : Power → Power) : (s.modPower f).sidings = s.sidings := rfl
@[simp] theorem State.modPower_tt (s : State) (f : Power → Power) : (s.modPower f).tt = s.tt := rfl
@[simp] theorem State.modPower_carSets (s : State) (f : Power → Power) : (s.modPower f).carSets = s.carSets := rfl
@[simp] theorem State.modPower_jn (s : State) (f : Power → Power) : (s.modPower f).jn = s.jn := rfl
@[simp] theorem State.modPower_ports (s : State) (f : Power → Power) : (s.modPower f).ports = s.ports := rfl
@[simp] theorem State.modPower_cc (s : State) (f : Power → Power) : (s.modPower f).cc = s.cc := rfl
@[simp] theorem State.modPower_lnkCtrs (s : State) (f : Power → Power) : (s.modPower f).lnkCtrs = s.lnkCtrs := rfl
@[simp] theorem State.modPower_hif (s : State) (f : Power → Power) : (s.modPower f).hif = s.hif := rfl
@[simp] theorem State.modPower_cst (s : State) (f : Power → Power) : (s.modPower f).cst = s.cst := rfl
@[simp] theorem State.modPower_hiHost (s : State) (f : Power → Power) : (s.modPower f).hiHost = s.hiHost := rfl
@[simp] theorem State.modPower_hiCst (s : State) (f : Power → Power) : (s.modPower f).hiCst = s.hiCst := rfl
@[simp] theorem State.modPower_readData (s : State) (f : Power → Power) : (s.modPower f).readData = s.readData := rfl
@[simp] theorem State.modPower_readPoison (s : State) (f : Power → Power) : (s.modPower f).readPoison = s.readPoison := rfl
@[simp] theorem State.modPower_portData (s : State) (f : Power → Power) : (s.modPower f).portData = s.portData := rfl
@[simp] theorem State.modPower_cfgRetry (s : State) (f : Power → Power) : (s.modPower f).cfgRetry = s.cfgRetry := rfl
@[simp] theorem State.modPower_hostOut (s : State) (f : Power → Power) : (s.modPower f).hostOut = s.hostOut := rfl
@[simp] theorem State.modPower_canOut (s : State) (f : Power → Power) : (s.modPower f).canOut = s.canOut := rfl
@[simp] theorem State.modPower_flitOut (s : State) (f : Power → Power) : (s.modPower f).flitOut = s.flitOut := rfl
@[simp] theorem State.modPower_heldAt (s : State) (f : Power → Power) : (s.modPower f).heldAt = s.heldAt := rfl
@[simp] theorem State.modPower_freeCtr (s : State) (f : Power → Power) : (s.modPower f).freeCtr = s.freeCtr := rfl
@[simp] theorem State.modPage_pending (s : State) (g : Func) (f : FuncPage → FuncPage) : (s.modPage g f).pending = s.pending := rfl
@[simp] theorem State.modPage_mem (s : State) (g : Func) (f : FuncPage → FuncPage) : (s.modPage g f).mem = s.mem := rfl
@[simp] theorem State.modPage_poison (s : State) (g : Func) (f : FuncPage → FuncPage) : (s.modPage g f).poison = s.poison := rfl
@[simp] theorem State.modPage_sch (s : State) (g : Func) (f : FuncPage → FuncPage) : (s.modPage g f).sch = s.sch := rfl
@[simp] theorem State.modPage_tmem (s : State) (g : Func) (f : FuncPage → FuncPage) : (s.modPage g f).tmem = s.tmem := rfl
@[simp] theorem State.modPage_porter (s : State) (g : Func) (f : FuncPage → FuncPage) : (s.modPage g f).porter = s.porter := rfl
@[simp] theorem State.modPage_cat (s : State) (g : Func) (f : FuncPage → FuncPage) : (s.modPage g f).cat = s.cat := rfl
@[simp] theorem State.modPage_insts (s : State) (g : Func) (f : FuncPage → FuncPage) : (s.modPage g f).insts = s.insts := rfl
@[simp] theorem State.modPage_tasks (s : State) (g : Func) (f : FuncPage → FuncPage) : (s.modPage g f).tasks = s.tasks := rfl
@[simp] theorem State.modPage_nextTask (s : State) (g : Func) (f : FuncPage → FuncPage) : (s.modPage g f).nextTask = s.nextTask := rfl
@[simp] theorem State.modPage_cmds (s : State) (g : Func) (f : FuncPage → FuncPage) : (s.modPage g f).cmds = s.cmds := rfl
@[simp] theorem State.modPage_sidings (s : State) (g : Func) (f : FuncPage → FuncPage) : (s.modPage g f).sidings = s.sidings := rfl
@[simp] theorem State.modPage_tt (s : State) (g : Func) (f : FuncPage → FuncPage) : (s.modPage g f).tt = s.tt := rfl
@[simp] theorem State.modPage_carSets (s : State) (g : Func) (f : FuncPage → FuncPage) : (s.modPage g f).carSets = s.carSets := rfl
@[simp] theorem State.modPage_jn (s : State) (g : Func) (f : FuncPage → FuncPage) : (s.modPage g f).jn = s.jn := rfl
@[simp] theorem State.modPage_ports (s : State) (g : Func) (f : FuncPage → FuncPage) : (s.modPage g f).ports = s.ports := rfl
@[simp] theorem State.modPage_cc (s : State) (g : Func) (f : FuncPage → FuncPage) : (s.modPage g f).cc = s.cc := rfl
@[simp] theorem State.modPage_lnkCtrs (s : State) (g : Func) (f : FuncPage → FuncPage) : (s.modPage g f).lnkCtrs = s.lnkCtrs := rfl
@[simp] theorem State.modPage_cst (s : State) (g : Func) (f : FuncPage → FuncPage) : (s.modPage g f).cst = s.cst := rfl
@[simp] theorem State.modPage_power (s : State) (g : Func) (f : FuncPage → FuncPage) : (s.modPage g f).power = s.power := rfl
@[simp] theorem State.modPage_hiHost (s : State) (g : Func) (f : FuncPage → FuncPage) : (s.modPage g f).hiHost = s.hiHost := rfl
@[simp] theorem State.modPage_hiCst (s : State) (g : Func) (f : FuncPage → FuncPage) : (s.modPage g f).hiCst = s.hiCst := rfl
@[simp] theorem State.modPage_readData (s : State) (g : Func) (f : FuncPage → FuncPage) : (s.modPage g f).readData = s.readData := rfl
@[simp] theorem State.modPage_readPoison (s : State) (g : Func) (f : FuncPage → FuncPage) : (s.modPage g f).readPoison = s.readPoison := rfl
@[simp] theorem State.modPage_portData (s : State) (g : Func) (f : FuncPage → FuncPage) : (s.modPage g f).portData = s.portData := rfl
@[simp] theorem State.modPage_cfgRetry (s : State) (g : Func) (f : FuncPage → FuncPage) : (s.modPage g f).cfgRetry = s.cfgRetry := rfl
@[simp] theorem State.modPage_hostOut (s : State) (g : Func) (f : FuncPage → FuncPage) : (s.modPage g f).hostOut = s.hostOut := rfl
@[simp] theorem State.modPage_canOut (s : State) (g : Func) (f : FuncPage → FuncPage) : (s.modPage g f).canOut = s.canOut := rfl
@[simp] theorem State.modPage_flitOut (s : State) (g : Func) (f : FuncPage → FuncPage) : (s.modPage g f).flitOut = s.flitOut := rfl
@[simp] theorem State.modPage_heldAt (s : State) (g : Func) (f : FuncPage → FuncPage) : (s.modPage g f).heldAt = s.heldAt := rfl
@[simp] theorem State.modPage_freeCtr (s : State) (g : Func) (f : FuncPage → FuncPage) : (s.modPage g f).freeCtr = s.freeCtr := rfl
@[simp] theorem State.modPage_hif_linkUp (s : State) (g : Func) (f : FuncPage → FuncPage) : (s.modPage g f).hif.linkUp = s.hif.linkUp := rfl
@[simp] theorem State.modPage_hif_speed (s : State) (g : Func) (f : FuncPage → FuncPage) : (s.modPage g f).hif.speed = s.hif.speed := rfl
@[simp] theorem State.modPage_hif_width (s : State) (g : Func) (f : FuncPage → FuncPage) : (s.modPage g f).hif.width = s.hif.width := rfl
@[simp] theorem State.modPage_hif_flit (s : State) (g : Func) (f : FuncPage → FuncPage) : (s.modPage g f).hif.flit = s.hif.flit := rfl
@[simp] theorem State.modPage_hif_cxl (s : State) (g : Func) (f : FuncPage → FuncPage) : (s.modPage g f).hif.cxl = s.hif.cxl := rfl
@[simp] theorem State.modPage_hif_vfEnable (s : State) (g : Func) (f : FuncPage → FuncPage) : (s.modPage g f).hif.vfEnable = s.hif.vfEnable := rfl
@[simp] theorem State.modPage_hif_resetting (s : State) (g : Func) (f : FuncPage → FuncPage) : (s.modPage g f).hif.resetting = s.hif.resetting := rfl
@[simp] theorem State.modPage_hif_pf0Resetting (s : State) (g : Func) (f : FuncPage → FuncPage) : (s.modPage g f).hif.pf0Resetting = s.hif.pf0Resetting := rfl
@[simp] theorem State.modPage_hif_zeroing (s : State) (g : Func) (f : FuncPage → FuncPage) : (s.modPage g f).hif.zeroing = s.hif.zeroing := rfl
@[simp] theorem State.modPage_hif_orphans (s : State) (g : Func) (f : FuncPage → FuncPage) : (s.modPage g f).hif.orphans = s.hif.orphans := rfl
@[simp] theorem State.modPage_hif_rings (s : State) (g : Func) (f : FuncPage → FuncPage) : (s.modPage g f).hif.rings = s.hif.rings := rfl
@[simp] theorem State.modPage_hif_mbx (s : State) (g : Func) (f : FuncPage → FuncPage) : (s.modPage g f).hif.mbx = s.hif.mbx := rfl
@[simp] theorem State.modPage_hif_logs (s : State) (g : Func) (f : FuncPage → FuncPage) : (s.modPage g f).hif.logs = s.hif.logs := rfl
@[simp] theorem State.modPage_hif_ctrs (s : State) (g : Func) (f : FuncPage → FuncPage) : (s.modPage g f).hif.ctrs = s.hif.ctrs := rfl
@[simp] theorem State.modRing_pending (s : State) (g : Func) (r : Nat) (f : Ring → Ring) : (s.modRing g r f).pending = s.pending := rfl
@[simp] theorem State.modRing_mem (s : State) (g : Func) (r : Nat) (f : Ring → Ring) : (s.modRing g r f).mem = s.mem := rfl
@[simp] theorem State.modRing_poison (s : State) (g : Func) (r : Nat) (f : Ring → Ring) : (s.modRing g r f).poison = s.poison := rfl
@[simp] theorem State.modRing_sch (s : State) (g : Func) (r : Nat) (f : Ring → Ring) : (s.modRing g r f).sch = s.sch := rfl
@[simp] theorem State.modRing_tmem (s : State) (g : Func) (r : Nat) (f : Ring → Ring) : (s.modRing g r f).tmem = s.tmem := rfl
@[simp] theorem State.modRing_porter (s : State) (g : Func) (r : Nat) (f : Ring → Ring) : (s.modRing g r f).porter = s.porter := rfl
@[simp] theorem State.modRing_cat (s : State) (g : Func) (r : Nat) (f : Ring → Ring) : (s.modRing g r f).cat = s.cat := rfl
@[simp] theorem State.modRing_insts (s : State) (g : Func) (r : Nat) (f : Ring → Ring) : (s.modRing g r f).insts = s.insts := rfl
@[simp] theorem State.modRing_tasks (s : State) (g : Func) (r : Nat) (f : Ring → Ring) : (s.modRing g r f).tasks = s.tasks := rfl
@[simp] theorem State.modRing_nextTask (s : State) (g : Func) (r : Nat) (f : Ring → Ring) : (s.modRing g r f).nextTask = s.nextTask := rfl
@[simp] theorem State.modRing_cmds (s : State) (g : Func) (r : Nat) (f : Ring → Ring) : (s.modRing g r f).cmds = s.cmds := rfl
@[simp] theorem State.modRing_sidings (s : State) (g : Func) (r : Nat) (f : Ring → Ring) : (s.modRing g r f).sidings = s.sidings := rfl
@[simp] theorem State.modRing_tt (s : State) (g : Func) (r : Nat) (f : Ring → Ring) : (s.modRing g r f).tt = s.tt := rfl
@[simp] theorem State.modRing_carSets (s : State) (g : Func) (r : Nat) (f : Ring → Ring) : (s.modRing g r f).carSets = s.carSets := rfl
@[simp] theorem State.modRing_jn (s : State) (g : Func) (r : Nat) (f : Ring → Ring) : (s.modRing g r f).jn = s.jn := rfl
@[simp] theorem State.modRing_ports (s : State) (g : Func) (r : Nat) (f : Ring → Ring) : (s.modRing g r f).ports = s.ports := rfl
@[simp] theorem State.modRing_cc (s : State) (g : Func) (r : Nat) (f : Ring → Ring) : (s.modRing g r f).cc = s.cc := rfl
@[simp] theorem State.modRing_lnkCtrs (s : State) (g : Func) (r : Nat) (f : Ring → Ring) : (s.modRing g r f).lnkCtrs = s.lnkCtrs := rfl
@[simp] theorem State.modRing_cst (s : State) (g : Func) (r : Nat) (f : Ring → Ring) : (s.modRing g r f).cst = s.cst := rfl
@[simp] theorem State.modRing_power (s : State) (g : Func) (r : Nat) (f : Ring → Ring) : (s.modRing g r f).power = s.power := rfl
@[simp] theorem State.modRing_hiHost (s : State) (g : Func) (r : Nat) (f : Ring → Ring) : (s.modRing g r f).hiHost = s.hiHost := rfl
@[simp] theorem State.modRing_hiCst (s : State) (g : Func) (r : Nat) (f : Ring → Ring) : (s.modRing g r f).hiCst = s.hiCst := rfl
@[simp] theorem State.modRing_readData (s : State) (g : Func) (r : Nat) (f : Ring → Ring) : (s.modRing g r f).readData = s.readData := rfl
@[simp] theorem State.modRing_readPoison (s : State) (g : Func) (r : Nat) (f : Ring → Ring) : (s.modRing g r f).readPoison = s.readPoison := rfl
@[simp] theorem State.modRing_portData (s : State) (g : Func) (r : Nat) (f : Ring → Ring) : (s.modRing g r f).portData = s.portData := rfl
@[simp] theorem State.modRing_cfgRetry (s : State) (g : Func) (r : Nat) (f : Ring → Ring) : (s.modRing g r f).cfgRetry = s.cfgRetry := rfl
@[simp] theorem State.modRing_hostOut (s : State) (g : Func) (r : Nat) (f : Ring → Ring) : (s.modRing g r f).hostOut = s.hostOut := rfl
@[simp] theorem State.modRing_canOut (s : State) (g : Func) (r : Nat) (f : Ring → Ring) : (s.modRing g r f).canOut = s.canOut := rfl
@[simp] theorem State.modRing_flitOut (s : State) (g : Func) (r : Nat) (f : Ring → Ring) : (s.modRing g r f).flitOut = s.flitOut := rfl
@[simp] theorem State.modRing_heldAt (s : State) (g : Func) (r : Nat) (f : Ring → Ring) : (s.modRing g r f).heldAt = s.heldAt := rfl
@[simp] theorem State.modRing_freeCtr (s : State) (g : Func) (r : Nat) (f : Ring → Ring) : (s.modRing g r f).freeCtr = s.freeCtr := rfl
@[simp] theorem State.modRing_hif_linkUp (s : State) (g : Func) (r : Nat) (f : Ring → Ring) : (s.modRing g r f).hif.linkUp = s.hif.linkUp := rfl
@[simp] theorem State.modRing_hif_speed (s : State) (g : Func) (r : Nat) (f : Ring → Ring) : (s.modRing g r f).hif.speed = s.hif.speed := rfl
@[simp] theorem State.modRing_hif_width (s : State) (g : Func) (r : Nat) (f : Ring → Ring) : (s.modRing g r f).hif.width = s.hif.width := rfl
@[simp] theorem State.modRing_hif_flit (s : State) (g : Func) (r : Nat) (f : Ring → Ring) : (s.modRing g r f).hif.flit = s.hif.flit := rfl
@[simp] theorem State.modRing_hif_cxl (s : State) (g : Func) (r : Nat) (f : Ring → Ring) : (s.modRing g r f).hif.cxl = s.hif.cxl := rfl
@[simp] theorem State.modRing_hif_vfEnable (s : State) (g : Func) (r : Nat) (f : Ring → Ring) : (s.modRing g r f).hif.vfEnable = s.hif.vfEnable := rfl
@[simp] theorem State.modRing_hif_resetting (s : State) (g : Func) (r : Nat) (f : Ring → Ring) : (s.modRing g r f).hif.resetting = s.hif.resetting := rfl
@[simp] theorem State.modRing_hif_pf0Resetting (s : State) (g : Func) (r : Nat) (f : Ring → Ring) : (s.modRing g r f).hif.pf0Resetting = s.hif.pf0Resetting := rfl
@[simp] theorem State.modRing_hif_zeroing (s : State) (g : Func) (r : Nat) (f : Ring → Ring) : (s.modRing g r f).hif.zeroing = s.hif.zeroing := rfl
@[simp] theorem State.modRing_hif_orphans (s : State) (g : Func) (r : Nat) (f : Ring → Ring) : (s.modRing g r f).hif.orphans = s.hif.orphans := rfl
@[simp] theorem State.modRing_hif_pages (s : State) (g : Func) (r : Nat) (f : Ring → Ring) : (s.modRing g r f).hif.pages = s.hif.pages := rfl
@[simp] theorem State.modRing_hif_mbx (s : State) (g : Func) (r : Nat) (f : Ring → Ring) : (s.modRing g r f).hif.mbx = s.hif.mbx := rfl
@[simp] theorem State.modRing_hif_logs (s : State) (g : Func) (r : Nat) (f : Ring → Ring) : (s.modRing g r f).hif.logs = s.hif.logs := rfl
@[simp] theorem State.modRing_hif_ctrs (s : State) (g : Func) (r : Nat) (f : Ring → Ring) : (s.modRing g r f).hif.ctrs = s.hif.ctrs := rfl
@[simp] theorem State.modTask_pending (s : State) (i : Nat) (f : Task → Task) : (s.modTask i f).pending = s.pending := rfl
@[simp] theorem State.modTask_mem (s : State) (i : Nat) (f : Task → Task) : (s.modTask i f).mem = s.mem := rfl
@[simp] theorem State.modTask_poison (s : State) (i : Nat) (f : Task → Task) : (s.modTask i f).poison = s.poison := rfl
@[simp] theorem State.modTask_sch (s : State) (i : Nat) (f : Task → Task) : (s.modTask i f).sch = s.sch := rfl
@[simp] theorem State.modTask_tmem (s : State) (i : Nat) (f : Task → Task) : (s.modTask i f).tmem = s.tmem := rfl
@[simp] theorem State.modTask_porter (s : State) (i : Nat) (f : Task → Task) : (s.modTask i f).porter = s.porter := rfl
@[simp] theorem State.modTask_cat (s : State) (i : Nat) (f : Task → Task) : (s.modTask i f).cat = s.cat := rfl
@[simp] theorem State.modTask_insts (s : State) (i : Nat) (f : Task → Task) : (s.modTask i f).insts = s.insts := rfl
@[simp] theorem State.modTask_nextTask (s : State) (i : Nat) (f : Task → Task) : (s.modTask i f).nextTask = s.nextTask := rfl
@[simp] theorem State.modTask_cmds (s : State) (i : Nat) (f : Task → Task) : (s.modTask i f).cmds = s.cmds := rfl
@[simp] theorem State.modTask_sidings (s : State) (i : Nat) (f : Task → Task) : (s.modTask i f).sidings = s.sidings := rfl
@[simp] theorem State.modTask_tt (s : State) (i : Nat) (f : Task → Task) : (s.modTask i f).tt = s.tt := rfl
@[simp] theorem State.modTask_carSets (s : State) (i : Nat) (f : Task → Task) : (s.modTask i f).carSets = s.carSets := rfl
@[simp] theorem State.modTask_jn (s : State) (i : Nat) (f : Task → Task) : (s.modTask i f).jn = s.jn := rfl
@[simp] theorem State.modTask_ports (s : State) (i : Nat) (f : Task → Task) : (s.modTask i f).ports = s.ports := rfl
@[simp] theorem State.modTask_cc (s : State) (i : Nat) (f : Task → Task) : (s.modTask i f).cc = s.cc := rfl
@[simp] theorem State.modTask_lnkCtrs (s : State) (i : Nat) (f : Task → Task) : (s.modTask i f).lnkCtrs = s.lnkCtrs := rfl
@[simp] theorem State.modTask_hif (s : State) (i : Nat) (f : Task → Task) : (s.modTask i f).hif = s.hif := rfl
@[simp] theorem State.modTask_cst (s : State) (i : Nat) (f : Task → Task) : (s.modTask i f).cst = s.cst := rfl
@[simp] theorem State.modTask_power (s : State) (i : Nat) (f : Task → Task) : (s.modTask i f).power = s.power := rfl
@[simp] theorem State.modTask_hiHost (s : State) (i : Nat) (f : Task → Task) : (s.modTask i f).hiHost = s.hiHost := rfl
@[simp] theorem State.modTask_hiCst (s : State) (i : Nat) (f : Task → Task) : (s.modTask i f).hiCst = s.hiCst := rfl
@[simp] theorem State.modTask_readData (s : State) (i : Nat) (f : Task → Task) : (s.modTask i f).readData = s.readData := rfl
@[simp] theorem State.modTask_readPoison (s : State) (i : Nat) (f : Task → Task) : (s.modTask i f).readPoison = s.readPoison := rfl
@[simp] theorem State.modTask_portData (s : State) (i : Nat) (f : Task → Task) : (s.modTask i f).portData = s.portData := rfl
@[simp] theorem State.modTask_cfgRetry (s : State) (i : Nat) (f : Task → Task) : (s.modTask i f).cfgRetry = s.cfgRetry := rfl
@[simp] theorem State.modTask_hostOut (s : State) (i : Nat) (f : Task → Task) : (s.modTask i f).hostOut = s.hostOut := rfl
@[simp] theorem State.modTask_canOut (s : State) (i : Nat) (f : Task → Task) : (s.modTask i f).canOut = s.canOut := rfl
@[simp] theorem State.modTask_flitOut (s : State) (i : Nat) (f : Task → Task) : (s.modTask i f).flitOut = s.flitOut := rfl
@[simp] theorem State.modTask_heldAt (s : State) (i : Nat) (f : Task → Task) : (s.modTask i f).heldAt = s.heldAt := rfl
@[simp] theorem State.modTask_freeCtr (s : State) (i : Nat) (f : Task → Task) : (s.modTask i f).freeCtr = s.freeCtr := rfl
@[simp] theorem State.modCarSet_pending (s : State) (w : Wing) (k : CarSetKey) (f : CarSet → CarSet) : (s.modCarSet w k f).pending = s.pending := rfl
@[simp] theorem State.modCarSet_mem (s : State) (w : Wing) (k : CarSetKey) (f : CarSet → CarSet) : (s.modCarSet w k f).mem = s.mem := rfl
@[simp] theorem State.modCarSet_poison (s : State) (w : Wing) (k : CarSetKey) (f : CarSet → CarSet) : (s.modCarSet w k f).poison = s.poison := rfl
@[simp] theorem State.modCarSet_sch (s : State) (w : Wing) (k : CarSetKey) (f : CarSet → CarSet) : (s.modCarSet w k f).sch = s.sch := rfl
@[simp] theorem State.modCarSet_tmem (s : State) (w : Wing) (k : CarSetKey) (f : CarSet → CarSet) : (s.modCarSet w k f).tmem = s.tmem := rfl
@[simp] theorem State.modCarSet_porter (s : State) (w : Wing) (k : CarSetKey) (f : CarSet → CarSet) : (s.modCarSet w k f).porter = s.porter := rfl
@[simp] theorem State.modCarSet_cat (s : State) (w : Wing) (k : CarSetKey) (f : CarSet → CarSet) : (s.modCarSet w k f).cat = s.cat := rfl
@[simp] theorem State.modCarSet_insts (s : State) (w : Wing) (k : CarSetKey) (f : CarSet → CarSet) : (s.modCarSet w k f).insts = s.insts := rfl
@[simp] theorem State.modCarSet_tasks (s : State) (w : Wing) (k : CarSetKey) (f : CarSet → CarSet) : (s.modCarSet w k f).tasks = s.tasks := rfl
@[simp] theorem State.modCarSet_nextTask (s : State) (w : Wing) (k : CarSetKey) (f : CarSet → CarSet) : (s.modCarSet w k f).nextTask = s.nextTask := rfl
@[simp] theorem State.modCarSet_cmds (s : State) (w : Wing) (k : CarSetKey) (f : CarSet → CarSet) : (s.modCarSet w k f).cmds = s.cmds := rfl
@[simp] theorem State.modCarSet_sidings (s : State) (w : Wing) (k : CarSetKey) (f : CarSet → CarSet) : (s.modCarSet w k f).sidings = s.sidings := rfl
@[simp] theorem State.modCarSet_tt (s : State) (w : Wing) (k : CarSetKey) (f : CarSet → CarSet) : (s.modCarSet w k f).tt = s.tt := rfl
@[simp] theorem State.modCarSet_jn (s : State) (w : Wing) (k : CarSetKey) (f : CarSet → CarSet) : (s.modCarSet w k f).jn = s.jn := rfl
@[simp] theorem State.modCarSet_ports (s : State) (w : Wing) (k : CarSetKey) (f : CarSet → CarSet) : (s.modCarSet w k f).ports = s.ports := rfl
@[simp] theorem State.modCarSet_cc (s : State) (w : Wing) (k : CarSetKey) (f : CarSet → CarSet) : (s.modCarSet w k f).cc = s.cc := rfl
@[simp] theorem State.modCarSet_lnkCtrs (s : State) (w : Wing) (k : CarSetKey) (f : CarSet → CarSet) : (s.modCarSet w k f).lnkCtrs = s.lnkCtrs := rfl
@[simp] theorem State.modCarSet_hif (s : State) (w : Wing) (k : CarSetKey) (f : CarSet → CarSet) : (s.modCarSet w k f).hif = s.hif := rfl
@[simp] theorem State.modCarSet_cst (s : State) (w : Wing) (k : CarSetKey) (f : CarSet → CarSet) : (s.modCarSet w k f).cst = s.cst := rfl
@[simp] theorem State.modCarSet_power (s : State) (w : Wing) (k : CarSetKey) (f : CarSet → CarSet) : (s.modCarSet w k f).power = s.power := rfl
@[simp] theorem State.modCarSet_hiHost (s : State) (w : Wing) (k : CarSetKey) (f : CarSet → CarSet) : (s.modCarSet w k f).hiHost = s.hiHost := rfl
@[simp] theorem State.modCarSet_hiCst (s : State) (w : Wing) (k : CarSetKey) (f : CarSet → CarSet) : (s.modCarSet w k f).hiCst = s.hiCst := rfl
@[simp] theorem State.modCarSet_readData (s : State) (w : Wing) (k : CarSetKey) (f : CarSet → CarSet) : (s.modCarSet w k f).readData = s.readData := rfl
@[simp] theorem State.modCarSet_readPoison (s : State) (w : Wing) (k : CarSetKey) (f : CarSet → CarSet) : (s.modCarSet w k f).readPoison = s.readPoison := rfl
@[simp] theorem State.modCarSet_portData (s : State) (w : Wing) (k : CarSetKey) (f : CarSet → CarSet) : (s.modCarSet w k f).portData = s.portData := rfl
@[simp] theorem State.modCarSet_cfgRetry (s : State) (w : Wing) (k : CarSetKey) (f : CarSet → CarSet) : (s.modCarSet w k f).cfgRetry = s.cfgRetry := rfl
@[simp] theorem State.modCarSet_hostOut (s : State) (w : Wing) (k : CarSetKey) (f : CarSet → CarSet) : (s.modCarSet w k f).hostOut = s.hostOut := rfl
@[simp] theorem State.modCarSet_canOut (s : State) (w : Wing) (k : CarSetKey) (f : CarSet → CarSet) : (s.modCarSet w k f).canOut = s.canOut := rfl
@[simp] theorem State.modCarSet_flitOut (s : State) (w : Wing) (k : CarSetKey) (f : CarSet → CarSet) : (s.modCarSet w k f).flitOut = s.flitOut := rfl
@[simp] theorem State.modCarSet_heldAt (s : State) (w : Wing) (k : CarSetKey) (f : CarSet → CarSet) : (s.modCarSet w k f).heldAt = s.heldAt := rfl
@[simp] theorem State.modCarSet_freeCtr (s : State) (w : Wing) (k : CarSetKey) (f : CarSet → CarSet) : (s.modCarSet w k f).freeCtr = s.freeCtr := rfl
@[simp] theorem State.modColl_pending (s : State) (w : Wing) (k : CollKey) (f : Coll → Coll) : (s.modColl w k f).pending = s.pending := rfl
@[simp] theorem State.modColl_mem (s : State) (w : Wing) (k : CollKey) (f : Coll → Coll) : (s.modColl w k f).mem = s.mem := rfl
@[simp] theorem State.modColl_poison (s : State) (w : Wing) (k : CollKey) (f : Coll → Coll) : (s.modColl w k f).poison = s.poison := rfl
@[simp] theorem State.modColl_sch (s : State) (w : Wing) (k : CollKey) (f : Coll → Coll) : (s.modColl w k f).sch = s.sch := rfl
@[simp] theorem State.modColl_tmem (s : State) (w : Wing) (k : CollKey) (f : Coll → Coll) : (s.modColl w k f).tmem = s.tmem := rfl
@[simp] theorem State.modColl_porter (s : State) (w : Wing) (k : CollKey) (f : Coll → Coll) : (s.modColl w k f).porter = s.porter := rfl
@[simp] theorem State.modColl_cat (s : State) (w : Wing) (k : CollKey) (f : Coll → Coll) : (s.modColl w k f).cat = s.cat := rfl
@[simp] theorem State.modColl_insts (s : State) (w : Wing) (k : CollKey) (f : Coll → Coll) : (s.modColl w k f).insts = s.insts := rfl
@[simp] theorem State.modColl_tasks (s : State) (w : Wing) (k : CollKey) (f : Coll → Coll) : (s.modColl w k f).tasks = s.tasks := rfl
@[simp] theorem State.modColl_nextTask (s : State) (w : Wing) (k : CollKey) (f : Coll → Coll) : (s.modColl w k f).nextTask = s.nextTask := rfl
@[simp] theorem State.modColl_cmds (s : State) (w : Wing) (k : CollKey) (f : Coll → Coll) : (s.modColl w k f).cmds = s.cmds := rfl
@[simp] theorem State.modColl_sidings (s : State) (w : Wing) (k : CollKey) (f : Coll → Coll) : (s.modColl w k f).sidings = s.sidings := rfl
@[simp] theorem State.modColl_tt (s : State) (w : Wing) (k : CollKey) (f : Coll → Coll) : (s.modColl w k f).tt = s.tt := rfl
@[simp] theorem State.modColl_carSets (s : State) (w : Wing) (k : CollKey) (f : Coll → Coll) : (s.modColl w k f).carSets = s.carSets := rfl
@[simp] theorem State.modColl_ports (s : State) (w : Wing) (k : CollKey) (f : Coll → Coll) : (s.modColl w k f).ports = s.ports := rfl
@[simp] theorem State.modColl_cc (s : State) (w : Wing) (k : CollKey) (f : Coll → Coll) : (s.modColl w k f).cc = s.cc := rfl
@[simp] theorem State.modColl_lnkCtrs (s : State) (w : Wing) (k : CollKey) (f : Coll → Coll) : (s.modColl w k f).lnkCtrs = s.lnkCtrs := rfl
@[simp] theorem State.modColl_hif (s : State) (w : Wing) (k : CollKey) (f : Coll → Coll) : (s.modColl w k f).hif = s.hif := rfl
@[simp] theorem State.modColl_cst (s : State) (w : Wing) (k : CollKey) (f : Coll → Coll) : (s.modColl w k f).cst = s.cst := rfl
@[simp] theorem State.modColl_power (s : State) (w : Wing) (k : CollKey) (f : Coll → Coll) : (s.modColl w k f).power = s.power := rfl
@[simp] theorem State.modColl_hiHost (s : State) (w : Wing) (k : CollKey) (f : Coll → Coll) : (s.modColl w k f).hiHost = s.hiHost := rfl
@[simp] theorem State.modColl_hiCst (s : State) (w : Wing) (k : CollKey) (f : Coll → Coll) : (s.modColl w k f).hiCst = s.hiCst := rfl
@[simp] theorem State.modColl_readData (s : State) (w : Wing) (k : CollKey) (f : Coll → Coll) : (s.modColl w k f).readData = s.readData := rfl
@[simp] theorem State.modColl_readPoison (s : State) (w : Wing) (k : CollKey) (f : Coll → Coll) : (s.modColl w k f).readPoison = s.readPoison := rfl
@[simp] theorem State.modColl_portData (s : State) (w : Wing) (k : CollKey) (f : Coll → Coll) : (s.modColl w k f).portData = s.portData := rfl
@[simp] theorem State.modColl_cfgRetry (s : State) (w : Wing) (k : CollKey) (f : Coll → Coll) : (s.modColl w k f).cfgRetry = s.cfgRetry := rfl
@[simp] theorem State.modColl_hostOut (s : State) (w : Wing) (k : CollKey) (f : Coll → Coll) : (s.modColl w k f).hostOut = s.hostOut := rfl
@[simp] theorem State.modColl_canOut (s : State) (w : Wing) (k : CollKey) (f : Coll → Coll) : (s.modColl w k f).canOut = s.canOut := rfl
@[simp] theorem State.modColl_flitOut (s : State) (w : Wing) (k : CollKey) (f : Coll → Coll) : (s.modColl w k f).flitOut = s.flitOut := rfl
@[simp] theorem State.modColl_heldAt (s : State) (w : Wing) (k : CollKey) (f : Coll → Coll) : (s.modColl w k f).heldAt = s.heldAt := rfl
@[simp] theorem State.modColl_freeCtr (s : State) (w : Wing) (k : CollKey) (f : Coll → Coll) : (s.modColl w k f).freeCtr = s.freeCtr := rfl
@[simp] theorem State.modSiding_pending (s : State) (p : Nat) (w : Wing) (n : Nat) (f : Siding → Siding) : (s.modSiding p w n f).pending = s.pending := rfl
@[simp] theorem State.modSiding_mem (s : State) (p : Nat) (w : Wing) (n : Nat) (f : Siding → Siding) : (s.modSiding p w n f).mem = s.mem := rfl
@[simp] theorem State.modSiding_poison (s : State) (p : Nat) (w : Wing) (n : Nat) (f : Siding → Siding) : (s.modSiding p w n f).poison = s.poison := rfl
@[simp] theorem State.modSiding_sch (s : State) (p : Nat) (w : Wing) (n : Nat) (f : Siding → Siding) : (s.modSiding p w n f).sch = s.sch := rfl
@[simp] theorem State.modSiding_tmem (s : State) (p : Nat) (w : Wing) (n : Nat) (f : Siding → Siding) : (s.modSiding p w n f).tmem = s.tmem := rfl
@[simp] theorem State.modSiding_porter (s : State) (p : Nat) (w : Wing) (n : Nat) (f : Siding → Siding) : (s.modSiding p w n f).porter = s.porter := rfl
@[simp] theorem State.modSiding_cat (s : State) (p : Nat) (w : Wing) (n : Nat) (f : Siding → Siding) : (s.modSiding p w n f).cat = s.cat := rfl
@[simp] theorem State.modSiding_insts (s : State) (p : Nat) (w : Wing) (n : Nat) (f : Siding → Siding) : (s.modSiding p w n f).insts = s.insts := rfl
@[simp] theorem State.modSiding_tasks (s : State) (p : Nat) (w : Wing) (n : Nat) (f : Siding → Siding) : (s.modSiding p w n f).tasks = s.tasks := rfl
@[simp] theorem State.modSiding_nextTask (s : State) (p : Nat) (w : Wing) (n : Nat) (f : Siding → Siding) : (s.modSiding p w n f).nextTask = s.nextTask := rfl
@[simp] theorem State.modSiding_cmds (s : State) (p : Nat) (w : Wing) (n : Nat) (f : Siding → Siding) : (s.modSiding p w n f).cmds = s.cmds := rfl
@[simp] theorem State.modSiding_tt (s : State) (p : Nat) (w : Wing) (n : Nat) (f : Siding → Siding) : (s.modSiding p w n f).tt = s.tt := rfl
@[simp] theorem State.modSiding_carSets (s : State) (p : Nat) (w : Wing) (n : Nat) (f : Siding → Siding) : (s.modSiding p w n f).carSets = s.carSets := rfl
@[simp] theorem State.modSiding_jn (s : State) (p : Nat) (w : Wing) (n : Nat) (f : Siding → Siding) : (s.modSiding p w n f).jn = s.jn := rfl
@[simp] theorem State.modSiding_ports (s : State) (p : Nat) (w : Wing) (n : Nat) (f : Siding → Siding) : (s.modSiding p w n f).ports = s.ports := rfl
@[simp] theorem State.modSiding_cc (s : State) (p : Nat) (w : Wing) (n : Nat) (f : Siding → Siding) : (s.modSiding p w n f).cc = s.cc := rfl
@[simp] theorem State.modSiding_lnkCtrs (s : State) (p : Nat) (w : Wing) (n : Nat) (f : Siding → Siding) : (s.modSiding p w n f).lnkCtrs = s.lnkCtrs := rfl
@[simp] theorem State.modSiding_hif (s : State) (p : Nat) (w : Wing) (n : Nat) (f : Siding → Siding) : (s.modSiding p w n f).hif = s.hif := rfl
@[simp] theorem State.modSiding_cst (s : State) (p : Nat) (w : Wing) (n : Nat) (f : Siding → Siding) : (s.modSiding p w n f).cst = s.cst := rfl
@[simp] theorem State.modSiding_power (s : State) (p : Nat) (w : Wing) (n : Nat) (f : Siding → Siding) : (s.modSiding p w n f).power = s.power := rfl
@[simp] theorem State.modSiding_hiHost (s : State) (p : Nat) (w : Wing) (n : Nat) (f : Siding → Siding) : (s.modSiding p w n f).hiHost = s.hiHost := rfl
@[simp] theorem State.modSiding_hiCst (s : State) (p : Nat) (w : Wing) (n : Nat) (f : Siding → Siding) : (s.modSiding p w n f).hiCst = s.hiCst := rfl
@[simp] theorem State.modSiding_readData (s : State) (p : Nat) (w : Wing) (n : Nat) (f : Siding → Siding) : (s.modSiding p w n f).readData = s.readData := rfl
@[simp] theorem State.modSiding_readPoison (s : State) (p : Nat) (w : Wing) (n : Nat) (f : Siding → Siding) : (s.modSiding p w n f).readPoison = s.readPoison := rfl
@[simp] theorem State.modSiding_portData (s : State) (p : Nat) (w : Wing) (n : Nat) (f : Siding → Siding) : (s.modSiding p w n f).portData = s.portData := rfl
@[simp] theorem State.modSiding_cfgRetry (s : State) (p : Nat) (w : Wing) (n : Nat) (f : Siding → Siding) : (s.modSiding p w n f).cfgRetry = s.cfgRetry := rfl
@[simp] theorem State.modSiding_hostOut (s : State) (p : Nat) (w : Wing) (n : Nat) (f : Siding → Siding) : (s.modSiding p w n f).hostOut = s.hostOut := rfl
@[simp] theorem State.modSiding_canOut (s : State) (p : Nat) (w : Wing) (n : Nat) (f : Siding → Siding) : (s.modSiding p w n f).canOut = s.canOut := rfl
@[simp] theorem State.modSiding_flitOut (s : State) (p : Nat) (w : Wing) (n : Nat) (f : Siding → Siding) : (s.modSiding p w n f).flitOut = s.flitOut := rfl
@[simp] theorem State.modSiding_heldAt (s : State) (p : Nat) (w : Wing) (n : Nat) (f : Siding → Siding) : (s.modSiding p w n f).heldAt = s.heldAt := rfl
@[simp] theorem State.modSiding_freeCtr (s : State) (p : Nat) (w : Wing) (n : Nat) (f : Siding → Siding) : (s.modSiding p w n f).freeCtr = s.freeCtr := rfl
@[simp] theorem State.modPort_pending (s : State) (w : Wing) (p : Nat) (f : Port → Port) : (s.modPort w p f).pending = s.pending := rfl
@[simp] theorem State.modPort_mem (s : State) (w : Wing) (p : Nat) (f : Port → Port) : (s.modPort w p f).mem = s.mem := rfl
@[simp] theorem State.modPort_poison (s : State) (w : Wing) (p : Nat) (f : Port → Port) : (s.modPort w p f).poison = s.poison := rfl
@[simp] theorem State.modPort_sch (s : State) (w : Wing) (p : Nat) (f : Port → Port) : (s.modPort w p f).sch = s.sch := rfl
@[simp] theorem State.modPort_tmem (s : State) (w : Wing) (p : Nat) (f : Port → Port) : (s.modPort w p f).tmem = s.tmem := rfl
@[simp] theorem State.modPort_porter (s : State) (w : Wing) (p : Nat) (f : Port → Port) : (s.modPort w p f).porter = s.porter := rfl
@[simp] theorem State.modPort_cat (s : State) (w : Wing) (p : Nat) (f : Port → Port) : (s.modPort w p f).cat = s.cat := rfl
@[simp] theorem State.modPort_insts (s : State) (w : Wing) (p : Nat) (f : Port → Port) : (s.modPort w p f).insts = s.insts := rfl
@[simp] theorem State.modPort_tasks (s : State) (w : Wing) (p : Nat) (f : Port → Port) : (s.modPort w p f).tasks = s.tasks := rfl
@[simp] theorem State.modPort_nextTask (s : State) (w : Wing) (p : Nat) (f : Port → Port) : (s.modPort w p f).nextTask = s.nextTask := rfl
@[simp] theorem State.modPort_cmds (s : State) (w : Wing) (p : Nat) (f : Port → Port) : (s.modPort w p f).cmds = s.cmds := rfl
@[simp] theorem State.modPort_sidings (s : State) (w : Wing) (p : Nat) (f : Port → Port) : (s.modPort w p f).sidings = s.sidings := rfl
@[simp] theorem State.modPort_tt (s : State) (w : Wing) (p : Nat) (f : Port → Port) : (s.modPort w p f).tt = s.tt := rfl
@[simp] theorem State.modPort_carSets (s : State) (w : Wing) (p : Nat) (f : Port → Port) : (s.modPort w p f).carSets = s.carSets := rfl
@[simp] theorem State.modPort_jn (s : State) (w : Wing) (p : Nat) (f : Port → Port) : (s.modPort w p f).jn = s.jn := rfl
@[simp] theorem State.modPort_cc (s : State) (w : Wing) (p : Nat) (f : Port → Port) : (s.modPort w p f).cc = s.cc := rfl
@[simp] theorem State.modPort_lnkCtrs (s : State) (w : Wing) (p : Nat) (f : Port → Port) : (s.modPort w p f).lnkCtrs = s.lnkCtrs := rfl
@[simp] theorem State.modPort_hif (s : State) (w : Wing) (p : Nat) (f : Port → Port) : (s.modPort w p f).hif = s.hif := rfl
@[simp] theorem State.modPort_cst (s : State) (w : Wing) (p : Nat) (f : Port → Port) : (s.modPort w p f).cst = s.cst := rfl
@[simp] theorem State.modPort_power (s : State) (w : Wing) (p : Nat) (f : Port → Port) : (s.modPort w p f).power = s.power := rfl
@[simp] theorem State.modPort_hiHost (s : State) (w : Wing) (p : Nat) (f : Port → Port) : (s.modPort w p f).hiHost = s.hiHost := rfl
@[simp] theorem State.modPort_hiCst (s : State) (w : Wing) (p : Nat) (f : Port → Port) : (s.modPort w p f).hiCst = s.hiCst := rfl
@[simp] theorem State.modPort_readData (s : State) (w : Wing) (p : Nat) (f : Port → Port) : (s.modPort w p f).readData = s.readData := rfl
@[simp] theorem State.modPort_readPoison (s : State) (w : Wing) (p : Nat) (f : Port → Port) : (s.modPort w p f).readPoison = s.readPoison := rfl
@[simp] theorem State.modPort_portData (s : State) (w : Wing) (p : Nat) (f : Port → Port) : (s.modPort w p f).portData = s.portData := rfl
@[simp] theorem State.modPort_cfgRetry (s : State) (w : Wing) (p : Nat) (f : Port → Port) : (s.modPort w p f).cfgRetry = s.cfgRetry := rfl
@[simp] theorem State.modPort_hostOut (s : State) (w : Wing) (p : Nat) (f : Port → Port) : (s.modPort w p f).hostOut = s.hostOut := rfl
@[simp] theorem State.modPort_canOut (s : State) (w : Wing) (p : Nat) (f : Port → Port) : (s.modPort w p f).canOut = s.canOut := rfl
@[simp] theorem State.modPort_flitOut (s : State) (w : Wing) (p : Nat) (f : Port → Port) : (s.modPort w p f).flitOut = s.flitOut := rfl
@[simp] theorem State.modPort_heldAt (s : State) (w : Wing) (p : Nat) (f : Port → Port) : (s.modPort w p f).heldAt = s.heldAt := rfl
@[simp] theorem State.modPort_freeCtr (s : State) (w : Wing) (p : Nat) (f : Port → Port) : (s.modPort w p f).freeCtr = s.freeCtr := rfl
@[simp] theorem State.modCluster_pending (s : State) (t : Tile) (r : Nat) (f : Cluster → Cluster) : (s.modCluster t r f).pending = s.pending := rfl
@[simp] theorem State.modCluster_mem (s : State) (t : Tile) (r : Nat) (f : Cluster → Cluster) : (s.modCluster t r f).mem = s.mem := rfl
@[simp] theorem State.modCluster_poison (s : State) (t : Tile) (r : Nat) (f : Cluster → Cluster) : (s.modCluster t r f).poison = s.poison := rfl
@[simp] theorem State.modCluster_sch (s : State) (t : Tile) (r : Nat) (f : Cluster → Cluster) : (s.modCluster t r f).sch = s.sch := rfl
@[simp] theorem State.modCluster_tmem (s : State) (t : Tile) (r : Nat) (f : Cluster → Cluster) : (s.modCluster t r f).tmem = s.tmem := rfl
@[simp] theorem State.modCluster_porter (s : State) (t : Tile) (r : Nat) (f : Cluster → Cluster) : (s.modCluster t r f).porter = s.porter := rfl
@[simp] theorem State.modCluster_cat (s : State) (t : Tile) (r : Nat) (f : Cluster → Cluster) : (s.modCluster t r f).cat = s.cat := rfl
@[simp] theorem State.modCluster_insts (s : State) (t : Tile) (r : Nat) (f : Cluster → Cluster) : (s.modCluster t r f).insts = s.insts := rfl
@[simp] theorem State.modCluster_tasks (s : State) (t : Tile) (r : Nat) (f : Cluster → Cluster) : (s.modCluster t r f).tasks = s.tasks := rfl
@[simp] theorem State.modCluster_nextTask (s : State) (t : Tile) (r : Nat) (f : Cluster → Cluster) : (s.modCluster t r f).nextTask = s.nextTask := rfl
@[simp] theorem State.modCluster_cmds (s : State) (t : Tile) (r : Nat) (f : Cluster → Cluster) : (s.modCluster t r f).cmds = s.cmds := rfl
@[simp] theorem State.modCluster_sidings (s : State) (t : Tile) (r : Nat) (f : Cluster → Cluster) : (s.modCluster t r f).sidings = s.sidings := rfl
@[simp] theorem State.modCluster_tt (s : State) (t : Tile) (r : Nat) (f : Cluster → Cluster) : (s.modCluster t r f).tt = s.tt := rfl
@[simp] theorem State.modCluster_carSets (s : State) (t : Tile) (r : Nat) (f : Cluster → Cluster) : (s.modCluster t r f).carSets = s.carSets := rfl
@[simp] theorem State.modCluster_jn (s : State) (t : Tile) (r : Nat) (f : Cluster → Cluster) : (s.modCluster t r f).jn = s.jn := rfl
@[simp] theorem State.modCluster_ports (s : State) (t : Tile) (r : Nat) (f : Cluster → Cluster) : (s.modCluster t r f).ports = s.ports := rfl
@[simp] theorem State.modCluster_cc (s : State) (t : Tile) (r : Nat) (f : Cluster → Cluster) : (s.modCluster t r f).cc = s.cc := rfl
@[simp] theorem State.modCluster_lnkCtrs (s : State) (t : Tile) (r : Nat) (f : Cluster → Cluster) : (s.modCluster t r f).lnkCtrs = s.lnkCtrs := rfl
@[simp] theorem State.modCluster_hif (s : State) (t : Tile) (r : Nat) (f : Cluster → Cluster) : (s.modCluster t r f).hif = s.hif := rfl
@[simp] theorem State.modCluster_cst (s : State) (t : Tile) (r : Nat) (f : Cluster → Cluster) : (s.modCluster t r f).cst = s.cst := rfl
@[simp] theorem State.modCluster_hiHost (s : State) (t : Tile) (r : Nat) (f : Cluster → Cluster) : (s.modCluster t r f).hiHost = s.hiHost := rfl
@[simp] theorem State.modCluster_hiCst (s : State) (t : Tile) (r : Nat) (f : Cluster → Cluster) : (s.modCluster t r f).hiCst = s.hiCst := rfl
@[simp] theorem State.modCluster_readData (s : State) (t : Tile) (r : Nat) (f : Cluster → Cluster) : (s.modCluster t r f).readData = s.readData := rfl
@[simp] theorem State.modCluster_readPoison (s : State) (t : Tile) (r : Nat) (f : Cluster → Cluster) : (s.modCluster t r f).readPoison = s.readPoison := rfl
@[simp] theorem State.modCluster_portData (s : State) (t : Tile) (r : Nat) (f : Cluster → Cluster) : (s.modCluster t r f).portData = s.portData := rfl
@[simp] theorem State.modCluster_cfgRetry (s : State) (t : Tile) (r : Nat) (f : Cluster → Cluster) : (s.modCluster t r f).cfgRetry = s.cfgRetry := rfl
@[simp] theorem State.modCluster_hostOut (s : State) (t : Tile) (r : Nat) (f : Cluster → Cluster) : (s.modCluster t r f).hostOut = s.hostOut := rfl
@[simp] theorem State.modCluster_canOut (s : State) (t : Tile) (r : Nat) (f : Cluster → Cluster) : (s.modCluster t r f).canOut = s.canOut := rfl
@[simp] theorem State.modCluster_flitOut (s : State) (t : Tile) (r : Nat) (f : Cluster → Cluster) : (s.modCluster t r f).flitOut = s.flitOut := rfl
@[simp] theorem State.modCluster_heldAt (s : State) (t : Tile) (r : Nat) (f : Cluster → Cluster) : (s.modCluster t r f).heldAt = s.heldAt := rfl
@[simp] theorem State.modCluster_freeCtr (s : State) (t : Tile) (r : Nat) (f : Cluster → Cluster) : (s.modCluster t r f).freeCtr = s.freeCtr := rfl
@[simp] theorem State.modStack_pending (s : State) (k : Nat) (f : Stack → Stack) : (s.modStack k f).pending = s.pending := rfl
@[simp] theorem State.modStack_mem (s : State) (k : Nat) (f : Stack → Stack) : (s.modStack k f).mem = s.mem := rfl
@[simp] theorem State.modStack_poison (s : State) (k : Nat) (f : Stack → Stack) : (s.modStack k f).poison = s.poison := rfl
@[simp] theorem State.modStack_sch (s : State) (k : Nat) (f : Stack → Stack) : (s.modStack k f).sch = s.sch := rfl
@[simp] theorem State.modStack_tmem (s : State) (k : Nat) (f : Stack → Stack) : (s.modStack k f).tmem = s.tmem := rfl
@[simp] theorem State.modStack_porter (s : State) (k : Nat) (f : Stack → Stack) : (s.modStack k f).porter = s.porter := rfl
@[simp] theorem State.modStack_cat (s : State) (k : Nat) (f : Stack → Stack) : (s.modStack k f).cat = s.cat := rfl
@[simp] theorem State.modStack_insts (s : State) (k : Nat) (f : Stack → Stack) : (s.modStack k f).insts = s.insts := rfl
@[simp] theorem State.modStack_tasks (s : State) (k : Nat) (f : Stack → Stack) : (s.modStack k f).tasks = s.tasks := rfl
@[simp] theorem State.modStack_nextTask (s : State) (k : Nat) (f : Stack → Stack) : (s.modStack k f).nextTask = s.nextTask := rfl
@[simp] theorem State.modStack_cmds (s : State) (k : Nat) (f : Stack → Stack) : (s.modStack k f).cmds = s.cmds := rfl
@[simp] theorem State.modStack_sidings (s : State) (k : Nat) (f : Stack → Stack) : (s.modStack k f).sidings = s.sidings := rfl
@[simp] theorem State.modStack_tt (s : State) (k : Nat) (f : Stack → Stack) : (s.modStack k f).tt = s.tt := rfl
@[simp] theorem State.modStack_carSets (s : State) (k : Nat) (f : Stack → Stack) : (s.modStack k f).carSets = s.carSets := rfl
@[simp] theorem State.modStack_jn (s : State) (k : Nat) (f : Stack → Stack) : (s.modStack k f).jn = s.jn := rfl
@[simp] theorem State.modStack_ports (s : State) (k : Nat) (f : Stack → Stack) : (s.modStack k f).ports = s.ports := rfl
@[simp] theorem State.modStack_cc (s : State) (k : Nat) (f : Stack → Stack) : (s.modStack k f).cc = s.cc := rfl
@[simp] theorem State.modStack_lnkCtrs (s : State) (k : Nat) (f : Stack → Stack) : (s.modStack k f).lnkCtrs = s.lnkCtrs := rfl
@[simp] theorem State.modStack_hif (s : State) (k : Nat) (f : Stack → Stack) : (s.modStack k f).hif = s.hif := rfl
@[simp] theorem State.modStack_cst (s : State) (k : Nat) (f : Stack → Stack) : (s.modStack k f).cst = s.cst := rfl
@[simp] theorem State.modStack_hiHost (s : State) (k : Nat) (f : Stack → Stack) : (s.modStack k f).hiHost = s.hiHost := rfl
@[simp] theorem State.modStack_hiCst (s : State) (k : Nat) (f : Stack → Stack) : (s.modStack k f).hiCst = s.hiCst := rfl
@[simp] theorem State.modStack_readData (s : State) (k : Nat) (f : Stack → Stack) : (s.modStack k f).readData = s.readData := rfl
@[simp] theorem State.modStack_readPoison (s : State) (k : Nat) (f : Stack → Stack) : (s.modStack k f).readPoison = s.readPoison := rfl
@[simp] theorem State.modStack_portData (s : State) (k : Nat) (f : Stack → Stack) : (s.modStack k f).portData = s.portData := rfl
@[simp] theorem State.modStack_cfgRetry (s : State) (k : Nat) (f : Stack → Stack) : (s.modStack k f).cfgRetry = s.cfgRetry := rfl
@[simp] theorem State.modStack_hostOut (s : State) (k : Nat) (f : Stack → Stack) : (s.modStack k f).hostOut = s.hostOut := rfl
@[simp] theorem State.modStack_canOut (s : State) (k : Nat) (f : Stack → Stack) : (s.modStack k f).canOut = s.canOut := rfl
@[simp] theorem State.modStack_flitOut (s : State) (k : Nat) (f : Stack → Stack) : (s.modStack k f).flitOut = s.flitOut := rfl
@[simp] theorem State.modStack_heldAt (s : State) (k : Nat) (f : Stack → Stack) : (s.modStack k f).heldAt = s.heldAt := rfl
@[simp] theorem State.modStack_freeCtr (s : State) (k : Nat) (f : Stack → Stack) : (s.modStack k f).freeCtr = s.freeCtr := rfl
@[simp] theorem State.modInst_pending (s : State) (i : Instance) (f : Inst → Inst) : (s.modInst i f).pending = s.pending := by
  unfold State.modInst; split <;> rfl
@[simp] theorem State.modInst_mem (s : State) (i : Instance) (f : Inst → Inst) : (s.modInst i f).mem = s.mem := by
  unfold State.modInst; split <;> rfl
@[simp] theorem State.modInst_poison (s : State) (i : Instance) (f : Inst → Inst) : (s.modInst i f).poison = s.poison := by
  unfold State.modInst; split <;> rfl
@[simp] theorem State.modInst_sch (s : State) (i : Instance) (f : Inst → Inst) : (s.modInst i f).sch = s.sch := by
  unfold State.modInst; split <;> rfl
@[simp] theorem State.modInst_tmem (s : State) (i : Instance) (f : Inst → Inst) : (s.modInst i f).tmem = s.tmem := by
  unfold State.modInst; split <;> rfl
@[simp] theorem State.modInst_porter (s : State) (i : Instance) (f : Inst → Inst) : (s.modInst i f).porter = s.porter := by
  unfold State.modInst; split <;> rfl
@[simp] theorem State.modInst_cat (s : State) (i : Instance) (f : Inst → Inst) : (s.modInst i f).cat = s.cat := by
  unfold State.modInst; split <;> rfl
@[simp] theorem State.modInst_tasks (s : State) (i : Instance) (f : Inst → Inst) : (s.modInst i f).tasks = s.tasks := by
  unfold State.modInst; split <;> rfl
@[simp] theorem State.modInst_nextTask (s : State) (i : Instance) (f : Inst → Inst) : (s.modInst i f).nextTask = s.nextTask := by
  unfold State.modInst; split <;> rfl
@[simp] theorem State.modInst_cmds (s : State) (i : Instance) (f : Inst → Inst) : (s.modInst i f).cmds = s.cmds := by
  unfold State.modInst; split <;> rfl
@[simp] theorem State.modInst_sidings (s : State) (i : Instance) (f : Inst → Inst) : (s.modInst i f).sidings = s.sidings := by
  unfold State.modInst; split <;> rfl
@[simp] theorem State.modInst_tt (s : State) (i : Instance) (f : Inst → Inst) : (s.modInst i f).tt = s.tt := by
  unfold State.modInst; split <;> rfl
@[simp] theorem State.modInst_carSets (s : State) (i : Instance) (f : Inst → Inst) : (s.modInst i f).carSets = s.carSets := by
  unfold State.modInst; split <;> rfl
@[simp] theorem State.modInst_jn (s : State) (i : Instance) (f : Inst → Inst) : (s.modInst i f).jn = s.jn := by
  unfold State.modInst; split <;> rfl
@[simp] theorem State.modInst_ports (s : State) (i : Instance) (f : Inst → Inst) : (s.modInst i f).ports = s.ports := by
  unfold State.modInst; split <;> rfl
@[simp] theorem State.modInst_cc (s : State) (i : Instance) (f : Inst → Inst) : (s.modInst i f).cc = s.cc := by
  unfold State.modInst; split <;> rfl
@[simp] theorem State.modInst_lnkCtrs (s : State) (i : Instance) (f : Inst → Inst) : (s.modInst i f).lnkCtrs = s.lnkCtrs := by
  unfold State.modInst; split <;> rfl
@[simp] theorem State.modInst_hif (s : State) (i : Instance) (f : Inst → Inst) : (s.modInst i f).hif = s.hif := by
  unfold State.modInst; split <;> rfl
@[simp] theorem State.modInst_cst (s : State) (i : Instance) (f : Inst → Inst) : (s.modInst i f).cst = s.cst := by
  unfold State.modInst; split <;> rfl
@[simp] theorem State.modInst_power (s : State) (i : Instance) (f : Inst → Inst) : (s.modInst i f).power = s.power := by
  unfold State.modInst; split <;> rfl
@[simp] theorem State.modInst_hiHost (s : State) (i : Instance) (f : Inst → Inst) : (s.modInst i f).hiHost = s.hiHost := by
  unfold State.modInst; split <;> rfl
@[simp] theorem State.modInst_hiCst (s : State) (i : Instance) (f : Inst → Inst) : (s.modInst i f).hiCst = s.hiCst := by
  unfold State.modInst; split <;> rfl
@[simp] theorem State.modInst_readData (s : State) (i : Instance) (f : Inst → Inst) : (s.modInst i f).readData = s.readData := by
  unfold State.modInst; split <;> rfl
@[simp] theorem State.modInst_readPoison (s : State) (i : Instance) (f : Inst → Inst) : (s.modInst i f).readPoison = s.readPoison := by
  unfold State.modInst; split <;> rfl
@[simp] theorem State.modInst_portData (s : State) (i : Instance) (f : Inst → Inst) : (s.modInst i f).portData = s.portData := by
  unfold State.modInst; split <;> rfl
@[simp] theorem State.modInst_cfgRetry (s : State) (i : Instance) (f : Inst → Inst) : (s.modInst i f).cfgRetry = s.cfgRetry := by
  unfold State.modInst; split <;> rfl
@[simp] theorem State.modInst_hostOut (s : State) (i : Instance) (f : Inst → Inst) : (s.modInst i f).hostOut = s.hostOut := by
  unfold State.modInst; split <;> rfl
@[simp] theorem State.modInst_canOut (s : State) (i : Instance) (f : Inst → Inst) : (s.modInst i f).canOut = s.canOut := by
  unfold State.modInst; split <;> rfl
@[simp] theorem State.modInst_flitOut (s : State) (i : Instance) (f : Inst → Inst) : (s.modInst i f).flitOut = s.flitOut := by
  unfold State.modInst; split <;> rfl
@[simp] theorem State.modInst_heldAt (s : State) (i : Instance) (f : Inst → Inst) : (s.modInst i f).heldAt = s.heldAt := by
  unfold State.modInst; split <;> rfl
@[simp] theorem State.modInst_freeCtr (s : State) (i : Instance) (f : Inst → Inst) : (s.modInst i f).freeCtr = s.freeCtr := by
  unfold State.modInst; split <;> rfl
@[simp] theorem State.modLink_pending (s : State) (l : LinkEnd) (f : Link → Link) : (s.modLink l f).pending = s.pending := by
  unfold State.modLink; split <;> rfl
@[simp] theorem State.modLink_mem (s : State) (l : LinkEnd) (f : Link → Link) : (s.modLink l f).mem = s.mem := by
  unfold State.modLink; split <;> rfl
@[simp] theorem State.modLink_poison (s : State) (l : LinkEnd) (f : Link → Link) : (s.modLink l f).poison = s.poison := by
  unfold State.modLink; split <;> rfl
@[simp] theorem State.modLink_sch (s : State) (l : LinkEnd) (f : Link → Link) : (s.modLink l f).sch = s.sch := by
  unfold State.modLink; split <;> rfl
@[simp] theorem State.modLink_tmem (s : State) (l : LinkEnd) (f : Link → Link) : (s.modLink l f).tmem = s.tmem := by
  unfold State.modLink; split <;> rfl
@[simp] theorem State.modLink_porter (s : State) (l : LinkEnd) (f : Link → Link) : (s.modLink l f).porter = s.porter := by
  unfold State.modLink; split <;> rfl
@[simp] theorem State.modLink_cat (s : State) (l : LinkEnd) (f : Link → Link) : (s.modLink l f).cat = s.cat := by
  unfold State.modLink; split <;> rfl
@[simp] theorem State.modLink_insts (s : State) (l : LinkEnd) (f : Link → Link) : (s.modLink l f).insts = s.insts := by
  unfold State.modLink; split <;> rfl
@[simp] theorem State.modLink_tasks (s : State) (l : LinkEnd) (f : Link → Link) : (s.modLink l f).tasks = s.tasks := by
  unfold State.modLink; split <;> rfl
@[simp] theorem State.modLink_nextTask (s : State) (l : LinkEnd) (f : Link → Link) : (s.modLink l f).nextTask = s.nextTask := by
  unfold State.modLink; split <;> rfl
@[simp] theorem State.modLink_cmds (s : State) (l : LinkEnd) (f : Link → Link) : (s.modLink l f).cmds = s.cmds := by
  unfold State.modLink; split <;> rfl
@[simp] theorem State.modLink_sidings (s : State) (l : LinkEnd) (f : Link → Link) : (s.modLink l f).sidings = s.sidings := by
  unfold State.modLink; split <;> rfl
@[simp] theorem State.modLink_tt (s : State) (l : LinkEnd) (f : Link → Link) : (s.modLink l f).tt = s.tt := by
  unfold State.modLink; split <;> rfl
@[simp] theorem State.modLink_carSets (s : State) (l : LinkEnd) (f : Link → Link) : (s.modLink l f).carSets = s.carSets := by
  unfold State.modLink; split <;> rfl
@[simp] theorem State.modLink_jn (s : State) (l : LinkEnd) (f : Link → Link) : (s.modLink l f).jn = s.jn := by
  unfold State.modLink; split <;> rfl
@[simp] theorem State.modLink_lnkCtrs (s : State) (l : LinkEnd) (f : Link → Link) : (s.modLink l f).lnkCtrs = s.lnkCtrs := by
  unfold State.modLink; split <;> rfl
@[simp] theorem State.modLink_hif (s : State) (l : LinkEnd) (f : Link → Link) : (s.modLink l f).hif = s.hif := by
  unfold State.modLink; split <;> rfl
@[simp] theorem State.modLink_cst (s : State) (l : LinkEnd) (f : Link → Link) : (s.modLink l f).cst = s.cst := by
  unfold State.modLink; split <;> rfl
@[simp] theorem State.modLink_power (s : State) (l : LinkEnd) (f : Link → Link) : (s.modLink l f).power = s.power := by
  unfold State.modLink; split <;> rfl
@[simp] theorem State.modLink_hiHost (s : State) (l : LinkEnd) (f : Link → Link) : (s.modLink l f).hiHost = s.hiHost := by
  unfold State.modLink; split <;> rfl
@[simp] theorem State.modLink_hiCst (s : State) (l : LinkEnd) (f : Link → Link) : (s.modLink l f).hiCst = s.hiCst := by
  unfold State.modLink; split <;> rfl
@[simp] theorem State.modLink_readData (s : State) (l : LinkEnd) (f : Link → Link) : (s.modLink l f).readData = s.readData := by
  unfold State.modLink; split <;> rfl
@[simp] theorem State.modLink_readPoison (s : State) (l : LinkEnd) (f : Link → Link) : (s.modLink l f).readPoison = s.readPoison := by
  unfold State.modLink; split <;> rfl
@[simp] theorem State.modLink_portData (s : State) (l : LinkEnd) (f : Link → Link) : (s.modLink l f).portData = s.portData := by
  unfold State.modLink; split <;> rfl
@[simp] theorem State.modLink_cfgRetry (s : State) (l : LinkEnd) (f : Link → Link) : (s.modLink l f).cfgRetry = s.cfgRetry := by
  unfold State.modLink; split <;> rfl
@[simp] theorem State.modLink_hostOut (s : State) (l : LinkEnd) (f : Link → Link) : (s.modLink l f).hostOut = s.hostOut := by
  unfold State.modLink; split <;> rfl
@[simp] theorem State.modLink_canOut (s : State) (l : LinkEnd) (f : Link → Link) : (s.modLink l f).canOut = s.canOut := by
  unfold State.modLink; split <;> rfl
@[simp] theorem State.modLink_flitOut (s : State) (l : LinkEnd) (f : Link → Link) : (s.modLink l f).flitOut = s.flitOut := by
  unfold State.modLink; split <;> rfl
@[simp] theorem State.modLink_heldAt (s : State) (l : LinkEnd) (f : Link → Link) : (s.modLink l f).heldAt = s.heldAt := by
  unfold State.modLink; split <;> rfl
@[simp] theorem State.modLink_freeCtr (s : State) (l : LinkEnd) (f : Link → Link) : (s.modLink l f).freeCtr = s.freeCtr := by
  unfold State.modLink; split <;> rfl

end Sys2Proof.Machine
end

