-- ==== Sys2Proof/Laws/TouchDevice.lean ====
section
/-!
SUPPORT. What the operations of Device may change.
-/

namespace Sys2Proof.Machine

theorem settleAlert_touch (s : State) : Touch 0x4000000 s (settleAlert s) := by
  unfold settleAlert
  repeat' first
    | with_reducible exact Touch.refl _
    | (with_reducible apply Touch.step (State_modCst_touch ..)); exact rfl

theorem dropMain_touch (s : State) : Touch 0x341ffffdfe s (dropMain s) :=
  ⟨fun p hp => by cases p <;> first | rfl | exact fun _ _ _ => rfl | exact fun _ _ _ _ => rfl | exact ⟨rfl, rfl⟩ | exact ⟨rfl, rfl, rfl⟩ | exact ⟨rfl, rfl, rfl, rfl, rfl, rfl⟩ | exact absurd hp (by decide), fun h => absurd h (by decide), fun _ => rfl, Nat.le_refl _, fun _ _ h => nomatch h⟩

theorem enterHalt_touch (s : State) (rule : Nat) : Touch 0x341ffffdfe s (enterHalt s rule) := by
  unfold enterHalt
  repeat' first
    | with_reducible exact Touch.refl _
    | (with_reducible apply Touch.step (State_modCst_touch ..)); exact rfl
    | (with_reducible apply Touch.step (settleAlert_touch ..)); exact rfl
    | (with_reducible apply Touch.step (dropMain_touch ..)); exact rfl

theorem enterState_touch (s : State) (d : DevState) : Touch 0x349ffffdfe s (enterState s d) := by
  unfold enterState
  repeat' first
    | with_reducible exact Touch.refl _
    | (with_reducible apply Touch.step (State_modCst_touch ..)); exact rfl
    | (with_reducible apply Touch.step (raise_touch ..)); exact rfl
    | (with_reducible apply Touch.step (settleAlert_touch ..)); exact rfl
    | (with_reducible apply Touch.step (enterHalt_touch ..)); exact rfl
    | with_reducible apply Touch.ite
    | split
    | dsimp only
    | intro _

theorem settleLimited_touch (s : State) : Touch 0x349ffffdfe s (settleLimited s) := by
  unfold settleLimited
  repeat' first
    | with_reducible exact Touch.refl _
    | (with_reducible apply Touch.step (enterState_touch ..)); exact rfl
    | with_reducible apply Touch.ite
    | split
    | intro _

theorem setReason_touch (s : State) (b : Nat) : Touch 0x349ffffdfe s (setReason s b) := by
  unfold setReason
  repeat' first
    | with_reducible exact Touch.refl _
    | (with_reducible apply Touch.step (State_modCst_touch ..)); exact rfl
    | (with_reducible apply Touch.step (settleLimited_touch ..)); exact rfl

theorem clearReason_touch (s : State) (b : Nat) : Touch 0x349ffffdfe s (clearReason s b) := by
  unfold clearReason
  repeat' first
    | with_reducible exact Touch.refl _
    | (with_reducible apply Touch.step (State_modCst_touch ..)); exact rfl
    | (with_reducible apply Touch.step (settleLimited_touch ..)); exact rfl

end Sys2Proof.Machine
end

