-- ==== Sys2Proof/Laws/TouchMmu.lean ====
section
/-!
SUPPORT. What the operations of Mmu may change.
-/

namespace Sys2Proof.Machine

theorem State_modInst_touch (s : State) (i : Instance) (f : Inst → Inst) : Touch 0x80 s (State.modInst s i f) := by
  unfold State.modInst
  repeat' first
    | with_reducible exact Touch.refl _
    | with_reducible apply Touch.ite
    | intro _
    | (with_reducible apply Touch.step (touch_insts ..)); exact rfl

theorem markDirty_touch (s : State) (a : Nat) (n : Nat) : Touch 0x10 s (markDirty s a n) := by
  unfold markDirty
  repeat' first
    | with_reducible exact Touch.refl _
    | (with_reducible apply Touch.step (State_modMem_touch ..)); exact rfl
    | with_reducible apply Touch.ite
    | dsimp only
    | intro _

theorem wakePc_touch (s : State) (a : Nat) : Touch 0x8000000 s (wakePc s a) := by
  unfold wakePc
  repeat' first
    | with_reducible exact Touch.refl _
    | (with_reducible apply Touch.step (State_modPower_touch ..)); exact rfl
    | with_reducible apply Touch.ite
    | split
    | dsimp only
    | intro _

theorem wakeStacks_touch (s : State) (a : Nat) (n : Nat) : Touch 0x8000000 s (wakeStacks s a n) := by
  unfold wakeStacks
  repeat' first
    | with_reducible exact Touch.refl _
    | (with_reducible apply Touch.step (wakePc_touch ..)); exact rfl
    | with_reducible apply Touch.ite
    | with_reducible apply Touch.foldl
    | intro _

theorem storePa_touch (s : State) (a : Nat) (bs : List Byte) : Touch 0x3008000016 s (storePa s a bs) := by
  unfold storePa
  repeat' first
    | with_reducible exact Touch.refl _
    | assumption
    | (with_reducible apply Touch.step (writePa_touch ..)); exact rfl
    | (with_reducible apply Touch.step (markDirty_touch ..)); exact rfl
    | (with_reducible apply Touch.step (wakeStacks_touch ..)); exact rfl
    | with_reducible apply Touch.ite
    | with_reducible apply Touch.foldl
    | split
    | dsimp only
    | intro _
    | (with_reducible apply Touch.step (touch_poison ..)); exact rfl

theorem fillTlb_touch (s : State) (c : Ctx) (va : Nat) : Touch 0x10 s (fillTlb s c va) := by
  unfold fillTlb
  repeat' first
    | with_reducible exact Touch.refl _
    | (with_reducible apply Touch.step (State_modMem_touch ..)); exact rfl
    | split

theorem writePieces_touch (s : State) (c : Ctx) (va : Nat) (bs : List Byte) (l : List (Nat × Nat)) :
    Touch 0x3008000016 s (writePieces s c va bs l).1 := by
  induction l generalizing s with
  | nil => exact Touch.refl s
  | cons p l ih =>
    unfold writePieces
    split
    · exact Touch.refl s
    · split
      · exact Touch.refl s
      · exact Touch.step (ih _) rfl (Touch.step (storePa_touch ..) rfl (Touch.refl s))

theorem writeVa_touch (s : State) (c : Ctx) (va : Nat) (bs : List Byte) : Touch 0x3008000016 s (writeVa s c va bs).1 := by
  unfold writeVa
  repeat' first
    | with_reducible exact Touch.refl _
    | (with_reducible apply Touch.step (writePieces_touch ..)); exact rfl

theorem scribble_touch (s : State) (c : Ctx) (va : Nat) (n : Nat) : Touch 0x3808000016 s (scribble s c va n) := by
  unfold scribble
  repeat' first
    | with_reducible exact Touch.refl _
    | assumption
    | (with_reducible apply Touch.step (freeBytes_touch ..)); exact rfl
    | (with_reducible apply Touch.step (storePa_touch ..)); exact rfl
    | with_reducible apply Touch.foldl
    | split
    | dsimp only
    | intro _

theorem captureFail_touch (s : State) (t : Tile) (src : FailSrc) (part : Nat) (cause : Nat) (pa : Nat) : Touch 0x10 s (captureFail s t src part cause pa) := by
  unfold captureFail
  repeat' first
    | with_reducible exact Touch.refl _
    | (with_reducible apply Touch.step (State_modMem_touch ..)); exact rfl
    | with_reducible apply Touch.ite
    | intro _

theorem triggerRepair_touch (s : State) (t : Tile) (pc : Nat) (row : Nat) : Touch 0x10 s (triggerRepair s t pc row) := by
  unfold triggerRepair
  repeat' first
    | with_reducible exact Touch.refl _
    | (with_reducible apply Touch.step (State_modMem_touch ..)); exact rfl
    | with_reducible apply Touch.ite
    | intro _

theorem failPseudoChannel_touch (s : State) (t : Tile) (pc : Nat) : Touch 0x349ffffdfe s (failPseudoChannel s t pc) := by
  unfold failPseudoChannel
  repeat' first
    | with_reducible exact Touch.refl _
    | (with_reducible apply Touch.step (State_modMem_touch ..)); exact rfl
    | (with_reducible apply Touch.step (raise_touch ..)); exact rfl
    | (with_reducible apply Touch.step (setReason_touch ..)); exact rfl
    | with_reducible apply Touch.ite
    | split
    | intro _

theorem countUncorrectable_touch (s : State) (t : Tile) (pc : Nat) : Touch 0x349ffffdfe s (countUncorrectable s t pc) := by
  unfold countUncorrectable
  repeat' first
    | with_reducible exact Touch.refl _
    | (with_reducible apply Touch.step (State_modMem_touch ..)); exact rfl
    | (with_reducible apply Touch.step (failPseudoChannel_touch ..)); exact rfl
    | with_reducible apply Touch.ite
    | intro _

theorem memFailure_touch (s : State) (src : FailSrc) (part : Nat) (cause : Nat) (pa : Nat) : Touch 0x349ffffdfe s (memFailure s src part cause pa) := by
  unfold memFailure
  repeat' first
    | with_reducible exact Touch.refl _
    | (with_reducible apply Touch.step (raise_touch ..)); exact rfl
    | (with_reducible apply Touch.step (logCause_touch ..)); exact rfl
    | (with_reducible apply Touch.step (captureFail_touch ..)); exact rfl
    | (with_reducible apply Touch.step (triggerRepair_touch ..)); exact rfl
    | (with_reducible apply Touch.step (countUncorrectable_touch ..)); exact rfl
    | (with_reducible apply Touch.step (addCtr_touch_mem ..)); exact rfl
    | with_reducible apply Touch.ite
    | split
    | dsimp only
    | intro _

theorem imageFailure_touch (s : State) (part : Nat) (pa : Nat) : Touch 0x801c0010 s (imageFailure s part pa) := by
  unfold imageFailure
  repeat' first
    | with_reducible exact Touch.refl _
    | (with_reducible apply Touch.step (captureFail_touch ..)); exact rfl
    | (with_reducible apply Touch.step (addCtr_touch_mem ..)); exact rfl

theorem failAcc_touch (s : State) (src : FailSrc) (part : Nat) (e : AccErr) : Touch 0x349ffffdfe s (failAcc s src part e) := by
  unfold failAcc
  repeat' first
    | with_reducible exact Touch.refl _
    | (with_reducible apply Touch.step (memFailure_touch ..)); exact rfl
    | (with_reducible apply Touch.step (imageFailure_touch ..)); exact rfl
    | with_reducible apply Touch.ite
    | split
    | intro _
    | (with_reducible apply Touch.step (touch_heldAt ..)); exact rfl

theorem orWait_touch {m : Nat} {s : State} {f : State → State} (hm : 0x4801c4000 ||| m = m) (hf : ∀ s, Touch m s (f s)) :
    Touch m s (orWait s f) := by
  have h0 : Touch m s { s with heldAt := none } := Touch.step (touch_heldAt s) (testBit_sub rfl hm) (Touch.refl s)
  unfold orWait
  split
  · exact Touch.step (hf _) (Nat.or_self m) h0
  · exact Touch.step (addCtr_touch_jn ..) (testBit_sub rfl hm) h0
  · exact h0

end Sys2Proof.Machine
end

