-- ==== Sys2Proof/Laws/TouchPages.lean ====
section
/-!
SUPPORT. What the operations of Pages may change.
-/

namespace Sys2Proof.Machine

theorem andThen_touch {ε α β : Type} {m : Nat} {s : State} {r : State × Except ε α} {f : State → α → State × Except ε β}
    (hr : Touch m s r.1) (hf : ∀ x a, Touch m s x → Touch m s (f x a).1) : Touch m s (andThen r f).1 := by
  unfold andThen
  split
  · exact hr
  · exact hf _ _ hr

theorem modFrame_touch (s : State) (t : Tile) (n : Nat) (f : Frame → Frame) : Touch 0x10 s (modFrame s t n f) := by
  unfold modFrame
  repeat' first
    | with_reducible exact Touch.refl _
    | (with_reducible apply Touch.step (State_modMem_touch ..)); exact rfl

theorem freeFrame_touch (s : State) (t : Tile) (n : Nat) : Touch 0x10 s (freeFrame s t n) := by
  unfold freeFrame
  repeat' first
    | with_reducible exact Touch.refl _
    | (with_reducible apply Touch.step (State_modMem_touch ..)); exact rfl

theorem writeBack_touch (s : State) (t : Tile) (n : Nat) (f : Frame) : Touch 0x14 s (writeBack s t n f) := by
  unfold writeBack
  repeat' first
    | with_reducible exact Touch.refl _
    | (with_reducible apply Touch.step (modFrame_touch ..)); exact rfl
    | dsimp only
    | (with_reducible apply Touch.step (touch_poison ..)); exact rfl

theorem assignFrame_touch (s : State) (t : Tile) (n : Nat) (f : Frame) : Touch 0x10 s (assignFrame s t n f) := by
  unfold assignFrame
  repeat' first
    | with_reducible exact Touch.refl _
    | (with_reducible apply Touch.step (State_modMem_touch ..)); exact rfl

theorem placePage_touch (s : State) (t : Tile) (n : Nat) (page : Option (List Byte)) : Touch 0x1000000004 s (placePage s t n page) := by
  unfold placePage
  repeat' first
    | with_reducible exact Touch.refl _
    | (with_reducible apply Touch.step (writeFrame_touch ..)); exact rfl
    | split

theorem takeDemand_touch {s t' : State} {t : Tile} {p d n : Nat} (h : takeDemand s t p d = some (n, t')) : Touch 0x14 s t' := by
  unfold takeDemand at h
  dsimp only at h
  split at h
  · cases hs : spareFrame s t with
    | none => rw [hs] at h; cases h
    | some k => rw [hs] at h; cases h; exact Touch.refl _
  · cases hs : victimOf (ownFrames s t p .demand) with
    | none => rw [hs] at h; cases h
    | some k => rw [hs] at h; cases h; exact Touch.step (freeFrame_touch ..) rfl (Touch.weaken (writeBack_touch ..) rfl)

theorem fillDemand_touch (s : State) (c : Ctx) (x : Xlat) (va : Nat) (d : Nat) : Touch 0x1000000014 s (fillDemand s c x va d).1 := by
  unfold fillDemand
  repeat' first
    | with_reducible exact Touch.refl _
    | (with_reducible apply Touch.step (assignFrame_touch ..)); exact rfl
    | (with_reducible apply Touch.step (placePage_touch ..)); exact rfl
    | (with_reducible apply Touch.step (takeDemand_touch (by assumption))); exact rfl
    | split
    | dsimp only

theorem meetPage_touch (s : State) (c : Ctx) (x : Xlat) (va : Nat) : Touch 0x10801c0014 s (meetPage s c x va).1 := by
  unfold meetPage
  repeat' first
    | with_reducible exact Touch.refl _
    | (with_reducible apply Touch.step (modFrame_touch ..)); exact rfl
    | (with_reducible apply Touch.step (fillDemand_touch ..)); exact rfl
    | (with_reducible apply Touch.step (addCtr_touch_mem ..)); exact rfl
    | with_reducible apply Touch.ite_fst
    | split
    | dsimp only
    | intro _

theorem loadPiece_touch (s : State) (c : Ctx) (va : Nat) (n : Nat) : Touch 0x10881c0014 s (loadPiece s c va n).1 := by
  unfold loadPiece
  repeat' first
    | with_reducible exact Touch.refl _
    | (with_reducible apply Touch.step (wakeStacks_touch ..)); exact rfl
    | (with_reducible apply Touch.step (meetPage_touch ..)); exact rfl
    | with_reducible refine Touch.fst (by assumption) ?_
    | split

theorem loadPieces_touch (s : State) (c : Ctx) (a2 : List (Nat × Nat)) : Touch 0x10881c0014 s (loadPieces s c a2).1 := by
  induction a2 generalizing s c with
  | nil => unfold loadPieces; exact Touch.refl _
  | cons _ _ ih =>
    unfold loadPieces
    repeat' first
      | (with_reducible apply Touch.step (ih ..)); exact rfl
      | with_reducible exact Touch.refl _
      | assumption
      | with_reducible refine andThen_touch ?_ (fun _ _ _ => ?_)
      | (with_reducible apply Touch.step (loadPiece_touch ..)); exact rfl
      | with_reducible apply Touch.ite
      | with_reducible apply Touch.ite_fst
      | with_reducible apply Touch.foldl
      | with_reducible apply Touch.foldl_fst
      | with_reducible refine Touch.fst (by assumption) ?_
      | with_reducible refine Touch.snd (by assumption) ?_
      | split
      | dsimp only
      | intro _

theorem loadVa_touch (s : State) (c : Ctx) (va : Nat) (n : Nat) : Touch 0x10881c0014 s (loadVa s c va n).1 := by
  unfold loadVa
  repeat' first
    | with_reducible exact Touch.refl _
    | (with_reducible apply Touch.step (loadPieces_touch ..)); exact rfl

theorem loadNum_touch (s : State) (c : Ctx) (va : Nat) (n : Nat) : Touch 0x10881c0014 s (loadNum s c va n).1 := by
  unfold loadNum
  repeat' first
    | with_reducible exact Touch.refl _
    | assumption
    | with_reducible refine andThen_touch ?_ (fun _ _ _ => ?_)
    | (with_reducible apply Touch.step (loadVa_touch ..)); exact rfl

theorem touchRanges_touch (s : State) (c : Ctx) (a2 : List (Nat × Nat)) : Touch 0x10881c0014 s (touchRanges s c a2).1 := by
  induction a2 generalizing s c with
  | nil => unfold touchRanges; exact Touch.refl _
  | cons _ _ ih =>
    unfold touchRanges
    repeat' first
      | (with_reducible apply Touch.step (ih ..)); exact rfl
      | with_reducible exact Touch.refl _
      | assumption
      | with_reducible refine andThen_touch ?_ (fun _ _ _ => ?_)
      | (with_reducible apply Touch.step (loadVa_touch ..)); exact rfl
      | with_reducible apply Touch.ite
      | with_reducible apply Touch.ite_fst
      | with_reducible apply Touch.foldl
      | with_reducible apply Touch.foldl_fst
      | with_reducible refine Touch.fst (by assumption) ?_
      | with_reducible refine Touch.snd (by assumption) ?_
      | split
      | dsimp only
      | intro _

theorem savePieces_touch (s : State) (c : Ctx) (va : Nat) (bs : List Byte) (a4 : List (Nat × Nat)) : Touch 0x30881c0016 s (savePieces s c va bs a4).1 := by
  induction a4 generalizing s c va bs with
  | nil => unfold savePieces; exact Touch.refl _
  | cons _ _ ih =>
    unfold savePieces
    repeat' first
      | (with_reducible apply Touch.step (ih ..)); exact rfl
      | with_reducible exact Touch.refl _
      | assumption
      | (with_reducible apply Touch.step (storePa_touch ..)); exact rfl
      | (with_reducible apply Touch.step (meetPage_touch ..)); exact rfl
      | with_reducible apply Touch.ite
      | with_reducible apply Touch.ite_fst
      | with_reducible apply Touch.foldl
      | with_reducible apply Touch.foldl_fst
      | with_reducible refine Touch.fst (by assumption) ?_
      | with_reducible refine Touch.snd (by assumption) ?_
      | split
      | dsimp only
      | intro _

theorem saveVa_touch (s : State) (c : Ctx) (va : Nat) (bs : List Byte) : Touch 0x30881c0016 s (saveVa s c va bs).1 := by
  unfold saveVa
  repeat' first
    | with_reducible exact Touch.refl _
    | (with_reducible apply Touch.step (savePieces_touch ..)); exact rfl

end Sys2Proof.Machine
end

