-- ==== Sys2Proof/Laws/TouchEditions.lean ====
section
/-!
SUPPORT. What the operations of Editions may change.
-/

namespace Sys2Proof.Machine

theorem dropLab_touch (s : State) (t : Tile) (p : LabEntry → Bool) : Touch 0x801c0020 s (dropLab s t p) := by
  unfold dropLab
  repeat' first
    | with_reducible exact Touch.refl _
    | (with_reducible apply Touch.step (State_modPorter_touch ..)); exact rfl
    | (with_reducible apply Touch.step (addCtr_touch_pw ..)); exact rfl
    | with_reducible apply Touch.ite
    | intro _

theorem reportRetired_touch (s : State) (i : Instance) (num : Word32) : Touch 0x801c0008 s (reportRetired s i num) := by
  unfold reportRetired
  repeat' first
    | with_reducible exact Touch.refl _
    | (with_reducible apply Touch.step (State_modSch_touch ..)); exact rfl
    | (with_reducible apply Touch.step (raise_touch ..)); exact rfl
    | (with_reducible apply Touch.step (addCtr_touch_sch ..)); exact rfl
    | with_reducible apply Touch.ite
    | intro _

theorem retireOne_touch (s : State) (i : Instance) (num : Word32) : Touch 0x801c00a8 s (retireOne s i num) := by
  unfold retireOne
  repeat' first
    | with_reducible exact Touch.refl _
    | (with_reducible apply Touch.step (State_modInst_touch ..)); exact rfl
    | (with_reducible apply Touch.step (dropLab_touch ..)); exact rfl
    | (with_reducible apply Touch.step (reportRetired_touch ..)); exact rfl
    | with_reducible apply Touch.foldl
    | split
    | intro _

theorem retireUnpinned_touch (s : State) (i : Instance) : Touch 0x801c00a8 s (retireUnpinned s i) := by
  unfold retireUnpinned
  repeat' first
    | with_reducible exact Touch.refl _
    | (with_reducible apply Touch.step (retireOne_touch ..)); exact rfl
    | with_reducible apply Touch.foldl
    | intro _

theorem answerCommand_touch (s : State) (o : Origin) (e : Entry) (cause : Nat) (wing : Wing) (unit : LogUnit) (addr : Nat) (detail : Nat) : Touch 0x803c0000 s (answerCommand s o e cause wing unit addr detail) := by
  unfold answerCommand
  repeat' first
    | with_reducible exact Touch.refl _
    | (with_reducible apply Touch.step (logCause_touch ..)); exact rfl
    | (with_reducible apply Touch.step (answerEntry_touch ..)); exact rfl
    | (with_reducible apply Touch.step (addCtr_touch_hif ..)); exact rfl
    | with_reducible apply Touch.ite
    | split
    | intro _

theorem readHeader_touch (s : State) (i : Instance) (e : Entry) : Touch 0x10881c0014 s (readHeader s i e).1 := by
  unfold readHeader
  repeat' first
    | with_reducible exact Touch.refl _
    | (with_reducible apply Touch.step (loadVa_touch ..)); exact rfl
    | split

theorem judgeEdition_touch (s : State) (i : Instance) (e : Entry) : Touch 0x10881c0014 s (judgeEdition s i e).1 := by
  unfold judgeEdition
  repeat' first
    | with_reducible exact Touch.refl _
    | (with_reducible apply Touch.step (readHeader_touch ..)); exact rfl
    | with_reducible apply Touch.ite_fst
    | with_reducible refine Touch.fst (by assumption) ?_
    | split
    | dsimp only
    | intro _

theorem applyAtUnit_touch (s : State) (i : Instance) (u : PinUnit) (num : Option Word32) : Touch 0x4080 s (applyAtUnit s i u num) := by
  unfold applyAtUnit
  repeat' first
    | with_reducible exact Touch.refl _
    | (with_reducible apply Touch.step (State_modJn_touch ..)); exact rfl
    | (with_reducible apply Touch.step (State_modInst_touch ..)); exact rfl
    | split

theorem applySwap_touch (s : State) (i : Instance) (sw : Swap) : Touch 0x801c40a8 s (applySwap s i sw) := by
  unfold applySwap
  repeat' first
    | with_reducible exact Touch.refl _
    | (with_reducible apply Touch.step (State_modInst_touch ..)); exact rfl
    | (with_reducible apply Touch.step (retireUnpinned_touch ..)); exact rfl
    | (with_reducible apply Touch.step (applyAtUnit_touch ..)); exact rfl

theorem setHeadSwap_touch (s : State) (i : Instance) (f : Swap → Swap) : Touch 0x80 s (setHeadSwap s i f) := by
  unfold setHeadSwap
  repeat' first
    | with_reducible exact Touch.refl _
    | (with_reducible apply Touch.step (State_modInst_touch ..)); exact rfl

theorem advanceSwap_touch (s : State) (i : Instance) (sw : Swap) : Touch 0x801c40a8 s (advanceSwap s i sw) := by
  unfold advanceSwap
  repeat' first
    | with_reducible exact Touch.refl _
    | (with_reducible apply Touch.step (raise_touch ..)); exact rfl
    | (with_reducible apply Touch.step (applySwap_touch ..)); exact rfl
    | (with_reducible apply Touch.step (setHeadSwap_touch ..)); exact rfl
    | with_reducible apply Touch.ite
    | split
    | dsimp only
    | intro _

theorem judge_touch (s : State) (i : Instance) (sw : Swap) : Touch 0x10881c0014 s (judge s i sw).1 := by
  unfold judge
  repeat' first
    | with_reducible exact Touch.refl _
    | (with_reducible apply Touch.step (judgeEdition_touch ..)); exact rfl
    | split

theorem serveSwaps_touch (a0 : Nat) (a1 : State) (a2 : Instance) : Touch 0x349ffffdfe a1 (serveSwaps a0 a1 a2) := by
  induction a0 generalizing a1 a2 with
  | zero => unfold serveSwaps; exact Touch.refl _
  | succ _ ih =>
    unfold serveSwaps
    repeat' first
      | (with_reducible apply Touch.step (ih ..)); exact rfl
      | with_reducible exact Touch.refl _
      | assumption
      | (with_reducible apply Touch.step (State_modInst_touch ..)); exact rfl
      | (with_reducible apply Touch.step (failAcc_touch ..)); exact rfl
      | (with_reducible apply Touch.step (answerCommand_touch ..)); exact rfl
      | (with_reducible apply Touch.step (advanceSwap_touch ..)); exact rfl
      | (with_reducible apply Touch.step (judge_touch ..)); exact rfl
      | with_reducible apply Touch.ite
      | with_reducible apply Touch.ite_fst
      | with_reducible apply Touch.foldl
      | with_reducible apply Touch.foldl_fst
      | with_reducible refine Touch.fst (by assumption) ?_
      | with_reducible refine Touch.snd (by assumption) ?_
      | split
      | dsimp only
      | intro _

theorem settleInst_touch (s : State) (i : Instance) : Touch 0x349ffffdfe s (settleInst s i) := by
  unfold settleInst
  repeat' first
    | with_reducible exact Touch.refl _
    | (with_reducible apply Touch.step (retireUnpinned_touch ..)); exact rfl
    | (with_reducible apply Touch.step (serveSwaps_touch ..)); exact rfl

end Sys2Proof.Machine
end

