-- ==== Sys2Proof/Laws/TouchOperands.lean ====
section
/-!
SUPPORT. What the operations of Operands may change.
-/

namespace Sys2Proof.Machine

theorem writeRuns_touch (s : State) (c : Ctx) (a2 : List (Nat × List Byte)) : Touch 0x30881c0016 s (writeRuns s c a2).1 := by
  induction a2 generalizing s c with
  | nil => unfold writeRuns; exact Touch.refl _
  | cons _ _ ih =>
    unfold writeRuns
    repeat' first
      | (with_reducible apply Touch.step (ih ..)); exact rfl
      | with_reducible exact Touch.refl _
      | assumption
      | (with_reducible apply Touch.step (saveVa_touch ..)); exact rfl
      | with_reducible apply Touch.ite
      | with_reducible apply Touch.ite_fst
      | with_reducible apply Touch.foldl
      | with_reducible apply Touch.foldl_fst
      | with_reducible refine Touch.fst (by assumption) ?_
      | with_reducible refine Touch.snd (by assumption) ?_
      | split
      | dsimp only
      | intro _

theorem loadWords_touch (s : State) (c : Ctx) (va : Nat) (n : Nat) : Touch 0x10881c0014 s (loadWords s c va n).1 := by
  unfold loadWords
  repeat' first
    | with_reducible exact Touch.refl _
    | assumption
    | with_reducible refine andThen_touch ?_ (fun _ _ _ => ?_)
    | (with_reducible apply Touch.step (loadVa_touch ..)); exact rfl

end Sys2Proof.Machine
end

