-- ==== Sys2Proof/Laws/TouchScoreboard.lean ====
section
/-!
SUPPORT. What the operations of Scoreboard may change.
-/

namespace Sys2Proof.Machine

theorem writeWindow_touch (s : State) (i off : Nat) (bs : List Byte) : Touch 0x2000000004 s (writeWindow s i off bs) := by
  unfold writeWindow
  refine Touch.ite (fun hw => ?_) fun _ => Touch.refl s
  have hw := of_decide_eq_true hw
  refine ⟨fun p hp => ?_, fun h => absurd h (by decide), fun h => memWrite_canonical h _ _, Nat.le_refl _, id⟩
  cases p <;> first
    | rfl
    | exact ⟨rfl, rfl⟩
    | exact ⟨rfl, rfl, rfl⟩
    | exact ⟨rfl, rfl, rfl, rfl, rfl, rfl⟩
    | exact absurd hp (by decide)
    | skip
  all_goals
    intro w a
    intros
    refine memByte_memWrite_out ((memCanonical_iff _).1 w).1 ?_
    simp only [inFrames, inScratch, windowBase] at *
    omega

theorem zeroWindow_touch (s : State) (i off n : Nat) : Touch 0x2000000004 s (zeroWindow s i off n) := by
  unfold zeroWindow
  refine Touch.ite (fun hw => ?_) fun _ => Touch.refl s
  have hw := of_decide_eq_true hw
  refine ⟨fun p hp => ?_, fun h => absurd h (by decide), fun h => memZero_canonical h _ _, Nat.le_refl _, id⟩
  cases p <;> first
    | rfl
    | exact ⟨rfl, rfl⟩
    | exact ⟨rfl, rfl, rfl⟩
    | exact ⟨rfl, rfl, rfl, rfl, rfl, rfl⟩
    | exact absurd hp (by decide)
    | skip
  all_goals
    intro w a
    intros
    refine (memByte_memZero ((memCanonical_iff _).1 w).1 _ _ _).trans (if_neg ?_)
    simp only [inFrames, inScratch, windowBase] at *
    omega

theorem writeAccBlock_touch (s : State) (i : Nat) (k : Nat) (ws : List Word32) : Touch 0x2000000004 s (writeAccBlock s i k ws) := by
  unfold writeAccBlock
  repeat' first
    | with_reducible exact Touch.refl _
    | (with_reducible apply Touch.step (writeWindow_touch ..)); exact rfl

theorem landTransfer_touch (s : State) (x : CoreTransfer) : Touch 0x2000000004 s (landTransfer s x) := by
  unfold landTransfer
  repeat' first
    | with_reducible exact Touch.refl _
    | (with_reducible apply Touch.step (writeWindow_touch ..)); exact rfl
    | with_reducible apply Touch.foldl
    | intro _

theorem closeTransfers_touch (s : State) (t : Tile) (p : CoreTransfer → Bool) : Touch 0x200000000c s (closeTransfers s t p) := by
  unfold closeTransfers
  repeat' first
    | with_reducible exact Touch.refl _
    | (with_reducible apply Touch.step (State_modSch_touch ..)); exact rfl
    | (with_reducible apply Touch.step (landTransfer_touch ..)); exact rfl
    | with_reducible apply Touch.foldl
    | intro _

theorem closeFirst_touch (s : State) (t : Tile) (p : CoreTransfer → Bool) : Touch 0x200000000c s (closeFirst s t p) := by
  unfold closeFirst
  repeat' first
    | with_reducible exact Touch.refl _
    | (with_reducible apply Touch.step (State_modSch_touch ..)); exact rfl
    | (with_reducible apply Touch.step (landTransfer_touch ..)); exact rfl
    | split

theorem openTransfer_touch (s : State) (x : CoreTransfer) : Touch 0x200000000c s (openTransfer s x) := by
  unfold openTransfer
  repeat' first
    | with_reducible exact Touch.refl _
    | (with_reducible apply Touch.step (State_modSch_touch ..)); exact rfl
    | (with_reducible apply Touch.step (closeFirst_touch ..)); exact rfl
    | with_reducible apply Touch.ite
    | split
    | intro _

theorem closeCore_touch (s : State) (i : Nat) : Touch 0x200000000c s (closeCore s i) := by
  unfold closeCore
  repeat' first
    | with_reducible exact Touch.refl _
    | (with_reducible apply Touch.step (closeTransfers_touch ..)); exact rfl

theorem closeTask_touch (s : State) (id : Nat) : Touch 0x200000000c s (closeTask s id) := by
  unfold closeTask
  repeat' first
    | with_reducible exact Touch.refl _
    | (with_reducible apply Touch.step (closeTransfers_touch ..)); exact rfl
    | with_reducible apply Touch.foldl
    | intro _

theorem awaitBanks_touch (s : State) (i : Nat) (banks : List Nat) : Touch 0x200000000c s (awaitBanks s i banks) := by
  unfold awaitBanks
  repeat' first
    | with_reducible exact Touch.refl _
    | (with_reducible apply Touch.step (closeTransfers_touch ..)); exact rfl

theorem handOver_touch (s : State) (i : Nat) (banks : List Nat) : Touch 0x200000000c s (handOver s i banks) := by
  unfold handOver
  repeat' first
    | with_reducible exact Touch.refl _
    | (with_reducible apply Touch.step (closeTransfers_touch ..)); exact rfl

theorem holdRegions_touch (s : State) (i : Nat) (rs : List Nat) : Touch 0x8 s (holdRegions s i rs) := by
  unfold holdRegions
  repeat' first
    | with_reducible exact Touch.refl _
    | (with_reducible apply Touch.step (State_modSch_touch ..)); exact rfl

theorem readScaleRow_touch (s : State) (i : Nat) (off : Nat) : Touch 0x8 s (readScaleRow s i off) := by
  unfold readScaleRow
  repeat' first
    | with_reducible exact Touch.refl _
    | (with_reducible apply Touch.step (State_modSch_touch ..)); exact rfl

theorem passThrough_touch (s : State) (i : Nat) (bs : List Byte) : Touch 0x8 s (passThrough s i bs) := by
  unfold passThrough
  repeat' first
    | with_reducible exact Touch.refl _
    | (with_reducible apply Touch.step (State_modSch_touch ..)); exact rfl

end Sys2Proof.Machine
end

