-- ==== Sys2Proof/Laws/TouchTasks.lean ====
section
/-!
SUPPORT. What the operations of Tasks may change.
-/

namespace Sys2Proof.Machine

theorem State_modTask_touch (s : State) (id : Nat) (f : Task → Task) (hf : ∀ t, t.id = id → (f t).id = id) :
    Touch 0x100 s (State.modTask s id f) := by
  unfold State.modTask
  refine Touch.step (touch_tasks _ (ids_map fun y => ?_)) rfl (Touch.refl s)
  split
  · rename_i h
    have h : y.id = id := by simpa using h
    rw [hf y h, h]
  · rfl

theorem liftVtime_touch (s : State) (t : Tile) (p : Nat) : Touch 0x8 s (liftVtime s t p) := by
  unfold liftVtime
  repeat' first
    | with_reducible exact Touch.refl _
    | (with_reducible apply Touch.step (State_modSch_touch ..)); exact rfl
    | with_reducible apply Touch.ite
    | split
    | intro _

theorem rebaseVtime_touch (s : State) (t : Tile) : Touch 0x8 s (rebaseVtime s t) := by
  unfold rebaseVtime
  repeat' first
    | with_reducible exact Touch.refl _
    | (with_reducible apply Touch.step (State_modSch_touch ..)); exact rfl
    | with_reducible apply Touch.ite
    | split
    | intro _

theorem chargeVtime_touch (s : State) (t : Tile) (p : Nat) (ticks : Nat) : Touch 0x8 s (chargeVtime s t p ticks) := by
  unfold chargeVtime
  repeat' first
    | with_reducible exact Touch.refl _
    | (with_reducible apply Touch.step (State_modSch_touch ..)); exact rfl
    | (with_reducible apply Touch.step (rebaseVtime_touch ..)); exact rfl

theorem logTask_touch (s : State) (t : Task) (cause : Nat) (unit : LogUnit) (addr : Nat) (detail : Nat) : Touch 0x801c0000 s (logTask s t cause unit addr detail) := by
  unfold logTask
  repeat' first
    | with_reducible exact Touch.refl _
    | (with_reducible apply Touch.step (logCause_touch ..)); exact rfl

theorem writeRecord_touch (s : State) (t : Task) (cause : Nat) : Touch 0x349ffffdfe s (writeRecord s t cause).1 := by
  unfold writeRecord
  repeat' first
    | with_reducible exact Touch.refl _
    | (with_reducible apply Touch.step (failAcc_touch ..)); exact rfl
    | (with_reducible apply Touch.step (saveVa_touch ..)); exact rfl
    | (with_reducible apply Touch.step (logTask_touch ..)); exact rfl
    | with_reducible apply Touch.ite_fst
    | split
    | dsimp only
    | intro _

theorem answerTask_touch (s : State) (t : Task) (cause : Nat) (recFault : Bool) : Touch 0x80300000 s (answerTask s t cause recFault) := by
  unfold answerTask
  repeat' first
    | with_reducible exact Touch.refl _
    | (with_reducible apply Touch.step (answerEntry_touch ..)); exact rfl
    | with_reducible apply Touch.ite
    | intro _

theorem releasePins_touch (s : State) (pins : List Pin) : Touch 0x349ffffdfe s (releasePins s pins) := by
  unfold releasePins
  repeat' first
    | with_reducible exact Touch.refl _
    | (with_reducible apply Touch.step (settleInst_touch ..)); exact rfl
    | with_reducible apply Touch.foldl
    | intro _

theorem freeStaging_touch (s : State) (id : Nat) : Touch 0x10 s (freeStaging s id) := by
  unfold freeStaging
  repeat' first
    | with_reducible exact Touch.refl _
    | (with_reducible apply Touch.step (touch_tmem ..)); exact rfl

theorem finishTask_touch (s : State) (t : Task) (cause : Nat) : Touch 0x349ffffdfe s (finishTask s t cause) := by
  unfold finishTask
  repeat' first
    | with_reducible exact Touch.refl _
    | (with_reducible apply Touch.step (closeTask_touch ..)); exact rfl
    | (with_reducible apply Touch.step (holdRegions_touch ..)); exact rfl
    | (with_reducible apply Touch.step (chargeVtime_touch ..)); exact rfl
    | (with_reducible apply Touch.step (writeRecord_touch ..)); exact rfl
    | (with_reducible apply Touch.step (answerTask_touch ..)); exact rfl
    | (with_reducible apply Touch.step (releasePins_touch ..)); exact rfl
    | (with_reducible apply Touch.step (freeStaging_touch ..)); exact rfl
    | with_reducible apply Touch.foldl
    | exact ids_filter
    | split
    | dsimp only
    | intro _
    | (with_reducible apply Touch.step (touch_tasks ..)); exact rfl

theorem scribbleStream_touch (s : State) (c : Ctx) (w : Wing) (st : Nat) : Touch 0x3808000016 s (scribbleStream s c w st) := by
  unfold scribbleStream
  repeat' first
    | with_reducible exact Touch.refl _
    | assumption
    | (with_reducible apply Touch.step (scribble_touch ..)); exact rfl
    | with_reducible apply Touch.foldl
    | intro _

theorem breakStream_touch (s : State) (t : Task) : Touch 0x38881c091e s (breakStream s t) := by
  unfold breakStream
  repeat' first
    | with_reducible exact Touch.refl _
    | (with_reducible apply Touch.step (raise_touch ..)); exact rfl
    | (with_reducible apply Touch.step (logTask_touch ..)); exact rfl
    | (with_reducible apply Touch.step (scribbleStream_touch ..)); exact rfl
    | (with_reducible apply Touch.step (addCtr_touch_sch ..)); exact rfl
    | with_reducible apply Touch.foldl
    | refine ids_map fun y => ?_
    | split
    | dsimp only
    | intro _
    | (with_reducible apply Touch.step (touch_tasks_sidings ..)); exact rfl

theorem stopTask_touch (s : State) (id : Nat) (cause : Nat) (unit : LogUnit) (addr : Nat) (detail : Nat) : Touch 0x801c0100 s (stopTask s id cause unit addr detail) := by
  unfold stopTask
  repeat' first
    | with_reducible exact Touch.refl _
    | exact fun _ h => h
    | (with_reducible apply Touch.step (State_modTask_touch ..)); exact rfl
    | (with_reducible apply Touch.step (logTask_touch ..)); exact rfl
    | split

theorem faultTask_touch (s : State) (id : Nat) (part : Nat) (e : AccErr) (unit : LogUnit) (detail : Nat) : Touch 0x349ffffdfe s (faultTask s id part e unit detail) := by
  unfold faultTask
  repeat' first
    | with_reducible exact Touch.refl _
    | (with_reducible apply Touch.step (failAcc_touch ..)); exact rfl
    | (with_reducible apply Touch.step (stopTask_touch ..)); exact rfl

theorem scribbleRanges_touch (s : State) (c : Ctx) (rs : List (Nat × Nat)) : Touch 0x3808000016 s (scribbleRanges s c rs) := by
  unfold scribbleRanges
  repeat' first
    | with_reducible exact Touch.refl _
    | (with_reducible apply Touch.step (scribble_touch ..)); exact rfl
    | with_reducible apply Touch.foldl
    | intro _

end Sys2Proof.Machine
end

