-- ==== Sys2Proof/Laws/TouchIssue.lean ====
section
/-!
SUPPORT. What the operations of Issue may change.
-/

namespace Sys2Proof.Machine

theorem takeEntry_touch (s : State) (f : Func) (r : Nat) : Touch 0x200000 s (takeEntry s f r) := by
  unfold takeEntry
  repeat' first
    | with_reducible exact Touch.refl _
    | (with_reducible apply Touch.step (State_modRing_touch ..)); exact rfl

theorem fetch5_touch (s : State) (t : Task) (va : Nat) (n : Nat) : Touch 0x10881c0014 s (fetch5 s t va n).1 := by
  unfold fetch5
  repeat' first
    | with_reducible exact Touch.refl _
    | (with_reducible apply Touch.step (loadVa_touch ..)); exact rfl

theorem failIssue_touch (s : State) (t : Task) (e : AccErr) : Touch 0x349ffffdfe s (failIssue s t e) := by
  unfold failIssue
  repeat' first
    | with_reducible exact Touch.refl _
    | (with_reducible apply Touch.step (failAcc_touch ..)); exact rfl
    | (with_reducible apply Touch.step (logTask_touch ..)); exact rfl
    | (with_reducible apply Touch.step (finishTask_touch ..)); exact rfl
    | (with_reducible apply Touch.step (addCtr_touch_sch ..)); exact rfl

theorem acceptTask_touch (s : State) (t : Task) (ht : t.id < s.nextTask) : Touch 0x349ffffdfe s (acceptTask s t) := by
  unfold acceptTask
  dsimp only
  split
  · exact Touch.step (finishTask_touch ..) rfl (Touch.weaken (addCtr_touch_sch ..) rfl)
  · have key : ∀ x, Touch 0x349ffffdfe s x → Touch 0x349ffffdfe s { x with tasks := x.tasks ++ [t] } :=
      fun x h => h.append rfl (Nat.lt_of_lt_of_le ht h.next)
    refine Touch.step (rebaseVtime_touch ..) rfl ?_
    apply key
    refine Touch.step (liftVtime_touch ..) rfl (Touch.foldl (Touch.weaken (addCtr_touch_sch ..) rfl) fun y va hy => ?_)
    exact Touch.ite (fun _ => hy) fun _ => Touch.step (fillTlb_touch ..) rfl hy

/-- A kind's checks leave the task's number. -/
def KeepsId (k : KindCheck) : Prop := ∀ {s s' : State} {t t' : Task}, k s t = (s', .ok t') → t'.id = t.id

/-- A check that passes gives a task of number n. -/
def OkId (n : Nat) (r : State × Except AccErr Task) : Prop := ∀ t, r.2 = .ok t → t.id = n

theorem OkId.andThen {α : Type} {n : Nat} {r : State × Except AccErr α} {f : State → α → State × Except AccErr Task}
    (hf : ∀ x a, r = (x, .ok a) → OkId n (f x a)) : OkId n (andThen r f) := by
  obtain ⟨x, e | a⟩ := r
  · intro t h; cases h
  · exact hf x a rfl
theorem OkId.error {n : Nat} {s : State} {e : AccErr} : OkId n (s, .error e) := by intro t h; cases h
theorem OkId.ok {n : Nat} {s : State} {t : Task} (h : t.id = n) : OkId n (s, .ok t) := by intro t h'; cases h'; exact h
theorem OkId.some {n : Nat} {r : State × Except AccErr Task} {x : State} {t : Task} (h : OkId n r) (hr : r = (x, .ok t)) :
    t.id = n := h t (by rw [hr])
theorem KeepsId.of {k : KindCheck} (h : ∀ s t, OkId t.id (k s t)) : KeepsId k := fun hk => h _ _ _ (by rw [hk])

theorem issueTask_touch {m : Nat} {s : State} {t : Task} {k : KindCheck}
    (hm : 0x349ffffffe ||| m = m) (ht : t.id = s.nextTask) (hk : ∀ s t, Touch m s (k s t).1) (hi : KeepsId k) :
    Touch m s (issueTask s t k) := by
  unfold issueTask
  have h0 : Touch m s { s with nextTask := s.nextTask + 1 } :=
    Touch.step (touch_nextTask s) (testBit_sub rfl hm) (Touch.refl s)
  dsimp only
  split
  · exact Touch.step (failIssue_touch ..) (testBit_sub rfl hm) h0
  · split
    · exact Touch.step (failIssue_touch ..) (testBit_sub rfl hm) h0
    · split
      · exact Touch.step (failIssue_touch ..) (testBit_sub rfl hm) (Touch.fst (by assumption) (Touch.step (hk ..) (Nat.or_self m) h0))
      · rename_i s' t' h
        have h1 : Touch m { s with nextTask := s.nextTask + 1 } s' := Touch.fst h (hk ..)
        have hl : t'.id < s'.nextTask := by
          have h2 := hi h
          have h3 : s.nextTask + 1 ≤ s'.nextTask := h1.next
          omega
        exact Touch.step (acceptTask_touch _ _ hl) (testBit_sub rfl hm) (Touch.step h1 (Nat.or_self m) h0)

theorem beginTask_touch {m : Nat} {s : State} {f : Func} {r kind sub : Nat} {k : KindCheck}
    (hm : 0x349ffffffe ||| m = m) (hk : ∀ s t, Touch m s (k s t).1) (hi : KeepsId k) : Touch m s (beginTask s f r kind sub k) := by
  unfold beginTask
  split
  · exact Touch.refl s
  · split
    · exact orWait_touch (testBit_sub rfl hm) fun s => Touch.step (issueTask_touch (testBit_sub rfl hm) rfl hk hi) (Nat.or_self m)
        (Touch.step (takeEntry_touch ..) (testBit_sub rfl hm) (Touch.refl s))
    · exact Touch.refl s

theorem judgeCommand_touch {m : Nat} {s : State} {o : Origin} {e : Entry} {perform : State → Origin → Entry → State}
    (hm : 0x803c0000 ||| m = m) (hf : ∀ s o e, Touch m s (perform s o e)) : Touch m s (judgeCommand s o e perform) := by
  unfold judgeCommand
  split
  · exact Touch.step (answerCommand_touch ..) (testBit_sub rfl hm) (Touch.refl s)
  · exact hf _ _ _

theorem beginOrphan_touch {m : Nat} {s : State} {x : Nat × Tile × Entry} {perform : State → Origin → Entry → State}
    (hm : 0x80bc0000 ||| m = m) (hf : ∀ s o e, Touch m s (perform s o e)) : Touch m s (beginOrphan s x perform) := by
  unfold beginOrphan
  refine Touch.step (State_modRing_touch ..) (testBit_sub rfl hm) ?_
  refine Touch.step (judgeCommand_touch (testBit_sub rfl hm) hf) (Nat.or_self m) ?_
  refine Touch.step (State_modRing_touch ..) (testBit_sub rfl hm) ?_
  exact Touch.step (touch_hif_orphans s) (testBit_sub rfl hm) (Touch.refl s)

theorem beginCommand_touch {m : Nat} {s : State} {f : Func} {r op : Nat} {perform : State → Origin → Entry → State}
    (hm : 0x480bc4000 ||| m = m) (hf : ∀ s o e, Touch m s (perform s o e)) : Touch m s (beginCommand s f r op perform) := by
  unfold beginCommand
  dsimp only
  split
  · exact orWait_touch (testBit_sub rfl hm) fun s => beginOrphan_touch (testBit_sub rfl hm) hf
  · split
    · exact Touch.refl s
    · split
      · exact orWait_touch (testBit_sub rfl hm) fun s => Touch.step (judgeCommand_touch (testBit_sub rfl hm) hf)
          (Nat.or_self m) (Touch.step (takeEntry_touch ..) (testBit_sub rfl hm) (Touch.refl s))
      · exact Touch.refl s

theorem endNameless_touch (s : State) (f : Func) (r : Nat) : Touch 0x349ffffffe s (endNameless s f r) := by
  unfold endNameless
  repeat' first
    | with_reducible exact Touch.refl _
    | (with_reducible apply Touch.step (takeEntry_touch ..)); exact rfl
    | refine Touch.step (issueTask_touch (m := 0x349ffffffe) rfl rfl ?_ (by intro s s' t t' h; cases h; rfl)) rfl ?_
    | (with_reducible apply Touch.step (beginCommand_touch (m := 0x349ffffffe) rfl ?_)); exact rfl
    | with_reducible apply Touch.ite
    | split
    | dsimp only
    | intro _

end Sys2Proof.Machine
end

