-- ==== Sys2Proof/Laws/TouchRings.lean ====
section
/-!
SUPPORT. What the operations of Rings may change.
-/

namespace Sys2Proof.Machine

theorem applyDoorbell_touch (s : State) (f : Func) (r : Nat) (head : Bool) (v : Word32) : Touch 0x803c0000 s (applyDoorbell s f r head v) := by
  unfold applyDoorbell
  repeat' first
    | with_reducible exact Touch.refl _
    | (with_reducible apply Touch.step (raise_touch ..)); exact rfl
    | (with_reducible apply Touch.step (State_modRing_touch ..)); exact rfl
    | (with_reducible apply Touch.step (addCtr_touch_hif ..)); exact rfl
    | with_reducible apply Touch.ite
    | split
    | intro _

theorem doorbell_touch (s : State) (f : Func) (r : Nat) (head : Bool) (v : Word32) : Touch 0x803d0000 s (doorbell s f r head v) := by
  unfold doorbell
  repeat' first
    | with_reducible exact Touch.refl _
    | (with_reducible apply Touch.step (applyDoorbell_touch ..)); exact rfl
    | with_reducible apply Touch.ite
    | split
    | dsimp only
    | intro _
    | (with_reducible apply Touch.step (touch_cc ..)); exact rfl

theorem execSqTailDoorbell_touch (f : Func) (r : Fin 64) (v : Word32) (s : State) : TouchNext 0x803d0000 s (execSqTailDoorbell f r v s) := by
  unfold execSqTailDoorbell
  repeat' first
    | with_reducible exact Touch.refl _
    | (with_reducible apply Touch.step (doorbell_touch ..)); exact rfl
    | with_reducible apply TouchNext.next

theorem execCqHeadDoorbell_touch (f : Func) (r : Fin 64) (v : Word32) (s : State) : TouchNext 0x803d0000 s (execCqHeadDoorbell f r v s) := by
  unfold execCqHeadDoorbell
  repeat' first
    | with_reducible exact Touch.refl _
    | (with_reducible apply Touch.step (doorbell_touch ..)); exact rfl
    | with_reducible apply TouchNext.next

theorem writeRingCfg_touch (s : State) (f : Func) (r : Nat) (v : Word32) : Touch 0x200000 s (writeRingCfg s f r v) := by
  unfold writeRingCfg
  repeat' first
    | with_reducible exact Touch.refl _
    | (with_reducible apply Touch.step (State_modRing_touch ..)); exact rfl
    | with_reducible apply Touch.ite
    | split
    | intro _

theorem execRingEnable_touch (f : Func) (r : Fin 64) (cfg : Word32) (s : State) : TouchNext 0x200000 s (execRingEnable f r cfg s) := by
  unfold execRingEnable
  repeat' first
    | with_reducible exact Touch.refl _
    | (with_reducible apply Touch.step (writeRingCfg_touch ..)); exact rfl
    | with_reducible apply TouchNext.next
    | with_reducible apply Touch.ite
    | intro _

theorem execRingDisable_touch (f : Func) (r : Fin 64) (cfg : Word32) (s : State) : TouchNext 0x200000 s (execRingDisable f r cfg s) := by
  unfold execRingDisable
  repeat' first
    | with_reducible exact Touch.refl _
    | (with_reducible apply Touch.step (writeRingCfg_touch ..)); exact rfl
    | with_reducible apply TouchNext.next
    | with_reducible apply Touch.ite
    | intro _

theorem execRingDrainDone_touch (f : Func) (r : Fin 64) (s : State) : TouchNext 0x200000 s (execRingDrainDone f r s) := by
  unfold execRingDrainDone
  repeat' first
    | with_reducible exact Touch.refl _
    | (with_reducible apply Touch.step (State_modRing_touch ..)); exact rfl
    | with_reducible apply TouchNext.next
    | with_reducible apply Touch.ite
    | intro _

theorem execSubmissionEntryFetch_touch (f : Func) (r : Fin 64) (entry : Entry) (s : State) : TouchNext 0x349ffffffe s (execSubmissionEntryFetch f r entry s) := by
  unfold execSubmissionEntryFetch
  repeat' first
    | with_reducible exact Touch.refl _
    | (with_reducible apply Touch.step (State_modRing_touch ..)); exact rfl
    | (with_reducible apply Touch.step (endNameless_touch ..)); exact rfl
    | with_reducible apply TouchNext.next
    | with_reducible apply TouchNext.ite
    | dsimp only
    | intro _

theorem stopRing_touch (s : State) (f : Func) (r : Nat) (kind : Nat) : Touch 0x803c0000 s (stopRing s f r kind) := by
  unfold stopRing
  repeat' first
    | with_reducible exact Touch.refl _
    | (with_reducible apply Touch.step (raise_touch ..)); exact rfl
    | (with_reducible apply Touch.step (State_modRing_touch ..)); exact rfl
    | (with_reducible apply Touch.step (addCtr_touch_hif ..)); exact rfl

theorem execSubmissionFetchFailed_touch (f : Func) (r : Fin 64) (s : State) : TouchNext 0x803c0000 s (execSubmissionFetchFailed f r s) := by
  unfold execSubmissionFetchFailed
  repeat' first
    | with_reducible exact Touch.refl _
    | (with_reducible apply Touch.step (stopRing_touch ..)); exact rfl
    | with_reducible apply TouchNext.next
    | with_reducible apply Touch.ite
    | intro _

theorem execCompletionWriteRefused_touch (f : Func) (r : Fin 64) (s : State) : TouchNext 0x803c0000 s (execCompletionWriteRefused f r s) := by
  unfold execCompletionWriteRefused
  repeat' first
    | with_reducible exact Touch.refl _
    | (with_reducible apply Touch.step (State_modRing_touch ..)); exact rfl
    | (with_reducible apply Touch.step (stopRing_touch ..)); exact rfl
    | with_reducible apply TouchNext.next
    | with_reducible apply TouchNext.ite
    | intro _

theorem execMsixCoalDelayExpiry_touch (f : Func) (r : Fin 64) (s : State) : TouchNext 0x80300000 s (execMsixCoalDelayExpiry f r s) := by
  unfold execMsixCoalDelayExpiry
  repeat' first
    | with_reducible exact Touch.refl _
    | (with_reducible apply Touch.step (sendMsix_touch ..)); exact rfl
    | (with_reducible apply Touch.step (State_modRing_touch ..)); exact rfl
    | with_reducible apply TouchNext.next
    | with_reducible apply TouchNext.ite
    | intro _

end Sys2Proof.Machine
end

