-- ==== Sys2Proof/Laws/TouchSwaps.lean ====
section
/-!
SUPPORT. What the operations of Swaps may change.
-/

namespace Sys2Proof.Machine

theorem performSwap_touch (s : State) (o : Origin) (e : Entry) : Touch 0x349ffffdfe s (performSwap s o e) := by
  unfold performSwap
  repeat' first
    | with_reducible exact Touch.refl _
    | (with_reducible apply Touch.step (State_modInst_touch ..)); exact rfl
    | (with_reducible apply Touch.step (answerCommand_touch ..)); exact rfl
    | (with_reducible apply Touch.step (serveSwaps_touch ..)); exact rfl
    | with_reducible apply Touch.ite
    | split
    | intro _

theorem execEditionSwap_touch (f : Func) (r : Fin 64) (s : State) : TouchNext 0x349ffffdfe s (execEditionSwap f r s) := by
  unfold execEditionSwap
  repeat' first
    | with_reducible exact Touch.refl _
    | (with_reducible apply Touch.step (beginCommand_touch (m := 0x349ffffdfe) rfl ?_)); exact rfl
    | (with_reducible apply Touch.step (performSwap_touch ..)); exact rfl
    | with_reducible apply TouchNext.next
    | intro _

theorem execSwapNotice_touch (u : PinUnit) (i : Instance) (s : State) : TouchNext 0x801c40a8 s (execSwapNotice u i s) := by
  unfold execSwapNotice
  repeat' first
    | with_reducible exact Touch.refl _
    | (with_reducible apply Touch.step (retireUnpinned_touch ..)); exact rfl
    | (with_reducible apply Touch.step (applyAtUnit_touch ..)); exact rfl
    | (with_reducible apply Touch.step (setHeadSwap_touch ..)); exact rfl
    | with_reducible apply TouchNext.next
    | with_reducible apply TouchNext.ite
    | split
    | dsimp only
    | intro _

theorem execEditionSwapComplete_touch (i : Instance) (s : State) : TouchNext 0x349ffffdfe s (execEditionSwapComplete i s) := by
  unfold execEditionSwapComplete
  repeat' first
    | with_reducible exact Touch.refl _
    | (with_reducible apply Touch.step (State_modInst_touch ..)); exact rfl
    | (with_reducible apply Touch.step (orWait_touch (m := 0x349ffffdfe) rfl ?_)); exact rfl
    | (with_reducible apply Touch.step (answerCommand_touch ..)); exact rfl
    | (with_reducible apply Touch.step (settleInst_touch ..)); exact rfl
    | with_reducible apply TouchNext.next
    | split
    | dsimp only
    | intro _

theorem trimFrames_touch (s : State) (t : Tile) (p : Nat) (g : Grant) : Touch 0x14 s (trimFrames s t p g) := by
  unfold trimFrames
  repeat' first
    | with_reducible exact Touch.refl _
    | assumption
    | (with_reducible apply Touch.step (freeFrame_touch ..)); exact rfl
    | (with_reducible apply Touch.step (writeBack_touch ..)); exact rfl
    | with_reducible apply Touch.foldl
    | intro _

theorem zeroCore_touch (s : State) (i : Nat) (banks : List Nat) (regions : List Nat) : Touch 0x2000000004 s (zeroCore s i banks regions) := by
  unfold zeroCore
  repeat' first
    | with_reducible exact Touch.refl _
    | (with_reducible apply Touch.step (zeroWindow_touch ..)); exact rfl
    | with_reducible apply Touch.foldl
    | intro _

theorem clearRemoved_touch (s : State) (t : Tile) (a : Grant) (b : Grant) : Touch 0x2000000004 s (clearRemoved s t a b) := by
  unfold clearRemoved
  repeat' first
    | with_reducible exact Touch.refl _
    | (with_reducible apply Touch.step (zeroCore_touch ..)); exact rfl
    | with_reducible apply Touch.foldl
    | dsimp only
    | intro _

theorem drainPart_touch (s : State) (old : List Byte) (new : List Byte) (p : Nat) : Touch 0x2000000014 s (drainPart s old new p) := by
  unfold drainPart
  repeat' first
    | with_reducible exact Touch.refl _
    | assumption
    | (with_reducible apply Touch.step (trimFrames_touch ..)); exact rfl
    | (with_reducible apply Touch.step (clearRemoved_touch ..)); exact rfl
    | with_reducible apply Touch.foldl
    | dsimp only
    | intro _

theorem execPartConfigDrainDone_touch (s : State) : TouchNext 0x24801c40bc s (execPartConfigDrainDone s) := by
  unfold execPartConfigDrainDone
  repeat' first
    | with_reducible exact Touch.refl _
    | (with_reducible apply Touch.step (orWait_touch (m := 0x24801c40bc) rfl ?_)); exact rfl
    | (with_reducible apply Touch.step (applySwap_touch ..)); exact rfl
    | (with_reducible apply Touch.step (drainPart_touch ..)); exact rfl
    | with_reducible apply TouchNext.next
    | with_reducible apply TouchNext.ite
    | with_reducible apply Touch.foldl
    | split
    | intro _

theorem dropTranslations_touch (s : State) (p : Nat) (va : Nat) (n : Nat) : Touch 0x10 s (dropTranslations s p va n) := by
  unfold dropTranslations
  repeat' first
    | with_reducible exact Touch.refl _
    | (with_reducible apply Touch.step (touch_tmem ..)); exact rfl

theorem performInvalidate_touch (s : State) (o : Origin) (e : Entry) : Touch 0x410 s (performInvalidate s o e) := by
  unfold performInvalidate
  repeat' first
    | with_reducible exact Touch.refl _
    | (with_reducible apply Touch.step (dropTranslations_touch ..)); exact rfl
    | dsimp only
    | (with_reducible apply Touch.step (touch_cmds ..)); exact rfl

theorem execMapInvalidate_touch (f : Func) (r : Fin 64) (s : State) : TouchNext 0x480bc4410 s (execMapInvalidate f r s) := by
  unfold execMapInvalidate
  repeat' first
    | with_reducible exact Touch.refl _
    | (with_reducible apply Touch.step (beginCommand_touch (m := 0x480bc4410) rfl ?_)); exact rfl
    | (with_reducible apply Touch.step (performInvalidate_touch ..)); exact rfl
    | with_reducible apply TouchNext.next
    | intro _

theorem endCmd_touch (s : State) (c : Cmd) (cause : Nat) : Touch 0x803c0400 s (endCmd s c cause) := by
  unfold endCmd
  repeat' first
    | with_reducible exact Touch.refl _
    | (with_reducible apply Touch.step (answerCommand_touch ..)); exact rfl
    | (with_reducible apply Touch.step (touch_cmds ..)); exact rfl

theorem execMapInvalidateDone_touch (f : Func) (r : Fin 64) (s : State) : TouchNext 0x803c0400 s (execMapInvalidateDone f r s) := by
  unfold execMapInvalidateDone
  repeat' first
    | with_reducible exact Touch.refl _
    | (with_reducible apply Touch.step (endCmd_touch ..)); exact rfl
    | with_reducible apply TouchNext.next
    | split

end Sys2Proof.Machine
end

