-- ==== Sys2Proof/Laws/TouchFrames.lean ====
section
/-!
SUPPORT. What the operations of Frames may change.
-/

namespace Sys2Proof.Machine

theorem loadPage_touch (s : State) (l : LoadFor) (p : LoadPage) : Touch 0x349ffffdfe s (loadPage s l p) := by
  unfold loadPage
  repeat' first
    | with_reducible exact Touch.refl _
    | (with_reducible apply Touch.step (raise_touch ..)); exact rfl
    | (with_reducible apply Touch.step (failAcc_touch ..)); exact rfl
    | (with_reducible apply Touch.step (assignFrame_touch ..)); exact rfl
    | (with_reducible apply Touch.step (placePage_touch ..)); exact rfl
    | split

theorem loadPages_touch (s : State) (l : LoadFor) (ps : List LoadPage) : Touch 0x349ffffdfe s (loadPages s l ps) := by
  unfold loadPages
  repeat' first
    | with_reducible exact Touch.refl _
    | (with_reducible apply Touch.step (loadPage_touch ..)); exact rfl
    | with_reducible apply Touch.foldl
    | intro _

theorem loadHostPages_touch (s : State) (l : LoadFor) (t : Tile) (bus : Nat) (n : Nat) : Touch 0x1800000014 s (loadHostPages s l t bus n) := by
  unfold loadHostPages
  repeat' first
    | with_reducible exact Touch.refl _
    | assumption
    | (with_reducible apply Touch.step (writeFrame_touch ..)); exact rfl
    | (with_reducible apply Touch.step (freeBytes_touch ..)); exact rfl
    | (with_reducible apply Touch.step (assignFrame_touch ..)); exact rfl
    | with_reducible apply Touch.foldl
    | split
    | dsimp only
    | intro _

theorem releaseSegment_touch (s : State) (p : Nat) (layer : Nat) (seg : Nat) : Touch 0x10 s (releaseSegment s p layer seg) := by
  unfold releaseSegment
  repeat' first
    | with_reducible exact Touch.refl _
    | (with_reducible apply Touch.step (touch_tmem ..)); exact rfl

theorem endSched_touch (s : State) (t : Tile) (p : Nat) : Touch 0x10 s (endSched s t p) := by
  unfold endSched
  repeat' first
    | with_reducible exact Touch.refl _
    | (with_reducible apply Touch.step (State_modMem_touch ..)); exact rfl

theorem failSched_touch (s : State) (t : Tile) (p : Nat) (cause : Nat) (addr : Nat) : Touch 0x801c0010 s (failSched s t p cause addr) := by
  unfold failSched
  repeat' first
    | with_reducible exact Touch.refl _
    | (with_reducible apply Touch.step (logCause_touch ..)); exact rfl
    | (with_reducible apply Touch.step (endSched_touch ..)); exact rfl

theorem settleSched_touch (s : State) (p : Nat) (layer : Nat) (seg : Nat) : Touch 0x10 s (settleSched s p layer seg) := by
  unfold settleSched
  repeat' first
    | with_reducible exact Touch.refl _
    | assumption
    | (with_reducible apply Touch.step (endSched_touch ..)); exact rfl
    | with_reducible apply Touch.foldl
    | split
    | intro _

theorem release_touch (s : State) (p : Nat) (layer : Nat) (seg : Nat) : Touch 0x10 s (release s p layer seg) := by
  unfold release
  repeat' first
    | with_reducible exact Touch.refl _
    | (with_reducible apply Touch.step (releaseSegment_touch ..)); exact rfl
    | (with_reducible apply Touch.step (settleSched_touch ..)); exact rfl

theorem scheduleStep_touch (s : State) (t : Tile) (p : Nat) : Touch 0x349ffffdfe s (scheduleStep s t p) := by
  unfold scheduleStep
  repeat' first
    | with_reducible exact Touch.refl _
    | (with_reducible apply Touch.step (State_modMem_touch ..)); exact rfl
    | (with_reducible apply Touch.step (failAcc_touch ..)); exact rfl
    | (with_reducible apply Touch.step (loadNum_touch ..)); exact rfl
    | (with_reducible apply Touch.step (loadPages_touch ..)); exact rfl
    | (with_reducible apply Touch.step (failSched_touch ..)); exact rfl
    | with_reducible apply Touch.ite
    | with_reducible refine Touch.fst (by assumption) ?_
    | split
    | dsimp only
    | intro _

end Sys2Proof.Machine
end

