-- ==== Sys2Proof/Laws/TouchMoves.lean ====
section
/-!
SUPPORT. What the operations of Moves may change.
-/

namespace Sys2Proof.Machine

theorem moveDone_touch (s : State) (id : Nat) : Touch 0x100 s (moveDone s id) := by
  unfold moveDone
  repeat' first
    | with_reducible exact Touch.refl _
    | exact fun _ h => h
    | (with_reducible apply Touch.step (State_modTask_touch ..)); exact rfl

theorem checkRange_touch (a0 : State) (a1 : Task) : Touch 0x0 a0 (checkRange a0 a1).1 := by
  unfold checkRange
  with_reducible exact Touch.refl _

theorem checkCompress_touch (a0 : State) (a1 : Task) : Touch 0x0 a0 (checkCompress a0 a1).1 := by
  unfold checkCompress
  repeat' first
    | with_reducible exact Touch.refl _
    | with_reducible apply Touch.ite_fst
    | split
    | dsimp only
    | intro _

theorem checkPlain_touch (a0 : State) (a1 : Task) : Touch 0x0 a0 (checkPlain a0 a1).1 := by
  unfold checkPlain
  with_reducible exact Touch.refl _

theorem checkStageLoad_touch (a0 : State) (a1 : Task) : Touch 0x0 a0 (checkStageLoad a0 a1).1 := by
  unfold checkStageLoad
  repeat' first
    | with_reducible exact Touch.refl _
    | with_reducible apply Touch.ite_fst
    | split
    | dsimp only
    | intro _

theorem checkScheduleStart_touch (a0 : State) (a1 : Task) : Touch 0x0 a0 (checkScheduleStart a0 a1).1 := by
  unfold checkScheduleStart
  repeat' first
    | with_reducible exact Touch.refl _
    | with_reducible apply Touch.ite_fst
    | dsimp only
    | intro _

theorem beginMove_touch {m : Nat} {s : State} {f : Func} {r sub : Nat} {k : KindCheck} {effect : State → Task → State}
    (hm : 0x349ffffffe ||| m = m) (hk : ∀ s t, Touch m s (k s t).1) (hi : KeepsId k)
    (he : ∀ s t, Touch m s (effect s t)) : Touch m s (beginMove s f r sub k effect) := by
  unfold beginMove
  refine orWait_touch (testBit_sub rfl hm) fun s => ?_
  have hb : Touch m s (beginTask s f r 6 sub k) := beginTask_touch (testBit_sub rfl hm) hk hi
  dsimp only
  split
  · split
    · exact hb
    · exact Touch.step (he ..) (Nat.or_self m) hb
  · exact hb

theorem copyBytes_touch (s : State) (src : Nat) (dst : Nat) (bs : List Byte) : Touch 0x800000000 s (copyBytes s src dst bs).2 := by
  unfold copyBytes
  repeat' first
    | with_reducible exact Touch.refl _
    | (with_reducible apply Touch.step (freeBytes_touch ..)); exact rfl
    | split
    | dsimp only

theorem runCopy_touch (s : State) (t : Task) : Touch 0x3c9ffffdfe s (runCopy s t) := by
  unfold runCopy
  repeat' first
    | with_reducible exact Touch.refl _
    | (with_reducible apply Touch.step (loadVa_touch ..)); exact rfl
    | (with_reducible apply Touch.step (saveVa_touch ..)); exact rfl
    | (with_reducible apply Touch.step (faultTask_touch ..)); exact rfl
    | (with_reducible apply Touch.step (moveDone_touch ..)); exact rfl
    | (with_reducible apply Touch.step (copyBytes_touch ..)); exact rfl
    | with_reducible refine Touch.fst (by assumption) ?_
    | split
    | dsimp only

theorem checkRange_keepsId : KeepsId checkRange := by
  refine KeepsId.of fun s t => ?_
  unfold checkRange
  repeat' first
    | exact OkId.error
    | exact OkId.ok rfl
    | (refine OkId.andThen fun _ _ _ => ?_)
    | split
    | dsimp only

theorem execMoveCopy_touch (f : Func) (r : Fin 64) (s : State) : TouchNext 0x3c9ffffffe s (execMoveCopy f r s) := by
  unfold execMoveCopy
  repeat' first
    | with_reducible exact Touch.refl _
    | (with_reducible apply Touch.step (checkRange_touch ..)); exact rfl
    | (with_reducible apply Touch.step (beginMove_touch (m := 0x3c9ffffffe) rfl ?_ (by first | exact checkRange_keepsId | exact checkCompress_keepsId | exact checkPlain_keepsId | exact checkStageLoad_keepsId | exact checkScheduleStart_keepsId) ?_)); exact rfl
    | (with_reducible apply Touch.step (runCopy_touch ..)); exact rfl
    | with_reducible apply TouchNext.next
    | intro _

theorem overPages_touch {m : Nat} {c : Ctx} {visit : PageVisit} {l : List (Nat × Nat)} {s : State}
    (hf : ∀ s x va, Touch m s (visit c s x va).1) : Touch m s (overPages c visit l s).1 := by
  induction l generalizing s with
  | nil => exact Touch.refl s
  | cons p l ih =>
    unfold overPages
    split
    · exact Touch.refl s
    · split
      · exact Touch.fst (by assumption) (hf ..)
      · exact Touch.step ih (Nat.or_self m) (Touch.fst (by assumption) (hf ..))

theorem runPages_touch {m : Nat} {visit : PageVisit} {s : State} {t : Task}
    (hm : 0x349ffffdfe ||| m = m) (hf : ∀ c s x va, Touch m s (visit c s x va).1) : Touch m s (runPages visit s t) := by
  unfold runPages
  dsimp only
  split
  · exact Touch.step (faultTask_touch ..) (testBit_sub rfl hm) (Touch.fst (by assumption) (overPages_touch (hf _)))
  · exact Touch.step (moveDone_touch ..) (testBit_sub rfl hm) (Touch.fst (by assumption) (overPages_touch (hf _)))

theorem migratePage_touch (a0 : Ctx) (a1 : State) (a2 : Xlat) (a3 : Nat) : Touch 0x1000000014 a1 (migratePage a0 a1 a2 a3).1 := by
  unfold migratePage
  repeat' first
    | with_reducible exact Touch.refl _
    | (with_reducible apply Touch.step (fillDemand_touch ..)); exact rfl
    | with_reducible apply Touch.ite_fst
    | dsimp only
    | intro _

theorem execMoveMigrateIn_touch (f : Func) (r : Fin 64) (s : State) : TouchNext 0x349ffffffe s (execMoveMigrateIn f r s) := by
  unfold execMoveMigrateIn
  repeat' first
    | with_reducible exact Touch.refl _
    | (with_reducible apply Touch.step (checkRange_touch ..)); exact rfl
    | (with_reducible apply Touch.step (beginMove_touch (m := 0x349ffffffe) rfl ?_ (by first | exact checkRange_keepsId | exact checkCompress_keepsId | exact checkPlain_keepsId | exact checkStageLoad_keepsId | exact checkScheduleStart_keepsId) ?_)); exact rfl
    | (with_reducible apply Touch.step (runPages_touch (m := 0x349ffffffe) rfl ?_)); exact rfl
    | (with_reducible apply Touch.step (migratePage_touch ..)); exact rfl
    | with_reducible apply TouchNext.next
    | intro _

theorem flushPage_touch (a0 : Ctx) (a1 : State) (a2 : Xlat) (a3 : Nat) : Touch 0x14 a1 (flushPage a0 a1 a2 a3).1 := by
  unfold flushPage
  repeat' first
    | with_reducible exact Touch.refl _
    | (with_reducible apply Touch.step (writeBack_touch ..)); exact rfl
    | with_reducible apply Touch.ite
    | split
    | dsimp only
    | intro _

theorem execMoveFlush_touch (f : Func) (r : Fin 64) (s : State) : TouchNext 0x349ffffffe s (execMoveFlush f r s) := by
  unfold execMoveFlush
  repeat' first
    | with_reducible exact Touch.refl _
    | (with_reducible apply Touch.step (checkRange_touch ..)); exact rfl
    | (with_reducible apply Touch.step (beginMove_touch (m := 0x349ffffffe) rfl ?_ (by first | exact checkRange_keepsId | exact checkCompress_keepsId | exact checkPlain_keepsId | exact checkStageLoad_keepsId | exact checkScheduleStart_keepsId) ?_)); exact rfl
    | (with_reducible apply Touch.step (runPages_touch (m := 0x349ffffffe) rfl ?_)); exact rfl
    | (with_reducible apply Touch.step (flushPage_touch ..)); exact rfl
    | with_reducible apply TouchNext.next
    | intro _

theorem compressDone_touch (s : State) (t : Task) (sectors : Nat) : Touch 0x110 s (compressDone s t sectors) := by
  unfold compressDone
  repeat' first
    | with_reducible exact Touch.refl _
    | (with_reducible apply Touch.step (State_modMem_touch ..)); exact rfl
    | (with_reducible apply Touch.step (moveDone_touch ..)); exact rfl

theorem runCompress_touch (s : State) (t : Task) : Touch 0x349ffffdfe s (runCompress s t) := by
  unfold runCompress
  repeat' first
    | with_reducible exact Touch.refl _
    | (with_reducible apply Touch.step (loadVa_touch ..)); exact rfl
    | (with_reducible apply Touch.step (saveVa_touch ..)); exact rfl
    | (with_reducible apply Touch.step (faultTask_touch ..)); exact rfl
    | (with_reducible apply Touch.step (compressDone_touch ..)); exact rfl
    | with_reducible apply Touch.ite
    | with_reducible refine Touch.fst (by assumption) ?_
    | split
    | dsimp only
    | intro _

theorem checkCompress_keepsId : KeepsId checkCompress := by
  refine KeepsId.of fun s t => ?_
  unfold checkCompress
  repeat' first
    | exact OkId.error
    | exact OkId.ok rfl
    | (refine OkId.andThen fun _ _ _ => ?_)
    | split
    | dsimp only

theorem execMoveCompress_touch (f : Func) (r : Fin 64) (s : State) : TouchNext 0x349ffffffe s (execMoveCompress f r s) := by
  unfold execMoveCompress
  repeat' first
    | with_reducible exact Touch.refl _
    | (with_reducible apply Touch.step (checkCompress_touch ..)); exact rfl
    | (with_reducible apply Touch.step (beginMove_touch (m := 0x349ffffffe) rfl ?_ (by first | exact checkRange_keepsId | exact checkCompress_keepsId | exact checkPlain_keepsId | exact checkStageLoad_keepsId | exact checkScheduleStart_keepsId) ?_)); exact rfl
    | (with_reducible apply Touch.step (runCompress_touch ..)); exact rfl
    | with_reducible apply TouchNext.next
    | intro _

theorem decompressSource_touch (s : State) (c : Ctx) (va : Nat) : Touch 0x10881c0014 s (decompressSource s c va).1 := by
  unfold decompressSource
  repeat' first
    | with_reducible exact Touch.refl _
    | assumption
    | with_reducible refine andThen_touch ?_ (fun _ _ _ => ?_)
    | (with_reducible apply Touch.step (loadVa_touch ..)); exact rfl
    | with_reducible apply Touch.ite_fst
    | split
    | intro _

theorem runDecompress_touch (s : State) (t : Task) : Touch 0x349ffffdfe s (runDecompress s t) := by
  unfold runDecompress
  repeat' first
    | with_reducible exact Touch.refl _
    | (with_reducible apply Touch.step (saveVa_touch ..)); exact rfl
    | (with_reducible apply Touch.step (faultTask_touch ..)); exact rfl
    | (with_reducible apply Touch.step (moveDone_touch ..)); exact rfl
    | (with_reducible apply Touch.step (decompressSource_touch ..)); exact rfl
    | with_reducible refine Touch.fst (by assumption) ?_
    | split
    | dsimp only

theorem checkPlain_keepsId : KeepsId checkPlain := by
  refine KeepsId.of fun s t => ?_
  unfold checkPlain
  repeat' first
    | exact OkId.error
    | exact OkId.ok rfl
    | (refine OkId.andThen fun _ _ _ => ?_)
    | split
    | dsimp only

theorem execMoveDecompress_touch (f : Func) (r : Fin 64) (s : State) : TouchNext 0x349ffffffe s (execMoveDecompress f r s) := by
  unfold execMoveDecompress
  repeat' first
    | with_reducible exact Touch.refl _
    | (with_reducible apply Touch.step (checkPlain_touch ..)); exact rfl
    | (with_reducible apply Touch.step (beginMove_touch (m := 0x349ffffffe) rfl ?_ (by first | exact checkRange_keepsId | exact checkCompress_keepsId | exact checkPlain_keepsId | exact checkStageLoad_keepsId | exact checkScheduleStart_keepsId) ?_)); exact rfl
    | (with_reducible apply Touch.step (runDecompress_touch ..)); exact rfl
    | with_reducible apply TouchNext.next
    | intro _

theorem awaitFrames_touch (s : State) (t : Task) : Touch 0x100 s (awaitFrames s t) := by
  unfold awaitFrames
  repeat' first
    | with_reducible exact Touch.refl _
    | exact fun _ h => h
    | (with_reducible apply Touch.step (State_modTask_touch ..)); exact rfl

theorem runHostLoad_touch (s : State) (t : Task) : Touch 0x3c9ffffdfe s (runHostLoad s t) := by
  unfold runHostLoad
  repeat' first
    | with_reducible exact Touch.refl _
    | (with_reducible apply Touch.step (faultTask_touch ..)); exact rfl
    | (with_reducible apply Touch.step (loadHostPages_touch ..)); exact rfl
    | (with_reducible apply Touch.step (moveDone_touch ..)); exact rfl
    | (with_reducible apply Touch.step (awaitFrames_touch ..)); exact rfl
    | with_reducible apply Touch.ite
    | split
    | intro _

theorem runStageLoad_touch (s : State) (t : Task) : Touch 0x3c9ffffdfe s (runStageLoad s t) := by
  unfold runStageLoad
  repeat' first
    | with_reducible exact Touch.refl _
    | (with_reducible apply Touch.step (faultTask_touch ..)); exact rfl
    | (with_reducible apply Touch.step (loadPages_touch ..)); exact rfl
    | (with_reducible apply Touch.step (moveDone_touch ..)); exact rfl
    | (with_reducible apply Touch.step (awaitFrames_touch ..)); exact rfl
    | (with_reducible apply Touch.step (runHostLoad_touch ..)); exact rfl
    | with_reducible apply Touch.ite
    | split
    | intro _

theorem checkStageLoad_keepsId : KeepsId checkStageLoad := by
  refine KeepsId.of fun s t => ?_
  unfold checkStageLoad
  repeat' first
    | exact OkId.error
    | exact OkId.ok rfl
    | (refine OkId.andThen fun _ _ _ => ?_)
    | split
    | dsimp only

theorem execMoveStageLoad_touch (f : Func) (r : Fin 64) (s : State) : TouchNext 0x3c9ffffffe s (execMoveStageLoad f r s) := by
  unfold execMoveStageLoad
  repeat' first
    | with_reducible exact Touch.refl _
    | (with_reducible apply Touch.step (checkStageLoad_touch ..)); exact rfl
    | (with_reducible apply Touch.step (beginMove_touch (m := 0x3c9ffffffe) rfl ?_ (by first | exact checkRange_keepsId | exact checkCompress_keepsId | exact checkPlain_keepsId | exact checkStageLoad_keepsId | exact checkScheduleStart_keepsId) ?_)); exact rfl
    | (with_reducible apply Touch.step (runStageLoad_touch ..)); exact rfl
    | with_reducible apply TouchNext.next
    | intro _

theorem execMoveRelease_touch (f : Func) (r : Fin 64) (s : State) : TouchNext 0x349ffffffe s (execMoveRelease f r s) := by
  unfold execMoveRelease
  repeat' first
    | with_reducible exact Touch.refl _
    | (with_reducible apply Touch.step (release_touch ..)); exact rfl
    | (with_reducible apply Touch.step (moveDone_touch ..)); exact rfl
    | (with_reducible apply Touch.step (checkPlain_touch ..)); exact rfl
    | (with_reducible apply Touch.step (beginMove_touch (m := 0x349ffffffe) rfl ?_ (by first | exact checkRange_keepsId | exact checkCompress_keepsId | exact checkPlain_keepsId | exact checkStageLoad_keepsId | exact checkScheduleStart_keepsId) ?_)); exact rfl
    | with_reducible apply TouchNext.next
    | intro _

theorem runScheduleStart_touch (s : State) (t : Task) : Touch 0x110 s (runScheduleStart s t) := by
  unfold runScheduleStart
  repeat' first
    | with_reducible exact Touch.refl _
    | (with_reducible apply Touch.step (State_modMem_touch ..)); exact rfl
    | (with_reducible apply Touch.step (moveDone_touch ..)); exact rfl

theorem checkScheduleStart_keepsId : KeepsId checkScheduleStart := by
  refine KeepsId.of fun s t => ?_
  unfold checkScheduleStart
  repeat' first
    | exact OkId.error
    | exact OkId.ok rfl
    | (refine OkId.andThen fun _ _ _ => ?_)
    | split
    | dsimp only

theorem execMoveScheduleStart_touch (f : Func) (r : Fin 64) (s : State) : TouchNext 0x349ffffffe s (execMoveScheduleStart f r s) := by
  unfold execMoveScheduleStart
  repeat' first
    | with_reducible exact Touch.refl _
    | (with_reducible apply Touch.step (checkScheduleStart_touch ..)); exact rfl
    | (with_reducible apply Touch.step (beginMove_touch (m := 0x349ffffffe) rfl ?_ (by first | exact checkRange_keepsId | exact checkCompress_keepsId | exact checkPlain_keepsId | exact checkStageLoad_keepsId | exact checkScheduleStart_keepsId) ?_)); exact rfl
    | (with_reducible apply Touch.step (runScheduleStart_touch ..)); exact rfl
    | with_reducible apply TouchNext.next
    | intro _

theorem execMoveScheduleStop_touch (f : Func) (r : Fin 64) (s : State) : TouchNext 0x349ffffffe s (execMoveScheduleStop f r s) := by
  unfold execMoveScheduleStop
  repeat' first
    | with_reducible exact Touch.refl _
    | (with_reducible apply Touch.step (endSched_touch ..)); exact rfl
    | (with_reducible apply Touch.step (moveDone_touch ..)); exact rfl
    | (with_reducible apply Touch.step (checkPlain_touch ..)); exact rfl
    | (with_reducible apply Touch.step (beginMove_touch (m := 0x349ffffffe) rfl ?_ (by first | exact checkRange_keepsId | exact checkCompress_keepsId | exact checkPlain_keepsId | exact checkStageLoad_keepsId | exact checkScheduleStart_keepsId) ?_)); exact rfl
    | with_reducible apply TouchNext.next
    | intro _

end Sys2Proof.Machine
end

