-- ==== Sys2Proof/Laws/TouchTiers.lean ====
section
/-!
SUPPORT. What the operations of Tiers may change.
-/

namespace Sys2Proof.Machine

theorem windowMiss_touch (s : State) (p : Nat) (va : Nat) (write : Bool) (id : Nat) (x : Xlat) : Touch 0x801c0014 s (windowMiss s p va write id x) := by
  unfold windowMiss
  repeat' first
    | with_reducible exact Touch.refl _
    | (with_reducible apply Touch.step (modFrame_touch ..)); exact rfl
    | (with_reducible apply Touch.step (assignFrame_touch ..)); exact rfl
    | (with_reducible apply Touch.step (takeDemand_touch (by assumption))); exact rfl
    | (with_reducible apply Touch.step (addCtr_touch_mem ..)); exact rfl
    | with_reducible apply Touch.ite
    | split
    | dsimp only
    | intro _

theorem execWindowedAccessMiss_touch (part : Fin 16) (va : BitVec 48) (write : Bool) (id : Nat) (s : State) : TouchNext 0x801c0014 s (execWindowedAccessMiss part va write id s) := by
  unfold execWindowedAccessMiss
  repeat' first
    | with_reducible exact Touch.refl _
    | (with_reducible apply Touch.step (windowMiss_touch ..)); exact rfl
    | with_reducible apply TouchNext.next
    | with_reducible apply Touch.ite
    | split
    | intro _

theorem fillDone_touch (s : State) (t : Tile) (n : Nat) : Touch 0x10 s (fillDone s t n) := by
  unfold fillDone
  repeat' first
    | with_reducible exact Touch.refl _
    | (with_reducible apply Touch.step (modFrame_touch ..)); exact rfl

theorem failWaiters_touch (s : State) (ids : List Nat) (cause : Nat) (addr : Nat) : Touch 0x801c0100 s (failWaiters s ids cause addr) := by
  unfold failWaiters
  repeat' first
    | with_reducible exact Touch.refl _
    | (with_reducible apply Touch.step (stopTask_touch ..)); exact rfl
    | with_reducible apply Touch.foldl
    | intro _

theorem failFill_touch (s : State) (t : Tile) (n : Nat) (fr : Frame) (src : FailSrc) (e : AccErr) : Touch 0x349ffffdfe s (failFill s t n fr src e) := by
  unfold failFill
  repeat' first
    | with_reducible exact Touch.refl _
    | (with_reducible apply Touch.step (failAcc_touch ..)); exact rfl
    | (with_reducible apply Touch.step (freeFrame_touch ..)); exact rfl
    | (with_reducible apply Touch.step (failWaiters_touch ..)); exact rfl

theorem execDemandFillComplete_touch (t : Tile) (frame : Fin 1600) (s : State) : TouchNext 0x349ffffdfe s (execDemandFillComplete t frame s) := by
  unfold execDemandFillComplete
  repeat' first
    | with_reducible exact Touch.refl _
    | (with_reducible apply Touch.step (fillDone_touch ..)); exact rfl
    | (with_reducible apply Touch.step (failFill_touch ..)); exact rfl
    | with_reducible apply TouchNext.next
    | with_reducible apply Touch.ite
    | split
    | intro _

theorem execDecompressComplete_touch (t : Tile) (part : Fin 16) (va : BitVec 48) (s : State) : TouchNext 0x349ffffdfe s (execDecompressComplete t part va s) := by
  unfold execDecompressComplete
  repeat' first
    | with_reducible exact Touch.refl _
    | (with_reducible apply Touch.step (orWait_touch (m := 0x349ffffdfe) rfl ?_)); exact rfl
    | (with_reducible apply Touch.step (placePage_touch ..)); exact rfl
    | (with_reducible apply Touch.step (fillDone_touch ..)); exact rfl
    | (with_reducible apply Touch.step (failFill_touch ..)); exact rfl
    | with_reducible apply TouchNext.next
    | with_reducible apply Touch.ite
    | split
    | dsimp only
    | intro _

theorem failLoad_touch (s : State) (t : Tile) (p : Nat) (frame : Nat) : Touch 0x801c0010 s (failLoad s t p frame) := by
  unfold failLoad
  repeat' first
    | with_reducible exact Touch.refl _
    | (with_reducible apply Touch.step (raise_touch ..)); exact rfl
    | (with_reducible apply Touch.step (freeFrame_touch ..)); exact rfl
    | split

theorem makerFails_touch (s : State) (pa : Nat) (m : Maker) (cause : Nat) : Touch 0x3cbffffdfe s (makerFails s pa m cause) := by
  unfold makerFails
  repeat' first
    | with_reducible exact Touch.refl _
    | (with_reducible apply Touch.step (freeChoice_touch ..)); exact rfl
    | (with_reducible apply Touch.step (storePa_touch ..)); exact rfl
    | (with_reducible apply Touch.step (memFailure_touch ..)); exact rfl
    | (with_reducible apply Touch.step (stopTask_touch ..)); exact rfl
    | (with_reducible apply Touch.step (failFill_touch ..)); exact rfl
    | (with_reducible apply Touch.step (failLoad_touch ..)); exact rfl
    | (with_reducible apply Touch.step (addCtr_touch_mem ..)); exact rfl
    | with_reducible apply Touch.ite
    | split
    | dsimp only
    | intro _
    | (with_reducible apply Touch.step (touch_readPoison ..)); exact rfl

theorem execStackedAccessLate_touch (pa : BitVec 48) (m : Maker) (s : State) : TouchNext 0x3cbffffdfe s (execStackedAccessLate pa m s) := by
  unfold execStackedAccessLate
  repeat' first
    | with_reducible exact Touch.refl _
    | (with_reducible apply Touch.step (makerFails_touch ..)); exact rfl
    | (with_reducible apply Touch.step (addCtr_touch_mem ..)); exact rfl
    | with_reducible apply TouchNext.next
    | with_reducible apply TouchNext.ite
    | split
    | dsimp only
    | intro _

theorem execUncorrectableRead_touch (pa : BitVec 48) (m : Maker) (s : State) : TouchNext 0x3cbffffdfe s (execUncorrectableRead pa m s) := by
  unfold execUncorrectableRead
  repeat' first
    | with_reducible exact Touch.refl _
    | (with_reducible apply Touch.step (makerFails_touch ..)); exact rfl
    | with_reducible apply TouchNext.next
    | with_reducible apply TouchNext.ite
    | intro _

theorem execWriteBackStuck_touch (t : Tile) (frame : Fin 1600) (pc : Fin 512) (s : State) : TouchNext 0x349ffffdfe s (execWriteBackStuck t frame pc s) := by
  unfold execWriteBackStuck
  repeat' first
    | with_reducible exact Touch.refl _
    | (with_reducible apply Touch.step (raise_touch ..)); exact rfl
    | (with_reducible apply Touch.step (failPseudoChannel_touch ..)); exact rfl
    | (with_reducible apply Touch.step (modFrame_touch ..)); exact rfl
    | with_reducible apply TouchNext.next
    | with_reducible apply TouchNext.ite
    | split
    | dsimp only
    | intro _

theorem execScheduleNextLoad_touch (t : Tile) (part : Fin 16) (s : State) : TouchNext 0x349ffffdfe s (execScheduleNextLoad t part s) := by
  unfold execScheduleNextLoad
  repeat' first
    | with_reducible exact Touch.refl _
    | (with_reducible apply Touch.step (orWait_touch (m := 0x349ffffdfe) rfl ?_)); exact rfl
    | (with_reducible apply Touch.step (scheduleStep_touch ..)); exact rfl
    | with_reducible apply TouchNext.next
    | intro _

theorem setRead_touch (s : State) (bs : List Byte) (poison : Bool) : Touch 0x20000000 s (setRead s bs poison) := by
  unfold setRead
  repeat' first
    | with_reducible exact Touch.refl _
    | (with_reducible apply Touch.step (touch_readData_readPoison ..)); exact rfl

theorem useFrame_touch (s : State) (pa : Nat) : Touch 0x10 s (useFrame s pa) := by
  unfold useFrame
  repeat' first
    | with_reducible exact Touch.refl _
    | (with_reducible apply Touch.step (State_modMem_touch ..)); exact rfl
    | with_reducible apply Touch.ite
    | dsimp only
    | intro _

theorem hostReadPiece_touch (s : State) (pa : Nat) (n : Nat) : Touch 0x349ffffdfe s (hostReadPiece s pa n).1 := by
  unfold hostReadPiece
  repeat' first
    | with_reducible exact Touch.refl _
    | (with_reducible apply Touch.step (wakeStacks_touch ..)); exact rfl
    | (with_reducible apply Touch.step (memFailure_touch ..)); exact rfl
    | (with_reducible apply Touch.step (useFrame_touch ..)); exact rfl
    | with_reducible apply Touch.ite_fst
    | split
    | dsimp only
    | intro _
    | (with_reducible apply Touch.step (touch_heldAt ..)); exact rfl

theorem hostStore_touch (s : State) (pa : Nat) (bs : List Byte) : Touch 0x3408000016 s (hostStore s pa bs) := by
  unfold hostStore
  repeat' first
    | with_reducible exact Touch.refl _
    | (with_reducible apply Touch.step (storePa_touch ..)); exact rfl
    | (with_reducible apply Touch.step (useFrame_touch ..)); exact rfl
    | split
    | (with_reducible apply Touch.step (touch_heldAt ..)); exact rfl

theorem hostWritePiece_touch (s : State) (pa : Nat) (bs : List Byte) : Touch 0x34881e0016 s (hostWritePiece s pa bs) := by
  unfold hostWritePiece
  repeat' first
    | with_reducible exact Touch.refl _
    | (with_reducible apply Touch.step (hostStore_touch ..)); exact rfl
    | (with_reducible apply Touch.step (addCtr_touch_lnk ..)); exact rfl
    | with_reducible apply Touch.ite
    | split
    | intro _

theorem hostReadPieces_touch (a0 : List (Nat × Nat)) (a1 : State) : Touch 0x349ffffdfe a1 (hostReadPieces a0 a1).1 := by
  induction a0 generalizing a1 with
  | nil => unfold hostReadPieces; exact Touch.refl _
  | cons _ _ ih =>
    unfold hostReadPieces
    repeat' first
      | (with_reducible apply Touch.step (ih ..)); exact rfl
      | with_reducible exact Touch.refl _
      | assumption
      | (with_reducible apply Touch.step (hostReadPiece_touch ..)); exact rfl
      | with_reducible apply Touch.ite
      | with_reducible apply Touch.ite_fst
      | with_reducible apply Touch.foldl
      | with_reducible apply Touch.foldl_fst
      | with_reducible refine Touch.fst (by assumption) ?_
      | with_reducible refine Touch.snd (by assumption) ?_
      | split
      | dsimp only
      | intro _

theorem hostWritePieces_touch (pa : Nat) (d : List Byte) (ps : List (Nat × Nat)) (s : State) : Touch 0x34881e0016 s (hostWritePieces pa d ps s) := by
  unfold hostWritePieces
  repeat' first
    | with_reducible exact Touch.refl _
    | (with_reducible apply Touch.step (hostWritePiece_touch ..)); exact rfl
    | with_reducible apply Touch.foldl
    | intro _

theorem execHostCxlMemAccess_touch (dpa : BitVec 41) (len : Fin 65) (write : Option (List Byte)) (s : State) : TouchNext 0x34bffffdfe s (execHostCxlMemAccess dpa len write s) := by
  unfold execHostCxlMemAccess
  repeat' first
    | with_reducible exact Touch.refl _
    | (with_reducible apply Touch.step (orWait_touch (m := 0x34bffffdfe) rfl ?_)); exact rfl
    | (with_reducible apply Touch.step (setRead_touch ..)); exact rfl
    | (with_reducible apply Touch.step (hostReadPieces_touch ..)); exact rfl
    | (with_reducible apply Touch.step (hostWritePieces_touch ..)); exact rfl
    | with_reducible apply TouchNext.next
    | with_reducible apply TouchNext.ite
    | split
    | dsimp only
    | intro _

theorem winFault_touch (s : State) (f : Func) : Touch 0x100000 s (winFault s f) := by
  unfold winFault
  repeat' first
    | with_reducible exact Touch.refl _
    | (with_reducible apply Touch.step (State_modPage_touch ..)); exact rfl

theorem failWindow_touch (s : State) (f : Func) (e : AccErr) : Touch 0x349ffffdfe s (failWindow s f e) := by
  unfold failWindow
  repeat' first
    | with_reducible exact Touch.refl _
    | (with_reducible apply Touch.step (failAcc_touch ..)); exact rfl
    | (with_reducible apply Touch.step (winFault_touch ..)); exact rfl
    | with_reducible apply Touch.ite
    | intro _

theorem windowReadPieces_touch (c : Ctx) (f : Func) (a2 : List (Nat × Nat)) (a3 : State) : Touch 0x349ffffdfe a3 (windowReadPieces c f a2 a3).1 := by
  induction a2 generalizing c f a3 with
  | nil => unfold windowReadPieces; exact Touch.refl _
  | cons _ _ ih =>
    unfold windowReadPieces
    repeat' first
      | (with_reducible apply Touch.step (ih ..)); exact rfl
      | with_reducible exact Touch.refl _
      | assumption
      | (with_reducible apply Touch.step (loadPiece_touch ..)); exact rfl
      | (with_reducible apply Touch.step (failWindow_touch ..)); exact rfl
      | with_reducible apply Touch.ite
      | with_reducible apply Touch.ite_fst
      | with_reducible apply Touch.foldl
      | with_reducible apply Touch.foldl_fst
      | with_reducible refine Touch.fst (by assumption) ?_
      | with_reducible refine Touch.snd (by assumption) ?_
      | split
      | dsimp only
      | intro _

theorem windowWritePieces_touch (c : Ctx) (f : Func) (va : Nat) (d : List Byte) (ps : List (Nat × Nat)) (s : State) : Touch 0x349ffffdfe s (windowWritePieces c f va d ps s) := by
  unfold windowWritePieces
  repeat' first
    | with_reducible exact Touch.refl _
    | assumption
    | (with_reducible apply Touch.step (savePieces_touch ..)); exact rfl
    | (with_reducible apply Touch.step (failWindow_touch ..)); exact rfl
    | (with_reducible apply Touch.step (addCtr_touch_lnk ..)); exact rfl
    | with_reducible apply Touch.foldl
    | with_reducible refine Touch.fst (by assumption) ?_
    | split
    | intro _

theorem execPartitionWindowAccess_touch (part : Fin 16) (offset : BitVec 36) (len : Fin 65) (write : Option (List Byte)) (s : State) : TouchNext 0x34bffffdfe s (execPartitionWindowAccess part offset len write s) := by
  unfold execPartitionWindowAccess
  repeat' first
    | with_reducible exact Touch.refl _
    | (with_reducible apply Touch.step (orWait_touch (m := 0x34bffffdfe) rfl ?_)); exact rfl
    | (with_reducible apply Touch.step (setRead_touch ..)); exact rfl
    | (with_reducible apply Touch.step (windowReadPieces_touch ..)); exact rfl
    | (with_reducible apply Touch.step (windowWritePieces_touch ..)); exact rfl
    | with_reducible apply TouchNext.next
    | with_reducible apply TouchNext.ite
    | split
    | dsimp only
    | intro _

end Sys2Proof.Machine
end

