-- ==== Sys2Proof/Laws/TouchScratch.lean ====
section
/-!
SUPPORT. What the operations of Scratch may change.
-/

namespace Sys2Proof.Machine

theorem noteIntrusion_touch (s : State) (i : Nat) (bank : Nat) (row : Nat) (cls : Nat) (n : Nat) (write : Bool) (sameRow : Bool) : Touch 0x801c0008 s (noteIntrusion s i bank row cls n write sameRow) := by
  unfold noteIntrusion
  repeat' first
    | with_reducible exact Touch.refl _
    | (with_reducible apply Touch.step (State_modSch_touch ..)); exact rfl
    | (with_reducible apply Touch.step (addCtr_touch_sch ..)); exact rfl
    | with_reducible apply Touch.ite
    | dsimp only
    | intro _

theorem settleIntrusion_touch (s : State) (id : Nat) (i : Nat) : Touch 0x801c0100 s (settleIntrusion s id i) := by
  unfold settleIntrusion
  repeat' first
    | with_reducible exact Touch.refl _
    | exact fun _ h => h
    | (with_reducible apply Touch.step (State_modTask_touch ..)); exact rfl
    | (with_reducible apply Touch.step (stopTask_touch ..)); exact rfl
    | with_reducible apply Touch.ite
    | split
    | intro _

theorem portAccess1_touch (s : State) (i : Nat) (c : PortClass) (write : Bool) (r : Nat × Nat) : Touch 0x801c0008 s (portAccess1 s i c write r).1 := by
  unfold portAccess1
  repeat' first
    | with_reducible exact Touch.refl _
    | assumption
    | (with_reducible apply Touch.step (noteIntrusion_touch ..)); exact rfl
    | with_reducible apply Touch.foldl_fst
    | split
    | dsimp only
    | intro _

theorem portAccess_touch (s : State) (i : Nat) (c : PortClass) (write : Bool) (rs : List (Nat × Nat)) : Touch 0x801c0008 s (portAccess s i c write rs).1 := by
  unfold portAccess
  repeat' first
    | with_reducible exact Touch.refl _
    | (with_reducible apply Touch.step (portAccess1_touch ..)); exact rfl
    | with_reducible apply Touch.foldl_fst
    | dsimp only
    | intro _

theorem netWrite_touch (s : State) (i : Nat) (off : Nat) (bs : List Byte) : Touch 0x20801c000c s (netWrite s i off bs).1 := by
  unfold netWrite
  repeat' first
    | with_reducible exact Touch.refl _
    | (with_reducible apply Touch.step (writeWindow_touch ..)); exact rfl
    | (with_reducible apply Touch.step (closeTransfers_touch ..)); exact rfl
    | (with_reducible apply Touch.step (portAccess1_touch ..)); exact rfl

theorem reserveStaging_touch (s : State) (t : Tile) (part : Nat) (id : Nat) (n : Nat) : Touch 0x10 s (reserveStaging s t part id n) := by
  unfold reserveStaging
  repeat' first
    | with_reducible exact Touch.refl _
    | assumption
    | (with_reducible apply Touch.step (assignFrame_touch ..)); exact rfl
    | with_reducible apply Touch.foldl
    | split
    | intro _

theorem stageBytes_touch (s : State) (t : Tile) (frames : List Nat) (bs : List Byte) : Touch 0x1000000004 s (stageBytes s t frames bs) := by
  unfold stageBytes
  repeat' first
    | with_reducible exact Touch.refl _
    | (with_reducible apply Touch.step (writeFrame_touch ..)); exact rfl
    | with_reducible apply Touch.foldl
    | intro _

theorem enterPhase_touch (s : State) (id : Nat) (rank : Nat) (phase : Nat) : Touch 0x200000010c s (enterPhase s id rank phase) := by
  unfold enterPhase
  repeat' first
    | with_reducible exact Touch.refl _
    | (with_reducible apply Touch.step (handOver_touch ..)); exact rfl
    | exact fun _ h => h
    | (with_reducible apply Touch.step (State_modTask_touch ..)); exact rfl
    | split

theorem storeRow_touch (s : State) (i : Nat) (off : Nat) (a3 : RowAccess) : Touch 0x2000000004 s (storeRow s i off a3) := by
  unfold storeRow
  repeat' first
    | with_reducible exact Touch.refl _
    | (with_reducible apply Touch.step (writeWindow_touch ..)); exact rfl
    | split

theorem performIntrusion_touch (s : State) (i : Nat) (x : Intrusion) : Touch 0x2020000004 s (performIntrusion s i x) := by
  unfold performIntrusion
  repeat' first
    | with_reducible exact Touch.refl _
    | (with_reducible apply Touch.step (storeRow_touch ..)); exact rfl
    | with_reducible apply Touch.ite
    | intro _
    | (with_reducible apply Touch.step (touch_portData ..)); exact rfl

theorem execIntrudingAccessForced_touch (x : Intrusion) (s : State) : TouchNext 0x20a01c010c s (execIntrudingAccessForced x s) := by
  unfold execIntrudingAccessForced
  repeat' first
    | with_reducible exact Touch.refl _
    | (with_reducible apply Touch.step (stopTask_touch ..)); exact rfl
    | (with_reducible apply Touch.step (noteIntrusion_touch ..)); exact rfl
    | (with_reducible apply Touch.step (settleIntrusion_touch ..)); exact rfl
    | (with_reducible apply Touch.step (performIntrusion_touch ..)); exact rfl
    | with_reducible apply TouchNext.next
    | with_reducible apply Touch.ite
    | split
    | dsimp only
    | intro _

end Sys2Proof.Machine
end

