-- ==== Sys2Proof/Laws/TouchLoop.lean ====
section
/-!
SUPPORT. What the operations of Loop may change.
-/

namespace Sys2Proof.Machine

theorem captureShape_touch (s : State) (t : Task) (level : Nat) (bucket : Nat) (rt : Nat) (plan : Nat) : Touch 0x8 s (captureShape s t level bucket rt plan) := by
  unfold captureShape
  repeat' first
    | with_reducible exact Touch.refl _
    | (with_reducible apply Touch.step (State_modSch_touch ..)); exact rfl
    | with_reducible apply Touch.ite
    | intro _

theorem loopCapacity_touch (s : State) (t : Task) (d : LoopBody) : Touch 0x8 s (loopCapacity s t d).1 := by
  unfold loopCapacity
  repeat' first
    | with_reducible exact Touch.refl _
    | (with_reducible apply Touch.step (captureShape_touch ..)); exact rfl
    | with_reducible apply Touch.ite_fst
    | split
    | dsimp only
    | intro _

theorem loopChecks_touch (s : State) (t : Task) (body : List Byte) : Touch 0x8 s (loopChecks s t body).1 := by
  unfold loopChecks
  repeat' first
    | with_reducible exact Touch.refl _
    | (with_reducible apply Touch.step (loopCapacity_touch ..)); exact rfl
    | with_reducible apply Touch.ite_fst
    | split
    | dsimp only
    | intro _

theorem countLoop_touch (s : State) (t : Task) (d : LoopBody) (i : Nat) : Touch 0x801c0008 s (countLoop s t d i) := by
  unfold countLoop
  repeat' first
    | with_reducible exact Touch.refl _
    | (with_reducible apply Touch.step (addCtr_touch_sch ..)); exact rfl
    | with_reducible apply Touch.ite
    | split
    | intro _

theorem fetchBodyPlan_touch (s : State) (t : Task) (n : Nat) (phases : List Byte → List Nat × List Nat) : Touch 0x10881c0014 s (fetchBodyPlan s t n phases).1 := by
  unfold fetchBodyPlan
  repeat' first
    | with_reducible exact Touch.refl _
    | assumption
    | with_reducible refine andThen_touch ?_ (fun _ _ _ => ?_)
    | (with_reducible apply Touch.step (fetch5_touch ..)); exact rfl

theorem checkLoop_touch (a0 : State) (a1 : Task) : Touch 0x10881c001c a0 (checkLoop a0 a1).1 := by
  unfold checkLoop
  repeat' first
    | with_reducible exact Touch.refl _
    | assumption
    | with_reducible refine andThen_touch ?_ (fun _ _ _ => ?_)
    | (with_reducible apply Touch.step (loopChecks_touch ..)); exact rfl
    | (with_reducible apply Touch.step (countLoop_touch ..)); exact rfl
    | (with_reducible apply Touch.step (fetchBodyPlan_touch ..)); exact rfl

theorem fetchBodyPlan_id {s : State} {t : Task} {n : Nat} {ph : List Byte → List Nat × List Nat} : OkId t.id (fetchBodyPlan s t n ph) := by
  unfold fetchBodyPlan
  repeat' first
    | exact OkId.error
    | exact OkId.ok rfl
    | (refine OkId.andThen fun _ _ _ => ?_)
    | split
    | dsimp only

theorem checkLoop_keepsId : KeepsId checkLoop := by
  refine KeepsId.of fun s t => ?_
  unfold checkLoop
  repeat' first
    | exact OkId.error
    | exact OkId.ok rfl
    | (have hid := fetchBodyPlan_id.some ‹fetchBodyPlan _ _ _ _ = (_, .ok _)›; exact OkId.ok hid)
    | (refine OkId.andThen fun _ _ _ => ?_)
    | split
    | dsimp only

theorem execLoopTask_touch (f : Func) (r : Fin 64) (s : State) : TouchNext 0x349ffffffe s (execLoopTask f r s) := by
  unfold execLoopTask
  repeat' first
    | with_reducible exact Touch.refl _
    | (with_reducible apply Touch.step (beginTask_touch (m := 0x349ffffffe) rfl ?_ (by first | exact checkLoop_keepsId | exact checkChain_keepsId | exact checkStage_keepsId | exact checkColl_keepsId | exact checkCat_keepsId))); exact rfl
    | (with_reducible apply Touch.step (checkLoop_touch ..)); exact rfl
    | with_reducible apply TouchNext.next
    | intro _

end Sys2Proof.Machine
end

