-- ==== Sys2Proof/Laws/TouchWalk.lean ====
section
/-!
SUPPORT. What the operations of Walk may change.
-/

namespace Sys2Proof.Machine

theorem readView_touch (s : State) (c : Ctx) (d : LoopBody) (k : Bucket) : Touch 0x3808000016 s (readView s c d k) := by
  unfold readView
  repeat' first
    | with_reducible exact Touch.refl _
    | (with_reducible apply Touch.step (scribbleRanges_touch ..)); exact rfl

theorem loadTile_touch (s : State) (v : WalkEnv) (o : Opnd) (x : TileAt) : Touch 0x18881c0014 s (loadTile s v o x).1 := by
  unfold loadTile
  repeat' first
    | with_reducible exact Touch.refl _
    | assumption
    | with_reducible refine andThen_touch ?_ (fun _ _ _ => ?_)
    | (with_reducible apply Touch.step (touchRanges_touch ..)); exact rfl
    | dsimp only
    | (with_reducible apply Touch.step (touch_freeCtr ..)); exact rfl

theorem openTile_touch (s : State) (i : Nat) (id : Nat) (write : Bool) (n : Nat) (off : Nat) (bs : List Byte) (late : Bool) : Touch 0x200000000c s (openTile s i id write n off bs late) := by
  unfold openTile
  repeat' first
    | with_reducible exact Touch.refl _
    | (with_reducible apply Touch.step (openTransfer_touch ..)); exact rfl
    | with_reducible apply Touch.foldl
    | intro _

theorem fillBuffer_touch (s : State) (i : Nat) (id : Nat) (o : Opnd) (q : Nat) (n : Nat) (bs : List Byte) : Touch 0x20801c000c s (fillBuffer s i id o q n bs).1 := by
  unfold fillBuffer
  repeat' first
    | with_reducible exact Touch.refl _
    | (with_reducible apply Touch.step (portAccess1_touch ..)); exact rfl
    | (with_reducible apply Touch.step (openTile_touch ..)); exact rfl

theorem fillOperand_touch (s : State) (v : WalkEnv) (o : Opnd) (x : TileAt) (q : Nat) : Touch 0x38881c001c s (fillOperand s v o x q).1 := by
  unfold fillOperand
  repeat' first
    | with_reducible exact Touch.refl _
    | assumption
    | with_reducible refine andThen_touch ?_ (fun _ _ _ => ?_)
    | (with_reducible apply Touch.step (loadTile_touch ..)); exact rfl
    | (with_reducible apply Touch.step (fillBuffer_touch ..)); exact rfl

theorem fillStep_touch (s : State) (v : WalkEnv) (w : CoreWalk) (step : Nat) (a4 : List Bool) : Touch 0x38881c001c s (fillStep s v w step a4).1 := by
  induction a4 generalizing s v w step with
  | nil => unfold fillStep; exact Touch.refl _
  | cons _ _ ih =>
    unfold fillStep
    repeat' first
      | (with_reducible apply Touch.step (ih ..)); exact rfl
      | with_reducible exact Touch.refl _
      | assumption
      | with_reducible refine andThen_touch ?_ (fun _ _ _ => ?_)
      | (with_reducible apply Touch.step (fillOperand_touch ..)); exact rfl
      | with_reducible apply Touch.ite
      | with_reducible apply Touch.ite_fst
      | with_reducible apply Touch.foldl
      | with_reducible apply Touch.foldl_fst
      | with_reducible refine Touch.fst (by assumption) ?_
      | with_reducible refine Touch.snd (by assumption) ?_
      | split
      | dsimp only
      | intro _

theorem readOperand_touch (s : State) (v : WalkEnv) (o : Opnd) (x : TileAt) (q : Nat) : Touch 0x20801c000c s (readOperand s v o x q).1 := by
  unfold readOperand
  repeat' first
    | with_reducible exact Touch.refl _
    | (with_reducible apply Touch.step (awaitBanks_touch ..)); exact rfl
    | (with_reducible apply Touch.step (readScaleRow_touch ..)); exact rfl
    | (with_reducible apply Touch.step (portAccess1_touch ..)); exact rfl
    | with_reducible apply Touch.ite
    | intro _

theorem writeAccTile_touch (s : State) (i : Nat) (base : Nat) (rows : List (List Word32)) : Touch 0x2000000004 s (writeAccTile s i base rows) := by
  unfold writeAccTile
  repeat' first
    | with_reducible exact Touch.refl _
    | (with_reducible apply Touch.step (writeAccBlock_touch ..)); exact rfl
    | with_reducible apply Touch.foldl
    | intro _

theorem awaitAcc_touch (s : State) (i : Nat) (base : Nat) (n : Nat) : Touch 0x200000000c s (awaitAcc s i base n) := by
  unfold awaitAcc
  repeat' first
    | with_reducible exact Touch.refl _
    | (with_reducible apply Touch.step (closeTransfers_touch ..)); exact rfl

theorem stepEngine_touch (s : State) (v : WalkEnv) (w : CoreWalk) : Touch 0x20801c000c s (stepEngine s v w).1 := by
  unfold stepEngine
  repeat' first
    | with_reducible exact Touch.refl _
    | (with_reducible apply Touch.step (holdRegions_touch ..)); exact rfl
    | (with_reducible apply Touch.step (readOperand_touch ..)); exact rfl
    | (with_reducible apply Touch.step (writeAccTile_touch ..)); exact rfl
    | (with_reducible apply Touch.step (awaitAcc_touch ..)); exact rfl

theorem stepVector_touch (s : State) (v : WalkEnv) (w : CoreWalk) : Touch 0x20801c000c s (stepVector s v w).1 := by
  unfold stepVector
  repeat' first
    | with_reducible exact Touch.refl _
    | (with_reducible apply Touch.step (readOperand_touch ..)); exact rfl

theorem stepWork_touch (s : State) (v : WalkEnv) (w : CoreWalk) : Touch 0x20801c000c s (stepWork s v w).1 := by
  unfold stepWork
  repeat' first
    | with_reducible exact Touch.refl _
    | (with_reducible apply Touch.step (holdRegions_touch ..)); exact rfl
    | (with_reducible apply Touch.step (stepEngine_touch ..)); exact rfl
    | (with_reducible apply Touch.step (stepVector_touch ..)); exact rfl
    | with_reducible apply Touch.ite_fst
    | split
    | dsimp only
    | intro _

theorem outRow_touch (s : State) (v : WalkEnv) (idx : List Nat) (i : Nat) (row : List Word32) : Touch 0x10881c0014 s (outRow s v idx i row).1 := by
  unfold outRow
  repeat' first
    | with_reducible exact Touch.refl _
    | assumption
    | with_reducible refine andThen_touch ?_ (fun _ _ _ => ?_)
    | (with_reducible apply Touch.step (loadWords_touch ..)); exact rfl
    | with_reducible apply Touch.ite_fst
    | split
    | dsimp only
    | intro _

theorem outRows_touch (s : State) (v : WalkEnv) (idx : List Nat) (a3 : Nat) (a4 : List (List Word32)) : Touch 0x10881c0014 s (outRows s v idx a3 a4).1 := by
  induction a4 generalizing s v idx a3 with
  | nil => unfold outRows; exact Touch.refl _
  | cons _ _ ih =>
    unfold outRows
    repeat' first
      | (with_reducible apply Touch.step (ih ..)); exact rfl
      | with_reducible exact Touch.refl _
      | assumption
      | with_reducible refine andThen_touch ?_ (fun _ _ _ => ?_)
      | (with_reducible apply Touch.step (outRow_touch ..)); exact rfl
      | with_reducible apply Touch.ite
      | with_reducible apply Touch.ite_fst
      | with_reducible apply Touch.foldl
      | with_reducible apply Touch.foldl_fst
      | with_reducible refine Touch.fst (by assumption) ?_
      | with_reducible refine Touch.snd (by assumption) ?_
      | split
      | dsimp only
      | intro _

theorem stepEpilogue_touch (s : State) (v : WalkEnv) (w : CoreWalk) : Touch 0x30881c001c s (stepEpilogue s v w).1 := by
  unfold stepEpilogue
  repeat' first
    | with_reducible exact Touch.refl _
    | assumption
    | with_reducible refine andThen_touch ?_ (fun _ _ _ => ?_)
    | (with_reducible apply Touch.step (writeWindow_touch ..)); exact rfl
    | (with_reducible apply Touch.step (portAccess1_touch ..)); exact rfl
    | (with_reducible apply Touch.step (awaitAcc_touch ..)); exact rfl
    | (with_reducible apply Touch.step (outRows_touch ..)); exact rfl
    | with_reducible apply Touch.ite
    | split
    | intro _

theorem stepWrite_touch (s : State) (v : WalkEnv) (w : CoreWalk) : Touch 0x30881c001e s (stepWrite s v w).1 := by
  unfold stepWrite
  repeat' first
    | with_reducible exact Touch.refl _
    | (with_reducible apply Touch.step (writeRuns_touch ..)); exact rfl
    | (with_reducible apply Touch.step (portAccess1_touch ..)); exact rfl
    | (with_reducible apply Touch.step (openTile_touch ..)); exact rfl
    | with_reducible refine Touch.fst (by assumption) ?_
    | split
    | dsimp only

theorem walkStep_touch (s : State) (v : WalkEnv) (w : CoreWalk) : Touch 0x38881c001e s (walkStep s v w).1 := by
  unfold walkStep
  repeat' first
    | with_reducible exact Touch.refl _
    | assumption
    | with_reducible refine andThen_touch ?_ (fun _ _ _ => ?_)
    | (with_reducible apply Touch.step (fillStep_touch ..)); exact rfl
    | (with_reducible apply Touch.step (stepWork_touch ..)); exact rfl
    | (with_reducible apply Touch.step (stepEpilogue_touch ..)); exact rfl
    | (with_reducible apply Touch.step (stepWrite_touch ..)); exact rfl
    | with_reducible apply Touch.ite_fst
    | dsimp only
    | intro _

theorem enterStep_touch (s : State) (v : WalkEnv) (w : CoreWalk) : Touch 0x200000010c s (enterStep s v w) := by
  unfold enterStep
  repeat' first
    | with_reducible exact Touch.refl _
    | (with_reducible apply Touch.step (closeCore_touch ..)); exact rfl
    | (with_reducible apply Touch.step (enterPhase_touch ..)); exact rfl

theorem noteStep_touch (s : State) (id : Nat) (core : Nat) (fl : AFlags) (broke : Bool) : Touch 0x801c0100 s (noteStep s id core fl broke) := by
  unfold noteStep
  repeat' first
    | with_reducible exact Touch.refl _
    | exact fun _ h => h
    | (with_reducible apply Touch.step (State_modTask_touch ..)); exact rfl
    | (with_reducible apply Touch.step (settleIntrusion_touch ..)); exact rfl
    | with_reducible apply Touch.ite
    | intro _

theorem fillFirst_touch (s : State) (v : WalkEnv) (w : CoreWalk) (b : Bool) : Touch 0x38881c001c s (fillFirst s v w b).1 := by
  unfold fillFirst
  repeat' first
    | with_reducible exact Touch.refl _
    | assumption
    | with_reducible refine andThen_touch ?_ (fun _ _ _ => ?_)
    | (with_reducible apply Touch.step (fillStep_touch ..)); exact rfl
    | with_reducible apply Touch.ite_fst
    | dsimp only
    | intro _

end Sys2Proof.Machine
end

