-- ==== Sys2Proof/Laws/TouchCars.lean ====
section
/-!
SUPPORT. What the operations of Cars may change.
-/

namespace Sys2Proof.Machine

theorem State_modCarSet_touch (s : State) (w : Wing) (k : CarSetKey) (f : CarSet → CarSet) : Touch 0x2000 s (State.modCarSet s w k f) := by
  unfold State.modCarSet
  repeat' first
    | with_reducible exact Touch.refl _
    | (with_reducible apply Touch.step (touch_carSets ..)); exact rfl

end Sys2Proof.Machine
end

