-- ==== Sys2Proof/Laws/TouchLink.lean ====
section
/-!
SUPPORT. What the operations of Link may change.
-/

namespace Sys2Proof.Machine

theorem State_modPort_touch (s : State) (w : Wing) (p : Nat) (f : Port → Port) : Touch 0x8000 s (State.modPort s w p f) := by
  unfold State.modPort
  repeat' first
    | with_reducible exact Touch.refl _
    | (with_reducible apply Touch.step (touch_ports ..)); exact rfl

theorem State_modLink_touch (s : State) (l : LinkEnd) (f : Link → Link) : Touch 0x18000 s (State.modLink s l f) := by
  unfold State.modLink
  repeat' first
    | with_reducible exact Touch.refl _
    | (with_reducible apply Touch.step (State_modPort_touch ..)); exact rfl
    | split
    | dsimp only
    | (with_reducible apply Touch.step (touch_cc ..)); exact rfl

theorem countLink_touch (s : State) (l : LinkEnd) (port : Nat) (cc : Nat) : Touch 0x801e0000 s (countLink s l port cc) := by
  unfold countLink
  repeat' first
    | with_reducible exact Touch.refl _
    | (with_reducible apply Touch.step (addCtr_touch_lnk ..)); exact rfl
    | split

theorem putImage_touch (s : State) (l : LinkEnd) (x : Flit) : Touch 0x2801e0000 s (putImage s l x) := by
  unfold putImage
  repeat' first
    | with_reducible exact Touch.refl _
    | (with_reducible apply Touch.step (countLink_touch ..)); exact rfl
    | (with_reducible apply Touch.step (touch_flitOut ..)); exact rfl

theorem putNew_touch (s : State) (l : LinkEnd) (x : Flit) : Touch 0x2801f8000 s (putNew s l x) := by
  unfold putNew
  repeat' first
    | with_reducible exact Touch.refl _
    | (with_reducible apply Touch.step (State_modLink_touch ..)); exact rfl
    | (with_reducible apply Touch.step (putImage_touch ..)); exact rfl

theorem putPlain_touch (s : State) (l : LinkEnd) (nak : Bool) (b : FlitBody) : Touch 0x2801f8000 s (putPlain s l nak b) := by
  unfold putPlain
  repeat' first
    | with_reducible exact Touch.refl _
    | (with_reducible apply Touch.step (putNew_touch ..)); exact rfl

theorem putIdle_touch (s : State) (l : LinkEnd) : Touch 0x2801f8000 s (putIdle s l) := by
  unfold putIdle
  repeat' first
    | with_reducible exact Touch.refl _
    | (with_reducible apply Touch.step (putPlain_touch ..)); exact rfl

theorem carLeft_touch (s : State) (w : Wing) (c : SentCar) : Touch 0x801c3000 s (carLeft s w c) := by
  unfold carLeft
  repeat' first
    | with_reducible exact Touch.refl _
    | (with_reducible apply Touch.step (State_modCarSet_touch ..)); exact rfl
    | (with_reducible apply Touch.step (addCtr_touch_tt ..)); exact rfl

theorem sendSequenced_touch (s : State) (l : LinkEnd) (b : FlitBody) : Touch 0x2801fb000 s (sendSequenced s l b) := by
  unfold sendSequenced
  repeat' first
    | with_reducible exact Touch.refl _
    | (with_reducible apply Touch.step (State_modLink_touch ..)); exact rfl
    | (with_reducible apply Touch.step (putNew_touch ..)); exact rfl
    | (with_reducible apply Touch.step (carLeft_touch ..)); exact rfl
    | with_reducible apply Touch.ite
    | split
    | intro _

theorem idleIfFull_touch (s : State) (l : LinkEnd) : Touch 0x2801f8000 s (idleIfFull s l) := by
  unfold idleIfFull
  repeat' first
    | with_reducible exact Touch.refl _
    | (with_reducible apply Touch.step (putIdle_touch ..)); exact rfl
    | with_reducible apply Touch.ite
    | intro _

theorem offerFlit_touch (s : State) (l : LinkEnd) (b : FlitBody) : Touch 0x2801fb000 s (offerFlit s l b) := by
  unfold offerFlit
  repeat' first
    | with_reducible exact Touch.refl _
    | (with_reducible apply Touch.step (State_modLink_touch ..)); exact rfl
    | (with_reducible apply Touch.step (sendSequenced_touch ..)); exact rfl
    | with_reducible apply Touch.ite
    | split
    | intro _

theorem sendFlit_touch (s : State) (l : LinkEnd) (b : FlitBody) : Touch 0x2801fb000 s (sendFlit s l b) := by
  unfold sendFlit
  repeat' first
    | with_reducible exact Touch.refl _
    | (with_reducible apply Touch.step (idleIfFull_touch ..)); exact rfl
    | (with_reducible apply Touch.step (offerFlit_touch ..)); exact rfl

theorem sendAnswers_touch (l : LinkEnd) (a1 : Nat) (a2 : State) : Touch 0x2801fb000 a2 (sendAnswers l a1 a2) := by
  induction a1 generalizing l a2 with
  | zero => unfold sendAnswers; exact Touch.refl _
  | succ _ ih =>
    unfold sendAnswers
    repeat' first
      | (with_reducible apply Touch.step (ih ..)); exact rfl
      | with_reducible exact Touch.refl _
      | assumption
      | (with_reducible apply Touch.step (sendSequenced_touch ..)); exact rfl
      | with_reducible apply Touch.ite
      | with_reducible apply Touch.ite_fst
      | with_reducible apply Touch.foldl
      | with_reducible apply Touch.foldl_fst
      | with_reducible refine Touch.fst (by assumption) ?_
      | with_reducible refine Touch.snd (by assumption) ?_
      | split
      | dsimp only
      | intro _

theorem drainLink_touch (s : State) (l : LinkEnd) : Touch 0x2801fb000 s (drainLink s l) := by
  unfold drainLink
  repeat' first
    | with_reducible exact Touch.refl _
    | (with_reducible apply Touch.step (State_modLink_touch ..)); exact rfl
    | (with_reducible apply Touch.step (idleIfFull_touch ..)); exact rfl
    | (with_reducible apply Touch.step (offerFlit_touch ..)); exact rfl
    | (with_reducible apply Touch.step (sendAnswers_touch ..)); exact rfl
    | with_reducible apply Touch.foldl
    | intro _

theorem sendNak_touch (s : State) (l : LinkEnd) : Touch 0x2801f8000 s (sendNak s l) := by
  unfold sendNak
  repeat' first
    | with_reducible exact Touch.refl _
    | (with_reducible apply Touch.step (State_modLink_touch ..)); exact rfl
    | (with_reducible apply Touch.step (putPlain_touch ..)); exact rfl
    | with_reducible apply Touch.ite
    | intro _

theorem sendAnswer_touch (s : State) (l : LinkEnd) (hseq : Nat) (reason : Nat) : Touch 0x2801fb000 s (sendAnswer s l hseq reason) := by
  unfold sendAnswer
  repeat' first
    | with_reducible exact Touch.refl _
    | (with_reducible apply Touch.step (State_modLink_touch ..)); exact rfl
    | (with_reducible apply Touch.step (idleIfFull_touch ..)); exact rfl
    | (with_reducible apply Touch.step (sendAnswers_touch ..)); exact rfl
    | with_reducible apply Touch.ite
    | split
    | intro _

theorem ackLink_touch (s : State) (l : LinkEnd) (ack : BitVec 12) : Touch 0x18000 s (ackLink s l ack) := by
  unfold ackLink
  repeat' first
    | with_reducible exact Touch.refl _
    | (with_reducible apply Touch.step (State_modLink_touch ..)); exact rfl

theorem takeCredits_touch (s : State) (l : LinkEnd) (cls : Nat) (total : Nat) : Touch 0x18000 s (takeCredits s l cls total) := by
  unfold takeCredits
  repeat' first
    | with_reducible exact Touch.refl _
    | (with_reducible apply Touch.step (State_modLink_touch ..)); exact rfl
    | with_reducible apply Touch.ite
    | intro _

theorem sendTime_touch (s : State) (w : Wing) (n : Neighbour) (x : BitVec 256) : Touch 0x2801fb000 s (sendTime s w n x) := by
  unfold sendTime
  repeat' first
    | with_reducible exact Touch.refl _
    | (with_reducible apply Touch.step (sendFlit_touch ..)); exact rfl
    | split

end Sys2Proof.Machine
end

