-- ==== Sys2Proof/Laws/TouchPorter.lean ====
section
/-!
SUPPORT. What the operations of Porter may change.
-/

namespace Sys2Proof.Machine

theorem atCore_touch {α : Type} (i : Nat) (r : State × Except UnitErr α) : Touch 0x0 r.1 (atCore i r).1 := by
  unfold atCore
  split <;> exact Touch.refl _

theorem foldErr_touch {ε α β : Type} {m : Nat} {f : State → β → α → State × Except ε β} {s : State} {b : β} {l : List α}
    (hf : ∀ s b a, Touch m s (f s b a).1) : Touch m s (foldErr f s b l).1 := by
  induction l generalizing s b with
  | nil => exact Touch.refl s
  | cons a l ih =>
    unfold foldErr
    split
    · exact Touch.fst (by assumption) (hf ..)
    · exact Touch.step ih (Nat.or_self m) (Touch.fst (by assumption) (hf ..))

theorem captureSeq_touch (s : State) (c : Ctx) (hdr : Nat) (seq : Nat) (dcode : Nat) (heads : Nat) : Touch 0x10881c0014 s (captureSeq s c hdr seq dcode heads).1 := by
  unfold captureSeq
  repeat' first
    | with_reducible exact Touch.refl _
    | assumption
    | with_reducible refine andThen_touch ?_ (fun _ _ _ => ?_)
    | (with_reducible apply Touch.step (loadNum_touch ..)); exact rfl
    | with_reducible apply Touch.ite_fst
    | split
    | dsimp only
    | intro _

theorem walkFault_touch (s : State) (t : Tile) (part : Nat) (tag : Nat) (seq : Nat) (pos : Nat) (level : Nat) (cause : Nat) : Touch 0x801c0020 s (walkFault s t part tag seq pos level cause) := by
  unfold walkFault
  repeat' first
    | with_reducible exact Touch.refl _
    | (with_reducible apply Touch.step (State_modPorter_touch ..)); exact rfl
    | (with_reducible apply Touch.step (raise_touch ..)); exact rfl
    | (with_reducible apply Touch.step (addCtr_touch_pw ..)); exact rfl
    | with_reducible apply Touch.ite
    | intro _

theorem failWalk_touch (s : State) (v : WalkFor) (pos : Nat) (level : Nat) (e : AccErr) : Touch 0x801c0020 s (failWalk s v pos level e).1 := by
  unfold failWalk
  repeat' first
    | with_reducible exact Touch.refl _
    | (with_reducible apply Touch.step (walkFault_touch ..)); exact rfl

theorem labUse_touch (s : State) (t : Tile) (x : LabEntry) : Touch 0x20 s (labUse s t x) := by
  unfold labUse
  repeat' first
    | with_reducible exact Touch.refl _
    | (with_reducible apply Touch.step (State_modPorter_touch ..)); exact rfl

theorem level2_touch (s : State) (v : WalkFor) (pos : Nat) : Touch 0x10881c0034 s (level2 s v pos).1 := by
  unfold level2
  repeat' first
    | with_reducible exact Touch.refl _
    | (with_reducible apply Touch.step (loadNum_touch ..)); exact rfl
    | (with_reducible apply Touch.step (failWalk_touch ..)); exact rfl
    | (with_reducible apply Touch.step (labUse_touch ..)); exact rfl
    | (with_reducible apply Touch.step (addCtr_touch_pw ..)); exact rfl
    | with_reducible apply Touch.ite_fst
    | with_reducible refine Touch.fst (by assumption) ?_
    | split
    | dsimp only
    | intro _

theorem spanOf_fresh_touch (v : WalkFor) (pos : Nat) (s : State) : Touch 0x10881c0034 s (spanOf.fresh v pos s).1 := by
  unfold spanOf.fresh
  repeat' first
    | with_reducible exact Touch.refl _
    | (with_reducible apply Touch.step (loadVa_touch ..)); exact rfl
    | (with_reducible apply Touch.step (failWalk_touch ..)); exact rfl
    | (with_reducible apply Touch.step (level2_touch ..)); exact rfl
    | with_reducible apply Touch.ite_fst
    | with_reducible refine Touch.fst (by assumption) ?_
    | split
    | dsimp only
    | intro _

theorem spanOf_touch (s : State) (v : WalkFor) (pos : Nat) (kept : Option Span) : Touch 0x10881c0034 s (spanOf s v pos kept).1 := by
  unfold spanOf
  repeat' first
    | with_reducible exact Touch.refl _
    | (with_reducible apply Touch.step (spanOf_fresh_touch ..)); exact rfl
    | with_reducible apply Touch.ite_fst
    | split
    | dsimp only
    | intro _

theorem resolve_touch (s : State) (v : WalkFor) (pos : Nat) (kept : Option Span) : Touch 0x10881c0034 s (resolve s v pos kept).1 := by
  unfold resolve
  repeat' first
    | with_reducible exact Touch.refl _
    | (with_reducible apply Touch.step (failWalk_touch ..)); exact rfl
    | (with_reducible apply Touch.step (spanOf_touch ..)); exact rfl
    | (with_reducible apply Touch.step (addCtr_touch_pw ..)); exact rfl
    | with_reducible apply Touch.ite_fst
    | with_reducible refine Touch.fst (by assumption) ?_
    | split
    | dsimp only
    | intro _

theorem readNode_touch (s : State) (c : Ctx) (va : Nat) : Touch 0x10881c0014 s (readNode s c va).1 := by
  unfold readNode
  repeat' first
    | with_reducible exact Touch.refl _
    | assumption
    | with_reducible refine andThen_touch ?_ (fun _ _ _ => ?_)
    | (with_reducible apply Touch.step (loadNum_touch ..)); exact rfl
    | with_reducible apply Touch.ite_fst
    | dsimp only
    | intro _

theorem childEntry_touch (s : State) (c : Ctx) (base : Nat) (i : Nat) : Touch 0x10881c0014 s (childEntry s c base i).1 := by
  unfold childEntry
  repeat' first
    | with_reducible exact Touch.refl _
    | assumption
    | with_reducible refine andThen_touch ?_ (fun _ _ _ => ?_)
    | (with_reducible apply Touch.step (loadNum_touch ..)); exact rfl

theorem childSearch_touch (s : State) (c : Ctx) (base : Nat) (h : Nat) (a4 : Nat) (a5 : Nat) (a6 : Nat) (a7 : Option (Nat × Nat)) (a8 : Option (Nat × Nat)) : Touch 0x10881c0014 s (childSearch s c base h a4 a5 a6 a7 a8).1 := by
  induction a4 generalizing s c base h a5 a6 a7 a8 with
  | zero => unfold childSearch; exact Touch.refl _
  | succ _ ih =>
    unfold childSearch
    repeat' first
      | (with_reducible apply Touch.step (ih ..)); exact rfl
      | with_reducible exact Touch.refl _
      | assumption
      | (with_reducible apply Touch.step (childEntry_touch ..)); exact rfl
      | with_reducible apply Touch.ite
      | with_reducible apply Touch.ite_fst
      | with_reducible apply Touch.foldl
      | with_reducible apply Touch.foldl_fst
      | with_reducible refine Touch.fst (by assumption) ?_
      | with_reducible refine Touch.snd (by assumption) ?_
      | split
      | dsimp only
      | intro _

theorem childrenOf_touch (s : State) (c : Ctx) (hdr : Nat) (node : Nat) : Touch 0x10881c0014 s (childrenOf s c hdr node).1 := by
  unfold childrenOf
  repeat' first
    | with_reducible exact Touch.refl _
    | assumption
    | with_reducible refine andThen_touch ?_ (fun _ _ _ => ?_)
    | (with_reducible apply Touch.step (readNode_touch ..)); exact rfl
    | with_reducible apply Touch.ite_fst
    | split
    | dsimp only
    | intro _

theorem childMatches_touch (s : State) (c : Ctx) (a : PfxArgs) (i : Nat) (node : Nat) : Touch 0x10881c0014 s (childMatches s c a i node).1 := by
  unfold childMatches
  repeat' first
    | with_reducible exact Touch.refl _
    | assumption
    | with_reducible refine andThen_touch ?_ (fun _ _ _ => ?_)
    | (with_reducible apply Touch.step (loadVa_touch ..)); exact rfl
    | (with_reducible apply Touch.step (readNode_touch ..)); exact rfl
    | with_reducible apply Touch.ite_fst
    | split
    | dsimp only
    | intro _

theorem pfxCollide_touch (s : State) (t : Tile) (part : Nat) (tag : Nat) (p : PfxState) : Touch 0x801c0020 s (pfxCollide s t part tag p).1 := by
  unfold pfxCollide
  repeat' first
    | with_reducible exact Touch.refl _
    | (with_reducible apply Touch.step (raise_touch ..)); exact rfl
    | (with_reducible apply Touch.step (addCtr_touch_pw ..)); exact rfl
    | with_reducible apply Touch.ite
    | intro _

theorem tryChildren_touch (c : Ctx) (a : PfxArgs) (tag : Nat) (base : Nat) (n : Nat) (i : Nat) (h : Nat) (a7 : Nat) (a8 : Nat) (a9 : State) (a10 : PfxState) : Touch 0x10881c0034 a9 (tryChildren c a tag base n i h a7 a8 a9 a10).1 := by
  induction a7 generalizing c a tag base n i h a8 a9 a10 with
  | zero => unfold tryChildren; exact Touch.refl _
  | succ _ ih =>
    unfold tryChildren
    repeat' first
      | (with_reducible apply Touch.step (ih ..)); exact rfl
      | with_reducible exact Touch.refl _
      | assumption
      | (with_reducible apply Touch.step (childEntry_touch ..)); exact rfl
      | (with_reducible apply Touch.step (childMatches_touch ..)); exact rfl
      | (with_reducible apply Touch.step (pfxCollide_touch ..)); exact rfl
      | with_reducible apply Touch.ite
      | with_reducible apply Touch.ite_fst
      | with_reducible apply Touch.foldl
      | with_reducible apply Touch.foldl_fst
      | with_reducible refine Touch.fst (by assumption) ?_
      | with_reducible refine Touch.snd (by assumption) ?_
      | split
      | dsimp only
      | intro _

theorem lookupOne_touch (s : State) (c : Ctx) (a : PfxArgs) (hdr : Nat) (tag : Nat) (i : Nat) (p : PfxState) : Touch 0x10881c0034 s (lookupOne s c a hdr tag i p).1 := by
  unfold lookupOne
  repeat' first
    | with_reducible exact Touch.refl _
    | assumption
    | with_reducible refine andThen_touch ?_ (fun _ _ _ => ?_)
    | (with_reducible apply Touch.step (loadNum_touch ..)); exact rfl
    | (with_reducible apply Touch.step (childSearch_touch ..)); exact rfl
    | (with_reducible apply Touch.step (childrenOf_touch ..)); exact rfl
    | (with_reducible apply Touch.step (tryChildren_touch ..)); exact rfl
    | with_reducible refine Touch.fst (by assumption) ?_
    | split

theorem lookupFrom_touch (c : Ctx) (a : PfxArgs) (hdr : Nat) (tag : Nat) (a4 : Nat) (a5 : Nat) (a6 : State) (a7 : PfxState) : Touch 0x10881c0034 a6 (lookupFrom c a hdr tag a4 a5 a6 a7).1 := by
  induction a4 generalizing c a hdr tag a5 a6 a7 with
  | zero => unfold lookupFrom; exact Touch.refl _
  | succ _ ih =>
    unfold lookupFrom
    repeat' first
      | (with_reducible apply Touch.step (ih ..)); exact rfl
      | with_reducible exact Touch.refl _
      | assumption
      | (with_reducible apply Touch.step (lookupOne_touch ..)); exact rfl
      | with_reducible apply Touch.ite
      | with_reducible apply Touch.ite_fst
      | with_reducible apply Touch.foldl
      | with_reducible apply Touch.foldl_fst
      | with_reducible refine Touch.fst (by assumption) ?_
      | with_reducible refine Touch.snd (by assumption) ?_
      | split
      | dsimp only
      | intro _

theorem lookup_touch (s : State) (c : Ctx) (a : PfxArgs) (tag : Nat) : Touch 0x10881c0034 s (lookup s c a tag).1 := by
  unfold lookup
  repeat' first
    | with_reducible exact Touch.refl _
    | (with_reducible apply Touch.step (lookupFrom_touch ..)); exact rfl
    | with_reducible apply Touch.ite_fst
    | dsimp only
    | intro _

theorem performPfx_touch (s : State) (o : Origin) (e : Entry) : Touch 0x349ffffdfe s (performPfx s o e) := by
  unfold performPfx
  repeat' first
    | with_reducible exact Touch.refl _
    | (with_reducible apply Touch.step (failAcc_touch ..)); exact rfl
    | (with_reducible apply Touch.step (saveVa_touch ..)); exact rfl
    | (with_reducible apply Touch.step (answerCommand_touch ..)); exact rfl
    | (with_reducible apply Touch.step (lookup_touch ..)); exact rfl
    | (with_reducible apply Touch.step (addCtr_touch_pw ..)); exact rfl
    | with_reducible apply Touch.ite
    | with_reducible refine Touch.fst (by assumption) ?_
    | split
    | dsimp only
    | intro _

theorem execPrefixLookup_touch (f : Func) (r : Fin 64) (s : State) : TouchNext 0x349ffffdfe s (execPrefixLookup f r s) := by
  unfold execPrefixLookup
  repeat' first
    | with_reducible exact Touch.refl _
    | (with_reducible apply Touch.step (beginCommand_touch (m := 0x349ffffdfe) rfl ?_)); exact rfl
    | (with_reducible apply Touch.step (performPfx_touch ..)); exact rfl
    | with_reducible apply TouchNext.next
    | intro _

end Sys2Proof.Machine
end

