-- ==== Sys2Proof/Laws/TouchChain.lean ====
section
/-!
SUPPORT. What the operations of Chain may change.
-/

namespace Sys2Proof.Machine

theorem captureHeld_touch (s : State) (t : Task) (need : Nat) : Touch 0x8 s (captureHeld s t need) := by
  unfold captureHeld
  repeat' first
    | with_reducible exact Touch.refl _
    | (with_reducible apply Touch.step (State_modSch_touch ..)); exact rfl
    | with_reducible apply Touch.ite
    | intro _

theorem chainCapacity_touch (s : State) (t : Task) (b : ChainBody) (wkv : Nat) : Touch 0x8 s (chainCapacity s t b wkv).1 := by
  unfold chainCapacity
  repeat' first
    | with_reducible exact Touch.refl _
    | (with_reducible apply Touch.step (captureHeld_touch ..)); exact rfl
    | with_reducible apply Touch.ite_fst
    | split
    | dsimp only
    | intro _

theorem chainChecks_touch (s : State) (t : Task) (x : ChainWork) : Touch 0x8 s (chainChecks s t x).1 := by
  unfold chainChecks
  repeat' first
    | with_reducible exact Touch.refl _
    | (with_reducible apply Touch.step (chainCapacity_touch ..)); exact rfl
    | with_reducible apply Touch.ite_fst
    | split
    | dsimp only
    | intro _

theorem fetchRecord_touch (s : State) (t : Task) (b : ChainBody) : Touch 0x10881c0034 s (fetchRecord s t b).1 := by
  unfold fetchRecord
  repeat' first
    | with_reducible exact Touch.refl _
    | (with_reducible apply Touch.step (captureSeq_touch ..)); exact rfl
    | (with_reducible apply Touch.step (walkFault_touch ..)); exact rfl
    | with_reducible apply Touch.ite
    | with_reducible refine Touch.fst (by assumption) ?_
    | split
    | dsimp only
    | intro _

theorem fetchChain_touch (s : State) (t : Task) (b : ChainBody) : Touch 0x10881c0034 s (fetchChain s t b).1 := by
  unfold fetchChain
  repeat' first
    | with_reducible exact Touch.refl _
    | assumption
    | with_reducible refine andThen_touch ?_ (fun _ _ _ => ?_)
    | (with_reducible apply Touch.step (fetch5_touch ..)); exact rfl
    | (with_reducible apply Touch.step (fetchRecord_touch ..)); exact rfl
    | with_reducible apply Touch.ite_fst
    | split
    | dsimp only
    | intro _

theorem checkChain_touch (a0 : State) (a1 : Task) : Touch 0x10881c003c a0 (checkChain a0 a1).1 := by
  unfold checkChain
  repeat' first
    | with_reducible exact Touch.refl _
    | assumption
    | with_reducible refine andThen_touch ?_ (fun _ _ _ => ?_)
    | (with_reducible apply Touch.step (fetch5_touch ..)); exact rfl
    | (with_reducible apply Touch.step (chainChecks_touch ..)); exact rfl
    | (with_reducible apply Touch.step (fetchChain_touch ..)); exact rfl
    | with_reducible apply Touch.ite_fst
    | split
    | dsimp only
    | intro _

theorem checkChain_keepsId : KeepsId checkChain := by
  refine KeepsId.of fun s t => ?_
  unfold checkChain
  repeat' first
    | exact OkId.error
    | exact OkId.ok rfl
    | (refine OkId.andThen fun _ _ _ => ?_)
    | split
    | dsimp only

theorem execChainTaskForward_touch (f : Func) (r : Fin 64) (s : State) : TouchNext 0x349ffffffe s (execChainTaskForward f r s) := by
  unfold execChainTaskForward
  repeat' first
    | with_reducible exact Touch.refl _
    | (with_reducible apply Touch.step (beginTask_touch (m := 0x349ffffffe) rfl ?_ (by first | exact checkLoop_keepsId | exact checkChain_keepsId | exact checkStage_keepsId | exact checkColl_keepsId | exact checkCat_keepsId))); exact rfl
    | (with_reducible apply Touch.step (checkChain_touch ..)); exact rfl
    | with_reducible apply TouchNext.next
    | intro _

theorem execChainTaskBackward_touch (f : Func) (r : Fin 64) (s : State) : TouchNext 0x349ffffffe s (execChainTaskBackward f r s) := by
  unfold execChainTaskBackward
  repeat' first
    | with_reducible exact Touch.refl _
    | (with_reducible apply Touch.step (beginTask_touch (m := 0x349ffffffe) rfl ?_ (by first | exact checkLoop_keepsId | exact checkChain_keepsId | exact checkStage_keepsId | exact checkColl_keepsId | exact checkCat_keepsId))); exact rfl
    | (with_reducible apply Touch.step (checkChain_touch ..)); exact rfl
    | with_reducible apply TouchNext.next
    | intro _

theorem stageQuery_touch (t : Task) (b : ChainBody) (h : Nat) (s : State) (y : Tile) : Touch 0x10881c001c s (stageQuery t b h s y).1 := by
  unfold stageQuery
  repeat' first
    | with_reducible exact Touch.refl _
    | assumption
    | with_reducible refine andThen_touch ?_ (fun _ _ _ => ?_)
    | (with_reducible apply Touch.step (touchRanges_touch ..)); exact rfl
    | (with_reducible apply Touch.step (stageBytes_touch ..)); exact rfl
    | (with_reducible apply Touch.step (addCtr_touch_sch ..)); exact rfl
    | with_reducible refine Touch.fst (by assumption) ?_
    | split
    | dsimp only

theorem prologueCore_touch (t : Task) (b : ChainBody) (h : Nat) (s : State) (r : ChainRun) (j : Nat) : Touch 0x30881c0014 s (prologueCore t b h s r j).1 := by
  unfold prologueCore
  repeat' first
    | with_reducible exact Touch.refl _
    | assumption
    | with_reducible refine andThen_touch ?_ (fun _ _ _ => ?_)
    | (with_reducible apply Touch.step (touchRanges_touch ..)); exact rfl
    | (with_reducible apply Touch.step (writeWindow_touch ..)); exact rfl
    | with_reducible refine Touch.fst (by assumption) ?_
    | split
    | dsimp only

theorem prologue_touch (t : Task) (b : ChainBody) (s : State) (r : ChainRun) : Touch 0x30881c001c s (prologue t b s r).1 := by
  unfold prologue
  repeat' first
    | with_reducible exact Touch.refl _
    | (with_reducible apply Touch.step (atCore_touch ..)); exact rfl
    | (with_reducible apply Touch.step (foldErr_touch (m := 0x30881c001c) ?_)); exact rfl
    | (with_reducible apply Touch.step (stageQuery_touch ..)); exact rfl
    | (with_reducible apply Touch.step (prologueCore_touch ..)); exact rfl
    | with_reducible refine Touch.fst (by assumption) ?_
    | split
    | intro _

theorem listEntry_touch (v : WalkFor) (s : State) (acc : List Slot × Option Span) (pos : Nat) : Touch 0x10881c0034 s (listEntry v s acc pos).1 := by
  unfold listEntry
  repeat' first
    | with_reducible exact Touch.refl _
    | (with_reducible apply Touch.step (failWalk_touch ..)); exact rfl
    | (with_reducible apply Touch.step (resolve_touch ..)); exact rfl
    | with_reducible apply Touch.ite_fst
    | with_reducible refine Touch.fst (by assumption) ?_
    | split
    | dsimp only
    | intro _

theorem selectedSlots_touch (s : State) (t : Task) (b : ChainBody) (x : ChainWork) (h : Nat) (rank : Nat) : Touch 0x10881c0034 s (selectedSlots s t b x h rank).1 := by
  unfold selectedSlots
  repeat' first
    | with_reducible exact Touch.refl _
    | assumption
    | with_reducible refine andThen_touch ?_ (fun _ _ _ => ?_)
    | (with_reducible apply Touch.step (loadVa_touch ..)); exact rfl
    | (with_reducible apply Touch.step (foldErr_touch (m := 0x10881c0034) ?_)); exact rfl
    | (with_reducible apply Touch.step (listEntry_touch ..)); exact rfl
    | with_reducible refine Touch.fst (by assumption) ?_
    | split
    | dsimp only
    | intro _

theorem slotPage_touch (v : WalkFor) (s : State) (a : BlockPages) (sl : Slot) : Touch 0x10881c0034 s (slotPage v s a sl).1 := by
  unfold slotPage
  repeat' first
    | with_reducible exact Touch.refl _
    | assumption
    | with_reducible refine andThen_touch ?_ (fun _ _ _ => ?_)
    | (with_reducible apply Touch.step (resolve_touch ..)); exact rfl
    | split

theorem loadBlock_touch (c : Ctx) (t : Task) (b : ChainBody) (x : ChainWork) (h : Nat) (pass1 : Bool) (v : WalkFor) (s : State) (kept : Option Span) (slots : List Slot) : Touch 0x10881c0034 s (loadBlock c t b x h pass1 v s kept slots).1 := by
  unfold loadBlock
  repeat' first
    | with_reducible exact Touch.refl _
    | assumption
    | with_reducible refine andThen_touch ?_ (fun _ _ _ => ?_)
    | (with_reducible apply Touch.step (touchRanges_touch ..)); exact rfl
    | (with_reducible apply Touch.step (foldErr_touch (m := 0x10881c0034) ?_)); exact rfl
    | (with_reducible apply Touch.step (slotPage_touch ..)); exact rfl
    | with_reducible refine Touch.fst (by assumption) ?_
    | split
    | intro _

theorem blockMasks_touch (s : State) (c : Ctx) (t : Task) (x : ChainWork) (slots : List Slot) (n : Nat) : Touch 0x10881c0014 s (blockMasks s c t x slots n).1 := by
  unfold blockMasks
  repeat' first
    | with_reducible exact Touch.refl _
    | assumption
    | with_reducible refine andThen_touch ?_ (fun _ _ _ => ?_)
    | (with_reducible apply Touch.step (touchRanges_touch ..)); exact rfl
    | with_reducible refine Touch.fst (by assumption) ?_
    | split

theorem addSch_touch (s : State) (t : Tile) (off : Nat) (n : Nat) : Touch 0x801c0008 s (addSch s t off n) := by
  unfold addSch
  repeat' first
    | with_reducible exact Touch.refl _
    | (with_reducible apply Touch.step (addCtr_touch_sch ..)); exact rfl
    | with_reducible apply Touch.ite
    | intro _

theorem forwardBlock_touch (c : Ctx) (t : Task) (b : ChainBody) (x : ChainWork) (h : Nat) (pass1 : Bool) (qs : List (List Val)) (v : WalkFor) (s : State) (st : PartState) (slots : List Slot) : Touch 0x10881c003c s (forwardBlock c t b x h pass1 qs v s st slots).1 := by
  unfold forwardBlock
  repeat' first
    | with_reducible exact Touch.refl _
    | assumption
    | with_reducible refine andThen_touch ?_ (fun _ _ _ => ?_)
    | (with_reducible apply Touch.step (loadBlock_touch ..)); exact rfl
    | (with_reducible apply Touch.step (blockMasks_touch ..)); exact rfl
    | (with_reducible apply Touch.step (addSch_touch ..)); exact rfl
    | with_reducible apply Touch.ite_fst
    | dsimp only
    | intro _

theorem backBlock_touch (c : Ctx) (t : Task) (b : ChainBody) (x : ChainWork) (h : Nat) (rs : List BackRow) (v : WalkFor) (s : State) (st : PartState) (slots : List Slot) : Touch 0x30881c003e s (backBlock c t b x h rs v s st slots).1 := by
  unfold backBlock
  repeat' first
    | with_reducible exact Touch.refl _
    | assumption
    | with_reducible refine andThen_touch ?_ (fun _ _ _ => ?_)
    | (with_reducible apply Touch.step (writeRuns_touch ..)); exact rfl
    | (with_reducible apply Touch.step (loadBlock_touch ..)); exact rfl
    | (with_reducible apply Touch.step (blockMasks_touch ..)); exact rfl
    | (with_reducible apply Touch.step (addSch_touch ..)); exact rfl
    | with_reducible apply Touch.ite_fst
    | with_reducible refine Touch.fst (by assumption) ?_
    | split
    | dsimp only
    | intro _

theorem leavePart_touch (s : State) (t : Task) (b : ChainBody) (rank : Nat) (blocks : Nat) (rows : List Row) : Touch 0x200000010c s (leavePart s t b rank blocks rows) := by
  unfold leavePart
  repeat' first
    | with_reducible exact Touch.refl _
    | (with_reducible apply Touch.step (writeWindow_touch ..)); exact rfl
    | (with_reducible apply Touch.step (enterPhase_touch ..)); exact rfl
    | with_reducible apply Touch.ite
    | split
    | dsimp only
    | intro _

theorem runPart_touch (s : State) (t : Task) (b : ChainBody) (x : ChainWork) (h : Nat) (j : Nat) (pass1 : Bool) (rows : List Row) (slots : List Slot) : Touch 0x30881c013e s (runPart s t b x h j pass1 rows slots).1 := by
  unfold runPart
  repeat' first
    | with_reducible exact Touch.refl _
    | assumption
    | with_reducible refine andThen_touch ?_ (fun _ _ _ => ?_)
    | (with_reducible apply Touch.step (foldErr_touch (m := 0x30881c013e) ?_)); exact rfl
    | (with_reducible apply Touch.step (forwardBlock_touch ..)); exact rfl
    | (with_reducible apply Touch.step (backBlock_touch ..)); exact rfl
    | (with_reducible apply Touch.step (leavePart_touch ..)); exact rfl
    | with_reducible apply Touch.ite_fst
    | intro _

theorem groupSlots_touch (t : Task) (b : ChainBody) (h : Nat) (s : State) (x : ChainWork) (rank : Nat) : Touch 0x10881c0034 s (groupSlots t b h s x rank).1 := by
  unfold groupSlots
  repeat' first
    | with_reducible exact Touch.refl _
    | (with_reducible apply Touch.step (selectedSlots_touch ..)); exact rfl
    | with_reducible apply Touch.ite_fst
    | dsimp only
    | intro _

theorem runGroup_touch (t : Task) (b : ChainBody) (pass1 : Bool) (h : Nat)
    (slots : State → ChainWork → Nat → State × Except UnitErr (List Slot)) (s : State) (r : ChainRun)
    (hs : ∀ s x k, Touch 0x30881c013e s (slots s x k).1) : Touch 0x30881c013e s (runGroup t b pass1 h slots s r).1 := by
  unfold runGroup
  refine foldErr_touch (fun s r j => ?_) ..
  refine Touch.step (atCore_touch ..) rfl ?_
  refine andThen_touch (hs ..) fun s _ hx => ?_
  exact andThen_touch (Touch.step (runPart_touch ..) rfl hx) fun _ _ hx => hx

theorem runPass_touch (t : Task) (b : ChainBody) (pass1 : Bool) (s : State) (r : ChainRun) : Touch 0x30881c013e s (runPass t b pass1 s r).1 := by
  unfold runPass
  repeat' first
    | with_reducible exact Touch.refl _
    | (with_reducible apply Touch.step (foldErr_touch (m := 0x30881c013e) ?_)); exact rfl
    | (with_reducible refine Touch.step (runGroup_touch (hs := ?_) ..) rfl ?_)
    | (with_reducible exact Touch.weaken (groupSlots_touch ..) rfl)
    | intro _

theorem runKeys_touch (t : Task) (b : ChainBody) (s : State) (r : ChainRun) : Touch 0x30881c013e s (runKeys t b s r).1 := by
  unfold runKeys
  repeat' first
    | with_reducible exact Touch.refl _
    | assumption
    | with_reducible refine andThen_touch ?_ (fun _ _ _ => ?_)
    | (with_reducible apply Touch.step (runPass_touch ..)); exact rfl
    | with_reducible apply Touch.ite_fst
    | intro _

theorem runCar_touch (t : Task) (b : ChainBody) (c : CarRef) (n : Nat) (s : State) (r : ChainRun) : Touch 0x30881c013e s (runCar t b c n s r).1 := by
  unfold runCar
  repeat' first
    | with_reducible exact Touch.refl _
    | assumption
    | with_reducible refine andThen_touch ?_ (fun _ _ _ => ?_)
    | (with_reducible apply Touch.step (foldErr_touch (m := 0x30881c013e) ?_)); exact rfl
    | (with_reducible refine Touch.step (runGroup_touch (hs := ?_) ..) rfl ?_)
    | dsimp only
    | intro _

theorem rmsWeights_touch (s : State) (c : Ctx) (b : ChainBody) : Touch 0x10881c0014 s (rmsWeights s c b).1 := by
  unfold rmsWeights
  repeat' first
    | with_reducible exact Touch.refl _
    | assumption
    | with_reducible refine andThen_touch ?_ (fun _ _ _ => ?_)
    | (with_reducible apply Touch.step (loadVa_touch ..)); exact rfl
    | with_reducible apply Touch.ite_fst
    | dsimp only
    | intro _

theorem finishForward_touch (s : State) (c : Ctx) (t : Task) (b : ChainBody) (h : Nat) (rows : List Row) : Touch 0x30881c001e s (finishForward s c t b h rows).1 := by
  unfold finishForward
  repeat' first
    | with_reducible exact Touch.refl _
    | assumption
    | with_reducible refine andThen_touch ?_ (fun _ _ _ => ?_)
    | (with_reducible apply Touch.step (writeRuns_touch ..)); exact rfl
    | (with_reducible apply Touch.step (addSch_touch ..)); exact rfl
    | (with_reducible apply Touch.step (rmsWeights_touch ..)); exact rfl
    | with_reducible refine Touch.fst (by assumption) ?_
    | split
    | dsimp only

theorem finishState_touch (s : State) (c : Ctx) (t : Task) (b : ChainBody) (h : Nat) (rows : List Row) : Touch 0x30881c001e s (finishState s c t b h rows).1 := by
  unfold finishState
  repeat' first
    | with_reducible exact Touch.refl _
    | (with_reducible apply Touch.step (writeRuns_touch ..)); exact rfl
    | (with_reducible apply Touch.step (addSch_touch ..)); exact rfl
    | with_reducible refine Touch.fst (by assumption) ?_
    | split
    | dsimp only

theorem finishBack_touch (s : State) (c : Ctx) (t : Task) (b : ChainBody) (h : Nat) (rows : List Row) : Touch 0x30881c0016 s (finishBack s c t b h rows).1 := by
  unfold finishBack
  repeat' first
    | with_reducible exact Touch.refl _
    | (with_reducible apply Touch.step (writeRuns_touch ..)); exact rfl
    | with_reducible refine Touch.fst (by assumption) ?_
    | split
    | dsimp only

theorem finishGroup_touch (s : State) (t : Task) (b : ChainBody) (h : Nat) (r : ChainRun) : Touch 0x30881c001e s (finishGroup s t b h r).1 := by
  unfold finishGroup
  repeat' first
    | with_reducible exact Touch.refl _
    | (with_reducible apply Touch.step (atCore_touch ..)); exact rfl
    | (with_reducible apply Touch.step (finishForward_touch ..)); exact rfl
    | (with_reducible apply Touch.step (finishState_touch ..)); exact rfl
    | (with_reducible apply Touch.step (finishBack_touch ..)); exact rfl
    | with_reducible refine Touch.fst (by assumption) ?_
    | split
    | dsimp only

theorem sendPartial_touch (s : State) (t : Task) (b : ChainBody) (h : Nat) (j : Nat) (tile : Nat) : Touch 0x200000000c s (sendPartial s t b h j tile) := by
  unfold sendPartial
  repeat' first
    | with_reducible exact Touch.refl _
    | (with_reducible apply Touch.step (openTransfer_touch ..)); exact rfl
    | with_reducible apply Touch.ite
    | intro _

theorem mergeRows_touch (s : State) (t : Task) (b : ChainBody) (h : Nat) (lo : Nat) (part : List Row) (r : ChainRun) : Touch 0x801c0008 s (mergeRows s t b h lo part r).1 := by
  unfold mergeRows
  repeat' first
    | with_reducible exact Touch.refl _
    | (with_reducible apply Touch.step (addSch_touch ..)); exact rfl

theorem mergeSlot_touch (s : State) (t : Task) (b : ChainBody) (h : Nat) (j : Nat) (x : Nat) (r : ChainRun) : Touch 0x20801c000c s (mergeSlot s t b h j x r).1 := by
  unfold mergeSlot
  repeat' first
    | with_reducible exact Touch.refl _
    | (with_reducible apply Touch.step (sendPartial_touch ..)); exact rfl
    | (with_reducible apply Touch.step (mergeRows_touch ..)); exact rfl

theorem mergeArrived_touch (s : State) (t : Task) (b : ChainBody) (h : Nat) (r : ChainRun) : Touch 0x20801c000c s (mergeArrived s t b h r).1 := by
  unfold mergeArrived
  repeat' first
    | with_reducible exact Touch.refl _
    | assumption
    | (with_reducible apply Touch.step (mergeSlot_touch ..)); exact rfl
    | with_reducible apply Touch.foldl_fst
    | split
    | dsimp only
    | intro _

theorem beginMerge_touch (t : Task) (b : ChainBody) (s : State) (r : ChainRun) (h : Nat) : Touch 0x20801c010c s (beginMerge t b s r h).1 := by
  unfold beginMerge
  repeat' first
    | with_reducible exact Touch.refl _
    | (with_reducible apply Touch.step (enterPhase_touch ..)); exact rfl
    | (with_reducible apply Touch.step (mergeRows_touch ..)); exact rfl
    | split

theorem completeParts_touch (t : Task) (b : ChainBody) (s : State) (r : ChainRun) : Touch 0x30881c011e s (completeParts t b s r).1 := by
  unfold completeParts
  repeat' first
    | with_reducible exact Touch.refl _
    | (with_reducible apply Touch.step (foldErr_touch (m := 0x30881c011e) ?_)); exact rfl
    | (with_reducible apply Touch.step (finishGroup_touch ..)); exact rfl
    | (with_reducible apply Touch.step (sendPartial_touch ..)); exact rfl
    | (with_reducible apply Touch.step (beginMerge_touch ..)); exact rfl
    | with_reducible apply Touch.foldl
    | split
    | dsimp only
    | intro _

theorem readStateIn_touch (t : Task) (b : ChainBody) (s : State) (x : ChainWork) : Touch 0x10881c0014 s (readStateIn t b s x).1 := by
  unfold readStateIn
  repeat' first
    | with_reducible exact Touch.refl _
    | (with_reducible apply Touch.step (loadWords_touch ..)); exact rfl
    | (with_reducible apply Touch.step (atCore_touch ..)); exact rfl
    | (with_reducible apply Touch.step (foldErr_touch (m := 0x10881c0014) ?_)); exact rfl
    | with_reducible apply Touch.ite_fst
    | with_reducible refine Touch.fst (by assumption) ?_
    | split
    | dsimp only
    | intro _

theorem startChain_touch (s : State) (t : Task) (x : ChainWork) : Touch 0x30881c013e s (startChain s t x).1 := by
  unfold startChain
  repeat' first
    | with_reducible exact Touch.refl _
    | assumption
    | with_reducible refine andThen_touch ?_ (fun _ _ _ => ?_)
    | (with_reducible apply Touch.step (prologue_touch ..)); exact rfl
    | (with_reducible apply Touch.step (runKeys_touch ..)); exact rfl
    | (with_reducible apply Touch.step (completeParts_touch ..)); exact rfl
    | (with_reducible apply Touch.step (readStateIn_touch ..)); exact rfl
    | with_reducible apply Touch.ite_fst
    | dsimp only
    | intro _

theorem putChain_touch (s : State) (id : Nat) (r : ChainRun) : Touch 0x100 s (putChain s id r) := by
  unfold putChain
  repeat' first
    | with_reducible exact Touch.refl _
    | exact fun _ h => h
    | (with_reducible apply Touch.step (State_modTask_touch ..)); exact rfl

theorem settleChain_touch (id part : Nat) (r : State × Except UnitErr ChainRun) :
    Touch 0x349ffffdfe r.1 (settleChain id part r) := by
  unfold settleChain
  split
  · exact Touch.weaken (putChain_touch ..) rfl
  · exact Touch.weaken (faultTask_touch ..) rfl

theorem landPartial_touch (s : State) (t : Task) (b : ChainBody) (x : ChainWork) (h : Nat) (j : Nat) (tile : Nat) : Touch 0x20801c010c s (landPartial s t b x h j tile) := by
  unfold landPartial
  repeat' first
    | with_reducible exact Touch.refl _
    | (with_reducible apply Touch.step (closeFirst_touch ..)); exact rfl
    | (with_reducible apply Touch.step (settleIntrusion_touch ..)); exact rfl
    | (with_reducible apply Touch.step (netWrite_touch ..)); exact rfl
    | with_reducible apply Touch.ite
    | intro _

theorem arrivePartial_touch (s : State) (t : Task) (b : ChainBody) (x : ChainWork) (h : Nat) (j : Nat) (tile : Nat) : Touch 0x349ffffdfe s (arrivePartial s t b x h j tile) := by
  unfold arrivePartial
  repeat' first
    | with_reducible exact Touch.refl _
    | (with_reducible apply Touch.step (finishGroup_touch ..)); exact rfl
    | (with_reducible apply Touch.step (mergeArrived_touch ..)); exact rfl
    | (with_reducible apply Touch.step (putChain_touch ..)); exact rfl
    | (with_reducible apply Touch.step (settleChain_touch ..)); exact rfl
    | (with_reducible apply Touch.step (landPartial_touch ..)); exact rfl
    | with_reducible apply Touch.ite
    | split
    | dsimp only
    | intro _

theorem execPartialArrival_touch (id : Nat) (group : Fin 64) (part : Fin 336) (rowTile : Nat) (s : State) : TouchNext 0x349ffffdfe s (execPartialArrival id group part rowTile s) := by
  unfold execPartialArrival
  repeat' first
    | with_reducible exact Touch.refl _
    | (with_reducible apply Touch.step (orWait_touch (m := 0x349ffffdfe) rfl ?_)); exact rfl
    | (with_reducible apply Touch.step (arrivePartial_touch ..)); exact rfl
    | with_reducible apply TouchNext.next
    | split
    | intro _

end Sys2Proof.Machine
end

