-- ==== Sys2Proof/Laws/TouchStream.lean ====
section
/-!
SUPPORT. What the operations of Stream may change.
-/

namespace Sys2Proof.Machine

theorem State_modSiding_touch (s : State) (part : Nat) (w : Wing) (num : Nat) (f : Siding → Siding) : Touch 0x800 s (State.modSiding s part w num f) := by
  unfold State.modSiding
  repeat' first
    | with_reducible exact Touch.refl _
    | (with_reducible apply Touch.step (touch_sidings ..)); exact rfl

theorem performSidingOpen_touch (s : State) (o : Origin) (e : Entry) : Touch 0x349ffffdfe s (performSidingOpen s o e) := by
  unfold performSidingOpen
  repeat' first
    | with_reducible exact Touch.refl _
    | (with_reducible apply Touch.step (failAcc_touch ..)); exact rfl
    | (with_reducible apply Touch.step (loadNum_touch ..)); exact rfl
    | (with_reducible apply Touch.step (answerCommand_touch ..)); exact rfl
    | with_reducible apply Touch.ite
    | with_reducible refine Touch.fst (by assumption) ?_
    | split
    | dsimp only
    | intro _
    | (with_reducible apply Touch.step (touch_sidings ..)); exact rfl

theorem execSidingOpen_touch (f : Func) (r : Fin 64) (s : State) : TouchNext 0x349ffffdfe s (execSidingOpen f r s) := by
  unfold execSidingOpen
  repeat' first
    | with_reducible exact Touch.refl _
    | (with_reducible apply Touch.step (beginCommand_touch (m := 0x349ffffdfe) rfl ?_)); exact rfl
    | (with_reducible apply Touch.step (performSidingOpen_touch ..)); exact rfl
    | with_reducible apply TouchNext.next
    | intro _

theorem fetchStage_touch (s : State) (t : Task) : Touch 0x10881c0014 s (fetchStage s t).1 := by
  unfold fetchStage
  repeat' first
    | with_reducible exact Touch.refl _
    | assumption
    | with_reducible refine andThen_touch ?_ (fun _ _ _ => ?_)
    | (with_reducible apply Touch.step (fetch5_touch ..)); exact rfl
    | with_reducible apply Touch.ite_fst
    | dsimp only
    | intro _

theorem stageLoopChecks_touch (s : State) (t : Task) : Touch 0x8 s (stageLoopChecks s t).1 := by
  unfold stageLoopChecks
  repeat' first
    | with_reducible exact Touch.refl _
    | (with_reducible apply Touch.step (loopChecks_touch ..)); exact rfl
    | with_reducible apply Touch.ite_fst
    | dsimp only
    | intro _

theorem checkStage_touch (a0 : State) (a1 : Task) : Touch 0x10881c001c a0 (checkStage a0 a1).1 := by
  unfold checkStage
  repeat' first
    | with_reducible exact Touch.refl _
    | assumption
    | with_reducible refine andThen_touch ?_ (fun _ _ _ => ?_)
    | (with_reducible apply Touch.step (countLoop_touch ..)); exact rfl
    | (with_reducible apply Touch.step (fetchStage_touch ..)); exact rfl
    | (with_reducible apply Touch.step (stageLoopChecks_touch ..)); exact rfl
    | with_reducible apply Touch.ite_fst
    | split
    | dsimp only
    | intro _

theorem fetchStage_id {s : State} {t : Task} : OkId t.id (fetchStage s t) := by
  unfold fetchStage
  repeat' first
    | exact OkId.error
    | exact OkId.ok rfl
    | (refine OkId.andThen fun _ _ _ => ?_)
    | split
    | dsimp only

theorem checkStage_keepsId : KeepsId checkStage := by
  refine KeepsId.of fun s t => ?_
  unfold checkStage
  repeat' first
    | exact OkId.error
    | exact OkId.ok rfl
    | (have hid := fetchStage_id.some ‹fetchStage _ _ = (_, .ok _)›; exact OkId.ok hid)
    | (refine OkId.andThen fun _ _ _ => ?_)
    | split
    | dsimp only

theorem execStreamStage_touch (f : Func) (r : Fin 64) (s : State) : TouchNext 0x349ffffffe s (execStreamStage f r s) := by
  unfold execStreamStage
  repeat' first
    | with_reducible exact Touch.refl _
    | (with_reducible apply Touch.step (beginTask_touch (m := 0x349ffffffe) rfl ?_ (by first | exact checkLoop_keepsId | exact checkChain_keepsId | exact checkStage_keepsId | exact checkColl_keepsId | exact checkCat_keepsId))); exact rfl
    | (with_reducible apply Touch.step (checkStage_touch ..)); exact rfl
    | with_reducible apply TouchNext.next
    | intro _

theorem dropSiding_touch (s : State) (part : Nat) (w : Wing) (num : Nat) : Touch 0x800 s (dropSiding s part w num) := by
  unfold dropSiding
  repeat' first
    | with_reducible exact Touch.refl _
    | (with_reducible apply Touch.step (touch_sidings ..)); exact rfl

theorem performSidingClose_touch (s : State) (o : Origin) (e : Entry) : Touch 0x803c0c00 s (performSidingClose s o e) := by
  unfold performSidingClose
  repeat' first
    | with_reducible exact Touch.refl _
    | (with_reducible apply Touch.step (answerCommand_touch ..)); exact rfl
    | (with_reducible apply Touch.step (dropSiding_touch ..)); exact rfl
    | with_reducible apply Touch.ite
    | intro _
    | (with_reducible apply Touch.step (touch_cmds ..)); exact rfl

theorem execSidingClose_touch (f : Func) (r : Fin 64) (s : State) : TouchNext 0x480bc4c00 s (execSidingClose f r s) := by
  unfold execSidingClose
  repeat' first
    | with_reducible exact Touch.refl _
    | (with_reducible apply Touch.step (beginCommand_touch (m := 0x480bc4c00) rfl ?_)); exact rfl
    | (with_reducible apply Touch.step (endCmd_touch ..)); exact rfl
    | (with_reducible apply Touch.step (dropSiding_touch ..)); exact rfl
    | (with_reducible apply Touch.step (performSidingClose_touch ..)); exact rfl
    | with_reducible apply TouchNext.next
    | split
    | intro _

theorem putStage_touch (s : State) (id : Nat) (x : StageWork) : Touch 0x100 s (putStage s id x) := by
  unfold putStage
  repeat' first
    | with_reducible exact Touch.refl _
    | exact fun _ h => h
    | (with_reducible apply Touch.step (State_modTask_touch ..)); exact rfl

theorem mergeRank_touch (s : State) (t : Task) (x : StageWork) (rank : Nat) (phase : Nat) (xs : List Transfer1) : Touch 0x801c0008 s (mergeRank s t x rank phase xs).1 := by
  unfold mergeRank
  repeat' first
    | with_reducible exact Touch.refl _
    | (with_reducible apply Touch.step (addCtr_touch_sch ..)); exact rfl
    | with_reducible apply Touch.ite_fst
    | split
    | dsimp only
    | intro _

theorem expireHold_touch (s : State) (t : Task) (x : StageWork) (rank : Nat) : Touch 0x100 s (expireHold s t x rank) := by
  unfold expireHold
  repeat' first
    | with_reducible exact Touch.refl _
    | exact fun _ h => h
    | (with_reducible apply Touch.step (State_modTask_touch ..)); exact rfl

theorem fillRun_touch (t : Task) (s : State) (x : StageWork) (f : Nat × Nat × Bool) : Touch 0x38881c011c s (fillRun t s x f).1 := by
  unfold fillRun
  repeat' first
    | with_reducible exact Touch.refl _
    | (with_reducible apply Touch.step (noteStep_touch ..)); exact rfl
    | (with_reducible apply Touch.step (fillFirst_touch ..)); exact rfl
    | (with_reducible apply Touch.step (mergeRank_touch ..)); exact rfl
    | with_reducible refine Touch.fst (by assumption) ?_
    | split
    | dsimp only

theorem settleAliases_touch (s : State) (t : Task) (bs : List (LoopBody × Nat)) : Touch 0x3808000116 s (settleAliases s t bs) := by
  unfold settleAliases
  repeat' first
    | with_reducible exact Touch.refl _
    | (with_reducible apply Touch.step (scribbleRanges_touch ..)); exact rfl
    | with_reducible apply Touch.ite
    | refine ids_map fun y => ?_
    | split
    | dsimp only
    | intro _
    | (with_reducible apply Touch.step (touch_tasks ..)); exact rfl

theorem returnInputs_touch (s : State) (t : Task) (held : List HeldHandle) : Touch 0x810 s (returnInputs s t held) := by
  unfold returnInputs
  repeat' first
    | with_reducible exact Touch.refl _
    | assumption
    | (with_reducible apply Touch.step (release_touch ..)); exact rfl
    | (with_reducible apply Touch.step (State_modSiding_touch ..)); exact rfl
    | with_reducible apply Touch.foldl
    | split
    | dsimp only
    | intro _

theorem commitOutputs_touch (s : State) (t : Task) (held : List HeldHandle) (last : Bool) : Touch 0x800 s (commitOutputs s t held last) := by
  unfold commitOutputs
  repeat' first
    | with_reducible exact Touch.refl _
    | assumption
    | (with_reducible apply Touch.step (State_modSiding_touch ..)); exact rfl
    | with_reducible apply Touch.foldl
    | split
    | intro _

theorem returnRead_touch (s : State) (t : Task) (x : StageWork) : Touch 0x810 s (returnRead s t x).1 := by
  unfold returnRead
  repeat' first
    | with_reducible exact Touch.refl _
    | assumption
    | (with_reducible apply Touch.step (returnInputs_touch ..)); exact rfl
    | with_reducible apply Touch.foldl_fst
    | split
    | intro _

theorem settleStage_touch (s : State) (t : Task) (x : StageWork) : Touch 0x3c9ffffdfe s (settleStage s t x) := by
  unfold settleStage
  repeat' first
    | with_reducible exact Touch.refl _
    | (with_reducible apply Touch.step (faultTask_touch ..)); exact rfl
    | (with_reducible apply Touch.step (foldErr_touch (m := 0x3c9ffffdfe) ?_)); exact rfl
    | (with_reducible apply Touch.step (putStage_touch ..)); exact rfl
    | (with_reducible apply Touch.step (fillRun_touch ..)); exact rfl
    | (with_reducible apply Touch.step (returnRead_touch ..)); exact rfl
    | with_reducible refine Touch.fst (by assumption) ?_
    | split
    | dsimp only
    | intro _

theorem endIteration_touch (s : State) (t : Task) (x : StageWork) : Touch 0x3c9ffffdfe s (endIteration s t x) := by
  unfold endIteration
  repeat' first
    | with_reducible exact Touch.refl _
    | (with_reducible apply Touch.step (settleAliases_touch ..)); exact rfl
    | (with_reducible apply Touch.step (returnInputs_touch ..)); exact rfl
    | (with_reducible apply Touch.step (commitOutputs_touch ..)); exact rfl
    | (with_reducible apply Touch.step (settleStage_touch ..)); exact rfl
    | (with_reducible apply Touch.step (addCtr_touch_sch ..)); exact rfl
    | with_reducible apply Touch.ite
    | split
    | intro _

theorem startStage_touch (s : State) (t : Task) (x : StageWork) : Touch 0x3c9ffffdfe s (startStage s t x) := by
  unfold startStage
  repeat' first
    | with_reducible exact Touch.refl _
    | (with_reducible apply Touch.step (settleStage_touch ..)); exact rfl

theorem takeHandle_touch (s : State) (t : Task) (x : StageWork) (b : Binding) : Touch 0x3c9ffffdfe s (takeHandle s t x b) := by
  unfold takeHandle
  repeat' first
    | with_reducible exact Touch.refl _
    | (with_reducible apply Touch.step (stopTask_touch ..)); exact rfl
    | (with_reducible apply Touch.step (State_modSiding_touch ..)); exact rfl
    | (with_reducible apply Touch.step (putStage_touch ..)); exact rfl
    | (with_reducible apply Touch.step (settleStage_touch ..)); exact rfl
    | with_reducible apply Touch.ite
    | split
    | intro _

theorem acquireHandle_touch (s : State) (t : Task) (x : StageWork) (b : Binding) : Touch 0x3c9ffffdfe s (acquireHandle s t x b) := by
  unfold acquireHandle
  repeat' first
    | with_reducible exact Touch.refl _
    | (with_reducible apply Touch.step (State_modSiding_touch ..)); exact rfl
    | (with_reducible apply Touch.step (settleStage_touch ..)); exact rfl
    | with_reducible apply Touch.ite
    | split
    | dsimp only
    | intro _
    | (with_reducible apply Touch.step (touch_freeCtr ..)); exact rfl

theorem onStage_touch {m : Nat} {s : State} {id : Nat} {f : Task → StageWork → State}
    (hf : ∀ t x, Touch m s (f t x)) : Touch m s (onStage s id f) := by
  unfold onStage
  split
  · exact Touch.refl s
  · split
    · exact hf ..
    · exact Touch.refl s

theorem execStageHandleTake_touch (id : Nat) (binding : Fin 4) (s : State) : TouchNext 0x3c9ffffdfe s (execStageHandleTake id binding s) := by
  unfold execStageHandleTake
  repeat' first
    | with_reducible exact Touch.refl _
    | (with_reducible apply Touch.step (orWait_touch (m := 0x3c9ffffdfe) rfl ?_)); exact rfl
    | (with_reducible apply Touch.step (takeHandle_touch ..)); exact rfl
    | with_reducible apply onStage_touch
    | with_reducible apply TouchNext.next
    | with_reducible apply Touch.ite
    | split
    | intro _

theorem execStageHandleAcquire_touch (id : Nat) (binding : Fin 4) (s : State) : TouchNext 0x3c9ffffdfe s (execStageHandleAcquire id binding s) := by
  unfold execStageHandleAcquire
  repeat' first
    | with_reducible exact Touch.refl _
    | (with_reducible apply Touch.step (orWait_touch (m := 0x3c9ffffdfe) rfl ?_)); exact rfl
    | (with_reducible apply Touch.step (acquireHandle_touch ..)); exact rfl
    | with_reducible apply onStage_touch
    | with_reducible apply TouchNext.next
    | with_reducible apply Touch.ite
    | split
    | intro _

theorem execMergeHoldExpiry_touch (id : Nat) (core : Rank) (s : State) : TouchNext 0x100 s (execMergeHoldExpiry id core s) := by
  unfold execMergeHoldExpiry
  repeat' first
    | with_reducible exact Touch.refl _
    | (with_reducible apply Touch.step (expireHold_touch ..)); exact rfl
    | with_reducible apply onStage_touch
    | with_reducible apply TouchNext.next
    | intro _

theorem stepRun_touch (t : Task) (rank : Nat) (s : State) (x : StageWork) (p : Nat × CoreWalk) : Touch 0x38881c011e s (stepRun t rank s x p).1 := by
  unfold stepRun
  repeat' first
    | with_reducible exact Touch.refl _
    | (with_reducible apply Touch.step (walkStep_touch ..)); exact rfl
    | (with_reducible apply Touch.step (noteStep_touch ..)); exact rfl
    | (with_reducible apply Touch.step (mergeRank_touch ..)); exact rfl
    | with_reducible refine Touch.fst (by assumption) ?_
    | split
    | dsimp only

theorem stageStep_touch (s : State) (t : Task) (x : StageWork) (rank : Nat) : Touch 0x3c9ffffdfe s (stageStep s t x rank) := by
  unfold stageStep
  repeat' first
    | with_reducible exact Touch.refl _
    | (with_reducible apply Touch.step (faultTask_touch ..)); exact rfl
    | (with_reducible apply Touch.step (enterStep_touch ..)); exact rfl
    | (with_reducible apply Touch.step (foldErr_touch (m := 0x3c9ffffdfe) ?_)); exact rfl
    | (with_reducible apply Touch.step (putStage_touch ..)); exact rfl
    | (with_reducible apply Touch.step (settleStage_touch ..)); exact rfl
    | (with_reducible apply Touch.step (stepRun_touch ..)); exact rfl
    | with_reducible apply Touch.ite
    | with_reducible refine Touch.fst (by assumption) ?_
    | split
    | dsimp only
    | intro _

theorem runCopyIter_touch (s : State) (t : Task) (x : StageWork) (y : StageRun) : Touch 0x3c9ffffdfe s (runCopyIter s t x y) := by
  unfold runCopyIter
  repeat' first
    | with_reducible exact Touch.refl _
    | (with_reducible apply Touch.step (loadVa_touch ..)); exact rfl
    | (with_reducible apply Touch.step (saveVa_touch ..)); exact rfl
    | (with_reducible apply Touch.step (openTransfer_touch ..)); exact rfl
    | (with_reducible apply Touch.step (closeCore_touch ..)); exact rfl
    | (with_reducible apply Touch.step (passThrough_touch ..)); exact rfl
    | (with_reducible apply Touch.step (faultTask_touch ..)); exact rfl
    | (with_reducible apply Touch.step (copyBytes_touch ..)); exact rfl
    | (with_reducible apply Touch.step (mergeRank_touch ..)); exact rfl
    | (with_reducible apply Touch.step (endIteration_touch ..)); exact rfl
    | with_reducible refine Touch.fst (by assumption) ?_
    | split
    | dsimp only

theorem runLoadIter_touch (s : State) (t : Task) (x : StageWork) (y : StageRun) : Touch 0x3c9ffffdfe s (runLoadIter s t x y) := by
  unfold runLoadIter
  repeat' first
    | with_reducible exact Touch.refl _
    | (with_reducible apply Touch.step (loadNum_touch ..)); exact rfl
    | exact fun _ h => h
    | (with_reducible apply Touch.step (State_modTask_touch ..)); exact rfl
    | (with_reducible apply Touch.step (stopTask_touch ..)); exact rfl
    | (with_reducible apply Touch.step (faultTask_touch ..)); exact rfl
    | (with_reducible apply Touch.step (loadPages_touch ..)); exact rfl
    | (with_reducible apply Touch.step (State_modSiding_touch ..)); exact rfl
    | (with_reducible apply Touch.step (endIteration_touch ..)); exact rfl
    | with_reducible apply Touch.ite
    | with_reducible refine Touch.fst (by assumption) ?_
    | split
    | dsimp only
    | intro _

theorem execStageIterationEnd_touch (id : Nat) (s : State) : TouchNext 0x3c9ffffdfe s (execStageIterationEnd id s) := by
  unfold execStageIterationEnd
  repeat' first
    | with_reducible exact Touch.refl _
    | (with_reducible apply Touch.step (orWait_touch (m := 0x3c9ffffdfe) rfl ?_)); exact rfl
    | (with_reducible apply Touch.step (endIteration_touch ..)); exact rfl
    | with_reducible apply onStage_touch
    | (with_reducible apply Touch.step (runCopyIter_touch ..)); exact rfl
    | (with_reducible apply Touch.step (runLoadIter_touch ..)); exact rfl
    | with_reducible apply TouchNext.next
    | with_reducible apply Touch.ite
    | split
    | intro _

theorem execStageLoadResume_touch (id : Nat) (s : State) : TouchNext 0x3c9ffffdfe s (execStageLoadResume id s) := by
  unfold execStageLoadResume
  repeat' first
    | with_reducible exact Touch.refl _
    | (with_reducible apply Touch.step (orWait_touch (m := 0x3c9ffffdfe) rfl ?_)); exact rfl
    | (with_reducible apply Touch.step (runStageLoad_touch ..)); exact rfl
    | (with_reducible apply Touch.step (runLoadIter_touch ..)); exact rfl
    | with_reducible apply TouchNext.next
    | split
    | intro _

theorem captureDeadline_touch (s : State) (t : Task) (iter : Bool) : Touch 0x8 s (captureDeadline s t iter) := by
  unfold captureDeadline
  repeat' first
    | with_reducible exact Touch.refl _
    | (with_reducible apply Touch.step (State_modSch_touch ..)); exact rfl
    | with_reducible apply Touch.ite
    | intro _

theorem reportMiss_touch (s : State) (t : Task) (iter : Bool) : Touch 0x801c0108 s (reportMiss s t iter) := by
  unfold reportMiss
  repeat' first
    | with_reducible exact Touch.refl _
    | (with_reducible apply Touch.step (raise_touch ..)); exact rfl
    | exact fun _ h => h
    | (with_reducible apply Touch.step (State_modTask_touch ..)); exact rfl
    | (with_reducible apply Touch.step (logTask_touch ..)); exact rfl
    | (with_reducible apply Touch.step (stopTask_touch ..)); exact rfl
    | (with_reducible apply Touch.step (captureDeadline_touch ..)); exact rfl
    | (with_reducible apply Touch.step (addCtr_touch_sch ..)); exact rfl
    | with_reducible apply Touch.ite
    | split
    | intro _

theorem execDeadlineCheck_touch (t : Tile) (s : State) : TouchNext 0x801c0108 s (execDeadlineCheck t s) := by
  unfold execDeadlineCheck
  repeat' first
    | with_reducible exact Touch.refl _
    | assumption
    | (with_reducible apply Touch.step (reportMiss_touch ..)); exact rfl
    | with_reducible apply TouchNext.next
    | with_reducible apply Touch.foldl
    | split
    | dsimp only
    | intro _

theorem refreshBlocked_touch (s : State) (w : Wing) : Touch 0x100 s (refreshBlocked s w) := by
  unfold refreshBlocked
  repeat' first
    | with_reducible exact Touch.refl _
    | refine ids_map fun y => ?_
    | split
    | dsimp only
    | (with_reducible apply Touch.step (touch_tasks ..)); exact rfl

theorem captureStall_touch (s : State) (w : Wing) (v : Task) (members : Nat) : Touch 0x8 s (captureStall s w v members) := by
  unfold captureStall
  repeat' first
    | with_reducible exact Touch.refl _
    | (with_reducible apply Touch.step (State_modSch_touch ..)); exact rfl
    | with_reducible apply Touch.ite
    | intro _

theorem breakStall_touch (s : State) (w : Wing) (p : Nat) : Touch 0x801c0108 s (breakStall s w p) := by
  unfold breakStall
  repeat' first
    | with_reducible exact Touch.refl _
    | (with_reducible apply Touch.step (raise_touch ..)); exact rfl
    | (with_reducible apply Touch.step (stopTask_touch ..)); exact rfl
    | (with_reducible apply Touch.step (captureStall_touch ..)); exact rfl
    | (with_reducible apply Touch.step (addCtr_touch_sch ..)); exact rfl
    | refine ids_map fun y => ?_
    | split
    | dsimp only
    | (with_reducible apply Touch.step (touch_tasks ..)); exact rfl

theorem execStallCheck_touch (w : Wing) (s : State) : TouchNext 0x801c0108 s (execStallCheck w s) := by
  unfold execStallCheck
  repeat' first
    | with_reducible exact Touch.refl _
    | (with_reducible apply Touch.step (refreshBlocked_touch ..)); exact rfl
    | (with_reducible apply Touch.step (breakStall_touch ..)); exact rfl
    | with_reducible apply TouchNext.next
    | with_reducible apply Touch.foldl
    | intro _

end Sys2Proof.Machine
end

