-- ==== Sys2Proof/Laws/TouchTimetable.lean ====
section
/-!
SUPPORT. What the operations of Timetable may change.
-/

namespace Sys2Proof.Machine

theorem raiseTt_touch (s : State) (w : Wing) (ev : Nat) : Touch 0x801c0000 s (raiseTt s w ev) := by
  unfold raiseTt
  repeat' first
    | with_reducible exact Touch.refl _
    | (with_reducible apply Touch.step (raise_touch ..)); exact rfl

theorem learnWindow_touch (s : State) (w : Wing) (x : BitVec 256) : Touch 0x1000 s (learnWindow s w x) := by
  unfold learnWindow
  repeat' first
    | with_reducible exact Touch.refl _
    | (with_reducible apply Touch.step (State_modTt_touch ..)); exact rfl

theorem moveCount_touch (s : State) (w : Wing) (c : Nat) (slot : Nat) (frac : Nat) : Touch 0x801c1000 s (moveCount s w c slot frac) := by
  unfold moveCount
  repeat' first
    | with_reducible exact Touch.refl _
    | (with_reducible apply Touch.step (State_modTt_touch ..)); exact rfl
    | (with_reducible apply Touch.step (raiseTt_touch ..)); exact rfl
    | with_reducible apply Touch.ite
    | intro _

theorem dropLock_touch (s : State) (w : Wing) (l : Lock) : Touch 0x1000 s (dropLock s w l) := by
  unfold dropLock
  repeat' first
    | with_reducible exact Touch.refl _
    | (with_reducible apply Touch.step (State_modTt_touch ..)); exact rfl

theorem loseLock_touch (s : State) (w : Wing) : Touch 0x801c1000 s (loseLock s w) := by
  unfold loseLock
  repeat' first
    | with_reducible exact Touch.refl _
    | (with_reducible apply Touch.step (raiseTt_touch ..)); exact rfl
    | (with_reducible apply Touch.step (dropLock_touch ..)); exact rfl
    | (with_reducible apply Touch.step (addCtr_touch_tt ..)); exact rfl

theorem becomeBad_touch (s : State) (w : Wing) (own : Bool) (n : Neighbour) : Touch 0x801c1000 s (becomeBad s w own n) := by
  unfold becomeBad
  repeat' first
    | with_reducible exact Touch.refl _
    | (with_reducible apply Touch.step (State_modTt_touch ..)); exact rfl
    | (with_reducible apply Touch.step (raiseTt_touch ..)); exact rfl
    | (with_reducible apply Touch.step (dropLock_touch ..)); exact rfl
    | (with_reducible apply Touch.step (addCtr_touch_tt ..)); exact rfl
    | with_reducible apply Touch.ite
    | split
    | intro _

theorem checkRing_touch (s : State) (w : Wing) : Touch 0x801c1000 s (checkRing s w) := by
  unfold checkRing
  repeat' first
    | with_reducible exact Touch.refl _
    | (with_reducible apply Touch.step (State_modTt_touch ..)); exact rfl
    | (with_reducible apply Touch.step (becomeBad_touch ..)); exact rfl
    | with_reducible apply Touch.ite
    | split
    | intro _

theorem startAcquiring_touch (s : State) (w : Wing) : Touch 0x1000 s (startAcquiring s w) := by
  unfold startAcquiring
  repeat' first
    | with_reducible exact Touch.refl _
    | (with_reducible apply Touch.step (State_modTt_touch ..)); exact rfl

theorem linkChangedAt_touch (s : State) (w : Wing) : Touch 0x801c1000 s (linkChangedAt s w) := by
  unfold linkChangedAt
  repeat' first
    | with_reducible exact Touch.refl _
    | (with_reducible apply Touch.step (State_modTt_touch ..)); exact rfl
    | (with_reducible apply Touch.step (loseLock_touch ..)); exact rfl
    | with_reducible apply Touch.ite
    | split
    | intro _

theorem linkChanged_touch (s : State) : Touch 0x801c1000 s (linkChanged s) := by
  unfold linkChanged
  repeat' first
    | with_reducible exact Touch.refl _
    | (with_reducible apply Touch.step (linkChangedAt_touch ..)); exact rfl

theorem becomeSource_touch (s : State) (w : Wing) (c : Nat) (ev : Nat) : Touch 0x801c1000 s (becomeSource s w c ev) := by
  unfold becomeSource
  repeat' first
    | with_reducible exact Touch.refl _
    | (with_reducible apply Touch.step (State_modTt_touch ..)); exact rfl
    | (with_reducible apply Touch.step (raiseTt_touch ..)); exact rfl
    | (with_reducible apply Touch.step (moveCount_touch ..)); exact rfl
    | with_reducible apply Touch.ite
    | intro _

theorem noteListening_touch (s : State) (w : Wing) : Touch 0x1000 s (noteListening s w) := by
  unfold noteListening
  repeat' first
    | with_reducible exact Touch.refl _
    | (with_reducible apply Touch.step (State_modTt_touch ..)); exact rfl
    | with_reducible apply Touch.ite
    | intro _

theorem passTick_touch (s : State) (w : Wing) : Touch 0x1000 s (passTick s w) := by
  unfold passTick
  repeat' first
    | with_reducible exact Touch.refl _
    | (with_reducible apply Touch.step (State_modTt_touch ..)); exact rfl

theorem execTimetableTick_touch (w : Wing) (s : State) : TouchNext 0x801c1100 s (execTimetableTick w s) := by
  unfold execTimetableTick
  repeat' first
    | with_reducible exact Touch.refl _
    | (with_reducible apply Touch.step (State_modTt_touch ..)); exact rfl
    | (with_reducible apply Touch.step (refreshBlocked_touch ..)); exact rfl
    | (with_reducible apply Touch.step (moveCount_touch ..)); exact rfl
    | (with_reducible apply Touch.step (noteListening_touch ..)); exact rfl
    | (with_reducible apply Touch.step (passTick_touch ..)); exact rfl
    | with_reducible apply TouchNext.next
    | with_reducible apply Touch.ite
    | split
    | dsimp only
    | intro _

theorem execBeatEmit_touch (w : Wing) (s : State) : TouchNext 0x2801fb000 s (execBeatEmit w s) := by
  unfold execBeatEmit
  repeat' first
    | with_reducible exact Touch.refl _
    | (with_reducible apply Touch.step (State_modTt_touch ..)); exact rfl
    | (with_reducible apply Touch.step (sendTime_touch ..)); exact rfl
    | with_reducible apply TouchNext.next
    | with_reducible apply Touch.ite
    | split
    | dsimp only
    | intro _

theorem stepToBeat_touch (s : State) (w : Wing) (n : Neighbour) (x : BitVec 256) (e : Int) (slot : Nat) (frac : Nat) : Touch 0x801c1000 s (stepToBeat s w n x e slot frac) := by
  unfold stepToBeat
  repeat' first
    | with_reducible exact Touch.refl _
    | (with_reducible apply Touch.step (State_modTt_touch ..)); exact rfl
    | (with_reducible apply Touch.step (moveCount_touch ..)); exact rfl
    | with_reducible apply Touch.ite
    | dsimp only
    | intro _

theorem judgeBeat_touch (s : State) (w : Wing) (x : BitVec 256) (e : Int) : Touch 0x801c1000 s (judgeBeat s w x e) := by
  unfold judgeBeat
  repeat' first
    | with_reducible exact Touch.refl _
    | (with_reducible apply Touch.step (State_modTt_touch ..)); exact rfl
    | (with_reducible apply Touch.step (raiseTt_touch ..)); exact rfl
    | (with_reducible apply Touch.step (loseLock_touch ..)); exact rfl
    | (with_reducible apply Touch.step (addCtr_touch_tt ..)); exact rfl
    | with_reducible apply Touch.ite
    | split
    | dsimp only
    | intro _

theorem followBeat_touch (s : State) (w : Wing) (n : Neighbour) (x : BitVec 256) (slot : Nat) (frac : Nat) : Touch 0x801c1000 s (followBeat s w n x slot frac) := by
  unfold followBeat
  repeat' first
    | with_reducible exact Touch.refl _
    | (with_reducible apply Touch.step (State_modTt_touch ..)); exact rfl
    | (with_reducible apply Touch.step (learnWindow_touch ..)); exact rfl
    | (with_reducible apply Touch.step (becomeBad_touch ..)); exact rfl
    | (with_reducible apply Touch.step (stepToBeat_touch ..)); exact rfl
    | (with_reducible apply Touch.step (judgeBeat_touch ..)); exact rfl
    | (with_reducible apply Touch.step (addCtr_touch_tt ..)); exact rfl
    | with_reducible apply Touch.ite
    | split
    | dsimp only
    | intro _

theorem yieldSource_touch (s : State) (w : Wing) : Touch 0x801c1000 s (yieldSource s w) := by
  unfold yieldSource
  repeat' first
    | with_reducible exact Touch.refl _
    | (with_reducible apply Touch.step (raiseTt_touch ..)); exact rfl
    | (with_reducible apply Touch.step (dropLock_touch ..)); exact rfl
    | (with_reducible apply Touch.step (addCtr_touch_tt ..)); exact rfl

theorem recordBeat_touch (s : State) (w : Wing) (n : Neighbour) (hops : Nat) : Touch 0x1000 s (recordBeat s w n hops) := by
  unfold recordBeat
  repeat' first
    | with_reducible exact Touch.refl _
    | (with_reducible apply Touch.step (State_modTt_touch ..)); exact rfl

theorem countFollowed_touch (s : State) (w : Wing) (n : Neighbour) : Touch 0x801c1000 s (countFollowed s w n) := by
  unfold countFollowed
  repeat' first
    | with_reducible exact Touch.refl _
    | (with_reducible apply Touch.step (addCtr_touch_tt ..)); exact rfl
    | with_reducible apply Touch.ite
    | intro _

theorem receiveBeat_touch (s : State) (w : Wing) (n : Neighbour) (x : BitVec 256) (slot : Nat) (frac : Nat) : Touch 0x801c1000 s (receiveBeat s w n x slot frac) := by
  unfold receiveBeat
  repeat' first
    | with_reducible exact Touch.refl _
    | (with_reducible apply Touch.step (becomeBad_touch ..)); exact rfl
    | (with_reducible apply Touch.step (followBeat_touch ..)); exact rfl
    | (with_reducible apply Touch.step (yieldSource_touch ..)); exact rfl
    | (with_reducible apply Touch.step (recordBeat_touch ..)); exact rfl
    | (with_reducible apply Touch.step (countFollowed_touch ..)); exact rfl
    | with_reducible apply Touch.ite
    | split
    | dsimp only
    | intro _

theorem execBeatReceive_touch (w : Wing) (from_ : Neighbour) (beat : BitVec 256) (slot : Fin 16) (frac : BitVec 8) (s : State) : TouchNext 0x801c1000 s (execBeatReceive w from_ beat slot frac s) := by
  unfold execBeatReceive
  repeat' first
    | with_reducible exact Touch.refl _
    | (with_reducible apply Touch.step (receiveBeat_touch ..)); exact rfl
    | with_reducible apply TouchNext.next
    | with_reducible apply Touch.ite
    | intro _

theorem execMasterListenExpiry_touch (s : State) : TouchNext 0x801c1000 s (execMasterListenExpiry s) := by
  unfold execMasterListenExpiry
  repeat' first
    | with_reducible exact Touch.refl _
    | (with_reducible apply Touch.step (becomeSource_touch ..)); exact rfl
    | with_reducible apply TouchNext.next
    | with_reducible apply Touch.ite
    | split
    | intro _

theorem execBeatLossTimeout_touch (w : Wing) (s : State) : TouchNext 0x801c1000 s (execBeatLossTimeout w s) := by
  unfold execBeatLossTimeout
  repeat' first
    | with_reducible exact Touch.refl _
    | (with_reducible apply Touch.step (loseLock_touch ..)); exact rfl
    | with_reducible apply TouchNext.next
    | with_reducible apply Touch.ite
    | intro _

theorem execBackupTakeover_touch (s : State) : TouchNext 0x801c1000 s (execBackupTakeover s) := by
  unfold execBackupTakeover
  repeat' first
    | with_reducible exact Touch.refl _
    | (with_reducible apply Touch.step (becomeSource_touch ..)); exact rfl
    | with_reducible apply TouchNext.next
    | with_reducible apply Touch.ite
    | split
    | intro _

theorem forwardToken_touch (s : State) (w : Wing) (x : BitVec 256) : Touch 0x2801fb000 s (forwardToken s w x) := by
  unfold forwardToken
  repeat' first
    | with_reducible exact Touch.refl _
    | (with_reducible apply Touch.step (sendTime_touch ..)); exact rfl

theorem settleArrive_touch (s : State) (w : Wing) : Touch 0x2801fb000 s (settleArrive s w) := by
  unfold settleArrive
  repeat' first
    | with_reducible exact Touch.refl _
    | (with_reducible apply Touch.step (State_modTt_touch ..)); exact rfl
    | (with_reducible apply Touch.step (forwardToken_touch ..)); exact rfl
    | with_reducible apply Touch.ite
    | split
    | intro _

theorem execBarrierStart_touch (s : State) : TouchNext 0x2801fb000 s (execBarrierStart s) := by
  unfold execBarrierStart
  repeat' first
    | with_reducible exact Touch.refl _
    | (with_reducible apply Touch.step (State_modTt_touch ..)); exact rfl
    | (with_reducible apply Touch.step (sendTime_touch ..)); exact rfl
    | with_reducible apply TouchNext.next
    | with_reducible apply Touch.ite
    | intro _

theorem checkToken_touch (s : State) (w : Wing) (x : BitVec 256) : Touch 0x801c1000 s (checkToken s w x).1 := by
  unfold checkToken
  repeat' first
    | with_reducible exact Touch.refl _
    | (with_reducible apply Touch.step (State_modTt_touch ..)); exact rfl
    | (with_reducible apply Touch.step (learnWindow_touch ..)); exact rfl
    | (with_reducible apply Touch.step (becomeBad_touch ..)); exact rfl
    | (with_reducible apply Touch.step (yieldSource_touch ..)); exact rfl
    | with_reducible apply Touch.ite_fst
    | split
    | dsimp only
    | intro _

theorem advanceCount_touch (s : State) (w : Wing) (c : Nat) : Touch 0x801c1000 s (advanceCount s w c) := by
  unfold advanceCount
  repeat' first
    | with_reducible exact Touch.refl _
    | (with_reducible apply Touch.step (moveCount_touch ..)); exact rfl
    | (with_reducible apply Touch.step (addCtr_touch_tt ..)); exact rfl
    | with_reducible apply Touch.ite
    | intro _

theorem execArriveTokenReceive_touch (w : Wing) (token : BitVec 256) (s : State) : TouchNext 0x2801fb000 s (execArriveTokenReceive w token s) := by
  unfold execArriveTokenReceive
  repeat' first
    | with_reducible exact Touch.refl _
    | (with_reducible apply Touch.step (State_modTt_touch ..)); exact rfl
    | (with_reducible apply Touch.step (sendTime_touch ..)); exact rfl
    | (with_reducible apply Touch.step (settleArrive_touch ..)); exact rfl
    | (with_reducible apply Touch.step (checkToken_touch ..)); exact rfl
    | (with_reducible apply Touch.step (advanceCount_touch ..)); exact rfl
    | with_reducible apply TouchNext.next
    | with_reducible apply Touch.ite
    | with_reducible refine Touch.fst (by assumption) ?_
    | split
    | dsimp only
    | intro _

theorem takeAdvance_touch (s : State) (w : Wing) (c : Nat) : Touch 0x801c1000 s (takeAdvance s w c) := by
  unfold takeAdvance
  repeat' first
    | with_reducible exact Touch.refl _
    | (with_reducible apply Touch.step (State_modTt_touch ..)); exact rfl
    | (with_reducible apply Touch.step (raiseTt_touch ..)); exact rfl
    | (with_reducible apply Touch.step (advanceCount_touch ..)); exact rfl
    | with_reducible apply Touch.ite
    | split
    | intro _

theorem execAdvanceTokenReceive_touch (w : Wing) (token : BitVec 256) (s : State) : TouchNext 0x2801fb000 s (execAdvanceTokenReceive w token s) := by
  unfold execAdvanceTokenReceive
  repeat' first
    | with_reducible exact Touch.refl _
    | (with_reducible apply Touch.step (State_modTt_touch ..)); exact rfl
    | (with_reducible apply Touch.step (forwardToken_touch ..)); exact rfl
    | (with_reducible apply Touch.step (checkToken_touch ..)); exact rfl
    | (with_reducible apply Touch.step (takeAdvance_touch ..)); exact rfl
    | with_reducible apply TouchNext.next
    | with_reducible apply Touch.ite
    | with_reducible refine Touch.fst (by assumption) ?_
    | split
    | dsimp only
    | intro _

theorem execReconfigWindowStart_touch (w : Wing) (s : State) : TouchNext 0x1000 s (execReconfigWindowStart w s) := by
  unfold execReconfigWindowStart
  repeat' first
    | with_reducible exact Touch.refl _
    | (with_reducible apply Touch.step (State_modTt_touch ..)); exact rfl
    | with_reducible apply TouchNext.next
    | with_reducible apply Touch.ite
    | intro _

end Sys2Proof.Machine
end

