-- ==== Sys2Proof/Laws/TouchCatalogue.lean ====
section
/-!
SUPPORT. What the operations of Catalogue may change.
-/

namespace Sys2Proof.Machine

theorem fetchCat_touch (s : State) (t : Task) : Touch 0x10881c0014 s (fetchCat s t).1 := by
  unfold fetchCat
  repeat' first
    | with_reducible exact Touch.refl _
    | assumption
    | with_reducible refine andThen_touch ?_ (fun _ _ _ => ?_)
    | (with_reducible apply Touch.step (fetch5_touch ..)); exact rfl
    | with_reducible apply Touch.ite_fst
    | dsimp only
    | intro _

theorem captureSides_touch (s : State) (t : Task) (a2 : List Nat) : Touch 0x10881c0014 s (captureSides s t a2).1 := by
  induction a2 generalizing s t with
  | nil => unfold captureSides; exact Touch.refl _
  | cons _ _ ih =>
    unfold captureSides
    repeat' first
      | (with_reducible apply Touch.step (ih ..)); exact rfl
      | with_reducible exact Touch.refl _
      | assumption
      | with_reducible refine andThen_touch ?_ (fun _ _ _ => ?_)
      | (with_reducible apply Touch.step (loadNum_touch ..)); exact rfl
      | with_reducible apply Touch.ite
      | with_reducible apply Touch.ite_fst
      | with_reducible apply Touch.foldl
      | with_reducible apply Touch.foldl_fst
      | with_reducible refine Touch.fst (by assumption) ?_
      | with_reducible refine Touch.snd (by assumption) ?_
      | split
      | dsimp only
      | intro _

theorem checkCat_touch (a0 : State) (a1 : Task) : Touch 0x10881c0014 a0 (checkCat a0 a1).1 := by
  unfold checkCat
  repeat' first
    | with_reducible exact Touch.refl _
    | assumption
    | with_reducible refine andThen_touch ?_ (fun _ _ _ => ?_)
    | (with_reducible apply Touch.step (fetchCat_touch ..)); exact rfl
    | (with_reducible apply Touch.step (captureSides_touch ..)); exact rfl
    | with_reducible apply Touch.ite_fst
    | split
    | dsimp only
    | intro _

theorem fetchCat_id {s : State} {t : Task} : OkId t.id (fetchCat s t) := by
  unfold fetchCat
  repeat' first
    | exact OkId.error
    | exact OkId.ok rfl
    | (refine OkId.andThen fun _ _ _ => ?_)
    | split
    | dsimp only

theorem checkCat_keepsId : KeepsId checkCat := by
  refine KeepsId.of fun s t => ?_
  unfold checkCat
  repeat' first
    | exact OkId.error
    | exact OkId.ok rfl
    | (have hid := fetchCat_id.some ‹fetchCat _ _ = (_, .ok _)›; exact OkId.ok hid)
    | (refine OkId.andThen fun _ _ _ => ?_)
    | split
    | dsimp only

theorem execCatalogueQuery_touch (f : Func) (r : Fin 64) (s : State) : TouchNext 0x349ffffffe s (execCatalogueQuery f r s) := by
  unfold execCatalogueQuery
  repeat' first
    | with_reducible exact Touch.refl _
    | (with_reducible apply Touch.step (beginTask_touch (m := 0x349ffffffe) rfl ?_ (by first | exact checkLoop_keepsId | exact checkChain_keepsId | exact checkStage_keepsId | exact checkColl_keepsId | exact checkCat_keepsId))); exact rfl
    | (with_reducible apply Touch.step (checkCat_touch ..)); exact rfl
    | with_reducible apply TouchNext.next
    | intro _

theorem execCatalogueMerge_touch (f : Func) (r : Fin 64) (s : State) : TouchNext 0x349ffffffe s (execCatalogueMerge f r s) := by
  unfold execCatalogueMerge
  repeat' first
    | with_reducible exact Touch.refl _
    | (with_reducible apply Touch.step (beginTask_touch (m := 0x349ffffffe) rfl ?_ (by first | exact checkLoop_keepsId | exact checkChain_keepsId | exact checkStage_keepsId | exact checkColl_keepsId | exact checkCat_keepsId))); exact rfl
    | (with_reducible apply Touch.step (checkCat_touch ..)); exact rfl
    | with_reducible apply TouchNext.next
    | intro _

theorem liftCat_touch {α : Type} {m : Nat} {s : State} {r : State × Except AccErr α} (h : Touch m s r.1) :
    Touch m s (liftCat r).1 := by
  unfold liftCat
  split <;> exact h

theorem readSide_touch (s : State) (x : Index) (a2 : Nat) (a3 : Nat) (a4 : Nat) : Touch 0x10881c0014 s (readSide s x a2 a3 a4).1 := by
  induction a2 generalizing s x a3 a4 with
  | zero => unfold readSide; exact Touch.refl _
  | succ _ ih =>
    unfold readSide
    repeat' first
      | (with_reducible apply Touch.step (ih ..)); exact rfl
      | with_reducible exact Touch.refl _
      | assumption
      | with_reducible refine andThen_touch ?_ (fun _ _ _ => ?_)
      | (with_reducible apply Touch.step (loadVa_touch ..)); exact rfl
      | with_reducible apply liftCat_touch
      | with_reducible apply Touch.ite
      | with_reducible apply Touch.ite_fst
      | with_reducible apply Touch.foldl
      | with_reducible apply Touch.foldl_fst
      | with_reducible refine Touch.fst (by assumption) ?_
      | with_reducible refine Touch.snd (by assumption) ?_
      | split
      | dsimp only
      | intro _

theorem openIndex_touch (s : State) (t : Task) (n : Nat) : Touch 0x10881c0014 s (openIndex s t n).1 := by
  unfold openIndex
  repeat' first
    | with_reducible exact Touch.refl _
    | assumption
    | with_reducible refine andThen_touch ?_ (fun _ _ _ => ?_)
    | (with_reducible apply Touch.step (readSide_touch ..)); exact rfl

theorem tombClear_touch (s : State) (x : Index) (id : Nat) : Touch 0x10881c0014 s (tombClear s x id).1 := by
  unfold tombClear
  repeat' first
    | with_reducible exact Touch.refl _
    | assumption
    | with_reducible refine andThen_touch ?_ (fun _ _ _ => ?_)
    | (with_reducible apply Touch.step (loadNum_touch ..)); exact rfl
    | with_reducible apply liftCat_touch
    | with_reducible apply Touch.ite_fst
    | dsimp only
    | intro _

theorem nodeLive_touch (s : State) (x : Index) (id : Nat) : Touch 0x10881c0014 s (nodeLive s x id).1 := by
  unfold nodeLive
  repeat' first
    | with_reducible exact Touch.refl _
    | assumption
    | with_reducible refine andThen_touch ?_ (fun _ _ _ => ?_)
    | (with_reducible apply Touch.step (tombClear_touch ..)); exact rfl

theorem loadNode_touch (s : State) (g : Graph) (id : Nat) : Touch 0x10881c0014 s (loadNode s g id).1 := by
  unfold loadNode
  repeat' first
    | with_reducible exact Touch.refl _
    | (with_reducible apply Touch.step (loadVa_touch ..)); exact rfl
    | with_reducible apply liftCat_touch

theorem heldNode_touch (s : State) (g : Graph) (id : Nat) : Touch 0x0 s (heldNode s g id).1 := by
  unfold heldNode
  repeat' first
    | with_reducible exact Touch.refl _
    | with_reducible apply liftCat_touch

theorem counts_touch (s : State) (g : Graph) (id : Nat) (node : List Byte) : Touch 0x10881c0014 s (counts s g id node).1 := by
  unfold counts
  repeat' first
    | with_reducible exact Touch.refl _
    | assumption
    | with_reducible refine andThen_touch ?_ (fun _ _ _ => ?_)
    | (with_reducible apply Touch.step (nodeLive_touch ..)); exact rfl
    | split

theorem meet_touch (s : State) (g : Graph) (a : RoundState) (id : Nat) : Touch 0x10881c0014 s (meet s g a id).1 := by
  unfold meet
  repeat' first
    | with_reducible exact Touch.refl _
    | assumption
    | with_reducible refine andThen_touch ?_ (fun _ _ _ => ?_)
    | (with_reducible apply Touch.step (loadNode_touch ..)); exact rfl
    | (with_reducible apply Touch.step (heldNode_touch ..)); exact rfl
    | (with_reducible apply Touch.step (counts_touch ..)); exact rfl
    | with_reducible apply Touch.ite_fst
    | intro _

theorem visitSlots_touch (s : State) (g : Graph) (id : Nat) (node : List Byte) (a4 : Nat) (a5 : RoundState) : Touch 0x10881c0014 s (visitSlots s g id node a4 a5).1 := by
  induction a4 generalizing s g id node a5 with
  | zero => unfold visitSlots; exact Touch.refl _
  | succ _ ih =>
    unfold visitSlots
    repeat' first
      | (with_reducible apply Touch.step (ih ..)); exact rfl
      | with_reducible exact Touch.refl _
      | assumption
      | with_reducible refine andThen_touch ?_ (fun _ _ _ => ?_)
      | (with_reducible apply Touch.step (meet_touch ..)); exact rfl
      | with_reducible apply Touch.ite
      | with_reducible apply Touch.ite_fst
      | with_reducible apply Touch.foldl
      | with_reducible apply Touch.foldl_fst
      | with_reducible refine Touch.fst (by assumption) ?_
      | with_reducible refine Touch.snd (by assumption) ?_
      | split
      | dsimp only
      | intro _

theorem expand_touch (s : State) (g : Graph) (a : RoundState) : Touch 0x10881c0014 s (expand s g a).1 := by
  unfold expand
  repeat' first
    | with_reducible exact Touch.refl _
    | assumption
    | with_reducible refine andThen_touch ?_ (fun _ _ _ => ?_)
    | (with_reducible apply Touch.step (heldNode_touch ..)); exact rfl
    | (with_reducible apply Touch.step (visitSlots_touch ..)); exact rfl
    | with_reducible apply Touch.ite_fst
    | split
    | dsimp only
    | intro _

theorem roundOf_touch (s : State) (a1 : List (Graph × Search)) (a2 : List Nat) : Touch 0x10881c0014 s (roundOf s a1 a2).1 := by
  induction a1 generalizing s a2 with
  | nil => unfold roundOf; exact Touch.refl _
  | cons _ _ ih =>
    unfold roundOf
    repeat' first
      | (with_reducible apply Touch.step (ih ..)); exact rfl
      | with_reducible exact Touch.refl _
      | assumption
      | with_reducible refine andThen_touch ?_ (fun _ _ _ => ?_)
      | (with_reducible apply Touch.step (expand_touch ..)); exact rfl
      | with_reducible apply Touch.ite
      | with_reducible apply Touch.ite_fst
      | with_reducible apply Touch.foldl
      | with_reducible apply Touch.foldl_fst
      | with_reducible refine Touch.fst (by assumption) ?_
      | with_reducible refine Touch.snd (by assumption) ?_
      | split
      | dsimp only
      | intro _

theorem rounds_touch (s : State) (a1 : Nat) (a2 : List (Graph × Search)) : Touch 0x10881c0014 s (rounds s a1 a2).1 := by
  induction a1 generalizing s a2 with
  | zero => unfold rounds; exact Touch.refl _
  | succ _ ih =>
    unfold rounds
    repeat' first
      | (with_reducible apply Touch.step (ih ..)); exact rfl
      | with_reducible exact Touch.refl _
      | assumption
      | with_reducible refine andThen_touch ?_ (fun _ _ _ => ?_)
      | (with_reducible apply Touch.step (roundOf_touch ..)); exact rfl
      | with_reducible apply Touch.ite
      | with_reducible apply Touch.ite_fst
      | with_reducible apply Touch.foldl
      | with_reducible apply Touch.foldl_fst
      | with_reducible refine Touch.fst (by assumption) ?_
      | with_reducible refine Touch.snd (by assumption) ?_
      | split
      | dsimp only
      | intro _

theorem enterAll_touch (s : State) (entry : Nat) (a2 : List Graph) (a3 : List Nat) : Touch 0x10881c0014 s (enterAll s entry a2 a3).1 := by
  induction a2 generalizing s entry a3 with
  | nil => unfold enterAll; exact Touch.refl _
  | cons _ _ ih =>
    unfold enterAll
    repeat' first
      | (with_reducible apply Touch.step (ih ..)); exact rfl
      | with_reducible exact Touch.refl _
      | assumption
      | with_reducible refine andThen_touch ?_ (fun _ _ _ => ?_)
      | (with_reducible apply Touch.step (meet_touch ..)); exact rfl
      | with_reducible apply Touch.ite
      | with_reducible apply Touch.ite_fst
      | with_reducible apply Touch.foldl
      | with_reducible apply Touch.foldl_fst
      | with_reducible refine Touch.fst (by assumption) ?_
      | with_reducible refine Touch.snd (by assumption) ?_
      | split
      | dsimp only
      | intro _

theorem searchAll_touch (s : State) (gs : List Graph) (entry : Nat) : Touch 0x10881c0014 s (searchAll s gs entry).1 := by
  unfold searchAll
  repeat' first
    | with_reducible exact Touch.refl _
    | assumption
    | with_reducible refine andThen_touch ?_ (fun _ _ _ => ?_)
    | (with_reducible apply Touch.step (rounds_touch ..)); exact rfl
    | (with_reducible apply Touch.step (enterAll_touch ..)); exact rfl

theorem loadGroup_touch (s : State) (c : Ctx) (i : Nat) (h : Nat) (off : Nat) (a5 : List Nat) : Touch 0x30881c0014 s (loadGroup s c i h off a5).1 := by
  induction a5 generalizing s c i h off with
  | nil => unfold loadGroup; exact Touch.refl _
  | cons _ _ ih =>
    unfold loadGroup
    repeat' first
      | (with_reducible apply Touch.step (ih ..)); exact rfl
      | with_reducible exact Touch.refl _
      | assumption
      | with_reducible refine andThen_touch ?_ (fun _ _ _ => ?_)
      | (with_reducible apply Touch.step (loadVa_touch ..)); exact rfl
      | (with_reducible apply Touch.step (writeWindow_touch ..)); exact rfl
      | with_reducible apply Touch.ite
      | with_reducible apply Touch.ite_fst
      | with_reducible apply Touch.foldl
      | with_reducible apply Touch.foldl_fst
      | with_reducible refine Touch.fst (by assumption) ?_
      | with_reducible refine Touch.snd (by assumption) ?_
      | split
      | dsimp only
      | intro _

theorem scoreGroup_touch (s : State) (t : Task) (h : Nat) (qvec : Nat) (g : Nat) (ks : List (Nat × Nat)) : Touch 0x30881c011c s (scoreGroup s t h qvec g ks).1 := by
  unfold scoreGroup
  repeat' first
    | with_reducible exact Touch.refl _
    | assumption
    | with_reducible refine andThen_touch ?_ (fun _ _ _ => ?_)
    | (with_reducible apply Touch.step (loadVa_touch ..)); exact rfl
    | (with_reducible apply Touch.step (writeWindow_touch ..)); exact rfl
    | (with_reducible apply Touch.step (enterPhase_touch ..)); exact rfl
    | (with_reducible apply Touch.step (loadGroup_touch ..)); exact rfl

theorem scoreAll_touch (s : State) (t : Task) (h : Nat) (qvec : Nat) (a4 : Nat) (a5 : List (List (Nat × Nat))) : Touch 0x30881c011c s (scoreAll s t h qvec a4 a5).1 := by
  induction a5 generalizing s t h qvec a4 with
  | nil => unfold scoreAll; exact Touch.refl _
  | cons _ _ ih =>
    unfold scoreAll
    repeat' first
      | (with_reducible apply Touch.step (ih ..)); exact rfl
      | with_reducible exact Touch.refl _
      | assumption
      | with_reducible refine andThen_touch ?_ (fun _ _ _ => ?_)
      | (with_reducible apply Touch.step (scoreGroup_touch ..)); exact rfl
      | with_reducible apply Touch.ite
      | with_reducible apply Touch.ite_fst
      | with_reducible apply Touch.foldl
      | with_reducible apply Touch.foldl_fst
      | with_reducible refine Touch.fst (by assumption) ?_
      | with_reducible refine Touch.snd (by assumption) ?_
      | split
      | dsimp only
      | intro _

theorem blockGraph_touch (s : State) (t : Task) (x : Index) (be : Nat) : Touch 0x10881c0014 s (blockGraph s t x be).1 := by
  unfold blockGraph
  repeat' first
    | with_reducible exact Touch.refl _
    | assumption
    | with_reducible refine andThen_touch ?_ (fun _ _ _ => ?_)
    | (with_reducible apply Touch.step (loadVa_touch ..)); exact rfl
    | with_reducible apply liftCat_touch

theorem blockGraphs_touch (s : State) (t : Task) (x : Index) (a3 : List Nat) : Touch 0x10881c0014 s (blockGraphs s t x a3).1 := by
  induction a3 generalizing s t x with
  | nil => unfold blockGraphs; exact Touch.refl _
  | cons _ _ ih =>
    unfold blockGraphs
    repeat' first
      | (with_reducible apply Touch.step (ih ..)); exact rfl
      | with_reducible exact Touch.refl _
      | assumption
      | with_reducible refine andThen_touch ?_ (fun _ _ _ => ?_)
      | (with_reducible apply Touch.step (blockGraph_touch ..)); exact rfl
      | with_reducible apply Touch.ite
      | with_reducible apply Touch.ite_fst
      | with_reducible apply Touch.foldl
      | with_reducible apply Touch.foldl_fst
      | with_reducible refine Touch.fst (by assumption) ?_
      | with_reducible refine Touch.snd (by assumption) ?_
      | split
      | dsimp only
      | intro _

theorem searchBlock_touch (s : State) (t : Task) (x : Index) (be : Nat) (gq : Graph × Search) : Touch 0x30881c011c s (searchBlock s t x be gq).1 := by
  unfold searchBlock
  repeat' first
    | with_reducible exact Touch.refl _
    | assumption
    | with_reducible refine andThen_touch ?_ (fun _ _ _ => ?_)
    | (with_reducible apply Touch.step (scoreAll_touch ..)); exact rfl
    | with_reducible apply Touch.ite_fst
    | dsimp only
    | intro _

theorem pageNodes_touch (s : State) (g : Graph) (a2 : Nat) (a3 : Nat) : Touch 0x10881c0014 s (pageNodes s g a2 a3).1 := by
  induction a2 generalizing s g a3 with
  | zero => unfold pageNodes; exact Touch.refl _
  | succ _ ih =>
    unfold pageNodes
    repeat' first
      | (with_reducible apply Touch.step (ih ..)); exact rfl
      | with_reducible exact Touch.refl _
      | assumption
      | with_reducible refine andThen_touch ?_ (fun _ _ _ => ?_)
      | (with_reducible apply Touch.step (nodeLive_touch ..)); exact rfl
      | (with_reducible apply Touch.step (loadNode_touch ..)); exact rfl
      | with_reducible apply Touch.ite
      | with_reducible apply Touch.ite_fst
      | with_reducible apply Touch.foldl
      | with_reducible apply Touch.foldl_fst
      | with_reducible refine Touch.fst (by assumption) ?_
      | with_reducible refine Touch.snd (by assumption) ?_
      | split
      | dsimp only
      | intro _

theorem pageItems_touch (s : State) (x : Index) : Touch 0x10881c0014 s (pageItems s x).1 := by
  unfold pageItems
  repeat' first
    | with_reducible exact Touch.refl _
    | assumption
    | with_reducible refine andThen_touch ?_ (fun _ _ _ => ?_)
    | (with_reducible apply Touch.step (pageNodes_touch ..)); exact rfl

theorem pageScans_touch (s : State) (a1 : List Index) : Touch 0x10881c0014 s (pageScans s a1).1 := by
  induction a1 generalizing s with
  | nil => unfold pageScans; exact Touch.refl _
  | cons _ _ ih =>
    unfold pageScans
    repeat' first
      | (with_reducible apply Touch.step (ih ..)); exact rfl
      | with_reducible exact Touch.refl _
      | assumption
      | with_reducible refine andThen_touch ?_ (fun _ _ _ => ?_)
      | (with_reducible apply Touch.step (pageItems_touch ..)); exact rfl
      | with_reducible apply Touch.ite
      | with_reducible apply Touch.ite_fst
      | with_reducible apply Touch.foldl
      | with_reducible apply Touch.foldl_fst
      | with_reducible refine Touch.fst (by assumption) ?_
      | with_reducible refine Touch.snd (by assumption) ?_
      | split
      | dsimp only
      | intro _

theorem forcedIds_touch (s : State) (x : Index) (va : Nat) : Touch 0x10881c0014 s (forcedIds s x va).1 := by
  unfold forcedIds
  repeat' first
    | with_reducible exact Touch.refl _
    | assumption
    | with_reducible refine andThen_touch ?_ (fun _ _ _ => ?_)
    | (with_reducible apply Touch.step (loadVa_touch ..)); exact rfl
    | with_reducible apply liftCat_touch
    | with_reducible apply Touch.ite_fst
    | dsimp only
    | intro _

theorem selectBlock_touch (s : State) (t : Task) (x : Index) (items : List PageItem) (be : Nat) : Touch 0x10881c0014 s (selectBlock s t x items be).1 := by
  unfold selectBlock
  repeat' first
    | with_reducible exact Touch.refl _
    | assumption
    | with_reducible refine andThen_touch ?_ (fun _ _ _ => ?_)
    | (with_reducible apply Touch.step (loadVa_touch ..)); exact rfl
    | with_reducible apply liftCat_touch
    | (with_reducible apply Touch.step (forcedIds_touch ..)); exact rfl
    | split

theorem deliverBlock_touch (t : Task) (x : Index) (i : Nat) (p : BlockResult) (runs : List (Nat × List Byte)) (s : State) : Touch 0x30881e507e s (deliverBlock t x i p runs s).1 := by
  unfold deliverBlock
  repeat' first
    | with_reducible exact Touch.refl _
    | (with_reducible apply Touch.step (addCtr_touch ..)); exact rfl
    | (with_reducible apply Touch.step (writeRuns_touch ..)); exact rfl
    | with_reducible apply Touch.ite
    | with_reducible refine Touch.fst (by assumption) ?_
    | split
    | intro _

theorem runSearch_touch (t : Task) (x : Index) (a2 : Nat) (a3 : List (Nat × Graph × Search)) (a4 : State) (a5 : AFlags) : Touch 0x30881e517e a4 (runSearch t x a2 a3 a4 a5).1 := by
  induction a3 generalizing t x a2 a4 a5 with
  | nil => unfold runSearch; exact Touch.refl _
  | cons _ _ ih =>
    unfold runSearch
    repeat' first
      | (with_reducible apply Touch.step (ih ..)); exact rfl
      | with_reducible exact Touch.refl _
      | assumption
      | with_reducible refine andThen_touch ?_ (fun _ _ _ => ?_)
      | (with_reducible apply Touch.step (searchBlock_touch ..)); exact rfl
      | (with_reducible apply Touch.step (deliverBlock_touch ..)); exact rfl
      | with_reducible apply Touch.ite
      | with_reducible apply Touch.ite_fst
      | with_reducible apply Touch.foldl
      | with_reducible apply Touch.foldl_fst
      | with_reducible refine Touch.fst (by assumption) ?_
      | with_reducible refine Touch.snd (by assumption) ?_
      | split
      | dsimp only
      | intro _

theorem runSelect_touch (t : Task) (xs : List Index) (scans : List (Nat × List PageItem)) (a3 : Nat) (a4 : List Nat) (a5 : State) : Touch 0x30881e507e a5 (runSelect t xs scans a3 a4 a5).1 := by
  induction a4 generalizing t xs scans a3 a5 with
  | nil => unfold runSelect; exact Touch.refl _
  | cons _ _ ih =>
    unfold runSelect
    repeat' first
      | (with_reducible apply Touch.step (ih ..)); exact rfl
      | with_reducible exact Touch.refl _
      | assumption
      | with_reducible refine andThen_touch ?_ (fun _ _ _ => ?_)
      | (with_reducible apply Touch.step (selectBlock_touch ..)); exact rfl
      | (with_reducible apply Touch.step (deliverBlock_touch ..)); exact rfl
      | with_reducible apply Touch.ite
      | with_reducible apply Touch.ite_fst
      | with_reducible apply Touch.foldl
      | with_reducible apply Touch.foldl_fst
      | with_reducible refine Touch.fst (by assumption) ?_
      | with_reducible refine Touch.snd (by assumption) ?_
      | split
      | dsimp only
      | intro _

theorem openAll_touch (s : State) (t : Task) (a2 : List Nat) : Touch 0x10881c0014 s (openAll s t a2).1 := by
  induction a2 generalizing s t with
  | nil => unfold openAll; exact Touch.refl _
  | cons _ _ ih =>
    unfold openAll
    repeat' first
      | (with_reducible apply Touch.step (ih ..)); exact rfl
      | with_reducible exact Touch.refl _
      | assumption
      | with_reducible refine andThen_touch ?_ (fun _ _ _ => ?_)
      | (with_reducible apply Touch.step (openIndex_touch ..)); exact rfl
      | with_reducible apply Touch.ite
      | with_reducible apply Touch.ite_fst
      | with_reducible apply Touch.foldl
      | with_reducible apply Touch.foldl_fst
      | with_reducible refine Touch.fst (by assumption) ?_
      | with_reducible refine Touch.snd (by assumption) ?_
      | split
      | dsimp only
      | intro _

theorem querySearches_touch (s : State) (t : Task) (x : Index) : Touch 0x10881c0014 s (querySearches s t x).1 := by
  unfold querySearches
  repeat' first
    | with_reducible exact Touch.refl _
    | assumption
    | with_reducible refine andThen_touch ?_ (fun _ _ _ => ?_)
    | (with_reducible apply Touch.step (searchAll_touch ..)); exact rfl
    | (with_reducible apply Touch.step (blockGraphs_touch ..)); exact rfl
    | with_reducible apply Touch.ite_fst
    | dsimp only
    | intro _

theorem runQuery_touch (s : State) (t : Task) : Touch 0x30881e517e s (runQuery s t).1 := by
  unfold runQuery
  repeat' first
    | with_reducible exact Touch.refl _
    | assumption
    | with_reducible refine andThen_touch ?_ (fun _ _ _ => ?_)
    | (with_reducible apply Touch.step (pageScans_touch ..)); exact rfl
    | (with_reducible apply Touch.step (runSearch_touch ..)); exact rfl
    | (with_reducible apply Touch.step (runSelect_touch ..)); exact rfl
    | (with_reducible apply Touch.step (openAll_touch ..)); exact rfl
    | (with_reducible apply Touch.step (querySearches_touch ..)); exact rfl
    | with_reducible apply Touch.ite_fst
    | split
    | dsimp only
    | intro _

theorem catWrite_touch (s : State) (c : Ctx) (va : Nat) (bs : List Byte) : Touch 0x30881c0016 s (catWrite s c va bs).1 := by
  unfold catWrite
  repeat' first
    | with_reducible exact Touch.refl _
    | (with_reducible apply Touch.step (saveVa_touch ..)); exact rfl
    | with_reducible refine Touch.fst (by assumption) ?_
    | split

theorem catCopy_touch (s : State) (c : Ctx) (src : Nat) (dst : Nat) (n : Nat) : Touch 0x30881c0016 s (catCopy s c src dst n).1 := by
  unfold catCopy
  repeat' first
    | with_reducible exact Touch.refl _
    | assumption
    | with_reducible refine andThen_touch ?_ (fun _ _ _ => ?_)
    | (with_reducible apply Touch.step (loadVa_touch ..)); exact rfl
    | with_reducible apply liftCat_touch
    | (with_reducible apply Touch.step (catWrite_touch ..)); exact rfl

theorem setSlot_touch (s : State) (g : Graph) (u : Nat) (j : Nat) (x : Nat) : Touch 0x30881c0016 s (setSlot s g u j x).1 := by
  unfold setSlot
  repeat' first
    | with_reducible exact Touch.refl _
    | (with_reducible apply Touch.step (catWrite_touch ..)); exact rfl

theorem nodeDist_touch (s : State) (g : Graph) (node : List Byte) (v : Nat) : Touch 0x10881c0014 s (nodeDist s g node v).1 := by
  unfold nodeDist
  repeat' first
    | with_reducible exact Touch.refl _
    | assumption
    | with_reducible refine andThen_touch ?_ (fun _ _ _ => ?_)
    | (with_reducible apply Touch.step (loadNode_touch ..)); exact rfl

theorem worstSlot_touch (g : Graph) (u : Nat) (node : List Byte) (a3 : Nat) (a4 : State) (a5 : Option (Nat × Nat × Nat)) : Touch 0x10881c0014 a4 (worstSlot g u node a3 a4 a5).1 := by
  induction a3 generalizing g u node a4 a5 with
  | zero => unfold worstSlot; exact Touch.refl _
  | succ _ ih =>
    unfold worstSlot
    repeat' first
      | (with_reducible apply Touch.step (ih ..)); exact rfl
      | with_reducible exact Touch.refl _
      | assumption
      | with_reducible refine andThen_touch ?_ (fun _ _ _ => ?_)
      | (with_reducible apply Touch.step (nodeDist_touch ..)); exact rfl
      | with_reducible apply Touch.ite
      | with_reducible apply Touch.ite_fst
      | with_reducible apply Touch.foldl
      | with_reducible apply Touch.foldl_fst
      | with_reducible refine Touch.fst (by assumption) ?_
      | with_reducible refine Touch.snd (by assumption) ?_
      | split
      | dsimp only
      | intro _

theorem linkInto_touch (g : Graph) (x : Nat) (s : State) (n : Nat) (u : Nat) : Touch 0x30881c0016 s (linkInto g x s n u).1 := by
  unfold linkInto
  repeat' first
    | with_reducible exact Touch.refl _
    | assumption
    | with_reducible refine andThen_touch ?_ (fun _ _ _ => ?_)
    | (with_reducible apply Touch.step (loadNode_touch ..)); exact rfl
    | (with_reducible apply Touch.step (setSlot_touch ..)); exact rfl
    | (with_reducible apply Touch.step (nodeDist_touch ..)); exact rfl
    | (with_reducible apply Touch.step (worstSlot_touch ..)); exact rfl
    | with_reducible apply Touch.ite_fst
    | split
    | dsimp only
    | intro _

theorem linkInsert_touch (t : Task) (x : Index) (ent : Nat) (s : State) (a : Merging) (e : SideEntry) : Touch 0x30881c0016 s (linkInsert t x ent s a e).1 := by
  unfold linkInsert
  repeat' first
    | with_reducible exact Touch.refl _
    | assumption
    | with_reducible refine andThen_touch ?_ (fun _ _ _ => ?_)
    | (with_reducible apply Touch.step (foldErr_touch (m := 0x30881c0016) ?_)); exact rfl
    | (with_reducible apply Touch.step (searchAll_touch ..)); exact rfl
    | (with_reducible apply Touch.step (catWrite_touch ..)); exact rfl
    | (with_reducible apply Touch.step (linkInto_touch ..)); exact rfl
    | dsimp only
    | intro _

theorem foldInsert_touch (t : Task) (x : Index) (ent : Nat) (s : State) (a : Merging) (e : SideEntry) : Touch 0x30881c0016 s (foldInsert t x ent s a e).1 := by
  unfold foldInsert
  repeat' first
    | with_reducible exact Touch.refl _
    | assumption
    | with_reducible refine andThen_touch ?_ (fun _ _ _ => ?_)
    | (with_reducible apply Touch.step (loadNum_touch ..)); exact rfl
    | with_reducible apply liftCat_touch
    | (with_reducible apply Touch.step (catWrite_touch ..)); exact rfl
    | (with_reducible apply Touch.step (linkInsert_touch ..)); exact rfl
    | with_reducible apply Touch.ite_fst
    | dsimp only
    | intro _

theorem copyOld_touch (s : State) (t : Task) (x : Index) : Touch 0x30881c0016 s (copyOld s t x).1 := by
  unfold copyOld
  repeat' first
    | with_reducible exact Touch.refl _
    | assumption
    | with_reducible refine andThen_touch ?_ (fun _ _ _ => ?_)
    | (with_reducible apply Touch.step (loadVa_touch ..)); exact rfl
    | (with_reducible apply Touch.step (foldErr_touch (m := 0x30881c0016) ?_)); exact rfl
    | with_reducible apply liftCat_touch
    | (with_reducible apply Touch.step (catWrite_touch ..)); exact rfl
    | (with_reducible apply Touch.step (catCopy_touch ..)); exact rfl
    | with_reducible apply Touch.ite_fst
    | dsimp only
    | intro _

theorem runMerge_touch (s : State) (t : Task) : Touch 0x30881e507e s (runMerge s t).1 := by
  unfold runMerge
  repeat' first
    | with_reducible exact Touch.refl _
    | assumption
    | (with_reducible apply Touch.step (addCtr_touch ..)); exact rfl
    | with_reducible refine andThen_touch ?_ (fun _ _ _ => ?_)
    | (with_reducible apply Touch.step (foldErr_touch (m := 0x30881e507e) ?_)); exact rfl
    | (with_reducible apply Touch.step (openIndex_touch ..)); exact rfl
    | (with_reducible apply Touch.step (catWrite_touch ..)); exact rfl
    | (with_reducible apply Touch.step (foldInsert_touch ..)); exact rfl
    | (with_reducible apply Touch.step (copyOld_touch ..)); exact rfl
    | split
    | intro _

theorem captureCat_touch (s : State) (t : Tile) (side : Bool) (id : Nat) (index : Nat) : Touch 0x40 s (captureCat s t side id index) := by
  unfold captureCat
  repeat' first
    | with_reducible exact Touch.refl _
    | (with_reducible apply Touch.step (State_modCat_touch ..)); exact rfl
    | with_reducible apply Touch.ite
    | intro _

theorem failCat_touch (s : State) (t : Task) (e : CatErr) : Touch 0x349ffffdfe s (failCat s t e) := by
  unfold failCat
  repeat' first
    | with_reducible exact Touch.refl _
    | (with_reducible apply Touch.step (raise_touch ..)); exact rfl
    | (with_reducible apply Touch.step (faultTask_touch ..)); exact rfl
    | (with_reducible apply Touch.step (captureCat_touch ..)); exact rfl
    | (with_reducible apply Touch.step (addCtr_touch_cat ..)); exact rfl
    | split

theorem runCat_touch (s : State) (t : Task) : Touch 0x349ffffdfe s (runCat s t) := by
  unfold runCat
  repeat' first
    | with_reducible exact Touch.refl _
    | exact fun _ h => h
    | (with_reducible apply Touch.step (State_modTask_touch ..)); exact rfl
    | (with_reducible apply Touch.step (runQuery_touch ..)); exact rfl
    | (with_reducible apply Touch.step (runMerge_touch ..)); exact rfl
    | (with_reducible apply Touch.step (failCat_touch ..)); exact rfl
    | with_reducible apply Touch.ite
    | with_reducible refine Touch.fst (by assumption) ?_
    | split
    | dsimp only
    | intro _

end Sys2Proof.Machine
end

