-- ==== Sys2Proof/Laws/TouchJunction.lean ====
section
/-!
SUPPORT. What the operations of Junction may change.
-/

namespace Sys2Proof.Machine

theorem hideRegs_touch (s : State) (w : Wing) : Touch 0x4000 s (hideRegs s w) := by
  unfold hideRegs
  repeat' first
    | with_reducible exact Touch.refl _
    | (with_reducible apply Touch.step (State_modJn_touch ..)); exact rfl

theorem checkColl_touch (a0 : State) (a1 : Task) : Touch 0x10881c0014 a0 (checkColl a0 a1).1 := by
  unfold checkColl
  repeat' first
    | with_reducible exact Touch.refl _
    | assumption
    | with_reducible refine andThen_touch ?_ (fun _ _ _ => ?_)
    | (with_reducible apply Touch.step (fetchBodyPlan_touch ..)); exact rfl
    | with_reducible apply Touch.ite_fst
    | split
    | dsimp only
    | intro _

theorem checkColl_keepsId : KeepsId checkColl := by
  refine KeepsId.of fun s t => ?_
  unfold checkColl
  repeat' first
    | exact OkId.error
    | exact OkId.ok rfl
    | (have hid := fetchBodyPlan_id.some ‹fetchBodyPlan _ _ _ _ = (_, .ok _)›; exact OkId.ok hid)
    | (refine OkId.andThen fun _ _ _ => ?_)
    | split
    | dsimp only

theorem execCollectiveBroadcast_touch (f : Func) (r : Fin 64) (s : State) : TouchNext 0x349ffffffe s (execCollectiveBroadcast f r s) := by
  unfold execCollectiveBroadcast
  repeat' first
    | with_reducible exact Touch.refl _
    | (with_reducible apply Touch.step (beginTask_touch (m := 0x349ffffffe) rfl ?_ (by first | exact checkLoop_keepsId | exact checkChain_keepsId | exact checkStage_keepsId | exact checkColl_keepsId | exact checkCat_keepsId))); exact rfl
    | (with_reducible apply Touch.step (checkColl_touch ..)); exact rfl
    | with_reducible apply TouchNext.next
    | intro _

theorem execCollectiveReduce_touch (f : Func) (r : Fin 64) (s : State) : TouchNext 0x349ffffffe s (execCollectiveReduce f r s) := by
  unfold execCollectiveReduce
  repeat' first
    | with_reducible exact Touch.refl _
    | (with_reducible apply Touch.step (beginTask_touch (m := 0x349ffffffe) rfl ?_ (by first | exact checkLoop_keepsId | exact checkChain_keepsId | exact checkStage_keepsId | exact checkColl_keepsId | exact checkCat_keepsId))); exact rfl
    | (with_reducible apply Touch.step (checkColl_touch ..)); exact rfl
    | with_reducible apply TouchNext.next
    | intro _

theorem State_modColl_touch (s : State) (w : Wing) (k : CollKey) (f : Coll → Coll) : Touch 0x4000 s (State.modColl s w k f) := by
  unfold State.modColl
  repeat' first
    | with_reducible exact Touch.refl _
    | (with_reducible apply Touch.step (State_modJn_touch ..)); exact rfl

theorem holdBack_touch (s : State) (w : Wing) (m : HeldMessage) : Touch 0x4000 s (holdBack s w m) := by
  unfold holdBack
  repeat' first
    | with_reducible exact Touch.refl _
    | (with_reducible apply Touch.step (State_modJn_touch ..)); exact rfl

theorem passMessage_touch (s : State) (w : Wing) (k : CollKey) (chunk : Bool) : Touch 0x801c4000 s (passMessage s w k chunk) := by
  unfold passMessage
  repeat' first
    | with_reducible exact Touch.refl _
    | (with_reducible apply Touch.step (State_modJn_touch ..)); exact rfl
    | (with_reducible apply Touch.step (holdBack_touch ..)); exact rfl
    | (with_reducible apply Touch.step (addCtr_touch_jn ..)); exact rfl
    | with_reducible apply Touch.ite
    | split
    | dsimp only
    | intro _

theorem admitHeld_touch (s : State) (w : Wing) : Touch 0x801c4000 s (admitHeld s w) := by
  unfold admitHeld
  repeat' first
    | with_reducible exact Touch.refl _
    | (with_reducible apply Touch.step (State_modJn_touch ..)); exact rfl
    | (with_reducible apply Touch.step (holdBack_touch ..)); exact rfl
    | (with_reducible apply Touch.step (passMessage_touch ..)); exact rfl
    | with_reducible apply Touch.foldl
    | split
    | intro _

theorem closeColl_touch (s : State) (w : Wing) (k : CollKey) : Touch 0x801c4000 s (closeColl s w k) := by
  unfold closeColl
  repeat' first
    | with_reducible exact Touch.refl _
    | (with_reducible apply Touch.step (State_modJn_touch ..)); exact rfl
    | (with_reducible apply Touch.step (admitHeld_touch ..)); exact rfl

theorem dropHeld_touch (s : State) (w : Wing) (k : CollKey) : Touch 0x4000 s (dropHeld s w k) := by
  unfold dropHeld
  repeat' first
    | with_reducible exact Touch.refl _
    | (with_reducible apply Touch.step (State_modJn_touch ..)); exact rfl

theorem captureJn_touch (s : State) (w : Wing) (k : CollKey) (cause : Nat) : Touch 0x4000 s (captureJn s w k cause) := by
  unfold captureJn
  repeat' first
    | with_reducible exact Touch.refl _
    | (with_reducible apply Touch.step (State_modJn_touch ..)); exact rfl
    | with_reducible apply Touch.ite
    | intro _

theorem reportColl_touch (s : State) (w : Wing) (k : CollKey) (part : Nat) (cause : Nat) : Touch 0x801c4000 s (reportColl s w k part cause) := by
  unfold reportColl
  repeat' first
    | with_reducible exact Touch.refl _
    | (with_reducible apply Touch.step (raise_touch ..)); exact rfl
    | (with_reducible apply Touch.step (captureJn_touch ..)); exact rfl

theorem failColl_touch (s : State) (w : Wing) (k : CollKey) (cause : Nat) : Touch 0x801c4100 s (failColl s w k cause) := by
  unfold failColl
  repeat' first
    | with_reducible exact Touch.refl _
    | (with_reducible apply Touch.step (stopTask_touch ..)); exact rfl
    | (with_reducible apply Touch.step (closeColl_touch ..)); exact rfl
    | (with_reducible apply Touch.step (dropHeld_touch ..)); exact rfl
    | (with_reducible apply Touch.step (reportColl_touch ..)); exact rfl
    | split

theorem failCollAcc_touch (s : State) (w : Wing) (k : CollKey) (part : Nat) (e : AccErr) : Touch 0x349ffffdfe s (failCollAcc s w k part e) := by
  unfold failCollAcc
  repeat' first
    | with_reducible exact Touch.refl _
    | (with_reducible apply Touch.step (failAcc_touch ..)); exact rfl
    | (with_reducible apply Touch.step (failColl_touch ..)); exact rfl

theorem jnLoad_touch (s : State) (w : Wing) (c : Ctx) (i : Nat) (va : Nat) (n : Nat) : Touch 0x10881c401c s (jnLoad s w c i va n).1 := by
  unfold jnLoad
  repeat' first
    | with_reducible exact Touch.refl _
    | (with_reducible apply Touch.step (loadVa_touch ..)); exact rfl
    | (with_reducible apply Touch.step (passThrough_touch ..)); exact rfl
    | (with_reducible apply Touch.step (hideRegs_touch ..)); exact rfl
    | with_reducible refine Touch.fst (by assumption) ?_
    | split
    | dsimp only
    | (with_reducible apply Touch.step (touch_jn ..)); exact rfl

theorem jnSave_touch (s : State) (w : Wing) (c : Ctx) (i : Nat) (va : Nat) (bs : List Byte) : Touch 0x30881c401e s (jnSave s w c i va bs).1 := by
  unfold jnSave
  repeat' first
    | with_reducible exact Touch.refl _
    | (with_reducible apply Touch.step (saveVa_touch ..)); exact rfl
    | (with_reducible apply Touch.step (passThrough_touch ..)); exact rfl
    | (with_reducible apply Touch.step (hideRegs_touch ..)); exact rfl
    | dsimp only
    | (with_reducible apply Touch.step (touch_jn ..)); exact rfl

theorem chunkLoad_touch (s : State) (w : Wing) (t : Task) (c : Nat) (va : Nat) (n : Nat) : Touch 0x10881c401c s (chunkLoad s w t c va n).1 := by
  unfold chunkLoad
  repeat' first
    | with_reducible exact Touch.refl _
    | (with_reducible apply Touch.step (jnLoad_touch ..)); exact rfl

theorem chunkSave_touch (s : State) (w : Wing) (t : Task) (c : Nat) (va : Nat) (bs : List Byte) : Touch 0x30881c401e s (chunkSave s w t c va bs).1 := by
  unfold chunkSave
  repeat' first
    | with_reducible exact Touch.refl _
    | (with_reducible apply Touch.step (jnSave_touch ..)); exact rfl

theorem commitColl_touch (s : State) (w : Wing) (k : CollKey) (n : Nat) (flags : AFlags) : Touch 0x801c4100 s (commitColl s w k n flags) := by
  unfold commitColl
  repeat' first
    | with_reducible exact Touch.refl _
    | exact fun _ h => h
    | (with_reducible apply Touch.step (State_modTask_touch ..)); exact rfl
    | (with_reducible apply Touch.step (closeColl_touch ..)); exact rfl
    | (with_reducible apply Touch.step (addCtr_touch_jn ..)); exact rfl
    | split

theorem ownCodes_touch (s : State) (w : Wing) (t : Task) (x : Coll) (rank : Nat) : Touch 0x10881c401c s (ownCodes s w t x rank).1 := by
  unfold ownCodes
  repeat' first
    | with_reducible exact Touch.refl _
    | assumption
    | with_reducible refine andThen_touch ?_ (fun _ _ _ => ?_)
    | (with_reducible apply Touch.step (chunkLoad_touch ..)); exact rfl

theorem finishChunk_touch (s : State) (w : Wing) (t : Task) (x : Coll) : Touch 0x30881c401e s (finishChunk s w t x).1 := by
  unfold finishChunk
  repeat' first
    | with_reducible exact Touch.refl _
    | (with_reducible apply Touch.step (chunkSave_touch ..)); exact rfl
    | with_reducible refine Touch.fst (by assumption) ?_
    | split

theorem addParts_touch (w : Wing) (t : Task) (n : Nat) (a3 : Nat) (a4 : State) (a5 : Coll) (a6 : Nat) : Touch 0x30881c401e a4 (addParts w t n a3 a4 a5 a6).1 := by
  induction a3 generalizing w t n a4 a5 a6 with
  | zero => unfold addParts; exact Touch.refl _
  | succ _ ih =>
    unfold addParts
    repeat' first
      | (with_reducible apply Touch.step (ih ..)); exact rfl
      | with_reducible exact Touch.refl _
      | assumption
      | (with_reducible apply Touch.step (raise_touch ..)); exact rfl
      | with_reducible refine andThen_touch ?_ (fun _ _ _ => ?_)
      | (with_reducible apply Touch.step (ownCodes_touch ..)); exact rfl
      | (with_reducible apply Touch.step (finishChunk_touch ..)); exact rfl
      | (with_reducible apply Touch.step (addCtr_touch_jn ..)); exact rfl
      | with_reducible apply Touch.ite
      | with_reducible apply Touch.ite_fst
      | with_reducible apply Touch.foldl
      | with_reducible apply Touch.foldl_fst
      | with_reducible refine Touch.fst (by assumption) ?_
      | with_reducible refine Touch.snd (by assumption) ?_
      | split
      | dsimp only
      | intro _

theorem settleRoot_touch (s : State) (w : Wing) (t : Task) (k : CollKey) (n : Nat) (x : Coll) (answered : Option Nat) : Touch 0x801c4100 s (settleRoot s w t k n x answered) := by
  unfold settleRoot
  repeat' first
    | with_reducible exact Touch.refl _
    | (with_reducible apply Touch.step (State_modColl_touch ..)); exact rfl
    | (with_reducible apply Touch.step (commitColl_touch ..)); exact rfl
    | with_reducible apply Touch.ite
    | dsimp only
    | intro _

theorem residueFailure_touch (s : State) (w : Wing) (k : CollKey) (c : Coll) (t : Task) : Touch 0x801c4100 s (residueFailure s w k c t) := by
  unfold residueFailure
  repeat' first
    | with_reducible exact Touch.refl _
    | (with_reducible apply Touch.step (State_modJn_touch ..)); exact rfl
    | (with_reducible apply Touch.step (raise_touch ..)); exact rfl
    | (with_reducible apply Touch.step (failColl_touch ..)); exact rfl
    | (with_reducible apply Touch.step (settleRoot_touch ..)); exact rfl
    | (with_reducible apply Touch.step (addCtr_touch_jn ..)); exact rfl
    | with_reducible apply Touch.ite
    | split
    | dsimp only
    | intro _

theorem addedTo_touch {m : Nat} {s : State} {w : Wing} {t : Task} {k : CollKey} {n : Nat} {fails : Bool}
    {answered : Option Nat} {r : State × Except AccErr (Coll × Nat)} (hm : 0x349ffffdfe ||| m = m) (h : Touch m s r.1) :
    Touch m s (addedTo w t k n fails answered r) := by
  unfold addedTo
  split
  · exact Touch.step (failCollAcc_touch ..) (testBit_sub rfl hm) h
  · refine Touch.ite (fun _ => ?_) fun _ => ?_
    · exact Touch.step (residueFailure_touch ..) (testBit_sub rfl hm) (Touch.step (State_modColl_touch ..) (testBit_sub rfl hm) h)
    · exact Touch.step (settleRoot_touch ..) (testBit_sub rfl hm) h

theorem addAlone_touch (w : Wing) (t : Task) (k : CollKey) (n : Nat) (a4 : Nat) (a5 : State) : Touch 0x3c9ffffdfe a5 (addAlone w t k n a4 a5) := by
  induction a4 generalizing w t k n a5 with
  | zero => unfold addAlone; exact Touch.refl _
  | succ _ ih =>
    unfold addAlone
    repeat' first
      | (with_reducible apply Touch.step (ih ..)); exact rfl
      | with_reducible exact Touch.refl _
      | assumption
      | (with_reducible apply Touch.step (freeChoice_touch ..)); exact rfl
      | (with_reducible apply Touch.step (addParts_touch ..)); exact rfl
      | (with_reducible apply addedTo_touch); exact rfl
      | with_reducible apply Touch.ite
      | with_reducible apply Touch.ite_fst
      | with_reducible apply Touch.foldl
      | with_reducible apply Touch.foldl_fst
      | with_reducible refine Touch.fst (by assumption) ?_
      | with_reducible refine Touch.snd (by assumption) ?_
      | split
      | dsimp only
      | intro _

theorem noteSlow_touch (s : State) (w : Wing) (k : CollKey) (x : Coll) : Touch 0x801c4000 s (noteSlow s w k x) := by
  unfold noteSlow
  repeat' first
    | with_reducible exact Touch.refl _
    | (with_reducible apply Touch.step (State_modJn_touch ..)); exact rfl
    | (with_reducible apply Touch.step (addCtr_touch_jn ..)); exact rfl

theorem sendChunks_touch (w : Wing) (t : Task) (n : Nat) (a3 : Nat) (a4 : Nat) (a5 : State) : Touch 0x10881c401c a5 (sendChunks w t n a3 a4 a5).1 := by
  induction a3 generalizing w t n a4 a5 with
  | zero => unfold sendChunks; exact Touch.refl _
  | succ _ ih =>
    unfold sendChunks
    repeat' first
      | (with_reducible apply Touch.step (ih ..)); exact rfl
      | with_reducible exact Touch.refl _
      | assumption
      | (with_reducible apply Touch.step (raise_touch ..)); exact rfl
      | (with_reducible apply Touch.step (chunkLoad_touch ..)); exact rfl
      | (with_reducible apply Touch.step (addCtr_touch_jn ..)); exact rfl
      | with_reducible apply Touch.ite
      | with_reducible apply Touch.ite_fst
      | with_reducible apply Touch.foldl
      | with_reducible apply Touch.foldl_fst
      | with_reducible refine Touch.fst (by assumption) ?_
      | with_reducible refine Touch.snd (by assumption) ?_
      | split
      | dsimp only
      | intro _

theorem registerPages_touch {s t' : State} {w : Wing} {t : Task} {k : CollKey} (h : registerPages s w t k = .ok t') :
    Touch 0x4000 s t' := by
  unfold registerPages at h
  split at h
  · cases h
  · cases h
  · cases h; exact Touch.weaken (State_modColl_touch ..) rfl

theorem rootData_touch (s : State) (w : Wing) (t : Task) (k : CollKey) (n : Nat) : Touch 0x3c9ffffdfe s (rootData s w t k n) := by
  unfold rootData
  repeat' first
    | with_reducible exact Touch.refl _
    | (with_reducible apply Touch.step (failCollAcc_touch ..)); exact rfl
    | (with_reducible apply Touch.step (commitColl_touch ..)); exact rfl
    | (with_reducible apply Touch.step (settleRoot_touch ..)); exact rfl
    | (with_reducible apply Touch.step (addAlone_touch ..)); exact rfl
    | (with_reducible apply Touch.step (sendChunks_touch ..)); exact rfl
    | with_reducible apply Touch.ite
    | with_reducible refine Touch.fst (by assumption) ?_
    | split
    | intro _

theorem writeReport_touch (s : State) (w : Wing) (t : Task) (x : Coll) (count : Nat) : Touch 0x30881c401e s (writeReport s w t x count).1 := by
  unfold writeReport
  repeat' first
    | with_reducible exact Touch.refl _
    | (with_reducible apply Touch.step (jnSave_touch ..)); exact rfl
    | with_reducible apply Touch.ite_fst
    | dsimp only
    | intro _

theorem rootGo_touch (s : State) (w : Wing) (t : Task) (x : Coll) : Touch 0x3c9ffffdfe s (rootGo s w t x) := by
  unfold rootGo
  repeat' first
    | with_reducible exact Touch.refl _
    | (with_reducible apply Touch.step (State_modColl_touch ..)); exact rfl
    | (with_reducible apply Touch.step (failColl_touch ..)); exact rfl
    | (with_reducible apply Touch.step (failCollAcc_touch ..)); exact rfl
    | (with_reducible apply Touch.step (commitColl_touch ..)); exact rfl
    | (with_reducible apply Touch.step (noteSlow_touch ..)); exact rfl
    | (with_reducible apply Touch.step (rootData_touch ..)); exact rfl
    | (with_reducible apply Touch.step (writeReport_touch ..)); exact rfl
    | (with_reducible apply Touch.step (registerPages_touch (by assumption))); exact rfl
    | with_reducible apply Touch.ite
    | with_reducible refine Touch.fst (by assumption) ?_
    | split
    | dsimp only
    | intro _

theorem takeCount_touch (s : State) (w : Wing) (t : Task) (k : CollKey) (m : Nat) (a : Arrival) : Touch 0x3c9ffffdfe s (takeCount s w t k m a) := by
  unfold takeCount
  repeat' first
    | with_reducible exact Touch.refl _
    | (with_reducible apply Touch.step (State_modColl_touch ..)); exact rfl
    | (with_reducible apply Touch.step (rootGo_touch ..)); exact rfl
    | with_reducible apply Touch.ite
    | split
    | dsimp only
    | intro _

theorem receiveCount_touch (s : State) (w : Wing) (k : CollKey) (c : Coll) (t : Task) (m : Nat) (a : Arrival) : Touch 0x3c9ffffdfe s (receiveCount s w k c t m a) := by
  unfold receiveCount
  repeat' first
    | with_reducible exact Touch.refl _
    | (with_reducible apply Touch.step (failColl_touch ..)); exact rfl
    | (with_reducible apply Touch.step (failCollAcc_touch ..)); exact rfl
    | (with_reducible apply Touch.step (takeCount_touch ..)); exact rfl
    | with_reducible apply Touch.ite
    | split
    | dsimp only
    | intro _

theorem onColl_touch {m : Nat} {s y : State} {w : Wing} {k : CollKey} {f : Coll → Task → State}
    (h : Touch m s y) (hf : ∀ c t, Touch m s (f c t)) : Touch m s (onColl y w k f) := by
  unfold onColl
  split
  · exact h
  · split
    · split
      · exact hf ..
      · exact h
    · exact h

theorem deliverHeld_touch (s : State) (w : Wing) (k : CollKey) : Touch 0x3c9ffffdfe s (deliverHeld s w k) := by
  unfold deliverHeld
  repeat' first
    | with_reducible exact Touch.refl _
    | assumption
    | (with_reducible apply Touch.step (dropHeld_touch ..)); exact rfl
    | (with_reducible apply Touch.step (receiveCount_touch ..)); exact rfl
    | with_reducible apply onColl_touch
    | with_reducible apply Touch.foldl
    | split
    | intro _

theorem startColl_touch (s : State) (t : Task) : Touch 0x3c9ffffdfe s (startColl s t) := by
  unfold startColl
  repeat' first
    | with_reducible exact Touch.refl _
    | (with_reducible apply Touch.step (State_modJn_touch ..)); exact rfl
    | (with_reducible apply Touch.step (failCollAcc_touch ..)); exact rfl
    | (with_reducible apply Touch.step (takeCount_touch ..)); exact rfl
    | (with_reducible apply Touch.step (deliverHeld_touch ..)); exact rfl
    | with_reducible apply Touch.ite
    | split
    | intro _

theorem execJnCountMessage_touch (w : Wing) (r : JnRoute) (member : Fin 255) (signature : Word32) (count : Word32) (capacity : Word32) (partials : Nat) (s : State) : TouchNext 0x3c9ffffdfe s (execJnCountMessage w r member signature count capacity partials s) := by
  unfold execJnCountMessage
  repeat' first
    | with_reducible exact Touch.refl _
    | (with_reducible apply Touch.step (orWait_touch (m := 0x3c9ffffdfe) rfl ?_)); exact rfl
    | (with_reducible apply Touch.step (holdBack_touch ..)); exact rfl
    | (with_reducible apply Touch.step (passMessage_touch ..)); exact rfl
    | (with_reducible apply Touch.step (receiveCount_touch ..)); exact rfl
    | with_reducible apply onColl_touch
    | with_reducible apply TouchNext.next
    | with_reducible apply Touch.ite
    | split
    | dsimp only
    | intro _

theorem execJnGoMessage_touch (w : Wing) (r : JnRoute) (n : Word32) (s : State) : TouchNext 0x349ffffdfe s (execJnGoMessage w r n s) := by
  unfold execJnGoMessage
  repeat' first
    | with_reducible exact Touch.refl _
    | (with_reducible apply Touch.step (orWait_touch (m := 0x349ffffdfe) rfl ?_)); exact rfl
    | (with_reducible apply Touch.step (State_modColl_touch ..)); exact rfl
    | (with_reducible apply Touch.step (passMessage_touch ..)); exact rfl
    | (with_reducible apply Touch.step (failCollAcc_touch ..)); exact rfl
    | (with_reducible apply Touch.step (commitColl_touch ..)); exact rfl
    | with_reducible apply onColl_touch
    | (with_reducible apply Touch.step (registerPages_touch (by assumption))); exact rfl
    | with_reducible apply TouchNext.next
    | split
    | dsimp only
    | intro _

theorem rootChunk_touch (s : State) (w : Wing) (k : CollKey) (c : Coll) (t : Task) (m : Nat) (core : Nat) (chunk : Nat) (data : List Byte) (fails : Bool) : Touch 0x349ffffdfe s (rootChunk s w k c t m core chunk data fails) := by
  unfold rootChunk
  repeat' first
    | with_reducible exact Touch.refl _
    | (with_reducible apply Touch.step (State_modColl_touch ..)); exact rfl
    | (with_reducible apply Touch.step (addParts_touch ..)); exact rfl
    | (with_reducible apply addedTo_touch); exact rfl
    | with_reducible apply Touch.ite
    | split
    | dsimp only
    | intro _

theorem receiverChunk_touch (s : State) (w : Wing) (k : CollKey) (c : Coll) (t : Task) (chunk : Nat) (data : List Byte) (passing : Bool) : Touch 0x349ffffdfe s (receiverChunk s w k c t chunk data passing) := by
  unfold receiverChunk
  repeat' first
    | with_reducible exact Touch.refl _
    | (with_reducible apply Touch.step (State_modColl_touch ..)); exact rfl
    | (with_reducible apply Touch.step (failCollAcc_touch ..)); exact rfl
    | (with_reducible apply Touch.step (chunkSave_touch ..)); exact rfl
    | (with_reducible apply Touch.step (addCtr_touch_jn ..)); exact rfl
    | with_reducible apply Touch.ite
    | with_reducible refine Touch.fst (by assumption) ?_
    | split
    | dsimp only
    | intro _

theorem execJnChunkArrival_touch (w : Wing) (r : JnRoute) (member : Fin 255) (core : BitVec 16) (chunk : Nat) (data : List Byte) (residueFails : Bool) (s : State) : TouchNext 0x349ffffdfe s (execJnChunkArrival w r member core chunk data residueFails s) := by
  unfold execJnChunkArrival
  repeat' first
    | with_reducible exact Touch.refl _
    | (with_reducible apply Touch.step (orWait_touch (m := 0x349ffffdfe) rfl ?_)); exact rfl
    | (with_reducible apply Touch.step (passMessage_touch ..)); exact rfl
    | (with_reducible apply Touch.step (rootChunk_touch ..)); exact rfl
    | (with_reducible apply Touch.step (receiverChunk_touch ..)); exact rfl
    | with_reducible apply TouchNext.next
    | with_reducible apply Touch.ite
    | split
    | dsimp only
    | intro _

theorem execJnRerunMessage_touch (w : Wing) (k : CollKey) (s : State) : TouchNext 0x4000 s (execJnRerunMessage w k s) := by
  unfold execJnRerunMessage
  repeat' first
    | with_reducible exact Touch.refl _
    | (with_reducible apply Touch.step (State_modColl_touch ..)); exact rfl
    | with_reducible apply onColl_touch
    | with_reducible apply TouchNext.next
    | split
    | intro _

theorem execJnCompletionToken_touch (w : Wing) (k : CollKey) (n : Word32) (flags : BitVec 5) (s : State) : TouchNext 0x801c4100 s (execJnCompletionToken w k n flags s) := by
  unfold execJnCompletionToken
  repeat' first
    | with_reducible exact Touch.refl _
    | (with_reducible apply Touch.step (closeColl_touch ..)); exact rfl
    | (with_reducible apply Touch.step (commitColl_touch ..)); exact rfl
    | with_reducible apply TouchNext.next
    | with_reducible apply Touch.ite
    | split
    | intro _

theorem execJnAbortMessage_touch (w : Wing) (k : CollKey) (cause : BitVec 16) (s : State) : TouchNext 0x801c4100 s (execJnAbortMessage w k cause s) := by
  unfold execJnAbortMessage
  repeat' first
    | with_reducible exact Touch.refl _
    | (with_reducible apply Touch.step (failColl_touch ..)); exact rfl
    | with_reducible apply TouchNext.next

theorem clearBit_touch (s : State) (w : Wing) (g : Nat) (m : Nat) : Touch 0x4000 s (clearBit s w g m) := by
  unfold clearBit
  repeat' first
    | with_reducible exact Touch.refl _
    | (with_reducible apply Touch.step (State_modJn_touch ..)); exact rfl

theorem reform_touch (s : State) (w : Wing) (entry : Nat) (g : Nat) (m : Nat) : Touch 0x801c4000 s (reform s w entry g m) := by
  unfold reform
  repeat' first
    | with_reducible exact Touch.refl _
    | (with_reducible apply Touch.step (State_modJn_touch ..)); exact rfl
    | (with_reducible apply Touch.step (raise_touch ..)); exact rfl
    | (with_reducible apply Touch.step (clearBit_touch ..)); exact rfl
    | (with_reducible apply Touch.step (addCtr_touch_jn ..)); exact rfl
    | with_reducible apply Touch.foldl
    | split
    | intro _

theorem reformIf_touch (s : State) (w : Wing) (g : Nat) (m : Nat) : Touch 0x801c4000 s (reformIf s w g m) := by
  unfold reformIf
  repeat' first
    | with_reducible exact Touch.refl _
    | (with_reducible apply Touch.step (reform_touch ..)); exact rfl
    | with_reducible apply Touch.ite
    | intro _

theorem losePart_touch (s : State) (w : Wing) (k : CollKey) (part : Nat) (m : Nat) : Touch 0x801c4100 s (losePart s w k part m) := by
  unfold losePart
  repeat' first
    | with_reducible exact Touch.refl _
    | (with_reducible apply Touch.step (raise_touch ..)); exact rfl
    | (with_reducible apply Touch.step (failColl_touch ..)); exact rfl
    | (with_reducible apply Touch.step (reformIf_touch ..)); exact rfl
    | (with_reducible apply Touch.step (addCtr_touch_jn ..)); exact rfl

theorem execJnWaitLimitExpiry_touch (w : Wing) (k : CollKey) (lost : LostParty) (s : State) : TouchNext 0x801c4100 s (execJnWaitLimitExpiry w k lost s) := by
  unfold execJnWaitLimitExpiry
  repeat' first
    | with_reducible exact Touch.refl _
    | with_reducible apply onColl_touch
    | (with_reducible apply Touch.step (losePart_touch ..)); exact rfl
    | with_reducible apply TouchNext.next
    | with_reducible apply Touch.ite
    | split
    | intro _

theorem execJnLossNotice_touch (w : Wing) (group : BitVec 8) (member : Fin 255) (s : State) : TouchNext 0x801c4000 s (execJnLossNotice w group member s) := by
  unfold execJnLossNotice
  repeat' first
    | with_reducible exact Touch.refl _
    | (with_reducible apply Touch.step (reformIf_touch ..)); exact rfl
    | with_reducible apply TouchNext.next

end Sys2Proof.Machine
end

