-- ==== Sys2Proof/Laws/TouchTaskRows.lean ====
section
/-!
SUPPORT. What the operations of TaskRows may change.
-/

namespace Sys2Proof.Machine

theorem State_modCluster_touch (s : State) (t : Tile) (row : Nat) (f : Cluster → Cluster) : Touch 0x8000000 s (State.modCluster s t row f) := by
  unfold State.modCluster
  repeat' first
    | with_reducible exact Touch.refl _
    | (with_reducible apply Touch.step (State_modPower_touch ..)); exact rfl

theorem wakeCluster_touch (s : State) (t : Tile) (row : Nat) : Touch 0x8000000 s (wakeCluster s t row) := by
  unfold wakeCluster
  repeat' first
    | with_reducible exact Touch.refl _
    | (with_reducible apply Touch.step (State_modCluster_touch ..)); exact rfl
    | split

theorem wakeCores_touch (s : State) (cores : List Nat) : Touch 0x8000000 s (wakeCores s cores) := by
  unfold wakeCores
  repeat' first
    | with_reducible exact Touch.refl _
    | (with_reducible apply Touch.step (wakeCluster_touch ..)); exact rfl
    | with_reducible apply Touch.foldl
    | intro _

theorem putLoop_touch (s : State) (id : Nat) (x : LoopWork) : Touch 0x100 s (putLoop s id x) := by
  unfold putLoop
  repeat' first
    | with_reducible exact Touch.refl _
    | exact fun _ h => h
    | (with_reducible apply Touch.step (State_modTask_touch ..)); exact rfl

theorem fillRank_touch (t : Task) (s : State) (x : LoopWork) (f : Nat × Bool) : Touch 0x38881c011c s (fillRank t s x f).1 := by
  unfold fillRank
  repeat' first
    | with_reducible exact Touch.refl _
    | (with_reducible apply Touch.step (noteStep_touch ..)); exact rfl
    | (with_reducible apply Touch.step (fillFirst_touch ..)); exact rfl
    | with_reducible refine Touch.fst (by assumption) ?_
    | split
    | dsimp only

theorem startLoop_touch (s : State) (t : Task) (x : LoopWork) : Touch 0x3c9ffffdfe s (startLoop s t x) := by
  unfold startLoop
  repeat' first
    | with_reducible exact Touch.refl _
    | (with_reducible apply Touch.step (faultTask_touch ..)); exact rfl
    | (with_reducible apply Touch.step (foldErr_touch (m := 0x3c9ffffdfe) ?_)); exact rfl
    | (with_reducible apply Touch.step (putLoop_touch ..)); exact rfl
    | (with_reducible apply Touch.step (fillRank_touch ..)); exact rfl
    | with_reducible refine Touch.fst (by assumption) ?_
    | split
    | dsimp only
    | intro _

theorem startWork_touch (s : State) (t : Task) : Touch 0x3c9ffffdfe s (startWork s t) := by
  unfold startWork
  repeat' first
    | with_reducible exact Touch.refl _
    | (with_reducible apply Touch.step (startChain_touch ..)); exact rfl
    | (with_reducible apply Touch.step (settleChain_touch ..)); exact rfl
    | (with_reducible apply Touch.step (startStage_touch ..)); exact rfl
    | (with_reducible apply Touch.step (runCat_touch ..)); exact rfl
    | (with_reducible apply Touch.step (startColl_touch ..)); exact rfl
    | (with_reducible apply Touch.step (startLoop_touch ..)); exact rfl
    | split

theorem dispatchTask_touch (s : State) (t : Task) (tiles : List Tile) : Touch 0x3c9ffffdfe s (dispatchTask s t tiles) := by
  unfold dispatchTask
  repeat' first
    | with_reducible exact Touch.refl _
    | (with_reducible apply Touch.step (State_modTask_touch ..)); exact rfl
    | (with_reducible apply Touch.step (reserveStaging_touch ..)); exact rfl
    | (with_reducible apply Touch.step (wakeCores_touch ..)); exact rfl
    | (with_reducible apply Touch.step (startWork_touch ..)); exact rfl
    | with_reducible apply Touch.foldl
    | dsimp only
    | intro _

theorem execTaskDispatch_touch (id : Nat) (t : Tile) (s : State) : TouchNext 0x3c9ffffdfe s (execTaskDispatch id t s) := by
  unfold execTaskDispatch
  repeat' first
    | with_reducible exact Touch.refl _
    | (with_reducible apply Touch.step (orWait_touch (m := 0x3c9ffffdfe) rfl ?_)); exact rfl
    | (with_reducible apply Touch.step (dispatchTask_touch ..)); exact rfl
    | with_reducible apply TouchNext.next
    | with_reducible apply Touch.ite
    | split
    | intro _

theorem loopTaskStep_touch (s : State) (t : Task) (x : LoopWork) (rank : Nat) : Touch 0x3c9ffffdfe s (loopTaskStep s t x rank) := by
  unfold loopTaskStep
  repeat' first
    | with_reducible exact Touch.refl _
    | (with_reducible apply Touch.step (faultTask_touch ..)); exact rfl
    | (with_reducible apply Touch.step (walkStep_touch ..)); exact rfl
    | (with_reducible apply Touch.step (enterStep_touch ..)); exact rfl
    | (with_reducible apply Touch.step (noteStep_touch ..)); exact rfl
    | (with_reducible apply Touch.step (putLoop_touch ..)); exact rfl
    | with_reducible apply Touch.ite
    | with_reducible refine Touch.fst (by assumption) ?_
    | split
    | intro _

theorem execTileStepBegin_touch (id : Nat) (core : Rank) (s : State) : TouchNext 0x3c9ffffdfe s (execTileStepBegin id core s) := by
  unfold execTileStepBegin
  repeat' first
    | with_reducible exact Touch.refl _
    | (with_reducible apply Touch.step (orWait_touch (m := 0x3c9ffffdfe) rfl ?_)); exact rfl
    | (with_reducible apply Touch.step (stageStep_touch ..)); exact rfl
    | (with_reducible apply Touch.step (loopTaskStep_touch ..)); exact rfl
    | with_reducible apply TouchNext.next
    | with_reducible apply Touch.ite
    | split
    | intro _

theorem execPhaseChange_touch (id : Nat) (core : Rank) (phase : Fin 8) (s : State) : TouchNext 0x200000010c s (execPhaseChange id core phase s) := by
  unfold execPhaseChange
  repeat' first
    | with_reducible exact Touch.refl _
    | (with_reducible apply Touch.step (enterPhase_touch ..)); exact rfl
    | with_reducible apply TouchNext.next
    | with_reducible apply Touch.ite
    | split
    | intro _

theorem fillReceivers_touch (t : Task) (d : LoopBody) (b : Bool) (n : Nat) (bs : List Byte) (s : State) (rs : List (Nat × CoreWalk)) : Touch 0x20801c010c s (fillReceivers t d b n bs s rs) := by
  unfold fillReceivers
  repeat' first
    | with_reducible exact Touch.refl _
    | assumption
    | (with_reducible apply Touch.step (fillBuffer_touch ..)); exact rfl
    | (with_reducible apply Touch.step (noteStep_touch ..)); exact rfl
    | with_reducible apply Touch.foldl
    | dsimp only
    | intro _

theorem deliverTile_touch (s : State) (t : Task) (d : LoopBody) (l : LoopWork) (b : Bool) (y : Tile) : Touch 0x38881c011c s (deliverTile s t d l b y).1 := by
  unfold deliverTile
  repeat' first
    | with_reducible exact Touch.refl _
    | assumption
    | with_reducible refine andThen_touch ?_ (fun _ _ _ => ?_)
    | (with_reducible apply Touch.step (stageBytes_touch ..)); exact rfl
    | (with_reducible apply Touch.step (loadTile_touch ..)); exact rfl
    | (with_reducible apply Touch.step (fillReceivers_touch ..)); exact rfl
    | (with_reducible apply Touch.step (addCtr_touch_sch ..)); exact rfl
    | split
    | dsimp only

theorem makeDelivery_touch {s : State} {t : Task} {d : LoopBody} {l : LoopWork} {b : Bool} {y : Tile}
    {put : State → LoopWork → State} (hp : ∀ s l, Touch 0x3c9ffffdfe s (put s l)) : Touch 0x3c9ffffdfe s (makeDelivery s t d l b y put) := by
  unfold makeDelivery
  split
  · exact Touch.step (faultTask_touch ..) rfl (Touch.weaken (Touch.fst (by assumption) (deliverTile_touch ..)) rfl)
  · exact Touch.step (hp ..) rfl (Touch.weaken (Touch.fst (by assumption) (deliverTile_touch ..)) rfl)

theorem stageDelivery_touch (s : State) (t : Task) (x : StageWork) (b : Bool) (y : Tile) : Touch 0x3c9ffffdfe s (stageDelivery s t x b y) := by
  unfold stageDelivery
  repeat' first
    | with_reducible exact Touch.refl _
    | (with_reducible apply Touch.step (putStage_touch ..)); exact rfl
    | (with_reducible refine Touch.step (makeDelivery_touch ?_) rfl ?_)
    | with_reducible apply Touch.ite
    | split
    | intro _

theorem execMulticastDelivery_touch (id : Nat) (r : Delivery) (s : State) : TouchNext 0x3c9ffffdfe s (execMulticastDelivery id r s) := by
  unfold execMulticastDelivery
  repeat' first
    | with_reducible exact Touch.refl _
    | (with_reducible apply Touch.step (orWait_touch (m := 0x3c9ffffdfe) rfl ?_)); exact rfl
    | (with_reducible apply Touch.step (putLoop_touch ..)); exact rfl
    | (with_reducible refine Touch.step (makeDelivery_touch ?_) rfl ?_)
    | (with_reducible apply Touch.step (stageDelivery_touch ..)); exact rfl
    | with_reducible apply TouchNext.next
    | with_reducible apply Touch.ite
    | split
    | dsimp only
    | intro _

theorem closeTaskColl_touch (s : State) (t : Task) (cause : Nat) : Touch 0x801c4000 s (closeTaskColl s t cause) := by
  unfold closeTaskColl
  repeat' first
    | with_reducible exact Touch.refl _
    | (with_reducible apply Touch.step (closeColl_touch ..)); exact rfl
    | (with_reducible apply Touch.step (reportColl_touch ..)); exact rfl
    | with_reducible apply Touch.ite
    | split
    | intro _

theorem execTaskFault_touch (id : Nat) (cause : BitVec 16) (addr : BitVec 48) (core : BitVec 16) (s : State) : TouchNext 0x801c4100 s (execTaskFault id cause addr core s) := by
  unfold execTaskFault
  repeat' first
    | with_reducible exact Touch.refl _
    | (with_reducible apply Touch.step (stopTask_touch ..)); exact rfl
    | (with_reducible apply Touch.step (closeTaskColl_touch ..)); exact rfl
    | with_reducible apply TouchNext.next
    | with_reducible apply Touch.ite
    | split
    | intro _

theorem execTaskEnd_touch (id : Nat) (s : State) : TouchNext 0x3c9ffffdfe s (execTaskEnd id s) := by
  unfold execTaskEnd
  repeat' first
    | with_reducible exact Touch.refl _
    | (with_reducible apply Touch.step (orWait_touch (m := 0x3c9ffffdfe) rfl ?_)); exact rfl
    | (with_reducible apply Touch.step (finishTask_touch ..)); exact rfl
    | (with_reducible apply Touch.step (settleAliases_touch ..)); exact rfl
    | with_reducible apply TouchNext.next
    | with_reducible apply Touch.ite
    | split
    | intro _

theorem endStopped_touch (s : State) (t : Task) (cause : Nat) : Touch 0x3c9ffffdfe s (endStopped s t cause) := by
  unfold endStopped
  repeat' first
    | with_reducible exact Touch.refl _
    | (with_reducible apply Touch.step (finishTask_touch ..)); exact rfl
    | (with_reducible apply Touch.step (breakStream_touch ..)); exact rfl
    | (with_reducible apply Touch.step (scribbleRanges_touch ..)); exact rfl
    | (with_reducible apply Touch.step (closeTaskColl_touch ..)); exact rfl
    | (with_reducible apply Touch.step (addCtr_touch_sch ..)); exact rfl
    | with_reducible apply Touch.ite
    | split
    | intro _

theorem execTaskStopDrained_touch (id : Nat) (s : State) : TouchNext 0x3c9ffffdfe s (execTaskStopDrained id s) := by
  unfold execTaskStopDrained
  repeat' first
    | with_reducible exact Touch.refl _
    | (with_reducible apply Touch.step (orWait_touch (m := 0x3c9ffffdfe) rfl ?_)); exact rfl
    | (with_reducible apply Touch.step (endStopped_touch ..)); exact rfl
    | with_reducible apply TouchNext.next
    | split
    | intro _

end Sys2Proof.Machine
end

