-- ==== Sys2Proof/Laws/TouchCarSet.lean ====
section
/-!
SUPPORT. What the operations of CarSet may change.
-/

namespace Sys2Proof.Machine

theorem sendHeader_touch (s : State) (l : LinkEnd) (c : SentCar) (h : Entry) : Touch 0x2801fb000 s (sendHeader s l c h) := by
  unfold sendHeader
  repeat' first
    | with_reducible exact Touch.refl _
    | (with_reducible apply Touch.step (sendFlit_touch ..)); exact rfl

theorem countRetry_touch (s : State) (w : Wing) (p : SendPhase) : Touch 0x801c1000 s (countRetry s w p) := by
  unfold countRetry
  repeat' first
    | with_reducible exact Touch.refl _
    | (with_reducible apply Touch.step (addCtr_touch_tt ..)); exact rfl
    | with_reducible apply Touch.ite
    | intro _

theorem modOffered_touch (s : State) (w : Wing) (c : SentCar) (f : Notice → List Notice) : Touch 0x1000 s (modOffered s w c f) := by
  unfold modOffered
  repeat' first
    | with_reducible exact Touch.refl _
    | (with_reducible apply Touch.step (State_modTt_touch ..)); exact rfl

theorem offerNotice_touch (w : Wing) (s : State) (n : Notice) : Touch 0x2801fb000 s (offerNotice w s n) := by
  unfold offerNotice
  repeat' first
    | with_reducible exact Touch.refl _
    | (with_reducible apply Touch.step (State_modTt_touch ..)); exact rfl
    | (with_reducible apply Touch.step (sendHeader_touch ..)); exact rfl
    | (with_reducible apply Touch.step (countRetry_touch ..)); exact rfl
    | split

theorem offerCar_touch (w : Wing) (c : CarSet) (s : State) (x : Nat × Nat × SendPhase) : Touch 0x2801fb000 s (offerCar w c s x) := by
  unfold offerCar
  repeat' first
    | with_reducible exact Touch.refl _
    | (with_reducible apply Touch.step (State_modCarSet_touch ..)); exact rfl
    | (with_reducible apply Touch.step (sendHeader_touch ..)); exact rfl
    | (with_reducible apply Touch.step (countRetry_touch ..)); exact rfl
    | split

theorem pumpRing_touch (s : State) (w : Wing) : Touch 0x2801fb000 s (pumpRing s w) := by
  unfold pumpRing
  repeat' first
    | with_reducible exact Touch.refl _
    | assumption
    | (with_reducible apply Touch.step (settleArrive_touch ..)); exact rfl
    | (with_reducible apply Touch.step (offerNotice_touch ..)); exact rfl
    | (with_reducible apply Touch.step (offerCar_touch ..)); exact rfl
    | with_reducible apply Touch.ite
    | with_reducible apply Touch.foldl
    | dsimp only
    | intro _

theorem queueNotice_touch (s : State) (w : Wing) (k : CarSetKey) (h : Entry) : Touch 0x2801fb000 s (queueNotice s w k h) := by
  unfold queueNotice
  repeat' first
    | with_reducible exact Touch.refl _
    | (with_reducible apply Touch.step (State_modTt_touch ..)); exact rfl
    | (with_reducible apply Touch.step (pumpRing_touch ..)); exact rfl

theorem stopBound_touch (s : State) (w : Wing) (k : CarSetKey) (cause : Nat) : Touch 0x801c0100 s (stopBound s w k cause) := by
  unfold stopBound
  repeat' first
    | with_reducible exact Touch.refl _
    | (with_reducible apply Touch.step (stopTask_touch ..)); exact rfl
    | with_reducible apply Touch.foldl
    | intro _

theorem stopSending_touch (s : State) (w : Wing) (k : CarSetKey) : Touch 0x18000 s (stopSending s w k) := by
  unfold stopSending
  repeat' first
    | with_reducible exact Touch.refl _
    | (with_reducible apply Touch.step (State_modLink_touch ..)); exact rfl
    | with_reducible apply Touch.foldl
    | dsimp only
    | intro _

theorem captureCarFail_touch (s : State) (w : Wing) (k : CarSetKey) (cause : Nat) (origin : Nat) (own : Bool) : Touch 0x1000 s (captureCarFail s w k cause origin own) := by
  unfold captureCarFail
  repeat' first
    | with_reducible exact Touch.refl _
    | (with_reducible apply Touch.step (State_modTt_touch ..)); exact rfl
    | with_reducible apply Touch.ite
    | intro _

theorem failCarSet_touch (s : State) (w : Wing) (c : CarSet) (cause : Nat) (origin : Nat) (own : Bool) : Touch 0x801db100 s (failCarSet s w c cause origin own) := by
  unfold failCarSet
  repeat' first
    | with_reducible exact Touch.refl _
    | (with_reducible apply Touch.step (raise_touch ..)); exact rfl
    | (with_reducible apply Touch.step (logCause_touch ..)); exact rfl
    | (with_reducible apply Touch.step (State_modCarSet_touch ..)); exact rfl
    | (with_reducible apply Touch.step (stopBound_touch ..)); exact rfl
    | (with_reducible apply Touch.step (stopSending_touch ..)); exact rfl
    | (with_reducible apply Touch.step (captureCarFail_touch ..)); exact rfl
    | with_reducible apply Touch.ite
    | dsimp only
    | intro _

theorem failHere_touch (s : State) (w : Wing) (c : CarSet) (cause : Nat) (notice : Bool) : Touch 0x2801fb100 s (failHere s w c cause notice) := by
  unfold failHere
  repeat' first
    | with_reducible exact Touch.refl _
    | (with_reducible apply Touch.step (pumpRing_touch ..)); exact rfl
    | (with_reducible apply Touch.step (queueNotice_touch ..)); exact rfl
    | (with_reducible apply Touch.step (failCarSet_touch ..)); exact rfl
    | with_reducible apply Touch.ite
    | split
    | dsimp only
    | intro _

theorem endCarSet_touch (s : State) (w : Wing) (c : CarSet) (notice : Bool) : Touch 0x2801fb100 s (endCarSet s w c notice) := by
  unfold endCarSet
  repeat' first
    | with_reducible exact Touch.refl _
    | (with_reducible apply Touch.step (pumpRing_touch ..)); exact rfl
    | (with_reducible apply Touch.step (queueNotice_touch ..)); exact rfl
    | (with_reducible apply Touch.step (stopBound_touch ..)); exact rfl
    | (with_reducible apply Touch.step (stopSending_touch ..)); exact rfl
    | with_reducible apply Touch.ite
    | split
    | intro _
    | (with_reducible apply Touch.step (touch_carSets ..)); exact rfl

theorem failBody_touch (s : State) (w : Wing) (c : CarSet) (e : AccErr) : Touch 0x369ffffdfe s (failBody s w c e) := by
  unfold failBody
  repeat' first
    | with_reducible exact Touch.refl _
    | (with_reducible apply Touch.step (logCause_touch ..)); exact rfl
    | (with_reducible apply Touch.step (failAcc_touch ..)); exact rfl
    | (with_reducible apply Touch.step (failHere_touch ..)); exact rfl
    | with_reducible apply Touch.ite
    | intro _

theorem performCarStart_touch (s : State) (o : Origin) (e : Entry) : Touch 0x349ffffdfe s (performCarStart s o e) := by
  unfold performCarStart
  repeat' first
    | with_reducible exact Touch.refl _
    | (with_reducible apply Touch.step (failAcc_touch ..)); exact rfl
    | (with_reducible apply Touch.step (loadNum_touch ..)); exact rfl
    | (with_reducible apply Touch.step (answerCommand_touch ..)); exact rfl
    | with_reducible apply Touch.ite
    | with_reducible refine Touch.fst (by assumption) ?_
    | split
    | dsimp only
    | intro _
    | (with_reducible apply Touch.step (touch_carSets ..)); exact rfl

theorem execCarSetStart_touch (f : Func) (r : Fin 64) (s : State) : TouchNext 0x349ffffdfe s (execCarSetStart f r s) := by
  unfold execCarSetStart
  repeat' first
    | with_reducible exact Touch.refl _
    | (with_reducible apply Touch.step (beginCommand_touch (m := 0x349ffffdfe) rfl ?_)); exact rfl
    | (with_reducible apply Touch.step (performCarStart_touch ..)); exact rfl
    | with_reducible apply TouchNext.next
    | intro _

theorem performCarStop_touch (s : State) (o : Origin) (e : Entry) : Touch 0x2803fb100 s (performCarStop s o e) := by
  unfold performCarStop
  repeat' first
    | with_reducible exact Touch.refl _
    | (with_reducible apply Touch.step (answerCommand_touch ..)); exact rfl
    | (with_reducible apply Touch.step (endCarSet_touch ..)); exact rfl
    | split

theorem execCarSetStop_touch (f : Func) (r : Fin 64) (s : State) : TouchNext 0x680bff100 s (execCarSetStop f r s) := by
  unfold execCarSetStop
  repeat' first
    | with_reducible exact Touch.refl _
    | (with_reducible apply Touch.step (beginCommand_touch (m := 0x680bff100) rfl ?_)); exact rfl
    | (with_reducible apply Touch.step (performCarStop_touch ..)); exact rfl
    | with_reducible apply TouchNext.next
    | intro _

theorem atSlot_touch (s : State) (w : Wing) (tick : Nat) (slot : Nat) : Touch 0x1000 s (atSlot s w tick slot) := by
  unfold atSlot
  repeat' first
    | with_reducible exact Touch.refl _
    | (with_reducible apply Touch.step (State_modTt_touch ..)); exact rfl
    | with_reducible apply Touch.ite
    | intro _

theorem execCarSetFirstTick_touch (w : Wing) (k : CarSetKey) (s : State) : TouchNext 0x2801fb000 s (execCarSetFirstTick w k s) := by
  unfold execCarSetFirstTick
  repeat' first
    | with_reducible exact Touch.refl _
    | (with_reducible apply Touch.step (State_modCarSet_touch ..)); exact rfl
    | (with_reducible apply Touch.step (pumpRing_touch ..)); exact rfl
    | with_reducible apply TouchNext.next
    | with_reducible apply Touch.ite
    | split
    | intro _

theorem execCarSendSlot_touch (w : Wing) (k : CarSetKey) (step : Nat) (s : State) : TouchNext 0x2801fb000 s (execCarSendSlot w k step s) := by
  unfold execCarSendSlot
  repeat' first
    | with_reducible exact Touch.refl _
    | (with_reducible apply Touch.step (State_modCarSet_touch ..)); exact rfl
    | (with_reducible apply Touch.step (pumpRing_touch ..)); exact rfl
    | (with_reducible apply Touch.step (atSlot_touch ..)); exact rfl
    | with_reducible apply TouchNext.next
    | with_reducible apply Touch.ite
    | split
    | intro _

theorem computeCar_touch (s : State) (t : Task) (x : ChainWork) (c : CarSet) (step : Nat) (car : Nat) : Touch 0x349ffffdfe s (computeCar s t x c step car) := by
  unfold computeCar
  repeat' first
    | with_reducible exact Touch.refl _
    | (with_reducible apply Touch.step (runCar_touch ..)); exact rfl
    | (with_reducible apply Touch.step (completeParts_touch ..)); exact rfl
    | (with_reducible apply Touch.step (settleChain_touch ..)); exact rfl
    | with_reducible apply Touch.ite
    | with_reducible refine Touch.fst (by assumption) ?_
    | split
    | intro _

theorem execCarComputeSlot_touch (w : Wing) (k : CarSetKey) (step : Nat) (car : BitVec 16) (id : Nat) (s : State) : TouchNext 0x349ffffdfe s (execCarComputeSlot w k step car id s) := by
  unfold execCarComputeSlot
  repeat' first
    | with_reducible exact Touch.refl _
    | (with_reducible apply Touch.step (orWait_touch (m := 0x349ffffdfe) rfl ?_)); exact rfl
    | (with_reducible apply Touch.step (atSlot_touch ..)); exact rfl
    | (with_reducible apply Touch.step (computeCar_touch ..)); exact rfl
    | with_reducible apply TouchNext.next
    | with_reducible apply Touch.ite
    | split
    | dsimp only
    | intro _

theorem answerHeader_touch (s : State) (w : Wing) (l : LinkEnd) (hseq : Nat) (reason : Option Nat) : Touch 0x2801fb000 s (answerHeader s w l hseq reason) := by
  unfold answerHeader
  repeat' first
    | with_reducible exact Touch.refl _
    | (with_reducible apply Touch.step (sendAnswer_touch ..)); exact rfl
    | (with_reducible apply Touch.step (addCtr_touch_tt ..)); exact rfl

theorem admitHeader_touch (s : State) (w : Wing) (h : Entry) : Touch 0x2000 s (admitHeader s w h) := by
  unfold admitHeader
  repeat' first
    | with_reducible exact Touch.refl _
    | (with_reducible apply Touch.step (State_modCarSet_touch ..)); exact rfl

theorem execCarHeaderReceive_touch (w : Wing) (l : LinkEnd) (hseq : Fin 8) (header : Entry) (s : State) : TouchNext 0x2801fb000 s (execCarHeaderReceive w l hseq header s) := by
  unfold execCarHeaderReceive
  repeat' first
    | with_reducible exact Touch.refl _
    | (with_reducible apply Touch.step (pumpRing_touch ..)); exact rfl
    | (with_reducible apply Touch.step (answerHeader_touch ..)); exact rfl
    | (with_reducible apply Touch.step (admitHeader_touch ..)); exact rfl
    | with_reducible apply TouchNext.next
    | with_reducible apply Touch.ite
    | split
    | dsimp only
    | intro _

theorem execAbortNoticeReceive_touch (w : Wing) (l : LinkEnd) (hseq : Fin 8) (header : Entry) (s : State) : TouchNext 0x2801fb100 s (execAbortNoticeReceive w l hseq header s) := by
  unfold execAbortNoticeReceive
  repeat' first
    | with_reducible exact Touch.refl _
    | (with_reducible apply Touch.step (pumpRing_touch ..)); exact rfl
    | (with_reducible apply Touch.step (queueNotice_touch ..)); exact rfl
    | (with_reducible apply Touch.step (failCarSet_touch ..)); exact rfl
    | (with_reducible apply Touch.step (answerHeader_touch ..)); exact rfl
    | with_reducible apply TouchNext.next
    | with_reducible apply Touch.ite
    | split
    | dsimp only
    | intro _

theorem onAdmit_touch (s : State) (l : LinkEnd) (c : SentCar) : Touch 0x369ffffdfe s (onAdmit s l c) := by
  unfold onAdmit
  repeat' first
    | with_reducible exact Touch.refl _
    | (with_reducible apply Touch.step (loadVa_touch ..)); exact rfl
    | (with_reducible apply Touch.step (State_modCarSet_touch ..)); exact rfl
    | (with_reducible apply Touch.step (sendFlit_touch ..)); exact rfl
    | (with_reducible apply Touch.step (modOffered_touch ..)); exact rfl
    | (with_reducible apply Touch.step (failBody_touch ..)); exact rfl
    | with_reducible apply Touch.ite
    | with_reducible apply Touch.foldl
    | with_reducible refine Touch.fst (by assumption) ?_
    | split
    | dsimp only
    | intro _

theorem onRefuse_touch (s : State) (l : LinkEnd) (c : SentCar) (reason : Nat) : Touch 0x2801fb100 s (onRefuse s l c reason) := by
  unfold onRefuse
  repeat' first
    | with_reducible exact Touch.refl _
    | (with_reducible apply Touch.step (State_modCarSet_touch ..)); exact rfl
    | (with_reducible apply Touch.step (modOffered_touch ..)); exact rfl
    | (with_reducible apply Touch.step (failHere_touch ..)); exact rfl
    | with_reducible apply Touch.ite
    | split
    | intro _

theorem takeAnswer_touch (s : State) (l : LinkEnd) (answer : BitVec 16) : Touch 0x369ffffdfe s (takeAnswer s l answer) := by
  unfold takeAnswer
  repeat' first
    | with_reducible exact Touch.refl _
    | (with_reducible apply Touch.step (State_modLink_touch ..)); exact rfl
    | (with_reducible apply Touch.step (pumpRing_touch ..)); exact rfl
    | (with_reducible apply Touch.step (onAdmit_touch ..)); exact rfl
    | (with_reducible apply Touch.step (onRefuse_touch ..)); exact rfl
    | with_reducible apply Touch.ite
    | split
    | dsimp only
    | intro _

theorem execCarAnswerReceive_touch (l : LinkEnd) (answer : BitVec 16) (s : State) : TouchNext 0x369ffffdfe s (execCarAnswerReceive l answer s) := by
  unfold execCarAnswerReceive
  repeat' first
    | with_reducible exact Touch.refl _
    | (with_reducible apply Touch.step (orWait_touch (m := 0x369ffffdfe) rfl ?_)); exact rfl
    | (with_reducible apply Touch.step (takeAnswer_touch ..)); exact rfl
    | with_reducible apply TouchNext.next
    | with_reducible apply Touch.ite
    | intro _

theorem execCarRetryBackoffExpiry_touch (w : Wing) (k : CarSetKey) (step : Nat) (car : BitVec 16) (s : State) : TouchNext 0x2801fb000 s (execCarRetryBackoffExpiry w k step car s) := by
  unfold execCarRetryBackoffExpiry
  repeat' first
    | with_reducible exact Touch.refl _
    | (with_reducible apply Touch.step (State_modTt_touch ..)); exact rfl
    | (with_reducible apply Touch.step (State_modCarSet_touch ..)); exact rfl
    | (with_reducible apply Touch.step (pumpRing_touch ..)); exact rfl
    | with_reducible apply TouchNext.next
    | split

theorem execCarPatienceExpiry_touch (w : Wing) (k : CarSetKey) (step : Nat) (car : BitVec 16) (s : State) : TouchNext 0x2801fb100 s (execCarPatienceExpiry w k step car s) := by
  unfold execCarPatienceExpiry
  repeat' first
    | with_reducible exact Touch.refl _
    | (with_reducible apply Touch.step (failHere_touch ..)); exact rfl
    | with_reducible apply TouchNext.next
    | with_reducible apply Touch.ite
    | split
    | intro _

theorem receiveBody_touch (s : State) (w : Wing) (c : CarSet) (k : Nat) (j : Nat) (h : Entry) (body : List Byte) : Touch 0x369ffffdfe s (receiveBody s w c k j h body) := by
  unfold receiveBody
  repeat' first
    | with_reducible exact Touch.refl _
    | (with_reducible apply Touch.step (saveVa_touch ..)); exact rfl
    | (with_reducible apply Touch.step (State_modCarSet_touch ..)); exact rfl
    | (with_reducible apply Touch.step (pumpRing_touch ..)); exact rfl
    | (with_reducible apply Touch.step (failBody_touch ..)); exact rfl
    | (with_reducible apply Touch.step (addCtr_touch_tt ..)); exact rfl
    | with_reducible apply Touch.ite
    | with_reducible refine Touch.fst (by assumption) ?_
    | split
    | dsimp only
    | intro _

theorem execCarBodyReceived_touch (w : Wing) (k : CarSetKey) (step : Nat) (car : BitVec 16) (body : CarBody) (s : State) : TouchNext 0x369ffffdfe s (execCarBodyReceived w k step car body s) := by
  unfold execCarBodyReceived
  repeat' first
    | with_reducible exact Touch.refl _
    | (with_reducible apply Touch.step (orWait_touch (m := 0x369ffffdfe) rfl ?_)); exact rfl
    | (with_reducible apply Touch.step (atSlot_touch ..)); exact rfl
    | (with_reducible apply Touch.step (receiveBody_touch ..)); exact rfl
    | with_reducible apply TouchNext.next
    | with_reducible apply Touch.ite
    | split
    | intro _

theorem execCarStepFree_touch (w : Wing) (k : CarSetKey) (step : Nat) (s : State) : TouchNext 0x2801fb100 s (execCarStepFree w k step s) := by
  unfold execCarStepFree
  repeat' first
    | with_reducible exact Touch.refl _
    | (with_reducible apply Touch.step (stopTask_touch ..)); exact rfl
    | (with_reducible apply Touch.step (State_modCarSet_touch ..)); exact rfl
    | (with_reducible apply Touch.step (pumpRing_touch ..)); exact rfl
    | with_reducible apply TouchNext.next
    | with_reducible apply Touch.ite
    | with_reducible apply Touch.foldl
    | split
    | dsimp only
    | intro _

theorem execReconfigWindowEnd_touch (w : Wing) (s : State) : TouchNext 0x2801fb000 s (execReconfigWindowEnd w s) := by
  unfold execReconfigWindowEnd
  repeat' first
    | with_reducible exact Touch.refl _
    | (with_reducible apply Touch.step (State_modTt_touch ..)); exact rfl
    | (with_reducible apply Touch.step (drainLink_touch ..)); exact rfl
    | (with_reducible apply Touch.step (pumpRing_touch ..)); exact rfl
    | with_reducible apply TouchNext.next
    | with_reducible apply Touch.ite
    | with_reducible apply Touch.foldl
    | intro _

end Sys2Proof.Machine
end

