-- ==== Sys2Proof/Laws/TouchPorts.lean ====
section
/-!
SUPPORT. What the operations of Ports may change.
-/

namespace Sys2Proof.Machine

theorem hostWriteAt_touch {m : Nat} {s : State} {w : Wing} {f : State → State} (hm : 0x801e0000 ||| m = m)
    (hf : ∀ s, Touch m s (f s)) : Touch m s (hostWriteAt s w f) := by
  unfold hostWriteAt
  split
  · exact Touch.refl s
  · split
    · exact Touch.step (addCtr_touch_lnk ..) (testBit_sub rfl hm) (Touch.refl s)
    · exact hf s

theorem requeueCar_touch (w : Wing) (s : State) (c : SentCar) : Touch 0x801c3000 s (requeueCar w s c) := by
  unfold requeueCar
  repeat' first
    | with_reducible exact Touch.refl _
    | (with_reducible apply Touch.step (State_modCarSet_touch ..)); exact rfl
    | (with_reducible apply Touch.step (modOffered_touch ..)); exact rfl
    | (with_reducible apply Touch.step (addCtr_touch_tt ..)); exact rfl
    | with_reducible apply Touch.ite
    | split
    | dsimp only
    | intro _

theorem dropCars_touch (s : State) (l : LinkEnd) (cs : List SentCar) : Touch 0x801db000 s (dropCars s l cs) := by
  unfold dropCars
  repeat' first
    | with_reducible exact Touch.refl _
    | (with_reducible apply Touch.step (State_modLink_touch ..)); exact rfl
    | (with_reducible apply Touch.step (requeueCar_touch ..)); exact rfl
    | with_reducible apply Touch.foldl
    | intro _

theorem discardLink_touch (s : State) (l : LinkEnd) : Touch 0x801db000 s (discardLink s l) := by
  unfold discardLink
  repeat' first
    | with_reducible exact Touch.refl _
    | (with_reducible apply Touch.step (State_modLink_touch ..)); exact rfl
    | (with_reducible apply Touch.step (dropCars_touch ..)); exact rfl

theorem raisePort_touch (s : State) (w : Wing) (p : Nat) (ev : Nat) : Touch 0x801c0000 s (raisePort s w p ev) := by
  unfold raisePort
  repeat' first
    | with_reducible exact Touch.refl _
    | (with_reducible apply Touch.step (raise_touch ..)); exact rfl

theorem settleLinks_touch (s : State) : Touch 0x2801fb000 s (settleLinks s) := by
  unfold settleLinks
  repeat' first
    | with_reducible exact Touch.refl _
    | (with_reducible apply Touch.step (linkChanged_touch ..)); exact rfl
    | (with_reducible apply Touch.step (pumpRing_touch ..)); exact rfl

theorem leavePort_touch (s : State) (w : Wing) (p : Fin 6) (f : Port → Port) : Touch 0x8000 s (leavePort s w p f) := by
  unfold leavePort
  repeat' first
    | with_reducible exact Touch.refl _
    | (with_reducible apply Touch.step (State_modPort_touch ..)); exact rfl

theorem sendTrain_touch (s : State) (l : LinkEnd) (r : BitVec 256) : Touch 0x2801f8000 s (sendTrain s l r) := by
  unfold sendTrain
  repeat' first
    | with_reducible exact Touch.refl _
    | (with_reducible apply Touch.step (putPlain_touch ..)); exact rfl

theorem sendRequests_touch (s : State) (w : Wing) (p : Fin 6) (lanes : BitVec 8) (es : List Echo) : Touch 0x2801f8000 s (sendRequests s w p lanes es) := by
  unfold sendRequests
  repeat' first
    | with_reducible exact Touch.refl _
    | (with_reducible apply Touch.step (sendTrain_touch ..)); exact rfl
    | with_reducible apply Touch.foldl
    | intro _

theorem beginTraining_touch (s : State) (w : Wing) (p : Fin 6) : Touch 0x2801f8000 s (beginTraining s w p) := by
  unfold beginTraining
  repeat' first
    | with_reducible exact Touch.refl _
    | (with_reducible apply Touch.step (sendTrain_touch ..)); exact rfl

theorem echoRequest_touch (s : State) (l : LinkEnd) (r : BitVec 256) : Touch 0xa801f8000 s (echoRequest s l r) := by
  unfold echoRequest
  repeat' first
    | with_reducible exact Touch.refl _
    | (with_reducible apply Touch.step (sendTrain_touch ..)); exact rfl
    | with_reducible apply Touch.ite
    | split
    | dsimp only
    | intro _
    | (with_reducible apply Touch.step (touch_freeCtr ..)); exact rfl

theorem portDown_touch (s : State) (w : Wing) (p : Fin 6) (dest : PortState) : Touch 0x2801fb000 s (portDown s w p dest) := by
  unfold portDown
  repeat' first
    | with_reducible exact Touch.refl _
    | (with_reducible apply Touch.step (discardLink_touch ..)); exact rfl
    | (with_reducible apply Touch.step (raisePort_touch ..)); exact rfl
    | (with_reducible apply Touch.step (settleLinks_touch ..)); exact rfl
    | (with_reducible apply Touch.step (leavePort_touch ..)); exact rfl
    | (with_reducible apply Touch.step (addCtr_touch_lnk ..)); exact rfl

theorem retrainPort_touch (s : State) (w : Wing) (p : Fin 6) : Touch 0x2801fb000 s (retrainPort s w p) := by
  unfold retrainPort
  repeat' first
    | with_reducible exact Touch.refl _
    | (with_reducible apply Touch.step (dropCars_touch ..)); exact rfl
    | (with_reducible apply Touch.step (settleLinks_touch ..)); exact rfl
    | (with_reducible apply Touch.step (leavePort_touch ..)); exact rfl
    | (with_reducible apply Touch.step (beginTraining_touch ..)); exact rfl
    | (with_reducible apply Touch.step (addCtr_touch_lnk ..)); exact rfl

theorem cutTasks_touch (s : State) : Touch 0x8801c0100 s (cutTasks s) := by
  unfold cutTasks
  repeat' first
    | with_reducible exact Touch.refl _
    | assumption
    | (with_reducible apply Touch.step (freeChoice_touch ..)); exact rfl
    | (with_reducible apply Touch.step (stopTask_touch ..)); exact rfl
    | with_reducible apply Touch.foldl
    | split
    | dsimp only
    | intro _

theorem cutCarSets_touch (s : State) (w : Wing) : Touch 0x2801fb100 s (cutCarSets s w) := by
  unfold cutCarSets
  repeat' first
    | with_reducible exact Touch.refl _
    | (with_reducible apply Touch.step (failHere_touch ..)); exact rfl
    | with_reducible apply Touch.foldl
    | intro _

theorem leaveConcourse_touch (s : State) (x : PortState) : Touch 0x10000 s (leaveConcourse s x) := by
  unfold leaveConcourse
  repeat' first
    | with_reducible exact Touch.refl _
    | split
    | dsimp only
    | (with_reducible apply Touch.step (touch_cc ..)); exact rfl

theorem concourseFalls_touch (s : State) : Touch 0x3e9ffffdfe s (concourseFalls s) := by
  unfold concourseFalls
  repeat' first
    | with_reducible exact Touch.refl _
    | (with_reducible apply Touch.step (raise_touch ..)); exact rfl
    | (with_reducible apply Touch.step (setReason_touch ..)); exact rfl
    | (with_reducible apply Touch.step (settleLinks_touch ..)); exact rfl
    | (with_reducible apply Touch.step (cutTasks_touch ..)); exact rfl
    | (with_reducible apply Touch.step (cutCarSets_touch ..)); exact rfl
    | (with_reducible apply Touch.step (leaveConcourse_touch ..)); exact rfl
    | (with_reducible apply Touch.step (addCtr_touch_lnk ..)); exact rfl
    | dsimp only
    | (with_reducible apply Touch.step (touch_cc ..)); exact rfl

theorem execConcourseDown_touch (s : State) : TouchNext 0x3e9ffffdfe s (execConcourseDown s) := by
  unfold execConcourseDown
  repeat' first
    | with_reducible exact Touch.refl _
    | (with_reducible apply Touch.step (concourseFalls_touch ..)); exact rfl
    | with_reducible apply TouchNext.next
    | with_reducible apply Touch.ite
    | intro _

theorem resendAll_touch (s : State) (l : LinkEnd) : Touch 0x2801f8000 s (resendAll s l) := by
  unfold resendAll
  repeat' first
    | with_reducible exact Touch.refl _
    | (with_reducible apply Touch.step (State_modLink_touch ..)); exact rfl
    | (with_reducible apply Touch.step (putImage_touch ..)); exact rfl
    | with_reducible apply Touch.foldl
    | intro _

theorem replayLink_touch (s : State) (l : LinkEnd) : Touch 0x3e9ffffdfe s (replayLink s l) := by
  unfold replayLink
  repeat' first
    | with_reducible exact Touch.refl _
    | (with_reducible apply Touch.step (countLink_touch ..)); exact rfl
    | (with_reducible apply Touch.step (retrainPort_touch ..)); exact rfl
    | (with_reducible apply Touch.step (concourseFalls_touch ..)); exact rfl
    | (with_reducible apply Touch.step (resendAll_touch ..)); exact rfl
    | with_reducible apply Touch.ite
    | split
    | dsimp only
    | intro _

theorem execNakReceive_touch (l : LinkEnd) (ack : BitVec 12) (s : State) : TouchNext 0x3e9ffffdfe s (execNakReceive l ack s) := by
  unfold execNakReceive
  repeat' first
    | with_reducible exact Touch.refl _
    | (with_reducible apply Touch.step (ackLink_touch ..)); exact rfl
    | (with_reducible apply Touch.step (replayLink_touch ..)); exact rfl
    | with_reducible apply TouchNext.next
    | with_reducible apply Touch.ite
    | intro _

theorem execAckTimeoutReplay_touch (l : LinkEnd) (s : State) : TouchNext 0x3e9ffffdfe s (execAckTimeoutReplay l s) := by
  unfold execAckTimeoutReplay
  repeat' first
    | with_reducible exact Touch.refl _
    | (with_reducible apply Touch.step (replayLink_touch ..)); exact rfl
    | with_reducible apply TouchNext.next
    | with_reducible apply Touch.ite
    | intro _

theorem execNakResendTimeout_touch (l : LinkEnd) (s : State) : TouchNext 0x2801f8000 s (execNakResendTimeout l s) := by
  unfold execNakResendTimeout
  repeat' first
    | with_reducible exact Touch.refl _
    | (with_reducible apply Touch.step (State_modLink_touch ..)); exact rfl
    | (with_reducible apply Touch.step (sendNak_touch ..)); exact rfl
    | with_reducible apply TouchNext.next
    | with_reducible apply Touch.ite
    | intro _

theorem retireLane_touch (s : State) (w : Wing) (p : Fin 6) (lane : Nat) : Touch 0x2801fb000 s (retireLane s w p lane) := by
  unfold retireLane
  repeat' first
    | with_reducible exact Touch.refl _
    | (with_reducible apply Touch.step (State_modPort_touch ..)); exact rfl
    | (with_reducible apply Touch.step (raisePort_touch ..)); exact rfl
    | (with_reducible apply Touch.step (sendTrain_touch ..)); exact rfl
    | (with_reducible apply Touch.step (portDown_touch ..)); exact rfl
    | (with_reducible apply Touch.step (addCtr_touch_lnk ..)); exact rfl
    | with_reducible apply Touch.ite
    | split
    | dsimp only
    | intro _

theorem retireBundle_touch (s : State) (b : Nat) : Touch 0x3e9ffffdfe s (retireBundle s b) := by
  unfold retireBundle
  extract_lets m c spare heir left now s1 s2
  refine Touch.ite (fun _ => Touch.refl s) fun _ => ?_
  have h1 : Touch 0x3e9ffffdfe s s1 := Touch.weaken (touch_cc s) rfl
  have h2 : Touch 0x3e9ffffdfe s s2 := Touch.step (raise_touch ..) rfl
    (Touch.step (addCtr_touch_lnk ..) rfl (Touch.step (addCtr_touch_lnk ..) rfl h1))
  refine Touch.ite (fun _ => ?_) fun _ => Touch.ite (fun _ => ?_) fun _ => h2
  · exact Touch.step (concourseFalls_touch ..) rfl h2
  · exact Touch.step (setReason_touch ..) rfl h2

theorem laneError_touch (s : State) (w : Wing) (p : Fin 6) (lane : Nat) : Touch 0x2801fb000 s (laneError s w p lane) := by
  unfold laneError
  repeat' first
    | with_reducible exact Touch.refl _
    | (with_reducible apply Touch.step (State_modPort_touch ..)); exact rfl
    | (with_reducible apply Touch.step (retireLane_touch ..)); exact rfl
    | with_reducible apply Touch.ite
    | intro _

theorem bundleError_touch (s : State) (w : Wing) (b : Nat) : Touch 0x3e9ffffdfe s (bundleError s w b) := by
  unfold bundleError
  repeat' first
    | with_reducible exact Touch.refl _
    | (with_reducible apply Touch.step (retireBundle_touch ..)); exact rfl
    | with_reducible apply Touch.ite
    | dsimp only
    | intro _
    | (with_reducible apply Touch.step (touch_cc ..)); exact rfl

theorem loseFlit_touch (s : State) (l : LinkEnd) (uncorrectable : Bool) (lane : Nat) : Touch 0x3e9ffffdfe s (loseFlit s l uncorrectable lane) := by
  unfold loseFlit
  repeat' first
    | with_reducible exact Touch.refl _
    | (with_reducible apply Touch.step (countLink_touch ..)); exact rfl
    | (with_reducible apply Touch.step (sendNak_touch ..)); exact rfl
    | (with_reducible apply Touch.step (laneError_touch ..)); exact rfl
    | (with_reducible apply Touch.step (bundleError_touch ..)); exact rfl
    | (with_reducible apply Touch.step (addCtr_touch_lnk ..)); exact rfl
    | with_reducible apply Touch.ite
    | split
    | intro _

theorem protocolError_touch (s : State) (l : LinkEnd) : Touch 0x2801fb000 s (protocolError s l) := by
  unfold protocolError
  repeat' first
    | with_reducible exact Touch.refl _
    | (with_reducible apply Touch.step (settleLinks_touch ..)); exact rfl
    | (with_reducible apply Touch.step (retrainPort_touch ..)); exact rfl
    | (with_reducible apply Touch.step (leaveConcourse_touch ..)); exact rfl
    | (with_reducible apply Touch.step (addCtr_touch_lnk ..)); exact rfl
    | split

theorem deliverFlit_touch (s : State) (l : LinkEnd) (x : Flit) : Touch 0x801f8000 s (deliverFlit s l x) := by
  unfold deliverFlit
  repeat' first
    | with_reducible exact Touch.refl _
    | (with_reducible apply Touch.step (State_modLink_touch ..)); exact rfl
    | (with_reducible apply Touch.step (addCtr_touch_lnk ..)); exact rfl
    | split

theorem useHeader_touch (s : State) (l : LinkEnd) (x : Flit) : Touch 0x3e9ffffdfe s (useHeader s l x) := by
  unfold useHeader
  repeat' first
    | with_reducible exact Touch.refl _
    | (with_reducible apply Touch.step (drainLink_touch ..)); exact rfl
    | (with_reducible apply Touch.step (ackLink_touch ..)); exact rfl
    | (with_reducible apply Touch.step (takeCredits_touch ..)); exact rfl
    | (with_reducible apply Touch.step (pumpRing_touch ..)); exact rfl
    | (with_reducible apply Touch.step (takeAnswer_touch ..)); exact rfl
    | (with_reducible apply Touch.step (replayLink_touch ..)); exact rfl
    | with_reducible apply Touch.ite
    | split
    | intro _

theorem acceptFlit_touch (s : State) (l : LinkEnd) (x : Flit) : Touch 0x3e9ffffdfe s (acceptFlit s l x) := by
  unfold acceptFlit
  repeat' first
    | with_reducible exact Touch.refl _
    | (with_reducible apply Touch.step (sendNak_touch ..)); exact rfl
    | (with_reducible apply Touch.step (echoRequest_touch ..)); exact rfl
    | (with_reducible apply Touch.step (protocolError_touch ..)); exact rfl
    | (with_reducible apply Touch.step (deliverFlit_touch ..)); exact rfl
    | (with_reducible apply Touch.step (useHeader_touch ..)); exact rfl
    | with_reducible apply Touch.ite
    | split
    | dsimp only
    | intro _

theorem countCorrected_touch (s : State) (l : LinkEnd) (n : Nat) : Touch 0x801e0000 s (countCorrected s l n) := by
  unfold countCorrected
  repeat' first
    | with_reducible exact Touch.refl _
    | (with_reducible apply Touch.step (addCtr_touch_lnk ..)); exact rfl
    | with_reducible apply Touch.ite
    | split
    | intro _

theorem execFlitReceive_touch (l : LinkEnd) (flit : Flit) (uncorrectable : Bool) (r : LaneReport) (s : State) : TouchNext 0x3e9ffffdfe s (execFlitReceive l flit uncorrectable r s) := by
  unfold execFlitReceive
  repeat' first
    | with_reducible exact Touch.refl _
    | (with_reducible apply Touch.step (orWait_touch (m := 0x3e9ffffdfe) rfl ?_)); exact rfl
    | (with_reducible apply Touch.step (echoRequest_touch ..)); exact rfl
    | (with_reducible apply Touch.step (loseFlit_touch ..)); exact rfl
    | (with_reducible apply Touch.step (acceptFlit_touch ..)); exact rfl
    | (with_reducible apply Touch.step (countCorrected_touch ..)); exact rfl
    | with_reducible apply TouchNext.next
    | with_reducible apply Touch.ite
    | split
    | intro _

theorem execPortSignalLoss_touch (w : Wing) (p : Fin 6) (s : State) : TouchNext 0x2801fb000 s (execPortSignalLoss w p s) := by
  unfold execPortSignalLoss
  repeat' first
    | with_reducible exact Touch.refl _
    | (with_reducible apply Touch.step (State_modPort_touch ..)); exact rfl
    | (with_reducible apply Touch.step (putIdle_touch ..)); exact rfl
    | (with_reducible apply Touch.step (dropCars_touch ..)); exact rfl
    | (with_reducible apply Touch.step (raisePort_touch ..)); exact rfl
    | (with_reducible apply Touch.step (settleLinks_touch ..)); exact rfl
    | (with_reducible apply Touch.step (leavePort_touch ..)); exact rfl
    | with_reducible apply TouchNext.next
    | with_reducible apply Touch.ite
    | split
    | dsimp only
    | intro _

theorem trainAfresh_touch (s : State) (w : Wing) (p : Fin 6) : Touch 0x2801f8000 s (trainAfresh s w p) := by
  unfold trainAfresh
  repeat' first
    | with_reducible exact Touch.refl _
    | (with_reducible apply Touch.step (State_modPort_touch ..)); exact rfl
    | (with_reducible apply Touch.step (beginTraining_touch ..)); exact rfl

theorem execPortSignalReturn_touch (w : Wing) (p : Fin 6) (s : State) : TouchNext 0x2801f8000 s (execPortSignalReturn w p s) := by
  unfold execPortSignalReturn
  repeat' first
    | with_reducible exact Touch.refl _
    | (with_reducible apply Touch.step (State_modPort_touch ..)); exact rfl
    | (with_reducible apply Touch.step (beginTraining_touch ..)); exact rfl
    | (with_reducible apply Touch.step (trainAfresh_touch ..)); exact rfl
    | (with_reducible apply Touch.step (addCtr_touch_lnk ..)); exact rfl
    | with_reducible apply TouchNext.next
    | with_reducible apply Touch.ite
    | split
    | intro _

theorem resumeLink_touch (s : State) (l : LinkEnd) (last : Option (BitVec 12)) : Touch 0x2801fb000 s (resumeLink s l last) := by
  unfold resumeLink
  repeat' first
    | with_reducible exact Touch.refl _
    | (with_reducible apply Touch.step (State_modLink_touch ..)); exact rfl
    | (with_reducible apply Touch.step (offerFlit_touch ..)); exact rfl
    | (with_reducible apply Touch.step (drainLink_touch ..)); exact rfl
    | with_reducible apply Touch.foldl
    | intro _

theorem restartLink_touch (s : State) (l : LinkEnd) : Touch 0x801db000 s (restartLink s l) := by
  unfold restartLink
  repeat' first
    | with_reducible exact Touch.refl _
    | (with_reducible apply Touch.step (State_modLink_touch ..)); exact rfl
    | (with_reducible apply Touch.step (discardLink_touch ..)); exact rfl

theorem portUp_touch (s : State) (w : Wing) (p : Fin 6) (r : BitVec 256) (lanes : BitVec 8) (gen : Nat) (fallback : Bool) (lat : Word32) : Touch 0x2801fb000 s (portUp s w p r lanes gen fallback lat) := by
  unfold portUp
  repeat' first
    | with_reducible exact Touch.refl _
    | (with_reducible apply Touch.step (State_modPort_touch ..)); exact rfl
    | (with_reducible apply Touch.step (raisePort_touch ..)); exact rfl
    | (with_reducible apply Touch.step (settleLinks_touch ..)); exact rfl
    | (with_reducible apply Touch.step (resumeLink_touch ..)); exact rfl
    | (with_reducible apply Touch.step (restartLink_touch ..)); exact rfl
    | with_reducible apply Touch.ite
    | split
    | intro _

theorem execPortTrainingDone_touch (w : Wing) (p : Fin 6) (record : BitVec 256) (lanes : BitVec 8) (fallback : Bool) (echoes : List Echo) (s : State) : TouchNext 0x2801fb000 s (execPortTrainingDone w p record lanes fallback echoes s) := by
  unfold execPortTrainingDone
  repeat' first
    | with_reducible exact Touch.refl _
    | (with_reducible apply Touch.step (State_modPort_touch ..)); exact rfl
    | (with_reducible apply Touch.step (raisePort_touch ..)); exact rfl
    | (with_reducible apply Touch.step (sendTrain_touch ..)); exact rfl
    | (with_reducible apply Touch.step (sendRequests_touch ..)); exact rfl
    | (with_reducible apply Touch.step (portDown_touch ..)); exact rfl
    | (with_reducible apply Touch.step (portUp_touch ..)); exact rfl
    | with_reducible apply TouchNext.next
    | with_reducible apply Touch.ite
    | split
    | dsimp only
    | intro _

theorem execPortTrainingFail_touch (w : Wing) (p : Fin 6) (step : Fin 7) (s : State) : TouchNext 0x8000 s (execPortTrainingFail w p step s) := by
  unfold execPortTrainingFail
  repeat' first
    | with_reducible exact Touch.refl _
    | (with_reducible apply Touch.step (State_modPort_touch ..)); exact rfl
    | with_reducible apply TouchNext.next
    | with_reducible apply Touch.ite
    | split
    | intro _

theorem execPortTrainingRetry_touch (w : Wing) (p : Fin 6) (s : State) : TouchNext 0x2801f8000 s (execPortTrainingRetry w p s) := by
  unfold execPortTrainingRetry
  repeat' first
    | with_reducible exact Touch.refl _
    | (with_reducible apply Touch.step (State_modPort_touch ..)); exact rfl
    | (with_reducible apply Touch.step (beginTraining_touch ..)); exact rfl
    | (with_reducible apply Touch.step (trainAfresh_touch ..)); exact rfl
    | with_reducible apply TouchNext.next
    | with_reducible apply Touch.ite
    | split
    | intro _

theorem execLaneRetire_touch (w : Wing) (p : Fin 6) (lane : Fin 8) (s : State) : TouchNext 0x2801fb000 s (execLaneRetire w p lane s) := by
  unfold execLaneRetire
  repeat' first
    | with_reducible exact Touch.refl _
    | (with_reducible apply Touch.step (retireLane_touch ..)); exact rfl
    | with_reducible apply TouchNext.next

theorem execDarkLimitExpiry_touch (w : Wing) (p : Fin 6) (s : State) : TouchNext 0x2801fb000 s (execDarkLimitExpiry w p s) := by
  unfold execDarkLimitExpiry
  repeat' first
    | with_reducible exact Touch.refl _
    | (with_reducible apply Touch.step (portDown_touch ..)); exact rfl
    | with_reducible apply TouchNext.next
    | with_reducible apply Touch.ite
    | intro _

theorem widenLane_touch (w : Wing) (p : Fin 6) (s : State) (lane : Nat) : Touch 0xa801f8000 s (widenLane w p s lane) := by
  unfold widenLane
  repeat' first
    | with_reducible exact Touch.refl _
    | (with_reducible apply Touch.step (freeChoice_touch ..)); exact rfl
    | (with_reducible apply Touch.step (State_modPort_touch ..)); exact rfl
    | (with_reducible apply Touch.step (sendTrain_touch ..)); exact rfl
    | with_reducible apply Touch.ite
    | split
    | dsimp only
    | intro _

theorem widenPort_touch (s : State) (w : Wing) (p : Fin 6) : Touch 0xa801f8000 s (widenPort s w p) := by
  unfold widenPort
  repeat' first
    | with_reducible exact Touch.refl _
    | (with_reducible apply Touch.step (widenLane_touch ..)); exact rfl
    | with_reducible apply Touch.ite
    | with_reducible apply Touch.foldl
    | intro _

theorem execWiden_touch (w : Wing) (p : Fin 6) (s : State) : TouchNext 0xa801f8000 s (execWiden w p s) := by
  unfold execWiden
  repeat' first
    | with_reducible exact Touch.refl _
    | (with_reducible apply Touch.step (hostWriteAt_touch (m := 0xa801f8000) rfl ?_)); exact rfl
    | (with_reducible apply Touch.step (widenPort_touch ..)); exact rfl
    | with_reducible apply TouchNext.next
    | intro _

theorem retrainNow_touch (s : State) (w : Wing) (p : Fin 6) : Touch 0x2801fb000 s (retrainNow s w p) := by
  unfold retrainNow
  repeat' first
    | with_reducible exact Touch.refl _
    | (with_reducible apply Touch.step (retrainPort_touch ..)); exact rfl
    | with_reducible apply Touch.ite
    | intro _

theorem execRetrain_touch (w : Wing) (p : Fin 6) (s : State) : TouchNext 0x2801fb000 s (execRetrain w p s) := by
  unfold execRetrain
  repeat' first
    | with_reducible exact Touch.refl _
    | (with_reducible apply Touch.step (hostWriteAt_touch (m := 0x2801fb000) rfl ?_)); exact rfl
    | (with_reducible apply Touch.step (retrainNow_touch ..)); exact rfl
    | with_reducible apply TouchNext.next
    | intro _

theorem applyGenAllow_touch (s : State) (w : Wing) (p : Fin 6) : Touch 0x2801fb000 s (applyGenAllow s w p) := by
  unfold applyGenAllow
  repeat' first
    | with_reducible exact Touch.refl _
    | (with_reducible apply Touch.step (State_modPort_touch ..)); exact rfl
    | (with_reducible apply Touch.step (portDown_touch ..)); exact rfl
    | with_reducible apply Touch.ite
    | split
    | intro _

theorem execBundleRetire_touch (b : Fin 9) (s : State) : TouchNext 0x3e9ffffdfe s (execBundleRetire b s) := by
  unfold execBundleRetire
  repeat' first
    | with_reducible exact Touch.refl _
    | (with_reducible apply Touch.step (retireBundle_touch ..)); exact rfl
    | with_reducible apply TouchNext.next

theorem releaseWest_touch (s : State) : Touch 0x803d0000 s (releaseWest s) := by
  unfold releaseWest
  extract_lets bells evs log cc0 s1 s2 s3 s4 funcAt s5
  have h1 : Touch 0x803d0000 s s1 := Touch.weaken (touch_cc s) rfl
  have h2 : Touch 0x803d0000 s s2 := Touch.step (State_modLogs_touch ..) rfl h1
  have h3 : Touch 0x803d0000 s s3 := h2.foldl fun _ _ h => Touch.step (enterLog_touch ..) rfl h
  have h4 : Touch 0x803d0000 s s4 := h3.foldl fun y e h => by
    cases hp : postEvent y e with
    | none => exact Touch.step (loseEvent_touch ..) rfl h
    | some t => exact Touch.step (postEvent_touch hp) rfl h
  have h5 : Touch 0x803d0000 s s5 := h4.foldl fun _ _ h => Touch.step (applyDoorbell_touch ..) rfl h
  exact h5.foldl fun _ _ h => Touch.step (flushFunc_touch ..) rfl h

theorem execConcourseRetrainDone_touch (bundles : BitVec 9) (s : State) : TouchNext 0x369ffffdfe s (execConcourseRetrainDone bundles s) := by
  unfold execConcourseRetrainDone
  repeat' first
    | with_reducible exact Touch.refl _
    | (with_reducible apply Touch.step (setReason_touch ..)); exact rfl
    | (with_reducible apply Touch.step (clearReason_touch ..)); exact rfl
    | (with_reducible apply Touch.step (settleLinks_touch ..)); exact rfl
    | (with_reducible apply Touch.step (resumeLink_touch ..)); exact rfl
    | (with_reducible apply Touch.step (releaseWest_touch ..)); exact rfl
    | with_reducible apply TouchNext.next
    | with_reducible apply Touch.ite
    | split
    | dsimp only
    | intro _
    | (with_reducible apply Touch.step (touch_cc ..)); exact rfl

end Sys2Proof.Machine
end

