-- ==== Sys2Proof/Laws/TouchReset.lean ====
section
/-!
SUPPORT. What the operations of Reset may change.
-/

namespace Sys2Proof.Machine

theorem logEntryEnd_touch (s : State) (f : Func) (r : Nat) (e : Entry) (cause : Nat) : Touch 0x801c0000 s (logEntryEnd s f r e cause) := by
  unfold logEntryEnd
  repeat' first
    | with_reducible exact Touch.refl _
    | (with_reducible apply Touch.step (logCause_touch ..)); exact rfl

theorem cutRing_touch (s : State) (f : Func) (r : Nat) (cause : Nat) : Touch 0x803d0000 s (cutRing s f r cause) := by
  unfold cutRing
  repeat' first
    | with_reducible exact Touch.refl _
    | (with_reducible apply Touch.step (State_modRing_touch ..)); exact rfl
    | (with_reducible apply Touch.step (logEntryEnd_touch ..)); exact rfl
    | with_reducible apply Touch.foldl
    | split
    | dsimp only
    | intro _
    | (with_reducible apply Touch.step (touch_cc ..)); exact rfl

theorem cutRings_touch (s : State) (f : Func) (cause : Nat) : Touch 0x803d0000 s (cutRings s f cause) := by
  unfold cutRings
  repeat' first
    | with_reducible exact Touch.refl _
    | (with_reducible apply Touch.step (cutRing_touch ..)); exact rfl
    | with_reducible apply Touch.foldl
    | intro _

theorem endCmdByReset_touch (p : Nat) (s : State) (c : Cmd) : Touch 0x803c0400 s (endCmdByReset p s c) := by
  unfold endCmdByReset
  repeat' first
    | with_reducible exact Touch.refl _
    | (with_reducible apply Touch.step (endCmd_touch ..)); exact rfl
    | (with_reducible apply Touch.step (logEntryEnd_touch ..)); exact rfl
    | with_reducible apply Touch.ite
    | split
    | intro _
    | (with_reducible apply Touch.step (touch_cmds ..)); exact rfl

theorem endSwapsByReset_touch (p : Nat) (s : State) (i : Instance) : Touch 0x803c0080 s (endSwapsByReset p s i) := by
  unfold endSwapsByReset
  repeat' first
    | with_reducible exact Touch.refl _
    | (with_reducible apply Touch.step (State_modInst_touch ..)); exact rfl
    | (with_reducible apply Touch.step (answerCommand_touch ..)); exact rfl
    | (with_reducible apply Touch.step (logEntryEnd_touch ..)); exact rfl
    | with_reducible apply Touch.foldl
    | split
    | intro _

theorem muteSwaps_touch (s : State) (p : Func → Bool) : Touch 0x80 s (muteSwaps s p) := by
  unfold muteSwaps
  repeat' first
    | with_reducible exact Touch.refl _
    | dsimp only
    | (with_reducible apply Touch.step (touch_insts ..)); exact rfl

theorem endTaskNow_touch (s : State) (t : Task) (cause : Nat) : Touch 0x3c9ffffdfe s (endTaskNow s t cause) := by
  unfold endTaskNow
  repeat' first
    | with_reducible exact Touch.refl _
    | (with_reducible apply Touch.step (logTask_touch ..)); exact rfl
    | (with_reducible apply Touch.step (finishTask_touch ..)); exact rfl
    | (with_reducible apply Touch.step (scribbleRanges_touch ..)); exact rfl
    | (with_reducible apply Touch.step (closeTaskColl_touch ..)); exact rfl
    | (with_reducible apply Touch.step (addCtr_touch_sch ..)); exact rfl
    | with_reducible apply Touch.ite
    | intro _

theorem endTaskByReset_touch (s : State) (t : Task) : Touch 0x3c9ffffdfe s (endTaskByReset s t) := by
  unfold endTaskByReset
  repeat' first
    | with_reducible exact Touch.refl _
    | (with_reducible apply Touch.step (endTaskNow_touch ..)); exact rfl

theorem resetColl_touch (s : State) (w : Wing) (p : Nat) (c : Coll) : Touch 0x801c4000 s (resetColl s w p c) := by
  unfold resetColl
  repeat' first
    | with_reducible exact Touch.refl _
    | (with_reducible apply Touch.step (logCause_touch ..)); exact rfl
    | (with_reducible apply Touch.step (closeColl_touch ..)); exact rfl
    | (with_reducible apply Touch.step (reportColl_touch ..)); exact rfl
    | with_reducible apply Touch.ite
    | intro _

theorem resetColls_touch (p : Nat) (s : State) (w : Wing) : Touch 0x801c4000 s (resetColls p s w) := by
  unfold resetColls
  repeat' first
    | with_reducible exact Touch.refl _
    | (with_reducible apply Touch.step (resetColl_touch ..)); exact rfl
    | with_reducible apply Touch.foldl
    | intro _

theorem resetCarSets_touch (p : Nat) (s : State) (w : Wing) : Touch 0x2801fb100 s (resetCarSets p s w) := by
  unfold resetCarSets
  repeat' first
    | with_reducible exact Touch.refl _
    | (with_reducible apply Touch.step (endCarSet_touch ..)); exact rfl
    | with_reducible apply Touch.foldl
    | intro _

theorem withdrawInst_touch (s : State) (i : Instance) : Touch 0x801c00a8 s (withdrawInst s i) := by
  unfold withdrawInst
  repeat' first
    | with_reducible exact Touch.refl _
    | (with_reducible apply Touch.step (State_modInst_touch ..)); exact rfl
    | (with_reducible apply Touch.step (retireUnpinned_touch ..)); exact rfl

theorem returnFrame_touch (t : Tile) (s : State) (f : Nat × Frame) : Touch 0x3000000016 s (returnFrame t s f) := by
  unfold returnFrame
  repeat' first
    | with_reducible exact Touch.refl _
    | (with_reducible apply Touch.step (zeroPa_touch ..)); exact rfl
    | (with_reducible apply Touch.step (freeFrame_touch ..)); exact rfl
    | (with_reducible apply Touch.step (writeBack_touch ..)); exact rfl

theorem dropTileState_touch (p : Nat) (s : State) (t : Tile) : Touch 0x30801c0036 s (dropTileState p s t) := by
  unfold dropTileState
  repeat' first
    | with_reducible exact Touch.refl _
    | (with_reducible apply Touch.step (State_modMem_touch ..)); exact rfl
    | (with_reducible apply Touch.step (dropLab_touch ..)); exact rfl
    | (with_reducible apply Touch.step (returnFrame_touch ..)); exact rfl
    | with_reducible apply Touch.foldl
    | intro _

theorem zeroGrant_touch (p : Nat) (s : State) (t : Tile) : Touch 0x2000000004 s (zeroGrant p s t) := by
  unfold zeroGrant
  repeat' first
    | with_reducible exact Touch.refl _
    | (with_reducible apply Touch.step (zeroCore_touch ..)); exact rfl
    | with_reducible apply Touch.foldl
    | intro _

theorem beginReset_touch (s : State) (p : Fin 16) : Touch 0x3e9ffffdfe s (beginReset s p) := by
  unfold beginReset
  repeat' first
    | with_reducible exact Touch.refl _
    | (with_reducible apply Touch.step (raise_touch ..)); exact rfl
    | (with_reducible apply Touch.step (cutRings_touch ..)); exact rfl
    | (with_reducible apply Touch.step (endCmdByReset_touch ..)); exact rfl
    | (with_reducible apply Touch.step (endSwapsByReset_touch ..)); exact rfl
    | (with_reducible apply Touch.step (muteSwaps_touch ..)); exact rfl
    | (with_reducible apply Touch.step (endTaskByReset_touch ..)); exact rfl
    | (with_reducible apply Touch.step (resetColls_touch ..)); exact rfl
    | (with_reducible apply Touch.step (resetCarSets_touch ..)); exact rfl
    | (with_reducible apply Touch.step (withdrawInst_touch ..)); exact rfl
    | (with_reducible apply Touch.step (dropTileState_touch ..)); exact rfl
    | (with_reducible apply Touch.step (zeroGrant_touch ..)); exact rfl
    | (with_reducible apply Touch.step (addCtr_touch_hif ..)); exact rfl
    | with_reducible apply Touch.ite
    | with_reducible apply Touch.foldl
    | unfold State.modHif
    | dsimp only
    | intro _
    | (with_reducible apply Touch.step (touch_hif_resetting_zeroing ..)); exact rfl
    | (with_reducible apply Touch.step (touch_sidings ..)); exact rfl

theorem performReset_touch (s : State) (o : Origin) (e : Entry) : Touch 0x3e9ffffdfe s (performReset s o e) := by
  unfold performReset
  repeat' first
    | with_reducible exact Touch.refl _
    | (with_reducible apply Touch.step (beginReset_touch ..)); exact rfl
    | (with_reducible apply Touch.step (touch_cmds ..)); exact rfl

theorem execPartitionResetCmd_touch (f : Func) (r : Fin 64) (s : State) : TouchNext 0x3e9ffffdfe s (execPartitionResetCmd f r s) := by
  unfold execPartitionResetCmd
  repeat' first
    | with_reducible exact Touch.refl _
    | (with_reducible apply Touch.step (beginCommand_touch (m := 0x3e9ffffdfe) rfl ?_)); exact rfl
    | (with_reducible apply Touch.step (performReset_touch ..)); exact rfl
    | with_reducible apply TouchNext.next
    | intro _

theorem execFunctionLevelReset_touch (part : Fin 16) (s : State) : TouchNext 0x3e9ffffdfe s (execFunctionLevelReset part s) := by
  unfold execFunctionLevelReset
  repeat' first
    | with_reducible exact Touch.refl _
    | (with_reducible apply Touch.step (beginReset_touch ..)); exact rfl
    | with_reducible apply TouchNext.next
    | with_reducible apply Touch.ite
    | intro _

theorem execPartitionResetDone_touch (part : Fin 16) (s : State) : TouchNext 0x30823c0406 s (execPartitionResetDone part s) := by
  unfold execPartitionResetDone
  repeat' first
    | with_reducible exact Touch.refl _
    | (with_reducible apply Touch.step (zeroPa_touch ..)); exact rfl
    | (with_reducible apply Touch.step (raise_touch ..)); exact rfl
    | (with_reducible apply Touch.step (endCmd_touch ..)); exact rfl
    | with_reducible apply TouchNext.next
    | with_reducible apply Touch.ite
    | with_reducible apply Touch.foldl
    | unfold State.modHif
    | dsimp only
    | intro _
    | (with_reducible apply Touch.step (touch_hif_resetting_pf0Resetting_zeroing ..)); exact rfl

theorem clearVfs_touch (s : State) : Touch 0x1300000 s (clearVfs s) := by
  unfold clearVfs
  repeat' first
    | with_reducible exact Touch.refl _
    | (with_reducible apply Touch.step (touch_modHif_vfEnable_pages_rings ..)); exact rfl

theorem resetAll_touch (s : State) : Touch 0x3e9ffffdfe s (resetAll s) := by
  unfold resetAll
  repeat' first
    | with_reducible exact Touch.refl _
    | (with_reducible apply Touch.step (beginReset_touch ..)); exact rfl
    | with_reducible apply Touch.foldl
    | intro _

theorem dropVfEnable_touch (s : State) : Touch 0x3e9ffffdfe s (dropVfEnable s) := by
  unfold dropVfEnable
  repeat' first
    | with_reducible exact Touch.refl _
    | (with_reducible apply Touch.step (clearVfs_touch ..)); exact rfl
    | (with_reducible apply Touch.step (resetAll_touch ..)); exact rfl

theorem execVfEnableClear_touch (s : State) : TouchNext 0x3e9ffffdfe s (execVfEnableClear s) := by
  unfold execVfEnableClear
  repeat' first
    | with_reducible exact Touch.refl _
    | (with_reducible apply Touch.step (dropVfEnable_touch ..)); exact rfl
    | with_reducible apply TouchNext.next
    | with_reducible apply Touch.ite
    | intro _

theorem orphanRing_touch (s : State) (r : Nat) : Touch 0x80bc0000 s (orphanRing s r) := by
  unfold orphanRing
  repeat' first
    | with_reducible exact Touch.refl _
    | (with_reducible apply Touch.step (logEntryEnd_touch ..)); exact rfl
    | with_reducible apply Touch.foldl
    | (with_reducible apply Touch.step (touch_modHif_orphans_rings ..)); exact rfl
    | intro _

theorem resetPf0_touch (s : State) : Touch 0x3e9ffffdfe s (resetPf0 s) := by
  unfold resetPf0
  refine Touch.ite (fun _ => Touch.refl s) fun _ => ?_
  extract_lets s1 s2 s3 cc0 s4 s5 s6
  have h1 : Touch 0x3e9ffffdfe s s1 := Touch.weaken (touch_cmds s) rfl
  have h2 : Touch 0x3e9ffffdfe s s2 := Touch.step (muteSwaps_touch ..) rfl h1
  have h3 : Touch 0x3e9ffffdfe s s3 := h2.foldl fun _ _ h => Touch.step (orphanRing_touch ..) rfl h
  have h4 : Touch 0x3e9ffffdfe s s4 := Touch.step (touch_cc s3) rfl h3
  have h5 : Touch 0x3e9ffffdfe s s5 := Touch.step (touch_hif_pf0Resetting_pages_mbx_logs s4) rfl h4
  have h6 : Touch 0x3e9ffffdfe s s6 := Touch.step (State_modCst_touch ..) rfl h5
  exact Touch.step (dropVfEnable_touch ..) rfl h6

theorem linkDown_touch (s : State) : Touch 0x1000000 s (linkDown s) := by
  unfold linkDown
  repeat' first
    | with_reducible exact Touch.refl _
    | (with_reducible apply Touch.step (touch_modHif_linkUp_speed_width_flit_cxl ..)); exact rfl

theorem assertPerst_touch (s : State) : Touch 0x3e9ffffdfe s (assertPerst s) := by
  unfold assertPerst
  repeat' first
    | with_reducible exact Touch.refl _
    | (with_reducible apply Touch.step (State_modPower_touch ..)); exact rfl
    | (with_reducible apply Touch.step (resetPf0_touch ..)); exact rfl
    | (with_reducible apply Touch.step (linkDown_touch ..)); exact rfl
    | with_reducible apply Touch.ite
    | intro _

theorem execPf0Reset_touch (how : Pf0Trigger) (s : State) : TouchNext 0x3e9ffffdfe s (execPf0Reset how s) := by
  unfold execPf0Reset
  repeat' first
    | with_reducible exact Touch.refl _
    | (with_reducible apply Touch.step (resetPf0_touch ..)); exact rfl
    | (with_reducible apply Touch.step (linkDown_touch ..)); exact rfl
    | (with_reducible apply Touch.step (assertPerst_touch ..)); exact rfl
    | with_reducible apply TouchNext.next
    | with_reducible apply Touch.ite
    | split
    | dsimp only
    | intro _

end Sys2Proof.Machine
end

