-- ==== Sys2Proof/Laws/TouchPower.lean ====
section
/-!
SUPPORT. What the operations of Power may change.
-/

namespace Sys2Proof.Machine

theorem startWake_touch (s : State) (target : DevState) : Touch 0x349ffffdfe s (startWake s target) := by
  unfold startWake
  repeat' first
    | with_reducible exact Touch.refl _
    | (with_reducible apply Touch.step (State_modCst_touch ..)); exact rfl
    | (with_reducible apply Touch.step (enterState_touch ..)); exact rfl

theorem autoWake_touch (s : State) : Touch 0x349ffffdfe s (autoWake s) := by
  unfold autoWake
  repeat' first
    | with_reducible exact Touch.refl _
    | (with_reducible apply Touch.step (startWake_touch ..)); exact rfl

theorem endUnissued_touch (f : Func) (r : Nat) (cause : Nat) (s : State) (x : Entry × Nat) : Touch 0x803c0000 s (endUnissued f r cause s x) := by
  unfold endUnissued
  repeat' first
    | with_reducible exact Touch.refl _
    | (with_reducible apply Touch.step (answerEntry_touch ..)); exact rfl
    | (with_reducible apply Touch.step (answerCommand_touch ..)); exact rfl
    | (with_reducible apply Touch.step (logEntryEnd_touch ..)); exact rfl
    | with_reducible apply Touch.ite
    | intro _

theorem endAllUnissued_touch (s : State) : Touch 0x80bc0000 s (endAllUnissued s) := by
  unfold endAllUnissued
  repeat' first
    | with_reducible exact Touch.refl _
    | assumption
    | (with_reducible apply Touch.step (State_modRing_touch ..)); exact rfl
    | (with_reducible apply Touch.step (logEntryEnd_touch ..)); exact rfl
    | (with_reducible apply Touch.step (endUnissued_touch ..)); exact rfl
    | with_reducible apply Touch.foldl
    | (with_reducible apply Touch.step (touch_modHif_orphans ..)); exact rfl
    | dsimp only
    | intro _

theorem leaveService_touch (s : State) : Touch 0x349ffffdfe s (leaveService s) := by
  unfold leaveService
  repeat' first
    | with_reducible exact Touch.refl _
    | (with_reducible apply Touch.step (enterState_touch ..)); exact rfl
    | (with_reducible apply Touch.step (endAllUnissued_touch ..)); exact rfl

theorem settleTarget_touch (s : State) : Touch 0x349ffffdfe s (settleTarget s) := by
  unfold settleTarget
  repeat' first
    | with_reducible exact Touch.refl _
    | (with_reducible apply Touch.step (State_modCst_touch ..)); exact rfl
    | (with_reducible apply Touch.step (enterState_touch ..)); exact rfl
    | (with_reducible apply Touch.step (leaveService_touch ..)); exact rfl
    | split

theorem enterShunt_touch (s : State) : Touch 0x349ffffdfe s (enterShunt s) := by
  unfold enterShunt
  repeat' first
    | with_reducible exact Touch.refl _
    | (with_reducible apply Touch.step (enterState_touch ..)); exact rfl
    | (with_reducible apply Touch.step (settleTarget_touch ..)); exact rfl

theorem enterDepot_touch (s : State) : Touch 0x349ffffdfe s (enterDepot s) := by
  unfold enterDepot
  repeat' first
    | with_reducible exact Touch.refl _
    | (with_reducible apply Touch.step (dropMain_touch ..)); exact rfl
    | (with_reducible apply Touch.step (enterState_touch ..)); exact rfl

theorem breakStreams_touch (s : State) (ts : List Task) : Touch 0x801c0808 s (breakStreams s ts) := by
  unfold breakStreams
  repeat' first
    | with_reducible exact Touch.refl _
    | assumption
    | (with_reducible apply Touch.step (raise_touch ..)); exact rfl
    | (with_reducible apply Touch.step (addCtr_touch_sch ..)); exact rfl
    | with_reducible apply Touch.foldl
    | dsimp only
    | intro _
    | (with_reducible apply Touch.step (touch_sidings ..)); exact rfl

theorem endWaitingSwaps_touch (cause : Nat) (s : State) (i : Instance) : Touch 0x803c0080 s (endWaitingSwaps cause s i) := by
  unfold endWaitingSwaps
  repeat' first
    | with_reducible exact Touch.refl _
    | (with_reducible apply Touch.step (State_modInst_touch ..)); exact rfl
    | (with_reducible apply Touch.step (answerCommand_touch ..)); exact rfl
    | with_reducible apply Touch.foldl
    | intro _

theorem endAllWork_touch (s : State) : Touch 0x3c9ffffdfe s (endAllWork s) := by
  unfold endAllWork
  repeat' first
    | with_reducible exact Touch.refl _
    | (with_reducible apply Touch.step (endCmd_touch ..)); exact rfl
    | (with_reducible apply Touch.step (endTaskNow_touch ..)); exact rfl
    | (with_reducible apply Touch.step (breakStreams_touch ..)); exact rfl
    | (with_reducible apply Touch.step (endWaitingSwaps_touch ..)); exact rfl
    | with_reducible apply Touch.foldl
    | intro _

theorem execShuntDrainExpiry_touch (s : State) : TouchNext 0x3c9ffffdfe s (execShuntDrainExpiry s) := by
  unfold execShuntDrainExpiry
  repeat' first
    | with_reducible exact Touch.refl _
    | (with_reducible apply Touch.step (orWait_touch (m := 0x3c9ffffdfe) rfl ?_)); exact rfl
    | (with_reducible apply Touch.step (enterShunt_touch ..)); exact rfl
    | (with_reducible apply Touch.step (endAllWork_touch ..)); exact rfl
    | with_reducible apply TouchNext.next
    | with_reducible apply Touch.ite
    | intro _

theorem execLeavingServiceDrained_touch (s : State) : TouchNext 0x349ffffdfe s (execLeavingServiceDrained s) := by
  unfold execLeavingServiceDrained
  repeat' first
    | with_reducible exact Touch.refl _
    | (with_reducible apply Touch.step (enterShunt_touch ..)); exact rfl
    | with_reducible apply TouchNext.next
    | with_reducible apply Touch.ite
    | intro _

theorem execDepotRailsDown_touch (s : State) : TouchNext 0x349ffffdfe s (execDepotRailsDown s) := by
  unfold execDepotRailsDown
  repeat' first
    | with_reducible exact Touch.refl _
    | (with_reducible apply Touch.step (settleTarget_touch ..)); exact rfl
    | (with_reducible apply Touch.step (enterDepot_touch ..)); exact rfl
    | with_reducible apply TouchNext.next
    | with_reducible apply Touch.ite
    | intro _

theorem execInputPowerOn_touch (strap : Fin 128) (s : State) : TouchNext 0x349ffffdfe s (execInputPowerOn strap s) := by
  unfold execInputPowerOn
  repeat' first
    | with_reducible exact Touch.refl _
    | (with_reducible apply Touch.step (State_modCst_touch ..)); exact rfl
    | (with_reducible apply Touch.step (autoWake_touch ..)); exact rfl
    | with_reducible apply TouchNext.next
    | with_reducible apply Touch.ite
    | split
    | dsimp only
    | intro _
    | (with_reducible apply Touch.step (touch_cst_power ..)); exact rfl

theorem execInputPowerLoss_touch (s : State) : TouchNext 0x341ffffdfe s (execInputPowerLoss s) := by
  unfold execInputPowerLoss
  repeat' first
    | with_reducible exact Touch.refl _
    | (with_reducible apply Touch.step (dropMain_touch ..)); exact rfl
    | with_reducible apply TouchNext.next
    | with_reducible apply Touch.ite
    | dsimp only
    | intro _
    | (with_reducible apply Touch.step (touch_cst_power_hiCst ..)); exact rfl

theorem loseMain_touch (s : State) : Touch 0x349ffffdfe s (loseMain s) := by
  unfold loseMain
  repeat' first
    | with_reducible exact Touch.refl _
    | (with_reducible apply Touch.step (State_modCst_touch ..)); exact rfl
    | (with_reducible apply Touch.step (enterHalt_touch ..)); exact rfl
    | (with_reducible apply Touch.step (enterDepot_touch ..)); exact rfl
    | with_reducible apply Touch.ite
    | intro _

theorem execMainPowerLoss_touch (s : State) : TouchNext 0x349ffffdfe s (execMainPowerLoss s) := by
  unfold execMainPowerLoss
  repeat' first
    | with_reducible exact Touch.refl _
    | (with_reducible apply Touch.step (loseMain_touch ..)); exact rfl
    | with_reducible apply TouchNext.next
    | with_reducible apply Touch.ite
    | intro _

theorem execInputRecovery_touch (s : State) : TouchNext 0x349ffffdfe s (execInputRecovery s) := by
  unfold execInputRecovery
  repeat' first
    | with_reducible exact Touch.refl _
    | (with_reducible apply Touch.step (State_modCst_touch ..)); exact rfl
    | (with_reducible apply Touch.step (autoWake_touch ..)); exact rfl
    | with_reducible apply TouchNext.next
    | with_reducible apply Touch.ite
    | split
    | dsimp only
    | intro _

theorem execRailPhaseLost_touch (w : Wing) (rail : Fin 6) (s : State) : TouchNext 0x881c0000 s (execRailPhaseLost w rail s) := by
  unfold execRailPhaseLost
  repeat' first
    | with_reducible exact Touch.refl _
    | (with_reducible apply Touch.step (State_modPower_touch ..)); exact rfl
    | (with_reducible apply Touch.step (raise_touch ..)); exact rfl
    | (with_reducible apply Touch.step (addCtr_touch_pwr ..)); exact rfl
    | with_reducible apply TouchNext.next
    | with_reducible apply Touch.ite
    | dsimp only
    | intro _

theorem execRailOutOfRegulation_touch (w : Wing) (rail : Fin 6) (s : State) : TouchNext 0x349ffffdfe s (execRailOutOfRegulation w rail s) := by
  unfold execRailOutOfRegulation
  repeat' first
    | with_reducible exact Touch.refl _
    | (with_reducible apply Touch.step (loseMain_touch ..)); exact rfl
    | with_reducible apply TouchNext.next
    | with_reducible apply Touch.ite
    | intro _

theorem execRailInRegulation_touch (rail : Fin 6) (s : State) : TouchNext 0x8000000 s (execRailInRegulation rail s) := by
  unfold execRailInRegulation
  repeat' first
    | with_reducible exact Touch.refl _
    | (with_reducible apply Touch.step (State_modPower_touch ..)); exact rfl
    | with_reducible apply TouchNext.next
    | with_reducible apply Touch.ite
    | dsimp only
    | intro _

theorem execWakeFail_touch (how : WakeFailure) (s : State) : TouchNext 0x349ffffdfe s (execWakeFail how s) := by
  unfold execWakeFail
  repeat' first
    | with_reducible exact Touch.refl _
    | (with_reducible apply Touch.step (State_modCst_touch ..)); exact rfl
    | (with_reducible apply Touch.step (enterDepot_touch ..)); exact rfl
    | with_reducible apply TouchNext.next
    | with_reducible apply Touch.ite
    | intro _

theorem loadFuses_touch (s : State) (fuses : List Defect) : Touch 0x8 s (loadFuses s fuses) := by
  unfold loadFuses
  repeat' first
    | with_reducible exact Touch.refl _
    | (with_reducible apply Touch.step (State_modSch_touch ..)); exact rfl
    | with_reducible apply Touch.foldl
    | intro _

theorem wakeStep1_touch (s : State) (fuses : List Defect) : Touch 0x2841fb018 s (wakeStep1 s fuses) := by
  unfold wakeStep1
  extract_lets s1 run s2 en cc0 s3
  have h1 : Touch 0x2841fb018 s s1 := Touch.step (State_modCst_touch ..) rfl (Touch.weaken (loadFuses_touch ..) rfl)
  have h2 : Touch 0x2841fb018 s s2 := Touch.step (State_modTt_touch ..) rfl (Touch.step (State_modTt_touch ..) rfl h1)
  have h3 : Touch 0x2841fb018 s s3 := Touch.step (touch_tmem_cc s2) rfl h2
  exact h3.foldl fun _ _ h => h.foldl fun _ _ h => Touch.step (applyGenAllow_touch ..) rfl h

theorem failTraining_touch (s : State) (x : Tile × Fin 512) : Touch 0x349ffffdfe s (failTraining s x) := by
  unfold failTraining
  repeat' first
    | with_reducible exact Touch.refl _
    | (with_reducible apply Touch.step (State_modMem_touch ..)); exact rfl
    | (with_reducible apply Touch.step (failPseudoChannel_touch ..)); exact rfl
    | with_reducible apply Touch.ite
    | intro _

theorem wakeStep3_touch (s : State) (l : List (Tile × Fin 512)) : Touch 0x349ffffdfe s (wakeStep3 s l) := by
  have h0 : Touch 0x349ffffdfe s { s with mem := memZero s.mem 0x010000000000 0x020000000000, poison := s.poison.filter fun b => !isStacked (64 * b) } :=
    ⟨fun p hp => by cases p <;> first | rfl | exact fun _ _ _ => rfl | exact fun _ _ _ _ => rfl | exact ⟨rfl, rfl⟩ | exact ⟨rfl, rfl, rfl⟩ | exact ⟨rfl, rfl, rfl, rfl, rfl, rfl⟩ | exact absurd hp (by decide), fun h => absurd h (by decide), fun h => memZero_canonical h _ _, Nat.le_refl _, id⟩
  have h1 := h0.foldl (l := l) (f := failTraining) fun y a hy => Touch.step (failTraining_touch ..) rfl hy
  unfold wakeStep3
  dsimp only
  split
  · exact Touch.step (setReason_touch ..) rfl h1
  · exact Touch.step (clearReason_touch ..) rfl h1

theorem zeroEdition_touch (s : State) (i : Instance) (copy : List Byte) : Touch 0x80 s (zeroEdition s i copy) := by
  unfold zeroEdition
  repeat' first
    | with_reducible exact Touch.refl _
    | (with_reducible apply Touch.step (State_modInst_touch ..)); exact rfl

theorem wakeStep4_touch (s : State) : Touch 0x349ffffdfe s (wakeStep4 s) := by
  have h0 : Touch 0x349ffffdfe s { s with mem := memZero s.mem 0 0x100000000, poison := s.poison.filter fun b => !isOnChip (64 * b) } :=
    ⟨fun p hp => by cases p <;> first | rfl | exact fun _ _ _ => rfl | exact fun _ _ _ _ => rfl | exact ⟨rfl, rfl⟩ | exact ⟨rfl, rfl, rfl⟩ | exact ⟨rfl, rfl, rfl, rfl, rfl, rfl⟩ | exact absurd hp (by decide), fun h => absurd h (by decide), fun h => memZero_canonical h _ _, Nat.le_refl _, id⟩
  unfold wakeStep4
  dsimp only
  refine Touch.step (enterShunt_touch ..) rfl ?_
  refine Touch.step (startAcquiring_touch ..) rfl ?_
  refine Touch.step (startAcquiring_touch ..) rfl ?_
  refine Touch.step (zeroEdition_touch ..) rfl ?_
  exact Touch.step (zeroEdition_touch ..) rfl h0

theorem execWakeStepDone_touch (step : Fin 5) (found : WakeFindings) (s : State) : TouchNext 0x369ffffdfe s (execWakeStepDone step found s) := by
  unfold execWakeStepDone
  repeat' first
    | with_reducible exact Touch.refl _
    | (with_reducible apply Touch.step (State_modPower_touch ..)); exact rfl
    | (with_reducible apply Touch.step (wakeStep1_touch ..)); exact rfl
    | (with_reducible apply Touch.step (wakeStep3_touch ..)); exact rfl
    | (with_reducible apply Touch.step (wakeStep4_touch ..)); exact rfl
    | with_reducible apply TouchNext.next
    | with_reducible apply Touch.ite
    | split
    | dsimp only
    | intro _

theorem grantAllCredits_touch (s : State) : Touch 0x18000 s (grantAllCredits s) := by
  unfold grantAllCredits
  repeat' first
    | with_reducible exact Touch.refl _
    | dsimp only
    | (with_reducible apply Touch.step (touch_ports_cc ..)); exact rfl

theorem execServiceEntry_touch (eastLanes : BitVec 2) (westLanes : BitVec 2) (s : State) : TouchNext 0x349ffffdfe s (execServiceEntry eastLanes westLanes s) := by
  unfold execServiceEntry
  repeat' first
    | with_reducible exact Touch.refl _
    | (with_reducible apply Touch.step (State_modJn_touch ..)); exact rfl
    | (with_reducible apply Touch.step (enterState_touch ..)); exact rfl
    | (with_reducible apply Touch.step (setReason_touch ..)); exact rfl
    | (with_reducible apply Touch.step (checkRing_touch ..)); exact rfl
    | (with_reducible apply Touch.step (grantAllCredits_touch ..)); exact rfl
    | with_reducible apply TouchNext.next
    | with_reducible apply Touch.ite
    | split
    | dsimp only
    | intro _

theorem execPerstDeassert_touch (s : State) : TouchNext 0x8000000 s (execPerstDeassert s) := by
  unfold execPerstDeassert
  repeat' first
    | with_reducible exact Touch.refl _
    | (with_reducible apply Touch.step (State_modPower_touch ..)); exact rfl
    | with_reducible apply TouchNext.next

theorem execPerstAssert_touch (s : State) : TouchNext 0x3e9ffffdfe s (execPerstAssert s) := by
  unfold execPerstAssert
  repeat' first
    | with_reducible exact Touch.refl _
    | (with_reducible apply Touch.step (assertPerst_touch ..)); exact rfl
    | with_reducible apply TouchNext.next

theorem execPcieLinkUp_touch (speed : BitVec 4) (width : Nat) (flit : Bool) (cxl : Bool) (s : State) : TouchNext 0x1000000 s (execPcieLinkUp speed width flit cxl s) := by
  unfold execPcieLinkUp
  repeat' first
    | with_reducible exact Touch.refl _
    | with_reducible apply TouchNext.next
    | with_reducible apply Touch.ite
    | unfold State.modHif
    | dsimp only
    | intro _
    | (with_reducible apply Touch.step (touch_hif_linkUp_speed_width_flit_cxl ..)); exact rfl

theorem setBusMaster_touch (s : State) (f : Func) (on : Bool) : Touch 0x80300000 s (setBusMaster s f on) := by
  unfold setBusMaster
  repeat' first
    | with_reducible exact Touch.refl _
    | (with_reducible apply Touch.step (State_modPage_touch ..)); exact rfl
    | (with_reducible apply Touch.step (flushMsix_touch ..)); exact rfl
    | (with_reducible apply Touch.step (flushFunc_touch ..)); exact rfl
    | with_reducible apply Touch.ite
    | intro _

theorem readConfig_touch (s : State) (f : Func) (r : ConfigField) : Touch 0x820000000 s (readConfig s f r) := by
  unfold readConfig
  repeat' first
    | with_reducible exact Touch.refl _
    | (with_reducible apply Touch.step (freeBytes_touch ..)); exact rfl
    | (with_reducible apply Touch.step (setRead_touch ..)); exact rfl
    | split

theorem execConfigurationRequest_touch (f : Func) (req : ConfigRequest) (s : State) :
    TouchNext 0x8e1300000 s (execConfigurationRequest f req s) := by
  unfold execConfigurationRequest
  refine TouchNext.next (Touch.ite (fun _ => Touch.refl s) fun _ => Touch.ite (fun _ => ?_) fun _ => ?_)
  · exact Touch.weaken (touch_cfgRetry s) rfl
  · extract_lets s1
    have h1 : Touch 0x8e1300000 s s1 := Touch.weaken (touch_cfgRetry s) rfl
    refine Touch.ite (fun _ => h1) fun _ => ?_
    split
    · exact Touch.step (setBusMaster_touch ..) rfl h1
    · exact Touch.ite (fun _ => Touch.step (touch_modHif_vfEnable ..) rfl h1) fun _ => h1
    · exact Touch.step (readConfig_touch ..) rfl h1
    · exact h1

theorem execClusterClockGate_touch (t : Tile) (row : Fin 22) (s : State) : TouchNext 0x8000000 s (execClusterClockGate t row s) := by
  unfold execClusterClockGate
  repeat' first
    | with_reducible exact Touch.refl _
    | (with_reducible apply Touch.step (State_modCluster_touch ..)); exact rfl
    | with_reducible apply TouchNext.next
    | with_reducible apply Touch.ite
    | intro _

theorem execClusterRetention_touch (t : Tile) (row : Fin 22) (s : State) : TouchNext 0x8000000 s (execClusterRetention t row s) := by
  unfold execClusterRetention
  repeat' first
    | with_reducible exact Touch.refl _
    | (with_reducible apply Touch.step (State_modCluster_touch ..)); exact rfl
    | with_reducible apply TouchNext.next
    | with_reducible apply Touch.ite
    | intro _

theorem execClusterWakeDone_touch (t : Tile) (row : Fin 22) (s : State) : TouchNext 0x8000000 s (execClusterWakeDone t row s) := by
  unfold execClusterWakeDone
  repeat' first
    | with_reducible exact Touch.refl _
    | (with_reducible apply Touch.step (State_modCluster_touch ..)); exact rfl
    | with_reducible apply TouchNext.next
    | with_reducible apply Touch.ite
    | intro _

theorem execDvfsLoadWindow_touch (t : Tile) (row : Fin 22) (waited : Nat) (cycles : Nat) (s : State) : TouchNext 0x8000000 s (execDvfsLoadWindow t row waited cycles s) := by
  unfold execDvfsLoadWindow
  repeat' first
    | with_reducible exact Touch.refl _
    | (with_reducible apply Touch.step (State_modCluster_touch ..)); exact rfl
    | with_reducible apply TouchNext.next
    | with_reducible apply Touch.ite
    | split
    | intro _

theorem execThermalCapSample_touch (t : Tile) (row : Fin 22) (milliC : Int) (s : State) : TouchNext 0x881e5078 s (execThermalCapSample t row milliC s) := by
  unfold execThermalCapSample
  repeat' first
    | with_reducible exact Touch.refl _
    | (with_reducible apply Touch.step (raise_touch ..)); exact rfl
    | (with_reducible apply Touch.step (addCtr_touch ..)); exact rfl
    | (with_reducible apply Touch.step (State_modCluster_touch ..)); exact rfl
    | with_reducible apply TouchNext.next
    | with_reducible apply Touch.ite
    | split
    | dsimp only
    | intro _

theorem execDvfsPointChangeDone_touch (t : Tile) (row : Fin 22) (s : State) : TouchNext 0x881c0000 s (execDvfsPointChangeDone t row s) := by
  unfold execDvfsPointChangeDone
  repeat' first
    | with_reducible exact Touch.refl _
    | (with_reducible apply Touch.step (State_modCluster_touch ..)); exact rfl
    | (with_reducible apply Touch.step (addCtr_touch_pwr ..)); exact rfl
    | with_reducible apply TouchNext.next
    | split

theorem State_modStack_touch (s : State) (k : Nat) (f : Stack → Stack) : Touch 0x8000000 s (State.modStack s k f) := by
  unfold State.modStack
  repeat' first
    | with_reducible exact Touch.refl _
    | (with_reducible apply Touch.step (State_modPower_touch ..)); exact rfl

theorem execPseudoChannelPowerDown_touch (t : Tile) (pc : Fin 512) (s : State) : TouchNext 0x8000000 s (execPseudoChannelPowerDown t pc s) := by
  unfold execPseudoChannelPowerDown
  repeat' first
    | with_reducible exact Touch.refl _
    | (with_reducible apply Touch.step (State_modStack_touch ..)); exact rfl
    | with_reducible apply TouchNext.next
    | with_reducible apply Touch.ite
    | intro _

theorem execStackSelfRefreshEntry_touch (stack : Fin 32) (s : State) : TouchNext 0x881c0000 s (execStackSelfRefreshEntry stack s) := by
  unfold execStackSelfRefreshEntry
  repeat' first
    | with_reducible exact Touch.refl _
    | (with_reducible apply Touch.step (State_modStack_touch ..)); exact rfl
    | (with_reducible apply Touch.step (addCtr_touch_pwr ..)); exact rfl
    | with_reducible apply TouchNext.next
    | with_reducible apply Touch.ite
    | intro _

theorem execStackRefreshDoubling_touch (stack : Fin 32) (milliC : Int) (s : State) : TouchNext 0x8000000 s (execStackRefreshDoubling stack milliC s) := by
  unfold execStackRefreshDoubling
  repeat' first
    | with_reducible exact Touch.refl _
    | (with_reducible apply Touch.step (State_modStack_touch ..)); exact rfl
    | with_reducible apply TouchNext.next
    | with_reducible apply Touch.ite
    | intro _

end Sys2Proof.Machine
end

