-- ==== Sys2Proof/Laws/TouchUpkeep.lean ====
section
/-!
SUPPORT. What the operations of Upkeep may change.
-/

namespace Sys2Proof.Machine

theorem calForced_touch (s : State) (i : SlotItem) (block : Nat) (off : Nat) (data : Nat) : Touch 0x881e5078 s (calForced s i block off data) := by
  unfold calForced
  repeat' first
    | with_reducible exact Touch.refl _
    | (with_reducible apply Touch.step (raise_touch ..)); exact rfl
    | (with_reducible apply Touch.step (addCtr_touch ..)); exact rfl
    | with_reducible apply Touch.ite
    | intro _

theorem calPc_touch (s : State) (t : Tile) (pc : Nat) (foreground : Bool) (ownedLeft : Nat) : Touch 0x881e5078 s (calPc s t pc foreground ownedLeft) := by
  unfold calPc
  repeat' first
    | with_reducible exact Touch.refl _
    | (with_reducible apply Touch.step (State_modMem_touch ..)); exact rfl
    | (with_reducible apply Touch.step (calForced_touch ..)); exact rfl
    | with_reducible apply Touch.ite
    | intro _

theorem calPort_touch (s : State) (w : Wing) (p : Fin 6) (key : Nat) (lane : Nat) (foreground : Bool) (ownedLeft : Nat) : Touch 0x881ed078 s (calPort s w p key lane foreground ownedLeft).1 := by
  unfold calPort
  repeat' first
    | with_reducible exact Touch.refl _
    | (with_reducible apply Touch.step (State_modPort_touch ..)); exact rfl
    | (with_reducible apply Touch.step (calForced_touch ..)); exact rfl
    | with_reducible apply Touch.ite
    | intro _

theorem calBundle_touch (s : State) (b : Nat) (foreground : Bool) (ownedLeft : Nat) : Touch 0x881f5078 s (calBundle s b foreground ownedLeft) := by
  unfold calBundle
  repeat' first
    | with_reducible exact Touch.refl _
    | (with_reducible apply Touch.step (calForced_touch ..)); exact rfl
    | (with_reducible apply Touch.step (addCtr_touch_lnk ..)); exact rfl
    | with_reducible apply Touch.ite
    | dsimp only
    | intro _
    | (with_reducible apply Touch.step (touch_cc ..)); exact rfl

theorem execCalibrationSlot_wakePcOf_touch (s : State) (t : Tile) (pc : Nat) : Touch 0x8000000 s (execCalibrationSlot.wakePcOf s t pc) := by
  unfold execCalibrationSlot.wakePcOf
  repeat' first
    | with_reducible exact Touch.refl _
    | (with_reducible apply Touch.step (State_modStack_touch ..)); exact rfl
    | split
    | dsimp only

theorem execCalibrationSlot_touch (c : CalResource) (foreground : Bool) (ownedLeft : Nat) (s : State) : TouchNext 0x2881fd078 s (execCalibrationSlot c foreground ownedLeft s) := by
  unfold execCalibrationSlot
  repeat' first
    | with_reducible exact Touch.refl _
    | (with_reducible apply Touch.step (State_modPort_touch ..)); exact rfl
    | (with_reducible apply Touch.step (sendRequests_touch ..)); exact rfl
    | (with_reducible apply Touch.step (calPc_touch ..)); exact rfl
    | (with_reducible apply Touch.step (calPort_touch ..)); exact rfl
    | (with_reducible apply Touch.step (calBundle_touch ..)); exact rfl
    | (with_reducible apply Touch.step (execCalibrationSlot_wakePcOf_touch ..)); exact rfl
    | with_reducible apply TouchNext.next
    | with_reducible apply Touch.ite
    | split
    | dsimp only
    | intro _

theorem correctedBurst_touch (s : State) (t : Tile) (pc : Nat) (row : Nat) (burst : Nat) : Touch 0x801c0010 s (correctedBurst s t pc row burst) := by
  unfold correctedBurst
  repeat' first
    | with_reducible exact Touch.refl _
    | (with_reducible apply Touch.step (State_modMem_touch ..)); exact rfl
    | (with_reducible apply Touch.step (triggerRepair_touch ..)); exact rfl
    | (with_reducible apply Touch.step (addCtr_touch_mem ..)); exact rfl
    | with_reducible apply Touch.ite
    | intro _

theorem scrubFinds_touch (s : State) (t : Tile) (pc : Nat) (row : Nat) (burst : Nat) (f : ScrubFinding) : Touch 0x349ffffdfe s (scrubFinds s t pc row burst f) := by
  unfold scrubFinds
  repeat' first
    | with_reducible exact Touch.refl _
    | (with_reducible apply Touch.step (raise_touch ..)); exact rfl
    | (with_reducible apply Touch.step (logCause_touch ..)); exact rfl
    | (with_reducible apply Touch.step (triggerRepair_touch ..)); exact rfl
    | (with_reducible apply Touch.step (failPseudoChannel_touch ..)); exact rfl
    | (with_reducible apply Touch.step (countUncorrectable_touch ..)); exact rfl
    | (with_reducible apply Touch.step (correctedBurst_touch ..)); exact rfl
    | (with_reducible apply Touch.step (addCtr_touch_mem ..)); exact rfl
    | split

theorem scrubForced_touch (s : State) (seen : Bool) (t : Tile) (pc : Nat) : Touch 0x801c0010 s (scrubForced s seen t pc) := by
  unfold scrubForced
  repeat' first
    | with_reducible exact Touch.refl _
    | (with_reducible apply Touch.step (raise_touch ..)); exact rfl
    | (with_reducible apply Touch.step (addCtr_touch_mem ..)); exact rfl
    | with_reducible apply Touch.ite
    | intro _

theorem repairUnit_touch (s : State) (t : Tile) (r : RowRepair) (f : ScrubFinding) : Touch 0x349ffffdfe s (repairUnit s t r f) := by
  unfold repairUnit
  repeat' first
    | with_reducible exact Touch.refl _
    | (with_reducible apply Touch.step (State_modMem_touch ..)); exact rfl
    | (with_reducible apply Touch.step (raise_touch ..)); exact rfl
    | (with_reducible apply Touch.step (failPseudoChannel_touch ..)); exact rfl
    | (with_reducible apply Touch.step (scrubFinds_touch ..)); exact rfl
    | (with_reducible apply Touch.step (addCtr_touch_mem ..)); exact rfl
    | with_reducible apply Touch.ite
    | split
    | dsimp only
    | intro _

theorem repairTurn_touch (s : State) (t : Tile) (r : RowRepair) (foreground : Bool) (ownedLeft : Nat) (f : ScrubFinding) : Touch 0x349ffffdfe s (repairTurn s t r foreground ownedLeft f) := by
  unfold repairTurn
  repeat' first
    | with_reducible exact Touch.refl _
    | (with_reducible apply Touch.step (State_modMem_touch ..)); exact rfl
    | (with_reducible apply Touch.step (scrubForced_touch ..)); exact rfl
    | (with_reducible apply Touch.step (repairUnit_touch ..)); exact rfl
    | with_reducible apply Touch.ite
    | split
    | dsimp only
    | intro _

theorem scrubTurn_touch (s : State) (t : Tile) (pc : Nat) (foreground : Bool) (ownedLeft : Nat) (f : ScrubFinding) : Touch 0x349ffffdfe s (scrubTurn s t pc foreground ownedLeft f) := by
  unfold scrubTurn
  repeat' first
    | with_reducible exact Touch.refl _
    | (with_reducible apply Touch.step (State_modMem_touch ..)); exact rfl
    | (with_reducible apply Touch.step (scrubFinds_touch ..)); exact rfl
    | (with_reducible apply Touch.step (scrubForced_touch ..)); exact rfl
    | (with_reducible apply Touch.step (addCtr_touch_mem ..)); exact rfl
    | with_reducible apply Touch.ite
    | split
    | dsimp only
    | intro _

theorem endScrubPeriod_touch (s : State) (t : Tile) (pc : Nat) : Touch 0x10 s (endScrubPeriod s t pc) := by
  unfold endScrubPeriod
  repeat' first
    | with_reducible exact Touch.refl _
    | (with_reducible apply Touch.step (State_modMem_touch ..)); exact rfl

theorem calInScrub_touch (s : State) (t : Tile) (pc : Nat) (foreground : Bool) : Touch 0x881e5078 s (calInScrub s t pc foreground) := by
  unfold calInScrub
  repeat' first
    | with_reducible exact Touch.refl _
    | (with_reducible apply Touch.step (State_modMem_touch ..)); exact rfl
    | (with_reducible apply Touch.step (calForced_touch ..)); exact rfl
    | with_reducible apply Touch.ite
    | intro _

theorem execScrubSlot_touch (t : Tile) (pc : Fin 512) (foreground : Bool) (ownedLeft : Nat) (finding : ScrubFinding) (s : State) : TouchNext 0x349ffffdfe s (execScrubSlot t pc foreground ownedLeft finding s) := by
  unfold execScrubSlot
  repeat' first
    | with_reducible exact Touch.refl _
    | (with_reducible apply Touch.step (execCalibrationSlot_wakePcOf_touch ..)); exact rfl
    | (with_reducible apply Touch.step (repairTurn_touch ..)); exact rfl
    | (with_reducible apply Touch.step (scrubTurn_touch ..)); exact rfl
    | (with_reducible apply Touch.step (endScrubPeriod_touch ..)); exact rfl
    | (with_reducible apply Touch.step (calInScrub_touch ..)); exact rfl
    | with_reducible apply TouchNext.next
    | with_reducible apply Touch.ite
    | split
    | dsimp only
    | intro _

theorem releaseStuck_touch (s : State) (t : Tile) : Touch 0x10 s (releaseStuck s t) := by
  unfold releaseStuck
  repeat' first
    | with_reducible exact Touch.refl _
    | (with_reducible apply Touch.step (State_modMem_touch ..)); exact rfl

theorem execMigrationGranuleMoved_touch (t : Tile) (s : State) : TouchNext 0x10 s (execMigrationGranuleMoved t s) := by
  unfold execMigrationGranuleMoved
  repeat' first
    | with_reducible exact Touch.refl _
    | (with_reducible apply Touch.step (State_modMem_touch ..)); exact rfl
    | (with_reducible apply Touch.step (releaseStuck_touch ..)); exact rfl
    | with_reducible apply TouchNext.next
    | with_reducible apply Touch.ite
    | intro _

theorem execMigrationDone_touch (t : Tile) (s : State) : TouchNext 0x801c0010 s (execMigrationDone t s) := by
  unfold execMigrationDone
  repeat' first
    | with_reducible exact Touch.refl _
    | (with_reducible apply Touch.step (State_modMem_touch ..)); exact rfl
    | (with_reducible apply Touch.step (raise_touch ..)); exact rfl
    | with_reducible apply TouchNext.next
    | with_reducible apply Touch.ite
    | dsimp only
    | intro _

theorem setCoreState_touch (s : State) (t : Tile) (n : Nat) (v : BitVec 2) : Touch 0x8 s (setCoreState s t n v) := by
  unfold setCoreState
  repeat' first
    | with_reducible exact Touch.refl _
    | (with_reducible apply Touch.step (State_modSch_touch ..)); exact rfl

theorem startCoreTest_touch (s : State) (t : Tile) (n : Nat) : Touch 0x801c0008 s (startCoreTest s t n) := by
  unfold startCoreTest
  repeat' first
    | with_reducible exact Touch.refl _
    | (with_reducible apply Touch.step (setCoreState_touch ..)); exact rfl
    | (with_reducible apply Touch.step (addCtr_touch_sch ..)); exact rfl

theorem execCoreTest_touch (t : Tile) (n : Fin 336) (s : State) : TouchNext 0x801c0008 s (execCoreTest t n s) := by
  unfold execCoreTest
  repeat' first
    | with_reducible exact Touch.refl _
    | (with_reducible apply Touch.step (startCoreTest_touch ..)); exact rfl
    | with_reducible apply TouchNext.next
    | with_reducible apply Touch.ite
    | intro _

theorem countWords_touch (s : State) (t : Tile) (n : Nat) : Touch 0x801c0008 s (countWords s t n) := by
  unfold countWords
  repeat' first
    | with_reducible exact Touch.refl _
    | (with_reducible apply Touch.step (addCtr_touch_sch ..)); exact rfl
    | with_reducible apply Touch.ite
    | intro _

theorem execCoreTestPass_touch (t : Tile) (r : CoreTestReport) (s : State) : TouchNext 0x801c0008 s (execCoreTestPass t r s) := by
  unfold execCoreTestPass
  repeat' first
    | with_reducible exact Touch.refl _
    | (with_reducible apply Touch.step (setCoreState_touch ..)); exact rfl
    | (with_reducible apply Touch.step (countWords_touch ..)); exact rfl
    | with_reducible apply TouchNext.next
    | with_reducible apply Touch.ite
    | intro _

theorem retireCore_touch (s : State) (t : Tile) (n : Nat) : Touch 0x349ffffdfe s (retireCore s t n) := by
  unfold retireCore
  repeat' first
    | with_reducible exact Touch.refl _
    | (with_reducible apply Touch.step (State_modSch_touch ..)); exact rfl
    | (with_reducible apply Touch.step (raise_touch ..)); exact rfl
    | (with_reducible apply Touch.step (setReason_touch ..)); exact rfl
    | (with_reducible apply Touch.step (setCoreState_touch ..)); exact rfl

theorem execCoreTestFail_touch (t : Tile) (n : Fin 336) (s : State) : TouchNext 0x349ffffdfe s (execCoreTestFail t n s) := by
  unfold execCoreTestFail
  repeat' first
    | with_reducible exact Touch.refl _
    | (with_reducible apply Touch.step (State_modSch_touch ..)); exact rfl
    | (with_reducible apply Touch.step (State_modCluster_touch ..)); exact rfl
    | (with_reducible apply Touch.step (setCoreState_touch ..)); exact rfl
    | (with_reducible apply Touch.step (retireCore_touch ..)); exact rfl
    | (with_reducible apply Touch.step (addCtr_touch_sch ..)); exact rfl
    | with_reducible apply TouchNext.next
    | with_reducible apply Touch.ite
    | split
    | dsimp only
    | intro _

theorem execCoreSpared_touch (t : Tile) (n : Fin 336) (s : State) : TouchNext 0x20801c000c s (execCoreSpared t n s) := by
  unfold execCoreSpared
  repeat' first
    | with_reducible exact Touch.refl _
    | (with_reducible apply Touch.step (State_modSch_touch ..)); exact rfl
    | (with_reducible apply Touch.step (raise_touch ..)); exact rfl
    | (with_reducible apply Touch.step (zeroWindow_touch ..)); exact rfl
    | (with_reducible apply Touch.step (setCoreState_touch ..)); exact rfl
    | (with_reducible apply Touch.step (addCtr_touch_sch ..)); exact rfl
    | with_reducible apply TouchNext.next
    | with_reducible apply Touch.ite
    | dsimp only
    | intro _

theorem execOnchipUncorrectable_touch (at_ : OnChipPlace) (id : Nat) (s : State) : TouchNext 0x801c0108 s (execOnchipUncorrectable at_ id s) := by
  unfold execOnchipUncorrectable
  repeat' first
    | with_reducible exact Touch.refl _
    | (with_reducible apply Touch.step (raise_touch ..)); exact rfl
    | (with_reducible apply Touch.step (stopTask_touch ..)); exact rfl
    | (with_reducible apply Touch.step (startCoreTest_touch ..)); exact rfl
    | (with_reducible apply Touch.step (addCtr_touch_sch ..)); exact rfl
    | with_reducible apply TouchNext.next
    | with_reducible apply Touch.ite
    | split
    | dsimp only
    | intro _

end Sys2Proof.Machine
end

