-- ==== Sys2Proof/Laws/TouchCustodian.lean ====
section
/-!
SUPPORT. What the operations of Custodian may change.
-/

namespace Sys2Proof.Machine

theorem clearCounters_touch (s : State) : Touch 0x18065078 s (clearCounters s) := by
  unfold clearCounters
  repeat' first
    | with_reducible exact Touch.refl _
    | (with_reducible apply Touch.step (setCtrTable_touch ..)); exact rfl
    | with_reducible apply Touch.foldl
    | dsimp only
    | intro _
    | (with_reducible apply Touch.step (touch_hiHost_hiCst ..)); exact rfl

theorem ruleNotice_touch (s : State) (r : Nat) (x : Rule) (clearing : Bool) (v : Int) : Touch 0x100000000 s (ruleNotice s r x clearing v) := by
  unfold ruleNotice
  repeat' first
    | with_reducible exact Touch.refl _
    | (with_reducible apply Touch.step (touch_canOut ..)); exact rfl

theorem clearedRule_touch (s : State) (r : Nat) (x : Rule) (v : Int) : Touch 0x1801c0000 s (clearedRule s r x v) := by
  unfold clearedRule
  repeat' first
    | with_reducible exact Touch.refl _
    | (with_reducible apply Touch.step (raise_touch ..)); exact rfl
    | (with_reducible apply Touch.step (ruleNotice_touch ..)); exact rfl
    | with_reducible apply Touch.ite
    | intro _

theorem resetRule_touch (s : State) (r : Nat) (x : Rule) : Touch 0x1841c0000 s (resetRule s r x) := by
  unfold resetRule
  repeat' first
    | with_reducible exact Touch.refl _
    | (with_reducible apply Touch.step (State_modCst_touch ..)); exact rfl
    | (with_reducible apply Touch.step (settleAlert_touch ..)); exact rfl
    | (with_reducible apply Touch.step (clearedRule_touch ..)); exact rfl
    | with_reducible apply Touch.ite
    | intro _

theorem afterWrite_touch (s : State) (index : Nat) (sub : Nat) (v : Nat) (old : Rule) : Touch 0x3841fb010 s (afterWrite s index sub v old) := by
  unfold afterWrite
  repeat' first
    | with_reducible exact Touch.refl _
    | (with_reducible apply Touch.step (applyGenAllow_touch ..)); exact rfl
    | (with_reducible apply Touch.step (resetRule_touch ..)); exact rfl
    | with_reducible apply Touch.ite
    | split
    | intro _
    | (with_reducible apply Touch.step (touch_tmem ..)); exact rfl

theorem performWrite_touch (s : State) (index : Nat) (sub : Nat) (bs : List Byte) : Touch 0x39c1ff078 s (performWrite s index sub bs) := by
  unfold performWrite
  repeat' first
    | with_reducible exact Touch.refl _
    | (with_reducible apply Touch.step (State_modCst_touch ..)); exact rfl
    | (with_reducible apply Touch.step (clearCounters_touch ..)); exact rfl
    | (with_reducible apply Touch.step (afterWrite_touch ..)); exact rfl
    | split

theorem stateCmd_touch (s : State) (v : Nat) : Touch 0x349ffffdfe s (stateCmd s v) := by
  unfold stateCmd
  repeat' first
    | with_reducible exact Touch.refl _
    | (with_reducible apply Touch.step (State_modCst_touch ..)); exact rfl
    | (with_reducible apply Touch.step (enterState_touch ..)); exact rfl
    | (with_reducible apply Touch.step (settleTarget_touch ..)); exact rfl
    | split

theorem afterReply_touch (s : State) (index : Nat) (bs : List Byte) : Touch 0x349ffffdfe s (afterReply s index bs) := by
  unfold afterReply
  repeat' first
    | with_reducible exact Touch.refl _
    | (with_reducible apply Touch.step (stateCmd_touch ..)); exact rfl
    | with_reducible apply Touch.ite
    | intro _

theorem sendFrame_touch (s : State) (fd : CanFormat) (bytes : List Byte) : Touch 0x100000000 s (sendFrame s fd bytes) := by
  unfold sendFrame
  repeat' first
    | with_reducible exact Touch.refl _
    | (with_reducible apply Touch.step (touch_canOut ..)); exact rfl

theorem replyFrame_touch (s : State) (fd : CanFormat) (kind : Nat) (index : Nat) (sub : Nat) (rest : (List Byte)) : Touch 0x100000000 s (replyFrame s fd kind index sub rest) := by
  unfold replyFrame
  repeat' first
    | with_reducible exact Touch.refl _
    | (with_reducible apply Touch.step (sendFrame_touch ..)); exact rfl

theorem refuse_touch (s : State) (fd : CanFormat) (index : Nat) (sub : Nat) (reason : Nat) : Touch 0x100000000 s (refuse s fd index sub reason) := by
  unfold refuse
  repeat' first
    | with_reducible exact Touch.refl _
    | (with_reducible apply Touch.step (replyFrame_touch ..)); exact rfl

theorem abortCan_touch (s : State) (fd : CanFormat) (reason : Nat) (index : Nat) (sub : Nat) : Touch 0x104000000 s (abortCan s fd reason index sub) := by
  unfold abortCan
  repeat' first
    | with_reducible exact Touch.refl _
    | (with_reducible apply Touch.step (State_modCst_touch ..)); exact rfl
    | (with_reducible apply Touch.step (replyFrame_touch ..)); exact rfl

theorem sendSegment_touch (s : State) (fd : CanFormat) (x : Transfer) : Touch 0x104000000 s (sendSegment s fd x) := by
  unfold sendSegment
  repeat' first
    | with_reducible exact Touch.refl _
    | (with_reducible apply Touch.step (State_modCst_touch ..)); exact rfl
    | (with_reducible apply Touch.step (sendFrame_touch ..)); exact rfl

theorem serveRead_touch (s : State) (fd : CanFormat) (index : Nat) (sub : Nat) : Touch 0x104000000 s (serveRead s fd index sub) := by
  unfold serveRead
  repeat' first
    | with_reducible exact Touch.refl _
    | (with_reducible apply Touch.step (State_modCst_touch ..)); exact rfl
    | (with_reducible apply Touch.step (replyFrame_touch ..)); exact rfl
    | (with_reducible apply Touch.step (refuse_touch ..)); exact rfl
    | (with_reducible apply Touch.step (sendSegment_touch ..)); exact rfl
    | with_reducible apply Touch.ite
    | split
    | dsimp only
    | intro _

theorem serveWrite_touch (s : State) (fd : CanFormat) (index : Nat) (sub : Nat) (bs : List Byte) : Touch 0x379ffffdfe s (serveWrite s fd index sub bs) := by
  unfold serveWrite
  repeat' first
    | with_reducible exact Touch.refl _
    | (with_reducible apply Touch.step (State_modCst_touch ..)); exact rfl
    | (with_reducible apply Touch.step (performWrite_touch ..)); exact rfl
    | (with_reducible apply Touch.step (afterReply_touch ..)); exact rfl
    | (with_reducible apply Touch.step (replyFrame_touch ..)); exact rfl
    | (with_reducible apply Touch.step (refuse_touch ..)); exact rfl
    | split
    | dsimp only

theorem serveWriteInit_touch (s : State) (fd : CanFormat) (index : Nat) (sub : Nat) (total : Nat) : Touch 0x104000000 s (serveWriteInit s fd index sub total) := by
  unfold serveWriteInit
  repeat' first
    | with_reducible exact Touch.refl _
    | (with_reducible apply Touch.step (State_modCst_touch ..)); exact rfl
    | (with_reducible apply Touch.step (replyFrame_touch ..)); exact rfl
    | (with_reducible apply Touch.step (refuse_touch ..)); exact rfl
    | split
    | dsimp only

theorem serveSegment_touch (s : State) (fd : CanFormat) (q : Nat) (bs : List Byte) : Touch 0x379ffffdfe s (serveSegment s fd q bs) := by
  unfold serveSegment
  repeat' first
    | with_reducible exact Touch.refl _
    | (with_reducible apply Touch.step (State_modCst_touch ..)); exact rfl
    | (with_reducible apply Touch.step (replyFrame_touch ..)); exact rfl
    | (with_reducible apply Touch.step (abortCan_touch ..)); exact rfl
    | (with_reducible apply Touch.step (serveWrite_touch ..)); exact rfl
    | with_reducible apply Touch.ite
    | split
    | dsimp only
    | intro _

theorem serveSegAck_touch (s : State) (fd : CanFormat) (index : Nat) (sub : Nat) (q : Nat) : Touch 0x104000000 s (serveSegAck s fd index sub q) := by
  unfold serveSegAck
  repeat' first
    | with_reducible exact Touch.refl _
    | (with_reducible apply Touch.step (State_modCst_touch ..)); exact rfl
    | (with_reducible apply Touch.step (abortCan_touch ..)); exact rfl
    | (with_reducible apply Touch.step (sendSegment_touch ..)); exact rfl
    | with_reducible apply Touch.ite
    | split
    | dsimp only
    | intro _

theorem serveFrame_touch (s : State) (fd : CanFormat) (b : List Byte) : Touch 0x379ffffdfe s (serveFrame s fd b) := by
  unfold serveFrame
  repeat' first
    | with_reducible exact Touch.refl _
    | (with_reducible apply Touch.step (State_modCst_touch ..)); exact rfl
    | (with_reducible apply Touch.step (refuse_touch ..)); exact rfl
    | (with_reducible apply Touch.step (serveRead_touch ..)); exact rfl
    | (with_reducible apply Touch.step (serveWrite_touch ..)); exact rfl
    | (with_reducible apply Touch.step (serveWriteInit_touch ..)); exact rfl
    | (with_reducible apply Touch.step (serveSegment_touch ..)); exact rfl
    | (with_reducible apply Touch.step (serveSegAck_touch ..)); exact rfl
    | split

theorem mailboxReply_touch (s : State) (status : Nat) (reason : Nat) (total : Nat) (data : List Byte) : Touch 0x80500000 s (mailboxReply s status reason total data) := by
  unfold mailboxReply
  repeat' first
    | with_reducible exact Touch.refl _
    | (with_reducible apply Touch.step (sendMsix_touch ..)); exact rfl
    | with_reducible apply Touch.ite
    | unfold State.modHif
    | dsimp only
    | intro _
    | (with_reducible apply Touch.step (touch_hif_mbx ..)); exact rfl

theorem mailboxRead_touch (s : State) (index : Nat) (sub : Nat) (off : Nat) (len : Nat) : Touch 0x84500000 s (mailboxRead s index sub off len) := by
  unfold mailboxRead
  repeat' first
    | with_reducible exact Touch.refl _
    | (with_reducible apply Touch.step (State_modCst_touch ..)); exact rfl
    | (with_reducible apply Touch.step (mailboxReply_touch ..)); exact rfl
    | split
    | dsimp only

theorem mailboxWrite_touch (s : State) (index : Nat) (sub : Nat) (off : Nat) (final : Bool) (bs : List Byte) : Touch 0x379ffffdfe s (mailboxWrite s index sub off final bs) := by
  unfold mailboxWrite
  repeat' first
    | with_reducible exact Touch.refl _
    | (with_reducible apply Touch.step (State_modCst_touch ..)); exact rfl
    | (with_reducible apply Touch.step (performWrite_touch ..)); exact rfl
    | (with_reducible apply Touch.step (afterReply_touch ..)); exact rfl
    | (with_reducible apply Touch.step (mailboxReply_touch ..)); exact rfl
    | split
    | dsimp only

theorem serveMailbox_touch (s : State) (m : List Byte) : Touch 0x379ffffdfe s (serveMailbox s m) := by
  unfold serveMailbox
  repeat' first
    | with_reducible exact Touch.refl _
    | (with_reducible apply Touch.step (mailboxReply_touch ..)); exact rfl
    | (with_reducible apply Touch.step (mailboxRead_touch ..)); exact rfl
    | (with_reducible apply Touch.step (mailboxWrite_touch ..)); exact rfl
    | with_reducible apply Touch.ite
    | split
    | intro _

theorem serveHead_touch (s : State) : Touch 0x379ffffdfe s (serveHead s) := by
  unfold serveHead
  repeat' first
    | with_reducible exact Touch.refl _
    | (with_reducible apply Touch.step (State_modCst_touch ..)); exact rfl
    | (with_reducible apply Touch.step (serveFrame_touch ..)); exact rfl
    | (with_reducible apply Touch.step (serveMailbox_touch ..)); exact rfl
    | split

theorem endWaitingNameless_touch (s : State) : Touch 0x349ffffffe s (endWaitingNameless s) := by
  unfold endWaitingNameless
  repeat' first
    | with_reducible exact Touch.refl _
    | (with_reducible apply Touch.step (endNameless_touch ..)); exact rfl
    | with_reducible apply Touch.foldl
    | intro _

theorem idle_touch (s : State) : TouchNext 0x379ffffffe s (idle s) := by
  unfold idle
  repeat' first
    | with_reducible exact Touch.refl _
    | (with_reducible apply Touch.step (serveHead_touch ..)); exact rfl
    | (with_reducible apply Touch.step (endWaitingNameless_touch ..)); exact rfl
    | with_reducible apply TouchNext.next

theorem serveQueue_touch (n : Nat) (s : State) : Touch 0x379ffffdfe s (serveQueue n s) := by
  induction n generalizing s with
  | zero => exact Touch.refl s
  | succ n ih => exact Touch.step (ih _) rfl (Touch.weaken (serveHead_touch ..) rfl)

theorem serveUnless_touch (deferred : Bool) (s : State) : Touch 0x379ffffdfe s (serveUnless deferred s) := by
  unfold serveUnless
  repeat' first
    | with_reducible exact Touch.refl _
    | (with_reducible apply Touch.step (serveQueue_touch ..)); exact rfl
    | with_reducible apply Touch.ite
    | intro _

theorem receiveFrame_touch (s : State) (fd : CanFormat) (b : List Byte) (deferred : Bool) : Touch 0x379ffffdfe s (receiveFrame s fd b deferred) := by
  unfold receiveFrame
  repeat' first
    | with_reducible exact Touch.refl _
    | (with_reducible apply Touch.step (State_modCst_touch ..)); exact rfl
    | (with_reducible apply Touch.step (replyFrame_touch ..)); exact rfl
    | (with_reducible apply Touch.step (serveUnless_touch ..)); exact rfl
    | with_reducible apply Touch.ite
    | split
    | intro _

theorem submitMailbox_touch (s : State) (deferred : Bool) : Touch 0x379ffffdfe s (submitMailbox s deferred) := by
  unfold submitMailbox
  repeat' first
    | with_reducible exact Touch.refl _
    | (with_reducible apply Touch.step (State_modCst_touch ..)); exact rfl
    | (with_reducible apply Touch.step (mailboxReply_touch ..)); exact rfl
    | (with_reducible apply Touch.step (serveUnless_touch ..)); exact rfl
    | with_reducible apply Touch.ite
    | unfold State.modHif
    | split
    | dsimp only
    | intro _
    | (with_reducible apply Touch.step (touch_hif_mbx ..)); exact rfl

theorem execMailboxGo_touch (deferred : Bool) (s : State) : TouchNext 0x379ffffdfe s (execMailboxGo deferred s) := by
  unfold execMailboxGo
  repeat' first
    | with_reducible exact Touch.refl _
    | (with_reducible apply Touch.step (submitMailbox_touch ..)); exact rfl
    | with_reducible apply TouchNext.next

theorem execDapRead_touch (fd : CanFormat) (frame : List Byte) (deferred : Bool) (s : State) : TouchNext 0x379ffffdfe s (execDapRead fd frame deferred s) := by
  unfold execDapRead
  repeat' first
    | with_reducible exact Touch.refl _
    | (with_reducible apply Touch.step (receiveFrame_touch ..)); exact rfl
    | with_reducible apply TouchNext.next
    | with_reducible apply Touch.ite
    | intro _

theorem execDapWrite_touch (fd : CanFormat) (frame : List Byte) (deferred : Bool) (s : State) : TouchNext 0x379ffffdfe s (execDapWrite fd frame deferred s) := by
  unfold execDapWrite
  repeat' first
    | with_reducible exact Touch.refl _
    | (with_reducible apply Touch.step (receiveFrame_touch ..)); exact rfl
    | with_reducible apply TouchNext.next
    | with_reducible apply Touch.ite
    | intro _

theorem execDapWriteInit_touch (fd : CanFormat) (frame : List Byte) (deferred : Bool) (s : State) : TouchNext 0x379ffffdfe s (execDapWriteInit fd frame deferred s) := by
  unfold execDapWriteInit
  repeat' first
    | with_reducible exact Touch.refl _
    | (with_reducible apply Touch.step (receiveFrame_touch ..)); exact rfl
    | with_reducible apply TouchNext.next
    | with_reducible apply Touch.ite
    | intro _

theorem execDapSegment_touch (fd : CanFormat) (frame : List Byte) (deferred : Bool) (s : State) : TouchNext 0x379ffffdfe s (execDapSegment fd frame deferred s) := by
  unfold execDapSegment
  repeat' first
    | with_reducible exact Touch.refl _
    | (with_reducible apply Touch.step (receiveFrame_touch ..)); exact rfl
    | with_reducible apply TouchNext.next
    | with_reducible apply Touch.ite
    | intro _

theorem execDapSegAck_touch (fd : CanFormat) (frame : List Byte) (deferred : Bool) (s : State) : TouchNext 0x379ffffdfe s (execDapSegAck fd frame deferred s) := by
  unfold execDapSegAck
  repeat' first
    | with_reducible exact Touch.refl _
    | (with_reducible apply Touch.step (receiveFrame_touch ..)); exact rfl
    | with_reducible apply TouchNext.next
    | with_reducible apply Touch.ite
    | intro _

theorem execDapAbort_touch (fd : CanFormat) (frame : List Byte) (s : State) : TouchNext 0x379ffffdfe s (execDapAbort fd frame s) := by
  unfold execDapAbort
  repeat' first
    | with_reducible exact Touch.refl _
    | (with_reducible apply Touch.step (receiveFrame_touch ..)); exact rfl
    | with_reducible apply TouchNext.next
    | with_reducible apply Touch.ite
    | intro _

theorem execDapTransferTimeout_touch (p : DictPath) (s : State) : TouchNext 0x104000000 s (execDapTransferTimeout p s) := by
  unfold execDapTransferTimeout
  repeat' first
    | with_reducible exact Touch.refl _
    | (with_reducible apply Touch.step (State_modCst_touch ..)); exact rfl
    | (with_reducible apply Touch.step (abortCan_touch ..)); exact rfl
    | with_reducible apply TouchNext.next
    | split

theorem execDapStatusFrame_touch (s : State) : TouchNext 0x100000000 s (execDapStatusFrame s) := by
  unfold execDapStatusFrame
  repeat' first
    | with_reducible exact Touch.refl _
    | with_reducible apply TouchNext.next
    | with_reducible apply Touch.ite
    | intro _
    | (with_reducible apply Touch.step (touch_canOut ..)); exact rfl

theorem requestWrite_touch (s : State) (p : DictPath) (index : Nat) (sub : Nat) (bs : List Byte) : Touch 0x379ffffdfe s (requestWrite s p index sub bs) := by
  unfold requestWrite
  repeat' first
    | with_reducible exact Touch.refl _
    | (with_reducible apply Touch.step (receiveFrame_touch ..)); exact rfl
    | (with_reducible apply Touch.step (submitMailbox_touch ..)); exact rfl
    | with_reducible apply Touch.ite
    | unfold State.modHif
    | split
    | dsimp only
    | intro _
    | (with_reducible apply Touch.step (touch_hif_mbx ..)); exact rfl

theorem execDictSave_touch (p : DictPath) (key : Word32) (s : State) : TouchNext 0x379ffffdfe s (execDictSave p key s) := by
  unfold execDictSave
  repeat' first
    | with_reducible exact Touch.refl _
    | (with_reducible apply Touch.step (requestWrite_touch ..)); exact rfl
    | with_reducible apply TouchNext.next

theorem execDictDefaults_touch (p : DictPath) (key : Word32) (s : State) : TouchNext 0x379ffffdfe s (execDictDefaults p key s) := by
  unfold execDictDefaults
  repeat' first
    | with_reducible exact Touch.refl _
    | (with_reducible apply Touch.step (requestWrite_touch ..)); exact rfl
    | with_reducible apply TouchNext.next

theorem execCtrClear_touch (p : DictPath) (key : Word32) (s : State) : TouchNext 0x379ffffdfe s (execCtrClear p key s) := by
  unfold execCtrClear
  repeat' first
    | with_reducible exact Touch.refl _
    | (with_reducible apply Touch.step (requestWrite_touch ..)); exact rfl
    | with_reducible apply TouchNext.next

theorem execStateCmdDepot_touch (p : DictPath) (s : State) : TouchNext 0x379ffffdfe s (execStateCmdDepot p s) := by
  unfold execStateCmdDepot
  repeat' first
    | with_reducible exact Touch.refl _
    | (with_reducible apply Touch.step (requestWrite_touch ..)); exact rfl
    | with_reducible apply TouchNext.next

theorem execStateCmdShunt_touch (p : DictPath) (s : State) : TouchNext 0x379ffffdfe s (execStateCmdShunt p s) := by
  unfold execStateCmdShunt
  repeat' first
    | with_reducible exact Touch.refl _
    | (with_reducible apply Touch.step (requestWrite_touch ..)); exact rfl
    | with_reducible apply TouchNext.next

theorem execStateCmdService_touch (p : DictPath) (s : State) : TouchNext 0x379ffffdfe s (execStateCmdService p s) := by
  unfold execStateCmdService
  repeat' first
    | with_reducible exact Touch.refl _
    | (with_reducible apply Touch.step (requestWrite_touch ..)); exact rfl
    | with_reducible apply TouchNext.next

theorem execClearHalt_touch (p : DictPath) (s : State) : TouchNext 0x379ffffdfe s (execClearHalt p s) := by
  unfold execClearHalt
  repeat' first
    | with_reducible exact Touch.refl _
    | (with_reducible apply Touch.step (requestWrite_touch ..)); exact rfl
    | with_reducible apply TouchNext.next

theorem activatedRule_touch (s : State) (r : Nat) (x : Rule) (v : Int) : Touch 0x1841c0000 s (activatedRule s r x v) := by
  unfold activatedRule
  repeat' first
    | with_reducible exact Touch.refl _
    | (with_reducible apply Touch.step (State_modCst_touch ..)); exact rfl
    | (with_reducible apply Touch.step (raise_touch ..)); exact rfl
    | (with_reducible apply Touch.step (ruleNotice_touch ..)); exact rfl
    | with_reducible apply Touch.ite
    | intro _

theorem evalRule_touch (ch : Nat) (a : State × List Nat) (r : Nat) : Touch 0x1841c0000 a.1 (evalRule ch a r).1 := by
  unfold evalRule
  dsimp only
  repeat' first
    | with_reducible exact Touch.refl _
    | (with_reducible apply Touch.step (activatedRule_touch ..)); exact rfl
    | (with_reducible apply Touch.step (clearedRule_touch ..)); exact rfl
    | (with_reducible apply Touch.step (State_modCst_touch ..)); exact rfl
    | split

theorem takeActions_touch (s : State) (rs : List Nat) : Touch 0x349ffffdfe s (takeActions s rs) := by
  unfold takeActions
  repeat' first
    | with_reducible exact Touch.refl _
    | (with_reducible apply Touch.step (settleAlert_touch ..)); exact rfl
    | (with_reducible apply Touch.step (enterHalt_touch ..)); exact rfl
    | (with_reducible apply Touch.step (autoWake_touch ..)); exact rfl
    | with_reducible apply Touch.ite
    | split
    | dsimp only
    | intro _

theorem evalRules_touch (s : State) (ch : Nat) : Touch 0x359ffffdfe s (evalRules s ch) := by
  unfold evalRules
  repeat' first
    | with_reducible exact Touch.refl _
    | (with_reducible apply Touch.step (evalRule_touch ..)); exact rfl
    | (with_reducible apply Touch.step (takeActions_touch ..)); exact rfl
    | with_reducible apply Touch.foldl_fst
    | intro _

theorem sampleChannel_touch (s : State) (ch : Nat) (v : Int) : Touch 0x359ffffdfe s (sampleChannel s ch v) := by
  unfold sampleChannel
  repeat' first
    | with_reducible exact Touch.refl _
    | (with_reducible apply Touch.step (State_modCst_touch ..)); exact rfl
    | (with_reducible apply Touch.step (evalRules_touch ..)); exact rfl
    | with_reducible apply Touch.ite
    | intro _

theorem sampleGroup_touch (s : State) (ch : Nat) : Touch 0x359ffffdfe s (sampleGroup s ch) := by
  unfold sampleGroup
  repeat' first
    | with_reducible exact Touch.refl _
    | (with_reducible apply Touch.step (State_modCst_touch ..)); exact rfl
    | (with_reducible apply Touch.step (evalRules_touch ..)); exact rfl
    | split

theorem execChannelSample_touch (ch : BitVec 8) (value : Word32) (ms : Word64) (s : State) : TouchNext 0x359ffffdfe s (execChannelSample ch value ms s) := by
  unfold execChannelSample
  repeat' first
    | with_reducible exact Touch.refl _
    | (with_reducible apply Touch.step (State_modCst_touch ..)); exact rfl
    | (with_reducible apply Touch.step (sampleChannel_touch ..)); exact rfl
    | (with_reducible apply Touch.step (sampleGroup_touch ..)); exact rfl
    | with_reducible apply TouchNext.next
    | with_reducible apply Touch.ite
    | split
    | dsimp only
    | intro _

end Sys2Proof.Machine
end

