-- ==== Sys2Proof/Laws/TouchRegs.lean ====
section
/-!
SUPPORT. What the operations of Regs may change.
-/

namespace Sys2Proof.Machine

theorem giveWord_touch (s : State) (v : Word32) : Touch 0x20000000 s (giveWord s v) := by
  unfold giveWord
  repeat' first
    | with_reducible exact Touch.refl _
    | (with_reducible apply Touch.step (setRead_touch ..)); exact rfl

theorem hostReadAt_touch {m : Nat} {s : State} {w : Wing} {f : State → State} (hm : 0x20000000 ||| m = m)
    (hf : ∀ s, Touch m s (f s)) : Touch m s (hostReadAt s w f) := by
  unfold hostReadAt
  split
  · exact Touch.refl s
  · split
    · exact Touch.step (giveWord_touch ..) (testBit_sub rfl hm) (Touch.refl s)
    · exact hf s

theorem readRetire_touch (s : State) (t : Tile) : Touch 0x20000008 s (readRetire s t) := by
  unfold readRetire
  repeat' first
    | with_reducible exact Touch.refl _
    | (with_reducible apply Touch.step (State_modSch_touch ..)); exact rfl
    | (with_reducible apply Touch.step (giveWord_touch ..)); exact rfl
    | split

theorem execRetireQueueRead_touch (t : Tile) (s : State) : TouchNext 0x20000008 s (execRetireQueueRead t s) := by
  unfold execRetireQueueRead
  repeat' first
    | with_reducible exact Touch.refl _
    | (with_reducible apply Touch.step (hostReadAt_touch (m := 0x20000008) rfl ?_)); exact rfl
    | (with_reducible apply Touch.step (readRetire_touch ..)); exact rfl
    | with_reducible apply TouchNext.next
    | intro _

theorem readWide_touch (s : State) (b : Nat) (off : Nat) : Touch 0x30000000 s (readWide s b off) := by
  unfold readWide
  repeat' first
    | with_reducible exact Touch.refl _
    | (with_reducible apply Touch.step (giveWord_touch ..)); exact rfl
    | split
    | (with_reducible apply Touch.step (touch_hiHost ..)); exact rfl

theorem execCounterLoRead_touch (block : Fin 26) (offset : BitVec 24) (s : State) : TouchNext 0x30000000 s (execCounterLoRead block offset s) := by
  unfold execCounterLoRead
  repeat' first
    | with_reducible exact Touch.refl _
    | (with_reducible apply Touch.step (hostReadAt_touch (m := 0x30000000) rfl ?_)); exact rfl
    | (with_reducible apply Touch.step (readWide_touch ..)); exact rfl
    | with_reducible apply TouchNext.next
    | intro _

theorem execTtCountLoRead_touch (w : Wing) (s : State) : TouchNext 0x20001000 s (execTtCountLoRead w s) := by
  unfold execTtCountLoRead
  repeat' first
    | with_reducible exact Touch.refl _
    | (with_reducible apply Touch.step (State_modTt_touch ..)); exact rfl
    | (with_reducible apply Touch.step (giveWord_touch ..)); exact rfl
    | (with_reducible apply Touch.step (hostReadAt_touch (m := 0x20001000) rfl ?_)); exact rfl
    | with_reducible apply TouchNext.next
    | intro _

theorem execClogEntryRead_touch (s : State) : TouchNext 0x20080000 s (execClogEntryRead s) := by
  unfold execClogEntryRead
  repeat' first
    | with_reducible exact Touch.refl _
    | (with_reducible apply Touch.step (State_modLogs_touch ..)); exact rfl
    | (with_reducible apply Touch.step (giveWord_touch ..)); exact rfl
    | (with_reducible apply Touch.step (hostReadAt_touch (m := 0x20080000) rfl ?_)); exact rfl
    | with_reducible apply TouchNext.next
    | dsimp only
    | intro _

theorem clearLat_touch (s : State) (t : Tile) (n : Nat) : Touch 0x8 s (clearLat s t n) := by
  unfold clearLat
  repeat' first
    | with_reducible exact Touch.refl _
    | (with_reducible apply Touch.step (State_modSch_touch ..)); exact rfl

theorem clearConf_touch (s : State) (t : Tile) (n : Nat) : Touch 0x8 s (clearConf s t n) := by
  unfold clearConf
  repeat' first
    | with_reducible exact Touch.refl _
    | (with_reducible apply Touch.step (State_modSch_touch ..)); exact rfl

theorem clearMemFault_touch (s : State) (t : Tile) : Touch 0x10 s (clearMemFault s t) := by
  unfold clearMemFault
  repeat' first
    | with_reducible exact Touch.refl _
    | (with_reducible apply Touch.step (State_modMem_touch ..)); exact rfl

theorem clearShape_touch (s : State) (t : Tile) : Touch 0x8 s (clearShape s t) := by
  unfold clearShape
  repeat' first
    | with_reducible exact Touch.refl _
    | (with_reducible apply Touch.step (State_modSch_touch ..)); exact rfl

theorem clearDl_touch (s : State) (t : Tile) : Touch 0x8 s (clearDl s t) := by
  unfold clearDl
  repeat' first
    | with_reducible exact Touch.refl _
    | (with_reducible apply Touch.step (State_modSch_touch ..)); exact rfl

theorem clearStall_touch (s : State) (t : Tile) : Touch 0x8 s (clearStall s t) := by
  unfold clearStall
  repeat' first
    | with_reducible exact Touch.refl _
    | (with_reducible apply Touch.step (State_modSch_touch ..)); exact rfl

theorem clearHeld_touch (s : State) (t : Tile) : Touch 0x8 s (clearHeld s t) := by
  unfold clearHeld
  repeat' first
    | with_reducible exact Touch.refl _
    | (with_reducible apply Touch.step (State_modSch_touch ..)); exact rfl

theorem flushLab_touch (s : State) (t : Tile) : Touch 0x801c0020 s (flushLab s t) := by
  unfold flushLab
  repeat' first
    | with_reducible exact Touch.refl _
    | (with_reducible apply Touch.step (dropLab_touch ..)); exact rfl

theorem clearPwFault_touch (s : State) (t : Tile) : Touch 0x20 s (clearPwFault s t) := by
  unfold clearPwFault
  repeat' first
    | with_reducible exact Touch.refl _
    | (with_reducible apply Touch.step (State_modPorter_touch ..)); exact rfl

theorem clearFail_touch (s : State) (w : Wing) : Touch 0x1000 s (clearFail s w) := by
  unfold clearFail
  repeat' first
    | with_reducible exact Touch.refl _
    | (with_reducible apply Touch.step (State_modTt_touch ..)); exact rfl

theorem clearCatFault_touch (s : State) (t : Tile) : Touch 0x40 s (clearCatFault s t) := by
  unfold clearCatFault
  repeat' first
    | with_reducible exact Touch.refl _
    | (with_reducible apply Touch.step (State_modCat_touch ..)); exact rfl

theorem clearLane_touch (s : State) (w : Wing) : Touch 0x4000 s (clearLane s w) := by
  unfold clearLane
  repeat' first
    | with_reducible exact Touch.refl _
    | (with_reducible apply Touch.step (State_modJn_touch ..)); exact rfl

theorem clearJnFault_touch (s : State) (w : Wing) : Touch 0x4000 s (clearJnFault s w) := by
  unfold clearJnFault
  repeat' first
    | with_reducible exact Touch.refl _
    | (with_reducible apply Touch.step (State_modJn_touch ..)); exact rfl

theorem execLatClr_touch (t : Tile) (n : Fin 336) (s : State) : TouchNext 0x801e0008 s (execLatClr t n s) := by
  unfold execLatClr
  repeat' first
    | with_reducible exact Touch.refl _
    | (with_reducible apply Touch.step (hostWriteAt_touch (m := 0x801e0008) rfl ?_)); exact rfl
    | (with_reducible apply Touch.step (clearLat_touch ..)); exact rfl
    | with_reducible apply TouchNext.next
    | intro _

theorem execConfClr_touch (t : Tile) (n : Fin 336) (s : State) : TouchNext 0x801e0008 s (execConfClr t n s) := by
  unfold execConfClr
  repeat' first
    | with_reducible exact Touch.refl _
    | (with_reducible apply Touch.step (hostWriteAt_touch (m := 0x801e0008) rfl ?_)); exact rfl
    | (with_reducible apply Touch.step (clearConf_touch ..)); exact rfl
    | with_reducible apply TouchNext.next
    | intro _

theorem execMemFaultClr_touch (t : Tile) (s : State) : TouchNext 0x801e0010 s (execMemFaultClr t s) := by
  unfold execMemFaultClr
  repeat' first
    | with_reducible exact Touch.refl _
    | (with_reducible apply Touch.step (hostWriteAt_touch (m := 0x801e0010) rfl ?_)); exact rfl
    | (with_reducible apply Touch.step (clearMemFault_touch ..)); exact rfl
    | with_reducible apply TouchNext.next
    | intro _

theorem execShapeClr_touch (t : Tile) (s : State) : TouchNext 0x801e0008 s (execShapeClr t s) := by
  unfold execShapeClr
  repeat' first
    | with_reducible exact Touch.refl _
    | (with_reducible apply Touch.step (hostWriteAt_touch (m := 0x801e0008) rfl ?_)); exact rfl
    | (with_reducible apply Touch.step (clearShape_touch ..)); exact rfl
    | with_reducible apply TouchNext.next
    | intro _

theorem execDlClr_touch (t : Tile) (s : State) : TouchNext 0x801e0008 s (execDlClr t s) := by
  unfold execDlClr
  repeat' first
    | with_reducible exact Touch.refl _
    | (with_reducible apply Touch.step (hostWriteAt_touch (m := 0x801e0008) rfl ?_)); exact rfl
    | (with_reducible apply Touch.step (clearDl_touch ..)); exact rfl
    | with_reducible apply TouchNext.next
    | intro _

theorem execStallClr_touch (t : Tile) (s : State) : TouchNext 0x801e0008 s (execStallClr t s) := by
  unfold execStallClr
  repeat' first
    | with_reducible exact Touch.refl _
    | (with_reducible apply Touch.step (hostWriteAt_touch (m := 0x801e0008) rfl ?_)); exact rfl
    | (with_reducible apply Touch.step (clearStall_touch ..)); exact rfl
    | with_reducible apply TouchNext.next
    | intro _

theorem execHeldClr_touch (t : Tile) (s : State) : TouchNext 0x801e0008 s (execHeldClr t s) := by
  unfold execHeldClr
  repeat' first
    | with_reducible exact Touch.refl _
    | (with_reducible apply Touch.step (hostWriteAt_touch (m := 0x801e0008) rfl ?_)); exact rfl
    | (with_reducible apply Touch.step (clearHeld_touch ..)); exact rfl
    | with_reducible apply TouchNext.next
    | intro _

theorem execLabFlush_touch (t : Tile) (s : State) : TouchNext 0x801e0020 s (execLabFlush t s) := by
  unfold execLabFlush
  repeat' first
    | with_reducible exact Touch.refl _
    | (with_reducible apply Touch.step (hostWriteAt_touch (m := 0x801e0020) rfl ?_)); exact rfl
    | (with_reducible apply Touch.step (flushLab_touch ..)); exact rfl
    | with_reducible apply TouchNext.next
    | intro _

theorem execPwFaultClr_touch (t : Tile) (s : State) : TouchNext 0x801e0020 s (execPwFaultClr t s) := by
  unfold execPwFaultClr
  repeat' first
    | with_reducible exact Touch.refl _
    | (with_reducible apply Touch.step (hostWriteAt_touch (m := 0x801e0020) rfl ?_)); exact rfl
    | (with_reducible apply Touch.step (clearPwFault_touch ..)); exact rfl
    | with_reducible apply TouchNext.next
    | intro _

theorem execFailClr_touch (w : Wing) (s : State) : TouchNext 0x801e1000 s (execFailClr w s) := by
  unfold execFailClr
  repeat' first
    | with_reducible exact Touch.refl _
    | (with_reducible apply Touch.step (hostWriteAt_touch (m := 0x801e1000) rfl ?_)); exact rfl
    | (with_reducible apply Touch.step (clearFail_touch ..)); exact rfl
    | with_reducible apply TouchNext.next
    | intro _

theorem execCatFaultClr_touch (t : Tile) (s : State) : TouchNext 0x801e0040 s (execCatFaultClr t s) := by
  unfold execCatFaultClr
  repeat' first
    | with_reducible exact Touch.refl _
    | (with_reducible apply Touch.step (hostWriteAt_touch (m := 0x801e0040) rfl ?_)); exact rfl
    | (with_reducible apply Touch.step (clearCatFault_touch ..)); exact rfl
    | with_reducible apply TouchNext.next
    | intro _

theorem execLaneClr_touch (w : Wing) (s : State) : TouchNext 0x801e4000 s (execLaneClr w s) := by
  unfold execLaneClr
  repeat' first
    | with_reducible exact Touch.refl _
    | (with_reducible apply Touch.step (hostWriteAt_touch (m := 0x801e4000) rfl ?_)); exact rfl
    | (with_reducible apply Touch.step (clearLane_touch ..)); exact rfl
    | with_reducible apply TouchNext.next
    | intro _

theorem execJnFaultClr_touch (w : Wing) (s : State) : TouchNext 0x801e4000 s (execJnFaultClr w s) := by
  unfold execJnFaultClr
  repeat' first
    | with_reducible exact Touch.refl _
    | (with_reducible apply Touch.step (hostWriteAt_touch (m := 0x801e4000) rfl ?_)); exact rfl
    | (with_reducible apply Touch.step (clearJnFault_touch ..)); exact rfl
    | with_reducible apply TouchNext.next
    | intro _

theorem actBits_nil_touch (s : State) (v : Word32) : Touch 0x0 s (actBits s v []) := Touch.refl s

theorem actBits_cons_touch {m : Nat} {s : State} {v : Word32} {k : Nat} {f : State → State} {l : List (Nat × (State → State))}
    (hf : ∀ s, Touch m s (f s)) (hl : ∀ s, Touch m s (actBits s v l)) : Touch m s (actBits s v ((k, f) :: l)) := by
  show Touch m s (actBits (if flg v k then f s else s) v l)
  exact Touch.step (hl _) (Nat.or_self m) (Touch.ite (fun _ => hf s) fun _ => Touch.refl s)

theorem writeEvqCtl_touch (s : State) (v : Word32) : Touch 0x80000 s (writeEvqCtl s v) := by
  unfold writeEvqCtl
  repeat' first
    | with_reducible exact Touch.refl _
    | (with_reducible apply Touch.step (State_modLogs_touch ..)); exact rfl

theorem writeHif_touch (s : State) (off : Nat) (v : Word32) : Touch 0x80000 s (writeHif s off v) := by
  unfold writeHif
  repeat' first
    | with_reducible exact Touch.refl _
    | (with_reducible apply Touch.step (State_modLogs_touch ..)); exact rfl
    | (with_reducible apply Touch.step (writeEvqCtl_touch ..)); exact rfl
    | with_reducible apply Touch.ite
    | split
    | intro _

theorem writeSch_touch (s : State) (t : Tile) (off : Nat) (v : Word32) : Touch 0x8 s (writeSch s t off v) := by
  unfold writeSch
  repeat' first
    | with_reducible exact Touch.refl _
    | (with_reducible apply Touch.step (clearLat_touch ..)); exact rfl
    | (with_reducible apply Touch.step (clearConf_touch ..)); exact rfl
    | (with_reducible apply Touch.step (clearShape_touch ..)); exact rfl
    | (with_reducible apply Touch.step (clearDl_touch ..)); exact rfl
    | (with_reducible apply Touch.step (clearStall_touch ..)); exact rfl
    | (with_reducible apply Touch.step (clearHeld_touch ..)); exact rfl
    | (with_reducible apply Touch.step (actBits_cons_touch (m := 0x8) ?_ ?_)); exact rfl
    | (with_reducible apply Touch.step (actBits_nil_touch ..)); exact rfl
    | split
    | intro _

theorem writeBlock_touch (s : State) (b : Nat) (off : Nat) (v : Word32) : Touch 0xa801ff078 s (writeBlock s b off v) := by
  unfold writeBlock
  repeat' first
    | with_reducible exact Touch.refl _
    | (with_reducible apply Touch.step (State_modJn_touch ..)); exact rfl
    | (with_reducible apply Touch.step (widenPort_touch ..)); exact rfl
    | (with_reducible apply Touch.step (retrainNow_touch ..)); exact rfl
    | (with_reducible apply Touch.step (clearMemFault_touch ..)); exact rfl
    | (with_reducible apply Touch.step (flushLab_touch ..)); exact rfl
    | (with_reducible apply Touch.step (clearPwFault_touch ..)); exact rfl
    | (with_reducible apply Touch.step (clearFail_touch ..)); exact rfl
    | (with_reducible apply Touch.step (clearCatFault_touch ..)); exact rfl
    | (with_reducible apply Touch.step (clearLane_touch ..)); exact rfl
    | (with_reducible apply Touch.step (clearJnFault_touch ..)); exact rfl
    | (with_reducible apply Touch.step (actBits_cons_touch (m := 0xa801ff078) ?_ ?_)); exact rfl
    | (with_reducible apply Touch.step (actBits_nil_touch ..)); exact rfl
    | (with_reducible apply Touch.step (writeHif_touch ..)); exact rfl
    | (with_reducible apply Touch.step (writeSch_touch ..)); exact rfl
    | with_reducible apply Touch.ite
    | split
    | intro _

theorem writeRingReg_touch (s : State) (f : Func) (r : Nat) (o : Nat) (v : Word32) : Touch 0x200000 s (writeRingReg s f r o v) := by
  unfold writeRingReg
  repeat' first
    | with_reducible exact Touch.refl _
    | (with_reducible apply Touch.step (State_modRing_touch ..)); exact rfl
    | (with_reducible apply Touch.step (writeRingCfg_touch ..)); exact rfl
    | split

theorem writeMbxCtl_touch (s : State) (v : Word32) : Touch 0x379ffffdfe s (writeMbxCtl s v) := by
  unfold writeMbxCtl
  repeat' first
    | with_reducible exact Touch.refl _
    | (with_reducible apply Touch.step (submitMailbox_touch ..)); exact rfl
    | with_reducible apply Touch.ite
    | unfold State.modHif
    | dsimp only
    | intro _
    | (with_reducible apply Touch.step (touch_hif_mbx ..)); exact rfl

theorem writePage_touch (s : State) (f : Func) (off : Nat) (v : Word32) : Touch 0x379ffffdfe s (writePage s f off v) := by
  unfold writePage
  repeat' first
    | with_reducible exact Touch.refl _
    | (with_reducible apply Touch.step (State_modPage_touch ..)); exact rfl
    | (with_reducible apply Touch.step (flushMsix_touch ..)); exact rfl
    | (with_reducible apply Touch.step (doorbell_touch ..)); exact rfl
    | (with_reducible apply Touch.step (writeRingReg_touch ..)); exact rfl
    | (with_reducible apply Touch.step (writeMbxCtl_touch ..)); exact rfl
    | with_reducible apply Touch.ite
    | unfold State.modHif
    | split
    | dsimp only
    | intro _
    | (with_reducible apply Touch.step (touch_hif_mbx ..)); exact rfl

theorem execEventQueueEnable_touch (v : Word32) (s : State) : TouchNext 0x801e0000 s (execEventQueueEnable v s) := by
  unfold execEventQueueEnable
  repeat' first
    | with_reducible exact Touch.refl _
    | (with_reducible apply Touch.step (hostWriteAt_touch (m := 0x801e0000) rfl ?_)); exact rfl
    | (with_reducible apply Touch.step (writeEvqCtl_touch ..)); exact rfl
    | with_reducible apply TouchNext.next
    | intro _

theorem execRegisterWrite_touch (x : RegTarget) (v : Word32) (s : State) : TouchNext 0x3f9ffffdfe s (execRegisterWrite x v s) := by
  unfold execRegisterWrite
  repeat' first
    | with_reducible exact Touch.refl _
    | (with_reducible apply Touch.step (hostWriteAt_touch (m := 0x3f9ffffdfe) rfl ?_)); exact rfl
    | (with_reducible apply Touch.step (writeBlock_touch ..)); exact rfl
    | (with_reducible apply Touch.step (writePage_touch ..)); exact rfl
    | with_reducible apply TouchNext.next
    | with_reducible apply Touch.ite
    | split
    | intro _

end Sys2Proof.Machine
end

