-- ==== Sys2Proof/Machine/Fru.lean ====
section
/-!
DEFINITION. The FRU EEPROM on SMBus (R583). Its supply is a pin of its own, so no state of the module bears on it, and it
is write-protected, so its contents are no state; the opcode table has no row for SMBus.
-/

namespace Sys2Proof.Machine

/-- A type and length byte and the field's bytes: 8-bit text, or binary (IPMI FRU definition 1.0). PRESUMED, assumption log
140. -/
def fruField (text : Bool) (bs : List Byte) : List Byte :=
  BitVec.ofNat 8 ((if text then 0xC0 else 0) + (bs.take 63).length) :: bs.take 63

/-- Append the byte that makes a sum of 0 modulo 256. -/
def fruSummed (bs : List Byte) : List Byte := bs ++ [0 - bs.foldl (· + ·) 0]

/-- The product area: the part number, revision and serial of R2, whose last two are also 0x1018.03 and 0x1018.04. -/
def fruProduct : List Byte :=
  let fs := fruField true Config.fruNames.1 ++ fruField true Config.fruNames.2 ++ fruField true Config.partNumber
    ++ fruField false (leBytes 4 Config.revision.toNat) ++ fruField false (leBytes 4 Config.serial.toNat)
    ++ fruField true [] ++ fruField true [] ++ [0xC1]
  let blocks := (fs.length + 4 + 7) / 8
  fruSummed ([0x01, BitVec.ofNat 8 blocks, 0x19] ++ fs ++ List.replicate (8 * blocks - fs.length - 4) 0)

/-- Bytes of the EEPROM. -/
def fruSize : Nat := 8192

/-- The contents: common header, product area, and what the module's maker leaves behind them. -/
def fruImage : List Byte :=
  let used := fruSummed [0x01, 0, 0, 0, 0x01, 0, 0] ++ fruProduct
  used ++ (List.range (fruSize - used.length)).map Config.fruRest

/-- 7-bit address of the EEPROM on SMBus. -/
def fruAddress : Nat := 0x50

/-- A read transaction on SMBus: the bytes from an offset on, in every state; no other address is acknowledged. -/
def smbusRead (_ : State) (addr offset n : Nat) : Option (List Byte) :=
  if addr = fruAddress then some ((List.range n).map fun i => fruImage.getD ((offset + i) % fruSize) 0) else none

/-- A write transaction on SMBus: none is acknowledged, and nothing changes. -/
def smbusWrite (s : State) (_addr _offset : Nat) (_data : List Byte) : State × Bool := (s, false)

end Sys2Proof.Machine
end

