-- ==== Sys2Proof/WellFormed.lean ====
section
/-!
DEFINITION. Which terms are commands that can arise: the shape limits the manual puts on operands and that their types
do not already carry. A term that breaks one names nothing the hardware has; the meanings leave the state unchanged
for it or clip it as the rule says.
-/

namespace Sys2Proof

/-- PF0 has rings 0 to 15 and each VF rings 0 to 63 (R467). -/
def ringExists : Func → Fin 64 → Bool
  | .pf0, r => decide (r.val < 16)
  | .vf _, _ => true

/-- A CAN frame carries 1 to 8 bytes, an FD frame up to 64 (R498, R499). -/
def frameFits (fd : CanFormat) (frame : List Byte) : Bool :=
  decide (0 < frame.length ∧ frame.length ≤ (if fd.isFd then 64 else 8))

/-- A host access covers at least one byte, stays inside one 64 B burst's length, and a write supplies just those
bytes (R468, R470). -/
def hostAccessFits (len : Nat) (write : Option (List Byte)) : Bool :=
  match write with
  | none => decide (0 < len)
  | some d => decide (0 < len ∧ d.length = len)

/-- A core address word of an event is a core index of R25, or 0xFFFF for none. -/
def coreFits (c : BitVec 16) : Bool := decide (c.toNat < 1344 ∨ c = 0xFFFF#16)

/-- Lane sets keep a lane: a port trains with 4 to 8 lanes (R442). -/
def lanesFit (l : BitVec 8) : Bool :=
  decide (4 ≤ ((List.range 8).filter fun i => l.getLsbD i).length)

/-- A write to a row stays inside the row (R72). -/
def rowFits : RowAccess → Bool
  | .read => true
  | .write b d => decide (b.val + d.length ≤ 64)

/-- A host write carries at most one burst (R468, R470). -/
def makerFits : Maker → Bool
  | .hostWrite d => decide (d.length ≤ 64)
  | _ => true

/-- A latency measurement has 16 echoes, none back before it was sent (R443). -/
def echoesFit (es : List Echo) : Bool := es.length == 16 && es.all fun e => decide (e.echoT + e.turn ≤ e.arrival)

/-- A column ships with one defective core at most (R21). -/
def fusesFit (fs : List Defect) : Bool := decide (fs.map fun d => (d.tile, d.column)).Nodup

/-- Shape limits of a command's operands. -/
def Instr.wellFormed : Instr → Bool
  | .sqTailDoorbell f r _ | .cqHeadDoorbell f r _ | .ringEnable f r _ | .ringDisable f r _ => ringExists f r
  | .ringDrainDone f r | .submissionEntryFetch f r _ | .submissionFetchFailed f r | .completionWriteRefused f r
  | .msixCoalDelayExpiry f r | .loopTask f r | .chainTaskForward f r | .chainTaskBackward f r | .streamStage f r
  | .collectiveBroadcast f r | .collectiveReduce f r | .catalogueQuery f r | .catalogueMerge f r | .moveCopy f r
  | .moveMigrateIn f r | .moveFlush f r | .moveCompress f r | .moveDecompress f r | .moveStageLoad f r
  | .moveRelease f r | .moveScheduleStart f r | .moveScheduleStop f r | .editionSwap f r | .mapInvalidate f r
  | .mapInvalidateDone f r | .sidingOpen f r | .sidingClose f r | .prefixLookup f r | .carSetStart f r
  | .carSetStop f r | .partitionResetCmd f r => ringExists f r
  | .taskFault _ _ _ core => coreFits core
  | .hostCxlMemAccess _ len w => hostAccessFits len.val w
  | .partitionWindowAccess _ _ len w => hostAccessFits len.val w
  | .phaseChange _ core _ | .tileStepBegin _ core | .mergeHoldExpiry _ core => decide (core < 672)
  | .intrudingAccessForced x => rowFits x.access && x.met.all rowFits
  | .stackedAccessLate _ m | .uncorrectableRead _ m => makerFits m
  | .portTrainingDone _ _ _ lanes _ echoes => lanesFit lanes && echoesFit echoes
  | .calibrationSlot (.latency _ _ echoes) _ _ => echoesFit echoes
  | .jnChunkArrival _ _ _ core _ data _ => coreFits core && decide (data.length ≤ 262144)
  | .jnCountMessage _ _ _ _ _ _ p => decide (0 < p ∧ p ≤ 672)
  | .dapRead fd fr _ | .dapWrite fd fr _ | .dapWriteInit fd fr _ | .dapSegment fd fr _ | .dapSegAck fd fr _
  | .dapAbort fd fr => frameFits fd fr
  | .wakeStepDone _ found => fusesFit found.fuses
  | .pcieLinkUp _ width _ _ => decide (width = 8 ∨ width = 16)
  | .dvfsLoadWindow _ _ waited cycles => decide (waited ≤ cycles)
  | _ => true

end Sys2Proof
end

