-- ==== Sys2Proof/Tests/Slice0.lean ====
section
/-!
SUPPORT. The model's own tests: ill-formed terms that WellFormed refuses, worked examples of the spec, and for every
statement of Certificates/Slice0 with hypotheses a state and operands that meet them, clause by clause
(witness_<part of a statement>).
-/

namespace Sys2Proof.Tests
open Sys2Proof Sys2Proof.Machine

set_option Elab.async false
set_option linter.unusedVariables false

theorem test_wf_pf0_has_16_rings : (Instr.loopTask .pf0 16).wellFormed = false := by decide
theorem test_wf_vf_has_64_rings : (Instr.loopTask (.vf 0) 63).wellFormed = true := by decide
theorem test_wf_core_address : (Instr.taskFault 0 0x0321 0 0x0540).wellFormed = false := by decide
theorem test_wf_empty_host_access : (Instr.hostCxlMemAccess 0 0 none).wellFormed = false := by decide
theorem test_wf_host_write_bytes : (Instr.partitionWindowAccess 0 0 2 (some [1])).wellFormed = false := by decide
theorem test_wf_walk_rank : (Instr.tileStepBegin 0 672).wellFormed = false := by decide
theorem test_wf_row_access :
    (Instr.intrudingAccessForced ⟨0, .e0, 0, 0, 0, .dma, .write 63 [1, 2], none⟩).wellFormed = false := by decide
theorem test_wf_late_write :
    (Instr.stackedAccessLate 0 (.hostWrite (List.replicate 65 0))).wellFormed = false := by decide
theorem test_wf_can_frame_length : (Instr.dapAbort .classic []).wellFormed = false := by decide
theorem test_wf_port_lanes :
    (Instr.portTrainingDone .east 0 0 0x07 false (List.replicate 16 ⟨9, 1, 2⟩)).wellFormed = false := by decide
theorem test_wf_port_echoes :
    (Instr.portTrainingDone .east 0 0 0xFF false (List.replicate 15 ⟨9, 1, 2⟩)).wellFormed = false := by decide
theorem test_wf_calibration_echo :
    (Instr.calibrationSlot (.latency .east 0 (List.replicate 16 ⟨2, 1, 2⟩)) false 0).wellFormed = false := by decide
theorem test_wf_chunk_core :
    (Instr.jnChunkArrival .east ⟨⟨0, 0⟩, false⟩ 0 0x0540 0 [] false).wellFormed = false := by decide
theorem test_wf_partials : (Instr.jnCountMessage .east ⟨⟨0, 0⟩, false⟩ 0 0 0 0 0).wellFormed = false := by decide
theorem test_wf_defects_per_column : (Instr.wakeStepDone 0 ⟨[], [⟨.e0, 3, 1⟩, ⟨.e0, 3, 2⟩]⟩).wellFormed = false := by decide
theorem test_wf_pcie_width : (Instr.pcieLinkUp 5 4 false false).wellFormed = false := by decide
theorem test_wf_waited_cycles : (Instr.dvfsLoadWindow .e0 0 2 1).wellFormed = false := by decide

/-! ### Worked examples of the spec

The values are those the spec's own worked examples give. -/

/-- 02, "one INT8 × FP8 E4M3 element": one rounding for the eight products and C. -/
theorem test_int8_fp8_element :
    engineStep 0x4B800000 [(.ofInt 3, Elem.e4m3.decode 0x30), (.ofInt (-2), Elem.e4m3.decode 0x3A),
      (.ofInt 7, Elem.e4m3.decode 0xB4), (.ofInt 0, Elem.e4m3.decode 0x40), (.ofInt 1, Elem.e4m3.decode 0x20),
      (.ofInt (-5), Elem.e4m3.decode 0x3C), (.ofInt 4, Elem.e4m3.decode 0x36), (.ofInt 2, Elem.e4m3.decode 0xC4)]
      = (0x4B7FFFF0, 0) := by decide +kernel

/-- 02, "writing an MXFP4 block": 13.7, 5.1, −0.3 and 1.0 (to 20 binary places) under the scale 0x80, no flag; a largest
magnitude of 14.2 clamps and sets SAT. -/
theorem test_mxfp4_block :
    encodeBlock .e2m1 [.fin false 14365491 (-20), .fin false 5347738 (-20), .fin true 314573 (-20), .fin false 1 0] =
      (0x80, [7, 5, 8, 1], 0) ∧ encodeBlock .e2m1 [.fin false 14889779 (-20)] = (0x80, [7], 1) := by decide +kernel

/-- 03, "from virtual address to pseudo-channel": granule 0x23_4A5F of E0. -/
theorem test_channel_hash : pcOf 0x0100234A5F40 = 498 ∧ locationOf 0x0100234A5F40 = 1156416 ∧ pcOf 0x0100234A6040 = 461 := by
  decide +kernel

/-- 18, "retiring a pseudo-channel": where granule 4,517 of pseudo-channel 498 moves. -/
theorem test_migration_target : migrationTarget .e0 498 4517 = 0x017FC0105A00 ∧ pcOf 0x017FC0105A40 = 429 := by decide +kernel

/-- 01, the core at logical row 12 and column 5 of W0. -/
theorem test_core_index : coreIndex .w0 (16 * 12 + 5) = 869 := by decide +kernel

/-- 05, "issue outcomes of the same descriptor": 168 units over 336 cores. -/
theorem test_shares : shareOf 168 336 7 = (3, 1) ∧ shareOf 168 336 8 = (4, 0) := by decide +kernel

/-- 14, "a car header lost across a sequence wrap": 4,095 is followed by 0. -/
theorem test_sequence_wraps : seqAfter 0 4095 = true ∧ seqAfter 4095 0 = false := by decide

/-- 09, "EXP2 just below a seam": the result at −1 is exactly 0.5 in both classes. -/
theorem test_exp2_exact : (sfExp2 false 0xBF800000).1 = 0x3F000000 ∧ (sfExp2 true 0xBF800000).1 = 0x3F000000 := by decide +kernel

/-- 18, "a forced calibration slot": a slot is yielded while more owned slots than units remain, and forced after. -/
theorem test_calibration_forced : slotTaken true 33 32 = (false, false) ∧ slotTaken true 32 32 = (true, true) := by decide

/-! ### Small states -/

/-- SERVICE, everything up. -/
def up : State := { State.reset with
  cst := { State.reset.cst with state := .service, target := .service }
  power := { State.reset.power with pwrGood := true, wakeStep := 4, good := ⟨63, 63⟩, perstN := true, portReset := false }
  hif := { State.reset.hif with linkUp := true, speed := 5, width := 16, vfEnable := true }
  cc := { State.reset.cc with state := .up, bundles := 0xFF } }
def ccDown : State := { up with cc := { up.cc with state := .down } }
def bm (s : State) (f : Func) : State := s.modPage f fun p => { p with busMaster := true }
def ring (s : State) (f : Func) (r : Nat) (g : Ring) : State := bm (s.modRing f r fun _ => g) f
def onRing : Ring := { enable := true, enabled := true, sizeLog2 := 4, sqTail := 3, phase := true, sqBase := 0x10000, cqBase := 0x20000 }
def evq (s : State) : State := s.modLogs fun l => { l with evqEnable := true, evqSize := 4, evqPhase := true, evqBase := 0x40000 }
/-- A number with values at bit positions. -/
def word (l : List (Nat × Nat)) : Nat := l.foldl (fun a p => a + p.2 * 2 ^ p.1) 0
/-- An entry of a ring. -/
def entryOf (l : List (Nat × Nat)) : Entry := BitVec.ofNat 512 (word l)
/-- Stacked memory of tile 0 begins here. -/
def sm : Nat := 0x010000000000
/-- Grant of a whole tile with some frames. -/
def grantAll : List (Nat × Nat) := [(86, 8), (75, 8), (64, 8), (35, 16), (25, 40), (14, 21), (4, 16)]
/-- Record of a partition that is enabled, with 8 rings, level-1 table at sm, one extent of the first GiB. -/
def partWord : Nat := word [(0, 1), (5, 7), (8, 8), (48, sm / 4096), (128, sm), (192, 512)]
  + 2 ^ 1152 * word grantAll + 2 ^ 1280 * word grantAll + 2 ^ 1408 * word grantAll + 2 ^ 1536 * word grantAll
/-- Partition configuration 0 gives every partition the tiles; VA 0 of partition 0 lies at sm on all four tiles. -/
def cfg0 : Inst := { live := [{ num := 0, base := 0, copy := leBytes 512 (partWord + 2 ^ 2048 * partWord) }] }
def tlb0 : TlbEntry := { part := 0, va := 0, size := 0x40000000, leaf := word [(0, sm), (6, 2), (3, 1)] }
def world (s : State) : State :=
  { s with insts := [(.partCfg, cfg0)], tmem := s.tmem.map fun _ m => { m with tlb := [tlb0] } }
/-- Bytes placed at a VA of partition 0. -/
def put (s : State) (va n : Nat) (x : Nat) : State := writePa s (sm + va) (leBytes n x)
/-- A ring with one fetched entry. -/
def withEntry (s : State) (f : Func) (r : Nat) (e : Entry) : State :=
  ring s f r { onRing with fetched := [(e, 1)], open_ := 1, owed := 1, sqHead := 1 }
/-- The check of a ring's front entry as a task: the state it leaves and the task it makes. -/
def issueP (s : State) (f : Func) (r : Nat) (k : KindCheck) : State :=
  match readyEntry s f r with
  | none => s
  | some (e, h) => (k { takeEntry { s with heldAt := none } f r with nextTask := s.nextTask + 1 } (newTask { s with heldAt := none } f r e h)).1
def issueX (s : State) (f : Func) (r : Nat) (k : KindCheck) : Task :=
  match readyEntry s f r with
  | none => { id := 0, func := f, ring := r, part := 0, home := .e0, hdr := 0, issueTick := 0 }
  | some (e, h) =>
    let t := newTask { s with heldAt := none } f r e h
    match (k { takeEntry { s with heldAt := none } f r with nextTask := s.nextTask + 1 } t).2 with
    | .ok x => x
    | .error _ => t
/-- Task header: one core, 8 banks, 1 accumulator share, body at VA 0x1000, plan at 0x2000. -/
def hdrBits (kind sub : Nat) : List (Nat × Nat) :=
  [(0, 0x77), (32, kind), (36, sub), (97, 1), (106, 16), (118, 1), (123, 1), (128, 0x1000), (192, 0x2000)]
/-- Plan at VA 0x2000: phase 0 valid, its bank 0 of the given class. -/
def withPlan (s : State) (cls : Nat) : State := put s 0x2000 16 (word [(80, 1), (0, cls)])
/-- A task of partition 0 in front of ring 3. -/
def front (s : State) (l : List (Nat × Nat)) : State := withEntry s (.vf 0) 3 (entryOf l)
/-- A loop body: 8 × 8 × 8 in BF16, FP32 out, one tile. -/
def loopWord : Nat := word [(46, 3), (52, 1), (480, 0x3F800000)]
  + 2 ^ 512 * word [(126, 1), (0, 8), (64, 8)] + 2 ^ 640 * word [(126, 2), (32, 8), (64, 1)] + 2 ^ 768 * word [(126, 3), (0, 1), (32, 1)]
  + 2 ^ 1280 * word [(0, 1), (160, 0x10000), (26, 0), (20, 2)] + 2 ^ 1536 * word [(0, 1), (160, 0x11000), (26, 2), (20, 2)]
  + 2 ^ 1792 * word [(0, 0), (160, 0x12000), (26, 4), (20, 2)]
  + 2 ^ 2048 * word [(180, 8), (193, 8), (206, 8), (0, 8), (30, 8), (60, 8)]
def loopArgs : List (Nat × Nat) := [(320, 8), (350, 8), (380, 8)]
def loopMem (s : State) : State := withPlan (put (world s) 0x1000 512 loopWord) 1
def sLoop : State := front (loopMem up) (hdrBits 1 0 ++ loopArgs)
def sLoopZero : State := front (loopMem up) (hdrBits 1 0 ++ [(320, 8), (350, 8)])
/-- A chain body: D 64, one part, one head, paged keys. -/
def chainWordV (back : Bool) : Nat :=
  word ([(480, 0x3F800000), (218, 0), (212, 1), (206, 2), (200, 4), (194, 6), (188, 2), (182, 8), (176, if back then 1 else 0),
    (131, 1), (124, 1), (119, 1), (107, 1)] ++ (if back then [(320, 0x30000)] else []))
  + 2 ^ 512 * word [(464, 0x10000), (352, 0x11000), (0, 1), (8, 0)] + 2 ^ 1024 * word [(432, 5)]
  + (if back then 2 ^ 1536 * word [(464, 0x12000), (416, 0x13000), (368, 0x14000), (320, 0x15000)] else 0)
def kvInst : Inst :=
  { current := some 1, atUnit := [(.station .e0, some 1)], live := [{ num := 1, base := sm + 0x5000, hdr := word [(464, 0x5000), (432, 64)] }] }
def chainMem (s : State) (back : Bool) : State :=
  let s := withPlan (put (world s) 0x1000 256 (chainWordV back)) 1
  let s := put (put s 0x5000 8 0x6000) (0x6000 + 64 * 5) 64 (word [(0, 1), (448, 100), (346, 4)])
  { s with insts := s.insts ++ [(.kv 0 .east, kvInst)] }
def chainArgs : List (Nat × Nat) := [(480, 2), (448, 16)]
def sChainF : State := front (chainMem up false) (hdrBits 2 0 ++ chainArgs)
def sChainB : State := front (chainMem up true) (hdrBits 2 1 ++ chainArgs)
def sChainZero : State := front (chainMem up false) (hdrBits 2 0 ++ [(480, 2)])
/-- A COPY stage without bindings. -/
def copyWord (iters : Nat) : Nat := word [(0, 1), (304, iters), (416, 0x10000), (368, 0x11000), (336, 64)]
def stageMem (s : State) (iters : Nat) : State := withPlan (put (world s) 0x1000 64 (copyWord iters)) 0
def sStage : State := front (stageMem up 2) (hdrBits 3 0 ++ [(320, 64)])
def sStageZero : State := front (stageMem up 0) (hdrBits 3 0 ++ [(320, 64)])
/-- A group of two members, the wings of this module, entry 2 of the table at sm + 0x8000. -/
def grpInst : Inst :=
  { current := some 1, atUnit := [(.station .e0, some 1), (.junction .east, some 1)]
    live := [{ num := 1, base := sm + 0x8000, hdr := word [(0, 0x5A74), (464, sm + 0x8000)] }] }
def grpMem (s : State) : State :=
  let s := put (put s (0x8000 + 64) 32 (word [(208, sm + 0x9000), (199, 2), (1, 1), (0, 1)])) 0x9000 16 (word [(80, 0xFF), (96, 0xFFFF)])
  let s := put s 0x9010 16 (word [(75, 1), (96, 0xFFFF)])
  { s with insts := s.insts ++ [(.group, grpInst)] }
/-- Header of a collective: no banks, no accumulator. -/
def collBits (sub : Nat) : List (Nat × Nat) :=
  [(0, 0x77), (32, 4), (36, sub), (118, 1), (123, 1), (128, 0x1000), (192, 0x2000), (480, 64)]
def collMem (s : State) (self root : Nat) : State :=
  withPlan (put (grpMem (world s)) 0x1000 64 (word [(464, if self = root then 0x10000 else 0), (384, 4096), (304, 9), (296, 2), (288, root), (280, self)])) 0
def sBcast : State := front (collMem up 0 0) (collBits 0)
def sReduce : State := front (collMem up 0 0) (collBits 1)
/-- An index without nodes, number 5. -/
def catInst5 : Inst :=
  { home := .e0, current := some 1, atUnit := [(.station .e0, some 1)]
    live := [{ num := 1, base := 0xA000, hdr := word [(208, 16), (368, 0xB000)] }] }
def catMem (s : State) (body : Nat) : State :=
  let s := put (world s) 0x1000 64 body
  { s with insts := s.insts ++ [(.cat 5, catInst5)] }
def catBits (sub : Nat) : List (Nat × Nat) := [(0, 0x77), (32, 5), (36, sub), (128, 0x1000)]
def sQuery : State := front (catMem up (word [(229, 1), (248, 1), (272, 1), (260, 1), (217, 5), (336, 0xC000), (288, 0xD000)])) (catBits 0)
def sMerge : State := front (catMem up (word [(288, 1), (276, 64), (264, 5), (464, 0x20000), (416, 0x21000), (368, 0x22000), (320, 0x23000), (304, 16)])) (catBits 1)
/-- A move in front of the ring. -/
def sMove (sub : Nat) (args : List (Nat × Nat)) : State := front (world up) ([(0, 0x77), (32, 6), (36, sub)] ++ args)
def mkTask (s : State) (k : KindCheck) (f : Task → Task) : Task := f (issueX s (.vf 0) 3 k)
/-- A state with one task, without its ring entry. -/
def withTask (s : State) (x : Task) : State :=
  { (s.modRing (.vf 0) 3 fun g => { g with fetched := [] }) with tasks := [x], nextTask := x.id + 1 }
/-- The loop task waiting, and running. -/
def wLoop : State := withTask sLoop (mkTask sLoop checkLoop id)
def run1 (x : Task) : Task := { x with status := .running, tiles := [.e0], cores := [0], phases := [(0, 0)] }
def xLoop : Task := mkTask sLoop checkLoop id
def wMove : State := withTask (sMove 8 []) { mkTask (sMove 8 []) checkPlain id with work := .move true false }
def xMove : Task := { mkTask (sMove 8 []) checkPlain id with work := .move true false }
def xStage : Task := mkTask sStage checkStage id
def xChain : Task := mkTask sChainF checkChain id
def cmdBits (op part : Nat) (l : List (Nat × Nat)) : List (Nat × Nat) := [(0, 0x66), (36, op), (44, part)] ++ l
def sCmd (s : State) (f : Func) (l : List (Nat × Nat)) : State := withEntry s f 3 (entryOf l)
/-- The state with the front entry of ring 3 taken. -/
def tk (s : State) (f : Func) : State := takeEntry { s with heldAt := none } f 3
def fe (s : State) (f : Func) : Entry := ((ringOf s f 3).fetched.head?.map (·.1)).getD 0

/-! ### Results as values -/

/-- The result of an access, or a default. -/
def okV {α : Type} (d : α) (r : Except AccErr α) : α :=
  match r with
  | .ok x => x
  | .error _ => d

/-- Whether an access succeeds. -/
def okB {ε α : Type} : Except ε α → Bool
  | .ok _ => true
  | .error _ => false

/-- What a successful access answers. -/
def okGet {ε α : Type} : (r : Except ε α) → okB r = true → α
  | .ok x, _ => x

/-- The error of a failing one. -/
def errGet {ε α : Type} : (r : Except ε α) → okB r = false → ε
  | .error e, _ => e

theorem ok_eq {ε α : Type} {r : Except ε α} (h : okB r = true) : r = .ok (okGet r h) := by
  cases r with
  | ok x => rfl
  | error e => exact absurd h (by simp [okB])

theorem error_eq {ε α : Type} {r : Except ε α} (h : okB r = false) : r = .error (errGet r h) := by
  cases r with
  | ok x => exact absurd h (by simp [okB])
  | error e => rfl

theorem ok_eq2 {ε α : Type} {r : Except ε α} {x : α} (h : okB r = true) (e : okGet r h = x) : r = .ok x :=
  (ok_eq h).trans (congrArg Except.ok e)

theorem error_eq2 {ε α : Type} {r : Except ε α} {x : ε} (h : okB r = false) (e : errGet r h = x) : r = .error x :=
  (error_eq h).trans (congrArg Except.error e)

/-- The edition of a judgement that accepts. -/
def acceptB : Verdict → Bool
  | .accept _ => true
  | _ => false

def acceptGet : (v : Verdict) → acceptB v = true → Edition
  | .accept e, _ => e

theorem accept_eq {v : Verdict} (h : acceptB v = true) : v = .accept (acceptGet v h) := by
  cases v with
  | accept e => rfl
  | _ => exact absurd h (by simp [acceptB])

theorem some_eq {α : Type} {o : Option α} (h : o.isSome = true) : o = some (o.get h) := (Option.some_get h).symm

theorem some_eq2 {α β : Type} {o : Option (α × β)} (h : o.isSome = true) : o = some ((o.get h).1, (o.get h).2) := some_eq h

theorem some_eq3 {α β γ : Type} {o : Option (α × β × γ)} (h : o.isSome = true) :
    o = some ((o.get h).1, (o.get h).2.1, (o.get h).2.2) := some_eq h

theorem pair_eta {α β : Type} {q : α × β} : q = (q.1, q.2) := rfl

theorem pair_snd {α β : Type} {q : α × β} {y : β} (h : q.2 = y) : q = (q.1, y) := Prod.ext rfl h

theorem pair_some {α β : Type} {q : α × Option β} (h : q.2.isSome = true) : q = (q.1, some (q.2.get h)) :=
  pair_snd (some_eq h)

theorem pair_accept {β : Type} {q : β × Verdict} (h : acceptB q.2 = true) : q = (q.1, .accept (acceptGet q.2 h)) :=
  pair_snd (accept_eq h)

theorem all_some {α : Type} {o : Option α} {p : α → Prop} [DecidablePred p] (h : (o.all fun a => decide (p a)) = true) :
    ∀ a, o = some a → p a := by
  intro a e
  rw [e] at h
  exact of_decide_eq_true h

theorem pair_unit {β ε : Type} {q : β × Except ε Unit} (h : okB q.2 = true) : q = (q.1, .ok ()) := pair_snd (ok_eq h)

/-- The first element of a list that has one. -/
def headOf {α : Type} : (l : List α) → l.isEmpty = false → α
  | x :: _, _ => x

theorem cons_eq {α : Type} {l : List α} (h : l.isEmpty = false) : l = headOf l h :: l.tail := by
  cases l with
  | nil => cases h
  | cons x t => rfl

theorem cons_pair_eq {α β : Type} {l : List (α × β)} (h : l.isEmpty = false) :
    l = ((headOf l h).1, (headOf l h).2) :: l.tail := cons_eq h

theorem one_eq {α : Type} {l : List α} (h : l.length = 1) : l = [headOf l (by cases l <;> first | rfl | cases h)] := by
  match l, h with
  | [x], _ => rfl

theorem mem_at {α : Type} {l : List α} (n : Nat) (h : l[n]?.isSome = true) : l[n]?.get h ∈ l :=
  List.mem_of_getElem? (Option.some_get h).symm

/-- The work of a stage, a loop task, a chain. -/
def stageOf (w : Work) : StageWork :=
  match w with
  | .stage x => x
  | _ => { runs := [] }

def loopOf (w : Work) : LoopWork :=
  match w with
  | .loop x => x
  | _ => { bucket := 0 }

theorem stage_eq {w : Work} (h : (match w with | .stage _ => true | _ => false) = true) : w = .stage (stageOf w) := by
  cases w <;> first | rfl | cases h

theorem loop_eq {w : Work} (h : (match w with | .loop _ => true | _ => false) = true) : w = .loop (loopOf w) := by
  cases w <;> first | rfl | cases h

theorem pair_ok {β ε α : Type} {q : β × Except ε α} (h : okB q.2 = true) : q = (q.1, .ok (okGet q.2 h)) :=
  Prod.ext rfl (ok_eq h)

theorem pair_ok_pair {β ε α γ : Type} {q : β × Except ε (α × γ)} (h : okB q.2 = true) :
    q = (q.1, .ok ((okGet q.2 h).1, (okGet q.2 h).2)) := Prod.ext rfl (ok_eq h)

theorem pair_error {β ε α : Type} {q : β × Except ε α} (h : okB q.2 = false) : q = (q.1, .error (errGet q.2 h)) :=
  Prod.ext rfl (error_eq h)

theorem pair_none {β α : Type} {q : β × Option α} (h : q.2.isNone = true) : q = (q.1, none) :=
  Prod.ext rfl (Option.isNone_iff_eq_none.mp h)

theorem triple_none {β γ α : Type} {q : β × γ × Option α} (h : q.2.2.isNone = true) : q = (q.1, q.2.1, none) :=
  Prod.ext rfl (Prod.ext rfl (Option.isNone_iff_eq_none.mp h))

/-- The next state of an outcome, where it is one. -/
def nx (o : Host.Outcome State Fault Refusal) : State :=
  match o with
  | .next s => s
  | _ => State.reset

/-- Whether an outcome is a next state. -/
def isNext : Host.Outcome State Fault Refusal → Bool
  | .next _ => true
  | _ => false

theorem next_eq {o : Host.Outcome State Fault Refusal} (h : isNext o = true) : o = .next (nx o) := by
  cases o <;> first | rfl | exact absurd h (by simp [isNext])

theorem not_stopping {x : TaskStatus} (h : (match x with | .stopping _ => true | _ => false) = false) :
    ∀ d, x ≠ .stopping d := by
  intro d e
  rw [e] at h
  simp at h

/-- Whether the front entry of a ring passes the issue check of its kind. -/
def issuesB (s : State) (f : Func) (r kind sub : Nat) (k : KindCheck) : Bool :=
  match readyEntry s f r with
  | none => false
  | some (e, h) =>
    let t := newTask { s with heldAt := none } f r e h
    let a : State := { takeEntry { s with heldAt := none } f r with nextTask := s.nextTask + 1 }
    decide (entryKind e = kind ∧ kind ≠ 0 ∧ hSub e = sub ∧ f ≠ .pf0) && (commonFault a t).isNone && okB (k a t).2

theorem issues_of {s : State} {f : Func} {r kind sub : Nat} {k : KindCheck} (h : issuesB s f r kind sub k = true) :
    Issues s f r kind sub k (issueP s f r k) (issueX s f r k) := by
  unfold issuesB at h
  unfold Issues issueP issueX
  split at h
  · cases h
  · rename_i e n heq
    simp only [Bool.and_eq_true, decide_eq_true_eq, Option.isNone_iff_eq_none] at h
    simp only [heq]
    refine ⟨e, n, rfl, h.1.1.1, h.1.1.2.1, h.1.1.2.2.1, h.1.1.2.2.2, h.1.2, ?_⟩
    revert h
    generalize k _ _ = q
    intro h
    obtain ⟨a, b⟩ := q
    cases b with
    | ok x => rfl
    | error e => exact absurd h.2 (by simp [okB])

theorem begins_of {s : State} {f : Func} {r op : Nat} {e : Entry} {h : Nat}
    (g : (f ≠ .pf0 ∨ s.hif.orphans = []) ∧ readyEntry s f r = some (e, h) ∧ entryKind e = 0 ∧ cmdOp e = op ∧ 1 ≤ op ∧ op ≤ 8) :
    Begins s f r op (takeEntry { s with heldAt := none } f r) e h := ⟨rfl, g⟩

theorem performs_of {s : State} {f : Func} {r op : Nat} {e : Entry} {h : Nat}
    (g : (f ≠ .pf0 ∨ s.hif.orphans = []) ∧ readyEntry s f r = some (e, h) ∧ entryKind e = 0 ∧ cmdOp e = op ∧ 1 ≤ op ∧ op ≤ 8)
    (k : commandFault (takeEntry { s with heldAt := none } f r) f r e = none) :
    Performs s f r op (takeEntry { s with heldAt := none } f r) e h := ⟨begins_of g, k⟩

theorem path_can {s : State} (h : s.cst.queue = [] ∧ s.power.inputPower = true) : PathFree s .can := h

theorem path_mailbox {s : State}
    (h : s.cst.queue = [] ∧ hostReaches s .pf0 = true ∧ s.hif.mbx.busy = false ∧ Table.canonical 0 s.hif.mbx.req = true) :
    PathFree s .mailbox := h

/-- The states of a CRC after every 16 bytes are the ones listed. -/
def crcPath (poly : Nat) : Nat → List Byte → List Nat → Bool
  | _, bs, [] => bs.isEmpty
  | c, bs, n :: ns =>
    (bs.take 16).foldl (fun c b => crcByte poly 8 (c ^^^ b.toNat)) c == n && crcPath poly n (bs.drop 16) ns

theorem crcPath_end (poly : Nat) : ∀ (ns : List Nat) (c : Nat) (bs : List Byte), crcPath poly c bs ns = true →
    bs.foldl (fun c b => crcByte poly 8 (c ^^^ b.toNat)) c = ns.getLastD c
  | [], c, bs, h => by
    have h : bs = [] := by simpa [crcPath] using h
    subst h
    rfl
  | n :: ns, c, bs, h => by
    simp only [crcPath, Bool.and_eq_true, beq_iff_eq] at h
    conv => lhs; rw [← List.take_append_drop 16 bs]
    rw [List.foldl_append, h.1, crcPath_end poly ns n _ h.2]
    cases ns <;> rfl

theorem crcGood_of_path {x : Flit} (ns : List Nat)
    (h : crcPath 0xEDB88320 0xFFFFFFFF (flitCrcInput x.toNat) ns = true)
    (e : ns.getLastD 0xFFFFFFFF ^^^ 0xFFFFFFFF = flitField x 127 96) : crcGood x = true := by
  unfold crcGood flitCrc crcOf
  rw [crcPath_end _ ns _ _ h, e]
  exact beq_self_eq_true _
/-! ### A compressed page

The page is four bytes 0xFF and zeros; its CRC-32C state is 0 after the fourth byte and stays so. -/

/-- n equal bytes. -/
def run (n : Nat) (b : Byte) : List Byte := List.replicate n b

theorem run_succ (n : Nat) (b : Byte) : run (n + 1) b = b :: run n b := rfl

theorem run_length (n : Nat) (b : Byte) : (run n b).length = n := List.length_replicate

/-- The LZ4 block: five literals, a match of 65,526 bytes at offset 1, five literals. -/
def imgBlock : List Byte :=
  0x5F :: 0xFF :: 0xFF :: 0xFF :: 0xFF :: 0 :: 1 :: 0 :: (run 256 0xFF ++ 227 :: [0x50, 0, 0, 0, 0, 0])

/-- The image's header: one sector, codec 0, CLEN 271. -/
def imgHead : Nat := word [(0, 0xC7F5), (20, 1), (32, 271), (64, 0xFFFFFFFF)]

def imgBytes : List Byte := leBytes 64 imgHead ++ imgBlock

def pageOfRun (n : Nat) : List Byte := 0xFF :: 0xFF :: 0xFF :: 0xFF :: 0 :: (run n 0 ++ [0, 0, 0, 0, 0])

def imgPage : List Byte := pageOfRun (15 + 255 * 256 + 227 + 4)

theorem lz4Len_run (b : Byte) (bs : List Byte) (hb : b.toNat ≠ 255) :
    ∀ k n, lz4Len (run k 0xFF ++ b :: bs) n = some (n + 255 * k + b.toNat, bs)
  | 0, n => by simp [run, lz4Len, hb]
  | k + 1, n => by
    simp only [run_succ, List.cons_append, lz4Len]
    rw [if_pos (by decide), lz4Len_run b bs hb k]
    congr 2
    omega

theorem lz4Copy_run : ∀ n (o : Array Byte), o.getD (o.size - 1) 0 = 0 → (lz4Copy 1 n o).toList = o.toList ++ run n 0
  | 0, o, _ => by simp [lz4Copy, run]
  | n + 1, o, h => by
    rw [lz4Copy, h, lz4Copy_run n _ (by simp [Array.getD])]
    simp [run_succ]

theorem crcByte_zero (poly : Nat) : ∀ n, crcByte poly n 0 = 0
  | 0 => rfl
  | n + 1 => crcByte_zero poly n

theorem crc_zeros (poly : Nat) : ∀ n : Nat, (run n 0).foldl (fun c b => crcByte poly 8 (c ^^^ b.toNat)) 0 = 0
  | 0 => rfl
  | n + 1 => by
    rw [run_succ, List.foldl_cons, show (0 : Nat) ^^^ (0 : Byte).toNat = 0 from rfl, crcByte_zero]
    exact crc_zeros poly n

theorem pageOfRun_crc (n : Nat) : crc32c (pageOfRun n) = 0xFFFFFFFF := by
  have e : pageOfRun n = [0xFF, 0xFF, 0xFF, 0xFF, 0] ++ (run n 0 ++ [0, 0, 0, 0, 0]) := rfl
  have h : ([0xFF, 0xFF, 0xFF, 0xFF, 0] : List Byte).foldl (fun c b => crcByte 0x82F63B78 8 (c ^^^ b.toNat)) 0xFFFFFFFF = 0 := by
    decide +kernel
  unfold crc32c crcOf
  rw [e, List.foldl_append, h, List.foldl_append, crc_zeros]
  decide +kernel

theorem pageOfRun_length (n : Nat) : (pageOfRun n).length = n + 10 := by
  simp only [pageOfRun, List.length_cons, List.length_append, run_length, List.length_nil]

theorem lz4_first (f k : Nat) (tail : List Byte) (h : 255 * k + 251 ≤ 65536) :
    lz4Decode (f + 1) (0x5F :: 0xFF :: 0xFF :: 0xFF :: 0xFF :: 0 :: 1 :: 0 :: (run k 0xFF ++ 227 :: tail)) #[] =
      lz4Decode f tail (lz4Copy 1 (15 + 255 * k + 227 + 4) #[0xFF, 0xFF, 0xFF, 0xFF, 0]) := by
  rw [lz4Decode]
  simp only [show (0x5F : Byte).toNat / 16 = 5 from rfl, show (0x5F : Byte).toNat % 16 = 15 from rfl]
  simp only [reduceIte, show ¬ (5 : Nat) = 15 by decide]
  rw [if_neg (by simp)]
  simp only [List.drop_succ_cons, List.drop_zero]
  rw [lz4Len_run 227 tail (by decide)]
  simp only [show (1 : Byte).toNat + 256 * (0 : Byte).toNat = 1 from rfl, show (227 : Byte).toNat = 227 from rfl]
  rw [if_neg (by simp; omega)]
  rfl

theorem lz4_last (f : Nat) (o : Array Byte) (h : o.size ≤ 65531) :
    lz4Decode (f + 1) [0x50, 0, 0, 0, 0, 0] o = some (o ++ #[0, 0, 0, 0, 0]) := by
  rw [lz4Decode]
  simp only [show (0x50 : Byte).toNat / 16 = 5 from rfl]
  simp
  exact ⟨h, Array.ext' (by simp)⟩

theorem img_out (o : Array Byte) (n : Nat) (h : o.toList = pageOfRun n) (e : n + 10 = 65536) :
    (if o.size ≠ 65536 then none else
      let page := if (0 : Nat) = 0 then o.toList else unshuffle (2 ^ 0) o
      if crc32c page = 0xFFFFFFFF then some page else none) = some (pageOfRun n) := by
  rw [if_neg (by rw [← Array.length_toList, h, pageOfRun_length]; simpa using e)]
  simp only [if_true, h, pageOfRun_crc]

theorem img_block (k n : Nat) (tail : List Byte) (e : tail = [0x50, 0, 0, 0, 0, 0]) (h : 255 * k + 251 ≤ 65536)
    (hn : 15 + 255 * k + 227 + 4 = n) (b : n ≤ 65526) :
    ∃ o, lz4Decode 272 (0x5F :: 0xFF :: 0xFF :: 0xFF :: 0xFF :: 0 :: 1 :: 0 :: (run k 0xFF ++ 227 :: tail)) #[] = some o ∧
      o.toList = pageOfRun n := by
  have l := lz4Copy_run n #[0xFF, 0xFF, 0xFF, 0xFF, 0] rfl
  refine ⟨lz4Copy 1 n #[0xFF, 0xFF, 0xFF, 0xFF, 0] ++ #[0, 0, 0, 0, 0], ?_, ?_⟩
  · rw [lz4_first 271 k tail h, hn, e]
    exact lz4_last 270 _ (by
      rw [← Array.length_toList, l]; simp only [List.length_append, run_length, List.length_cons, List.length_nil]; omega)
  · rw [Array.toList_append, l]
    rfl

theorem img_decodes {img : List Byte} (h : at8 img 0 64 = imgHead) (b : (img.drop 64).take 271 = imgBlock) :
    decodeImage img = some imgPage := by
  obtain ⟨o, e, t⟩ := img_block 256 _ _ rfl (by decide) rfl (by decide)
  unfold decodeImage
  simp only [h, b, show bits imgHead 15 0 = 0xC7F5 by decide +kernel, show bits imgHead 19 16 = 0 by decide +kernel,
    show bits imgHead 23 20 = 1 by decide +kernel, show bits imgHead 63 32 = 271 by decide +kernel,
    show bits imgHead 95 64 = 0xFFFFFFFF by decide +kernel]
  rw [if_neg (by decide), imgBlock, show 271 + 1 = 272 from rfl, e]
  exact img_out o _ t rfl

/-- Whether a successful access answers something with a property. -/
def okWith {ε α : Type} (p : α → Bool) : Except ε α → Bool
  | .ok x => p x
  | .error _ => false

theorem okWith_ok {ε α : Type} {p : α → Bool} {r : Except ε α} (h : okWith p r = true) : ∃ x, r = .ok x ∧ p x = true := by
  cases r with
  | ok x => exact ⟨x, rfl, h⟩
  | error e => cases h

/-- Whether bytes begin with the image. -/
def isImage (img : List Byte) : Bool :=
  decide (at8 img 0 64 = imgHead) && decide ((img.drop 64).take 271 = imgBlock)

theorem isImage_decodes {img : List Byte} (h : isImage img = true) : decodeImage img = some imgPage := by
  simp only [isImage, Bool.and_eq_true, decide_eq_true_eq] at h
  exact img_decodes h.1 h.2

theorem readCompressed_image {s : State} {c : Ctx} {va a : Nat} (h : okWith isImage (readImage s c va a) = true) :
    readCompressed s c va a = .ok imgPage := by
  obtain ⟨x, e, k⟩ := okWith_ok h
  simp only [readCompressed, e, isImage_decodes k]

/-- The state after the header and the image of a page have been read. -/
def imageRead (s : State) (c : Ctx) (va : Nat) : State := (loadVa (loadVa s c va 64).1 c va 4096).1

theorem decompressSource_image {s : State} {c : Ctx} {va : Nat}
    (t : okWith (fun x => decide (leafTier x.leaf ≠ 3)) (translate s c va false) = true)
    (h : okWith (fun h => decide (imageSectors h = 1)) (loadVa s c va 64).2 = true)
    (g : okWith isImage (loadVa (loadVa s c va 64).1 c va 4096).2 = true) :
    decompressSource s c va = (imageRead s c va, .ok imgPage) := by
  obtain ⟨x, e, k⟩ := okWith_ok t
  obtain ⟨y, f, l⟩ := okWith_ok h
  obtain ⟨z, j, m⟩ := okWith_ok g
  simp only [decide_eq_true_eq] at k l
  unfold decompressSource
  simp only [e, if_neg k]
  rw [show loadVa s c va 64 = ((loadVa s c va 64).1, .ok y) from Prod.ext rfl f]
  simp only [andThen, l, Nat.one_mul]
  rw [show loadVa (loadVa s c va 64).1 c va 4096 = (imageRead s c va, .ok z) from Prod.ext rfl j]
  simp only [isImage_decodes m]

theorem imgPage_length : imgPage.length = 65536 := pageOfRun_length _

/-- The state and error of writing the page. -/
theorem saveVa_image {s : State} {c : Ctx} {va : Nat} (h : (savePieces s c va imgPage (pagesOf va 65536)).2.isNone = true) :
    (saveVa s c va imgPage).2 = none := by
  unfold saveVa
  rw [imgPage_length]
  exact Option.isNone_iff_eq_none.mp h

/-! ### Queue, counters, events, doorbells and rings -/

namespace G01

def r0 := ring up (.vf 0) 3 onRing
def rW := ring up (.vf 0) 3 { onRing with home := .w1 }
def rWd := ring { ccDown with cc := { ccDown.cc with doorbells := [(67, true, 9), (67, false, 2), (0, true, 1)] } } (.vf 0) 3 { onRing with home := .w1 }
def rRes := { r0 with hif := { r0.hif with resetting := 1 } }
def rOff := ring up (.vf 0) 3 { onRing with enabled := false, enable := false }
def rBad := ring up (.vf 0) 3 { onRing with enabled := false, enable := false, sqBase := 0x10001 }
def rDr := ring up (.vf 0) 3 { onRing with enable := false }
def cmdE (op : Nat) : Entry := BitVec.ofNat 512 0

theorem witness_StepRunsFront :
    ∃ (s : State) (c : Instr) (rest : List Instr), s.pending = c :: rest :=
  ⟨{up with pending := [.timetableTick .east, .stallCheck .east]}, .timetableTick .east, [.stallCheck .east],
      by decide +kernel⟩

theorem witness_CounterSaturates :
    (∃ (s : State) (block : Nat) (off : Nat) (n : Nat), block < 25 ∧ (¬ (block = blkHif ∧ off = offEvLost)) ∧
        1 ≤ n ∧ ((ctr s block off).toNat < 2 ^ 64 - 1 ∧ 2 ^ 64 - 1 ≤ (ctr s block off).toNat + n))
    ∧ (∃ (s : State) (block : Nat) (off : Nat) (n : Nat), block < 25 ∧ (¬ (block = blkHif ∧ off = offEvLost)) ∧
        1 ≤ n ∧ (¬ ((ctr s block off).toNat < 2 ^ 64 - 1 ∧ 2 ^ 64 - 1 ≤ (ctr s block off).toNat + n))) :=
  ⟨⟨setCtrTable up 3 [(0x120, BitVec.ofNat 64 (2^64-3))], 3, 0x120, 2, by and_intros <;> decide +kernel⟩,
    ⟨up, 0, 0x120, 1, by and_intros <;> decide +kernel⟩⟩

theorem witness_EventRecorded :
    (∃ (s : State) (ev : Nat) (data : Nat) (block : Nat) (part : Nat),
        (blockWing block = .east ∨ concourseUp s = true) ∧ s.hif.logs.evqEnable = true ∧
        evqHeld s.hif.logs < 2 ^ s.hif.logs.evqSize - 1 ∧ evqHeld s.hif.logs = 0 ∧
        (msixMasked (pageOf s .pf0) 0 = true ∨ (pageOf s .pf0).busMaster = false))
    ∧ (∃ (s : State) (ev : Nat) (data : Nat) (block : Nat) (part : Nat),
        (blockWing block = .east ∨ concourseUp s = true) ∧
        (s.hif.logs.evqEnable = false ∨ 2 ^ s.hif.logs.evqSize - 1 ≤ evqHeld s.hif.logs) ∧
        (ctr s blkHif offEvLost).toNat + 1 < 2 ^ 64 - 1) :=
  ⟨⟨evq up, 0x201, 5, 0, 3, by and_intros <;> decide +kernel⟩,
    ⟨up, 0x201, 5, 0, 3, by and_intros <;> decide +kernel⟩⟩

theorem witness_DoorbellAccepted :
    ∃ (f : Func) (r : Fin 64) (v : Word32) (s : State), hostReaches s f = true ∧ hasRing f r.val = true ∧
        funcResetting s f = false ∧ (wingOf (ringOf s f r.val).home = .east ∨ concourseUp s = true) ∧
        (ringOf s f r.val).enabled = true ∧ v.toNat < 4096 ∧ v.toNat < ringSize (ringOf s f r.val) :=
  ⟨.vf 0, 3, 0, r0, by and_intros <;> decide +kernel⟩

theorem witness_DoorbellNotAccepted :
    (∃ (f : Func) (r : Fin 64) (v : Word32) (s : State), hostReaches s f = true ∧ hasRing f r.val = true ∧
        funcResetting s f = true)
    ∧ (∃ (f : Func) (r : Fin 64) (v : Word32) (s : State), hostReaches s f = true ∧ hasRing f r.val = true ∧
        funcResetting s f = false ∧ (wingOf (ringOf s f r.val).home = .east ∨ concourseUp s = true) ∧
        (4096 ≤ v.toNat ∨ ringSize (ringOf s f r.val) ≤ v.toNat ∨ (ringOf s f r.val).enabled = false))
    ∧ (∃ (f : Func) (r : Fin 64) (v : Word32) (s : State), hostReaches s f = true ∧ hasRing f r.val = true ∧
        funcResetting s f = false ∧ wingOf (ringOf s f r.val).home = .west ∧ concourseUp s = false) :=
  ⟨⟨.vf 0, 3, 0, rRes, by and_intros <;> decide +kernel⟩,
    ⟨.vf 0, 3, 0, rOff, by and_intros <;> decide +kernel⟩,
    ⟨.vf 0, 3, 0, rWd, by and_intros <;> decide +kernel⟩⟩

theorem witness_RingEnabled :
    ∃ (f : Func) (r : Fin 64) (cfg : Word32) (s : State), hostReaches s f = true ∧ hasRing f r.val = true ∧
        (ringOf s f r.val).enabled = false ∧ 4 ≤ fld cfg 19 16 ∧ fld cfg 19 16 ≤ 12 ∧
        (ringOf s f r.val).sqBase.toNat % 4096 = 0 ∧ (ringOf s f r.val).cqBase.toNat % 4096 = 0 ∧
        funcResetting s f = false ∧ ∃ (g : Func) (q : Nat), ringKey g q ≠ ringKey f r.val :=
  ⟨.vf 0, 3, 0x40001, rOff, by decide +kernel, by decide +kernel, by decide +kernel, by decide +kernel,
      by decide +kernel, by decide +kernel, by decide +kernel, by decide +kernel, .vf 0, 2, by decide +kernel⟩

theorem witness_RingEnableRefused :
    (∃ (f : Func) (r : Fin 64) (cfg : Word32) (s : State), hostReaches s f = true ∧ hasRing f r.val = true ∧
        (ringOf s f r.val).enabled = false ∧
        (fld cfg 19 16 < 4 ∨ 12 < fld cfg 19 16 ∨ (ringOf s f r.val).sqBase.toNat % 4096 ≠ 0 ∨ (ringOf s f r.val).cqBase.toNat % 4096 ≠ 0 ∨ funcResetting s f = true))
    ∧ (∃ (f : Func) (r : Fin 64) (cfg : Word32) (s : State), hostReaches s f = true ∧ hasRing f r.val = true ∧
        (ringOf s f r.val).enabled = true ∧ (ringOf s f r.val).enable = false)
    ∧ (∃ (f : Func) (r : Fin 64) (cfg : Word32) (s : State), hostReaches s f = true ∧ hasRing f r.val = true ∧
        (ringOf s f r.val).enabled = true ∧ (ringOf s f r.val).enable = true) :=
  ⟨⟨.vf 0, 3, 0x40001, rBad, by and_intros <;> decide +kernel⟩,
    ⟨.vf 0, 3, 0x40001, rDr, by and_intros <;> decide +kernel⟩,
    ⟨.vf 0, 3, 0x40001, r0, by and_intros <;> decide +kernel⟩⟩

theorem witness_RingDisabledAndDrained :
    (∃ (f : Func) (r : Fin 64) (cfg : Word32) (s : State), hostReaches s f = true ∧ hasRing f r.val = true ∧
        (ringOf s f r.val).enabled = true)
    ∧ (∃ (f : Func) (r : Fin 64) (cfg : Word32) (s : State), (ringOf s f r.val).enabled = true ∧
        (ringOf s f r.val).enable = false ∧ (ringOf s f r.val).open_ = 0 ∧ (ringOf s f r.val).heldEntries = []) :=
  ⟨⟨.vf 0, 3, 0x40001, r0, by and_intros <;> decide +kernel⟩,
    ⟨.vf 0, 3, 0x40001, rDr, by and_intros <;> decide +kernel⟩⟩

theorem witness_SubmissionEntryFetched :
    ∃ (f : Func) (r : Fin 64) (entry : Entry) (s : State), mayFetch s f r.val = true ∧
        (entryKind entry = 0 ∨ heldCount s (ringOf s f r.val).home < 512) ∧
        (((ringOf s f r.val).fetched.map Prod.fst ++ [entry]).head?.all fun x => !nameless x) = true :=
  ⟨.vf 0, 3, entryOf [(36,1)], r0, by and_intros <;> decide +kernel⟩

theorem witness_RingStops :
    ∃ (f : Func) (r : Fin 64) (s : State), mayFetch s f r.val = true ∧ (ringOf s f r.val).enabled = true ∧
        ((ringOf s f r.val).error = false ∨ (ringOf s f r.val).errKind ≠ 2) :=
  ⟨.vf 0, 3, r0, by and_intros <;> decide +kernel⟩

theorem witness_CoalescedMessage :
    ∃ (f : Func) (r : Fin 64) (s : State), (ringOf s f r.val).irqEn = true ∧ (ringOf s f r.val).coalDelay ≠ 0 ∧
        (ringOf s f r.val).unsignalled ≠ 0 ∧ (wingOf (ringOf s f r.val).home = .east ∨ concourseUp s = true) :=
  ⟨.vf 0, 3, ring up (.vf 0) 3 {onRing with irqEn := true, coalDelay := 4, unsignalled := 1, vector := 2},
      by and_intros <;> decide +kernel⟩

theorem witness_MessageSentOrPending :
    (∃ (s : State) (f : Func) (v : Nat), msixSize f ≤ v)
    ∧ (∃ (s : State) (f : Func) (v : Nat), v < msixSize f ∧ msixMasked (pageOf s f) v = false ∧
        (pageOf s f).busMaster = true)
    ∧ (∃ (s : State) (f : Func) (v : Nat), v < msixSize f ∧
        (msixMasked (pageOf s f) v = true ∨ (pageOf s f).busMaster = false)) :=
  ⟨⟨r0, .vf 0, 120, by decide +kernel⟩,
    ⟨r0.modPage (.vf 0) fun p => {p with msix := [(11,0)]}, .vf 0, 2, by and_intros <;> decide +kernel⟩,
    ⟨r0, .vf 0, 2, by decide +kernel, by decide +kernel⟩⟩

theorem witness_InvariantKept : ∃ s t : State, Inv s ∧ step s = .next t :=
  ⟨{ up with pending := [.concourseDown] }, _, ⟨by decide +kernel, by unfold TasksNumbered; decide +kernel⟩,
      next_eq (by decide +kernel)⟩

end G01

/-! ### Issue and moves -/

namespace G02

def fe (kind sub : Nat) (l : List (Nat × Nat)) : Entry := entryOf (hdrBits kind sub ++ l)
def sFail (f : Func) (l : List (Nat × Nat)) : State := withEntry (world up) f 3 (entryOf l)
def noBank : List (Nat × Nat) := [(0, 0x77), (32, 1), (97, 1), (106, 45), (118, 1), (123, 1), (128, 0x1000), (192,
    0x2000)]
def noCore : List (Nat × Nat) := [(0, 0x77), (32, 1), (97, 1), (106, 16), (118, 17), (123, 1), (128, 0x1000), (192,
    0x2000)]
def retired0 : State := (sFail (.vf 0) (hdrBits 1 0)).modSch .e0 fun x => { x with coreState := [(0, 2)] }
def args (src dst cnt : Nat) : List (Nat × Nat) := [(320, src), (368, dst), (416, cnt)]
def mp (s : State) (k : KindCheck) := issueP s (.vf 0) 3 k
def mx (s : State) (k : KindCheck) := issueX s (.vf 0) 3 k
def accA (s : State) (k : KindCheck) := acceptTask (mp s k) (mx s k)
def accC (s : State) (k : KindCheck) := taskCtx (accA s k) (mx s k)
def sCopy : State := put (sMove 0 (args 0x10000 0x11000 64)) 0x10000 64 0x1234567800112233
def cmpTlb : TlbEntry := { part := 0, va := 0, size := 0x40000000, leaf := word [(0, sm), (6, 2), (3, 1), (2, 1)] }
def sComp : State := { (sMove 3 (args 0x10000 0x40000 0)) with tmem := up.tmem.map fun _ m => { m with tlb := [cmpTlb] } }
def sCopyO : State := put (sMove 0 (args 0x10000 0x10010 64)) 0x10000 64 0x1234567800112233
def sCopyF : State := put (sMove 0 (args 0x10000 0x40000000 64)) 0x10000 64 0x1234567800112233
def sCopyR : State := { sCopy with poison := [(sm + 0x10000) / 64] }
def sDec (d : Nat) : State := writePa (sMove 4 (args 0x10000 d 0)) (sm + 0x10000) imgBytes
def winTlb (tier : Nat) : TlbEntry := { part := 0, va := 0, size := 0x40000000, leaf := word [(0, sm), (6, 2), (3, 1), (4, tier)] }
def tier (s : State) (n : Nat) : State := { s with tmem := up.tmem.map fun _ m => { m with tlb := [winTlb n] } }
def sMig : State := tier (sMove 1 (args 0x10000 0 0x10000)) 1
def migY (s : State) (k : KindCheck) : Xlat := okV ⟨0,0,0,0⟩ (translate (accA s k) (accC s k) 0x10000 false)
def sMig0 : State := sMove 1 (args 0x10000 0 1)
def sMigR : State := sMig.modMem .e0 fun m => { m with frames := [(0, { owner := 0, kind := .demand, page := (sm + 0x10000) / 0x10000, valid := true, dirty := 3 })] }
def sFl : State := (tier (sMove 2 (args 0x10000 0 0x10000)) 1).modMem .e0 fun m => { m with frames := [(0, { owner := 0, kind := .demand, page := (sm + 0x10000) / 0x10000, valid := true, dirty := 3 })] }
def sFl0 : State := tier (sMove 2 (args 0x10000 0 0x10000)) 1
def sMigP : State := sMig.modMem .e0 fun m => { m with frames := (List.range 8).map fun i => (i, { owner := 0, kind := .demand, page := 7000 + i, pins := 1, filling := true }) }
def sLd (n : Nat) : State := tier (sMove 5 [(320, 0x20000), (448, 7), (480, 3), (492, n)]) 2
def sLdWait : State := (sLd 8).modMem .e0 fun m => { m with frames := [(0, { owner := 0, kind := .stream, page := 77, valid := true, seg := some (1,1) })] }
def sRel : State := sMove 6 [(448, 7), (480, 3)]
def sSchS : State := sMove 7 [(320, 0x8000), (416, 4), (432, 2)]
def sSchX : State := (sMove 8 []).modMem .e0 fun m => { m with sched := [(0, { table := 0x8000, count := 4, depth := 2 })] }
def sLdH (n : Nat) : State := tier (sMove 5 [(320, 0x20000), (448, 7), (480, 3), (492, n), (504, 1)]) 2
def sLdHW : State := (sLdH 8).modMem .e0 fun m => { m with frames := [(0, { owner := 0, kind := .stream, page := 77, valid := true, seg := some (1,1) })] }
def xDone (c : BitVec 16) : Task := { xMove with status := .stopping c }
def wRun : State := withTask sLoop (run1 { xLoop with work := match xLoop.work with | .loop l => .loop { l with walks := [(0, { first := 0, units := 1, done := true })] } | w => w })

theorem witness_TaskIssued :
    ∃ (s : State) (f : Func) (r : Fin 64) (row : Instr × Nat × Nat × KindCheck) (p : State) (x : Task),
        row ∈ [(Instr.loopTask f r, 1, 0, checkLoop), (.chainTaskForward f r, 2, 0, checkChain),
        (.chainTaskBackward f r, 2, 1, checkChain), (.streamStage f r, 3, 0, checkStage),
        (.collectiveBroadcast f r, 4, 0, checkColl), (.collectiveReduce f r, 4, 1, checkColl),
        (.catalogueQuery f r, 5, 0, checkCat), (.catalogueMerge f r, 5, 1, checkCat)] ∧ memCanonical s.mem = true ∧
        Issues s f r.val row.2.1 row.2.2.1 row.2.2.2 p x ∧ x.zeroWork = false ∧ ∃ (g : Func) (q : Nat),
        ringKey g q ≠ ringKey f r.val :=
  ⟨sLoop, .vf 0, 3, (Instr.loopTask (.vf 0) 3, 1, 0, checkLoop), issueP sLoop (.vf 0) 3 checkLoop,
      issueX sLoop (.vf 0) 3 checkLoop, by simp, by decide +kernel, issues_of (by decide +kernel),
      by decide +kernel, .vf 0, 4, by decide +kernel⟩

theorem witness_ZeroWorkEndsAtIssue :
    ∃ (s : State) (f : Func) (r : Fin 64) (row : Instr × Nat × Nat × KindCheck) (p : State) (x : Task),
        row ∈ [(Instr.loopTask f r, 1, 0, checkLoop), (.chainTaskForward f r, 2, 0, checkChain),
        (.chainTaskBackward f r, 2, 1, checkChain), (.streamStage f r, 3, 0, checkStage)] ∧
        Issues s f r.val row.2.1 row.2.2.1 row.2.2.2 p x ∧ x.zeroWork = true ∧
        (finishTask (addCtr p (blkSch x.home) 0x0128) x 0).heldAt = none :=
  ⟨sLoopZero, .vf 0, 3, (Instr.loopTask (.vf 0) 3, 1, 0, checkLoop), issueP sLoopZero (.vf 0) 3 checkLoop,
      issueX sLoopZero (.vf 0) 3 checkLoop, by simp, issues_of (by decide +kernel), by decide +kernel,
      by decide +kernel⟩

theorem witness_TaskFailsAtIssue :
    ∃ (s : State) (f : Func) (r : Fin 64) (row : Instr × Nat × Nat) (e : Entry) (h : Nat),
        row ∈ [(Instr.loopTask f r, 1, 0), (.chainTaskForward f r, 2, 0), (.chainTaskBackward f r, 2, 1),
        (.streamStage f r, 3, 0), (.collectiveBroadcast f r, 4, 0), (.collectiveReduce f r, 4, 1),
        (.catalogueQuery f r, 5, 0), (.catalogueMerge f r, 5, 1)] ∧ readyEntry s f r.val = some (e, h) ∧
        entryKind e = row.2.1 ∧ hSub e = row.2.2 ∧
        let a : State := { takeEntry { s with heldAt := none } f r.val with nextTask := s.nextTask + 1 };
        let x := newTask { s with heldAt := none } f r.val e h; ∃ (c : Nat), ((f = .pf0 ∧ c = 0x0155) ∨ (f ≠ .pf0 ∧
        headerOk e x.home = false ∧ c = 0x0151) ∨ (f ≠ .pf0 ∧ headerOk e x.home = true ∧ coresGranted a x = false ∧
        c = 0x0132) ∨ (f ≠ .pf0 ∧ headerOk e x.home = true ∧ coresGranted a x = true ∧ rectEnabled a x = false ∧
        c = 0x0131) ∨ (f ≠ .pf0 ∧ headerOk e x.home = true ∧ coresGranted a x = true ∧ rectEnabled a x = true ∧
        allocationGranted a x = false ∧ c = 0x0133)) ∧ (failIssue a x { cause := c, addr := 0 }).heldAt = none :=
  ⟨sFail .pf0 (hdrBits 1 0), .pf0, 3, (Instr.loopTask .pf0 3, 1, 0), entryOf (hdrBits 1 0), 1, by decide +kernel,
      by decide +kernel, by decide +kernel, by decide +kernel, 0x0155, by decide +kernel, by decide +kernel⟩

theorem witness_CopyPerforms :
    (∃ (s : State) (f : Func) (r : Fin 64) (p : State) (x : Task), TasksNumbered s ∧ x.zeroWork = false ∧
        Issues s f r.val 6 0 checkRange p x ∧ let a := acceptTask p x; let c := taskCtx a x;
        ∃ (b : State) (bs : List Byte), loadVa a c (mSrc x.hdr) (mCount x.hdr) = (b, .ok bs) ∧ ∃ (i : Nat),
        i < bs.length ∧ (mDst x.hdr + i < mSrc x.hdr ∨ mSrc x.hdr + bs.length ≤ mDst x.hdr + i) ∧
        let w := copyBytes b (mSrc x.hdr) (mDst x.hdr) bs; let u := saveVa w.2 c (mDst x.hdr) w.1; u.2 = none)
    ∧ (∃ (s : State) (f : Func) (r : Fin 64) (p : State) (x : Task), TasksNumbered s ∧ x.zeroWork = false ∧
        Issues s f r.val 6 0 checkRange p x ∧ let a := acceptTask p x; let c := taskCtx a x;
        ∃ (b : State) (bs : List Byte), loadVa a c (mSrc x.hdr) (mCount x.hdr) = (b, .ok bs) ∧
        let w := copyBytes b (mSrc x.hdr) (mDst x.hdr) bs; let u := saveVa w.2 c (mDst x.hdr) w.1; ∃ (e : AccErr),
        u.2 = some e ∧ (faultTask u.1 x.id x.part e .stationmaster).heldAt = none)
    ∧ (∃ (s : State) (f : Func) (r : Fin 64) (p : State) (x : Task), TasksNumbered s ∧ x.zeroWork = false ∧
        Issues s f r.val 6 0 checkRange p x ∧ let a := acceptTask p x; let c := taskCtx a x;
        ∃ (b : State) (e : AccErr), loadVa a c (mSrc x.hdr) (mCount x.hdr) = (b, .error e) ∧
        (faultTask b x.id x.part e .stationmaster).heldAt = none) :=
  ⟨⟨sCopy, .vf 0, 3, mp sCopy checkRange, mx sCopy checkRange, by unfold TasksNumbered; decide +kernel,
      by decide +kernel, issues_of (by decide +kernel), _, _, pair_ok (by decide +kernel), 0,
      by and_intros <;> decide +kernel⟩,
    ⟨sCopyF, .vf 0, 3, mp sCopyF checkRange, mx sCopyF checkRange, by unfold TasksNumbered; decide +kernel,
        by decide +kernel, issues_of (by decide +kernel), _, _, pair_ok (by decide +kernel), _,
        some_eq (by decide +kernel), by decide +kernel⟩,
    ⟨sCopyR, .vf 0, 3, mp sCopyR checkRange, mx sCopyR checkRange, by unfold TasksNumbered; decide +kernel,
        by decide +kernel, issues_of (by decide +kernel), _, _, pair_error (by decide +kernel), by decide +kernel⟩⟩

theorem witness_PackingMovesPerform :
    (∃ (s : State) (f : Func) (r : Fin 64) (p : State) (x : Task), TasksNumbered s ∧ x.zeroWork = false ∧
        let a := acceptTask p x; let c := taskCtx a x; ∃ (b : State) (page : List Byte),
        Issues s f r.val 6 3 checkCompress p x ∧ loadVa a c (mSrc x.hdr / 0x10000 * 0x10000) 0x10000 = (b,
        .ok page))
    ∧ (∃ (s : State) (f : Func) (r : Fin 64) (p : State) (x : Task), TasksNumbered s ∧ x.zeroWork = false ∧
        let a := acceptTask p x; let c := taskCtx a x; ∃ (b : State) (page : List Byte),
        Issues s f r.val 6 4 checkPlain p x ∧ decompressSource a c (mSrc x.hdr) = (b, .ok page) ∧
        let w := saveVa b c (mDst x.hdr) page; w.2 = none)
    ∧ (∃ (s : State) (f : Func) (r : Fin 64) (p : State) (x : Task), TasksNumbered s ∧ x.zeroWork = false ∧
        let a := acceptTask p x; let c := taskCtx a x; ∃ (b : State) (page : List Byte),
        Issues s f r.val 6 4 checkPlain p x ∧ decompressSource a c (mSrc x.hdr) = (b, .ok page) ∧
        let w := saveVa b c (mDst x.hdr) page; ∃ (e : AccErr), w.2 = some e ∧
        (faultTask w.1 x.id x.part e .stationmaster).heldAt = none) :=
  ⟨⟨sComp, .vf 0, 3, mp sComp checkCompress, mx sComp checkCompress, by unfold TasksNumbered; decide +kernel,
      by decide +kernel, _, _, issues_of (by decide +kernel), pair_ok (by decide +kernel)⟩,
    ⟨sDec 0x10000, .vf 0, 3, mp (sDec 0x10000) checkPlain, mx (sDec 0x10000) checkPlain,
        by unfold TasksNumbered; decide +kernel, by decide +kernel, _, _, issues_of (by decide +kernel),
        decompressSource_image (by decide +kernel) (by decide +kernel) (by decide +kernel),
        saveVa_image (by decide +kernel)⟩,
    ⟨sDec 0x40000000, .vf 0, 3, mp (sDec 0x40000000) checkPlain, mx (sDec 0x40000000) checkPlain,
        by unfold TasksNumbered; decide +kernel, by decide +kernel, _, _, issues_of (by decide +kernel),
        decompressSource_image (by decide +kernel) (by decide +kernel) (by decide +kernel), _,
        some_eq (by decide +kernel), by decide +kernel⟩⟩

theorem witness_PageMovesPerform :
    (∃ (s : State) (f : Func) (r : Fin 64) (p : State) (x : Task) (y : Xlat), TasksNumbered s ∧
        x.zeroWork = false ∧ 1 ≤ mCount x.hdr ∧ mSrc x.hdr % 0x10000 + mCount x.hdr ≤ 0x10000 ∧
        let a := acceptTask p x; let c := taskCtx a x; let h := pageHome y (mSrc x.hdr);
        let d := (recGrant (partRec c.copy c.part) h).d; let held := frameOf a h (frameKey y (mSrc x.hdr));
        translate a c (mSrc x.hdr) false = .ok y ∧ ∃ (w : State), Issues s f r.val 6 1 checkRange p x ∧
        leafTier y.leaf = 1 ∧ held = none ∧ d ≠ 0 ∧ fillDemand a c y (mSrc x.hdr) d = (w, none))
    ∧ (∃ (s : State) (f : Func) (r : Fin 64) (p : State) (x : Task) (y : Xlat), TasksNumbered s ∧
        x.zeroWork = false ∧ 1 ≤ mCount x.hdr ∧ mSrc x.hdr % 0x10000 + mCount x.hdr ≤ 0x10000 ∧
        let a := acceptTask p x; let c := taskCtx a x; let h := pageHome y (mSrc x.hdr);
        let d := (recGrant (partRec c.copy c.part) h).d; let held := frameOf a h (frameKey y (mSrc x.hdr));
        translate a c (mSrc x.hdr) false = .ok y ∧ Issues s f r.val 6 1 checkRange p x ∧ leafTier y.leaf = 1 ∧
        held = none ∧ d ≠ 0 ∧ takeDemand a h c.part d = none)
    ∧ (∃ (s : State) (f : Func) (r : Fin 64) (p : State) (x : Task) (y : Xlat), TasksNumbered s ∧
        x.zeroWork = false ∧ 1 ≤ mCount x.hdr ∧ mSrc x.hdr % 0x10000 + mCount x.hdr ≤ 0x10000 ∧
        let a := acceptTask p x; let c := taskCtx a x; let h := pageHome y (mSrc x.hdr);
        let d := (recGrant (partRec c.copy c.part) h).d; let held := frameOf a h (frameKey y (mSrc x.hdr));
        translate a c (mSrc x.hdr) false = .ok y ∧ Issues s f r.val 6 1 checkRange p x ∧
        (leafTier y.leaf ≠ 1 ∨ held ≠ none ∨ d = 0))
    ∧ (∃ (s : State) (f : Func) (r : Fin 64) (p : State) (x : Task) (y : Xlat), TasksNumbered s ∧
        x.zeroWork = false ∧ 1 ≤ mCount x.hdr ∧ mSrc x.hdr % 0x10000 + mCount x.hdr ≤ 0x10000 ∧
        let a := acceptTask p x; let c := taskCtx a x; let h := pageHome y (mSrc x.hdr);
        let held := frameOf a h (frameKey y (mSrc x.hdr)); translate a c (mSrc x.hdr) false = .ok y ∧
        ∃ (n : Nat) (fr : Frame), Issues s f r.val 6 2 checkRange p x ∧ held = some (n, fr) ∧ fr.kind = .demand ∧
        fr.stuck = none)
    ∧ (∃ (s : State) (f : Func) (r : Fin 64) (p : State) (x : Task) (y : Xlat), TasksNumbered s ∧
        x.zeroWork = false ∧ 1 ≤ mCount x.hdr ∧ mSrc x.hdr % 0x10000 + mCount x.hdr ≤ 0x10000 ∧
        let a := acceptTask p x; let c := taskCtx a x; let h := pageHome y (mSrc x.hdr);
        let held := frameOf a h (frameKey y (mSrc x.hdr)); translate a c (mSrc x.hdr) false = .ok y ∧
        Issues s f r.val 6 2 checkRange p x ∧ held = none) :=
  ⟨⟨sMig, .vf 0, 3, mp sMig checkRange, mx sMig checkRange, _, by unfold TasksNumbered; decide +kernel,
      by decide +kernel, by decide +kernel, by decide +kernel, ok_eq (by decide +kernel), _,
      issues_of (by decide +kernel), by decide +kernel, by decide +kernel, by decide +kernel,
      pair_none (by decide +kernel)⟩,
    ⟨sMigP, .vf 0, 3, mp sMigP checkRange, mx sMigP checkRange, _, by unfold TasksNumbered; decide +kernel,
        by decide +kernel, by decide +kernel, by decide +kernel, ok_eq (by decide +kernel),
        issues_of (by decide +kernel), by and_intros <;> decide +kernel⟩,
    ⟨sMig0, .vf 0, 3, mp sMig0 checkRange, mx sMig0 checkRange, _, by unfold TasksNumbered; decide +kernel,
        by decide +kernel, by decide +kernel, by decide +kernel, ok_eq (by decide +kernel),
        issues_of (by decide +kernel), by decide +kernel⟩,
    ⟨sFl, .vf 0, 3, mp sFl checkRange, mx sFl checkRange, _, by unfold TasksNumbered; decide +kernel,
        by decide +kernel, by decide +kernel, by decide +kernel, ok_eq (by decide +kernel), 0,
        { owner := 0, kind := .demand, page := (sm + 0x10000) / 0x10000, valid := true, dirty := 3 },
        issues_of (by decide +kernel), by and_intros <;> decide +kernel⟩,
    ⟨sFl0, .vf 0, 3, mp sFl0 checkRange, mx sFl0 checkRange, _, by unfold TasksNumbered; decide +kernel,
        by decide +kernel, by decide +kernel, by decide +kernel, ok_eq (by decide +kernel),
        issues_of (by decide +kernel), by decide +kernel⟩⟩

theorem witness_StreamWindowMovesPerform :
    (∃ (s : State) (f : Func) (r : Fin 64) (p : State) (x : Task), TasksNumbered s ∧ x.zeroWork = false ∧
        let a := acceptTask p x; let l := stageLoadFor a x; ∃ (ps : List LoadPage),
        Issues s f r.val 6 5 checkStageLoad p x ∧ mHostSrc x.hdr = false ∧
        segmentPages a (taskCtx a x) (mSrc x.hdr) (mPages x.hdr) = .ok ps ∧
        streamRoom a x.part (ps.map (·.tile)) = true ∧ (loadPages a l ps).heldAt = none)
    ∧ (∃ (s : State) (f : Func) (r : Fin 64) (p : State) (x : Task), TasksNumbered s ∧ x.zeroWork = false ∧
        let a := acceptTask p x; ∃ (ps : List LoadPage), Issues s f r.val 6 5 checkStageLoad p x ∧
        mHostSrc x.hdr = false ∧ segmentPages a (taskCtx a x) (mSrc x.hdr) (mPages x.hdr) = .ok ps ∧
        streamRoom a x.part (ps.map (·.tile)) = false)
    ∧ (∃ (s : State) (f : Func) (r : Fin 64) (p : State) (x : Task), TasksNumbered s ∧ x.zeroWork = false ∧
        let a := acceptTask p x; Issues s f r.val 6 5 checkStageLoad p x ∧ mHostSrc x.hdr = true ∧
        (x.wing = .east ∨ concourseUp a = true) ∧
        let room := streamRoom a x.part (List.replicate (mPages x.hdr) x.home); room = true)
    ∧ (∃ (s : State) (f : Func) (r : Fin 64) (p : State) (x : Task), TasksNumbered s ∧ x.zeroWork = false ∧
        let a := acceptTask p x; Issues s f r.val 6 5 checkStageLoad p x ∧ mHostSrc x.hdr = true ∧
        (x.wing = .east ∨ concourseUp a = true) ∧
        let room := streamRoom a x.part (List.replicate (mPages x.hdr) x.home); room = false)
    ∧ (∃ (s : State) (f : Func) (r : Fin 64) (p : State) (x : Task), TasksNumbered s ∧ x.zeroWork = false ∧
        Issues s f r.val 6 6 checkPlain p x)
    ∧ (∃ (s : State) (f : Func) (r : Fin 64) (p : State) (x : Task), TasksNumbered s ∧ x.zeroWork = false ∧
        Issues s f r.val 6 7 checkScheduleStart p x)
    ∧ (∃ (s : State) (f : Func) (r : Fin 64) (p : State) (x : Task), TasksNumbered s ∧ x.zeroWork = false ∧
        Issues s f r.val 6 8 checkPlain p x) :=
  ⟨⟨sLd 2, .vf 0, 3, mp (sLd 2) checkStageLoad, mx (sLd 2) checkStageLoad, by unfold TasksNumbered; decide +kernel,
      by decide +kernel, _, issues_of (by decide +kernel), by decide +kernel, ok_eq (by decide +kernel),
      by decide +kernel, by decide +kernel⟩,
    ⟨sLdWait, .vf 0, 3, mp (sLdWait) checkStageLoad, mx (sLdWait) checkStageLoad,
        by unfold TasksNumbered; decide +kernel, by decide +kernel, _, issues_of (by decide +kernel),
        by decide +kernel, ok_eq (by decide +kernel), by decide +kernel⟩,
    ⟨sLdH 2, .vf 0, 3, mp (sLdH 2) checkStageLoad, mx (sLdH 2) checkStageLoad,
        by unfold TasksNumbered; decide +kernel, by decide +kernel, issues_of (by decide +kernel),
        by and_intros <;> decide +kernel⟩,
    ⟨sLdHW, .vf 0, 3, mp sLdHW checkStageLoad, mx sLdHW checkStageLoad, by unfold TasksNumbered; decide +kernel,
        by decide +kernel, issues_of (by decide +kernel), by and_intros <;> decide +kernel⟩,
    ⟨sRel, .vf 0, 3, mp (sRel) checkPlain, mx (sRel) checkPlain, by unfold TasksNumbered; decide +kernel,
        by decide +kernel, issues_of (by decide +kernel)⟩,
    ⟨sSchS, .vf 0, 3, mp (sSchS) checkScheduleStart, mx (sSchS) checkScheduleStart,
        by unfold TasksNumbered; decide +kernel, by decide +kernel, issues_of (by decide +kernel)⟩,
    ⟨sSchX, .vf 0, 3, mp (sSchX) checkPlain, mx (sSchX) checkPlain, by unfold TasksNumbered; decide +kernel,
        by decide +kernel, issues_of (by decide +kernel)⟩⟩

theorem witness_MoveIssuedAndDone :
    ∃ (s : State) (f : Func) (r : Fin 64) (sub : Nat) (k : KindCheck) (p : State) (x : Task), TasksNumbered s ∧
        k ∈ [checkRange, checkCompress, checkPlain, checkStageLoad, checkScheduleStart] ∧
        Issues s f r.val 6 sub k p x ∧ x.zeroWork = false :=
  ⟨sMig, .vf 0, 3, 1, checkRange, mp sMig checkRange, mx sMig checkRange, by unfold TasksNumbered; decide +kernel,
      by simp, issues_of (by decide +kernel), by decide +kernel⟩

theorem witness_TaskDispatched :
    (∃ (s : State) (id : Nat) (t : Tile) (x : Task) (tiles : List Tile),
        let a : State := { s with heldAt := none }; taskOf s id = some x ∧ x.status = .waiting ∧
        dispatchTiles a x t = some tiles ∧ mainUp s = true ∧ roomOn a x tiles = true ∧
        outranked a x tiles = false ∧
        let y := { x with tiles := tiles, cores := coresOn x.hdr tiles, dispatchTick := tickOf s x.wing, status := .running, phases := (List.range (coresOn x.hdr tiles).length).map fun q => (q, firstPhase x) };
        let g := tiles.foldl (fun s z => reserveStaging s z x.part x.id x.staging) (a.modTask id fun _ => y);
        let b := wakeCores g y.cores; (startWork b y).heldAt = none)
    ∧ (∃ (s : State) (id : Nat) (t : Tile) (x : Task) (tiles : List Tile),
        let a : State := { s with heldAt := none }; taskOf s id = some x ∧ x.status = .waiting ∧
        dispatchTiles a x t = some tiles ∧ mainUp s = true ∧ roomOn a x tiles = true ∧
        outranked a x tiles = false ∧
        let y := { x with tiles := tiles, cores := coresOn x.hdr tiles, dispatchTick := tickOf s x.wing, status := .running, phases := (List.range (coresOn x.hdr tiles).length).map fun q => (q, firstPhase x) };
        let g := tiles.foldl (fun s z => reserveStaging s z x.part x.id x.staging) (a.modTask id fun _ => y);
        let b := wakeCores g y.cores; ∃ (l : LoopWork) (m : LoopWork) (z : State), x.work = .loop l ∧
        let d := parseLoop x.body; let w := startWalks d (d.bucket l.bucket) y.cores.length;
        foldErr (fillRank y) b { l with walks := w } (w.flatMap fun q => (ownFills d).map fun o => (q.1, o)) = (z,
        .ok m)) :=
  ⟨⟨wLoop, xLoop.id, .e0, _, _, some_eq (by decide +kernel), by decide +kernel, some_eq (by decide +kernel),
      by and_intros <;> decide +kernel⟩,
    ⟨wLoop, xLoop.id, .e0, _, _, some_eq (by decide +kernel), by decide +kernel, some_eq (by decide +kernel),
        by decide +kernel, by decide +kernel, by decide +kernel,
        match xLoop.work with | .loop l => l | _ => {bucket := 9}, _, _, by decide +kernel,
        pair_ok (by decide +kernel)⟩⟩

theorem witness_TaskEnded :
    ∃ (s : State) (id : Nat) (x : Task), let a : State := { s with heldAt := none };
        let b := settleAliases a x (bodiesOf a x); taskOf s id = some x ∧ x.status = .running ∧ workDone x = true ∧
        (finishTask b x 0).heldAt = none ∧ bodyDests (bodiesOf a x) = [] ∧ hRecord x.hdr = 0 ∧ x.pins = [] ∧
        x.answer = true :=
  ⟨wMove, xMove.id, _, some_eq (by decide +kernel), by and_intros <;> decide +kernel⟩

theorem witness_TaskFaulted :
    (∃ (s : State) (id : Nat) (cause : BitVec 16) (addr : BitVec 48) (core : BitVec 16) (x : Task),
        taskOf s id = some x ∧ x.tiles ≠ [] ∧ cause ≠ 0 ∧ (∀ d, x.work ≠ .coll d) ∧ (∀ c, x.status ≠ .stopping c))
    ∧ (∃ (s : State) (id : Nat) (cause : BitVec 16) (addr : BitVec 48) (core : BitVec 16) (x : Task),
        taskOf s id = some x ∧ x.tiles ≠ [] ∧ cause ≠ 0 ∧ ∃ (c : BitVec 16), x.status = .stopping c) :=
  ⟨⟨wMove, xMove.id, 0x0201, 0x123456789ABC, 5, _, some_eq (by decide +kernel), by decide +kernel,
      by decide +kernel, by intro d; cases d <;> decide +kernel, not_stopping (by decide +kernel)⟩,
    ⟨withTask up (xDone 0x111), xMove.id, 0x0201, 0x123456789ABC, 5, _, some_eq (by decide +kernel),
        by decide +kernel, by decide +kernel, 0x111, by decide +kernel⟩⟩

theorem witness_TaskStopped :
    ∃ (s : State) (id : Nat) (x : Task) (c : BitVec 16), let a : State := { s with heldAt := none };
        taskOf s id = some x ∧ x.status = .stopping c ∧
        let b := if x.tiles ≠ [] then scribbleRanges a (taskCtx a x) (taskDests a x) else a;
        let d := closeTaskColl b x c.toNat;
        let e := if x.isStage = true ∧ x.tiles ≠ [] ∧ c.toNat ≠ 0x0504 then breakStream d x else d;
        (finishTask (addCtr e (blkSch x.home) 0x0138) x c.toNat).heldAt = none :=
  ⟨withTask (world up) (xDone 0x111), xMove.id, _, 0x111, some_eq (by decide +kernel), by decide +kernel,
      by decide +kernel⟩

end G02

/-! ### Commands, editions and resets of functions -/

namespace G03

def swX (s : State) (f : Func) : Swap := { func := f, ring := 3, entry := fe s f, sqHead := 1, answer := true }
def jq (s : State) (f : Func) (i : Instance) := judge ((tk s f).modInst i fun x => { x with swaps := x.swaps ++ [swX s f] }) i (swX s f)
def bad1 : State := sCmd (world up) (.vf 0) (cmdBits 1 0 [(417, 7)])
def bad5 : State := sCmd (world up) (.vf 0) (cmdBits 1 0 [(417, 5)])
def bad4 : State := sCmd (world up) (.vf 0) (cmdBits 1 0 [(417, 4)])
def bad8 : State := sCmd (world up) (.vf 0) (cmdBits 8 0 [])
def kvSwap (s : State) (ed : Nat) : State := sCmd s (.vf 0) (cmdBits 1 0 [(464, 0x7000), (432, ed), (417, 1)])
def kvSrc (s : State) : State := put (world s) 0x7000 64 (word [(0, 0x5A71), (464, 0x5000), (432, 64)])
def kvI : Instance := .kv 0 .east
def sKv : State := kvSwap (kvSrc up) 2
def sKvCur : State := kvSwap { kvSrc up with insts := (kvSrc up).insts ++ [(kvI, kvInst)] } 2
def sKvStale : State := kvSwap { kvSrc up with insts := (kvSrc up).insts ++ [(kvI, kvInst)] } 1
def sKvHeld : State := kvSwap { kvSrc up with insts := (kvSrc up).insts ++ [(kvI, { kvInst with live := kvInst.live ++ [{num := 3, base := 0}, {num := 4, base := 0}, {num := 5, base := 0}] })] } 2
def sKvQ : State := kvSwap { kvSrc up with insts := (kvSrc up).insts ++ [(kvI, { kvInst with swaps := [{ func := .vf 0, ring := 5, entry := 0, stage := .applying [] }] })] } 2
def kvEd : Edition := { num := 2, base := 0x7000, hdr := word [(0, 0x5A71), (464, 0x5000), (432, 64)] }
def catW : State := sCmd { world up with insts := (world up).insts ++ [(.cat 5, catInst5)] } (.vf 0) (cmdBits 1 0 [(432,
    2), (417, 3), (420, 5)])
/- partition configuration that drains -/
def cfgNew : Nat := 2 ^ 2048 * partWord
def sCfg : State := sCmd (writePa (world up) (sm + 0x8000) (leBytes 512 (2 ^ 2048 * partWord))) .pf0 (cmdBits 1 0 [(464,
    sm + 0x8000), (432, 2), (417, 5)])
def cfgEd : Edition := match (jq sCfg .pf0 .partCfg).2 with | .accept e => e | _ => { num := 99, base := 0 }
def entD : Entry := entryOf (cmdBits 1 0 [(464, 0x7000), (432, 2), (417, 1)])
def grpD : Entry := entryOf (cmdBits 1 0 [(464, 0x7000), (432, 2), (417, 4)])
def swD (e : Entry) (u : List PinUnit) : Swap := { func := .vf 0, ring := 3, entry := e, sqHead := 1, stage := .applying u, edition := some kvEd }
def rAns (s : State) : State := ring s (.vf 0) 3 { onRing with open_ := 1, owed := 1, sqHead := 1 }
def sNot : State := { rAns (world up) with insts := [(.partCfg, cfg0), (.kv 0 .east, { kvInst with current := some 2, atUnit := [(.station .e0, some 2), (.station .e1, some 1)], live := kvInst.live ++ [kvEd], swaps := [swD entD [.station .e1]] })] }
def sNotG : State := { rAns (world up) with insts := [(.partCfg, cfg0), (.group, { grpInst with current := some 2, live := grpInst.live ++ [kvEd], atUnit := [(.station .e0, some 2), (.junction .west, some 1)], swaps := [swD grpD [.junction .west, .station .w0]] })]
                                            jn := up.jn.modify .west fun j => { j with lost := [(2, [1])] } }
def sDone : State := { sNot with insts := [(.partCfg, cfg0), (.kv 0 .east, { kvInst with current := some 2, atUnit := [(.station .e0, some 2), (.station .e1, some 2)], live := kvInst.live ++ [kvEd], swaps := [swD entD []] })] }
def sDone2 : State := { sNot with insts := [(.partCfg, cfg0), (.kv 0 .east, { kvInst with current := some 2, atUnit := [(.station .e0, some 2), (.station .e1, some 2)], live := kvInst.live ++ [kvEd], swaps := [swD entD [], { swD entD [] with stage := .queued, ring := 4}] })] }
def cfgE : Entry := entryOf (cmdBits 1 0 [(464, sm + 0x8000), (432, 2), (417, 5)])
def cfg2 : Edition := { num := 2, base := sm + 0x8000, copy := leBytes 512 (2 ^ 2048 * partWord) }
def swC : Swap := { func := .pf0, ring := 3, entry := cfgE, sqHead := 1, stage := .drain, edition := some cfg2 }
def sDrain : State := { world (ring up .pf0 3 { onRing with open_ := 1, owed := 1, sqHead := 1 }) with insts := [(.partCfg, { cfg0 with swaps := [swC] })], mem := [(0x1234, 5), (0x10001, 7)] }
def mi (s : State) : State := sCmd s (.vf 0) (cmdBits 2 0 [(464, 0x10000), (432, 2)])
def sMi : State := { mi (world up) with tasks := [mkTask (mi (world up)) checkPlain id] }
def tl (a : Nat) : TlbEntry := { part := 0, va := a, size := 0x10000, leaf := 0 }
def sMi2 : State := { mi (world up) with tmem := up.tmem.map fun _ m => { m with tlb := [tl 0, tl 0x10000, {tl 0x10000 with part := 3}] } }
def cmdMi (ids : List Nat) : Cmd := { func := .vf 0, ring := 3, entry := entryOf (cmdBits 2 0 [(464, 0x10000), (432, 2)]), sqHead := 1, wait := .mapInvalidate ids }
def sMiW (ids : List Nat) : State := { rAns (world up) with tasks := [mkTask (mi (world up)) checkPlain fun x => { x with id := 7 }], cmds := [cmdMi ids] }
def sdGood : Nat := word [(208, 0x20000), (184, 64), (152, 64), (139, 4), (131, 0), (124, 2), (116, 9)]
def sdBad : Nat := word [(208, 0x20000), (184, 64), (152, 64), (139, 3), (131, 0), (124, 2), (116, 9)]
def sdX (d : Nat) : Siding := { part := 0, wing := .east, num := 9, desc := d, home := .e0 }
def opn (s : State) : State := sCmd s (.vf 0) (cmdBits 3 0 [(464, 0x4000)])
def sOpen (d : Nat) : State := opn (put (world up) 0x4000 32 d)
def sOpen2 : State := { sOpen sdGood with sidings := [sdX sdGood] }
def cls : List (Nat × Nat) := cmdBits 4 0 [(504, 9)]
def sClose : State := { sCmd (world up) (.vf 0) cls with sidings := [sdX sdGood] }
def bound : Task := { xStage with ring := 4, body := leBytes 64 (word [(0, 1), (304, 2), (175, 1), (174, 1), (171, 3), (144, 9)]) }
def sCloseB : State := { sClose with tasks := [bound] }
def cmdCl : Cmd := { func := .vf 0, ring := 3, entry := entryOf cls, sqHead := 1, wait := .sidingClose }
def sCloseW : State := { rAns (world up) with sidings := [sdX sdGood], cmds := [cmdCl] }
-- prefix tree: root children? empty tree: lookup of 1 hash finds nothing
def pfxCmd (n : Nat) : List (Nat × Nat) := cmdBits 5 0 [(464, 0x10000), (320, 0x12000), (304, n)]
def sPfx (n : Nat) : State := sCmd (put (world up) 0x10000 8 0x55) (.vf 0) (pfxCmd n)
def sPfxV : State := sCmd (put (world up) 0x10000 8 0x55) (.vf 0) (cmdBits 5 0 [(464, 0x10000), (368, 65), (320,
    0x12000), (303, 1)])
def pfxC (s : State) : Ctx := { part := 0, tile := .e0, copy := cfgAt (tk s (.vf 0)) .e0 }
def pfxU (s : State) := lookupFrom (pfxC s) (pfxArgs (fe s (.vf 0))) (pfxHeader (tk s (.vf 0)) .e0 0) (entryTag (fe s (.vf 0))) (pfxArgs (fe s (.vf 0))).count 0 (addCtr (tk s (.vf 0)) (blkPw .e0) 0x0228) { node := (pfxArgs (fe s (.vf 0))).start }
def pfxV (s : State) := (writeVa (pfxU s).1 (pfxC s) (pfxArgs (fe s (.vf 0))).result (pfxRecord (pfxU s).1 (pfxC s) (pfxU s).2.1 0)).1
def csD : Nat := word [(464, 0x20000), (416, 0x30000), (384, 0x10000), (320, 16), (256, 5), (224, 1), (191, 2),
    (182, 1)]
def sCar (d : Nat) : State := sCmd (put (world up) 512 64 d) (.vf 0) (cmdBits 6 0 [(496, 4)])
def carX : CarSet := { key := ⟨0, 4⟩, desc := csD }
def carX5 : CarSet := { key := ⟨0, 5⟩, desc := csD }
def sCarStop : State := { sCmd (world up) (.vf 0) (cmdBits 7 0 [(496, 4)]) with carSets := ⟨[carX, carX5], []⟩ }
def stopT : State := endCarSet (tk sCarStop (.vf 0)) .east carX true
def cmdCl4 : Cmd := { cmdCl with wait := .partitionReset 4 }
def sRs : State := { withTask (world up) { xMove with func := .vf 0 } with cmds := [cmdCl, cmdCl4] }
def sRsQ : State := sRs.modHif fun h => { h with resetting := 0x8 }
def sRc : State := sCmd (world up) .pf0 (cmdBits 8 3 [])
def sRcQ : State := sRc.modHif fun h => { h with resetting := 0x8 }
def cmdR (p : Nat) : Cmd := { func := .pf0, ring := 3, entry := entryOf (cmdBits 8 p []), sqHead := 1, wait := .partitionReset p }
def sRd (c : List Cmd) : State := { (ring (world up) .pf0 3 { onRing with open_ := 1, owed := 1, sqHead := 1 }).modHif fun h => { h with resetting := 0x8, pf0Resetting := true, zeroing := [(3, [(0x010000000100, 0x100)])] } with cmds := c, mem := [(0x010000000000, 1), (0x0100000001FF, 7)] }
def sPf (m : State → State) : State := m { (world up) with cst := { up.cst with queue := [.frame .classic [], .mailbox []] }, hif := { up.hif with rings := [(3, onRing), (67, onRing)] }, mem := [(5, 1), (0x010000000000, 1)] }

theorem witness_CommandRefused :
    (∃ (s : State) (f : Func) (r : Fin 64) (row : Instr × Nat) (p : State) (e : Entry) (h : Nat) (c : Nat),
        row ∈ [(Instr.editionSwap f r, 1), (.mapInvalidate f r, 2), (.sidingOpen f r, 3), (.sidingClose f r, 4),
        (.prefixLookup f r, 5), (.carSetStart f r, 6), (.carSetStop f r, 7), (.partitionResetCmd f r, 8)] ∧
        (row.2 = 4 → ∀ x ∈ s.cmds, x.func = f → x.ring = r.val → closeReady s x = false) ∧
        Begins s f r.val row.2 p e h ∧ commandFault p f r.val e = some c ∧ (row.2 = 1 → swapInst e = none) ∧
        commandOk e = false)
    ∧ (∃ (s : State) (f : Func) (r : Fin 64) (row : Instr × Nat) (p : State) (e : Entry) (h : Nat) (c : Nat),
        row ∈ [(Instr.editionSwap f r, 1), (.mapInvalidate f r, 2), (.sidingOpen f r, 3), (.sidingClose f r, 4),
        (.prefixLookup f r, 5), (.carSetStart f r, 6), (.carSetStop f r, 7), (.partitionResetCmd f r, 8)] ∧
        (row.2 = 4 → ∀ x ∈ s.cmds, x.func = f → x.ring = r.val → closeReady s x = false) ∧
        Begins s f r.val row.2 p e h ∧ commandFault p f r.val e = some c ∧ ∃ (i : Instance), row.2 = 1 ∧
        swapInst e = some i ∧ (instOf p i).swaps = [])
    ∧ (∃ (s : State) (f : Func) (r : Fin 64) (row : Instr × Nat) (p : State) (e : Entry) (h : Nat) (c : Nat),
        row ∈ [(Instr.editionSwap f r, 1), (.mapInvalidate f r, 2), (.sidingOpen f r, 3), (.sidingClose f r, 4),
        (.prefixLookup f r, 5), (.carSetStart f r, 6), (.carSetStop f r, 7), (.partitionResetCmd f r, 8)] ∧
        (row.2 = 4 → ∀ x ∈ s.cmds, x.func = f → x.ring = r.val → closeReady s x = false) ∧
        Begins s f r.val row.2 p e h ∧ commandFault p f r.val e = some c ∧ commandOk e = true ∧ f ≠ .pf0 ∧
        cmdOp e = 1 ∧ swapStruct e = 5) :=
  ⟨⟨bad1, .vf 0, 3, (Instr.editionSwap (.vf 0) 3, 1), tk bad1 (.vf 0), fe bad1 (.vf 0), 1, _, by decide +kernel,
      by decide +kernel, begins_of (by decide +kernel), some_eq (by decide +kernel), by decide +kernel,
      by decide +kernel⟩,
    ⟨bad4, .vf 0, 3, (Instr.editionSwap (.vf 0) 3, 1), tk bad4 (.vf 0), fe bad4 (.vf 0), 1, _, by decide +kernel,
        by decide +kernel, begins_of (by decide +kernel), some_eq (by decide +kernel), _, by decide +kernel,
        some_eq (by decide +kernel), by decide +kernel⟩,
    ⟨bad5, .vf 0, 3, (Instr.editionSwap (.vf 0) 3, 1), tk bad5 (.vf 0), fe bad5 (.vf 0), 1, _, by decide +kernel,
        by decide +kernel, begins_of (by decide +kernel), some_eq (by decide +kernel),
        by and_intros <;> decide +kernel⟩⟩

theorem witness_CommandAnswered :
    (∃ (s : State) (f : Func) (r : Nat) (h : Nat) (cause : Nat) (e : Entry) (w : Wing), let g := ringOf s f r;
        g.error = false ∧ completionsWait s f g = false ∧ g.heldEntries = [] ∧ g.irqEn = false ∧ cause < 2 ^ 16 ∧
        (w = .east ∨ concourseUp s = true) ∧ (ctr s blkHif 0x0110).toNat + 1 < 2 ^ 64 - 1 ∧ ∃ (k : Func) (q : Nat),
        ringKey k q ≠ ringKey f r ∧ cause = 0)
    ∧ (∃ (s : State) (f : Func) (r : Nat) (h : Nat) (cause : Nat) (e : Entry) (w : Wing), let g := ringOf s f r;
        g.error = false ∧ completionsWait s f g = false ∧ g.heldEntries = [] ∧ g.irqEn = false ∧ cause < 2 ^ 16 ∧
        (w = .east ∨ concourseUp s = true) ∧ (ctr s blkHif 0x0110).toNat + 1 < 2 ^ 64 - 1 ∧ cause ≠ 0) :=
  ⟨⟨bad1, .vf 0, 3, 1, 0, fe bad1 (.vf 0), .east, by decide +kernel, by decide +kernel, by decide +kernel,
      by decide +kernel, by decide +kernel, by decide +kernel, by decide +kernel, .vf 0, 4, by decide +kernel,
      by decide +kernel⟩,
    ⟨bad1, .vf 0, 3, 1, 0x155, fe bad1 (.vf 0), .east, by and_intros <;> decide +kernel⟩⟩

theorem witness_EditionSwapApplied :
    ∃ (s : State) (f : Func) (r : Fin 64) (p : State) (u : State) (e : Entry) (h : Nat) (i : Instance) (v : Option Edition),
        memCanonical s.mem = true ∧ Begins s f r.val 1 p e h ∧ swapInst e = some i ∧ (instOf p i).swaps = [] ∧
        let sw : Swap := { func := f, ring := r.val, entry := e, sqHead := h, answer := true };
        judge (p.modInst i fun x => { x with swaps := x.swaps ++ [sw] }) i sw = (u,
        match v with | some ed => .accept ed | none => .withdraw) ∧ mustHold u i { sw with edition := v } = false ∧
        mustDrain u i { sw with edition := v } = false ∧ ∃ (ed : Edition), v = some ed :=
  ⟨sKv, .vf 0, 3, tk sKv (.vf 0), _, fe sKv (.vf 0), 1, _, some kvEd, by decide +kernel,
      begins_of (by decide +kernel), some_eq (by decide +kernel), by decide +kernel, pair_snd (by decide +kernel),
      by decide +kernel, by decide +kernel, kvEd, by decide +kernel⟩

theorem witness_EditionSwapWaits :
    (∃ (s : State) (f : Func) (r : Fin 64) (p : State) (u : State) (e : Entry) (h : Nat) (i : Instance),
        Begins s f r.val 1 p e h ∧ swapInst e = some i ∧ (instOf p i).swaps ≠ [])
    ∧ (∃ (s : State) (f : Func) (r : Fin 64) (p : State) (u : State) (e : Entry) (h : Nat) (i : Instance),
        Begins s f r.val 1 p e h ∧ swapInst e = some i ∧
        let sw : Swap := { func := f, ring := r.val, entry := e, sqHead := h, answer := true };
        let q := p.modInst i fun x => { x with swaps := x.swaps ++ [sw] }; ∃ (ed : Edition),
        (instOf p i).swaps = [] ∧ judge q i sw = (u, .accept ed) ∧
        mustHold u i { sw with edition := some ed } = true)
    ∧ (∃ (s : State) (f : Func) (r : Fin 64) (p : State) (u : State) (e : Entry) (h : Nat) (i : Instance),
        Begins s f r.val 1 p e h ∧ swapInst e = some i ∧
        let sw : Swap := { func := f, ring := r.val, entry := e, sqHead := h, answer := true };
        let q := p.modInst i fun x => { x with swaps := x.swaps ++ [sw] }; ∃ (ed : Edition),
        (instOf p i).swaps = [] ∧ judge q i sw = (u, .accept ed) ∧
        mustHold u i { sw with edition := some ed } = false ∧ mustDrain u i { sw with edition := some ed } = true)
    ∧ (∃ (s : State) (f : Func) (r : Fin 64) (p : State) (u : State) (e : Entry) (h : Nat) (i : Instance),
        Begins s f r.val 1 p e h ∧ swapInst e = some i ∧
        let sw : Swap := { func := f, ring := r.val, entry := e, sqHead := h, answer := true };
        let q := p.modInst i fun x => { x with swaps := x.swaps ++ [sw] }; ∃ (c : Nat) (er : Option AccErr),
        (instOf p i).swaps = [] ∧ judge q i sw = (u, .refuse c er) ∧
        let v := (match er with | some x => failAcc u .task (cmdPart e) x | none => u).modInst i fun x => { x with swaps := [] };
        v.heldAt = none) :=
  ⟨⟨sKvQ, .vf 0, 3, tk sKvQ (.vf 0), up, fe sKvQ (.vf 0), 1, _, begins_of (by decide +kernel),
      some_eq (by decide +kernel), by decide +kernel⟩,
    ⟨sKvHeld, .vf 0, 3, tk sKvHeld (.vf 0), _, fe sKvHeld (.vf 0), 1, _, begins_of (by decide +kernel),
        some_eq (by decide +kernel), kvEd, by decide +kernel, pair_snd (by decide +kernel), by decide +kernel⟩,
    ⟨sCfg, .pf0, 3, tk sCfg .pf0, _, fe sCfg .pf0, 1, _, begins_of (by decide +kernel),
        some_eq (by decide +kernel), _, by decide +kernel, pair_accept (by decide +kernel), by decide +kernel,
        by decide +kernel⟩,
    ⟨sKvStale, .vf 0, 3, tk sKvStale (.vf 0), _, fe sKvStale (.vf 0), 1, _, begins_of (by decide +kernel),
        some_eq (by decide +kernel), 0x602, none, by decide +kernel, pair_snd (by decide +kernel),
        by decide +kernel⟩⟩

theorem witness_SwapNoticeApplied :
    ∃ (s : State) (u : PinUnit) (i : Instance) (sw : Swap) (rest : List Swap) (todo : List PinUnit),
        (instOf s i).swaps = sw :: rest ∧ sw.stage = .applying todo ∧ u ∈ todo ∧
        (unitWing u = wingOf (instHome s i) ∨ concourseUp s = true) ∧ ∃ (w : Wing), i = .group ∧ u = .junction w :=
  ⟨sNotG, .junction .west, .group, swD grpD [.junction .west, .station .w0], [], [.junction .west, .station .w0],
      by decide +kernel, by decide +kernel, by decide +kernel, by decide +kernel, .west, by decide +kernel,
      by decide +kernel⟩

theorem witness_EditionSwapCompletes :
    ∃ (s : State) (i : Instance) (sw : Swap) (rest : List Swap), (instOf s i).swaps = sw :: rest ∧
        sw.stage = .applying [] ∧ rest = [] ∧
        let a := (answerCommand { s with heldAt := none } ⟨sw.func, sw.ring, sw.sqHead, sw.answer⟩ sw.entry 0 (wingOf (instHome s i))).modInst i fun x => { x with swaps := rest };
        (settleInst a i).heldAt = none :=
  ⟨sDone, .kv 0 .east, swD entD [], [], by and_intros <;> decide +kernel⟩

theorem witness_PartitionConfigDrained :
    ∃ (s : State) (sw : Swap) (rest : List Swap) (e : Edition), let old := cfgAt s .e0;
        (instOf s .partCfg).swaps = sw :: rest ∧ sw.stage = .drain ∧ sw.edition = some e ∧
        memCanonical s.mem = true ∧ (∀ x ∈ s.tasks, x.part ∈ drainedParts old e.copy → x.func = .pf0) ∧
        (∀ p ∈ changedParts old e.copy, resettingPart s p = false) ∧ ∃ p ∈ drainedParts old e.copy,
        ∃ (d : Tile) (n : Nat) (b : Nat) (a : Nat), n < 336 ∧ let g := effectiveGrant (partRec old p) d;
        inGrant g n = true ∧ inGrant (effectiveGrant (partRec e.copy p) d) n = false ∧ g.bankFirst ≤ b ∧
        b < g.bankFirst + g.bankCount ∧ windowBase (coreIndex d n) + 0x10000 * b ≤ a ∧
        a < windowBase (coreIndex d n) + 0x10000 * b + 0x10000 :=
  ⟨sDrain, swC, [], _, by decide +kernel, by decide +kernel, some_eq (by decide +kernel), by decide +kernel,
      by decide +kernel, by decide +kernel, 0, by first | decide +kernel | simp, .e0, 0, 0, 0x1234,
      by and_intros <;> decide +kernel⟩

theorem witness_MapInvalidated :
    (∃ (s : State) (f : Func) (r : Fin 64) (p : State) (e : Entry) (h : Nat), Performs s f r.val 2 p e h)
    ∧ (∃ (s : State) (f : Func) (r : Fin 64) (c : Cmd) (ids : List Nat), c ∈ s.cmds ∧ c.func = f ∧ c.ring = r.val ∧
        c.wait = .mapInvalidate ids ∧ (∀ x ∈ s.cmds, x.func = f → x.ring = r.val → x = c) ∧ (∀ t ∈ s.tasks,
        t.id ∉ ids))
    ∧ (∃ (s : State) (f : Func) (r : Fin 64) (c : Cmd) (ids : List Nat), c ∈ s.cmds ∧ c.func = f ∧ c.ring = r.val ∧
        c.wait = .mapInvalidate ids ∧ (∀ x ∈ s.cmds, x.func = f → x.ring = r.val → x = c) ∧ (∃ t ∈ s.tasks,
        t.id ∈ ids)) :=
  ⟨⟨sMi2, .vf 0, 3, tk sMi2 (.vf 0), fe sMi2 (.vf 0), 1, performs_of (by decide +kernel) (by decide +kernel)⟩,
    ⟨sMiW [6], .vf 0, 3, cmdMi [6], [6], by and_intros <;> decide +kernel⟩,
    ⟨sMiW [7], .vf 0, 3, cmdMi [7], [7], by and_intros <;> decide +kernel⟩⟩

theorem witness_SidingOpenedAndClosed :
    (∃ (s : State) (f : Func) (r : Fin 64) (p : State) (u : State) (e : Entry) (h : Nat) (d : Nat),
        Performs s f r.val 3 p e h ∧
        loadNum p { part := cmdPart e, tile := (ringOf s f r.val).home, copy := cfgAt p (ringOf s f r.val).home } (bits e.toNat 511 464) 32 = (u,
        .ok d) ∧
        let good := sidingDescOk d = true ∧ 2 * sdStreams d ≤ sdHandles d ∧ sidingOf s (cmdPart e) (sdWing d) (sdNum d) = none ∧ sidingRoom s d = true;
        good)
    ∧ (∃ (s : State) (f : Func) (r : Fin 64) (p : State) (u : State) (e : Entry) (h : Nat) (d : Nat),
        Performs s f r.val 3 p e h ∧
        loadNum p { part := cmdPart e, tile := (ringOf s f r.val).home, copy := cfgAt p (ringOf s f r.val).home } (bits e.toNat 511 464) 32 = (u,
        .ok d) ∧
        let good := sidingDescOk d = true ∧ 2 * sdStreams d ≤ sdHandles d ∧ sidingOf s (cmdPart e) (sdWing d) (sdNum d) = none ∧ sidingRoom s d = true;
        (¬ good))
    ∧ (∃ (s : State) (f : Func) (r : Fin 64) (p : State) (e : Entry) (h : Nat), Performs s f r.val 4 p e h ∧
        (∀ c ∈ s.cmds, c.func = f → c.ring = r.val → closeReady s c = false) ∧
        sidingBound s (cmdPart e) (closeWing e) (closeNum e) = false)
    ∧ (∃ (s : State) (f : Func) (r : Fin 64) (p : State) (e : Entry) (h : Nat), Performs s f r.val 4 p e h ∧
        (∀ c ∈ s.cmds, c.func = f → c.ring = r.val → closeReady s c = false) ∧
        sidingBound s (cmdPart e) (closeWing e) (closeNum e) = true)
    ∧ (∃ (s : State) (f : Func) (r : Fin 64) (c : Cmd), c ∈ s.cmds ∧ c.func = f ∧ c.ring = r.val ∧
        c.wait = .sidingClose ∧ (∀ x ∈ s.cmds, x.func = f → x.ring = r.val → x = c) ∧
        sidingBound s (cmdPart c.entry) (closeWing c.entry) (closeNum c.entry) = false) :=
  ⟨⟨sOpen sdGood, .vf 0, 3, tk (sOpen sdGood) (.vf 0), _, fe (sOpen sdGood) (.vf 0), 1, _,
      performs_of (by decide +kernel) (by decide +kernel), pair_ok (by decide +kernel), by decide +kernel⟩,
    ⟨sOpen sdBad, .vf 0, 3, tk (sOpen sdBad) (.vf 0), _, fe (sOpen sdBad) (.vf 0), 1, _,
        performs_of (by decide +kernel) (by decide +kernel), pair_ok (by decide +kernel), by decide +kernel⟩,
    ⟨sClose, .vf 0, 3, tk sClose (.vf 0), fe sClose (.vf 0), 1,
        performs_of (by decide +kernel) (by decide +kernel), by decide +kernel, by decide +kernel⟩,
    ⟨sCloseB, .vf 0, 3, tk sCloseB (.vf 0), fe sCloseB (.vf 0), 1,
        performs_of (by decide +kernel) (by decide +kernel), by decide +kernel, by decide +kernel⟩,
    ⟨sCloseW, .vf 0, 3, cmdCl, by and_intros <;> decide +kernel⟩⟩

theorem witness_PrefixLookedUp :
    (∃ (s : State) (f : Func) (r : Fin 64) (p : State) (e : Entry) (h : Nat) (u : State) (v : State) (x : PfxState),
        Performs s f r.val 5 p e h ∧ (pfxArgs e).wing = wingOf (ringOf s f r.val).home ∧
        let c : Ctx := { part := cmdPart e, tile := (ringOf s f r.val).home, copy := cfgAt p (ringOf s f r.val).home };
        let a := pfxArgs e; let q := addCtr p (blkPw c.tile) 0x0228; (¬ (a.verify = true ∧ a.tokens % 64 ≠ 0)) ∧
        lookupFrom c a (pfxHeader q c.tile c.part) (entryTag e) a.count 0 q { node := a.start } = (u, x, none) ∧
        saveVa u c a.result (pfxRecord u c x 0) = (v, none) ∧ x.matched = 0)
    ∧
        (∃ (s : State) (f : Func) (r : Fin 64) (p : State) (e : Entry) (h : Nat) (u : State) (v : State) (x : PfxState),
        Performs s f r.val 5 p e h ∧ (pfxArgs e).wing = wingOf (ringOf s f r.val).home ∧
        let c : Ctx := { part := cmdPart e, tile := (ringOf s f r.val).home, copy := cfgAt p (ringOf s f r.val).home };
        let a := pfxArgs e; let q := addCtr p (blkPw c.tile) 0x0228; a.verify = true ∧ a.tokens % 64 ≠ 0 ∧
        saveVa q c a.result (pfxRecord q c { node := a.start } 0x0602) = (v, none)) :=
  ⟨⟨sPfx 1, .vf 0, 3, tk (sPfx 1) (.vf 0), fe (sPfx 1) (.vf 0), 1, _, _, _,
      performs_of (by decide +kernel) (by decide +kernel), by decide +kernel, by decide +kernel,
      triple_none (by decide +kernel), pair_none (by decide +kernel), by decide +kernel⟩,
    ⟨sPfxV, .vf 0, 3, tk sPfxV (.vf 0), fe sPfxV (.vf 0), 1, up, _, { node := 0 },
        performs_of (by decide +kernel) (by decide +kernel), by decide +kernel, by decide +kernel,
        by decide +kernel, pair_none (by decide +kernel)⟩⟩

theorem witness_CarSetStartedAndStopped :
    (∃ (s : State) (f : Func) (r : Fin 64) (p : State) (e : Entry) (h : Nat),
        let w := wingOfNum (bits e.toNat 495 495);
        let k : CarSetKey := ⟨Fin.ofNat 16 (cmdPart e), BitVec.ofNat 16 (bits e.toNat 511 496)⟩;
        let va := partVal p 0x8042 (cmdPart e) + 128 * k.num.toNat + 64 * wingNum w; ∃ (u : State) (d : Nat),
        Performs s f r.val 6 p e h ∧ loadNum p (ringCtx p w (cmdPart e)) va 64 = (u, .ok d) ∧
        carDescOk u d = true ∧ carStartOk u w k d = true)
    ∧ (∃ (s : State) (f : Func) (r : Fin 64) (p : State) (e : Entry) (h : Nat),
        let w := wingOfNum (bits e.toNat 495 495);
        let k : CarSetKey := ⟨Fin.ofNat 16 (cmdPart e), BitVec.ofNat 16 (bits e.toNat 511 496)⟩;
        let va := partVal p 0x8042 (cmdPart e) + 128 * k.num.toNat + 64 * wingNum w; ∃ (u : State) (d : Nat),
        Performs s f r.val 6 p e h ∧ loadNum p (ringCtx p w (cmdPart e)) va 64 = (u, .ok d) ∧
        (carDescOk u d = false ∨ carStartOk u w k d = false))
    ∧ (∃ (s : State) (f : Func) (r : Fin 64) (p : State) (e : Entry) (h : Nat),
        let w := wingOfNum (bits e.toNat 495 495);
        let k : CarSetKey := ⟨Fin.ofNat 16 (cmdPart e), BitVec.ofNat 16 (bits e.toNat 511 496)⟩;
        Performs s f r.val 7 p e h ∧ ∃ x ∈ s.carSets.get w, x.key ≠ k) :=
  ⟨⟨sCar csD, .vf 0, 3, tk (sCar csD) (.vf 0), fe (sCar csD) (.vf 0), 1, _, _,
      performs_of (by decide +kernel) (by decide +kernel), pair_ok (by decide +kernel), by decide +kernel,
      by decide +kernel⟩,
    ⟨sCar 0, .vf 0, 3, tk (sCar 0) (.vf 0), fe (sCar 0) (.vf 0), 1, _, _,
        performs_of (by decide +kernel) (by decide +kernel), pair_ok (by decide +kernel), by decide +kernel⟩,
    ⟨sCarStop, .vf 0, 3, tk sCarStop (.vf 0), fe sCarStop (.vf 0), 1,
        performs_of (by decide +kernel) (by decide +kernel), carX5, by first | decide +kernel | simp,
        by decide +kernel⟩⟩

theorem witness_PartitionResetBegun :
    (∃ (s : State) (q : Fin 16), hostReaches s (.vf q) = true ∧ resettingPart s q.val = true)
    ∧ (∃ (s : State) (q : Fin 16), hostReaches s (.vf q) = true ∧ resettingPart s q.val = false)
    ∧ (∃ (s : State) (f : Func) (r : Fin 64) (p : State) (e : Entry) (h : Nat), Performs s f r.val 8 p e h ∧
        resettingPart s (cmdPart e) = true)
    ∧ (∃ (s : State) (f : Func) (r : Fin 64) (p : State) (e : Entry) (h : Nat), Performs s f r.val 8 p e h ∧
        let c : Cmd := { func := f, ring := r.val, entry := e, sqHead := h, answer := true, wait := .partitionReset (cmdPart e % 16) };
        let a := { p with cmds := p.cmds ++ [c] }; (beginReset a (Fin.ofNat 16 (cmdPart e))).heldAt = none)
    ∧ (∃ (s : State) (q : Fin 16), partTasks s q.val = [] ∧ resettingPart s q.val = false ∧
        memCanonical s.mem = true ∧ ∃ x ∈ s.cmds, isResetCmd x = true)
    ∧ (∃ (s : State) (q : Fin 16), partTasks s q.val = [] ∧ resettingPart s q.val = false ∧
        memCanonical s.mem = true ∧ ∃ (a : Nat), 2 ^ 32 ≤ a) :=
  ⟨⟨sRsQ, 3, by decide +kernel, by decide +kernel⟩,
    ⟨sRs, 0, by decide +kernel, by decide +kernel⟩,
    ⟨sRcQ, .pf0, 3, tk sRcQ .pf0, fe sRc .pf0, 1, performs_of (by decide +kernel) (by decide +kernel),
        by decide +kernel⟩,
    ⟨sRc, .pf0, 3, tk sRc .pf0, fe sRc .pf0, 1, performs_of (by decide +kernel) (by decide +kernel),
        by decide +kernel⟩,
    ⟨sRs, 3, by decide +kernel, by decide +kernel, by decide +kernel, cmdCl4, by first | decide +kernel | simp,
        by decide +kernel⟩,
    ⟨sRs, 3, by decide +kernel, by decide +kernel, by decide +kernel, 0x100000000, by decide +kernel⟩⟩

theorem witness_PartitionResetDone :
    (∃ (s : State) (q : Fin 16), memCanonical s.mem = true ∧ resettingPart s q.val = false)
    ∧ (∃ (s : State) (q : Fin 16), memCanonical s.mem = true ∧ resettingPart s q.val = true ∧
        Table.canonical [] s.hif.zeroing = true ∧ (∀ c ∈ s.cmds, c.wait ≠ .partitionReset q.val)) :=
  ⟨⟨sRd [], 4, by decide +kernel, by decide +kernel⟩,
    ⟨sRd [], 3, by and_intros <;> decide +kernel⟩⟩

theorem witness_Pf0ResetBegun :
    (∃ (s : State), s.tasks = [] ∧ memCanonical s.mem = true ∧ s.hif.pf0Resetting = true)
    ∧ (∃ (s : State), s.tasks = [] ∧ memCanonical s.mem = true ∧ ∃ (how : Pf0Trigger) (t : State),
        hostReaches s .pf0 = true ∧ s.hif.pf0Resetting = false ∧ exec (.pf0Reset how) s = .next t ∧
        ∃ (f : Func) (r : Nat), hasRing f r = true)
    ∧ (∃ (s : State), s.tasks = [] ∧ memCanonical s.mem = true ∧ ∃ (how : Pf0Trigger) (t : State),
        hostReaches s .pf0 = true ∧ s.hif.pf0Resetting = false ∧ exec (.pf0Reset how) s = .next t ∧ ∃ (a : Nat),
        2 ^ 32 ≤ a) :=
  ⟨⟨sPf fun s => { s with hif := { s.hif with pf0Resetting := true } }, by and_intros <;> decide +kernel⟩,
    ⟨sPf id, by decide +kernel, by decide +kernel, .flr, _, by decide +kernel, by decide +kernel,
        next_eq (by decide +kernel), .pf0, 3, by decide +kernel⟩,
    ⟨sPf id, by decide +kernel, by decide +kernel, .flr, _, by decide +kernel, by decide +kernel,
        next_eq (by decide +kernel), 0x100000000, by decide +kernel⟩⟩

theorem witness_VfEnableCleared :
    (∃ (s : State), s.tasks = [] ∧ hostReaches s .pf0 = true ∧ s.hif.vfEnable = false)
    ∧ (∃ (s : State), s.tasks = [] ∧ hostReaches s .pf0 = true ∧ s.hif.vfEnable = true ∧ ∃ (q : Fin 16),
        resettingPart s q.val = false) :=
  ⟨⟨sPf fun s => { s with hif := { s.hif with vfEnable := false } }, by and_intros <;> decide +kernel⟩,
    ⟨sPf id, by decide +kernel, by decide +kernel, by decide +kernel, 0, by decide +kernel⟩⟩

theorem witness_Pf0ResetBeginsTheOthers :
    ∃ (s : State), s.tasks = [] ∧ memCanonical s.mem = true ∧
      ∃ how ∈ [Pf0Trigger.flr, .hotReset, .linkDown, .perst], hostReaches s .pf0 = true ∧
          s.hif.pf0Resetting = false ∧
        ∃ q : Fin 16, resettingPart s q.val = false :=
  ⟨sPf id, by decide +kernel, by decide +kernel, .flr, by decide +kernel, by decide +kernel, by decide +kernel, 0,
    by decide +kernel⟩

end G03

/-! ### Memory -/

namespace G04

def c0 (s : State) : Ctx := { part := 0, tile := .e0, copy := cfgAt s .e0 }
/-- page tables: L1 at sm, with a leaf chain for VA 0x40000 : l1[0] -> sm+0x1000, l2[0] -> sm+0x2000,
    l3[0] -> sm+0x3000, l4[4] leaf -/
def pt (s : State) (leafBits : List (Nat × Nat)) : State :=
  let s := { world s with tmem := up.tmem }
  let s := put (put (put s 0 8 (sm + 0x1000 + 64)) 0x1000 8 (sm + 0x2000 + 64)) 0x2000 8 (sm + 0x3000 + 64)
  put s (0x3000 + 32) 8 (word ([(0, sm + 0x50000), (6, 2)] ++ leafBits))
def xl (s : State) (w : Bool) : Xlat := okV ⟨0,0,0,0⟩ (translate s (c0 s) 0x40010 w)
def pm : State := { up with mem := [(0x010000000000, 1), (0x010000000041, 2), (0x0100000000C0, 9)], poison := [0x400000000000 / 0x1000000, 0x010000000040/64, 0x010000000080/64] }
def winTlb (tier : Nat) : TlbEntry := { part := 0, va := 0, size := 0x40000000, leaf := word [(0, sm), (6, 2), (3, 1), (4, tier)] }
def tier (s : State) (n : Nat) : State := { s with tmem := up.tmem.map fun _ m => { m with tlb := [winTlb n] } }
def wm (n : Nat) : State := tier { withTask (world up) xMove with nextTask := 5 } n
def wf (s : State) (f : Table Frame) : State := s.modMem .e0 fun m => { m with frames := f }
def fr0 : Frame := { owner := 0, kind := .demand, page := (sm + 0x10000) / 0x10000, filling := true, waiters := [0], pins := 1 }
def fr1 : Frame := { owner := 0, kind := .demand, page := (sm + 0x10000) / 0x10000, valid := true }
def pinned (i : Nat) : Frame := { owner := 0, kind := .demand, page := 500 + i, filling := true, waiters := [0], pins := 1 }
def wx (s : State) : Xlat := okV ⟨0,0,0,0⟩ (translate s (makerCtx s 0 0) 0x10010 false)
def noD (s : State) : State := { s with insts := [(.partCfg, { live := [{ num := 0, base := 0, copy := leBytes 256 (word [(0, 1), (8, 8)]) }] })] }
def frC : Frame := { fr0 with page := frameKey (wx (wm 3)) 0x10010 }
def frX : Frame := { fr0 with page := 0x010000010000 / 0x10000 }
def imgM (s : State) : State := writePa s (sm + 0x10000) imgBytes
def frD : Frame := { fr1 with dirty := 3 }
def args5 (n : Nat) : List (Nat × Nat) := [(0, 0x77), (32, 6), (36, 5), (320, 0x20000), (448, 7), (480, 3), (492,
    n)]
def xLd : Task := { mkTask (front (tier (world up) 2) (args5 8)) checkStageLoad id with work := .move false true }
def sLdH : State := front (tier (world up) 2) (args5 8 ++ [(504, 1)])
def xLdH : Task := { mkTask sLdH checkStageLoad id with work := .move false true }
def wLd : State := tier (withTask (world up) xLd) 2
def busy (s : State) : State := wf s [(0,
    { owner := 0, kind := .stream, page := 77, valid := true, seg := some (1,1) })]
def lstZ : StageWork := { waiting := true, runs := [{ loop := { bucket := 0 }, held := [{ binding := 0, siding := 9, handle := 0 }] }] }
def xLst : Task := { xStage with body := leBytes 64 (word [(0, 2), (304, 2), (464, 0x4000)]), status := .running, tiles := [.e0], work := .stage lstZ }
def wLst : State := put (withTask (world up) xLst) 0x4000 16 (word [(16, 2), (72, 2)])
def sched0 : Schedule := { table := 0x4000, count := 4, depth := 2 }
def wSc (w : Nat) : State := tier ((put (world up) 0x4000 16 w).modMem .e0 fun m => { m with sched := [(0, sched0)] }) 2
def wSc2 (w : Nat) : State := (wSc w).modMem .e0 fun m => { m with sched := [(0, sched0)] }
def ew (l : Nat) : Nat := word [(16, 2), (72, 2), (96, 5), (84, 6), (64, l)]
def hm (s : State) : State := { s with cst := { s.cst with dict := [(0x303000, [0])] }, mem := [(0x010000001000, 7), (0x02FFFFFFFFC0, 9)] }
def pw (s : State) : State := s.modPage (.vf 0) fun p => { p with winVa := 0x10000 }
def eioCtx (s : State) : Ctx := { part := 0, tile := .e0, copy := cfgEio s }
def pwx (s : State) (o : Nat) : Xlat := okV ⟨0,0,0,0⟩ (translate s (eioCtx s) (0x10000 + o) false)
def pwb (s : State) (o n : Nat) : List Byte := okV [] (readPiece s (eioCtx s) (0x10000 + o) n)
def pwU : State := { pw (world up) with tmem := up.tmem }
def pwE : AccErr := match translate pwU (eioCtx pwU) 0x10000 false with | .error e => e | _ => { cause := 0, addr := 0 }
def pwR : State := { pw (world up) with tmem := up.tmem.map fun _ m => { m with tlb := [{ tlb0 with leaf := word [(0, sm), (6, 2)] }] } }
def pwE2 : AccErr := match translate pwR (eioCtx pwR) 0x10000 true with | .error e => e | _ => { cause := 0, addr := 0 }
def pwW : State := { pw (world up) with cc := { up.cc with state := .down }, tmem := up.tmem.map fun _ m => { m with tlb := [{ tlb0 with leaf := word [(0, 0x020000000000), (6, 2), (3, 1)] }] } }

theorem witness_TranslationStaysInside :
    (∃ (s : State) (c : Ctx) (va : Nat) (write : Bool) (x : Xlat), tlbHit s c (va % 2 ^ 48) = none ∧
        translate s c va write = .ok x ∧ write = true)
    ∧ (∃ (s : State) (c : Ctx) (va : Nat) (write : Bool) (x : Xlat), tlbHit s c (va % 2 ^ 48) = none ∧
        translate s c va write = .ok x ∧ ∃ (img : List Byte), readImage s c va (x.image va) = .ok img) :=
  ⟨⟨pt up [(3,1)], c0 (pt up [(3,1)]), 0x40010, true, _, by decide +kernel, ok_eq (by decide +kernel),
      by decide +kernel⟩,
    ⟨pt up [(3,1)], c0 (pt up [(3,1)]), 0x40010, true, _, by decide +kernel, ok_eq (by decide +kernel), _,
        ok_eq (by decide +kernel)⟩⟩

theorem witness_PhysicalStore :
    (∃ (s : State) (a : Nat) (bs : List Byte), memCanonical s.mem = true ∧ (∀ t, (s.tmem.get t).dead = []) ∧
        (isStacked a = true ∨ isOnChip a = true))
    ∧ (∃ (s : State) (a : Nat) (bs : List Byte), memCanonical s.mem = true ∧ (∀ t, (s.tmem.get t).dead = []) ∧
        isStacked a = false ∧ isOnChip a = false) :=
  ⟨⟨pm, 0x010000000040, [], by decide +kernel, by intro t; cases t <;> decide +kernel, by decide +kernel⟩,
    ⟨pm, 0x100000000, [], by decide +kernel, by intro t; cases t <;> decide +kernel, by decide +kernel,
        by decide +kernel⟩⟩

theorem witness_WindowMissServed :
    (∃ (s : State) (part : Fin 16) (va : BitVec 48) (write : Bool) (id : Nat) (x : Xlat),
        translate s (makerCtx s id part.val) va.toNat write = .ok x ∧ (leafTier x.leaf = 1 ∨ leafTier x.leaf = 3) ∧
        let t := pageHome x va.toNat; let held := frameOf s t (frameKey x va.toNat); ∃ (n : Nat) (fr : Frame),
        held = some (n, fr) ∧ fr.filling = true)
    ∧ (∃ (s : State) (part : Fin 16) (va : BitVec 48) (write : Bool) (id : Nat) (x : Xlat),
        translate s (makerCtx s id part.val) va.toNat write = .ok x ∧ (leafTier x.leaf = 1 ∨ leafTier x.leaf = 3) ∧
        let t := pageHome x va.toNat; let held := frameOf s t (frameKey x va.toNat); ∃ (n : Nat) (fr : Frame),
        held = some (n, fr) ∧ fr.filling = false)
    ∧ (∃ (s : State) (part : Fin 16) (va : BitVec 48) (write : Bool) (id : Nat) (x : Xlat),
        translate s (makerCtx s id part.val) va.toNat write = .ok x ∧ (leafTier x.leaf = 1 ∨ leafTier x.leaf = 3) ∧
        let t := pageHome x va.toNat; let held := frameOf s t (frameKey x va.toNat);
        let d := (grantAt s t part.val).d; held = none ∧ d = 0)
    ∧ (∃ (s : State) (part : Fin 16) (va : BitVec 48) (write : Bool) (id : Nat) (x : Xlat),
        translate s (makerCtx s id part.val) va.toNat write = .ok x ∧ (leafTier x.leaf = 1 ∨ leafTier x.leaf = 3) ∧
        let t := pageHome x va.toNat; let held := frameOf s t (frameKey x va.toNat);
        let d := (grantAt s t part.val).d; ∃ (n : Nat) (u : State), held = none ∧ d ≠ 0 ∧
        takeDemand s t part.val d = some (n, u))
    ∧ (∃ (s : State) (part : Fin 16) (va : BitVec 48) (write : Bool) (id : Nat) (x : Xlat),
        translate s (makerCtx s id part.val) va.toNat write = .ok x ∧ (leafTier x.leaf = 1 ∨ leafTier x.leaf = 3) ∧
        let t := pageHome x va.toNat; let held := frameOf s t (frameKey x va.toNat);
        let d := (grantAt s t part.val).d; held = none ∧ d ≠ 0 ∧ takeDemand s t part.val d = none) :=
  ⟨⟨wf (wm 1) [(4, fr0)], 0, 0x10010, true, 0, _, ok_eq (by decide +kernel), by decide +kernel, 4, fr0,
      by decide +kernel, by decide +kernel⟩,
    ⟨wf (wm 1) [(4, fr1)], 0, 0x10010, true, 0, _, ok_eq (by decide +kernel), by decide +kernel, 4, fr1,
        by decide +kernel, by decide +kernel⟩,
    ⟨noD (wm 1), 0, 0x10010, true, 0, _, ok_eq (by decide +kernel), by and_intros <;> decide +kernel⟩,
    ⟨wm 1, 0, 0x10010, true, 0, _, ok_eq (by decide +kernel), by decide +kernel, 0, wm 1,
        by and_intros <;> decide +kernel⟩,
    ⟨wf (wm 1) ((List.range 8).map fun i => (i, pinned i)), 0, 0x10010, true, 0, _, ok_eq (by decide +kernel),
        by and_intros <;> decide +kernel⟩⟩

theorem witness_FillsEnd :
    (∃ (s : State) (t : Tile) (n : Fin 1600) (fr : Frame), (∀ f ∈ (s.tmem.get t).frames, f.1 = n.val → f.2 = fr) ∧
        Table.find (s.tmem.get t).frames n.val = some fr ∧ fr.filling = true ∧ fr.page < 2 ^ 32 ∧
        firstBadBelow s (0x10000 * fr.page) 0x10000 = none)
    ∧ (∃ (s : State) (t : Tile) (n : Fin 1600) (fr : Frame), (∀ f ∈ (s.tmem.get t).frames,
        f.1 = n.val → f.2 = fr) ∧ Table.find (s.tmem.get t).frames n.val = some fr ∧ fr.filling = true ∧
        fr.page < 2 ^ 32 ∧ ∃ (b : Nat), firstBadBelow s (0x10000 * fr.page) 0x10000 = some b)
    ∧ (∃ (s : State) (t : Tile) (part : Fin 16) (va : BitVec 48) (x : Xlat) (n : Nat) (fr : Frame),
        let a : State := { s with heldAt := none }; let c := tileCtx a t part.val; let h := pageHome x va.toNat;
        translate a c va.toNat false = .ok x ∧ leafTier x.leaf = 3 ∧ frameOf a h (frameKey x va.toNat) = some (n,
        fr) ∧ fr.filling = true ∧ memCanonical s.mem = true ∧ ∃ (page : List Byte),
        readCompressed a c va.toNat (x.image va.toNat) = .ok page ∧ page.length = 0x10000)
    ∧ (∃ (s : State) (t : Tile) (part : Fin 16) (va : BitVec 48) (x : Xlat) (n : Nat) (fr : Frame),
        let a : State := { s with heldAt := none }; let c := tileCtx a t part.val; let h := pageHome x va.toNat;
        translate a c va.toNat false = .ok x ∧ leafTier x.leaf = 3 ∧ frameOf a h (frameKey x va.toNat) = some (n,
        fr) ∧ fr.filling = true ∧ memCanonical s.mem = true ∧ ∃ (e : AccErr),
        readCompressed a c va.toNat (x.image va.toNat) = .error e ∧ e.wait = none ∧ e.cause = 0x0206 ∧
        e.phys = false ∧ ∃ u, exec (.decompressComplete t part va) s = .next u ∧ ∃ id ∈ fr.waiters,
        ∃ (y : Machine.Task), taskOf u id = some y) :=
  ⟨⟨wf (wm 1) [(4, fr0), (5, fr1)], .e0, 4, fr0 , by and_intros <;> decide +kernel⟩,
    ⟨wf { wm 1 with poison := [(sm + 0x10040) / 64] } [(4, fr0), (5, fr1)], .e0, 4, fr0 , by decide +kernel,
        by decide +kernel, by decide +kernel, by decide +kernel, _, some_eq (by decide +kernel)⟩,
    ⟨wf (imgM (wm 3)) [(4, frC), (5, fr1)], .e0, 0, 0x10010, _, 4, frC, ok_eq (by decide +kernel),
        by decide +kernel, by decide +kernel, by decide +kernel, by decide +kernel, _,
        readCompressed_image (by decide +kernel), imgPage_length⟩,
    ⟨wf (wm 3) [(4, frC), (5, fr1)], .e0, 0, 0x10010, _, 4, frC, ok_eq (by decide +kernel), by decide +kernel,
        by decide +kernel, by decide +kernel, by decide +kernel, _, error_eq (by decide +kernel),
        by decide +kernel, by decide +kernel, by decide +kernel, _, next_eq (by decide +kernel), 0,
        by first | decide +kernel | simp, _, some_eq (by decide +kernel)⟩⟩

theorem witness_MemoryFailureReported :
    (∃ (s : State) (src : FailSrc) (p : Nat) (cause : Nat) (pa : Nat), let t := homeTile pa;
        let pc := pcOf (servedAt s pa); (cause = 0x0202 ∨ (cause = 0x0201 ∧
        Table.get 0 (s.tmem.get t).ueCount pc ≠ dictVal s 0x3032 0)) ∧ flg (s.tmem.get t).faultInfo 31 = true)
    ∧ (∃ (s : State) (src : FailSrc) (p : Nat) (cause : Nat) (pa : Nat), let t := homeTile pa;
        let pc := pcOf (servedAt s pa); (cause = 0x0202 ∨ (cause = 0x0201 ∧
        Table.get 0 (s.tmem.get t).ueCount pc ≠ dictVal s 0x3032 0)) ∧ flg (s.tmem.get t).faultInfo 31 = false ∧
        cause = 0x0201)
    ∧ (∃ (s : State) (src : FailSrc) (p : Nat) (cause : Nat) (pa : Nat), let t := homeTile pa;
        let pc := pcOf (servedAt s pa); (cause = 0x0202 ∨ (cause = 0x0201 ∧
        Table.get 0 (s.tmem.get t).ueCount pc ≠ dictVal s 0x3032 0)) ∧ cause = 0x0202) :=
  ⟨⟨up.modMem .e0 fun m => { m with faultInfo := 0x80000000 }, .task, 0, 0x201, 0x010000000000, by decide +kernel,
      by decide +kernel⟩,
    ⟨up, .task, 0, 0x201, 0x010000000000, by and_intros <;> decide +kernel⟩,
    ⟨up, .task, 0, 0x202, 0x010000000000, by decide +kernel, by decide +kernel⟩⟩

theorem witness_FailedAccessForItsMaker :
    (∃ (s : State) (pa : BitVec 48) (row : (Maker → Instr) × Nat), isStacked pa.toNat = true ∧
        row ∈ [(fun m => Instr.stackedAccessLate pa m, 0x0202), (fun m => Instr.uncorrectableRead pa m, 0x0201)] ∧
        ∃ (id : Nat), row.2 = 0x0202)
    ∧ (∃ (s : State) (pa : BitVec 48) (row : (Maker → Instr) × Nat), isStacked pa.toNat = true ∧
        row ∈ [(fun m => Instr.stackedAccessLate pa m, 0x0202), (fun m => Instr.uncorrectableRead pa m, 0x0201)] ∧
        let t := homeTile pa.toNat; ∃ (n : Fin 1600) (fr : Frame),
        Table.find (s.tmem.get t).frames n.val = some fr ∧ row.2 = 0x0202)
    ∧ (∃ (s : State) (pa : BitVec 48) (row : (Maker → Instr) × Nat), isStacked pa.toNat = true ∧
        row ∈ [(fun m => Instr.stackedAccessLate pa m, 0x0202), (fun m => Instr.uncorrectableRead pa m, 0x0201)] ∧
        ∃ (d : List Byte), row.2 = 0x0202) :=
  ⟨⟨wf (wm 1) [(4, fr0), (5, fr1)], 0x010000010040, (fun m => Instr.stackedAccessLate 0x010000010040 m, 0x0202),
      by decide +kernel, by simp, 0, by decide +kernel⟩,
    ⟨wf (wm 1) [(4, fr0), (5, fr1)], 0x010000010040, (fun m => Instr.stackedAccessLate 0x010000010040 m, 0x0202),
        by decide +kernel, by simp, 4, _, some_eq (by decide +kernel), by decide +kernel⟩,
    ⟨wf (wm 1) [(4, fr0), (5, fr1)], 0x010000010040, (fun m => Instr.stackedAccessLate 0x010000010040 m, 0x0202),
        by decide +kernel, by simp, [1,2], by decide +kernel⟩⟩

theorem witness_WriteBackGivenUp :
    (∃ (s : State) (t : Tile) (n : Fin 1600) (pc : Fin 512) (fr : Frame),
        Table.find (s.tmem.get t).frames n.val = some fr ∧ fr.valid = true ∧ fr.dirty ≠ 0 ∧ fr.stuck = none ∧
        (s.tmem.get t).en = true ∧ (s.tmem.get t).used = false ∧ (s.tmem.get t).moving = false)
    ∧ (∃ (s : State) (t : Tile) (n : Fin 1600) (pc : Fin 512) (fr : Frame),
        Table.find (s.tmem.get t).frames n.val = some fr ∧ fr.valid = true ∧ fr.dirty ≠ 0 ∧ fr.stuck = none ∧
        ((s.tmem.get t).used = true ∨ (s.tmem.get t).moving = true) ∧ (s.tmem.get t).retiredPc ≠ pc.val) :=
  ⟨⟨wf (wm 1) [(4, frD)], .e0, 4, 0, _, some_eq (by decide +kernel), by and_intros <;> decide +kernel⟩,
    ⟨(wf (wm 1) [(4, frD)]).modMem .e0 fun m => { m with used := true, retiredPc := 9 }, .e0, 4, 0, _,
        some_eq (by decide +kernel), by and_intros <;> decide +kernel⟩⟩

theorem witness_WaitingLoadsGoOn :
    (∃ (s : State) (id : Nat) (x : Task), taskOf s id = some x ∧ x.status = .running ∧
        let a : State := { s with heldAt := none }; ∃ (ps : List LoadPage), x.work = .move false true ∧
        mHostSrc x.hdr = false ∧ segmentPages a (taskCtx a x) (mSrc x.hdr) (mPages x.hdr) = .ok ps ∧
        streamRoom a x.part (ps.map (·.tile)) = true ∧ (loadPages a (stageLoadFor a x) ps).heldAt = none)
    ∧ (∃ (s : State) (id : Nat) (x : Task), taskOf s id = some x ∧ x.status = .running ∧
        let a : State := { s with heldAt := none }; ∃ (ps : List LoadPage), x.work = .move false true ∧
        mHostSrc x.hdr = false ∧ segmentPages a (taskCtx a x) (mSrc x.hdr) (mPages x.hdr) = .ok ps ∧
        streamRoom a x.part (ps.map (·.tile)) = false)
    ∧ (∃ (s : State) (id : Nat) (x : Task), taskOf s id = some x ∧ x.status = .running ∧
        let a : State := { s with heldAt := none }; x.work = .move false true ∧ mHostSrc x.hdr = true ∧
        (runHostLoad a x).heldAt = none)
    ∧ (∃ (s : State) (id : Nat) (x : Task), taskOf s id = some x ∧ x.status = .running ∧
        let a : State := { s with heldAt := none }; ∃ (z : StageWork) (y : StageRun), x.work = .stage z ∧
        z.waiting = true ∧ z.runs.head? = some y ∧ (runLoadIter a x { z with waiting := false } y).heldAt = none)
    ∧ (∃ (s : State) (b : State) (t : Tile) (part : Fin 16) (c : Schedule) (e : Nat),
        let a : State := { s with heldAt := none }; let v := tileCtx a t part.val;
        let good := 1 ≤ bits e 83 72 ∧ bits e 83 72 ≤ (grantAt s t part.val).s ∧ bits e 71 66 = 0 ∧ bits e 63 48 = 0 ∧ bits e 15 0 = 0;
        schedOf s t part.val = some c ∧ c.stopped = false ∧ c.index < c.count ∧
        (residentSegs s t part.val).length < c.depth ∧ loadNum a v (c.table + 16 * c.index) 16 = (b, .ok e) ∧
        (¬ good))
    ∧ (∃ (s : State) (b : State) (t : Tile) (part : Fin 16) (c : Schedule) (e : Nat),
        let a : State := { s with heldAt := none }; let v := tileCtx a t part.val;
        let good := 1 ≤ bits e 83 72 ∧ bits e 83 72 ≤ (grantAt s t part.val).s ∧ bits e 71 66 = 0 ∧ bits e 63 48 = 0 ∧ bits e 15 0 = 0;
        schedOf s t part.val = some c ∧ c.stopped = false ∧ c.index < c.count ∧
        (residentSegs s t part.val).length < c.depth ∧ loadNum a v (c.table + 16 * c.index) 16 = (b, .ok e) ∧
        ∃ (ps : List LoadPage), good ∧ segmentPages b v (bits e 47 16 * 0x10000) (bits e 83 72) = .ok ps ∧
        streamRoom b part.val (ps.map (·.tile)) = false)
    ∧ (∃ (s : State) (b : State) (t : Tile) (part : Fin 16) (c : Schedule) (e : Nat),
        let a : State := { s with heldAt := none }; let v := tileCtx a t part.val;
        let l : LoadFor := { src := .scheduledLoad, ctx := v, layer := bits e 127 96, seg := bits e 95 84 };
        let good := 1 ≤ bits e 83 72 ∧ bits e 83 72 ≤ (grantAt s t part.val).s ∧ bits e 71 66 = 0 ∧ bits e 63 48 = 0 ∧ bits e 15 0 = 0;
        schedOf s t part.val = some c ∧ c.stopped = false ∧ c.index < c.count ∧
        (residentSegs s t part.val).length < c.depth ∧ loadNum a v (c.table + 16 * c.index) 16 = (b, .ok e) ∧
        ∃ (ps : List LoadPage), good ∧ segmentPages b v (bits e 47 16 * 0x10000) (bits e 83 72) = .ok ps ∧
        streamRoom b part.val (ps.map (·.tile)) = true ∧ (loadPages b l ps).heldAt = none) :=
  ⟨⟨wLd, xLd.id, _, some_eq (by decide +kernel), by decide +kernel, _, by decide +kernel, by decide +kernel,
      ok_eq (by decide +kernel), by decide +kernel, by decide +kernel⟩,
    ⟨busy wLd, xLd.id, _, some_eq (by decide +kernel), by decide +kernel, _, by decide +kernel, by decide +kernel,
        ok_eq (by decide +kernel), by decide +kernel⟩,
    ⟨withTask sLdH xLdH, xLdH.id, _, some_eq (by decide +kernel), by and_intros <;> decide +kernel⟩,
    ⟨wLst, xLst.id, _, some_eq (by decide +kernel), by decide +kernel, lstZ, _, by decide +kernel,
        by decide +kernel, some_eq (by decide +kernel), by decide +kernel⟩,
    ⟨wSc2 0, _, .e0, 0, _, _, some_eq (by decide +kernel), by decide +kernel, by decide +kernel, by decide +kernel,
        pair_ok (by decide +kernel), by decide +kernel⟩,
    ⟨wf (wSc2 (ew 0)) ((List.range 7).map fun i => (i,
        { owner := 0, kind := .stream, page := 900 + i, valid := true, seg := some (1,1) })), _, .e0, 0, _, _,
        some_eq (by decide +kernel), by decide +kernel, by decide +kernel, by decide +kernel,
        pair_ok (by decide +kernel), _, by decide +kernel, ok_eq (by decide +kernel), by decide +kernel⟩,
    ⟨wSc2 (ew 0), _, .e0, 0, _, _, some_eq (by decide +kernel), by decide +kernel, by decide +kernel,
        by decide +kernel, pair_ok (by decide +kernel), _, by decide +kernel, ok_eq (by decide +kernel),
        by decide +kernel, by decide +kernel⟩⟩

theorem witness_HostReachesMemory :
    (∃ (s : State) (dpa : BitVec 41) (len : Fin 65) (d : List Byte), let pa := 0x010000000000 + dpa.toNat;
        hostReaches s .pf0 = true ∧ isStacked (pa + 64) = true ∧ dictVal s 0x3030 0 ≠ 1 ∧ d.length ≤ 64 ∧ (∀ w,
        (s.jn.get w).ctxs = []) ∧ s.poison = [] ∧ (∀ t, (s.tmem.get t).dead = []) ∧ memCanonical s.mem = true ∧
        concourseUp s = true)
    ∧ (∃ (s : State) (dpa : BitVec 41) (len : Fin 65) (d : List Byte), let pa := 0x010000000000 + dpa.toNat;
        hostReaches s .pf0 = true ∧ isStacked (pa + 64) = true ∧ dictVal s 0x3030 0 ≠ 1 ∧ d.length ≤ 64 ∧ (∀ w,
        (s.jn.get w).ctxs = []) ∧ s.poison = [] ∧ (∀ t, (s.tmem.get t).dead = []) ∧ memCanonical s.mem = true ∧
        concourseUp s = false ∧ 0x020000000000 ≤ pa ∧ 1 ≤ len.val)
    ∧ (∃ (s : State) (dpa : BitVec 41) (len : Fin 65) (d : List Byte), let pa := 0x010000000000 + dpa.toNat;
        hostReaches s .pf0 = true ∧ isStacked (pa + 64) = true ∧ dictVal s 0x3030 0 ≠ 1 ∧ d.length ≤ 64 ∧ (∀ w,
        (s.jn.get w).ctxs = []) ∧ s.poison = [] ∧ (∀ t, (s.tmem.get t).dead = []) ∧ memCanonical s.mem = true ∧
        concourseUp s = false ∧ 0x020000000000 ≤ pa ∧ 1 ≤ d.length) :=
  ⟨⟨hm up, 0x1000, 0, [], by decide +kernel, by decide +kernel, by decide +kernel, by decide +kernel,
      by intro w; cases w <;> decide +kernel, by decide +kernel, by intro t; cases t <;> decide +kernel,
      by decide +kernel, by decide +kernel⟩,
    ⟨hm ccDown, 0x010000000000, 1, [], by decide +kernel, by decide +kernel, by decide +kernel, by decide +kernel,
        by intro w; cases w <;> decide +kernel, by decide +kernel, by intro t; cases t <;> decide +kernel,
        by and_intros <;> decide +kernel⟩,
    ⟨hm ccDown, 0x010000000000, 0, [0, 5], by decide +kernel, by decide +kernel, by decide +kernel,
        by decide +kernel, by intro w; cases w <;> decide +kernel, by decide +kernel,
        by intro t; cases t <;> decide +kernel, by and_intros <;> decide +kernel⟩⟩

theorem witness_PartitionWindow :
    (∃ (s : State) (part : Fin 16) (offset : BitVec 36) (len : Fin 65) (d : List Byte),
        let va := ((pageOf s (.vf part)).winVa.toNat + offset.toNat) % 2 ^ 48;
        let c : Ctx := { part := part.val, tile := .e0, copy := cfgEio s };
        let a : State := { s with heldAt := none }; hostReaches s (.vf part) = true ∧ 1 ≤ len.val ∧
        va % 64 + len.val ≤ 64 ∧ 1 ≤ d.length ∧ va % 64 + d.length ≤ 64 ∧
        ∃ (x : Xlat) (b : State) (bs : List Byte), translate a c va false = .ok x ∧
        registered s false x.pa len.val = none ∧ meetPage (wakeStacks a x.pa len.val) c x va = (b, none) ∧
        readPiece b c va len.val = .ok bs ∧ translate a c va true = .ok x ∧
        registered s true x.pa d.length = none ∧ meetPage a c x va = (b, none))
    ∧ (∃ (s : State) (part : Fin 16) (offset : BitVec 36) (len : Fin 65) (d : List Byte),
        let va := ((pageOf s (.vf part)).winVa.toNat + offset.toNat) % 2 ^ 48;
        let c : Ctx := { part := part.val, tile := .e0, copy := cfgEio s };
        let a : State := { s with heldAt := none }; hostReaches s (.vf part) = true ∧ 1 ≤ len.val ∧
        va % 64 + len.val ≤ 64 ∧ 1 ≤ d.length ∧ va % 64 + d.length ≤ 64 ∧ ∃ (e : AccErr),
        translate a c va false = .error e ∧ e.wait = none ∧ e.phys = false ∧ e.cause ≠ 0x0206 ∧ e.cause ≠ 0x0306 ∧
        translate a c va true = .error e)
    ∧ (∃ (s : State) (part : Fin 16) (offset : BitVec 36) (len : Fin 65) (d : List Byte),
        let va := ((pageOf s (.vf part)).winVa.toNat + offset.toNat) % 2 ^ 48;
        let c : Ctx := { part := part.val, tile := .e0, copy := cfgEio s };
        let a : State := { s with heldAt := none }; hostReaches s (.vf part) = true ∧ 1 ≤ len.val ∧
        va % 64 + len.val ≤ 64 ∧ 1 ≤ d.length ∧ va % 64 + d.length ≤ 64 ∧ ∃ (e : AccErr),
        translate a c va false = .error e ∧ e.wait = none ∧ e.phys = false ∧ e.cause ≠ 0x0206 ∧ e.cause = 0x0306 ∧
        translate a c va true = .error e) :=
  ⟨⟨pw (world up), 0, 0, 1, [1], by decide +kernel, by decide +kernel, by decide +kernel, by decide +kernel,
      by decide +kernel, _, _, _, ok_eq (by decide +kernel), by decide +kernel, pair_none (by decide +kernel),
      ok_eq (by decide +kernel), ok_eq2 (by decide +kernel) (by decide +kernel), by decide +kernel,
      by decide +kernel⟩,
    ⟨pwU, 0, 0, 4, [1], by decide +kernel, by decide +kernel, by decide +kernel, by decide +kernel,
        by decide +kernel, _, error_eq (by decide +kernel), by decide +kernel, by decide +kernel,
        by decide +kernel, by decide +kernel, error_eq2 (by decide +kernel) (by decide +kernel)⟩,
    ⟨pwW, 0, 0, 1, [1], by decide +kernel, by decide +kernel, by decide +kernel, by decide +kernel,
        by decide +kernel, _, error_eq (by decide +kernel), by decide +kernel, by decide +kernel,
        by decide +kernel, by decide +kernel, error_eq2 (by decide +kernel) (by decide +kernel)⟩⟩

end G04

/-! ### Tile steps, the chain and its partials -/

namespace G05

def runs (s : State) : State := s.modPower fun p => { p with clusters := [(0, { state := .run })] }
def w0 : CoreWalk := { first := 0, units := 1 }
def lw (w : CoreWalk) : LoopWork := { bucket := 0, walks := [(0, w)] }
def loopOf (s : State) (id : Nat) : LoopWork := match taskOf s id with | some t => (match t.work with | .loop x => x | _ => {bucket := 9}) | none => {bucket := 9}
def stageOf (s : State) (id : Nat) : StageWork := match taskOf s id with | some t => (match t.work with | .stage x => x | _ => {}) | none => {}
/- the loop task after 0, 1, 2, … steps -/
def go (b : State) (id : Nat) (e : State → State) : Nat → State
  | 0 => b
  | n + 1 => e (nx (exec (.tileStepBegin id 0) (go b id e n)))
def disp (s : State) (id : Nat) : State := runs (nx (exec (.taskDispatch id .e0) s))
def sl (n : Nat) : State := go (disp wLoop xLoop.id) xLoop.id id n
def tl (n : Nat) : Task := (taskOf (sl n) xLoop.id).getD xLoop
def outBad (s : State) : State := { s with tmem := s.tmem.map fun _ m => { m with tlb := [{ tlb0 with leaf := word [(0, sm), (6, 2)] }] } }
def sNF : State := (sl 0).modTask xLoop.id fun t => { t with work := .loop { bucket := 0, walks := [(0, { first := 0, units := 1 })] } }
/- two K steps and several tiles: a larger task -/
def vE (s : State) : WalkEnv := walkEnv { s with heldAt := none } ((taskOf s xLoop.id).getD xLoop) dL 0 0
  where dL := parseLoop ((taskOf s xLoop.id).getD xLoop).body
def wOf (s : State) : CoreWalk := Table.get { first := 9, units := 9 } (loopOf s xLoop.id).walks 0
def bigWord : Nat := word [(46, 3), (52, 1), (480, 0x3F800000)]
  + 2 ^ 512 * word [(126, 1), (0, 24), (64, 8)] + 2 ^ 640 * word [(126, 2), (32, 8), (64,
      1)] + 2 ^ 768 * word [(126, 3), (0, 1), (32, 1)]
  + 2 ^ 1280 * word [(0, 1), (160, 0x10000), (26, 0), (20, 2)] + 2 ^ 1536 * word [(0, 1), (160, 0x11000), (26, 2),
      (20, 2)]
  + 2 ^ 1792 * word [(0, 0), (160, 0x12000), (26, 4), (20, 2)]
  + 2 ^ 2048 * word [(180, 8), (193, 8), (206, 8), (0, 24), (30, 8), (60, 8)]
def sBigF : State := front (withPlan (put (world up) 0x1000 512 bigWord) 1) (hdrBits 1 0 ++ [(320, 24), (350, 8),
    (380, 8)])
def xBig : Task := mkTask sBigF checkLoop id
def sb (n : Nat) : State := go (disp (withTask sBigF xBig) xBig.id) xBig.id id n
def mcWord : Nat := loopWord + 2 ^ (1280 + 15)
def mcTask : Task := run1 { xLoop with body := leBytes 512 mcWord, staging := 1, work := .loop (lw { w0 with fillB := true }) }
def sMc : State := runs (withTask sLoop mcTask)
def sMcD : State := nx (exec (.multicastDelivery xLoop.id ⟨false, .e0⟩) sMc)
-- stage COMPUTE task
def stWord (iters : Nat) : Nat := word [(0, 0), (304, iters), (464, 0x7000), (175, 1), (171, 0), (144, 9)]
def stT (x : StageWork) : Task := run1 { xStage with body := leBytes 64 (stWord 0), body2 := leBytes 512 loopWord, hdr := entryOf (hdrBits 3 0 ++ loopArgs), work := .stage x }
def hh : HeldHandle := { binding := 0, siding := 9, handle := 1 }
def sdGood : Nat := word [(208, 0x20000), (184, 128), (152, 128), (139, 4), (131, 0), (124, 2), (116, 9)]
def sdX : Siding := { part := 0, wing := .east, num := 9, desc := sdGood, home := .e0, handles := [(1, .taken 0)] }
def rn (w : CoreWalk) : StageRun := { held := [hh], loop := lw w }
def wF : CoreWalk := { w0 with fillA := true, fillB := true }
def stX (w : CoreWalk) : StageWork := { runs := [rn w] }
def sSt (x : StageWork) : State := { runs (withTask sStage (stT x)) with sidings := [sdX] }
def xNone : StageWork := { runs := [{ loop := lw w0 }] }
def stWalk (n : Nat) : State := go (sSt (stX wF)) xStage.id id n
def x2 : StageWork := { runs := [rn { wF with step := 1 }, { rn wF with final := true }] }
def stBad (n : Nat) : State := outBad (stWalk n)
def mcStage : Task := { stT (stX wF) with body2 := leBytes 512 mcWord, staging := 1 }
def sMcS : State := { sSt (stX wF) with tasks := [mcStage] }
def planT : Task := { mcTask with plan := leBytes 128 (word [(80, 1), (0, 1)] + 2 ^ 128 * word [(80, 1), (0, 2)]), phases := [(0, 0)] }
def yT : CoreTransfer := { core := 0, task := xLoop.id, write := true, ranges := [(0, 64)] }
def sPl : State := ({ sMc with tasks := [planT] }).modSch .e0 fun x => { x with transfers := [yT] }
def unC (s : State) : State := setCtrTable s (blkSch .e0) (Table.set 0 (ctrTable s (blkSch .e0)) 0x320 (ctr s (blkSch .e0) 0x320 - 1))
def dlv (S : State) (id : Nat) : State := let h : State := { S with heldAt := none };
    let t := (taskOf S id).getD xLoop; unC (deliverTile h t (parseLoop t.body) (loopOf S id) false .e0).1
def dlvS (S : State) (id : Nat) : State := let h : State := { S with heldAt := none };
    let t := (taskOf S id).getD xLoop; let z := rn wF;
    unC (deliverTile h t (boundBody h t z.held) z.loop false .e0).1
def int0 (c : PortClass) (a : RowAccess) (b : Fin 40) (m : Option RowAccess) : Intrusion := { task := xLoop.id, tile := .e0, core := 0, bank := b, row := 5, cls := c, access := a, met := m }
def strictT : Task := { mcTask with strict := true }
def wr : RowAccess := .write 3 [1, 2, 3]
def wr2 : RowAccess := .write 60 [7, 8, 9, 10, 11, 12]
def wr3 : RowAccess := .write 4 [21, 22, 23]
def poke (s : State) : State := { s with mem := [(windowBase 0 + rowOffset (int0 .dma .read 0 none) + 7, 77)] }
/-! chain partials -/
def chW : Nat := word [(480, 0x3F800000), (218, 0), (212, 1), (206, 2), (200, 4), (194, 6), (188, 2), (182, 8),
    (170, 9), (164, 1), (131, 2), (124, 1), (119, 1), (107, 1)] + 2 ^ 512 * word [(464, 0x10000), (352, 0x11000),
    (0, 1), (8, 0)] + 2 ^ 1024 * word [(432, 5)]
def row0 : Row := { m := 0, l := 0x3F800000, o := List.replicate 64 0 }
def chX (done : Nat) : ChainWork := { parts := [(0, [row0, row0]), (1, [row0, row0])], state := [(0, [row0, row0])], complete := true }
def chT (a : Nat) : Task := run1 { xChain with body := leBytes 256 chW, hdr := entryOf ([(0, 0x77), (32, 2), (97, 1), (106, 16), (118, 2), (123, 1), (128, 0x1000), (192, 0x2000)] ++ [(480, a), (448, 16)]), cores := [0, 1], work := .chain (chX 0) }
def chS (a : Nat) : State := withTask sChainF (chT a)
def chStrict : State := withTask sChainF { chT 2 with strict := true }

theorem witness_TileStepTaken :
    (∃ (s : State) (id : Nat) (core : Nat) (t : Task) (x : LoopWork) (w : CoreWalk), taskOf s id = some t ∧
        t.status = .running ∧ t.work = .loop x ∧ core < t.cores.length ∧ coreReady s (nth 0 t.cores core) = true ∧
        Table.find x.walks core = some w ∧ w.done = false ∧ let h : State := { s with heldAt := none };
        let v := walkEnv h t (parseLoop t.body) x.bucket core; stepReady v x w = false)
    ∧ (∃ (s : State) (id : Nat) (core : Nat) (t : Task) (x : LoopWork) (w : CoreWalk), taskOf s id = some t ∧
        t.status = .running ∧ t.work = .loop x ∧ core < t.cores.length ∧ coreReady s (nth 0 t.cores core) = true ∧
        Table.find x.walks core = some w ∧ w.done = false ∧ let h : State := { s with heldAt := none };
        let v := walkEnv h t (parseLoop t.body) x.bucket core; ∃ (u : State) (o : StepOut),
        stepReady v x w = true ∧ walkStep (enterStep h v w) v w = (u, .ok o) ∧ memCanonical s.mem = true ∧
        (∀ y ∈ w.outs, y.at_ + 2 ≠ w.step))
    ∧ (∃ (s : State) (id : Nat) (core : Nat) (t : Task) (x : LoopWork) (w : CoreWalk), taskOf s id = some t ∧
        t.status = .running ∧ t.work = .loop x ∧ core < t.cores.length ∧ coreReady s (nth 0 t.cores core) = true ∧
        Table.find x.walks core = some w ∧ w.done = false ∧ let h : State := { s with heldAt := none };
        let v := walkEnv h t (parseLoop t.body) x.bucket core; ∃ (u : State) (e : AccErr), stepReady v x w = true ∧
        walkStep (enterStep h v w) v w = (u, .error e) ∧ (faultTask u id t.part e .core v.core).heldAt = none) :=
  ⟨⟨sNF, xLoop.id, 0, _, loopOf (sNF) xLoop.id, _, some_eq (by decide +kernel), by decide +kernel,
      by decide +kernel, by decide +kernel, by decide +kernel, some_eq (by decide +kernel), by decide +kernel,
      by decide +kernel⟩,
    ⟨sl 0, xLoop.id, 0, _, loopOf (sl 0) xLoop.id, _, some_eq (by decide +kernel), by decide +kernel,
        by decide +kernel, by decide +kernel, by decide +kernel, some_eq (by decide +kernel), by decide +kernel, _,
        _, by decide +kernel, pair_ok (by decide +kernel), by decide +kernel, by decide +kernel⟩,
    ⟨outBad (sl 2), xLoop.id, 0, _, loopOf (sl 2) xLoop.id, _, some_eq (by decide +kernel), by decide +kernel,
        by decide +kernel, by decide +kernel, by decide +kernel, some_eq (by decide +kernel), by decide +kernel, _,
        _, by decide +kernel, pair_error (by decide +kernel), by decide +kernel⟩⟩

theorem witness_OutputTileStations :
    (∃ (s : State) (u : State) (v : WalkEnv) (w : CoreWalk) (x : StepOut), (∀ o ∈ w.outs, o.at_ < w.step) ∧
        (∀ o ∈ w.outs, w.step ≤ o.at_ + 2) ∧ (∀ o ∈ w.outs, ∀ p ∈ w.outs, o.at_ = p.at_ → o = p) ∧
        walkStep s v w = (u, .ok x) ∧ ∃ o ∈ x.walk.outs, ∃ p ∈ x.walk.outs, o.at_ = p.at_)
    ∧ (∃ (s : State) (u : State) (v : WalkEnv) (w : CoreWalk) (x : StepOut), (∀ o ∈ w.outs, o.at_ < w.step) ∧
        (∀ o ∈ w.outs, w.step ≤ o.at_ + 2) ∧ (∀ o ∈ w.outs, ∀ p ∈ w.outs, o.at_ = p.at_ → o = p) ∧
        walkStep s v w = (u, .ok x) ∧ ∃ o ∈ w.outs, o.at_ + 2 ≠ w.step) :=
  ⟨⟨sl 0, _, vE (sl 0), wOf (sl 0), _, by decide +kernel, by decide +kernel, by decide +kernel,
      pair_ok (by decide +kernel), _, mem_at 0 (by decide +kernel), _, mem_at 0 (by decide +kernel),
      by decide +kernel⟩,
    ⟨sl 1, _, vE (sl 1), wOf (sl 1), _, by decide +kernel, by decide +kernel, by decide +kernel,
        pair_ok (by decide +kernel), _, mem_at 0 (by decide +kernel), by decide +kernel⟩⟩

theorem witness_StageStepTaken :
    (∃ (s : State) (id : Nat) (core : Nat) (t : Task) (x : StageWork), taskOf s id = some t ∧ t.status = .running ∧
        t.work = .stage x ∧ core < t.cores.length ∧ coreReady s (nth 0 t.cores core) = true ∧
        let h : State := { s with heldAt := none }; let ps := stepPlan t x.bucket core true 0 x.runs;
        (ps = [] ∨ planReady h t x core ps = false))
    ∧ (∃ (s : State) (id : Nat) (core : Nat) (t : Task) (x : StageWork), taskOf s id = some t ∧
        t.status = .running ∧ t.work = .stage x ∧ core < t.cores.length ∧ coreReady s (nth 0 t.cores core) = true ∧
        let h : State := { s with heldAt := none }; let ps := stepPlan t x.bucket core true 0 x.runs;
        ∃ (j : Nat) (w : CoreWalk) (rest : List (Nat × CoreWalk)) (y : StageRun), ps = (j, w) :: rest ∧
        planReady h t x core ps = true ∧ x.runs[j]? = some y ∧ let a := enterStep h (runEnv h t x y core) w;
        ∃ (u : State) (z : StageWork), foldErr (stepRun t core) a (markDrain t x ps) ps = (u, .ok z) ∧
        (settleStage u t z).heldAt = none)
    ∧ (∃ (s : State) (id : Nat) (core : Nat) (t : Task) (x : StageWork), taskOf s id = some t ∧
        t.status = .running ∧ t.work = .stage x ∧ core < t.cores.length ∧ coreReady s (nth 0 t.cores core) = true ∧
        let h : State := { s with heldAt := none }; let ps := stepPlan t x.bucket core true 0 x.runs;
        ∃ (j : Nat) (w : CoreWalk) (rest : List (Nat × CoreWalk)) (y : StageRun), ps = (j, w) :: rest ∧
        planReady h t x core ps = true ∧ x.runs[j]? = some y ∧ let a := enterStep h (runEnv h t x y core) w;
        ∃ (u : State) (e : UnitErr), foldErr (stepRun t core) a (markDrain t x ps) ps = (u, .error e) ∧
        (faultTask (putStage u id (markDrain t x ps)) id t.part e.err e.unit e.core).heldAt = none)
    ∧ (∃ (t : Task) (bucket : Nat) (core : Nat) (rs : List StageRun), let ps := stepPlan t bucket core true 0 rs;
        ∃ (i : Nat) (p : Nat × CoreWalk) (q : Nat × CoreWalk), ps[i]? = some p ∧ ps[i + 1]? = some q) :=
  ⟨⟨sSt xNone, xStage.id, 0, _, xNone, some_eq (by decide +kernel), by and_intros <;> decide +kernel⟩,
    ⟨stWalk 0, xStage.id, 0, _, stageOf (stWalk 0) xStage.id, some_eq (by decide +kernel), by decide +kernel,
        by decide +kernel, by decide +kernel, by decide +kernel, _, _, _, _, cons_pair_eq (by decide +kernel),
        by decide +kernel, some_eq (by decide +kernel), _, _, pair_ok (by decide +kernel), by decide +kernel⟩,
    ⟨stBad 2, xStage.id, 0, _, stageOf (stBad 2) xStage.id, some_eq (by decide +kernel), by decide +kernel,
        by decide +kernel, by decide +kernel, by decide +kernel, _, _, _, _, cons_pair_eq (by decide +kernel),
        by decide +kernel, some_eq (by decide +kernel), _, _, pair_error (by decide +kernel), by decide +kernel⟩,
    ⟨stT x2, 0, 0, x2.runs, 0, _, _, some_eq (by decide +kernel), some_eq (by decide +kernel)⟩⟩

theorem witness_PhaseAndMulticast :
    (∃ (s : State) (id : Nat) (t : Task), taskOf s id = some t ∧ t.status = .running ∧
        ∃ (core : Nat) (phase : Fin 8), core < t.cores.length ∧ phase.val ∉ nextPhase t core)
    ∧ (∃ (s : State) (id : Nat) (t : Task), taskOf s id = some t ∧ t.status = .running ∧
        ∃ (core : Nat) (phase : Fin 8), core < t.cores.length ∧ phase.val ∈ nextPhase t core ∧
        memCanonical s.mem = true ∧ ∃ u, exec (.phaseChange id core phase) s = .next u ∧
        ∃ y ∈ (u.sch.get (coreTile (nth 0 t.cores core))).transfers, y.core = nth 0 t.cores core)
    ∧ (∃ (s : State) (id : Nat) (t : Task), taskOf s id = some t ∧ t.status = .running ∧ ∃ (b : Bool) (y : Tile),
        let h : State := { s with heldAt := none }; ∃ (x : LoopWork), t.work = .loop x ∧
        mayDeliver h t (parseLoop t.body) x b y = true ∧ ∃ (u : State),
        deliverTile h t (parseLoop t.body) x b y = (u, .ok ()))
    ∧ (∃ (s : State) (id : Nat) (t : Task), taskOf s id = some t ∧ t.status = .running ∧ ∃ (b : Bool) (y : Tile),
        let h : State := { s with heldAt := none }; ∃ (x : LoopWork), t.work = .loop x ∧
        mayDeliver h t (parseLoop t.body) x b y = true ∧ ∃ (u : State) (e : AccErr),
        deliverTile h t (parseLoop t.body) x b y = (u, .error e) ∧ (faultTask u id t.part e .memory).heldAt = none)
    ∧ (∃ (s : State) (id : Nat) (t : Task), taskOf s id = some t ∧ t.status = .running ∧ ∃ (b : Bool) (y : Tile),
        let h : State := { s with heldAt := none }; ∃ (x : StageWork) (j : Nat) (z : StageRun) (u : State),
        t.work = .stage x ∧ deliverRun h t x b y = some j ∧ x.runs[j]? = some z ∧
        stageMayDeliver h t x j z b y = true ∧ deliverTile h t (boundBody h t z.held) z.loop b y = (u, .ok ())) :=
  ⟨⟨sMc, xLoop.id, _, some_eq (by decide +kernel), by decide +kernel, 0, 1, by decide +kernel, by decide +kernel⟩,
    ⟨sPl, xLoop.id, _, some_eq (by decide +kernel), by decide +kernel, 0, 0, by decide +kernel, by decide +kernel,
        by decide +kernel, _, next_eq (by decide +kernel), _, mem_at 0 (by decide +kernel), by decide +kernel⟩,
    ⟨sMc, xLoop.id, _, some_eq (by decide +kernel), by decide +kernel, false, .e0, loopOf sMc xLoop.id,
        by decide +kernel, by decide +kernel, _, pair_unit (by decide +kernel)⟩,
    ⟨{ sMc with tmem := up.tmem }, xLoop.id, _, some_eq (by decide +kernel), by decide +kernel, false, .e0,
        loopOf sMc xLoop.id, by decide +kernel, by decide +kernel, _, _, pair_error (by decide +kernel),
        by decide +kernel⟩,
    ⟨sMcS, xStage.id, _, some_eq (by decide +kernel), by decide +kernel, false, .e0, stX wF, _, _, _,
        by decide +kernel, some_eq (by decide +kernel), some_eq (by decide +kernel), by decide +kernel,
        pair_unit (by decide +kernel)⟩⟩

theorem witness_IntrudingAccess :
    (∃ (s : State) (x : Intrusion) (t : Task), taskOf s x.task = some t ∧ t.dispatched = true ∧ x.cls ≠ .idle ∧
        memCanonical s.mem = true ∧ let i := coreIndex x.tile x.core.val; let q := bankOwner s i x.bank.val;
        q.2 = portClassCode x.cls)
    ∧ (∃ (s : State) (x : Intrusion) (t : Task), taskOf s x.task = some t ∧ t.dispatched = true ∧ x.cls ≠ .idle ∧
        memCanonical s.mem = true ∧ let i := coreIndex x.tile x.core.val; let q := bankOwner s i x.bank.val;
        q.2 ≠ portClassCode x.cls ∧ wingOf x.tile ≠ t.wing ∧ concourseUp s = false)
    ∧ (∃ (s : State) (x : Intrusion) (t : Task), taskOf s x.task = some t ∧ t.dispatched = true ∧ x.cls ≠ .idle ∧
        memCanonical s.mem = true ∧ let i := coreIndex x.tile x.core.val; let q := bankOwner s i x.bank.val;
        q.2 ≠ portClassCode x.cls ∧ (wingOf x.tile = t.wing ∨ concourseUp s = true) ∧
        flg (Table.get 0 (s.sch.get x.tile).confFirst x.core.val) 31 = false ∧ q.1 < 8 ∧ t.strict = false)
    ∧ (∃ (s : State) (x : Intrusion) (t : Task), taskOf s x.task = some t ∧ t.dispatched = true ∧ x.cls ≠ .idle ∧
        memCanonical s.mem = true ∧ let i := coreIndex x.tile x.core.val; let q := bankOwner s i x.bank.val;
        q.2 ≠ portClassCode x.cls ∧ (wingOf x.tile = t.wing ∨ concourseUp s = true) ∧
        flg (Table.get 0 (s.sch.get x.tile).confFirst x.core.val) 31 = true)
    ∧ (∃ (s : State) (x : Intrusion) (t : Task), taskOf s x.task = some t ∧ t.dispatched = true ∧ x.cls ≠ .idle ∧
        memCanonical s.mem = true ∧ let i := coreIndex x.tile x.core.val; let q := bankOwner s i x.bank.val;
        q.2 ≠ portClassCode x.cls ∧ (wingOf x.tile = t.wing ∨ concourseUp s = true) ∧ t.strict = true ∧ (∀ c,
        t.status ≠ .stopping c))
    ∧ (∃ (s : State) (x : Intrusion) (t : Task), taskOf s x.task = some t ∧ t.dispatched = true ∧ x.cls ≠ .idle ∧
        memCanonical s.mem = true ∧ let i := coreIndex x.tile x.core.val; let q := bankOwner s i x.bank.val;
        let stores (r : Option RowAccess) (k : Nat) (v : Byte) : Prop := ∃ b d, r = some (.write b d) ∧ b.val ≤ k ∧ d[k - b.val]? = some v;
        q.2 ≠ portClassCode x.cls ∧ (wingOf x.tile = t.wing ∨ concourseUp s = true) ∧ ∃ (k : Nat) (v : Byte),
        k < 64 ∧ stores (some x.access) k v)
    ∧ (∃ (s : State) (x : Intrusion) (t : Task), taskOf s x.task = some t ∧ t.dispatched = true ∧ x.cls ≠ .idle ∧
        memCanonical s.mem = true ∧ let i := coreIndex x.tile x.core.val; let q := bankOwner s i x.bank.val;
        let stores (r : Option RowAccess) (k : Nat) (v : Byte) : Prop := ∃ b d, r = some (.write b d) ∧ b.val ≤ k ∧ d[k - b.val]? = some v;
        q.2 ≠ portClassCode x.cls ∧ (wingOf x.tile = t.wing ∨ concourseUp s = true) ∧ ∃ (k : Nat) (v : Byte),
        k < 64 ∧ (¬ ∃ v', stores (some x.access) k v') ∧ stores x.met k v)
    ∧ (∃ (s : State) (x : Intrusion) (t : Task), taskOf s x.task = some t ∧ t.dispatched = true ∧ x.cls ≠ .idle ∧
        memCanonical s.mem = true ∧ let i := coreIndex x.tile x.core.val; let q := bankOwner s i x.bank.val;
        let row := windowBase i + rowOffset x;
        let stores (r : Option RowAccess) (k : Nat) (v : Byte) : Prop := ∃ b d, r = some (.write b d) ∧ b.val ≤ k ∧ d[k - b.val]? = some v;
        q.2 ≠ portClassCode x.cls ∧ (wingOf x.tile = t.wing ∨ concourseUp s = true) ∧ ∃ (a : Nat), (∀ k v,
        k < 64 → a = row + k → ¬ stores (some x.access) k v ∧ ¬ stores x.met k v)) :=
  ⟨⟨sMc, int0 .engine wr 0 none, _, some_eq (by decide +kernel), by and_intros <;> decide +kernel⟩,
    ⟨{ sMc with cc := { up.cc with state := .down } }, { int0 .dma wr2 0 (some .read) with tile := .w0 }, _,
        some_eq (by decide +kernel), by and_intros <;> decide +kernel⟩,
    ⟨sMc, int0 .dma .read 0 none, _, some_eq (by decide +kernel), by and_intros <;> decide +kernel⟩,
    ⟨(poke sMc).modSch .e0 fun x => { x with confFirst := [(0, 0x80000000)] }, int0 .dma .read 0 none, _,
        some_eq (by decide +kernel), by and_intros <;> decide +kernel⟩,
    ⟨{ sMc with tasks := [strictT] }, int0 .dma wr2 0 (some .read), _, some_eq (by decide +kernel),
        by decide +kernel, by decide +kernel, by decide +kernel, by decide +kernel, by decide +kernel,
        by decide +kernel, not_stopping (by decide +kernel)⟩,
    ⟨sMc, int0 .network wr2 1 (some wr3), _, some_eq (by decide +kernel), by decide +kernel, by decide +kernel,
        by decide +kernel, by decide +kernel, by decide +kernel, 60, 7, by decide +kernel, ⟨_, _, rfl,
        by decide +kernel, by decide +kernel⟩⟩,
    ⟨sMc, int0 .network wr2 1 (some wr3), _, some_eq (by decide +kernel), by decide +kernel, by decide +kernel,
        by decide +kernel, by decide +kernel, by decide +kernel, 4, 21, by decide +kernel, fun ⟨_, _, _, h, b,
        _⟩ => by cases h; exact absurd b (by decide +kernel), ⟨_, _, rfl, by decide +kernel, by decide +kernel⟩⟩,
    ⟨sMc, int0 .dma .read 0 none, _, some_eq (by decide +kernel), by decide +kernel, by decide +kernel,
        by decide +kernel, by decide +kernel, by decide +kernel,
        windowBase 0 + rowOffset (int0 .dma .read 0 none) + 7, fun _ _ _ _ => ⟨(fun ⟨_, _, h, _⟩ => (by cases h)),
        (fun ⟨_, _, h, _⟩ => (by cases h))⟩⟩⟩

theorem witness_PartialArrives :
    (∃ (s : State) (id : Nat) (t : Task) (x : ChainWork) (h : Fin 64) (j : Fin 336) (tile : Nat),
        taskOf s id = some t ∧ t.status = .running ∧ t.work = .chain x ∧ let b := parseChain t.body;
        let n := Table.get 0 x.arrived (mergeKey h.val j.val);
        let next := x.complete = true ∧ h.val < b.kvh ∧ 1 ≤ j.val ∧ j.val < b.ksplit ∧ tile = n ∧ n < tileCount t b ∧ Table.get 0 x.merged (mergeKey h.val j.val) = n;
        (¬ next))
    ∧ (∃ (s : State) (id : Nat) (t : Task) (x : ChainWork) (h : Fin 64) (j : Fin 336) (tile : Nat),
        taskOf s id = some t ∧ t.status = .running ∧ t.work = .chain x ∧ let b := parseChain t.body;
        let i := nth 0 t.cores (h.val * b.ksplit);
        let bs := partialBytes t (tileOfRows b tile (partRows t b x (h.val * b.ksplit + j.val)));
        memCanonical s.mem = true ∧ inCoreBytes i (inboxSlot t b j.val) bs.length = true)
    ∧ (∃ (s : State) (id : Nat) (t : Task) (x : ChainWork) (h : Fin 64) (j : Fin 336) (tile : Nat),
        taskOf s id = some t ∧ t.status = .running ∧ t.work = .chain x ∧ let b := parseChain t.body;
        let n := Table.get 0 x.arrived (mergeKey h.val j.val); let a : State := { s with heldAt := none };
        let m := landPartial a t b x h.val j.val tile;
        let next := x.complete = true ∧ h.val < b.kvh ∧ 1 ≤ j.val ∧ j.val < b.ksplit ∧ tile = n ∧ n < tileCount t b ∧ Table.get 0 x.merged (mergeKey h.val j.val) = n;
        let runs := (taskOf m t.id).any (fun y => y.status == .running) = true; next ∧ (¬ runs))
    ∧ (∃ (s : State) (id : Nat) (t : Task) (x : ChainWork) (h : Fin 64) (j : Fin 336) (tile : Nat),
        taskOf s id = some t ∧ t.status = .running ∧ t.work = .chain x ∧ let b := parseChain t.body;
        let n := Table.get 0 x.arrived (mergeKey h.val j.val); let a : State := { s with heldAt := none };
        let m := landPartial a t b x h.val j.val tile;
        let r := mergeArrived m t b h.val ({ x with arrived := Table.insert x.arrived (mergeKey h.val j.val) (n + 1) }, noFlags);
        let next := x.complete = true ∧ h.val < b.kvh ∧ 1 ≤ j.val ∧ j.val < b.ksplit ∧ tile = n ∧ n < tileCount t b ∧ Table.get 0 x.merged (mergeKey h.val j.val) = n;
        let runs := (taskOf m t.id).any (fun y => y.status == .running) = true; next ∧ runs ∧
        Table.get 0 r.2.1.merged (mergeKey h.val (b.ksplit - 1)) ≠ tileCount t b)
    ∧ (∃ (s : State) (id : Nat) (t : Task) (x : ChainWork) (h : Fin 64) (j : Fin 336) (tile : Nat),
        taskOf s id = some t ∧ t.status = .running ∧ t.work = .chain x ∧ let b := parseChain t.body;
        let n := Table.get 0 x.arrived (mergeKey h.val j.val); let a : State := { s with heldAt := none };
        let m := landPartial a t b x h.val j.val tile;
        let r := mergeArrived m t b h.val ({ x with arrived := Table.insert x.arrived (mergeKey h.val j.val) (n + 1) }, noFlags);
        let next := x.complete = true ∧ h.val < b.kvh ∧ 1 ≤ j.val ∧ j.val < b.ksplit ∧ tile = n ∧ n < tileCount t b ∧ Table.get 0 x.merged (mergeKey h.val j.val) = n;
        let runs := (taskOf m t.id).any (fun y => y.status == .running) = true; ∃ (u : State) (z : ChainRun),
        next ∧ runs ∧ Table.get 0 r.2.1.merged (mergeKey h.val (b.ksplit - 1)) = tileCount t b ∧
        finishGroup r.1 t b h.val r.2 = (u, .ok z)) :=
  ⟨⟨chS 2, xChain.id, _, chX 0, 0, 1, 1, some_eq (by decide +kernel), by and_intros <;> decide +kernel⟩,
    ⟨chS 2, xChain.id, _, chX 0, 0, 1, 0, some_eq (by decide +kernel), by and_intros <;> decide +kernel⟩,
    ⟨chStrict, xChain.id, _, chX 0, 0, 1, 0, some_eq (by decide +kernel), by and_intros <;> decide +kernel⟩,
    ⟨chS 9, xChain.id, _, chX 0, 0, 1, 0, some_eq (by decide +kernel), by and_intros <;> decide +kernel⟩,
    ⟨chS 2, xChain.id, _, chX 0, 0, 1, 0, some_eq (by decide +kernel), by decide +kernel, by decide +kernel, _, _,
        by decide +kernel, by decide +kernel, by decide +kernel, pair_ok (by decide +kernel)⟩⟩

end G05

/-! ### Streams, deadlines and stalls -/

namespace G05b

def runs (s : State) : State := s.modPower fun p => { p with clusters := [(0, { state := .run })] }
-- COPY stage: input binding 0 of siding 9, output binding 1 of siding 8
def cpWord : Nat := word [(0, 1), (416, 0x10000), (368, 0x11000), (336, 64), (175, 1), (171, 3), (144, 9), (207,
    1), (206, 1), (203, 3), (176, 8)]
def cpT (x : StageWork) : Task := run1 { xStage with body := leBytes 64 cpWord, work := .stage x }
def sd (num : Nat) (pool : Nat) : Nat := word [(208, pool), (184, 128), (152, 128), (139, 4), (131, 0), (124, 2),
    (116, num)]
def sIn (q : List (Nat × Nat × Bool)) : Siding := { part := 0, wing := .east, num := 9, desc := sd 9 0x20000, home := .e0, handles := q.map (fun x => (x.1, .full 0)), queue := q }
def sOut (h : Table HandleState) : Siding := { part := 0, wing := .east, num := 8, desc := sd 8 0x30000, home := .e0, handles := h }
def cpS (x : StageWork) (q : List (Nat × Nat × Bool)) (h : Table HandleState) : State := { runs (withTask (stageMem up 0) (cpT x)) with sidings := [sIn q, sOut h] }
def lE0 : LoopWork := { bucket := 0 }
def rr (h : List HeldHandle) : StageRun := { held := h, loop := lE0 }
def x0 : StageWork := { runs := [rr []] }
def bIn : Binding := ⟨0, false, false, 3, 9⟩
def bOut : Binding := ⟨1, true, false, 3, 8⟩
def h0 : HeldHandle := { binding := 0, siding := 9, handle := 2 }
def h1 : HeldHandle := { binding := 1, siding := 8, handle := 1 }
def xI : StageWork := { runs := [rr [h0]] }
def full4 : Table HandleState := [(0, .acquired 0), (1, .acquired 0), (2, .acquired 1), (3, .acquired 1)]
def xSm : StageWork := x0
def tkU (s : State) (h : Nat) (q : List (Nat × Nat × Bool)) : State := ({ s with heldAt := none }).modSiding 0 .east 9 fun y => { y with queue := q, handles := Table.insert y.handles h (.taken 0) }
def acU (s : State) (h : Nat) : State := let s : State := { s with heldAt := none, freeCtr := s.freeCtr + 1 };
    s.modSiding 0 .east 8 fun y => { y with handles := Table.insert y.handles h (.acquired 0) }
def sT1 : State := cpS x0 [(2, 0, false), (3, 0, true)] []
def sT2 : State := cpS x0 [(3, 0, true)] []
def sT3 : State := { sT2 with sidings := [{ sIn [(3, 0, true)] with desc := word [(208, 0x20000), (184, 32), (152, 32), (139, 4), (131, 0), (124, 2), (116, 9)] }, sOut []] }
def sSg : State := { runs (withTask sStage (run1 { xStage with body := leBytes 64 (word [(0, 0), (464, 0x7000), (175, 1), (171, 0), (144, 9)]), body2 := leBytes 512 loopWord, hdr := entryOf (hdrBits 3 0 ++ loopArgs), work := .stage x0 })) with
  sidings := [{ sIn [(2, 0, true)] with desc := sd 9 0x20000 + 2 ^ 112, segs := [(2, (0, 0, 0, 0))] }] }
def xE : StageWork := { runs := [rr [h0, h1]] }
def xE2 : StageWork := { runs := [{ rr [h0, h1] with final := true }] }
def xE3 : StageWork := { runs := [rr [h0, h1], rr []] }
def sE : State := cpS xE [] [(1, .acquired 0)]
-- compute
def w0 : CoreWalk := { first := 0, units := 1 }
def stWord : Nat := word [(0, 0), (464, 0x7000), (175, 1), (171, 0), (144, 9)]
def stT (x : StageWork) : Task := run1 { xStage with body := leBytes 64 stWord, body2 := leBytes 512 loopWord, hdr := entryOf (hdrBits 3 0 ++ loopArgs), work := .stage x }
def lD (d : Bool) : LoopWork := { bucket := 0, walks := [(0, { w0 with done := d })] }
def stX (d : Bool) : StageWork := { runs := [{ held := [h0], loop := lD d }] }
def sSt (x : StageWork) : State := { runs (withTask sStage (stT x)) with sidings := [sIn []] }
-- load
def ldWord : Nat := word [(0, 2), (304, 2), (464, 0x4000), (175, 1), (174, 1), (171, 3), (144, 8)]
def hL : HeldHandle := { binding := 0, siding := 8, handle := 1 }
def xLd : StageWork := { runs := [rr [hL]] }
def ldT (x : StageWork) : Task := run1 { xStage with body := leBytes 64 ldWord, hdr := entryOf (hdrBits 3 0), work := .stage x }
def ldSd : Siding := { part := 0, wing := .east, num := 8, desc := word [(139, 4), (124, 2), (116, 8), (112, 1)], home := .e0, handles := [(1, .acquired 0)] }
def winTlb (tier : Nat) : TlbEntry := { part := 0, va := 0, size := 0x40000000, leaf := word [(0, sm), (6, 2), (3, 1), (4, tier)] }
def ldS (w : Nat) (f : Table Frame) : State := { put (runs (withTask (stageMem up 0) (ldT xLd))) 0x4000 16 w with sidings := [ldSd], tmem := up.tmem.map fun t m => { m with tlb := [winTlb 2], frames := if t = .e0 then f else [] } }
def ew (l : Nat) : Nat := word [(16, 2), (72, 2), (96, 5), (84, 6), (64, l)]
def fullF : Table Frame := (List.range 7).map fun i => (i,
    { owner := 0, kind := .stream, page := 900 + i, valid := true, seg := some (1,1) })
def cpS' (x : StageWork) : State := cpS x [] [(1, .acquired 0)]
def far (s : State) : State := { s with tmem := s.tmem.map fun _ m => { m with tlb := [{ tlb0 with leaf := word [(0, sm), (6, 2)] }] } }
def yOf (x : StageWork) : StageRun := x.runs.headD { loop := lE0 }
def endU (s : State) (t : Task) (x : StageWork) : State :=
  let y := yOf x
  let s := if stageMode t = 0 then settleAliases s t [(boundBody s t y.held, x.bucket)] else s
  let s := if y.returned then s else returnInputs s t y.held
  let s := commitOutputs s t y.held y.final
  if y.drained then addCtr s (blkSch t.home) 0x0440 else s
def stageW' (a : State) (t : Task) (x : StageWork) : StageWork := let y := yOf x; { x with
      iter := x.iter + 1
      runs := if y.final then [] else if x.runs.tail.isEmpty then [openRun t x.bucket (some y)] else x.runs.tail
      lastCommit := (tickOf (endU a t x) t.wing).toNat, iterMissed := false, waiting := false, ended := y.final }
def dlT (dl : Nat) (st : TaskStatus) : Task := { xMove with hdr := entryOf [(0, 0x77), (32, 6), (36, 8), (64, dl)], status := st, work := .move false false }
def dlS (s : State) (x : Task) (rt : Bool) : State := { withTask s x with tt := s.tt.modify .east fun t => { t with count := 100 }, insts := [(.partCfg, { cfg0 with live := [{ num := 0, base := 0, copy := leBytes 256 (partWord + if rt then 2 else 0) }] })] }
def sA (id : Nat) (st prio : Nat) (b : BlockReason × Nat) (inp out : Nat) : Task :=
  run1 { xStage with id := id, ring := id, body := leBytes 64 (word [(0, 1), (136, st), (175, 1), (171, 3), (144, inp), (207, 1), (206, 1), (203, 3), (176, out)]), hdr := entryOf (hdrBits 3 0 ++ [(40, prio)]), blocked := some b, work := .stage x0 }
def tA : Task := sA 1 0 0 (.take 9, 5) 9 8
def tB : Task := sA 2 0 1 (.take 8, 6) 8 9
def sSt2 (n : Nat) : State := { world up with tasks := [tA, tB], nextTask := 3, sidings := [{ sIn [] with handles := [] }, sOut []], tt := up.tt.modify .east fun t => { t with count := BitVec.ofNat 64 n } }
def nobl (s : State) : State := { s with tasks := s.tasks.map fun t => { t with blocked := none } }

theorem witness_HandlesTakenAndAcquired :
    (∃ (s : State) (id : Nat) (k : Fin 4) (t : Task) (x : StageWork) (b : Binding) (y : Siding),
        taskOf s id = some t ∧ t.status = .running ∧ t.work = .stage x ∧ wants t x = some b ∧ b.num = k.val ∧
        sidingOf s t.part t.wing b.siding = some y ∧ b.out = false ∧
        y.queue.all (fun q => q.2.1 != stageStream t) = true)
    ∧ (∃ (s : State) (id : Nat) (k : Fin 4) (t : Task) (x : StageWork) (b : Binding) (y : Siding),
        taskOf s id = some t ∧ t.status = .running ∧ t.work = .stage x ∧ wants t x = some b ∧ b.num = k.val ∧
        sidingOf s t.part t.wing b.siding = some y ∧ ∃ (h : Nat) (st : Nat) (last : Bool), b.out = false ∧
        y.queue.find? (fun q => q.2.1 == stageStream t) = some (h, st, last) ∧
        let z := holdHandle t x { binding := k.val, siding := b.siding, handle := h, last := last }; ∃ u,
        sidingOf u t.part t.wing b.siding = some { y with queue := dropFirst (stageStream t) y.queue, handles := Table.insert y.handles h (.taken (stageStream t)) } ∧
        segmentFits t x.bucket b y h = true ∧ (settleStage u t z).heldAt = none)
    ∧ (∃ (s : State) (id : Nat) (k : Fin 4) (t : Task) (x : StageWork) (b : Binding) (y : Siding),
        taskOf s id = some t ∧ t.status = .running ∧ t.work = .stage x ∧ wants t x = some b ∧ b.num = k.val ∧
        sidingOf s t.part t.wing b.siding = some y ∧ ∃ (h : Nat) (st : Nat) (last : Bool), b.out = false ∧
        y.queue.find? (fun q => q.2.1 == stageStream t) = some (h, st, last) ∧ segmentFits t x.bucket b y h = false)
    ∧ (∃ (s : State) (id : Nat) (k : Fin 4) (t : Task) (x : StageWork) (b : Binding) (y : Siding),
        taskOf s id = some t ∧ t.status = .running ∧ t.work = .stage x ∧ wants t x = some b ∧ b.num = k.val ∧
        sidingOf s t.part t.wing b.siding = some y ∧ b.out = true ∧
        (mayAcquire y (stageStream t) = false ∨ freeHandles y = []))
    ∧ (∃ (s : State) (id : Nat) (k : Fin 4) (t : Task) (x : StageWork) (b : Binding) (y : Siding),
        taskOf s id = some t ∧ t.status = .running ∧ t.work = .stage x ∧ wants t x = some b ∧ b.num = k.val ∧
        sidingOf s t.part t.wing b.siding = some y ∧ b.out = true ∧ mayAcquire y (stageStream t) = true ∧
        freeHandles y ≠ [] ∧ ∃ u h, h ∈ freeHandles y ∧
        sidingOf u t.part t.wing b.siding = some { y with handles := Table.insert y.handles h (.acquired (stageStream t)) } ∧
        let z := holdHandle t x { binding := k.val, siding := b.siding, handle := h };
        (settleStage u t z).heldAt = none) :=
  ⟨⟨cpS x0 [] [], xStage.id, 0, _, _, _, _, some_eq (by decide +kernel), by decide +kernel,
      stage_eq (by decide +kernel), some_eq (by decide +kernel), by decide +kernel, some_eq (by decide +kernel),
      by decide +kernel, by decide +kernel⟩,
    ⟨sT1, xStage.id, 0, _, _, _, _, some_eq (by decide +kernel), by decide +kernel, stage_eq (by decide +kernel),
        some_eq (by decide +kernel), by decide +kernel, some_eq (by decide +kernel), _, _, _, by decide +kernel,
        some_eq3 (by decide +kernel), tkU sT1 2 [(3, 0, true)], by decide +kernel, by decide +kernel,
        by decide +kernel⟩,
    ⟨sSg, xStage.id, 0, _, _, _, _, some_eq (by decide +kernel), by decide +kernel, stage_eq (by decide +kernel),
        some_eq (by decide +kernel), by decide +kernel, some_eq (by decide +kernel), _, _, _, by decide +kernel,
        some_eq3 (by decide +kernel), by decide +kernel⟩,
    ⟨cpS xI [] full4, xStage.id, 1, _, _, _, _, some_eq (by decide +kernel), by decide +kernel,
        stage_eq (by decide +kernel), some_eq (by decide +kernel), by decide +kernel, some_eq (by decide +kernel),
        by decide +kernel, by decide +kernel⟩,
    ⟨cpS xI [] [], xStage.id, 1, _, _, _, _, some_eq (by decide +kernel), by decide +kernel,
        stage_eq (by decide +kernel), some_eq (by decide +kernel), by decide +kernel, some_eq (by decide +kernel),
        by decide +kernel, by decide +kernel, by decide +kernel, acU (cpS xI [] []) 0, 0, by decide +kernel,
        by decide +kernel, by decide +kernel⟩⟩

theorem witness_StageIterationEnds :
    (∃ (s : State) (id : Nat) (t : Task) (x : StageWork) (y : StageRun) (ys : List StageRun),
        taskOf s id = some t ∧ t.status = .running ∧ t.work = .stage x ∧ x.runs = y :: ys ∧ x.ended = false ∧
        allHeld t.body y.held = true ∧ x.waiting = false ∧ stageMode t = 0 ∧ walksDone y.loop = false)
    ∧ (∃ (s : State) (id : Nat) (t : Task) (x : StageWork) (y : StageRun) (ys : List StageRun),
        taskOf s id = some t ∧ t.status = .running ∧ t.work = .stage x ∧ x.runs = y :: ys ∧ x.ended = false ∧
        allHeld t.body y.held = true ∧ x.waiting = false ∧ let a : State := { s with heldAt := none };
        stageMode t = 0 ∧ walksDone y.loop = true ∧ (endIteration a t x).heldAt = none)
    ∧ (∃ (s : State) (id : Nat) (t : Task) (x : StageWork) (y : StageRun) (ys : List StageRun),
        taskOf s id = some t ∧ t.status = .running ∧ t.work = .stage x ∧ x.runs = y :: ys ∧ x.ended = false ∧
        allHeld t.body y.held = true ∧ x.waiting = false ∧ let a : State := { s with heldAt := none };
        ∃ (p : State) (x' : StageWork) (q : State) (bs : List Byte) (w : State), stageMode t = 1 ∧
        let c := coreCtx a t 0; let i := nth 0 t.cores 0; let src := copyEnd a t x y false (sgSrc t.body);
        let dst := copyEnd a t x y true (sgDst t.body);
        let r : List Byte × State := if dst ≤ src then (bs, q) else copyBytes q src dst bs;
        mergeRank a t x 0 0 [{ write := true, va := dst, len := copyLen t.hdr, source := some src }] = (p, x') ∧
        loadVa (openTransfer p { core := i, task := id, write := false, ranges := [] }) c src (copyLen t.hdr) = (q,
        .ok bs) ∧ saveVa (passThrough r.2 i r.1) c dst r.1 = (w, none) ∧
        (endIteration (closeCore w i) t x').heldAt = none)
    ∧ (∃ (s : State) (id : Nat) (t : Task) (x : StageWork) (y : StageRun) (ys : List StageRun),
        taskOf s id = some t ∧ t.status = .running ∧ t.work = .stage x ∧ x.runs = y :: ys ∧ x.ended = false ∧
        allHeld t.body y.held = true ∧ x.waiting = false ∧ let a : State := { s with heldAt := none };
        stageMode t = 2 ∧ (runLoadIter a t x y).heldAt = none)
    ∧ (∃ (a : State) (t : Task) (x : StageWork) (y : StageRun) (ys : List StageRun), x.runs = y :: ys ∧
        y.final = true)
    ∧ (∃ (a : State) (t : Task) (x : StageWork) (y : StageRun) (ys : List StageRun), x.runs = y :: ys ∧
        y.final = false ∧ ys = [])
    ∧ (∃ (a : State) (t : Task) (x : StageWork) (y : StageRun) (ys : List StageRun), x.runs = y :: ys ∧
        y.final = false ∧ ys ≠ [])
    ∧ (∃ (a : State) (t : Task) (x : StageWork) (y : StageRun) (ys : List StageRun), x.runs = y :: ys ∧
        ∃ (h : HeldHandle) (b : Binding), h ∈ y.held ∧
        (bindingsOf t.body).find? (fun b => b.num == h.binding) = some b ∧ b.out = true ∧
        sidingOf a t.part t.wing h.siding ≠ none) :=
  ⟨⟨sSt (stX false), xStage.id, _, _, _, _, some_eq (by decide +kernel), by decide +kernel,
      stage_eq (by decide +kernel), cons_eq (by decide +kernel), by and_intros <;> decide +kernel⟩,
    ⟨sSt (stX true), xStage.id, _, _, _, _, some_eq (by decide +kernel), by decide +kernel,
        stage_eq (by decide +kernel), cons_eq (by decide +kernel), by and_intros <;> decide +kernel⟩,
    ⟨cpS' xE, xStage.id, _, _, _, _, some_eq (by decide +kernel), by decide +kernel, stage_eq (by decide +kernel),
        cons_eq (by decide +kernel), by decide +kernel, by decide +kernel, by decide +kernel, _, _, _, _, _,
        by decide +kernel, pair_eta, pair_ok (by decide +kernel), pair_none (by decide +kernel), by decide +kernel⟩,
    ⟨ldS (ew 0) [], xStage.id, _, _, _, _, some_eq (by decide +kernel), by decide +kernel,
        stage_eq (by decide +kernel), cons_eq (by decide +kernel), by and_intros <;> decide +kernel⟩,
    ⟨cpS' xE2, cpT xE2, xE2, _, _, cons_eq (by decide +kernel), by decide +kernel⟩,
    ⟨cpS' xE, cpT xE, xE, _, _, cons_eq (by decide +kernel), by decide +kernel, by decide +kernel⟩,
    ⟨cpS' xE3, cpT xE3, xE3, _, _, cons_eq (by decide +kernel), by decide +kernel, by decide +kernel⟩,
    ⟨cpS' xE, cpT xE, xE, _, _, cons_eq (by decide +kernel), _, bOut, mem_at 1 (by decide +kernel),
        by and_intros <;> decide +kernel⟩⟩

theorem witness_LoadStageAndMergeHold :
    (∃ (s : State) (a : State) (t : Task) (x : StageWork) (y : StageRun) (e : Nat),
        loadNum s (taskCtx s t) (sgTable t.body + 16 * x.sched) 16 = (a, .ok e) ∧
        let ok := bits e 83 72 ≠ 0 ∧ bits e 83 72 ≤ (recGrant (taskRec a t) t.home).s ∧ bits e 71 66 = 0 ∧ bits e 63 48 = 0 ∧ bits e 15 0 = 0;
        (¬ ok))
    ∧ (∃ (s : State) (a : State) (t : Task) (x : StageWork) (y : StageRun) (e : Nat),
        loadNum s (taskCtx s t) (sgTable t.body + 16 * x.sched) 16 = (a, .ok e) ∧
        let ok := bits e 83 72 ≠ 0 ∧ bits e 83 72 ≤ (recGrant (taskRec a t) t.home).s ∧ bits e 71 66 = 0 ∧ bits e 63 48 = 0 ∧ bits e 15 0 = 0;
        ∃ (ps : List LoadPage), ok ∧
        segmentPages a (taskCtx s t) (bits e 47 16 * 0x10000) (bits e 83 72) = .ok ps ∧
        streamRoom a t.part (ps.map (·.tile)) = false)
    ∧ (∃ (s : State) (a : State) (t : Task) (x : StageWork) (y : StageRun) (e : Nat),
        loadNum s (taskCtx s t) (sgTable t.body + 16 * x.sched) 16 = (a, .ok e) ∧
        let ok := bits e 83 72 ≠ 0 ∧ bits e 83 72 ≤ (recGrant (taskRec a t) t.home).s ∧ bits e 71 66 = 0 ∧ bits e 63 48 = 0 ∧ bits e 15 0 = 0;
        ∃ (ps : List LoadPage), ok ∧
        segmentPages a (taskCtx s t) (bits e 47 16 * 0x10000) (bits e 83 72) = .ok ps ∧
        ∃ (h : HeldHandle) (rest : List HeldHandle), streamRoom a t.part (ps.map (·.tile)) = true ∧
        y.held = h :: rest)
    ∧ (∃ (s : State) (id : Nat) (core : Rank) (t : Task) (x : StageWork), taskOf s id = some t ∧
        t.status = .running ∧ t.work = .stage x) :=
  ⟨⟨ldS 0 [], _, ldT xLd, xLd, yOf xLd, _, pair_ok (by decide +kernel), by decide +kernel⟩,
    ⟨ldS (ew 1) fullF, _, ldT xLd, xLd, yOf xLd, _, pair_ok (by decide +kernel), _, by decide +kernel,
        ok_eq (by decide +kernel), by decide +kernel⟩,
    ⟨ldS (ew 0) [], _, ldT xLd, xLd, yOf xLd, _, pair_ok (by decide +kernel), _, by decide +kernel,
        ok_eq (by decide +kernel), _, _, by decide +kernel, cons_eq (by decide +kernel)⟩,
    ⟨ldS (ew 0) [], 0, 0, _, xLd, some_eq (by decide +kernel), by decide +kernel, by decide +kernel⟩⟩

theorem witness_DeadlinesChecked :
    (∃ (s : State) (t : Tile), (s.tasks.map (·.id)).Nodup ∧ let now := (tickOf s (wingOf t)).toNat; ∃ x ∈ s.tasks,
        (x.home ≠ t ∨ missesDeadline now x = false ∧ missesIter now x = false))
    ∧ (∃ (s : State) (t : Tile), (s.tasks.map (·.id)).Nodup ∧ let now := (tickOf s (wingOf t)).toNat;
        ∃ x ∈ s.tasks, x.home = t ∧ (missesDeadline now x || missesIter now x) = true ∧ recRt (taskRec s x) = false)
    ∧ (∃ (s : State) (t : Tile), (s.tasks.map (·.id)).Nodup ∧ let now := (tickOf s (wingOf t)).toNat;
        ∃ x ∈ s.tasks, x.home = t ∧ (missesDeadline now x || missesIter now x) = true ∧
        recRt (taskRec s x) = true ∧ (∀ c, x.status ≠ .stopping c))
    ∧ (∃ (s : State) (t : Tile) (x : Task), let now := (tickOf s (wingOf t)).toNat;
        (s.tasks.filter fun y => y.home == t) = [x] ∧ missesDeadline now x = true ∧ missesIter now x = false ∧
        flg (s.sch.get t).dlInfo 31 = false) :=
  ⟨⟨dlS (world up) (dlT 5 .running) false, .e1, by decide +kernel, dlT 5 .running,
      by first | decide +kernel | simp, by decide +kernel⟩,
    ⟨dlS (world up) (dlT 5 .running) false, .e0, by decide +kernel, dlT 5 .running,
        by first | decide +kernel | simp, by and_intros <;> decide +kernel⟩,
    ⟨dlS (world up) (dlT 5 .running) true, .e0, by decide +kernel, dlT 5 .running,
        by first | decide +kernel | simp, by decide +kernel, by decide +kernel, by decide +kernel,
        not_stopping (by decide +kernel)⟩,
    ⟨dlS (world up) (dlT 5 .running) false, .e0, dlT 5 .running, by and_intros <;> decide +kernel⟩⟩

theorem witness_StallsBroken :
    (∃ (s : State) (n : Nat) (z : List Task), z.length ≤ n)
    ∧ (∃ (s : State) (z : List Task) (v : Task), stallVictim s z = some v)
    ∧ (∃ (s : State) (w : Wing), (s.tasks.map (·.id)).Nodup ∧ ∃ x ∈ s.tasks, x.wing ≠ w)
    ∧ (∃ (s : State) (w : Wing) (p : Nat) (v : Task),
        let old := s.tasks.filter fun t => t.part == p && t.wing == w && (match t.blocked with | some (_, k) => decide (k + 1 + max 1 (partVal s 0x8032 p) ≤ (tickOf s w).toNat) | none => false);
        stallVictim s (stallSet s old.length old) = some v ∧ taskOf s v.id = some v ∧ (∀ c,
        v.status ≠ .stopping c)) :=
  ⟨⟨sSt2 20, 2, [tA, tB], by decide +kernel⟩,
    ⟨sSt2 20, [tA, tB], _, some_eq (by decide +kernel)⟩,
    ⟨sSt2 20, .west, by decide +kernel, _, mem_at 0 (by decide +kernel), by decide +kernel⟩,
    ⟨sSt2 50000000, .east, 0, _, some_eq (by decide +kernel), by decide +kernel, not_stopping (by decide +kernel)⟩⟩

end G05b

/-! ### The Timetable -/

namespace G06

def dd (s : State) (l : List (Nat × Nat × Nat)) : State := { s with cst := { s.cst with dict := l.map fun x => (256 * x.1, leBytes x.2.1 x.2.2) } }
def wt (s : State) (w : Wing) (f : Timetable → Timetable) : State := { s with tt := s.tt.modify w f }
def ru : State := wt (wt up .east fun t => { t with running := true, lock := .locked, count := 5 }) .west fun t => { t with running := true, lock := .locked, count := 5 }
def default0 (w : Wing) : Task := { xMove with home := if w = .east then .e0 else .w0 }
def bar : State := dd ru [(0x4010, 1, 1)]
def ru4 : State := dd ru [(0x4000, 1, 4)]
def em (s : State) : State := wt s .east fun t => { t with count := 2048, hops := 3 }
def bt (s : State) (c : Nat) (h : Nat) : BitVec 256 := makeBeat s .west 0 c h
def be0 (s : State) (c : Nat) : BitVec 256 := bt s c 0
def ma (n : Nat) : State := wt (dd ru [(0x4012, 1,
    1)]) .east fun t => { t with lock := .acquiring, listenFrom := some 7, localTicks := n }
def bk (n : Nat) : State := wt (dd ru [(0x4013, 1, 1)]) .east fun t => { t with sinceBeat := n }
def cs0 : CarSet := { key := ⟨0, 1⟩, desc := word [(256, 3), (224, 1), (191, 5), (182, 1)], phase := .running }
def bs (f : Timetable → Timetable) (b : Bool) : State := { wt bar .east f with carSets := { east := if b then [] else [cs0], west := [] } }
def tok (s : State) (k c h : Nat) : BitVec 256 := makeBeat s .west k c h
def sM : State := bs (fun t => { t with source := true, barrier := true, localTicks := 5 }) true
def sA1 : State := bs (fun t => t) true
def sA2 : State := bs (fun t => t) false
def okT (s : State) (x : BitVec 256) : State := (checkToken s .east x).1
def g4 (f : Timetable → Timetable) : State := wt ((dd ru [(0x4000, 1, 4), (0x4001, 1, 2), (0x4002, 1, 4), (0x4003,
    1, 4), (0x4010, 1,
    1)]).modPort .east 2 fun x => { x with state := .up, gen := 2, lanes := 0xFF, signal := true, link := freshLink (.port .east 2) }) .east f
def tk4 (k h : Nat) : BitVec 256 := tok (dd ru [(0x4000, 1, 4), (0x4001, 1, 0), (0x4010, 1, 1)]) k 5 h
def sm4 : State := g4 (fun t => { t with source := true, barrier := true, localTicks := 5 })

theorem witness_TimetableTicks :
    (∃ (s : State) (w : Wing), (s.tt.get w).running = false)
    ∧ (∃ (s : State) (w : Wing), (s.tt.get w).running = true ∧ barrierMode s = true)
    ∧ (∃ (s : State) (w : Wing), (s.tt.get w).running = true ∧ barrierMode s = false ∧ (s.tt.get w).hold ≠ 0)
    ∧ (∃ (s : State) (w : Wing), (s.tt.get w).running = true ∧ barrierMode s = false ∧ (s.tt.get w).hold = 0 ∧
        (s.tt.get w).count.toNat + 1 ≠ 2 ^ 64 - 1)
    ∧ (∃ (s : State) (w : Wing), (s.tt.get w).running = true ∧ ∃ x ∈ s.tasks, x.wing ≠ w) :=
  ⟨⟨up, .east, by decide +kernel⟩,
    ⟨bar, .east, by decide +kernel, by decide +kernel⟩,
    ⟨wt ru .east fun t => { t with hold := 3 }, .east, by and_intros <;> decide +kernel⟩,
    ⟨ru, .east, by and_intros <;> decide +kernel⟩,
    ⟨{ ru with tasks := [{ (default0 .west) with id := 4 }] }, .east, by decide +kernel, _,
        mem_at 0 (by decide +kernel), by decide +kernel⟩⟩

theorem witness_BeatEmitted :
    (∃ (s : State) (w : Wing), mayEmit s w = true ∧ let t := s.tt.get w; t.source = true)
    ∧ (∃ (s : State) (w : Wing), mayEmit s w = true ∧ let t := s.tt.get w; t.source = false ∧
        t.follow = some .successor)
    ∧ (∃ (s : State) (w : Wing), mayEmit s w = true ∧ let t := s.tt.get w; t.source = false ∧
        t.follow ≠ some .successor ∧ (windowOf s w).1 < 2 ^ 64 ∧ (windowOf s w).2 < 2 ^ 32 ∧
        flog2 (dictVal s 0x4011 0 / 128) < 8 ∧ dictVal s 0x4010 0 < 2)
    ∧ (∃ (s : State) (w : Wing), mayEmit s w = true ∧ ∃ (u : State), exec (.beatEmit w) s = .next u) :=
  ⟨⟨wt (em ru) .east (fun t => { t with source := true }), .east, by decide +kernel, by decide +kernel⟩,
    ⟨wt (em ru) .east (fun t => { t with follow := some .successor }), .east, by and_intros <;> decide +kernel⟩,
    ⟨em ru, .east, by and_intros <;> decide +kernel⟩,
    ⟨em ru, .east, by decide +kernel, _, next_eq (by decide +kernel)⟩⟩

theorem witness_BeatReceived :
    (∃ (s : State) (w : Wing) (n : Neighbour) (x : BitVec 256) (slot : Fin 16) (frac : BitVec 8),
        let t := s.tt.get w; ttActive s w = true ∧ ringUp s w n = true ∧ btKind x = 0 ∧
        beatAgrees s w n x = false ∧ t.isLocked = true)
    ∧ (∃ (s : State) (w : Wing) (n : Neighbour) (x : BitVec 256) (slot : Fin 16) (frac : BitVec 8),
        let t := s.tt.get w; ttActive s w = true ∧ ringUp s w n = true ∧ btKind x = 0 ∧
        beatAgrees s w n x = false ∧ t.follow = some n)
    ∧ (∃ (s : State) (w : Wing) (n : Neighbour) (x : BitVec 256) (slot : Fin 16) (frac : BitVec 8),
        let t := s.tt.get w; ttActive s w = true ∧ ringUp s w n = true ∧ btKind x = 0 ∧ beatAgrees s w n x = true ∧
        ringConfigOk s = true ∧ t.consistent = true ∧ t.isLocked = true ∧ t.source = false ∧
        chosenNeighbour ((recordBeat s w n (btHops x)).tt.get w) = some n ∧ 0 < tickPs s ∧
        let e := beatError s w n x slot.val frac.toNat; e.natAbs ≤ 8000 * 4096 ∧ e.natAbs ≤ 2000 * 4096)
    ∧ (∃ (s : State) (w : Wing) (n : Neighbour) (x : BitVec 256) (slot : Fin 16) (frac : BitVec 8),
        let t := s.tt.get w; ttActive s w = true ∧ ringUp s w n = true ∧ btKind x = 0 ∧ beatAgrees s w n x = true ∧
        ringConfigOk s = true ∧ t.consistent = true ∧ t.isLocked = true ∧ t.source = false ∧
        chosenNeighbour ((recordBeat s w n (btHops x)).tt.get w) = some n ∧ 0 < tickPs s ∧
        let e := beatError s w n x slot.val frac.toNat; 8000 * 4096 < e.natAbs ∧ t.farBeats = 0)
    ∧ (∃ (s : State) (w : Wing) (n : Neighbour) (x : BitVec 256) (slot : Fin 16) (frac : BitVec 8),
        let t := s.tt.get w; ttActive s w = true ∧ ringUp s w n = true ∧ btKind x = 0 ∧ beatAgrees s w n x = true ∧
        ringConfigOk s = true ∧ t.consistent = true ∧ t.isLocked = true ∧ t.source = false ∧
        chosenNeighbour ((recordBeat s w n (btHops x)).tt.get w) = some n ∧ 0 < tickPs s ∧
        let e := beatError s w n x slot.val frac.toNat; 8000 * 4096 < e.natAbs ∧ 1 ≤ t.farBeats) :=
  ⟨⟨ru, .east, .predecessor, be0 ru4 5, 4, 0, by and_intros <;> decide +kernel⟩,
    ⟨wt ru .east fun t => { t with follow := some .predecessor }, .east, .predecessor, be0 ru4 5, 4, 0,
        by and_intros <;> decide +kernel⟩,
    ⟨ru, .east, .predecessor, be0 ru 5, 2, 102, by and_intros <;> decide +kernel⟩,
    ⟨ru, .east, .predecessor, be0 ru 5, 4, 0, by and_intros <;> decide +kernel⟩,
    ⟨wt ru .east fun t => { t with farBeats := 1 }, .east, .predecessor, be0 ru 6, 4, 0,
        by and_intros <;> decide +kernel⟩⟩

theorem witness_SourcesChange :
    (∃ (s : State) (w : Wing) (a : Nat), s.tt.east.listenFrom = some a ∧ ttActive s .east = true ∧
        isMaster s .east = true ∧ s.tt.east.lock = .acquiring ∧ s.tt.east.consistent = true ∧
        ringUp s .east .predecessor = true ∧ ringUp s .east .successor = true ∧ s.tt.east.localTicks < a + 4096)
    ∧ (∃ (s : State) (w : Wing) (a : Nat), s.tt.east.listenFrom = some a ∧ ttActive s .east = true ∧
        isMaster s .east = true ∧ s.tt.east.lock = .acquiring ∧ s.tt.east.consistent = true ∧
        ringUp s .east .predecessor = true ∧ ringUp s .east .successor = true ∧ a + 4096 ≤ s.tt.east.localTicks)
    ∧ (∃ (s : State) (w : Wing), ttActive s .east = true ∧ dictVal s 0x4013 0 = 1 ∧ s.tt.east.isLocked = true ∧
        s.tt.east.source = false ∧ s.tt.east.consistent = true ∧
        s.tt.east.sinceBeat < (if barrierMode s then 3 else 3072) ∧ ttActive s w = true ∧ barrierMode s = false ∧
        (s.tt.get w).isLocked = true ∧ (s.tt.get w).source = false ∧ (s.tt.get w).sinceBeat < 4096)
    ∧ (∃ (s : State) (w : Wing), ttActive s .east = true ∧ dictVal s 0x4013 0 = 1 ∧ s.tt.east.isLocked = true ∧
        s.tt.east.source = false ∧ s.tt.east.consistent = true ∧
        (if barrierMode s then 3 else 3072) ≤ s.tt.east.sinceBeat)
    ∧ (∃ (s : State) (w : Wing), ttActive s w = true ∧ barrierMode s = false ∧ (s.tt.get w).isLocked = true ∧
        (s.tt.get w).source = false ∧ 4096 ≤ (s.tt.get w).sinceBeat) :=
  ⟨⟨ma 20, .east, _, some_eq (by decide +kernel), by and_intros <;> decide +kernel⟩,
    ⟨ma 5000, .east, _, some_eq (by decide +kernel), by and_intros <;> decide +kernel⟩,
    ⟨bk 20, .east, by and_intros <;> decide +kernel⟩,
    ⟨bk 3500, .east, by and_intros <;> decide +kernel⟩,
    ⟨bk 5000, .east, by and_intros <;> decide +kernel⟩⟩

theorem witness_BarrierGoesRound :
    (∃ (s : State) (w : Wing) (x : BitVec 256), barrierMode s = true ∧ ttActive s .east = true ∧
        s.tt.east.source = true ∧ s.tt.east.consistent = true ∧ s.tt.east.barrier = false ∧
        s.tt.east.lastBarrier < s.tt.east.localTicks ∧ ringUp s .east .successor = true ∧ stopReady s .east = true)
    ∧ (∃ (s : State) (w : Wing) (x : BitVec 256), barrierMode s = true ∧ ttActive s .east = true ∧
        s.tt.east.source = true ∧ s.tt.east.consistent = true ∧ s.tt.east.barrier = false ∧
        s.tt.east.lastBarrier < s.tt.east.localTicks ∧ ringUp s .east .successor = true ∧ stopReady s .east = false)
    ∧ (∃ (s : State) (w : Wing) (x : BitVec 256), barrierMode s = true ∧ ttActive s w = true ∧
        ringUp s w .predecessor = true ∧ beatAgrees s w .predecessor x = true ∧ ringConfigOk s = true ∧
        (s.tt.get w).consistent = true ∧ (s.tt.get w).source = true ∧ btKind x = 1 ∧ tokenMaker s w x < stopNum s w)
    ∧ (∃ (s : State) (w : Wing) (x : BitVec 256), barrierMode s = true ∧ ttActive s w = true ∧
        ringUp s w .predecessor = true ∧ beatAgrees s w .predecessor x = true ∧ ringConfigOk s = true ∧
        (s.tt.get w).consistent = true ∧ (s.tt.get w).source = true ∧ stopNum s w < tokenMaker s w x ∧ btKind x = 1)
    ∧ (∃ (s : State) (w : Wing) (x : BitVec 256), barrierMode s = true ∧ ttActive s w = true ∧
        ringUp s w .predecessor = true ∧ beatAgrees s w .predecessor x = true ∧ ringConfigOk s = true ∧
        (s.tt.get w).consistent = true ∧ (s.tt.get w).source = true ∧ stopNum s w < tokenMaker s w x ∧ btKind x = 2)
    ∧ (∃ (s : State) (w : Wing) (x : BitVec 256), barrierMode s = true ∧ ttActive s w = true ∧
        ringUp s w .predecessor = true ∧ beatAgrees s w .predecessor x = true ∧ ringConfigOk s = true ∧
        (s.tt.get w).consistent = true ∧ (s.tt.get w).source = true ∧ tokenMaker s w x = stopNum s w ∧
        (s.tt.get w).barrier = true ∧ btCount x = (s.tt.get w).count.toNat ∧ btCount x + 1 < 2 ^ 64 - 1 ∧
        btKind x = 1)
    ∧ (∃ (s : State) (w : Wing) (x : BitVec 256), barrierMode s = true ∧ ttActive s w = true ∧
        ringUp s w .predecessor = true ∧ beatAgrees s w .predecessor x = true ∧ ringConfigOk s = true ∧
        (s.tt.get w).consistent = true ∧ (s.tt.get w).source = true ∧ tokenMaker s w x = stopNum s w ∧
        (s.tt.get w).barrier = true ∧ btCount x = (s.tt.get w).count.toNat ∧ btCount x + 1 < 2 ^ 64 - 1 ∧
        btKind x = 2)
    ∧ (∃ (s : State) (w : Wing) (x : BitVec 256), barrierMode s = true ∧ ttActive s w = true ∧
        ringUp s w .predecessor = true ∧ beatAgrees s w .predecessor x = true ∧ ringConfigOk s = true ∧
        (s.tt.get w).consistent = true ∧ (s.tt.get w).source = false ∧ (s.tt.get w).isLocked = true ∧
        (tickOf s w).toNat ≤ btCount x ∧ btCount x < 2 ^ 64 - 1 ∧ btKind x = 1 ∧ stopReady s w = false)
    ∧ (∃ (s : State) (w : Wing) (x : BitVec 256), barrierMode s = true ∧ ttActive s w = true ∧
        ringUp s w .predecessor = true ∧ beatAgrees s w .predecessor x = true ∧ ringConfigOk s = true ∧
        (s.tt.get w).consistent = true ∧ (s.tt.get w).source = false ∧ (s.tt.get w).isLocked = true ∧
        (tickOf s w).toNat ≤ btCount x ∧ btCount x < 2 ^ 64 - 1 ∧ btKind x = 1 ∧ stopReady s w = true)
    ∧ (∃ (s : State) (w : Wing) (x : BitVec 256), barrierMode s = true ∧ ttActive s w = true ∧
        ringUp s w .predecessor = true ∧ beatAgrees s w .predecessor x = true ∧ ringConfigOk s = true ∧
        (s.tt.get w).consistent = true ∧ (s.tt.get w).source = false ∧ (s.tt.get w).isLocked = true ∧
        (tickOf s w).toNat ≤ btCount x ∧ btCount x < 2 ^ 64 - 1 ∧ btKind x = 2) :=
  ⟨⟨bs (fun t => { t with source := true, localTicks := 5 }) true, .east, tok bar 1 5 1,
      by and_intros <;> decide +kernel⟩,
    ⟨bs (fun t => { t with source := true, localTicks := 5 }) false, .east, tok bar 1 5 1,
        by and_intros <;> decide +kernel⟩,
    ⟨sm4, .east, tk4 1 0, by and_intros <;> decide +kernel⟩,
    ⟨sm4, .east, tk4 1 2, by and_intros <;> decide +kernel⟩,
    ⟨sm4, .east, tk4 2 2, by and_intros <;> decide +kernel⟩,
    ⟨sM, .east, tok bar 1 5 1, by and_intros <;> decide +kernel⟩,
    ⟨sM, .east, tok bar 2 5 1, by and_intros <;> decide +kernel⟩,
    ⟨sA2, .east, tok bar 1 5 1, by and_intros <;> decide +kernel⟩,
    ⟨sA1, .east, tok bar 1 5 1, by and_intros <;> decide +kernel⟩,
    ⟨sA1, .east, tok bar 2 5 1, by and_intros <;> decide +kernel⟩⟩

theorem witness_ReconfigurationWindow :
    (∃ (s : State) (w : Wing), inWindow s w = true)
    ∧ (∃ (s : State) (w : Wing), inWindow s w = false ∧ ((s.tt.get w).window = false ∨ inWindow s w = true))
    ∧ (∃ (s : State) (w : Wing), (s.tt.get w).window = true ∧ inWindow s w = false) :=
  ⟨⟨wt ru .east fun t => { t with winStart := 3, winTicks := 10 }, .east, by decide +kernel⟩,
    ⟨ru, .east, by decide +kernel, by decide +kernel⟩,
    ⟨wt ru .east fun t => { t with window := true }, .east, by decide +kernel, by decide +kernel⟩⟩

end G06

/-! ### Car sets -/

namespace G06b

def dd (s : State) (l : List (Nat × Nat × Nat)) : State := { s with cst := { s.cst with dict := l.map fun x => (256 * x.1, leBytes x.2.1 x.2.2) } }
def wt (s : State) (w : Wing) (f : Timetable → Timetable) : State := { s with tt := s.tt.modify w f }
def ru (s : State) (n : Nat) : State := wt (wt s .east fun t => { t with running := true, lock := .locked, count := BitVec.ofNat 64 n }) .west fun t => { t with running := true, lock := .locked, count := BitVec.ofNat 64 n }
def ky : CarSetKey := ⟨0, 1⟩
def dsc (keys : Nat) : Nat := word [(464, 0x10000), (416, 0x20000), (384, 4096), (320, keys), (256, 3), (224, 1),
    (191, 2), (182, 1)]
def cs (p : CarSetPhase) (keys : Nat) (st : Table CarStep) : CarSet := { key := ky, desc := dsc keys, phase := p, steps := st }
def wc (s : State) (l : List CarSet) : State := { s with carSets := { east := l, west := [] } }
def W (n : Nat) : State := ru (world up) n
def cRun : CarSet := cs .running 20 []
def hd (st j : Nat) (last : Bool) : Entry := BitVec.ofNat 512 (word [(464, 1), (410, 1), (480, 7), (448, j), (440,
    1), (432, st), (419, 16), (395, if last then 1 else 0)])
def sent : CarSet := cs .running 20 [(0, { sends := [(0, .sent), (1, .sent)], sending := true })]
def last1 : CarSet := cs .running 20 [(1, { received := [(0, hd 1 0 true)] })]
def chW2 (num : Nat) : Nat := word [(480, 0x3F800000), (218, 0), (212, 1), (206, 2), (200, 4), (194, 6), (188, 2),
    (182, 8), (131, 1), (124, 1), (119, 1), (107, 1), (100, 2)] + 2 ^ 512 * word [(464, 0x10000), (352,
    0x11000)] + 2 ^ 1024 * word [(408, num)]
def chT (x : ChainWork) (kc : Nat) : Task := run1 { xChain with body := leBytes 256 (chW2 1), hdr := entryOf ([(0, 0x77), (32, 2), (97, 1), (106, 16), (118, 1), (123, 1), (128, 0x1000), (192, 0x2000)] ++ [(480, 2), (448, kc)]), work := .chain x }
def x0 (a b : Nat) : ChainWork := { carTokens := 16, carsDone := a, parts := [(0, List.replicate 2 { m := 0xFF800000, l := 0, o := List.replicate 64 0 })] }
def wtk (s : State) (t : Task) : State := { s with tasks := [t], nextTask := t.id + 1 }
def fr (w : CarSet) (n : Nat) : State := wc (W n) [w]
def tC (a b kc : Nat) : Task := chT (x0 a b) kc
def sC (t : Task) : State := wtk (runs (fr (cs .running 20 []) 5)) t
 where runs (s : State) : State := s.modPower fun p => { p with clusters := [(0, { state := .run })] }
def ref (j : Nat) : CarRef := (heldCar cRun 0 j).getD ⟨0, 0, ⟨0,0,0,0⟩, 0⟩
def aC (t : Task) : State := atSlot { sC t with heldAt := none } .east (frameTick cRun.desc 0) (csComputeSlot cRun.desc)
def rc (t : Task) (x : ChainWork) (j : Nat) := runCar t (parseChain t.body) (ref j) j (aC t) (x, noFlags)
def okR (r : Except UnitErr ChainRun) : ChainRun := match r with | .ok r => r | .error _ => ({}, noFlags)
def cp (t : Task) (x : ChainWork) (j : Nat) := completeParts t (parseChain t.body) (rc t x j).1 (okR (rc t x j).2)
def hdB (num st j : Nat) (kind : Nat) (last : Bool) : Entry := BitVec.ofNat 512 (word [(464, num), (410, 1), (480,
    7), (448, j), (440, 1), (432, st), (419, 16), (395, if last then 1 else 0), (396, kind)])
def lE : LinkEnd := .concourse .east
def nt (num cause orig : Nat) : Entry := BitVec.ofNat 512 (word [(464, num), (440, orig), (396, 1), (379, cause)])
def fS (s : State) (c : CarSet) : State := failCarSet s .east c 0x301 1 false
def sAb : State := sC (tC 0 0 2)
def sOff (p : SendPhase) : CarSet := cs .running 20 [(0, { sends := [(0, p)], sending := true })]
def sc0 : SentCar := ⟨ky, 0, 0, 0⟩
def un (c : CarSet) : State := (fr c 5).modLink lE fun k => { k with unanswered := [⟨3, sc0⟩] }
def ans (code reason : Nat) : BitVec 16 := BitVec.ofNat 16 (code * 16384 + 3 * 2048 + reason)
def tb : TlbEntry := tlb0
def off1 : CarSet := sOff (.offered 0 none)
def bk1 (n : Nat) : CarSet := sOff (.backoff 1 (some n))
def adm : CarSet := cs .running 20 [(1, { admitted := [(0, hdB 1 1 0 0 true)] })]
def bod : List Byte := List.replicate 4096 5
def sB (n : Nat) : State := fr adm n
def far (s : State) : State := { s with tmem := s.tmem.map fun _ m => { m with tlb := [{ tlb0 with leaf := word [(0, sm), (6, 2)] }] } }

theorem witness_RingSendingKeepsCarSets :
    ∃ (s : State) (w : Wing) (k : CarSetKey) (c : CarSet), carSetOf s w k = some c :=
  ⟨wc (W 5) [cs .running 20 [(0, { sends := [(0, .ready 0 none)], sending := true })]], .east, ky, _,
      some_eq (by decide +kernel)⟩

theorem witness_CarSetRuns :
    (∃ (s : State) (w : Wing) (k : CarSetKey) (step : Nat) (c : CarSet), carSetOf s w k = some c ∧
        c.phase = .armed ∧ csFirstTick c.desc ≤ (tickOf s w).toNat)
    ∧ (∃ (s : State) (w : Wing) (k : CarSetKey) (step : Nat) (c : CarSet), carSetOf s w k = some c ∧
        (c.phase ≠ .armed ∨ (tickOf s w).toNat < csFirstTick c.desc) ∧
        (c.phase ≠ .running ∨ stepMayFree s w c step = false))
    ∧ (∃ (s : State) (w : Wing) (k : CarSetKey) (step : Nat) (c : CarSet), carSetOf s w k = some c ∧
        c.phase = .running ∧ step + 1 < csSteps c.desc ∧
        16 * frameTick c.desc step + csSendSlot c.desc ≤ 16 * (tickOf s w).toNat + 15 ∧
        (c.step step).sending = false ∧ step = 0)
    ∧ (∃ (s : State) (w : Wing) (k : CarSetKey) (step : Nat) (c : CarSet), carSetOf s w k = some c ∧
        c.phase = .running ∧ stepMayFree s w c step = true ∧ step + 1 ≠ csSteps c.desc)
    ∧ (∃ (s : State) (w : Wing) (k : CarSetKey) (step : Nat) (c : CarSet), carSetOf s w k = some c ∧
        c.phase = .running ∧ stepMayFree s w c step = true ∧ step + 1 = csSteps c.desc ∧ ∃ (i : Nat),
        (∀ t ∈ s.tasks, t.id = i → boundTo w k t = false)) :=
  ⟨⟨fr (cs .armed 20 []) 5, .east, ky, 0, _, some_eq (by decide +kernel), by decide +kernel, by decide +kernel⟩,
    ⟨fr (cs .armed 20 []) 2, .east, ky, 0, _, some_eq (by decide +kernel), by decide +kernel, by decide +kernel⟩,
    ⟨fr (cs .running 20 []) 5, .east, ky, 0, _, some_eq (by decide +kernel), by and_intros <;> decide +kernel⟩,
    ⟨fr sent 5, .east, ky, 0, _, some_eq (by decide +kernel), by and_intros <;> decide +kernel⟩,
    ⟨fr last1 5, .east, ky, 1, _, some_eq (by decide +kernel), by decide +kernel, by decide +kernel,
        by decide +kernel, 0, by decide +kernel⟩⟩

theorem witness_CarComputed :
    (∃ (s : State) (w : Wing) (k : CarSetKey) (step : Nat) (car : BitVec 16) (id : Nat) (c : CarSet) (t : Task) (x : ChainWork),
        carSetOf s w k = some c ∧ taskOf s id = some t ∧ c.phase = .running ∧ boundTo w k t = true ∧
        step < csSteps c.desc ∧ 16 * frameTick c.desc step + csComputeSlot c.desc ≤ 16 * (tickOf s w).toNat + 15 ∧
        t.status = .running ∧ t.work = .chain x ∧ heldCar c step car.toNat = none)
    ∧
        (∃ (s : State) (w : Wing) (k : CarSetKey) (step : Nat) (car : BitVec 16) (id : Nat) (c : CarSet) (t : Task) (x : ChainWork),
        carSetOf s w k = some c ∧ taskOf s id = some t ∧ c.phase = .running ∧ boundTo w k t = true ∧
        step < csSteps c.desc ∧ 16 * frameTick c.desc step + csComputeSlot c.desc ≤ 16 * (tickOf s w).toNat + 15 ∧
        t.status = .running ∧ t.work = .chain x ∧
        let a := atSlot { s with heldAt := none } w (frameTick c.desc step) (csComputeSlot c.desc);
        let b := parseChain t.body; ∃ (ref : CarRef) (n : Nat), heldCar c step car.toNat = some ref ∧
        carsBefore c step = some n ∧ x.carsDone < carsNeeded t b ∧ n + car.toNat = x.carsDone % argKcount t.hdr ∧
        ∃ (u : State) (r : ChainRun), runCar t b ref (n + car.toNat) a (x, noFlags) = (u, .ok r) ∧
        r.1.carsDone ≠ carsNeeded t b)
    ∧
        (∃ (s : State) (w : Wing) (k : CarSetKey) (step : Nat) (car : BitVec 16) (id : Nat) (c : CarSet) (t : Task) (x : ChainWork),
        carSetOf s w k = some c ∧ taskOf s id = some t ∧ c.phase = .running ∧ boundTo w k t = true ∧
        step < csSteps c.desc ∧ 16 * frameTick c.desc step + csComputeSlot c.desc ≤ 16 * (tickOf s w).toNat + 15 ∧
        t.status = .running ∧ t.work = .chain x ∧
        let a := atSlot { s with heldAt := none } w (frameTick c.desc step) (csComputeSlot c.desc);
        let b := parseChain t.body; ∃ (ref : CarRef) (n : Nat), heldCar c step car.toNat = some ref ∧
        carsBefore c step = some n ∧ x.carsDone < carsNeeded t b ∧ n + car.toNat = x.carsDone % argKcount t.hdr ∧
        ∃ (u : State) (r : ChainRun) (v : State) (q : ChainRun), runCar t b ref (n + car.toNat) a (x,
        noFlags) = (u, .ok r) ∧ r.1.carsDone = carsNeeded t b ∧ completeParts t b u r = (v, .ok q))
    ∧
        (∃ (s : State) (w : Wing) (k : CarSetKey) (step : Nat) (car : BitVec 16) (id : Nat) (c : CarSet) (t : Task) (x : ChainWork),
        carSetOf s w k = some c ∧ taskOf s id = some t ∧ c.phase = .running ∧ boundTo w k t = true ∧
        step < csSteps c.desc ∧ 16 * frameTick c.desc step + csComputeSlot c.desc ≤ 16 * (tickOf s w).toNat + 15 ∧
        t.status = .running ∧ t.work = .chain x ∧ let b := parseChain t.body; ∃ (ref : CarRef) (n : Nat),
        heldCar c step car.toNat = some ref ∧ carsBefore c step = some n ∧
        (carsNeeded t b ≤ x.carsDone ∨ n + car.toNat ≠ x.carsDone % argKcount t.hdr)) :=
  ⟨⟨sC (tC 0 0 2), .east, ky, 0, 7, xChain.id, _, _, x0 0 0, some_eq (by decide +kernel),
      some_eq (by decide +kernel), by and_intros <;> decide +kernel⟩,
    ⟨sC (tC 0 0 2), .east, ky, 0, 0, xChain.id, _, _, x0 0 0, some_eq (by decide +kernel),
        some_eq (by decide +kernel), by decide +kernel, by decide +kernel, by decide +kernel, by decide +kernel,
        by decide +kernel, by decide +kernel, _, _, some_eq (by decide +kernel), some_eq (by decide +kernel),
        by decide +kernel, by decide +kernel, _, _, pair_ok (by decide +kernel), by decide +kernel⟩,
    ⟨sC (tC 0 0 1), .east, ky, 0, 0, xChain.id, _, _, x0 0 0, some_eq (by decide +kernel),
        some_eq (by decide +kernel), by decide +kernel, by decide +kernel, by decide +kernel, by decide +kernel,
        by decide +kernel, by decide +kernel, _, _, some_eq (by decide +kernel), some_eq (by decide +kernel),
        by decide +kernel, by decide +kernel, _, _, _, _, pair_ok (by decide +kernel), by decide +kernel,
        pair_ok (by decide +kernel)⟩,
    ⟨sC (tC 0 0 2), .east, ky, 0, 1, xChain.id, _, _, x0 0 0, some_eq (by decide +kernel),
        some_eq (by decide +kernel), by decide +kernel, by decide +kernel, by decide +kernel, by decide +kernel,
        by decide +kernel, by decide +kernel, _, _, some_eq (by decide +kernel), some_eq (by decide +kernel),
        by decide +kernel⟩⟩

theorem witness_CarHeaderAnswered :
    (∃ (s : State) (w : Wing) (l : LinkEnd) (q : Fin 8) (h : Entry), fromPredecessor s w l = true ∧ carKind h ≠ 1 ∧
        ∃ (r : Nat), judgeHeader s w l h = some r)
    ∧ (∃ (s : State) (w : Wing) (l : LinkEnd) (q : Fin 8) (h : Entry), fromPredecessor s w l = true ∧
        carKind h ≠ 1 ∧ judgeHeader s w l h = none)
    ∧ (∃ (s : State) (w : Wing) (l : LinkEnd) (q : Fin 8) (h : Entry), fromPredecessor s w l = true ∧
        carKind h ≠ 1 ∧ (stopLocked s w = false ∨ inService s = false ∨ (isConcourse l = false ∧
        inWindow s w = true)))
    ∧ (∃ (s : State) (w : Wing) (l : LinkEnd) (q : Fin 8) (h : Entry), fromPredecessor s w l = true ∧
        carKind h ≠ 1 ∧ stopLocked s w = true ∧ inService s = true ∧
        (isConcourse l = true ∨ inWindow s w = false) ∧
        recEnabled (partRec (cfgAt s (tileIn w 0)) (carPart h)) = false)
    ∧ (∃ (s : State) (w : Wing) (l : LinkEnd) (q : Fin 8) (h : Entry), fromPredecessor s w l = true ∧
        carKind h ≠ 1 ∧ ∃ (c : CarSet),
        let k : CarSetKey := ⟨Fin.ofNat 16 (carPart h), BitVec.ofNat 16 (carSetNum h)⟩; carSetOf s w k = some c ∧
        carKind h ≠ 2) :=
  ⟨⟨fr (cs .running 20 []) 5, .east, lE, 3, hdB 2 1 0 0 true, by decide +kernel, by decide +kernel, _,
      some_eq (by decide +kernel)⟩,
    ⟨fr (cs .running 20 []) 5, .east, lE, 3, hdB 1 1 0 0 true, by and_intros <;> decide +kernel⟩,
    ⟨wt (fr (cs .running 20 []) 5) .east fun t => { t with lock := .acquiring }, .east, lE, 3, hdB 1 1 0 0 true,
        by and_intros <;> decide +kernel⟩,
    ⟨{ fr (cs .running 20 []) 5 with insts := [] }, .east, lE, 3, hdB 1 1 0 0 true,
        by and_intros <;> decide +kernel⟩,
    ⟨fr (cs .running 20 []) 5, .east, lE, 3, hdB 1 1 0 0 true, by decide +kernel, by decide +kernel, _,
        some_eq (by decide +kernel), by decide +kernel⟩⟩

theorem witness_AbortNoticeTaken :
    (∃ (s : State) (w : Wing) (l : LinkEnd) (q : Fin 8) (h : Entry), fromPredecessor s w l = true ∧ carKind h = 1 ∧
        notTimetabled s w l = true)
    ∧ (∃ (s : State) (w : Wing) (l : LinkEnd) (q : Fin 8) (h : Entry), fromPredecessor s w l = true ∧
        carKind h = 1 ∧ notTimetabled s w l = false ∧ carOrigin h ≠ stopNum s w)
    ∧ (∃ (s : State) (w : Wing) (l : LinkEnd) (q : Fin 8) (h : Entry), fromPredecessor s w l = true ∧
        carKind h = 1 ∧ notTimetabled s w l = false ∧ carOrigin h = stopNum s w)
    ∧ (∃ (s : State) (w : Wing) (l : LinkEnd) (q : Fin 8) (h : Entry), fromPredecessor s w l = true ∧
        carKind h = 1 ∧ let k : CarSetKey := ⟨Fin.ofNat 16 (carPart h), BitVec.ofNat 16 (carSetNum h)⟩;
        ∃ (c : CarSet) (cause : Nat) (origin : Nat) (own : Bool), carSetOf s w k = some c ∧ c.phase = .running ∧
        flg (s.tt.get w).failInfo 31 = false)
    ∧ (∃ (s : State) (w : Wing) (l : LinkEnd) (q : Fin 8) (h : Entry), fromPredecessor s w l = true ∧
        carKind h = 1 ∧ let k : CarSetKey := ⟨Fin.ofNat 16 (carPart h), BitVec.ofNat 16 (carSetNum h)⟩;
        ∃ (c : CarSet) (cause : Nat) (origin : Nat) (own : Bool), carSetOf s w k = some c ∧ c.phase = .running ∧
        ∃ (i : Nat) (t : Machine.Task), taskOf s i = some t ∧ boundTo w k t = true ∧ (∀ z,
        t.status ≠ .stopping z)) :=
  ⟨⟨wt sAb .east fun t => { t with lock := .acquiring }, .east, lE, 3, nt 1 0x301 1,
      by and_intros <;> decide +kernel⟩,
    ⟨sAb, .east, lE, 3, nt 1 0x301 1, by and_intros <;> decide +kernel⟩,
    ⟨sAb, .east, lE, 3, nt 1 0x301 0, by and_intros <;> decide +kernel⟩,
    ⟨sAb, .east, lE, 3, nt 1 0x301 1, by decide +kernel, by decide +kernel, _, 0x301, 1, false,
        some_eq (by decide +kernel), by decide +kernel, by decide +kernel⟩,
    ⟨sAb, .east, lE, 3, nt 1 0x301 1, by decide +kernel, by decide +kernel, _, 0x301, 1, false,
        some_eq (by decide +kernel), by decide +kernel, xChain.id, _, some_eq (by decide +kernel),
        by decide +kernel, not_stopping (by decide +kernel)⟩⟩

theorem witness_CarAnswersTaken :
    (∃ (s : State) (l : LinkEnd) (answer : BitVec 16) (h : SentHeader) (hs : List SentHeader), linkUp s l = true ∧
        (linkOf s l).unanswered = h :: hs ∧
        let a := ({ s with heldAt := none } : State).modLink l fun k => { k with unanswered := hs };
        bits answer.toNat 13 11 = h.hseq ∧ bits answer.toNat 15 14 = 2 ∧
        (onRefuse a l h.car (bits answer.toNat 7 0)).heldAt = none)
    ∧ (∃ (s : State) (l : LinkEnd) (answer : BitVec 16) (h : SentHeader) (hs : List SentHeader),
        linkUp s l = true ∧ (linkOf s l).unanswered = h :: hs ∧
        let a := ({ s with heldAt := none } : State).modLink l fun k => { k with unanswered := hs };
        bits answer.toNat 13 11 = h.hseq ∧ bits answer.toNat 15 14 = 1 ∧ (onAdmit a l h.car).heldAt = none)
    ∧ (∃ (s : State) (l : LinkEnd) (answer : BitVec 16) (h : SentHeader) (hs : List SentHeader),
        linkUp s l = true ∧ (linkOf s l).unanswered = h :: hs ∧
        (bits answer.toNat 13 11 ≠ h.hseq ∨ bits answer.toNat 15 14 ≠ 1 ∧ bits answer.toNat 15 14 ≠ 2))
    ∧ (∃ (s : State) (l : LinkEnd) (c : SentCar) (x : CarSet), c.kind = 0 ∧ carSetOf s (endWing l) c.key = some x ∧
        x.phase = .running ∧ let a := s.modCarSet (endWing l) c.key fun x => x.setSend c.step c.car .admitted;
        ∃ (b : State) (bs : List Byte),
        loadVa a (ringCtx a (endWing l) c.key.part.val) (carVa x.desc c.step c.car) (carBytes x.desc) = (b, .ok bs))
    ∧ (∃ (s : State) (l : LinkEnd) (c : SentCar) (x : CarSet), c.kind = 0 ∧ carSetOf s (endWing l) c.key = some x ∧
        x.phase = .running ∧ ∃ (n : Nat) (t : Option Nat) (r : Nat),
        Table.find (x.step c.step).sends c.car = some (.offered n t) ∧ r ≠ 4 ∧ r ≠ 5 ∧ r ≠ 6 ∧ t ≠ none)
    ∧ (∃ (s : State) (l : LinkEnd) (c : SentCar) (x : CarSet), c.kind = 0 ∧ carSetOf s (endWing l) c.key = some x ∧
        x.phase = .running ∧ ∃ (n : Nat) (t : Option Nat) (r : Nat),
        Table.find (x.step c.step).sends c.car = some (.offered n t) ∧ r ≠ 4 ∧ r ≠ 5 ∧ r ≠ 6 ∧
        inWindow s (endWing l) = true)
    ∧ (∃ (s : State) (l : LinkEnd) (c : SentCar) (x : CarSet), c.kind = 0 ∧ carSetOf s (endWing l) c.key = some x ∧
        x.phase = .running ∧ ∃ (n : Nat) (t : Option Nat) (r : Nat),
        Table.find (x.step c.step).sends c.car = some (.offered n t) ∧ r ≠ 4 ∧ r ≠ 5 ∧ r ≠ 6 ∧ t = none ∧
        inWindow s (endWing l) = false)
    ∧ (∃ (s : State) (w : Wing) (k : CarSetKey) (step : Nat) (car : BitVec 16) (c : CarSet),
        carSetOf s w k = some c ∧ c.phase = .running ∧ ∃ (n : Nat) (t : Option Nat),
        Table.find (c.step step).sends car.toNat = some (.backoff n t))
    ∧ (∃ (s : State) (w : Wing) (k : CarSetKey) (step : Nat) (car : BitVec 16) (c : CarSet),
        carSetOf s w k = some c ∧ c.phase = .running ∧ ∃ (p : SendPhase),
        Table.find (c.step step).sends car.toNat = some p ∧ patienceOver s w p = true)
    ∧ (∃ (s : State) (w : Wing) (k : CarSetKey) (step : Nat) (car : BitVec 16) (c : CarSet),
        carSetOf s w k = some c ∧ c.phase = .running ∧ ∃ (p : SendPhase),
        Table.find (c.step step).sends car.toNat = some p ∧ patienceOver s w p = false)
    ∧
        (∃ (s : State) (w : Wing) (c : CarSet) (k : Nat) (j : Nat) (n : Nat) (t : Option Nat) (l : LinkEnd) (h : Entry),
        pickMember s w = some l ∧ headerFor s w c k j = some h) :=
  ⟨⟨un off1, lE, ans 2 3, _, _, by decide +kernel, cons_eq (by decide +kernel), by and_intros <;> decide +kernel⟩,
    ⟨un off1, lE, ans 1 0, _, _, by decide +kernel, cons_eq (by decide +kernel), by and_intros <;> decide +kernel⟩,
    ⟨un off1, lE, ans 3 0, _, _, by decide +kernel, cons_eq (by decide +kernel), by decide +kernel⟩,
    ⟨un off1, lE, sc0, _, by decide +kernel, some_eq (by decide +kernel), by decide +kernel, _, _,
        pair_ok (by decide +kernel)⟩,
    ⟨un (sOff (.offered 0 (some 3))), lE, sc0, _, by decide +kernel, some_eq (by decide +kernel),
        by decide +kernel, 0, some 3, 2, by and_intros <;> decide +kernel⟩,
    ⟨wt (un off1) .east fun t => { t with winStart := 0, winTicks := 100 }, lE, sc0, _, by decide +kernel,
        some_eq (by decide +kernel), by decide +kernel, 0, none, 2, by and_intros <;> decide +kernel⟩,
    ⟨un off1, lE, sc0, _, by decide +kernel, some_eq (by decide +kernel), by decide +kernel, 0, none, 2,
        by and_intros <;> decide +kernel⟩,
    ⟨un (bk1 0), .east, ky, 0, 0, _, some_eq (by decide +kernel), by decide +kernel, 1, some 0, by decide +kernel⟩,
    ⟨wt (un (bk1 0)) .east fun t => { t with openTicks := 2^25 }, .east, ky, 0, 0, _, some_eq (by decide +kernel),
        by decide +kernel, _, some_eq (by decide +kernel), by decide +kernel⟩,
    ⟨un (bk1 0), .east, ky, 0, 0, _, some_eq (by decide +kernel), by decide +kernel, _,
        some_eq (by decide +kernel), by decide +kernel⟩,
    ⟨un (bk1 0), .east, bk1 0, 0, 0, 1, some 0, _, _, some_eq (by decide +kernel), some_eq (by decide +kernel)⟩⟩

theorem witness_CarBodyStored :
    (∃ (s : State) (w : Wing) (k : CarSetKey) (step : Nat) (car : BitVec 16) (body : List Byte) (slot : Fin 16) (c : CarSet),
        carSetOf s w k = some c ∧
        (Table.find (c.step step).admitted car.toNat = none ∨ body.length ≠ carBytes c.desc))
    ∧
        (∃ (s : State) (w : Wing) (k : CarSetKey) (step : Nat) (car : BitVec 16) (body : List Byte) (slot : Fin 16) (c : CarSet),
        carSetOf s w k = some c ∧ let a := atSlot { s with heldAt := none } w (tickOf s w).toNat slot.val;
        ∃ (h : Entry) (u : State) (e : AccErr), Table.find (c.step step).admitted car.toNat = some h ∧
        body.length = carBytes c.desc ∧ saveVa a (ringCtx a w k.part.val) (carVa c.desc step car.toNat) body = (u,
        some e) ∧ (failBody u w c e).heldAt = none)
    ∧
        (∃ (s : State) (w : Wing) (k : CarSetKey) (step : Nat) (car : BitVec 16) (body : List Byte) (slot : Fin 16) (c : CarSet),
        carSetOf s w k = some c ∧ let a := atSlot { s with heldAt := none } w (tickOf s w).toNat slot.val;
        ∃ (h : Entry) (u : State), Table.find (c.step step).admitted car.toNat = some h ∧
        body.length = carBytes c.desc ∧ saveVa a (ringCtx a w k.part.val) (carVa c.desc step car.toNat) body = (u,
        none) ∧
        let late := 16 * frameTick c.desc step + csComputeSlot c.desc < 16 * (s.tt.get w).count.toNat + max (s.tt.get w).slot slot.val;
        late)
    ∧
        (∃ (s : State) (w : Wing) (k : CarSetKey) (step : Nat) (car : BitVec 16) (body : List Byte) (slot : Fin 16) (c : CarSet),
        carSetOf s w k = some c ∧ let a := atSlot { s with heldAt := none } w (tickOf s w).toNat slot.val;
        ∃ (h : Entry) (u : State), Table.find (c.step step).admitted car.toNat = some h ∧
        body.length = carBytes c.desc ∧ saveVa a (ringCtx a w k.part.val) (carVa c.desc step car.toNat) body = (u,
        none) ∧
        let late := 16 * frameTick c.desc step + csComputeSlot c.desc < 16 * (s.tt.get w).count.toNat + max (s.tt.get w).slot slot.val;
        (¬ late)) :=
  ⟨⟨sB 3, .east, ky, 1, 1, bod, 0, _, some_eq (by decide +kernel), by decide +kernel⟩,
    ⟨far (sB 3), .east, ky, 1, 0, bod, 0, _, some_eq (by decide +kernel), _, _, _, some_eq (by decide +kernel),
        by decide +kernel, pair_some (by decide +kernel), by decide +kernel⟩,
    ⟨sB 9, .east, ky, 1, 0, bod, 0, _, some_eq (by decide +kernel), _, _, some_eq (by decide +kernel),
        by decide +kernel, pair_none (by decide +kernel), by decide +kernel⟩,
    ⟨sB 3, .east, ky, 1, 0, bod, 0, _, some_eq (by decide +kernel), _, _, some_eq (by decide +kernel),
        by decide +kernel, pair_none (by decide +kernel), by decide +kernel⟩⟩

end G06b

/-! ### Links, ports and the Concourse -/

namespace G07

def dd (s : State) (l : List (Nat × Nat × Nat)) : State := { s with cst := { s.cst with dict := l.map fun x => (256 * x.1, leBytes x.2.1 x.2.2) } }
def lE : LinkEnd := .concourse .east
def lP : LinkEnd := .port .east 2
def fl (ty cl : Nat) (n : Nat) : FlitBody := { type := ty, cls := cl, payload := List.replicate n 7 }
def pt (s : State) (f : Port → Port) : State := s.modPort .east 2 fun x => f { x with state := .up, gen := 2, lanes := 0xFF, signal := true, link := freshLink lP }
def P : State := pt up id
def cr0 : State := up.modLink lE fun k => { k with credits := [] }
def cr5 : State := up.modLink lE fun k => { k with credits := [(2, 5)], waiting := [fl 5 3 3] }
def crF : State := up.modLink lE fun k => { k with replay := List.replicate 1024 { seq := 0, body := fl 5 2 1, image := 0 } }
def sq (x : FlitBody) (s : State) : Flit := match (sendFlit s lE x).flitOut.getLast? with | some p => p.2 | none => 0
def st (z : PortState) (f : Port → Port) : State := pt up fun x => f { x with state := z }
def F (s : State) (l : LinkEnd) (seq : BitVec 12) (b : FlitBody) : Flit := encodeFlit s l seq false b
def U (s : State) : State := s
def rcv (s : State) (x : Flit) : State := nx (exec (.flitReceive lE x false ⟨0, 0⟩) s)
def badF : Flit := F up lE 0 (fl 5 2 16) + 2 ^ 200
def fr (s : State) : State := s.modLink lE fun _ => freshLink lE
def A : State := fr up
def Y : Flit := match (sendNak A lE).flitOut.getLast? with | some p => p.2 | none => 0
def R (n : Nat) (e : Nat) : State := A.modLink lE fun k => { k with replay := (List.range n).map fun i => { seq := BitVec.ofNat 12 (i + 1), body := fl 5 2 16, image := 5, replays := e }, nextSeq := BitVec.ofNat 12 (n + 1) }
def RP (n : Nat) (e : Nat) : State := P.modLink lP fun k => { k with replay := (List.range n).map fun i => { seq := BitVec.ofNat 12 (i + 1), body := fl 5 2 16, image := 5, replays := e }, nextSeq := BitVec.ofNat 12 (n + 1) }
def NK : State := A.modLink lE fun k => { k with nakOut := true }
def rec_ (node lanes allow : Nat) : BitVec 256 := BitVec.ofNat 256 (word [(116, node), (138, lanes), (136, allow),
    (132, 1), (133, 2)])
def tr (f : Port → Port) : State := dd (st .training f) [(0x4020, 2, 5)]
def tr0 (f : Port → Port) : State := let s := st .training f;
    { s with cst := { s.cst with dict := [(256 * 0x4020, [5, 0])] } }
def cu (s : State) (r : BitVec 256) (l : BitVec 8) : State := nx (exec (.portTrainingDone .east 2 r l false []) s)
def W (c : Bool) : State := if c then bm P .pf0 else { bm P .pf0 with cc := { P.cc with state := .down } }
def pw (s : State) (f : Port → Port) : State := s.modPort .west 2 fun x => f { x with state := .up, lanes := 0xFF, signal := true, link := freshLink lP }
def ccx (b r : BitVec 9) : State := { up with cc := { up.cc with bundles := b, retired := r } }
def shunt : State := { up with cst := { up.cst with state := .shunt, target := .shunt } }
def ky : CarSetKey := ⟨0, 1⟩
def c1 : CarSet := { key := ky, desc := 0, phase := .running }
def shC : State := { withTask shunt (run1 xMove) with carSets := { east := [c1], west := [c1] } }
def dn : State := nx (exec .concourseDown shC)
def ds : State := { shunt with cc := { shunt.cc with state := .down } }

def fA : Flit := 0xdbe2f3a000fff540000000000000000
theorem fA_crc : crcGood fA = true :=
  crcGood_of_path [2705895795, 1897386953, 445012109, 3780043696, 1225585547, 1332579401, 1504516759, 331092926,
      3555023845, 3501166503, 492268656, 1765865703, 3620231633, 3878114631, 366640959,
      4064399557] (by decide +kernel) (by decide +kernel)
def fB : Flit := 0xe3a29a5e000fff900000000000000000
theorem fB_crc : crcGood fB = true :=
  crcGood_of_path [1604647102, 1936998985, 1703223004, 2392562080, 3340775382, 3062397771, 466700068, 4165836781,
      2219148055, 3790441012, 3355095701, 832232031, 213646206, 2498551835, 1103804614,
      475882913] (by decide +kernel) (by decide +kernel)
def fC : Flit := 0xb2302d45000fff000000000000000000
theorem fC_crc : crcGood fC = true :=
  crcGood_of_path [1881427023, 1101449246, 1537088470, 2646244121, 1244126828, 2624943910, 971513905, 1806595030,
      3164756966, 4103104783, 2235618621, 4147629133, 1330325310, 1445071438, 3969264030,
      1305465530] (by decide +kernel) (by decide +kernel)
def fD : Flit := 0x61c8e19a003fff540000000000000000
theorem fD_crc : crcGood fD = true :=
  crcGood_of_path [2771564254, 1350503243, 522210171, 3483454992, 673204819, 1752996541, 1563415543, 2052539209,
      3941503711, 3906875627, 1757001668, 1838175452, 2608668327, 2971342518, 3420691570,
      2654412389] (by decide +kernel) (by decide +kernel)
def fE : Flit := 0x985c68a0fa0fff540000000000000000
theorem fE_crc : crcGood fE = true :=
  crcGood_of_path [2748119439, 2858368164, 1316332948, 2995367792, 2814825328, 1516959478, 3608464649, 243552349,
      800260678, 363019970, 1336484065, 967697304, 2903282594, 2838964694, 1662578683,
      1738774367] (by decide +kernel) (by decide +kernel)
def fT : Flit := 0x707070707070707070707070707070707070707070707070707070707070707e1d26bcf000fff100800000000000000
theorem fT_crc : crcGood fT = true :=
  crcGood_of_path [3074940796, 2657354680, 953414978, 1474394339, 1677292094, 187944194, 3484156517, 3052111518,
      210706821, 1489450875, 647323808, 2063989409, 333512019, 1395101266, 4041509998,
      506303536] (by decide +kernel) (by decide +kernel)

theorem witness_SentFlitsAreGood :
    ∃ (s : State) (l : LinkEnd) (seq : BitVec 12) (nak : Bool) (b : FlitBody), b.type < 16 ∧ b.cls < 8 ∧
        b.payload.length ≤ 240 :=
  ⟨up, lE, 5, false, fl 5 2 240, by and_intros <;> decide +kernel⟩

theorem witness_FlitsSentInOrder :
    (∃ (s : State) (l : LinkEnd) (b : FlitBody), linkUp s l = true ∧ b.type ≠ 3 ∧ let k := linkOf s l;
        credited b.cls = true ∧ Table.get 0 k.credits b.cls = 0 ∧ k.replay.length < 1024)
    ∧ (∃ (s : State) (l : LinkEnd) (b : FlitBody), linkUp s l = true ∧ b.type ≠ 3 ∧ let k := linkOf s l;
        1024 ≤ k.replay.length)
    ∧ (∃ (s : State) (l : LinkEnd) (b : FlitBody), linkUp s l = true ∧ b.type ≠ 3 ∧ let k := linkOf s l;
        k.replay.length < 1024 ∧ (credited b.cls = true → Table.get 0 k.credits b.cls ≠ 0) ∧
        heldByWindow s l b = false ∧ (∀ y ∈ k.waiting, y.cls ≠ b.cls) ∧ k.replay.length + 1 < 1024 ∧
        credited b.cls = true)
    ∧ (∃ (s : State) (l : LinkEnd) (b : FlitBody), linkUp s l = true ∧ b.type ≠ 3 ∧ let k := linkOf s l;
        k.replay.length < 1024 ∧ (credited b.cls = true → Table.get 0 k.credits b.cls ≠ 0) ∧
        heldByWindow s l b = false ∧ (∀ y ∈ k.waiting, y.cls ≠ b.cls) ∧ b.cls < 8 ∧ b.type < 16 ∧
        b.payload.length ≤ 240 ∧ b.type = 2 ∧ b.resent = false) :=
  ⟨⟨cr0, lE, fl 5 2 240, by and_intros <;> decide +kernel⟩,
    ⟨crF, lE, fl 5 2 240, by and_intros <;> decide +kernel⟩,
    ⟨cr5, lE, fl 5 2 240, by and_intros <;> decide +kernel⟩,
    ⟨cr5, lE, fl 2 2 16, by and_intros <;> decide +kernel⟩⟩

theorem witness_FlitReceived :
    (∃ (s : State) (l : LinkEnd) (x : Flit) (lane : Fin 9) (n : Nat) (w : Wing) (p : Fin 6), l = .port w p)
    ∧ (∃ (s : State) (l : LinkEnd) (x : Flit) (lane : Fin 9) (n : Nat) (un : Bool), linkUp s l = false ∧
        endState s l ≠ .training)
    ∧ (∃ (s : State) (l : LinkEnd) (x : Flit) (lane : Fin 9) (n : Nat) (un : Bool), endState s l = .training ∧
        let train := un = false ∧ crcGood x = true ∧ flitPermitted l x = true ∧ fType x = 1; train)
    ∧ (∃ (s : State) (l : LinkEnd) (x : Flit) (lane : Fin 9) (n : Nat) (un : Bool), endState s l = .training ∧
        let train := un = false ∧ crcGood x = true ∧ flitPermitted l x = true ∧ fType x = 1; (¬ train))
    ∧ (∃ (s : State) (l : LinkEnd) (x : Flit) (lane : Fin 9) (n : Nat) (un : Bool), linkUp s l = true ∧
        (un = true ∨ crcGood x = false) ∧ crcGood x = true ∧ flitPermitted l x = true ∧
        sequenced (fType x) = true ∧ fSeq x = (linkOf s l).expected ∧ fAnswer x = 0 ∧ fNak x = false ∧
        let h := countCorrected s l n; let a : State := { h with heldAt := none };
        (useHeader (deliverFlit a l x) l x).heldAt = none ∧ (linkOf s l).nakOut = false)
    ∧ (∃ (s : State) (l : LinkEnd) (x : Flit) (lane : Fin 9) (n : Nat), linkUp s l = true ∧ crcGood x = true ∧
        flitPermitted l x = false)
    ∧ (∃ (s : State) (l : LinkEnd) (x : Flit) (lane : Fin 9) (n : Nat), let h := countCorrected s l n;
        let a : State := { h with heldAt := none }; linkUp s l = true ∧ crcGood x = true ∧
        flitPermitted l x = true ∧ sequenced (fType x) = false ∧ (useHeader a l x).heldAt = none)
    ∧ (∃ (s : State) (l : LinkEnd) (x : Flit) (lane : Fin 9) (n : Nat), linkUp s l = true ∧ crcGood x = true ∧
        flitPermitted l x = true ∧ sequenced (fType x) = true ∧ fSeq x ≠ (linkOf s l).expected ∧
        seqAfter (fSeq x) (linkOf s l).expected = true)
    ∧ (∃ (s : State) (l : LinkEnd) (x : Flit) (lane : Fin 9) (n : Nat), linkUp s l = true ∧ crcGood x = true ∧
        flitPermitted l x = true ∧ sequenced (fType x) = true ∧ fSeq x ≠ (linkOf s l).expected ∧
        seqAfter (fSeq x) (linkOf s l).expected = false)
    ∧ (∃ (s : State) (l : LinkEnd) (x : Flit) (lane : Fin 9) (n : Nat), (linkOf s l).nakOut = true) :=
  ⟨⟨P, lP, fT, 1, 0, .east, 2, by decide +kernel⟩,
    ⟨{ A with cc := { A.cc with state := .down }}, lE, fA, 1, 0, true, by decide +kernel, by decide +kernel⟩,
    ⟨st .training id, lP, fT, 1, 0, false, by decide +kernel, ⟨rfl, fT_crc, by and_intros <;> decide +kernel⟩⟩,
    ⟨st .training id, lP, fT, 1, 0, true, by decide +kernel,
        fun h => by first | cases h.1 | exact absurd h.2.2.2 (by decide +kernel)⟩,
    ⟨A, lE, fA, 1, 0, true, by decide +kernel, by decide +kernel, fA_crc, by and_intros <;> decide +kernel⟩,
    ⟨A, lE, fB, 1, 0, by decide +kernel, fB_crc, by decide +kernel⟩,
    ⟨A, lE, fC, 1, 0, by decide +kernel, fC_crc, by and_intros <;> decide +kernel⟩,
    ⟨A, lE, fD, 1, 0, by decide +kernel, fD_crc, by and_intros <;> decide +kernel⟩,
    ⟨A, lE, fE, 1, 0, by decide +kernel, fE_crc, by and_intros <;> decide +kernel⟩,
    ⟨A.modLink lE fun k => { k with nakOut := true }, lE, badF, 1, 0, by decide +kernel⟩⟩

theorem witness_LinkReplays :
    (∃ (s : State) (l : LinkEnd) (ack : BitVec 12), linkUp s l = true ∧ ∃ row ∈ [(Instr.nakReceive l ack,
        (linkOf s l).replay.filter fun x => seqAfter x.seq ack), (.ackTimeoutReplay l, (linkOf s l).replay)],
        row.2 = [])
    ∧ (∃ (s : State) (l : LinkEnd) (ack : BitVec 12), linkUp s l = true ∧ ∃ row ∈ [(Instr.nakReceive l ack,
        (linkOf s l).replay.filter fun x => seqAfter x.seq ack), (.ackTimeoutReplay l, (linkOf s l).replay)],
        row.2 ≠ [] ∧ (∀ x ∈ row.2, x.replays + 1 < dictVal s 0x4025 0) ∧ (linkOf s l).nakOut = false)
    ∧ (∃ (s : State) (l : LinkEnd) (ack : BitVec 12), linkUp s l = true ∧ ∃ row ∈ [(Instr.nakReceive l ack,
        (linkOf s l).replay.filter fun x => seqAfter x.seq ack), (.ackTimeoutReplay l, (linkOf s l).replay)],
        ∃ (w : Wing) (p : Fin 6), l = .port w p ∧ (∃ x ∈ row.2, dictVal s 0x4025 0 ≤ x.replays + 1))
    ∧ (∃ (s : State) (l : LinkEnd) (ack : BitVec 12), linkUp s l = true ∧ ∃ row ∈ [(Instr.nakReceive l ack,
        (linkOf s l).replay.filter fun x => seqAfter x.seq ack), (.ackTimeoutReplay l, (linkOf s l).replay)],
        ∃ (w : Wing), l = .concourse w ∧ (∃ x ∈ row.2, dictVal s 0x4025 0 < x.replays + 1))
    ∧ (∃ (s : State) (l : LinkEnd) (ack : BitVec 12), linkUp s l = true ∧ ∃ (x : SentFlit), x.body.type ≠ 4)
    ∧ (∃ (s : State) (l : LinkEnd) (ack : BitVec 12), linkUp s l = true ∧ (linkOf s l).nakOut = true) :=
  ⟨⟨R 3 0, lE, 3, by decide +kernel, (Instr.nakReceive lE 3, []), by first | decide +kernel | simp,
      by decide +kernel⟩,
    ⟨R 3 0, lE, 1, by decide +kernel, (Instr.nakReceive lE 1,
        (linkOf (R 3 0) lE).replay.filter fun x => seqAfter x.seq 1), by first | decide +kernel | simp,
        by and_intros <;> decide +kernel⟩,
    ⟨RP 3 200, lP, 1, by decide +kernel, (Instr.nakReceive lP 1,
        (linkOf (RP 3 200) lP).replay.filter fun x => seqAfter x.seq 1), by first | decide +kernel | simp, .east,
        2, by decide +kernel, by decide +kernel⟩,
    ⟨R 3 200, lE, 1, by decide +kernel, (Instr.nakReceive lE 1,
        (linkOf (R 3 200) lE).replay.filter fun x => seqAfter x.seq 1), by first | decide +kernel | simp, .east,
        by decide +kernel, by decide +kernel⟩,
    ⟨R 3 0, lE, 1, by decide +kernel, { seq := 1, body := fl 5 2 16, image := 5 }, by decide +kernel⟩,
    ⟨NK, lE, 1, by decide +kernel, by decide +kernel⟩⟩

theorem witness_PortSignalAndTraining :
    (∃ (s : State) (w : Wing) (p : Fin 6), let x := portOf s w p.val; (x.state = .up ∨ (x.state = .training ∧
        x.kept = true)))
    ∧ (∃ (s : State) (w : Wing) (p : Fin 6), let x := portOf s w p.val; x.state = .training ∧ x.kept = false)
    ∧ (∃ (s : State) (w : Wing) (p : Fin 6), let x := portOf s w p.val; fabricOn s = true ∧
        genAllow s w p.val ≠ 0 ∧ x.state = .dark)
    ∧ (∃ (s : State) (w : Wing) (p : Fin 6), let x := portOf s w p.val; fabricOn s = true ∧
        genAllow s w p.val ≠ 0 ∧ (x.state = .down ∨ x.state = .disabled) ∧ x.signal = true ∧ x.state = .down)
    ∧ (∃ (s : State) (w : Wing) (p : Fin 6), (fabricOn s = false ∨ genAllow s w p.val = 0))
    ∧ (∃ (s : State) (w : Wing) (p : Fin 6), let x := portOf s w p.val; ∃ (step : Fin 7), x.state = .training ∧
        x.retry = false ∧ (step.val = 3 ∧ genAllow s w p.val = 3 ∧ x.fallback = false))
    ∧ (∃ (s : State) (w : Wing) (p : Fin 6), let x := portOf s w p.val; ∃ (step : Fin 7), x.state = .training ∧
        x.retry = false ∧ (¬ (step.val = 3 ∧ genAllow s w p.val = 3 ∧ x.fallback = false)))
    ∧ (∃ (s : State) (w : Wing) (p : Fin 6), let x := portOf s w p.val; x.signal = true ∧ genAllow s w p.val ≠ 0 ∧
        x.state = .training ∧ x.retry = true) :=
  ⟨⟨st .up id, .east, 2, by decide +kernel⟩,
    ⟨st .training id, .east, 2, by decide +kernel, by decide +kernel⟩,
    ⟨st .dark id, .east, 2, by and_intros <;> decide +kernel⟩,
    ⟨st .down id, .east, 2, by and_intros <;> decide +kernel⟩,
    ⟨{ st .down id with cst := { (st .down id).cst with dict := [(256 * 0x4021 + 3, [0])] } }, .east, 2,
        by decide +kernel⟩,
    ⟨st .training fun x => { x with kept := true }, .east, 2, 3, by and_intros <;> decide +kernel⟩,
    ⟨st .training fun x => { x with kept := true }, .east, 2, 5, by and_intros <;> decide +kernel⟩,
    ⟨st .training fun x => { x with retry := true}, .east, 2, by and_intros <;> decide +kernel⟩⟩

theorem witness_PortComesUp :
    (∃ (s : State) (w : Wing) (p : Fin 6) (r : BitVec 256) (lanes : BitVec 8) (fb : Bool) (es : List Echo),
        let x := portOf s w p.val; x.state = .training ∧ x.signal = true ∧ x.retry = false ∧
        (dictVal s 0x4020 0 = 0xFFFF ∨ trNode r = 0xFFFF))
    ∧ (∃ (s : State) (w : Wing) (p : Fin 6) (r : BitVec 256) (lanes : BitVec 8) (fb : Bool) (es : List Echo),
        let x := portOf s w p.val; x.state = .training ∧ x.signal = true ∧ x.retry = false ∧
        dictVal s 0x4020 0 ≠ 0xFFFF ∧ trNode r ≠ 0xFFFF ∧ trNode r = dictVal s 0x4020 0)
    ∧ (∃ (s : State) (w : Wing) (p : Fin 6) (r : BitVec 256) (lanes : BitVec 8) (fb : Bool) (es : List Echo),
        let x := portOf s w p.val; let both := lanes &&& trLanes r;
        let gen := agreedGen (genAllow s w p.val) (trAllow r) (fb || x.fallback); x.state = .training ∧
        x.signal = true ∧ x.retry = false ∧ dictVal s 0x4020 0 ≠ 0xFFFF ∧ trNode r ≠ 0xFFFF ∧
        trNode r ≠ dictVal s 0x4020 0 ∧ (gen = 0 ∨ (popcount 8 both.toNat < 4 ∧ x.kept = false)))
    ∧ (∃ (s : State) (w : Wing) (p : Fin 6) (r : BitVec 256) (lanes : BitVec 8) (fb : Bool) (es : List Echo),
        let x := portOf s w p.val; let both := lanes &&& trLanes r;
        let gen := agreedGen (genAllow s w p.val) (trAllow r) (fb || x.fallback); x.state = .training ∧
        x.signal = true ∧ x.retry = false ∧ dictVal s 0x4020 0 ≠ 0xFFFF ∧ trNode r ≠ 0xFFFF ∧
        trNode r ≠ dictVal s 0x4020 0 ∧ gen ≠ 0 ∧ popcount 8 both.toNat < 4 ∧ x.kept = true)
    ∧ (∃ (s : State) (w : Wing) (p : Fin 6) (r : BitVec 256) (lanes : BitVec 8) (fb : Bool) (es : List Echo),
        let x := portOf s w p.val; let both := lanes &&& trLanes r;
        let gen := agreedGen (genAllow s w p.val) (trAllow r) (fb || x.fallback); x.state = .training ∧
        x.signal = true ∧ x.retry = false ∧ dictVal s 0x4020 0 ≠ 0xFFFF ∧ trNode r ≠ 0xFFFF ∧
        trNode r ≠ dictVal s 0x4020 0 ∧ gen ≠ 0 ∧ 4 ≤ popcount 8 both.toNat) :=
  ⟨⟨st .training id, .east, 2, rec_ 5 0xFF 3, 0xFF, false, [], by and_intros <;> decide +kernel⟩,
    ⟨tr0 id, .east, 2, rec_ 5 0xFF 3, 0xFF, false, [], by and_intros <;> decide +kernel⟩,
    ⟨tr0 id, .east, 2, rec_ 6 0xFF 3, 7, false, [], by and_intros <;> decide +kernel⟩,
    ⟨tr0 fun x => { x with kept := true }, .east, 2, rec_ 6 0xFF 3, 7, false, [], by and_intros <;> decide +kernel⟩,
    ⟨tr0 id, .east, 2, rec_ 6 0xFF 3, 0xFF, false, [], by and_intros <;> decide +kernel⟩⟩

theorem witness_PortLanesAndLimits :
    (∃ (s : State) (w : Wing) (p : Fin 6), let x := portOf s w p.val; ∃ (lane : Fin 8),
        let m : BitVec 8 := BitVec.ofNat 8 (2 ^ lane.val); (x.state ≠ .up ∨ x.lanes &&& m = 0))
    ∧ (∃ (s : State) (w : Wing) (p : Fin 6), let x := portOf s w p.val; ∃ (lane : Fin 8),
        let m : BitVec 8 := BitVec.ofNat 8 (2 ^ lane.val); x.state = .up ∧ x.lanes &&& m ≠ 0 ∧
        4 ≤ popcount 8 (x.lanes &&& ~~~m).toNat ∧ hostReaches s .pf0 = true ∧ (w = .east ∨ concourseUp s = true) ∧
        x.retired = 0 ∧ (inWindow s w = true ∨ x.state ≠ .dark))
    ∧ (∃ (s : State) (w : Wing) (p : Fin 6), let x := portOf s w p.val; ∃ (lane : Fin 8),
        let m : BitVec 8 := BitVec.ofNat 8 (2 ^ lane.val); x.state = .up ∧ x.lanes &&& m ≠ 0 ∧
        popcount 8 (x.lanes &&& ~~~m).toNat < 4)
    ∧ (∃ (s : State) (w : Wing) (p : Fin 6), hostReaches s .pf0 = true ∧ w = .west ∧ concourseUp s = false)
    ∧ (∃ (s : State) (w : Wing) (p : Fin 6), let x := portOf s w p.val; inWindow s w = false ∧ x.state = .dark) :=
  ⟨⟨(W true).modPort .east 2 fun x => { x with lanes := 0xF }, .east, 2, 5, by decide +kernel⟩,
    ⟨W true, .east, 2, 0, by and_intros <;> decide +kernel⟩,
    ⟨(W true).modPort .east 2 fun x => { x with lanes := 0xF }, .east, 2, 0, by and_intros <;> decide +kernel⟩,
    ⟨pw (W false) id, .west, 2, by and_intros <;> decide +kernel⟩,
    ⟨st .dark id, .east, 2, by decide +kernel, by decide +kernel⟩⟩

theorem witness_ConcourseBundles :
    (∃ (s : State) (b : Fin 9), s.cc.state = .up ∧ s.cc.bundles.getLsbD b.val = true ∧
        let m : BitVec 9 := BitVec.ofNat 9 (2 ^ b.val); let left := s.cc.bundles &&& ~~~m;
        let heir := (List.range 9).find? fun i => (~~~(s.cc.bundles ||| s.cc.retired) &&& ~~~m).getLsbD i;
        let now := match heir with | some i => left ||| BitVec.ofNat 9 (2 ^ i) | none => left; now ≠ 0 ∧
        8 ≤ popcount 9 now.toNat)
    ∧ (∃ (s : State) (b : Fin 9), s.cc.state = .up ∧ s.cc.bundles.getLsbD b.val = true ∧
        let m : BitVec 9 := BitVec.ofNat 9 (2 ^ b.val); let left := s.cc.bundles &&& ~~~m;
        let heir := (List.range 9).find? fun i => (~~~(s.cc.bundles ||| s.cc.retired) &&& ~~~m).getLsbD i;
        let now := match heir with | some i => left ||| BitVec.ofNat 9 (2 ^ i) | none => left; now ≠ 0 ∧
        popcount 9 now.toNat < 8)
    ∧ (∃ (s : State) (b : Fin 9), s.cc.state = .up ∧ s.cc.bundles.getLsbD b.val = true ∧
        let m : BitVec 9 := BitVec.ofNat 9 (2 ^ b.val); let left := s.cc.bundles &&& ~~~m;
        let heir := (List.range 9).find? fun i => (~~~(s.cc.bundles ||| s.cc.retired) &&& ~~~m).getLsbD i;
        let now := match heir with | some i => left ||| BitVec.ofNat 9 (2 ^ i) | none => left; now = 0)
    ∧ (∃ (s : State), s.cc.state ≠ .up ∧ s.cc.state ≠ .training)
    ∧ (∃ (s : State), (s.cc.state = .up ∨ s.cc.state = .training) ∧ s.cst.state ≠ .service ∧ (∀ w,
        ((s.carSets.get w).map (·.key)).Nodup) ∧ ∃ (w : Wing) (k : CarSetKey) (c : CarSet), carSetOf s w k = some c)
    ∧ (∃ (s : State), (s.cc.state = .up ∨ s.cc.state = .training) ∧ s.cst.state ≠ .service ∧ (∀ w,
        ((s.carSets.get w).map (·.key)).Nodup) ∧ ∃ (i : Nat) (t : Machine.Task), taskOf s i = some t)
    ∧ (∃ (s : State) (bundles : BitVec 9), fabricOn s = true ∧ s.cc.state ≠ .up ∧ bundles ≠ 0 ∧
        popcount 9 bundles.toNat ≤ 8 ∧ s.cst.state ≠ .service ∧ s.cst.state ≠ .limited) :=
  ⟨⟨ccx 0xFF 0, 0, by and_intros <;> decide +kernel⟩,
    ⟨ccx 3 0x1FC, 0, by and_intros <;> decide +kernel⟩,
    ⟨ccx 1 0x1FE, 0, by and_intros <;> decide +kernel⟩,
    ⟨ccDown, by decide +kernel, by decide +kernel⟩,
    ⟨shC, by decide +kernel, by decide +kernel, by intro w; cases w <;> decide +kernel, .east, ky, _,
        some_eq (by decide +kernel)⟩,
    ⟨shC, by decide +kernel, by decide +kernel, by intro w; cases w <;> decide +kernel, xMove.id, _,
        some_eq (by decide +kernel)⟩,
    ⟨ds, 0xFF, by and_intros <;> decide +kernel⟩⟩

theorem witness_ConcourseDownCarSets :
    ∃ (s : State), s.cc.state = .up ∧ s.cst.state ≠ .service ∧ (∀ w, ((s.carSets.get w).map (·.key)).Nodup) ∧
      ∃ u, exec .concourseDown s = .next u ∧ ∃ w k c, carSetOf s w k = some c :=
  ⟨shC, by decide +kernel, by decide +kernel, by intro w; cases w <;> decide +kernel, _,
      next_eq (by decide +kernel),
    .east, ky, c1, by decide +kernel⟩

end G07

/-! ### Upkeep -/

namespace G08

def dd (s : State) (l : List (Nat × Nat × Nat)) : State := { s with cst := { s.cst with dict := l.map fun x => (256 * x.1, leBytes x.2.1 x.2.2) } }
def tm (s : State) (f : TileMem → TileMem) : State := s.modMem .e0 f
def cal (n : Nat) : State := tm up fun m => { m with cal := [(5, { done := n }), (7, { done := 3 })] }
def lk (s : State) : State := { s with tt := { east := { s.tt.east with lock := .locked, running := true }, west := { s.tt.west with lock := .locked, running := true } } }
def P : State := lk (up.modPort .east 2 fun x => { x with state := .up, lanes := 0x0F })
def c (i : Instr) (s : State) : State := nx (exec i s)
def sc (n : Nat) (l : List Nat) : State := tm up fun m => { m with cal := [(5, { done := 32 })], scrub := [(5, { done := n })], rowCe := if l = [] then [] else [(rowKey 5 (n/4), l)] }
def rp (n : Nat) : State := tm (sc 9 []) fun m => { m with repairs := [{ pc := 5, row := 3, unitsLeft := n }, { pc := 6, row := 3, unitsLeft := n }] }
def adr (n : Nat) : Nat := ((List.range 512).map (fun i => regionBase .e0 + 131072 * n + 256 * i)).find? (fun a => pcOf a = 5) |>.getD 0
def mv (n : Nat) : State := tm up fun m => { m with moving := true, retiredPc := 5, movePos := n, frames := [(0, { owner := 0, kind := .stream, page := 900 }), (1, { owner := 0, kind := .stream, page := 900, stuck := some 5 })] }
def co (v : BitVec 2) (f : Sch → Sch) : State := up.modSch .e0 fun x => f { x with coreState := if v = 0 then [] else [(3, v)] }
def shc : State := { co 3 id with cst := { up.cst with state := .shunt, target := .service } }
def oc (v : BitVec 2) : State := { co v id with tasks := [run1 xMove] }

theorem witness_CalibrationSlots :
    (∃ (s : State) (t : Tile) (pc : Fin 512) (fg : Bool) (left : Nat), memoryUp s = true ∧ 2 ≤ left ∧
        Table.canonical {} (s.tmem.get t).cal = true ∧ let i := itemOf (s.tmem.get t).cal pc.val; i.done < 32 ∧
        fg = false)
    ∧ (∃ (s : State) (t : Tile) (pc : Fin 512) (fg : Bool) (left : Nat), memoryUp s = true ∧ 2 ≤ left ∧
        Table.canonical {} (s.tmem.get t).cal = true ∧ let i := itemOf (s.tmem.get t).cal pc.val;
        (32 ≤ i.done ∨ (fg = true ∧ 32 - i.done < left)))
    ∧ (∃ (s : State) (t : Tile) (pc : Fin 512) (fg : Bool) (left : Nat), memoryUp s = true ∧ 2 ≤ left ∧
        Table.canonical {} (s.tmem.get t).cal = true ∧ let i := itemOf (s.tmem.get t).cal pc.val; i.done < 32 ∧
        fg = true ∧ left ≤ 32 - i.done)
    ∧ (∃ (s : State) (w : Wing) (p : Fin 6) (lane : Fin 8) (es : List Echo) (fg : Bool) (left : Nat),
        slotsScheduled s w = true ∧ 1 ≤ left ∧ linkUp s (.port w p) = true ∧
        (portOf s w p.val).lanes.getLsbD lane.val = true ∧ (itemOf (portOf s w p.val).cal 8).done = 0 ∧
        (fg = false ∨ left = 1) ∧ fg = true)
    ∧ (∃ (s : State) (w : Wing) (p : Fin 6) (lane : Fin 8) (es : List Echo) (fg : Bool) (left : Nat),
        slotsScheduled s w = true ∧ 1 ≤ left ∧ linkUp s (.port w p) = true ∧
        (portOf s w p.val).lanes.getLsbD lane.val = false)
    ∧ (∃ (s : State) (b : Fin 9) (fg : Bool) (left : Nat), 1 ≤ left ∧ slotsScheduled s .east = true ∧
        slotsScheduled s .west = true ∧ concourseUp s = true ∧ s.cc.bundles.getLsbD b.val = true) :=
  ⟨⟨cal 3, .e0, 5, false, 2, by and_intros <;> decide +kernel⟩,
    ⟨cal 3, .e0, 5, true, 40, by and_intros <;> decide +kernel⟩,
    ⟨cal 3, .e0, 5, true, 2, by and_intros <;> decide +kernel⟩,
    ⟨P, .east, 2, 1, [], true, 1, by and_intros <;> decide +kernel⟩,
    ⟨P, .east, 2, 7, [], true, 1, by and_intros <;> decide +kernel⟩,
    ⟨P, 0, true, 1, by and_intros <;> decide +kernel⟩⟩

theorem witness_ScrubSlots :
    (∃ (s : State) (t : Tile) (pc : Fin 512) (left : Nat) (f : ScrubFinding), memoryUp s = true ∧ 2 ≤ left ∧
        calUnits ≤ (itemOf (s.tmem.get t).cal pc.val).done ∧ let i := itemOf (s.tmem.get t).scrub pc.val;
        repairOf s t pc.val = none ∧ i.done < scrubUnits ∧ (f = .clean ∨ f = .correctable) ∧ f = .clean ∧
        i.done + 1 < scrubUnits)
    ∧ (∃ (s : State) (t : Tile) (pc : Fin 512) (left : Nat) (f : ScrubFinding), memoryUp s = true ∧ 2 ≤ left ∧
        calUnits ≤ (itemOf (s.tmem.get t).cal pc.val).done ∧ let i := itemOf (s.tmem.get t).scrub pc.val;
        repairOf s t pc.val = none ∧ i.done < scrubUnits ∧ (f = .clean ∨ f = .correctable) ∧ f = .correctable ∧
        let seen := insertSorted (Table.get [] (s.tmem.get t).rowCe (rowKey pc.val (i.done / 4))) (4 * i.done);
        seen.length = dictVal s 0x3031 0)
    ∧ (∃ (s : State) (t : Tile) (pc : Fin 512) (left : Nat) (f : ScrubFinding), memoryUp s = true ∧ 2 ≤ left ∧
        calUnits ≤ (itemOf (s.tmem.get t).cal pc.val).done ∧ let i := itemOf (s.tmem.get t).scrub pc.val;
        repairOf s t pc.val = none ∧ i.done < scrubUnits ∧ (f = .clean ∨ f = .correctable) ∧ f = .correctable ∧
        let seen := insertSorted (Table.get [] (s.tmem.get t).rowCe (rowKey pc.val (i.done / 4))) (4 * i.done);
        seen.length ≠ dictVal s 0x3031 0)
    ∧ (∃ (s : State) (t : Tile) (pc : Fin 512) (left : Nat) (f : ScrubFinding), memoryUp s = true ∧ 2 ≤ left ∧
        calUnits ≤ (itemOf (s.tmem.get t).cal pc.val).done ∧ let i := itemOf (s.tmem.get t).scrub pc.val;
        repairOf s t pc.val = none ∧ i.done < scrubUnits ∧ (f = .clean ∨ f = .correctable) ∧
        i.done + 1 = scrubUnits)
    ∧ (∃ (s : State) (t : Tile) (pc : Fin 512) (left : Nat) (f : ScrubFinding), memoryUp s = true ∧ 2 ≤ left ∧
        calUnits ≤ (itemOf (s.tmem.get t).cal pc.val).done ∧ ∃ (r : RowRepair), repairOf s t pc.val = some r ∧
        f = .clean ∧ 2 ≤ r.unitsLeft)
    ∧ (∃ (s : State) (t : Tile) (pc : Fin 512) (left : Nat) (f : ScrubFinding), memoryUp s = true ∧ 2 ≤ left ∧
        calUnits ≤ (itemOf (s.tmem.get t).cal pc.val).done ∧ ∃ (r : RowRepair), repairOf s t pc.val = some r ∧
        f = .clean ∧ r.unitsLeft = 1) :=
  ⟨⟨sc 9 [], .e0, 5, 3, .clean, by and_intros <;> decide +kernel⟩,
    ⟨sc 9 [1], .e0, 5, 3, .correctable, by and_intros <;> decide +kernel⟩,
    ⟨sc 9 [], .e0, 5, 3, .correctable, by and_intros <;> decide +kernel⟩,
    ⟨sc 4194303 [], .e0, 5, 3, .clean, by and_intros <;> decide +kernel⟩,
    ⟨rp 9, .e0, 5, 100, .clean, by decide +kernel, by decide +kernel, by decide +kernel, _,
        some_eq (by decide +kernel), by decide +kernel, by decide +kernel⟩,
    ⟨rp 1, .e0, 5, 100, .clean, by decide +kernel, by decide +kernel, by decide +kernel, _,
        some_eq (by decide +kernel), by decide +kernel, by decide +kernel⟩⟩

theorem witness_PseudoChannelMoves :
    (∃ (s : State) (t : Tile), (s.tmem.get t).moving = true ∧ (s.tmem.get t).movePos < 4186112 ∧
        ∃ f ∈ (s.tmem.get t).frames, f.2.stuck = none)
    ∧ (∃ (s : State) (t : Tile), (s.tmem.get t).moving = false)
    ∧ (∃ (s : State) (t : Tile), (s.tmem.get t).moving = true ∧ (s.tmem.get t).movePos = 4186112)
    ∧ (∃ (s : State) (t : Tile) (a : Nat), isStacked a = true ∧ homeTile a = t ∧ (s.tmem.get t).used = false ∧
        (s.tmem.get t).moving = true ∧ pcOf a ≠ (s.tmem.get t).retiredPc)
    ∧ (∃ (s : State) (t : Tile) (a : Nat), isStacked a = true ∧ homeTile a = t ∧ (s.tmem.get t).used = false ∧
        (s.tmem.get t).moving = true ∧ let n := (a - regionBase t) / 131072; pcOf a = (s.tmem.get t).retiredPc ∧
        (s.tmem.get t).movePos ≤ n)
    ∧ (∃ (s : State) (t : Tile) (a : Nat), isStacked a = true ∧ homeTile a = t ∧ (s.tmem.get t).used = false ∧
        (s.tmem.get t).moving = true ∧ let n := (a - regionBase t) / 131072; pcOf a = (s.tmem.get t).retiredPc ∧
        n < (s.tmem.get t).movePos)
    ∧ (∃ (s : State) (t : Tile) (r : Nat) (n : Nat) (i : Nat), r < 512 ∧ n < 4186112 ∧ i < 256) :=
  ⟨⟨mv 9, .e0, by decide +kernel, by decide +kernel, (0, { owner := 0, kind := .stream, page := 900 }),
      by first | decide +kernel | simp, by decide +kernel⟩,
    ⟨up, .e0, by decide +kernel⟩,
    ⟨mv 4186112, .e0, by decide +kernel, by decide +kernel⟩,
    ⟨mv 9, .e0, sm, by and_intros <;> decide +kernel⟩,
    ⟨mv 9, .e0, adr 20, by and_intros <;> decide +kernel⟩,
    ⟨mv 9, .e0, sm + 256 * 5 + 3, by and_intros <;> decide +kernel⟩,
    ⟨mv 9, .e0, 0, 0, 0, by and_intros <;> decide +kernel⟩⟩

theorem witness_CoresTestedAndSpared :
    (∃ (s : State) (t : Tile) (n : Fin 336), coreTestDue s t n.val = true)
    ∧ (∃ (s : State) (t : Tile) (n : Fin 336), coreTestDue s t n.val = false ∧ coreStateOf s t n.val = 3 ∧
        Table.canonical 0 (s.sch.get t).coreState = true ∧ n.val ∉ (s.sch.get t).sparing ∧
        spareUsed s t n.val = false ∧ s.cst.state ≠ .service)
    ∧ (∃ (s : State) (t : Tile) (n : Fin 336), coreStateOf s t n.val = 3 ∧ n.val ∉ (s.sch.get t).sparing ∧
        spareUsed s t n.val = true)
    ∧ (∃ (s : State) (t : Tile) (n : Fin 336), n.val ∈ (s.sch.get t).sparing ∧ memCanonical s.mem = true ∧
        Table.canonical 0 (s.sch.get t).coreState = true) :=
  ⟨⟨shc, .e0, 4, by decide +kernel⟩,
    ⟨shc, .e0, 3, by and_intros <;> decide +kernel⟩,
    ⟨co 3 fun x => { x with onSpare := [(19, 21)] }, .e0, 3, by and_intros <;> decide +kernel⟩,
    ⟨{ (co 1 fun x => { x with sparing := [3] }) with mem := [⟨windowBase 3, 5⟩, ⟨sm + 4, 7⟩] }, .e0, 3,
        by and_intros <;> decide +kernel⟩⟩

theorem witness_OnChipErrors :
    (∃ (s : State) (t : Tile) (n : Fin 336) (id : Nat) (x : Task), mainUp s = true ∧ taskOf s id = some x ∧ (∀ c,
        x.status ≠ .stopping c) ∧ coreStateOf s t n.val ≠ 2)
    ∧ (∃ (s : State) (t : Tile) (n : Fin 336) (id : Nat) (x : Task), mainUp s = true ∧ taskOf s id = some x ∧ (∀ c,
        x.status ≠ .stopping c) ∧ coreStateOf s t n.val = 2) :=
  ⟨⟨oc 0, .e0, 3, xMove.id, _, by decide +kernel, some_eq (by decide +kernel), not_stopping (by decide +kernel),
      by decide +kernel⟩,
    ⟨oc 2, .e0, 3, xMove.id, _, by decide +kernel, some_eq (by decide +kernel), not_stopping (by decide +kernel),
        by decide +kernel⟩⟩

end G08

/-! ### Collectives -/

namespace G09

def xR : Task := mkTask sReduce checkColl id
def kc : CollKey := ⟨2, 9⟩
def rT (sub : Nat) (cnt : Nat) (l : List (Nat × Nat)) : Task := run1 { xR with hdr := entryOf (((collBits sub).take 9) ++ [(480, cnt), (97,1), (106, 16), (118,1), (123,1)]), body := leBytes 64 (word ([(464, 0x10000), (384, 4096), (304, 9), (296, 2), (288, 0), (280, 0)] ++ l)), work := .coll false }
def ar (n : Nat) (p : Nat) : Arrival := { tick := 3, signature := 0, count := n, capacity := 64, partials := p }
def ctx (role : CollRole) (l : Table Arrival) (n : Option Nat) : Coll := { key := kc, role := role, task := some xR.id, broadcast := false, arrivals := l, n := n }
def wj (s : State) (w : Wing) (c : List Coll) : State := s.modJn w fun j => { j with ctxs := c }
def base (t : Task) (c : List Coll) : State := wj (withTask (collMem up 0 0) t) .east c
def oth : Coll := { ctx .relay [] none with key := ⟨3, 1⟩ , task := none }
def tR : Task := rT 1 64 [(416, 0x30000), (240, 64)]
def tR0 : Task := rT 1 0 []
def c0 (n : Nat) : Coll := ctx .root [(0, ar n 1)] none
def sAb (f : Bool) : State := (base tR [c0 64,
    oth]).modJn .east fun j => { j with faultInfo := if f then 0x80000000 else 0 }
def dn (s : State) : State := { s with cc := { s.cc with state := .down } }
def bad7 : Task := { tR with pins := tR.pins.map fun p => { p with bound := 7 } }
def full8 (s : State) : State := wj s .east ((List.range 8).map fun i => { oth with key := ⟨9, BitVec.ofNat 32 i⟩ })
-- member
def mT (sub : Nat) (l : List (Nat × Nat)) : Task := { (rT sub 64 l) with body := leBytes 64 (word ([(464, if sub = 1 then 0x10000 else 0), (384, 4096), (304, 9), (296, 2), (288, 1), (280, 0)] ++ l)) }
def mC (b : Bool) (n : Option Nat) (ch : Nat) (re : Bool) : Coll := { ctx .member [] n with broadcast := b, chunk := ch, rerun := re }
def mS (t : Task) (c : Coll) : State := base t [c, oth]
def tM : Task := mT 1 []
def rC (n : Nat) (re : Bool) : Coll := { ctx .root [(0, ar 64 1), (1, ar n 2)] (some 64) with rerun := re, rpos := [(0, 0), (1, 1)], asked := [(1, 3)], waiting := if n = 64 then [(1, 7, 0, List.replicate 128 1)] else [] }
def rS (n : Nat) (re : Bool) : State := base tR [rC n re, oth]
def bT : Task := mT 0 [(416, 0x30000), (240, 64)]
def bC : Coll := { mC true (some 64) 0 false with key := kc }
def bS : State := mS bT bC
def rch : List Byte := List.replicate 128 3
def tkn (s : State) (n : Nat) : State := { s with tt := { east := { s.tt.east with count := BitVec.ofNat 64 n }, west := s.tt.west } }
-- group of 5 members resilient, in a tree
def mr (mo pa wi : Nat) : Nat := word [(96, mo), (80, pa), (75, wi)]
def grp5 (res : Nat) : State :=
  let s := put (put (world up) (0x8000 + 64) 32 (word [(208, sm + 0x9000), (199, 5), (1, res), (0, 1)])) 0x9000 16 (mr 0xFFFF 255 0)
  let s := put (put (put (put s 0x9010 16 (mr 0xFFFF 0 1)) 0x9020 16 (mr 9 1 0)) 0x9030 16 (mr 9 2 0)) 0x9040 16 (mr 0xFFFF 1 0)
  { s with insts := s.insts ++ [(.group, grpInst)] }
def lo (s : State) (l : List Nat) : State := s.modJn .east fun j => { j with lost := [(2, l), (7, l)], gone := [(2, l)] }
def L (s : State) (m : Fin 255) : State := nx (exec (.jnLossNotice .east 2 m) s)

theorem witness_CollectiveAborted :
    (∃ (s : State) (w : Wing) (k : CollKey) (cause : BitVec 16), collOf s w k = none)
    ∧ (∃ (s : State) (w : Wing) (k : CollKey) (cause : BitVec 16) (c : Coll) (id : Nat) (x : Machine.Task),
        collOf s w k = some c ∧ c.task = some id ∧ taskOf s id = some x ∧ (∀ d, x.status ≠ .stopping d) ∧
        (∀ m ∈ (s.jn.get w).held, m.key ≠ k) ∧ flg (s.jn.get w).faultInfo 31 = true)
    ∧ (∃ (s : State) (w : Wing) (k : CollKey) (cause : BitVec 16) (c : Coll) (id : Nat) (x : Machine.Task),
        collOf s w k = some c ∧ c.task = some id ∧ taskOf s id = some x ∧ (∀ d, x.status ≠ .stopping d) ∧
        ∃ (j : CollKey) (d : Coll), j ≠ k ∧ collOf s w j = some d)
    ∧ (∃ (s : State) (w : Wing) (k : CollKey) (cause : BitVec 16) (c : Coll) (id : Nat) (x : Machine.Task),
        collOf s w k = some c ∧ c.task = some id ∧ taskOf s id = some x ∧ (∀ d, x.status ≠ .stopping d) ∧
        flg (s.jn.get w).faultInfo 31 = false ∧ cause.toNat / 256 = 4) :=
  ⟨⟨sAb true, .east, ⟨7, 7⟩, 0x401, by decide +kernel⟩,
    ⟨sAb true, .east, kc, 0x401, _, _, _, some_eq (by decide +kernel), some_eq (by decide +kernel),
        some_eq (by decide +kernel), not_stopping (by decide +kernel), by decide +kernel, by decide +kernel⟩,
    ⟨sAb true, .east, kc, 0x401, _, _, _, some_eq (by decide +kernel), some_eq (by decide +kernel),
        some_eq (by decide +kernel), not_stopping (by decide +kernel), ⟨3,1⟩, _, by decide +kernel,
        some_eq (by decide +kernel)⟩,
    ⟨sAb false, .east, kc, 0x401, _, _, _, some_eq (by decide +kernel), some_eq (by decide +kernel),
        some_eq (by decide +kernel), not_stopping (by decide +kernel), by decide +kernel, by decide +kernel⟩⟩

theorem witness_CountMessagesReachTheRoot :
    (∃ (s : State) (w : Wing) (k : CollKey) (m : Fin 255) (sig : Word32) (count : Word32) (cap : Word32) (p : Nat) (c : Coll) (id : Nat) (t : Task) (entry : Nat),
        s.heldAt = none ∧ collOf s w k = some c ∧ c.role = .root ∧ c.n = none ∧ c.task = some id ∧
        taskOf s id = some t ∧ t.id = id ∧ t.status = .running ∧ m.val ∈ liveOf t ∧
        Table.find c.arrivals m.val = none ∧ collGroup (hideRegs s w) t = .ok entry ∧ (∀ h ∈ (s.jn.get w).held,
        h.key ≠ k) ∧
        let a : Arrival := { tick := (tickOf s w).toNat, signature := sig, count := count.toNat, capacity := cap.toNat, partials := p };
        countAgrees t entry a = false)
    ∧
        (∃ (s : State) (w : Wing) (k : CollKey) (m : Fin 255) (sig : Word32) (count : Word32) (cap : Word32) (p : Nat) (c : Coll) (id : Nat) (t : Task) (entry : Nat),
        s.heldAt = none ∧ collOf s w k = some c ∧ c.role = .root ∧ c.n = none ∧ c.task = some id ∧
        taskOf s id = some t ∧ t.id = id ∧ t.status = .running ∧ m.val ∈ liveOf t ∧
        Table.find c.arrivals m.val = none ∧ collGroup (hideRegs s w) t = .ok entry ∧ (∀ h ∈ (s.jn.get w).held,
        h.key ≠ k) ∧
        let a : Arrival := { tick := (tickOf s w).toNat, signature := sig, count := count.toNat, capacity := cap.toNat, partials := p };
        let x : Coll := { c with arrivals := Table.insert c.arrivals m.val a }; countAgrees t entry a = true ∧
        allReported t x = false)
    ∧
        (∃ (s : State) (w : Wing) (k : CollKey) (m : Fin 255) (sig : Word32) (count : Word32) (cap : Word32) (p : Nat) (c : Coll) (id : Nat) (t : Task) (entry : Nat),
        s.heldAt = none ∧ collOf s w k = some c ∧ c.role = .root ∧ c.n = none ∧ c.task = some id ∧
        taskOf s id = some t ∧ t.id = id ∧ t.status = .running ∧ m.val ∈ liveOf t ∧
        Table.find c.arrivals m.val = none ∧ collGroup (hideRegs s w) t = .ok entry ∧ (∀ h ∈ (s.jn.get w).held,
        h.key ≠ k) ∧
        let a : Arrival := { tick := (tickOf s w).toNat, signature := sig, count := count.toNat, capacity := cap.toNat, partials := p };
        let x : Coll := { c with arrivals := Table.insert c.arrivals m.val a }; countAgrees t entry a = true ∧
        allReported t x = true ∧ capacityShort t x (resultLen t x) = true)
    ∧
        (∃ (s : State) (w : Wing) (k : CollKey) (m : Fin 255) (sig : Word32) (count : Word32) (cap : Word32) (p : Nat) (c : Coll) (id : Nat) (t : Task) (entry : Nat),
        s.heldAt = none ∧ collOf s w k = some c ∧ c.role = .root ∧ c.n = none ∧ c.task = some id ∧
        taskOf s id = some t ∧ t.id = id ∧ t.status = .running ∧ m.val ∈ liveOf t ∧
        Table.find c.arrivals m.val = none ∧ collGroup (hideRegs s w) t = .ok entry ∧ (∀ h ∈ (s.jn.get w).held,
        h.key ≠ k) ∧
        let a : Arrival := { tick := (tickOf s w).toNat, signature := sig, count := count.toNat, capacity := cap.toNat, partials := p };
        let x : Coll := { c with arrivals := Table.insert c.arrivals m.val a };
        let z := s.modColl w k fun c => { c with arrivals := Table.insert c.arrivals m.val a };
        ∃ (recs : Table Nat), countAgrees t entry a = true ∧ allReported t x = true ∧
        capacityShort t x (resultLen t x) = false ∧ collGroup (hideRegs z w) t = .ok entry ∧
        liveRecs z w t = .ok recs ∧ treeOk z w (cbGroup t.body) recs = false)
    ∧
        (∃ (s : State) (w : Wing) (k : CollKey) (m : Fin 255) (sig : Word32) (count : Word32) (cap : Word32) (p : Nat) (c : Coll) (id : Nat) (t : Task) (entry : Nat),
        s.heldAt = none ∧ collOf s w k = some c ∧ c.role = .root ∧ c.n = none ∧ c.task = some id ∧
        taskOf s id = some t ∧ t.id = id ∧ t.status = .running ∧ m.val ∈ liveOf t ∧
        Table.find c.arrivals m.val = none ∧ collGroup (hideRegs s w) t = .ok entry ∧ (∀ h ∈ (s.jn.get w).held,
        h.key ≠ k) ∧
        let a : Arrival := { tick := (tickOf s w).toNat, signature := sig, count := count.toNat, capacity := cap.toNat, partials := p };
        let x : Coll := { c with arrivals := Table.insert c.arrivals m.val a };
        let z := s.modColl w k fun c => { c with arrivals := Table.insert c.arrivals m.val a };
        ∃ (recs : Table Nat), countAgrees t entry a = true ∧ allReported t x = true ∧
        capacityShort t x (resultLen t x) = false ∧ collGroup (hideRegs z w) t = .ok entry ∧
        liveRecs z w t = .ok recs ∧ treeOk z w (cbGroup t.body) recs = true ∧ cbReport t.body = 0 ∧
        resultLen t x = 0 ∧ (lastMember x).1 < 255)
    ∧
        (∃ (s : State) (w : Wing) (k : CollKey) (m : Fin 255) (sig : Word32) (count : Word32) (cap : Word32) (p : Nat) (c : Coll) (id : Nat) (t : Task) (entry : Nat),
        s.heldAt = none ∧ collOf s w k = some c ∧ c.role = .root ∧ c.n = none ∧ c.task = some id ∧
        taskOf s id = some t ∧ t.id = id ∧ t.status = .running ∧ m.val ∈ liveOf t ∧
        Table.find c.arrivals m.val = none ∧ collGroup (hideRegs s w) t = .ok entry ∧ (∀ h ∈ (s.jn.get w).held,
        h.key ≠ k) ∧
        let a : Arrival := { tick := (tickOf s w).toNat, signature := sig, count := count.toNat, capacity := cap.toNat, partials := p };
        let x : Coll := { c with arrivals := Table.insert c.arrivals m.val a };
        let z := s.modColl w k fun c => { c with arrivals := Table.insert c.arrivals m.val a };
        ∃ (recs : Table Nat), countAgrees t entry a = true ∧ allReported t x = true ∧
        capacityShort t x (resultLen t x) = false ∧ collGroup (hideRegs z w) t = .ok entry ∧
        liveRecs z w t = .ok recs ∧ ∃ (v : State), treeOk z w (cbGroup t.body) recs = true ∧ cbReport t.body = 0 ∧
        resultLen t x ≠ 0 ∧
        registerPages ((noteSlow z w k x).modColl w k fun c => { c with n := some (resultLen t x), direct := directOk (noteSlow z w k x) w (cbSelf t.body) recs, lane := ((noteSlow z w k x).jn.get w).laneSel, rpos := recs.map fun r => (r.1, mrRpos r.2), since := (tickOf s w).toNat }) w t k = .ok v ∧
        (rootData v w t k (resultLen t x)).heldAt = none)
    ∧
        (∃ (s : State) (w : Wing) (k : CollKey) (m : Fin 255) (sig : Word32) (count : Word32) (cap : Word32) (p : Nat),
        s.heldAt = none ∧ collOf s w k = none ∧ contextFree s w = false)
    ∧
        (∃ (s : State) (w : Wing) (k : CollKey) (m : Fin 255) (sig : Word32) (count : Word32) (cap : Word32) (p : Nat),
        s.heldAt = none ∧ collOf s w k = none ∧ contextFree s w = true) :=
  ⟨⟨base tR [c0 64], .east, kc, 1, 5, 64, 64, 1, _, _, _, _, by decide +kernel, some_eq (by decide +kernel),
      by decide +kernel, by decide +kernel, some_eq (by decide +kernel), some_eq (by decide +kernel),
      by decide +kernel, by decide +kernel, by decide +kernel, by decide +kernel, ok_eq (by decide +kernel),
      by decide +kernel, by decide +kernel⟩,
    ⟨base bad7 [c0 64], .east, kc, 1, 0, 64, 64, 1, _, _, _, _, by decide +kernel, some_eq (by decide +kernel),
        by decide +kernel, by decide +kernel, some_eq (by decide +kernel), some_eq (by decide +kernel),
        by decide +kernel, by decide +kernel, by decide +kernel, by decide +kernel, ok_eq (by decide +kernel),
        by and_intros <;> decide +kernel⟩,
    ⟨base tR [c0 64], .east, kc, 1, 0, 100, 64, 1, _, _, _, _, by decide +kernel, some_eq (by decide +kernel),
        by decide +kernel, by decide +kernel, some_eq (by decide +kernel), some_eq (by decide +kernel),
        by decide +kernel, by decide +kernel, by decide +kernel, by decide +kernel, ok_eq (by decide +kernel),
        by and_intros <;> decide +kernel⟩,
    ⟨dn (base tR0 [c0 0]), .east, kc, 1, 0, 0, 64, 1, _, _, _, _, by decide +kernel, some_eq (by decide +kernel),
        by decide +kernel, by decide +kernel, some_eq (by decide +kernel), some_eq (by decide +kernel),
        by decide +kernel, by decide +kernel, by decide +kernel, by decide +kernel, ok_eq (by decide +kernel),
        by decide +kernel, _, by decide +kernel, by decide +kernel, by decide +kernel,
        ok_eq2 (by decide +kernel) (by decide +kernel), ok_eq (by decide +kernel), by decide +kernel⟩,
    ⟨base tR0 [c0 0], .east, kc, 1, 0, 0, 64, 1, _, _, _, _, by decide +kernel, some_eq (by decide +kernel),
        by decide +kernel, by decide +kernel, some_eq (by decide +kernel), some_eq (by decide +kernel),
        by decide +kernel, by decide +kernel, by decide +kernel, by decide +kernel, ok_eq (by decide +kernel),
        by decide +kernel, _, by decide +kernel, by decide +kernel, by decide +kernel,
        ok_eq2 (by decide +kernel) (by decide +kernel), ok_eq (by decide +kernel),
        by and_intros <;> decide +kernel⟩,
    ⟨base tR [c0 64], .east, kc, 1, 0, 64, 64, 1, _, _, _, _, by decide +kernel, some_eq (by decide +kernel),
        by decide +kernel, by decide +kernel, some_eq (by decide +kernel), some_eq (by decide +kernel),
        by decide +kernel, by decide +kernel, by decide +kernel, by decide +kernel, ok_eq (by decide +kernel),
        by decide +kernel, _, by decide +kernel, by decide +kernel, by decide +kernel,
        ok_eq2 (by decide +kernel) (by decide +kernel), ok_eq (by decide +kernel), _, by decide +kernel,
        by decide +kernel, by decide +kernel, ok_eq (by decide +kernel), by decide +kernel⟩,
    ⟨full8 up, .east, kc, 1, 0, 64, 64, 1, by and_intros <;> decide +kernel⟩,
    ⟨base tR [oth], .east, kc, 1, 0, 64, 64, 1, by and_intros <;> decide +kernel⟩⟩

theorem witness_MembersFollowTheRoot :
    (∃ (s : State) (w : Wing) (k : CollKey) (c : Coll) (n : Word32), s.heldAt = none ∧ collOf s w k = some c ∧
        (∀ h ∈ (s.jn.get w).held, h.key ≠ k) ∧ ∃ (id : Nat) (t : Machine.Task), c.task = some id ∧
        taskOf s id = some t ∧ t.id = id ∧ c.role = .member ∧ ∃ (pass : Bool), c.n = none ∧ t.status = .running ∧
        n = 0)
    ∧ (∃ (s : State) (w : Wing) (k : CollKey) (c : Coll) (n : Word32), s.heldAt = none ∧ collOf s w k = some c ∧
        (∀ h ∈ (s.jn.get w).held, h.key ≠ k) ∧ ∃ (id : Nat) (t : Machine.Task), c.task = some id ∧
        taskOf s id = some t ∧ t.id = id ∧ c.role = .member ∧
        let z := s.modColl w k fun c => { c with n := some n.toNat, since := (tickOf s w).toNat };
        ∃ (pass : Bool) (a : List Nat) (b : List Nat), c.n = none ∧ t.status = .running ∧ n ≠ 0 ∧
        physPages z (taskCtx z t) (partialRanges t) = .ok a ∧ physPages z (taskCtx z t) (collDest t) = .ok b)
    ∧ (∃ (s : State) (w : Wing) (k : CollKey) (c : Coll) (n : Word32), s.heldAt = none ∧ collOf s w k = some c ∧
        (∀ h ∈ (s.jn.get w).held, h.key ≠ k) ∧ ∃ (id : Nat) (t : Machine.Task), c.task = some id ∧
        taskOf s id = some t ∧ t.id = id ∧ c.role = .member ∧ c.n ≠ none ∧ t.status = .running ∧ c.rerun = false)
    ∧ (∃ (s : State) (w : Wing) (k : CollKey) (c : Coll) (n : Word32), s.heldAt = none ∧ collOf s w k = some c ∧
        (∀ h ∈ (s.jn.get w).held, h.key ≠ k) ∧ ∃ (id : Nat) (t : Machine.Task), c.task = some id ∧
        taskOf s id = some t ∧ t.id = id ∧ c.role = .member ∧ c.n ≠ none ∧ c.rerun = true)
    ∧ (∃ (s : State) (w : Wing) (k : CollKey) (c : Coll) (n : Word32), s.heldAt = none ∧ collOf s w k = some c ∧
        (∀ h ∈ (s.jn.get w).held, h.key ≠ k) ∧ ∃ (id : Nat) (t : Machine.Task), c.task = some id ∧
        taskOf s id = some t ∧ t.id = id ∧ c.role = .member ∧ ∃ (fl : BitVec 5), c.n = some n.toNat ∧
        (c.broadcast = false ∨ n.toNat ≤ c.chunk * 262144) ∧ ∃ (j : CollKey) (d : Coll), j ≠ k ∧
        collOf s w j = some d)
    ∧ (∃ (s : State) (w : Wing) (k : CollKey) (c : Coll) (n : Word32), s.heldAt = none ∧ collOf s w k = some c ∧
        (∀ h ∈ (s.jn.get w).held, h.key ≠ k) ∧ ∃ (id : Nat) (t : Machine.Task), c.task = some id ∧
        taskOf s id = some t ∧ t.id = id ∧ c.role = .member ∧ ∃ (fl : BitVec 5), c.n = some n.toNat ∧
        c.broadcast = true ∧ c.chunk * 262144 < n.toNat)
    ∧ (∃ (s : State) (w : Wing) (k : CollKey) (c : Coll) (n : Word32), s.heldAt = none ∧ collOf s w k = some c ∧
        (∀ h ∈ (s.jn.get w).held, h.key ≠ k) ∧ ∃ (fl : BitVec 5), c.role = .relay ∧ ∃ (j : CollKey) (d : Coll),
        j ≠ k ∧ collOf s w j = some d) :=
  ⟨⟨mS tM (mC false none 0 false), .east, kc, _, 0, by decide +kernel, some_eq (by decide +kernel),
      by decide +kernel, _, _, some_eq (by decide +kernel), some_eq (by decide +kernel), by decide +kernel,
      by decide +kernel, true, by and_intros <;> decide +kernel⟩,
    ⟨mS tM (mC false none 0 false), .east, kc, _, 64, by decide +kernel, some_eq (by decide +kernel),
        by decide +kernel, _, _, some_eq (by decide +kernel), some_eq (by decide +kernel), by decide +kernel,
        by decide +kernel, true, _, _, by decide +kernel, by decide +kernel, by decide +kernel,
        ok_eq (by decide +kernel), ok_eq (by decide +kernel)⟩,
    ⟨mS tM (mC false (some 64) 0 false), .east, kc, _, 0, by decide +kernel, some_eq (by decide +kernel),
        by decide +kernel, _, _, some_eq (by decide +kernel), some_eq (by decide +kernel),
        by and_intros <;> decide +kernel⟩,
    ⟨mS tM (mC true (some 64) 0 true), .east, kc, _, 0, by decide +kernel, some_eq (by decide +kernel),
        by decide +kernel, _, _, some_eq (by decide +kernel), some_eq (by decide +kernel),
        by and_intros <;> decide +kernel⟩,
    ⟨mS tM (mC false (some 64) 0 false), .east, kc, _, 64, by decide +kernel, some_eq (by decide +kernel),
        by decide +kernel, _, _, some_eq (by decide +kernel), some_eq (by decide +kernel), by decide +kernel,
        by decide +kernel, 0, by decide +kernel, by decide +kernel, ⟨3, 1⟩, _, by decide +kernel,
        some_eq (by decide +kernel)⟩,
    ⟨mS tM (mC true (some 64) 0 true), .east, kc, _, 64, by decide +kernel, some_eq (by decide +kernel),
        by decide +kernel, _, _, some_eq (by decide +kernel), some_eq (by decide +kernel), by decide +kernel,
        by decide +kernel, 0, by and_intros <;> decide +kernel⟩,
    ⟨wj (up) .east [{ oth with key := kc }, oth], .east, kc, _, 0, by decide +kernel, some_eq (by decide +kernel),
        by decide +kernel, 0, by decide +kernel, ⟨3, 1⟩, _, by decide +kernel, some_eq (by decide +kernel)⟩⟩

theorem witness_PartialsAddElementwise :
    (∃ (fmt : Nat) (xs : List Nat) (ys : List Nat) (i : Nat), i < xs.length ∧ i < ys.length)
    ∧ (∃ (fmt : Nat) (xs : List Nat) (ys : List Nat) (i : Nat), xs.length ≤ i ∧ ys.length ≤ i) :=
  ⟨⟨0, [0x3F80, 0x4000], [0x3F80], 0, by decide +kernel, by decide +kernel⟩,
    ⟨0, [], [], 0, by decide +kernel, by decide +kernel⟩⟩

theorem witness_ChunksArrive :
    (∃ (s : State) (w : Wing) (k : CollKey) (m : Fin 255) (core : BitVec 16) (chunk : Nat) (data : List Byte),
        s.heldAt = none ∧ ∃ (c : Coll) (id : Nat) (t : Machine.Task) (n : Nat) (a : Arrival) (bad : Bool),
        collOf s w k = some c ∧ c.task = some id ∧ taskOf s id = some t ∧ t.id = id ∧ t.status = .running ∧
        c.role = .root ∧ c.n = some n ∧ c.broadcast = false ∧ Table.find c.arrivals m.val = some a ∧
        wasAsked s w t c m.val a core.toNat chunk = false)
    ∧ (∃ (s : State) (w : Wing) (k : CollKey) (m : Fin 255) (core : BitVec 16) (chunk : Nat) (data : List Byte),
        s.heldAt = none ∧ ∃ (c : Coll) (id : Nat) (t : Machine.Task) (n : Nat) (a : Arrival) (bad : Bool),
        collOf s w k = some c ∧ c.task = some id ∧ taskOf s id = some t ∧ t.id = id ∧ t.status = .running ∧
        c.role = .root ∧ c.n = some n ∧ c.broadcast = false ∧ Table.find c.arrivals m.val = some a ∧
        let x : Coll := { c with waiting := c.waiting ++ [(m.val, core.toNat, chunk, data)], since := (tickOf s w).toNat };
        let r := addParts w t n (addFuel t x n) (s.modColl w k fun _ => x) x 0;
        wasAsked s w t c m.val a core.toNat chunk = true ∧ ∃ (v : State) (y : Coll) (added : Nat), r = (v, .ok (y,
        added)) ∧ (bad = false ∨ added = 0) ∧ (settleRoot v w t k n y (some m.val)).heldAt = none)
    ∧ (∃ (s : State) (w : Wing) (k : CollKey) (m : Fin 255) (core : BitVec 16) (chunk : Nat) (data : List Byte),
        s.heldAt = none ∧ ∃ (c : Coll) (id : Nat) (t : Machine.Task) (n : Nat) (a : Arrival) (bad : Bool),
        collOf s w k = some c ∧ c.task = some id ∧ taskOf s id = some t ∧ t.id = id ∧ t.status = .running ∧
        c.role = .root ∧ c.n = some n ∧ c.broadcast = false ∧ Table.find c.arrivals m.val = some a ∧
        let x : Coll := { c with waiting := c.waiting ++ [(m.val, core.toNat, chunk, data)], since := (tickOf s w).toNat };
        let r := addParts w t n (addFuel t x n) (s.modColl w k fun _ => x) x 0;
        wasAsked s w t c m.val a core.toNat chunk = true ∧ ∃ (v : State) (err : AccErr), r = (v, .error err) ∧
        (failCollAcc v w k t.part err).heldAt = none)
    ∧ (∃ (s : State) (w : Wing) (k : CollKey) (m : Fin 255) (core : BitVec 16) (chunk : Nat) (data : List Byte),
        s.heldAt = none ∧ ∃ (c : Coll) (id : Nat) (t : Machine.Task) (n : Nat) (a : Arrival) (bad : Bool),
        collOf s w k = some c ∧ c.task = some id ∧ taskOf s id = some t ∧ t.id = id ∧ t.status = .running ∧
        c.role = .root ∧ c.n = some n ∧ c.broadcast = false ∧ Table.find c.arrivals m.val = some a ∧
        let x : Coll := { c with waiting := c.waiting ++ [(m.val, core.toNat, chunk, data)], since := (tickOf s w).toNat };
        let r := addParts w t n (addFuel t x n) (s.modColl w k fun _ => x) x 0;
        wasAsked s w t c m.val a core.toNat chunk = true ∧ ∃ (v : State) (y : Coll) (added : Nat), r = (v, .ok (y,
        added)) ∧ bad = true ∧ added ≠ 0 ∧ y.rerun = false ∧ y.key = k ∧ y.n = some n ∧ chunkCount t n ≠ 0 ∧
        (collOf v w k).isSome = true ∧ v.heldAt = none)
    ∧ (∃ (s : State) (w : Wing) (k : CollKey) (m : Fin 255) (core : BitVec 16) (chunk : Nat) (data : List Byte),
        s.heldAt = none ∧ ∃ (c : Coll) (id : Nat) (t : Machine.Task) (n : Nat) (a : Arrival) (bad : Bool),
        collOf s w k = some c ∧ c.task = some id ∧ taskOf s id = some t ∧ t.id = id ∧ t.status = .running ∧
        c.role = .root ∧ c.n = some n ∧ c.broadcast = false ∧ Table.find c.arrivals m.val = some a ∧
        let x : Coll := { c with waiting := c.waiting ++ [(m.val, core.toNat, chunk, data)], since := (tickOf s w).toNat };
        let r := addParts w t n (addFuel t x n) (s.modColl w k fun _ => x) x 0;
        wasAsked s w t c m.val a core.toNat chunk = true ∧ ∃ (v : State) (y : Coll) (added : Nat), r = (v, .ok (y,
        added)) ∧ bad = true ∧ added ≠ 0 ∧ y.rerun = true ∧ y.task = some id ∧ y.key = k ∧
        (collOf v w k).isSome = true ∧ taskOf v id = some t ∧ v.heldAt = none ∧ (∀ h ∈ (v.jn.get w).held,
        h.key ≠ k))
    ∧ (∃ (s : State) (w : Wing) (k : CollKey) (m : Fin 255) (core : BitVec 16) (chunk : Nat) (data : List Byte),
        s.heldAt = none ∧
        ∃ (c : Coll) (id : Nat) (t : Machine.Task) (n : Nat) (v : State) (bad : Bool) (pass : Bool),
        collOf s w k = some c ∧ c.task = some id ∧ taskOf s id = some t ∧ t.status = .running ∧ c.role = .member ∧
        c.n = some n ∧ c.broadcast = true ∧ chunk = c.chunk ∧ chunk * 262144 < n ∧
        chunkSave (if pass then addCtr s (blkJn w) 0x0108 else s) w t chunk (cbDst t.body + chunk * 262144) (data.take (n - chunk * 262144)) = (v,
        none) ∧ v.heldAt = none)
    ∧ (∃ (s : State) (w : Wing) (k : CollKey) (m : Fin 255) (core : BitVec 16) (chunk : Nat) (data : List Byte),
        s.heldAt = none ∧ ∃ (bad : Bool), collOf s w k = none ∧ contextFree s w = false)
    ∧ (∃ (s : State) (w : Wing) (k : CollKey) (m : Fin 255) (core : BitVec 16) (chunk : Nat) (data : List Byte),
        s.heldAt = none ∧ ∃ (bad : Bool), collOf s w k = none ∧ contextFree s w = true)
    ∧ (∃ (s : State) (w : Wing) (k : CollKey) (m : Fin 255) (core : BitVec 16) (chunk : Nat) (data : List Byte),
        s.heldAt = none ∧ ∃ (c : Coll) (bad : Bool), collOf s w k = some c ∧ c.role = .relay ∧ c.task = none) :=
  ⟨⟨rS 64 false, .east, kc, 1, 5, 0, rch, by decide +kernel, _, _, _, _, _, true, some_eq (by decide +kernel),
      some_eq (by decide +kernel), some_eq (by decide +kernel), by decide +kernel, by decide +kernel,
      by decide +kernel, some_eq (by decide +kernel), by decide +kernel, some_eq (by decide +kernel),
      by decide +kernel⟩,
    ⟨rS 60 false, .east, kc, 1, 5, 0, rch, by decide +kernel, _, _, _, _, _, false, some_eq (by decide +kernel),
        some_eq (by decide +kernel), some_eq (by decide +kernel), by decide +kernel, by decide +kernel,
        by decide +kernel, some_eq (by decide +kernel), by decide +kernel, some_eq (by decide +kernel),
        by decide +kernel, _, _, _, pair_ok_pair (by decide +kernel), by decide +kernel, by decide +kernel⟩,
    ⟨{ rS 60 false with poison := (List.range 4096).map fun i => (sm + 0x10000) / 64 + i }, .east, kc, 1, 5, 0,
        rch, by decide +kernel, _, _, _, _, _, false, some_eq (by decide +kernel), some_eq (by decide +kernel),
        some_eq (by decide +kernel), by decide +kernel, by decide +kernel, by decide +kernel,
        some_eq (by decide +kernel), by decide +kernel, some_eq (by decide +kernel), by decide +kernel, _, _,
        pair_error (by decide +kernel), by decide +kernel⟩,
    ⟨rS 60 false, .east, kc, 1, 5, 0, rch, by decide +kernel, _, _, _, _, _, true, some_eq (by decide +kernel),
        some_eq (by decide +kernel), some_eq (by decide +kernel), by decide +kernel, by decide +kernel,
        by decide +kernel, some_eq (by decide +kernel), by decide +kernel, some_eq (by decide +kernel),
        by decide +kernel, _, _, _, pair_ok_pair (by decide +kernel), by and_intros <;> decide +kernel⟩,
    ⟨rS 60 true, .east, kc, 1, 5, 0, rch, by decide +kernel, _, _, _, _, _, true, some_eq (by decide +kernel),
        some_eq (by decide +kernel), some_eq (by decide +kernel), by decide +kernel, by decide +kernel,
        by decide +kernel, some_eq (by decide +kernel), by decide +kernel, some_eq (by decide +kernel),
        by decide +kernel, _, _, _, pair_ok_pair (by decide +kernel), by and_intros <;> decide +kernel⟩,
    ⟨bS, .east, kc, 1, 5, 0, List.replicate 64 3, by decide +kernel, _, _, _, _, _, true, true,
        some_eq (by decide +kernel), some_eq (by decide +kernel), some_eq (by decide +kernel), by decide +kernel,
        by decide +kernel, some_eq (by decide +kernel), by decide +kernel, by decide +kernel, by decide +kernel,
        pair_none (by decide +kernel), by decide +kernel⟩,
    ⟨full8 up, .east, kc, 1, 5, 0, List.replicate 64 3, by decide +kernel, true, by decide +kernel,
        by decide +kernel⟩,
    ⟨up, .east, kc, 1, 5, 0, List.replicate 64 3, by decide +kernel, true, by decide +kernel, by decide +kernel⟩,
    ⟨wj up .east [{ oth with key := kc }], .east, kc, 1, 5, 0, List.replicate 64 3, by decide +kernel, _, true,
        some_eq (by decide +kernel), by decide +kernel, by decide +kernel⟩⟩

theorem witness_LostPartiesEndCollectives :
    (∃ (s : State) (w : Wing) (k : CollKey) (c : Coll) (id : Nat) (t : Task), collOf s w k = some c ∧
        c.task = some id ∧ taskOf s id = some t ∧ t.status = .running ∧ (∀ h ∈ (s.jn.get w).held, h.key ≠ k) ∧
        ∃ (m : Fin 255), c.role = .root ∧ m.val ∈ liveOf t ∧ m.val ≠ cbSelf t.body ∧
        memberLost s w c t m.val = true)
    ∧ (∃ (s : State) (w : Wing) (k : CollKey) (c : Coll) (id : Nat) (t : Task), collOf s w k = some c ∧
        c.task = some id ∧ taskOf s id = some t ∧ t.status = .running ∧ (∀ h ∈ (s.jn.get w).held, h.key ≠ k) ∧
        ∃ (m : Fin 255), c.role = .root ∧ m.val ∈ liveOf t ∧ m.val ≠ cbSelf t.body ∧
        memberLost s w c t m.val = false)
    ∧ (∃ (s : State) (w : Wing) (k : CollKey) (c : Coll) (id : Nat) (t : Task), collOf s w k = some c ∧
        c.task = some id ∧ taskOf s id = some t ∧ t.status = .running ∧ (∀ h ∈ (s.jn.get w).held, h.key ≠ k) ∧
        ∃ (m : Fin 255), c.role = .root ∧ m.val ∈ liveOf t ∧ m.val ≠ cbSelf t.body ∧ c.n = none ∧
        Table.find c.arrivals m.val = none)
    ∧ (∃ (s : State) (w : Wing) (k : CollKey) (c : Coll) (id : Nat) (t : Task), collOf s w k = some c ∧
        c.task = some id ∧ taskOf s id = some t ∧ t.status = .running ∧ (∀ h ∈ (s.jn.get w).held, h.key ≠ k) ∧
        ∃ (m : Fin 255), c.role = .root ∧ m.val ∈ liveOf t ∧ m.val ≠ cbSelf t.body ∧ ∃ (a : Arrival), c.n = none ∧
        Table.find c.arrivals m.val = some a)
    ∧ (∃ (s : State) (w : Wing) (k : CollKey) (c : Coll) (id : Nat) (t : Task), collOf s w k = some c ∧
        c.task = some id ∧ taskOf s id = some t ∧ t.status = .running ∧ (∀ h ∈ (s.jn.get w).held, h.key ≠ k) ∧
        ∃ (m : Fin 255), c.role = .root ∧ m.val ∈ liveOf t ∧ m.val ≠ cbSelf t.body ∧ ∃ (a : Nat), c.n ≠ none ∧
        Table.find c.asked m.val = some a ∧ a + dictVal s 0x4030 0 ≤ (tickOf s w).toNat)
    ∧ (∃ (s : State) (w : Wing) (k : CollKey) (c : Coll) (id : Nat) (t : Task), collOf s w k = some c ∧
        c.task = some id ∧ taskOf s id = some t ∧ t.status = .running ∧ (∀ h ∈ (s.jn.get w).held, h.key ≠ k) ∧
        ∃ (m : Fin 255), c.role = .root ∧ m.val ∈ liveOf t ∧ m.val ≠ cbSelf t.body ∧ ∃ (recs : Table Nat),
        c.n ≠ none ∧ liveRecs s w t = .ok recs ∧ (∀ a,
        Table.find c.asked m.val = some a → (tickOf s w).toNat < a + dictVal s 0x4030 0))
    ∧ (∃ (s : State) (w : Wing) (k : CollKey) (c : Coll) (id : Nat) (t : Task), collOf s w k = some c ∧
        c.task = some id ∧ taskOf s id = some t ∧ t.status = .running ∧ (∀ h ∈ (s.jn.get w).held, h.key ≠ k) ∧
        c.role = .member ∧ c.since + dictVal s 0x4030 0 ≤ (tickOf s w).toNat)
    ∧ (∃ (s : State) (w : Wing) (k : CollKey) (c : Coll) (id : Nat) (t : Task), collOf s w k = some c ∧
        c.task = some id ∧ taskOf s id = some t ∧ t.status = .running ∧ (∀ h ∈ (s.jn.get w).held, h.key ≠ k) ∧
        c.role = .member ∧ (tickOf s w).toNat < c.since + dictVal s 0x4030 0) :=
  ⟨⟨tkn (rS 60 false) (2^45), .east, kc, _, _, _, some_eq (by decide +kernel), some_eq (by decide +kernel),
      some_eq (by decide +kernel), by decide +kernel, by decide +kernel, 1, by and_intros <;> decide +kernel⟩,
    ⟨tkn (rS 60 false) 5, .east, kc, _, _, _, some_eq (by decide +kernel), some_eq (by decide +kernel),
        some_eq (by decide +kernel), by decide +kernel, by decide +kernel, 1, by and_intros <;> decide +kernel⟩,
    ⟨tkn (base tR [c0 64, oth]) 1000, .east, kc, _, _, _, some_eq (by decide +kernel), some_eq (by decide +kernel),
        some_eq (by decide +kernel), by decide +kernel, by decide +kernel, 1, by and_intros <;> decide +kernel⟩,
    ⟨tkn (base tR [{ c0 64 with arrivals := [(0, ar 64 1), (1, ar 64 1)] }]) (2^45), .east, kc, _, _, _,
        some_eq (by decide +kernel), some_eq (by decide +kernel), some_eq (by decide +kernel), by decide +kernel,
        by decide +kernel, 1, by decide +kernel, by decide +kernel, by decide +kernel, _, by decide +kernel,
        some_eq (by decide +kernel)⟩,
    ⟨tkn (rS 60 false) (2^45), .east, kc, _, _, _, some_eq (by decide +kernel), some_eq (by decide +kernel),
        some_eq (by decide +kernel), by decide +kernel, by decide +kernel, 1, by decide +kernel, by decide +kernel,
        by decide +kernel, _, by decide +kernel, some_eq (by decide +kernel), by decide +kernel⟩,
    ⟨tkn (rS 60 false) 5, .east, kc, _, _, _, some_eq (by decide +kernel), some_eq (by decide +kernel),
        some_eq (by decide +kernel), by decide +kernel, by decide +kernel, 1, by decide +kernel, by decide +kernel,
        by decide +kernel, _, by decide +kernel, ok_eq (by decide +kernel), all_some (by decide +kernel)⟩,
    ⟨tkn (mS tM (mC false none 0 false)) (2^45), .east, kc, _, _, _, some_eq (by decide +kernel),
        some_eq (by decide +kernel), some_eq (by decide +kernel), by and_intros <;> decide +kernel⟩,
    ⟨tkn (mS tM (mC false none 0 false)) 1000, .east, kc, _, _, _, some_eq (by decide +kernel),
        some_eq (by decide +kernel), some_eq (by decide +kernel), by and_intros <;> decide +kernel⟩⟩

theorem witness_LossReformsTheGroup :
    (∃ (s : State) (w : Wing) (g : BitVec 8) (m : Fin 255), let e := groupNow s w g.toNat;
        (geValid e = false ∨ geResilient e = false ∨ geCount e ≤ m.val ∨ m.val ∈ Table.get [] (s.jn.get w).gone g.toNat))
    ∧ (∃ (s : State) (w : Wing) (g : BitVec 8) (m : Fin 255), let e := groupNow s w g.toNat; geValid e = true ∧
        geResilient e = true ∧ m.val < geCount e ∧ m.val ∉ Table.get [] (s.jn.get w).gone g.toNat) :=
  ⟨⟨grp5 1, .east, 2, 7, by decide +kernel⟩,
    ⟨grp5 1, .east, 2, 1, by and_intros <;> decide +kernel⟩⟩

theorem witness_LossOrderDoesNotMatter :
    ∃ (s : State) (w : Wing) (g : BitVec 8) (a : Fin 255) (b : Fin 255) (x : State) (y : State) (u : State) (v : State) (i : Nat),
        exec (.jnLossNotice w g a) s = .next x ∧ exec (.jnLossNotice w g b) x = .next u ∧
        exec (.jnLossNotice w g b) s = .next y ∧ exec (.jnLossNotice w g a) y = .next v :=
  ⟨grp5 1, .east, 2, 1, 2, _, _, _, _, 0, next_eq (by decide +kernel), next_eq (by decide +kernel),
      next_eq (by decide +kernel), next_eq (by decide +kernel)⟩

end G09

/-! ### Registers and the mailbox -/

namespace G10

def rq (s : State) : State := { (s.modSch .e0 fun x => { x with retireQ := [⟨5, 1, 2, 3⟩, ⟨6, 2, 3, 4⟩] }) with hif := { s.hif with logs := { s.hif.logs with clog := [(0, 0x123456789ABCDEF0123456789)], clogSel := 0 } } }
def ct : State := (rq up).modTt .east fun t => { t with count := 0x123456789A }
def dirt (s : State) : State :=
  let s := s.modMem .e0 fun m => { m with faultInfo := 1, faultLo := 2, faultHi := 3 }
  let s := s.modSch .e0 fun x => { x with shapeFirst := 1, shapeRt := 2, shapePlan := 3, dlInfo := 4, dlTag := 5, stallInfo := 6, stallTag := 7, heldInfo := 8, heldNeed := 9, latMax := [(3, 5)], confFirst := [(3, 7)] }
  let s := s.modPorter .e0 fun x => { x with faultInfo := 1, faultSeq := 2, faultPos := 3 }
  let s := s.modCat .e0 fun x => { x with faultInfo := 1, faultId := 2 }
  let s := s.modTt .east fun x => { x with failInfo := 1, failSet := 2 }
  s.modJn .east fun j => { j with laneFailed := 3, laneSel := true, faultInfo := 1, faultSeq := 2 }
def eq (s : State) (f : Logs → Logs) : State := s.modLogs f
def mb (f : Mailbox → Mailbox) : State := { up with hif := { up.hif with mbx := f { up.hif.mbx with rsp := [(0, 1)] } } }
def byt (index sub off len : Nat) : List Byte := leBytes 1 1 ++ [0] ++ leBytes 2 index ++ leBytes 1 sub ++ leBytes 3 0 ++ leBytes 4 off ++ leBytes 4 len
def rqs (index sub off len : Nat) : State := mb fun m => { m with req := (((List.range 16).zip (byt index sub off len)).filter fun x => x.2 ≠ 0) }
def q16 : State := let s := mb id; { s with cst := { s.cst with queue := List.replicate 16 (.mailbox []) } }

theorem witness_ReadsWithAnEffect :
    (∃ (s : State), hostReaches s .pf0 = true ∧ ∃ (t : Tile), (wingOf t = .east ∨ concourseUp s = true))
    ∧ (∃ (s : State), hostReaches s .pf0 = true ∧ ∃ (b : Fin 26) (off : BitVec 24),
        (blockWing b.val = .east ∨ concourseUp s = true) ∧ isCounter b.val off.toNat = true)
    ∧ (∃ (s : State), hostReaches s .pf0 = true ∧ ∃ (w : Wing), (w = .east ∨ concourseUp s = true))
    ∧ (∃ (s : State), hostReaches s .pf0 = true ∧ ∃ (w : Nat), 1 ≤ w ∧ w < 8)
    ∧ (∃ (s : State), hostReaches s .pf0 = true ∧ concourseUp s = false) :=
  ⟨⟨addCtr ct 0 0x0120 0x1234567890, by decide +kernel, .e0, by decide +kernel⟩,
    ⟨addCtr ct 0 0x0120 0x1234567890, by decide +kernel, 0, 0x0120, by decide +kernel, by decide +kernel⟩,
    ⟨addCtr ct 0 0x0120 0x1234567890, by decide +kernel, .east, by decide +kernel⟩,
    ⟨addCtr ct 0 0x0120 0x1234567890, by decide +kernel, 1, by decide +kernel, by decide +kernel⟩,
    ⟨rq ccDown, by decide +kernel, by decide +kernel⟩⟩

theorem witness_StationmasterControls :
    ∃ (s : State) (t : Tile) (v : Word32), hostReaches s .pf0 = true ∧ (wingOf t = .east ∨ concourseUp s = true) :=
  ⟨dirt up, .e0, 0, by decide +kernel, by decide +kernel⟩

theorem witness_UnitControls :
    (∃ (s : State) (t : Tile) (v : Word32), hostReaches s .pf0 = true ∧ (wingOf t = .east ∨ concourseUp s = true))
    ∧ (∃ (s : State) (w : Wing) (v : Word32), hostReaches s .pf0 = true ∧ (w = .east ∨ concourseUp s = true)) :=
  ⟨⟨dirt up, .e0, 0, by decide +kernel, by decide +kernel⟩,
    ⟨dirt up, .east, 0, by decide +kernel, by decide +kernel⟩⟩

theorem witness_ClearCommands :
    (∃ (s : State), hostReaches s .pf0 = true ∧ ∃ (t : Tile) (n : Fin 336),
        (wingOf t = .east ∨ concourseUp s = true))
    ∧ (∃ (s : State), hostReaches s .pf0 = true ∧ ∃ (w : Wing), (w = .east ∨ concourseUp s = true))
    ∧ (∃ (s : State), hostReaches s .pf0 = true ∧ concourseUp s = false) :=
  ⟨⟨dirt up, by decide +kernel, .e0, 3, by decide +kernel⟩,
    ⟨dirt up, by decide +kernel, .east, by decide +kernel⟩,
    ⟨dirt ccDown, by decide +kernel, by decide +kernel⟩⟩

theorem witness_EventQueueEnabled :
    (∃ (s : State) (v : Word32), hostReaches s .pf0 = true ∧ s.hif.logs.evqEnable = false ∧
        s.hif.logs.evqBase.toNat % 4096 = 0 ∧ 4 ≤ fld v 19 16 ∧ fld v 19 16 ≤ 12)
    ∧ (∃ (s : State) (v : Word32), hostReaches s .pf0 = true ∧ s.hif.logs.evqEnable = false ∧
        (s.hif.logs.evqBase.toNat % 4096 ≠ 0 ∨ fld v 19 16 < 4 ∨ 12 < fld v 19 16))
    ∧ (∃ (s : State) (v : Word32), hostReaches s .pf0 = true ∧ s.hif.logs.evqEnable = true) :=
  ⟨⟨eq up fun l => { l with evqBase := 0x4000 }, 0x40001, by and_intros <;> decide +kernel⟩,
    ⟨eq up fun l => { l with evqBase := 0x4000 }, 0x30001, by and_intros <;> decide +kernel⟩,
    ⟨evq up, 0x40001, by decide +kernel, by decide +kernel⟩⟩

theorem witness_RegisterWrites :
    (∃ (s : State) (f : Func) (v : Word32) (r : Fin 64), hostReaches s f = false)
    ∧ (∃ (s : State) (f : Func) (v : Word32) (r : Fin 64), hostReaches s f = true ∧ f ≠ .pf0)
    ∧ (∃ (s : State) (f : Func) (v : Word32) (r : Fin 64), hostReaches s f = true ∧ hasRing f r.val = true ∧
        (ringOf s f r.val).enabled = false ∧ hostReaches s .pf0 = true ∧ v.getLsbD 31 = false)
    ∧ (∃ (s : State) (f : Func) (v : Word32) (r : Fin 64), hostReaches s f = true ∧ hasRing f r.val = true ∧
        (ringOf s f r.val).enabled = true)
    ∧ (∃ (s : State) (f : Func) (v : Word32) (r : Fin 64), hostReaches s .pf0 = true ∧ v.getLsbD 31 = true) :=
  ⟨⟨{ up with hif := { up.hif with vfEnable := false } }, .vf 0, 0, 0, by decide +kernel⟩,
    ⟨up, .vf 0, 0, 0, by decide +kernel, by decide +kernel⟩,
    ⟨up, .pf0, 0, 0, by and_intros <;> decide +kernel⟩,
    ⟨(up.modRing (.vf 0) 3 fun _ => onRing).modRing .pf0 0 fun _ => onRing, .pf0, 0, 0,
        by and_intros <;> decide +kernel⟩,
    ⟨up, .pf0, 0xFFFFFFFF, 0, by decide +kernel, by decide +kernel⟩⟩

theorem witness_MailboxRequests :
    (∃ (s : State), hostReaches s .pf0 = true ∧ s.hif.mbx.busy = true)
    ∧ (∃ (s : State), hostReaches s .pf0 = true ∧ s.hif.mbx.busy = false ∧ s.cst.queue.length < 16)
    ∧ (∃ (s : State), hostReaches s .pf0 = true ∧ s.hif.mbx.busy = false ∧ 16 ≤ s.cst.queue.length ∧
        Table.canonical 0 s.hif.mbx.rsp = true)
    ∧ (∃ (s : State), hostReaches s .pf0 = true ∧
        ∃ (index : Nat) (sub : Nat) (off : Nat) (len : Nat) (bytes : List Byte), s.hif.mbx.busy = false ∧
        s.cst.queue = [] ∧ Table.canonical 0 s.hif.mbx.rsp = true ∧
        bytes = leBytes 1 1 ++ [0] ++ leBytes 2 index ++ leBytes 1 sub ++ leBytes 3 0 ++ leBytes 4 off ++ leBytes 4 len ∧
        index < 2 ^ 16 ∧ sub < 2 ^ 8 ∧ off < 2 ^ 32 ∧ len ≤ 2016 ∧ (∀ i,
        i < 16 → Table.get 0 s.hif.mbx.req i = nth 0 bytes i) ∧ accessReason s index sub false = none) :=
  ⟨⟨mb fun m => { m with busy := true }, by decide +kernel, by decide +kernel⟩,
    ⟨mb id, by and_intros <;> decide +kernel⟩,
    ⟨q16, by and_intros <;> decide +kernel⟩,
    ⟨rqs 0x4000 0 0 4, by decide +kernel, 0x4000, 0, 0, 4, byt 0x4000 0 0 4, by and_intros <;> decide +kernel⟩⟩

end G10

/-! ### The dictionary, CAN and the states -/

namespace G11

def md (s : State) (f : Custodian → Custodian) : State := s.modCst f
def upi : State := { up with power := { up.power with inputPower := true } }
def shunt : State := md upi fun c => { c with state := .shunt, target := .shunt }
def depot : State := md upi fun c => { c with state := .depot, target := .depot }
def en (index sub : Nat) : DEntry := (dictEntry index sub).getD ⟨.bool, .rw, 0⟩
def wr (index : Nat) (sub : Nat) (bs : List Byte) (fd : CanFormat) (s : State) : State := nx (exec (.dapWrite fd ([BitVec.ofNat 8 bs.length,
    BitVec.ofNat 8 index, BitVec.ofNat 8 (index/256), BitVec.ofNat 8 sub] ++ bs) false) s)
def bad : List Byte := [0xC1, 0, 0x40, 0]
def qd (n : Nat) : State := md upi fun c => { c with queue := List.replicate n (.frame .classic bad) }
def xf (w : Bool) : Transfer := { write := w, index := 0x3034, sub := 0, total := 8, data := if w then [1, 2] else [1, 2, 3, 4, 5, 6, 7, 8], expect := 3, fd := .classic }
def tr (x : Transfer) : State := md shunt fun c => { c with canXfer := some x }
def mbS (s : State) : State := { s with hif := { s.hif with mbx := { s.hif.mbx with req := [] } } }
def dSv : State := mbS (md upi fun c => { c with dict := [(256 * 0x1033, [5, 0]), (256 * 0x6000, [1])], store := [(256 * 0x1033, [9, 9])] })
def worn : State := md dSv fun c => { c with worn := true }
def depD : State := md dSv fun c => { c with state := .depot, target := .depot }
def hlt : State := md upi fun c => { c with state := .halt, target := .depot, haltRule := 3 }
def limited : State := md upi fun c => { c with state := .limited, target := .service, limitedReasons := 1 }
def fq : State := { withEntry upi (.vf 0) 3 5 with tasks := [run1 xMove] }
def rw (p : DictPath) : List (Instr × DevState) := [(.stateCmdDepot p, .depot), (.stateCmdShunt p, .shunt),
    (.stateCmdService p, .service)]
def hl2 : State := md hlt fun c => { c with rules := [(3, { active := true, trueRun := 1, clearRun := 0 })] }

theorem witness_DictionaryReadOnCan :
    (∃ (s : State) (fd : CanFormat) (i : Byte) (j : Byte) (k : Byte), s.power.inputPower = true ∧
        s.cst.queue = [] ∧ let index := i.toNat + 256 * j.toNat; let sub := k.toNat; ∃ (c : Nat),
        accessReason s index sub false = some c ∧ dictEntry index sub = none)
    ∧ (∃ (s : State) (fd : CanFormat) (i : Byte) (j : Byte) (k : Byte), s.power.inputPower = true ∧
        s.cst.queue = [] ∧ let index := i.toNat + 256 * j.toNat; let sub := k.toNat; let v := dictRead s index sub;
        ∃ (e : DEntry), accessReason s index sub false = none ∧ dictEntry index sub = some e ∧
        e.type.size.isSome = true ∧ v.length ≤ expedited fd)
    ∧ (∃ (s : State) (fd : CanFormat) (i : Byte) (j : Byte) (k : Byte), s.power.inputPower = true ∧
        s.cst.queue = [] ∧ let index := i.toNat + 256 * j.toNat; let sub := k.toNat; let v := dictRead s index sub;
        ∃ (e : DEntry), accessReason s index sub false = none ∧ dictEntry index sub = some e ∧
        (e.type.size = none ∨ expedited fd < v.length) ∧ v ≠ []) :=
  ⟨⟨upi, .fd true, 0, 0x40, 1, by decide +kernel, by decide +kernel, _, some_eq (by decide +kernel),
      by decide +kernel⟩,
    ⟨upi, .fd true, 0, 0x40, 0, by decide +kernel, by decide +kernel, _, by decide +kernel,
        some_eq (by decide +kernel), by decide +kernel, by decide +kernel⟩,
    ⟨upi, .classic, 0x34, 0x30, 0, by decide +kernel, by decide +kernel, _, by decide +kernel,
        some_eq (by decide +kernel), by decide +kernel, by decide +kernel⟩⟩

theorem witness_DictionaryWriteOnCan :
    (∃ (s : State) (fd : CanFormat) (i : Byte) (j : Byte) (k : Byte) (bs : List Byte), s.power.inputPower = true ∧
        s.cst.queue = [] ∧ bs.length ≤ expedited fd ∧ let index := i.toNat + 256 * j.toNat; let sub := k.toNat;
        ∃ (c : Nat), writeReason s index sub bs = some c)
    ∧ (∃ (s : State) (fd : CanFormat) (i : Byte) (j : Byte) (k : Byte) (bs : List Byte),
        s.power.inputPower = true ∧ s.cst.queue = [] ∧ bs.length ≤ expedited fd ∧
        let index := i.toNat + 256 * j.toNat; let sub := k.toNat; writeReason s index sub bs = none ∧
        index ≠ 0x1010 ∧ index ≠ 0x1011 ∧ index ≠ 0x2000 ∧ index ≠ 0x6000)
    ∧ (∃ (s : State) (fd : CanFormat) (i : Byte) (j : Byte) (k : Byte) (bs : List Byte),
        s.power.inputPower = true ∧ s.cst.queue = [] ∧ bs.length ≤ expedited fd ∧
        let index := i.toNat + 256 * j.toNat; let sub := k.toNat; dictEntry index sub = none)
    ∧ (∃ (s : State) (fd : CanFormat) (i : Byte) (j : Byte) (k : Byte) (bs : List Byte),
        s.power.inputPower = true ∧ s.cst.queue = [] ∧ bs.length ≤ expedited fd ∧
        let index := i.toNat + 256 * j.toNat; let sub := k.toNat; ∃ (e : DEntry), dictEntry index sub = some e ∧
        (mainEntry index = false ∨ mainServes s = true) ∧ (e.access = .ro ∨ e.access = .const))
    ∧ (∃ (s : State) (fd : CanFormat) (i : Byte) (j : Byte) (k : Byte) (bs : List Byte),
        s.power.inputPower = true ∧ s.cst.queue = [] ∧ bs.length ≤ expedited fd ∧
        let index := i.toNat + 256 * j.toNat; let sub := k.toNat; ∃ (e : DEntry), dictEntry index sub = some e ∧
        (mainEntry index = false ∨ mainServes s = true) ∧ e.access = .rws ∧ s.cst.state ≠ .shunt)
    ∧ (∃ (s : State) (fd : CanFormat) (i : Byte) (j : Byte) (k : Byte) (bs : List Byte),
        s.power.inputPower = true ∧ s.cst.queue = [] ∧ bs.length ≤ expedited fd ∧
        let index := i.toNat + 256 * j.toNat; let sub := k.toNat; ∃ (e : DEntry), dictEntry index sub = some e ∧
        (mainEntry index = false ∨ mainServes s = true) ∧ ∃ (n : Nat), e.access = .rw ∧ e.type.size = some n ∧
        bs.length ≠ n)
    ∧ (∃ (s : State) (fd : CanFormat) (i : Byte) (j : Byte) (k : Byte) (bs : List Byte),
        s.power.inputPower = true ∧ s.cst.queue = [] ∧ bs.length ≤ expedited fd ∧
        let index := i.toNat + 256 * j.toNat; let sub := k.toNat; ∃ (e : DEntry), dictEntry index sub = some e ∧
        (mainEntry index = false ∨ mainServes s = true) ∧ e.access = .rw ∧ e.type.size = some bs.length ∧
        dictRange s index sub (leNat bs) = false) :=
  ⟨⟨upi, .classic, 0x15, 0x40, 0, [7], by decide +kernel, by decide +kernel, by decide +kernel, _,
      some_eq (by decide +kernel)⟩,
    ⟨shunt, .classic, 0x15, 0x40, 0, [7], by and_intros <;> decide +kernel⟩,
    ⟨upi, .classic, 0x15, 0x40, 1, [7], by and_intros <;> decide +kernel⟩,
    ⟨shunt, .classic, 0x01, 0x20, 0, [7], by decide +kernel, by decide +kernel, by decide +kernel, _,
        some_eq (by decide +kernel), by decide +kernel, by decide +kernel⟩,
    ⟨upi, .classic, 0x15, 0x40, 0, [7], by decide +kernel, by decide +kernel, by decide +kernel, _,
        some_eq (by decide +kernel), by and_intros <;> decide +kernel⟩,
    ⟨shunt, .classic, 0x32, 0x30, 0, [7], by decide +kernel, by decide +kernel, by decide +kernel, _,
        some_eq (by decide +kernel), by decide +kernel, _, by decide +kernel, some_eq (by decide +kernel),
        by decide +kernel⟩,
    ⟨shunt, .classic, 0x32, 0x30, 0, [0, 0], by decide +kernel, by decide +kernel, by decide +kernel, _,
        some_eq (by decide +kernel), by and_intros <;> decide +kernel⟩⟩

theorem witness_RequestsQueue :
    (∃ (s : State) (fd : CanFormat) (i : Byte) (j : Byte) (k : Byte), s.power.inputPower = true ∧
        s.cst.queue.length < 16 ∧ s.cst.canXfer = none)
    ∧ (∃ (s : State) (fd : CanFormat) (i : Byte) (j : Byte) (k : Byte), s.power.inputPower = true ∧
        16 ≤ s.cst.queue.length)
    ∧ (∃ (s : State) (fd : CanFormat) (i : Byte) (j : Byte) (k : Byte), s.power.inputPower = true ∧
        s.pending = [] ∧ ∃ (qs : List DictReq), s.cst.queue = .frame fd [0xC1, i, j, k] :: qs ∧ s.hif.rings = [])
    ∧ (∃ (s : State) (fd : CanFormat) (i : Byte) (j : Byte) (k : Byte), s.power.inputPower = true ∧
        ∃ (x : Transfer), s.cst.canXfer = some x)
    ∧ (∃ (s : State) (fd : CanFormat) (i : Byte) (j : Byte) (k : Byte), s.power.inputPower = true ∧
        ∃ (a : Byte) (b : Byte), s.cst.queue = []) :=
  ⟨⟨upi, .classic, 0, 0x40, 0, by and_intros <;> decide +kernel⟩,
    ⟨qd 16, .classic, 0, 0x40, 0, by decide +kernel, by decide +kernel⟩,
    ⟨qd 16, .classic, 0, 0x40, 0, by decide +kernel, by decide +kernel, List.replicate 15 (.frame .classic bad),
        by decide +kernel, by decide +kernel⟩,
    ⟨tr (xf true), .classic, 0, 0x40, 0, by decide +kernel, _, some_eq (by decide +kernel)⟩,
    ⟨upi, .classic, 0, 0x40, 0, by decide +kernel, 0, 0, by decide +kernel⟩⟩

theorem witness_SegmentedTransfers :
    (∃ (s : State) (fd : CanFormat) (i : Byte) (j : Byte) (k : Byte) (bs : List Byte) (q : Fin 64),
        s.power.inputPower = true ∧ s.cst.queue = [] ∧ let index := i.toNat + 256 * j.toNat; ∃ (n : Nat),
        n < 2 ^ 32 ∧ accessReason s index k.toNat true = none ∧ s.cst.canXfer = none)
    ∧ (∃ (s : State) (fd : CanFormat) (i : Byte) (j : Byte) (k : Byte) (bs : List Byte) (q : Fin 64),
        s.power.inputPower = true ∧ s.cst.queue = [] ∧ let index := i.toNat + 256 * j.toNat; ∃ (n : Nat) (c : Nat),
        n < 2 ^ 32 ∧ accessReason s index k.toNat true = some c)
    ∧ (∃ (s : State) (fd : CanFormat) (i : Byte) (j : Byte) (k : Byte) (bs : List Byte) (q : Fin 64),
        s.power.inputPower = true ∧ s.cst.queue = [] ∧ ∃ (x : Transfer), s.cst.canXfer = some x ∧ x.write = true ∧
        x.expect = q.val ∧ x.data.length + bs.length < x.total)
    ∧ (∃ (s : State) (fd : CanFormat) (i : Byte) (j : Byte) (k : Byte) (bs : List Byte) (q : Fin 64),
        s.power.inputPower = true ∧ s.cst.queue = [] ∧ ∃ (x : Transfer), s.cst.canXfer = some x ∧ x.write = true ∧
        x.expect = q.val ∧ x.data.length + bs.length = x.total)
    ∧ (∃ (s : State) (fd : CanFormat) (i : Byte) (j : Byte) (k : Byte) (bs : List Byte) (q : Fin 64),
        s.power.inputPower = true ∧ s.cst.queue = [] ∧ ∃ (x : Transfer), s.cst.canXfer = some x ∧
        (x.write = false ∨ x.expect ≠ q.val))
    ∧ (∃ (s : State) (fd : CanFormat) (i : Byte) (j : Byte) (k : Byte) (bs : List Byte) (q : Fin 64),
        s.power.inputPower = true ∧ s.cst.queue = [] ∧ ∃ (x : Transfer), s.cst.canXfer = some x ∧ x.write = false ∧
        x.expect = q.val ∧ x.fd = fd ∧ x.total ≤ x.offset + segBytes fd)
    ∧ (∃ (s : State) (fd : CanFormat) (i : Byte) (j : Byte) (k : Byte) (bs : List Byte) (q : Fin 64),
        s.power.inputPower = true ∧ s.cst.queue = [] ∧ ∃ (x : Transfer), s.cst.canXfer = some x ∧ x.write = false ∧
        x.expect = q.val ∧ x.fd = fd ∧ x.offset + segBytes fd < x.total) :=
  ⟨⟨shunt, .classic, 0x34, 0x30, 0, [1], 3, by decide +kernel, by decide +kernel, 8,
      by and_intros <;> decide +kernel⟩,
    ⟨upi, .classic, 0x34, 0x30, 0, [1], 3, by decide +kernel, by decide +kernel, 8, _, by decide +kernel,
        some_eq (by decide +kernel)⟩,
    ⟨tr (xf true), .classic, 0x34, 0x30, 0, [1], 3, by decide +kernel, by decide +kernel, _,
        some_eq (by decide +kernel), by and_intros <;> decide +kernel⟩,
    ⟨tr (xf true), .classic, 0x34, 0x30, 0, [1, 2, 3, 4, 5, 6], 3, by decide +kernel, by decide +kernel, _,
        some_eq (by decide +kernel), by and_intros <;> decide +kernel⟩,
    ⟨tr (xf true), .classic, 0x34, 0x30, 0, [1], 4, by decide +kernel, by decide +kernel, _,
        some_eq (by decide +kernel), by decide +kernel⟩,
    ⟨tr { xf false with offset := 7 }, .classic, 0x34, 0x30, 0, [1], 3, by decide +kernel, by decide +kernel, _,
        some_eq (by decide +kernel), by and_intros <;> decide +kernel⟩,
    ⟨tr (xf false), .classic, 0x34, 0x30, 0, [1], 3, by decide +kernel, by decide +kernel, _,
        some_eq (by decide +kernel), by and_intros <;> decide +kernel⟩⟩

theorem witness_StatusFrameSent :
    (∃ (s : State), s.power.inputPower = true ∧ dictVal s 0x1033 0 ≠ 0)
    ∧ (∃ (s : State), s.power.inputPower = true ∧ dictVal s 0x1033 0 = 0) :=
  ⟨⟨upi, by decide +kernel, by decide +kernel⟩,
    ⟨md upi fun c => { c with dict := [(256 * 0x1033, [0, 0])] }, by decide +kernel, by decide +kernel⟩⟩

theorem witness_StoreAndCounterEntries :
    (∃ (s : State) (p : DictPath) (key : Word32), PathFree s p ∧ key = 0x65766173 ∧ s.cst.worn = false ∧
        ∃ (i : Nat) (j : Nat) (e : DEntry), j < 256 ∧ dictEntry i j = some e ∧ isPersistent i e = true ∧
        i ≠ 0x1030 ∧ mainServes s = true ∧ key ≠ 0x434C5231)
    ∧ (∃ (s : State) (p : DictPath) (key : Word32), PathFree s p ∧ (key ≠ 0x65766173 ∨ s.cst.worn = true))
    ∧ (∃ (s : State) (p : DictPath) (key : Word32), PathFree s p ∧ mainServes s = true ∧ key = 0x434C5231)
    ∧ (∃ (s : State) (p : DictPath) (key : Word32), PathFree s p ∧ mainServes s = false) :=
  ⟨⟨addCtr dSv 0 0x0120 5, .can, 0x65766173, path_can (by decide +kernel), by decide +kernel, by decide +kernel,
      0x1033, 0, _, by decide +kernel, some_eq (by decide +kernel), by and_intros <;> decide +kernel⟩,
    ⟨addCtr dSv 0 0x0120 5, .can, 0x64616F6C, path_can (by decide +kernel), by decide +kernel⟩,
    ⟨addCtr dSv 0 0x0120 5, .can, 0x434C5231, path_can (by decide +kernel), by decide +kernel, by decide +kernel⟩,
    ⟨depD, .can, 0x65766173, path_can (by decide +kernel), by decide +kernel⟩⟩

theorem witness_StateCommands :
    (∃ (s : State) (p : DictPath), PathFree s p ∧ RulesQuiet s ∧
        let rows : List (Instr × DevState) := [(.stateCmdDepot p, .depot), (.stateCmdShunt p, .shunt), (.stateCmdService p, .service)];
        ∃ row ∈ rows, s.cst.state ≠ .halt ∧ (s.cst.state = .service ∨ s.cst.state = .limited) ∧ row.2 ≠ .service)
    ∧ (∃ (s : State) (p : DictPath), PathFree s p ∧ RulesQuiet s ∧
        let rows : List (Instr × DevState) := [(.stateCmdDepot p, .depot), (.stateCmdShunt p, .shunt), (.stateCmdService p, .service)];
        ∃ row ∈ rows, s.cst.state = .halt) :=
  ⟨⟨fq, .can, path_can (by decide +kernel), fun _ => rfl, (.stateCmdDepot .can, .depot),
      by first | decide +kernel | simp, by and_intros <;> decide +kernel⟩,
    ⟨hlt, .can, path_can (by decide +kernel), fun _ => rfl, (.stateCmdDepot .can, .depot),
        by first | decide +kernel | simp, by decide +kernel⟩⟩

theorem witness_HaltPersists :
    ∃ (s : State), PathFree s .can ∧ s.cst.state = .halt ∧ (ruleState s s.cst.haltRule.toNat).active = true :=
  ⟨hl2, path_can (by decide +kernel), by decide +kernel, by decide +kernel⟩

end G11

/-! ### Power -/

namespace G12

def md (s : State) (f : Custodian → Custodian) : State := s.modCst f
def upi : State := { up with power := { up.power with inputPower := true } }
def cs (d t : DevState) : State := md upi fun c => { c with state := d, target := t }
def swp (st : SwapStage) : Swap := { func := .vf 0, ring := 3, sqHead := 1, entry := 0, stage := st }
def wIn : State := { cs .leaving .shunt with insts := [(.partCfg, { cfg0 with swaps := [swp .queued, swp (.applying [])] })], tasks := [run1 xMove] }
def mp (s : State) : State := put (world s) 0x1000 8 0x55
def act2 (s : State) : State := md s fun c => { c with rules := [(2, { active := true })] }
def off : State := md State.reset fun c => { c with store := [(256 * 0x2005, [0])] }
def off2 : State := md State.reset fun c => { c with store := [(256 * 0x2006, [0])] }
def rec_ (l : Bool) (v : Int) : State := { md (upi) fun c => { c with state := .depot, target := .depot, lost := l, channels := [(0, { filtered := v })] } with power := { State.reset.power with inputPower := true } }
def wk (n : Nat) (g : Nat) : State := { md State.reset fun c => { c with state := .waking, target := .service } with power := { State.reset.power with inputPower := true, good := ⟨BitVec.ofNat 6 g, BitVec.ofNat 6 g⟩, pwrGood := g = 63, wakeStep := n, perstN := true } }
def wkm (n : Nat) : State := { wk n 63 with mem := [⟨8, 3⟩, ⟨sm + 3, 4⟩], poison := [1, sm / 64] }
def unp (s : State) : State := { s with power := { s.power with inputPower := false } }
def sh (r : Word32) (acc : Nat) : State := md { upi with sch := upi.sch.map fun _ x => { x with coreState := [(3, 2)] }, ports := [(2, { link := { crHeld := [(2, 3)] } })] } fun c => { c with state := .shunt, target := .service, limitedReasons := r, dict := [(256 * 0x2004, leBytes 4 acc)] }
def pci (n : Nat) : State := { wk n 63 with power := { (wk n 63).power with portReset := false } }
def held : State := (upi.modRing (.vf 0) 3 fun _ => onRing)
def cl (c : Cluster) : State := upi.modCluster .e0 2 fun _ => c
def sam (l : List Int) (y : Option Int) : State := md upi fun c => { c with channels := [(0x10, { samples := l, y := y }), (0x50, { samples := l, y := y })] }
def rl (x : Rule) : Table (List Byte) := (List.range 8).map fun i => (256 * 0x7108 + i + 1,
    leBytes (((ruleType (i + 1)).size).getD 1) (x.field (i + 1)))
def ruS (act : Nat) (d : DevState) : State := { md upi fun c => { c with state := d, target := d, channels := [(0x11, { samples := [100, 100, 100, 100, 100], median := 100, filtered := 100 })], dict := rl { channel := 0x11, op := 0, source := 0, action := act, states := 0x1F, hold := 1, threshold := 50 } } with power := { upi.power with pwrGood := d != .depot } }

theorem witness_ServiceLeft :
    (∃ (s : State), RulesQuiet s ∧ s.cst.state = .leaving ∧ s.tasks = [] ∧ s.cmds = [] ∧ (∀ x ∈ s.insts,
        x.2.swaps = []) ∧ let z : State := { s with heldAt := none }; (enterShunt (endAllWork z)).heldAt = none)
    ∧ (∃ (s : State), RulesQuiet s ∧ s.cst.state = .leaving ∧ s.tasks ≠ [])
    ∧ (∃ (s : State), RulesQuiet s ∧ s.cst.state ≠ .leaving) :=
  ⟨⟨cs .leaving .shunt, fun _ => rfl, by and_intros <;> decide +kernel⟩,
    ⟨wIn, fun _ => rfl, by decide +kernel, by decide +kernel⟩,
    ⟨upi, fun _ => rfl, by decide +kernel⟩⟩

theorem witness_MainPowerLost :
    (∃ (s : State), s.cst.state = .toDepot ∧ RulesQuiet s ∧ s.cst.target = .depot ∧ mainOn s = true)
    ∧ (∃ (s : State), s.cst.state = .toDepot ∧ RulesQuiet s ∧ (s.cst.target = .shunt ∨ s.cst.target = .service))
    ∧ (∃ (s : State), s.cst.state ≠ .toDepot)
    ∧ (∃ (s : State), mainOn s = true ∧ (ruleState s 2).active = true)
    ∧ (∃ (s : State) (w : Wing) (k : Fin 6), mainOn s = true ∧ (s.power.good.get w).getLsbD (Fin.val k) = true) :=
  ⟨⟨mp (cs .toDepot .depot), by decide +kernel, fun _ => rfl, by decide +kernel, by decide +kernel⟩,
    ⟨mp (cs .toDepot .shunt), by decide +kernel, fun _ => rfl, by decide +kernel⟩,
    ⟨mp upi, by decide +kernel⟩,
    ⟨act2 (mp upi), by decide +kernel, by decide +kernel⟩,
    ⟨mp (cs .toDepot .depot), .east, 0, by decide +kernel, by decide +kernel⟩⟩

theorem witness_InputPower :
    (∃ (s : State) (strap : Fin 128), s.power.inputPower = false ∧ s.power.pwrGood = false)
    ∧ (∃ (s : State) (strap : Fin 128), s.power.inputPower = true ∧ (s.cst.lost = false ∨ filteredOf s 0 < 46000))
    ∧ (∃ (s : State), s.power.inputPower = true ∧ s.cst.lost = true ∧ 46000 ≤ filteredOf s 0 ∧
        s.cst.state = .depot ∧ RulesQuiet s ∧ s.power.pwrGood = false ∧ dictVal s 0x2006 0 = 1) :=
  ⟨⟨unp State.reset, 5, by decide +kernel, by decide +kernel⟩,
    ⟨State.reset, 5, by decide +kernel, by decide +kernel⟩,
    ⟨rec_ true 47000, by decide +kernel, by decide +kernel, by decide +kernel, by decide +kernel, fun _ => rfl,
        by decide +kernel, by decide +kernel⟩⟩

theorem witness_RailsRise :
    (∃ (s : State) (w : Wing) (k : Fin 6), (s.power.good.get w).getLsbD k.val = true ∧
        (s.power.phaseLost.get w).getLsbD k.val = false)
    ∧ (∃ (s : State) (w : Wing) (k : Fin 6), (s.power.phaseLost.get w).getLsbD k.val = true)
    ∧ (∃ (s : State) (k : Fin 6), s.cst.state = .waking ∧ s.power.pwrGood = false ∧
        s.power.good.east.toNat = 2 ^ k.val - 1)
    ∧ (∃ (s : State) (k : Fin 6), s.power.good.east.toNat ≠ 2 ^ k.val - 1)
    ∧ (∃ (s : State) (how : WakeFailure), wakeMayFail s how = true ∧ RulesQuiet s) :=
  ⟨⟨upi, .east, 0, by decide +kernel, by decide +kernel⟩,
    ⟨upi.modPower fun p => { p with phaseLost := ⟨4, 0⟩ }, .east, 2, by decide +kernel⟩,
    ⟨wk 0 0, 0, by and_intros <;> decide +kernel⟩,
    ⟨upi, 0, by decide +kernel⟩,
    ⟨wk 0 0, .rail 0, by decide +kernel, fun _ => rfl⟩⟩

theorem witness_WakeSteps :
    (∃ (s : State) (list : List (Tile × Fin 512)) (fuses : List Defect), s.cst.state = .waking ∧
        s.power.pwrGood = true ∧ RulesQuiet s ∧ memCanonical s.mem = true ∧ s.power.wakeStep = 0 ∧ ∃ (d : Defect),
        fuses = [d])
    ∧ (∃ (s : State) (list : List (Tile × Fin 512)) (fuses : List Defect), s.cst.state = .waking ∧
        s.power.pwrGood = true ∧ RulesQuiet s ∧ memCanonical s.mem = true ∧ s.power.wakeStep = 1)
    ∧ (∃ (s : State) (list : List (Tile × Fin 512)) (fuses : List Defect), s.cst.state = .waking ∧
        s.power.pwrGood = true ∧ RulesQuiet s ∧ memCanonical s.mem = true ∧ s.power.wakeStep = 2 ∧ list = [])
    ∧ (∃ (s : State) (list : List (Tile × Fin 512)) (fuses : List Defect), s.cst.state = .waking ∧
        s.power.pwrGood = true ∧ RulesQuiet s ∧ memCanonical s.mem = true ∧ s.power.wakeStep = 2 ∧
        ∃ (t : Tile) (pc : Fin 512), list = [(t, pc)] ∧ (s.tmem.get t).en = true ∧ (s.tmem.get t).used = false ∧
        (s.tmem.get t).moving = false)
    ∧ (∃ (s : State) (list : List (Tile × Fin 512)) (fuses : List Defect), s.cst.state = .waking ∧
        s.power.pwrGood = true ∧ RulesQuiet s ∧ memCanonical s.mem = true ∧ s.power.wakeStep = 2 ∧
        ∃ (t : Tile) (pc : Fin 512), list = [(t, pc)] ∧ (s.tmem.get t).en = false ∧ (s.tmem.get t).used = false ∧
        (s.tmem.get t).moving = false)
    ∧ (∃ (s : State) (list : List (Tile × Fin 512)) (fuses : List Defect), s.cst.state = .waking ∧
        s.power.pwrGood = true ∧ RulesQuiet s ∧ memCanonical s.mem = true ∧ s.power.wakeStep = 3)
    ∧ (∃ (s : State) (list : List (Tile × Fin 512)) (fuses : List Defect), s.cst.state = .waking ∧
        s.power.pwrGood = true ∧ RulesQuiet s ∧ memCanonical s.mem = true ∧ ∃ (k : Fin 5),
        k.val ≠ s.power.wakeStep + 1) :=
  ⟨⟨wkm 0, [], [{ tile := .e1, column := 3, row := 7 }], by decide +kernel, by decide +kernel, fun _ => rfl,
      by decide +kernel, by decide +kernel, _, one_eq (by decide +kernel)⟩,
    ⟨wkm 1, [], [], by decide +kernel, by decide +kernel, fun _ => rfl, by decide +kernel, by decide +kernel⟩,
    ⟨wkm 2, [], [], by decide +kernel, by decide +kernel, fun _ => rfl, by and_intros <;> decide +kernel⟩,
    ⟨wkm 2, [(.e1, 7)], [], by decide +kernel, by decide +kernel, fun _ => rfl, by decide +kernel,
        by decide +kernel, .e1, 7, by and_intros <;> decide +kernel⟩,
    ⟨{ wkm 2 with tmem := (wkm 2).tmem.map fun _ m => { m with en := false } }, [(.e1, 7)], [], by decide +kernel,
        by decide +kernel, fun _ => rfl, by decide +kernel, by decide +kernel, .e1, 7,
        by and_intros <;> decide +kernel⟩,
    ⟨wkm 3, [], [], by decide +kernel, by decide +kernel, fun _ => rfl, by decide +kernel, by decide +kernel⟩,
    ⟨wkm 0, [], [], by decide +kernel, by decide +kernel, fun _ => rfl, by decide +kernel, 0, by decide +kernel⟩⟩

theorem witness_ServiceEntered :
    (∃ (s : State) (e : BitVec 2) (w : BitVec 2), RulesQuiet s ∧ s.cst.state = .shunt ∧ s.cst.target = .service ∧
        (∀ t, ∀ x ∈ (s.sch.get t).coreState, x.2 = 2))
    ∧ (∃ (s : State) (e : BitVec 2) (w : BitVec 2), RulesQuiet s ∧
        (s.cst.state ≠ .shunt ∨ s.cst.target ≠ .service)) :=
  ⟨⟨sh 0 0, 0, 1, fun _ => rfl, by decide +kernel, by decide +kernel, by intro t; cases t <;> decide +kernel⟩,
    ⟨upi, 0, 1, fun _ => rfl, by decide +kernel⟩⟩

theorem witness_PciePort :
    (∃ (s : State), mainUp s = false)
    ∧ (∃ (s : State), mainUp s = true ∧ s.hif.pf0Resetting = false ∧ hostReaches s .pf0 = true)
    ∧ (∃ (s : State) (sp : BitVec 4) (width : Nat) (flit : Bool) (cxl : Bool), s.power.portReset = false ∧
        s.power.pwrGood = true ∧ 1 ≤ s.power.wakeStep ∧ s.hif.linkUp = false ∧ (width = 8 ∨ width = 16) ∧
        ((sp = 6 ∧ flit = true) ∨ ((sp = 4 ∨ sp = 5) ∧ (cxl = false ∨ flit = false))))
    ∧ (∃ (s : State) (sp : BitVec 4) (width : Nat) (flit : Bool) (cxl : Bool),
        (s.power.portReset = true ∨ (width ≠ 8 ∧ width ≠ 16) ∨ (sp ≠ 4 ∧ sp ≠ 5 ∧ sp ≠ 6) ∨ (sp = 6 ∧
        flit = false)))
    ∧ (∃ (s : State) (f : Func) (req : ConfigRequest), s.hif.linkUp = true ∧ mainUp s = false)
    ∧ (∃ (s : State) (f : Func), hostReaches s f = true ∧ ∃ (v : Nat), configField s f .busMaster = some v)
    ∧ (∃ (s : State) (f : Func), hostReaches s f = true ∧ ∃ (r : Nat), r < 64 ∧ hasRing f r = true ∧
        (wingOf (ringOf s f r).home = .east ∨ concourseUp s = true))
    ∧ (∃ (s : State) (p : Fin 16) (req : ConfigRequest), s.hif.linkUp = true ∧ mainUp s = true ∧
        s.hif.vfEnable = false) :=
  ⟨⟨pci 1, by decide +kernel⟩,
    ⟨upi, by and_intros <;> decide +kernel⟩,
    ⟨pci 1, 4, 8, true, false, by and_intros <;> decide +kernel⟩,
    ⟨upi, 4, 3, true, true, by decide +kernel⟩,
    ⟨{ pci 1 with hif := { (pci 1).hif with linkUp := true } }, .pf0, .setBusMaster true, by decide +kernel,
        by decide +kernel⟩,
    ⟨upi, .pf0, by decide +kernel, _, some_eq (by decide +kernel)⟩,
    ⟨upi, .pf0, by decide +kernel, 3, by and_intros <;> decide +kernel⟩,
    ⟨{ upi with hif := { upi.hif with vfEnable := false } }, 0, .setBusMaster true,
        by and_intros <;> decide +kernel⟩⟩

theorem witness_BlocksSaveEnergy :
    (∃ (s : State) (t : Tile) (row : Fin 22), let c := clusterOf s t row.val; mainUp s = true ∧
        clusterOff s t row.val = false ∧ c.state = .run ∧ clusterBusy s t row.val = false ∧ c.waking = false)
    ∧ (∃ (s : State) (t : Tile) (row : Fin 22), clusterBusy s t row.val = true)
    ∧ (∃ (s : State) (t : Tile) (row : Fin 22), let c := clusterOf s t row.val; mainUp s = true ∧
        c.state = .gated ∧ c.waking = false)
    ∧ (∃ (s : State) (t : Tile) (row : Fin 22), let c := clusterOf s t row.val; c.waking = true)
    ∧ (∃ (s : State) (t : Tile) (row : Fin 22), memoryUp s = true ∧ ∃ (k : Fin 32),
        (stackOf s k.val).selfRefresh = false) :=
  ⟨⟨cl {}, .e0, 2, by and_intros <;> decide +kernel⟩,
    ⟨{ cl {} with tasks := [{ run1 xMove with cores := [2 * 16] }] }, .e0, 2, by decide +kernel⟩,
    ⟨cl { state := .gated }, .e0, 2, by and_intros <;> decide +kernel⟩,
    ⟨cl { state := .gated, waking := true }, .e0, 2, by decide +kernel⟩,
    ⟨cl {}, .e0, 2, by decide +kernel, 0, by decide +kernel⟩⟩

theorem witness_ClusterPoints :
    (∃ (s : State) (t : Tile) (row : Fin 22), mainUp s = true ∧ clusterOff s t row.val = false ∧
        let c := clusterOf s t row.val; ∃ (waited : Nat) (cycles : Nat), c.state = .run ∧ 0 < cycles ∧
        c.changing = none)
    ∧ (∃ (s : State) (t : Tile) (row : Fin 22), mainUp s = true ∧ clusterOff s t row.val = false ∧
        let c := clusterOf s t row.val; ∃ (waited : Nat) (cycles : Nat), c.state = .run ∧ 0 < cycles ∧ ∃ (x : Nat),
        c.changing = some x)
    ∧ (∃ (s : State) (t : Tile) (row : Fin 22), mainUp s = true ∧ clusterOff s t row.val = false ∧
        ∃ (milliC : Int), milliC ≤ 105000 ∧ 100000 ≤ milliC)
    ∧ (∃ (s : State) (t : Tile) (row : Fin 22), mainUp s = true ∧ clusterOff s t row.val = false ∧
        let c := clusterOf s t row.val; ∃ (x : Nat), c.changing = some x) :=
  ⟨⟨cl {}, .e0, 2, by decide +kernel, by decide +kernel, 10, 100, by and_intros <;> decide +kernel⟩,
    ⟨cl { changing := some 2, load := 1 }, .e0, 2, by decide +kernel, by decide +kernel, 10, 100,
        by decide +kernel, by decide +kernel, _, some_eq (by decide +kernel)⟩,
    ⟨cl {}, .e0, 2, by decide +kernel, by decide +kernel, 105000, by decide +kernel, by decide +kernel⟩,
    ⟨cl { changing := some 2, load := 1 }, .e0, 2, by decide +kernel, by decide +kernel, _,
        some_eq (by decide +kernel)⟩⟩

theorem witness_ChannelsFiltered :
    (∃ (s : State) (ch : BitVec 8) (v : Word32) (ms : Word64), isChannel ch.toNat = true ∧ ch.toNat < 0xF0 ∧
        let c := channelOf s ch.toNat; s.power.inputPower = true ∧ c.samples.length < 4)
    ∧ (∃ (s : State) (ch : BitVec 8) (v : Word32) (ms : Word64), isChannel ch.toNat = true ∧ ch.toNat < 0xF0 ∧
        let c := channelOf s ch.toNat; s.power.inputPower = true ∧ (c.samples.length = 4 ∨ c.samples.length = 5) ∧
        ∃ u, exec (.channelSample ch v ms) s = .next u ∧ isDigital ch.toNat = true)
    ∧ (∃ (s : State) (ch : BitVec 8) (v : Word32) (ms : Word64), isChannel ch.toNat = true ∧ ch.toNat < 0xF0 ∧
        let c := channelOf s ch.toNat; s.power.inputPower = true ∧ (c.samples.length = 4 ∨ c.samples.length = 5) ∧
        ∃ u, exec (.channelSample ch v ms) s = .next u ∧ isDigital ch.toNat = false)
    ∧ (∃ (s : State) (ch : BitVec 8) (v : Word32) (ms : Word64), isChannel ch.toNat = true ∧ ch.toNat < 0xF0 ∧
        s.power.inputPower = false) :=
  ⟨⟨sam [] none, 0x10, 5, 9, by and_intros <;> decide +kernel⟩,
    ⟨sam [5, -9, 3, 4] none, 0x50, 5, 9, by decide +kernel, by decide +kernel, by decide +kernel,
        by decide +kernel, _, next_eq (by decide +kernel), by decide +kernel⟩,
    ⟨sam [5, -9, 3, 4] none, 0x10, 5, 9, by decide +kernel, by decide +kernel, by decide +kernel,
        by decide +kernel, _, next_eq (by decide +kernel), by decide +kernel⟩,
    ⟨unp upi, 0x10, 5, 9, by and_intros <;> decide +kernel⟩⟩

theorem witness_RulesAct :
    (∃ (x : Rule) (q : RuleState) (v : Int), 1 ≤ x.hold ∧ x.hold ≤ 65535 ∧ q.active = false ∧ ruleTrue x v = true)
    ∧ (∃ (x : Rule) (q : RuleState) (v : Int), 1 ≤ x.hold ∧ x.hold ≤ 65535 ∧ q.active = true)
    ∧ (∃ (x : Rule) (q : RuleState) (v : Int), 1 ≤ x.hold ∧ x.hold ≤ 65535 ∧ ruleTrue x v = false)
    ∧ (∃ (s : State) (ch : BitVec 8) (v : Word32) (ms : Word64) (r : Fin 32), s.power.inputPower = true ∧
        isChannel ch.toNat = true ∧ ch.toNat < 0xF0 ∧ 4 ≤ (channelOf s ch.toNat).samples.length ∧ RulesQuiet s ∧
        (ruleOf s r.val).channel = ch.toNat ∧ (∀ k, k < 32 → k ≠ r.val → (ruleOf s k).channel ≠ ch.toNat) ∧
        let n := filterStep (isDigital ch.toNat) (filterK s ch.toNat) (channelOf s ch.toNat) v.toInt;
        let x := ruleOf s r.val; let value := if x.source = 0 then n.filtered else n.median;
        (ruleStep x (ruleState s r.val) value).active = true ∧ ruleActs x s.cst.state = true ∧ x.action = 3)
    ∧ (∃ (s : State) (ch : BitVec 8) (v : Word32) (ms : Word64) (r : Fin 32), s.power.inputPower = true ∧
        isChannel ch.toNat = true ∧ ch.toNat < 0xF0 ∧ 4 ≤ (channelOf s ch.toNat).samples.length ∧ RulesQuiet s ∧
        (ruleOf s r.val).channel = ch.toNat ∧ (∀ k, k < 32 → k ≠ r.val → (ruleOf s k).channel ≠ ch.toNat) ∧
        let n := filterStep (isDigital ch.toNat) (filterK s ch.toNat) (channelOf s ch.toNat) v.toInt;
        let x := ruleOf s r.val; let value := if x.source = 0 then n.filtered else n.median;
        (ruleStep x (ruleState s r.val) value).active = true ∧ ruleActs x s.cst.state = true ∧ x.action = 2)
    ∧ (∃ (s : State) (ch : BitVec 8) (v : Word32) (ms : Word64) (r : Fin 32), s.power.inputPower = true ∧
        isChannel ch.toNat = true ∧ ch.toNat < 0xF0 ∧ 4 ≤ (channelOf s ch.toNat).samples.length ∧ RulesQuiet s ∧
        (ruleOf s r.val).channel = ch.toNat ∧ (∀ k, k < 32 → k ≠ r.val → (ruleOf s k).channel ≠ ch.toNat) ∧
        let n := filterStep (isDigital ch.toNat) (filterK s ch.toNat) (channelOf s ch.toNat) v.toInt;
        let x := ruleOf s r.val; let value := if x.source = 0 then n.filtered else n.median;
        (ruleStep x (ruleState s r.val) value).active = true ∧ ruleActs x s.cst.state = true ∧ x.action = 1 ∧
        s.cst.state = .depot ∧ s.cst.wakeIgnored = false ∧ s.power.pwrGood = false)
    ∧ (∃ (s : State) (ch : BitVec 8) (v : Word32) (ms : Word64) (r : Fin 32), s.power.inputPower = true ∧
        isChannel ch.toNat = true ∧ ch.toNat < 0xF0 ∧ 4 ≤ (channelOf s ch.toNat).samples.length ∧ RulesQuiet s ∧
        (ruleOf s r.val).channel = ch.toNat ∧ (∀ k, k < 32 → k ≠ r.val → (ruleOf s k).channel ≠ ch.toNat) ∧
        let n := filterStep (isDigital ch.toNat) (filterK s ch.toNat) (channelOf s ch.toNat) v.toInt;
        let x := ruleOf s r.val; let value := if x.source = 0 then n.filtered else n.median;
        (ruleStep x (ruleState s r.val) value).active = true ∧ ruleActs x s.cst.state = true ∧ x.action = 0) :=
  ⟨⟨ruleDefault 0, {}, 78001, by and_intros <;> decide +kernel⟩,
    ⟨ruleDefault 0, { active := true, clearRun := 2 }, 78001, by and_intros <;> decide +kernel⟩,
    ⟨ruleDefault 0, {}, 10, by and_intros <;> decide +kernel⟩,
    ⟨ruS 3 .service, 0x11, 100, 9, 8, by decide +kernel, by decide +kernel, by decide +kernel, by decide +kernel,
        fun _ => rfl, by and_intros <;> decide +kernel⟩,
    ⟨ruS 2 .service, 0x11, 100, 9, 8, by decide +kernel, by decide +kernel, by decide +kernel, by decide +kernel,
        fun _ => rfl, by and_intros <;> decide +kernel⟩,
    ⟨ruS 1 .depot, 0x11, 100, 9, 8, by decide +kernel, by decide +kernel, by decide +kernel, by decide +kernel,
        fun _ => rfl, by and_intros <;> decide +kernel⟩,
    ⟨ruS 0 .service, 0x11, 100, 9, 8, by decide +kernel, by decide +kernel, by decide +kernel, by decide +kernel,
        fun _ => rfl, by and_intros <;> decide +kernel⟩⟩

end G12

end Sys2Proof.Tests
end

section
/-!
PROOF. Structures under the operations on editions: what a change of one structure, a retirement and an applied
swap leave in every structure (R36 to R42).
-/

namespace Sys2Proof.Machine

/-! ### What a mask says of instances, rings and frames -/

/-- A frame from a mask: the parts outside the list have their bits outside the mask. -/
theorem Touch.onlyChanges {m : Nat} {ps : List StatePart} {s t : State} (h : Touch m s t)
    (w : memCanonical s.mem = true) (hp : ∀ p, p ∉ ps → m.testBit p.idx = false) : OnlyChanges ps s t :=
  fun p hn => h.same w (hp p hn)

theorem Touch.instOf {m : Nat} {s t : State} (h : Touch m s t) (hm : m.testBit StatePart.insts.idx = false)
    (i : Instance) : instOf t i = instOf s i := by
  have e : t.insts = s.insts := h.eq .insts hm
  simp only [Machine.instOf, e]

theorem Touch.ringOf {m : Nat} {s t : State} (h : Touch m s t) (hm : m.testBit StatePart.rings.idx = false)
    (f : Func) (r : Nat) : ringOf t f r = ringOf s f r := by
  have e : t.hif.rings = s.hif.rings := h.eq .rings hm
  simp only [Machine.ringOf, e]

/-! ### One structure changed -/

/-- Changing the records of one structure changes the record found for it and no other. -/
theorem find_map_record (l : List (Instance × Inst)) (i j : Instance) (f : Inst → Inst) :
    ((l.map fun x => if x.1 = i then (i, f x.2) else x).find? fun x => x.1 = j) =
      (l.find? fun x => x.1 = j).map fun x => if j = i then (i, f x.2) else x := by
  have hkey : ((fun x : Instance × Inst => decide (x.1 = j)) ∘ fun x => if x.1 = i then (i, f x.2) else x) =
      fun x => decide (x.1 = j) := by
    funext x
    by_cases hx : x.1 = i <;> simp [hx]
  rw [List.find?_map, hkey]
  refine Option.map_congr fun x hx => ?_
  have hxj : x.1 = j := of_decide_eq_true (List.find?_some (p := fun x : Instance × Inst => decide (x.1 = j)) hx)
  rw [hxj]

/-- A structure after a structure has been changed. -/
theorem instOf_modInst (s : State) (i j : Instance) (f : Inst → Inst) :
    instOf (s.modInst i f) j = if j = i then f (instOf s i) else instOf s j := by
  unfold State.modInst instOf
  split
  · rename_i h
    obtain ⟨x, hx⟩ : ∃ x, (s.insts.find? fun x => x.1 = i) = some x := by
      rw [← Option.isSome_iff_exists, List.find?_isSome]
      exact List.any_eq_true.1 h
    rw [find_map_record]
    by_cases hj : j = i
    · subst hj; simp [hx]
    · simp [hj]
  · rename_i h
    have hi : (s.insts.find? fun x => x.1 = i) = none := by
      rw [← Option.not_isSome_iff_eq_none, List.find?_isSome]
      exact fun hx => h (List.any_eq_true.2 hx)
    by_cases hj : j = i
    · subst hj; simp [List.find?_append, hi]
    · simp [List.find?_append, hj, Ne.symm hj]

@[simp] theorem instOf_modInst_self (s : State) (i : Instance) (f : Inst → Inst) :
    instOf (s.modInst i f) i = f (instOf s i) := by simp [instOf_modInst]

theorem instOf_modInst_of_ne (s : State) {i j : Instance} (f : Inst → Inst) (h : j ≠ i) :
    instOf (s.modInst i f) j = instOf s j := by simp [instOf_modInst, h]

/-! ### Retirement -/

/-- Beside taking the edition out of the live ones, a retirement changes look-aside buffers and reports. -/
theorem retireOne_touch_reports (s : State) (i : Instance) (n : Word32) :
    Touch 0x801c0028 (s.modInst i fun x => { x with live := x.live.filter fun e => e.num ≠ n }) (retireOne s i n) := by
  unfold retireOne
  dsimp only
  refine Touch.step (reportRetired_touch ..) rfl ?_
  split
  · exact Touch.foldl (Touch.refl _) fun _ _ hy => Touch.step (dropLab_touch ..) rfl hy
  · exact Touch.refl _

theorem instOf_retireOne (s : State) (i j : Instance) (n : Word32) :
    instOf (retireOne s i n) j = instOf (s.modInst i fun x => { x with live := x.live.filter fun e => e.num ≠ n }) j :=
  (retireOne_touch_reports s i n).instOf rfl j

/-- Retiring a list of editions leaves live those whose numbers it does not hold. -/
theorem instOf_foldl_retireOne (dead : List Edition) (s : State) (i : Instance) :
    instOf (dead.foldl (fun s e => retireOne s i e.num) s) i =
      { instOf s i with live := (instOf s i).live.filter fun x => dead.all fun e => x.num ≠ e.num } := by
  induction dead generalizing s with
  | nil => exact congrArg (fun l => { instOf s i with live := l }) (List.filter_eq_self.2 fun _ _ => rfl).symm
  | cons e dead ih =>
    rw [List.foldl_cons, ih, instOf_retireOne, instOf_modInst_self]
    simp [List.filter_filter, Bool.and_comm]

theorem instOf_foldl_retireOne_of_ne (dead : List Edition) (s : State) {i j : Instance} (h : j ≠ i) :
    instOf (dead.foldl (fun s e => retireOne s i e.num) s) j = instOf s j := by
  induction dead generalizing s with
  | nil => rfl
  | cons e dead ih => rw [List.foldl_cons, ih, instOf_retireOne, instOf_modInst_of_ne _ _ h]

theorem instOf_retireUnpinned_of_ne (s : State) {i j : Instance} (h : j ≠ i) :
    instOf (retireUnpinned s i) j = instOf s j := instOf_foldl_retireOne_of_ne _ s h

/-- Whether an edition is current somewhere or pinned by a task (R40). -/
def stillNeeded (s : State) (i : Instance) (x : Edition) : Bool :=
  currentSomewhere (instOf s i) x.num || pinnedBy s i x.num

/-- R40: what retires is neither current anywhere nor pinned; the rest of the structure's record stays. -/
theorem instOf_retireUnpinned (s : State) (i : Instance) :
    instOf (retireUnpinned s i) i = { instOf s i with live := (instOf s i).live.filter (stillNeeded s i) } := by
  unfold retireUnpinned
  rw [instOf_foldl_retireOne]
  refine congrArg (fun l => { instOf s i with live := l }) (List.filter_congr fun x hx => ?_)
  rw [Bool.eq_iff_iff]
  simp only [List.all_eq_true, List.mem_filter, decide_eq_true_eq, stillNeeded, Bool.or_eq_true]
  constructor
  · intro h
    cases hc : currentSomewhere (instOf s i) x.num
    · cases hp : pinnedBy s i x.num
      · exact absurd rfl (h x ⟨hx, by rw [hc, hp]; rfl⟩)
      · exact .inr rfl
    · exact .inl rfl
  · rintro h e ⟨-, he⟩ hne
    rw [← hne] at he
    rcases h with h | h <;> simp [h] at he

/-! ### Units and homes -/

theorem instHome_congr {s t : State} {i : Instance} (h : (instOf t i).home = (instOf s i).home) :
    instHome t i = instHome s i := by
  cases i with
  | cat n => exact h
  | _ => rfl

theorem pinUnits_congr {s t : State} {i : Instance} (h : (instOf t i).home = (instOf s i).home) :
    pinUnits t i = pinUnits s i := by simp only [pinUnits, instHome_congr h]

theorem pinUnits_modInst (s : State) (i : Instance) {f : Inst → Inst} (hf : ∀ x, (f x).home = x.home) :
    pinUnits (s.modInst i f) i = pinUnits s i := pinUnits_congr (by rw [instOf_modInst_self, hf])

theorem swapHome_congr {s t : State} {i : Instance} (e : Entry) (hh : (instOf t i).home = (instOf s i).home)
    (hc : (instOf t i).current = (instOf s i).current) : swapHome t i e = swapHome s i e := by
  simp only [swapHome, instHome_congr hh, hh, hc]

/-! ### An edition applied -/

/-- The editions current at the units of a structure once one unit has applied an edition. -/
def atUnitAfter (l : List (PinUnit × Option Word32)) (u : PinUnit) (num : Option Word32) :
    List (PinUnit × Option Word32) :=
  (l.filter fun y => y.1 ≠ u) ++ (num.map fun n => (u, some n)).toList

/-- Beside the editions at its units, applying an edition changes only a Junction (R395). -/
theorem applyAtUnit_touch_jn (s : State) (i : Instance) (u : PinUnit) (num : Option Word32) :
    Touch 0x4000 (s.modInst i fun x => { x with atUnit := atUnitAfter x.atUnit u num }) (applyAtUnit s i u num) := by
  unfold applyAtUnit
  cases num <;> dsimp only
  all_goals
    split
    · exact State_modJn_touch ..
    · exact Touch.refl _

@[simp] theorem instOf_applyAtUnit_self (s : State) (i : Instance) (u : PinUnit) (num : Option Word32) :
    instOf (applyAtUnit s i u num) i = { instOf s i with atUnit := atUnitAfter (instOf s i).atUnit u num } :=
  ((applyAtUnit_touch_jn s i u num).instOf rfl i).trans (instOf_modInst_self ..)

theorem instOf_applyAtUnit_of_ne (s : State) {i j : Instance} (u : PinUnit) (num : Option Word32) (h : j ≠ i) :
    instOf (applyAtUnit s i u num) j = instOf s j :=
  ((applyAtUnit_touch_jn s i u num).instOf rfl j).trans (instOf_modInst_of_ne _ _ h)

/-- R38: the unit that applied an edition pins it from then on; with no edition it pins none. -/
theorem find_atUnitAfter_self (l : List (PinUnit × Option Word32)) (u : PinUnit) (num : Option Word32) :
    ((atUnitAfter l u num).find? fun x => x.1 = u).bind (·.2) = num := by
  have hl : ((l.filter fun y => y.1 ≠ u).find? fun x => x.1 = u) = none := by
    simp [List.find?_eq_none]
  rw [atUnitAfter, List.find?_append, hl]
  cases num <;> simp

/-- R37: the state in which a swap's edition is current at home, before what it replaces may retire. -/
def swapMadeCurrent (s : State) (i : Instance) (sw : Swap) : State :=
  let home := swapHome s i sw.entry
  let s := s.modInst i fun x =>
    { x with
      home := home
      part := match i, sw.edition with | .cat _, some e => bits e.hdr 191 188 | _, _ => x.part
      current := sw.edition.map (·.num)
      live := match sw.edition with | some e => x.live ++ [e] | none => x.live }
  let s := applyAtUnit s i (.station home) (sw.edition.map (·.num))
  s.modInst i fun x =>
    { x with swaps := match x.swaps with
        | [] => []
        | y :: ys =>
          { y with stage := .applying ((pinUnits s i).filter fun u => u ≠ .station home), edition := sw.edition } :: ys }

theorem applySwap_eq (s : State) (i : Instance) (sw : Swap) :
    applySwap s i sw = retireUnpinned (swapMadeCurrent s i sw) i := rfl

theorem applySwap_other (s : State) {i j : Instance} (sw : Swap) (h : j ≠ i) :
    instOf (applySwap s i sw) j = instOf s j := by
  rw [applySwap_eq, instOf_retireUnpinned_of_ne _ h, swapMadeCurrent, instOf_modInst_of_ne _ _ h,
    instOf_applyAtUnit_of_ne _ _ _ h, instOf_modInst_of_ne _ _ h]

section
variable (s : State) (i : Instance) (sw : Swap)

theorem swapMadeCurrent_current : (instOf (swapMadeCurrent s i sw) i).current = sw.edition.map (·.num) := by
  simp [swapMadeCurrent]

theorem mem_live_swapMadeCurrent {ed : Edition} (h : sw.edition = some ed) :
    ed ∈ (instOf (swapMadeCurrent s i sw) i).live := by
  simp [swapMadeCurrent, h]

theorem swapMadeCurrent_atUnit : (instOf (swapMadeCurrent s i sw) i).atUnit =
    atUnitAfter (instOf s i).atUnit (.station (swapHome s i sw.entry)) (sw.edition.map (·.num)) := by
  simp [swapMadeCurrent]

/-- R37: every pinning unit but the home one is still to apply the swap. -/
theorem swapMadeCurrent_swaps {y : Swap} {ys : List Swap} (h : (instOf s i).swaps = y :: ys) :
    (instOf (swapMadeCurrent s i sw) i).swaps =
      { y with stage := .applying ((pinUnits (swapMadeCurrent s i sw) i).filter fun u =>
                 u ≠ .station (swapHome s i sw.entry))
               edition := sw.edition } :: ys := by
  simp [swapMadeCurrent, pinUnits_modInst, h]

theorem applySwap_current : (instOf (applySwap s i sw) i).current = sw.edition.map (·.num) := by
  rw [applySwap_eq, instOf_retireUnpinned]
  exact swapMadeCurrent_current s i sw

/-- R40: an edition that has become current does not retire. -/
theorem mem_live_applySwap {ed : Edition} (h : sw.edition = some ed) : ed ∈ (instOf (applySwap s i sw) i).live := by
  rw [applySwap_eq, instOf_retireUnpinned]
  refine List.mem_filter.2 ⟨mem_live_swapMadeCurrent s i sw h, ?_⟩
  simp [stillNeeded, currentSomewhere, swapMadeCurrent_current, h]

theorem applySwap_currentAt_home :
    currentAt (applySwap s i sw) i (.station (swapHome s i sw.entry)) = sw.edition.map (·.num) := by
  rw [currentAt, applySwap_eq, instOf_retireUnpinned]
  dsimp only
  rw [swapMadeCurrent_atUnit]
  exact find_atUnitAfter_self ..

theorem applySwap_swaps {y : Swap} {ys : List Swap} (h : (instOf s i).swaps = y :: ys) :
    (instOf (applySwap s i sw) i).swaps =
      { y with stage := .applying ((pinUnits (applySwap s i sw) i).filter fun u =>
                 u ≠ .station (swapHome s i sw.entry))
               edition := sw.edition } :: ys := by
  have hp : pinUnits (applySwap s i sw) i = pinUnits (swapMadeCurrent s i sw) i :=
    pinUnits_congr (by rw [applySwap_eq, instOf_retireUnpinned])
  rw [hp, applySwap_eq, instOf_retireUnpinned]
  exact swapMadeCurrent_swaps s i sw h

end

end Sys2Proof.Machine
end
section
/-!
PROOF. How an edition swap begins: the command is taken from its ring, joins its structure's queue, and, first in that queue,
is judged and goes on as its verdict says (R37, R41, R154, R589).
-/

namespace Sys2Proof.Machine

/-! ### A command begins -/

theorem orWait_of_free {s : State} {f : State → State} (h : (f { s with heldAt := none }).heldAt = none) :
    orWait s f = f { s with heldAt := none } := by
  unfold orWait
  rw [h]

/-- Nothing fetched before a PF0 reset stands before a command of another function, or where nothing is left of it (R482). -/
theorem readyOrphan_eq_none {s : State} {f : Func} {r : Nat} (h : f ≠ .pf0 ∨ s.hif.orphans = []) :
    readyOrphan s f r = none := by
  unfold readyOrphan
  rcases h with h | h <;> simp [h]

/-! ### A swap joins its structure's queue -/

/-- The swap that a command makes. -/
def swapOf (o : Origin) (e : Entry) : Swap :=
  { func := o.func, ring := o.ring, entry := e, sqHead := o.sqHead, answer := o.answer }

/-- A swap at the end of a structure's queue. -/
def joinQueue (s : State) (i : Instance) (sw : Swap) : State := s.modInst i fun x => { x with swaps := x.swaps ++ [sw] }

theorem instOf_joinQueue (s : State) (i : Instance) (sw : Swap) :
    instOf (joinQueue s i sw) i = { instOf s i with swaps := (instOf s i).swaps ++ [sw] } := instOf_modInst_self ..

theorem swaps_joinQueue_of_nil {s : State} {i : Instance} (sw : Swap) (h : (instOf s i).swaps = []) :
    (instOf (joinQueue s i sw) i).swaps = [sw] := by simp [instOf_joinQueue, h]

theorem judge_eq_touch {s u : State} {i : Instance} {sw : Swap} {x : Verdict} (h : judge s i sw = (u, x)) :
    Touch 0x10881c0014 s u := Touch.fst h (judge_touch ..)

theorem performSwap_behind {s : State} {o : Origin} {e : Entry} {i : Instance} (hi : swapInst e = some i)
    (hq : (instOf s i).swaps ≠ []) : performSwap s o e = joinQueue s i (swapOf o e) := by
  simp [performSwap, hi, hq, joinQueue, swapOf]

theorem performSwap_first {s : State} {o : Origin} {e : Entry} {i : Instance} (hi : swapInst e = some i)
    (hq : (instOf s i).swaps = []) : performSwap s o e = serveSwaps 1 (joinQueue s i (swapOf o e)) i := by
  simp [performSwap, hi, hq, joinQueue, swapOf]

/-! ### The first swap of a queue takes its turn -/

section
variable {s u : State} {i : Instance} {sw : Swap}

/-- R589: a swap judged good goes on with its edition, or with none where it withdraws an index. -/
theorem serveSwaps_good {n : Nat} {rest : List Swap} {v : Option Edition} (hq : (instOf s i).swaps = sw :: rest)
    (hstage : sw.stage = .queued)
    (hj : judge s i sw = (u, match v with | some ed => .accept ed | none => .withdraw)) :
    serveSwaps (n + 1) s i = advanceSwap u i { sw with edition := v } := by
  cases v <;> simp [serveSwaps, hq, hstage, hj]

/-- R589: a swap refused leaves the queue and is answered with its cause. -/
theorem serveSwaps_refused {c : Nat} {er : Option AccErr} (hq : (instOf s i).swaps = [sw])
    (hstage : sw.stage = .queued) (hj : judge s i sw = (u, .refuse c er)) :
    let v := (er.elim u fun x => failAcc u .task (cmdPart sw.entry) x).modInst i fun x => { x with swaps := [] }
    serveSwaps 1 s i = answerCommand v ⟨sw.func, sw.ring, sw.sqHead, sw.answer⟩ sw.entry c (wingOf (instHome v i))
      .stationmaster (swapHdr sw.entry) := by
  cases er <;> simp [serveSwaps, hq, hstage, hj]

theorem advanceSwap_held (hstage : sw.stage ≠ .held) (h : mustHold s i sw = true) :
    advanceSwap s i sw = raise (setHeadSwap s i fun _ => { sw with stage := .held }) 0x0105
      (structCode i * 65536 + (instNums i).2) (blkSch (instHome s i)) (instNums i).1 := by
  simp [advanceSwap, h, hstage]

theorem advanceSwap_drain (hstage : sw.stage ≠ .drain) (h : mustHold s i sw = false) (hd : mustDrain s i sw = true) :
    advanceSwap s i sw = setHeadSwap s i fun _ => { sw with stage := .drain } := by
  simp [advanceSwap, h, hd, hstage]

theorem advanceSwap_applied (h : mustHold s i sw = false) (hd : mustDrain s i sw = false) :
    advanceSwap s i sw = applySwap s i sw := by
  simp [advanceSwap, h, hd]

end

/-! ### A swap first in its queue is performed -/

section
variable {s u : State} {i : Instance} {o : Origin} {e : Entry}

theorem performSwap_good {v : Option Edition} (hi : swapInst e = some i) (hq : (instOf s i).swaps = [])
    (hj : judge (joinQueue s i (swapOf o e)) i (swapOf o e) =
      (u, match v with | some ed => .accept ed | none => .withdraw)) :
    performSwap s o e = advanceSwap u i { swapOf o e with edition := v } := by
  rw [performSwap_first hi hq]
  exact serveSwaps_good (swaps_joinQueue_of_nil _ hq) rfl hj

theorem performSwap_refused {c : Nat} {er : Option AccErr} (hi : swapInst e = some i) (hq : (instOf s i).swaps = [])
    (hj : judge (joinQueue s i (swapOf o e)) i (swapOf o e) = (u, .refuse c er)) :
    let v := (er.elim u fun x => failAcc u .task (cmdPart e) x).modInst i fun x => { x with swaps := [] }
    performSwap s o e = answerCommand v o e c (wingOf (instHome v i)) .stationmaster (swapHdr e) := by
  have hserve := serveSwaps_refused (swaps_joinQueue_of_nil _ hq) rfl hj
  exact (performSwap_first hi hq).trans hserve

end

end Sys2Proof.Machine
end
section
/-!
PROOF. A command that begins (R479 to R482): the state it leaves, and an edition swap performed in it.
-/

namespace Sys2Proof

open Sys2Proof.Machine

theorem Begins.heldAt {s p : State} {f : Func} {r op h : Nat} {e : Entry} (hb : Begins s f r op p e h) :
    p.heldAt = none := by
  rw [hb.1]
  exact (takeEntry_touch ..).eq .heldAt rfl

theorem Begins.touch {s p : State} {f : Func} {r op h : Nat} {e : Entry} (hb : Begins s f r op p e h) :
    Touch 0x400200000 s p := by
  rw [hb.1]
  exact (takeEntry_touch ..).step rfl (touch_heldAt s |>.weaken rfl)

theorem Begins.ringOf {s p : State} {f : Func} {r op h : Nat} {e : Entry} (hb : Begins s f r op p e h) :
    ringOf p f r = { ringOf s f r with fetched := (ringOf s f r).fetched.drop 1 } := by
  rw [hb.1, takeEntry, ringOf_modRing_self]
  rfl

theorem Begins.beginCommand_eq {s p : State} {f : Func} {r op h : Nat} {e : Entry} (hb : Begins s f r op p e h)
    (perform : State → Origin → Entry → State) :
    beginCommand s f r op perform =
      orWait s fun s => judgeCommand (takeEntry s f r) ⟨f, r, h, true⟩ e perform := by
  obtain ⟨-, horphan, hready, hkind, hop, -, -⟩ := hb
  simp [beginCommand, readyOrphan_eq_none horphan, hready, hkind, hop]

/-- A swap that names a structure is taken from its ring and performed. -/
theorem Begins.exec_editionSwap {s p : State} {f : Func} {r : Fin 64} {h : Nat} {e : Entry} {i : Instance}
    (hb : Begins s f r.val 1 p e h) (hi : swapInst e = some i)
    (hfree : (performSwap p ⟨f, r.val, h, true⟩ e).heldAt = none) :
    exec (.editionSwap f r) s = .next (performSwap p ⟨f, r.val, h, true⟩ e) := by
  obtain ⟨hp, -, -, -, hop, -, -⟩ := id hb
  have hperform : judgeCommand (takeEntry { s with heldAt := none } f r.val) ⟨f, r.val, h, true⟩ e performSwap =
      performSwap p ⟨f, r.val, h, true⟩ e := by simp [judgeCommand, hop, hi, hp]
  show Host.Outcome.next _ = _
  rw [hb.beginCommand_eq, orWait_of_free (by rw [hperform]; exact hfree), hperform]

end Sys2Proof
end
section
/-!
PROOF. An edition swap is applied, queued, held, drained or refused (R37, R38, R41, R154, R589).
-/

namespace Sys2Proof

open Sys2Proof.Machine

section
variable {s p u : State} {f : Func} {r : Fin 64} {e : Entry} {h : Nat} {i : Instance} {v : Option Edition} {sw : Swap}

theorem heldAt_judged {x : Verdict} (hb : Begins s f r.val 1 p e h) (hj : judge (joinQueue p i sw) i sw = (u, x)) :
    u.heldAt = none :=
  ((judge_eq_touch hj).eq .heldAt rfl).trans ((State.modInst_heldAt ..).trans hb.heldAt)

/-- The home that an applied swap gives its structure is the one that the command named when it began (R370). -/
theorem swapHome_judged {x : Verdict} (hj : judge (joinQueue p i sw) i sw = (u, x)) (e : Entry) :
    swapHome u i e = swapHome p i e := by
  have hu := (judge_eq_touch hj).instOf rfl i
  rw [instOf_joinQueue] at hu
  exact swapHome_congr e (by rw [hu]) (by rw [hu])

/-- R37: a swap that begins first in its queue and is judged good is held, drains or is applied. -/
theorem Begins.exec_editionSwap_good (hb : Begins s f r.val 1 p e h) (hi : swapInst e = some i)
    (hq : (instOf p i).swaps = []) (hsw : sw = swapOf ⟨f, r.val, h, true⟩ e)
    (hj : judge (joinQueue p i sw) i sw = (u, match v with | some ed => .accept ed | none => .withdraw)) :
    exec (.editionSwap f r) s = .next (advanceSwap u i { sw with edition := v }) := by
  subst hsw
  have hperform := performSwap_good hi hq hj
  rw [hb.exec_editionSwap hi, hperform]
  rw [hperform]
  exact ((advanceSwap_touch ..).eq .heldAt rfl).trans (heldAt_judged hb hj)

/-- R589: a swap that begins first in its queue and is refused is answered with its cause. -/
theorem Begins.exec_editionSwap_refused {c : Nat} {er : Option AccErr} (hb : Begins s f r.val 1 p e h)
    (hi : swapInst e = some i) (hq : (instOf p i).swaps = []) (hsw : sw = swapOf ⟨f, r.val, h, true⟩ e)
    (hj : judge (joinQueue p i sw) i sw = (u, .refuse c er)) :
    let v := (er.elim u fun x => failAcc u .task (cmdPart e) x).modInst i fun x => { x with swaps := [] }
    v.heldAt = none → exec (.editionSwap f r) s =
      .next (answerCommand v ⟨f, r.val, h, true⟩ e c (wingOf (instHome v i)) .stationmaster (swapHdr e)) := by
  subst hsw
  intro v hfree
  have hperform := performSwap_refused hi hq hj
  rw [hb.exec_editionSwap hi, hperform]
  rw [hperform]
  exact ((answerCommand_touch ..).eq .heldAt rfl).trans hfree

/-- What a swap that begins and is applied may change. -/
theorem Begins.applySwap_touch {x : Verdict} (hb : Begins s f r.val 1 p e h)
    (hj : judge (joinQueue p i sw) i sw = (u, x)) (sw' : Swap) : Touch 0x14883c40bc s (applySwap u i sw') :=
  hb.touch.weaken rfl |> Touch.step (State_modInst_touch ..) rfl |> Touch.step (judge_eq_touch hj) rfl
    |> Touch.step (Machine.applySwap_touch ..) rfl

/-- The rings, as an applied swap leaves them, are those of the state with the command taken. -/
theorem ringOf_applySwap_judged {x : Verdict} (hj : judge (joinQueue p i sw) i sw = (u, x)) (sw' : Swap) (g : Func)
    (k : Nat) : ringOf (applySwap u i sw') g k = ringOf p g k :=
  ((Machine.applySwap_touch ..).ringOf rfl ..).trans (((judge_eq_touch hj).ringOf rfl ..).trans
    ((State_modInst_touch ..).ringOf rfl ..))

end

/-- Settles O11: the swap is taken from its ring and joins its queue; first there it is judged, and each verdict has its
own branch of `serveSwaps` and `advanceSwap`. -/
theorem editionSwapsBegin : Obligations.EditionSwapsBegin := by
  unfold Obligations.EditionSwapsBegin
  constructor
  · intro s f r p u e h i v hmem hb hi hq sw hj hhold hdrain
    have hu : ∀ j, instOf u j = instOf (joinQueue p i sw) j := (judge_eq_touch hj).instOf rfl
    have hswaps : (instOf u i).swaps = [sw] := by rw [hu, swaps_joinQueue_of_nil _ hq]
    have hexec : exec (.editionSwap f r) s = .next (applySwap u i { sw with edition := v }) :=
      (hb.exec_editionSwap_good hi hq rfl hj).trans (congrArg _ (advanceSwap_applied hhold hdrain))
    refine ⟨_, hexec, applySwap_current .., fun ed hv => mem_live_applySwap _ _ _ hv, applySwap_currentAt_home ..,
      ?_, fun j hne => ?_, ?_, (hb.applySwap_touch hj _).onlyChanges hmem ?_⟩
    · rw [applySwap_swaps _ _ _ hswaps, swapHome_judged hj]
    · rw [applySwap_other _ _ hne, hu, joinQueue, instOf_modInst_of_ne _ _ hne, hb.touch.instOf rfl]
    · rw [ringOf_applySwap_judged hj, hb.ringOf]
    · intro q
      cases q <;> decide
  · intro s f r p u e h i hb hi sw q
    refine ⟨fun hq => ?_, fun ed hq hj hhold => ?_, fun ed hq hj hhold hdrain => ?_, fun c er hq hj => ?_⟩
    · have hperform : performSwap p ⟨f, r.val, h, true⟩ e = q := performSwap_behind hi hq
      rw [hb.exec_editionSwap hi, hperform]
      rw [hperform]
      exact (State.modInst_heldAt ..).trans hb.heldAt
    · exact (hb.exec_editionSwap_good (v := some ed) hi hq rfl hj).trans (congrArg _ (advanceSwap_held nofun hhold))
    · exact (hb.exec_editionSwap_good (v := some ed) hi hq rfl hj).trans
        (congrArg _ (advanceSwap_drain nofun hhold hdrain))
    · cases er <;> exact hb.exec_editionSwap_refused hi hq rfl hj

end Sys2Proof
end
section
/-!
PROOF. The drain of a configuration swap clears only banks that lie in a core's window (R71, R154): a configuration in
force that grants bank 44, which R153 refuses and no core has (R71), is drained without touching the bytes its address
names.
-/

namespace Sys2Proof

open Sys2Proof.Machine

/-- A configuration whose partition 0 is enabled and holds, on E0, the core at column 0 and row 0 with the one bank 44:
COLS 1, ROWS 1, BANK_FIRST 44, BANK_COUNT 1 (R152). -/
def bank44Config : List Byte := 1 :: List.replicate 143 0 ++ [0x10, 0x40, 0x60, 0x03]

/-- The edition that takes its place, an empty configuration. -/
def emptyConfig : Edition := { num := 2, base := 0 }

/-- The swap to the empty configuration, draining. -/
def drainingSwap : Swap := { func := .pf0, ring := 0, entry := 0, stage := .drain, edition := some emptyConfig }

/-- That configuration in force, its swap draining, and one byte that is not 0 where bank 44 of core 0 would begin. -/
def bank44State : State :=
  { State.reset with
    mem := [(0x2C0000, 1)]
    insts := [(.partCfg, { current := some 1, live := [{ num := 1, base := 0, copy := bank44Config }]
                           atUnit := [(.station .e0, some 1)], swaps := [drainingSwap] })] }

/-- Partition 0 is drained. -/
theorem zero_mem_drainedParts_bank44 : 0 ∈ drainedParts (cfgAt bank44State .e0) emptyConfig.copy := by decide +kernel

/-- The swap is applied and the byte stands. -/
theorem bank44_kept_by_drain :
    memByte (applySwap ((drainedParts (cfgAt bank44State .e0) emptyConfig.copy).foldl
      (fun s p => drainPart s (cfgAt bank44State .e0) emptyConfig.copy p) { bank44State with heldAt := none })
      .partCfg drainingSwap).mem 0x2C0000 = 1 := by decide +kernel

/-- Refutes O12: nothing in the clause on R154 says that the configuration in force passes R153. In `bank44State` the
drained partition 0 holds bank 44 of core 0, whose address 0x2C0000 lies past that core's window; the drain leaves it. -/
theorem not_editionSwapsEnd : ¬ Obligations.EditionSwapsEnd := by
  unfold Obligations.EditionSwapsEnd
  rintro ⟨-, -, hdrain⟩
  obtain ⟨t, -, rfl, -, -, hzero, -⟩ := hdrain bank44State drainingSwap [] emptyConfig (by decide +kernel) rfl rfl
    (by decide +kernel) (by decide +kernel) (by decide +kernel)
  have h0 := hzero 0 zero_mem_drainedParts_bank44 .e0 0 44 0x2C0000 (by decide) (by decide +kernel) (by decide +kernel)
    (by decide +kernel) (by decide +kernel) (by decide) (by decide)
  exact absurd (h0.symm.trans bank44_kept_by_drain) (by decide)

end Sys2Proof
end

section
/-!
PROOF. An INT32 engine step (R65): the sum is exact, and it is clamped once.
-/

namespace Sys2Proof

open Sys2Proof.Machine

/-- Nothing is clamped between products: adding them in turn to the incoming value gives the exact sum. -/
theorem foldl_add_mul_eq_add_sum (terms : List (Int × Int)) (c : Int) :
    terms.foldl (fun a p => a + p.1 * p.2) c = c + (terms.map fun p => p.1 * p.2).sum := by
  induction terms generalizing c with
  | nil => simp only [List.foldl_nil, List.map_nil, List.sum_nil, Int.add_zero]
  | cons p terms ih => rw [List.foldl_cons, ih, List.map_cons, List.sum_cons, Int.add_assoc]

section

variable {c : Word32} {terms : List (Int × Int)} {sum : Int}

/-- A sum below −2^31 gives −2^31, with ISAT. -/
theorem engineStepInt_of_lt (hsum : c.toInt + (terms.map fun p => p.1 * p.2).sum = sum) (hlt : sum < -2147483648) :
    engineStepInt c terms = (0x80000000, flagIsat) := by
  simp only [engineStepInt, foldl_add_mul_eq_add_sum, hsum, if_pos hlt]

/-- A sum above 2^31 − 1 gives 2^31 − 1, with ISAT. -/
theorem engineStepInt_of_gt (hsum : c.toInt + (terms.map fun p => p.1 * p.2).sum = sum) (hgt : 2147483647 < sum) :
    engineStepInt c terms = (0x7FFFFFFF, flagIsat) := by
  have hge : ¬ sum < -2147483648 := by omega
  simp only [engineStepInt, foldl_add_mul_eq_add_sum, hsum, if_neg hge, if_pos hgt]

/-- A sum within the limits is kept, without a flag. -/
theorem engineStepInt_of_mem (hsum : c.toInt + (terms.map fun p => p.1 * p.2).sum = sum) (hge : -2147483648 ≤ sum)
    (hle : sum ≤ 2147483647) : engineStepInt c terms = (BitVec.ofInt 32 sum, noFlags) := by
  simp only [engineStepInt, foldl_add_mul_eq_add_sum, hsum, if_neg (Int.not_lt.mpr hge),
    if_neg (Int.not_lt.mpr hle)]

end

/-- Settles O26, by the three places of the exact sum: below the limits, above them, and between them, where the word
holds it. -/
theorem integerEngineStep : Obligations.IntegerEngineStep := by
  unfold Obligations.IntegerEngineStep
  intro c terms
  dsimp only
  generalize hsum : c.toInt + (terms.map fun p => p.1 * p.2).sum = sum
  by_cases hlt : sum < -2147483648
  · rw [engineStepInt_of_lt hsum hlt, if_pos (.inl hlt)]
    have hmin : (0x80000000 : Word32).toInt = -2147483648 := by decide
    exact ⟨hmin.trans (by omega), rfl⟩
  by_cases hgt : 2147483647 < sum
  · rw [engineStepInt_of_gt hsum hgt, if_pos (.inr hgt)]
    have hmax : (0x7FFFFFFF : Word32).toInt = 2147483647 := by decide
    exact ⟨hmax.trans (by omega), rfl⟩
  · rw [engineStepInt_of_mem hsum (by omega) (by omega), if_neg (by omega)]
    have hword : (BitVec.ofInt 32 sum).toInt = sum :=
      BitVec.toInt_ofInt_eq_self (by decide) (by omega) (by omega)
    exact ⟨hword.trans (by omega), rfl⟩

end Sys2Proof
end

section
/-!
PROOF. Tasks by their numbers, and the counters of a Stationmaster: what a change of one task, a task that joins and a count
leave of them; and byte strings as numbers.
-/

namespace Sys2Proof.Machine

/-- A frame from a mask that holds no part of memory. -/
theorem Touch.onlyChanges_of_cells {m : Nat} {ps : List StatePart} {s t : State} (h : Touch m s t)
    (hcells : m &&& memBits = 0) (hp : ∀ p, p ∉ ps → m.testBit p.idx = false) : OnlyChanges ps s t :=
  fun p hn => h.same_of_cells hcells (hp p hn)

/-! ### Bytes as numbers -/

theorem leBytes_length (n x : Nat) : (leBytes n x).length = n := by
  induction n generalizing x with
  | zero => rfl
  | succ n ih => rw [leBytes, List.length_cons, ih]

theorem leNat_leBytes (n x : Nat) : leNat (leBytes n x) = x % 256 ^ n := by
  induction n generalizing x with
  | zero => rw [leBytes, leNat, Nat.pow_zero, Nat.mod_one]
  | succ n ih =>
    rw [leBytes, leNat, ih, Nat.pow_succ', Nat.mod_mul, BitVec.toNat_ofNat]

theorem b2n_lt_two (b : Bool) : b2n b < 2 := by cases b <;> decide

/-! ### Tasks by number -/

theorem Touch.taskOf {m : Nat} {s t : State} (h : Touch m s t) (hm : m.testBit StatePart.tasks.idx = false) (i : Nat) :
    taskOf t i = taskOf s i := by
  have e : t.tasks = s.tasks := h.eq .tasks hm
  simp only [Machine.taskOf, e]

theorem id_of_taskOf {s : State} {i : Nat} {x : Task} (h : taskOf s i = some x) : x.id = i :=
  eq_of_beq (List.find?_some (p := fun t : Task => t.id == i) h)

/-- Changing the tasks of one number changes the task found by it and no other. -/
theorem taskOf_modTask (s : State) (n i : Nat) {f : Task → Task} (hf : ∀ y, y.id = n → (f y).id = n) :
    taskOf (s.modTask n f) i = (taskOf s i).map fun y => if i = n then f y else y := by
  have hkey : ((fun t : Task => t.id == i) ∘ fun t => if t.id == n then f t else t) = fun t => t.id == i := by
    funext t
    by_cases ht : t.id = n
    · simp [ht, hf t ht]
    · simp [ht]
  unfold taskOf State.modTask
  rw [List.find?_map, hkey]
  refine Option.map_congr fun y hy => ?_
  have hy : y.id = i := id_of_taskOf hy
  simp [hy]

theorem taskOf_modTask_self {s : State} {n : Nat} {x : Task} {f : Task → Task} (hf : ∀ y, y.id = n → (f y).id = n)
    (h : taskOf s n = some x) : taskOf (s.modTask n f) n = some (f x) := by simp [taskOf_modTask s n n hf, h]

theorem taskOf_modTask_of_ne (s : State) {n i : Nat} {f : Task → Task} (hf : ∀ y, y.id = n → (f y).id = n)
    (h : i ≠ n) : taskOf (s.modTask n f) i = taskOf s i := by simp [taskOf_modTask s n i hf, h]

/-- A task numbered anew that has joined the tasks is found by its number. -/
theorem taskOf_joined {s t : State} {x : Task} (hn : TasksNumbered s) (hx : x.id = s.nextTask)
    (ht : t.tasks = s.tasks ++ [x]) : taskOf t s.nextTask = some x := by
  have hs : (s.tasks.find? fun y => y.id == s.nextTask) = none :=
    List.find?_eq_none.2 fun y hy => by simpa using Nat.ne_of_lt (hn y hy)
  rw [taskOf, ht, List.find?_append, hs]
  simp [hx]

/-! ### Counters of a Stationmaster -/

/-- Another key reads as before once a key has been set to a value that is not the default, in any table. -/
theorem Table.get_set_of_ne {α : Type} [DecidableEq α] {d : α} (t : Table α) {a b : Nat} {v : α} (hv : v ≠ d)
    (h : b ≠ a) : Table.get d (Table.set d t a v) b = Table.get d t b := by
  induction t with
  | nil => simp [Table.set, hv, Table.get, h]
  | cons e t ih =>
    simp only [Table.set, hv, if_false]
    split
    · simp only [Table.get, h, if_false]
      split
      · rw [if_neg (by omega), if_pos (by omega)]
      · rfl
    · split
      · rename_i ha
        simp [Table.get, ha ▸ h]
      · simp only [Table.get, ih]

theorem toNat_sat64 (n : Nat) : (sat64 n).toNat = min (2 ^ 64 - 1) n := by
  simp only [sat64, BitVec.toNat_ofNat]
  omega

theorem sat64_succ_ne_zero (n : Nat) : sat64 (n + 1) ≠ 0 := by
  intro h
  have h := congrArg BitVec.toNat h
  rw [toNat_sat64] at h
  exact absurd h (by simp)

theorem ctrTable_sch (s : State) (t : Tile) : ctrTable s (blkSch t) = (s.sch.get t).ctrs := by cases t <;> rfl

theorem setCtrTable_sch (s : State) (t : Tile) (c : Table Word64) :
    setCtrTable s (blkSch t) c = s.modSch t fun x => { x with ctrs := c } := by cases t <;> rfl

theorem ctr_sch (s : State) (t : Tile) (off : Nat) : ctr s (blkSch t) off = Table.get 0 (s.sch.get t).ctrs off := by
  rw [ctr, ctrTable_sch]

theorem Touch.ctr_sch {m : Nat} {s t : State} (h : Touch m s t) (hm : m.testBit StatePart.sch.idx = false) (u : Tile)
    (off : Nat) : ctr t (blkSch u) off = ctr s (blkSch u) off := by
  have e : t.sch = s.sch := h.eq .sch hm
  rw [Machine.ctr_sch, Machine.ctr_sch, e]

/-- A change of a Stationmaster that leaves its counters. -/
theorem ctr_modSch (s : State) (t u : Tile) (off : Nat) {f : Sch → Sch} (hf : ∀ x, (f x).ctrs = x.ctrs) :
    ctr (s.modSch t f) (blkSch u) off = ctr s (blkSch u) off := by
  rw [ctr_sch, ctr_sch]
  by_cases h : u = t
  · subst h; rw [modSch_get, hf]
  · rw [State.modSch, PerTile.get_modify_of_ne _ _ h]

theorem sch_addCtr (s : State) (t : Tile) (off n : Nat) : (addCtr s (blkSch t) off n).sch = s.sch.modify t fun x =>
    { x with ctrs := Table.set 0 (s.sch.get t).ctrs off (sat64 ((ctr s (blkSch t) off).toNat + n)) } := by
  unfold addCtr
  dsimp only
  rw [setCtrTable_sch, ctrTable_sch]
  split
  · exact raise_sch ..
  · rfl

/-- R557: a count of one adds 1 to its counter, which stays at its limit. -/
theorem ctr_addCtr_self (s : State) (t : Tile) (off : Nat) :
    (ctr (addCtr s (blkSch t) off) (blkSch t) off).toNat = min (2 ^ 64 - 1) ((ctr s (blkSch t) off).toNat + 1) := by
  rw [ctr_sch, sch_addCtr, PerTile.get_modify_self, Table.get_set_self _ _ (sat64_succ_ne_zero _), toNat_sat64]

theorem ctr_addCtr_of_ne (s : State) (t u : Tile) {off o : Nat} (h : o ≠ off) :
    ctr (addCtr s (blkSch t) off) (blkSch u) o = ctr s (blkSch u) o := by
  rw [ctr_sch, ctr_sch, sch_addCtr]
  by_cases hu : u = t
  · subst hu
    rw [PerTile.get_modify_self, Table.get_set_of_ne _ (sat64_succ_ne_zero _) h]
  · rw [PerTile.get_modify_of_ne _ _ hu]

end Sys2Proof.Machine
end
section
/-!
PROOF. A ring's front entry that begins as a task (R136 to R139, R145): its issue check, and the state once the task has joined
the tasks that have not ended.
-/

namespace Sys2Proof.Machine

/-! ### A task is accepted -/

/-- The state in which an issued task joins the others: it is counted, its pages are cached and its partition's virtual time is
lifted. -/
def beforeJoining (s : State) (t : Task) : State :=
  liftVtime ([hBody t.hdr, hPlan t.hdr, hRecord t.hdr].foldl
    (fun u va => if va = 0 then u else fillTlb u (taskCtx (addCtr s (blkSch t.home) 0x0128) t) va)
    (addCtr s (blkSch t.home) 0x0128)) t.home t.part

theorem acceptTask_of_work {s : State} {t : Task} (h : t.zeroWork = false) :
    acceptTask s t = rebaseVtime { beforeJoining s t with tasks := (beforeJoining s t).tasks ++ [t] } t.home := by
  simp [acceptTask, h, beforeJoining]

theorem acceptTask_of_zeroWork {s : State} {t : Task} (h : t.zeroWork = true) :
    acceptTask s t = finishTask (addCtr s (blkSch t.home) 0x0128) t 0 := by
  simp [acceptTask, h]

theorem cached_touch (s u : State) (c : Ctx) (l : List Nat) (h : Touch 0x10 s u) :
    Touch 0x10 s (l.foldl (fun u va => if va = 0 then u else fillTlb u c va) u) :=
  Touch.foldl h fun _ _ hy => Touch.ite (fun _ => hy) fun _ => Touch.step (fillTlb_touch ..) rfl hy

theorem beforeJoining_touch (s : State) (t : Task) : Touch 0x801c0018 s (beforeJoining s t) :=
  Touch.step (liftVtime_touch ..) rfl (Touch.step (cached_touch _ _ _ _ (Touch.refl _)) rfl
    (Touch.weaken (addCtr_touch_sch ..) rfl))

/-- What the issue of a task with work may change. -/
theorem acceptTask_touch_of_work {s : State} {t : Task} (h : t.zeroWork = false) (ht : t.id < s.nextTask) :
    Touch 0x801c0118 s (acceptTask s t) := by
  have hb := beforeJoining_touch s t
  rw [acceptTask_of_work h]
  exact Touch.step (rebaseVtime_touch ..) rfl (Touch.append (Touch.weaken hb rfl) rfl (Nat.lt_of_lt_of_le ht hb.next))

theorem tasks_acceptTask {s : State} {t : Task} (h : t.zeroWork = false) : (acceptTask s t).tasks = s.tasks ++ [t] := by
  have hb : (beforeJoining s t).tasks = s.tasks := (beforeJoining_touch s t).eq .tasks rfl
  rw [acceptTask_of_work h, ← hb]
  exact (rebaseVtime_touch ..).eq .tasks rfl

theorem ctr_liftVtime (s : State) (t u : Tile) (p off : Nat) :
    ctr (liftVtime s t p) (blkSch u) off = ctr s (blkSch u) off := by
  unfold liftVtime
  split
  · rfl
  · split
    · rfl
    · split
      · exact ctr_modSch _ _ _ _ fun _ => rfl
      · rfl

theorem ctr_rebaseVtime (s : State) (t u : Tile) (off : Nat) :
    ctr (rebaseVtime s t) (blkSch u) off = ctr s (blkSch u) off := by
  unfold rebaseVtime
  split
  · rfl
  · split
    · exact ctr_modSch _ _ _ _ fun _ => rfl
    · rfl

/-- R139: an issued task adds 1 to SCH_ISSUED of its home tile. -/
theorem ctr_acceptTask {s : State} {t : Task} (h : t.zeroWork = false) :
    (ctr (acceptTask s t) (blkSch t.home) 0x0128).toNat =
      min (2 ^ 64 - 1) ((ctr s (blkSch t.home) 0x0128).toNat + 1) := by
  have hjoin : ctr { beforeJoining s t with tasks := (beforeJoining s t).tasks ++ [t] } (blkSch t.home) 0x0128 =
      ctr (beforeJoining s t) (blkSch t.home) 0x0128 := by rw [ctr_sch, ctr_sch]
  rw [acceptTask_of_work h, ctr_rebaseVtime, hjoin, beforeJoining, ctr_liftVtime,
    (cached_touch _ _ _ _ (Touch.refl _)).ctr_sch rfl, ctr_addCtr_self]

/-! ### The issue check of a task -/

/-- A command whose accesses wait for nothing takes its effect. -/
theorem orWait_eq {s u : State} {f : State → State} (h : f { s with heldAt := none } = u) (hu : u.heldAt = none) :
    orWait s f = u := by
  rw [orWait_of_free (by rw [h]; exact hu), h]

/-- R136: the first of steps 1 to 4 that fails gives the cause. -/
theorem commonFault_first {s : State} {t : Task} {c : Nat}
    (h : (headerOk t.hdr t.home = false ∧ c = 0x0151)
      ∨ (headerOk t.hdr t.home = true ∧ coresGranted s t = false ∧ c = 0x0132)
      ∨ (headerOk t.hdr t.home = true ∧ coresGranted s t = true ∧ rectEnabled s t = false ∧ c = 0x0131)
      ∨ (headerOk t.hdr t.home = true ∧ coresGranted s t = true ∧ rectEnabled s t = true ∧ allocationGranted s t = false
        ∧ c = 0x0133)) :
    commonFault s t = some c := by
  rcases h with ⟨hhdr, rfl⟩ | ⟨hhdr, hcores, rfl⟩ | ⟨hhdr, hcores, hrect, rfl⟩ | ⟨hhdr, hcores, hrect, halloc, rfl⟩
  · simp [commonFault, hhdr]
  · simp [commonFault, hhdr, hcores]
  · simp [commonFault, hhdr, hcores, hrect]
  · simp [commonFault, hhdr, hcores, hrect, halloc]

theorem issueTask_pf0 {s : State} {t : Task} (k : KindCheck) (h : t.func = .pf0) :
    issueTask s t k = failIssue { s with nextTask := s.nextTask + 1 } t { cause := 0x0155, addr := 0 } := by
  simp [issueTask, h]

theorem issueTask_of_commonFault {s : State} {t : Task} {c : Nat} (k : KindCheck) (h : t.func ≠ .pf0)
    (hc : commonFault { s with nextTask := s.nextTask + 1 } t = some c) :
    issueTask s t k = failIssue { s with nextTask := s.nextTask + 1 } t { cause := c, addr := 0 } := by
  simp [issueTask, h, hc]

theorem issueTask_passed {s p : State} {t x : Task} {k : KindCheck} (h : t.func ≠ .pf0)
    (hc : commonFault { s with nextTask := s.nextTask + 1 } t = none)
    (hk : k { s with nextTask := s.nextTask + 1 } t = (p, .ok x)) : issueTask s t k = acceptTask p x := by
  simp [issueTask, h, hc, hk]

/-- A front entry that may begin and names the row's task is taken from its ring and judged. -/
theorem beginTask_of_ready {s : State} {f : Func} {r kind sub h : Nat} {e : Entry} (k : KindCheck)
    (hready : readyEntry s f r = some (e, h)) (hkind : entryKind e = kind) (hne : kind ≠ 0) (hsub : hSub e = sub)
    (hfree : (issueTask (takeEntry { s with heldAt := none } f r) (newTask { s with heldAt := none } f r e h) k).heldAt =
      none) :
    beginTask s f r kind sub k =
      issueTask (takeEntry { s with heldAt := none } f r) (newTask { s with heldAt := none } f r e h) k := by
  unfold beginTask
  rw [hready]
  dsimp only
  rw [if_pos ⟨hkind ▸ hne, .inl ⟨hkind, hsub⟩⟩]
  exact orWait_eq rfl hfree

/-- The state in which the front entry of a ring is judged: the entry is taken, and its task's number is given. -/
def entryTaken (s : State) (f : Func) (r : Nat) : State :=
  { takeEntry { s with heldAt := none } f r with nextTask := s.nextTask + 1 }

theorem entryTaken_touch (s : State) (f : Func) (r : Nat) : Touch 0x400200200 s (entryTaken s f r) :=
  Touch.step (touch_nextTask _) rfl (Touch.step (takeEntry_touch ..) rfl (Touch.weaken (touch_heldAt s) rfl))

theorem ringOf_entryTaken (s : State) (f g : Func) (r q : Nat) : ringOf (entryTaken s f r) g q =
    if ringKey g q = ringKey f r then { ringOf s f r with fetched := (ringOf s f r).fetched.drop 1 } else ringOf s g q :=
  ringOf_modRing { s with heldAt := none } f g r q fun x => { x with fetched := x.fetched.drop 1 }

/-! ### What passes its check -/

theorem andThen_ok {ε α β : Type} {r : State × Except ε α} {f : State → α → State × Except ε β} {p : State} {b : β}
    (h : andThen r f = (p, .ok b)) : ∃ u a, r = (u, .ok a) ∧ f u a = (p, .ok b) := by
  obtain ⟨u, e | a⟩ := r
  · cases h
  · exact ⟨u, a, rfl, h⟩

/-- A check that passes has passed its first test. -/
theorem ok_of_test {α : Type} {c : Prop} [Decidable c] {u p : State} {e : AccErr} {rest : State × Except AccErr α} {a : α}
    (h : (if c then (u, .error e) else rest) = (p, .ok a)) : rest = (p, .ok a) := by
  split at h
  · cases h
  · exact h

/-- What the check of a task that is issued leaves: reads through the window buffers, then at most one count, not of issued
tasks. -/
def ReadsAndCounts (s p : State) : Prop :=
  ∃ u, Touch 0x10881c003c s u ∧ (∀ t, ctr u (blkSch t) 0x0128 = ctr s (blkSch t) 0x0128)
    ∧ (p = u ∨ ∃ t off, off ≠ 0x0128 ∧ p = addCtr u (blkSch t) off)

theorem ReadsAndCounts.of_touch {s u p : State} (h : Touch 0x10881c0034 s u)
    (hp : p = u ∨ ∃ t off, off ≠ 0x0128 ∧ p = addCtr u (blkSch t) off) : ReadsAndCounts s p :=
  ⟨u, h.weaken rfl, fun t => h.ctr_sch rfl t _, hp⟩

theorem ReadsAndCounts.touch {s p : State} (h : ReadsAndCounts s p) : Touch 0x10881c003c s p := by
  obtain ⟨u, hu, -, rfl | ⟨t, off, -, rfl⟩⟩ := h
  · exact hu
  · exact Touch.step (addCtr_touch_sch ..) rfl hu

theorem ReadsAndCounts.ctr {s p : State} (h : ReadsAndCounts s p) (t : Tile) :
    ctr p (blkSch t) 0x0128 = ctr s (blkSch t) 0x0128 := by
  obtain ⟨u, -, hu, rfl | ⟨t', off, hoff, rfl⟩⟩ := h
  · exact hu t
  · rw [ctr_addCtr_of_ne _ _ _ (Ne.symm hoff), hu]

/-- Capacities that suffice are not recorded (R189). -/
theorem loopCapacity_ok {s p : State} {t : Task} {d : LoopBody} {r : Nat × Nat}
    (h : loopCapacity s t d = (p, .ok r)) : p = s := by
  unfold loopCapacity at h
  split at h
  · cases h
  · dsimp only at h
    split at h
    · cases h
    · cases ok_of_test (ok_of_test (ok_of_test (ok_of_test h)))
      rfl

theorem loopChecks_ok {s p : State} {t : Task} {body : List Byte} {r : Nat × Nat}
    (h : loopChecks s t body = (p, .ok r)) : p = s := by
  unfold loopChecks at h
  dsimp only at h
  exact loopCapacity_ok (ok_of_test (ok_of_test (ok_of_test h)))

theorem countLoop_counts (s : State) (t : Task) (d : LoopBody) (i : Nat) :
    countLoop s t d i = s ∨ ∃ u off, off ≠ 0x0128 ∧ countLoop s t d i = addCtr s (blkSch u) off := by
  unfold countLoop
  split
  · exact .inr ⟨_, _, by decide, rfl⟩
  · split
    · exact .inr ⟨_, _, by decide, rfl⟩
    · exact .inl rfl

/-- Capacities that suffice are not recorded (R262). -/
theorem chainCapacity_ok {s p : State} {t : Task} {b : ChainBody} {w n : Nat}
    (h : chainCapacity s t b w = (p, .ok n)) : p = s := by
  unfold chainCapacity at h
  dsimp only at h
  cases ok_of_test (ok_of_test (ok_of_test (ok_of_test h)))
  rfl

theorem chainChecks_ok {s p : State} {t : Task} {x : ChainWork} {n : Nat} (h : chainChecks s t x = (p, .ok n)) : p = s := by
  unfold chainChecks at h
  dsimp only at h
  have h := ok_of_test (ok_of_test (ok_of_test h))
  split at h
  · split at h
    · cases h
    · exact chainCapacity_ok h
  · exact chainCapacity_ok h

theorem stageLoopChecks_ok {s p : State} {t : Task} {r : Nat × Nat} (h : stageLoopChecks s t = (p, .ok r)) : p = s := by
  unfold stageLoopChecks at h
  split at h
  · exact loopChecks_ok h
  · cases h; rfl

theorem checkLoop_readsAndCounts {s p : State} {t x : Task} (h : checkLoop s t = (p, .ok x)) : ReadsAndCounts s p := by
  obtain ⟨u, t', hfetch, hrest⟩ := andThen_ok h
  obtain ⟨v, r, hcheck, hend⟩ := andThen_ok hrest
  cases loopChecks_ok hcheck
  cases hend
  exact .of_touch (Touch.fst hfetch ((fetchBodyPlan_touch ..).weaken rfl)) (countLoop_counts ..)

theorem checkChain_readsAndCounts {s p : State} {t x : Task} (h : checkChain s t = (p, .ok x)) : ReadsAndCounts s p := by
  obtain ⟨u, body, hbody, hrest⟩ := andThen_ok h
  obtain ⟨v, plan, hplan, hrest'⟩ := andThen_ok hrest
  obtain ⟨w, work, hwork, hjudge⟩ := andThen_ok hrest'
  obtain ⟨y, need, hcheck, hend⟩ := andThen_ok (ok_of_test hjudge)
  cases chainChecks_ok hcheck
  cases hend
  refine .of_touch ?_ (.inl rfl)
  exact Touch.step (Touch.fst hwork (fetchChain_touch ..)) rfl (Touch.step (Touch.fst hplan (fetch5_touch ..)) rfl
    (Touch.fst hbody ((fetch5_touch ..).weaken rfl)))

theorem checkStage_readsAndCounts {s p : State} {t x : Task} (h : checkStage s t = (p, .ok x)) : ReadsAndCounts s p := by
  obtain ⟨u, t', hfetch, hjudge⟩ := andThen_ok h
  have hu : Touch 0x10881c0034 s u := Touch.fst hfetch ((fetchStage_touch ..).weaken rfl)
  obtain ⟨v, r, hcheck, hend⟩ := andThen_ok (ok_of_test (ok_of_test hjudge))
  cases stageLoopChecks_ok hcheck
  cases ok_of_test (ok_of_test hend)
  refine .of_touch hu ?_
  split
  · exact countLoop_counts ..
  · exact .inl rfl

theorem checkColl_readsAndCounts {s p : State} {t x : Task} (h : checkColl s t = (p, .ok x)) : ReadsAndCounts s p :=
  .of_touch (Touch.fst h ((checkColl_touch ..).weaken rfl)) (.inl rfl)

theorem checkCat_readsAndCounts {s p : State} {t x : Task} (h : checkCat s t = (p, .ok x)) : ReadsAndCounts s p :=
  .of_touch (Touch.fst h ((checkCat_touch ..).weaken rfl)) (.inl rfl)

end Sys2Proof.Machine
end
section
/-!
PROOF. Tasks that are issued, and tasks that end at issue (R136, R137, R139, R145, R481).
-/

namespace Sys2Proof

open Sys2Proof.Machine

/-! ### A task that passes every check -/

section
variable {s p : State} {f : Func} {r kind sub : Nat} {k : KindCheck} {x : Task}

theorem Issues.check_eq (h : Issues s f r kind sub k p x) :
    ∃ t, t.id = s.nextTask ∧ t.func = f ∧ k (entryTaken s f r) t = (p, .ok x) := by
  obtain ⟨e, sqHead, -, -, -, -, -, -, hk⟩ := h
  exact ⟨_, rfl, rfl, hk⟩

/-- What stands at a ring does not depend on what the last command waited for. -/
theorem Issues.of_heldAt (h : Issues s f r kind sub k p x) : Issues { s with heldAt := none } f r kind sub k p x := h

theorem Issues.beginTask_eq (h : Issues s f r kind sub k p x) (hfree : (acceptTask p x).heldAt = none) :
    beginTask s f r kind sub k = acceptTask p x := by
  obtain ⟨e, sqHead, hready, hkind, hne, hsub, hf, hcommon, hk⟩ := h
  have hissue := issueTask_passed (s := takeEntry { s with heldAt := none } f r)
    (t := newTask { s with heldAt := none } f r e sqHead) hf hcommon hk
  rw [← hissue] at hfree ⊢
  exact beginTask_of_ready k hready hkind hne hsub hfree

end

/-- The rows of the operation table whose tasks wait for cores, with KIND, SUB and the steps 5 to 7 of their check (R130). -/
def taskRows (f : Func) (r : Fin 64) : List (Instr × Nat × Nat × KindCheck) :=
  [(.loopTask f r, 1, 0, checkLoop), (.chainTaskForward f r, 2, 0, checkChain), (.chainTaskBackward f r, 2, 1, checkChain),
    (.streamStage f r, 3, 0, checkStage), (.collectiveBroadcast f r, 4, 0, checkColl), (.collectiveReduce f r, 4, 1, checkColl),
    (.catalogueQuery f r, 5, 0, checkCat), (.catalogueMerge f r, 5, 1, checkCat)]

section
variable {s p : State} {f : Func} {r : Fin 64} {row : Instr × Nat × Nat × KindCheck} {x : Task}

theorem exec_taskRow (h : row ∈ taskRows f r) (s : State) :
    exec row.1 s = .next (beginTask s f r.val row.2.1 row.2.2.1 row.2.2.2) := by
  simp only [taskRows, List.mem_cons, List.not_mem_nil, or_false] at h
  rcases h with rfl | rfl | rfl | rfl | rfl | rfl | rfl | rfl <;> rfl

theorem kind_ne_zero_of_taskRow (h : row ∈ taskRows f r) : row.2.1 ≠ 0 := by
  simp only [taskRows, List.mem_cons, List.not_mem_nil, or_false] at h
  rcases h with rfl | rfl | rfl | rfl | rfl | rfl | rfl | rfl <;> exact nofun

/-- R136: the check of a task row reads and counts, and leaves the task's number. -/
theorem check_of_taskRow {t : Task} (h : row ∈ taskRows f r) (hk : row.2.2.2 s t = (p, .ok x)) :
    ReadsAndCounts s p ∧ x.id = t.id := by
  simp only [taskRows, List.mem_cons, List.not_mem_nil, or_false] at h
  rcases h with rfl | rfl | rfl | rfl | rfl | rfl | rfl | rfl
  · exact ⟨checkLoop_readsAndCounts hk, checkLoop_keepsId hk⟩
  · exact ⟨checkChain_readsAndCounts hk, checkChain_keepsId hk⟩
  · exact ⟨checkChain_readsAndCounts hk, checkChain_keepsId hk⟩
  · exact ⟨checkStage_readsAndCounts hk, checkStage_keepsId hk⟩
  · exact ⟨checkColl_readsAndCounts hk, checkColl_keepsId hk⟩
  · exact ⟨checkColl_readsAndCounts hk, checkColl_keepsId hk⟩
  · exact ⟨checkCat_readsAndCounts hk, checkCat_keepsId hk⟩
  · exact ⟨checkCat_readsAndCounts hk, checkCat_keepsId hk⟩

end

/-- What a check that is passed may change, with the entry taken before it. -/
theorem touch_issued {s p : State} {f : Func} {r : Nat} (h : ReadsAndCounts (entryTaken s f r) p) :
    Touch 0x14883c023c s p :=
  Touch.step h.touch rfl ((entryTaken_touch ..).weaken rfl)

/-- Settles O15: the check reads and counts, and what follows it appends the task, counts it and touches nothing else. -/
theorem taskIssued : Obligations.TaskIssued := by
  unfold Obligations.TaskIssued
  intro s f r row p x hrow hmem hissue hwork
  have hrow : row ∈ taskRows f r := hrow
  obtain ⟨t, hid, -, hk⟩ := hissue.check_eq
  obtain ⟨hreads, hx⟩ := check_of_taskRow hrow hk
  have hx : x.id = s.nextTask := hx.trans hid
  have hp := touch_issued hreads
  have hnext : p.nextTask = s.nextTask + 1 := hreads.touch.eq .nextTask rfl
  have hlt : x.id < p.nextTask := by omega
  have ha := acceptTask_touch_of_work hwork hlt
  have hfree : (acceptTask p x).heldAt = none := (ha.eq .heldAt rfl).trans (hreads.touch.eq .heldAt rfl)
  have hring : ∀ g q, ringOf (acceptTask p x) g q = ringOf (entryTaken s f r) g q := fun g q =>
    (ha.ringOf rfl g q).trans (hreads.touch.ringOf rfl g q)
  refine ⟨acceptTask p x, ?_, ?_, hx, (ha.eq .nextTask rfl).trans hnext, ?_, ?_, ?_, ?_⟩
  · rw [exec_taskRow hrow, hissue.beginTask_eq hfree]
  · rw [tasks_acceptTask hwork]
    exact congrArg (· ++ [x]) (hreads.touch.eq .tasks rfl)
  · rw [hring, ringOf_entryTaken, if_pos rfl]
  · intro g q hne
    rw [hring, ringOf_entryTaken, if_neg hne]
  · rw [ctr_acceptTask hwork, hreads.ctr, (entryTaken_touch s f r).ctr_sch rfl]
  · refine (Touch.step ha rfl (hp.weaken (m := 0x14883c033c) rfl)).onlyChanges hmem fun q => ?_
    cases q <;> decide

/-! ### A task that ends at issue -/

/-- R143: bits 30 and 29 of the completion record of a task that ends with cause 0 and had nothing to do. -/
theorem recordImage_committed_zeroWork (s : State) {t : Task} (h : t.zeroWork = true) :
    bit (leNat (recordImage s t 0)) 29 = true ∧ bit (leNat (recordImage s t 0)) 30 = true := by
  have hflags : t.flags.toNat < 32 := t.flags.isLt
  have hplan := b2n_lt_two t.planv
  rw [recordImage, leNat_leBytes, packN, h]
  simp only [List.foldl_cons, List.foldl_nil, BitVec.toNat_ofNat, beq_self_eq_true, b2n, if_true, Nat.zero_mod, bit,
    beq_iff_eq]
  simp only [b2n] at hplan
  generalize (tickOf s t.wing).toNat = a
  generalize t.issueTick.toNat = b
  generalize coreTicks s t = c
  generalize entryTag t.hdr = d
  generalize (if t.planv = true then 1 else 0) = v at *
  constructor <;> omega

/-- R481: a front entry of a task row ends at issue as its check says. -/
theorem exec_taskRow_failIssue {s : State} {f : Func} {r : Fin 64} {row : Instr × Nat × Nat × KindCheck} {e : Entry}
    {sqHead c : Nat} (hrow : row ∈ taskRows f r) (hready : readyEntry s f r.val = some (e, sqHead))
    (hkind : entryKind e = row.2.1) (hsub : hSub e = row.2.2.1)
    (hc : (f = .pf0 ∧ c = 0x0155) ∨
      (f ≠ .pf0 ∧ commonFault (entryTaken s f r) (newTask { s with heldAt := none } f r e sqHead) = some c))
    (hfree : (failIssue (entryTaken s f r) (newTask { s with heldAt := none } f r e sqHead)
      { cause := c, addr := 0 }).heldAt = none) :
    exec row.1 s = .next (failIssue (entryTaken s f r) (newTask { s with heldAt := none } f r e sqHead)
      { cause := c, addr := 0 }) := by
  have hissue : issueTask (takeEntry { s with heldAt := none } f r) (newTask { s with heldAt := none } f r e sqHead)
      row.2.2.2 = failIssue (entryTaken s f r) (newTask { s with heldAt := none } f r e sqHead)
        { cause := c, addr := 0 } := by
    rcases hc with ⟨hf, rfl⟩ | ⟨hf, hcommon⟩
    · exact issueTask_pf0 _ hf
    · exact issueTask_of_commonFault _ hf hcommon
  rw [← hissue] at hfree ⊢
  rw [exec_taskRow hrow, beginTask_of_ready _ hready hkind (kind_ne_zero_of_taskRow hrow) hsub hfree]

/-- A row without its check is a row. -/
theorem exists_taskRow {f : Func} {r : Fin 64} {row : Instr × Nat × Nat}
    (h : row ∈ (taskRows f r).map fun w => (w.1, w.2.1, w.2.2.1)) :
    ∃ k, (row.1, row.2.1, row.2.2, k) ∈ taskRows f r := by
  obtain ⟨w, hw, rfl⟩ := List.mem_map.1 h
  exact ⟨w.2.2.2, hw⟩

/-- Settles O16: zero work goes from the check straight to the end of the task, and each of the causes is the first that
`issueTask` and `commonFault` come to. -/
theorem taskEndsAtIssue : Obligations.TaskEndsAtIssue := by
  unfold Obligations.TaskEndsAtIssue
  constructor
  · intro s f r row p x hrow hissue hzero hfree
    have hrow : row ∈ taskRows f r := List.mem_of_mem_take (i := 4) hrow
    rw [← acceptTask_of_zeroWork hzero] at hfree ⊢
    exact ⟨by rw [exec_taskRow hrow, hissue.beginTask_eq hfree], leBytes_length ..,
      recordImage_committed_zeroWork p hzero⟩
  · intro s f r row e sqHead hrow hready hkind hsub a x c hc hfree
    obtain ⟨k, hk⟩ := exists_taskRow hrow
    refine exec_taskRow_failIssue hk hready hkind hsub ?_ hfree
    rcases hc with hpf0 | ⟨hf, hhdr, rfl⟩ | ⟨hf, hhdr, hcores, rfl⟩ | ⟨hf, hhdr, hcores, hrect, rfl⟩ |
      ⟨hf, hhdr, hcores, hrect, halloc, rfl⟩
    · exact .inl hpf0
    · exact .inr ⟨hf, commonFault_first (.inl ⟨hhdr, rfl⟩)⟩
    · exact .inr ⟨hf, commonFault_first (.inr (.inl ⟨hhdr, hcores, rfl⟩))⟩
    · exact .inr ⟨hf, commonFault_first (.inr (.inr (.inl ⟨hhdr, hcores, hrect, rfl⟩)))⟩
    · exact .inr ⟨hf, commonFault_first (.inr (.inr (.inr ⟨hhdr, hcores, hrect, halloc, rfl⟩)))⟩

end Sys2Proof
end
section
/-!
PROOF. Moves: one that passes its check is issued, dispatched at once and performed in the same step (R133, R137, R141).
-/

namespace Sys2Proof

open Sys2Proof.Machine

/-! ### A move is issued -/

/-- The checks of the moves (R133, R114 to R117). -/
def moveChecks : List KindCheck := [checkRange, checkCompress, checkPlain, checkStageLoad, checkScheduleStart]

/-- A move's check records nothing: it makes a move of the task, which may have nothing to do (R137). -/
theorem moveCheck_ok {k : KindCheck} {s p : State} {t x : Task} (h : k ∈ moveChecks) (hk : k s t = (p, .ok x)) :
    p = s ∧ ∃ z, x = { moveTask t with zeroWork := z } := by
  simp only [moveChecks, List.mem_cons, List.not_mem_nil, or_false] at h
  rcases h with rfl | rfl | rfl | rfl | rfl
  · cases hk
    exact ⟨rfl, _, rfl⟩
  · unfold checkCompress at hk
    split at hk
    · cases hk
    · split at hk <;> cases hk
      exact ⟨rfl, _, rfl⟩
  · cases hk
    exact ⟨rfl, _, rfl⟩
  · unfold checkStageLoad at hk
    cases ok_of_test (ok_of_test hk)
    exact ⟨rfl, _, rfl⟩
  · unfold checkScheduleStart at hk
    cases ok_of_test hk
    exact ⟨rfl, _, rfl⟩

section
variable {s p : State} {f : Func} {r sub : Nat} {k : KindCheck} {x : Task}

theorem Issues.move_eq (h : Issues s f r 6 sub k p x) (hk : k ∈ moveChecks) :
    p = entryTaken s f r ∧ ∃ t z, t.id = s.nextTask ∧ x = { moveTask t with zeroWork := z } := by
  obtain ⟨t, hid, -, hcheck⟩ := h.check_eq
  obtain ⟨hp, z, hx⟩ := moveCheck_ok hk hcheck
  exact ⟨hp, t, z, hid, hx⟩

theorem Issues.move_id (h : Issues s f r 6 sub k p x) (hk : k ∈ moveChecks) : x.id = s.nextTask := by
  obtain ⟨-, t, z, hid, rfl⟩ := h.move_eq hk
  exact hid

/-- What the issue of a move may change once its entry is taken. -/
theorem Issues.move_accepted (h : Issues s f r 6 sub k p x) (hk : k ∈ moveChecks) (hwork : x.zeroWork = false) :
    Touch 0x801c0118 (entryTaken s f r) (acceptTask p x) := by
  have hid := h.move_id hk
  obtain ⟨rfl, -⟩ := h.move_eq hk
  exact acceptTask_touch_of_work hwork (by rw [hid]; exact Nat.lt_succ_self _)

theorem Issues.move_heldAt (h : Issues s f r 6 sub k p x) (hk : k ∈ moveChecks) (hwork : x.zeroWork = false) :
    (acceptTask p x).heldAt = none := (h.move_accepted hk hwork).eq .heldAt rfl

theorem Issues.move_nextTask (h : Issues s f r 6 sub k p x) (hk : k ∈ moveChecks) (hwork : x.zeroWork = false) :
    (acceptTask p x).nextTask = s.nextTask + 1 := (h.move_accepted hk hwork).eq .nextTask rfl

theorem Issues.move_tasks (h : Issues s f r 6 sub k p x) (hk : k ∈ moveChecks) (hwork : x.zeroWork = false) :
    (acceptTask p x).tasks = s.tasks ++ [x] := by
  obtain ⟨rfl, -⟩ := h.move_eq hk
  exact tasks_acceptTask hwork

/-- R133: a move that passes its check has its effect on the state with the move issued. -/
theorem Issues.beginMove_eq (h : Issues s f r 6 sub k p x) (hk : k ∈ moveChecks) (hn : TasksNumbered s)
    (hwork : x.zeroWork = false) (effect : State → Task → State) :
    beginMove s f r sub k effect = orWait s fun _ => effect (acceptTask p x) x := by
  have hbegin := h.of_heldAt.beginTask_eq (h.move_heldAt hk hwork)
  have hfound : taskOf (acceptTask p x) s.nextTask = some x :=
    taskOf_joined hn (h.move_id hk) (h.move_tasks hk hwork)
  have hnext : (acceptTask p x).nextTask ≠ s.nextTask := by rw [h.move_nextTask hk hwork]; omega
  unfold beginMove orWait
  dsimp only
  rw [hbegin, hfound]
  dsimp only
  rw [if_neg hnext]

/-- A move whose effect waits for nothing. -/
theorem Issues.beginMove_of_free (h : Issues s f r 6 sub k p x) (hk : k ∈ moveChecks) (hn : TasksNumbered s)
    (hwork : x.zeroWork = false) {effect : State → Task → State} {u : State} (hu : effect (acceptTask p x) x = u)
    (hfree : u.heldAt = none) : beginMove s f r sub k effect = u := by
  rw [h.beginMove_eq hk hn hwork]
  exact orWait_eq hu hfree

end

theorem moveDone_onlyChanges (w : State) (id : Nat) : OnlyChanges [.tasks] w (moveDone w id) :=
  (moveDone_touch w id).onlyChanges_of_cells rfl fun q => by cases q <;> decide

theorem mem_tasks_moveDone {w : State} {y : Task} (id : Nat) (h : y ∈ w.tasks) :
    (if y.id = id then { y with work := .move true false } else y) ∈ (moveDone w id).tasks :=
  List.mem_map.2 ⟨y, h, by simp only [beq_iff_eq]⟩

/-- Settles O19: a move's check records nothing, so the issued move differs from the state with its entry taken in what
`acceptTask` does; a done move is one task changed. -/
theorem moveIssuedAndDone : Obligations.MoveIssuedAndDone := by
  unfold Obligations.MoveIssuedAndDone
  intro s f r sub k p x _ hk hissue hwork
  have hk : k ∈ moveChecks := hk
  have haccept := hissue.move_accepted hk hwork
  have htouch : Touch 0x4803c0318 s (acceptTask p x) :=
    Touch.step haccept rfl ((entryTaken_touch ..).weaken rfl)
  have htasks := hissue.move_tasks hk hwork
  have hid := hissue.move_id hk
  obtain ⟨rfl, t, z, -, rfl⟩ := hissue.move_eq hk
  refine ⟨htasks, hid, rfl, rfl, rfl, ?_, htouch.onlyChanges_of_cells rfl fun q => ?_, fun w =>
    ⟨moveDone_onlyChanges w _, fun y hy => mem_tasks_moveDone _ hy⟩⟩
  · rw [haccept.ringOf rfl, ringOf_entryTaken, if_pos rfl]
  · cases q <;> decide

/-! ### Copies -/

/-- R133: of the bytes that a copy writes at DST, those that overlap the source are free and the others are the source's. -/
theorem copyBytes_spec (s : State) (src dst : Nat) (bs : List Byte) :
    (copyBytes s src dst bs).1.length = bs.length
      ∧ ∀ i, i < bs.length → (dst + i < src ∨ src + bs.length ≤ dst + i) → (copyBytes s src dst bs).1[i]? = bs[i]? := by
  unfold copyBytes
  dsimp only
  split
  · rename_i hover
    have hfree : (freeBytes s (min src dst + bs.length - max src dst)).1.length =
        min src dst + bs.length - max src dst := by simp [freeBytes]
    refine ⟨?_, fun i hi hout => ?_⟩
    · simp only [List.length_append, List.length_take, List.length_drop, hfree]
      omega
    · rcases hout with hlow | hhigh
      · rw [List.append_assoc, List.getElem?_append_left (by rw [List.length_take]; omega),
          List.getElem?_take_of_lt (by omega)]
      · rw [List.getElem?_append_right (by simp only [List.length_append, List.length_take, hfree]; omega),
          List.getElem?_drop]
        simp only [List.length_append, List.length_take, hfree]
        exact congrArg (bs[·]?) (by omega)
  · exact ⟨rfl, fun _ _ _ => rfl⟩

section
variable {a b : State} {x : Task}

theorem runCopy_unread {e : AccErr} (h : loadVa a (taskCtx a x) (mSrc x.hdr) (mCount x.hdr) = (b, .error e)) :
    runCopy a x = faultTask b x.id x.part e .stationmaster := by
  simp [runCopy, h]

theorem runCopy_saved {bs : List Byte} {w : List Byte × State} {u : State × Option AccErr}
    (h : loadVa a (taskCtx a x) (mSrc x.hdr) (mCount x.hdr) = (b, .ok bs))
    (hw : copyBytes b (mSrc x.hdr) (mDst x.hdr) bs = w) (hu : saveVa w.2 (taskCtx a x) (mDst x.hdr) w.1 = u) :
    (u.2 = none → runCopy a x = moveDone u.1 x.id)
      ∧ ∀ e, u.2 = some e → runCopy a x = faultTask u.1 x.id x.part e .stationmaster := by
  obtain ⟨u, o⟩ := u
  refine ⟨fun ho => ?_, fun e ho => ?_⟩
  · cases ho; simp [runCopy, h, hw, hu]
  · cases ho; simp [runCopy, h, hw, hu]

theorem runCompress_read {page : List Byte} {w : State × Option AccErr}
    (h : loadVa a (taskCtx a x) (mSrc x.hdr / 0x10000 * 0x10000) 0x10000 = (b, .ok page))
    (hw : saveVa b (taskCtx a x) (mDst x.hdr) (Config.compressedImage page) = w) :
    runCompress a x =
      if isImageOf (Config.compressedImage page) page then
        match w.2 with
        | none => moveDone (w.1.modMem x.home fun m => { m with sectors := imageSectors (Config.compressedImage page) }) x.id
        | some e => faultTask w.1 x.id x.part e .stationmaster
      else moveDone (b.modMem x.home fun m => { m with sectors := 0 }) x.id := by
  obtain ⟨w, o⟩ := w
  by_cases himg : isImageOf (Config.compressedImage page) page = true
  · cases o <;> simp [runCompress, h, himg, hw, compressDone]
  · simp [runCompress, h, himg, compressDone]

theorem runDecompress_read {page : List Byte} {w : State × Option AccErr}
    (h : decompressSource a (taskCtx a x) (mSrc x.hdr) = (b, .ok page))
    (hw : saveVa b (taskCtx a x) (mDst x.hdr) page = w) :
    (w.2 = none → runDecompress a x = moveDone w.1 x.id)
      ∧ ∀ e, w.2 = some e → runDecompress a x = faultTask w.1 x.id x.part e .stationmaster := by
  obtain ⟨w, o⟩ := w
  refine ⟨fun ho => ?_, fun e ho => ?_⟩
  · cases ho; simp [runDecompress, h, hw]
  · cases ho; simp [runDecompress, h, hw]

end

/-- Settles O17: each move is `beginMove_eq` with what its effect makes of the read and the write. -/
theorem copyingMovesPerform : Obligations.CopyingMovesPerform := by
  unfold Obligations.CopyingMovesPerform
  constructor
  · intro s f r p x hn hwork hissue a c
    have hk : checkRange ∈ moveChecks := by simp [moveChecks]
    have ha : a.heldAt = none := hissue.move_heldAt hk hwork
    constructor
    · intro b bs hload w u
      obtain ⟨hlen, hkept⟩ := copyBytes_spec b (mSrc x.hdr) (mDst x.hdr) bs
      obtain ⟨hdone, hfault⟩ := runCopy_saved hload (rfl : _ = w) (rfl : _ = u)
      refine ⟨hlen, hkept, fun hu => ?_, fun e hu hfree => ?_⟩
      · have hheld : (moveDone u.1 x.id).heldAt = none :=
          ((saveVa_touch ..).eq .heldAt rfl).trans (((copyBytes_touch ..).eq .heldAt rfl).trans
            (((Touch.fst hload (loadVa_touch ..)).eq .heldAt rfl).trans ha))
        exact congrArg _ (hissue.beginMove_of_free hk hn hwork (hdone hu) hheld)
      · exact congrArg _ (hissue.beginMove_of_free hk hn hwork (hfault e hu) hfree)
    · intro b e hload hfree
      exact congrArg _ (hissue.beginMove_of_free hk hn hwork (runCopy_unread hload) hfree)
  · intro s f r p x hn hwork a c
    constructor
    · intro b page hissue hload img w u
      have hk : checkCompress ∈ moveChecks := by simp [moveChecks]
      have hrun : runCompress a x = u := runCompress_read hload rfl
      have hbegin := hissue.beginMove_eq hk hn hwork runCompress
      rw [hrun] at hbegin
      exact congrArg _ hbegin
    · intro b page hissue hload w
      have hk : checkPlain ∈ moveChecks := by simp [moveChecks]
      have ha : a.heldAt = none := hissue.move_heldAt hk hwork
      obtain ⟨hdone, hfault⟩ := runDecompress_read hload (rfl : _ = w)
      refine ⟨fun hw => ?_, fun e hw hfree => ?_⟩
      · have hheld : (moveDone w.1 x.id).heldAt = none :=
          ((saveVa_touch ..).eq .heldAt rfl).trans (((Touch.fst hload (decompressSource_touch ..)).eq .heldAt rfl).trans ha)
        exact congrArg _ (hissue.beginMove_of_free hk hn hwork (hdone hw) hheld)
      · exact congrArg _ (hissue.beginMove_of_free hk hn hwork (hfault e hw) hfree)

end Sys2Proof
end
section
/-!
PROOF. A waiting task is dispatched (R134, R141, R155, R179, R184).
-/

namespace Sys2Proof

open Sys2Proof.Machine

/-- A task as its dispatch grants it tiles and cores (R141). -/
def dispatchedTask (s : State) (x : Task) (tiles : List Tile) : Task :=
  { x with
    tiles := tiles, cores := coresOn x.hdr tiles, dispatchTick := tickOf s x.wing, status := .running
    phases := (List.range (coresOn x.hdr tiles).length).map fun q => (q, firstPhase x) }

/-- The state in which a dispatched task's units start: its frames are reserved and its clusters woken (R141, R184). -/
def grantedState (s : State) (x : Task) (tiles : List Tile) : State :=
  wakeCores (tiles.foldl (fun s z => reserveStaging s z x.part x.id x.staging)
    (s.modTask x.id fun _ => dispatchedTask s x tiles)) (dispatchedTask s x tiles).cores

theorem dispatchTask_eq (s : State) (x : Task) (tiles : List Tile) :
    dispatchTask s x tiles = startWork (grantedState s x tiles) (dispatchedTask s x tiles) := rfl

/-- Beside the task, a grant changes frames and clusters. -/
theorem grantedState_touch (s : State) (x : Task) (tiles : List Tile) :
    Touch 0x8000010 (s.modTask x.id fun _ => dispatchedTask s x tiles) (grantedState s x tiles) :=
  Touch.step (wakeCores_touch ..) rfl
    (Touch.foldl (Touch.refl _) fun _ _ hy => Touch.step (reserveStaging_touch ..) rfl hy)

section
variable {s : State} {x : Task} {id : Nat} {t : Tile} {tiles : List Tile}

theorem taskOf_grantedState_self (h : taskOf s x.id = some x) :
    taskOf (grantedState s x tiles) x.id = some (dispatchedTask s x tiles) := by
  rw [(grantedState_touch ..).taskOf rfl]
  exact taskOf_modTask_self (fun _ _ => rfl) h

theorem taskOf_grantedState_of_ne {i : Nat} (h : i ≠ x.id) : taskOf (grantedState s x tiles) i = taskOf s i := by
  rw [(grantedState_touch ..).taskOf rfl]
  exact taskOf_modTask_of_ne s (fun _ _ => rfl) h

theorem exec_taskDispatch (hx : taskOf s id = some x) (hstatus : x.status = .waiting)
    (htiles : dispatchTiles { s with heldAt := none } x t = some tiles) (hup : mainUp s = true)
    (hroom : roomOn { s with heldAt := none } x tiles = true) (hrank : outranked { s with heldAt := none } x tiles = false)
    (hfree : (dispatchTask { s with heldAt := none } x tiles).heldAt = none) :
    exec (.taskDispatch id t) s = .next (dispatchTask { s with heldAt := none } x tiles) := by
  have hx : taskOf { s with heldAt := none } id = some x := hx
  have hup : mainUp { s with heldAt := none } = true := hup
  refine congrArg Host.Outcome.next (orWait_eq ?_ hfree)
  simp only [hx, hstatus, htiles, hup, hroom, hrank, Bool.not_false, Bool.and_true, if_true]

end

/-! ### A loop task starts -/

theorem startLoop_filled {s z : State} {t : Task} {l m : LoopWork} {w : Table CoreWalk}
    (hw : startWalks (parseLoop t.body) ((parseLoop t.body).bucket l.bucket) t.cores.length = w)
    (h : foldErr (fillRank t) s { l with walks := w }
      (w.flatMap fun q => (ownFills (parseLoop t.body)).map fun o => (q.1, o)) = (z, .ok m)) : startLoop s t l = putLoop z t.id m := by
  have hfills : (w.foldr (fun q fs => (ownFills (parseLoop t.body)).map (fun o => (q.1, o)) ++ fs) []) =
      w.flatMap fun q => (ownFills (parseLoop t.body)).map fun o => (q.1, o) := by
    simp [List.flatMap_def]
  simp only [startLoop, hw, hfills, h]

/-- Settles O20: a waiting task with room is dispatched, and a dispatch is a grant, which changes the task, frames and
clusters, and then the start of its units. -/
theorem taskDispatched : Obligations.TaskDispatched := by
  unfold Obligations.TaskDispatched
  intro s id t x tiles a hx hstatus htiles hup hroom hrank y g b
  obtain rfl : x.id = id := id_of_taskOf hx
  have hb : Touch 0x8000010 (a.modTask x.id fun _ => y) b := grantedState_touch a x tiles
  have hfree : b.heldAt = none := hb.eq .heldAt rfl
  have hexec : (startWork b y).heldAt = none → exec (.taskDispatch x.id t) s = .next (startWork b y) :=
    exec_taskDispatch hx hstatus htiles hup hroom hrank
  refine ⟨hexec, taskOf_grantedState_self hx, fun i hi => taskOf_grantedState_of_ne hi, ?_, ?_⟩
  · have hs : Touch 0x408000110 s b :=
      Touch.step hb rfl (Touch.step (State_modTask_touch _ _ _ fun _ _ => rfl) rfl ((touch_heldAt s).weaken rfl))
    exact hs.onlyChanges_of_cells rfl fun q => by cases q <;> decide
  · intro l m z hwork d w hfill
    have hstart : startWork b y = putLoop z x.id m := by
      have hy : y.work = .loop l := hwork
      rw [startWork, hy]
      exact startLoop_filled rfl hfill
    have hz : Touch 0x38881c011c b z := Touch.fst hfill (foldErr_touch fun _ _ _ => fillRank_touch ..)
    rw [← hstart]
    refine hexec ?_
    rw [hstart]
    exact ((putLoop_touch ..).eq .heldAt rfl).trans ((hz.eq .heldAt rfl).trans hfree)

end Sys2Proof
end
section
/-!
PROOF. The end of a task completes its transfers (R79, R141), and their bytes land in its cores' windows: memory is not always
as it was.
-/

namespace Sys2Proof

open Sys2Proof.Machine

/-- A COPY stage (MODE 1) on core 0 of E0 whose iterations have ended; it keeps no record and pins nothing. -/
def endedCopyStage : Task :=
  { id := 0, func := .vf 0, ring := 0, part := 0, home := .e0, hdr := BitVec.ofNat 512 (3 * 2 ^ 32), body := [1], issueTick := 0
    status := .running, tiles := [.e0], cores := [0], work := .stage { ended := true } }

/-- A transfer of that stage into the first byte of bank 0 of core 0, not complete yet (R79). -/
def lastTransfer : CoreTransfer := { core := 0, task := 0, write := true, ranges := [(0, 1)], data := [(0, [1])] }

def copyStageState : State :=
  { State.reset with
    tasks := [endedCopyStage]
    sch := State.reset.sch.modify .e0 fun y => { y with transfers := [lastTransfer] } }

/-- The state in which the stage has ended. -/
def copyStageEnd : State :=
  finishTask (settleAliases { copyStageState with heldAt := none } endedCopyStage
    (bodiesOf { copyStageState with heldAt := none } endedCopyStage)) endedCopyStage 0

theorem copyStageEnd_heldAt : copyStageEnd.heldAt = none := by decide +kernel

/-- The byte of the transfer has landed at the first address of core 0's window, where there was a 0. -/
theorem transfer_lands_at_end : memByte copyStageEnd.mem 0 ≠ memByte copyStageState.mem 0 := by decide +kernel

/-- Refutes O21: the clause on R141 has memory as it was where the task's destinations, record and pins are none, but the end of
a task completes its outstanding transfers. In `copyStageState` one byte is on its way into core 0; TASK_END stores it. -/
theorem not_taskEndsAndFaults : ¬ Obligations.TaskEndsAndFaults := by
  unfold Obligations.TaskEndsAndFaults
  rintro ⟨hend, -, -⟩
  obtain ⟨hexec, hframe⟩ := hend copyStageState 0 endedCopyStage rfl rfl rfl
  obtain ⟨u, hu, -, -, honly, -⟩ := hframe rfl (by decide +kernel) rfl
  obtain rfl : copyStageEnd = u := Host.Outcome.next.inj ((hexec copyStageEnd_heldAt).symm.trans hu)
  have hsame : StatePart.scratch.same copyStageState copyStageEnd := honly .scratch (by decide)
  exact transfer_lands_at_end (hsame 0 (show 0 < 0xE7000000 by decide))

end Sys2Proof
end

section
/-!
PROOF. The stations of an output tile over one tile step of a walk (R177, R179).
-/

namespace Sys2Proof

open Sys2Proof.Machine

/-- Whether a walk's step finishes an output tile: no drain step, and in an engine task every K index at its last (R179). -/
def FinishesTile (v : WalkEnv) (w : CoreWalk) : Prop :=
  w.step < walkSteps v w
    ∧ (v.d.op = 0 → kAt v.d (walkUnits v.d v.k w.units) (walkDigits v w w.step) true = true)

/-- A walk without the tile whose write is due at its step (R179). -/
def withoutWritten (w : CoreWalk) : CoreWalk := { w with outs := w.outs.filter fun o => o.at_ + 2 != w.step }

theorem mem_outs_withoutWritten {w : CoreWalk} {o : OutTile} :
    o ∈ (withoutWritten w).outs ↔ o ∈ w.outs ∧ o.at_ + 2 ≠ w.step := by
  simp [withoutWritten]

/-- What the step does with its walk when its write goes through. -/
theorem stepWrite_ok {s u : State} {v : WalkEnv} {w : CoreWalk} {x : StepOut} (h : stepWrite s v w = (u, .ok x)) :
    x.walk = withoutWritten w := by
  unfold stepWrite at h
  split at h
  case h_1 hnone =>
    cases h
    have hall : ∀ o ∈ w.outs, (o.at_ + 2 != w.step) = true := by simpa using hnone
    simp only [withoutWritten, List.filter_eq_self.mpr hall]
  case h_2 o hsome =>
    have ho : o.at_ + 2 = w.step := by simpa using List.find?_some hsome
    dsimp only at h
    split at h
    · cases h
    · cases h
      have hsame : ∀ y : OutTile, (y.at_ != o.at_) = (y.at_ + 2 != w.step) := by simp [← ho]
      simp only [withoutWritten, hsame]

theorem stepWork_outs_of_finishes (s : State) {v : WalkEnv} {w : CoreWalk} (h : FinishesTile v w) :
    ∃ vec, (stepWork s v w).2.walk.outs = w.outs ++ [finishedAt v w vec] := by
  obtain ⟨hstep, hlast⟩ := h
  unfold stepWork
  rw [if_neg (Nat.not_le.mpr hstep)]
  split
  case isTrue hop => exact ⟨[], by simp [stepEngine, hlast hop]⟩
  case isFalse => exact ⟨_, rfl⟩

theorem stepWork_outs_of_not_finishes (s : State) {v : WalkEnv} {w : CoreWalk} (h : ¬ FinishesTile v w) :
    (stepWork s v w).2.walk.outs = w.outs := by
  unfold stepWork
  split
  case isTrue => rfl
  case isFalse hstep =>
    obtain ⟨hop, hlast⟩ := Classical.not_imp.mp fun hk => h ⟨Nat.not_le.mp hstep, hk⟩
    rw [if_pos hop]
    simp [stepEngine, hlast]

/-- A step that goes through keeps every tile but the written one and adds what its engine work finishes. -/
theorem walkStep_ok {s u : State} {v : WalkEnv} {w : CoreWalk} {x : StepOut} (h : walkStep s v w = (u, .ok x)) :
    x.walk.step = w.step + 1 ∧ ∃ p, x.walk.outs = (stepWork p v (withoutWritten w)).2.walk.outs := by
  obtain ⟨a, y, hwrite, h⟩ := andThen_ok h
  obtain ⟨p, _, -, h⟩ := andThen_ok h
  obtain ⟨_, _, -, h⟩ := andThen_ok h
  rw [← stepWrite_ok hwrite]
  cases h
  exact ⟨rfl, p, rfl⟩

theorem outs_walkStep_of_finishes {s u : State} {v : WalkEnv} {w : CoreWalk} {x : StepOut}
    (h : walkStep s v w = (u, .ok x)) (hf : FinishesTile v w) :
    ∃ vec, x.walk.outs = (withoutWritten w).outs ++ [finishedAt v w vec] := by
  obtain ⟨-, p, houts⟩ := walkStep_ok h
  rw [houts]
  exact stepWork_outs_of_finishes p (w := withoutWritten w) hf

theorem outs_walkStep_of_not_finishes {s u : State} {v : WalkEnv} {w : CoreWalk} {x : StepOut}
    (h : walkStep s v w = (u, .ok x)) (hf : ¬ FinishesTile v w) : x.walk.outs = (withoutWritten w).outs := by
  obtain ⟨-, p, houts⟩ := walkStep_ok h
  exact houts.trans (stepWork_outs_of_not_finishes p (w := withoutWritten w) hf)

/-- Settles O28: the tiles after a step are those before it without the one written, and one finished at this step when the step
finishes a tile. -/
theorem outputTileStations : Obligations.OutputTileStations := by
  unfold Obligations.OutputTileStations
  intro s u v w x hbefore hdue hone h
  have hstep : x.walk.step = w.step + 1 := (walkStep_ok h).1
  have hkept : ∀ o ∈ (withoutWritten w).outs, o ∈ w.outs ∧ o.at_ < w.step ∧ w.step < o.at_ + 2 := by
    intro o ho
    obtain ⟨hmem, hne⟩ := mem_outs_withoutWritten.mp ho
    exact ⟨hmem, hbefore o hmem, by have := hdue o hmem; omega⟩
  rw [hstep]
  by_cases hf : FinishesTile v w
  case neg =>
    rw [outs_walkStep_of_not_finishes h hf]
    refine ⟨fun o ho => ?_, fun o ho p hp => hone o (hkept o ho).1 p (hkept p hp).1,
      fun o ho hne => mem_outs_withoutWritten.mpr ⟨ho, hne⟩, ?_⟩
    · obtain ⟨-, hlt, hle⟩ := hkept o ho
      omega
    · refine iff_of_false ?_ hf
      rintro ⟨o, ho, heq⟩
      exact Nat.ne_of_lt (hkept o ho).2.1 heq
  case pos =>
    obtain ⟨vec, houts⟩ := outs_walkStep_of_finishes h hf
    simp only [houts, List.mem_append, List.mem_singleton]
    have hat : (finishedAt v w vec).at_ = w.step := rfl
    refine ⟨?_, ?_, fun o ho hne => .inl (mem_outs_withoutWritten.mpr ⟨ho, hne⟩),
      iff_of_true ⟨_, .inr rfl, rfl⟩ hf⟩
    · rintro o (ho | rfl)
      · obtain ⟨-, hlt, hle⟩ := hkept o ho
        omega
      · omega
    · rintro o (ho | rfl) p (hp | rfl) heq
      · exact hone o (hkept o ho).1 p (hkept p hp).1 heq
      · exact absurd heq (Nat.ne_of_lt (hkept o ho).2.1)
      · exact absurd heq.symm (Nat.ne_of_lt (hkept p hp).2.1)
      · rfl

end Sys2Proof
end
section
/-!
PROOF. The control registers of the Porter, the Timetable, the Catalogue and the Junction (R316, R355, R386, R420): what they
read, and what a write of the host does.
-/

namespace Sys2Proof.Machine

/-! ### Which unit a register block belongs to (R98) -/

section
variable (s : State) (t : Tile) (w : Wing) (v : Word32)

@[simp] theorem blockWing_pw : blockWing (blkPw t) = wingOf t := by cases t <;> rfl

@[simp] theorem blockWing_cat : blockWing (blkCat t) = wingOf t := by cases t <;> rfl

@[simp] theorem blockWing_tt : blockWing (blkTt w) = w := by cases w <;> rfl

@[simp] theorem blockWing_jn : blockWing (blkJn w) = w := by cases w <;> rfl

theorem blkPw_lt : blkPw t < 26 := by cases t <;> decide

theorem blkCat_lt : blkCat t < 26 := by cases t <;> decide

theorem blkTt_lt : blkTt w < 26 := by cases w <;> decide

theorem blkJn_lt : blkJn w < 26 := by cases w <;> decide

/-! ### What the control registers read -/

theorem blockReg_pwCtl : blockReg s (blkPw t) 0 = 0 := by cases t <;> rfl

theorem blockReg_catCtl : blockReg s (blkCat t) 0 = 0 := by cases t <;> rfl

theorem blockReg_ttCtl : blockReg s (blkTt w) 0 = 0 := by cases w <;> rfl

theorem blockReg_jnCtl : blockReg s (blkJn w) 0 = if (s.jn.get w).laneSel then 4 else 0 := by
  have hreg : blockReg s (blkJn w) 0 = pack [(b2n (s.jn.get w).laneSel, 2)] := by cases w <;> rfl
  rw [hreg]
  cases (s.jn.get w).laneSel <;> rfl

theorem regRead_blockTarget {b : Nat} (hb : b < 26) (off : BitVec 24) :
    regRead s (blockTarget b off) = blockReg s b off.toNat := by
  simp only [blockTarget, regRead, Fin.ofNat, Nat.mod_eq_of_lt hb]

/-! ### What a write of a control register does -/

theorem writeBlock_pwCtl : writeBlock s (blkPw t) 0 v =
    actBits s v [(1, fun s => flushLab s t), (0, fun s => clearPwFault s t)] := by cases t <;> rfl

theorem writeBlock_catCtl : writeBlock s (blkCat t) 0 v = actBits s v [(0, fun s => clearCatFault s t)] := by cases t <;> rfl

theorem writeBlock_ttCtl : writeBlock s (blkTt w) 0 v = actBits s v [(0, fun s => clearFail s w)] := by cases w <;> rfl

theorem writeBlock_jnCtl : writeBlock s (blkJn w) 0 v =
    actBits (s.modJn w fun j => { j with laneSel := flg v 2 }) v
      [(1, fun s => clearLane s w), (0, fun s => clearJnFault s w)] := by cases w <;> rfl

end

/-- A host write that reaches PF0 and a block's wing is the block's own write (R455). -/
theorem exec_registerWrite_block {s : State} {b : Nat} (hb : b < 26) (hreach : hostReaches s .pf0 = true)
    (hwing : blockWing b = .east ∨ concourseUp s = true) (off : BitVec 24) (v : Word32) :
    exec (.registerWrite (blockTarget b off) v) s = .next (writeBlock s b off.toNat v) := by
  have hexec : exec (.registerWrite (blockTarget b off) v) s =
      .next (hostWriteAt s (blockWing (b % 26)) fun s => writeBlock s (b % 26) off.toNat v) := rfl
  have hheld : ¬ (blockWing b = .west ∧ (!concourseUp s) = true) := by
    rintro ⟨hwest, hdown⟩
    rcases hwing with heast | hup
    · cases heast.symm.trans hwest
    · rw [hup] at hdown
      cases hdown
  rw [hexec, Nat.mod_eq_of_lt hb, hostWriteAt, hreach, if_neg (by decide), if_neg hheld]

@[simp] theorem actBits_nil (s : State) (v : Word32) : actBits s v [] = s := rfl

@[simp] theorem actBits_cons (s : State) (v : Word32) (k : Nat) (f : State → State) (l : List (Nat × (State → State))) :
    actBits s v ((k, f) :: l) = actBits (if flg v k then f s else s) v l := rfl

/-! ### Units changed twice, and look-aside entries dropped -/

theorem PerTile.modify_modify {α : Type} (p : PerTile α) (t : Tile) (f g : α → α) :
    (p.modify t f).modify t g = p.modify t fun x => g (f x) := by cases t <;> rfl

theorem PerWing.modify_modify {α : Type} (p : PerWing α) (w : Wing) (f g : α → α) :
    (p.modify w f).modify w g = p.modify w fun x => g (f x) := by cases w <;> rfl

theorem porter_modPorter (s : State) (t : Tile) (f : Porter → Porter) : (s.modPorter t f).porter = s.porter.modify t f := rfl

theorem setCtrTable_pw (s : State) (t : Tile) (c : Table Word64) :
    setCtrTable s (blkPw t) c = s.modPorter t fun x => { x with ctrs := c } := by cases t <;> rfl

/-- A count of a Porter replaces its counters alone. -/
theorem exists_porter_addCtr (s : State) (t : Tile) (off n : Nat) :
    ∃ c, (addCtr s (blkPw t) off n).porter = s.porter.modify t fun x => { x with ctrs := c } := by
  unfold addCtr
  dsimp only
  rw [setCtrTable_pw]
  split
  · exact ⟨_, raise_porter ..⟩
  · exact ⟨_, rfl⟩

/-- R319: dropping look-aside entries changes them and the Porter's counters. -/
theorem exists_porter_dropLab (s : State) (t : Tile) (p : LabEntry → Bool) :
    ∃ c, (dropLab s t p).porter = s.porter.modify t fun x => { x with lab := x.lab.filter fun e => !p e, ctrs := c } := by
  unfold dropLab
  dsimp only
  split
  · exact ⟨(s.porter.get t).ctrs, by cases t <;> rfl⟩
  · obtain ⟨c, hc⟩ := exists_porter_addCtr (s.modPorter t fun x => { x with lab := x.lab.filter fun e => !p e }) t 0x0218
      ((s.porter.get t).lab.filter p).length
    exact ⟨c, by rw [hc, porter_modPorter, PerTile.modify_modify]⟩

theorem exists_porter_flushLab (s : State) (t : Tile) :
    ∃ c, (flushLab s t).porter = s.porter.modify t fun x => { x with lab := [], ctrs := c } := by
  obtain ⟨c, hc⟩ := exists_porter_dropLab s t fun _ => true
  have hnone : ∀ l : List LabEntry, (l.filter fun _ => !true) = [] := fun _ =>
    List.filter_eq_nil_iff.2 fun _ _ => Bool.false_ne_true
  refine ⟨c, hc.trans (congrArg (s.porter.modify t) (funext fun x => ?_))⟩
  exact congrArg (fun l => { x with lab := l, ctrs := c }) (hnone x.lab)

/-! ### PW_CTL and JN_CTL written -/

/-- R316: what a write of PW_CTL leaves in the Porters. -/
theorem exists_porter_writePwCtl (s : State) (t : Tile) (v : Word32) :
    ∃ c, (writeBlock s (blkPw t) 0 v).porter = s.porter.modify t fun x =>
      { faultInfo := if flg v 0 then 0 else x.faultInfo, faultSeq := if flg v 0 then 0 else x.faultSeq
        faultPos := if flg v 0 then 0 else x.faultPos, lab := if flg v 1 then [] else x.lab, ctrs := c } := by
  have hflush : ∃ c, (if flg v 1 then flushLab s t else s).porter = s.porter.modify t fun x =>
      { x with lab := if flg v 1 then [] else x.lab, ctrs := c } := by
    cases flg v 1
    · exact ⟨(s.porter.get t).ctrs, by cases t <;> rfl⟩
    · exact exists_porter_flushLab s t
  obtain ⟨c, hc⟩ := hflush
  refine ⟨c, ?_⟩
  rw [writeBlock_pwCtl, actBits_cons, actBits_cons, actBits_nil]
  cases flg v 0
  · exact hc
  · rw [if_pos rfl, clearPwFault, porter_modPorter, hc, PerTile.modify_modify]
    rfl

theorem writePwCtl_touch (s : State) (t : Tile) (v : Word32) : Touch 0x801c0020 s (writeBlock s (blkPw t) 0 v) := by
  rw [writeBlock_pwCtl]
  exact actBits_cons_touch (fun s => flushLab_touch s t) fun s =>
    actBits_cons_touch (fun s => (clearPwFault_touch s t).weaken rfl) fun s => Touch.refl s

/-- R420: what a write of JN_CTL leaves in its Junction, in one change of it. -/
theorem writeBlock_jnCtl_eq (s : State) (w : Wing) (v : Word32) : writeBlock s (blkJn w) 0 v = s.modJn w fun j =>
    { j with laneSel := flg v 2, laneFailed := if flg v 1 then 0 else j.laneFailed
             faultInfo := if flg v 0 then 0 else j.faultInfo, faultSeq := if flg v 0 then 0 else j.faultSeq } := by
  rw [writeBlock_jnCtl, actBits_cons, actBits_cons, actBits_nil]
  have htwo : ∀ f g : Junction → Junction, (s.modJn w f).modJn w g = s.modJn w fun j => g (f j) := fun f g =>
    congrArg (fun p => { s with jn := p }) (PerWing.modify_modify s.jn w f g)
  cases flg v 1 <;> cases flg v 0
  · rfl
  · exact htwo _ _
  · exact htwo _ _
  · exact (congrArg (clearJnFault · w) (htwo _ _)).trans (htwo _ _)

end Sys2Proof.Machine

namespace Sys2Proof

open Sys2Proof.Machine

/-- Settles O50: each control register's read and write, by the block it stands in. -/
theorem unitControls : Obligations.UnitControls := by
  unfold Obligations.UnitControls
  refine ⟨fun s t w => ⟨?_, ?_, ?_, ?_, ?_⟩, fun s t v hreach hwing => ⟨?_, ?_⟩, fun s w v hreach hwing => ⟨?_, ?_⟩⟩
  · exact (regRead_blockTarget s (blkPw_lt t) 0).trans (blockReg_pwCtl s t)
  · exact (regRead_blockTarget s (blkTt_lt w) 0).trans (blockReg_ttCtl s w)
  · exact (regRead_blockTarget s (blkCat_lt t) 0).trans (blockReg_catCtl s t)
  · exact (regRead_blockTarget s (blkJn_lt w) 0).trans (blockReg_jnCtl s w)
  · have hlane : (State.reset.jn.get w).laneSel = false := by cases w <;> rfl
    rw [regRead_blockTarget _ (blkJn_lt w)]
    exact (blockReg_jnCtl State.reset w).trans (by rw [hlane]; rfl)
  · exact (exec_registerWrite_block (blkCat_lt t) hreach (by rwa [blockWing_cat]) 0 v).trans (congrArg _ (writeBlock_catCtl s t v))
  · obtain ⟨c, hc⟩ := exists_porter_writePwCtl s t v
    have hself := (congrArg (PerTile.get · t) hc).trans (PerTile.get_modify_self ..)
    exact ⟨_, exec_registerWrite_block (blkPw_lt t) hreach (by rwa [blockWing_pw]) 0 v, congrArg Porter.lab hself,
      congrArg Porter.faultInfo hself, congrArg Porter.faultSeq hself, congrArg Porter.faultPos hself,
      fun k hk => (congrArg (PerTile.get · k) hc).trans (PerTile.get_modify_of_ne _ _ hk),
      (writePwCtl_touch s t v).onlyChanges_of_cells rfl fun p => by cases p <;> decide⟩
  · exact (exec_registerWrite_block (blkTt_lt w) hreach (by rwa [blockWing_tt]) 0 v).trans (congrArg _ (writeBlock_ttCtl s w v))
  · exact (exec_registerWrite_block (blkJn_lt w) hreach (by rwa [blockWing_jn]) 0 v).trans (congrArg _ (writeBlock_jnCtl_eq s w v))

end Sys2Proof
end
section
/-!
PROOF. Laws of the Timetable and of the ring's links: the counters of a Timetable, what moving its count, losing lock and
becoming the source leave in it, and what a flit that carries no car body changes.
-/

namespace Sys2Proof.Machine

theorem PerWing.get_modify_other {α : Type} (p : PerWing α) (w : Wing) (f : α → α) :
    (p.modify w f).get (otherWing w) = p.get (otherWing w) := by cases w <;> rfl

/-- A change of one wing matters only where it falls. -/
theorem PerWing.modify_congr {α : Type} (p : PerWing α) (w : Wing) {f g : α → α} (h : f (p.get w) = g (p.get w)) :
    p.modify w f = p.modify w g := by
  cases w
  · exact congrArg (fun x => { p with east := x }) h
  · exact congrArg (fun x => { p with west := x }) h

theorem modTt_tt (s : State) (w : Wing) (f : Timetable → Timetable) : (s.modTt w f).tt = s.tt.modify w f := rfl

theorem modTt_congr (s : State) (w : Wing) {f g : Timetable → Timetable} (h : f (s.tt.get w) = g (s.tt.get w)) :
    s.modTt w f = s.modTt w g := congrArg (fun p => { s with tt := p }) (PerWing.modify_congr s.tt w h)

/-! ### Counters of a Timetable -/

theorem ctrTable_tt (s : State) (w : Wing) : ctrTable s (blkTt w) = (s.tt.get w).ctrs := by cases w <;> rfl

theorem setCtrTable_tt (s : State) (w : Wing) (c : Table Word64) :
    setCtrTable s (blkTt w) c = s.modTt w fun x => { x with ctrs := c } := by cases w <;> rfl

theorem ctr_tt (s : State) (w : Wing) (off : Nat) : ctr s (blkTt w) off = Table.get 0 (s.tt.get w).ctrs off := by
  rw [ctr, ctrTable_tt]

/-- The counters read the same where the Timetable lists the same. -/
theorem ctr_tt_congr {s t : State} {w : Wing} (h : (t.tt.get w).ctrs = (s.tt.get w).ctrs) (off : Nat) :
    ctr t (blkTt w) off = ctr s (blkTt w) off := by rw [ctr_tt, ctr_tt, h]

theorem addCtr_tt (s : State) (w : Wing) (off n : Nat) : (addCtr s (blkTt w) off n).tt = s.tt.modify w fun x =>
    { x with ctrs := Table.set 0 (s.tt.get w).ctrs off (sat64 ((ctr s (blkTt w) off).toNat + n)) } := by
  unfold addCtr
  dsimp only
  rw [setCtrTable_tt, ctrTable_tt]
  split
  · exact raise_tt ..
  · rfl

/-- R557: a count of one adds 1 to a Timetable's counter, which stays at its limit. -/
theorem ctr_addCtr_tt_self (s : State) (w : Wing) (off : Nat) :
    (ctr (addCtr s (blkTt w) off) (blkTt w) off).toNat = min (2 ^ 64 - 1) ((ctr s (blkTt w) off).toNat + 1) := by
  rw [ctr_tt, addCtr_tt, PerWing.get_modify_self, Table.get_set_self _ _ (sat64_succ_ne_zero _), toNat_sat64]

theorem ctr_addCtr_tt_of_ne (s : State) (w : Wing) {off o : Nat} (h : o ≠ off) :
    ctr (addCtr s (blkTt w) off) (blkTt w) o = ctr s (blkTt w) o := by
  rw [ctr_tt, ctr_tt, addCtr_tt, PerWing.get_modify_self, Table.get_set_of_ne _ (sat64_succ_ne_zero _) h]

/-! ### The count, lock and sources -/

@[simp] theorem raiseTt_tt (s : State) (w : Wing) (ev : Nat) : (raiseTt s w ev).tt = s.tt := raise_tt ..

/-- R326: the count moves on to a value that lies ahead, and stays otherwise. -/
theorem moveCount_tt (s : State) (w : Wing) (c slot frac : Nat) : (moveCount s w c slot frac).tt = s.tt.modify w fun t =>
    { t with
      count := BitVec.ofNat 64 (min (2 ^ 64 - 1) (max (tickOf s w).toNat c)), slot := slot % 16, frac := frac % 256 } := by
  unfold moveCount
  dsimp only
  split
  · exact raiseTt_tt ..
  · rfl

theorem toNat_movedCount (old : Word64) (c : Nat) :
    (BitVec.ofNat 64 (min (2 ^ 64 - 1) (max old.toNat c))).toNat = min (2 ^ 64 - 1) (max old.toNat c) := by
  rw [BitVec.toNat_ofNat]
  omega

/-- The parts that a Timetable's events and reports change. -/
theorem Touch.ttOnly {s t : State} (h : Touch 0x801c1000 s t) :
    OnlyChanges [.tt, .hifCtrs, .logs, .pages, .hostOut] s t :=
  h.onlyChanges_of_cells rfl fun p => by cases p <;> decide

/-- R330, R333: a stop that loses or yields its lock counts it, acquires, is no source and follows none; its count stays. -/
structure LostLock (s : State) (w : Wing) (u : State) : Prop where
  lock : (u.tt.get w).lock = .acquiring
  source : (u.tt.get w).source = false
  follow : (u.tt.get w).follow = none
  beatBad : (u.tt.get w).beatBad = (s.tt.get w).beatBad
  count : (u.tt.get w).count = (s.tt.get w).count
  counted : (ctr u (blkTt w) 0x0110).toNat = min (2 ^ 64 - 1) ((ctr s (blkTt w) 0x0110).toNat + 1)
  other : u.tt.get (otherWing w) = s.tt.get (otherWing w)

theorem LostLock.of_tt {s u : State} {w : Wing} (h : u.tt = (dropLock (addCtr s (blkTt w) 0x0110) w .acquiring).tt) :
    LostLock s w u := by
  have hget : u.tt.get w = _ := (congrArg (PerWing.get · w) h).trans (modTt_get ..)
  have hadd : (addCtr s (blkTt w) 0x0110).tt.get w = _ :=
    (congrArg (PerWing.get · w) (addCtr_tt ..)).trans (PerWing.get_modify_self ..)
  refine ⟨by rw [hget], by rw [hget], by rw [hget], by rw [hget, hadd], by rw [hget, hadd], ?_, ?_⟩
  · rw [ctr_tt_congr (s := addCtr s (blkTt w) 0x0110) (by rw [hget]), ctr_addCtr_tt_self]
  · rw [h, dropLock, modTt_tt, PerWing.get_modify_other, addCtr_tt, PerWing.get_modify_other]

theorem loseLock_lost (s : State) (w : Wing) : LostLock s w (loseLock s w) :=
  .of_tt (by simp only [loseLock, dropLock, modTt_tt, raiseTt_tt])

theorem yieldSource_lost (s : State) (w : Wing) : LostLock s w (yieldSource s w) :=
  .of_tt (by simp only [yieldSource, dropLock, modTt_tt, raiseTt_tt])

/-- R327, R332: a source is locked and follows none; its count starts where it was, or at c where that is later. -/
structure IsSource (s : State) (w : Wing) (c : Nat) (u : State) : Prop where
  lock : (u.tt.get w).lock = .locked
  source : (u.tt.get w).source = true
  hops : (u.tt.get w).hops = 0
  count : (u.tt.get w).count.toNat = min (2 ^ 64 - 1) (max (s.tt.get w).count.toNat c)
  other : u.tt.get (otherWing w) = s.tt.get (otherWing w)

theorem becomeSource_isSource (s : State) (w : Wing) (c ev : Nat) : IsSource s w c (becomeSource s w c ev) := by
  have hmoved : ∃ c' slot frac, max (s.tt.get w).count.toNat c' = max (s.tt.get w).count.toNat c ∧
      (if (tickOf s w).toNat < c then moveCount s w c 0 0 else moveCount s w 0 (s.tt.get w).slot (s.tt.get w).frac) =
        moveCount s w c' slot frac := by
    split
    · exact ⟨c, 0, 0, rfl, rfl⟩
    · rename_i hle
      rw [tickOf] at hle
      exact ⟨0, _, _, by omega, rfl⟩
  obtain ⟨c', slot, frac, hmax, hmove⟩ := hmoved
  have htt : (becomeSource s w c ev).tt = ((moveCount s w c' slot frac).modTt w _).tt :=
    (raiseTt_tt ..).trans (congrArg (fun a => (State.modTt a w _).tt) hmove)
  have hget : (becomeSource s w c ev).tt.get w = _ := (congrArg (PerWing.get · w) htt).trans (modTt_get ..)
  refine ⟨by rw [hget], by rw [hget], by rw [hget], ?_, ?_⟩
  · rw [hget, ← hmax]
    dsimp only
    rw [moveCount_tt, PerWing.get_modify_self]
    exact toNat_movedCount ..
  · rw [htt, modTt_tt, PerWing.get_modify_other, moveCount_tt, PerWing.get_modify_other]

/-! ### Flits that carry no car body -/

theorem sendSequenced_touch_of_type (s : State) (l : LinkEnd) {b : FlitBody} (hb : b.type ≠ 3) :
    Touch 0x2801f8000 s (sendSequenced s l b) := by
  unfold sendSequenced
  dsimp only
  split
  · exact absurd ‹b.type = 3› hb
  · exact Touch.step (putNew_touch ..) rfl (Touch.weaken (State_modLink_touch ..) rfl)

theorem sendFlit_touch_of_type (s : State) (l : LinkEnd) {b : FlitBody} (hb : b.type ≠ 3) :
    Touch 0x2801f8000 s (sendFlit s l b) := by
  refine Touch.step (idleIfFull_touch ..) rfl ?_
  unfold offerFlit
  refine Touch.ite (fun _ => sendSequenced_touch_of_type s l hb) fun _ => Touch.ite (fun _ => ?_) fun _ => Touch.refl s
  exact Touch.weaken (State_modLink_touch ..) rfl

theorem sendTime_touch_links (s : State) (w : Wing) (n : Neighbour) (x : BitVec 256) :
    Touch 0x2801f8000 s (sendTime s w n x) := by
  unfold sendTime
  split
  · exact Touch.refl s
  · exact sendFlit_touch_of_type _ _ (by simp)

theorem sendHeader_touch_links (s : State) (l : LinkEnd) (c : SentCar) (h : Entry) :
    Touch 0x2801f8000 s (sendHeader s l c h) := sendFlit_touch_of_type _ _ (by simp)

theorem settleArrive_of_held {s : State} {w : Wing} {x : BitVec 256} (h : (s.tt.get w).arriveHeld = some x) :
    settleArrive s w = if stopReady s w then forwardToken (s.modTt w fun t => { t with arriveHeld := none }) w x else s := by
  simp only [settleArrive, h]

/-- An arrive token stays where it is, or goes on and is held no longer (R335). -/
theorem settleArrive_cases (s : State) (w : Wing) : settleArrive s w = s
    ∨ ∃ x, settleArrive s w = forwardToken (s.modTt w fun t => { t with arriveHeld := none }) w x := by
  cases hx : (s.tt.get w).arriveHeld with
  | none => exact .inl (by simp only [settleArrive, hx])
  | some x =>
    rw [settleArrive_of_held hx]
    cases stopReady s w
    · exact .inl rfl
    · exact .inr ⟨x, rfl⟩

/-- A Timetable without what it holds back. -/
def Timetable.settled (t : Timetable) : Timetable := { t with arriveHeld := none }

theorem settleArrive_settled (s : State) (w u : Wing) : ((settleArrive s w).tt.get u).settled = (s.tt.get u).settled := by
  obtain h | ⟨x, h⟩ := settleArrive_cases s w
  · rw [h]
  · have htt : (settleArrive s w).tt = s.tt.modify w Timetable.settled := by
      rw [h]
      exact (sendTime_touch_links ..).eq .tt rfl
    rw [htt]
    by_cases hu : u = w
    · rw [hu, PerWing.get_modify_self]
      rfl
    · rw [PerWing.get_modify_of_ne _ _ hu]

theorem settleArrive_source (s : State) (w u : Wing) : ((settleArrive s w).tt.get u).source = (s.tt.get u).source :=
  (congrArg Timetable.source (settleArrive_settled s w u) :)

theorem settleArrive_ctrs (s : State) (w u : Wing) : ((settleArrive s w).tt.get u).ctrs = (s.tt.get u).ctrs :=
  (congrArg Timetable.ctrs (settleArrive_settled s w u) :)

end Sys2Proof.Machine
end
section
/-!
PROOF. The sources of the ring, the tokens of barrier mode and reconfiguration windows (R327, R330, R332 to R337).
-/

namespace Sys2Proof.Machine

/-! ### Sources and lost beats -/

section
variable {s : State} {w : Wing}

theorem exec_masterListenExpiry {a : Nat} (ha : s.tt.east.listenFrom = some a) (hact : ttActive s .east = true)
    (hmaster : isMaster s .east = true) (hlock : s.tt.east.lock = .acquiring) (hgood : s.tt.east.consistent = true)
    (hpred : ringUp s .east .predecessor = true) (hsucc : ringUp s .east .successor = true) :
    exec .masterListenExpiry s =
      .next (if a + 4096 ≤ s.tt.east.localTicks then becomeSource s .east (dictVal s 0x4014 0) 0x0301 else s) := by
  simp [exec, execMasterListenExpiry, ha, hact, hmaster, hlock, hgood, hpred, hsucc]

theorem exec_backupTakeover (hact : ttActive s .east = true) (hbackup : dictVal s 0x4013 0 = 1)
    (hlocked : s.tt.east.isLocked = true) (hsource : s.tt.east.source = false) (hgood : s.tt.east.consistent = true) :
    exec .backupTakeover s =
      .next (if (if barrierMode s then 3 else 3072) ≤ s.tt.east.sinceBeat then becomeSource s .east 0 0x0305 else s) := by
  simp [exec, execBackupTakeover, hact, hbackup, hlocked, hsource, hgood]

theorem exec_beatLossTimeout (hact : ttActive s w = true) (hmode : barrierMode s = false)
    (hlocked : (s.tt.get w).isLocked = true) (hsource : (s.tt.get w).source = false) :
    exec (.beatLossTimeout w) s = .next (if 4096 ≤ (s.tt.get w).sinceBeat then loseLock s w else s) := by
  simp [exec, execBeatLossTimeout, hact, hmode, hlocked, hsource]

theorem exec_barrierStart (hmode : barrierMode s = true) (hact : ttActive s .east = true) (hsource : s.tt.east.source = true)
    (hgood : s.tt.east.consistent = true) (hidle : s.tt.east.barrier = false)
    (hpast : s.tt.east.lastBarrier < s.tt.east.localTicks) (hsucc : ringUp s .east .successor = true) :
    exec .barrierStart s = .next (if stopReady s .east then
      sendTime (s.modTt .east fun t => { t with barrier := true }) .east .successor
        (makeBeat s .east 1 s.tt.east.count.toNat 0) else s) := by
  have hpast : decide (s.tt.east.lastBarrier + 1 ≤ s.tt.east.localTicks) = true := decide_eq_true hpast
  simp only [exec, execBarrierStart, hmode, hact, hsource, hgood, hidle, hpast, hsucc, Bool.not_false, Bool.and_true,
    Bool.true_and]

theorem consistent_iff (t : Timetable) : t.consistent = true ↔ t.ownBad = false ∧ t.beatBad = false := by
  simp [Timetable.consistent]

/-! ### What a token meets (R324, R333) -/

variable {x : BitVec 256}

/-- What a token that agrees with the stop meets once a source has yielded where it must. -/
def meetToken (s : State) (w : Wing) (x : BitVec 256) : State × Bool :=
  if (s.tt.get w).source then (s, tokenMaker s w x == stopNum s w)
  else if (tickOf s w).toNat > btCount x + 2 ^ 24 then
    ((if (s.tt.get w).beatBad then s else becomeBad s w false .predecessor), false)
  else
    (learnWindow (s.modTt w fun t =>
      { t with beatBad := false, lock := if t.lock = .down then .acquiring else t.lock, follow := some .predecessor
               sinceBeat := 0, listenFrom := none }) w x, true)

theorem checkToken_of_agrees (hagree : beatAgrees s w .predecessor x = true) (hconf : ringConfigOk s = true)
    (hgood : (s.tt.get w).consistent = true) :
    checkToken s w x = meetToken (if mustYieldToken s w x then yieldSource s w else s) w x := by
  obtain ⟨hown, hbeat⟩ := (consistent_iff _).1 hgood
  simp only [checkToken, hagree, hconf, hown, hbeat, Bool.not_true, Bool.false_and, Bool.false_or, Bool.false_eq_true, if_false]
  rfl

/-- A stop that follows the predecessor takes a token of it. -/
def followed (s : State) (w : Wing) (x : BitVec 256) : State :=
  learnWindow (s.modTt w fun t => { t with follow := some .predecessor, sinceBeat := 0, listenFrom := none }) w x

theorem checkToken_foreign (hagree : beatAgrees s w .predecessor x = true) (hconf : ringConfigOk s = true)
    (hgood : (s.tt.get w).consistent = true) (hsource : (s.tt.get w).source = true) (hmaker : stopNum s w < tokenMaker s w x) :
    checkToken s w x = (s, false) := by
  have hyield : mustYieldToken s w x = false := by simp [mustYieldToken, Nat.le_of_lt hmaker]
  simp [checkToken_of_agrees hagree hconf hgood, meetToken, hyield, hsource, Nat.ne_of_gt hmaker]

theorem checkToken_own (hagree : beatAgrees s w .predecessor x = true) (hconf : ringConfigOk s = true)
    (hgood : (s.tt.get w).consistent = true) (hsource : (s.tt.get w).source = true) (hmaker : tokenMaker s w x = stopNum s w) :
    checkToken s w x = (s, true) := by
  have hyield : mustYieldToken s w x = false := by simp [mustYieldToken, hmaker]
  simp [checkToken_of_agrees hagree hconf hgood, meetToken, hyield, hsource, hmaker]

theorem checkToken_follower (hagree : beatAgrees s w .predecessor x = true) (hconf : ringConfigOk s = true)
    (hgood : (s.tt.get w).consistent = true) (hsource : (s.tt.get w).source = false) (hlocked : (s.tt.get w).isLocked = true)
    (hle : (tickOf s w).toNat ≤ btCount x) : checkToken s w x = (followed s w x, true) := by
  have hyield : mustYieldToken s w x = false := by simp [mustYieldToken, hsource]
  have hnear : ¬ (tickOf s w).toNat > btCount x + 2 ^ 24 := by omega
  have hbeat := ((consistent_iff _).1 hgood).2
  have hup : (s.tt.get w).lock ≠ .down := fun h => by simp [Timetable.isLocked, h] at hlocked
  rw [checkToken_of_agrees hagree hconf hgood, hyield, if_neg (by decide), meetToken, if_neg (by simp [hsource]), if_neg hnear,
    followed]
  refine congrArg (fun a => (learnWindow a w x, true)) (modTt_congr s w ?_)
  simp [hbeat, hup]

/-- A stop without lock that becomes inconsistent has none to lose (R324, R330). -/
theorem becomeBad_of_unlocked (own : Bool) (n : Neighbour) (h : (s.tt.get w).isLocked = false) :
    ((becomeBad s w own n).tt.get w).source = false ∧ ((becomeBad s w own n).tt.get w).ctrs = (s.tt.get w).ctrs := by
  have hraise : (if (s.tt.get w).consistent then raiseTt s w 0x0304 else s).tt = s.tt := by
    split
    · exact raiseTt_tt ..
    · rfl
  unfold becomeBad
  simp only [h, Bool.false_eq_true, if_false, modTt_get, dropLock, hraise]
  cases own <;> exact ⟨rfl, rfl⟩

/-- R333: whatever becomes of the token, a source that yields to its maker has lost its lock once. -/
theorem checkToken_yields (hagree : beatAgrees s w .predecessor x = true) (hconf : ringConfigOk s = true)
    (hgood : (s.tt.get w).consistent = true) (hsource : (s.tt.get w).source = true) (hmaker : tokenMaker s w x < stopNum s w) :
    ((checkToken s w x).1.tt.get w).source = false
      ∧ (ctr (checkToken s w x).1 (blkTt w) 0x0110).toNat = min (2 ^ 64 - 1) ((ctr s (blkTt w) 0x0110).toNat + 1) := by
  have hyield : mustYieldToken s w x = true := by simp [mustYieldToken, hsource, hmaker]
  have hlost := yieldSource_lost s w
  have hbeat : ((yieldSource s w).tt.get w).beatBad = false := hlost.beatBad.trans ((consistent_iff _).1 hgood).2
  have hkept : ((checkToken s w x).1.tt.get w).source = false
      ∧ ((checkToken s w x).1.tt.get w).ctrs = ((yieldSource s w).tt.get w).ctrs := by
    rw [checkToken_of_agrees hagree hconf hgood, hyield, if_pos rfl, meetToken, if_neg (by simp [hlost.source])]
    split
    · rw [if_neg (by simp [hbeat])]
      exact becomeBad_of_unlocked false .predecessor (by simp [Timetable.isLocked, hlost.lock])
    · simp only [learnWindow, modTt_get, hlost.source, and_self]
  exact ⟨hkept.1, by rw [ctr_tt_congr hkept.2, hlost.counted]⟩

/-! ### Tokens taken (R335) -/

theorem advanceCount_of_lt {c : Nat} (h : (tickOf s w).toNat < c) :
    advanceCount s w c = addCtr (moveCount s w c 0 0) (blkTt w) 0x0118 := if_pos h

/-- R335: a barrier that does not lie behind brings the count to it. -/
theorem advanceCount_count {c : Nat} (hle : (tickOf s w).toNat ≤ c) (hc : c < 2 ^ 64 - 1) :
    ((advanceCount s w c).tt.get w).count.toNat = c := by
  obtain heq | hlt := Nat.eq_or_lt_of_le hle
  · rw [advanceCount, if_neg (Nat.not_lt.2 (Nat.le_of_eq heq.symm))]
    exact heq
  · rw [advanceCount_of_lt hlt, addCtr_tt, PerWing.get_modify_self, moveCount_tt, PerWing.get_modify_self]
    dsimp only
    rw [toNat_movedCount]
    omega

theorem advanceCount_isLocked (c : Nat) : ((advanceCount s w c).tt.get w).isLocked = (s.tt.get w).isLocked := by
  unfold advanceCount
  split
  · rw [addCtr_tt, PerWing.get_modify_self, moveCount_tt, PerWing.get_modify_self]
    rfl
  · rfl

theorem ctr_advanceCount {c : Nat} (h : (tickOf s w).toNat < c) :
    (ctr (advanceCount s w c) (blkTt w) 0x0118).toNat = min (2 ^ 64 - 1) ((ctr s (blkTt w) 0x0118).toNat + 1) := by
  rw [advanceCount_of_lt h, ctr_addCtr_tt_self, ctr_tt_congr (s := s)]
  rw [moveCount_tt, PerWing.get_modify_self]

/-- R335: readiness asks the car sets and the count alone. -/
theorem stopReady_congr {u : State} (hsets : u.carSets = s.carSets) (hcount : (u.tt.get w).count = (s.tt.get w).count) :
    stopReady u w = stopReady s w := by rw [stopReady, stopReady, hsets, tickOf, tickOf, hcount]

theorem followed_source : ((followed s w x).tt.get w).source = (s.tt.get w).source := by
  rw [followed, learnWindow, modTt_get, modTt_get]

theorem followed_isLocked : ((followed s w x).tt.get w).isLocked = (s.tt.get w).isLocked := by
  rw [followed, learnWindow, modTt_get, modTt_get]
  rfl

theorem followed_count : ((followed s w x).tt.get w).count = (s.tt.get w).count := by
  rw [followed, learnWindow, modTt_get, modTt_get]

theorem followed_touch : Touch 0x1000 s (followed s w x) :=
  Touch.step (learnWindow_touch ..) rfl (State_modTt_touch ..)

section
variable (hact : ttActive s w = true) (hmode : barrierMode s = true) (hpred : ringUp s w .predecessor = true)
include hact hmode hpred

theorem exec_arriveToken_dropped {a : State} (hkind : btKind x = 1) (hc : checkToken s w x = (a, false)) :
    exec (.arriveTokenReceive w x) s = .next a := by
  simp [exec, execArriveTokenReceive, hact, hmode, hpred, hkind, hc]

theorem exec_advanceToken_dropped {a : State} (hkind : btKind x = 2) (hc : checkToken s w x = (a, false)) :
    exec (.advanceTokenReceive w x) s = .next a := by
  simp [exec, execAdvanceTokenReceive, hact, hmode, hpred, hkind, hc]

theorem exec_arriveToken_follower {a : State} (hkind : btKind x = 1) (hc : checkToken s w x = (a, true))
    (hsource : (a.tt.get w).source = false) :
    exec (.arriveTokenReceive w x) s = .next (settleArrive (a.modTt w fun t => { t with arriveHeld := some x }) w) := by
  simp [exec, execArriveTokenReceive, hact, hmode, hpred, hkind, hc, hsource]

theorem exec_arriveToken_source {a : State} (hkind : btKind x = 1) (hc : checkToken s w x = (a, true))
    (hsource : (a.tt.get w).source = true) (hbarrier : (a.tt.get w).barrier = true)
    (hcount : btCount x = (a.tt.get w).count.toNat) :
    exec (.arriveTokenReceive w x) s =
      .next (sendTime (advanceCount a w (btCount x + 1)) w .successor
        (makeBeat (advanceCount a w (btCount x + 1)) w 2 (btCount x + 1) 0)) := by
  simp [exec, execArriveTokenReceive, hact, hmode, hpred, hkind, hc, hsource, hbarrier, hcount]

theorem exec_advanceToken_source {a : State} (hkind : btKind x = 2) (hc : checkToken s w x = (a, true))
    (hsource : (a.tt.get w).source = true) (hbarrier : (a.tt.get w).barrier = true)
    (hcount : btCount x = (a.tt.get w).count.toNat) :
    exec (.advanceTokenReceive w x) s = .next (a.modTt w fun t => { t with barrier := false, lastBarrier := t.localTicks }) := by
  simp [exec, execAdvanceTokenReceive, hact, hmode, hpred, hkind, hc, hsource, hbarrier, hcount]

theorem exec_advanceToken_follower {a : State} (hkind : btKind x = 2) (hc : checkToken s w x = (a, true))
    (hsource : (a.tt.get w).source = false) (hlocked : (a.tt.get w).isLocked = true) :
    exec (.advanceTokenReceive w x) s = .next (forwardToken ((advanceCount a w (btCount x)).modTt w fun t =>
      { t with hops := if t.isLocked then BitVec.ofNat 8 (min 255 (btHops x + 1)) else t.hops }) w x) := by
  simp [exec, execAdvanceTokenReceive, hact, hmode, hpred, hkind, hc, hsource, takeAdvance, hlocked]

/-- R333: a master reached by the token of a lower stop is a source no longer, whether the token goes on or not. -/
theorem exec_arriveToken_yields (hagree : beatAgrees s w .predecessor x = true) (hconf : ringConfigOk s = true)
    (hgood : (s.tt.get w).consistent = true) (hsource : (s.tt.get w).source = true) (hkind : btKind x = 1)
    (hmaker : tokenMaker s w x < stopNum s w) :
    ∃ u, exec (.arriveTokenReceive w x) s = .next u ∧ (u.tt.get w).source = false
      ∧ (ctr u (blkTt w) 0x0110).toNat = min (2 ^ 64 - 1) ((ctr s (blkTt w) 0x0110).toNat + 1) := by
  obtain ⟨hyielded, hcounted⟩ := checkToken_yields hagree hconf hgood hsource hmaker
  obtain ⟨⟨a, goesOn⟩, hc⟩ : ∃ r, checkToken s w x = r := ⟨_, rfl⟩
  rw [hc] at hyielded hcounted
  cases goesOn with
  | false => exact ⟨a, exec_arriveToken_dropped hact hmode hpred hkind hc, hyielded, hcounted⟩
  | true =>
    refine ⟨_, exec_arriveToken_follower hact hmode hpred hkind hc hyielded, ?_, ?_⟩
    · rw [settleArrive_source, modTt_get]
      exact hyielded
    · rw [ctr_tt_congr (s := a) (by rw [settleArrive_ctrs, modTt_get])]
      exact hcounted

/-- R335: a stop that is not the source holds an arrive token until it is ready. -/
theorem exec_arriveToken_followed (hkind : btKind x = 1) (hc : checkToken s w x = (followed s w x, true))
    (hsource : (s.tt.get w).source = false) :
    exec (.arriveTokenReceive w x) s = .next (if stopReady s w then
        forwardToken (((followed s w x).modTt w fun t => { t with arriveHeld := some x }).modTt w fun t =>
          { t with arriveHeld := none }) w x
      else (followed s w x).modTt w fun t => { t with arriveHeld := some x }) := by
  have hready : stopReady ((followed s w x).modTt w fun t => { t with arriveHeld := some x }) w = stopReady s w :=
    stopReady_congr rfl (by rw [modTt_get, followed_count])
  rw [exec_arriveToken_follower hact hmode hpred hkind hc (followed_source.trans hsource),
    settleArrive_of_held (by rw [modTt_get]), hready]

end

end

/-! ### Windows (R337) -/

theorem inWindow_iff (s : State) (w : Wing) : inWindow s w = true ↔
    (windowOf s w).1 ≤ (tickOf s w).toNat ∧ (tickOf s w).toNat < (windowOf s w).1 + (windowOf s w).2 := by
  simp [inWindow]

end Sys2Proof.Machine

namespace Sys2Proof

open Sys2Proof.Machine

/-- Settles O33: the events of sources by their times, tokens by what `checkToken` answers, windows by the count. -/
theorem ringSources : Obligations.RingSources := by
  unfold Obligations.RingSources
  refine ⟨fun s w => ⟨?_, ?_, ?_⟩, fun s w x hmode => ⟨?_, ?_⟩, fun s w => ⟨inWindow_iff s w, ?_, ?_, ?_, ?_⟩⟩
  · intro a ha hact hmaster hlock hgood hpred hsucc
    rw [exec_masterListenExpiry ha hact hmaster hlock hgood hpred hsucc]
    refine ⟨fun hlt => by rw [if_neg (by omega)], fun hle => ?_⟩
    have h := becomeSource_isSource s .east (dictVal s 0x4014 0) 0x0301
    exact ⟨_, by rw [if_pos hle], h.lock, h.source, h.hops, h.count, h.other, (becomeSource_touch ..).ttOnly⟩
  · intro hact hbackup hlocked hsource hgood
    rw [exec_backupTakeover hact hbackup hlocked hsource hgood]
    refine ⟨fun hlt => by rw [if_neg (Nat.not_le.2 hlt)], fun hle => ?_⟩
    have h := becomeSource_isSource s .east 0 0x0305
    have hcount : (s.tt.get .east).count.toNat < 2 ^ 64 := (s.tt.get .east).count.isLt
    refine ⟨_, by rw [if_pos hle], h.lock, h.source, h.hops, BitVec.eq_of_toNat_eq (h.count.trans ?_), h.other,
      (becomeSource_touch ..).ttOnly⟩
    change _ = (s.tt.get .east).count.toNat
    omega
  · intro hact hbeats hlocked hsource
    rw [exec_beatLossTimeout hact hbeats hlocked hsource]
    refine ⟨fun hlt => by rw [if_neg (by omega)], fun hle => ?_⟩
    have h := loseLock_lost s w
    exact ⟨_, by rw [if_pos hle], h.lock, h.follow, h.count, h.counted, h.other, (loseLock_touch ..).ttOnly⟩
  · intro hact hsource hgood hidle hpast hsucc
    rw [exec_barrierStart hmode hact hsource hgood hidle hpast hsucc]
    exact ⟨fun hready => by rw [if_pos hready], fun hwait => by rw [if_neg (Bool.eq_false_iff.1 hwait)]⟩
  · intro hact hpred hagree hconf hgood
    refine ⟨?_, ?_, ?_, ?_⟩
    · exact exec_arriveToken_yields hact hmode hpred hagree hconf hgood
    · intro hsource hmaker
      have hc := checkToken_foreign hagree hconf hgood hsource hmaker
      exact ⟨fun hkind => exec_arriveToken_dropped hact hmode hpred hkind hc,
        fun hkind => exec_advanceToken_dropped hact hmode hpred hkind hc⟩
    · intro hsource hmaker hbarrier hcount hend
      have hc := checkToken_own hagree hconf hgood hsource hmaker
      have hlt : (tickOf s w).toNat < btCount x + 1 := by rw [tickOf]; omega
      exact ⟨fun hkind => ⟨_, exec_arriveToken_source hact hmode hpred hkind hc hsource hbarrier hcount,
          advanceCount_count (Nat.le_of_lt hlt) hend, ctr_advanceCount hlt, (advanceCount_touch ..).ttOnly⟩,
        fun hkind => exec_advanceToken_source hact hmode hpred hkind hc hsource hbarrier hcount⟩
    · intro hsource hlocked hle hend
      have hc := checkToken_follower hagree hconf hgood hsource hlocked hle
      have harrive := fun hkind => exec_arriveToken_followed hact hmode hpred hkind hc hsource
      refine ⟨?_, ?_, ?_⟩
      · intro hkind hwait
        rw [harrive hkind, hwait]
        rfl
      · intro hkind hgo
        refine ⟨_, by rw [harrive hkind, hgo, if_pos rfl, forwardToken, hkind], ?_, ?_, ?_⟩
        · rw [modTt_get]
        · rw [modTt_get, modTt_get]
          exact followed_count
        · exact (Touch.step (State_modTt_touch ..) rfl (Touch.step (State_modTt_touch ..) rfl followed_touch)).onlyChanges_of_cells
            rfl fun p => by cases p <;> decide
      · intro hkind
        refine ⟨_, by rw [exec_advanceToken_follower hact hmode hpred hkind hc (followed_source.trans hsource)
          (followed_isLocked.trans hlocked), forwardToken, hkind], ?_, ?_, ?_⟩
        · rw [modTt_get]
          exact advanceCount_count (by rw [tickOf, followed_count]; exact hle) hend
        · rw [modTt_get, advanceCount_isLocked, followed_isLocked, hlocked, if_pos rfl, BitVec.toNat_ofNat]
          omega
        · exact (Touch.step (State_modTt_touch ..) rfl
            (Touch.step (advanceCount_touch ..) rfl (followed_touch.weaken rfl)) : Touch 0x801c1000 s _).ttOnly
  · intro hin
    simp [exec, execReconfigWindowStart, hin]
  · intro hout
    simp [exec, execReconfigWindowStart, hout]
  · intro hopen hout
    simp [exec, execReconfigWindowEnd, hopen, hout]
  · rintro (hclosed | hin)
    · simp [exec, execReconfigWindowEnd, hclosed]
    · simp [exec, execReconfigWindowEnd, hin]

end Sys2Proof
end
section
/-!
PROOF. Laws of car sets: what a change of one car set, of one step and of one send leaves; what sending on the ring leaves of
every car set; and tasks that are stopped together.
-/

namespace Sys2Proof.Machine

/-! ### Car sets and their steps -/

theorem Touch.carSetOf {m : Nat} {s t : State} (h : Touch m s t) (hm : m.testBit StatePart.carSets.idx = false) (w : Wing)
    (k : CarSetKey) : carSetOf t w k = carSetOf s w k := by
  have e : t.carSets = s.carSets := h.eq .carSets hm
  simp only [Machine.carSetOf, e]

theorem key_of_carSetOf {s : State} {w : Wing} {k : CarSetKey} {c : CarSet} (h : carSetOf s w k = some c) : c.key = k := by
  simpa using List.find?_some h

/-- Changing the car sets of one key changes the car set found by it and no other. -/
theorem carSetOf_modCarSet (s : State) (w : Wing) (k i : CarSetKey) {f : CarSet → CarSet} (hf : ∀ c, (f c).key = c.key) :
    carSetOf (s.modCarSet w k f) w i = (carSetOf s w i).map fun c => if i = k then f c else c := by
  have hkey : ((fun c : CarSet => decide (c.key = i)) ∘ fun c => if decide (c.key = k) = true then f c else c) =
      fun c => decide (c.key = i) := by
    funext c
    by_cases hc : c.key = k
    · simp [hc, hf]
    · simp [hc]
  have hget : (s.modCarSet w k f).carSets.get w = updateWhere (fun c => c.key = k) f (s.carSets.get w) :=
    PerWing.get_modify_self ..
  unfold carSetOf
  rw [hget, updateWhere, List.find?_map, hkey]
  refine Option.map_congr fun c hc => ?_
  have hc : c.key = i := key_of_carSetOf hc
  simp [hc]

theorem carSetOf_modCarSet_self {s : State} {w : Wing} {k : CarSetKey} {c : CarSet} {f : CarSet → CarSet}
    (hf : ∀ c, (f c).key = c.key) (h : carSetOf s w k = some c) : carSetOf (s.modCarSet w k f) w k = some (f c) := by
  simp [carSetOf_modCarSet s w k k hf, h]

theorem carSets_modCarSet_other (s : State) (w : Wing) (k : CarSetKey) (f : CarSet → CarSet) :
    (s.modCarSet w k f).carSets.get (otherWing w) = s.carSets.get (otherWing w) := PerWing.get_modify_other ..

theorem CarSet.step_modStep (c : CarSet) (k n : Nat) (f : CarStep → CarStep) :
    (c.modStep k f).step n = if n = k then f (c.step k) else c.step n := by
  unfold CarSet.step CarSet.modStep
  rw [Table.find_insert]
  split <;> rfl

@[simp] theorem CarSet.step_modStep_self (c : CarSet) (k : Nat) (f : CarStep → CarStep) :
    (c.modStep k f).step k = f (c.step k) := by rw [CarSet.step_modStep, if_pos rfl]

theorem CarSet.step_modStep_of_ne (c : CarSet) {k n : Nat} (f : CarStep → CarStep) (h : n ≠ k) :
    (c.modStep k f).step n = c.step n := by rw [CarSet.step_modStep, if_neg h]

@[simp] theorem CarSet.sends_setSend_self (c : CarSet) (k j : Nat) (p : SendPhase) :
    Table.find ((c.setSend k j p).step k).sends j = some p := by simp [CarSet.setSend]

theorem Table.find_erase_self {α : Type} (t : Table α) (a : Nat) : Table.find (Table.erase t a) a = none := by
  induction t with
  | nil => rfl
  | cons e t ih =>
    by_cases h : e.1 = a
    · simpa [Table.erase, h] using ih
    · simpa [Table.erase, h, Table.find, Ne.symm h] using ih

/-! ### Sends alone -/

/-- d is c but for its sends. -/
structure SendsOnly (c d : CarSet) : Prop where
  key : d.key = c.key
  phase : d.phase = c.phase
  desc : d.desc = c.desc
  step : ∀ n, d.step n = { c.step n with sends := (d.step n).sends }

theorem SendsOnly.refl (c : CarSet) : SendsOnly c c := ⟨rfl, rfl, rfl, fun _ => rfl⟩

theorem SendsOnly.trans {c d e : CarSet} (h : SendsOnly c d) (h' : SendsOnly d e) : SendsOnly c e :=
  ⟨h'.key.trans h.key, h'.phase.trans h.phase, h'.desc.trans h.desc, fun n => by rw [h'.step, h.step]⟩

theorem sendsOnly_setSend (c : CarSet) (k j : Nat) (p : SendPhase) : SendsOnly c (c.setSend k j p) :=
  ⟨rfl, rfl, rfl, fun n => by
    by_cases h : n = k
    · subst h; simp [CarSet.setSend]
    · simp [CarSet.setSend, CarSet.step_modStep_of_ne _ _ h]⟩

theorem sendsOnly_queueSend (c : CarSet) (k j : Nat) : SendsOnly c (c.queueSend k j) := by
  unfold CarSet.queueSend
  split
  · exact sendsOnly_setSend ..
  · exact .refl c

theorem SendsOnly.foldl {α : Type} {f : CarSet → α → CarSet} (hf : ∀ c x, SendsOnly c (f c x)) (l : List α) (c : CarSet) :
    SendsOnly c (l.foldl f c) := by
  induction l generalizing c with
  | nil => exact .refl c
  | cons x l ih => exact (hf c x).trans (ih _)

/-! ### What sending on the ring leaves -/

/-- R342, R347: t is s but for the sends of a wing's car sets, as far as car sets and the wing's counters go; of these only
the resent headers are counted. -/
structure SendFrame (w : Wing) (s t : State) : Prop where
  sets : ∀ k c, carSetOf s w k = some c → ∃ d, carSetOf t w k = some d ∧ SendsOnly c d
  other : t.carSets.get (otherWing w) = s.carSets.get (otherWing w)
  counters : ∀ off, off ≠ 0x0138 → ctr t (blkTt w) off = ctr s (blkTt w) off

theorem SendFrame.refl (w : Wing) (s : State) : SendFrame w s s := ⟨fun _ c h => ⟨c, h, .refl c⟩, rfl, fun _ _ => rfl⟩

theorem SendFrame.trans {w : Wing} {s t u : State} (h : SendFrame w s t) (h' : SendFrame w t u) : SendFrame w s u := by
  refine ⟨fun k c hc => ?_, h'.other.trans h.other, fun off ho => (h'.counters off ho).trans (h.counters off ho)⟩
  obtain ⟨d, hd, hcd⟩ := h.sets k c hc
  obtain ⟨e, he, hde⟩ := h'.sets k d hd
  exact ⟨e, he, hcd.trans hde⟩

theorem SendFrame.foldl {α : Type} {w : Wing} {f : State → α → State} (hf : ∀ s x, SendFrame w s (f s x)) (l : List α)
    (s : State) : SendFrame w s (l.foldl f s) := by
  induction l generalizing s with
  | nil => exact .refl w s
  | cons x l ih => exact (hf s x).trans (ih _)

/-- An operation that leaves the car sets and the wing's counters. -/
theorem SendFrame.of_touch {m : Nat} {w : Wing} {s t : State} (h : Touch m s t)
    (hm : m.testBit StatePart.carSets.idx = false) (hc : (t.tt.get w).ctrs = (s.tt.get w).ctrs) : SendFrame w s t :=
  ⟨fun k c hk => ⟨c, (h.carSetOf hm w k).trans hk, .refl c⟩, congrArg (PerWing.get · (otherWing w)) (h.eq .carSets hm),
    fun off _ => ctr_tt_congr hc off⟩

theorem sendFrame_of_links {w : Wing} {s t : State} (h : Touch 0x2801f8000 s t) : SendFrame w s t :=
  .of_touch h rfl (congrArg (fun p => (PerWing.get p w).ctrs) (h.eq .tt rfl))

theorem sendFrame_modTt (w : Wing) (s : State) {f : Timetable → Timetable} (hf : ∀ t, (f t).ctrs = t.ctrs) :
    SendFrame w s (s.modTt w f) := .of_touch (State_modTt_touch ..) rfl (by rw [modTt_get, hf])

theorem sendFrame_modCarSet (w : Wing) (s : State) (k : CarSetKey) {f : CarSet → CarSet} (hf : ∀ c, SendsOnly c (f c)) :
    SendFrame w s (s.modCarSet w k f) := by
  refine ⟨fun i c hc => ⟨if i = k then f c else c, ?_, ?_⟩, carSets_modCarSet_other .., fun _ _ => rfl⟩
  · rw [carSetOf_modCarSet s w k i fun c => (hf c).key, hc]
    rfl
  · split
    · exact hf c
    · exact .refl c

theorem countRetry_sendFrame (w : Wing) (s : State) (p : SendPhase) : SendFrame w s (countRetry s w p) := by
  unfold countRetry
  split
  · have h := addCtr_touch_tt s w 0x0138 1
    exact ⟨fun k c hk => ⟨c, (h.carSetOf rfl w k).trans hk, .refl c⟩, congrArg (PerWing.get · (otherWing w)) (h.eq .carSets rfl),
      fun _ ho => ctr_addCtr_tt_of_ne s w ho⟩
  · exact .refl w s

theorem offerNotice_sendFrame (w : Wing) (s : State) (n : Notice) : SendFrame w s (offerNotice w s n) := by
  unfold offerNotice
  split
  · exact .refl w s
  · refine SendFrame.trans ?_ (sendFrame_of_links (sendHeader_touch_links ..))
    refine (countRetry_sendFrame w s _).trans (sendFrame_modTt w _ ?_)
    exact fun _ => rfl

theorem offerCar_sendFrame (w : Wing) (c : CarSet) (s : State) (x : Nat × Nat × SendPhase) :
    SendFrame w s (offerCar w c s x) := by
  unfold offerCar
  split
  · refine SendFrame.trans ?_ (sendFrame_of_links (sendHeader_touch_links ..))
    refine (countRetry_sendFrame w s _).trans (sendFrame_modCarSet w _ _ ?_)
    exact fun _ => sendsOnly_setSend ..
  · exact .refl w s

theorem settleArrive_sendFrame (w : Wing) (s : State) : SendFrame w s (settleArrive s w) := by
  obtain h | ⟨x, h⟩ := settleArrive_cases s w
  · rw [h]
    exact .refl w s
  · rw [h]
    refine SendFrame.trans (sendFrame_modTt w s ?_) (sendFrame_of_links (sendTime_touch_links ..))
    exact fun _ => rfl

theorem pumpRing_sendFrame (w : Wing) (s : State) : SendFrame w s (pumpRing s w) := by
  unfold pumpRing
  dsimp only
  refine SendFrame.trans ?_ (settleArrive_sendFrame ..)
  split
  · exact (SendFrame.foldl (offerNotice_sendFrame w) ..).trans
      (SendFrame.foldl (fun s c => SendFrame.foldl (offerCar_sendFrame w c) ..) ..)
  · exact .refl w s

/-! ### Tasks stopped -/

/-- A task that a fault of this cause has stopped, or one before it (R142). -/
def Task.stopped (cause : Nat) (t : Task) : Task :=
  match t.status with
  | .stopping _ => t
  | _ => { t with status := .stopping (BitVec.ofNat 16 cause) }

theorem Task.stopped_of_stopping {t : Task} {c : BitVec 16} (cause : Nat) (h : t.status = .stopping c) :
    t.stopped cause = t := by simp only [Task.stopped, h]

theorem Task.stopped_of_ne {t : Task} (cause : Nat) (h : ∀ c, t.status ≠ .stopping c) :
    t.stopped cause = { t with status := .stopping (BitVec.ofNat 16 cause) } := by
  unfold Task.stopped
  split
  · exact absurd ‹_› (h _)
  · rfl

theorem Task.stopped_stopped (cause : Nat) (t : Task) : (t.stopped cause).stopped cause = t.stopped cause := by
  by_cases h : ∃ c, t.status = .stopping c
  · obtain ⟨c, hc⟩ := h
    rw [Task.stopped_of_stopping cause hc, Task.stopped_of_stopping cause hc]
  · rw [Task.stopped_of_ne cause (not_exists.1 h)]
    rfl

theorem taskOf_stopTask (s : State) (n i cause : Nat) (unit : LogUnit) (addr detail : Nat) :
    taskOf (stopTask s n cause unit addr detail) i = (taskOf s i).map fun t => if i = n then t.stopped cause else t := by
  cases hn : taskOf s n with
  | none =>
    have hne : ∀ t, taskOf s i = some t → i ≠ n := fun t ht he => by rw [he, hn] at ht; cases ht
    rw [stopTask, hn]
    cases hi : taskOf s i with
    | none => rfl
    | some t => simp [hne t hi]
  | some t =>
    have hlog : ∀ j, taskOf (logTask s t cause unit addr detail) j = taskOf s j := (logTask_touch ..).taskOf rfl
    by_cases hs : ∃ c, t.status = .stopping c
    · obtain ⟨c, hc⟩ := hs
      have hstop : stopTask s n cause unit addr detail = logTask s t cause unit addr detail := by
        simp only [stopTask, hn, hc]
      rw [hstop, hlog]
      by_cases hi : i = n
      · rw [hi, hn]
        simp [Task.stopped_of_stopping cause hc]
      · simp [hi]
    · have hstop : stopTask s n cause unit addr detail = (logTask s t cause unit addr detail).modTask n fun t =>
          { t with status := .stopping (BitVec.ofNat 16 cause) } := by
        simp only [stopTask, hn]
        split
        · exact absurd ⟨_, ‹_›⟩ hs
        · rfl
      rw [hstop, taskOf_modTask, hlog]
      · by_cases hi : i = n
        · rw [hi, hn]
          simp [Task.stopped_of_ne cause (not_exists.1 hs)]
        · simp [hi]
      · exact fun _ h => h

/-- Tasks stopped together: each has been stopped that bears the number of one of them, and no other has changed. -/
theorem taskOf_foldl_stopTask (l : List Task) (s : State) (i cause : Nat) (unit : LogUnit) (addr detail : Nat) :
    taskOf (l.foldl (fun s t => stopTask s t.id cause unit addr detail) s) i =
      (taskOf s i).map fun t => if ∃ x ∈ l, x.id = i then t.stopped cause else t := by
  induction l generalizing s with
  | nil => simp
  | cons x l ih =>
    rw [List.foldl_cons, ih, taskOf_stopTask]
    cases taskOf s i with
    | none => rfl
    | some t =>
      by_cases hx : i = x.id
      · by_cases hl : ∃ y ∈ l, y.id = i <;> simp [hx, Task.stopped_stopped]
      · simp [hx, Ne.symm hx]

end Sys2Proof.Machine
end
section
/-!
PROOF. Car sets run by the slots of their wing (R340, R342, R346, R347, R349, R352).
-/

namespace Sys2Proof.Machine

/-! ### The sends of a step begin (R347) -/

theorem queueStep_sendsOnly (c : CarSet) (k : Nat) :
    SendsOnly (c.modStep k fun x => { x with sending := true }) (c.queueStep k) := by
  unfold CarSet.queueStep
  dsimp only
  split
  · exact .foldl (fun c j => sendsOnly_queueSend c 0 j) ..
  · split
    · exact sendsOnly_queueSend ..
    · exact .foldl (fun c (x : Nat × Entry) => sendsOnly_queueSend c k x.1) ..

theorem queueStep_sending (c : CarSet) (k : Nat) : ((c.queueStep k).step k).sending = true := by
  rw [(queueStep_sendsOnly c k).step, CarSet.step_modStep_self]

/-- Queueing one header queues it, and keeps every other that is under way. -/
theorem sends_queueSend (c : CarSet) (k j i : Nat) (h : i = j ∨ Table.find (c.step k).sends i ≠ none) :
    Table.find ((c.queueSend k j).step k).sends i ≠ none := by
  unfold CarSet.queueSend
  by_cases hj : Table.find (c.step k).sends j = none
  · rw [hj, Option.isNone_none, if_pos rfl, CarSet.setSend, CarSet.step_modStep_self]
    dsimp only
    rw [Table.find_insert]
    by_cases hi : i = j
    · rw [if_pos hi]
      nofun
    · rw [if_neg hi]
      exact h.resolve_left hi
  · rw [if_neg (by simpa using hj)]
    obtain rfl | h := h
    · exact hj
    · exact h

theorem sends_foldl_queueSend (l : List Nat) (c : CarSet) (k i : Nat) (h : i ∈ l ∨ Table.find (c.step k).sends i ≠ none) :
    Table.find ((l.foldl (fun c j => c.queueSend k j) c).step k).sends i ≠ none := by
  induction l generalizing c with
  | nil => exact h.resolve_left (by simp)
  | cons j l ih =>
    refine ih _ ?_
    obtain h | h := h
    · obtain rfl | h := List.mem_cons.1 h
      · exact .inr (sends_queueSend c k _ _ (.inl rfl))
      · exact .inl h
    · exact .inr (sends_queueSend c k _ _ (.inr h))

/-- R338, R347: the first step sends each of the stop's own cars, or its marker. -/
theorem sends_queueStep_zero (c : CarSet) {j : Nat} (h : j < max 1 (ownCars c.desc)) :
    Table.find ((c.queueStep 0).step 0).sends j ≠ none :=
  sends_foldl_queueSend _ _ 0 j (.inl (List.mem_range.2 h))

/-! ### The events of a car set -/

section
variable {s : State} {w : Wing} {k : CarSetKey} {step : Nat} {c : CarSet}

theorem exec_carSetFirstTick (hc : carSetOf s w k = some c) : exec (.carSetFirstTick w k) s =
    .next (if c.phase = .armed ∧ csFirstTick c.desc ≤ (tickOf s w).toNat then
      pumpRing (s.modCarSet w k fun c => { c with phase := .running }) w else s) := by
  simp [exec, execCarSetFirstTick, hc]

theorem exec_carSendSlot (hc : carSetOf s w k = some c) (hrun : c.phase = .running) (hstep : step + 1 < csSteps c.desc)
    (hslot : 16 * frameTick c.desc step + csSendSlot c.desc ≤ 16 * (tickOf s w).toNat + 15)
    (hnew : (c.step step).sending = false) : exec (.carSendSlot w k step) s =
      .next (pumpRing ((atSlot s w (frameTick c.desc step) (csSendSlot c.desc)).modCarSet w k fun c => c.queueStep step) w) := by
  simp [exec, execCarSendSlot, hc, CarSet.running, hrun, hstep, slotCome, hslot, hnew]

theorem exec_carStepFree_stays (hc : carSetOf s w k = some c) (h : c.phase ≠ .running ∨ stepMayFree s w c step = false) :
    exec (.carStepFree w k step) s = .next s := by
  obtain h | h := h <;> simp [exec, execCarStepFree, hc, CarSet.running, h]

theorem exec_carStepFree (hc : carSetOf s w k = some c) (hrun : c.phase = .running) (hfree : stepMayFree s w c step = true)
    (hmore : step + 1 ≠ csSteps c.desc) : exec (.carStepFree w k step) s =
      .next (pumpRing (s.modCarSet w k fun c => c.modStep step fun x => { x with free := true }) w) := by
  simp [exec, execCarStepFree, hc, CarSet.running, hrun, hfree, hmore]

/-- Bound tasks of a car set that still need cars (R352). -/
def stillNeeding (s : State) (w : Wing) (k : CarSetKey) : List Task :=
  s.tasks.filter fun t => boundTo w k t && (match t.work with
    | .chain x => decide (x.carsDone < carsNeeded t (parseChain t.body))
    | _ => false)

theorem mem_stillNeeding {t : Task} (h : t ∈ stillNeeding s w k) : t ∈ s.tasks ∧ boundTo w k t = true :=
  (List.mem_filter.1 h).imp id fun h => (Bool.and_eq_true_iff.1 h).1

/-- R350, R352: the last step ends the set, and the bound tasks of it that still need cars. -/
theorem exec_carStepFree_last (hc : carSetOf s w k = some c) (hrun : c.phase = .running)
    (hfree : stepMayFree s w c step = true) (hlast : step + 1 = csSteps c.desc) : exec (.carStepFree w k step) s =
      .next (pumpRing ((stillNeeding s w k).foldl (fun s t => stopTask s t.id 0x0304)
        ((s.modCarSet w k fun c => c.modStep step fun x => { x with free := true }).modCarSet w k fun c =>
          { c with phase := .done })) w) := by
  simp only [exec, execCarStepFree, hc, CarSet.running, hrun, hfree, hlast, Bool.and_self, Bool.not_true, beq_self_eq_true,
    Bool.false_eq_true, if_false, if_true]
  rfl

theorem foldl_stopTask_touch (l : List Task) (s : State) (cause : Nat) :
    Touch 0x801c0100 s (l.foldl (fun s t => stopTask s t.id cause) s) :=
  Touch.foldl (Touch.refl s) fun _ _ h => Touch.step (stopTask_touch ..) rfl h

theorem carStepFree_last (hc : carSetOf s w k = some c) (hrun : c.phase = .running)
    (hfree : stepMayFree s w c step = true) (hlast : step + 1 = csSteps c.desc) :
    ∃ u d, exec (.carStepFree w k step) s = .next u ∧ carSetOf u w k = some d ∧ d.phase = .done
      ∧ ∀ i, (∀ t ∈ s.tasks, t.id = i → boundTo w k t = false) → taskOf u i = taskOf s i := by
  have hdone := carSetOf_modCarSet_self (f := fun c => { c with phase := .done }) (fun _ => rfl)
    (carSetOf_modCarSet_self (f := fun c => c.modStep step fun x => { x with free := true }) (fun _ => rfl) hc)
  obtain ⟨d, hd, hsends⟩ := (pumpRing_sendFrame w _).sets k _
    (((foldl_stopTask_touch (stillNeeding s w k) _ 0x0304).carSetOf rfl w k).trans hdone)
  refine ⟨_, d, exec_carStepFree_last hc hrun hfree hlast, hd, hsends.phase, fun i hi => ?_⟩
  have hnone : ¬ ∃ t ∈ stillNeeding s w k, t.id = i := by
    rintro ⟨t, ht, hid⟩
    obtain ⟨hmem, hbound⟩ := mem_stillNeeding ht
    rw [hi t hmem hid] at hbound
    cases hbound
  rw [(pumpRing_touch ..).taskOf rfl, taskOf_foldl_stopTask]
  simp only [hnone, if_false, Option.map_id']
  rfl

end

/-! ### A bound task computes on a car (R349, R352) -/

section
variable {s a : State} {t : Task} {x : ChainWork} {c : CarSet} {step car n : Nat} {ref : CarRef}

theorem computeCar_of_absent (h : heldCar c step car = none) : computeCar a t x c step car = a := by
  simp only [computeCar, h]

theorem computeCar_of_other (hheld : heldCar c step car = some ref) (hbefore : carsBefore c step = some n)
    (h : carsNeeded t (parseChain t.body) ≤ x.carsDone ∨ n + car ≠ x.carsDone % argKcount t.hdr) :
    computeCar a t x c step car = a := by
  simp only [computeCar, hheld, hbefore]
  exact if_neg fun hnext => h.elim (Nat.not_le.2 hnext.1) (absurd hnext.2)

section
variable (hheld : heldCar c step car = some ref) (hbefore : carsBefore c step = some n)
  (hneed : x.carsDone < carsNeeded t (parseChain t.body)) (hnext : n + car = x.carsDone % argKcount t.hdr)
include hheld hbefore hneed hnext

theorem computeCar_of_next {u : State} {r : ChainRun}
    (hrun : runCar t (parseChain t.body) ref (n + car) a (x, noFlags) = (u, .ok r))
    (hmore : r.1.carsDone ≠ carsNeeded t (parseChain t.body)) : computeCar a t x c step car = putChain u t.id r := by
  simp only [computeCar, hheld, hbefore]
  rw [if_pos ⟨hneed, hnext⟩, hrun]
  dsimp only
  rw [if_neg hmore]
  rfl

theorem computeCar_of_last {u v : State} {r q : ChainRun}
    (hrun : runCar t (parseChain t.body) ref (n + car) a (x, noFlags) = (u, .ok r))
    (hlast : r.1.carsDone = carsNeeded t (parseChain t.body))
    (hparts : completeParts t (parseChain t.body) u r = (v, .ok q)) : computeCar a t x c step car = putChain v t.id q := by
  simp only [computeCar, hheld, hbefore]
  rw [if_pos ⟨hneed, hnext⟩, hrun]
  dsimp only
  rw [if_pos hlast, hparts]
  rfl

end

theorem exec_carComputeSlot {w : Wing} {k : CarSetKey} {car : BitVec 16} {id : Nat} (hc : carSetOf s w k = some c)
    (ht : taskOf s id = some t) (hrun : c.phase = .running) (hbound : boundTo w k t = true) (hstep : step < csSteps c.desc)
    (hslot : 16 * frameTick c.desc step + csComputeSlot c.desc ≤ 16 * (tickOf s w).toNat + 15)
    (hstatus : t.status = .running) (hwork : t.work = .chain x) {u : State}
    (hu : computeCar (atSlot { s with heldAt := none } w (frameTick c.desc step) (csComputeSlot c.desc)) t x c step car.toNat = u)
    (hfree : u.heldAt = none) : exec (.carComputeSlot w k step car id) s = .next u := by
  refine congrArg Host.Outcome.next (orWait_eq ?_ hfree)
  have hc' : carSetOf { s with heldAt := none } w k = some c := hc
  have ht' : taskOf { s with heldAt := none } id = some t := ht
  have hslot' : slotCome { s with heldAt := none } w (frameTick c.desc step) (csComputeSlot c.desc) = true :=
    decide_eq_true hslot
  simp only [hc', ht', CarSet.running, hrun, hbound, hstep, hslot', hstatus, hwork]
  exact hu

end

end Sys2Proof.Machine

namespace Sys2Proof

open Sys2Proof.Machine

/-- Settles O34: the events by their conditions, a car by what `computeCar` does with it, and the frame of `pumpRing`. -/
theorem carSetsRun : Obligations.CarSetsRun := by
  unfold Obligations.CarSetsRun
  refine ⟨fun s w k step c hc => ⟨?_, ?_, ?_, ?_, ?_, ?_⟩, ?_, ?_⟩
  · intro harmed hfirst
    rw [exec_carSetFirstTick hc, if_pos ⟨harmed, hfirst⟩]
  · intro h
    rw [exec_carSetFirstTick hc, if_neg fun hnow => h.elim (absurd hnow.1) (Nat.not_lt.2 hnow.2)]
  · intro hrun hstep hslot hnew
    refine ⟨exec_carSendSlot hc hrun hstep hslot hnew, (queueStep_sendsOnly c step).phase.trans hrun, queueStep_sending c step, ?_⟩
    intro _ j hj
    exact sends_queueStep_zero c hj
  · intro hrun hfree hmore
    exact exec_carStepFree hc hrun hfree hmore
  · intro hrun hfree hlast
    exact carStepFree_last hc hrun hfree hlast
  · exact exec_carStepFree_stays hc
  · intro s w k step car id c t x hc ht hrun hbound hstep hslot hstatus hwork a b
    have hexec := fun {u} => exec_carComputeSlot (car := car) (u := u) hc ht hrun hbound hstep hslot hstatus hwork
    have ha : a.heldAt = none := (atSlot_touch ..).eq .heldAt rfl
    refine ⟨fun habsent => hexec (computeCar_of_absent habsent) ha, fun ref n hheld hbefore => ⟨fun hneed hnext => ⟨?_, ?_⟩, ?_⟩⟩
    · intro u r hcar hmore
      have hu : u.heldAt = a.heldAt := (Touch.fst hcar (runCar_touch ..)).eq .heldAt rfl
      exact hexec (computeCar_of_next hheld hbefore hneed hnext hcar hmore) (hu.trans ha)
    · intro u r v q hcar hlast hparts
      have hu : u.heldAt = a.heldAt := (Touch.fst hcar (runCar_touch ..)).eq .heldAt rfl
      have hv : v.heldAt = u.heldAt := (Touch.fst hparts (completeParts_touch ..)).eq .heldAt rfl
      exact hexec (computeCar_of_last hheld hbefore hneed hnext hcar hlast hparts) (hv.trans (hu.trans ha))
    · intro hother
      exact hexec (computeCar_of_other hheld hbefore hother) ha
  · intro s w k c hc
    have hframe := pumpRing_sendFrame w s
    obtain ⟨d, hd, hsends⟩ := hframe.sets k c hc
    refine ⟨d, hd, hsends.phase, hsends.desc, fun n => ?_, hframe.other, (pumpRing_touch s w).eq .tasks rfl,
      (pumpRing_touch s w).cells rfl⟩
    rw [hsends.step n]
    exact ⟨rfl, rfl, rfl, rfl, rfl⟩

end Sys2Proof
end
section
/-!
PROOF. The body of an admitted car (R343, R346, R347, R348): stored, counted when late and kept as received, or discarded, or
failing the car set.
-/

namespace Sys2Proof.Machine

/-- A frame from a mask, where the whole of memory may change. -/
theorem Touch.onlyChanges_of_memory {m : Nat} {ps : List StatePart} {s t : State} (h : Touch m s t) (hmem : .mem ∈ ps)
    (hframe : .frameBytes ∈ ps) (hscratch : .scratch ∈ ps) (hp : ∀ p, p ∉ ps → m.testBit p.idx = false) :
    OnlyChanges ps s t := fun p hn => by
  cases p with
  | mem => exact absurd hmem hn
  | frameBytes => exact absurd hframe hn
  | scratch => exact absurd hscratch hn
  | _ => exact h.eq _ (hp _ hn)

/-- R325: within the current tick an event's slot is the slot from then on, unless that is later. -/
theorem atSlot_now (s : State) (w : Wing) (slot : Fin 16) :
    atSlot s w (tickOf s w).toNat slot.val = s.modTt w fun t => { t with slot := max t.slot slot.val } := by
  have hslot : (16 * (tickOf s w).toNat + slot.val) % 16 = slot.val := by omega
  rw [atSlot, if_pos (by omega), hslot]

/-- R347, R348: a car set that keeps a car as received, and queues it once its step's sends have begun. -/
def CarSet.keepBody (c : CarSet) (k j : Nat) (h : Entry) : CarSet :=
  let c := c.modStep k fun x => { x with received := Table.insert x.received j h, admitted := Table.erase x.admitted j }
  if (c.step k).sending then c.queueSend k j else c

theorem keepBody_sendsOnly (c : CarSet) (k j : Nat) (h : Entry) :
    SendsOnly (c.modStep k fun x => { x with received := Table.insert x.received j h, admitted := Table.erase x.admitted j })
      (c.keepBody k j h) := by
  unfold CarSet.keepBody
  dsimp only
  split
  · exact sendsOnly_queueSend ..
  · exact .refl _

/-- R348: a late body is counted. -/
def countLate (s : State) (w : Wing) (late : Bool) : State := if late then addCtr s (blkTt w) 0x0140 else s

theorem countLate_touch (s : State) (w : Wing) (late : Bool) : Touch 0x801c1000 s (countLate s w late) :=
  Touch.ite (fun _ => addCtr_touch_tt ..) fun _ => Touch.refl s

/-- A state with a car kept as received, the body having been stored, and with the sends that may go out. -/
def bodyKept (s : State) (w : Wing) (key : CarSetKey) (k j : Nat) (h : Entry) (late : Bool) : State :=
  pumpRing ((countLate s w late).modCarSet w key fun c => c.keepBody k j h) w

theorem receiveBody_stored {s u : State} {w : Wing} {c : CarSet} {k j : Nat} {body : List Byte} (h : Entry)
    (hsave : saveVa s (ringCtx s w c.key.part.val) (carVa c.desc k j) body = (u, none)) :
    receiveBody s w c k j h body = bodyKept u w c.key k j h
      (decide (16 * frameTick c.desc k + csComputeSlot c.desc < 16 * (u.tt.get w).count.toNat + (u.tt.get w).slot)) := by
  simp only [receiveBody, hsave]
  rfl

theorem receiveBody_failed {s u : State} {w : Wing} {c : CarSet} {k j : Nat} {body : List Byte} {e : AccErr} (h : Entry)
    (hsave : saveVa s (ringCtx s w c.key.part.val) (carVa c.desc k j) body = (u, some e)) :
    receiveBody s w c k j h body = failBody u w c e := by
  simp only [receiveBody, hsave]

section
variable {u : State} {w : Wing} {key : CarSetKey} {k j : Nat} {h : Entry} {late : Bool}

theorem bodyKept_touch : Touch 0x2801fb000 u (bodyKept u w key k j h late) :=
  Touch.step (pumpRing_touch ..) rfl (Touch.step (State_modCarSet_touch ..) rfl ((countLate_touch ..).weaken rfl))

theorem carSetOf_bodyKept {c : CarSet} (hc : carSetOf u w key = some c) :
    ∃ d, carSetOf (bodyKept u w key k j h late) w key = some d ∧ d.phase = c.phase
      ∧ Table.find (d.step k).received j = some h ∧ Table.find (d.step k).admitted j = none := by
  have hkept : carSetOf ((countLate u w late).modCarSet w key fun c => c.keepBody k j h) w key = some (c.keepBody k j h) :=
    carSetOf_modCarSet_self (fun c => (keepBody_sendsOnly c k j h).key) (((countLate_touch ..).carSetOf rfl w key).trans hc)
  obtain ⟨d, hd, hsends⟩ := (pumpRing_sendFrame w _).sets key _ hkept
  have hsends := (keepBody_sendsOnly c k j h).trans hsends
  refine ⟨d, hd, hsends.phase, ?_, ?_⟩
  · rw [hsends.step, CarSet.step_modStep_self]
    exact Table.find_insert_self ..
  · rw [hsends.step, CarSet.step_modStep_self]
    exact Table.find_erase_self ..

theorem ctr_bodyKept : ctr (bodyKept u w key k j h late) (blkTt w) 0x0140 = ctr (countLate u w late) (blkTt w) 0x0140 :=
  ((pumpRing_sendFrame w _).counters 0x0140 (by decide)).trans (ctr_tt_congr rfl _)

end

section
variable {s : State} {w : Wing} {k : CarSetKey} {step : Nat} {car : BitVec 16} {body : List Byte} {slot : Fin 16} {c : CarSet}

theorem exec_carBodyReceived_discarded (hc : carSetOf s w k = some c)
    (h : Table.find (c.step step).admitted car.toNat = none ∨ body.length ≠ carBytes c.desc) :
    exec (.carBodyReceived w k step car ⟨body, slot⟩) s = .next { s with heldAt := none } := by
  refine congrArg Host.Outcome.next (orWait_eq ?_ rfl)
  have hc' : carSetOf { s with heldAt := none } w k = some c := hc
  simp only [hc']
  obtain h | h := h
  · simp only [h]
  · cases Table.find (c.step step).admitted car.toNat with
    | none => rfl
    | some _ => exact if_neg (by simpa using h)

theorem exec_carBodyReceived {h : Entry} {u : State} (hc : carSetOf s w k = some c)
    (hh : Table.find (c.step step).admitted car.toNat = some h) (hlen : body.length = carBytes c.desc)
    (hu : receiveBody (atSlot { s with heldAt := none } w (tickOf s w).toNat slot.val) w c step car.toNat h body = u)
    (hfree : u.heldAt = none) : exec (.carBodyReceived w k step car ⟨body, slot⟩) s = .next u := by
  refine congrArg Host.Outcome.next (orWait_eq ?_ hfree)
  have hc' : carSetOf { s with heldAt := none } w k = some c := hc
  simp only [hc', hh, hlen, beq_self_eq_true, if_true]
  exact hu

end

end Sys2Proof.Machine

namespace Sys2Proof

open Sys2Proof.Machine

/-- Settles O36: the body goes through `saveVa`, and what follows it is `bodyKept`, which leaves memory as it is stored. -/
theorem carBodyStored : Obligations.CarBodyStored := by
  unfold Obligations.CarBodyStored
  intro s w k step car body slot c hc a
  obtain rfl : c.key = k := key_of_carSetOf hc
  have ha : a = _ := atSlot_now { s with heldAt := none } w slot
  refine ⟨exec_carBodyReceived_discarded hc, ?_, ?_⟩
  · intro h u e hh hlen hsave hfree
    exact exec_carBodyReceived hc hh hlen (receiveBody_failed h hsave) hfree
  · intro h u hh hlen hsave
    have hau : Touch 0x30881c0016 a u := Touch.fst hsave (saveVa_touch ..)
    have hsa : Touch 0x400001000 s a := Touch.step (atSlot_touch ..) rfl ((touch_heldAt s).weaken rfl)
    have htt : u.tt.get w = { s.tt.get w with slot := max (s.tt.get w).slot slot.val } := by
      rw [show u.tt = a.tt from hau.eq .tt rfl, ha]
      exact modTt_get ..
    have hcu : carSetOf u w c.key = some c := (hau.carSetOf rfl ..).trans ((hsa.carSetOf rfl ..).trans hc)
    have hctr : ctr u (blkTt w) 0x0140 = ctr s (blkTt w) 0x0140 := ctr_tt_congr (by rw [htt]) _
    obtain ⟨late, hstored, hlate⟩ : ∃ late, receiveBody a w c step car.toNat h body = bodyKept u w c.key step car.toNat h late
        ∧ (late = true ↔ 16 * frameTick c.desc step + csComputeSlot c.desc <
          16 * (s.tt.get w).count.toNat + max (s.tt.get w).slot slot.val) :=
      ⟨_, receiveBody_stored h hsave, by rw [htt]; exact decide_eq_true_iff⟩
    obtain ⟨d, hd, hphase, hreceived, hadmitted⟩ := carSetOf_bodyKept (late := late) hcu
    have hv := bodyKept_touch (u := u) (w := w) (key := c.key) (k := step) (j := car.toNat) (h := h) (late := late)
    have hfree : u.heldAt = none := (hau.eq .heldAt rfl).trans ((atSlot_touch ..).eq .heldAt rfl)
    refine ⟨_, d, exec_carBodyReceived hc hh hlen hstored ((hv.eq .heldAt rfl).trans hfree), hv.cells rfl, hd, hphase,
      hreceived, hadmitted, ⟨fun h => ?_, fun h => ?_⟩, ?_⟩
    · rw [ctr_bodyKept, hlate.2 h, countLate, if_pos rfl, ctr_addCtr_tt_self, hctr]
    · rw [ctr_bodyKept, Bool.eq_false_iff.2 fun hb => h (hlate.1 hb)]
      exact hctr
    · have htouch : Touch 0x36881fb016 s _ := Touch.step hv rfl (Touch.step hau rfl (hsa.weaken rfl))
      exact htouch.onlyChanges_of_memory (by decide) (by decide) (by decide) fun p => by cases p <;> decide

end Sys2Proof
end
section
/-!
PROOF. Headers of cars, their answers, and abort notices (R342 to R345, R359, R360).
-/

namespace Sys2Proof.Machine

/-! ### Headers received (R343) -/

section
variable {s : State} {w : Wing} {l : LinkEnd} {h : Entry}

theorem exec_carHeaderReceive_refused {q : Fin 8} {r : Nat} (hpred : fromPredecessor s w l = true) (hkind : carKind h ≠ 1)
    (hr : judgeHeader s w l h = some r) : exec (.carHeaderReceive w l q h) s =
      .next (pumpRing (sendAnswer (addCtr s (blkTt w) 0x0130) l q.val r) w) := by
  simp [exec, execCarHeaderReceive, hpred, hkind, hr, answerHeader]

theorem exec_carHeaderReceive_admitted {q : Fin 8} (hpred : fromPredecessor s w l = true) (hkind : carKind h ≠ 1)
    (hr : judgeHeader s w l h = none) : exec (.carHeaderReceive w l q h) s =
      .next (pumpRing (sendAnswer (addCtr (admitHeader s w h) (blkTt w) 0x0128) l q.val 0) w) := by
  simp [exec, execCarHeaderReceive, hpred, hkind, hr, answerHeader]

theorem notTimetabled_iff : notTimetabled s w l = true ↔
    stopLocked s w = false ∨ inService s = false ∨ (isConcourse l = false ∧ inWindow s w = true) := by
  simp [notTimetabled, or_assoc]

theorem judgeHeader_notTimetabled (hno : notTimetabled s w l = true) : judgeHeader s w l h = some 0x01 := by
  rw [judgeHeader, if_pos hno]

theorem judgeHeader_disabled (hyes : notTimetabled s w l = false)
    (hrec : recEnabled (partRec (cfgAt s (tileIn w 0)) (carPart h)) = false) : judgeHeader s w l h = some 0x06 := by
  rw [judgeHeader, if_neg (by simp [hyes]), if_pos (by simp [hrec])]

/-- Key of the car set that a header names (R341). -/
def headerKey (h : Entry) : CarSetKey := ⟨Fin.ofNat 16 (carPart h), BitVec.ofNat 16 (carSetNum h)⟩

/-- R348: the receiver keeps the header of an admitted car for its step. -/
theorem admitHeader_car (hkind : carKind h ≠ 2) : admitHeader s w h = s.modCarSet w (headerKey h) fun c =>
    c.modStep (carStep h) fun x => { x with admitted := Table.insert x.admitted (carIndex h) h } := by
  simp only [admitHeader, hkind, if_false]
  rfl

/-! ### Abort notices (R345, R359) -/

theorem stopNum_congr {u : State} (hu : u.cst = s.cst) : stopNum u w = stopNum s w := by
  simp only [stopNum, dictVal, dictHeld, dictDefault, hu]

/-- A stop answers a notice and fails its own car set. -/
def noticeTaken (s : State) (w : Wing) (l : LinkEnd) (q : Nat) (h : Entry) : State :=
  let a := sendAnswer (addCtr s (blkTt w) 0x0128) l q 0
  (carSetOf a w (headerKey h)).elim a fun c => failCarSet a w c (carCause h) (carOrigin h) false

theorem noticeTaken_cst (q : Nat) : (noticeTaken s w l q h).cst = s.cst := by
  have ha : (sendAnswer (addCtr s (blkTt w) 0x0128) l q 0).cst = s.cst :=
    ((sendAnswer_touch ..).eq .cst rfl).trans ((addCtr_touch_tt ..).eq .cst rfl)
  unfold noticeTaken
  dsimp only
  cases carSetOf (sendAnswer (addCtr s (blkTt w) 0x0128) l q 0) w (headerKey h) with
  | none => exact ha
  | some c => exact ((failCarSet_touch ..).eq .cst rfl).trans ha

theorem exec_abortNoticeReceive_refused {q : Fin 8} (hpred : fromPredecessor s w l = true) (hkind : carKind h = 1)
    (hno : notTimetabled s w l = true) : exec (.abortNoticeReceive w l q h) s =
      .next (sendAnswer (addCtr s (blkTt w) 0x0130) l q.val 1) := by
  simp [exec, execAbortNoticeReceive, hpred, hkind, hno, answerHeader]

theorem exec_abortNoticeReceive {q : Fin 8} (hpred : fromPredecessor s w l = true) (hkind : carKind h = 1)
    (hyes : notTimetabled s w l = false) : exec (.abortNoticeReceive w l q h) s =
      .next (if carOrigin h = stopNum s w then pumpRing (noticeTaken s w l q.val h) w
        else queueNotice (noticeTaken s w l q.val h) w (headerKey h) h) := by
  have hexec : exec (.abortNoticeReceive w l q h) s =
      .next (if carOrigin h = stopNum (noticeTaken s w l q.val h) w then pumpRing (noticeTaken s w l q.val h) w
        else queueNotice (noticeTaken s w l q.val h) w (headerKey h) h) := by
    have hanswer : answerHeader s w l q.val none = sendAnswer (addCtr s (blkTt w) 0x0128) l q.val 0 := rfl
    cases hc : carSetOf (sendAnswer (addCtr s (blkTt w) 0x0128) l q.val 0) w (headerKey h) <;> rw [headerKey] at hc <;>
      simp only [exec, execAbortNoticeReceive, hpred, hkind, hyes, hanswer, noticeTaken, headerKey, hc, Option.elim_none,
        Option.elim_some, Bool.not_true, Bool.false_or, bne_self_eq_false, Bool.false_eq_true, if_false]
  rw [hexec, stopNum_congr (noticeTaken_cst q.val)]

end

/-! ### A car set fails (R345, R359) -/

section
variable {s : State} {w : Wing} {c : CarSet} {cause origin : Nat} {own : Bool}

/-- A car set marked as failed, its sends dropped and its failure reported and captured, its bound tasks not yet stopped. -/
def failReported (s : State) (w : Wing) (c : CarSet) (cause origin : Nat) (own : Bool) : State :=
  logCause (captureCarFail (raise
    (stopSending (s.modCarSet w c.key fun x => { x with phase := .failed (BitVec.ofNat 16 cause) }) w c.key)
    0x0306 c.key.num.toNat (blkTt w) c.key.part.val) w c.key cause origin own)
    { wing := w, unit := .ring, cause := cause, part := c.key.part.val, detail := c.key.num.toNat }

theorem failCarSet_of_running (hrun : c.phase = .running) :
    failCarSet s w c cause origin own = stopBound (failReported s w c cause origin own) w c.key cause :=
  if_neg (by simp [CarSet.running, hrun])

theorem failReported_touch : Touch 0x801d9000 (s.modCarSet w c.key fun x => { x with phase := .failed (BitVec.ofNat 16 cause) })
    (failReported s w c cause origin own) :=
  Touch.step (logCause_touch ..) rfl (Touch.step (captureCarFail_touch ..) rfl (Touch.step (raise_touch ..) rfl
    ((stopSending_touch ..).weaken rfl)))

theorem carSetOf_failCarSet {k : CarSetKey} (hc : carSetOf s w k = some c) (hrun : c.phase = .running) :
    carSetOf (failCarSet s w c cause origin own) w k = some { c with phase := .failed (BitVec.ofNat 16 cause) } := by
  obtain rfl : c.key = k := key_of_carSetOf hc
  rw [failCarSet_of_running hrun, (stopBound_touch ..).carSetOf rfl, failReported_touch.carSetOf rfl]
  exact carSetOf_modCarSet_self (fun _ => rfl) hc

/-- R359: the first failure since the last FAIL_CLR is captured. -/
theorem failInfo_failCarSet (hrun : c.phase = .running) (hfirst : flg (s.tt.get w).failInfo 31 = false) :
    ((failCarSet s w c cause origin own).tt.get w).failInfo =
      pack [(1, 31), (b2n own, 28), (c.key.part.val, 24), (origin % 256, 16), (cause % 65536, 0)] := by
  rw [failCarSet_of_running hrun, show (stopBound _ w c.key cause).tt = _ from (stopBound_touch ..).eq .tt rfl, failReported,
    logCause_tt]
  have htt : (raise (stopSending (s.modCarSet w c.key fun x => { x with phase := .failed (BitVec.ofNat 16 cause) }) w c.key)
      0x0306 c.key.num.toNat (blkTt w) c.key.part.val).tt = s.tt := (raise_tt ..).trans ((stopSending_touch ..).eq .tt rfl)
  rw [captureCarFail, htt, if_neg (by simp [hfirst]), modTt_get]

/-- R345: a task that is bound to a car set stops with the cause of its failure. -/
theorem taskOf_failCarSet {i : Nat} {t : Task} (hrun : c.phase = .running) (ht : taskOf s i = some t)
    (hbound : boundTo w c.key t = true) :
    taskOf (failCarSet s w c cause origin own) i = some (t.stopped cause) := by
  have htasks : (failReported s w c cause origin own).tasks = s.tasks := failReported_touch.eq .tasks rfl
  have hmine : ∃ x ∈ s.tasks.filter (boundTo w c.key), x.id = i :=
    ⟨t, List.mem_filter.2 ⟨List.mem_of_find?_eq_some ht, hbound⟩, id_of_taskOf ht⟩
  rw [failCarSet_of_running hrun, stopBound, taskOf_foldl_stopTask, htasks]
  have hkept : taskOf (failReported s w c cause origin own) i = some t := by
    rw [taskOf, htasks]
    exact ht
  simp only [hkept, hmine, if_true, Option.map_some]

end

/-! ### Answers (R342, R344) -/

section
variable {s : State} {l : LinkEnd} {answer : BitVec 16}

theorem linkOf_heldAt (held : Option WaitFor) : linkOf { s with heldAt := held } l = linkOf s l := by
  cases l with
  | port => rfl
  | concourse w => cases w <;> rfl

theorem exec_carAnswerReceive {u : State} (hup : linkUp s l = true) (hu : takeAnswer { s with heldAt := none } l answer = u)
    (hfree : u.heldAt = none) : exec (.carAnswerReceive l answer) s = .next u := by
  have hexec : exec (.carAnswerReceive l answer) s = .next (if linkUp s l then orWait s fun s => takeAnswer s l answer else s) := rfl
  rw [hexec, hup, if_pos rfl, orWait_eq hu hfree]

section
variable {h : SentHeader} {hs : List SentHeader} (hopen : (linkOf s l).unanswered = h :: hs)
include hopen

theorem takeAnswer_ignored (hno : bits answer.toNat 13 11 ≠ h.hseq ∨ bits answer.toNat 15 14 ≠ 1 ∧ bits answer.toNat 15 14 ≠ 2) :
    takeAnswer s l answer = s := by
  simp only [takeAnswer, hopen]
  refine if_neg fun hyes => ?_
  obtain ⟨hcode, hseq⟩ := hyes
  exact hno.elim (absurd hseq) fun hno => hcode.elim hno.1 hno.2

theorem takeAnswer_admitted (hseq : bits answer.toNat 13 11 = h.hseq) (hcode : bits answer.toNat 15 14 = 1) :
    takeAnswer s l answer = pumpRing (onAdmit (s.modLink l fun k => { k with unanswered := hs }) l h.car) (endWing l) := by
  simp only [takeAnswer, hopen, hseq, hcode, true_or, and_self, if_true]

theorem takeAnswer_refused (hseq : bits answer.toNat 13 11 = h.hseq) (hcode : bits answer.toNat 15 14 = 2) :
    takeAnswer s l answer = pumpRing (onRefuse (s.modLink l fun k => { k with unanswered := hs }) l h.car
      (bits answer.toNat 7 0)) (endWing l) := by
  simp only [takeAnswer, hopen, hseq, hcode, or_true, and_self, if_true]
  rfl

end

variable {c : SentCar} {x : CarSet}

/-- R343, R347: the body of an admitted car leaves on the link of its answer. -/
theorem onAdmit_car (hkind : c.kind = 0) (hx : carSetOf s (endWing l) c.key = some x) (hrun : x.phase = .running) {b : State}
    {bs : List Byte}
    (hload : loadVa (s.modCarSet (endWing l) c.key fun x => x.setSend c.step c.car .admitted)
      (ringCtx (s.modCarSet (endWing l) c.key fun x => x.setSend c.step c.car .admitted) (endWing l) c.key.part.val)
      (carVa x.desc c.step c.car) (carBytes x.desc) = (b, .ok bs)) :
    onAdmit s l c = (bodyFlits c bs).foldl (fun s b => sendFlit s l b) b := by
  simp [onAdmit, hkind, hx, CarSet.running, hrun, hload]

/-- A car set after a refusal of one of its cars. -/
def CarSet.refuseSend (c : SentCar) (win : Bool) (now : Nat) (x : CarSet) : CarSet :=
  match Table.find (x.step c.step).sends c.car with
  | some p => x.setSend c.step c.car (p.refuse win now)
  | none => x

theorem refuseSend_key (win : Bool) (now : Nat) (x : CarSet) : (x.refuseSend c win now).key = x.key := by
  unfold CarSet.refuseSend
  split <;> rfl

theorem onRefuse_car {r : Nat} (hkind : c.kind = 0) (hx : carSetOf s (endWing l) c.key = some x) (hrun : x.phase = .running)
    (h4 : r ≠ 4) (h5 : r ≠ 5) (h6 : r ≠ 6) : onRefuse s l c r = s.modCarSet (endWing l) c.key
      (CarSet.refuseSend c (inWindow s (endWing l)) (s.tt.get (endWing l)).openTicks) := by
  simp only [onRefuse, hkind, hx, CarSet.running, hrun, h4, h5, h6, Nat.zero_ne_one, or_self, beq_self_eq_true, Bool.not_true,
    Bool.false_eq_true, if_false]
  rfl

/-- R337, R344: a refusal starts the back-off; the patience timer starts with the first one outside windows. -/
theorem sends_onRefuse {r n : Nat} {t : Option Nat} (hkind : c.kind = 0) (hx : carSetOf s (endWing l) c.key = some x)
    (hrun : x.phase = .running) (hsend : Table.find (x.step c.step).sends c.car = some (.offered n t))
    (h4 : r ≠ 4) (h5 : r ≠ 5) (h6 : r ≠ 6) : ∃ d, carSetOf (onRefuse s l c r) (endWing l) c.key = some d
      ∧ Table.find (d.step c.step).sends c.car = some (.backoff (n + 1)
        (if t.isNone && !inWindow s (endWing l) then some (s.tt.get (endWing l)).openTicks else t)) := by
  refine ⟨_, by rw [onRefuse_car hkind hx hrun h4 h5 h6]; exact carSetOf_modCarSet_self (refuseSend_key _ _) hx, ?_⟩
  simp only [CarSet.refuseSend, hsend, CarSet.sends_setSend_self]
  rfl

end

/-! ### Back-off, patience and headers that go out (R344, R360) -/

section
variable {s : State} {w : Wing} {k : CarSetKey} {step : Nat} {car : BitVec 16} {c : CarSet}

theorem exec_carRetryBackoffExpiry {n : Nat} {t : Option Nat} (hc : carSetOf s w k = some c) (hrun : c.phase = .running)
    (hsend : Table.find (c.step step).sends car.toNat = some (.backoff n t)) : exec (.carRetryBackoffExpiry w k step car) s =
      .next (pumpRing (s.modCarSet w k fun c => c.setSend step car.toNat (.ready n t)) w) := by
  simp [exec, execCarRetryBackoffExpiry, hc, CarSet.running, hrun, hsend]

theorem exec_carPatienceExpiry {p : SendPhase} (hc : carSetOf s w k = some c) (hrun : c.phase = .running)
    (hsend : Table.find (c.step step).sends car.toNat = some p) : exec (.carPatienceExpiry w k step car) s =
      .next (if patienceOver s w p then failHere s w c 0x0301 else s) := by
  simp [exec, execCarPatienceExpiry, hc, CarSet.running, hrun, hsend]

theorem countRetry_ready (n : Nat) (t : Option Nat) :
    countRetry s w (.ready n t) = if n = 0 then s else addCtr s (blkTt w) 0x0138 := by
  by_cases h : n = 0 <;> simp [countRetry, SendPhase.wasRefused, h]

theorem offerCar_ready {j n : Nat} {t : Option Nat} {l : LinkEnd} {h : Entry} (hl : pickMember s w = some l)
    (hh : headerFor s w c step j = some h) : offerCar w c s (step, j, .ready n t) =
      sendHeader ((if n = 0 then s else addCtr s (blkTt w) 0x0138).modCarSet w c.key fun c => c.setSend step j (.offered n t)) l
        ⟨c.key, step, j, carKind h⟩ h := by
  simp only [offerCar, hl, hh, countRetry_ready]
  rfl

end

end Sys2Proof.Machine

namespace Sys2Proof

open Sys2Proof.Machine

/-- Settles O35: headers by `judgeHeader`, notices by `failCarSet`, answers by `onAdmit` and `onRefuse`. -/
theorem carsAnswered : Obligations.CarsAnswered := by
  unfold Obligations.CarsAnswered
  refine ⟨?_, ?_, ?_, ?_, ?_, ?_⟩
  · intro s w l q h hpred hkind
    refine ⟨fun r => exec_carHeaderReceive_refused hpred hkind, exec_carHeaderReceive_admitted hpred hkind,
      fun hno => judgeHeader_notTimetabled (notTimetabled_iff.2 hno), ?_, ?_⟩
    · intro hlocked hservice hopen
      refine judgeHeader_disabled ?_
      obtain hopen | hopen := hopen <;> simp [notTimetabled, hlocked, hservice, hopen]
    · intro c k hc hcar
      rw [admitHeader_car hcar]
      refine ⟨_, carSetOf_modCarSet_self (fun _ => rfl) hc, ?_, rfl, fun n hn => CarSet.step_modStep_of_ne c _ hn⟩
      rw [CarSet.step_modStep_self]
      exact Table.find_insert_self ..
  · intro s w l q h hpred hkind k
    refine ⟨exec_abortNoticeReceive_refused hpred hkind, fun hyes => ⟨fun horigin => ?_, fun horigin => ?_⟩, ?_⟩
    · rw [exec_abortNoticeReceive hpred hkind hyes, if_neg horigin]
      rfl
    · rw [exec_abortNoticeReceive hpred hkind hyes, if_pos horigin]
      rfl
    · intro c cause origin own hc hrun
      have hkey : c.key = k := key_of_carSetOf hc
      refine ⟨_, carSetOf_failCarSet hc hrun, rfl, rfl, fun hfirst => ?_, fun i t ht hbound hstatus => ?_⟩
      · rw [failInfo_failCarSet hrun hfirst, hkey]
      · exact ⟨_, taskOf_failCarSet hrun ht (hkey ▸ hbound), by rw [Task.stopped_of_ne cause hstatus]⟩
  · intro s l answer h hs hup hopen a
    have hopen' : (linkOf { s with heldAt := none } l).unanswered = h :: hs := by rw [linkOf_heldAt, hopen]
    refine ⟨fun hseq hcode hfree => ?_, fun hseq hcode hfree => ?_, fun hno => ?_⟩
    · exact exec_carAnswerReceive hup (takeAnswer_refused hopen' hseq hcode) (((pumpRing_touch ..).eq .heldAt rfl).trans hfree)
    · exact exec_carAnswerReceive hup (takeAnswer_admitted hopen' hseq hcode) (((pumpRing_touch ..).eq .heldAt rfl).trans hfree)
    · exact exec_carAnswerReceive hup (takeAnswer_ignored hopen' hno) rfl
  · intro s l c x hkind hx hrun a
    refine ⟨fun b bs hload => onAdmit_car hkind hx hrun hload, fun n t r hsend h4 h5 h6 => ?_⟩
    obtain ⟨d, hd, hphase⟩ := sends_onRefuse hkind hx hrun hsend h4 h5 h6
    refine ⟨d, hd, _, hphase, fun hsome => ?_, fun hwin => ?_, fun hnone hout => ?_⟩
    · simp [hsome]
    · simp [hwin]
    · simp [hnone, hout]
  · intro s w k step car c hc hrun
    refine ⟨fun n t hsend => exec_carRetryBackoffExpiry hc hrun hsend, fun p hsend => ⟨fun hover => ?_, fun hover => ?_⟩⟩
    · rw [exec_carPatienceExpiry hc hrun hsend, if_pos hover]
    · rw [exec_carPatienceExpiry hc hrun hsend, if_neg (by simp [hover])]
  · exact fun s w c k j n t l h hl hh => offerCar_ready hl hh

end Sys2Proof
end
section
/-!
PROOF. Laws of the Junction: its counters, its contexts by their keys, what closing, failing and committing a collective leave
of them, and what the messages held back do once a context is free (R399, R413, R414).
-/

namespace Sys2Proof.Machine

/-- The parts that a Junction's own operations change. -/
theorem Touch.jnOnly {s t : State} (h : Touch 0x4000 s t) : OnlyChanges [.jn] s t :=
  h.onlyChanges_of_cells rfl fun p => by cases p <;> decide

/-- The parts that a Junction's operations and their reports change. -/
theorem Touch.jnReports {s t : State} (h : Touch 0x801c4000 s t) :
    OnlyChanges [.jn, .hifCtrs, .logs, .pages, .hostOut] s t :=
  h.onlyChanges_of_cells rfl fun p => by cases p <;> decide

/-- The parts that the end of a collective at a wing changes. -/
theorem Touch.collEnd {s t : State} (h : Touch 0x801c4100 s t) :
    OnlyChanges [.tasks, .jn, .hifCtrs, .logs, .pages, .hostOut] s t :=
  h.onlyChanges_of_cells rfl fun p => by cases p <;> decide

/-! ### Counters of a Junction -/

theorem ctrTable_jn (s : State) (w : Wing) : ctrTable s (blkJn w) = (s.jn.get w).ctrs := by cases w <;> rfl

theorem setCtrTable_jn (s : State) (w : Wing) (c : Table Word64) :
    setCtrTable s (blkJn w) c = s.modJn w fun j => { j with ctrs := c } := by cases w <;> rfl

theorem ctr_jn (s : State) (w : Wing) (off : Nat) : ctr s (blkJn w) off = Table.get 0 (s.jn.get w).ctrs off := by
  rw [ctr, ctrTable_jn]

/-- The counters read the same where the Junction lists the same. -/
theorem ctr_jn_congr {s t : State} {w : Wing} (h : (t.jn.get w).ctrs = (s.jn.get w).ctrs) (off : Nat) :
    ctr t (blkJn w) off = ctr s (blkJn w) off := by rw [ctr_jn, ctr_jn, h]

theorem Touch.ctr_jn {m : Nat} {s t : State} (h : Touch m s t) (hm : m.testBit StatePart.jn.idx = false) (w : Wing)
    (off : Nat) : ctr t (blkJn w) off = ctr s (blkJn w) off :=
  ctr_jn_congr (congrArg (fun p => (PerWing.get p w).ctrs) (h.eq .jn hm)) off

theorem ctr_modJn (s : State) (w : Wing) (off : Nat) {f : Junction → Junction} (hf : ∀ j, (f j).ctrs = j.ctrs) :
    ctr (s.modJn w f) (blkJn w) off = ctr s (blkJn w) off := ctr_jn_congr (by rw [modJn_get, hf]) off

/-- What a count changes of the Junctions is the table of its own wing's counters. -/
theorem jn_addCtr (s : State) (w : Wing) (off n : Nat) : (addCtr s (blkJn w) off n).jn = s.jn.modify w fun j =>
    { j with ctrs := Table.set 0 (s.jn.get w).ctrs off (sat64 ((ctr s (blkJn w) off).toNat + n)) } := by
  unfold addCtr
  dsimp only
  rw [setCtrTable_jn, ctrTable_jn]
  split
  · exact raise_jn ..
  · rfl

/-- R557: a count of one adds 1 to a Junction's counter, which stays at its limit. -/
theorem ctr_addCtr_jn_self (s : State) (w : Wing) (off : Nat) :
    (ctr (addCtr s (blkJn w) off) (blkJn w) off).toNat = min (2 ^ 64 - 1) ((ctr s (blkJn w) off).toNat + 1) := by
  rw [ctr_jn, jn_addCtr, PerWing.get_modify_self, Table.get_set_self _ _ (sat64_succ_ne_zero _), toNat_sat64]

theorem ctr_addCtr_jn_of_ne (s : State) (w : Wing) {off o : Nat} (h : o ≠ off) :
    ctr (addCtr s (blkJn w) off) (blkJn w) o = ctr s (blkJn w) o := by
  rw [ctr_jn, ctr_jn, jn_addCtr, PerWing.get_modify_self, Table.get_set_of_ne _ (sat64_succ_ne_zero _) h]

/-- A part of a Junction that no counter is stands as it was after a count. -/
theorem jn_addCtr_get {α : Type} (p : Junction → α) (hp : ∀ j c, p { j with ctrs := c } = p j) (s : State) (w v : Wing)
    (off n : Nat) : p ((addCtr s (blkJn w) off n).jn.get v) = p (s.jn.get v) := by
  rw [jn_addCtr]
  by_cases h : v = w
  · rw [h, PerWing.get_modify_self, hp]
  · rw [PerWing.get_modify_of_ne _ _ h]

/-! ### Contexts by key -/

theorem collOf_congr {s t : State} {w : Wing} (h : (t.jn.get w).ctxs = (s.jn.get w).ctxs) (k : CollKey) :
    collOf t w k = collOf s w k := by rw [collOf, collOf, h]

theorem Touch.collOf {m : Nat} {s t : State} (h : Touch m s t) (hm : m.testBit StatePart.jn.idx = false) (w : Wing)
    (k : CollKey) : collOf t w k = collOf s w k := collOf_congr (congrArg (fun p => (PerWing.get p w).ctxs) (h.eq .jn hm)) k

theorem key_of_collOf {s : State} {w : Wing} {k : CollKey} {c : Coll} (h : collOf s w k = some c) : c.key = k := by
  simpa using List.find?_some h

theorem collOf_modJn (s : State) (w : Wing) (k : CollKey) {f : Junction → Junction} (hf : ∀ j, (f j).ctxs = j.ctxs) :
    collOf (s.modJn w f) w k = collOf s w k := collOf_congr (by rw [modJn_get, hf]) k

@[simp] theorem collOf_addCtr_jn (s : State) (w : Wing) (off n : Nat) (k : CollKey) :
    collOf (addCtr s (blkJn w) off n) w k = collOf s w k :=
  collOf_congr (jn_addCtr_get Junction.ctxs (fun _ _ => rfl) ..) k

/-- Changing the contexts of one key changes the context found by it and no other. -/
theorem collOf_modColl (s : State) (w : Wing) (k i : CollKey) {f : Coll → Coll} (hf : ∀ c, c.key = k → (f c).key = k) :
    collOf (s.modColl w k f) w i = (collOf s w i).map fun c => if i = k then f c else c := by
  have hkey : ((fun c : Coll => decide (c.key = i)) ∘ fun c => if decide (c.key = k) = true then f c else c) =
      fun c => decide (c.key = i) := by
    funext c
    by_cases hc : c.key = k
    · simp [hc, hf c hc]
    · simp [hc]
  unfold collOf
  rw [State.modColl, modJn_get]
  dsimp only
  rw [updateWhere, List.find?_map, hkey]
  refine Option.map_congr fun c hc => ?_
  have hc : c.key = i := key_of_collOf hc
  simp [hc]

theorem collOf_modColl_self {s : State} {w : Wing} {k : CollKey} {c : Coll} {f : Coll → Coll}
    (hf : ∀ c, c.key = k → (f c).key = k) (h : collOf s w k = some c) : collOf (s.modColl w k f) w k = some (f c) := by
  simp [collOf_modColl s w k k hf, h]

theorem collOf_modColl_of_ne (s : State) (w : Wing) {k i : CollKey} {f : Coll → Coll}
    (hf : ∀ c, c.key = k → (f c).key = k) (h : i ≠ k) : collOf (s.modColl w k f) w i = collOf s w i := by
  simp [collOf_modColl s w k i hf, h]

theorem ctr_modColl (s : State) (w : Wing) (k : CollKey) (f : Coll → Coll) (off : Nat) :
    ctr (s.modColl w k f) (blkJn w) off = ctr s (blkJn w) off := ctr_modJn _ _ _ fun _ => rfl

@[simp] theorem held_modColl (s : State) (w : Wing) (k : CollKey) (f : Coll → Coll) :
    ((s.modColl w k f).jn.get w).held = (s.jn.get w).held := by rw [State.modColl, modJn_get]

/-! ### Messages that pass, and messages held back -/

/-- A relay's context as the first message that passes opens it (R399). -/
def relayColl (s : State) (w : Wing) (k : CollKey) : Coll :=
  { key := k, role := .relay, task := none, broadcast := false, since := (tickOf s w).toNat }

/-- R399: the state in which a relay's context is open. -/
def openRelay (s : State) (w : Wing) (k : CollKey) : State :=
  s.modJn w fun j => { j with ctxs := j.ctxs ++ [relayColl s w k] }

/-- A chunk that goes on is counted (R408). -/
def countChunk (s : State) (w : Wing) (chunk : Bool) : State := if chunk then addCtr s (blkJn w) 0x0108 else s

section
variable {s : State} {w : Wing} {k : CollKey} {chunk : Bool}

theorem passMessage_open {c : Coll} (hc : collOf s w k = some c) : passMessage s w k chunk = countChunk s w chunk := by
  simp only [passMessage, hc]
  rfl

theorem passMessage_waits (hc : collOf s w k = none) (hfree : contextFree s w = false) :
    passMessage s w k chunk = holdBack s w (.passing k chunk) := by
  simp [passMessage, hc, hfree]

theorem passMessage_opens (hc : collOf s w k = none) (hfree : contextFree s w = true) :
    passMessage s w k chunk = countChunk (openRelay s w k) w chunk := by
  simp only [passMessage, hc, hfree]
  rfl

end

theorem collOf_openRelay (s : State) (w : Wing) (k i : CollKey) :
    collOf (openRelay s w k) w i = (collOf s w i).or (if k = i then some (relayColl s w k) else none) := by
  rw [collOf, openRelay, modJn_get]
  dsimp only
  rw [List.find?_append]
  by_cases h : k = i <;> simp [collOf, relayColl, h]

theorem countChunk_get {α : Type} (p : Junction → α) (hp : ∀ j c, p { j with ctrs := c } = p j) (s : State) (w : Wing)
    (chunk : Bool) : p ((countChunk s w chunk).jn.get w) = p (s.jn.get w) := by
  cases chunk
  · rfl
  · exact jn_addCtr_get p hp ..

theorem ctr_countChunk_of_ne (s : State) (w : Wing) (chunk : Bool) {off : Nat} (h : off ≠ 0x0108) :
    ctr (countChunk s w chunk) (blkJn w) off = ctr s (blkJn w) off := by
  cases chunk
  · rfl
  · exact ctr_addCtr_jn_of_ne s w h

/-- A Junction but for its contexts, the messages it holds back and its counters. -/
def Junction.rest (j : Junction) : Junction := { j with ctxs := [], held := [], ctrs := [] }

/-- R399: t is s after some of the messages l were tried again at a wing: contexts are opened for their keys alone, and chunks
that went on are counted. -/
structure Tried (w : Wing) (l : List HeldMessage) (s t : State) : Prop where
  kept : ∀ k c, collOf s w k = some c → collOf t w k = some c
  opened : ∀ k, (∀ m ∈ l, m.key ≠ k) → collOf t w k = collOf s w k
  rest : (t.jn.get w).rest = (s.jn.get w).rest
  counters : ∀ off, off ≠ 0x0108 → ctr t (blkJn w) off = ctr s (blkJn w) off

theorem Tried.refl (w : Wing) (l : List HeldMessage) (s : State) : Tried w l s s :=
  ⟨fun _ _ h => h, fun _ _ => rfl, rfl, fun _ _ => rfl⟩

theorem Tried.cons {w : Wing} {m : HeldMessage} {l : List HeldMessage} {s t u : State} (h : Tried w [m] s t)
    (h' : Tried w l t u) : Tried w (m :: l) s u where
  kept k c hc := h'.kept k c (h.kept k c hc)
  opened k hk := by
    rw [List.forall_mem_cons] at hk
    rw [h'.opened k hk.2, h.opened k (by simpa using hk.1)]
  rest := h'.rest.trans h.rest
  counters off ho := (h'.counters off ho).trans (h.counters off ho)

theorem Tried.foldl {w : Wing} {f : State → HeldMessage → State} (hf : ∀ s m, Tried w [m] s (f s m)) (l : List HeldMessage)
    (s : State) : Tried w l s (l.foldl f s) := by
  induction l generalizing s with
  | nil => exact .refl w [] s
  | cons m l ih => exact (hf s m).cons (ih _)

theorem collOf_holdBack (s : State) (w : Wing) (m : HeldMessage) (k : CollKey) :
    collOf (holdBack s w m) w k = collOf s w k := collOf_congr (by rw [holdBack, modJn_get]) k

theorem holdBack_tried (s : State) (w : Wing) (m : HeldMessage) (l : List HeldMessage) : Tried w l s (holdBack s w m) where
  kept k c hc := (collOf_holdBack ..).trans hc
  opened k _ := collOf_holdBack ..
  rest := by rw [holdBack, modJn_get]; rfl
  counters off _ := ctr_modJn s w off fun _ => rfl

theorem openRelay_tried (s : State) (w : Wing) (k : CollKey) (chunk : Bool) :
    Tried w [.passing k chunk] s (openRelay s w k) where
  kept i c hc := by rw [collOf_openRelay, hc, Option.some_or]
  opened i hi := by
    have hne : k ≠ i := by simpa [HeldMessage.key] using hi
    rw [collOf_openRelay, if_neg hne, Option.or_none]
  rest := by rw [openRelay, modJn_get]; rfl
  counters off _ := ctr_modJn s w off fun _ => rfl

theorem Tried.countChunk {w : Wing} {l : List HeldMessage} {s t : State} (h : Tried w l s t) (chunk : Bool) :
    Tried w l s (countChunk t w chunk) := by
  have hcoll : ∀ k, collOf (Machine.countChunk t w chunk) w k = collOf t w k :=
    collOf_congr (countChunk_get Junction.ctxs (fun _ _ => rfl) ..)
  exact ⟨fun k c hc => (hcoll k).trans (h.kept k c hc), fun k hk => (hcoll k).trans (h.opened k hk),
    (countChunk_get Junction.rest (fun _ _ => rfl) ..).trans h.rest,
    fun off ho => (ctr_countChunk_of_ne t w chunk ho).trans (h.counters off ho)⟩

theorem passMessage_tried (s : State) (w : Wing) (k : CollKey) (chunk : Bool) :
    Tried w [.passing k chunk] s (passMessage s w k chunk) := by
  cases hc : collOf s w k with
  | some c =>
    rw [passMessage_open hc]
    exact (Tried.refl ..).countChunk chunk
  | none =>
    cases hfree : contextFree s w
    · rw [passMessage_waits hc hfree]
      exact holdBack_tried ..
    · rw [passMessage_opens hc hfree]
      exact (openRelay_tried ..).countChunk chunk

/-- R399: the messages held back are tried again in a state that holds none back. -/
theorem admitHeld_tried (s : State) (w : Wing) :
    Tried w (s.jn.get w).held (s.modJn w fun j => { j with held := [] }) (admitHeld s w) := by
  unfold admitHeld
  refine Tried.foldl (fun s m => ?_) _ _
  cases m with
  | count => exact holdBack_tried ..
  | passing => exact passMessage_tried ..

/-! ### The end of a collective -/

/-- R413, R414: t is s after the context of a collective has been closed at a wing. Commits and chunks are counted apart. -/
structure CollEnded (w : Wing) (k : CollKey) (s t : State) : Prop where
  gone : (∀ m ∈ (s.jn.get w).held, m.key ≠ k) → collOf t w k = none
  others : ∀ j d, j ≠ k → collOf s w j = some d → collOf t w j = some d
  counters : ∀ off, off ≠ 0x0100 → off ≠ 0x0108 → ctr t (blkJn w) off = ctr s (blkJn w) off

theorem CollEnded.of_jn {w : Wing} {k : CollKey} {s t u : State} (h : CollEnded w k s t)
    (hctxs : (u.jn.get w).ctxs = (t.jn.get w).ctxs) (hctrs : (u.jn.get w).ctrs = (t.jn.get w).ctrs) :
    CollEnded w k s u :=
  ⟨fun hm => (collOf_congr hctxs k).trans (h.gone hm), fun j d hj hd => (collOf_congr hctxs j).trans (h.others j d hj hd),
    fun off h0 h8 => (ctr_jn_congr hctrs off).trans (h.counters off h0 h8)⟩

/-- The contexts without those of one key. -/
theorem find_filter_key (l : List Coll) (k j : CollKey) :
    ((l.filter fun c => c.key ≠ k).find? fun c => c.key = j) = if j = k then none else l.find? fun c => c.key = j := by
  rw [List.find?_filter]
  by_cases h : j = k
  · subst h
    simp
  · rw [if_neg h]
    congr 1
    funext c
    by_cases hc : c.key = j <;> simp [hc, h]

/-- The state in which the context of a collective is closed and the messages held back have not been tried. -/
theorem collOf_closing (s : State) (w : Wing) (k j : CollKey) :
    collOf ((s.modJn w fun i => { i with ctxs := i.ctxs.filter fun c => c.key ≠ k }).modJn w fun i => { i with held := [] }) w j =
      if j = k then none else collOf s w j := by
  rw [collOf, modJn_get, modJn_get]
  exact find_filter_key ..

theorem closeColl_ended (s : State) (w : Wing) (k : CollKey) : CollEnded w k s (closeColl s w k) := by
  have h := admitHeld_tried (s.modJn w fun j => { j with ctxs := j.ctxs.filter fun c => c.key ≠ k }) w
  rw [modJn_get] at h
  refine ⟨fun hm => ?_, fun j d hj hd => h.kept j d ?_, fun off _ h8 => ?_⟩
  · exact (h.opened k hm).trans (by rw [collOf_closing, if_pos rfl])
  · rw [collOf_closing, if_neg hj, hd]
  · exact (h.counters off h8).trans (ctr_jn_congr (by rw [modJn_get, modJn_get]) off)

theorem closeColl_rest (s : State) (w : Wing) (k : CollKey) : ((closeColl s w k).jn.get w).rest = (s.jn.get w).rest := by
  rw [closeColl, (admitHeld_tried ..).rest, modJn_get, modJn_get]
  rfl

section
variable {s : State} {w : Wing} {k : CollKey} {c : Coll} {id : Nat}

theorem commitColl_eq (hc : collOf s w k = some c) (htask : c.task = some id) (n : Nat) (fl : AFlags) :
    commitColl s w k n fl = (addCtr (closeColl s w k) (blkJn w) 0x0100).modTask id fun t =>
      { t with work := .coll true, flags := fl, zeroWork := n == 0 } := by
  simp only [commitColl, hc, htask]

theorem commitColl_ended (hc : collOf s w k = some c) (htask : c.task = some id) (n : Nat) (fl : AFlags) :
    CollEnded w k s (commitColl s w k n fl) := by
  have hclose := closeColl_ended s w k
  rw [commitColl_eq hc htask]
  exact ⟨fun hm => (collOf_addCtr_jn ..).trans (hclose.gone hm), fun j d hj hd => (collOf_addCtr_jn ..).trans (hclose.others j d hj hd),
    fun off h0 h8 => (ctr_addCtr_jn_of_ne _ _ h0).trans (hclose.counters off h0 h8)⟩

theorem commitColl_rest (hc : collOf s w k = some c) (htask : c.task = some id) (n : Nat) (fl : AFlags) :
    ((commitColl s w k n fl).jn.get w).rest = (s.jn.get w).rest := by
  rw [commitColl_eq hc htask]
  exact (jn_addCtr_get Junction.rest (fun _ _ => rfl) ..).trans (closeColl_rest ..)

/-- R413: a collective that commits is counted. -/
theorem ctr_commitColl (hc : collOf s w k = some c) (htask : c.task = some id) (n : Nat) (fl : AFlags) :
    (ctr (commitColl s w k n fl) (blkJn w) 0x0100).toNat = min (2 ^ 64 - 1) ((ctr s (blkJn w) 0x0100).toNat + 1) := by
  have hclose : ctr (closeColl s w k) (blkJn w) 0x0100 = ctr s (blkJn w) 0x0100 := by
    have h := admitHeld_tried (s.modJn w fun j => { j with ctxs := j.ctxs.filter fun c => c.key ≠ k }) w
    exact (h.counters _ (by decide)).trans (ctr_jn_congr (by rw [modJn_get, modJn_get]) _)
  rw [commitColl_eq hc htask, ← hclose]
  exact ctr_addCtr_jn_self ..

theorem taskOf_commitColl (hc : collOf s w k = some c) (htask : c.task = some id) (n : Nat) (fl : AFlags) (i : Nat) :
    taskOf (commitColl s w k n fl) i = (taskOf s i).map fun t =>
      if i = id then { t with work := .coll true, flags := fl, zeroWork := n == 0 } else t := by
  rw [commitColl_eq hc htask, taskOf_modTask, (addCtr_touch_jn ..).taskOf rfl, (closeColl_touch ..).taskOf rfl]
  exact fun _ h => h

/-! ### A collective that fails -/

theorem captureJn_first {cause : Nat} (hfirst : flg (s.jn.get w).faultInfo 31 = false) (hcause : cause / 256 = 4) :
    captureJn s w k cause = s.modJn w fun j =>
      { j with faultInfo := pack [(1, 31), (k.group.toNat, 16), (cause, 0)], faultSeq := k.seq } := by
  simp [captureJn, hfirst, hcause]

theorem captureJn_later {cause : Nat} (hfirst : flg (s.jn.get w).faultInfo 31 = true) : captureJn s w k cause = s := by
  simp [captureJn, hfirst]

/-- What a capture leaves of its Junction: all but the capture registers. -/
theorem captureJn_get {α : Type} (p : Junction → α) (hp : ∀ j a b, p { j with faultInfo := a, faultSeq := b } = p j)
    (s : State) (w : Wing) (k : CollKey) (cause : Nat) : p ((captureJn s w k cause).jn.get w) = p (s.jn.get w) := by
  unfold captureJn
  split
  · rfl
  · rw [modJn_get, hp]

theorem failColl_eq (hc : collOf s w k = some c) (htask : c.task = some id) (cause : Nat) :
    failColl s w k cause = stopTask (reportColl (closeColl s w k) w k (partOfTask (closeColl s w k) id) cause) id cause
      .junction 0 k.group.toNat := by
  simp only [failColl, hc, htask]

/-- The Junction of a collective that has failed is the one with its context closed and the failure captured. -/
theorem failColl_jn (hc : collOf s w k = some c) (htask : c.task = some id) (cause : Nat) :
    ∃ z, z.jn = (closeColl s w k).jn ∧ (failColl s w k cause).jn = (captureJn z w k cause).jn := by
  rw [failColl_eq hc htask]
  exact ⟨_, raise_jn _ 0x0404 k.group.toNat (blkJn w) (partOfTask (closeColl s w k) id), (stopTask_touch ..).eq .jn rfl⟩

theorem failColl_ended (hc : collOf s w k = some c) (htask : c.task = some id) (cause : Nat) :
    CollEnded w k s (failColl s w k cause) := by
  obtain ⟨z, hz, hfail⟩ := failColl_jn hc htask cause
  refine (closeColl_ended s w k).of_jn ?_ ?_
  · rw [hfail, captureJn_get Junction.ctxs fun _ _ _ => rfl, hz]
  · rw [hfail, captureJn_get Junction.ctrs fun _ _ _ => rfl, hz]

theorem taskOf_failColl (hc : collOf s w k = some c) (htask : c.task = some id) (cause i : Nat) :
    taskOf (failColl s w k cause) i = (taskOf s i).map fun t => if i = id then t.stopped cause else t := by
  rw [failColl_eq hc htask, taskOf_stopTask, (reportColl_touch ..).taskOf rfl, (closeColl_touch ..).taskOf rfl]

/-- R142: the task of a collective that fails stops with the cause. -/
theorem taskOf_failColl_self {t : Task} (hc : collOf s w k = some c) (htask : c.task = some id) (ht : taskOf s id = some t)
    (hstatus : ∀ d, t.status ≠ .stopping d) (cause : Nat) :
    taskOf (failColl s w k cause) id = some { t with status := .stopping (BitVec.ofNat 16 cause) } := by
  rw [taskOf_failColl hc htask, ht, Option.map_some, if_pos rfl, Task.stopped_of_ne cause hstatus]

/-- R422: the first failure since FAULT_CLR is captured. -/
theorem failColl_captured (hc : collOf s w k = some c) (htask : c.task = some id) {cause : Nat}
    (hfirst : flg (s.jn.get w).faultInfo 31 = false) (hcause : cause / 256 = 4) :
    ((failColl s w k cause).jn.get w).faultInfo = pack [(1, 31), (k.group.toNat, 16), (cause, 0)]
      ∧ ((failColl s w k cause).jn.get w).faultSeq = k.seq := by
  obtain ⟨z, hz, hfail⟩ := failColl_jn hc htask cause
  have hinfo : (z.jn.get w).faultInfo = (s.jn.get w).faultInfo := by
    rw [hz]
    exact (congrArg Junction.faultInfo (closeColl_rest s w k) :)
  rw [hfail, captureJn_first (by rw [hinfo, hfirst]) hcause, modJn_get]
  exact ⟨rfl, rfl⟩

theorem failColl_keepsCapture (hc : collOf s w k = some c) (htask : c.task = some id) (cause : Nat)
    (hlater : flg (s.jn.get w).faultInfo 31 = true) :
    ((failColl s w k cause).jn.get w).faultInfo = (s.jn.get w).faultInfo
      ∧ ((failColl s w k cause).jn.get w).faultSeq = (s.jn.get w).faultSeq := by
  obtain ⟨z, hz, hfail⟩ := failColl_jn hc htask cause
  have hrest : (z.jn.get w).rest = (s.jn.get w).rest := by rw [hz, closeColl_rest]
  have hinfo : (z.jn.get w).faultInfo = (s.jn.get w).faultInfo := (congrArg Junction.faultInfo hrest :)
  rw [hfail, captureJn_later (by rw [hinfo, hlater])]
  exact ⟨hinfo, (congrArg Junction.faultSeq hrest :)⟩

end

/-! ### A command on a context of a running task -/

theorem onColl_of_running {s : State} {w : Wing} {k : CollKey} {c : Coll} {id : Nat} {t : Task} {f : Coll → Task → State}
    (hc : collOf s w k = some c) (htask : c.task = some id) (ht : taskOf s id = some t) (hrun : t.status = .running) :
    onColl s w k f = f c t := by
  simp [onColl, hc, htask, ht, hrun]

/-- A command that finds no access to wait for before it takes its effect. -/
theorem orWait_of_none {s u : State} {f : State → State} (hs : s.heldAt = none) (hf : f s = u) (hu : u.heldAt = none) :
    orWait s f = u := orWait_eq ((congrArg f (by cases s; cases hs; rfl)).trans hf) hu

end Sys2Proof.Machine
end
section
/-!
PROOF. The live mask of a group under notices of losses (R395, R403, R416): whose bits a notice clears, and that two losses clear
the same bits in either order.
-/

namespace Sys2Proof.Machine

/-! ### Tables of lists, and lists in rising order -/

theorem Table.get_insert_self {α : Type} (d : α) (t : Table α) (a : Nat) (v : α) :
    Table.get d (Table.insert t a v) a = v := by
  induction t with
  | nil => simp [Table.insert, Table.get]
  | cons e t ih =>
    simp only [Table.insert]
    split
    · simp [Table.get]
    · rename_i hlt
      split
      · rename_i ha
        simp [Table.get, ha]
      · rename_i ha
        simp [Table.get, ha, hlt, ih]

/-- Another key reads as before once a record has been listed, in any table. -/
theorem Table.get_insert_of_ne {α : Type} (d : α) (t : Table α) {a b : Nat} (v : α) (h : b ≠ a) :
    Table.get d (Table.insert t a v) b = Table.get d t b := by
  induction t with
  | nil => simp [Table.insert, Table.get, h]
  | cons e t ih =>
    simp only [Table.insert]
    split
    · simp only [Table.get, h, if_false]
      split
      · rw [if_neg (by omega), if_pos (by omega)]
      · rfl
    · split
      · rename_i ha
        simp [Table.get, ← ha, h]
      · simp only [Table.get, ih]

@[simp] theorem mem_insertSorted (l : List Nat) (x y : Nat) : y ∈ insertSorted l x ↔ y ∈ l ∨ y = x := by
  induction l with
  | nil => simp [insertSorted]
  | cons a l ih =>
    simp only [insertSorted]
    split
    · simp [or_comm]
    · split
      · rename_i h
        simp +contextual [h, or_iff_left_of_imp]
      · simp [ih, or_assoc]

/-! ### What a re-form of a group reads -/

theorem dictVal_congr {s t : State} (h : t.cst = s.cst) (i k : Nat) : dictVal t i k = dictVal s i k := by
  unfold dictVal dictHeld dictDefault
  rw [h]

/-- Tree edges are judged by what neither a re-form nor a report changes. -/
theorem Touch.edgeJoined {s t : State} (h : Touch 0x801c4000 s t) (a b : Nat) : edgeJoined t a b = edgeJoined s a b := by
  have hports : t.ports = s.ports := h.eq .ports rfl
  have hcc : t.cc = s.cc := h.eq .cc rfl
  have hnode : ownNode t = ownNode s := dictVal_congr (h.eq .cst rfl) ..
  have hop : ∀ w n v, oneHop t w n v = oneHop s w n v := fun w n v => by
    unfold oneHop concourseUp
    rw [hnode, hports, hcc]
  simp only [Machine.edgeJoined, hnode, hop]

theorem Touch.newParent {s t : State} (h : Touch 0x801c4000 s t) (recs : Table Nat) (gone : List Nat) (r f p : Nat) :
    newParent t recs gone r f p = newParent s recs gone r f p := by
  induction f generalizing p with
  | zero => rfl
  | succ f ih => simp only [Machine.newParent, h.edgeJoined, ih]

/-- Memory reads the same where the contexts, and with them the registered pages, are the same. -/
theorem readPa_congr {s t : State} (hmem : t.mem = s.mem) (hpoison : t.poison = s.poison) (htmem : t.tmem = s.tmem)
    (hctxs : ∀ v, (t.jn.get v).ctxs = (s.jn.get v).ctxs) (a n : Nat) : readPa t a n = readPa s a n := by
  have hdead : ∀ b, deadAt t b = deadAt s b := fun b => by simp only [deadAt, servedAt, htmem]
  have hbelow : ∀ b k, firstBadBelow t b k = firstBadBelow s b k := fun b k => by
    unfold firstBadBelow firstPoison
    simp only [hdead, hpoison, htmem]
  have hbad : firstBad t a n = firstBad s a n := by
    unfold firstBad frameHolds
    simp only [hbelow, htmem]
  have hreg : registered t false a n = registered s false a n := by simp only [registered, hctxs]
  unfold readPa
  rw [hreg, hbad, hmem]

/-- t keeps what a re-form reads of s: beside reports, the Junctions differ in other fields than their contexts. -/
def KeepsGroups (s t : State) : Prop := Touch 0x801c4000 s t ∧ ∀ v, (t.jn.get v).ctxs = (s.jn.get v).ctxs

section
variable {s t : State} (h : KeepsGroups s t) (w : Wing)
include h

theorem KeepsGroups.readPa_hideRegs (a n : Nat) : readPa (hideRegs t w) a n = readPa (hideRegs s w) a n := by
  have hmem : (hideRegs t w).mem = (hideRegs s w).mem := h.1.cells rfl
  have hpoison : (hideRegs t w).poison = (hideRegs s w).poison := h.1.eq .poison rfl
  have htmem : (hideRegs t w).tmem = (hideRegs s w).tmem := h.1.eq .tmem rfl
  refine readPa_congr hmem hpoison htmem (fun v => ?_) a n
  by_cases hv : v = w
  · rw [hv, hideRegs, hideRegs, modJn_get, modJn_get]
  · rw [hideRegs, hideRegs, State.modJn, State.modJn, PerWing.get_modify_of_ne _ _ hv, PerWing.get_modify_of_ne _ _ hv, h.2]

theorem KeepsGroups.groupNow (g : Nat) : groupNow t w g = groupNow s w g := by
  have hinst : ∀ i, instOf t i = instOf s i := h.1.instOf rfl
  unfold Machine.groupNow currentAt editionOf groupEntryAt
  simp only [hinst, h.readPa_hideRegs]

theorem KeepsGroups.memberRecs (e : Nat) : memberRecs t w e = memberRecs s w e := by
  unfold Machine.memberRecs memberRec
  simp only [h.readPa_hideRegs]

end

/-! ### The live mask of a group -/

/-- Members cleared from a group's live mask at a wing (R395). -/
def lostOf (s : State) (w : Wing) (g : Nat) : List Nat := Table.get [] (s.jn.get w).lost g

/-- Members of a group whose loss has re-formed it at a wing (R416). -/
def goneOf (s : State) (w : Wing) (g : Nat) : List Nat := Table.get [] (s.jn.get w).gone g

/-- t is s but for the live mask and the parents of one group at a wing. -/
structure MaskOnly (w : Wing) (g : Nat) (s t : State) : Prop where
  touch : Touch 0x4000 s t
  other : t.jn.get (otherWing w) = s.jn.get (otherWing w)
  own : t.jn.get w = { s.jn.get w with lost := (t.jn.get w).lost, parents := (t.jn.get w).parents }
  groups : ∀ h, h ≠ g → lostOf t w h = lostOf s w h

theorem MaskOnly.refl (w : Wing) (g : Nat) (s : State) : MaskOnly w g s s := ⟨.refl s, rfl, rfl, fun _ _ => rfl⟩

theorem MaskOnly.trans {w : Wing} {g : Nat} {s t u : State} (h : MaskOnly w g s t) (h' : MaskOnly w g t u) :
    MaskOnly w g s u :=
  ⟨h'.touch.step rfl h.touch, h'.other.trans h.other, by rw [h'.own, h.own], fun i hi => (h'.groups i hi).trans (h.groups i hi)⟩

theorem eq_otherWing_of_ne {v w : Wing} (h : v ≠ w) : v = otherWing w := by
  revert h
  cases v <;> cases w <;> decide

theorem MaskOnly.ctxs {w : Wing} {g : Nat} {s t : State} (h : MaskOnly w g s t) (v : Wing) :
    (t.jn.get v).ctxs = (s.jn.get v).ctxs := by
  by_cases hv : v = w
  · rw [hv, h.own]
  · rw [eq_otherWing_of_ne hv, h.other]

theorem clearBit_maskOnly (s : State) (w : Wing) (g m : Nat) : MaskOnly w g s (clearBit s w g m) where
  touch := clearBit_touch ..
  other := PerWing.get_modify_other ..
  own := by rw [clearBit, modJn_get]
  groups h hh := by
    rw [lostOf, lostOf, clearBit, modJn_get]
    exact Table.get_insert_of_ne _ _ _ hh

theorem mem_lostOf_clearBit (s : State) (w : Wing) (g m i : Nat) :
    i ∈ lostOf (clearBit s w g m) w g ↔ i ∈ lostOf s w g ∨ i = m := by
  rw [lostOf, clearBit, modJn_get]
  dsimp only
  rw [Table.get_insert_self, mem_insertSorted]
  rfl

/-- R416: what a child of a lost member does: it takes a new parent or is removed. -/
def reformChild (w : Wing) (g : Nat) (recs : Table Nat) (gone : List Nat) (s : State) (r : Nat × Nat) : State :=
  match newParent s recs gone r.2 256 (mrParent r.2) with
  | some p => s.modJn w fun j => { j with parents := Table.insert j.parents (256 * g + r.1) p }
  | none => clearBit s w g r.1

section
variable (w : Wing) (g : Nat) (recs : Table Nat) (gone : List Nat) (s : State) (r : Nat × Nat)

theorem reformChild_maskOnly : MaskOnly w g s (reformChild w g recs gone s r) := by
  unfold reformChild
  split
  · refine ⟨State_modJn_touch .., PerWing.get_modify_other .., by rw [modJn_get], fun h _ => ?_⟩
    rw [lostOf, modJn_get]
    rfl
  · exact clearBit_maskOnly ..

theorem mem_lostOf_reformChild (i : Nat) : i ∈ lostOf (reformChild w g recs gone s r) w g ↔
    i ∈ lostOf s w g ∨ (i = r.1 ∧ newParent s recs gone r.2 256 (mrParent r.2) = none) := by
  unfold reformChild
  split
  · rename_i p hp
    rw [lostOf, modJn_get, hp]
    simp [lostOf]
  · rename_i hp
    rw [mem_lostOf_clearBit, hp]
    simp

/-- R416: of a list of children those are removed that find no new parent. -/
theorem mem_lostOf_foldl_reformChild (l : List (Nat × Nat)) (i : Nat) :
    MaskOnly w g s (l.foldl (reformChild w g recs gone) s) ∧
      (i ∈ lostOf (l.foldl (reformChild w g recs gone) s) w g ↔
        i ∈ lostOf s w g ∨ ∃ r ∈ l, i = r.1 ∧ newParent s recs gone r.2 256 (mrParent r.2) = none) := by
  induction l generalizing s with
  | nil => exact ⟨.refl w g s, by simp⟩
  | cons r l ih =>
    obtain ⟨hmask, hmem⟩ := ih (reformChild w g recs gone s r)
    have hchild := reformChild_maskOnly w g recs gone s r
    have hparent := (hchild.touch.weaken (m := 0x801c4000) rfl).newParent
    refine ⟨hchild.trans hmask, ?_⟩
    rw [List.foldl_cons, hmem, mem_lostOf_reformChild]
    simp only [hparent, List.mem_cons, exists_eq_or_imp, or_assoc]

end

/-! ### One notice of a loss -/

/-- The loss of a member has re-formed its group. -/
def goneTaken (s : State) (w : Wing) (g m : Nat) : State :=
  s.modJn w fun j => { j with gone := Table.insert j.gone g (insertSorted (goneOf s w g) m) }

/-- The live members whose path to the tree top led through a lost member. -/
def lossChildren (s : State) (w : Wing) (g : Nat) (recs : Table Nat) (gone : List Nat) (m : Nat) : Table Nat :=
  recs.filter fun r => !(lostOf s w g).contains r.1 && (lostAbove recs gone 256 (mrParent r.2)).contains m

/-- A group as a loss leaves it, before the re-form is reported. -/
def reformMask (s : State) (w : Wing) (entry g m : Nat) : State :=
  let recs := memberRecs s w entry
  let gone := insertSorted (goneOf s w g) m
  let s := clearBit (goneTaken s w g m) w g m
  (lossChildren s w g recs gone m).foldl (reformChild w g recs gone) s

/-- R416: member i is removed with the loss of m: its path to the tree top leads through m, and no lost member above it has a
parent that a one-hop link joins to it. -/
def CutOff (s : State) (recs : Table Nat) (gone : List Nat) (m i : Nat) : Prop :=
  ∃ r, (i, r) ∈ recs ∧ m ∈ lostAbove recs gone 256 (mrParent r) ∧ newParent s recs gone r 256 (mrParent r) = none

section
variable (s : State) (w : Wing) (entry g m : Nat)

theorem lostOf_goneTaken (h : Nat) : lostOf (goneTaken s w g m) w h = lostOf s w h := by
  rw [lostOf, goneTaken, modJn_get]
  rfl

theorem goneOf_goneTaken : goneOf (goneTaken s w g m) w g = insertSorted (goneOf s w g) m := by
  rw [goneOf, goneTaken, modJn_get]
  exact Table.get_insert_self ..

theorem goneTaken_ctxs (v : Wing) : ((goneTaken s w g m).jn.get v).ctxs = (s.jn.get v).ctxs := by
  by_cases h : v = w
  · rw [h, goneTaken, modJn_get]
  · rw [goneTaken, State.modJn, PerWing.get_modify_of_ne _ _ h]

theorem reform_eq : reform s w entry g m =
    addCtr (raise (reformMask s w entry g m) 0x0403 g (blkJn w)) (blkJn w) 0x0128 := rfl

/-- The report of a re-form counts it and changes nothing else of the Junctions. -/
theorem reform_get {α : Type} (p : Junction → α) (hp : ∀ j c, p { j with ctrs := c } = p j) (v : Wing) :
    p ((reform s w entry g m).jn.get v) = p ((reformMask s w entry g m).jn.get v) := by
  rw [reform_eq, jn_addCtr_get p hp, raise_jn]

theorem reformMask_maskOnly : MaskOnly w g (goneTaken s w g m) (reformMask s w entry g m) :=
  (clearBit_maskOnly ..).trans (mem_lostOf_foldl_reformChild w g _ _ _ _ 0).1

theorem reform_keepsGroups : KeepsGroups s (reform s w entry g m) := by
  refine ⟨reform_touch .., fun v => ?_⟩
  rw [reform_get _ _ _ _ _ Junction.ctxs fun _ _ => rfl, (reformMask_maskOnly ..).ctxs]
  exact goneTaken_ctxs ..

theorem goneOf_reform : goneOf (reform s w entry g m) w g = insertSorted (goneOf s w g) m := by
  rw [goneOf, reform_get _ _ _ _ _ Junction.gone fun _ _ => rfl, (reformMask_maskOnly ..).own]
  exact goneOf_goneTaken ..

theorem lostOf_reform (h : Nat) : lostOf (reform s w entry g m) w h = lostOf (reformMask s w entry g m) w h :=
  reform_get s w entry g m (fun j => Table.get [] j.lost h) (fun _ _ => rfl) w

theorem lostOf_reform_of_ne {h : Nat} (hne : h ≠ g) : lostOf (reform s w entry g m) w h = lostOf s w h := by
  rw [lostOf_reform, (reformMask_maskOnly ..).groups h hne, lostOf_goneTaken]

theorem reform_other : ((reform s w entry g m).jn.get (otherWing w)).lost = (s.jn.get (otherWing w)).lost := by
  rw [reform_get _ _ _ _ _ Junction.lost fun _ _ => rfl, (reformMask_maskOnly ..).other, goneTaken, State.modJn,
    PerWing.get_modify_other]

/-- R416: a re-form is counted. -/
theorem ctr_reform : (ctr (reform s w entry g m) (blkJn w) 0x0128).toNat =
    min (2 ^ 64 - 1) ((ctr s (blkJn w) 0x0128).toNat + 1) := by
  have hmask : ctr (raise (reformMask s w entry g m) 0x0403 g (blkJn w)) (blkJn w) 0x0128 = ctr s (blkJn w) 0x0128 := by
    refine ctr_jn_congr ?_ _
    rw [raise_jn, (reformMask_maskOnly ..).own, goneTaken, modJn_get]
  rw [reform_eq, ctr_addCtr_jn_self, hmask]

theorem ctr_reform_of_ne {off : Nat} (h : off ≠ 0x0128) : ctr (reform s w entry g m) (blkJn w) off = ctr s (blkJn w) off := by
  rw [reform_eq, ctr_addCtr_jn_of_ne _ _ h]
  refine ctr_jn_congr ?_ _
  rw [raise_jn, (reformMask_maskOnly ..).own, goneTaken, modJn_get]

/-- R416: the bits that a re-form clears are those of the lost member and of the members cut off with it. -/
theorem mem_lostOf_reform (i : Nat) : i ∈ lostOf (reform s w entry g m) w g ↔
    i ∈ lostOf s w g ∨ i = m ∨ CutOff s (memberRecs s w entry) (insertSorted (goneOf s w g) m) m i := by
  have htouch : Touch 0x801c4000 s (clearBit (goneTaken s w g m) w g m) :=
    Touch.step (clearBit_touch ..) rfl ((State_modJn_touch ..).weaken rfl)
  have hclear : i ∈ lostOf (clearBit (goneTaken s w g m) w g m) w g ↔ i ∈ lostOf s w g ∨ i = m := by
    rw [mem_lostOf_clearBit, lostOf_goneTaken]
  rw [lostOf_reform, reformMask, (mem_lostOf_foldl_reformChild ..).2, ← or_assoc, hclear]
  by_cases hlive : i ∈ lostOf s w g ∨ i = m
  · simp only [hlive, true_or]
  rw [or_iff_right hlive, or_iff_right hlive]
  rw [← hclear] at hlive
  simp only [lossChildren, List.mem_filter, htouch.newParent, CutOff, Bool.and_eq_true, Bool.not_eq_true',
    List.contains_eq_mem, decide_eq_true_eq, decide_eq_false_iff_not]
  constructor
  · rintro ⟨r, ⟨hr, -, hm⟩, rfl, hnone⟩
    exact ⟨r.2, hr, hm, hnone⟩
  · rintro ⟨r, hr, hm, hnone⟩
    exact ⟨(i, r), ⟨hr, hlive, hm⟩, rfl, hnone⟩

end

/-! ### Two notices of losses -/

section
variable {recs : Table Nat} {gone gone' : List Nat}

/-- With more members lost, a path to the tree top meets all that it met before. -/
theorem lostAbove_mono (hsub : gone ⊆ gone') (f p : Nat) : lostAbove recs gone f p ⊆ lostAbove recs gone' f p := by
  induction f generalizing p with
  | zero => exact List.Subset.refl _
  | succ f ih =>
    by_cases hp : p ∈ gone
    · have hp' := hsub hp
      simp only [lostAbove, List.contains_eq_mem, hp, hp', decide_true, if_true]
      cases Table.find recs p with
      | none => exact List.Subset.refl _
      | some r => exact List.cons_subset_cons _ (ih _)
    · simp [lostAbove, hp]

/-- With more members lost, a member that found no new parent finds none. -/
theorem newParent_none_mono {s : State} (hsub : gone ⊆ gone') {r f p : Nat} (h : newParent s recs gone r f p = none) :
    newParent s recs gone' r f p = none := by
  induction f generalizing p with
  | zero => rfl
  | succ f ih =>
    by_cases hp : p ∈ gone
    · have hp' := hsub hp
      simp only [newParent, List.contains_eq_mem, hp, hp', decide_true, if_true] at h ⊢
      split at h
      · split at h
        · rename_i hjoin
          rw [if_pos hjoin]
          exact ih h
        · rename_i hjoin
          rw [if_neg hjoin]
      · rfl
    · simp [newParent, hp] at h

/-- A member whose path to the tree top meets nothing of what was lost later finds what it found before. -/
theorem lostAbove_of_later {s : State} {n : Nat} (hsub : gone ⊆ gone') (hlater : ∀ x ∈ gone', x ∈ gone ∨ x = n) (r f p : Nat)
    (hn : n ∉ lostAbove recs gone' f p) : lostAbove recs gone' f p = lostAbove recs gone f p
      ∧ newParent s recs gone' r f p = newParent s recs gone r f p := by
  induction f generalizing p with
  | zero => exact ⟨rfl, rfl⟩
  | succ f ih =>
    by_cases hp' : p ∈ gone'
    · have hne : n ≠ p := by
        rintro rfl
        simp [lostAbove, hp'] at hn
      have hp : p ∈ gone := (hlater p hp').resolve_right (Ne.symm hne)
      simp only [lostAbove, newParent, List.contains_eq_mem, hp, hp', decide_true, if_true] at hn ⊢
      cases hfind : Table.find recs p with
      | none => simp
      | some x =>
        simp only [hfind, List.mem_cons, not_or] at hn
        obtain ⟨hlost, hparent⟩ := ih _ hn.2
        simp only [hlost, Option.bind_some]
        cases Table.find recs (mrParent x) <;> simp [hparent]
    · have hp : p ∉ gone := fun h => hp' (hsub h)
      simp [lostAbove, newParent, hp, hp']

theorem CutOff.mono {s : State} {m i : Nat} (h : CutOff s recs gone m i) (hsub : gone ⊆ gone') : CutOff s recs gone' m i := by
  obtain ⟨r, hr, hm, hnone⟩ := h
  exact ⟨r, hr, lostAbove_mono hsub _ _ hm, newParent_none_mono hsub hnone⟩

/-- A member cut off once n is lost too was cut off before, or its path leads through n. -/
theorem CutOff.of_later {s : State} {m n i : Nat} (h : CutOff s recs gone' m i) (hsub : gone ⊆ gone')
    (hlater : ∀ x ∈ gone', x ∈ gone ∨ x = n) : CutOff s recs gone m i ∨ CutOff s recs gone' n i := by
  obtain ⟨r, hr, hm, hnone⟩ := h
  by_cases hn : n ∈ lostAbove recs gone' 256 (mrParent r)
  · exact .inr ⟨r, hr, hn, hnone⟩
  · obtain ⟨hlost, hparent⟩ := lostAbove_of_later hsub hlater r 256 (mrParent r) hn
    exact .inl ⟨r, hr, hlost ▸ hm, hparent ▸ hnone⟩

end

/-- R416: two losses cut the same members off in either order. -/
theorem cutOff_of_swap {s : State} {recs : Table Nat} {gone : List Nat} {a b i : Nat}
    (h : CutOff s recs (insertSorted gone a) a i ∨ CutOff s recs (insertSorted (insertSorted gone a) b) b i) :
    CutOff s recs (insertSorted gone b) b i ∨ CutOff s recs (insertSorted (insertSorted gone b) a) a i := by
  have hboth : insertSorted (insertSorted gone a) b ⊆ insertSorted (insertSorted gone b) a := fun x hx => by
    simp only [mem_insertSorted] at hx ⊢
    exact or_right_comm.1 hx
  obtain h | h := h
  · refine .inr (h.mono fun x hx => hboth ?_)
    simp only [mem_insertSorted] at hx ⊢
    exact .inl hx
  · refine (h.mono hboth).of_later (fun x hx => ?_) fun x hx => ?_
    · exact (mem_insertSorted ..).2 (.inl hx)
    · exact (mem_insertSorted ..).1 hx

/-- Whether the notice of a loss re-forms its group. -/
def Reforms (s : State) (w : Wing) (g m : Nat) : Prop :=
  geValid (groupNow s w g) = true ∧ geResilient (groupNow s w g) = true ∧ m < geCount (groupNow s w g) ∧ m ∉ goneOf s w g

theorem reformIf_of_reforms {s : State} {w : Wing} {g m : Nat} (h : Reforms s w g m) :
    reformIf s w g m = reform s w (groupNow s w g) g m := by
  obtain ⟨hvalid, hres, hcount, hgone⟩ := h
  rw [goneOf] at hgone
  simp [reformIf, hvalid, hres, hcount, hgone]

theorem reformIf_of_not {s : State} {w : Wing} {g m : Nat} (h : ¬ Reforms s w g m) : reformIf s w g m = s := by
  rw [Reforms, goneOf] at h
  unfold reformIf
  dsimp only
  rw [if_neg (by simpa [and_assoc] using h)]

/-- Another loss re-forms the group after a re-form as before it. -/
theorem reforms_reform {s : State} {w : Wing} {entry g m n : Nat} (hne : n ≠ m) :
    Reforms (reform s w entry g m) w g n ↔ Reforms s w g n := by
  have hgroup := (reform_keepsGroups s w entry g m).groupNow w g
  simp only [Reforms, hgroup, goneOf_reform, mem_insertSorted, hne, or_false]

theorem reforms_reformIf {s : State} {w : Wing} {g m n : Nat} (hne : n ≠ m) :
    Reforms (reformIf s w g m) w g n ↔ Reforms s w g n := by
  by_cases h : Reforms s w g m
  · rw [reformIf_of_reforms h, reforms_reform hne]
  · rw [reformIf_of_not h]

/-- The bits that two notices clear, where each re-forms the group. -/
theorem mem_lostOf_two {s : State} {w : Wing} {g a b : Nat} (hne : a ≠ b) (ha : Reforms s w g a) (hb : Reforms s w g b)
    (i : Nat) : i ∈ lostOf (reformIf (reformIf s w g a) w g b) w g ↔ i ∈ lostOf s w g ∨ (i = a ∨ i = b) ∨
      (CutOff s (memberRecs s w (groupNow s w g)) (insertSorted (goneOf s w g) a) a i
        ∨ CutOff s (memberRecs s w (groupNow s w g)) (insertSorted (insertSorted (goneOf s w g) a) b) b i) := by
  have hkeep := reform_keepsGroups s w (groupNow s w g) g a
  have hcut : ∀ recs gone n j, CutOff (reform s w (groupNow s w g) g a) recs gone n j ↔ CutOff s recs gone n j := by
    simp only [CutOff, hkeep.1.newParent, implies_true]
  rw [reformIf_of_reforms ha, reformIf_of_reforms ((reforms_reform hne.symm).2 hb), mem_lostOf_reform, mem_lostOf_reform, hcut,
    hkeep.groupNow, hkeep.memberRecs, goneOf_reform]
  exact or_assoc.trans (or_congr_right or_or_or_comm)

end Sys2Proof.Machine

namespace Sys2Proof

open Sys2Proof.Machine

/-- Settles O47: where both losses re-form the group, each clears its own bit and those of the members it cuts off, and a
member cut off by either is cut off in the other order too; where one re-forms nothing, the other acts alone. -/
theorem lossOrderDoesNotMatter : Obligations.LossOrderDoesNotMatter := by
  unfold Obligations.LossOrderDoesNotMatter
  rintro s w g a b _ _ _ _ i ⟨⟩ ⟨⟩ ⟨⟩ ⟨⟩
  by_cases hne : a.val = b.val
  · rw [hne]
  by_cases ha : Reforms s w g.toNat a.val
  · by_cases hb : Reforms s w g.toNat b.val
    · refine (mem_lostOf_two hne ha hb i).trans (Iff.trans ?_ (mem_lostOf_two (Ne.symm hne) hb ha i).symm)
      exact or_congr_right (or_congr or_comm ⟨cutOff_of_swap, cutOff_of_swap⟩)
    · rw [reformIf_of_not hb, reformIf_of_not (mt (reforms_reformIf (Ne.symm hne)).1 hb)]
  · rw [reformIf_of_not ha, reformIf_of_not (mt (reforms_reformIf hne).1 ha)]

end Sys2Proof
end
section
/-!
PROOF. Collectives that fail by cause, by the wait limit or by a loss, and groups re-formed (R395, R402, R414 to R416, R422).
-/

namespace Sys2Proof.Machine

/-! ### A party declared lost -/

theorem collOf_reformIf (s : State) (w : Wing) (g m : Nat) (k : CollKey) :
    collOf (reformIf s w g m) w k = collOf s w k := by
  by_cases h : Reforms s w g m
  · rw [reformIf_of_reforms h]
    exact collOf_congr ((reform_keepsGroups ..).2 w) k
  · rw [reformIf_of_not h]

theorem ctr_reformIf_of_ne (s : State) (w : Wing) (g m : Nat) {off : Nat} (hoff : off ≠ 0x0128) :
    ctr (reformIf s w g m) (blkJn w) off = ctr s (blkJn w) off := by
  by_cases h : Reforms s w g m
  · rw [reformIf_of_reforms h, ctr_reform_of_ne _ _ _ _ _ hoff]
  · rw [reformIf_of_not h]

section
variable {s : State} {w : Wing} {k : CollKey} {c : Coll} {id : Nat} {t : Task}

/-- R415: a loss is reported and counted. -/
def lossCounted (s : State) (w : Wing) (k : CollKey) (part : Nat) : State :=
  addCtr (raise s 0x0402 k.group.toNat (blkJn w) part) (blkJn w) 0x0120

theorem losePart_eq (s : State) (w : Wing) (k : CollKey) (part m : Nat) :
    losePart s w k part m = reformIf (failColl (lossCounted s w k part) w k 0x0401) w k.group.toNat m := rfl

theorem lossCounted_touch (part : Nat) : Touch 0x801c4000 s (lossCounted s w k part) :=
  Touch.step (addCtr_touch_jn ..) rfl ((raise_touch ..).weaken rfl)

theorem collOf_lossCounted (part : Nat) : collOf (lossCounted s w k part) w k = collOf s w k :=
  (collOf_addCtr_jn ..).trans ((raise_touch ..).collOf rfl w k)

theorem held_lossCounted (part : Nat) : ((lossCounted s w k part).jn.get w).held = (s.jn.get w).held := by
  rw [lossCounted, jn_addCtr_get Junction.held fun _ _ => rfl, raise_jn]

theorem ctr_lossCounted (part : Nat) : (ctr (lossCounted s w k part) (blkJn w) 0x0120).toNat =
    min (2 ^ 64 - 1) ((ctr s (blkJn w) 0x0120).toNat + 1) := by
  rw [lossCounted, ctr_addCtr_jn_self, (raise_touch ..).ctr_jn rfl]

/-- R402, R415: a collective that loses a party has failed with cause 0x0401, and the loss is counted. -/
theorem losePart_fails (hc : collOf s w k = some c) (htask : c.task = some id) (ht : taskOf s id = some t)
    (hrun : t.status = .running) (hheld : ∀ h ∈ (s.jn.get w).held, h.key ≠ k) (part m : Nat) :
    collOf (losePart s w k part m) w k = none
      ∧ taskOf (losePart s w k part m) id = some { t with status := .stopping 0x0401 }
      ∧ (ctr (losePart s w k part m) (blkJn w) 0x0120).toNat = min (2 ^ 64 - 1) ((ctr s (blkJn w) 0x0120).toNat + 1)
      ∧ OnlyChanges [.tasks, .jn, .hifCtrs, .logs, .pages, .hostOut] s (losePart s w k part m) := by
  have hc' : collOf (lossCounted s w k part) w k = some c := (collOf_lossCounted part).trans hc
  have ht' : taskOf (lossCounted s w k part) id = some t := ((lossCounted_touch part).taskOf rfl id).trans ht
  have hended := failColl_ended hc' htask 0x0401
  refine ⟨?_, ?_, ?_, (losePart_touch ..).collEnd⟩
  · rw [losePart_eq, collOf_reformIf]
    exact hended.gone (by rwa [held_lossCounted])
  · rw [losePart_eq, (reformIf_touch ..).taskOf rfl]
    exact taskOf_failColl_self hc' htask ht' (by simp [hrun]) 0x0401
  · rw [losePart_eq, ctr_reformIf_of_ne _ _ _ _ (by decide), hended.counters _ (by decide) (by decide), ctr_lossCounted]

/-! ### The wait limit -/

theorem waitPassed_iff {since : Nat} : waitPassed s w since = true ↔ since + dictVal s 0x4030 0 ≤ (tickOf s w).toNat := by
  simp [waitPassed]

/-- R402: before the count is complete, a member is lost for want of its count message. -/
theorem memberLost_counting (hn : c.n = none) (m : Nat) :
    memberLost s w c t m = ((Table.find c.arrivals m).isNone && waitPassed s w (firstArrival c)) := by
  simp [memberLost, hn]

/-- R402: in the data phase a member is lost whose answer has been missing for the limit. -/
theorem memberLost_unanswered (hn : c.n ≠ none) {m a : Nat} (hasked : Table.find c.asked m = some a)
    (hpassed : a + dictVal s 0x4030 0 ≤ (tickOf s w).toNat) : memberLost s w c t m = true := by
  have hn : c.n.isNone = false := Option.isNone_eq_false_iff.2 (Option.isSome_iff_ne_none.2 hn)
  simp [memberLost, hn, hasked, waitPassed_iff.2 hpassed]

/-- R402: in the data phase a member that is not late with an answer is lost for want of a link of its route. -/
theorem memberLost_route (hn : c.n ≠ none) {m : Nat} {recs : Table Nat} (hrecs : liveRecs s w t = .ok recs)
    (hasked : ∀ a, Table.find c.asked m = some a → (tickOf s w).toNat < a + dictVal s 0x4030 0) :
    memberLost s w c t m =
      (routeEdges s w (cbGroup t.body) (cbSelf t.body) recs c.direct m).any (linkLost s w recs) := by
  have hn : c.n.isNone = false := Option.isNone_eq_false_iff.2 (Option.isSome_iff_ne_none.2 hn)
  have hlate : ((Table.find c.asked m).map (waitPassed s w)).getD false = false := by
    cases hm : Table.find c.asked m with
    | none => rfl
    | some a => simpa [waitPassed] using hasked a hm
  simp [memberLost, hn, hrecs, hlate]

theorem exec_memberExpiry (hc : collOf s w k = some c) (htask : c.task = some id) (ht : taskOf s id = some t)
    (hrun : t.status = .running) {m : Fin 255} (hrole : c.role = .root) (hlive : m.val ∈ liveOf t)
    (hself : m.val ≠ cbSelf t.body) : exec (.jnWaitLimitExpiry w k (.member m)) s =
      .next (if memberLost s w c t m.val then losePart s w k t.part m.val else s) := by
  show Host.Outcome.next (onColl ..) = _
  rw [onColl_of_running hc htask ht hrun]
  simp [hrole, hlive, hself]

theorem exec_rootExpiry (hc : collOf s w k = some c) (htask : c.task = some id) (ht : taskOf s id = some t)
    (hrun : t.status = .running) (hrole : c.role = .member) : exec (.jnWaitLimitExpiry w k .root) s =
      .next (if waitPassed s w c.since then losePart s w k t.part (cbRoot t.body) else s) := by
  show Host.Outcome.next (onColl ..) = _
  rw [onColl_of_running hc htask ht hrun]
  simp [hrole]

end

end Sys2Proof.Machine

namespace Sys2Proof

open Sys2Proof.Machine

/-- Settles O43: an abort is `failColl`, the wait limit `losePart`, and a notice `reformIf`. -/
theorem collectivesFail : Obligations.CollectivesFail := by
  unfold Obligations.CollectivesFail
  refine ⟨fun s w k cause => ⟨fun hnone => ?_, fun c id x hc htask hx hstatus => ?_⟩, ?_, fun s w g m => ⟨fun hno => ?_, ?_⟩⟩
  · show Host.Outcome.next (failColl ..) = _
    simp only [failColl, hnone]
  · have hended := failColl_ended hc htask cause.toNat
    have hstop := taskOf_failColl_self hc htask hx hstatus cause.toNat
    rw [BitVec.ofNat_toNat, BitVec.setWidth_eq] at hstop
    refine ⟨_, rfl, hended.gone, hended.others, hstop, fun i hi => ?_, failColl_captured hc htask,
      failColl_keepsCapture hc htask _, (failColl_touch ..).collEnd⟩
    rw [taskOf_failColl hc htask]
    simp [hi]
  · intro s w k c id t hc htask ht hrun hheld
    refine ⟨fun m hrole hlive hself => ⟨fun hlost => ?_, fun hlost => ?_, fun hn hm => ?_, fun a hn hm => ?_,
      fun a hn hasked hpassed => memberLost_unanswered hn hasked hpassed, fun recs hn hrecs hasked => ?_⟩,
      fun hrole => ⟨fun hpassed => ?_, fun hpassed => ?_⟩⟩
    · exact ⟨_, (exec_memberExpiry hc htask ht hrun hrole hlive hself).trans (congrArg _ (if_pos hlost)),
        losePart_fails hc htask ht hrun hheld ..⟩
    · rw [exec_memberExpiry hc htask ht hrun hrole hlive hself, if_neg (by simp [hlost])]
    · rw [memberLost_counting hn, hm, ← waitPassed_iff]
      rfl
    · rw [memberLost_counting hn, hm]
      rfl
    · rw [memberLost_route hn hrecs hasked, List.any_eq_true]
    · exact ⟨_, (exec_rootExpiry hc htask ht hrun hrole).trans (congrArg _ (if_pos (waitPassed_iff.2 hpassed))),
        losePart_fails hc htask ht hrun hheld ..⟩
    · rw [exec_rootExpiry hc htask ht hrun hrole, if_neg fun h => Nat.not_le.2 hpassed (waitPassed_iff.1 h)]
  · refine congrArg Host.Outcome.next (reformIf_of_not ?_)
    rintro ⟨hvalid, hres, hcount, hgone⟩
    obtain h | h | h | h := hno
    · exact absurd (h.symm.trans hvalid) (by decide)
    · exact absurd (h.symm.trans hres) (by decide)
    · exact absurd hcount (by omega)
    · exact hgone h
  · intro hvalid hres hcount hgone
    have hmem := mem_lostOf_reform s w (groupNow s w g.toNat) g.toNat m.val
    refine ⟨_, congrArg Host.Outcome.next (reformIf_of_reforms ⟨hvalid, hres, hcount, hgone⟩), (hmem _).2 (.inr (.inl rfl)), ?_,
      fun i hi => (hmem i).2 (.inl hi), fun h hh => lostOf_reform_of_ne _ _ _ _ _ hh, reform_other .., ctr_reform ..,
      (reform_touch ..).jnReports⟩
    have hgone := goneOf_reform s w (groupNow s w g.toNat) g.toNat m.val
    rw [goneOf] at hgone
    rw [hgone]
    exact (mem_insertSorted ..).2 (.inr rfl)

end Sys2Proof
end
section
/-!
PROOF. Count messages at the root of a collective, and those that pass (R399 to R401, R404, R418).
-/

namespace Sys2Proof.Machine

/-! ### A count message is taken -/

section
variable {s : State} {w : Wing} {k : CollKey} {c : Coll} {id m entry : Nat} {t : Task} {a : Arrival}

/-- The root's context with a member's count message recorded (R400). -/
def countTaken (s : State) (w : Wing) (k : CollKey) (m : Nat) (a : Arrival) : State :=
  s.modColl w k fun c => { c with arrivals := Table.insert c.arrivals m a }

theorem collOf_countTaken (hc : collOf s w k = some c) :
    collOf (countTaken s w k m a) w k = some { c with arrivals := Table.insert c.arrivals m a } :=
  collOf_modColl_self (fun _ h => h) hc

theorem takeCount_waits (hc : collOf s w k = some c)
    (hall : allReported t { c with arrivals := Table.insert c.arrivals m a } = false) :
    takeCount s w t k m a = countTaken s w k m a := by
  have htaken := collOf_countTaken (m := m) (a := a) hc
  rw [countTaken] at htaken ⊢
  simp only [takeCount, htaken, hall, Bool.false_eq_true, if_false]

theorem takeCount_last (hc : collOf s w k = some c)
    (hall : allReported t { c with arrivals := Table.insert c.arrivals m a } = true) :
    takeCount s w t k m a = rootGo (countTaken s w k m a) w t { c with arrivals := Table.insert c.arrivals m a } := by
  have htaken := collOf_countTaken (m := m) (a := a) hc
  rw [countTaken] at htaken ⊢
  simp only [takeCount, htaken, hall, if_true]

/-- R400: a root that waits for counts fails on one that disagrees, and takes one that agrees with its tick. -/
theorem receiveCount_eq (hrole : c.role = .root) (hn : c.n = none) (hlive : m ∈ liveOf t)
    (hnew : Table.find c.arrivals m = none) (hgroup : collGroup (hideRegs s w) t = .ok entry) :
    receiveCount s w k c t m a =
      if countAgrees t entry { a with tick := (tickOf s w).toNat } = false then failColl s w k 0x0404
      else takeCount s w t k m { a with tick := (tickOf s w).toNat } := by
  simp [receiveCount, hrole, hn, hlive, hnew, hgroup]

end

/-! ### Every live member has reported -/

section
variable {s v : State} {w : Wing} {x : Coll} {id entry : Nat} {t : Task} {recs : Table Nat}

theorem rootGo_short (hshort : capacityShort t x (resultLen t x) = true) : rootGo s w t x = failColl s w x.key 0x0405 := by
  simp [rootGo, hshort]

theorem rootGo_malformed (hshort : capacityShort t x (resultLen t x) = false) (hgroup : collGroup (hideRegs s w) t = .ok entry)
    (hrecs : liveRecs s w t = .ok recs) (htree : treeOk s w (cbGroup t.body) recs = false) :
    rootGo s w t x = failColl s w x.key 0x0407 := by
  simp [rootGo, hshort, hgroup, hrecs, htree]

theorem noteSlow_eq (s : State) (w : Wing) (k : CollKey) (x : Coll) : noteSlow s w k x =
    addCtr (s.modJn w fun j =>
      { j with slowInfo := pack [(1, 31), (k.group.toNat, 16), ((lastMember x).1, 0)]
               slowLag := BitVec.ofNat 32 (min ((lastMember x).2 - firstArrival x) (2 ^ 32 - 1)) })
      (blkJn w) (0x1000 + 8 * (lastMember x).1) := rfl

/-- The root's context as the go message finds it, the slowest member noted (R400, R403, R418). -/
def goTaken (s : State) (w : Wing) (t : Task) (x : Coll) (recs : Table Nat) : State :=
  (noteSlow s w x.key x).modColl w x.key fun c =>
    { c with n := some (resultLen t x), direct := directOk (noteSlow s w x.key x) w (cbSelf t.body) recs
             lane := ((noteSlow s w x.key x).jn.get w).laneSel, rpos := recs.map fun r => (r.1, mrRpos r.2)
             since := (tickOf s w).toNat }

theorem tickOf_noteSlow (k : CollKey) : tickOf (noteSlow s w k x) w = tickOf s w :=
  congrArg (fun p => (PerWing.get p w).count) ((noteSlow_touch s w k x).eq .tt rfl)

/-- R401: a result of no elements commits at once. -/
theorem rootGo_zero (hshort : capacityShort t x (resultLen t x) = false) (hgroup : collGroup (hideRegs s w) t = .ok entry)
    (hrecs : liveRecs s w t = .ok recs) (htree : treeOk s w (cbGroup t.body) recs = true) (hreport : cbReport t.body = 0)
    (hzero : resultLen t x = 0) : rootGo s w t x = commitColl (goTaken s w t x recs) w x.key 0 noFlags := by
  rw [hzero] at hshort
  simp [rootGo, hshort, hgroup, hrecs, htree, writeReport, hreport, tickOf_noteSlow, goTaken, hzero]

/-- R404, R406: with a tree that is well formed the data phase begins. -/
theorem rootGo_data (hshort : capacityShort t x (resultLen t x) = false) (hgroup : collGroup (hideRegs s w) t = .ok entry)
    (hrecs : liveRecs s w t = .ok recs) (htree : treeOk s w (cbGroup t.body) recs = true) (hreport : cbReport t.body = 0)
    (hsome : resultLen t x ≠ 0) (hreg : registerPages (goTaken s w t x recs) w t x.key = .ok v) :
    rootGo s w t x = rootData v w t x.key (resultLen t x) := by
  rw [goTaken] at hreg
  simp [rootGo, hshort, hgroup, hrecs, htree, writeReport, hreport, tickOf_noteSlow, hsome, hreg]

theorem collOf_goTaken {c : Coll} (hc : collOf s w x.key = some c) :
    ∃ d, collOf (goTaken s w t x recs) w x.key = some d ∧ d.task = c.task := by
  have hslow : collOf (noteSlow s w x.key x) w x.key = some c := by
    rw [noteSlow_eq, collOf_addCtr_jn, ← hc]
    exact collOf_congr (by rw [modJn_get]) _
  exact ⟨_, collOf_modColl_self (fun _ h => h) hslow, rfl⟩

theorem goTaken_touch : Touch 0x801c4000 s (goTaken s w t x recs) :=
  Touch.step (State_modColl_touch ..) rfl (noteSlow_touch ..)

theorem held_goTaken : ((goTaken s w t x recs).jn.get w).held = (s.jn.get w).held := by
  rw [goTaken, held_modColl, noteSlow_eq, jn_addCtr_get Junction.held fun _ _ => rfl, modJn_get]

/-- R418: the slowest member is noted. -/
theorem slow_goTaken :
    ((goTaken s w t x recs).jn.get w).slowInfo = pack [(1, 31), (x.key.group.toNat, 16), ((lastMember x).1, 0)]
      ∧ ((goTaken s w t x recs).jn.get w).slowLag =
        BitVec.ofNat 32 (min ((lastMember x).2 - firstArrival x) (2 ^ 32 - 1)) := by
  rw [goTaken, State.modColl, modJn_get, noteSlow_eq]
  dsimp only
  rw [jn_addCtr_get Junction.slowInfo fun _ _ => rfl, jn_addCtr_get Junction.slowLag fun _ _ => rfl, modJn_get]
  exact ⟨rfl, rfl⟩

/-- R418, R423: the slowest member is counted. -/
theorem ctr_goTaken_slow : (ctr (goTaken s w t x recs) (blkJn w) (0x1000 + 8 * (lastMember x).1)).toNat =
    min (2 ^ 64 - 1) ((ctr s (blkJn w) (0x1000 + 8 * (lastMember x).1)).toNat + 1) := by
  rw [goTaken, ctr_modColl, noteSlow_eq, ctr_addCtr_jn_self, ctr_modJn]
  exact fun _ => rfl

theorem ctr_goTaken_of_ne {off : Nat} (h : off ≠ 0x1000 + 8 * (lastMember x).1) :
    ctr (goTaken s w t x recs) (blkJn w) off = ctr s (blkJn w) off := by
  rw [goTaken, ctr_modColl, noteSlow_eq, ctr_addCtr_jn_of_ne _ _ h]
  exact ctr_jn_congr (by rw [modJn_get]) _

/-- R401, R418: with a result of no elements the root's collective has committed, its slowest member noted and counted. -/
theorem commitColl_goTaken {c : Coll} (hc : collOf s w x.key = some c) (htask : c.task = some id) (ht : taskOf s id = some t)
    (hheld : ∀ h ∈ (s.jn.get w).held, h.key ≠ x.key) (hu : v = commitColl (goTaken s w t x recs) w x.key 0 noFlags) :
    collOf v w x.key = none
      ∧ taskOf v id = some { t with work := .coll true, flags := noFlags, zeroWork := true }
      ∧ (v.jn.get w).slowInfo = pack [(1, 31), (x.key.group.toNat, 16), ((lastMember x).1, 0)]
      ∧ (v.jn.get w).slowLag = BitVec.ofNat 32 (min ((lastMember x).2 - firstArrival x) (2 ^ 32 - 1))
      ∧ (ctr v (blkJn w) (0x1000 + 8 * (lastMember x).1)).toNat =
        min (2 ^ 64 - 1) ((ctr s (blkJn w) (0x1000 + 8 * (lastMember x).1)).toNat + 1)
      ∧ (ctr v (blkJn w) 0x0100).toNat = min (2 ^ 64 - 1) ((ctr s (blkJn w) 0x0100).toNat + 1) := by
  obtain ⟨d, hd, hdtask⟩ := collOf_goTaken (t := t) (recs := recs) hc
  have hdtask : d.task = some id := hdtask.trans htask
  have hended := commitColl_ended hd hdtask 0 noFlags
  have hrest := commitColl_rest hd hdtask 0 noFlags
  have hslow := slow_goTaken (s := s) (w := w) (t := t) (x := x) (recs := recs)
  subst hu
  refine ⟨hended.gone (by rwa [held_goTaken]), ?_, (congrArg Junction.slowInfo hrest :).trans hslow.1,
    (congrArg Junction.slowLag hrest :).trans hslow.2, ?_, ?_⟩
  · rw [taskOf_commitColl hd hdtask, goTaken_touch.taskOf rfl, ht, Option.map_some, if_pos rfl]
    rfl
  · rw [hended.counters _ (by omega) (by omega), ctr_goTaken_slow]
  · rw [ctr_commitColl hd hdtask, ctr_goTaken_of_ne (by omega)]

end

/-! ### The command -/

section
variable {s u : State} {w : Wing} {k : CollKey} {c : Coll} {id : Nat} {t : Task} {m : Fin 255} {sig count cap : Word32} {p : Nat}

theorem exec_jnCountMessage_root (hheldAt : s.heldAt = none) (hc : collOf s w k = some c) (hrole : c.role = .root)
    (htask : c.task = some id) (ht : taskOf s id = some t) (hrun : t.status = .running)
    (hu : receiveCount s w k c t m.val { tick := 0, signature := sig, count := count.toNat, capacity := cap.toNat, partials := p } = u)
    (hfree : u.heldAt = none) : exec (.jnCountMessage w ⟨k, false⟩ m sig count cap p) s = .next u := by
  refine congrArg Host.Outcome.next (orWait_of_none hheldAt ?_ hfree)
  simp [hc, hrole, onColl_of_running hc htask ht hrun, hu]

theorem exec_jnCountMessage_early (hheldAt : s.heldAt = none) (hc : collOf s w k = none) :
    exec (.jnCountMessage w ⟨k, false⟩ m sig count cap p) s = .next (holdBack s w (.count k m.val
      { tick := 0, signature := sig, count := count.toNat, capacity := cap.toNat, partials := p })) := by
  refine congrArg Host.Outcome.next (orWait_of_none hheldAt ?_ hheldAt)
  simp [hc]

theorem exec_jnCountMessage_passing (hheldAt : s.heldAt = none) :
    exec (.jnCountMessage w ⟨k, true⟩ m sig count cap p) s = .next (passMessage s w k false) :=
  congrArg Host.Outcome.next (orWait_of_none hheldAt rfl (((passMessage_touch ..).eq .heldAt rfl).trans hheldAt))

end

theorem collOf_openRelay_self {s : State} {w : Wing} {k : CollKey} (hc : collOf s w k = none) :
    collOf (openRelay s w k) w k = some (relayColl s w k) := by
  rw [collOf_openRelay, hc, if_pos rfl, Option.none_or]

theorem collOf_openRelay_of_ne (s : State) (w : Wing) {k j : CollKey} (h : j ≠ k) :
    collOf (openRelay s w k) w j = collOf s w j := by
  rw [collOf_openRelay, if_neg (Ne.symm h), Option.or_none]

theorem length_ctxs_openRelay (s : State) (w : Wing) (k : CollKey) :
    ((openRelay s w k).jn.get w).ctxs.length = (s.jn.get w).ctxs.length + 1 := by
  rw [openRelay, modJn_get, List.length_append]
  rfl

end Sys2Proof.Machine

namespace Sys2Proof

open Sys2Proof.Machine

/-- Settles O44: `receiveCount` takes or refuses a count, the last one is followed by `rootGo`, and a message on its way is
`passMessage`. -/
theorem countMessagesReachTheRoot : Obligations.CountMessagesReachTheRoot := by
  unfold Obligations.CountMessagesReachTheRoot
  constructor
  · intro s w k m sig count cap p c id t entry hheldAt hc hrole hn htask ht hid hrun hlive hnew hgroup hheld
    obtain rfl := key_of_collOf hc
    intro e a x z
    have hcount : receiveCount s w c.key c t m.val { a with tick := 0 } =
        if countAgrees t entry a = false then failColl s w c.key 0x0404 else takeCount s w t c.key m.val a :=
      receiveCount_eq hrole hn hlive hnew hgroup
    have hexec : ∀ u : State, u.heldAt = none → receiveCount s w c.key c t m.val { a with tick := 0 } = u → exec e s = .next u :=
      fun u hfree hu => exec_jnCountMessage_root hheldAt hc hrole htask ht hrun hu hfree
    have hfail : ∀ y cause, y.heldAt = none → (failColl y w c.key cause).heldAt = none := fun y cause hy =>
      ((failColl_touch y w c.key cause).eq .heldAt rfl).trans hy
    refine ⟨fun hagree => hexec _ (hfail s _ hheldAt) (by rw [hcount, if_pos hagree]), fun hagree hall => ?_, ?_⟩
    · refine ⟨z, hexec z hheldAt ?_, collOf_countTaken hc, fun j hj => ?_, (State_modColl_touch ..).jnOnly⟩
      · rw [hcount, if_neg (by simp [hagree]), takeCount_waits hc hall]
        rfl
      · exact collOf_modColl_of_ne s w (fun _ h => h) hj
    have hlast : countAgrees t entry a = true → allReported t x = true → ∀ u : State, u.heldAt = none → rootGo z w t x = u →
        exec e s = .next u := fun hagree hall u hfree hu =>
      hexec u hfree (by rw [hcount, if_neg (by simp [hagree]), takeCount_last hc hall]; exact hu)
    refine ⟨fun hagree hall hshort => hlast hagree hall _ (hfail z _ hheldAt) (rootGo_short hshort),
      fun recs hagree hall hshort hgroup hrecs => ⟨fun htree => ?_, fun htree hreport hzero _ => ?_, ?_⟩⟩
    · exact hlast hagree hall _ (hfail z _ hheldAt) (rootGo_malformed hshort hgroup hrecs htree)
    · have hgo := rootGo_zero hshort hgroup hrecs htree hreport hzero
      have htouch : Touch 0x801c4100 s (commitColl (goTaken z w t x recs) w x.key 0 noFlags) :=
        ((State_modColl_touch ..).weaken rfl |> goTaken_touch.step rfl) |> (commitColl_touch ..).step rfl
      have hzheld : ∀ h ∈ (z.jn.get w).held, h.key ≠ x.key := fun h hh => hheld h (held_modColl s w .. ▸ hh)
      have hzctr : ∀ off, ctr z (blkJn w) off = ctr s (blkJn w) off := fun off => ctr_modColl s w _ _ off
      have hz : collOf z w x.key = some x := collOf_countTaken hc
      obtain ⟨hnone, htask', hinfo, hlag, hslow, hdone⟩ := commitColl_goTaken (recs := recs) hz htask ht hzheld rfl
      rw [hzctr] at hslow hdone
      exact ⟨_, hlast hagree hall _ ((htouch.eq .heldAt rfl).trans hheldAt) hgo, hnone, htask', hinfo, hlag, hslow, hdone,
        htouch.onlyChanges_of_cells rfl fun p => by cases p <;> decide⟩
    · intro v htree hreport hsome hreg hfree
      exact hlast hagree hall _ hfree (rootGo_data hshort hgroup hrecs htree hreport hsome hreg)
  · intro s w k m sig count cap p hheldAt hc
    refine ⟨exec_jnCountMessage_early hheldAt hc, fun hfree => ?_, fun hfree => ?_⟩
    · rw [exec_jnCountMessage_passing hheldAt, passMessage_waits hc hfree]
    · rw [exec_jnCountMessage_passing hheldAt, passMessage_opens hc hfree]
      exact ⟨_, rfl, ⟨_, collOf_openRelay_self hc, rfl, rfl⟩, length_ctxs_openRelay .., fun j hj => collOf_openRelay_of_ne s w hj,
        (State_modJn_touch ..).jnOnly⟩

end Sys2Proof
end
section
/-!
PROOF. What a member's Junction does with the root's messages, and a relay's with the token (R401, R410, R412, R413).
-/

namespace Sys2Proof.Machine

section
variable {s u : State} {w : Wing} {k : CollKey} {c : Coll} {id : Nat} {t : Task} {n : Word32}

/-- A member's context with the root's N (R401). -/
def goHeard (s : State) (w : Wing) (k : CollKey) (n : Word32) : State :=
  s.modColl w k fun c => { c with n := some n.toNat, since := (tickOf s w).toNat }

theorem collOf_goHeard (hc : collOf s w k = some c) :
    collOf (goHeard s w k n) w k = some { c with n := some n.toNat, since := (tickOf s w).toNat } :=
  collOf_modColl_self (fun _ h => h) hc

theorem collOf_goHeard_of_ne {j : CollKey} (h : j ≠ k) : collOf (goHeard s w k n) w j = collOf s w j :=
  collOf_modColl_of_ne s w (fun _ h => h) h

/-- R412: a member's context with its pages registered. -/
def pagesRegistered (s : State) (w : Wing) (k : CollKey) (a b : List Nat) : State :=
  s.modColl w k fun c => { c with retained := a, provisional := b }

theorem collOf_pagesRegistered (hc : collOf s w k = some c) (a b : List Nat) :
    collOf (pagesRegistered s w k a b) w k = some { c with retained := a, provisional := b } :=
  collOf_modColl_self (fun _ h => h) hc

theorem collOf_pagesRegistered_of_ne (a b : List Nat) {j : CollKey} (h : j ≠ k) :
    collOf (pagesRegistered s w k a b) w j = collOf s w j :=
  collOf_modColl_of_ne s w (fun _ h => h) h

/-- A go message that reaches a member waiting for it, whether or not it goes on to another (R401, R412). -/
theorem exec_jnGoMessage (hheldAt : s.heldAt = none) (hc : collOf s w k = some c) (htask : c.task = some id)
    (ht : taskOf s id = some t) (hrun : t.status = .running) (hrole : c.role = .member) (hn : c.n = none) (pass : Bool)
    (hu : (if n = 0 then commitColl (goHeard s w k n) w k 0 noFlags
      else match registerPages (goHeard s w k n) w t k with
        | .error e => failCollAcc (goHeard s w k n) w k t.part e
        | .ok s => s) = u) (hfree : u.heldAt = none) : exec (.jnGoMessage w ⟨k, pass⟩ n) s = .next u := by
  have hpass : (if pass then passMessage s w k false else s) = s := by
    rw [passMessage_open hc]
    exact ite_self _
  refine congrArg Host.Outcome.next (orWait_of_none hheldAt ?_ hfree)
  dsimp only
  rw [hpass, onColl_of_running hc htask ht hrun, if_neg (by simp [hrole, hn])]
  exact hu

/-- R401: with a result of no elements a member commits at the go message. -/
theorem exec_jnGoMessage_zero (hheldAt : s.heldAt = none) (hc : collOf s w k = some c) (htask : c.task = some id)
    (ht : taskOf s id = some t) (hrun : t.status = .running) (hrole : c.role = .member) (hn : c.n = none) (pass : Bool)
    (hzero : n = 0) : exec (.jnGoMessage w ⟨k, pass⟩ n) s = .next (commitColl (goHeard s w k n) w k 0 noFlags) := by
  refine exec_jnGoMessage hheldAt hc htask ht hrun hrole hn pass (if_pos hzero) ?_
  have htouch := (commitColl_touch (goHeard s w k n) w k 0 noFlags).eq .heldAt rfl
  exact htouch.trans hheldAt

/-- R412: with another N it registers its pages. -/
theorem exec_jnGoMessage_registers (hheldAt : s.heldAt = none) (hc : collOf s w k = some c) (htask : c.task = some id)
    (ht : taskOf s id = some t) (hrun : t.status = .running) (hrole : c.role = .member) (hn : c.n = none) (pass : Bool)
    (hsome : n ≠ 0) {a b : List Nat}
    (ha : physPages (goHeard s w k n) (taskCtx (goHeard s w k n) t) (partialRanges t) = .ok a)
    (hb : physPages (goHeard s w k n) (taskCtx (goHeard s w k n) t) (collDest t) = .ok b) :
    exec (.jnGoMessage w ⟨k, pass⟩ n) s =
      .next (pagesRegistered (goHeard s w k n) w k a b) := by
  refine exec_jnGoMessage hheldAt hc htask ht hrun hrole hn pass ?_ hheldAt
  rw [if_neg hsome, registerPages, ha, hb]
  rfl

theorem exec_jnRerunMessage (hc : collOf s w k = some c) (htask : c.task = some id) (ht : taskOf s id = some t)
    (hrun : t.status = .running) (hrole : c.role = .member) (hn : c.n ≠ none) (hfirst : c.rerun = false) :
    exec (.jnRerunMessage w k) s =
      .next (s.modColl w k fun c => { c with rerun := true, chunk := 0, since := (tickOf s w).toNat }) := by
  show Host.Outcome.next (onColl ..) = _
  rw [onColl_of_running hc htask ht hrun, if_neg (by simp [hrole, hn, hfirst])]

/-- R410: a member reruns its part once. -/
theorem exec_jnRerunMessage_again (hc : collOf s w k = some c) (htask : c.task = some id) (ht : taskOf s id = some t)
    (hagain : c.rerun = true) : exec (.jnRerunMessage w k) s = .next s := by
  refine congrArg Host.Outcome.next ?_
  cases hrun : t.status == .running <;> simp [onColl, hc, htask, ht, hrun, hagain]

/-- What the token does at an open context (R413). -/
theorem exec_jnCompletionToken (hc : collOf s w k = some c) (fl : AFlags) : exec (.jnCompletionToken w k n fl) s =
    .next (if c.role = .relay then closeColl s w k
      else if c.role = .root ∨ c.n ≠ some n.toNat ∨ (c.broadcast = true ∧ c.chunk * 262144 < n.toNat) then s
      else commitColl s w k n.toNat fl) := by
  show Host.Outcome.next (match collOf s w k with | none => s | some c => _) = _
  rw [hc]

end

end Sys2Proof.Machine

namespace Sys2Proof

open Sys2Proof.Machine

/-- Settles O45: go messages and tokens commit with `commitColl`, and a relay closes its context with `closeColl`. -/
theorem membersFollowTheRoot : Obligations.MembersFollowTheRoot := by
  unfold Obligations.MembersFollowTheRoot
  intro s w k c n hheldAt hc hheld
  refine ⟨fun id t htask ht _ hrole => ?_, fun fl hrole => ?_⟩
  · have hheard := collOf_goHeard (n := n) hc
    refine ⟨fun pass hn hrun hzero => ?_, fun pass a b hn hrun hsome ha hb => ?_, fun hn hrun hfirst => ?_,
      fun _ hagain => exec_jnRerunMessage_again hc htask ht hagain, fun fl hn hwritten => ?_, fun fl hn hb hmissing => ?_⟩
    · have hended := commitColl_ended hheard htask 0 noFlags
      refine ⟨_, exec_jnGoMessage_zero hheldAt hc htask ht hrun hrole hn pass hzero, hended.gone (by rwa [goHeard, held_modColl]),
        ?_, ?_, Touch.collEnd ((commitColl_touch ..).step rfl ((State_modColl_touch ..).weaken rfl))⟩
      · rw [taskOf_commitColl hheard htask, show taskOf (goHeard s w k n) id = some t from ht, Option.map_some, if_pos rfl]
        rfl
      · rw [ctr_commitColl hheard htask, goHeard, ctr_modColl]
    · exact ⟨_, exec_jnGoMessage_registers hheldAt hc htask ht hrun hrole hn pass hsome ha hb,
        collOf_pagesRegistered hheard a b,
        fun j hj => (collOf_pagesRegistered_of_ne a b hj).trans (collOf_goHeard_of_ne hj),
        Touch.jnOnly (Touch.step (State_modColl_touch ..) rfl (State_modColl_touch ..))⟩
    · exact ⟨_, exec_jnRerunMessage hc htask ht hrun hrole hn hfirst, collOf_modColl_self (fun _ h => h) hc,
        fun j hj => collOf_modColl_of_ne s w (fun _ h => h) hj, (State_modColl_touch ..).jnOnly⟩
    · have hended := commitColl_ended hc htask n.toNat fl
      have hexec : exec (.jnCompletionToken w k n fl) s = .next (commitColl s w k n.toNat fl) := by
        rw [exec_jnCompletionToken hc, if_neg (by simp [hrole]), if_neg]
        rintro (hroot | hother | ⟨hbroadcast, hmissing⟩)
        · simp [hrole] at hroot
        · exact hother hn
        · rcases hwritten with h | h
          · simp [h] at hbroadcast
          · omega
      refine ⟨_, hexec, hended.gone hheld, hended.others, ?_, fun i hi => ?_, ctr_commitColl hc htask .., (commitColl_touch ..).collEnd⟩
      · rw [taskOf_commitColl hc htask, ht, Option.map_some, if_pos rfl]
      · rw [taskOf_commitColl hc htask]
        simp [hi]
    · rw [exec_jnCompletionToken hc, if_neg (by simp [hrole]), if_pos (.inr (.inr ⟨hb, hmissing⟩))]
  · have hended := closeColl_ended s w k
    refine ⟨_, (exec_jnCompletionToken hc fl).trans (congrArg _ (if_pos hrole)), hended.gone hheld, hended.others,
      (closeColl_touch ..).jnReports⟩

end Sys2Proof
end
section
/-!
PROOF. Chunks that arrive: at the root of a reduce, at the receiver of a broadcast and at a relay (R399, R403, R405 to R410), and
the sum of two partials element by element (R401, R407).
-/

namespace Sys2Proof.Machine

/-! ### The sum of two partials -/

section
variable (fmt : Nat)

theorem addChunk_nil_right (xs : List Nat) : (addChunk fmt xs []).1 = xs := by
  cases xs <;> rfl

theorem length_addChunk (xs ys : List Nat) : (addChunk fmt xs ys).1.length = max xs.length ys.length := by
  induction xs generalizing ys with
  | nil => simp [addChunk]
  | cons x xs ih =>
    cases ys with
    | nil => simp [addChunk]
    | cons y ys => simp [addChunk, ih, Nat.add_max_add_right]

/-- Where both partials have an element the sum has their sum. -/
theorem nth_addChunk_of_lt {xs ys : List Nat} {i : Nat} (hx : i < xs.length) (hy : i < ys.length) :
    nth 0 (addChunk fmt xs ys).1 i = (addCode fmt (nth 0 xs i) (nth 0 ys i)).1 := by
  induction xs generalizing ys i with
  | nil => simp at hx
  | cons x xs ih =>
    cases ys with
    | nil => simp at hy
    | cons y ys =>
      cases i with
      | zero => rfl
      | succ i => exact ih (Nat.lt_of_succ_lt_succ hx) (Nat.lt_of_succ_lt_succ hy)

/-- Past the end of the first partial the sum has the second one's elements. -/
theorem nth_addChunk_left_end {xs : List Nat} (ys : List Nat) {i : Nat} (hx : xs.length ≤ i) :
    nth 0 (addChunk fmt xs ys).1 i = nth 0 ys i := by
  induction xs generalizing ys i with
  | nil => simp [addChunk]
  | cons x xs ih =>
    cases ys with
    | nil => simp [addChunk, nth, List.getElem?_eq_none hx]
    | cons y ys =>
      obtain ⟨i, rfl⟩ := Nat.exists_eq_succ_of_ne_zero (Nat.ne_zero_of_lt hx)
      exact ih ys (Nat.le_of_succ_le_succ hx)

/-- Past the end of the second partial the sum has the first one's elements. -/
theorem nth_addChunk_right_end (xs : List Nat) {ys : List Nat} {i : Nat} (hy : ys.length ≤ i) :
    nth 0 (addChunk fmt xs ys).1 i = nth 0 xs i := by
  induction ys generalizing xs i with
  | nil => rw [addChunk_nil_right]
  | cons y ys ih =>
    cases xs with
    | nil => simp [addChunk, nth, List.getElem?_eq_none hy]
    | cons x xs =>
      obtain ⟨i, rfl⟩ := Nat.exists_eq_succ_of_ne_zero (Nat.ne_zero_of_lt hy)
      exact ih xs (Nat.le_of_succ_le_succ hy)

end

/-! ### Residue failures -/

section
variable {s : State} {w : Wing} {k : CollKey} {c x : Coll} {t : Task} {n : Nat}

/-- R409: a residue failure is reported and counted, and its lane noted. -/
def residueNoted (s : State) (w : Wing) (k : CollKey) (lane : Bool) (part : Nat) : State :=
  (addCtr (raise s 0x0401 k.group.toNat (blkJn w) part) (blkJn w) 0x0110).modJn w fun j =>
    { j with laneFailed := j.laneFailed ||| (if lane then 2 else 1) }

theorem residueNoted_touch (lane : Bool) (part : Nat) : Touch 0x801c4000 s (residueNoted s w k lane part) :=
  Touch.step (State_modJn_touch ..) rfl (Touch.step (addCtr_touch_jn ..) rfl ((raise_touch ..).weaken rfl))

theorem collOf_residueNoted (lane : Bool) (part : Nat) (i : CollKey) :
    collOf (residueNoted s w k lane part) w i = collOf s w i := by
  rw [residueNoted, collOf_modJn, collOf_addCtr_jn, (raise_touch ..).collOf rfl]
  exact fun _ => rfl

theorem held_residueNoted (lane : Bool) (part : Nat) :
    ((residueNoted s w k lane part).jn.get w).held = (s.jn.get w).held := by
  rw [residueNoted, modJn_get]
  dsimp only
  rw [jn_addCtr_get Junction.held fun _ _ => rfl, raise_jn]

theorem laneFailed_residueNoted (lane : Bool) (part : Nat) : ((residueNoted s w k lane part).jn.get w).laneFailed =
    (s.jn.get w).laneFailed ||| (if lane then 2 else 1) := by
  rw [residueNoted, modJn_get]
  dsimp only
  rw [jn_addCtr_get Junction.laneFailed fun _ _ => rfl, raise_jn]

theorem ctr_residueNoted (lane : Bool) (part : Nat) : (ctr (residueNoted s w k lane part) (blkJn w) 0x0110).toNat =
    min (2 ^ 64 - 1) ((ctr s (blkJn w) 0x0110).toNat + 1) := by
  rw [residueNoted, ctr_modJn, ctr_addCtr_jn_self, (raise_touch ..).ctr_jn rfl]
  exact fun _ => rfl

theorem ctr_residueNoted_of_ne (lane : Bool) (part : Nat) {off : Nat} (h : off ≠ 0x0110) :
    ctr (residueNoted s w k lane part) (blkJn w) off = ctr s (blkJn w) off := by
  rw [residueNoted, ctr_modJn, ctr_addCtr_jn_of_ne _ _ h, (raise_touch ..).ctr_jn rfl]
  exact fun _ => rfl

/-- R410: the root's context as the rerun begins, on the other lane. -/
def rerunColl (s : State) (w : Wing) (t : Task) (c : Coll) : Coll :=
  { c with rerun := true, lane := !c.lane, direct := routeAgain s w t c, chunk := 0, waiting := [], acc := none, taken := []
           asked := [], flags := noFlags, since := (tickOf s w).toNat }

/-- The context of a root put back with its data requests (R402, R406). -/
def settleAsks (s : State) (w : Wing) (t : Task) (k : CollKey) (x : Coll) (answered : Option Nat) : State :=
  (s.modColl w k fun _ => x).modColl w k fun d => askMembers (s.modColl w k fun _ => x) w t d answered

theorem settleRoot_asks (hleft : x.chunk < chunkCount t n) (a : Option Nat) :
    settleRoot s w t k n x a = settleAsks s w t k x a := by
  rw [settleRoot, if_neg (Nat.not_le.2 hleft)]
  rfl

theorem settleAsks_touch (a : Option Nat) : Touch 0x4000 s (settleAsks s w t k x a) :=
  Touch.step (State_modColl_touch ..) rfl (State_modColl_touch ..)

theorem collOf_settleAsks (hc : collOf s w k = some c) (hkey : x.key = k) (a : Option Nat) :
    collOf (settleAsks s w t k x a) w k = some (askMembers (s.modColl w k fun _ => x) w t x a) :=
  collOf_modColl_self (fun _ h => h) (collOf_modColl_self (fun _ _ => hkey) hc)

/-- R410: the state in which the root reruns: the failure noted, the rerun counted, and the members asked again. -/
def rerunStarted (s : State) (w : Wing) (k : CollKey) (c : Coll) (t : Task) : State :=
  settleAsks (addCtr (residueNoted s w k c.lane t.part) (blkJn w) 0x0118) w t k
    (rerunColl (addCtr (residueNoted s w k c.lane t.part) (blkJn w) 0x0118) w t c) none

/-- R410: a second residue failure ends the collective. -/
theorem residueFailure_second (hagain : c.rerun = true) :
    residueFailure s w k c t = failColl (residueNoted s w k c.lane t.part) w k 0x0402 := if_pos hagain

theorem residueFailure_first (hfirst : c.rerun = false) (hn : c.n = some n) (hchunks : chunkCount t n ≠ 0) :
    residueFailure s w k c t = rerunStarted s w k c t := by
  have hreruns : residueFailure s w k c t = settleRoot (addCtr (residueNoted s w k c.lane t.part) (blkJn w) 0x0118) w t k
      (c.n.getD 0) (rerunColl (addCtr (residueNoted s w k c.lane t.part) (blkJn w) 0x0118) w t c) none :=
    if_neg (by simp [hfirst])
  rw [hreruns, hn]
  exact settleRoot_asks (x := rerunColl ..) (Nat.pos_of_ne_zero hchunks) none

theorem rerunStarted_touch : Touch 0x801c4000 s (rerunStarted s w k c t) :=
  Touch.step (settleAsks_touch _) rfl (Touch.step (addCtr_touch_jn ..) rfl (residueNoted_touch ..))

theorem collOf_rerunStarted (hc : collOf s w k = some c) : ∃ d, collOf (rerunStarted s w k c t) w k = some d
    ∧ d.rerun = true ∧ d.lane = !c.lane ∧ d.chunk = 0 ∧ d.waiting = [] ∧ d.acc = none ∧ d.flags = noFlags ∧ d.n = c.n
    ∧ d.arrivals = c.arrivals :=
  ⟨_, collOf_settleAsks (x := rerunColl _ w t c) ((collOf_addCtr_jn ..).trans ((collOf_residueNoted ..).trans hc))
      (key_of_collOf (c := c) hc) none, rfl, rfl, rfl, rfl, rfl, rfl, rfl, rfl⟩

theorem laneFailed_rerunStarted : ((rerunStarted s w k c t).jn.get w).laneFailed =
    (s.jn.get w).laneFailed ||| (if c.lane then 2 else 1) := by
  rw [rerunStarted, settleAsks, State.modColl, modJn_get, State.modColl, modJn_get]
  dsimp only
  rw [jn_addCtr_get Junction.laneFailed fun _ _ => rfl, laneFailed_residueNoted]

theorem ctr_settleAsks (a : Option Nat) (off : Nat) : ctr (settleAsks s w t k x a) (blkJn w) off = ctr s (blkJn w) off := by
  rw [settleAsks, ctr_modColl, ctr_modColl]

/-- R409: the failure is counted. -/
theorem ctr_rerunStarted_failures : (ctr (rerunStarted s w k c t) (blkJn w) 0x0110).toNat =
    min (2 ^ 64 - 1) ((ctr s (blkJn w) 0x0110).toNat + 1) := by
  rw [rerunStarted, ctr_settleAsks, ctr_addCtr_jn_of_ne _ _ (by decide), ctr_residueNoted]

/-- R410: the rerun is counted. -/
theorem ctr_rerunStarted_reruns : (ctr (rerunStarted s w k c t) (blkJn w) 0x0118).toNat =
    min (2 ^ 64 - 1) ((ctr s (blkJn w) 0x0118).toNat + 1) := by
  rw [rerunStarted, ctr_settleAsks, ctr_addCtr_jn_self, ctr_residueNoted_of_ne _ _ (by decide)]

end

/-! ### A round of additions at the root -/

section
variable {v : State} {w : Wing} {k : CollKey} {y d : Coll} {t : Task} {n added id : Nat} {fails : Bool} {m : Option Nat}

/-- R406: additions without a residue failure let the context go on. -/
theorem addedTo_settles (h : fails = false ∨ added = 0) :
    addedTo w t k n fails m (v, .ok (y, added)) = settleRoot v w t k n y m := by
  rw [addedTo, if_neg]
  rcases h with h | h <;> simp [h]

theorem addedTo_residue (hadded : added ≠ 0) :
    addedTo w t k n true m (v, .ok (y, added)) = residueFailure (v.modColl w k fun _ => y) w k y t := by
  rw [addedTo, if_pos (by simp [hadded])]

/-- R410: the first residue failure of a collective starts its rerun on the other lane. -/
theorem addedTo_reruns (hadded : added ≠ 0) (hfirst : y.rerun = false) (hn : y.n = some n) (hchunks : chunkCount t n ≠ 0) :
    addedTo w t k n true m (v, .ok (y, added)) = rerunStarted (v.modColl w k fun _ => y) w k y t := by
  rw [addedTo_residue hadded, residueFailure_first hfirst hn hchunks]

/-- R410: a second one ends it. -/
theorem addedTo_ends (hadded : added ≠ 0) (hagain : y.rerun = true) : addedTo w t k n true m (v, .ok (y, added)) =
    failColl (residueNoted (v.modColl w k fun _ => y) w k y.lane t.part) w k 0x0402 := by
  rw [addedTo_residue hadded, residueFailure_second hagain]

/-- R142, R410: what the second residue failure leaves. -/
theorem failColl_residueNoted (hc : (collOf v w k).isSome = true) (hkey : y.key = k) (htask : y.task = some id)
    (ht : taskOf v id = some t) (hrun : t.status = .running) (hheld : ∀ h ∈ (v.jn.get w).held, h.key ≠ k) {u : State}
    (hu : u = failColl (residueNoted (v.modColl w k fun _ => y) w k y.lane t.part) w k 0x0402) :
    collOf u w k = none ∧ taskOf u id = some { t with status := .stopping 0x0402 }
      ∧ (ctr u (blkJn w) 0x0110).toNat = min (2 ^ 64 - 1) ((ctr v (blkJn w) 0x0110).toNat + 1)
      ∧ Touch 0x801c4100 v u := by
  subst hu
  obtain ⟨d, hd⟩ := Option.isSome_iff_exists.1 hc
  have hnoted : Touch 0x801c4000 v (residueNoted (v.modColl w k fun _ => y) w k y.lane t.part) :=
    Touch.step (residueNoted_touch ..) rfl ((State_modColl_touch ..).weaken rfl)
  have hy : collOf (residueNoted (v.modColl w k fun _ => y) w k y.lane t.part) w k = some y :=
    (collOf_residueNoted ..).trans (collOf_modColl_self (fun _ _ => hkey) hd)
  have hended := failColl_ended hy htask 0x0402
  refine ⟨hended.gone (by rwa [held_residueNoted, held_modColl]), ?_, ?_, (failColl_touch ..).step rfl (hnoted.weaken rfl)⟩
  · exact taskOf_failColl_self hy htask ((hnoted.taskOf rfl id).trans ht) (by simp [hrun]) 0x0402
  · rw [hended.counters _ (by decide) (by decide), ctr_residueNoted, ctr_modColl]

end

/-! ### The command -/

section
variable {s u v : State} {w : Wing} {k : CollKey} {c : Coll} {id n chunk : Nat} {t : Task} {m : Fin 255} {core : BitVec 16}
  {data : List Byte} {bad : Bool} {a : Arrival}

/-- The root's context with a chunk in its slot (R406). -/
def chunkWaits (s : State) (w : Wing) (c : Coll) (m core chunk : Nat) (data : List Byte) : Coll :=
  { c with waiting := c.waiting ++ [(m, core, chunk, data)], since := (tickOf s w).toNat }

theorem exec_jnChunkArrival_root (hheldAt : s.heldAt = none) (hc : collOf s w k = some c) (htask : c.task = some id)
    (ht : taskOf s id = some t) (hrun : t.status = .running) (hrole : c.role = .root) (hn : c.n = some n)
    (hreduce : c.broadcast = false) (hu : rootChunk s w k c t m.val core.toNat chunk data bad = u) (hfree : u.heldAt = none) :
    exec (.jnChunkArrival w ⟨k, false⟩ m core chunk data bad) s = .next u := by
  refine congrArg Host.Outcome.next (orWait_of_none hheldAt ?_ hfree)
  simp [hc, htask, ht, hrole, hreduce, hrun, hn, hu]

/-- R406: a chunk that was not requested changes nothing. -/
theorem rootChunk_unasked (ha : Table.find c.arrivals m.val = some a)
    (hno : wasAsked s w t c m.val a core.toNat chunk = false) : rootChunk s w k c t m.val core.toNat chunk data bad = s := by
  simp [rootChunk, ha, hno]

theorem rootChunk_asked (ha : Table.find c.arrivals m.val = some a)
    (hasked : wasAsked s w t c m.val a core.toNat chunk = true) (hn : c.n = some n) :
    rootChunk s w k c t m.val core.toNat chunk data bad =
      addedTo w t k n bad (some m.val) (addParts w t n (addFuel t (chunkWaits s w c m.val core.toNat chunk data) n)
        (s.modColl w k fun _ => chunkWaits s w c m.val core.toNat chunk data) (chunkWaits s w c m.val core.toNat chunk data) 0) := by
  simp [rootChunk, ha, hasked, hn, chunkWaits]

/-- R408: a chunk of a broadcast at its receiver. -/
theorem exec_jnChunkArrival_receiver (hheldAt : s.heldAt = none) (hc : collOf s w k = some c) (htask : c.task = some id)
    (ht : taskOf s id = some t) (hrun : t.status = .running) (hrole : c.role = .member) (hn : c.n = some n)
    (hbroadcast : c.broadcast = true) {pass : Bool} (hu : receiverChunk s w k c t chunk data pass = u) (hfree : u.heldAt = none) :
    exec (.jnChunkArrival w ⟨k, pass⟩ m core chunk data bad) s = .next u := by
  refine congrArg Host.Outcome.next (orWait_of_none hheldAt ?_ hfree)
  simp [hc, htask, ht, hrole, hbroadcast, hrun, hn, hu]

theorem receiverChunk_saved (hn : c.n = some n) (hchunk : chunk = c.chunk) (hleft : chunk * 262144 < n) {pass : Bool}
    (hsave : chunkSave (if pass then addCtr s (blkJn w) 0x0108 else s) w t chunk (cbDst t.body + chunk * 262144)
      (data.take (n - chunk * 262144)) = (v, none)) : receiverChunk s w k c t chunk data pass =
      v.modColl w k fun c => { c with chunk := c.chunk + 1, since := (tickOf v w).toNat } := by
  have hno : ¬ (chunk ≠ c.chunk ∨ n ≤ chunk * 262144) := by omega
  simp only [receiverChunk, hn, Option.getD_some, if_neg hno, hsave]

/-- R399: where no task of this wing takes the chunk, one on its way passes and any other is dropped. -/
theorem exec_jnChunkArrival_elsewhere (hheldAt : s.heldAt = none)
    (hnone : ∀ c, collOf s w k = some c → c.task = none) (pass : Bool) :
    exec (.jnChunkArrival w ⟨k, pass⟩ m core chunk data bad) s = .next (if pass then passMessage s w k true else s) := by
  have hfind : ((collOf s w k).bind fun c => (c.task.bind (taskOf s)).map fun t => (c, t)) = none := by
    cases hc : collOf s w k with
    | none => rfl
    | some c => simp [hnone c hc]
  refine congrArg Host.Outcome.next (orWait_of_none hheldAt ?_ ?_)
  · simp only [hfind]
  · cases pass
    · exact hheldAt
    · exact ((passMessage_touch ..).eq .heldAt rfl).trans hheldAt

end

/-- R408: a chunk that goes on is counted. -/
theorem ctr_countChunk (s : State) (w : Wing) : (ctr (countChunk s w true) (blkJn w) 0x0108).toNat =
    min (2 ^ 64 - 1) ((ctr s (blkJn w) 0x0108).toNat + 1) := ctr_addCtr_jn_self ..

theorem countChunk_touch (s : State) (w : Wing) : Touch 0x801c4000 s (countChunk s w true) := addCtr_touch_jn ..

end Sys2Proof.Machine

namespace Sys2Proof

open Sys2Proof.Machine

/-- Settles O46: a round of additions ends in `addedTo`, a receiver's chunk in `receiverChunk`, and a chunk that passes in
`passMessage`; the sum is by induction on the two lists of `addChunk`. -/
theorem chunksArrive : Obligations.ChunksArrive := by
  unfold Obligations.ChunksArrive
  refine ⟨fun s w k m core chunk data hheldAt => ⟨?_, ?_, fun bad hc => ?_, fun bad hc hfull => ?_, fun bad hc hfree => ?_,
      fun c bad hc _ htask => ?_⟩,
    fun fmt xs ys i => ⟨length_addChunk fmt xs ys, nth_addChunk_of_lt fmt, nth_addChunk_left_end fmt ys,
      nth_addChunk_right_end fmt xs⟩⟩
  · intro c id t n a bad hc htask ht _ hrun hrole hn hreduce ha e x r
    have hexec : ∀ u : State, rootChunk s w k c t m.val core.toNat chunk data bad = u → u.heldAt = none → exec e s = .next u :=
      fun u hu hfree => exec_jnChunkArrival_root hheldAt hc htask ht hrun hrole hn hreduce hu hfree
    refine ⟨fun hno => hexec s (rootChunk_unasked ha hno) hheldAt, fun hasked => ?_⟩
    have hround : rootChunk s w k c t m.val core.toNat chunk data bad = addedTo w t k n bad (some m.val) r :=
      rootChunk_asked ha hasked hn
    refine ⟨fun v y added hr hgood hfree => ?_, fun v err hr hfree => ?_,
      fun v y added hr hbad hadded hfirst hkey hny hchunks hv hfree => ?_,
      fun v y added hr hbad hadded hagain hytask hkey hv hvt hfree hvheld => ?_⟩
    · exact hexec _ (by rw [hround, hr, addedTo_settles hgood]) hfree
    · exact hexec _ (by rw [hround, hr]; rfl) hfree
    · obtain ⟨d₀, hd₀⟩ := Option.isSome_iff_exists.1 hv
      obtain ⟨d, hd, hfields⟩ := collOf_rerunStarted (t := t) (collOf_modColl_self (fun _ _ => hkey) hd₀)
      have htouch : Touch 0x801c4000 v (rerunStarted (v.modColl w k fun _ => y) w k y t) :=
        rerunStarted_touch.step rfl ((State_modColl_touch ..).weaken rfl)
      obtain ⟨hrerun, hlane, hchunk, hwaiting, hacc, hflags, hdn, harrivals⟩ := hfields
      refine ⟨_, d, hexec _ (by rw [hround, hr, hbad, addedTo_reruns hadded hfirst hny hchunks])
        ((htouch.eq .heldAt rfl).trans hfree), hd, hrerun, hlane, hchunk, hwaiting, hacc, hflags, hdn, harrivals, ?_, ?_, ?_,
        htouch.jnReports⟩
      · rw [laneFailed_rerunStarted, State.modColl, modJn_get]
      · rw [ctr_rerunStarted_failures, ctr_modColl]
      · rw [ctr_rerunStarted_reruns, ctr_modColl]
    · obtain ⟨hgone, hstop, hcount, htouch⟩ := failColl_residueNoted hv hkey hytask hvt hrun hvheld rfl
      exact ⟨_, hexec _ (by rw [hround, hr, hbad, addedTo_ends hadded hagain]) ((htouch.eq .heldAt rfl).trans hfree), hgone, hstop,
        hcount, htouch.collEnd⟩
  · intro c id t n v bad pass hc htask ht hrun hrole hn hbroadcast hchunk hleft hsave hfree
    exact exec_jnChunkArrival_receiver hheldAt hc htask ht hrun hrole hn hbroadcast (receiverChunk_saved hn hchunk hleft hsave) hfree
  · rw [exec_jnChunkArrival_elsewhere hheldAt (by simp [hc])]
    rfl
  · rw [exec_jnChunkArrival_elsewhere hheldAt (by simp [hc]), if_pos rfl, passMessage_waits hc hfull]
  · refine ⟨_, by rw [exec_jnChunkArrival_elsewhere hheldAt (by simp [hc]), if_pos rfl, passMessage_opens hc hfree],
      ⟨_, (collOf_congr (countChunk_get Junction.ctxs (fun _ _ => rfl) ..) k).trans (collOf_openRelay_self hc), rfl, rfl⟩, ?_, ?_,
      Touch.jnReports ((countChunk_touch ..).step rfl ((State_modJn_touch ..).weaken rfl))⟩
    · rw [countChunk_get Junction.ctxs fun _ _ => rfl, length_ctxs_openRelay]
    · rw [ctr_countChunk, openRelay, ctr_modJn]
      exact fun _ => rfl
  · exact ⟨_, by rw [exec_jnChunkArrival_elsewhere hheldAt (by simp [hc, htask]), if_pos rfl, passMessage_open hc],
      countChunk_get Junction.ctxs (fun _ _ => rfl) .., ctr_countChunk s w, (countChunk_touch s w).jnReports⟩

end Sys2Proof
end
section
/-!
PROOF. Laws of the link layer (R431 to R439): the counters of a LNK_ block, one link end's layer changed, and what sending flits
leaves of ports, Concourse, received flits, counters and logs.
-/

namespace Sys2Proof.Machine

/-! ### Counters of a LNK_ block -/

theorem ctrTable_lnk (s : State) (w : Wing) : ctrTable s (blkLnk w) = s.lnkCtrs.get w := by cases w <;> rfl

theorem setCtrTable_lnk (s : State) (w : Wing) (c : Table Word64) :
    setCtrTable s (blkLnk w) c = { s with lnkCtrs := s.lnkCtrs.modify w fun _ => c } := by cases w <;> rfl

theorem ctr_lnk (s : State) (w : Wing) (off : Nat) : ctr s (blkLnk w) off = Table.get 0 (s.lnkCtrs.get w) off := by
  rw [ctr, ctrTable_lnk]

theorem ctr_lnk_congr {s t : State} (h : t.lnkCtrs = s.lnkCtrs) (w : Wing) (off : Nat) :
    ctr t (blkLnk w) off = ctr s (blkLnk w) off := by rw [ctr_lnk, ctr_lnk, h]

theorem Touch.ctr_lnk {m : Nat} {s t : State} (h : Touch m s t) (hm : m.testBit StatePart.lnkCtrs.idx = false) (w : Wing)
    (off : Nat) : ctr t (blkLnk w) off = ctr s (blkLnk w) off := ctr_lnk_congr (h.eq .lnkCtrs hm) w off

theorem lnkCtrs_addCtr (s : State) (w : Wing) (off n : Nat) : (addCtr s (blkLnk w) off n).lnkCtrs =
    s.lnkCtrs.modify w fun _ => Table.set 0 (s.lnkCtrs.get w) off (sat64 ((ctr s (blkLnk w) off).toNat + n)) := by
  unfold addCtr
  dsimp only
  rw [setCtrTable_lnk, ctrTable_lnk]
  split
  · exact raise_lnkCtrs ..
  · rfl

theorem sat64_add_ne_zero (m : Nat) {n : Nat} (hn : n ≠ 0) : sat64 (m + n) ≠ 0 := by
  obtain ⟨k, rfl⟩ := Nat.exists_eq_succ_of_ne_zero hn
  exact sat64_succ_ne_zero (m + k)

/-- R557: a count of n adds n to a link's counter, which stays at its limit. -/
theorem ctr_addCtr_lnk_self (s : State) (w : Wing) (off : Nat) {n : Nat} (hn : n ≠ 0) :
    (ctr (addCtr s (blkLnk w) off n) (blkLnk w) off).toNat = min (2 ^ 64 - 1) ((ctr s (blkLnk w) off).toNat + n) := by
  rw [ctr_lnk, lnkCtrs_addCtr, PerWing.get_modify_self, Table.get_set_self _ _ (sat64_add_ne_zero _ hn), toNat_sat64]

theorem ctr_addCtr_lnk_of_ne (s : State) {w v : Wing} {off o : Nat} (h : v ≠ w ∨ o ≠ off) :
    ctr (addCtr s (blkLnk w) off) (blkLnk v) o = ctr s (blkLnk v) o := by
  rw [ctr_lnk, lnkCtrs_addCtr]
  by_cases hv : v = w
  · subst hv
    rw [PerWing.get_modify_self, Table.get_set_of_ne _ (sat64_succ_ne_zero _) (h.resolve_left (absurd rfl)), ctr_lnk]
  · rw [PerWing.get_modify_of_ne _ _ hv, ctr_lnk]

/-! ### Logs -/

/-- What the wings keep for EIO while the Concourse is down, and the SEQ of the cause log (R560, R562). -/
def Logs.kept (l : Logs) : List (BitVec 128) × List (BitVec 256) × Word32 := (l.westEvents, l.westLog, l.clogSeq)

theorem kept_postEvent {s t : State} {r : BitVec 128} (h : postEvent s r = some t) : t.hif.logs.kept = s.hif.logs.kept := by
  unfold postEvent at h
  dsimp only at h
  split at h
  · cases h
  · rw [← Option.some.inj h]
    split
    · rw [sendMsix_hif_logs]
      rfl
    · rfl

theorem kept_offerEvent {s t : State} {w : Wing} {r : BitVec 128} (hw : w = .west → concourseUp s = true)
    (h : offerEvent s w r = some t) : t.hif.logs.kept = s.hif.logs.kept := by
  unfold offerEvent at h
  rw [if_neg (by rintro ⟨rfl, hdown⟩; simp [hw rfl] at hdown)] at h
  exact kept_postEvent h

theorem kept_loseEvent (s : State) : (loseEvent s).hif.logs.kept = s.hif.logs.kept := by
  unfold loseEvent
  dsimp only
  split
  · cases h : offerEvent (countLost s) .east (eventRecord (countLost s) 0x0901 offEvLost blkHif 0) with
    | none => rfl
    | some t => exact (kept_offerEvent (fun hw => absurd hw (by decide)) h).trans rfl
  · rfl

/-- An event that reaches EIO at once leaves what the West wing keeps. -/
theorem kept_raise {s : State} {b : Nat} (ev data part : Nat) (h : blockWing b = .west → concourseUp s = true) :
    (raise s ev data b part).hif.logs.kept = s.hif.logs.kept := by
  unfold raise
  split
  · exact kept_offerEvent h ‹_›
  · exact kept_loseEvent s

theorem setCtrTable_logs (s : State) (b : Nat) (c : Table Word64) : (setCtrTable s b c).hif.logs = s.hif.logs :=
  (setCtrTable_touch s b c).eq .logs rfl

theorem kept_addCtr {s : State} {b : Nat} (off n : Nat) (h : blockWing b = .west → concourseUp s = true) :
    (addCtr s b off n).hif.logs.kept = s.hif.logs.kept := by
  have hset := congrArg Logs.kept (setCtrTable_logs s b (Table.set 0 (ctrTable s b) off (sat64 ((ctr s b off).toNat + n))))
  have hcc : (setCtrTable s b (Table.set 0 (ctrTable s b) off (sat64 ((ctr s b off).toNat + n)))).cc = s.cc :=
    (setCtrTable_touch s b _).eq .cc rfl
  unfold addCtr
  dsimp only
  split
  · exact (kept_raise _ _ _ fun hw => by rw [concourseUp, hcc]; exact h hw).trans hset
  · exact hset

/-! ### One link's layer changed -/

theorem wingNum_inj {w v : Wing} (h : wingNum w = wingNum v) : w = v := by
  cases w <;> cases v <;> simp_all [wingNum]

theorem portNum_inj {w v : Wing} {p q : Fin 6} (h : portNum w p.val = portNum v q.val) : w = v ∧ p = q := by
  have hp := p.isLt
  have hq := q.isLt
  simp only [portNum] at h
  exact ⟨wingNum_inj (by omega), Fin.ext (by omega)⟩

@[simp] theorem linkOf_modLink_self (s : State) (l : LinkEnd) (f : Link → Link) : linkOf (s.modLink l f) l = f (linkOf s l) := by
  rcases l with ⟨w, p⟩ | w
  · exact congrArg Port.link (portOf_modPort_self ..)
  · cases w <;> rfl

theorem linkOf_modPort_of_ne (s : State) {w : Wing} {p : Fin 6} (f : Port → Port) {m : LinkEnd} (h : m ≠ .port w p) :
    linkOf (s.modPort w p.val f) m = linkOf s m := by
  rcases m with ⟨v, q⟩ | v
  · have hne : portNum v q.val ≠ portNum w p.val := fun he => h (by obtain ⟨rfl, rfl⟩ := portNum_inj he; rfl)
    simp [linkOf, portOf_modPort, hne]
  · cases v <;> rfl

theorem linkOf_modLink_of_ne (s : State) {l m : LinkEnd} (f : Link → Link) (h : m ≠ l) :
    linkOf (s.modLink l f) m = linkOf s m := by
  rcases l with ⟨w, p⟩ | w
  · exact linkOf_modPort_of_ne s _ h
  · rcases m with ⟨v, q⟩ | v
    · cases w <;> rfl
    · have hv : v ≠ w := fun he => h (he ▸ rfl)
      cases w <;> cases v <;> simp_all [State.modLink, linkOf]

theorem linkOf_congr {s t : State} (hp : t.ports = s.ports) (hc : t.cc = s.cc) (l : LinkEnd) : linkOf t l = linkOf s l := by
  rcases l with ⟨w, p⟩ | w
  · simp only [linkOf, portOf, hp]
  · cases w <;> simp only [linkOf, hc]

theorem portOf_congr {s t : State} (hp : t.ports = s.ports) (w : Wing) (p : Nat) : portOf t w p = portOf s w p := by
  simp only [portOf, hp]

theorem portOf_modLink_of_ne (s : State) {l : LinkEnd} (f : Link → Link) {v : Wing} {q : Nat}
    (h : ∀ w p, l = .port w p → portNum v q ≠ portNum w p.val) : portOf (s.modLink l f) v q = portOf s v q := by
  rcases l with ⟨w, p⟩ | w
  · exact (portOf_modPort s w v p.val q _).trans (if_neg (h w p rfl))
  · cases w <;> rfl

/-- A port but for its link layer. -/
def Port.besides (x : Port) : Port := { x with link := {} }

/-- The Concourse but for its link layers. -/
def Concourse.besides (c : Concourse) : Concourse := { c with east := {}, west := {} }

theorem Port.eq_of_besides {x y : Port} (h : x.besides = y.besides) (k : Link) : { x with link := k } = { y with link := k } :=
  congrArg (fun z : Port => { z with link := k }) h

section
variable {x y : Port} (h : x.besides = y.besides)
include h

theorem Port.state_of_besides : x.state = y.state := (congrArg Port.state h :)

theorem Port.kept_of_besides : x.kept = y.kept := (congrArg Port.kept h :)

theorem Port.lanes_of_besides : x.lanes = y.lanes := (congrArg Port.lanes h :)

theorem Port.retired_of_besides : x.retired = y.retired := (congrArg Port.retired h :)

end

theorem besides_modLink (s : State) (l : LinkEnd) (f : Link → Link) (v : Wing) (q : Nat) :
    (portOf (s.modLink l f) v q).besides = (portOf s v q).besides := by
  rcases l with ⟨w, p⟩ | w
  · rw [State.modLink, portOf_modPort]
    split
    · rw [portOf, portOf, ‹portNum v q = portNum w p.val›]
      rfl
    · rfl
  · cases w <;> rfl

theorem cc_besides_modLink (s : State) (l : LinkEnd) (f : Link → Link) : (s.modLink l f).cc.besides = s.cc.besides := by
  rcases l with ⟨w, p⟩ | w
  · rfl
  · cases w <;> rfl

/-! ### What changes in links alone -/

/-- The counters of the flits sent (R460). -/
def countsFlits (off : Nat) : Bool := off == 0x0900 || (List.range 6).any fun p => off == portCtr p 0

/-- t is s but for link layers, as far as the ports and the Concourse go; flits may have gone out. -/
structure LinksAlone (s t : State) : Prop where
  port : ∀ v q, (portOf t v q).besides = (portOf s v q).besides
  cc : t.cc.besides = s.cc.besides
  flits : s.flitOut <+: t.flitOut

theorem LinksAlone.refl (s : State) : LinksAlone s s := ⟨fun _ _ => rfl, rfl, List.prefix_refl _⟩

theorem LinksAlone.trans {s t u : State} (h : LinksAlone s t) (h' : LinksAlone t u) : LinksAlone s u :=
  ⟨fun v q => (h'.port v q).trans (h.port v q), h'.cc.trans h.cc, h.flits.trans h'.flits⟩

/-- The last operation first, so that each state is read off the term. -/
theorem LinksAlone.after {s t u : State} (h' : LinksAlone t u) (h : LinksAlone s t) : LinksAlone s u := h.trans h'

theorem LinksAlone.foldl {α : Type} {f : State → α → State} (hf : ∀ s x, LinksAlone s (f s x)) (l : List α) (s : State) :
    LinksAlone s (l.foldl f s) := by
  induction l generalizing s with
  | nil => exact .refl s
  | cons x l ih => exact (hf s x).trans (ih _)

/-- An operation that leaves ports, Concourse and flits. -/
theorem LinksAlone.of_touch {m : Nat} {s t : State} (h : Touch m s t) (hp : m.testBit StatePart.ports.idx = false)
    (hc : m.testBit StatePart.cc.idx = false) (hf : m.testBit StatePart.flitOut.idx = false) : LinksAlone s t :=
  ⟨fun v q => congrArg Port.besides (portOf_congr (h.eq .ports hp) v q), congrArg Concourse.besides (h.eq .cc hc),
    (h.eq .flitOut hf : t.flitOut = s.flitOut) ▸ List.prefix_refl _⟩

theorem linksAlone_modLink (s : State) (l : LinkEnd) (f : Link → Link) : LinksAlone s (s.modLink l f) :=
  ⟨besides_modLink s l f, cc_besides_modLink s l f, by rw [State.modLink_flitOut]⟩

theorem LinksAlone.endState {s t : State} (h : LinksAlone s t) (l : LinkEnd) : endState t l = endState s l := by
  rcases l with ⟨w, p⟩ | w
  · exact (congrArg Port.state (h.port w p.val) :)
  · exact (congrArg Concourse.state h.cc :)

theorem LinksAlone.ccState {s t : State} (h : LinksAlone s t) : t.cc.state = s.cc.state := (congrArg Concourse.state h.cc :)

theorem LinksAlone.concourseUp {s t : State} (h : LinksAlone s t) : concourseUp t = concourseUp s :=
  (congrArg (fun c : Concourse => c.state == .up) h.cc :)

/-- What a link end has received: its expected SEQ, whether a NAK of its own is out, and the flits delivered (R436). -/
def Link.received (k : Link) : BitVec 12 × Bool × List (Nat × List Byte) := (k.expected, k.nakOut, k.delivered)

/-- t is s after flits were sent: links alone have changed, in nothing that they have received, of the links' counters only
those of the flits have moved, and where the Concourse is up nothing was kept for EIO. -/
structure SendsFlits (s t : State) : Prop extends LinksAlone s t where
  counters : ∀ w off, countsFlits off = false → ctr t (blkLnk w) off = ctr s (blkLnk w) off
  received : ∀ m, (linkOf t m).received = (linkOf s m).received
  logs : Machine.concourseUp s = true → t.hif.logs.kept = s.hif.logs.kept

theorem SendsFlits.refl (s : State) : SendsFlits s s := ⟨.refl s, fun _ _ _ => rfl, fun _ => rfl, fun _ => rfl⟩

theorem SendsFlits.trans {s t u : State} (h : SendsFlits s t) (h' : SendsFlits t u) : SendsFlits s u :=
  ⟨h.toLinksAlone.trans h'.toLinksAlone, fun w off ho => (h'.counters w off ho).trans (h.counters w off ho), fun m => (h'.received m).trans (h.received m),
    fun hup => (h'.logs (h.toLinksAlone.concourseUp.trans hup)).trans (h.logs hup)⟩

/-- The last operation first, so that each state is read off the term. -/
theorem SendsFlits.after {s t u : State} (h' : SendsFlits t u) (h : SendsFlits s t) : SendsFlits s u := h.trans h'

theorem SendsFlits.ite {s x y : State} {c : Prop} [Decidable c] (hx : SendsFlits s x) (hy : SendsFlits s y) :
    SendsFlits s (if c then x else y) := by
  split
  · exact hx
  · exact hy

theorem SendsFlits.foldl {α : Type} {f : State → α → State} (hf : ∀ s x, SendsFlits s (f s x)) (l : List α) (s : State) :
    SendsFlits s (l.foldl f s) := by
  induction l generalizing s with
  | nil => exact .refl s
  | cons x l ih => exact (hf s x).trans (ih _)

theorem SendsFlits.expected {s t : State} (h : SendsFlits s t) (m : LinkEnd) : (linkOf t m).expected = (linkOf s m).expected :=
  (congrArg Prod.fst (h.received m) :)

theorem SendsFlits.nakOut {s t : State} (h : SendsFlits s t) (m : LinkEnd) : (linkOf t m).nakOut = (linkOf s m).nakOut :=
  (congrArg (fun x => x.2.1) (h.received m) :)

theorem SendsFlits.delivered {s t : State} (h : SendsFlits s t) (m : LinkEnd) : (linkOf t m).delivered = (linkOf s m).delivered :=
  (congrArg (fun x => x.2.2) (h.received m) :)

/-- An operation that leaves ports, Concourse, flits and the links' counters, and what is kept for EIO. -/
theorem SendsFlits.of_touch {m : Nat} {s t : State} (h : Touch m s t) (hp : m.testBit StatePart.ports.idx = false)
    (hc : m.testBit StatePart.cc.idx = false) (hf : m.testBit StatePart.flitOut.idx = false)
    (hl : m.testBit StatePart.lnkCtrs.idx = false)
    (hlogs : Machine.concourseUp s = true → t.hif.logs.kept = s.hif.logs.kept) : SendsFlits s t :=
  ⟨.of_touch h hp hc hf, fun w off _ => h.ctr_lnk hl w off, fun l => congrArg Link.received (linkOf_congr (h.eq .ports hp) (h.eq .cc hc) l), hlogs⟩

theorem sendsFlits_modLink (s : State) (l : LinkEnd) {f : Link → Link} (hf : ∀ k, (f k).received = k.received) :
    SendsFlits s (s.modLink l f) := by
  refine ⟨linksAlone_modLink s l f, fun w off _ => (State_modLink_touch s l f).ctr_lnk rfl w off, fun m => ?_, fun _ => by rw [State.modLink_hif]⟩
  by_cases hm : m = l
  · rw [hm, linkOf_modLink_self, hf]
  · rw [linkOf_modLink_of_ne s f hm]

theorem linksAlone_raise (s : State) (ev data b part : Nat) : LinksAlone s (raise s ev data b part) :=
  .of_touch (raise_touch ..) rfl rfl rfl

theorem linksAlone_addCtr_lnk (s : State) (w : Wing) (off n : Nat) : LinksAlone s (addCtr s (blkLnk w) off n) :=
  .of_touch (addCtr_touch_lnk ..) rfl rfl rfl

theorem sendsFlits_modTt (s : State) (w : Wing) (f : Timetable → Timetable) : SendsFlits s (s.modTt w f) :=
  .of_touch (State_modTt_touch ..) rfl rfl rfl rfl fun _ => rfl

theorem sendsFlits_modCarSet (s : State) (w : Wing) (k : CarSetKey) (f : CarSet → CarSet) : SendsFlits s (s.modCarSet w k f) :=
  .of_touch (State_modCarSet_touch ..) rfl rfl rfl rfl fun _ => rfl

theorem sendsFlits_addCtr_tt (s : State) (w : Wing) (off n : Nat) : SendsFlits s (addCtr s (blkTt w) off n) :=
  .of_touch (addCtr_touch_tt ..) rfl rfl rfl rfl fun h => kept_addCtr _ _ fun _ => h

theorem sendsFlits_raise (s : State) (ev data b part : Nat) : SendsFlits s (raise s ev data b part) :=
  .of_touch (raise_touch ..) rfl rfl rfl rfl fun h => kept_raise _ _ _ fun _ => h

/-! ### Flits put on a link -/

theorem countLink_lnk (s : State) (l : LinkEnd) (port cc : Nat) : countLink s l port cc =
    addCtr s (blkLnk (endWing l)) (match l with | .port _ p => portCtr p.val port | .concourse _ => cc) := by
  cases l <;> rfl

theorem countsFlits_counted (l : LinkEnd) :
    countsFlits (match l with | .port _ p => portCtr p.val 0 | .concourse _ => 0x0900) = true := by
  rcases l with ⟨w, p⟩ | w
  · exact (by decide : ∀ p : Fin 6, countsFlits (portCtr p.val 0) = true) p
  · rfl

theorem putImage_flitOut (s : State) (l : LinkEnd) (x : Flit) : (putImage s l x).flitOut = s.flitOut ++ [(l, x)] :=
  (countLink_touch ..).eq .flitOut rfl

theorem putImage_ports (s : State) (l : LinkEnd) (x : Flit) : (putImage s l x).ports = s.ports :=
  (putImage_touch ..).eq .ports rfl

theorem putImage_cc (s : State) (l : LinkEnd) (x : Flit) : (putImage s l x).cc = s.cc := (putImage_touch ..).eq .cc rfl

theorem linkOf_putImage (s : State) (l m : LinkEnd) (x : Flit) : linkOf (putImage s l x) m = linkOf s m :=
  linkOf_congr (putImage_ports s l x) (putImage_cc s l x) m

theorem sendsFlits_putImage (s : State) (l : LinkEnd) (x : Flit) : SendsFlits s (putImage s l x) := by
  refine ⟨⟨fun v q => by rw [portOf_congr (putImage_ports s l x)], by rw [putImage_cc], ?_⟩, fun w off ho => ?_,
    fun m => by rw [linkOf_putImage], fun h => ?_⟩
  · rw [putImage_flitOut]
    exact List.prefix_append ..
  · rw [putImage, countLink_lnk]
    refine (ctr_addCtr_lnk_of_ne _ (.inr fun he => ?_)).trans rfl
    rw [he, countsFlits_counted] at ho
    cases ho
  · rw [putImage, countLink_lnk]
    exact kept_addCtr (s := { s with flitOut := s.flitOut ++ [(l, x)] }) _ _ fun _ => h

theorem putNew_flitOut (s : State) (l : LinkEnd) (x : Flit) : (putNew s l x).flitOut = s.flitOut ++ [(l, x)] := by
  rw [putNew, putImage_flitOut, State.modLink_flitOut]

theorem linkOf_putNew_self (s : State) (l : LinkEnd) (x : Flit) : linkOf (putNew s l x) l =
    { linkOf s l with crTurn := ((linkOf s l).crTurn + 1) % (creditClasses l).length } := by
  rw [putNew, linkOf_putImage, linkOf_modLink_self]

theorem portOf_putNew_of_ne (s : State) {l : LinkEnd} (x : Flit) {v : Wing} {q : Nat}
    (h : ∀ w p, l = .port w p → portNum v q ≠ portNum w p.val) : portOf (putNew s l x) v q = portOf s v q := by
  rw [putNew, portOf_congr (putImage_ports ..), portOf_modLink_of_ne _ _ h]

theorem sendsFlits_putNew (s : State) (l : LinkEnd) (x : Flit) : SendsFlits s (putNew s l x) := by
  refine SendsFlits.trans ?_ (sendsFlits_putImage ..)
  exact sendsFlits_modLink s l fun _ => rfl

theorem modLink_port_touch (s : State) (w : Wing) (p : Fin 6) (f : Link → Link) : Touch 0x8000 s (s.modLink (.port w p) f) :=
  State_modPort_touch s w p.val fun x => { x with link := f x.link }

/-- What a flit put on a port's link touches: nothing of the Concourse. -/
theorem putNew_port_touch (s : State) (w : Wing) (p : Fin 6) (x : Flit) : Touch 0x2801e8000 s (putNew s (.port w p) x) := by
  refine Touch.step (putImage_touch ..) rfl ?_
  exact (modLink_port_touch s w p _).weaken rfl

end Sys2Proof.Machine
end
section
/-!
PROOF. The header of a flit that a link end sends (R432), and what sending on links and on the ring leaves (R435 to R439, R446).
-/

namespace Sys2Proof.Machine

/-! ### The header of a flit -/

theorem toNat_ofNat_low {n k : Nat} (h : k ≤ n) (x : Nat) : (BitVec.ofNat n x).toNat % 2 ^ k = x % 2 ^ k := by
  rw [BitVec.toNat_ofNat, Nat.mod_mod_of_dvd _ (Nat.pow_dvd_pow 2 h)]

/-- R434: the CRC stands above the header's other fields. -/
theorem toNat_withCrc_low (x : Nat) : (withCrc x).toNat % 2 ^ 96 = x % 2 ^ 96 := by
  rw [withCrc, toNat_ofNat_low (by decide), bits]
  omega

/-- The fields below the CRC of a flit that a link end sends. -/
theorem toNat_encodeFlit_low (s : State) (l : LinkEnd) (seq : BitVec 12) (nak : Bool) (b : FlitBody) :
    ∃ ack ans cls total, ack < 2 ^ 12 ∧ ans < 2 ^ 16 ∧ cls < 8 ∧ total < 4096 ∧
      (encodeFlit s l seq nak b).toNat % 2 ^ 96 = (seq.toNat * 2 ^ 84 + ack * 2 ^ 72 + b.type * 2 ^ 68 + b.cls * 2 ^ 65
        + b.hseq % 8 * 2 ^ 62 + b.payload.length * 2 ^ 54 + cls * 2 ^ 51 + total * 2 ^ 39 + ans * 2 ^ 23 + b2n nak * 2 ^ 22)
          % 2 ^ 96 := by
  refine ⟨((linkOf s l).expected - 1).toNat, b.answer.toNat,
    (nth (0, 0) (creditClasses l) ((linkOf s l).crTurn % (creditClasses l).length)).1,
    Table.get 0 (linkOf s l).crGiven (nth (0, 0) (creditClasses l) ((linkOf s l).crTurn % (creditClasses l).length)).1 % 4096, BitVec.isLt _, BitVec.isLt _, ?_,
    Nat.mod_lt _ (by decide), ?_⟩
  · have hclasses : ∀ i, (nth (0, 0) (creditClasses l) i).1 < 8 := by
      have hall : ∀ c ∈ creditClasses l, c.1 < 8 := by cases l <;> simp [creditClasses, isConcourse]
      intro i
      by_cases hi : i < (creditClasses l).length
      · rw [nth, List.getD_eq_getElem _ _ hi]
        exact hall _ (List.getElem_mem hi)
      · rw [nth, List.getD_eq_default _ _ (Nat.le_of_not_lt hi)]
        decide
    exact hclasses _
  · rw [encodeFlit, toNat_withCrc_low, packN, toNat_ofNat_low (by decide)]
    iterate 11 rw [List.foldl_cons]
    rw [List.foldl_nil]
    dsimp only
    omega

theorem fType_encodeFlit (s : State) (l : LinkEnd) (seq : BitVec 12) (nak : Bool) {b : FlitBody} (ht : b.type < 16)
    (hc : b.cls < 8) (hp : b.payload.length < 256) : fType (encodeFlit s l seq nak b) = b.type := by
  obtain ⟨ack, ans, cls, total, hack, hans, hcls, htotal, hlow⟩ := toNat_encodeFlit_low s l seq nak b
  have hseq := seq.isLt
  have hnak := b2n_lt_two nak
  rw [fType, flitField, bits]
  omega

theorem fNak_encodeFlit (s : State) (l : LinkEnd) (seq : BitVec 12) (nak : Bool) {b : FlitBody} :
    fNak (encodeFlit s l seq nak b) = nak := by
  obtain ⟨ack, ans, cls, total, hack, hans, hcls, htotal, hlow⟩ := toNat_encodeFlit_low s l seq nak b
  have hbit : (encodeFlit s l seq nak b).toNat / 2 ^ 22 % 2 = b2n nak := by
    have hnak := b2n_lt_two nak
    omega
  rw [fNak, bit, hbit]
  cases nak <;> rfl

/-! ### Unsequenced flits -/

theorem sendsFlits_putPlain (s : State) (l : LinkEnd) (nak : Bool) (b : FlitBody) : SendsFlits s (putPlain s l nak b) :=
  sendsFlits_putNew ..

theorem putPlain_flitOut (s : State) (l : LinkEnd) (nak : Bool) (b : FlitBody) :
    (putPlain s l nak b).flitOut = s.flitOut ++ [(l, encodeFlit s l 0 nak b)] := putNew_flitOut ..

/-- An IDLE flit, with or without its NAK (R433). -/
theorem fType_idle (s : State) (l : LinkEnd) (nak : Bool) : fType (encodeFlit s l 0 nak { type := 0, cls := 0 }) = 0 :=
  fType_encodeFlit s l 0 nak (by decide) (by decide) (by decide)

theorem putIdle_flitOut (s : State) (l : LinkEnd) : ∃ y, (putIdle s l).flitOut = s.flitOut ++ [(l, y)] ∧ fType y = 0 :=
  ⟨_, putPlain_flitOut .., fType_idle ..⟩

theorem sendTrain_flitOut (s : State) (l : LinkEnd) (r : BitVec 256) :
    ∃ y, (sendTrain s l r).flitOut = s.flitOut ++ [(l, y)] ∧ fType y = 1 := by
  refine ⟨_, putPlain_flitOut .., fType_encodeFlit _ _ _ _ ?_ ?_ ?_⟩
  · exact (by decide : 1 < 16)
  · exact (by decide : 0 < 8)
  · simp [leBytes_length]

theorem sendsFlits_sendTrain (s : State) (l : LinkEnd) (r : BitVec 256) : SendsFlits s (sendTrain s l r) :=
  sendsFlits_putPlain ..

theorem portOf_sendTrain_of_ne (s : State) {w v : Wing} {p : Fin 6} {q : Nat} (r : BitVec 256)
    (h : portNum v q ≠ portNum w p.val) : portOf (sendTrain s (.port w p) r) v q = portOf s v q :=
  portOf_putNew_of_ne s _ fun _ _ he => by cases he; exact h

/-- What a TRAIN flit of a port touches. -/
theorem sendTrain_port_touch (s : State) (w : Wing) (p : Fin 6) (r : BitVec 256) :
    Touch 0x2801e8000 s (sendTrain s (.port w p) r) := putNew_port_touch ..

theorem sendsFlits_idleIfFull (s : State) (l : LinkEnd) : SendsFlits s (idleIfFull s l) := by
  unfold idleIfFull
  split
  · exact sendsFlits_putPlain ..
  · exact .refl s

/-! ### Sequenced flits -/

theorem received_after (k : Link) (old b : FlitBody) (x : Flit) : (k.after old b x).received = k.received := rfl

theorem sendsFlits_carLeft (s : State) (w : Wing) (c : SentCar) : SendsFlits s (carLeft s w c) :=
  (sendsFlits_modCarSet ..).trans (sendsFlits_addCtr_tt ..)

theorem sendsFlits_sendSequenced (s : State) (l : LinkEnd) (b : FlitBody) : SendsFlits s (sendSequenced s l b) := by
  unfold sendSequenced
  have hput : ∀ b' x, SendsFlits s (putNew (s.modLink l fun k => k.after b b' x) l x) := fun b' x =>
    (sendsFlits_modLink s l fun k => received_after k b b' x).trans (sendsFlits_putNew ..)
  dsimp only
  split
  · split
    · exact hput ..
    · exact (hput ..).trans (sendsFlits_carLeft ..)
  · exact hput ..

theorem sendsFlits_offerFlit (s : State) (l : LinkEnd) (b : FlitBody) : SendsFlits s (offerFlit s l b) := by
  unfold offerFlit
  split
  · exact sendsFlits_sendSequenced ..
  · split
    · exact sendsFlits_modLink s l fun _ => rfl
    · exact .refl s

theorem sendsFlits_sendFlit (s : State) (l : LinkEnd) (b : FlitBody) : SendsFlits s (sendFlit s l b) :=
  (sendsFlits_offerFlit ..).trans (sendsFlits_idleIfFull ..)

theorem sendsFlits_sendAnswers (l : LinkEnd) (n : Nat) (s : State) : SendsFlits s (sendAnswers l n s) := by
  induction n generalizing s with
  | zero => exact .refl s
  | succ n ih =>
    unfold sendAnswers
    dsimp only
    split
    · exact (sendsFlits_sendSequenced ..).trans (ih _)
    · exact .refl s

theorem sendsFlits_drainLink (s : State) (l : LinkEnd) : SendsFlits s (drainLink s l) := by
  unfold drainLink
  refine (sendsFlits_idleIfFull ..).after ((sendsFlits_sendAnswers ..).after ?_)
  refine (SendsFlits.foldl (fun s b => sendsFlits_offerFlit s l b) ..).after ?_
  exact sendsFlits_modLink s l fun _ => rfl

theorem sendsFlits_ackLink (s : State) (l : LinkEnd) (ack : BitVec 12) : SendsFlits s (ackLink s l ack) :=
  sendsFlits_modLink s l fun _ => rfl

theorem sendsFlits_takeCredits (s : State) (l : LinkEnd) (cls total : Nat) : SendsFlits s (takeCredits s l cls total) := by
  unfold takeCredits
  split
  · exact sendsFlits_modLink s l fun _ => rfl
  · exact .refl s

/-! ### The ring -/

theorem sendsFlits_sendTime (s : State) (w : Wing) (n : Neighbour) (x : BitVec 256) : SendsFlits s (sendTime s w n x) := by
  unfold sendTime
  split
  · exact .refl s
  · exact sendsFlits_sendFlit ..

theorem sendsFlits_countRetry (s : State) (w : Wing) (p : SendPhase) : SendsFlits s (countRetry s w p) := by
  unfold countRetry
  split
  · exact sendsFlits_addCtr_tt ..
  · exact .refl s

theorem sendsFlits_offerNotice (w : Wing) (s : State) (n : Notice) : SendsFlits s (offerNotice w s n) := by
  unfold offerNotice
  split
  · exact .refl s
  · exact ((sendsFlits_countRetry ..).trans (sendsFlits_modTt ..)).trans (sendsFlits_sendFlit ..)

theorem sendsFlits_offerCar (w : Wing) (c : CarSet) (s : State) (x : Nat × Nat × SendPhase) :
    SendsFlits s (offerCar w c s x) := by
  unfold offerCar
  split
  · exact ((sendsFlits_countRetry ..).trans (sendsFlits_modCarSet ..)).trans (sendsFlits_sendFlit ..)
  · exact .refl s

theorem sendsFlits_settleArrive (s : State) (w : Wing) : SendsFlits s (settleArrive s w) := by
  obtain h | ⟨x, h⟩ := settleArrive_cases s w
  · rw [h]
    exact .refl s
  · rw [h]
    exact (sendsFlits_modTt ..).trans (sendsFlits_sendTime ..)

theorem sendsFlits_pumpRing (s : State) (w : Wing) : SendsFlits s (pumpRing s w) := by
  unfold pumpRing
  dsimp only
  refine (sendsFlits_settleArrive ..).after ?_
  split
  · exact (SendsFlits.foldl (sendsFlits_offerNotice w) ..).trans
      (SendsFlits.foldl (fun s c => SendsFlits.foldl (sendsFlits_offerCar w c) ..) ..)
  · exact .refl s

theorem sendsFlits_loseLock (s : State) (w : Wing) : SendsFlits s (loseLock s w) :=
  ((sendsFlits_addCtr_tt ..).trans (sendsFlits_raise ..)).trans (sendsFlits_modTt ..)

theorem sendsFlits_linkChangedAt (s : State) (w : Wing) : SendsFlits s (linkChangedAt s w) := by
  unfold linkChangedAt
  dsimp only
  refine SendsFlits.ite (SendsFlits.ite ?_ ?_) (SendsFlits.ite ?_ ?_)
  · exact (sendsFlits_loseLock ..).after (sendsFlits_modTt ..)
  · exact sendsFlits_modTt ..
  · exact (sendsFlits_modTt ..).after (sendsFlits_modTt ..)
  · exact sendsFlits_modTt ..

theorem sendsFlits_settleLinks (s : State) : SendsFlits s (settleLinks s) :=
  (((sendsFlits_linkChangedAt s .east).trans (sendsFlits_linkChangedAt ..)).trans (sendsFlits_pumpRing ..)).trans
    (sendsFlits_pumpRing ..)

/-! ### Cars queued again, and links that restart -/

theorem sendsFlits_requeueCar (w : Wing) (s : State) (c : SentCar) : SendsFlits s (requeueCar w s c) := by
  unfold requeueCar
  split
  · exact sendsFlits_modTt ..
  · dsimp only
    split
    · exact (sendsFlits_addCtr_tt ..).after (sendsFlits_modCarSet ..)
    · exact sendsFlits_modCarSet ..

theorem sendsFlits_dropCars (s : State) (l : LinkEnd) (cs : List SentCar) : SendsFlits s (dropCars s l cs) := by
  unfold dropCars
  refine (SendsFlits.foldl (sendsFlits_requeueCar (endWing l)) ..).after ?_
  exact sendsFlits_modLink s l fun _ => rfl

theorem linksAlone_discardLink (s : State) (l : LinkEnd) : LinksAlone s (discardLink s l) :=
  (sendsFlits_dropCars ..).toLinksAlone.trans (linksAlone_modLink ..)

/-- R446: the link layer of a link that goes on with the same partner: SEQ from 0, credits afresh. -/
def resumed (l : LinkEnd) (k : Link) : Link :=
  { freshLink l with nextHseq := k.nextHseq, unanswered := k.unanswered, answers := k.answers, delivered := k.delivered }

theorem sendsFlits_resumeLink (s : State) (l : LinkEnd) (last : Option (BitVec 12)) :
    SendsFlits (s.modLink l (resumed l)) (resumeLink s l last) := by
  unfold resumeLink
  refine (sendsFlits_drainLink ..).after ((SendsFlits.foldl (fun s b => sendsFlits_offerFlit s l b) ..).after ?_)
  exact SendsFlits.foldl (fun s b => sendsFlits_offerFlit s l (replayBody s l b)) ..

theorem linksAlone_resumeLink (s : State) (l : LinkEnd) (last : Option (BitVec 12)) : LinksAlone s (resumeLink s l last) :=
  (linksAlone_modLink ..).trans (sendsFlits_resumeLink ..).toLinksAlone

theorem linksAlone_restartLink (s : State) (l : LinkEnd) : LinksAlone s (restartLink s l) :=
  (linksAlone_discardLink ..).trans (linksAlone_modLink ..)

end Sys2Proof.Machine
end
section
/-!
PROOF. A sequenced flit sent, and what it leaves of its link's credits (R435, R439).
-/

namespace Sys2Proof.Machine

section
variable {s : State} {l : LinkEnd} {b : FlitBody}

theorem cls_fill (k : Link) (b : FlitBody) : (b.fill k).cls = b.cls := by
  unfold FlitBody.fill
  dsimp only
  split <;> split <;> rfl

theorem cls_stampBeat (s : State) (l : LinkEnd) (b : FlitBody) : (stampBeat s l b).cls = b.cls := by
  unfold stampBeat
  split <;> rfl

/-- R439: a flit of a credited class uses one credit of it. -/
theorem credits_sendSequenced (htype : b.type ≠ 3) : (linkOf (sendSequenced s l b) l).credits =
    if credited b.cls then Table.set 0 (linkOf s l).credits b.cls (Table.get 0 (linkOf s l).credits b.cls - 1)
    else (linkOf s l).credits := by
  unfold sendSequenced
  dsimp only
  split
  · exact absurd ‹b.type = 3› htype
  · rw [linkOf_putNew_self, linkOf_modLink_self]
    simp only [Link.after, cls_stampBeat, cls_fill]

theorem credits_idleIfFull (s : State) (l : LinkEnd) : (linkOf (idleIfFull s l) l).credits = (linkOf s l).credits := by
  unfold idleIfFull
  split
  · rw [putIdle, putPlain, linkOf_putNew_self]
  · rfl

/-- R435: a flit that may leave, with none of its class before it, leaves at once. -/
theorem credits_sendFlit (hleave : mayLeave s l b = true) (hwaiting : (linkOf s l).waiting = []) (htype : b.type ≠ 3) :
    (linkOf (sendFlit s l b) l).credits =
      if credited b.cls then Table.set 0 (linkOf s l).credits b.cls (Table.get 0 (linkOf s l).credits b.cls - 1)
      else (linkOf s l).credits := by
  rw [sendFlit, credits_idleIfFull, offerFlit, if_pos (by simp [hleave, hwaiting]), credits_sendSequenced htype]

end

/-- The Concourse up, its east end's credits of class 0 listed twice: one, and five behind it. -/
def creditListedTwice : State := { cc := { state := .up, east := { credits := [(0, 1), (0, 5)] } } }

end Sys2Proof.Machine

namespace Sys2Proof

open Sys2Proof.Machine

/-- Refutes O37: where a table of credits lists class 0 twice, using up the credit listed first uncovers the second, and five
credits stand where none should. -/
theorem not_flitsSent : ¬ Obligations.FlitsSent := by
  unfold Obligations.FlitsSent
  rintro ⟨-, hsent⟩
  obtain ⟨-, -, hleaves⟩ := hsent creditListedTwice (.concourse .east) { type := 5, cls := 0 } rfl (by decide)
  obtain ⟨x, ys, -, -, -, -, hcredit, -⟩ :=
    hleaves (by decide) (fun _ => by decide) rfl fun y hy => absurd hy List.not_mem_nil
  have hcredit := hcredit rfl
  rw [credits_sendFlit rfl rfl (by decide)] at hcredit
  exact absurd hcredit (by decide)

end Sys2Proof
end
section
/-!
PROOF. Flits received, discarded, acknowledged and replayed (R433 to R437, R440, R443, R444, R460).
-/

namespace Sys2Proof.Machine

/-! ### A flit arrives -/

section
variable {s : State} {l : LinkEnd} {x : Flit} {n : Nat} {un : Bool} {lane : Fin 9}

theorem endState_congr {t : State} (hp : t.ports = s.ports) (hc : t.cc = s.cc) (l : LinkEnd) : endState t l = endState s l := by
  rcases l with ⟨w, p⟩ | w
  · simp only [endState, portOf, hp]
  · simp only [endState, hc]

theorem linkUp_iff (s : State) (l : LinkEnd) : linkUp s l = true ↔ endState s l = .up := by simp [linkUp]

theorem endState_countCorrected (s : State) (l : LinkEnd) (n : Nat) : endState (countCorrected s l n) l = endState s l :=
  endState_congr ((countCorrected_touch ..).eq .ports rfl) ((countCorrected_touch ..).eq .cc rfl) l

theorem linkUp_countCorrected (s : State) (l : LinkEnd) (n : Nat) : linkUp (countCorrected s l n) l = linkUp s l := by
  rw [linkUp, linkUp, endState_countCorrected]

theorem linkOf_countCorrected (s : State) (l m : LinkEnd) (n : Nat) : linkOf (countCorrected s l n) m = linkOf s m :=
  linkOf_congr ((countCorrected_touch ..).eq .ports rfl) ((countCorrected_touch ..).eq .cc rfl) m

/-- R460: a port counts the symbols that a flit had corrected. -/
theorem ctr_countCorrected (s : State) (w : Wing) (p : Fin 6) (n : Nat) :
    (ctr (countCorrected s (.port w p) n) (blkLnk w) (portCtr p.val 0x20)).toNat =
      min (2 ^ 64 - 1) ((ctr s (blkLnk w) (portCtr p.val 0x20)).toNat + n) := by
  by_cases hn : n = 0
  · have hlt := (ctr s (blkLnk w) (portCtr p.val 0x20)).isLt
    rw [countCorrected, if_pos hn, hn]
    omega
  · rw [countCorrected, if_neg hn, ctr_addCtr_lnk_self _ _ _ hn]

/-- R440: a link that is neither up nor in training takes nothing. -/
theorem exec_flitReceive_closed (hup : linkUp s l = false) (hstate : endState s l ≠ .training) :
    exec (.flitReceive l x un ⟨lane, n⟩) s = .next s := by
  show execFlitReceive l x un ⟨lane, n⟩ s = _
  simp [execFlitReceive, hup, hstate]

/-- R440: a link in training takes TRAIN flits alone. -/
theorem exec_flitReceive_training (hstate : endState s l = .training) : exec (.flitReceive l x un ⟨lane, n⟩) s =
    .next (if un = false ∧ crcGood x = true ∧ flitPermitted l x = true ∧ fType x = 1 then
      echoRequest (countCorrected s l n) l (BitVec.ofNat 256 (leNat (fPayload x))) else countCorrected s l n) := by
  show execFlitReceive l x un ⟨lane, n⟩ s = _
  have hup : linkUp s l = false := by simp [linkUp, hstate]
  simp only [execFlitReceive, hstate, or_true, if_true, endState_countCorrected, linkUp_countCorrected, hup, Bool.not_false,
    Bool.not_eq_true', true_and]

theorem not_training_of_up (hup : linkUp s l = true) : endState s l ≠ .training := by
  rw [(linkUp_iff s l).1 hup]
  decide

theorem exec_flitReceive_up (hup : linkUp s l = true) : exec (.flitReceive l x un ⟨lane, n⟩) s =
    .next (if un || !crcGood x then loseFlit (countCorrected s l n) l un lane.val
      else orWait (countCorrected s l n) fun s => acceptFlit s l x) := by
  show execFlitReceive l x un ⟨lane, n⟩ s = _
  simp only [execFlitReceive, hup, true_or, if_true, endState_countCorrected, linkUp_countCorrected, not_training_of_up hup,
    false_and, if_false, Bool.not_true, Bool.false_eq_true]

/-- R436: a flit with a good CRC is used at once where nothing that it begins must wait. -/
theorem exec_flitReceive_good (hup : linkUp s l = true) (hcrc : crcGood x = true) {u : State}
    (hu : acceptFlit { countCorrected s l n with heldAt := none } l x = u) (hfree : u.heldAt = none) :
    exec (.flitReceive l x false ⟨lane, n⟩) s = .next u := by
  rw [exec_flitReceive_up hup, hcrc]
  exact congrArg Host.Outcome.next (orWait_eq (f := fun s => acceptFlit s l x) hu hfree)

theorem acceptFlit_refused (h : flitPermitted l x = false) : acceptFlit s l x = protocolError s l := by
  simp [acceptFlit, h]

theorem acceptFlit_unsequenced (h : flitPermitted l x = true) (hseq : sequenced (fType x) = false) : acceptFlit s l x =
    if fType x = 1 then echoRequest (useHeader s l x) l (BitVec.ofNat 256 (leNat (fPayload x))) else useHeader s l x := by
  simp [acceptFlit, h, hseq]

theorem acceptFlit_sequenced (h : flitPermitted l x = true) (hseq : sequenced (fType x) = true) : acceptFlit s l x =
    if fSeq x = (linkOf s l).expected then useHeader (deliverFlit s l x) l x
    else if seqAfter (fSeq x) (linkOf s l).expected then sendNak s l else s := by
  simp [acceptFlit, h, hseq]

theorem protocolError_heldAt (s : State) (l : LinkEnd) : (protocolError s l).heldAt = s.heldAt := by
  rcases l with ⟨w, p⟩ | w
  · have hcount : (addCtr s (blkLnk w) (portCtr p.val 0x48)).heldAt = s.heldAt := (addCtr_touch_lnk ..).eq .heldAt rfl
    exact ((retrainPort_touch ..).eq .heldAt rfl).trans hcount
  · exact (settleLinks_touch _).eq .heldAt rfl

/-! ### A flit is delivered -/

/-- R436: what the link layer of the receiving end is after a delivery. -/
theorem linkOf_deliverFlit_self (s : State) (l : LinkEnd) (x : Flit) : (linkOf (deliverFlit s l x) l).received =
    ((linkOf s l).expected + 1, false, (linkOf s l).delivered ++ [(fType x, fPayload x)]) := by
  have hcount : ∀ (t : State) (w : Wing) (off : Nat), linkOf (addCtr t (blkLnk w) off) l = linkOf t l := fun t w off =>
    linkOf_congr ((addCtr_touch_lnk ..).eq .ports rfl) ((addCtr_touch_lnk ..).eq .cc rfl) l
  unfold deliverFlit
  dsimp only
  split
  · rw [hcount, linkOf_modLink_self]
    rfl
  · rw [linkOf_modLink_self]
    rfl

theorem linkOf_deliverFlit_of_ne (s : State) {l m : LinkEnd} (x : Flit) (h : m ≠ l) :
    linkOf (deliverFlit s l x) m = linkOf s m := by
  have hcount : ∀ (t : State) (w : Wing) (off : Nat), linkOf (addCtr t (blkLnk w) off) m = linkOf t m := fun t w off =>
    linkOf_congr ((addCtr_touch_lnk ..).eq .ports rfl) ((addCtr_touch_lnk ..).eq .cc rfl) m
  unfold deliverFlit
  dsimp only
  split
  · rw [hcount, linkOf_modLink_of_ne _ _ h]
  · rw [linkOf_modLink_of_ne _ _ h]

/-- R436: a header without NAK and ANSWER frees flits, brings credits and lets what waits leave. -/
theorem useHeader_plain (hnak : fNak x = false) (hans : fAnswer x = 0) : useHeader s l x =
    pumpRing (drainLink (takeCredits (ackLink s l (fAck x)) l (fCrClass x) (fCrTotal x)) l) (endWing l) := by
  simp [useHeader, hnak, hans]

theorem sendsFlits_useHeader (hnak : fNak x = false) (hans : fAnswer x = 0) : SendsFlits s (useHeader s l x) := by
  rw [useHeader_plain hnak hans]
  exact (((sendsFlits_ackLink ..).trans (sendsFlits_takeCredits ..)).trans (sendsFlits_drainLink ..)).trans
    (sendsFlits_pumpRing ..)

theorem useHeader_touch_plain (hnak : fNak x = false) (hans : fAnswer x = 0) : Touch 0x2801fb000 s (useHeader s l x) := by
  rw [useHeader_plain hnak hans]
  exact Touch.step (pumpRing_touch ..) rfl (Touch.step (drainLink_touch ..) rfl (Touch.step (takeCredits_touch ..) rfl
    ((ackLink_touch ..).weaken rfl)))

/-! ### A NAK goes out -/

theorem sendNak_of_out (h : (linkOf s l).nakOut = true) : sendNak s l = s := if_pos h

theorem sendNak_of_none (h : (linkOf s l).nakOut = false) :
    sendNak s l = putPlain (s.modLink l fun k => { k with nakOut := true }) l true { type := 0, cls := 0 } :=
  if_neg (by simp [h])

theorem sendNak_flitOut (h : (linkOf s l).nakOut = false) :
    ∃ y, (sendNak s l).flitOut = s.flitOut ++ [(l, y)] ∧ fNak y = true ∧ fType y = 0 := by
  rw [sendNak_of_none h, putPlain_flitOut, State.modLink_flitOut]
  exact ⟨_, rfl, fNak_encodeFlit .., fType_idle ..⟩

theorem nakOut_sendNak (s : State) (l : LinkEnd) : (linkOf (sendNak s l) l).nakOut = true := by
  unfold sendNak
  split
  · assumption
  · rw [(sendsFlits_putPlain ..).nakOut, linkOf_modLink_self]

/-- R436: a NAK that brought no flit goes out again. -/
theorem exec_nakResendTimeout (hup : linkUp s l = true) (h : (linkOf s l).nakOut = true) :
    exec (.nakResendTimeout l) s = .next (sendNak (s.modLink l fun k => { k with nakOut := false }) l) :=
  congrArg Host.Outcome.next (if_pos (by simp [hup, h]))

theorem exec_nakResendTimeout_none (h : (linkOf s l).nakOut = false) : exec (.nakResendTimeout l) s = .next s :=
  congrArg Host.Outcome.next (if_neg (by simp [h]))

end

/-! ### Replay (R437) -/

section
variable {s a : State} {l : LinkEnd} {fs : List SentFlit}

/-- R437: a flit is resent as it was sent, but for a TIME flit. -/
theorem replayFlit_of_type {x : SentFlit} (h : x.body.type ≠ 4) : replayFlit s l x = { x with replays := x.replays + 1 } := by
  simp [replayFlit, replayBody, h]

theorem replayFlit_congr {t : State} (h : t.tt = s.tt) (x : SentFlit) : replayFlit t l x = replayFlit s l x := by
  have hbody : replayBody t l x.body = replayBody s l x.body := by simp only [replayBody, stampCount, tickOf, h]
  unfold replayFlit
  rw [hbody]

theorem foldl_putImage_flitOut (l : LinkEnd) (fs : List SentFlit) (s : State) :
    (fs.foldl (fun s x => putImage s l x.image) s).flitOut = s.flitOut ++ fs.map fun x => (l, x.image) := by
  induction fs generalizing s with
  | nil => simp
  | cons x fs ih => rw [List.foldl_cons, ih, putImage_flitOut, List.map_cons, List.append_assoc, List.singleton_append]

theorem linkOf_foldl_putImage (l m : LinkEnd) (fs : List SentFlit) (s : State) :
    linkOf (fs.foldl (fun s x => putImage s l x.image) s) m = linkOf s m := by
  induction fs generalizing s with
  | nil => rfl
  | cons x fs ih => rw [List.foldl_cons, ih, linkOf_putImage]

/-- The replays of the flit that has been replayed most are below a limit where every flit's are. -/
theorem foldl_max_replays_lt (fs : List SentFlit) (m b : Nat) :
    fs.foldl (fun n x => max n x.replays) m < b ↔ m < b ∧ ∀ x ∈ fs, x.replays < b := by
  induction fs generalizing m with
  | nil => simp
  | cons x fs ih => rw [List.foldl_cons, ih, max_lt_iff, List.forall_mem_cons, and_assoc]

/-- What counts a replay after the flits have gone out again (R460). -/
def replayCounted (s : State) (l : LinkEnd) : State := countLink (resendAll s l) l 0x18 0x0910

/-- a is s with the flits fs left unacknowledged on a link (R435). -/
structure Unacknowledged (s a : State) (l : LinkEnd) (fs : List SentFlit) : Prop where
  self : linkOf a l = { linkOf s l with replay := fs }
  others : ∀ m, m ≠ l → linkOf a m = linkOf s m
  touch : Touch 0x18000 s a

theorem unacknowledged_self (s : State) (l : LinkEnd) : Unacknowledged s s l (linkOf s l).replay :=
  ⟨rfl, fun _ _ => rfl, .refl s⟩

theorem unacknowledged_ackLink (s : State) (l : LinkEnd) (ack : BitVec 12) :
    Unacknowledged s (ackLink s l ack) l ((linkOf s l).replay.filter fun x => seqAfter x.seq ack) :=
  ⟨linkOf_modLink_self .., fun _ h => linkOf_modLink_of_ne s _ h, ackLink_touch ..⟩

namespace Unacknowledged

variable (h : Unacknowledged s a l fs)
include h

theorem replay : (linkOf a l).replay = fs := by rw [h.self]

theorem dictVal (i k : Nat) : dictVal a i k = dictVal s i k := dictVal_congr (h.touch.eq .cst rfl) i k

theorem replayLink_nil (hfs : fs = []) : replayLink a l = a := by
  rw [replayLink, if_pos (by simp [h.replay, hfs])]

theorem map_replayFlit : (linkOf a l).replay.map (replayFlit a l) = fs.map (replayFlit s l) := by
  rw [h.replay]
  exact List.map_congr_left fun x _ => replayFlit_congr (h.touch.eq .tt rfl) x

theorem linkOf_replayCounted_self : linkOf (replayCounted a l) l = { linkOf s l with replay := fs.map (replayFlit s l) } := by
  rw [replayCounted, linkOf_congr ((countLink_touch ..).eq .ports rfl) ((countLink_touch ..).eq .cc rfl), resendAll,
    linkOf_foldl_putImage, linkOf_modLink_self, h.map_replayFlit, h.self]

theorem linkOf_replayCounted_of_ne {m : LinkEnd} (hm : m ≠ l) : linkOf (replayCounted a l) m = linkOf s m := by
  rw [replayCounted, linkOf_congr ((countLink_touch ..).eq .ports rfl) ((countLink_touch ..).eq .cc rfl), resendAll,
    linkOf_foldl_putImage, linkOf_modLink_of_ne _ _ hm, h.others m hm]

theorem replayCounted_flitOut :
    (replayCounted a l).flitOut = s.flitOut ++ fs.map fun x => (l, (replayFlit s l x).image) := by
  have hcount : (replayCounted a l).flitOut = (resendAll a l).flitOut := (countLink_touch ..).eq .flitOut rfl
  have hflits : a.flitOut = s.flitOut := h.touch.eq .flitOut rfl
  rw [hcount, resendAll, foldl_putImage_flitOut, State.modLink_flitOut, h.map_replayFlit, hflits, List.map_map]
  rfl

theorem replayCounted_touch : Touch 0x2801f8000 s (replayCounted a l) :=
  Touch.step (countLink_touch ..) rfl (Touch.step (resendAll_touch ..) rfl (h.touch.weaken rfl))

theorem dictVal_replayCounted (i k : Nat) : Machine.dictVal (replayCounted a l) i k = Machine.dictVal s i k :=
  dictVal_congr (h.replayCounted_touch.eq .cst rfl) i k

/-- R437: replay, and past the limit of one flit's replays a retrain, or the fall of the Concourse. -/
theorem replayLink_of_ne (hfs : fs ≠ []) : replayLink a l =
    match l with
    | .port w p => if Machine.dictVal s 0x4025 0 ≤ (fs.map (replayFlit s l)).foldl (fun n x => max n x.replays) 0 then
        retrainPort (replayCounted a l) w p else replayCounted a l
    | .concourse _ => if Machine.dictVal s 0x4025 0 < (fs.map (replayFlit s l)).foldl (fun n x => max n x.replays) 0 then
        concourseFalls (replayCounted a l) else replayCounted a l := by
  have hreplay : (linkOf (replayCounted a l) l).replay = fs.map (replayFlit s l) := by rw [h.linkOf_replayCounted_self]
  rw [replayLink, if_neg (by simp [h.replay, hfs])]
  rcases l with ⟨w, p⟩ | w
  · rw [← hreplay, ← h.dictVal_replayCounted]
    rfl
  · rw [← hreplay, ← h.dictVal_replayCounted]
    rfl

omit h in
theorem replays_map_lt {b : Nat} (hb : 0 < b) :
    (fs.map (replayFlit s l)).foldl (fun n x => max n x.replays) 0 < b ↔ ∀ x ∈ fs, x.replays + 1 < b := by
  rw [foldl_max_replays_lt, List.forall_mem_map]
  exact and_iff_right hb

theorem replayLink_below (hfs : fs ≠ []) (hlimit : ∀ x ∈ fs, x.replays + 1 < Machine.dictVal s 0x4025 0) :
    replayLink a l = replayCounted a l := by
  obtain ⟨x, hx⟩ := List.exists_mem_of_ne_nil fs hfs
  have hmost := (replays_map_lt (s := s) (l := l) (Nat.lt_of_le_of_lt (Nat.zero_le _) (hlimit x hx))).2 hlimit
  rw [h.replayLink_of_ne hfs]
  rcases l with ⟨w, p⟩ | w
  · exact if_neg (Nat.not_le.2 hmost)
  · exact if_neg (Nat.lt_asymm hmost)

theorem replayLink_retrains {w : Wing} {p : Fin 6} (hl : l = .port w p)
    (hlimit : ∃ x ∈ fs, Machine.dictVal s 0x4025 0 ≤ x.replays + 1) :
    replayLink a l = retrainPort (replayCounted a l) w p := by
  obtain ⟨x, hx, hle⟩ := hlimit
  subst hl
  rw [h.replayLink_of_ne (List.ne_nil_of_mem hx)]
  refine if_pos (Nat.not_lt.1 fun hlt => ?_)
  have := (replays_map_lt (Nat.zero_lt_of_lt hlt)).1 hlt x hx
  omega

theorem replayLink_falls {w : Wing} (hl : l = .concourse w) (hlimit : ∃ x ∈ fs, Machine.dictVal s 0x4025 0 < x.replays + 1) :
    replayLink a l = concourseFalls (replayCounted a l) := by
  obtain ⟨x, hx, hlt⟩ := hlimit
  subst hl
  rw [h.replayLink_of_ne (List.ne_nil_of_mem hx)]
  refine if_pos (Nat.not_le.1 fun hle => ?_)
  have := (replays_map_lt (Nat.succ_pos _)).1 (Nat.lt_succ_of_le hle) x hx
  omega

end Unacknowledged

end

end Sys2Proof.Machine
end
section
/-!
PROOF. Ports that retrain or go down, and the Concourse that falls (R441, R445, R449, R455): what each leaves of ports and Concourse.
-/

namespace Sys2Proof.Machine

/-! ### A port leaves Up (R402, R441) -/

theorem portOf_leavePort_self (s : State) (w : Wing) (p : Fin 6) (f : Port → Port) : portOf (leavePort s w p f) w p.val =
    { f (portOf s w p.val) with
      leftUp := if (portOf s w p.val).state = .up then (tickOf s w).toNat else (portOf s w p.val).leftUp } :=
  portOf_modPort_self ..

theorem portOf_leavePort_of_ne (s : State) {w v : Wing} {p : Fin 6} {q : Nat} (f : Port → Port)
    (h : portNum v q ≠ portNum w p.val) : portOf (leavePort s w p f) v q = portOf s v q :=
  (portOf_modPort s w v p.val q _).trans (if_neg h)

/-- The port that a retrain begins from (R441, R445). -/
def retraining (x : Port) : Port := { x with state := .training, kept := true, retry := false, fallback := false }

/-- R441: a retrain changes links alone once its port has left Up. -/
theorem linksAlone_retrainPort (s : State) (w : Wing) (p : Fin 6) :
    LinksAlone (leavePort s w p retraining) (retrainPort s w p) := by
  refine (sendsFlits_settleLinks _).toLinksAlone.after ((linksAlone_addCtr_lnk ..).after ?_)
  exact ((sendsFlits_dropCars ..).trans (sendsFlits_sendTrain ..)).toLinksAlone

theorem retrainPort_state (s : State) (w : Wing) (p : Fin 6) :
    (portOf (retrainPort s w p) w p.val).state = .training ∧ (portOf (retrainPort s w p) w p.val).kept = true := by
  have hport := (linksAlone_retrainPort s w p).port w p.val
  rw [portOf_leavePort_self] at hport
  exact ⟨Port.state_of_besides hport, Port.kept_of_besides hport⟩

/-- A port in Down or Disabled (R440). -/
def closed (dest : PortState) (x : Port) : Port :=
  { x with state := dest, gen := 0, fallback := false, lanes := 0, retired := 0, kept := false, retry := false, laneErrs := [] }

theorem linksAlone_portDown (s : State) (w : Wing) (p : Fin 6) (dest : PortState) :
    LinksAlone (leavePort (discardLink s (.port w p)) w p (closed dest)) (portDown s w p dest) := by
  refine (sendsFlits_settleLinks _).toLinksAlone.after ((linksAlone_raise ..).after ?_)
  exact linksAlone_addCtr_lnk ..

/-- R440: a port that goes down holds nothing of its training. -/
theorem portDown_port (s : State) (w : Wing) (p : Fin 6) (dest : PortState) :
    (portOf (portDown s w p dest) w p.val).state = dest ∧ (portOf (portDown s w p dest) w p.val).lanes = 0
      ∧ (portOf (portDown s w p dest) w p.val).kept = false := by
  have hport := (linksAlone_portDown s w p dest).port w p.val
  rw [portOf_leavePort_self] at hport
  exact ⟨Port.state_of_besides hport, Port.lanes_of_besides hport, Port.kept_of_besides hport⟩

/-! ### Car sets that fail -/

theorem linksAlone_stopSending (s : State) (w : Wing) (k : CarSetKey) : LinksAlone s (stopSending s w k) :=
  LinksAlone.foldl (fun _ _ => linksAlone_modLink ..) ..

theorem linksAlone_failCarSet (s : State) (w : Wing) (c : CarSet) (cause origin : Nat) (own : Bool) :
    LinksAlone s (failCarSet s w c cause origin own) := by
  have hcapture : ∀ t : State, LinksAlone t (captureCarFail t w c.key cause origin own) := fun t => by
    unfold captureCarFail
    split
    · exact .refl t
    · exact (sendsFlits_modTt ..).toLinksAlone
  unfold failCarSet
  split
  · exact .refl s
  · refine LinksAlone.after (.of_touch (stopBound_touch ..) rfl rfl rfl) ?_
    refine LinksAlone.after (.of_touch (logCause_touch ..) rfl rfl rfl) ((hcapture _).after ((linksAlone_raise ..).after ?_))
    exact (linksAlone_stopSending ..).after (sendsFlits_modCarSet ..).toLinksAlone

theorem linksAlone_failHere (s : State) (w : Wing) (c : CarSet) (cause : Nat) (notice : Bool) :
    LinksAlone s (failHere s w c cause notice) := by
  unfold failHere
  split
  · exact .refl s
  · dsimp only
    split
    · exact ((sendsFlits_modTt ..).trans (sendsFlits_pumpRing ..)).toLinksAlone.after (linksAlone_failCarSet ..)
    · exact (sendsFlits_pumpRing ..).toLinksAlone.after (linksAlone_failCarSet ..)

theorem linksAlone_cutCarSets (s : State) (w : Wing) : LinksAlone s (cutCarSets s w) :=
  LinksAlone.foldl (fun s c => linksAlone_failHere s w c 0x0306 true) ..

theorem linksAlone_cutTasks (s : State) : LinksAlone s (cutTasks s) := .of_touch (cutTasks_touch s) rfl rfl rfl

/-! ### Reasons of LIMITED (R510) -/

/-- The module with a reason of R510 noted. -/
def reasonNoted (s : State) (b : Nat) : State :=
  s.modCst fun c => { c with limitedReasons := c.limitedReasons ||| BitVec.ofNat 32 (2 ^ b) }

/-- The module with a reason of R510 struck out. -/
def reasonStruck (s : State) (b : Nat) : State :=
  s.modCst fun c => { c with limitedReasons := c.limitedReasons &&& ~~~ BitVec.ofNat 32 (2 ^ b) }

/-- Where the module is neither in SERVICE nor leaves LIMITED, its state stays. -/
theorem settleLimited_stays {s : State} (hservice : s.cst.state ≠ .service)
    (hlimited : s.cst.state = .limited → s.cst.limitedReasons ≠ 0) : settleLimited s = s := by
  rw [settleLimited, if_neg fun h => hservice h.1, if_neg fun h => hlimited h.1 h.2]

theorem or_ne_zero_of_right {n : Nat} {x y : BitVec n} (h : y ≠ 0) : x ||| y ≠ 0 := fun he => h (BitVec.or_eq_zero_iff.1 he).2

/-- Outside SERVICE a reason is noted and nothing else happens. -/
theorem setReason_eq {s : State} {b : Nat} (hb : BitVec.ofNat 32 (2 ^ b) ≠ 0) (hservice : s.cst.state ≠ .service) :
    setReason s b = reasonNoted s b := settleLimited_stays hservice fun _ => or_ne_zero_of_right hb

theorem clearReason_eq {s : State} (b : Nat) (hservice : s.cst.state ≠ .service) (hlimited : s.cst.state ≠ .limited) :
    clearReason s b = reasonStruck s b := settleLimited_stays hservice fun h => absurd h hlimited

/-- Entering a state leaves the Concourse, or main power is cut, and with it the Concourse is down (R509, R515). -/
theorem cc_enterState (s : State) (d : DevState) : (enterState s d).cc = s.cc ∨ (enterState s d).cc = {} := by
  unfold enterState
  dsimp only
  split
  · exact .inr rfl
  · refine .inl ?_
    split
    · exact raise_cc ..
    · rfl

theorem cc_setReason (s : State) (b : Nat) : (setReason s b).cc = s.cc ∨ (setReason s b).cc = {} := by
  unfold setReason settleLimited
  split
  · exact cc_enterState ..
  · split
    · exact cc_enterState ..
    · exact .inl rfl

/-! ### The Concourse falls (R455) -/

/-- The Concourse down, none of its bundles active or retired. -/
def concourseEmptied (s : State) : State :=
  leaveConcourse { s with cc := { s.cc with bundles := 0, retired := 0, bundleErrs := [] } } .down

/-- The Concourse down, both wings' counters moved and the event raised. -/
def concourseDropped (s : State) : State :=
  raise (addCtr (addCtr (concourseEmptied s) (blkLnk .east) 0x0920) (blkLnk .west) 0x0920) 0x0317 0 (blkLnk .east)

/-- R455: what follows the fall for tasks, car sets and links. -/
theorem concourseFalls_eq (s : State) : concourseFalls s =
    settleLinks (cutCarSets (cutCarSets (cutTasks (setReason (concourseDropped s) 2)) .east) .west) := rfl

theorem linksAlone_concourseFalls (s : State) : LinksAlone (setReason (concourseDropped s) 2) (concourseFalls s) :=
  (((linksAlone_cutTasks _).trans (linksAlone_cutCarSets ..)).trans (linksAlone_cutCarSets ..)).trans
    (sendsFlits_settleLinks _).toLinksAlone

theorem concourseDropped_cc (s : State) : (concourseDropped s).cc = (concourseEmptied s).cc := by
  have hwest := fun t : State => (addCtr_touch_lnk t .west 0x0920 1).eq .cc rfl
  have heast := fun t : State => (addCtr_touch_lnk t .east 0x0920 1).eq .cc rfl
  exact (raise_cc ..).trans ((hwest _).trans (heast _))

theorem concourseFalls_state (s : State) : (concourseFalls s).cc.state = .down := by
  rw [(linksAlone_concourseFalls s).ccState]
  rcases cc_setReason (concourseDropped s) 2 with h | h
  · rw [h, concourseDropped_cc]
    rfl
  · rw [h]

end Sys2Proof.Machine
end
section
/-!
PROOF. O38: flits received and replayed, from the lemmas on each.
-/

namespace Sys2Proof.Machine

/-- The parts that sending changes, and what waits. -/
theorem Touch.sendsAndHolds {s t : State} (h : Touch 0x6801fb000 s t) :
    OnlyChanges [.ports, .cc, .lnkCtrs, .tt, .carSets, .hifCtrs, .logs, .pages, .hostOut, .flitOut, .heldAt] s t :=
  h.onlyChanges_of_cells rfl fun p => by cases p <;> decide

/-- The parts that flits without a car body change. -/
theorem Touch.putsFlits {s t : State} (h : Touch 0x2801f8000 s t) :
    OnlyChanges [.ports, .cc, .lnkCtrs, .hifCtrs, .logs, .pages, .hostOut, .flitOut] s t :=
  h.onlyChanges_of_cells rfl fun p => by cases p <;> decide

/-- The parts of the link layers. -/
theorem Touch.linksOnly {s t : State} (h : Touch 0x18000 s t) : OnlyChanges [.ports, .cc] s t :=
  h.onlyChanges_of_cells rfl fun p => by cases p <;> decide

section
variable {s : State} {l : LinkEnd} {x : Flit} {n : Nat} {lane : Fin 9}

/-- R436: the next flit in sequence that brings neither NAK nor answer is delivered once, and SEQ x advances. -/
theorem flitReceive_delivers (hup : linkUp s l = true) (hcrc : crcGood x = true) (hperm : flitPermitted l x = true)
    (hsequenced : sequenced (fType x) = true) (hseq : fSeq x = (linkOf s l).expected) (hans : fAnswer x = 0)
    (hnak : fNak x = false) : ∃ u, exec (.flitReceive l x false ⟨lane, n⟩) s = .next u
      ∧ (linkOf u l).expected = (linkOf s l).expected + 1 ∧ (linkOf u l).nakOut = false
      ∧ (linkOf u l).delivered = (linkOf s l).delivered ++ [(fType x, fPayload x)]
      ∧ (∀ m, m ≠ l → (linkOf u m).expected = (linkOf s m).expected ∧ (linkOf u m).delivered = (linkOf s m).delivered)
      ∧ Touch 0x6801fb000 s u := by
  have hlink : ∀ m, linkOf { countCorrected s l n with heldAt := none } m = linkOf s m := fun m =>
    (linkOf_heldAt (s := countCorrected s l n) none).trans (linkOf_countCorrected s l m n)
  have hself := linkOf_deliverFlit_self { countCorrected s l n with heldAt := none } l x
  rw [hlink] at hself
  have hdelivered : Touch 0x6801fb000 s (deliverFlit { countCorrected s l n with heldAt := none } l x) :=
    Touch.step (deliverFlit_touch ..) rfl (Touch.step (touch_heldAt ..) rfl ((countCorrected_touch s l n).weaken rfl))
  have huse := useHeader_touch_plain (s := deliverFlit { countCorrected s l n with heldAt := none } l x) (l := l) hnak hans
  have hfree : (deliverFlit { countCorrected s l n with heldAt := none } l x).heldAt = none :=
    (deliverFlit_touch ..).eq .heldAt rfl
  have hsends := sendsFlits_useHeader (s := deliverFlit { countCorrected s l n with heldAt := none } l x) (l := l) hnak hans
  refine ⟨_, exec_flitReceive_good hup hcrc (acceptFlit_sequenced hperm hsequenced) ?_, ?_, ?_, ?_, fun m hm => ⟨?_, ?_⟩, ?_⟩
  · rw [if_pos (by rw [hlink, hseq])]
    exact (huse.eq .heldAt rfl).trans hfree
  all_goals rw [if_pos (by rw [hlink, hseq])]
  · exact (hsends.expected l).trans (congrArg Prod.fst hself :)
  · exact (hsends.nakOut l).trans (congrArg (fun y => y.2.1) hself :)
  · exact (hsends.delivered l).trans (congrArg (fun y => y.2.2) hself :)
  · rw [hsends.expected, linkOf_deliverFlit_of_ne _ _ hm, hlink]
  · rw [hsends.delivered, linkOf_deliverFlit_of_ne _ _ hm, hlink]
  · exact Touch.step huse rfl hdelivered

/-- R437: what a replay of the flits fs is. -/
theorem Unacknowledged.replays {a : State} {fs : List SentFlit} {i : Instr} (h : Unacknowledged s a l fs)
    (hexec : exec i s = .next (replayLink a l)) :
    (fs = [] → ∃ u, exec i s = .next u ∧ u.flitOut = s.flitOut ∧ (linkOf u l).replay = [] ∧ OnlyChanges [.ports, .cc] s u)
    ∧ (fs ≠ [] → (∀ x ∈ fs, x.replays + 1 < Machine.dictVal s 0x4025 0) → ∃ u : State, exec i s = .next u
      ∧ (linkOf u l).replay = fs.map (replayFlit s l)
      ∧ u.flitOut = s.flitOut ++ fs.map (fun x => (l, (replayFlit s l x).image))
      ∧ (linkOf u l).nextSeq = (linkOf s l).nextSeq ∧ (linkOf u l).expected = (linkOf s l).expected
      ∧ (∀ m, m ≠ l → linkOf u m = linkOf s m)
      ∧ OnlyChanges [.ports, .cc, .lnkCtrs, .hifCtrs, .logs, .pages, .hostOut, .flitOut] s u)
    ∧ (∀ w p, l = .port w p → (∃ x ∈ fs, Machine.dictVal s 0x4025 0 ≤ x.replays + 1) →
      ∃ u, exec i s = .next u ∧ (portOf u w p.val).state = .training ∧ (portOf u w p.val).kept = true)
    ∧ (∀ w, l = .concourse w → (∃ x ∈ fs, Machine.dictVal s 0x4025 0 < x.replays + 1) →
      ∃ u, exec i s = .next u ∧ u.cc.state = .down) := by
  refine ⟨fun hfs => ⟨a, ?_, h.touch.eq .flitOut rfl, h.replay.trans hfs, h.touch.linksOnly⟩, fun hfs hlimit => ?_,
    fun w p hl hlimit => ⟨_, hexec, ?_⟩, fun w hl hlimit => ⟨_, hexec, ?_⟩⟩
  · rw [hexec, h.replayLink_nil hfs]
  · refine ⟨replayCounted a l, by rw [hexec, h.replayLink_below hfs hlimit], ?_, h.replayCounted_flitOut, ?_, ?_,
      fun m hm => h.linkOf_replayCounted_of_ne hm, h.replayCounted_touch.putsFlits⟩
    all_goals rw [h.linkOf_replayCounted_self]
  · rw [h.replayLink_retrains hl hlimit]
    exact retrainPort_state ..
  · rw [h.replayLink_falls hl hlimit]
    exact concourseFalls_state ..

end

end Sys2Proof.Machine

namespace Sys2Proof

open Sys2Proof.Machine

/-- Settles O38: a flit that arrives by the cases of `acceptFlit`; a NAK and a late ACK both lead to one replay of the flits left
unacknowledged. -/
theorem flitsReceivedAndReplayed : Obligations.FlitsReceivedAndReplayed := by
  unfold Obligations.FlitsReceivedAndReplayed
  refine ⟨fun s l x lane n => ?_, fun s l ack hup => ⟨?_, fun x => replayFlit_of_type, fun hnak => ?_, exec_nakResendTimeout_none⟩⟩
  · have hlink : linkOf { countCorrected s l n with heldAt := none } l = linkOf s l :=
      (linkOf_heldAt (s := countCorrected s l n) none).trans (linkOf_countCorrected s l l n)
    refine ⟨fun w p hl => by subst hl; exact ctr_countCorrected s w p n, fun un => exec_flitReceive_closed,
      fun un hstate => ⟨fun htrain => ?_, fun htrain => ?_⟩, fun un hup hlost => ?_, fun hup hcrc => ⟨fun hperm => ?_,
        fun hperm hseq hfree => ?_, fun hperm hsequenced => ⟨fun hseq hans hnak => ?_, fun hseq hfree => ?_,
          fun hseq hafter => ?_, fun hseq hafter => ?_⟩⟩, sendNak_of_out, fun hnak => ⟨nakOut_sendNak s l, sendNak_flitOut hnak⟩⟩
    · rw [exec_flitReceive_training hstate, if_pos htrain]
    · rw [exec_flitReceive_training hstate, if_neg htrain]
    · rw [exec_flitReceive_up hup, if_pos (by simpa using hlost)]
    · exact exec_flitReceive_good hup hcrc (acceptFlit_refused hperm) (protocolError_heldAt ..)
    · refine exec_flitReceive_good hup hcrc (acceptFlit_unsequenced hperm hseq) ?_
      split
      · exact ((echoRequest_touch ..).eq .heldAt rfl).trans hfree
      · exact hfree
    · obtain ⟨u, hexec, hexpected, hnakOut, hdelivered, hothers, htouch⟩ :=
        flitReceive_delivers (n := n) (lane := lane) hup hcrc hperm hsequenced hseq hans hnak
      exact ⟨u, hexec, hexpected, hnakOut, hdelivered, hothers, htouch.sendsAndHolds⟩
    · refine exec_flitReceive_good hup hcrc ?_ hfree
      rw [acceptFlit_sequenced hperm hsequenced, if_pos (by rw [hlink, hseq])]
    · refine exec_flitReceive_good hup hcrc ?_ ((sendNak_touch ..).eq .heldAt rfl)
      rw [acceptFlit_sequenced hperm hsequenced, hlink, if_neg hseq, if_pos hafter]
    · refine exec_flitReceive_good hup hcrc ?_ rfl
      rw [acceptFlit_sequenced hperm hsequenced, hlink, if_neg hseq, if_neg (by simp [hafter])]
  · refine List.forall_mem_cons.2 ⟨(unacknowledged_ackLink s l ack).replays ?_, List.forall_mem_singleton.2
      ((unacknowledged_self s l).replays ?_)⟩
    · exact congrArg Host.Outcome.next (if_pos hup)
    · exact congrArg Host.Outcome.next (if_pos hup)
  · have hcleared : (linkOf (s.modLink l fun k => { k with nakOut := false }) l).nakOut = false := by rw [linkOf_modLink_self]
    obtain ⟨y, hflits, -, -⟩ := sendNak_flitOut hcleared
    rw [State.modLink_flitOut] at hflits
    exact ⟨_, y, exec_nakResendTimeout hup hnak, hflits, nakOut_sendNak .., Touch.putsFlits
      (Touch.step (sendNak_touch ..) rfl ((State_modLink_touch ..).weaken rfl))⟩

end Sys2Proof
end
section
/-!
PROOF. Ports that lose their signal, train and come up (R430, R440, R442, R443, R446, R447, R458).
-/

namespace Sys2Proof.Machine

/-- The parts that a change of a port's state touches. -/
theorem Touch.portChange {s t : State} (h : Touch 0x2801fb000 s t) :
    OnlyChanges [.ports, .cc, .tt, .carSets, .lnkCtrs, .hifCtrs, .logs, .pages, .hostOut, .flitOut] s t :=
  h.onlyChanges_of_cells rfl fun p => by cases p <;> decide

/-- A port that has all but its link layer from another is that one with its own link layer. -/
theorem Port.eq_with_link {x y : Port} (h : x.besides = y.besides) : { x with link := y.link } = y :=
  Port.eq_of_besides h y.link

theorem portOf_modPort_of_ne (s : State) {w v : Wing} {p q : Nat} (f : Port → Port) (h : portNum v q ≠ portNum w p) :
    portOf (s.modPort w p f) v q = portOf s v q := (portOf_modPort s w v p q f).trans (if_neg h)

section
variable {s : State} {w : Wing} {p : Fin 6}

/-! ### Signal lost (R446) -/

/-- The port that has gone Dark (R440). -/
def dark (x : Port) : Port := { x with state := .dark, signal := false, retry := false }

/-- R446: a port's cars are dropped as it goes Dark, and the event goes out. -/
def darkSettled (s : State) (w : Wing) (p : Fin 6) : State :=
  settleLinks (raisePort (dropCars s (.port w p) (cutCars (linkOf s (.port w p)))) w p.val 0x0313)

/-- R446: a port that goes Dark. -/
def goesDark (s : State) (w : Wing) (p : Fin 6) : State := darkSettled (putIdle (leavePort s w p dark) (.port w p)) w p

theorem sendsFlits_darkSettled (s : State) (w : Wing) (p : Fin 6) : SendsFlits s (darkSettled s w p) :=
  ((sendsFlits_dropCars ..).trans (sendsFlits_raise ..)).trans (sendsFlits_settleLinks _)

theorem linksAlone_goesDark (s : State) (w : Wing) (p : Fin 6) : LinksAlone (leavePort s w p dark) (goesDark s w p) :=
  ((sendsFlits_putPlain ..).trans (sendsFlits_darkSettled ..)).toLinksAlone

theorem exec_portSignalLoss_dark
    (h : (portOf s w p.val).state = .up ∨ ((portOf s w p.val).state = .training ∧ (portOf s w p.val).kept = true)) :
    exec (.portSignalLoss w p) s = .next (goesDark s w p) := by
  show execPortSignalLoss w p s = _
  rcases h with h | ⟨h, hkept⟩
  · simp only [execPortSignalLoss, h]
    rfl
  · simp only [execPortSignalLoss, h, hkept, if_true]
    rfl

theorem exec_portSignalLoss_attempt (h : (portOf s w p.val).state = .training) (hkept : (portOf s w p.val).kept = false) :
    exec (.portSignalLoss w p) s =
      .next (s.modPort w p.val fun x => { x with state := .down, signal := false, retry := false }) := by
  show execPortSignalLoss w p s = _
  simp [execPortSignalLoss, h, hkept]

/-- R446: the first flit that goes out of a Dark port is IDLE. -/
theorem goesDark_flitOut (s : State) (w : Wing) (p : Fin 6) :
    ∃ y rest, (goesDark s w p).flitOut = s.flitOut ++ (.port w p, y) :: rest ∧ fType y = 0 := by
  obtain ⟨y, hidle, htype⟩ := putIdle_flitOut (leavePort s w p dark) (.port w p)
  obtain ⟨rest, hrest⟩ := (sendsFlits_darkSettled (putIdle (leavePort s w p dark) (.port w p)) w p).flits
  refine ⟨y, rest, ?_, htype⟩
  rw [hidle, List.append_assoc] at hrest
  exact hrest.symm

/-! ### Signal back, and training that fails (R440, R442) -/

theorem exec_portSignalReturn_off (h : fabricOn s = false ∨ genAllow s w p.val = 0) :
    exec (.portSignalReturn w p) s = .next s :=
  congrArg Host.Outcome.next (if_pos (by simpa using h))

section
variable (hon : fabricOn s = true) (hallow : genAllow s w p.val ≠ 0)
include hon hallow

theorem exec_portSignalReturn_dark (h : (portOf s w p.val).state = .dark) : exec (.portSignalReturn w p) s =
    .next (addCtr (beginTraining (s.modPort w p.val fun x =>
      { x with state := .training, kept := true, signal := true, retry := false, fallback := false }) w p) (blkLnk w)
        (portCtr p.val 0x38)) := by
  show execPortSignalReturn w p s = _
  simp [execPortSignalReturn, hon, hallow, h]

theorem exec_portSignalReturn_fresh (h : (portOf s w p.val).state = .down ∨ (portOf s w p.val).state = .disabled) :
    exec (.portSignalReturn w p) s = .next (trainAfresh s w p) := by
  show execPortSignalReturn w p s = _
  rcases h with h | h <;> simp [execPortSignalReturn, hon, hallow, h]

end

section
variable (h : (portOf s w p.val).state = .training) (hretry : (portOf s w p.val).retry = false)
include h hretry

theorem exec_portTrainingFail (step : Fin 7) : exec (.portTrainingFail w p step) s =
    .next (if step.val = 3 ∧ genAllow s w p.val = 3 ∧ (portOf s w p.val).fallback = false then
      s.modPort w p.val fun x => { x with fallback := true }
    else s.modPort w p.val fun x => { x with retry := true, fallback := false }) := by
  show execPortTrainingFail w p step s = _
  simp [execPortTrainingFail, h, hretry]

end

theorem exec_portTrainingRetry_again (hsignal : (portOf s w p.val).signal = true) (hallow : genAllow s w p.val ≠ 0)
    (h : (portOf s w p.val).state = .training) (hretry : (portOf s w p.val).retry = true) :
    exec (.portTrainingRetry w p) s = .next (beginTraining (s.modPort w p.val fun x => { x with retry := false }) w p) := by
  show execPortTrainingRetry w p s = _
  simp [execPortTrainingRetry, hsignal, hallow, h, hretry]

theorem exec_portTrainingRetry_down (hsignal : (portOf s w p.val).signal = true) (hallow : genAllow s w p.val ≠ 0)
    (h : (portOf s w p.val).state = .down) (hon : fabricOn s = true) :
    exec (.portTrainingRetry w p) s = .next (trainAfresh s w p) := by
  show execPortTrainingRetry w p s = _
  simp [execPortTrainingRetry, hsignal, hallow, h, hon]

/-! ### A port comes Up (R442, R446) -/

/-- R442: a port as it comes Up with what was agreed. -/
def agreed (r : BitVec 256) (lanes : BitVec 8) (gen : Nat) (fallback : Bool) (lat : Word32) (x : Port) : Port :=
  { x with state := .up, gen := gen, fallback := fallback, lanes := lanes, retired := 0, kept := false, retry := false
           peer := peerImage r, peerKnown := true, lat := lat, laneErrs := [] }

theorem agreed_besides {r : BitVec 256} {lanes : BitVec 8} {gen : Nat} {fallback : Bool} {lat : Word32} {x y : Port}
    (h : x.besides = y.besides) :
    (agreed r lanes gen fallback lat x).besides = (agreed r lanes gen fallback lat y).besides :=
  congrArg (fun z : Port => agreed r lanes gen fallback lat z) h

section
variable (s) (w) (p) (r : BitVec 256) (lanes : BitVec 8) (gen : Nat) (fallback : Bool) (lat : Word32)

/-- R446: the same partner again goes on with the link's state, another one afresh. -/
def relinked (t : State) (w : Wing) (p : Fin 6) (r : BitVec 256) (old : Port) : State :=
  if old.kept && old.peer == peerImage r then resumeLink t (.port w p) (if trKept r then some (trLastSeq r) else none)
  else restartLink t (.port w p)

theorem portUp_eq : portUp s w p r lanes gen fallback lat =
    settleLinks (raisePort
      (if (portOf s w p.val).kept && !((portOf s w p.val).peer == peerImage r) then
        raisePort (relinked (s.modPort w p.val (agreed r lanes gen fallback lat)) w p r (portOf s w p.val)) w p.val 0x0314
      else relinked (s.modPort w p.val (agreed r lanes gen fallback lat)) w p r (portOf s w p.val)) w p.val 0x0310) := rfl

theorem sendsFlits_portUp :
    SendsFlits (relinked (s.modPort w p.val (agreed r lanes gen fallback lat)) w p r (portOf s w p.val))
      (portUp s w p r lanes gen fallback lat) := by
  rw [portUp_eq]
  refine (sendsFlits_settleLinks _).after ((sendsFlits_raise ..).after (SendsFlits.ite (sendsFlits_raise ..) ?_))
  exact .refl _

theorem linksAlone_relinked (t : State) (old : Port) : LinksAlone t (relinked t w p r old) := by
  unfold relinked
  split
  · exact linksAlone_resumeLink ..
  · exact linksAlone_restartLink ..

/-- R446: both ends of a link that comes Up start at SEQ 0, and what was delivered stays so. -/
theorem relinked_received (t : State) (old : Port) : (linkOf (relinked t w p r old) (.port w p)).expected = 0
    ∧ (linkOf (relinked t w p r old) (.port w p)).delivered = (linkOf t (.port w p)).delivered := by
  unfold relinked
  split
  · have hresumed := sendsFlits_resumeLink t (.port w p) (if trKept r then some (trLastSeq r) else none)
    rw [hresumed.expected, hresumed.delivered, linkOf_modLink_self]
    exact ⟨rfl, rfl⟩
  · rw [restartLink, linkOf_modLink_self, discardLink, linkOf_modLink_self]
    exact ⟨rfl, (sendsFlits_dropCars ..).delivered _⟩

theorem linksAlone_portUp :
    LinksAlone (s.modPort w p.val (agreed r lanes gen fallback lat)) (portUp s w p r lanes gen fallback lat) :=
  (sendsFlits_portUp ..).toLinksAlone.after (linksAlone_relinked ..)

theorem portUp_received : (linkOf (portUp s w p r lanes gen fallback lat) (.port w p)).expected = 0
    ∧ (linkOf (portUp s w p r lanes gen fallback lat) (.port w p)).delivered = (portOf s w p.val).link.delivered := by
  have hsends := sendsFlits_portUp s w p r lanes gen fallback lat
  obtain ⟨hexpected, hdelivered⟩ :=
    relinked_received w p r (s.modPort w p.val (agreed r lanes gen fallback lat)) (portOf s w p.val)
  rw [hsends.expected, hsends.delivered]
  refine ⟨hexpected, hdelivered.trans ?_⟩
  exact congrArg (fun x => x.link.delivered) (portOf_modPort_self s w p.val (agreed r lanes gen fallback lat))

end

theorem sendsFlits_sendRequests (s : State) (w : Wing) (p : Fin 6) (lanes : BitVec 8) (es : List Echo) :
    SendsFlits s (sendRequests s w p lanes es) := SendsFlits.foldl (fun _ _ => sendsFlits_sendTrain ..) ..

/-- What a port has told its partner once its lanes have trained (R442). -/
def recordSent (s : State) (w : Wing) (p : Fin 6) (lanes : BitVec 8) : State :=
  sendTrain s (.port w p) (trainRecord s w p lanes 4 0 0 false)

/-- R442: the outcomes of a training whose attempt is under way. -/
theorem exec_portTrainingDone (r : BitVec 256) (lanes : BitVec 8) (fb : Bool) (es : List Echo)
    (h : (portOf s w p.val).state = .training) (hsignal : (portOf s w p.val).signal = true)
    (hretry : (portOf s w p.val).retry = false) : exec (.portTrainingDone w p r lanes fb es) s =
    .next (let told := recordSent s w p lanes
      let both := lanes &&& trLanes r
      let gen := agreedGen (genAllow s w p.val) (trAllow r) (fb || (portOf s w p.val).fallback)
      let failed := told.modPort w p.val fun x => { x with retry := true, fallback := false }
      if dictVal s 0x4020 0 = 0xFFFF ∨ trNode r = 0xFFFF then told
      else if trNode r = dictVal s 0x4020 0 then raisePort told w p.val 0x0315
      else if gen = 0 then failed
      else if popcount 8 both.toNat < 4 then (if (portOf s w p.val).kept then portDown told w p .down else failed)
      else portUp (sendRequests told w p both es) w p r both gen (gen == 1 && (fb || (portOf s w p.val).fallback))
        (oneWay es)) := by
  refine congrArg Host.Outcome.next (if_neg ?_)
  simp [h, hsignal, hretry]


end

end Sys2Proof.Machine
end
section
/-!
PROOF. Lanes retired and widened again, retrains and the dark limit (R441, R444, R445, R447, R457); and O39 from the lemmas on
each change of a port.
-/

namespace Sys2Proof.Machine

/-! ### One bit of a mask -/

theorem ofNat_two_pow (n i : Nat) : BitVec.ofNat n (2 ^ i) = BitVec.twoPow n i :=
  BitVec.eq_of_toNat_eq (by rw [BitVec.toNat_ofNat, BitVec.toNat_twoPow])

/-- R445: a retired lane that joins again leaves the lanes that a port has in all. -/
theorem or_join_lane {a b : BitVec 8} {lane : Nat} (hlane : lane < 8) (h : b &&& BitVec.ofNat 8 (2 ^ lane) ≠ 0) :
    (a ||| BitVec.ofNat 8 (2 ^ lane)) ||| (b &&& ~~~BitVec.ofNat 8 (2 ^ lane)) = a ||| b := by
  rw [ofNat_two_pow] at h ⊢
  have hbit : b.getLsbD lane = true := by
    rw [BitVec.and_twoPow] at h
    by_contra hb
    rw [if_neg hb] at h
    exact h rfl
  refine BitVec.eq_of_getLsbD_eq fun i hi => ?_
  simp only [BitVec.getLsbD_or, BitVec.getLsbD_and, BitVec.getLsbD_not, BitVec.getLsbD_twoPow]
  by_cases hil : lane = i
  · simp [← hil, hbit, hlane]
  · simp [hil, hi]

theorem and_or_lanes (a b : BitVec 8) : a &&& (a ||| b) = a := by
  refine BitVec.eq_of_getLsbD_eq fun i _ => ?_
  rw [BitVec.getLsbD_and, BitVec.getLsbD_or]
  cases a.getLsbD i <;> rfl

/-- The parts that a change of a port and its flits touch. -/
theorem Touch.portFlits {s t : State} (h : Touch 0x2801e8000 s t) :
    OnlyChanges [.ports, .lnkCtrs, .hifCtrs, .logs, .pages, .hostOut, .flitOut] s t :=
  h.onlyChanges_of_cells rfl fun p => by cases p <;> decide

/-- The same with free choices drawn. -/
theorem Touch.portFlitsFree {s t : State} (h : Touch 0xa801e8000 s t) :
    OnlyChanges [.ports, .lnkCtrs, .hifCtrs, .logs, .pages, .hostOut, .flitOut, .freeCtr] s t :=
  h.onlyChanges_of_cells rfl fun p => by cases p <;> decide

section
variable {s : State} {w : Wing} {p : Fin 6}

/-! ### A lane is retired (R444) -/

/-- The port without a lane (R444). -/
def narrowed (m : BitVec 8) (lane : Nat) (x : Port) : Port :=
  { x with lanes := x.lanes &&& ~~~m, retired := x.retired ||| m, laneErrs := Table.erase x.laneErrs lane }

/-- R444: a port that has narrowed, told its partner, and counted and reported it. -/
def laneGone (s : State) (w : Wing) (p : Fin 6) (lane : Nat) : State :=
  raisePort (addCtr (recordSent (s.modPort w p.val (narrowed (BitVec.ofNat 8 (2 ^ lane)) lane)) w p
    (portOf (s.modPort w p.val (narrowed (BitVec.ofNat 8 (2 ^ lane)) lane)) w p.val).lanes) (blkLnk w) (portCtr p.val 0x30))
    w p.val 0x0312

section
variable (s) (w) (p) (lane : Nat)

theorem linksAlone_laneGone :
    LinksAlone (s.modPort w p.val (narrowed (BitVec.ofNat 8 (2 ^ lane)) lane)) (laneGone s w p lane) :=
  (linksAlone_raise ..).after ((linksAlone_addCtr_lnk ..).after (sendsFlits_sendTrain ..).toLinksAlone)

theorem laneGone_port :
    (portOf (laneGone s w p lane) w p.val).besides = (narrowed (BitVec.ofNat 8 (2 ^ lane)) lane (portOf s w p.val)).besides := by
  rw [(linksAlone_laneGone s w p lane).port, portOf_modPort_self]

theorem laneGone_ports : (laneGone s w p lane).ports =
    (recordSent (s.modPort w p.val (narrowed (BitVec.ofNat 8 (2 ^ lane)) lane)) w p
      (portOf (s.modPort w p.val (narrowed (BitVec.ofNat 8 (2 ^ lane)) lane)) w p.val).lanes).ports :=
  (raise_ports ..).trans ((addCtr_touch_lnk ..).eq .ports rfl)

theorem portOf_laneGone_of_ne {v : Wing} {q : Nat} (h : portNum v q ≠ portNum w p.val) :
    portOf (laneGone s w p lane) v q = portOf s v q := by
  rw [portOf_congr (laneGone_ports s w p lane), recordSent, portOf_sendTrain_of_ne _ _ h, portOf_modPort_of_ne _ _ h]

theorem laneGone_flitOut : ∃ y, (laneGone s w p lane).flitOut = s.flitOut ++ [(.port w p, y)] ∧ fType y = 1 := by
  have hcount := fun t : State => (addCtr_touch_lnk t w (portCtr p.val 0x30) 1).eq .flitOut rfl
  obtain ⟨y, hsent, htype⟩ := sendTrain_flitOut (s.modPort w p.val (narrowed (BitVec.ofNat 8 (2 ^ lane)) lane)) (.port w p)
    (trainRecord (s.modPort w p.val (narrowed (BitVec.ofNat 8 (2 ^ lane)) lane)) w p
      (portOf (s.modPort w p.val (narrowed (BitVec.ofNat 8 (2 ^ lane)) lane)) w p.val).lanes 4 0 0 false)
  exact ⟨y, (raise_flitOut ..).trans ((hcount _).trans hsent), htype⟩

theorem ctr_laneGone : (ctr (laneGone s w p lane) (blkLnk w) (portCtr p.val 0x30)).toNat =
    min (2 ^ 64 - 1) ((ctr s (blkLnk w) (portCtr p.val 0x30)).toNat + 1) := by
  have hoff : countsFlits (portCtr p.val 0x30) = false :=
    (by decide : ∀ p : Fin 6, countsFlits (portCtr p.val 0x30) = false) p
  rw [laneGone, raisePort, (raise_touch ..).ctr_lnk rfl, ctr_addCtr_lnk_self _ _ _ Nat.one_ne_zero, recordSent,
    (sendsFlits_sendTrain ..).counters _ _ hoff]
  rfl

theorem laneGone_touch : Touch 0x2801e8000 s (laneGone s w p lane) :=
  Touch.step (raise_touch ..) rfl (Touch.step (addCtr_touch_lnk ..) rfl (Touch.step (sendTrain_port_touch ..) rfl
    ((State_modPort_touch ..).weaken rfl)))

theorem exec_laneRetire_none (lane : Fin 8)
    (h : (portOf s w p.val).state ≠ .up ∨ (portOf s w p.val).lanes &&& BitVec.ofNat 8 (2 ^ lane.val) = 0) :
    exec (.laneRetire w p lane) s = .next s := congrArg Host.Outcome.next (if_pos h)

theorem exec_laneRetire (lane : Fin 8) (hup : (portOf s w p.val).state = .up)
    (hlane : (portOf s w p.val).lanes &&& BitVec.ofNat 8 (2 ^ lane.val) ≠ 0) : exec (.laneRetire w p lane) s =
      .next (if popcount 8 ((portOf s w p.val).lanes &&& ~~~BitVec.ofNat 8 (2 ^ lane.val)).toNat < 4 then
        portDown (laneGone s w p lane.val) w p .down else laneGone s w p lane.val) := by
  have hlanes : (portOf (laneGone s w p lane.val) w p.val).lanes =
      (portOf s w p.val).lanes &&& ~~~BitVec.ofNat 8 (2 ^ lane.val) := Port.lanes_of_besides (laneGone_port s w p lane.val)
  rw [← hlanes]
  exact congrArg Host.Outcome.next (if_neg (not_or.2 ⟨not_not.2 hup, hlane⟩))

end

/-! ### WIDEN (R445) -/

/-- A port but for its link layer and its lanes. -/
def Port.besidesLanes (x : Port) : Port := { x.besides with lanes := 0, retired := 0 }

theorem Port.besidesLanes_of_besides {x y : Port} (h : x.besides = y.besides) : x.besidesLanes = y.besidesLanes :=
  congrArg (fun z : Port => { z with lanes := 0, retired := 0 }) h

/-- A free choice drawn (R138). -/
def choiceDrawn (s : State) : State := { s with freeCtr := s.freeCtr + 1 }

theorem choiceDrawn_touch (s : State) : Touch 0xa801e8000 s (choiceDrawn s) := (touch_freeCtr s).weaken rfl

/-- A port that has all but its link layer and its lanes from another is that one with its own. -/
theorem Port.eq_with_lanes {x y : Port} (h : x.besidesLanes = y.besidesLanes) :
    { x with link := y.link, lanes := y.lanes, retired := y.retired } = y :=
  congrArg (fun z : Port => { z with link := y.link, lanes := y.lanes, retired := y.retired }) h

/-- R445: u is s with retired lanes of one port in service again; which of them is free. -/
structure Widened (w : Wing) (p : Fin 6) (s u : State) : Prop where
  port : (portOf u w p.val).besidesLanes = (portOf s w p.val).besidesLanes
  all : (portOf u w p.val).lanes ||| (portOf u w p.val).retired = (portOf s w p.val).lanes ||| (portOf s w p.val).retired
  grows : (portOf s w p.val).lanes &&& (portOf u w p.val).lanes = (portOf s w p.val).lanes
  none : (portOf s w p.val).retired = 0 → u = s
  touch : Touch 0xa801e8000 s u

theorem Widened.refl (w : Wing) (p : Fin 6) (s : State) : Widened w p s s :=
  ⟨rfl, rfl, BitVec.and_self, fun _ => rfl, .refl s⟩

theorem Widened.trans {t u : State} (h : Widened w p s t) (h' : Widened w p t u) : Widened w p s u := by
  refine ⟨h'.port.trans h.port, h'.all.trans h.all, ?_, fun hnone => ?_, Touch.step h'.touch rfl h.touch⟩
  · rw [← h.grows, BitVec.and_assoc, h'.grows]
  · have hst := h.none hnone
    rw [h'.none (by rw [hst, hnone]), hst]

theorem Widened.foldl {f : State → Nat → State} {ls : List Nat} (hf : ∀ s, ∀ x ∈ ls, Widened w p s (f s x)) (s : State) :
    Widened w p s (ls.foldl f s) := by
  induction ls generalizing s with
  | nil => exact .refl w p s
  | cons x ls ih =>
    exact (hf s x List.mem_cons_self).trans (ih (fun s y hy => hf s y (List.mem_cons_of_mem x hy)) _)

/-- A retired lane that has come through joins its port (R445). -/
def joined (m : BitVec 8) (x : Port) : Port := { x with lanes := x.lanes ||| m, retired := x.retired &&& ~~~m }

theorem widened_joined (s : State) {lane : Nat} (hlane : lane < 8)
    (h : (portOf s w p.val).retired &&& BitVec.ofNat 8 (2 ^ lane) ≠ 0) (r : BitVec 256) :
    Widened w p s (sendTrain ((choiceDrawn s).modPort w p.val
      (joined (BitVec.ofNat 8 (2 ^ lane)))) (.port w p) r) := by
  have hport := (sendsFlits_sendTrain ((choiceDrawn s).modPort w p.val
    (joined (BitVec.ofNat 8 (2 ^ lane)))) (.port w p) r).toLinksAlone.port w p.val
  rw [portOf_modPort_self] at hport
  have hlanes := Port.lanes_of_besides hport
  have hretired := Port.retired_of_besides hport
  refine ⟨(Port.besidesLanes_of_besides hport).trans rfl, ?_, ?_, fun hnone => ?_, ?_⟩
  · rw [hlanes, hretired]
    exact or_join_lane hlane h
  · rw [hlanes]
    exact and_or_lanes _ _
  · rw [hnone] at h
    exact absurd BitVec.zero_and h
  · exact Touch.step (sendTrain_port_touch ..) rfl (Touch.step (State_modPort_touch ..) rfl (choiceDrawn_touch s))

theorem widened_widenLane (s : State) {lane : Nat} (hlane : lane < 8) : Widened w p s (widenLane w p s lane) := by
  unfold widenLane
  dsimp only
  split
  · exact .refl w p s
  · rename_i hretired
    split
    · exact widened_joined s hlane hretired _
    · exact ⟨rfl, rfl, BitVec.and_self, fun hnone => absurd (by rw [hnone]; exact BitVec.zero_and) hretired,
        choiceDrawn_touch s⟩

theorem widened_widenPort (s : State) (w : Wing) (p : Fin 6) : Widened w p s (widenPort s w p) := by
  unfold widenPort
  split
  · exact Widened.foldl (fun s x hx => widened_widenLane s (List.mem_range.1 hx)) s
  · exact .refl w p s

/-! ### Register writes (R455) -/

theorem hostWriteAt_of_up {f : State → State} (hreach : hostReaches s .pf0 = true) (h : w = .east ∨ concourseUp s = true) :
    hostWriteAt s w f = f s := by
  rw [hostWriteAt, if_neg (by simp [hreach]), if_neg]
  rintro ⟨rfl, hdown⟩
  rcases h with h | h
  · cases h
  · simp [h] at hdown

theorem hostWriteAt_lost {f : State → State} (hreach : hostReaches s .pf0 = true) (hw : w = .west)
    (h : concourseUp s = false) : hostWriteAt s w f = addCtr s (blkLnk .east) 0x0928 := by
  rw [hostWriteAt, if_neg (by simp [hreach]), if_pos ⟨hw, by simp [h]⟩]

end

end Sys2Proof.Machine

namespace Sys2Proof

open Sys2Proof.Machine

/-- Settles O39: each command's outcome by cases; what follows a change of a port only sends flits, so that the port is what the
change made of it but for its link layer. -/
theorem portsTrain : Obligations.PortsTrain := by
  unfold Obligations.PortsTrain
  refine ⟨fun s w p => ⟨fun h => ?_, exec_portSignalLoss_attempt, fun hon hallow => ⟨exec_portSignalReturn_dark hon hallow,
      exec_portSignalReturn_fresh hon hallow⟩, exec_portSignalReturn_off, fun step h hretry => ⟨fun hback => ?_, fun hback => ?_⟩,
      fun hsignal hallow => ⟨exec_portTrainingRetry_again hsignal hallow, exec_portTrainingRetry_down hsignal hallow⟩⟩,
    fun s w p r lanes fb es => ?_, fun s w p => ⟨fun lane => ⟨exec_laneRetire_none s w p lane, fun hup hlane hleft => ?_,
      fun hup hlane hleft => ?_⟩, fun hreach hw hup => ⟨?_, ?_⟩, fun hreach hw hdown => ⟨?_, ?_⟩, fun hopen hdark => ⟨?_, ?_⟩,
      fun h => ?_⟩⟩
  · obtain ⟨y, rest, hflits, htype⟩ := goesDark_flitOut s w p
    have hport := (linksAlone_goesDark s w p).port
    refine ⟨_, y, rest, exec_portSignalLoss_dark h, ?_, hflits, htype, fun v q hq => ?_, ?_⟩
    · have hself := hport w p.val
      rw [portOf_leavePort_self] at hself
      exact Port.eq_with_link hself
    · exact (hport v q).trans (congrArg Port.besides (portOf_leavePort_of_ne s dark hq))
    · exact (execPortSignalLoss_touch w p s _ (exec_portSignalLoss_dark h)).portChange
  · rw [exec_portTrainingFail h hretry, if_pos hback]
  · rw [exec_portTrainingFail h hretry, if_neg hback]
  · intro x both gen told h hsignal hretry
    have hdone := exec_portTrainingDone r lanes fb es h hsignal hretry
    refine ⟨fun hnode => by rw [hdone, if_pos hnode]; rfl, fun hown hpeer => ⟨fun hsame => ?_, fun hother => ⟨fun hfail => ?_,
      fun hgen hfew hkept => ?_, fun hgen hmany => ?_⟩⟩⟩
    all_goals rw [if_neg (not_or.2 ⟨hown, hpeer⟩)] at hdone
    · rw [hdone, if_pos hsame]
      rfl
    · rw [if_neg hother] at hdone
      by_cases hgen : gen = 0
      · rw [hdone, if_pos hgen]
        rfl
      · obtain ⟨hfew, hkept⟩ := hfail.resolve_left hgen
        rw [hdone, if_neg hgen, if_pos hfew, if_neg (ne_true_of_eq_false hkept)]
        rfl
    · rw [hdone, if_neg hother, if_neg hgen, if_pos hfew, if_pos hkept]
      rfl
    · rw [if_neg hother, if_neg hgen, if_neg (Nat.not_lt.2 hmany)] at hdone
      have hsent := (sendsFlits_sendTrain s (.port w p) (trainRecord s w p lanes 4 0 0 false)).trans
        (sendsFlits_sendRequests _ w p both es)
      have hport := (linksAlone_portUp (sendRequests told w p both es) w p r both gen (gen == 1 && (fb || x.fallback))
        (oneWay es)).port
      have hreceived := portUp_received (sendRequests told w p both es) w p r both gen (gen == 1 && (fb || x.fallback)) (oneWay es)
      refine ⟨_, hdone, ?_, hreceived.1, hreceived.2.trans (hsent.delivered (.port w p)), fun v q hq => ?_,
        (execPortTrainingDone_touch w p r lanes fb es s _ hdone).portChange⟩
      · have hself := hport w p.val
        rw [portOf_modPort_self] at hself
        exact Port.eq_with_link (hself.trans (agreed_besides (hsent.port w p.val)))
      · exact (hport v q).trans ((congrArg Port.besides (portOf_modPort_of_ne _ _ hq)).trans (hsent.port v q))
  · have hexec := exec_laneRetire s w p lane hup hlane
    rw [if_neg (Nat.not_lt.2 hleft)] at hexec
    exact ⟨_, hexec, Port.eq_with_link (laneGone_port s w p lane.val), ctr_laneGone s w p lane.val,
      laneGone_flitOut s w p lane.val, fun v q => portOf_laneGone_of_ne s w p lane.val, (laneGone_touch s w p lane.val).portFlits⟩
  · have hexec := exec_laneRetire s w p lane hup hlane
    rw [if_pos hleft] at hexec
    exact ⟨_, hexec, portDown_port ..⟩
  · have hwidened := widened_widenPort s w p
    refine ⟨_, congrArg Host.Outcome.next (hostWriteAt_of_up hreach hw), ?_, hwidened.all, hwidened.grows, hwidened.none,
      hwidened.touch.portFlitsFree⟩
    exact Port.eq_with_lanes hwidened.port
  · refine ⟨_, congrArg Host.Outcome.next (hostWriteAt_of_up hreach hw), ?_⟩
    rw [retrainNow, if_pos hup]
    exact retrainPort_state ..
  · exact congrArg Host.Outcome.next (hostWriteAt_lost hreach hw hdown)
  · exact congrArg Host.Outcome.next (hostWriteAt_lost hreach hw hdown)
  · exact congrArg Host.Outcome.next (if_pos (by simp [hopen, hdark]))
  · exact (portDown_port ..).1
  · exact congrArg Host.Outcome.next (if_neg (by simpa [or_iff_not_imp_left] using h))

end Sys2Proof
end
section
/-!
PROOF. Car sets and tasks that the fall of the Concourse ends (R455).
-/

namespace Sys2Proof.Machine

/-! ### One car set -/

/-- A car set that is armed or running. -/
def CarSet.live (c : CarSet) : Prop := c.phase = .armed ∨ c.phase = .running

section
variable {s : State} {w : Wing} {c : CarSet}

theorem failHere_of_not_live {cause : Nat} {notice : Bool} (h : ¬ c.live) : failHere s w c cause notice = s := by
  refine if_pos ?_
  rw [CarSet.live, not_or] at h
  simp [CarSet.running, h.1, h.2]

/-- The state after a live car set failed at its stop, before the notice. -/
def failedHere (s : State) (w : Wing) (c : CarSet) (cause : Nat) : State :=
  stopBound (failReported s w c cause (stopNum s w) true) w c.key cause

theorem failHere_of_live {cause : Nat} (h : c.live) : failHere s w c cause true =
    queueNotice (failedHere s w c cause) w c.key (makeNotice (failedHere s w c cause) w c cause) := by
  have hguard : (!(c.phase == .armed || c.running)) = false := by
    rcases h with h | h <;> simp [CarSet.running, h]
  simp only [failHere, failCarSet, hguard, Bool.false_eq_true, if_false, if_true]
  rfl

theorem failedHere_touch (s : State) (w : Wing) (c : CarSet) (cause : Nat) :
    Touch 0x801d9100 (s.modCarSet w c.key fun x => { x with phase := .failed (BitVec.ofNat 16 cause) }) (failedHere s w c cause) :=
  Touch.step (stopBound_touch ..) rfl (failReported_touch.weaken rfl)

end

/-! ### The car sets of a wing -/

/-- From s to t the car sets of a wing that p names failed with cause 0x0306, and the others kept their phase. -/
structure Fails (w : Wing) (p : CarSetKey → Prop) (s t : State) : Prop where
  sets : ∀ k c, carSetOf s w k = some c → ∃ d, carSetOf t w k = some d ∧ d.desc = c.desc
    ∧ (p k → d.phase = .failed 0x0306) ∧ (¬ p k → d.phase = c.phase)

/-- None of the car sets of a wing fails. -/
def NoFailure : CarSetKey → Prop := fun _ => False

theorem Fails.trans {w : Wing} {p q : CarSetKey → Prop} {s t u : State} (h : Fails w p s t) (h' : Fails w q t u) :
    Fails w (fun k => p k ∨ q k) s u := by
  refine ⟨fun k c hc => ?_⟩
  obtain ⟨d, hd, hdesc, hfails, hstays⟩ := h.sets k c hc
  obtain ⟨e, he, hdesc', hfails', hstays'⟩ := h'.sets k d hd
  refine ⟨e, he, hdesc'.trans hdesc, fun hp => ?_, fun hp => ?_⟩
  · by_cases hq : q k
    · exact hfails' hq
    · exact (hstays' hq).trans (hfails (hp.resolve_right hq))
  · rw [not_or] at hp
    exact (hstays' hp.2).trans (hstays hp.1)

theorem Fails.congr {w : Wing} {p q : CarSetKey → Prop} {s t : State} (h : Fails w p s t) (hpq : ∀ k, p k ↔ q k) :
    Fails w q s t := funext (fun k => propext (hpq k)) ▸ h

theorem Fails.then_none {w : Wing} {p : CarSetKey → Prop} {s t u : State} (h : Fails w p s t) (h' : Fails w NoFailure t u) :
    Fails w p s u := (h.trans h').congr fun _ => iff_of_eq (or_false _)

theorem Fails.after_none {w : Wing} {p : CarSetKey → Prop} {s t u : State} (h' : Fails w p t u) (h : Fails w NoFailure s t) :
    Fails w p s u := (h.trans h').congr fun _ => iff_of_eq (false_or _)

theorem fails_none_of_eq {w : Wing} {s t : State} (h : t.carSets.get w = s.carSets.get w) : Fails w NoFailure s t :=
  ⟨fun k c hc => ⟨c, by rw [carSetOf, h]; exact hc, rfl, False.elim, fun _ => rfl⟩⟩

theorem fails_none_of_touch {m : Nat} {s t : State} (h : Touch m s t) (hm : m.testBit StatePart.carSets.idx = false) (w : Wing) :
    Fails w NoFailure s t := fails_none_of_eq (congrArg (PerWing.get · w) (h.eq .carSets hm))

theorem eq_or_eq_otherWing (v w : Wing) : v = w ∨ v = otherWing w := by cases v <;> cases w <;> simp [otherWing]

theorem fails_none_pumpRing (s : State) (v w : Wing) : Fails w NoFailure s (pumpRing s v) := by
  have hsend := pumpRing_sendFrame v s
  rcases eq_or_eq_otherWing w v with rfl | rfl
  · refine ⟨fun k c hc => ?_⟩
    obtain ⟨d, hd, hsends⟩ := hsend.sets k c hc
    exact ⟨d, hd, hsends.desc, False.elim, fun _ => hsends.phase⟩
  · exact fails_none_of_eq hsend.other

theorem fails_none_settleLinks (s : State) (w : Wing) : Fails w NoFailure s (settleLinks s) :=
  ((fails_none_of_touch (linkChanged_touch s) rfl w).then_none (fails_none_pumpRing _ _ _)).then_none (fails_none_pumpRing _ _ _)

theorem fails_none_queueNotice (s : State) (w : Wing) (k : CarSetKey) (h : Entry) : Fails w NoFailure s (queueNotice s w k h) :=
  (fails_none_of_touch (State_modTt_touch ..) rfl w).then_none (fails_none_pumpRing _ _ _)

theorem carSets_queueNotice_other (s : State) (w : Wing) (k : CarSetKey) (h : Entry) :
    (queueNotice s w k h).carSets.get (otherWing w) = s.carSets.get (otherWing w) := (pumpRing_sendFrame w _).other

/-- R345: a car set that fails at a wing leaves those of the other wing. -/
theorem carSets_failHere_other (s : State) (w : Wing) (c : CarSet) (cause : Nat) :
    (failHere s w c cause true).carSets.get (otherWing w) = s.carSets.get (otherWing w) := by
  by_cases hlive : c.live
  · have hfailed : (failedHere s w c cause).carSets = _ := (failedHere_touch s w c cause).eq .carSets rfl
    rw [failHere_of_live hlive, carSets_queueNotice_other, hfailed, carSets_modCarSet_other]
  · rw [failHere_of_not_live hlive]

theorem fails_failHere (s : State) (w : Wing) (c : CarSet) :
    Fails w (fun k => c.key = k ∧ c.live) s (failHere s w c 0x0306 true) := by
  by_cases hlive : c.live
  · rw [failHere_of_live hlive]
    refine Fails.then_none ?_ (fails_none_queueNotice _ _ _ _)
    refine Fails.then_none ⟨fun k d hd => ?_⟩ (fails_none_of_touch (failedHere_touch s w c 0x0306) rfl w)
    refine ⟨_, by rw [carSetOf_modCarSet s w c.key k fun _ => by rfl, hd, Option.map_some], ?_, fun hk => ?_, fun hk => ?_⟩
    · split <;> rfl
    · rw [if_pos hk.1.symm]
      rfl
    · rw [if_neg fun he => hk ⟨he.symm, hlive⟩]
  · rw [failHere_of_not_live hlive]
    exact (fails_none_of_eq rfl).congr fun k => ⟨False.elim, fun h => hlive h.2⟩

theorem fails_foldl_failHere (l : List CarSet) (s : State) (w : Wing) :
    Fails w (fun k => ∃ c ∈ l, c.key = k ∧ c.live) s (l.foldl (fun s c => failHere s w c 0x0306) s) := by
  induction l generalizing s with
  | nil => exact (fails_none_of_eq rfl).congr fun k => by simp [NoFailure]
  | cons c l ih => exact ((fails_failHere s w c).trans (ih _)).congr fun k => by simp

theorem carSets_cutCarSets_other (s : State) (w : Wing) :
    (cutCarSets s w).carSets.get (otherWing w) = s.carSets.get (otherWing w) := by
  unfold cutCarSets
  generalize s.carSets.get w = l
  induction l generalizing s with
  | nil => rfl
  | cons c l ih => exact (ih _).trans (carSets_failHere_other s w c 0x0306)

/-- R455: every car set of either wing that was armed or running fails. -/
theorem fails_cutBoth (s : State) (w : Wing) :
    Fails w (fun k => ∃ c ∈ s.carSets.get w, c.key = k ∧ c.live) s (cutCarSets (cutCarSets s .east) .west) := by
  cases w with
  | east => exact (fails_foldl_failHere _ s .east).then_none (fails_none_of_eq (carSets_cutCarSets_other _ .west))
  | west =>
    have heast := carSets_cutCarSets_other s .east
    have hfails := fails_foldl_failHere ((cutCarSets s .east).carSets.get .west) (cutCarSets s .east) .west
    exact (show (cutCarSets s .east).carSets.get .west = s.carSets.get .west from heast) ▸
      hfails.after_none (fails_none_of_eq heast)

/-- Where keys are unique, the live car set of a key is the one found by it. -/
theorem live_iff_of_nodup {s : State} {w : Wing} {k : CarSetKey} {c : CarSet} (hkeys : ((s.carSets.get w).map (·.key)).Nodup)
    (hc : carSetOf s w k = some c) : (∃ d ∈ s.carSets.get w, d.key = k ∧ d.live) ↔ c.live := by
  have hmem : c ∈ s.carSets.get w := List.mem_of_find?_eq_some hc
  refine ⟨fun ⟨d, hd, hkey, hlive⟩ => ?_, fun hlive => ⟨c, hmem, key_of_carSetOf hc, hlive⟩⟩
  exact List.inj_on_of_nodup_map hkeys hd hmem (hkey.trans (key_of_carSetOf hc).symm) ▸ hlive

/-! ### Tasks -/

/-- Every task of s stands in t, with its status or stopped with cause 0x0306. -/
structure Stops (s t : State) : Prop where
  task : ∀ i x, taskOf s i = some x → ∃ y, taskOf t i = some y ∧ (y.status = x.status ∨ y.status = .stopping 0x0306)

theorem Stops.trans {s t u : State} (h : Stops s t) (h' : Stops t u) : Stops s u := by
  refine ⟨fun i x hx => ?_⟩
  obtain ⟨y, hy, hstatus⟩ := h.task i x hx
  obtain ⟨z, hz, hstatus'⟩ := h'.task i y hy
  exact ⟨z, hz, hstatus'.elim (fun he => he ▸ hstatus) .inr⟩

theorem stops_of_touch {m : Nat} {s t : State} (h : Touch m s t) (hm : m.testBit StatePart.tasks.idx = false) : Stops s t :=
  ⟨fun i x hx => ⟨x, (h.taskOf hm i).trans hx, .inl rfl⟩⟩

theorem Stops.foldl {α : Type} {f : State → α → State} (hf : ∀ s x, Stops s (f s x)) (l : List α) (s : State) :
    Stops s (l.foldl f s) := by
  induction l generalizing s with
  | nil => exact ⟨fun i x hx => ⟨x, hx, .inl rfl⟩⟩
  | cons x l ih => exact (hf s x).trans (ih _)

theorem Task.stopped_status (x : Task) : (x.stopped 0x0306).status = x.status ∨ (x.stopped 0x0306).status = .stopping 0x0306 := by
  unfold Task.stopped
  split
  · exact .inl rfl
  · exact .inr rfl

theorem stops_stopTask (s : State) (n : Nat) (unit : LogUnit) (addr detail : Nat) :
    Stops s (stopTask s n 0x0306 unit addr detail) := by
  refine ⟨fun i x hx => ⟨_, by rw [taskOf_stopTask, hx, Option.map_some], ?_⟩⟩
  split
  · exact x.stopped_status
  · exact .inl rfl

theorem stops_failHere (s : State) (w : Wing) (c : CarSet) : Stops s (failHere s w c 0x0306 true) := by
  by_cases hlive : c.live
  · rw [failHere_of_live hlive]
    refine Stops.trans ?_ (stops_of_touch (queueNotice_touch ..) rfl)
    refine Stops.trans (t := failReported s w c 0x0306 (stopNum s w) true)
      ((stops_of_touch (State_modCarSet_touch ..) rfl).trans (stops_of_touch failReported_touch rfl)) ?_
    exact Stops.foldl (fun s (t : Task) => stops_stopTask s t.id _ _ _) ..
  · rw [failHere_of_not_live hlive]
    exact stops_of_touch (.refl s) (m := 0) rfl

theorem stops_cutCarSets (s : State) (w : Wing) : Stops s (cutCarSets s w) :=
  Stops.foldl (fun s c => stops_failHere s w c) ..

theorem stops_cutTasks (s : State) : Stops s (cutTasks s) := by
  refine Stops.foldl (fun s t => (stops_of_touch (freeChoice_touch s) rfl).trans ?_) ..
  dsimp only
  split
  · exact stops_stopTask ..
  · exact stops_of_touch (.refl _) (m := 0) rfl

/-! ### The counter of falls -/

theorem sendsFlits_queueNotice (s : State) (w : Wing) (k : CarSetKey) (h : Entry) : SendsFlits s (queueNotice s w k h) :=
  (sendsFlits_modTt ..).trans (sendsFlits_pumpRing ..)

theorem ctr_failHere_falls (s : State) (w v : Wing) (c : CarSet) :
    ctr (failHere s w c 0x0306 true) (blkLnk v) 0x0920 = ctr s (blkLnk v) 0x0920 := by
  by_cases hlive : c.live
  · rw [failHere_of_live hlive]
    refine ((sendsFlits_queueNotice ..).counters v 0x0920 rfl).trans ?_
    rw [(failedHere_touch s w c 0x0306).ctr_lnk rfl, (State_modCarSet_touch ..).ctr_lnk rfl]
  · rw [failHere_of_not_live hlive]

theorem ctr_cutCarSets_falls (s : State) (w v : Wing) : ctr (cutCarSets s w) (blkLnk v) 0x0920 = ctr s (blkLnk v) 0x0920 := by
  unfold cutCarSets
  generalize s.carSets.get w = l
  induction l generalizing s with
  | nil => rfl
  | cons c l ih => exact (ih _).trans (ctr_failHere_falls s w v c)

end Sys2Proof.Machine
end
section
/-!
PROOF. Bundles that retire, the Concourse that falls, and what goes on when it is back (R454, R455, R459).
-/

namespace Sys2Proof.Machine

/-! ### A bundle retires (R454) -/

theorem and_bit_ne_zero {n : Nat} {x : BitVec n} {i : Nat} (h : x.getLsbD i = true) : x &&& BitVec.ofNat n (2 ^ i) ≠ 0 := by
  rw [ofNat_two_pow]
  intro he
  have hbit : (x &&& BitVec.twoPow n i).getLsbD i = false := by rw [he]; exact BitVec.getLsbD_zero
  rw [BitVec.getLsbD_and, h, BitVec.getLsbD_twoPow] at hbit
  simp [BitVec.lt_of_getLsbD h] at hbit

/-! ### The Concourse falls (R455) -/

/-- The Concourse fallen, with reason 2 of LIMITED. -/
def fallNoted (s : State) : State := reasonNoted (concourseDropped s) 2

theorem fallNoted_touch (s : State) : Touch 0x841f0000 s (fallNoted s) := by
  refine Touch.step (touch_cst _) rfl (Touch.step (raise_touch ..) rfl ?_)
  exact Touch.step (addCtr_touch_lnk ..) rfl (Touch.step (addCtr_touch_lnk ..) rfl (Touch.step (touch_cc _) rfl (touch_cc s |>.weaken rfl)))

theorem concourseDropped_cst (s : State) : (concourseDropped s).cst = s.cst := by
  have htouch : Touch 0x801f0000 s (concourseDropped s) := by
    refine Touch.step (raise_touch ..) rfl ?_
    exact Touch.step (addCtr_touch_lnk ..) rfl (Touch.step (addCtr_touch_lnk ..) rfl (Touch.step (touch_cc _) rfl (touch_cc s |>.weaken rfl)))
  exact htouch.eq .cst rfl

theorem reasonNoted_reasons (s : State) (b : Nat) :
    (reasonNoted s b).cst.limitedReasons = s.cst.limitedReasons ||| BitVec.ofNat 32 (2 ^ b) := rfl

theorem fallNoted_reasons (s : State) : (fallNoted s).cst.limitedReasons = s.cst.limitedReasons ||| 4 := by
  rw [fallNoted, reasonNoted_reasons, concourseDropped_cst]
  rfl

/-- What follows a fall for tasks, car sets and links. -/
def fallSettled (s : State) : State := settleLinks (cutCarSets (cutCarSets (cutTasks s) .east) .west)

theorem concourseFalls_of_not_service {s : State} (h : s.cst.state ≠ .service) : concourseFalls s = fallSettled (fallNoted s) := by
  rw [concourseFalls_eq, setReason_eq (by decide) (by rwa [concourseDropped_cst])]
  rfl

theorem fallSettled_touch (s : State) : Touch 0xa801fb100 s (fallSettled s) := by
  refine Touch.step (settleLinks_touch _) rfl (Touch.step (cutCarSets_touch ..) rfl (Touch.step (cutCarSets_touch ..) rfl ?_))
  exact (cutTasks_touch s).weaken rfl

theorem linksAlone_fallSettled (s : State) : LinksAlone s (fallSettled s) :=
  (((linksAlone_cutTasks _).trans (linksAlone_cutCarSets ..)).trans (linksAlone_cutCarSets ..)).trans
    (sendsFlits_settleLinks _).toLinksAlone

theorem fallNoted_cc (s : State) : (fallNoted s).cc = (concourseEmptied s).cc := concourseDropped_cc s

theorem ctr_fallNoted (s : State) (w : Wing) :
    (ctr (fallNoted s) (blkLnk w) 0x0920).toNat = min (2 ^ 64 - 1) ((ctr s (blkLnk w) 0x0920).toNat + 1) := by
  have hemptied : ctr (concourseEmptied s) (blkLnk w) 0x0920 = ctr s (blkLnk w) 0x0920 := ctr_lnk_congr rfl w 0x0920
  rw [fallNoted, reasonNoted, (State_modCst_touch ..).ctr_lnk rfl, concourseDropped, (raise_touch ..).ctr_lnk rfl]
  cases w with
  | east => rw [ctr_addCtr_lnk_of_ne _ (.inl (by decide)), ctr_addCtr_lnk_self _ _ _ one_ne_zero, hemptied]
  | west => rw [ctr_addCtr_lnk_self _ _ _ one_ne_zero, ctr_addCtr_lnk_of_ne _ (.inl (by decide)), hemptied]

theorem ctr_fallSettled (s : State) (w : Wing) : ctr (fallSettled s) (blkLnk w) 0x0920 = ctr s (blkLnk w) 0x0920 := by
  refine ((sendsFlits_settleLinks _).counters w 0x0920 rfl).trans ?_
  rw [ctr_cutCarSets_falls, ctr_cutCarSets_falls]
  exact (cutTasks_touch s).ctr_lnk rfl w 0x0920

theorem stops_fallSettled (s : State) : Stops s (fallSettled s) :=
  (((stops_cutTasks s).trans (stops_cutCarSets ..)).trans (stops_cutCarSets ..)).trans (stops_of_touch (settleLinks_touch _) rfl)

theorem fails_fallSettled (s : State) (w : Wing) :
    Fails w (fun k => ∃ c ∈ s.carSets.get w, c.key = k ∧ c.live) s (fallSettled s) := by
  have htasks : (cutTasks s).carSets = s.carSets := (cutTasks_touch s).eq .carSets rfl
  have hcut := fails_cutBoth (cutTasks s) w
  rw [htasks] at hcut
  exact (hcut.after_none (fails_none_of_eq (by rw [htasks]))).then_none (fails_none_settleLinks _ w)

/-! ### The Concourse is back (R455) -/

/-- The Concourse up over the bundles that trained. -/
def concourseTrained (s : State) (bundles : BitVec 9) : State :=
  { s with cc := { s.cc with state := .up, bundles := bundles, retired := 0, bundleErrs := [] } }

/-- Both link ends go on from their kept state, each after what the other received last. -/
def concourseResumed (s : State) (bundles : BitVec 9) : State :=
  resumeLink (resumeLink (concourseTrained s bundles) (.concourse .east) (some (s.cc.west.expected - 1)))
    (.concourse .west) (some (s.cc.east.expected - 1))

theorem linksAlone_concourseResumed (s : State) (bundles : BitVec 9) :
    LinksAlone (concourseTrained s bundles) (concourseResumed s bundles) :=
  (linksAlone_resumeLink ..).trans (linksAlone_resumeLink ..)

theorem kept_resumeLink {s : State} (l : LinkEnd) (last : Option (BitVec 12)) (hup : concourseUp s = true) :
    (resumeLink s l last).hif.logs.kept = s.hif.logs.kept := by
  refine ((sendsFlits_resumeLink s l last).logs ?_).trans (by rw [State.modLink_hif])
  exact (linksAlone_modLink ..).concourseUp.trans hup

theorem kept_concourseResumed (s : State) (bundles : BitVec 9) :
    (concourseResumed s bundles).hif.logs.kept = s.hif.logs.kept := by
  have hup : concourseUp (concourseTrained s bundles) = true := rfl
  have heast := kept_resumeLink (.concourse .east) (some (s.cc.west.expected - 1)) hup
  rw [concourseResumed, kept_resumeLink _ _ ((linksAlone_resumeLink ..).concourseUp.trans hup), heast]
  rfl

theorem concourseResumed_cst (s : State) (bundles : BitVec 9) : (concourseResumed s bundles).cst = s.cst := by
  have htouch : Touch 0x2801fb000 s (concourseResumed s bundles) :=
    Touch.step (resumeLink_touch ..) rfl (Touch.step (resumeLink_touch ..) rfl ((touch_cc s).weaken rfl))
  exact htouch.eq .cst rfl

/-- Reason 2 of LIMITED ends; reason 1 holds as long as fewer than eight bundles are active (R454, R510). -/
def bundleReasons (s : State) (full : Prop) [Decidable full] : State :=
  if full then reasonStruck (reasonStruck s 2) 1 else reasonNoted (reasonStruck s 2) 1

theorem bundleReasons_eq {s : State} (full : Prop) [Decidable full] (hservice : s.cst.state ≠ .service) (hlimited : s.cst.state ≠ .limited) :
    (if full then clearReason (clearReason s 2) 1 else setReason (clearReason s 2) 1) = bundleReasons s full := by
  rw [clearReason_eq 2 hservice hlimited, clearReason_eq (s := reasonStruck s 2) 1 hservice hlimited,
    setReason_eq (s := reasonStruck s 2) (by decide) hservice]
  rfl

theorem bundleReasons_touch (s : State) (full : Prop) [Decidable full] : Touch 0x4000000 s (bundleReasons s full) := by
  unfold bundleReasons
  split
  · exact Touch.step (touch_cst _) rfl (touch_cst s)
  · exact Touch.step (touch_cst _) rfl (touch_cst s)

theorem bundleReasons_cst (s : State) (full : Prop) [Decidable full] :
    (bundleReasons s full).cst.limitedReasons.getLsbD 2 = false
      ∧ (bundleReasons s full).cst.limitedReasons.getLsbD 1 = decide (¬ full) ∧ (bundleReasons s full).cst.state = s.cst.state := by
  unfold bundleReasons
  by_cases hfull : full
  · rw [if_pos hfull]
    refine ⟨?_, ?_, rfl⟩ <;> simp [reasonStruck, hfull]
  · rw [if_neg hfull]
    refine ⟨?_, ?_, rfl⟩ <;> simp [reasonStruck, reasonNoted, hfull]

/-! ### What West kept goes on its way (R455, R560, R562) -/

theorem kept_enterLog (s : State) (e : BitVec 256) : (enterLog s e).hif.logs.kept =
    (s.hif.logs.westEvents, s.hif.logs.westLog, s.hif.logs.clogSeq + 1) := rfl

/-- R560: every entry of the log takes the next SEQ. -/
theorem kept_foldl_enterLog (log : List (BitVec 256)) (s : State) : (log.foldl enterLog s).hif.logs.kept =
    (s.hif.logs.westEvents, s.hif.logs.westLog, s.hif.logs.clogSeq + BitVec.ofNat 32 log.length) := by
  induction log generalizing s with
  | nil => simp [Logs.kept]
  | cons e log ih =>
    have hseq := congrArg (fun x => x.2.2) (kept_enterLog s e)
    rw [List.foldl_cons, ih]
    simp only [Logs.kept] at hseq
    rw [hseq, List.length_cons, Nat.add_comm, BitVec.ofNat_add, BitVec.add_assoc]
    rfl

theorem sendsFlits_postEvent (s : State) (e : BitVec 128) : SendsFlits s ((postEvent s e).getD (loseEvent s)) := by
  cases h : postEvent s e with
  | none => exact .of_touch (loseEvent_touch s) rfl rfl rfl rfl fun _ => kept_loseEvent s
  | some t => exact .of_touch (postEvent_touch h) rfl rfl rfl rfl fun _ => kept_postEvent h

theorem sendsFlits_applyDoorbell (s : State) (f : Func) (r : Nat) (head : Bool) (v : Word32) :
    SendsFlits s (applyDoorbell s f r head v) := by
  refine .of_touch (applyDoorbell_touch ..) rfl rfl rfl rfl fun _ => ?_
  have heast : ∀ t : State, blockWing blkHif = .west → concourseUp t = true := fun _ h => absurd h (by decide)
  unfold applyDoorbell
  dsimp only
  split
  · exact (kept_raise _ _ _ (heast _)).trans (kept_addCtr _ _ (heast _))
  · split <;> rfl

theorem sendsFlits_flushFunc (s : State) (f : Func) : SendsFlits s (flushFunc s f) :=
  .of_touch (flushFunc_touch ..) rfl rfl rfl rfl fun _ => congrArg Logs.kept ((flushFunc_touch s f).eq .logs rfl)

/-- West has handed over what it kept, none of it gone on its way yet. -/
def westEmptied (s : State) : State :=
  State.modLogs { s with cc := { s.cc with doorbells := [] } } fun l => { l with westEvents := [], westLog := [] }

theorem sendsFlits_releaseWest (s : State) : SendsFlits (s.hif.logs.westLog.foldl enterLog (westEmptied s)) (releaseWest s) := by
  refine (SendsFlits.foldl (fun s f => sendsFlits_flushFunc s f) ..).after ((SendsFlits.foldl (fun s d => ?_) ..).after ?_)
  · exact sendsFlits_applyDoorbell ..
  · exact SendsFlits.foldl sendsFlits_postEvent ..

theorem cc_foldl_enterLog (log : List (BitVec 256)) (s : State) : (log.foldl enterLog s).cc = s.cc := by
  induction log generalizing s with
  | nil => rfl
  | cons e log ih => exact (ih _).trans rfl

theorem releaseWest_cc (s : State) : (releaseWest s).cc.besides = ({ s.cc with doorbells := [] } : Concourse).besides :=
  (sendsFlits_releaseWest s).cc.trans (congrArg Concourse.besides (cc_foldl_enterLog ..))

theorem kept_releaseWest {s : State} (hup : concourseUp s = true) : (releaseWest s).hif.logs.kept =
    ([], [], s.hif.logs.clogSeq + BitVec.ofNat 32 s.hif.logs.westLog.length) := by
  refine ((sendsFlits_releaseWest s).logs ?_).trans (kept_foldl_enterLog ..)
  rw [concourseUp, cc_foldl_enterLog]
  exact hup

/-! ### The end of the Concourse's training -/

section
variable {c d : Concourse} (h : c.besides = d.besides)
include h

theorem Concourse.state_of_besides : c.state = d.state := (congrArg Concourse.state h :)

theorem Concourse.bundles_of_besides : c.bundles = d.bundles := (congrArg Concourse.bundles h :)

theorem Concourse.retired_of_besides : c.retired = d.retired := (congrArg Concourse.retired h :)

theorem Concourse.doorbells_of_besides : c.doorbells = d.doorbells := (congrArg Concourse.doorbells h :)

end

/-- What follows a training of the Concourse, for reasons, logs, doorbells and links. -/
def trainingSettled (s : State) (full : Prop) [Decidable full] : State := settleLinks (releaseWest (bundleReasons s full))

theorem execConcourseRetrainDone_eq {s : State} {bundles : BitVec 9} (hon : fabricOn s = true) (hdown : s.cc.state ≠ .up)
    (hsome : bundles ≠ 0) (hcount : popcount 9 bundles.toNat ≤ 8) (hservice : s.cst.state ≠ .service) (hlimited : s.cst.state ≠ .limited) :
    execConcourseRetrainDone bundles s =
      .next (trainingSettled (concourseResumed s bundles) (popcount 9 bundles.toNat = 8)) := by
  have hguard : (!fabricOn s || s.cc.state == .up || bundles == 0 || decide (8 < popcount 9 bundles.toNat)) = false := by
    simp [hon, hdown, hcount]
    exact hsome
  have hcst := concourseResumed_cst s bundles
  rw [trainingSettled, ← bundleReasons_eq _ (by rwa [hcst]) (by rwa [hcst])]
  unfold execConcourseRetrainDone
  rw [if_neg (by rw [hguard]; decide)]
  rfl

section
variable (s : State) (full : Prop) [Decidable full]

theorem bundleReasons_cc : (bundleReasons s full).cc = s.cc := (bundleReasons_touch s full).eq .cc rfl

theorem bundleReasons_logs : (bundleReasons s full).hif.logs = s.hif.logs := (bundleReasons_touch s full).eq .logs rfl

theorem trainingSettled_cc : (trainingSettled s full).cc.besides = ({ s.cc with doorbells := [] } : Concourse).besides := by
  rw [trainingSettled, (sendsFlits_settleLinks _).cc, releaseWest_cc, bundleReasons_cc]

theorem kept_trainingSettled (hup : concourseUp s = true) : (trainingSettled s full).hif.logs.kept =
    ([], [], s.hif.logs.clogSeq + BitVec.ofNat 32 s.hif.logs.westLog.length) := by
  have hreasons : concourseUp (bundleReasons s full) = true := by rwa [concourseUp, bundleReasons_cc]
  have hreleased : concourseUp (releaseWest (bundleReasons s full)) = true := by
    rw [concourseUp, Concourse.state_of_besides (releaseWest_cc _)]
    exact hreasons
  rw [trainingSettled, (sendsFlits_settleLinks _).logs hreleased, kept_releaseWest hreasons, bundleReasons_logs]

theorem trainingSettled_cst : (trainingSettled s full).cst = (bundleReasons s full).cst :=
  ((settleLinks_touch _).eq .cst rfl).trans ((releaseWest_touch _).eq .cst rfl)

end

/-- What is left once the training has been settled: West keeps nothing, and its log entries took their SEQ. -/
theorem trainingSettled_spec {s : State} (full : Prop) [Decidable full] (hup : concourseUp s = true) :
    (trainingSettled s full).cc.state = s.cc.state ∧ (trainingSettled s full).cc.bundles = s.cc.bundles
      ∧ (trainingSettled s full).cc.retired = s.cc.retired ∧ (trainingSettled s full).cc.doorbells = []
      ∧ (trainingSettled s full).hif.logs.westEvents = [] ∧ (trainingSettled s full).hif.logs.westLog = []
      ∧ (trainingSettled s full).cst.limitedReasons.getLsbD 2 = false
      ∧ (trainingSettled s full).cst.limitedReasons.getLsbD 1 = decide (¬ full)
      ∧ (trainingSettled s full).cst.state = s.cst.state
      ∧ (trainingSettled s full).hif.logs.clogSeq = s.hif.logs.clogSeq + BitVec.ofNat 32 s.hif.logs.westLog.length := by
  have hcc := trainingSettled_cc s full
  have hkept := kept_trainingSettled s full hup
  simp only [Logs.kept, Prod.mk.injEq] at hkept
  obtain ⟨hevents, hlog, hseq⟩ := hkept
  obtain ⟨hreason2, hreason1, hstate⟩ := bundleReasons_cst s full
  rw [trainingSettled_cst]
  exact ⟨(Concourse.state_of_besides hcc).trans rfl, (Concourse.bundles_of_besides hcc).trans rfl, (Concourse.retired_of_besides hcc).trans rfl,
    Concourse.doorbells_of_besides hcc, hevents, hlog, hreason2, hreason1, hstate, hseq⟩

theorem concourseResumed_cc (s : State) (bundles : BitVec 9) : (concourseResumed s bundles).cc.state = .up
    ∧ (concourseResumed s bundles).cc.bundles = bundles ∧ (concourseResumed s bundles).cc.retired = 0 := by
  have hcc := (linksAlone_concourseResumed s bundles).cc
  exact ⟨Concourse.state_of_besides hcc, Concourse.bundles_of_besides hcc, Concourse.retired_of_besides hcc⟩

theorem concourseUp_concourseResumed (s : State) (bundles : BitVec 9) : concourseUp (concourseResumed s bundles) = true :=
  (linksAlone_concourseResumed s bundles).concourseUp

end Sys2Proof.Machine

namespace Sys2Proof
open Sys2Proof.Machine

/-- R454: a bundle that is retired. -/
theorem bundleRetire_cases (s : State) (b : Fin 9) (hup : s.cc.state = .up) (hactive : s.cc.bundles.getLsbD b.val = true) :
    let m : BitVec 9 := BitVec.ofNat 9 (2 ^ b.val)
    let left := s.cc.bundles &&& ~~~m
    let heir := (List.range 9).find? fun i => (~~~(s.cc.bundles ||| s.cc.retired) &&& ~~~m).getLsbD i
    let now := match heir with
      | some i => left ||| BitVec.ofNat 9 (2 ^ i)
      | none => left
    let a := { s with cc := { s.cc with bundles := now, retired := s.cc.retired ||| m, bundleErrs := Table.erase s.cc.bundleErrs b.val } }
    let c := raise (addCtr (addCtr a (blkLnk .east) 0x0918) (blkLnk .west) 0x0918) 0x0316 b.val (blkLnk .east)
    (now ≠ 0 → 8 ≤ popcount 9 now.toNat → exec (.bundleRetire b) s = .next c)
    ∧ (now ≠ 0 → popcount 9 now.toNat < 8 → exec (.bundleRetire b) s = .next (setReason c 1))
    ∧ (now = 0 → exec (.bundleRetire b) s = .next (concourseFalls c)) := by
  intro m left heir now a c
  have heq : exec (.bundleRetire b) s = .next (if now = 0 then concourseFalls c
      else if popcount 9 now.toNat < 8 then setReason c 1 else c) :=
    congrArg Host.Outcome.next (if_neg (not_or.2 ⟨not_not.2 hup, and_bit_ne_zero hactive⟩))
  refine ⟨fun hsome hcount => ?_, fun hsome hcount => ?_, fun hnone => ?_⟩
  · rw [heq, if_neg hsome, if_neg hcount.not_gt]
  · rw [heq, if_neg hsome, if_pos hcount]
  · rw [heq, if_pos hnone]

/-- R455: what the Concourse leaves behind when it falls outside SERVICE. -/
theorem concourseFalls_spec (s : State) (hservice : s.cst.state ≠ .service) (hkeys : ∀ w, ((s.carSets.get w).map (·.key)).Nodup) :
    (concourseFalls s).cc.bundles = 0 ∧ (concourseFalls s).cst.limitedReasons = s.cst.limitedReasons ||| 4
    ∧ (∀ w, (ctr (concourseFalls s) (blkLnk w) 0x0920).toNat = min (2 ^ 64 - 1) ((ctr s (blkLnk w) 0x0920).toNat + 1))
    ∧ (∀ w k c, carSetOf s w k = some c → ∃ d, carSetOf (concourseFalls s) w k = some d ∧ d.desc = c.desc
        ∧ d.phase = (if c.phase = .armed ∨ c.phase = .running then .failed 0x0306 else c.phase))
    ∧ (∀ i t, taskOf s i = some t → ∃ y, taskOf (concourseFalls s) i = some y ∧ (y.status = t.status ∨ y.status = .stopping 0x0306))
    ∧ (∀ w q, (portOf (concourseFalls s) w q).state = (portOf s w q).state) ∧ (concourseFalls s).mem = s.mem := by
  have hnoted := fallNoted_touch s
  have hports : (fallNoted s).ports = s.ports := hnoted.eq .ports rfl
  have hlinks := linksAlone_fallSettled (fallNoted s)
  have hcst : (fallSettled (fallNoted s)).cst = (fallNoted s).cst := (fallSettled_touch _).eq .cst rfl
  rw [concourseFalls_of_not_service hservice]
  refine ⟨?_, ?_, fun w => ?_, fun w k c hc => ?_, ?_, fun w q => ?_, ?_⟩
  · rw [Concourse.bundles_of_besides hlinks.cc, fallNoted_cc]
    rfl
  · rw [hcst, fallNoted_reasons]
  · rw [ctr_fallSettled, ctr_fallNoted]
  · have hcuts := (fails_fallSettled (fallNoted s) w).after_none (fails_none_of_touch hnoted rfl w)
    rw [show (fallNoted s).carSets = s.carSets from hnoted.eq .carSets rfl] at hcuts
    obtain ⟨d, hd, hdesc, hfails, hstays⟩ := hcuts.sets k c hc
    rw [live_iff_of_nodup (hkeys w) hc] at hfails hstays
    exact ⟨d, hd, hdesc, by split; exacts [hfails ‹_›, hstays ‹_›]⟩
  · exact ((stops_of_touch hnoted rfl).trans (stops_fallSettled _)).task
  · rw [Port.state_of_besides (hlinks.port w q), portOf_congr hports]
  · exact ((fallSettled_touch _).cells rfl).trans (hnoted.cells rfl)

/-- Settles O40: the fall of the Concourse and its return are cut into the steps that each tell one part of the state. -/
theorem concourseBundles : Obligations.ConcourseBundles := by
  unfold Obligations.ConcourseBundles
  refine ⟨bundleRetire_cases, fun s hup htraining => congrArg Host.Outcome.next (if_neg (not_or.2 ⟨hup, htraining⟩)),
    fun s hstate hservice hkeys => ?_, fun s bundles hon hdown hsome hcount hservice hlimited => ?_⟩
  · exact ⟨concourseFalls s, congrArg Host.Outcome.next (if_pos hstate), concourseFalls_state s, concourseFalls_spec s hservice hkeys⟩
  · refine ⟨_, execConcourseRetrainDone_eq hon hdown hsome hcount hservice hlimited, ?_⟩
    have hlogs := kept_concourseResumed s bundles
    simp only [Logs.kept, Prod.mk.injEq] at hlogs
    obtain ⟨-, hlog, hseq⟩ := hlogs
    obtain ⟨hstate, hbundles, hretired⟩ := concourseResumed_cc s bundles
    have hspec := trainingSettled_spec (popcount 9 bundles.toNat = 8) (concourseUp_concourseResumed s bundles)
    rwa [hlog, hseq, hstate, hbundles, hretired, concourseResumed_cst] at hspec

end Sys2Proof
end
section
/-!
PROOF. Laws of the MEM_ counters and of a slot's turn: calibration, scrub and row repair of a pseudo-channel (R549, R554 to R557).
-/

namespace Sys2Proof.Machine

/-! ### Counters of a MEM_ block -/

theorem ctrTable_mem (s : State) (t : Tile) : ctrTable s (blkMem t) = (s.tmem.get t).ctrs := by cases t <;> rfl

theorem setCtrTable_mem (s : State) (t : Tile) (c : Table Word64) :
    setCtrTable s (blkMem t) c = s.modMem t fun x => { x with ctrs := c } := by cases t <;> rfl

theorem ctr_mem (s : State) (t : Tile) (off : Nat) : ctr s (blkMem t) off = Table.get 0 (s.tmem.get t).ctrs off := by
  rw [ctr, ctrTable_mem]

theorem ctr_mem_congr {s u : State} {t : Tile} (h : (u.tmem.get t).ctrs = (s.tmem.get t).ctrs) (off : Nat) :
    ctr u (blkMem t) off = ctr s (blkMem t) off := by rw [ctr_mem, ctr_mem, h]

theorem tmem_addCtr_mem (s : State) (t : Tile) (off n : Nat) : (addCtr s (blkMem t) off n).tmem.get t =
    { s.tmem.get t with ctrs := Table.set 0 (s.tmem.get t).ctrs off (sat64 ((ctr s (blkMem t) off).toNat + n)) } := by
  unfold addCtr
  dsimp only
  rw [setCtrTable_mem, ctrTable_mem]
  split
  · rw [raise_tmem, modMem_get]
  · rw [modMem_get]

/-- R557: one more of what a counter counts. -/
theorem ctr_addCtr_mem_self (s : State) (t : Tile) (off : Nat) :
    (ctr (addCtr s (blkMem t) off) (blkMem t) off).toNat = min (2 ^ 64 - 1) ((ctr s (blkMem t) off).toNat + 1) := by
  rw [ctr_mem, tmem_addCtr_mem, Table.get_set_self _ _ (sat64_succ_ne_zero _), toNat_sat64]

theorem ctr_addCtr_mem_of_ne (s : State) (t : Tile) {off o : Nat} (h : o ≠ off) :
    ctr (addCtr s (blkMem t) off) (blkMem t) o = ctr s (blkMem t) o := by
  rw [ctr_mem, tmem_addCtr_mem, Table.get_set_of_ne _ (sat64_succ_ne_zero _) h, ctr_mem]

section
variable (s : State) (t : Tile) (off n : Nat)

theorem cal_addCtr_mem : ((addCtr s (blkMem t) off n).tmem.get t).cal = (s.tmem.get t).cal := by rw [tmem_addCtr_mem]

theorem scrub_addCtr_mem : ((addCtr s (blkMem t) off n).tmem.get t).scrub = (s.tmem.get t).scrub := by rw [tmem_addCtr_mem]

theorem rowCe_addCtr_mem : ((addCtr s (blkMem t) off n).tmem.get t).rowCe = (s.tmem.get t).rowCe := by rw [tmem_addCtr_mem]

theorem repairs_addCtr_mem : ((addCtr s (blkMem t) off n).tmem.get t).repairs = (s.tmem.get t).repairs := by rw [tmem_addCtr_mem]

end

theorem ctr_mem_raise (s : State) (ev data b part : Nat) (t : Tile) (off : Nat) :
    ctr (raise s ev data b part) (blkMem t) off = ctr s (blkMem t) off := ctr_mem_congr (by rw [raise_tmem]) off

/-! ### Whether a slot is taken (R555) -/

theorem slotTaken_done {fg : Bool} {left units : Nat} (h : units = 0 ∨ (fg = true ∧ units < left)) :
    slotTaken fg left units = (false, false) := by
  unfold slotTaken
  split
  · rfl
  · obtain ⟨rfl, hlt⟩ := h.resolve_left ‹_›
    rw [if_neg (by decide), if_neg hlt.not_ge]

theorem slotTaken_idle {left units : Nat} (h : units ≠ 0) : slotTaken false left units = (true, false) := by
  rw [slotTaken, if_neg h]
  rfl

theorem slotTaken_forced {left units : Nat} (h : units ≠ 0) (hleft : left ≤ units) : slotTaken true left units = (true, true) := by
  rw [slotTaken, if_neg h, if_neg (by decide), if_pos hleft]

/-! ### The stack of a slot wakes (R535) -/

section
variable (s : State) (t : Tile) (pc : Nat)

theorem wakePcOf_tmem : (execCalibrationSlot.wakePcOf s t pc).tmem = s.tmem := (execCalibrationSlot_wakePcOf_touch s t pc).eq .tmem rfl

theorem wakePcOf_cst : (execCalibrationSlot.wakePcOf s t pc).cst = s.cst := (execCalibrationSlot_wakePcOf_touch s t pc).eq .cst rfl

theorem wakePcOf_hif : (execCalibrationSlot.wakePcOf s t pc).hif = s.hif := by
  unfold execCalibrationSlot.wakePcOf
  dsimp only
  split <;> rfl

end

/-! ### A forced slot (R555) -/

theorem calForced_mem_touch (s : State) (i : SlotItem) (t : Tile) (off data : Nat) :
    Touch 0x801c0010 s (calForced s i (blkMem t) off data) := by
  unfold calForced
  dsimp only
  split
  · exact addCtr_touch_mem ..
  · exact Touch.step (raise_touch ..) rfl (addCtr_touch_mem ..)

theorem calForced_lnk_touch (s : State) (i : SlotItem) (w : Wing) (off data : Nat) :
    Touch 0x801e0000 s (calForced s i (blkLnk w) off data) := by
  unfold calForced
  dsimp only
  split
  · exact (addCtr_touch_lnk ..).weaken rfl
  · exact Touch.step (raise_touch ..) rfl ((addCtr_touch_lnk ..).weaken rfl)

theorem tmem_calForced (s : State) (i : SlotItem) (b off data : Nat) : (calForced s i b off data).tmem = (addCtr s b off).tmem := by
  unfold calForced
  dsimp only
  split
  · rfl
  · rw [raise_tmem]

theorem ctr_calForced_lnk (s : State) (i : SlotItem) (w : Wing) (off data : Nat) :
    (ctr (calForced s i (blkLnk w) off data) (blkLnk w) off).toNat = min (2 ^ 64 - 1) ((ctr s (blkLnk w) off).toNat + 1) := by
  rw [← ctr_addCtr_lnk_self s w off one_ne_zero]
  unfold calForced
  dsimp only
  split
  · rfl
  · rw [(raise_touch ..).ctr_lnk rfl]

/-! ### A pseudo-channel's calibration (R554) -/

section
variable (s : State) (t : Tile) (pc : Nat) (fg : Bool) (left : Nat)

/-- The item's slot as R555 decides it. -/
def calTaken : Bool × Bool := slotTaken fg left (calUnits - (itemOf (s.tmem.get t).cal pc).done)

/-- The item after its slot. -/
def calNoted : State := s.modMem t fun m =>
  { m with cal := Table.set {} m.cal pc (itemAfter (itemOf (s.tmem.get t).cal pc) (calTaken s t pc fg left).1 (calTaken s t pc fg left).2 left) }

theorem calPc_eq : calPc s t pc fg left = if (calTaken s t pc fg left).2 then
    calForced (calNoted s t pc fg left) (itemOf (s.tmem.get t).cal pc) (blkMem t) 0x0150 pc else calNoted s t pc fg left := rfl

theorem calPc_cal : ((calPc s t pc fg left).tmem.get t).cal = Table.set {} (s.tmem.get t).cal pc
    (itemAfter (itemOf (s.tmem.get t).cal pc) (calTaken s t pc fg left).1 (calTaken s t pc fg left).2 left) := by
  rw [calPc_eq]
  split
  · rw [tmem_calForced, cal_addCtr_mem, calNoted, modMem_get]
  · rw [calNoted, modMem_get]

theorem itemOf_calPc (hcanonical : Table.canonical {} (s.tmem.get t).cal = true) (k : Nat) :
    itemOf ((calPc s t pc fg left).tmem.get t).cal k = if k = pc then
      itemAfter (itemOf (s.tmem.get t).cal pc) (calTaken s t pc fg left).1 (calTaken s t pc fg left).2 left
    else itemOf (s.tmem.get t).cal k := by
  rw [calPc_cal]
  exact Table.get_set _ hcanonical ..

theorem calPc_hif (h : (calTaken s t pc fg left).2 = false) : (calPc s t pc fg left).hif = s.hif := by
  rw [calPc_eq, h, if_neg (by decide)]
  rfl

theorem ctr_calPc (h : (calTaken s t pc fg left).2 = true) : (ctr (calPc s t pc fg left) (blkMem t) 0x0150).toNat =
    min (2 ^ 64 - 1) ((ctr s (blkMem t) 0x0150).toNat + 1) := by
  rw [calPc_eq, if_pos h, ctr_mem_congr (congrArg (fun m => (m.get t).ctrs) (tmem_calForced ..)), ctr_addCtr_mem_self,
    ctr_mem_congr (s := s) (by rw [calNoted, modMem_get])]

theorem calPc_mem_touch : Touch 0x801c0010 s (calPc s t pc fg left) := by
  rw [calPc_eq]
  split
  · exact Touch.step (calForced_mem_touch ..) rfl ((State_modMem_touch ..).weaken rfl)
  · exact (State_modMem_touch ..).weaken rfl

end

theorem itemAfter_of_two_le {i : SlotItem} {taken forced : Bool} {left : Nat} (h : 2 ≤ left) :
    itemAfter i taken forced left = { done := i.done + b2n taken, forcedSeen := i.forcedSeen || forced } := if_neg (by omega)

/-! ### The scrub pass (R546, R549, R554) -/

section
variable (s : State) (t : Tile) (pc row burst : Nat)

/-- The bursts of a row that were found corrected, with one more. -/
def burstsSeen : List Nat := insertSorted (Table.get [] (s.tmem.get t).rowCe (rowKey pc row)) burst

/-- A corrected burst counted and noted. -/
def burstNoted : State := (addCtr s (blkMem t) 0x0138).modMem t fun m =>
  { m with rowCe := Table.set [] m.rowCe (rowKey pc row) (burstsSeen s t pc row burst) }

theorem correctedBurst_eq : correctedBurst s t pc row burst =
    if (burstsSeen s t pc row burst).length = dictVal s 0x3031 0 then triggerRepair (burstNoted s t pc row burst) t pc row
    else burstNoted s t pc row burst := by
  have hcst : (burstNoted s t pc row burst).cst = s.cst := (addCtr_touch_mem s t 0x0138 1).eq .cst rfl
  rw [← dictVal_congr hcst, burstNoted, burstsSeen, ← rowCe_addCtr_mem s t 0x0138 1]
  rfl

theorem repairs_burstNoted : ((burstNoted s t pc row burst).tmem.get t).repairs = (s.tmem.get t).repairs := by
  rw [burstNoted, modMem_get, repairs_addCtr_mem]

theorem scrub_triggerRepair : ((triggerRepair s t pc row).tmem.get t).scrub = (s.tmem.get t).scrub := by
  unfold triggerRepair
  split
  · rfl
  · rw [modMem_get]

theorem ctrs_triggerRepair : ((triggerRepair s t pc row).tmem.get t).ctrs = (s.tmem.get t).ctrs := by
  unfold triggerRepair
  split
  · rfl
  · rw [modMem_get]

theorem scrub_correctedBurst : ((correctedBurst s t pc row burst).tmem.get t).scrub = (s.tmem.get t).scrub := by
  have hnoted : ((burstNoted s t pc row burst).tmem.get t).scrub = (s.tmem.get t).scrub := by
    rw [burstNoted, modMem_get, scrub_addCtr_mem]
  rw [correctedBurst_eq]
  split
  · rw [scrub_triggerRepair, hnoted]
  · exact hnoted

theorem ctr_correctedBurst (off : Nat) :
    ctr (correctedBurst s t pc row burst) (blkMem t) off = ctr (addCtr s (blkMem t) 0x0138) (blkMem t) off := by
  have hnoted : ((burstNoted s t pc row burst).tmem.get t).ctrs = ((addCtr s (blkMem t) 0x0138).tmem.get t).ctrs := by
    rw [burstNoted, modMem_get]
  refine ctr_mem_congr ?_ off
  rw [correctedBurst_eq]
  split
  · rw [ctrs_triggerRepair, hnoted]
  · exact hnoted

/-- R549: enough distinct bursts of a row start its repair. -/
theorem repair_correctedBurst (hnone : repairOf s t pc = none) (h : (burstsSeen s t pc row burst).length = dictVal s 0x3031 0) :
    ∃ r ∈ ((correctedBurst s t pc row burst).tmem.get t).repairs, r.pc = pc ∧ r.row = row := by
  have hfree : ((burstNoted s t pc row burst).tmem.get t).repairs.any (fun r => r.pc == pc && r.row == row) = false := by
    rw [repairs_burstNoted, List.any_eq_false]
    intro r hr
    have hpc := List.find?_eq_none.1 hnone r hr
    simp_all
  rw [correctedBurst_eq, if_pos h, triggerRepair, if_neg (by rw [hfree]; decide), modMem_get]
  exact ⟨_, List.mem_append_right _ (List.mem_singleton_self _), rfl, rfl⟩

theorem repairs_correctedBurst (h : (burstsSeen s t pc row burst).length ≠ dictVal s 0x3031 0) :
    ((correctedBurst s t pc row burst).tmem.get t).repairs = (s.tmem.get t).repairs := by
  rw [correctedBurst_eq, if_neg h, repairs_burstNoted]

end

/-- An item with one more unit done. -/
def oneMore (i : SlotItem) : SlotItem := { i with done := i.done + 1 }

/-- One more location of a pass is done. -/
def passAdvanced (s : State) (t : Tile) (pc : Nat) : State := s.modMem t fun m =>
  { m with scrub := Table.set {} m.scrub pc (oneMore (itemOf (s.tmem.get t).scrub pc)) }

/-- The end of a pass is counted. -/
def passCounted (s : State) (t : Tile) (done : Nat) : State := if done + 1 = scrubUnits then addCtr s (blkMem t) 0x0148 else s

section
variable (s : State) (t : Tile) (pc : Nat)

/-- R554: the pass reads its next location in a slot that is not needed in the foreground. -/
theorem scrubTurn_eq (left : Nat) (f : ScrubFinding) (h : (itemOf (s.tmem.get t).scrub pc).done < scrubUnits) :
    scrubTurn s t pc false left f = passCounted (scrubFinds (passAdvanced s t pc) t pc
      ((itemOf (s.tmem.get t).scrub pc).done / 4) (4 * (itemOf (s.tmem.get t).scrub pc).done) f) t
      (itemOf (s.tmem.get t).scrub pc).done := by
  simp only [scrubTurn, slotTaken_idle (Nat.sub_ne_zero_of_lt h), Bool.or_false]
  rfl

theorem itemOf_passAdvanced : itemOf ((passAdvanced s t pc).tmem.get t).scrub pc = oneMore (itemOf (s.tmem.get t).scrub pc) := by
  rw [passAdvanced, modMem_get]
  exact Table.get_set_self _ _ fun he => absurd (congrArg SlotItem.done he) (Nat.succ_ne_zero _)

theorem repairs_passAdvanced : ((passAdvanced s t pc).tmem.get t).repairs = (s.tmem.get t).repairs := by
  rw [passAdvanced, modMem_get]

theorem rowCe_passAdvanced : ((passAdvanced s t pc).tmem.get t).rowCe = (s.tmem.get t).rowCe := by
  rw [passAdvanced, modMem_get]

theorem ctrs_passAdvanced : ((passAdvanced s t pc).tmem.get t).ctrs = (s.tmem.get t).ctrs := by
  rw [passAdvanced, modMem_get]

theorem passAdvanced_touch : Touch 0x10 s (passAdvanced s t pc) := State_modMem_touch ..

theorem passCounted_touch (done : Nat) : Touch 0x801c0010 s (passCounted s t done) := by
  unfold passCounted
  split
  · exact addCtr_touch_mem ..
  · exact Touch.refl s |>.weaken (a := 0) rfl

theorem scrub_passCounted (done : Nat) : ((passCounted s t done).tmem.get t).scrub = (s.tmem.get t).scrub := by
  unfold passCounted
  split
  · exact scrub_addCtr_mem ..
  · rfl

theorem repairs_passCounted (done : Nat) : ((passCounted s t done).tmem.get t).repairs = (s.tmem.get t).repairs := by
  unfold passCounted
  split
  · exact repairs_addCtr_mem ..
  · rfl

theorem ctr_passCounted_of_ne (done : Nat) {off : Nat} (h : off ≠ 0x0148) :
    ctr (passCounted s t done) (blkMem t) off = ctr s (blkMem t) off := by
  unfold passCounted
  split
  · exact ctr_addCtr_mem_of_ne s t h
  · rfl

end

/-! ### A row repair's unit (R549) -/

/-- Whether a repair is another one than r. -/
def isOther (r x : RowRepair) : Bool := !(x.pc == r.pc && x.row == r.row)

section
variable (s : State) (t : Tile) (r : RowRepair)

/-- A clean unit that is not the last of its repair. -/
theorem repairUnit_more (h : 2 ≤ r.unitsLeft) : repairUnit s t r .clean = s.modMem t fun m =>
    { m with repairs := updateWhere (fun x => x.pc == r.pc && x.row == r.row) (fun x => { x with unitsLeft := x.unitsLeft - 1 }) m.repairs } :=
  if_neg (by omega)

/-- The last unit ends the repair. -/
theorem repairUnit_last (h : r.unitsLeft = 1) : repairUnit s t r .clean =
    raise (addCtr (s.modMem t fun m => { m with repairs := m.repairs.filter (isOther r) }) (blkMem t) 0x0140) 0x0205 r.pc (blkMem t) :=
  if_pos h.le

theorem repairTurn_clean (left : Nat) (h : r.unitsLeft ≠ 0) : repairTurn s t r false left .clean = repairUnit s t r .clean := by
  unfold repairTurn
  rw [slotTaken_idle h]
  rfl

/-- The first repair of a pseudo-channel with one unit less. -/
theorem repairOf_repairUnit {pc : Nat} (hr : repairOf s t pc = some r) (h : 2 ≤ r.unitsLeft) :
    repairOf (repairUnit s t r .clean) t pc = some { r with unitsLeft := r.unitsLeft - 1 } := by
  have hkey : ((fun x : RowRepair => x.pc == pc) ∘ fun x : RowRepair =>
      if (x.pc == r.pc && x.row == r.row) = true then { x with unitsLeft := x.unitsLeft - 1 } else x) = fun x => x.pc == pc := by
    funext x
    dsimp only [Function.comp_apply]
    split <;> rfl
  rw [repairUnit_more s t r h, repairOf, modMem_get, updateWhere, List.find?_map, hkey]
  rw [repairOf] at hr
  rw [hr]
  simp

end

end Sys2Proof.Machine
end
section
/-!
PROOF. Calibration and scrub slots and the migration of a pseudo-channel (R450, R546, R549 to R551, R554 to R556).
-/

namespace Sys2Proof.Machine

/-! ### The latency item of a port (R450) -/

section
variable (s : State) (w : Wing) (p : Fin 6) (es : List Echo) (fg : Bool) (left : Nat)

/-- The latency item's slot taken, and counted where it was forced. -/
def latencyTaken : State :=
  let a := s.modPort w p.val fun x => { x with cal := Table.set {} x.cal 8 (itemAfter (itemOf (portOf s w p.val).cal 8) true fg left) }
  if fg then calForced a (itemOf (portOf s w p.val).cal 8) (blkLnk w) (portCtr p.val 0x50) (0x1000 + 8 * portNum w p.val + 0) else a

/-- The latency item's requests sent, and the port's latency brought up to date. -/
def latencyMeasured : State :=
  (sendRequests (latencyTaken s w p fg left) w p (portOf s w p.val).lanes es).modPort w p.val fun x => { x with lat := oneWay es }

theorem latencyTaken_ports : (latencyTaken s w p fg left).ports = (s.modPort w p.val fun x =>
    { x with cal := Table.set {} x.cal 8 (itemAfter (itemOf (portOf s w p.val).cal 8) true fg left) }).ports := by
  unfold latencyTaken
  dsimp only
  split
  · exact (calForced_lnk_touch ..).eq .ports rfl
  · rfl

theorem sendRequests_touch_port (a : State) (lanes : BitVec 8) : Touch 0x2801e8000 a (sendRequests a w p lanes es) :=
  Touch.foldl (Touch.refl a |>.weaken (a := 0) rfl) fun _ _ h => Touch.step (sendTrain_port_touch ..) rfl h

theorem latencyMeasured_touch : Touch 0x2801e8000 s (latencyMeasured s w p es fg left) := by
  refine Touch.step (State_modPort_touch ..) rfl (Touch.step (sendRequests_touch_port ..) rfl ?_)
  unfold latencyTaken
  dsimp only
  split
  · exact Touch.step (calForced_lnk_touch ..) rfl ((State_modPort_touch ..).weaken rfl)
  · exact (State_modPort_touch ..).weaken rfl

theorem latencyMeasured_lat : (portOf (latencyMeasured s w p es fg left) w p.val).lat = oneWay es := by
  rw [latencyMeasured, portOf_modPort_self]

theorem latencyMeasured_state : (portOf (latencyMeasured s w p es fg left) w p.val).state = (portOf s w p.val).state := by
  have hsent := (sendsFlits_sendRequests (latencyTaken s w p fg left) w p (portOf s w p.val).lanes es).port w p.val
  rw [latencyMeasured, portOf_modPort_self]
  refine (Port.state_of_besides hsent).trans ?_
  rw [portOf_congr (latencyTaken_ports ..), portOf_modPort_self]

theorem portOf_sendRequests_of_ne (a : State) (lanes : BitVec 8) {v : Wing} {q : Nat} (h : portNum v q ≠ portNum w p.val) :
    portOf (sendRequests a w p lanes es) v q = portOf a v q := by
  unfold sendRequests
  induction es generalizing a with
  | nil => rfl
  | cons e es ih => rw [List.foldl_cons, ih, portOf_sendTrain_of_ne _ _ h]

theorem portOf_latencyMeasured_of_ne {v : Wing} {q : Nat} (h : portNum v q ≠ portNum w p.val) :
    portOf (latencyMeasured s w p es fg left) v q = portOf s v q := by
  rw [latencyMeasured, portOf_modPort_of_ne _ _ h, portOf_sendRequests_of_ne _ _ _ _ _ h, portOf_congr (latencyTaken_ports ..),
    portOf_modPort_of_ne _ _ h]

/-- R555: a forced slot of a port is counted, and the requests count other things. -/
theorem ctr_latencyMeasured : (ctr (latencyMeasured s w p es true left) (blkLnk w) (portCtr p.val 0x50)).toNat =
    min (2 ^ 64 - 1) ((ctr s (blkLnk w) (portCtr p.val 0x50)).toNat + 1) := by
  have hoff : countsFlits (portCtr p.val 0x50) = false := (by decide : ∀ p : Fin 6, countsFlits (portCtr p.val 0x50) = false) p
  rw [latencyMeasured, (State_modPort_touch ..).ctr_lnk rfl, (sendsFlits_sendRequests ..).counters w _ hoff, latencyTaken, if_pos rfl, ctr_calForced_lnk, (State_modPort_touch ..).ctr_lnk rfl]

theorem exec_calibrationSlot_latency (hscheduled : slotsScheduled s w = true) (hleft : 1 ≤ left) (hup : linkUp s (.port w p) = true)
    (hdue : (itemOf (portOf s w p.val).cal 8).done = 0) (htaken : fg = false ∨ left = 1) :
    exec (.calibrationSlot (.latency w p es) fg left) s = .next (latencyMeasured s w p es fg left) := by
  have hslot : slotTaken fg left (1 - (itemOf (portOf s w p.val).cal 8).done) = (true, fg) := by
    rw [hdue]
    rcases htaken with rfl | rfl
    · exact slotTaken_idle one_ne_zero
    · cases fg <;> rfl
  refine congrArg Host.Outcome.next ((if_neg (by omega)).trans ?_)
  dsimp only
  rw [if_pos (by rw [hscheduled, hup]; rfl)]
  simp only [calPort, hslot, if_true]
  rfl

end

/-! ### Bundles and pseudo-channels (R450, R554) -/

theorem calBundle_cc_touch (s : State) (b : Nat) (fg : Bool) (left : Nat) : Touch 0x801f0000 s (calBundle s b fg left) := by
  unfold calBundle
  dsimp only
  split
  · exact Touch.step (addCtr_touch_lnk ..) rfl (Touch.step (calForced_lnk_touch ..) rfl ((touch_cc s).weaken rfl))
  · exact (touch_cc s).weaken rfl

theorem Touch.slotOfBundle {s t : State} (h : Touch 0x801f0000 s t) :
    OnlyChanges [.cc, .lnkCtrs, .hifCtrs, .logs, .pages, .hostOut] s t := h.onlyChanges_of_cells rfl fun p => by cases p <;> decide

theorem Touch.slotOfMemory {s t : State} (h : Touch 0x881c0010 s t) :
    OnlyChanges [.tmem, .power, .hifCtrs, .logs, .pages, .hostOut] s t := h.onlyChanges_of_cells rfl fun p => by cases p <;> decide

/-- A slot that touches memory after its stack woke (R535). -/
theorem Touch.afterWake {s u : State} {t : Tile} {pc : Nat} (h : Touch 0x801c0010 (execCalibrationSlot.wakePcOf s t pc) u) :
    OnlyChanges [.tmem, .power, .hifCtrs, .logs, .pages, .hostOut] s u :=
  (Touch.step h rfl ((execCalibrationSlot_wakePcOf_touch s t pc).weaken rfl)).slotOfMemory

/-! ### Migration (R550, R551) -/

/-- Whether a frame stays once more granules have moved: none of its write-backs was stuck, or its page waits for another. -/
def frameStays (t : Tile) (m : TileMem) (f : Nat × Frame) : Bool :=
  !(f.2.stuck == some m.retiredPc && !pageWaits t m.retiredPc m.movePos f.2.page)

theorem releaseStuck_get (s : State) (t : Tile) : (releaseStuck s t).tmem.get t =
    { s.tmem.get t with frames := (s.tmem.get t).frames.filter (frameStays t (s.tmem.get t)) } := by
  rw [releaseStuck, modMem_get]
  rfl

/-- One more granule of a tile redirected. -/
def granuleMoved (s : State) (t : Tile) : State := releaseStuck (s.modMem t fun m => { m with movePos := m.movePos + 1 }) t

theorem granuleMoved_get (s : State) (t : Tile) : ∃ p : Nat × Frame → Bool, (∀ f, f.2.stuck = none → p f = true)
    ∧ (granuleMoved s t).tmem.get t =
      { s.tmem.get t with movePos := (s.tmem.get t).movePos + 1, frames := (s.tmem.get t).frames.filter p } := by
  refine ⟨frameStays t { s.tmem.get t with movePos := (s.tmem.get t).movePos + 1 }, fun f hf => ?_, ?_⟩
  · simp [frameStays, hf]
  · rw [granuleMoved, releaseStuck_get, modMem_get]

theorem granuleMoved_get_of_ne (s : State) {t k : Tile} (h : k ≠ t) : (granuleMoved s t).tmem.get k = s.tmem.get k :=
  (PerTile.get_modify_of_ne _ _ h).trans (PerTile.get_modify_of_ne _ _ h)

theorem granuleMoved_touch (s : State) (t : Tile) : Touch 0x10 s (granuleMoved s t) :=
  Touch.step (State_modMem_touch ..) rfl (State_modMem_touch ..)

/-- The migration of a tile done (R551). -/
def migrated (s : State) (t : Tile) : State :=
  raise (s.modMem t fun m =>
    { m with moving := false, used := true, frames := m.frames.filter fun f => !(f.2.stuck == some m.retiredPc) })
    0x0207 (s.tmem.get t).retiredPc (blkMem t)

theorem migrated_get (s : State) (t : Tile) : (migrated s t).tmem.get t =
    { s.tmem.get t with
      moving := false, used := true
      frames := (s.tmem.get t).frames.filter fun f => !(f.2.stuck == some (s.tmem.get t).retiredPc) } := by
  rw [migrated, raise_tmem, modMem_get]

theorem migrated_touch (s : State) (t : Tile) : Touch 0x801c0010 s (migrated s t) :=
  Touch.step (raise_touch ..) rfl ((State_modMem_touch ..).weaken rfl)

/-- R551: where a stacked address is served while its tile migrates. -/
theorem servedAt_moving {s : State} {a : Nat} (hstacked : isStacked a = true) (hused : (s.tmem.get (homeTile a)).used = false)
    (hmoving : (s.tmem.get (homeTile a)).moving = true) : servedAt s a =
    if (a - regionBase (homeTile a)) / 131072 < (s.tmem.get (homeTile a)).movePos ∧ pcOf a = (s.tmem.get (homeTile a)).retiredPc then
      migrationTarget (homeTile a) (s.tmem.get (homeTile a)).retiredPc ((a - regionBase (homeTile a)) / 131072) + a % 256
    else a := by
  unfold servedAt
  simp [hstacked, hused, hmoving]

theorem xor_lt_512 {x y : Nat} (hx : x < 512) (hy : y < 512) : x ^^^ y < 512 := Nat.xor_lt_two_pow (n := 9) hx hy

/-- R550: every target lies in the reserve, the last 2^30 bytes of the home region. -/
theorem migrationTarget_mem_reserve (t : Tile) {r n i : Nat} (hn : n < 4186112) (hi : i < 256) :
    reserveBase t ≤ migrationTarget t r n + i ∧ migrationTarget t r n + i < reserveBase t + 2 ^ 30 := by
  have hpc : (if n % 511 < r then n % 511 else n % 511 + 1) < 512 := by split <;> omega
  have hhash : ((if n % 511 < r then n % 511 else n % 511 + 1) ^^^ ((4186112 + n / 511) % 512)
      ^^^ ((4186112 + n / 511) / 512 % 512) ^^^ ((4186112 + n / 511) / 262144)) < 512 := by
    refine xor_lt_512 (xor_lt_512 (xor_lt_512 hpc (Nat.mod_lt _ (by decide))) (Nat.mod_lt _ (by decide))) ?_
    omega
  simp only [migrationTarget, reserveBase]
  omega

end Sys2Proof.Machine

namespace Sys2Proof
open Sys2Proof.Machine

/-- R554, R555: the slots of a pseudo-channel's calibration. -/
theorem calibrationSlot_pseudoChannel (s : State) (t : Tile) (pc : Fin 512) (fg : Bool) (left : Nat) (hup : memoryUp s = true)
    (hleft : 2 ≤ left) (hcanonical : Table.canonical {} (s.tmem.get t).cal = true) :
    let i := itemOf (s.tmem.get t).cal pc.val
    ∃ u, exec (.calibrationSlot (.pseudoChannel t pc) fg left) s = .next u
      ∧ (i.done < 32 → fg = false → itemOf (u.tmem.get t).cal pc.val = { i with done := i.done + 1 } ∧ u.hif = s.hif)
      ∧ ((32 ≤ i.done ∨ (fg = true ∧ 32 - i.done < left)) → itemOf (u.tmem.get t).cal pc.val = i ∧ u.hif = s.hif)
      ∧ (i.done < 32 → fg = true → left ≤ 32 - i.done →
          itemOf (u.tmem.get t).cal pc.val = { done := i.done + 1, forcedSeen := true }
          ∧ (ctr u (blkMem t) 0x0150).toNat = min (2 ^ 64 - 1) ((ctr s (blkMem t) 0x0150).toNat + 1))
      ∧ (∀ k, k ≠ pc.val → itemOf (u.tmem.get t).cal k = itemOf (s.tmem.get t).cal k)
      ∧ OnlyChanges [.tmem, .power, .hifCtrs, .logs, .pages, .hostOut] s u := by
  intro i
  have hwake := wakePcOf_tmem s t pc.val
  have hitem := fun k => itemOf_calPc (execCalibrationSlot.wakePcOf s t pc.val) t pc.val fg left (hwake.symm ▸ hcanonical) k
  have htaken : calTaken (execCalibrationSlot.wakePcOf s t pc.val) t pc.val fg left = slotTaken fg left (32 - i.done) := by
    rw [calTaken, hwake]
    rfl
  have hhif := calPc_hif (execCalibrationSlot.wakePcOf s t pc.val) t pc.val fg left
  have hctr := ctr_calPc (execCalibrationSlot.wakePcOf s t pc.val) t pc.val fg left
  rw [wakePcOf_hif] at hhif
  rw [ctr_mem_congr (congrArg (fun m => (m.get t).ctrs) hwake)] at hctr
  simp only [htaken, hwake, itemAfter_of_two_le hleft] at hitem hhif hctr
  refine ⟨_, congrArg Host.Outcome.next ((if_neg (by omega)).trans (if_pos hup)), fun hdue hidle => ?_, fun hdone => ?_,
    fun hdue hbusy hforced => ?_, fun k hk => (hitem k).trans (if_neg hk), (calPc_mem_touch ..).afterWake⟩
  · subst hidle
    rw [slotTaken_idle (Nat.sub_ne_zero_of_lt hdue)] at hitem hhif
    exact ⟨by rw [hitem, if_pos rfl, Bool.or_false]; rfl, hhif rfl⟩
  · rw [slotTaken_done (hdone.imp (fun h => Nat.sub_eq_zero_of_le h) id)] at hitem hhif
    exact ⟨by rw [hitem, if_pos rfl, Bool.or_false]; rfl, hhif rfl⟩
  · subst hbusy
    rw [slotTaken_forced (Nat.sub_ne_zero_of_lt hdue) hforced] at hitem hctr
    exact ⟨by rw [hitem, if_pos rfl, Bool.or_true]; rfl, hctr rfl⟩

/-- What a slot of a pseudo-channel comes to once its calibration is done, where more of its slots follow. -/
theorem exec_scrubSlot {s : State} {t : Tile} {pc : Fin 512} {left : Nat} (f : ScrubFinding) (hup : memoryUp s = true) (hleft : 2 ≤ left)
    (hcal : calUnits ≤ (itemOf (s.tmem.get t).cal pc.val).done) :
    exec (.scrubSlot t pc false left f) s = .next (match repairOf s t pc.val with
      | some r => repairTurn (execCalibrationSlot.wakePcOf s t pc.val) t r false left f
      | none => scrubTurn (execCalibrationSlot.wakePcOf s t pc.val) t pc.val false left f) := by
  have hwake := wakePcOf_tmem s t pc.val
  have hguard : (!memoryUp s || left == 0) = false := by rw [hup]; simp; omega
  have hfirst : calFirst (execCalibrationSlot.wakePcOf s t pc.val) t pc.val false left = false := by
    rw [calFirst, hwake, slotTaken_done (.inl (Nat.sub_eq_zero_of_le hcal))]
  have hrepair : repairOf (execCalibrationSlot.wakePcOf s t pc.val) t pc.val = repairOf s t pc.val := by rw [repairOf, repairOf, hwake]
  refine congrArg Host.Outcome.next ((if_neg (by rw [hguard]; decide)).trans ?_)
  dsimp only
  rw [if_neg (by omega), hfirst, hrepair]
  rfl

/-- R546, R549, R554: the scrub pass reads its next location. -/
theorem scrubSlot_pass (s : State) (t : Tile) (pc : Fin 512) (left : Nat) (f : ScrubFinding) (hup : memoryUp s = true) (hleft : 2 ≤ left)
    (hcal : calUnits ≤ (itemOf (s.tmem.get t).cal pc.val).done) :
    let i := itemOf (s.tmem.get t).scrub pc.val
    repairOf s t pc.val = none → i.done < scrubUnits → (f = .clean ∨ f = .correctable) → ∃ u,
      exec (.scrubSlot t pc false left f) s = .next u
      ∧ itemOf (u.tmem.get t).scrub pc.val = { i with done := i.done + 1 }
      ∧ (f = .clean → i.done + 1 < scrubUnits → u.hif = s.hif ∧ (u.tmem.get t).ctrs = (s.tmem.get t).ctrs
          ∧ (u.tmem.get t).repairs = (s.tmem.get t).repairs)
      ∧ (f = .correctable → (ctr u (blkMem t) 0x0138).toNat = min (2 ^ 64 - 1) ((ctr s (blkMem t) 0x0138).toNat + 1)
          ∧ (let seen := insertSorted (Table.get [] (s.tmem.get t).rowCe (rowKey pc.val (i.done / 4))) (4 * i.done)
             (seen.length = dictVal s 0x3031 0 → ∃ r ∈ (u.tmem.get t).repairs, r.pc = pc.val ∧ r.row = i.done / 4)
             ∧ (seen.length ≠ dictVal s 0x3031 0 → (u.tmem.get t).repairs = (s.tmem.get t).repairs)))
      ∧ (i.done + 1 = scrubUnits →
          (ctr u (blkMem t) 0x0148).toNat = min (2 ^ 64 - 1) ((ctr s (blkMem t) 0x0148).toNat + 1))
      ∧ OnlyChanges [.tmem, .power, .hifCtrs, .logs, .pages, .hostOut] s u := by
  intro i hnone hdue hfound
  have hwake := wakePcOf_tmem s t pc.val
  set a := passAdvanced (execCalibrationSlot.wakePcOf s t pc.val) t pc.val with ha
  have hscrub : itemOf (a.tmem.get t).scrub pc.val = { i with done := i.done + 1 } := by
    rw [ha, itemOf_passAdvanced, hwake]
    rfl
  have hrepairs : (a.tmem.get t).repairs = (s.tmem.get t).repairs := by rw [ha, repairs_passAdvanced, hwake]
  have hctrs : (a.tmem.get t).ctrs = (s.tmem.get t).ctrs := by rw [ha, ctrs_passAdvanced, hwake]
  have hexec := exec_scrubSlot f hup hleft hcal
  rw [hnone] at hexec
  dsimp only at hexec
  rw [scrubTurn_eq _ _ _ _ _ (by rwa [hwake]), hwake, ← ha] at hexec
  refine ⟨_, hexec, ?_⟩
  have hcounted : ∀ b : State, ctr b (blkMem t) 0x0148 = ctr s (blkMem t) 0x0148 → i.done + 1 = scrubUnits →
      (ctr (passCounted b t i.done) (blkMem t) 0x0148).toNat = min (2 ^ 64 - 1) ((ctr s (blkMem t) 0x0148).toNat + 1) :=
    fun b hb hlast => by rw [passCounted, if_pos hlast, ctr_addCtr_mem_self, hb]
  have htouch : Touch 0x801c0010 (execCalibrationSlot.wakePcOf s t pc.val) a := (passAdvanced_touch ..).weaken rfl
  rcases hfound with rfl | rfl
  · refine ⟨by rw [scrub_passCounted]; exact hscrub, fun _ hmore => ?_, nofun, hcounted a (ctr_mem_congr hctrs _),
      (Touch.step (passCounted_touch ..) rfl htouch).afterWake⟩
    rw [scrubFinds, passCounted, if_neg hmore.ne]
    exact ⟨wakePcOf_hif s t pc.val, hctrs, hrepairs⟩
  · have hseen : burstsSeen a t pc.val (i.done / 4) (4 * i.done) =
        insertSorted (Table.get [] (s.tmem.get t).rowCe (rowKey pc.val (i.done / 4))) (4 * i.done) := by
      rw [burstsSeen, ha, rowCe_passAdvanced, hwake]
    have hlimit : dictVal a 0x3031 0 = dictVal s 0x3031 0 := dictVal_congr (wakePcOf_cst s t pc.val) ..
    have hnone' : repairOf a t pc.val = none := by rwa [repairOf, hrepairs]
    have hother : ctr (correctedBurst a t pc.val (i.done / 4) (4 * i.done)) (blkMem t) 0x0148 = ctr s (blkMem t) 0x0148 := by
      rw [ctr_correctedBurst, ctr_addCtr_mem_of_ne a t (by decide), ctr_mem_congr hctrs]
    have hrepair := repair_correctedBurst a t pc.val (i.done / 4) (4 * i.done) hnone'
    have hkeep := repairs_correctedBurst a t pc.val (i.done / 4) (4 * i.done)
    rw [hseen, hlimit] at hrepair hkeep
    refine ⟨by rw [scrub_passCounted, scrubFinds, scrub_correctedBurst]; exact hscrub, nofun, fun _ => ⟨?_, ?_⟩, hcounted _ hother,
      (Touch.step (passCounted_touch ..) rfl (Touch.step (correctedBurst_touch ..) rfl htouch)).afterWake⟩
    · rw [ctr_passCounted_of_ne _ _ _ (by decide), scrubFinds, ctr_correctedBurst, ctr_addCtr_mem_self, ctr_mem_congr hctrs]
    · rw [repairs_passCounted]
      exact ⟨hrepair, fun h => (hkeep h).trans hrepairs⟩

/-- R549: a row repair goes before the scrub pass. -/
theorem scrubSlot_repair (s : State) (t : Tile) (pc : Fin 512) (left : Nat) (f : ScrubFinding) (hup : memoryUp s = true) (hleft : 2 ≤ left)
    (hcal : calUnits ≤ (itemOf (s.tmem.get t).cal pc.val).done) (r : RowRepair) (hr : repairOf s t pc.val = some r) (hclean : f = .clean) :
    ∃ u, exec (.scrubSlot t pc false left f) s = .next u
      ∧ (2 ≤ r.unitsLeft → repairOf u t pc.val = some { r with unitsLeft := r.unitsLeft - 1 })
      ∧ (r.unitsLeft = 1 → (∀ x ∈ (u.tmem.get t).repairs, ¬ (x.pc = r.pc ∧ x.row = r.row))
          ∧ (ctr u (blkMem t) 0x0140).toNat = min (2 ^ 64 - 1) ((ctr s (blkMem t) 0x0140).toNat + 1))
      ∧ (u.tmem.get t).scrub = (s.tmem.get t).scrub
      ∧ OnlyChanges [.tmem, .power, .hifCtrs, .logs, .pages, .hostOut] s u := by
  subst hclean
  have hexec := exec_scrubSlot .clean hup hleft hcal
  rw [hr] at hexec
  dsimp only at hexec
  refine ⟨_, hexec, ?_⟩
  have hwake := wakePcOf_tmem s t pc.val
  set a := execCalibrationSlot.wakePcOf s t pc.val with ha
  obtain hunits | hunits | hunits : r.unitsLeft = 0 ∨ r.unitsLeft = 1 ∨ 2 ≤ r.unitsLeft := by omega
  · have hstays : repairTurn a t r false left .clean = a := by
      rw [repairTurn, slotTaken_done (.inl hunits)]
      rfl
    rw [hstays]
    exact ⟨fun h => by omega, fun h => by omega, by rw [hwake], Touch.afterWake (.weaken (.refl a (m := 0)) rfl)⟩
  · rw [repairTurn_clean a t r left (by omega), repairUnit_last a t r hunits]
    refine ⟨fun h => by omega, fun _ => ⟨?_, ?_⟩, ?_,
      Touch.afterWake (Touch.step (raise_touch ..) rfl (Touch.step (addCtr_touch_mem ..) rfl ((State_modMem_touch ..).weaken rfl)))⟩
    · rw [raise_tmem, repairs_addCtr_mem, modMem_get]
      intro x hx
      have hother := (List.mem_filter.1 hx).2
      simpa only [isOther, Bool.not_eq_true', Bool.and_eq_false_iff, beq_eq_false_iff_ne, ← not_and_or] using hother
    · rw [ctr_mem_raise, ctr_addCtr_mem_self, ctr_mem_congr (s := s) (by rw [modMem_get, hwake])]
    · rw [raise_tmem, scrub_addCtr_mem, modMem_get, hwake]
  · rw [repairTurn_clean a t r left (by omega)]
    have hr' : repairOf a t pc.val = some r := by rw [repairOf, hwake]; exact hr
    refine ⟨repairOf_repairUnit a t r hr', fun h => by omega, ?_, ?_⟩
    · rw [repairUnit_more a t r hunits, modMem_get, hwake]
    · rw [repairUnit_more a t r hunits]
      exact Touch.afterWake ((State_modMem_touch ..).weaken rfl)

/-- Settles O41: calibration, scrub and repair slots follow R555's choice of the slot; each migration step is read off the tile. -/
theorem upkeepSlots : Obligations.UpkeepSlots := by
  unfold Obligations.UpkeepSlots
  refine ⟨⟨calibrationSlot_pseudoChannel, fun s w p lane es fg left hscheduled hleft hup => ⟨fun hlane => ?_, fun hlane => ?_,
      fun hdue htaken => ?_⟩, fun s b fg left hleft heast hwest hup hactive => ⟨?_, (calBundle_cc_touch ..).slotOfBundle⟩⟩,
    fun s t pc left f hup hleft hcal => ⟨scrubSlot_pass s t pc left f hup hleft hcal, scrubSlot_repair s t pc left f hup hleft hcal⟩,
    fun s t => ⟨fun hmoving hpos => ?_, fun hstill => ⟨?_, ?_⟩, fun hmoving hpos => ?_, fun a hstacked hhome hused hmoving => ?_,
      fun r n i _ hn hi => migrationTarget_mem_reserve t hn hi⟩⟩
  · exact congrArg Host.Outcome.next ((if_neg (by omega)).trans (if_pos (by rw [hscheduled, hup, hlane]; rfl)))
  · exact congrArg Host.Outcome.next ((if_neg (by omega)).trans (if_neg (by rw [hlane]; simp)))
  · refine ⟨_, exec_calibrationSlot_latency s w p es fg left hscheduled hleft hup hdue htaken, latencyMeasured_lat .., ?_,
      fun v q => portOf_latencyMeasured_of_ne s w p es fg left, fun hforced => ?_, (latencyMeasured_touch ..).portFlits⟩
    · exact (latencyMeasured_state ..).trans (eq_of_beq hup)
    · subst hforced
      exact ctr_latencyMeasured ..
  · exact congrArg Host.Outcome.next ((if_neg (by omega)).trans (if_pos (by rw [heast, hwest, hup, hactive]; rfl)))
  · obtain ⟨p, hfree, hget⟩ := granuleMoved_get s t
    refine ⟨granuleMoved s t, congrArg Host.Outcome.next (if_pos ⟨hmoving, hpos⟩), ?_⟩
    rw [hget]
    exact ⟨rfl, hmoving, fun f hf => (List.mem_filter.1 hf).1, fun f hf hstuck => List.mem_filter.2 ⟨hf, hfree f hstuck⟩,
      fun k hk => granuleMoved_get_of_ne s hk, (granuleMoved_touch s t).onlyChanges_of_cells rfl fun p => by cases p <;> decide⟩
  · exact congrArg Host.Outcome.next (if_neg fun h => by rw [hstill] at h; cases h.1)
  · exact congrArg Host.Outcome.next (if_neg fun h => by rw [hstill] at h; cases h.1)
  · refine ⟨migrated s t, congrArg Host.Outcome.next (if_pos ⟨hmoving, hpos⟩), ?_⟩
    rw [migrated_get]
    refine ⟨rfl, rfl, rfl, fun f => ?_, (migrated_touch s t).onlyChanges_of_cells rfl fun p => by cases p <;> decide⟩
    simp
  · subst hhome
    intro n
    have hserved := servedAt_moving hstacked hused hmoving
    refine ⟨fun hpc => ?_, fun hpc hlate => ?_, fun hpc hearly => ?_⟩
    · rw [hserved, if_neg fun h => hpc h.2]
    · rw [hserved, if_neg fun h => hlate.not_gt h.1]
    · rw [hserved, if_pos ⟨hearly, hpc⟩, hpc]

end Sys2Proof
end

section
/-!
PROOF. The block's step (the model's own queue and numbers, assumption log 2): every command answers a next state and leaves the
commands behind it in the queue.
-/

namespace Sys2Proof.Machine

/-! ### Commands that answer by cases -/

/-- A meaning answers a next state. -/
def Answers (o : Host.Outcome State Fault Refusal) : Prop := ∃ t, o = .next t

theorem Answers.next (t : State) : Answers (.next t) := ⟨t, rfl⟩

theorem Answers.ite {x y : Host.Outcome State Fault Refusal} {c : Prop} [Decidable c] (hx : Answers x) (hy : Answers y) :
    Answers (if c then x else y) := by
  split
  · exact hx
  · exact hy

theorem execSubmissionEntryFetch_answers (f : Func) (r : Fin 64) (entry : Entry) (s : State) : Answers (execSubmissionEntryFetch f r entry s) :=
  Answers.ite (Answers.next _) (Answers.next _)

theorem execCompletionWriteRefused_answers (f : Func) (r : Fin 64) (s : State) : Answers (execCompletionWriteRefused f r s) :=
  Answers.ite (Answers.next _) (Answers.next _)

theorem execMsixCoalDelayExpiry_answers (f : Func) (r : Fin 64) (s : State) : Answers (execMsixCoalDelayExpiry f r s) :=
  Answers.ite (Answers.next _) (Answers.next _)

theorem execSwapNotice_answers (u : PinUnit) (i : Instance) (s : State) : Answers (execSwapNotice u i s) := by
  unfold execSwapNotice
  repeat' split
  all_goals exact Answers.next _

theorem execEditionSwapComplete_answers (i : Instance) (s : State) : Answers (execEditionSwapComplete i s) := by
  unfold execEditionSwapComplete
  repeat' split
  all_goals exact Answers.next _

theorem execPartConfigDrainDone_answers (s : State) : Answers (execPartConfigDrainDone s) := by
  unfold execPartConfigDrainDone
  repeat' split
  case h_1 => exact Answers.ite (Answers.next _) (Answers.next _)
  all_goals exact Answers.next _

theorem execMapInvalidateDone_answers (f : Func) (r : Fin 64) (s : State) : Answers (execMapInvalidateDone f r s) := by
  unfold execMapInvalidateDone
  repeat' split
  all_goals exact Answers.next _

theorem execStackedAccessLate_answers (pa : BitVec 48) (m : Maker) (s : State) : Answers (execStackedAccessLate pa m s) :=
  Answers.ite (Answers.next _) (Answers.next _)

theorem execUncorrectableRead_answers (pa : BitVec 48) (m : Maker) (s : State) : Answers (execUncorrectableRead pa m s) :=
  Answers.ite (Answers.next _) (Answers.next _)

theorem execWriteBackStuck_answers (t : Tile) (frame : Fin 1600) (pc : Fin 512) (s : State) : Answers (execWriteBackStuck t frame pc s) := by
  unfold execWriteBackStuck
  repeat' split
  all_goals exact Answers.next _

theorem execHostCxlMemAccess_answers (dpa : BitVec 41) (len : Fin 65) (write : Option (List Byte)) (s : State) :
    Answers (execHostCxlMemAccess dpa len write s) := Answers.ite (Answers.next _) (Answers.next _)

theorem execPartitionWindowAccess_answers (part : Fin 16) (offset : BitVec 36) (len : Fin 65) (write : Option (List Byte)) (s : State) :
    Answers (execPartitionWindowAccess part offset len write s) := Answers.ite (Answers.next _) (Answers.next _)

theorem execPartialArrival_answers (id : Nat) (group : Fin 64) (part : Fin 336) (rowTile : Nat) (s : State) :
    Answers (execPartialArrival id group part rowTile s) := by
  unfold execPartialArrival
  repeat' split
  all_goals exact Answers.next _

theorem execSidingClose_answers (f : Func) (r : Fin 64) (s : State) : Answers (execSidingClose f r s) := by
  unfold execSidingClose
  repeat' split
  all_goals exact Answers.next _

theorem execStageLoadResume_answers (id : Nat) (s : State) : Answers (execStageLoadResume id s) := by
  unfold execStageLoadResume
  repeat' split
  all_goals exact Answers.next _

/-! ### The queue -/

/-- A meaning answers a next state with the same commands waiting. -/
def KeepsQueue (s : State) (o : Host.Outcome State Fault Refusal) : Prop := ∃ t, o = .next t ∧ t.pending = s.pending

theorem keepsQueue_of_touch {m : Nat} {s : State} {o : Host.Outcome State Fault Refusal} (h : TouchNext m s o)
    (hm : m.testBit StatePart.pending.idx = false) (ho : Answers o) : KeepsQueue s o := by
  obtain ⟨t, ht⟩ := ho
  exact ⟨t, ht, (h t ht).eq .pending hm⟩

/-- Every command answers a next state and leaves the commands behind it. -/
theorem exec_keepsQueue (c : Instr) (s : State) : KeepsQueue s (exec c s) := by
  cases c with
  | sqTailDoorbell f r v => exact keepsQueue_of_touch (execSqTailDoorbell_touch f r v s) rfl ⟨_, rfl⟩
  | cqHeadDoorbell f r v => exact keepsQueue_of_touch (execCqHeadDoorbell_touch f r v s) rfl ⟨_, rfl⟩
  | ringEnable f r cfg => exact keepsQueue_of_touch (execRingEnable_touch f r cfg s) rfl ⟨_, rfl⟩
  | ringDisable f r cfg => exact keepsQueue_of_touch (execRingDisable_touch f r cfg s) rfl ⟨_, rfl⟩
  | ringDrainDone f r => exact keepsQueue_of_touch (execRingDrainDone_touch f r s) rfl ⟨_, rfl⟩
  | submissionEntryFetch f r entry => exact keepsQueue_of_touch (execSubmissionEntryFetch_touch f r entry s) rfl (execSubmissionEntryFetch_answers f r entry s)
  | submissionFetchFailed f r => exact keepsQueue_of_touch (execSubmissionFetchFailed_touch f r s) rfl ⟨_, rfl⟩
  | completionWriteRefused f r => exact keepsQueue_of_touch (execCompletionWriteRefused_touch f r s) rfl (execCompletionWriteRefused_answers f r s)
  | msixCoalDelayExpiry f r => exact keepsQueue_of_touch (execMsixCoalDelayExpiry_touch f r s) rfl (execMsixCoalDelayExpiry_answers f r s)
  | loopTask f r => exact keepsQueue_of_touch (execLoopTask_touch f r s) rfl ⟨_, rfl⟩
  | chainTaskForward f r => exact keepsQueue_of_touch (execChainTaskForward_touch f r s) rfl ⟨_, rfl⟩
  | chainTaskBackward f r => exact keepsQueue_of_touch (execChainTaskBackward_touch f r s) rfl ⟨_, rfl⟩
  | streamStage f r => exact keepsQueue_of_touch (execStreamStage_touch f r s) rfl ⟨_, rfl⟩
  | collectiveBroadcast f r => exact keepsQueue_of_touch (execCollectiveBroadcast_touch f r s) rfl ⟨_, rfl⟩
  | collectiveReduce f r => exact keepsQueue_of_touch (execCollectiveReduce_touch f r s) rfl ⟨_, rfl⟩
  | catalogueQuery f r => exact keepsQueue_of_touch (execCatalogueQuery_touch f r s) rfl ⟨_, rfl⟩
  | catalogueMerge f r => exact keepsQueue_of_touch (execCatalogueMerge_touch f r s) rfl ⟨_, rfl⟩
  | moveCopy f r => exact keepsQueue_of_touch (execMoveCopy_touch f r s) rfl ⟨_, rfl⟩
  | moveMigrateIn f r => exact keepsQueue_of_touch (execMoveMigrateIn_touch f r s) rfl ⟨_, rfl⟩
  | moveFlush f r => exact keepsQueue_of_touch (execMoveFlush_touch f r s) rfl ⟨_, rfl⟩
  | moveCompress f r => exact keepsQueue_of_touch (execMoveCompress_touch f r s) rfl ⟨_, rfl⟩
  | moveDecompress f r => exact keepsQueue_of_touch (execMoveDecompress_touch f r s) rfl ⟨_, rfl⟩
  | moveStageLoad f r => exact keepsQueue_of_touch (execMoveStageLoad_touch f r s) rfl ⟨_, rfl⟩
  | moveRelease f r => exact keepsQueue_of_touch (execMoveRelease_touch f r s) rfl ⟨_, rfl⟩
  | moveScheduleStart f r => exact keepsQueue_of_touch (execMoveScheduleStart_touch f r s) rfl ⟨_, rfl⟩
  | moveScheduleStop f r => exact keepsQueue_of_touch (execMoveScheduleStop_touch f r s) rfl ⟨_, rfl⟩
  | taskDispatch id t => exact keepsQueue_of_touch (execTaskDispatch_touch id t s) rfl ⟨_, rfl⟩
  | taskEnd id => exact keepsQueue_of_touch (execTaskEnd_touch id s) rfl ⟨_, rfl⟩
  | taskFault id cause addr core => exact keepsQueue_of_touch (execTaskFault_touch id cause addr core s) rfl ⟨_, rfl⟩
  | taskStopDrained id => exact keepsQueue_of_touch (execTaskStopDrained_touch id s) rfl ⟨_, rfl⟩
  | editionSwap f r => exact keepsQueue_of_touch (execEditionSwap_touch f r s) rfl ⟨_, rfl⟩
  | swapNotice u target => exact keepsQueue_of_touch (execSwapNotice_touch u target s) rfl (execSwapNotice_answers u target s)
  | editionSwapComplete target => exact keepsQueue_of_touch (execEditionSwapComplete_touch target s) rfl (execEditionSwapComplete_answers target s)
  | partConfigDrainDone => exact keepsQueue_of_touch (execPartConfigDrainDone_touch s) rfl (execPartConfigDrainDone_answers s)
  | mapInvalidate f r => exact keepsQueue_of_touch (execMapInvalidate_touch f r s) rfl ⟨_, rfl⟩
  | mapInvalidateDone f r => exact keepsQueue_of_touch (execMapInvalidateDone_touch f r s) rfl (execMapInvalidateDone_answers f r s)
  | sidingOpen f r => exact keepsQueue_of_touch (execSidingOpen_touch f r s) rfl ⟨_, rfl⟩
  | sidingClose f r => exact keepsQueue_of_touch (execSidingClose_touch f r s) rfl (execSidingClose_answers f r s)
  | prefixLookup f r => exact keepsQueue_of_touch (execPrefixLookup_touch f r s) rfl ⟨_, rfl⟩
  | carSetStart f r => exact keepsQueue_of_touch (execCarSetStart_touch f r s) rfl ⟨_, rfl⟩
  | carSetStop f r => exact keepsQueue_of_touch (execCarSetStop_touch f r s) rfl ⟨_, rfl⟩
  | partitionResetCmd f r => exact keepsQueue_of_touch (execPartitionResetCmd_touch f r s) rfl ⟨_, rfl⟩
  | functionLevelReset part => exact keepsQueue_of_touch (execFunctionLevelReset_touch part s) rfl ⟨_, rfl⟩
  | pf0Reset how => exact keepsQueue_of_touch (execPf0Reset_touch how s) rfl ⟨_, rfl⟩
  | vfEnableClear => exact keepsQueue_of_touch (execVfEnableClear_touch s) rfl ⟨_, rfl⟩
  | partitionResetDone part => exact keepsQueue_of_touch (execPartitionResetDone_touch part s) rfl ⟨_, rfl⟩
  | windowedAccessMiss part va write id => exact keepsQueue_of_touch (execWindowedAccessMiss_touch part va write id s) rfl ⟨_, rfl⟩
  | demandFillComplete t frame => exact keepsQueue_of_touch (execDemandFillComplete_touch t frame s) rfl ⟨_, rfl⟩
  | decompressComplete t part va => exact keepsQueue_of_touch (execDecompressComplete_touch t part va s) rfl ⟨_, rfl⟩
  | stackedAccessLate pa m => exact keepsQueue_of_touch (execStackedAccessLate_touch pa m s) rfl (execStackedAccessLate_answers pa m s)
  | uncorrectableRead pa m => exact keepsQueue_of_touch (execUncorrectableRead_touch pa m s) rfl (execUncorrectableRead_answers pa m s)
  | writeBackStuck t frame pc => exact keepsQueue_of_touch (execWriteBackStuck_touch t frame pc s) rfl (execWriteBackStuck_answers t frame pc s)
  | stageLoadResume id => exact keepsQueue_of_touch (execStageLoadResume_touch id s) rfl (execStageLoadResume_answers id s)
  | scheduleNextLoad t part => exact keepsQueue_of_touch (execScheduleNextLoad_touch t part s) rfl ⟨_, rfl⟩
  | hostCxlMemAccess dpa len write => exact keepsQueue_of_touch (execHostCxlMemAccess_touch dpa len write s) rfl (execHostCxlMemAccess_answers dpa len write s)
  | partitionWindowAccess part offset len write => exact keepsQueue_of_touch (execPartitionWindowAccess_touch part offset len write s) rfl (execPartitionWindowAccess_answers part offset len write s)
  | phaseChange id core phase => exact keepsQueue_of_touch (execPhaseChange_touch id core phase s) rfl ⟨_, rfl⟩
  | tileStepBegin id core => exact keepsQueue_of_touch (execTileStepBegin_touch id core s) rfl ⟨_, rfl⟩
  | multicastDelivery id d => exact keepsQueue_of_touch (execMulticastDelivery_touch id d s) rfl ⟨_, rfl⟩
  | intrudingAccessForced x => exact keepsQueue_of_touch (execIntrudingAccessForced_touch x s) rfl ⟨_, rfl⟩
  | partialArrival id group part rowTile => exact keepsQueue_of_touch (execPartialArrival_touch id group part rowTile s) rfl (execPartialArrival_answers id group part rowTile s)
  | stageHandleTake id binding => exact keepsQueue_of_touch (execStageHandleTake_touch id binding s) rfl ⟨_, rfl⟩
  | stageHandleAcquire id binding => exact keepsQueue_of_touch (execStageHandleAcquire_touch id binding s) rfl ⟨_, rfl⟩
  | stageIterationEnd id => exact keepsQueue_of_touch (execStageIterationEnd_touch id s) rfl ⟨_, rfl⟩
  | mergeHoldExpiry id core => exact keepsQueue_of_touch (execMergeHoldExpiry_touch id core s) rfl ⟨_, rfl⟩
  | deadlineCheck t => exact keepsQueue_of_touch (execDeadlineCheck_touch t s) rfl ⟨_, rfl⟩
  | stallCheck w => exact keepsQueue_of_touch (execStallCheck_touch w s) rfl ⟨_, rfl⟩
  | timetableTick w => exact keepsQueue_of_touch (execTimetableTick_touch w s) rfl ⟨_, rfl⟩
  | beatEmit w => exact keepsQueue_of_touch (execBeatEmit_touch w s) rfl ⟨_, rfl⟩
  | beatReceive w from_ beat slot frac => exact keepsQueue_of_touch (execBeatReceive_touch w from_ beat slot frac s) rfl ⟨_, rfl⟩
  | masterListenExpiry => exact keepsQueue_of_touch (execMasterListenExpiry_touch s) rfl ⟨_, rfl⟩
  | beatLossTimeout w => exact keepsQueue_of_touch (execBeatLossTimeout_touch w s) rfl ⟨_, rfl⟩
  | backupTakeover => exact keepsQueue_of_touch (execBackupTakeover_touch s) rfl ⟨_, rfl⟩
  | barrierStart => exact keepsQueue_of_touch (execBarrierStart_touch s) rfl ⟨_, rfl⟩
  | arriveTokenReceive w token => exact keepsQueue_of_touch (execArriveTokenReceive_touch w token s) rfl ⟨_, rfl⟩
  | advanceTokenReceive w token => exact keepsQueue_of_touch (execAdvanceTokenReceive_touch w token s) rfl ⟨_, rfl⟩
  | reconfigWindowStart w => exact keepsQueue_of_touch (execReconfigWindowStart_touch w s) rfl ⟨_, rfl⟩
  | reconfigWindowEnd w => exact keepsQueue_of_touch (execReconfigWindowEnd_touch w s) rfl ⟨_, rfl⟩
  | carSetFirstTick w k => exact keepsQueue_of_touch (execCarSetFirstTick_touch w k s) rfl ⟨_, rfl⟩
  | carSendSlot w k step => exact keepsQueue_of_touch (execCarSendSlot_touch w k step s) rfl ⟨_, rfl⟩
  | carComputeSlot w k step car id => exact keepsQueue_of_touch (execCarComputeSlot_touch w k step car id s) rfl ⟨_, rfl⟩
  | carHeaderReceive w l hseq header => exact keepsQueue_of_touch (execCarHeaderReceive_touch w l hseq header s) rfl ⟨_, rfl⟩
  | abortNoticeReceive w l hseq header => exact keepsQueue_of_touch (execAbortNoticeReceive_touch w l hseq header s) rfl ⟨_, rfl⟩
  | carAnswerReceive l answer => exact keepsQueue_of_touch (execCarAnswerReceive_touch l answer s) rfl ⟨_, rfl⟩
  | carRetryBackoffExpiry w k step car => exact keepsQueue_of_touch (execCarRetryBackoffExpiry_touch w k step car s) rfl ⟨_, rfl⟩
  | carPatienceExpiry w k step car => exact keepsQueue_of_touch (execCarPatienceExpiry_touch w k step car s) rfl ⟨_, rfl⟩
  | carBodyReceived w k step car body => exact keepsQueue_of_touch (execCarBodyReceived_touch w k step car body s) rfl ⟨_, rfl⟩
  | carStepFree w k step => exact keepsQueue_of_touch (execCarStepFree_touch w k step s) rfl ⟨_, rfl⟩
  | flitReceive l flit uncorrectable r => exact keepsQueue_of_touch (execFlitReceive_touch l flit uncorrectable r s) rfl ⟨_, rfl⟩
  | nakReceive l ack => exact keepsQueue_of_touch (execNakReceive_touch l ack s) rfl ⟨_, rfl⟩
  | ackTimeoutReplay l => exact keepsQueue_of_touch (execAckTimeoutReplay_touch l s) rfl ⟨_, rfl⟩
  | nakResendTimeout l => exact keepsQueue_of_touch (execNakResendTimeout_touch l s) rfl ⟨_, rfl⟩
  | portSignalLoss w p => exact keepsQueue_of_touch (execPortSignalLoss_touch w p s) rfl ⟨_, rfl⟩
  | portSignalReturn w p => exact keepsQueue_of_touch (execPortSignalReturn_touch w p s) rfl ⟨_, rfl⟩
  | portTrainingDone w p record lanes fallback echoes => exact keepsQueue_of_touch (execPortTrainingDone_touch w p record lanes fallback echoes s) rfl ⟨_, rfl⟩
  | portTrainingFail w p step => exact keepsQueue_of_touch (execPortTrainingFail_touch w p step s) rfl ⟨_, rfl⟩
  | portTrainingRetry w p => exact keepsQueue_of_touch (execPortTrainingRetry_touch w p s) rfl ⟨_, rfl⟩
  | laneRetire w p lane => exact keepsQueue_of_touch (execLaneRetire_touch w p lane s) rfl ⟨_, rfl⟩
  | darkLimitExpiry w p => exact keepsQueue_of_touch (execDarkLimitExpiry_touch w p s) rfl ⟨_, rfl⟩
  | widen w p => exact keepsQueue_of_touch (execWiden_touch w p s) rfl ⟨_, rfl⟩
  | retrain w p => exact keepsQueue_of_touch (execRetrain_touch w p s) rfl ⟨_, rfl⟩
  | bundleRetire b => exact keepsQueue_of_touch (execBundleRetire_touch b s) rfl ⟨_, rfl⟩
  | concourseDown => exact keepsQueue_of_touch (execConcourseDown_touch s) rfl ⟨_, rfl⟩
  | concourseRetrainDone bundles => exact keepsQueue_of_touch (execConcourseRetrainDone_touch bundles s) rfl ⟨_, rfl⟩
  | calibrationSlot c foreground ownedLeft => exact keepsQueue_of_touch (execCalibrationSlot_touch c foreground ownedLeft s) rfl ⟨_, rfl⟩
  | scrubSlot t pc foreground ownedLeft finding => exact keepsQueue_of_touch (execScrubSlot_touch t pc foreground ownedLeft finding s) rfl ⟨_, rfl⟩
  | migrationGranuleMoved t => exact keepsQueue_of_touch (execMigrationGranuleMoved_touch t s) rfl ⟨_, rfl⟩
  | migrationDone t => exact keepsQueue_of_touch (execMigrationDone_touch t s) rfl ⟨_, rfl⟩
  | coreTest t n => exact keepsQueue_of_touch (execCoreTest_touch t n s) rfl ⟨_, rfl⟩
  | coreTestFail t n => exact keepsQueue_of_touch (execCoreTestFail_touch t n s) rfl ⟨_, rfl⟩
  | coreSpared t n => exact keepsQueue_of_touch (execCoreSpared_touch t n s) rfl ⟨_, rfl⟩
  | onchipUncorrectable at_ id => exact keepsQueue_of_touch (execOnchipUncorrectable_touch at_ id s) rfl ⟨_, rfl⟩
  | jnCountMessage w r member signature count capacity partials => exact keepsQueue_of_touch (execJnCountMessage_touch w r member signature count capacity partials s) rfl ⟨_, rfl⟩
  | jnGoMessage w r n => exact keepsQueue_of_touch (execJnGoMessage_touch w r n s) rfl ⟨_, rfl⟩
  | jnChunkArrival w r member core chunk data residueFails => exact keepsQueue_of_touch (execJnChunkArrival_touch w r member core chunk data residueFails s) rfl ⟨_, rfl⟩
  | jnRerunMessage w k => exact keepsQueue_of_touch (execJnRerunMessage_touch w k s) rfl ⟨_, rfl⟩
  | jnCompletionToken w k n flags => exact keepsQueue_of_touch (execJnCompletionToken_touch w k n flags s) rfl ⟨_, rfl⟩
  | jnAbortMessage w k cause => exact keepsQueue_of_touch (execJnAbortMessage_touch w k cause s) rfl ⟨_, rfl⟩
  | jnWaitLimitExpiry w k lost => exact keepsQueue_of_touch (execJnWaitLimitExpiry_touch w k lost s) rfl ⟨_, rfl⟩
  | jnLossNotice w group member => exact keepsQueue_of_touch (execJnLossNotice_touch w group member s) rfl ⟨_, rfl⟩
  | retireQueueRead t => exact keepsQueue_of_touch (execRetireQueueRead_touch t s) rfl ⟨_, rfl⟩
  | counterLoRead block offset => exact keepsQueue_of_touch (execCounterLoRead_touch block offset s) rfl ⟨_, rfl⟩
  | ttCountLoRead w => exact keepsQueue_of_touch (execTtCountLoRead_touch w s) rfl ⟨_, rfl⟩
  | clogEntryRead => exact keepsQueue_of_touch (execClogEntryRead_touch s) rfl ⟨_, rfl⟩
  | latClr t n => exact keepsQueue_of_touch (execLatClr_touch t n s) rfl ⟨_, rfl⟩
  | confClr t n => exact keepsQueue_of_touch (execConfClr_touch t n s) rfl ⟨_, rfl⟩
  | memFaultClr t => exact keepsQueue_of_touch (execMemFaultClr_touch t s) rfl ⟨_, rfl⟩
  | shapeClr t => exact keepsQueue_of_touch (execShapeClr_touch t s) rfl ⟨_, rfl⟩
  | dlClr t => exact keepsQueue_of_touch (execDlClr_touch t s) rfl ⟨_, rfl⟩
  | stallClr t => exact keepsQueue_of_touch (execStallClr_touch t s) rfl ⟨_, rfl⟩
  | heldClr t => exact keepsQueue_of_touch (execHeldClr_touch t s) rfl ⟨_, rfl⟩
  | labFlush t => exact keepsQueue_of_touch (execLabFlush_touch t s) rfl ⟨_, rfl⟩
  | pwFaultClr t => exact keepsQueue_of_touch (execPwFaultClr_touch t s) rfl ⟨_, rfl⟩
  | failClr w => exact keepsQueue_of_touch (execFailClr_touch w s) rfl ⟨_, rfl⟩
  | catFaultClr t => exact keepsQueue_of_touch (execCatFaultClr_touch t s) rfl ⟨_, rfl⟩
  | laneClr w => exact keepsQueue_of_touch (execLaneClr_touch w s) rfl ⟨_, rfl⟩
  | jnFaultClr w => exact keepsQueue_of_touch (execJnFaultClr_touch w s) rfl ⟨_, rfl⟩
  | eventQueueEnable v => exact keepsQueue_of_touch (execEventQueueEnable_touch v s) rfl ⟨_, rfl⟩
  | registerWrite x v => exact keepsQueue_of_touch (execRegisterWrite_touch x v s) rfl ⟨_, rfl⟩
  | mailboxGo deferred => exact keepsQueue_of_touch (execMailboxGo_touch deferred s) rfl ⟨_, rfl⟩
  | dapRead fd frame deferred => exact keepsQueue_of_touch (execDapRead_touch fd frame deferred s) rfl ⟨_, rfl⟩
  | dapWrite fd frame deferred => exact keepsQueue_of_touch (execDapWrite_touch fd frame deferred s) rfl ⟨_, rfl⟩
  | dapWriteInit fd frame deferred => exact keepsQueue_of_touch (execDapWriteInit_touch fd frame deferred s) rfl ⟨_, rfl⟩
  | dapSegment fd frame deferred => exact keepsQueue_of_touch (execDapSegment_touch fd frame deferred s) rfl ⟨_, rfl⟩
  | dapSegAck fd frame deferred => exact keepsQueue_of_touch (execDapSegAck_touch fd frame deferred s) rfl ⟨_, rfl⟩
  | dapAbort fd frame => exact keepsQueue_of_touch (execDapAbort_touch fd frame s) rfl ⟨_, rfl⟩
  | dapTransferTimeout p => exact keepsQueue_of_touch (execDapTransferTimeout_touch p s) rfl ⟨_, rfl⟩
  | dapStatusFrame => exact keepsQueue_of_touch (execDapStatusFrame_touch s) rfl ⟨_, rfl⟩
  | dictSave p key => exact keepsQueue_of_touch (execDictSave_touch p key s) rfl ⟨_, rfl⟩
  | dictDefaults p key => exact keepsQueue_of_touch (execDictDefaults_touch p key s) rfl ⟨_, rfl⟩
  | ctrClear p key => exact keepsQueue_of_touch (execCtrClear_touch p key s) rfl ⟨_, rfl⟩
  | stateCmdDepot p => exact keepsQueue_of_touch (execStateCmdDepot_touch p s) rfl ⟨_, rfl⟩
  | stateCmdShunt p => exact keepsQueue_of_touch (execStateCmdShunt_touch p s) rfl ⟨_, rfl⟩
  | stateCmdService p => exact keepsQueue_of_touch (execStateCmdService_touch p s) rfl ⟨_, rfl⟩
  | clearHalt p => exact keepsQueue_of_touch (execClearHalt_touch p s) rfl ⟨_, rfl⟩
  | shuntDrainExpiry => exact keepsQueue_of_touch (execShuntDrainExpiry_touch s) rfl ⟨_, rfl⟩
  | leavingServiceDrained => exact keepsQueue_of_touch (execLeavingServiceDrained_touch s) rfl ⟨_, rfl⟩
  | depotRailsDown => exact keepsQueue_of_touch (execDepotRailsDown_touch s) rfl ⟨_, rfl⟩
  | channelSample ch value ms => exact keepsQueue_of_touch (execChannelSample_touch ch value ms s) rfl ⟨_, rfl⟩
  | inputPowerOn strap => exact keepsQueue_of_touch (execInputPowerOn_touch strap s) rfl ⟨_, rfl⟩
  | inputPowerLoss => exact keepsQueue_of_touch (execInputPowerLoss_touch s) rfl ⟨_, rfl⟩
  | mainPowerLoss => exact keepsQueue_of_touch (execMainPowerLoss_touch s) rfl ⟨_, rfl⟩
  | inputRecovery => exact keepsQueue_of_touch (execInputRecovery_touch s) rfl ⟨_, rfl⟩
  | railPhaseLost w rail => exact keepsQueue_of_touch (execRailPhaseLost_touch w rail s) rfl ⟨_, rfl⟩
  | railOutOfRegulation w rail => exact keepsQueue_of_touch (execRailOutOfRegulation_touch w rail s) rfl ⟨_, rfl⟩
  | railInRegulation rail => exact keepsQueue_of_touch (execRailInRegulation_touch rail s) rfl ⟨_, rfl⟩
  | wakeFail how => exact keepsQueue_of_touch (execWakeFail_touch how s) rfl ⟨_, rfl⟩
  | wakeStepDone step found => exact keepsQueue_of_touch (execWakeStepDone_touch step found s) rfl ⟨_, rfl⟩
  | serviceEntry eastLanes westLanes => exact keepsQueue_of_touch (execServiceEntry_touch eastLanes westLanes s) rfl ⟨_, rfl⟩
  | perstDeassert => exact keepsQueue_of_touch (execPerstDeassert_touch s) rfl ⟨_, rfl⟩
  | perstAssert => exact keepsQueue_of_touch (execPerstAssert_touch s) rfl ⟨_, rfl⟩
  | clusterClockGate t row => exact keepsQueue_of_touch (execClusterClockGate_touch t row s) rfl ⟨_, rfl⟩
  | clusterRetention t row => exact keepsQueue_of_touch (execClusterRetention_touch t row s) rfl ⟨_, rfl⟩
  | clusterWakeDone t row => exact keepsQueue_of_touch (execClusterWakeDone_touch t row s) rfl ⟨_, rfl⟩
  | dvfsLoadWindow t row waited cycles => exact keepsQueue_of_touch (execDvfsLoadWindow_touch t row waited cycles s) rfl ⟨_, rfl⟩
  | thermalCapSample t row milliC => exact keepsQueue_of_touch (execThermalCapSample_touch t row milliC s) rfl ⟨_, rfl⟩
  | dvfsPointChangeDone t row => exact keepsQueue_of_touch (execDvfsPointChangeDone_touch t row s) rfl ⟨_, rfl⟩
  | pseudoChannelPowerDown t pc => exact keepsQueue_of_touch (execPseudoChannelPowerDown_touch t pc s) rfl ⟨_, rfl⟩
  | stackSelfRefreshEntry stack => exact keepsQueue_of_touch (execStackSelfRefreshEntry_touch stack s) rfl ⟨_, rfl⟩
  | configurationRequest f req => exact keepsQueue_of_touch (execConfigurationRequest_touch f req s) rfl ⟨_, rfl⟩
  | pcieLinkUp speed width flit cxl => exact keepsQueue_of_touch (execPcieLinkUp_touch speed width flit cxl s) rfl ⟨_, rfl⟩
  | stackRefreshDoubling stack milliC => exact keepsQueue_of_touch (execStackRefreshDoubling_touch stack milliC s) rfl ⟨_, rfl⟩
  | coreTestPass t r => exact keepsQueue_of_touch (execCoreTestPass_touch t r s) rfl ⟨_, rfl⟩

theorem idle_keepsQueue (s : State) : KeepsQueue s (idle s) := keepsQueue_of_touch (idle_touch s) rfl ⟨_, rfl⟩

theorem step_cons (s : State) (c : Instr) (rest : List Instr) (h : s.pending = c :: rest) :
    step s = exec c { s with pending := rest } := by
  rw [step, h]

theorem step_nil (s : State) (h : s.pending = []) : step s = idle s := by
  rw [step, h]

end Sys2Proof.Machine

namespace Sys2Proof

open Sys2Proof.Machine

/-- Settles O1: at reset memory lists nothing and no task is there. -/
theorem resetInv : Obligations.ResetInv := ⟨rfl, fun _ ht => absurd ht List.not_mem_nil⟩

/-- Settles O2, by the queue's front. -/
theorem stepRunsFront : Obligations.StepRunsFront := step_cons

/-- Settles O3: a step on an empty queue is idle, and any other takes the front and runs a command that leaves the rest. -/
theorem everyStepAnswers : Obligations.EveryStepAnswers := by
  unfold Obligations.EveryStepAnswers
  intro s
  cases hq : s.pending with
  | nil =>
    rw [step_nil s hq, List.tail_nil, ← hq]
    exact idle_keepsQueue s
  | cons c rest =>
    rw [step_cons s c rest hq]
    exact exec_keepsQueue c { s with pending := rest }

end Sys2Proof
end

section
/-!
PROOF. Statistics counters of every block (R557) and the event queue (R562): what a count leaves in its counter, and what an
event that is offered leaves in the queue.
-/

namespace Sys2Proof.Machine

/-! ### Counters of a block -/

theorem ctrTable_setCtrTable (s : State) {block : Nat} (c : Table Word64) (h : block < 25) :
    ctrTable (setCtrTable s block c) block = c := by
  interval_cases block <;> rfl

theorem ctr_setCtrTable_self (s : State) {block : Nat} (c : Table Word64) (off : Nat) (h : block < 25) :
    ctr (setCtrTable s block c) block off = Table.get 0 c off := by
  rw [ctr, ctrTable_setCtrTable s c h]

/-- A lost event counts in HIF_EV_LOST alone. -/
theorem get_ctrs_countLost (s : State) {off : Nat} (h : off ≠ offEvLost) :
    Table.get 0 (countLost s).hif.ctrs off = Table.get 0 s.hif.ctrs off :=
  Table.get_set_of_ne _ (sat64_succ_ne_zero _) h

theorem postEvent_ctrs {s t : State} {rec : BitVec 128} (h : postEvent s rec = some t) : t.hif.ctrs = s.hif.ctrs := by
  unfold postEvent at h
  dsimp only at h
  split at h
  · cases h
  · cases h
    split
    · exact sendMsix_hif_ctrs ..
    · rfl

theorem offerEvent_ctrs {s t : State} {w : Wing} {rec : BitVec 128} (h : offerEvent s w rec = some t) :
    t.hif.ctrs = s.hif.ctrs := by
  unfold offerEvent at h
  split at h
  · split at h
    · cases h
    · cases h; rfl
  · exact postEvent_ctrs h

theorem get_ctrs_loseEvent (s : State) {off : Nat} (h : off ≠ offEvLost) :
    Table.get 0 (loseEvent s).hif.ctrs off = Table.get 0 s.hif.ctrs off := by
  unfold loseEvent
  dsimp only
  split
  · cases ho : offerEvent (countLost s) .east (eventRecord (countLost s) 0x0901 offEvLost blkHif 0) with
    | none => rw [Option.getD_none, get_ctrs_countLost _ h, get_ctrs_countLost _ h]
    | some t => rw [Option.getD_some, offerEvent_ctrs ho, get_ctrs_countLost _ h]
  · exact get_ctrs_countLost _ h

theorem get_ctrs_raise (s : State) (ev data block part : Nat) {off : Nat} (h : off ≠ offEvLost) :
    Table.get 0 (raise s ev data block part).hif.ctrs off = Table.get 0 s.hif.ctrs off := by
  unfold raise
  split
  · rename_i ho
    rw [offerEvent_ctrs ho]
  · exact get_ctrs_loseEvent _ h

theorem ctr_hif (s : State) (off : Nat) : ctr s blkHif off = Table.get 0 s.hif.ctrs off := rfl

/-- An event counts in no counter but HIF_EV_LOST. -/
theorem ctr_raise (s : State) (ev data blk part : Nat) {block off : Nat} (h : ¬ (block = blkHif ∧ off = offEvLost)) :
    ctr (raise s ev data blk part) block off = ctr s block off := by
  by_cases hb : block = 16
  · subst hb
    exact get_ctrs_raise s ev data blk part fun ho => h ⟨rfl, ho⟩
  · simp [ctr, ctrTable, hb]

/-- R557: a counter that counts rises to its limit at most. -/
theorem ctr_addCtr_any (s : State) {block off n : Nat} (hb : block < 25) (h : ¬ (block = blkHif ∧ off = offEvLost))
    (hn : 1 ≤ n) : (ctr (addCtr s block off n) block off).toNat = min (2 ^ 64 - 1) ((ctr s block off).toNat + n) := by
  have hset : ctr (setCtrTable s block (Table.set 0 (ctrTable s block) off (sat64 ((ctr s block off).toNat + n)))) block off =
      sat64 ((ctr s block off).toNat + n) := by
    rw [ctr_setCtrTable_self s _ off hb, Table.get_set_self]
    intro h0
    have := congrArg BitVec.toNat h0
    rw [toNat_sat64] at this
    simp at this
    omega
  unfold addCtr
  dsimp only
  split
  · rw [ctr_raise _ _ _ _ _ h, hset, toNat_sat64]
  · rw [hset, toNat_sat64]

/-! ### The event queue -/

theorem raise_reaches (s : State) (ev data block part : Nat) (h : blockWing block = .east ∨ concourseUp s = true) :
    raise s ev data block part = (postEvent s (eventRecord s ev data block part)).getD (loseEvent s) := by
  have hoffer : offerEvent s (blockWing block) (eventRecord s ev data block part) =
      postEvent s (eventRecord s ev data block part) := by
    refine if_neg fun hw => ?_
    rcases h with h | h
    · rw [h] at hw; cases hw.1
    · rw [h] at hw; cases hw.2
  unfold raise
  rw [hoffer]
  cases postEvent s (eventRecord s ev data block part) <;> rfl

/-- A record written at the tail's slot of the event queue (R562). -/
def recordWritten (s : State) (rec : BitVec 128) : State :=
  let l := s.hif.logs
  ({ s with hostOut := s.hostOut ++ [HostWrite.event (l.evqBase.toNat + 16 * l.evqTail) (rec ||| (if l.evqPhase then 1 else 0))] }).modLogs
    fun l => { l with evqTail := (l.evqTail + 1) % 2 ^ l.evqSize
                      evqPhase := if (l.evqTail + 1) % 2 ^ l.evqSize = 0 then !l.evqPhase else l.evqPhase }

theorem postEvent_room {s : State} (rec : BitVec 128) (hen : s.hif.logs.evqEnable = true)
    (hroom : evqHeld s.hif.logs < 2 ^ s.hif.logs.evqSize - 1) :
    postEvent s rec = some (if evqHeld s.hif.logs = 0 then sendMsix (recordWritten s rec) .pf0 0 else recordWritten s rec) := by
  have hno : ¬ ((!s.hif.logs.evqEnable || decide (2 ^ s.hif.logs.evqSize - 1 ≤ evqHeld s.hif.logs)) = true) := by
    simp [hen, Nat.not_le.2 hroom]
  refine (if_neg hno).trans (congrArg some ?_)
  by_cases hempty : evqHeld s.hif.logs = 0
  · rw [if_pos hempty, if_pos (beq_iff_eq.2 hempty)]
    rfl
  · rw [if_neg hempty, if_neg fun h => hempty (beq_iff_eq.1 h)]
    rfl

theorem postEvent_full {s : State} (rec : BitVec 128)
    (h : s.hif.logs.evqEnable = false ∨ 2 ^ s.hif.logs.evqSize - 1 ≤ evqHeld s.hif.logs) : postEvent s rec = none := by
  refine if_pos ?_
  rcases h with h | h <;> simp [h]

theorem loseEvent_below {s : State} (h : (ctr s blkHif offEvLost).toNat + 1 < 2 ^ 64 - 1) :
    loseEvent s = { s with hif := { s.hif with
      logs := { s.hif.logs with ovf := true }
      ctrs := Table.set 0 s.hif.ctrs offEvLost (ctr s blkHif offEvLost + 1) } } := by
  have hsat : sat64 ((ctr s blkHif offEvLost).toNat + 1) = ctr s blkHif offEvLost + 1 := by
    apply BitVec.eq_of_toNat_eq
    rw [toNat_sat64, BitVec.toNat_add]
    simp at h ⊢
    omega
  rw [← hsat]
  exact if_neg (Nat.ne_of_lt h)

/-- A message sent is written to the host where its vector stands unmasked and the function is a bus master (R477, R478). -/
theorem sendMsix_sent {s : State} {f : Func} {v : Nat} (hv : v < msixSize f) (hm : msixMasked (pageOf s f) v = false)
    (hb : (pageOf s f).busMaster = true) : sendMsix s f v = { s with hostOut := s.hostOut ++ [HostWrite.msix f v] } := by
  simp [sendMsix, Nat.not_le.2 hv, hm, hb]

/-- Any other message stays pending. -/
theorem sendMsix_pends {s : State} {f : Func} {v : Nat} (hv : v < msixSize f)
    (h : msixMasked (pageOf s f) v = true ∨ (pageOf s f).busMaster = false) :
    (sendMsix s f v).hostOut = s.hostOut ∧ msixPending (pageOf (sendMsix s f v) f) v = true := by
  have hsend : sendMsix s f v = s.modPage f fun p =>
      { p with pba := Table.set 0 p.pba (v / 32) (Table.get 0 p.pba (v / 32) ||| BitVec.ofNat 32 (2 ^ (v % 32))) } := by
    rcases h with h | h <;> simp [sendMsix, Nat.not_le.2 hv, h]
  rw [hsend]
  refine ⟨rfl, ?_⟩
  have hbit : (Table.get 0 (pageOf s f).pba (v / 32) ||| BitVec.ofNat 32 (2 ^ (v % 32))).getLsbD (v % 32) = true := by
    have : v % 32 < 32 := Nat.mod_lt _ (by decide)
    rw [BitVec.getLsbD_or, BitVec.getLsbD_ofNat, Nat.testBit_two_pow_self, decide_eq_true this, Bool.and_self, Bool.or_true]
  rw [pageOf_modPage_self]
  unfold msixPending
  rw [Table.get_set_self, hbit]
  intro h0
  rw [h0] at hbit
  simp at hbit

theorem hostOut_sendMsix {s : State} {f : Func} {v : Nat} (hv : v < msixSize f) : (sendMsix s f v).hostOut =
    s.hostOut ++ if msixMasked (pageOf s f) v = false ∧ (pageOf s f).busMaster = true then [HostWrite.msix f v] else [] := by
  split
  · rename_i h
    rw [sendMsix_sent hv h.1 h.2]
  · rename_i h
    rw [(sendMsix_pends hv (by simpa [Classical.or_iff_not_imp_left] using h)).1, List.append_nil]

end Sys2Proof.Machine

namespace Sys2Proof

open Sys2Proof.Machine

/-- Settles O5: a counter is set and its saturation raised in one place, and a record is either written or lost. -/
theorem countersAndEvents : Obligations.CountersAndEvents := by
  unfold Obligations.CountersAndEvents
  refine ⟨fun s block off n hb hne hn => ⟨ctr_addCtr_any s hb hne hn, fun hsat => ?_, fun hsat => ?_⟩,
    fun s ev data block part hreach => ⟨fun hen hroom => ?_, fun hfull hcount => ?_⟩⟩
  · refine (if_pos hsat).trans ?_
    rw [sat64, Nat.min_eq_right hsat.2]
  · refine (if_neg hsat).trans ?_
    rw [sat64, Nat.min_comm]
  · rw [raise_reaches s ev data block part hreach, postEvent_room _ hen hroom, Option.getD_some]
    by_cases hempty : evqHeld s.hif.logs = 0
    · rw [if_pos hempty]
      refine ⟨by rw [sendMsix_hif_logs]; rfl, by rw [sendMsix_hif_logs]; rfl, by rw [sendMsix_hif_ctrs]; rfl, ?_,
        fun _ hpend => (sendMsix_pends (s := recordWritten s (eventRecord s ev data block part)) (by decide) hpend).2⟩
      rw [hostOut_sendMsix (by decide)]
      simp only [hempty, true_and]
      exact List.append_assoc ..
    · rw [if_neg hempty]
      simp only [hempty, false_and, if_false, false_implies, and_true]
      exact ⟨rfl, rfl, rfl, rfl⟩
  · rw [raise_reaches s ev data block part hreach, postEvent_full _ hfull, Option.getD_none, loseEvent_below hcount]

end Sys2Proof
end

section
/-!
PROOF. Rings (R471 to R478): what one change of a ring leaves, doorbells, enabling and draining, fetching, and messages.
-/

namespace Sys2Proof.Machine

/-! ### One ring changed -/

theorem ringOf_modRing_of_ne (s : State) {f g : Func} {r q : Nat} (h : Ring → Ring) (hk : ringKey g q ≠ ringKey f r) :
    ringOf (s.modRing f r h) g q = ringOf s g q := by rw [ringOf_modRing, if_neg hk]

theorem ringOf_congr {s t : State} (h : t.hif.rings = s.hif.rings) (f : Func) (r : Nat) : ringOf t f r = ringOf s f r := by
  rw [ringOf, h, ringOf]

theorem modRing_onlyChanges (s : State) (f : Func) (r : Nat) (h : Ring → Ring) :
    OnlyChanges [.rings] s (s.modRing f r h) :=
  (State_modRing_touch s f r h).onlyChanges_of_cells rfl fun p => by cases p <;> decide

theorem ringData_eq (f : Func) (r : Nat) : ringData f r = 65536 * funcNum f + r := by rw [ringData, Nat.mul_comm]

theorem hasRing_lt {f : Func} {r : Nat} (h : hasRing f r = true) : r < 64 := by
  cases f <;> simp [hasRing] at h <;> omega

/-- The bits of a register above bit 0 do not change with bit 0. -/
theorem fld_or_one (x : Word32) {hi lo : Nat} (h : 1 ≤ lo) : fld (x ||| 1) hi lo = fld x hi lo := by
  have hone : 1 >>> lo = 0 := by rw [Nat.shiftRight_eq_div_pow]; exact Nat.div_eq_of_lt (Nat.one_lt_two_pow (by omega))
  have hshift : (x ||| 1).toNat / 2 ^ lo = x.toNat / 2 ^ lo := by
    rw [← Nat.shiftRight_eq_div_pow, ← Nat.shiftRight_eq_div_pow, BitVec.toNat_or, Nat.shiftRight_or_distrib]
    exact (congrArg _ hone).trans (Nat.or_zero _)
  rw [fld, bits, hshift, fld, bits]

theorem flg_or_one (x : Word32) : flg (x ||| 1) 0 = true := by simp [flg]

theorem flg_and_not_one (x : Word32) : flg (x &&& ~~~1) 0 = false := by simp [flg]

/-! ### Doorbells -/

section
variable {s : State} {f : Func} {r : Nat} {head : Bool} {v : Word32}

/-- R474: a doorbell that its ring's home takes. -/
theorem applyDoorbell_accepted (he : (ringOf s f r).enabled = true) (hv : v.toNat < 4096)
    (hs : v.toNat < ringSize (ringOf s f r)) :
    applyDoorbell s f r head v = if head then s.modRing f r fun g =>
      { g with cqHead := v.toNat, owed := g.owed - (v.toNat + 2 ^ g.sizeLog2 - g.cqHead) % 2 ^ g.sizeLog2 }
      else s.modRing f r fun g => { g with sqTail := v.toNat } := by
  exact if_neg (by simp [he, Nat.not_le.2 hv, Nat.not_le.2 hs])

/-- R474: a doorbell that its ring's home discards. -/
theorem applyDoorbell_refused
    (h : 4096 ≤ v.toNat ∨ ringSize (ringOf s f r) ≤ v.toNat ∨ (ringOf s f r).enabled = false) :
    applyDoorbell s f r head v = raise (addCtr s blkHif 0x0100) 0x0804 (65536 * funcNum f + r) blkHif (evPart f) := by
  rw [← ringData_eq]
  refine if_pos ?_
  rcases h with h | h | h <;> simp [h]

theorem doorbell_inReset (h : funcResetting s f = true) : doorbell s f r head v = s := by
  simp [doorbell, h]

theorem doorbell_applied (hh : hostReaches s f = true) (hr : hasRing f r = true) (hz : funcResetting s f = false)
    (hw : wingOf (ringOf s f r).home = .east ∨ concourseUp s = true) :
    doorbell s f r head v = applyDoorbell s f r head v := by
  rcases hw with hw | hw <;> simp [doorbell, hh, hr, hz, hw]

/-- R455: the doorbells that EIO keeps for West-homed rings, with one written. -/
def doorbellsKept (s : State) (f : Func) (r : Nat) (head : Bool) (v : Word32) : List (Nat × Bool × Word32) :=
  (s.cc.doorbells.filter fun d => !(d.1 == ringKey f r && d.2.1 == head)) ++ [(ringKey f r, head, v)]

theorem doorbell_kept (hh : hostReaches s f = true) (hr : hasRing f r = true) (hz : funcResetting s f = false)
    (hw : wingOf (ringOf s f r).home = .west) (hc : concourseUp s = false) :
    doorbell s f r head v = { s with cc := { s.cc with doorbells := doorbellsKept s f r head v } } := by
  simp [doorbell, hh, hr, hz, hw, hc, doorbellsKept]

/-- Of one ring's tail or head the last value written is kept. -/
theorem mem_doorbellsKept_self (w : Word32) : (ringKey f r, head, w) ∈ doorbellsKept s f r head v ↔ w = v := by
  simp [doorbellsKept]

theorem mem_doorbellsKept_of_ne {k : Nat} {h : Bool} (w : Word32) (hk : (k, h) ≠ (ringKey f r, head)) :
    (k, h, w) ∈ doorbellsKept s f r head v ↔ (k, h, w) ∈ s.cc.doorbells := by
  have hk : k = ringKey f r → h ≠ head := fun h1 h2 => hk (by rw [h1, h2])
  simp only [doorbellsKept, List.mem_append, List.mem_filter, List.mem_singleton, Prod.mk.injEq, Bool.not_eq_true',
    Bool.and_eq_false_iff, beq_eq_false_iff_ne]
  constructor
  · rintro (⟨h1, -⟩ | ⟨h1, h2, -⟩)
    · exact h1
    · exact absurd h2 (hk h1)
  · intro h1
    refine .inl ⟨h1, ?_⟩
    by_cases h2 : k = ringKey f r
    · exact .inr (hk h2)
    · exact .inl h2

end

/-! ### Enabling -/

section
variable {s : State} {f : Func} {r : Fin 64} {cfg : Word32}

theorem exec_ringEnable (hh : hostReaches s f = true) (hr : hasRing f r.val = true) :
    exec (.ringEnable f r cfg) s = .next (writeRingCfg s f r.val (cfg ||| 1)) := congrArg Host.Outcome.next (if_pos ⟨hh, hr⟩)

theorem exec_ringDisable (hh : hostReaches s f = true) (hr : hasRing f r.val = true) :
    exec (.ringDisable f r cfg) s = .next (writeRingCfg s f r.val (cfg &&& ~~~1)) := congrArg Host.Outcome.next (if_pos ⟨hh, hr⟩)

theorem enableRefused_eq (g : Ring) : enableRefused s f g (cfg ||| 1) = true ↔
    fld cfg 19 16 < 4 ∨ 12 < fld cfg 19 16 ∨ g.sqBase.toNat % 4096 ≠ 0 ∨ g.cqBase.toNat % 4096 ≠ 0 ∨ funcResetting s f = true := by
  simp only [enableRefused, fld_or_one cfg (hi := 19) (lo := 16) (by decide), Bool.or_eq_true, decide_eq_true_eq]
  tauto

/-- A ring as an enable leaves it (R473). -/
def Ring.enabledBy (g : Ring) (cfg : Word32) : Ring :=
  { g with
    sizeLog2 := fld cfg 19 16, home := tileOf (fld cfg 9 8), enable := true, enabled := true
    error := false, cfgErr := false, errKind := 0, sqHead := 0, sqTail := 0, cqHead := 0, owed := 0, cqPos := 0, phase := true
    unsignalled := 0, fetched := [], open_ := 0, heldEntries := [] }

theorem writeRingCfg_enables (he : (ringOf s f r.val).enabled = false)
    (hok : enableRefused s f (ringOf s f r.val) (cfg ||| 1) = false) :
    writeRingCfg s f r.val (cfg ||| 1) = s.modRing f r.val fun g => g.enabledBy cfg := by
  simp only [writeRingCfg, flg_or_one, he, hok, Bool.false_eq_true, if_true, if_false, fld_or_one cfg (Nat.le_add_left 1 15),
    fld_or_one cfg (Nat.le_add_left 1 7), Ring.enabledBy]

theorem writeRingCfg_refused (he : (ringOf s f r.val).enabled = false)
    (hno : enableRefused s f (ringOf s f r.val) (cfg ||| 1) = true) :
    writeRingCfg s f r.val (cfg ||| 1) = s.modRing f r.val fun g => { g with cfgErr := true } := by
  simp only [writeRingCfg, flg_or_one, he, hno, Bool.false_eq_true, if_true, if_false]

theorem writeRingCfg_draining (he : (ringOf s f r.val).enabled = true) (hd : (ringOf s f r.val).enable = false) :
    writeRingCfg s f r.val (cfg ||| 1) = s.modRing f r.val fun g => { g with cfgErr := true } := by
  simp only [writeRingCfg, flg_or_one, he, hd, Bool.false_eq_true, if_true, if_false]

theorem writeRingCfg_again (he : (ringOf s f r.val).enabled = true) (hd : (ringOf s f r.val).enable = true) :
    writeRingCfg s f r.val (cfg ||| 1) = s := by
  simp only [writeRingCfg, flg_or_one, he, hd, if_true]

theorem writeRingCfg_disables (he : (ringOf s f r.val).enabled = true) :
    writeRingCfg s f r.val (cfg &&& ~~~1) = s.modRing f r.val fun g => { g with enable := false } := by
  simp only [writeRingCfg, flg_and_not_one, he, Bool.false_eq_true, if_false, if_true]

end

theorem mayFetch_of_disabled {s : State} {f : Func} {r : Nat} (h : (ringOf s f r).enable = false) : mayFetch s f r = false := by
  simp [mayFetch, h]

theorem mayFetch_of_error {s : State} {f : Func} {r : Nat} (h : (ringOf s f r).error = true) : mayFetch s f r = false := by
  simp [mayFetch, h]

/-! ### Fetching -/

theorem endNameless_of_named {s : State} {f : Func} {r : Nat}
    (h : ((ringOf s f r).fetched.map Prod.fst).head?.all (fun x => !nameless x) = true) : endNameless s f r = s := by
  unfold endNameless readyEntry
  cases hq : (ringOf s f r).fetched with
  | nil => rfl
  | cons x xs =>
    rw [hq] at h
    have hx : (!nameless x.1) = true := h
    dsimp only
    by_cases hb : mayBegin s f r x.1 = true
    · rw [if_pos hb]
      exact if_pos hx
    · rw [if_neg hb]

theorem stopRing_eq (s : State) (f : Func) (r kind : Nat) : stopRing s f r kind =
    raise (addCtr (s.modRing f r fun g => { g with error := true, errKind := kind }) blkHif 0x0108) 0x0803
      (65536 * funcNum f + r) blkHif (evPart f) := by rw [stopRing, ringData_eq]

theorem rings_stopRing (s : State) (f : Func) (r kind : Nat) : (stopRing s f r kind).hif.rings =
    (s.modRing f r fun g => { g with error := true, errKind := kind }).hif.rings := by
  rw [stopRing, raise_hif_rings]
  exact (addCtr_touch_hif _ 0x0108 1).eq .rings rfl

end Sys2Proof.Machine

namespace Sys2Proof

open Sys2Proof.Machine

/-- Settles O6: a doorbell is applied at its ring's home, kept by EIO, or discarded. -/
theorem doorbells : Obligations.Doorbells := by
  unfold Obligations.Doorbells
  refine ⟨fun f r v s hh hr hz hw he hv hs => ⟨?_, ?_⟩, fun f r v s hh hr => ⟨fun hz => ⟨?_, ?_⟩, fun hz hw hbad => ?_,
    fun hz hw hc head => ?_⟩⟩
  · exact congrArg Host.Outcome.next ((doorbell_applied hh hr hz hw).trans (applyDoorbell_accepted he hv hs))
  · exact congrArg Host.Outcome.next ((doorbell_applied hh hr hz hw).trans (applyDoorbell_accepted he hv hs))
  · exact congrArg Host.Outcome.next (doorbell_inReset hz)
  · exact congrArg Host.Outcome.next (doorbell_inReset hz)
  · have hdiscard (head : Bool) := (doorbell_applied hh hr hz hw).trans (applyDoorbell_refused (head := head) hbad)
    refine ⟨_, rfl, congrArg Host.Outcome.next (hdiscard false), congrArg Host.Outcome.next (hdiscard true), ?_⟩
    rw [raise_hif_rings]
    exact (addCtr_touch_hif s 0x0100 1).eq .rings rfl
  · refine ⟨{ s with cc := { s.cc with doorbells := doorbellsKept s f r head v } }, ?_, rfl, (touch_cc s).onlyChanges_of_cells rfl fun p => by cases p <;> decide, mem_doorbellsKept_self,
      fun k h w hk => mem_doorbellsKept_of_ne w hk⟩
    have hkept := doorbell_kept (head := head) (v := v) hh hr hz hw hc
    cases head <;> exact congrArg Host.Outcome.next hkept

/-- Settles O7: a write of RING_CFG by the ring's ENABLED and the value's ENABLE. -/
theorem ringsEnabledAndDisabled : Obligations.RingsEnabledAndDisabled := by
  unfold Obligations.RingsEnabledAndDisabled
  refine ⟨fun f r cfg s hh hr he hlo hhi hsq hcq hz => ?_, fun f r cfg s hh hr => ⟨fun he hbad => ?_, fun he hd => ?_,
    fun he hd => ?_⟩, fun f r cfg s => ⟨fun hh hr he => ?_, fun he hd hopen hheld => ?_⟩⟩
  · have hok : enableRefused s f (ringOf s f r.val) (cfg ||| 1) = false := by
      rw [← Bool.not_eq_true, enableRefused_eq, hz]
      simp [hsq, hcq]
      omega
    refine ⟨_, (exec_ringEnable hh hr).trans (congrArg Host.Outcome.next (writeRingCfg_enables he hok)),
      modRing_onlyChanges s _ _ _, fun g q hk => ringOf_modRing_of_ne s _ hk, ?_⟩
    rw [ringOf_modRing_self]
    exact ⟨rfl, rfl, rfl, rfl, rfl, rfl, rfl, rfl, rfl, rfl, rfl, rfl, rfl, rfl, rfl, rfl, rfl, rfl⟩
  · exact (exec_ringEnable hh hr).trans (congrArg Host.Outcome.next (writeRingCfg_refused he ((enableRefused_eq _).2 hbad)))
  · exact (exec_ringEnable hh hr).trans (congrArg Host.Outcome.next (writeRingCfg_draining he hd))
  · exact (exec_ringEnable hh hr).trans (congrArg Host.Outcome.next (writeRingCfg_again he hd))
  · refine ⟨_, (exec_ringDisable hh hr).trans (congrArg Host.Outcome.next (writeRingCfg_disables he)), rfl, ?_⟩
    exact mayFetch_of_disabled (by rw [ringOf_modRing_self])
  · refine congrArg Host.Outcome.next (if_pos ?_)
    simp [ringDrained, he, hd, hopen, hheld]

/-- Settles O8: an entry fetched joins its ring, and R477's two failures stop it in one way. -/
theorem entriesFetched : Obligations.EntriesFetched := by
  unfold Obligations.EntriesFetched
  refine ⟨fun f r entry s hmay hroom hnamed => ?_, fun f r s => ⟨fun hmay => ?_, fun he hnew => ?_⟩⟩
  · refine (if_pos ⟨hmay, hroom⟩).trans (congrArg Host.Outcome.next (endNameless_of_named ?_))
    rw [ringOf_modRing_self, List.map_append]
    exact hnamed
  · refine ⟨_, congrArg Host.Outcome.next (if_pos hmay), stopRing_eq .., rings_stopRing .., mayFetch_of_error ?_⟩
    rw [ringOf_congr (rings_stopRing ..), ringOf_modRing_self]
  · refine ⟨_, if_pos ?_, by rw [stopRing_eq], ?_⟩
    · rcases hnew with hnew | hnew <;> simp [he, hnew]
    · rw [ringOf_modRing_self, ringOf_congr (rings_stopRing ..), ringOf_modRing_self]

/-- Settles O9: a coalesced message, and the three ways of a message. -/
theorem messagesSent : Obligations.MessagesSent := by
  unfold Obligations.MessagesSent
  refine ⟨fun f r s hirq hdelay hcount hw => if_pos ?_, fun s f v => ⟨fun hv => if_pos hv, fun hv hm hb => sendMsix_sent hv hm hb,
    fun hv h => sendMsix_pends hv h⟩⟩
  rcases hw with hw | hw <;> simp [hirq, hdelay, hcount, hw]

end Sys2Proof
end

section
/-!
PROOF. Answers of commands (R475, R476, R481, R489, R560, R589): the completion entry's fields, the count or the log entry of
the answer, and the commands that fail the common checks.
-/

namespace Sys2Proof.Machine

/-! ### A completion entry's fields (R476) -/

theorem toNat_image (c : Completion) : c.image.toNat = c.tag % 2 ^ 32 * 2 ^ 96 + c.cause % 2 ^ 16 * 2 ^ 80 +
    c.sqHead % 4096 * 2 ^ 68 + c.ring % 64 * 2 ^ 58 + b2n c.command * 2 ^ 7 + b2n c.recFault * 2 ^ 6 + b2n c.zeroWork * 2 ^ 5 +
    b2n c.committed * 2 ^ 4 := by
  have h1 := b2n_lt_two c.command
  have h2 := b2n_lt_two c.recFault
  have h3 := b2n_lt_two c.zeroWork
  have h4 := b2n_lt_two c.committed
  simp only [Completion.image, packN, List.foldl, BitVec.toNat_ofNat]
  omega

theorem b2n_beq_one (b : Bool) : (b2n b == 1) = b := by cases b <;> rfl

/-- The fields of a command's completion entry (R476). -/
theorem image_fields (c : Completion) (hcause : c.cause < 2 ^ 16) (htag : c.tag < 2 ^ 32) :
    bits c.image.toNat 127 96 = c.tag ∧ bits c.image.toNat 95 80 = c.cause ∧ bits c.image.toNat 79 68 = c.sqHead % 4096
      ∧ bits c.image.toNat 63 58 = c.ring % 64 ∧ bit c.image.toNat 7 = c.command ∧ bit c.image.toNat 4 = c.committed
      ∧ bit c.image.toNat 0 = false := by
  have h1 := b2n_lt_two c.command
  have h2 := b2n_lt_two c.recFault
  have h3 := b2n_lt_two c.zeroWork
  have h4 := b2n_lt_two c.committed
  have himg := toNat_image c
  rw [Nat.mod_eq_of_lt hcause, Nat.mod_eq_of_lt htag] at himg
  have hcommand : c.image.toNat / 2 ^ 7 % 2 = b2n c.command := by omega
  have hcommitted : c.image.toNat / 2 ^ 4 % 2 = b2n c.committed := by omega
  have hzero : c.image.toNat / 2 ^ 0 % 2 = 0 := by omega
  refine ⟨?_, ?_, ?_, ?_, ?_, ?_, ?_⟩
  · simp only [bits]; omega
  · simp only [bits]; omega
  · simp only [bits]; omega
  · simp only [bits]; omega
  · rw [bit, hcommand, b2n_beq_one]
  · rw [bit, hcommitted, b2n_beq_one]
  · rw [bit, hzero]; rfl

theorem entryTag_lt (e : Entry) : entryTag e < 2 ^ 32 := Nat.mod_lt _ (by decide)

/-! ### Completion entries written at once -/

/-- R557: a count below the limit changes its counter and raises nothing. -/
theorem addCtr_below {s : State} {block off : Nat} (h : (ctr s block off).toNat + 1 < 2 ^ 64 - 1) :
    addCtr s block off = setCtrTable s block (Table.set 0 (ctrTable s block) off (sat64 ((ctr s block off).toNat + 1))) :=
  if_neg fun h' => by omega

/-- A ring after the completion entry of one of its fetched entries has been written, which sends no message. -/
def Ring.entryWritten (g : Ring) : Ring :=
  { g with open_ := g.open_ - 1, cqPos := (g.cqPos + 1) % 2 ^ g.sizeLog2
           phase := if (g.cqPos + 1) % 2 ^ g.sizeLog2 = 0 then !g.phase else g.phase
           unsignalled := g.unsignalled + 1 }

section
variable {s : State} {f : Func} {r : Nat}

theorem Table.insert_insert {α : Type} (t : Table α) (k : Nat) (a b : α) :
    Table.insert (Table.insert t k a) k b = Table.insert t k b := by
  induction t with
  | nil => simp [Table.insert]
  | cons e t ih =>
    by_cases h1 : k < e.1
    · simp [Table.insert, h1]
    · by_cases h2 : k = e.1
      · simp [Table.insert, h2]
      · simp [Table.insert, h1, h2, ih]

theorem modRing_modRing (s : State) (f : Func) (r : Nat) (a b : Ring → Ring) :
    (s.modRing f r a).modRing f r b = s.modRing f r fun g => b (a g) := by
  have hring : ringOf (s.modRing f r a) f r = a (ringOf s f r) := ringOf_modRing_self ..
  rw [State.modRing, hring]
  simp only [State.modRing, Table.insert_insert]

theorem modRing_congr (s : State) {f : Func} {r : Nat} {a b : Ring → Ring} (h : a (ringOf s f r) = b (ringOf s f r)) :
    s.modRing f r a = s.modRing f r b := by rw [State.modRing, h, State.modRing]

/-- The state with one completion entry written for a ring. -/
def entryWritten (s : State) (f : Func) (r : Nat) (c : Completion) : State :=
  let g := ringOf s f r
  ({ s with hostOut := s.hostOut ++
    [HostWrite.completion f r (g.cqBase.toNat + 16 * g.cqPos) (c.image ||| (if g.phase then 1 else 0))] }).modRing f r Ring.entryWritten

/-- An entry written to the host for a ring that sends no messages. -/
theorem writeCompletion_silent (e : BitVec 128) (hirq : (ringOf s f r).irqEn = false) : writeCompletion s f r e =
    ({ s with hostOut := s.hostOut ++ [HostWrite.completion f r ((ringOf s f r).cqBase.toNat + 16 * (ringOf s f r).cqPos)
      (e ||| (if (ringOf s f r).phase then 1 else 0))] }).modRing f r fun g =>
        { g with cqPos := ((ringOf s f r).cqPos + 1) % ringSize (ringOf s f r)
                 phase := if ((ringOf s f r).cqPos + 1) % ringSize (ringOf s f r) = 0 then !g.phase else g.phase
                 unsignalled := g.unsignalled + 1 } := by
  unfold writeCompletion
  dsimp only
  rw [hirq]
  rfl

/-- R475: a ring whose completions flow and which sends no messages writes its entry. -/
theorem answerEntry_written (c : Completion) (herr : (ringOf s f r).error = false)
    (hwait : completionsWait s f (ringOf s f r) = false) (hheld : (ringOf s f r).heldEntries = [])
    (hirq : (ringOf s f r).irqEn = false) : answerEntry s f r c = entryWritten s f r c := by
  have hring : ringOf (s.modRing f r fun g => { g with open_ := g.open_ - 1 }) f r =
      { ringOf s f r with open_ := (ringOf s f r).open_ - 1 } := ringOf_modRing_self ..
  have hflows : ¬ ((completionsWait (s.modRing f r fun g => { g with open_ := g.open_ - 1 }) f (ringOf s f r)
      || !(ringOf s f r).heldEntries.isEmpty) = true) := by
    show ¬ ((completionsWait s f (ringOf s f r) || _) = true)
    rw [hwait, hheld]
    decide
  unfold answerEntry
  simp only [herr, Bool.false_and, Bool.false_eq_true, if_false, if_neg hflows]
  rw [writeCompletion_silent _ (by rw [hring]; exact hirq), hring]
  refine (modRing_modRing { s with hostOut := s.hostOut ++ [HostWrite.completion f r
    ((ringOf s f r).cqBase.toNat + 16 * (ringOf s f r).cqPos) (c.image ||| (if (ringOf s f r).phase then 1 else 0))] } f r
    (fun g => { g with open_ := g.open_ - 1 }) _).trans (modRing_congr _ rfl)

theorem entryWritten_touch (c : Completion) : Touch 0x80200000 s (entryWritten s f r c) :=
  Touch.step (State_modRing_touch ..) rfl ((touch_hostOut s).weaken rfl)

theorem ringOf_entryWritten_self (c : Completion) : ringOf (entryWritten s f r c) f r = (ringOf s f r).entryWritten :=
  ringOf_modRing_self ..

theorem ringOf_entryWritten_of_ne (c : Completion) {k : Func} {q : Nat} (h : ringKey k q ≠ ringKey f r) :
    ringOf (entryWritten s f r c) k q = ringOf s k q := ringOf_modRing_of_ne _ _ h

end

/-! ### The common checks of a swap that waits its turn -/

theorem editionOf_joinQueue (s : State) (i j : Instance) (sw : Swap) (num : Word32) :
    editionOf (joinQueue s i sw) j num = editionOf s j num := by
  unfold editionOf joinQueue
  rw [instOf_modInst]
  split
  · rename_i h; rw [h]
  · rfl

theorem currentAt_joinQueue (s : State) (i j : Instance) (sw : Swap) (u : PinUnit) :
    currentAt (joinQueue s i sw) j u = currentAt s j u := by
  unfold currentAt joinQueue
  rw [instOf_modInst]
  split
  · rename_i h; rw [h]
  · rfl

theorem commandFault_joinQueue (s : State) (i : Instance) (sw : Swap) (f : Func) (r : Nat) (e : Entry) :
    commandFault (joinQueue s i sw) f r e = commandFault s f r e := by
  have hring : ringOf (joinQueue s i sw) f r = ringOf s f r := (State_modInst_touch ..).ringOf rfl f r
  have hreset (p : Nat) : resettingPart (joinQueue s i sw) p = resettingPart s p :=
    congrArg (BitVec.getLsbD · p) ((State_modInst_touch s i _).eq .resets rfl).1
  simp only [commandFault, hring, hreset, cfgAt, cfgCopy, editionOf_joinQueue, currentAt_joinQueue]
  rfl

theorem judge_of_commandFault {s : State} {i : Instance} {sw : Swap} {c : Nat}
    (h : commandFault s sw.func sw.ring sw.entry = some c) : judge s i sw = (s, .refuse c) := by rw [judge, h]

theorem commandFault_of_malformed {s : State} {f : Func} {r c : Nat} {e : Entry} (hok : commandOk e = false)
    (h : commandFault s f r e = some c) : c = 0x0154 := by
  have h : (if !commandOk e then some 0x0154 else _) = some c := h
  rw [if_pos (by rw [hok]; rfl)] at h
  exact (Option.some.inj h).symm

theorem commandFault_of_foreignConfig {s : State} {f : Func} {r c : Nat} {e : Entry} (hok : commandOk e = true)
    (hf : f ≠ .pf0) (hop : cmdOp e = 1) (hst : swapStruct e = 5) (h : commandFault s f r e = some c) : c = 0x0153 := by
  have h : (if !commandOk e then _ else if f ≠ .pf0 ∧ cmdOp e = 1 ∧ swapStruct e = 5 then some 0x0153 else _) = some c := h
  rw [if_neg (by rw [hok]; decide), if_pos ⟨hf, hop, hst⟩] at h
  exact (Option.some.inj h).symm

end Sys2Proof.Machine

namespace Sys2Proof

open Sys2Proof.Machine

section
variable {s p : State} {f : Func} {r op h c : Nat} {e : Entry}

/-- R481, R589: a command that fails a check, not a swap that names a structure, is answered with the cause and nothing else. -/
theorem Begins.fails (hb : Begins s f r op p e h) (hswap : op = 1 → swapInst e = none) (hc : commandFault p f r e = some c)
    (perform : State → Origin → Entry → State) :
    beginCommand s f r op perform = answerCommand p ⟨f, r, h, true⟩ e c (wingOf (Machine.ringOf s f r).home) := by
  have hjudge : judgeCommand (takeEntry { s with heldAt := none } f r) ⟨f, r, h, true⟩ e perform =
      answerCommand p ⟨f, r, h, true⟩ e c (wingOf (Machine.ringOf s f r).home) := by
    obtain ⟨hp, -, -, -, hop, -, -⟩ := id hb
    have hno : ¬ (cmdOp e = 1 ∧ (swapInst e).isSome = true) := fun h1 => by
      rw [hswap (hop ▸ h1.1)] at h1
      cases h1.2
    rw [← hp]
    simp only [judgeCommand, if_neg hno, hc]
    rw [hb.ringOf]
  rw [hb.beginCommand_eq, orWait_of_free (by rw [hjudge]; exact ((answerCommand_touch ..).eq .heldAt rfl).trans hb.heldAt), hjudge]

end

/-- R589: a swap that names a structure with no other swap fails the common checks at once. -/
theorem Begins.swap_fails {s p : State} {f : Func} {r : Fin 64} {h c : Nat} {e : Entry} {i : Instance}
    (hb : Begins s f r.val 1 p e h) (hi : swapInst e = some i) (hq : (instOf p i).swaps = [])
    (hc : commandFault p f r.val e = some c) :
    exec (.editionSwap f r) s = .next (answerCommand
      ((joinQueue p i (swapOf ⟨f, r.val, h, true⟩ e)).modInst i fun x => { x with swaps := [] }) ⟨f, r.val, h, true⟩ e c
      (wingOf (instHome p i)) .stationmaster (swapHdr e)) := by
  have hj : judge (joinQueue p i (swapOf ⟨f, r.val, h, true⟩ e)) i (swapOf ⟨f, r.val, h, true⟩ e) =
      (joinQueue p i (swapOf ⟨f, r.val, h, true⟩ e), .refuse c) :=
    judge_of_commandFault ((commandFault_joinQueue ..).trans hc)
  have hexec := hb.exec_editionSwap_refused hi hq rfl hj
  have hhome : instHome ((joinQueue p i (swapOf ⟨f, r.val, h, true⟩ e)).modInst i fun x => { x with swaps := [] }) i =
      instHome p i := instHome_congr (by rw [instOf_modInst_self, instOf_joinQueue])
  dsimp only [Option.elim] at hexec
  rw [hhome] at hexec
  exact hexec (((State_modInst_touch ..).eq .heldAt rfl).trans (((State_modInst_touch ..).eq .heldAt rfl).trans hb.heldAt))

/-- A command's row where the command fails a check. -/
theorem Begins.exec_fails {s p : State} {f : Func} {r : Fin 64} {h c : Nat} {e : Entry} {row : Instr × Nat}
    (hrow : row ∈ [(Instr.editionSwap f r, 1), (.mapInvalidate f r, 2), (.sidingOpen f r, 3), (.sidingClose f r, 4),
      (.prefixLookup f r, 5), (.carSetStart f r, 6), (.carSetStop f r, 7), (.partitionResetCmd f r, 8)])
    (hclose : row.2 = 4 → ∀ x ∈ s.cmds, x.func = f → x.ring = r.val → closeReady s x = false)
    (hb : Begins s f r.val row.2 p e h) (hc : commandFault p f r.val e = some c) (hswap : row.2 = 1 → swapInst e = none) :
    exec row.1 s = .next (answerCommand p ⟨f, r.val, h, true⟩ e c (wingOf (Machine.ringOf s f r.val).home)) := by
  have hfails := hb.fails hswap hc
  have hnone : row.2 = 4 → ringCmd s f r.val (closeReady s) = none := fun h4 => List.find?_eq_none.2 fun x hx => by
    have := hclose h4 x hx
    by_cases h1 : x.func = f
    · by_cases h2 : x.ring = r.val
      · simp [h1, h2, this h1 h2]
      · simp [h2]
    · simp [h1]
  simp only [List.mem_cons, List.not_mem_nil, or_false] at hrow
  rcases hrow with rfl | rfl | rfl | rfl | rfl | rfl | rfl | rfl
  case inr.inr.inr.inl =>
    show (match ringCmd s f r.val (closeReady s) with | some _ => _ | none => _) = _
    rw [hnone rfl]
    exact congrArg Host.Outcome.next (hfails _)
  all_goals exact congrArg Host.Outcome.next (hfails _)

/-- R489, R560: the count of a command performed, or the log entry of one that failed. -/
def answerNoted (s : State) (r : Nat) (f : Func) (e : Entry) (cause : Nat) (w : Wing) : State :=
  if cause = 0 then addCtr s blkHif 0x0110
  else logCause s { wing := w, unit := .stationmaster, cause := cause, tag := entryTag e, ring := r, part := (partOf f).getD (cmdPart e) }

theorem answerNoted_counted {s : State} {r : Nat} {f : Func} {e : Entry} {w : Wing}
    (hctr : (ctr s blkHif 0x0110).toNat + 1 < 2 ^ 64 - 1) : answerNoted s r f e 0 w =
      s.modHif fun x => { x with ctrs := Table.set 0 (ctrTable s blkHif) 0x0110 (sat64 ((ctr s blkHif 0x0110).toNat + 1)) } :=
  (if_pos rfl).trans (addCtr_below hctr)

theorem answerNoted_logged {s : State} {r cause : Nat} {f : Func} {e : Entry} {w : Wing} (hcause : cause ≠ 0)
    (hw : w = .east ∨ concourseUp s = true) : answerNoted s r f e cause w = enterLog s (causeEntry s
      { wing := w, unit := .stationmaster, cause := cause, tag := entryTag e, ring := r, part := (partOf f).getD (cmdPart e) }) := by
  refine (if_neg hcause).trans (if_neg fun h => ?_)
  rcases hw with hw | hw
  · rw [hw] at h; cases h.1
  · rw [hw] at h; cases h.2

/-- What the count or the log entry of an answer touches: no page, since no event is raised. -/
theorem answerNoted_touch {s : State} {r cause : Nat} {f : Func} {e : Entry} {w : Wing}
    (hctr : (ctr s blkHif 0x0110).toNat + 1 < 2 ^ 64 - 1) (hw : w = .east ∨ concourseUp s = true) :
    Touch 0xc0000 s (answerNoted s r f e cause w) := by
  by_cases hc : cause = 0
  · subst hc
    rw [answerNoted_counted hctr]
    exact (touch_modHif_ctrs s _).weaken rfl
  · rw [answerNoted_logged hc hw]
    exact (enterLog_touch ..).weaken rfl

theorem answerCommand_eq (s : State) (f : Func) (r h cause : Nat) (e : Entry) (w : Wing) :
    answerCommand s ⟨f, r, h, true⟩ e cause w = answerEntry (answerNoted s r f e cause w) f r
      { tag := entryTag e, cause := cause, sqHead := h, ring := r, command := true, committed := cause == 0 } := rfl

/-- Settles O10: a command's failure is answered where it is judged; the answer is a count or a log entry, then an entry. -/
theorem commandsAnswered : Obligations.CommandsAnswered := by
  unfold Obligations.CommandsAnswered
  refine ⟨fun s f r row p e h c hrow hclose hb hc => ⟨fun hswap => hb.exec_fails hrow hclose hc hswap, fun i h1 hi hq => ?_,
    fun hok => commandFault_of_malformed hok hc, fun hok hf hop hst => commandFault_of_foreignConfig hok hf hop hst hc⟩, ?_⟩
  · have hfirst : row.1 = .editionSwap f r := by
      simp only [List.mem_cons, List.not_mem_nil, or_false] at hrow
      rcases hrow with rfl | rfl | rfl | rfl | rfl | rfl | rfl | rfl
      case inl => rfl
      all_goals cases h1
    rw [hfirst]
    exact Begins.swap_fails (h1 ▸ hb) hi hq hc
  · intro s f r h cause e w g img herr hwait hheld hirq hcause hw hctr
    have ht := answerNoted_touch (r := r) (cause := cause) (f := f) (e := e) hctr hw
    have hring (k : Func) (q : Nat) : ringOf (answerNoted s r f e cause w) k q = ringOf s k q := ht.ringOf rfl k q
    have hwait' : completionsWait (answerNoted s r f e cause w) f g = false := by
      have hpages : (answerNoted s r f e cause w).hif.pages = s.hif.pages := ht.eq .pages rfl
      have hcc : (answerNoted s r f e cause w).cc = s.cc := ht.eq .cc rfl
      simpa only [completionsWait, pageOf, concourseUp, hpages, hcc] using hwait
    have hhost : (answerNoted s r f e cause w).hostOut = s.hostOut := ht.eq .hostOut rfl
    have hwritten : answerCommand s ⟨f, r, h, true⟩ e cause w = entryWritten (answerNoted s r f e cause w) f r
        { tag := entryTag e, cause := cause, sqHead := h, ring := r, command := true, committed := cause == 0 } := by
      rw [answerCommand_eq]
      refine answerEntry_written _ ?_ ?_ ?_ ?_ <;> rw [hring] <;> assumption
    obtain ⟨h1, h2, h3, h4, h5, h6, h7⟩ := image_fields
      { tag := entryTag e, cause := cause, sqHead := h, ring := r, command := true, committed := cause == 0 } hcause (entryTag_lt e)
    refine ⟨_, hwritten, ?_, h1, h2, h3, h4, h5, h6, h7, ?_, fun k q hk => ?_, fun h0 => ?_, fun h0 => ?_, ?_⟩
    · simp only [entryWritten, hring, hhost]
      rfl
    · rw [ringOf_entryWritten_self, hring]
      rfl
    · rw [ringOf_entryWritten_of_ne _ hk, hring]
    · subst h0
      have hset : (ctr (answerNoted s r f e 0 w) blkHif 0x0110).toNat = (ctr s blkHif 0x0110).toNat + 1 := by
        rw [answerNoted_counted hctr, ctr_hif]
        exact (congrArg BitVec.toNat (Table.get_set_self _ _ (sat64_succ_ne_zero _))).trans
          ((toNat_sat64 _).trans (Nat.min_eq_right (by omega)))
      refine ⟨hset, ?_⟩
      rw [answerNoted_counted hctr]
      rfl
    · rw [answerNoted_logged h0 hw]
      exact ⟨rfl, rfl⟩
    · exact (Touch.step (entryWritten_touch _) rfl (ht.weaken rfl)).onlyChanges_of_cells (m := 0x802c0000) rfl
        fun p => by cases p <;> decide

end Sys2Proof
end

section
/-!
PROOF. Three statements that a state of the model refutes: what a partition's reset zeroes on chip (R483), the strap that the
Custodian reads at input power (R580), and a PF0 reset in which the module enters HALT (R509, R516).
-/

namespace Sys2Proof

open Sys2Proof.Machine

/-! ### A partition's reset zeroes the banks of its grant -/

/-- A configuration whose partition 0 is enabled and holds, on E0, bank 0 of the core at column 0 and row 0: COLS 1, ROWS 1,
BANK_FIRST 0, BANK_COUNT 1 (R152). -/
def bank0Config : List Byte := 1 :: List.replicate 143 0 ++ [0x10, 0x40, 0x00, 0x02]

/-- That configuration in force, and one byte that is not 0 in the bank it grants. -/
def bank0State : State :=
  { State.reset with
    mem := [(0, 1)]
    insts := [(.partCfg, { current := some 1, live := [{ num := 1, base := 0, copy := bank0Config }]
                           atUnit := [(.station .e0, some 1)] })] }

theorem bank0_zeroed_by_reset : memByte (beginReset bank0State 0).mem 0 = 0 := by decide +kernel

/-- Refutes O14: R483 writes the banks of the partition's grant to zero, and the frame of the clause on the reset's beginning
does not name the cores' windows. In `bank0State` the reset of partition 0 zeroes the byte at address 0. -/
theorem not_functionsReset : ¬ Obligations.FunctionsReset := by
  unfold Obligations.FunctionsReset
  rintro ⟨⟨-, -, hbegin⟩, -⟩
  obtain ⟨-, -, -, -, hframe⟩ := hbegin bank0State 0 rfl rfl (by decide)
  have hkept : memByte (beginReset bank0State 0).mem 0 = memByte bank0State.mem 0 :=
    hframe .scratch (by decide) 0 (by unfold inScratch; decide)
  exact absurd (bank0_zeroed_by_reset.symm.trans hkept) (by decide)

/-! ### The strap at input power -/

/-- No input power. -/
def unpowered : State := { State.reset with power := { inputPower := false } }

theorem strap_at_power {u : State} (hu : exec (.inputPowerOn 0) unpowered = .next u) : u.cst.strap = 127 := by
  rw [← Host.Outcome.next.inj hu]
  decide +kernel

/-- Refutes O57: a strap of 0 is node 127 (R580), and the Custodian keeps the node, not the strap's value. -/
theorem not_powerLostAndFound : ¬ Obligations.PowerLostAndFound := by
  unfold Obligations.PowerLostAndFound
  rintro ⟨-, hpower⟩
  obtain ⟨hon, -⟩ := hpower unpowered
  obtain ⟨u, hu, -, -, -, -, -, -, -, -, -, hstrap, -⟩ := hon 0 rfl rfl
  exact absurd (hstrap.symm.trans (strap_at_power hu)) (by decide)

/-! ### A PF0 reset in which the module enters HALT -/

/-- A swap of the group table whose header lies at 0x010000000000 (R480). -/
def groupSwapEntry : Entry := BitVec.ofNat 512 (0x010000000000 * 2 ^ 464 + 4 * 2 ^ 417 + 1 * 2 ^ 36)

/-- In SERVICE, rule 0, a CUT that acts in LIMITED, stands active. The one task, of partition 0, pins the group table, whose next
swap waits for its turn; the header it names is poisoned, its pseudo-channel stands one uncorrectable read before its failure,
and the tile has no reserve (R550). -/
def haltInReset : State :=
  { State.reset with
    cst := { state := .service, rules := [(0, { active := true })] }
    tmem := ⟨{ en := false, ueCount := [(0, 16)] }, {}, {}, {}⟩
    poison := [2 ^ 34]
    insts := [(.group, { swaps := [{ func := .pf0, ring := 0, entry := groupSwapEntry, answer := false }] })]
    tasks := [{ id := 0, func := .vf 0, ring := 0, part := 0, home := .e0, hdr := 0, issueTick := 0, pins := [⟨.group, 0, 0⟩] }]
    nextTask := 1 }

/-- The task's end gives the swap its turn; the read fails the pseudo-channel, LIMITED is entered, and the CUT cuts main power,
which takes the mark of the PF0 reset with it. -/
theorem haltInReset_clears : (assertPerst haltInReset).hif.pf0Resetting = false := by decide +kernel

/-- Refutes O59: nothing keeps a rule from cutting main power while PERST_N's PF0 reset ends the tasks. `haltInReset` enters
HALT there, and its port is not left in a PF0 reset. -/
theorem not_pciePort : ¬ Obligations.PciePort := by
  unfold Obligations.PciePort
  intro h
  obtain ⟨-, -, hassert, -⟩ := h haltInReset
  obtain ⟨u, hu, -, -, -, -, hreset, -⟩ := hassert rfl rfl
  rw [← Host.Outcome.next.inj hu, haltInReset_clears] at hreset
  exact absurd hreset (by decide)

end Sys2Proof
end

section
/-!
PROOF. The power states that blocks choose by themselves (R533 to R535): clusters, their operating points, and stacks.
-/

namespace Sys2Proof.Machine

/-! ### Counters of a power block -/

theorem ctrTable_pwr (s : State) (w : Wing) : ctrTable s (blkPwr w) = s.power.ctrs.get w := by cases w <;> rfl

theorem blkPwr_lt (w : Wing) : blkPwr w < 25 := by cases w <;> decide

theorem blkPwr_ne_evLost (w : Wing) (off : Nat) : ¬ (blkPwr w = blkHif ∧ off = offEvLost) := by
  cases w <;> exact fun h => absurd h.1 (by decide)

theorem ctr_pwr_congr {s t : State} {w : Wing} {off : Nat} (h : t.power.ctrs.get w = s.power.ctrs.get w) :
    ctr t (blkPwr w) off = ctr s (blkPwr w) off := by rw [ctr, ctr, ctrTable_pwr, ctrTable_pwr, h]

theorem setCtrTable_pwr (s : State) (w : Wing) (c : Table Word64) :
    setCtrTable s (blkPwr w) c = s.modPower fun p => { p with ctrs := p.ctrs.modify w fun _ => c } := by cases w <;> rfl

/-- A count of a power block changes the power record's counters alone. -/
theorem power_addCtr_pwr (s : State) (w : Wing) (off n : Nat) :
    ∃ c, (addCtr s (blkPwr w) off n).power = { s.power with ctrs := c } := by
  unfold addCtr
  dsimp only
  rw [setCtrTable_pwr]
  split
  · exact ⟨_, raise_power ..⟩
  · exact ⟨_, rfl⟩

theorem clusterOf_congr {s t : State} (h : t.power.clusters = s.power.clusters) (x : Tile) (r : Nat) :
    clusterOf t x r = clusterOf s x r := by rw [clusterOf, clusterOf, h]

theorem stackOf_congr {s t : State} (h : t.power.dram = s.power.dram) (k : Nat) : stackOf t k = stackOf s k := by
  rw [stackOf, stackOf, h]

theorem clusterOf_addCtr_pwr (s : State) (w : Wing) (off n : Nat) (t : Tile) (r : Nat) :
    clusterOf (addCtr s (blkPwr w) off n) t r = clusterOf s t r := by
  obtain ⟨c, hc⟩ := power_addCtr_pwr s w off n
  exact clusterOf_congr (by rw [hc]) t r

theorem stackOf_addCtr_pwr (s : State) (w : Wing) (off n k : Nat) :
    stackOf (addCtr s (blkPwr w) off n) k = stackOf s k := by
  obtain ⟨c, hc⟩ := power_addCtr_pwr s w off n
  exact stackOf_congr (by rw [hc]) k

/-- R557: a count of one on a power block. -/
theorem ctr_addCtr_pwr (s : State) (w : Wing) (off : Nat) :
    (ctr (addCtr s (blkPwr w) off) (blkPwr w) off).toNat = min (2 ^ 64 - 1) ((ctr s (blkPwr w) off).toNat + 1) :=
  ctr_addCtr_any s (blkPwr_lt w) (blkPwr_ne_evLost w off) (Nat.le_refl 1)

/-! ### Stacks -/

theorem stackOf_modStack_of_ne (s : State) {k j : Nat} (f : Stack → Stack) (h : j ≠ k) :
    stackOf (s.modStack k f) j = stackOf s j := by
  simp [stackOf, State.modStack, Table.find_insert, h]

theorem modStack_onlyChanges (s : State) (k : Nat) (f : Stack → Stack) : OnlyChanges [.power] s (s.modStack k f) :=
  (State_modStack_touch s k f).onlyChanges_of_cells rfl fun p => by cases p <;> decide

theorem modCluster_onlyChanges (s : State) (t : Tile) (r : Nat) (f : Cluster → Cluster) :
    OnlyChanges [.power] s (s.modCluster t r f) :=
  (State_modCluster_touch s t r f).onlyChanges_of_cells rfl fun p => by cases p <;> decide

/-- What a count or an event of a power block leaves. -/
theorem Touch.powerCounted {s t : State} (h : Touch 0x881c0000 s t) :
    OnlyChanges [.power, .hifCtrs, .logs, .pages, .hostOut] s t :=
  h.onlyChanges_of_cells rfl fun p => by cases p <;> decide

/-! ### Operating points -/

theorem settlePoint_load (c : Cluster) : (settlePoint c).load = c.load := by unfold settlePoint; dsimp only; split <;> rfl
theorem settlePoint_cap (c : Cluster) : (settlePoint c).cap = c.cap := by unfold settlePoint; dsimp only; split <;> rfl
theorem settlePoint_point (c : Cluster) : (settlePoint c).point = c.point := by unfold settlePoint; dsimp only; split <;> rfl
theorem settlePoint_hot (c : Cluster) : (settlePoint c).hot = c.hot := by unfold settlePoint; dsimp only; split <;> rfl
theorem settlePoint_cool (c : Cluster) : (settlePoint c).cool = c.cool := by unfold settlePoint; dsimp only; split <;> rfl

theorem settlePoint_changing_of_some {c : Cluster} {x : Nat} (h : c.changing = some x) : (settlePoint c).changing = some x := by
  simp [settlePoint, h]

/-- R534: where no change runs, one begins towards the lower of the two points that is not the cluster's. -/
theorem settlePoint_changing_of_none {c : Cluster} (h : c.changing = none) :
    (settlePoint c).changing = if max c.load c.cap = c.point then none else some (max c.load c.cap) := by
  unfold settlePoint
  by_cases hp : max c.load c.cap = c.point <;> simp [h, hp]

/-- R534: the cap after one reading. -/
theorem heatCluster_cap (c : Cluster) (m : Int) : (heatCluster c m).cap =
    if 105000 < m ∧ c.hot = 9 then min 3 (c.cap + 1) else if m < 100000 ∧ c.cool = 99 then c.cap - 1 else c.cap := by
  unfold heatCluster
  dsimp only
  rw [settlePoint_cap]
  have hhot : (if 105000 < m then c.hot + 1 else 0) = 10 ↔ 105000 < m ∧ c.hot = 9 := by split <;> omega
  have hcool : (if m < 100000 then c.cool + 1 else 0) = 100 ↔ m < 100000 ∧ c.cool = 99 := by split <;> omega
  simp only [hhot, hcool]
  split
  · rfl
  · split <;> rfl

theorem heatCluster_rest (c : Cluster) (m : Int) : (heatCluster c m).point = c.point ∧ (heatCluster c m).load = c.load
    ∧ (heatCluster c m).hot = (if 105000 < m then c.hot + 1 else 0) % 10
    ∧ (heatCluster c m).cool = (if m < 100000 then c.cool + 1 else 0) % 100 := by
  refine ⟨?_, ?_, ?_, ?_⟩
  · simp only [heatCluster, settlePoint_point, apply_ite Cluster.point, ite_self]
  · simp only [heatCluster, settlePoint_load, apply_ite Cluster.load, ite_self]
  · simp only [heatCluster, settlePoint_hot, apply_ite Cluster.hot, ite_self]
  · simp only [heatCluster, settlePoint_cool, apply_ite Cluster.cool, ite_self]

/-- R534: the cap leaves 0 with the tenth hot reading in a row alone. -/
theorem heatCluster_leaves_zero (c : Cluster) (m : Int) :
    (c.cap = 0 ∧ (heatCluster c m).cap ≠ 0) ↔ (c.cap = 0 ∧ 105000 < m ∧ c.hot = 9) := by
  rw [heatCluster_cap]
  constructor
  · rintro ⟨h0, hne⟩
    refine ⟨h0, ?_⟩
    by_contra hcold
    rw [if_neg hcold] at hne
    split at hne <;> omega
  · rintro ⟨h0, hhot⟩
    refine ⟨h0, ?_⟩
    rw [if_pos hhot]
    omega

/-- The state after one reading of a cluster's sensor, its events still to come. -/
def heated (s : State) (t : Tile) (r : Nat) (m : Int) : State := s.modCluster t r fun _ => heatCluster (clusterOf s t r) m

/-- The events of a reading: the first step from P0 is counted and reported, the return to it is reported (R534). -/
def capNoted (s : State) (t : Tile) (r : Nat) (old new : Nat) : State :=
  if old = 0 ∧ new ≠ 0 then raise (addCtr s (blkPwr (wingOf t)) 0x1008) 0x0704 (clusterNum t r) (blkPwr (wingOf t))
  else if old ≠ 0 ∧ new = 0 then raise s 0x0705 (clusterNum t r) (blkPwr (wingOf t))
  else s

theorem exec_thermalCapSample {s : State} {t : Tile} {row : Fin 22} {m : Int} (hup : mainUp s = true)
    (hon : clusterOff s t row.val = false) : exec (.thermalCapSample t row m) s =
    .next (capNoted (heated s t row.val m) t row.val (clusterOf s t row.val).cap (heatCluster (clusterOf s t row.val) m).cap) :=
  congrArg Host.Outcome.next (if_neg (by rw [hup, hon]; decide))

theorem capNoted_touch (s : State) (t : Tile) (r old new : Nat) : Touch 0x881c0000 s (capNoted s t r old new) := by
  unfold capNoted
  split
  · exact Touch.step (raise_touch ..) rfl ((addCtr_touch_pwr ..).weaken rfl)
  · split
    · exact (raise_touch ..).weaken rfl
    · exact Touch.refl s

theorem clusterOf_capNoted (s : State) (t : Tile) (r old new : Nat) (u : Tile) (q : Nat) :
    clusterOf (capNoted s t r old new) u q = clusterOf s u q := by
  unfold capNoted
  split
  · exact (clusterOf_congr (by rw [raise_power]) u q).trans (clusterOf_addCtr_pwr ..)
  · split
    · exact clusterOf_congr (by rw [raise_power]) u q
    · rfl

theorem ctr_capNoted (s : State) (t : Tile) (r old new : Nat) :
    (ctr (capNoted s t r old new) (blkPwr (wingOf t)) 0x1008).toNat = if old = 0 ∧ new ≠ 0 then
      min (2 ^ 64 - 1) ((ctr s (blkPwr (wingOf t)) 0x1008).toNat + 1) else (ctr s (blkPwr (wingOf t)) 0x1008).toNat := by
  unfold capNoted
  split
  · rw [ctr_raise _ _ _ _ _ (blkPwr_ne_evLost _ _), ctr_addCtr_pwr]
  · split
    · rw [ctr_raise _ _ _ _ _ (blkPwr_ne_evLost _ _)]
    · rfl

/-- A change of point that is done: the cluster stands there, and goes on where its points have moved (R534). -/
def pointChanged (s : State) (t : Tile) (r x : Nat) : State :=
  s.modCluster t r fun c => settlePoint { c with point := x, changing := none }

theorem exec_dvfsPointChangeDone {s : State} {t : Tile} {row : Fin 22} {x : Nat} (hx : (clusterOf s t row.val).changing = some x) :
    exec (.dvfsPointChangeDone t row) s = .next (addCtr (pointChanged s t row.val x) (blkPwr (wingOf t)) 0x1000) := by
  show Host.Outcome.next (match (clusterOf s t row.val).changing with | none => _ | some _ => _) = _
  rw [hx]
  rfl

theorem exec_dvfsPointChangeDone_idle {s : State} {t : Tile} {row : Fin 22} (hx : (clusterOf s t row.val).changing = none) :
    exec (.dvfsPointChangeDone t row) s = .next s := by
  show Host.Outcome.next (match (clusterOf s t row.val).changing with | none => _ | some _ => _) = _
  rw [hx]

end Sys2Proof.Machine

namespace Sys2Proof

open Sys2Proof.Machine

/-- Settles O60: each command is one change of a cluster or a stack, with its count. -/
theorem blocksSaveEnergy : Obligations.BlocksSaveEnergy := by
  unfold Obligations.BlocksSaveEnergy
  dsimp only
  refine ⟨fun s t row => ?_, fun s t row hup hon => ⟨fun waited cycles hrun hcycles => ?_, fun m => ?_, fun x hx => ?_, fun hnone => ?_⟩⟩
  · refine ⟨fun hup hon hrun hidle => congrArg Host.Outcome.next (if_pos ?_), fun hbusy => congrArg Host.Outcome.next (if_neg ?_),
      fun hup hgated hstill => congrArg Host.Outcome.next (if_pos (by rw [hup, hgated, hstill]; rfl)),
      fun hw => congrArg Host.Outcome.next (if_pos hw), fun hw => congrArg Host.Outcome.next (if_neg (by rw [hw]; decide)),
      fun hmem pc => ?_, fun hmem k hk => ?_, fun hmem k m => ?_⟩
    · have hstate : (clusterOf s t row.val).state = .run := hrun
      rw [hup, hon, hidle, hstate]
      rfl
    · rw [hbusy, Bool.not_true, Bool.and_false]
      decide
    · refine ⟨_, congrArg Host.Outcome.next (if_pos hmem), ?_, fun k hk => stackOf_modStack_of_ne s _ hk, modStack_onlyChanges s _ _⟩
      rw [stackOf_modStack_self]
      exact (mem_insertSorted ..).2 (.inr rfl)
    · refine ⟨_, congrArg Host.Outcome.next (if_pos (by rw [hmem, hk]; rfl)), ?_, fun j hj => ?_, ?_,
        Touch.powerCounted (Touch.step (addCtr_touch_pwr ..) rfl ((State_modStack_touch ..).weaken rfl))⟩
      · rw [stackOf_addCtr_pwr, stackOf_modStack_self]
      · rw [stackOf_addCtr_pwr, stackOf_modStack_of_ne s _ hj]
      · rw [ctr_addCtr_pwr]
        rfl
    · refine ⟨_, congrArg Host.Outcome.next (if_pos hmem), ?_, ?_, ?_, fun j hj => stackOf_modStack_of_ne s _ hj, modStack_onlyChanges s _ _⟩
      all_goals rw [stackOf_modStack_self]
  · refine ⟨_, congrArg Host.Outcome.next (if_pos ?_), ?_, ?_, ?_, fun hnone => ?_, fun x hx => ?_, modCluster_onlyChanges s _ _ _⟩
    · have hstate : (clusterOf s t row.val).state = .run := hrun
      rw [hup, hon, hstate]
      simp
      omega
    all_goals rw [clusterOf_modCluster_self]
    · rw [settlePoint_load]
    · rw [settlePoint_cap]
    · rw [settlePoint_point]
    · rw [settlePoint_changing_of_none (by exact hnone), settlePoint_load]
    · exact settlePoint_changing_of_some hx
  · obtain ⟨hpoint, hload, hhot, hcool⟩ := heatCluster_rest (clusterOf s t row.val) m
    have hnow : clusterOf (heated s t row.val m) t row.val = heatCluster (clusterOf s t row.val) m := clusterOf_modCluster_self ..
    refine ⟨_, exec_thermalCapSample hup hon, ?_, fun hm => ?_, fun hm => ?_, ?_, ?_, ?_,
      Touch.powerCounted (Touch.step (capNoted_touch ..) rfl ((State_modCluster_touch ..).weaken rfl))⟩
    · rw [clusterOf_capNoted, hnow, heatCluster_cap]
    · rw [clusterOf_capNoted, hnow, hhot, if_neg (Int.not_lt.2 hm)]
    · rw [clusterOf_capNoted, hnow, hcool, if_neg (Int.not_lt.2 hm)]
    · rw [clusterOf_capNoted, hnow, hpoint]
    · rw [clusterOf_capNoted, hnow, hload]
    · rw [ctr_capNoted]
      exact if_congr (heatCluster_leaves_zero ..) rfl rfl
  · have hnow : clusterOf (addCtr (pointChanged s t row.val x) (blkPwr (wingOf t)) 0x1000) t row.val =
        settlePoint { clusterOf s t row.val with point := x, changing := none } :=
      (clusterOf_addCtr_pwr ..).trans (clusterOf_modCluster_self ..)
    refine ⟨_, exec_dvfsPointChangeDone hx, ?_, ?_, ?_, ?_, ?_,
      Touch.powerCounted (Touch.step (addCtr_touch_pwr ..) rfl ((State_modCluster_touch ..).weaken rfl))⟩
    · rw [hnow, settlePoint_point]
    · rw [hnow, settlePoint_load]
    · rw [hnow, settlePoint_cap]
    · rw [hnow, settlePoint_changing_of_none rfl]
    · rw [ctr_addCtr_pwr]
      rfl
  · exact exec_dvfsPointChangeDone_idle hnone

end Sys2Proof
end

section
/-!
PROOF. The device state where no rule is active (R506 to R510): entering a state, going on to SHUNT, and the work that ends while
the module leaves service.
-/

namespace Sys2Proof.Machine

/-! ### A state entered while no rule is active (R509, R515, R516) -/

theorem ruleState_congr {s t : State} (h : t.cst.rules = s.cst.rules) (r : Nat) : ruleState t r = ruleState s r := by
  rw [ruleState, h, ruleState]

theorem rulesQuiet_congr {s t : State} (h : t.cst.rules = s.cst.rules) (hq : RulesQuiet s) : RulesQuiet t := fun r => by
  rw [ruleState_congr h]; exact hq r

theorem standingCut_quiet {s : State} (hq : RulesQuiet s) : standingCut s = none :=
  List.find?_eq_none.2 fun r _ => by simp [hq r]

theorem alertDue_quiet {s : State} (hq : RulesQuiet s) : alertDue s = (s.cst.state == .halt) := by
  have hnone : ((List.range 32).any fun r =>
      (ruleState s r).active && (ruleOf s r).action == 2 && ruleActs (ruleOf s r) s.cst.state) = false :=
    List.any_eq_false.2 fun r _ => by simp [hq r]
  rw [alertDue, hnone, Bool.or_false]

/-- ALERT_N in a device state where no rule asks for it. -/
def alertSet (s : State) (d : DevState) : State := s.modCst fun c => { c with alertN := !(d == .halt) }

/-- EV_STATE while the main device is powered (R509). -/
def stateReported (s : State) (d : DevState) : State := if s.power.pwrGood then raise s 0x0701 d.code blkCst else s

theorem stateReported_touch (s : State) (d : DevState) : Touch 0x801c0000 s (stateReported s d) := by
  unfold stateReported
  split
  · exact raise_touch ..
  · exact Touch.refl s

theorem stateReported_cst (s : State) (d : DevState) : (stateReported s d).cst = s.cst := (stateReported_touch s d).eq .cst rfl

/-- R509: where no rule is active a state is entered and reported, and nothing else happens. -/
theorem enterState_quiet {s : State} (hq : RulesQuiet s) (d : DevState) :
    enterState s d = alertSet (stateReported (s.modCst fun c => { c with state := d }) d) d := by
  have hcst : (stateReported (s.modCst fun c => { c with state := d }) d).cst = { s.cst with state := d } := stateReported_cst ..
  have hq' : RulesQuiet (stateReported (s.modCst fun c => { c with state := d }) d) :=
    rulesQuiet_congr (by rw [hcst]) hq
  have hcut : (if d = .halt then none else standingCut (stateReported (s.modCst fun c => { c with state := d }) d)) = none := by
    rw [standingCut_quiet hq', ite_self]
  have hsettled : enterState s d = settleAlert (stateReported (s.modCst fun c => { c with state := d }) d) := by
    show (match (if d = .halt then none else standingCut (stateReported (s.modCst fun c => { c with state := d }) d)) with
      | some _ => _ | none => _) = _
    rw [hcut]
    rfl
  rw [hsettled, settleAlert, alertDue_quiet hq', hcst]
  rfl

theorem enterState_quiet_cst {s : State} (hq : RulesQuiet s) (d : DevState) :
    (enterState s d).cst = { s.cst with state := d, alertN := !(d == .halt) } := by
  rw [enterState_quiet hq, alertSet, modCst_cst, stateReported_cst]
  rfl

theorem enterState_quiet_touch {s : State} (hq : RulesQuiet s) (d : DevState) : Touch 0x841c0000 s (enterState s d) := by
  rw [enterState_quiet hq]
  exact Touch.step (State_modCst_touch ..) rfl (Touch.step (stateReported_touch ..) rfl ((State_modCst_touch ..).weaken rfl))

/-- Before PWR_GOOD nothing is reported. -/
theorem enterState_quiet_unpowered {s : State} (hq : RulesQuiet s) (hp : s.power.pwrGood = false) (d : DevState) :
    Touch 0x4000000 s (enterState s d) := by
  have hsilent : stateReported (s.modCst fun c => { c with state := d }) d = s.modCst fun c => { c with state := d } :=
    if_neg (by rw [show (s.modCst fun c => { c with state := d }).power = s.power from rfl, hp]; decide)
  rw [enterState_quiet hq, hsilent]
  exact Touch.step (State_modCst_touch ..) rfl (State_modCst_touch ..)

theorem rulesQuiet_enterState {s : State} (hq : RulesQuiet s) (d : DevState) : RulesQuiet (enterState s d) :=
  rulesQuiet_congr (by rw [enterState_quiet_cst hq]) hq

/-- R508: SHUNT is entered, and with target DEPOT the module goes on to going to depot. -/
theorem enterShunt_quiet_cst {s : State} (hq : RulesQuiet s) : (enterShunt s).cst =
    { s.cst with state := if s.cst.target = .depot then .toDepot else .shunt, alertN := true } := by
  have hshunt := enterState_quiet_cst hq .shunt
  have hstate : (enterState s .shunt).cst.state = .shunt := by rw [hshunt]
  have htarget : (enterState s .shunt).cst.target = s.cst.target := by rw [hshunt]
  unfold enterShunt settleTarget
  rw [hstate, htarget]
  cases ht : s.cst.target with
  | depot =>
    dsimp only
    rw [enterState_quiet_cst (rulesQuiet_enterState hq _), hshunt]
    simp
  | _ => simp [hshunt]

theorem enterShunt_quiet_touch {s : State} (hq : RulesQuiet s) : Touch 0x841c0000 s (enterShunt s) := by
  have hshunt := enterState_quiet_cst hq .shunt
  have hstate : (enterState s .shunt).cst.state = .shunt := by rw [hshunt]
  have ht := enterState_quiet_touch hq .shunt
  unfold enterShunt settleTarget
  rw [hstate]
  cases (enterState s .shunt).cst.target with
  | depot => exact Touch.step (enterState_quiet_touch (rulesQuiet_enterState hq _) _) rfl ht
  | _ => exact ht

end Sys2Proof.Machine
end

section
/-!
PROOF. Reading and writing the object dictionary by frames on an idle path (R491, R492, R495, R499 to R501).
-/

namespace Sys2Proof.Machine

/-! ### Frames of a request -/

theorem ofNat_low (i j : Byte) : BitVec.ofNat 8 (i.toNat + 256 * j.toNat) = i := by
  apply BitVec.eq_of_toNat_eq
  rw [BitVec.toNat_ofNat]
  omega

theorem ofNat_high (i j : Byte) : BitVec.ofNat 8 ((i.toNat + 256 * j.toNat) / 256) = j := by
  apply BitVec.eq_of_toNat_eq
  rw [BitVec.toNat_ofNat]
  omega

/-- A reply names the entry with the bytes of its request. -/
theorem replyFrame_bytes (s : State) (fd : CanFormat) (kind : Nat) (i j k : Byte) (rest : List Byte) :
    replyFrame s fd kind (i.toNat + 256 * j.toNat) k.toNat rest = sendFrame s fd ([BitVec.ofNat 8 kind, i, j, k] ++ rest) := by
  rw [replyFrame, ofNat_low, ofNat_high, BitVec.ofNat_toNat, BitVec.setWidth_eq]

theorem expedited_lt (fd : CanFormat) : expedited fd < 64 := by
  unfold expedited
  split <;> decide

theorem frameKind_read (fd : CanFormat) (i j k : Byte) : frameKind fd [0xC1, i, j, k] = .read := rfl

theorem frameKind_write {fd : CanFormat} {bs : List Byte} (i j k : Byte) (h : bs.length ≤ expedited fd) :
    frameKind fd ([BitVec.ofNat 8 bs.length, i, j, k] ++ bs) = .write bs.length := by
  have hsmall := expedited_lt fd
  have hkind : frByte ([BitVec.ofNat 8 bs.length, i, j, k] ++ bs) 0 = bs.length := by
    show (BitVec.ofNat 8 bs.length).toNat = bs.length
    rw [BitVec.toNat_ofNat]
    omega
  have hlen : ([BitVec.ofNat 8 bs.length, i, j, k] ++ bs).length = 4 + bs.length := List.length_append
  unfold frameKind
  rw [hkind, hlen]
  dsimp only
  rw [if_neg (by simp), if_pos (by omega), if_pos ⟨Nat.le_refl _, h⟩]

/-! ### An idle path (R496) -/

/-- The Custodian's queue holds nothing. -/
theorem modCst_queue_nil {s : State} (hq : s.cst.queue = []) : (s.modCst fun c => { c with queue := [] }) = s := by
  show { s with cst := { s.cst with queue := [] } } = s
  rw [← hq]

/-- R496: a frame on an idle path is served as it comes. -/
theorem receiveFrame_idle {s : State} (hp : s.power.inputPower = true) (hq : s.cst.queue = []) (fd : CanFormat) (b : List Byte) :
    receiveFrame s fd b false = serveFrame s fd b := by
  have hjoined : (s.modCst fun c => { c with queue := c.queue ++ [.frame fd b] }).cst.queue = [.frame fd b] := by
    show s.cst.queue ++ [_] = _
    rw [hq]; rfl
  have hhead : serveHead (s.modCst fun c => { c with queue := c.queue ++ [.frame fd b] }) = serveFrame s fd b := by
    rw [serveHead, hjoined]
    show serveFrame (s.modCst fun c => { c with queue := [] }) fd b = _
    rw [modCst_queue_nil hq]
  rw [receiveFrame, hp, hq]
  show serveQueue (s.modCst fun c => { c with queue := c.queue ++ [.frame fd b] }).cst.queue.length _ = _
  rw [hjoined]
  exact hhead

/-- The client's transfer ends. -/
def xferClosed (s : State) : State := s.modCst fun c => { c with canXfer := none }

/-! ### READ (R500, R501) -/

theorem serveRead_refused {s : State} {index sub c : Nat} (fd : CanFormat) (h : accessReason s index sub false = some c) :
    serveRead s fd index sub = refuse (xferClosed s) fd index sub c := by
  show (match accessReason s index sub false, dictEntry index sub with
    | some _, _ => _ | none, none => _ | none, some _ => _) = _
  rw [h]
  rfl

theorem serveRead_value {s : State} {index sub : Nat} {e : DEntry} {fd : CanFormat} (h : accessReason s index sub false = none)
    (he : dictEntry index sub = some e) (hs : e.type.size.isSome = true) (hv : (dictRead s index sub).length ≤ expedited fd) :
    serveRead s fd index sub
      = replyFrame (xferClosed s) fd (64 + (dictRead s index sub).length) index sub (dictRead s index sub) := by
  show (match accessReason s index sub false, dictEntry index sub with
    | some _, _ => _ | none, none => _ | none, some _ => _) = _
  rw [h, he]
  exact if_pos ⟨hs, hv⟩

theorem serveRead_segments {s : State} {index sub : Nat} {e : DEntry} {fd : CanFormat} (h : accessReason s index sub false = none)
    (he : dictEntry index sub = some e) (hs : e.type.size = none ∨ expedited fd < (dictRead s index sub).length)
    (hv : dictRead s index sub ≠ []) : serveRead s fd index sub
      = sendSegment (replyFrame (xferClosed s) fd 0xC3 index sub (leBytes 4 (dictRead s index sub).length)) fd
          { write := false, index := index, sub := sub, total := (dictRead s index sub).length, data := dictRead s index sub, fd := fd } := by
  have hlong : ¬ (e.type.size.isSome = true ∧ (dictRead s index sub).length ≤ expedited fd) := by
    rintro ⟨h1, h2⟩
    rcases hs with hs | hs
    · rw [hs] at h1; cases h1
    · omega
  show (match accessReason s index sub false, dictEntry index sub with
    | some _, _ => _ | none, none => _ | none, some _ => _) = _
  rw [h, he]
  refine (if_neg hlong).trans (if_neg ?_)
  show ¬ (dictRead s index sub).isEmpty = true
  simpa using hv

theorem accessReason_undefined {s : State} {index sub : Nat} (w : Bool) (h : dictEntry index sub = none) :
    accessReason s index sub w = some 0x0001 := by rw [accessReason, h]

/-! ### WRITE (R492, R500) -/

theorem serveWrite_refused {s : State} {index sub c : Nat} {bs : List Byte} (fd : CanFormat)
    (h : writeReason s index sub bs = some c) : serveWrite s fd index sub bs = refuse (xferClosed s) fd index sub c := by
  show (match writeReason s index sub bs with
    | some _ => _ | none => _) = _
  rw [h]
  rfl

theorem serveWrite_accepted {s : State} {index sub : Nat} {bs : List Byte} (fd : CanFormat)
    (h : writeReason s index sub bs = none) : serveWrite s fd index sub bs
      = afterReply (replyFrame (performWrite (xferClosed s) index sub bs) fd 0xC6 index sub) index bs := by
  show (match writeReason s index sub bs with
    | some _ => _ | none => _) = _
  rw [h]
  rfl

/-- A value is held for an entry; where the main device does not take it yet, the write is held back as well (R492). -/
def valueHeld (s : State) (index sub : Nat) (bs : List Byte) : State :=
  s.modCst fun c => { c with
    dict := Table.insert c.dict (dictKey index sub) bs
    heldWrites := if writeHeld s index then c.heldWrites ++ [(dictKey index sub, bs)] else c.heldWrites }

theorem valueHeld_dict (s : State) (index sub : Nat) (bs : List Byte) :
    (valueHeld s index sub bs).cst.dict = Table.insert s.cst.dict (dictKey index sub) bs := rfl

/-- An entry with no effect of its own beyond the value held. -/
theorem performWrite_held {index : Nat} (s : State) (sub : Nat) (bs : List Byte)
    (h1 : index ≠ 0x1010) (h2 : index ≠ 0x1011) (h3 : index ≠ 0x2000) (h4 : index ≠ 0x6000) :
    performWrite s index sub bs = afterWrite (valueHeld s index sub bs) index sub (leNat bs) (ruleOf s (index - 0x7100)) := by
  unfold performWrite
  split
  · exact absurd rfl h1
  · exact absurd rfl h2
  · exact absurd rfl h3
  · exact absurd rfl h4
  · rfl

/-- An operation that keeps the values held and stored, the node and the strap. -/
structure KeepsValues (s t : State) : Prop where
  dict : t.cst.dict = s.cst.dict
  store : t.cst.store = s.cst.store
  node : t.cst.node = s.cst.node

theorem KeepsValues.refl (s : State) : KeepsValues s s := ⟨rfl, rfl, rfl⟩

theorem KeepsValues.trans {s t u : State} (h : KeepsValues s t) (h' : KeepsValues t u) : KeepsValues s u :=
  ⟨h'.dict.trans h.dict, h'.store.trans h.store, h'.node.trans h.node⟩

theorem Touch.keepsValues {m : Nat} {s t : State} (h : Touch m s t) (hm : m.testBit StatePart.cst.idx = false) : KeepsValues s t := by
  have e : t.cst = s.cst := h.eq .cst hm
  exact ⟨by rw [e], by rw [e], by rw [e]⟩

theorem clearedRule_keepsValues (s : State) (r : Nat) (x : Rule) (v : Int) : KeepsValues s (clearedRule s r x v) :=
  (clearedRule_touch ..).keepsValues rfl

theorem resetRule_keepsValues (s : State) (r : Nat) (x : Rule) : KeepsValues s (resetRule s r x) := by
  unfold resetRule
  dsimp only
  split
  · have hcleared := clearedRule_keepsValues (s.modCst fun c => { c with rules := Table.insert c.rules r {} }) r x
      (ruleValue (s.modCst fun c => { c with rules := Table.insert c.rules r {} }) x)
    exact ⟨hcleared.dict, hcleared.store, hcleared.node⟩
  · exact ⟨rfl, rfl, rfl⟩

theorem afterWrite_keepsValues (s : State) (index sub v : Nat) (old : Rule) : KeepsValues s (afterWrite s index sub v old) := by
  unfold afterWrite
  split
  · exact resetRule_keepsValues ..
  · split
    · exact ⟨rfl, rfl, rfl⟩
    · split
      · exact (applyGenAllow_touch ..).keepsValues rfl
      · exact .refl s
    · exact .refl s

theorem afterReply_other {index : Nat} (s : State) (bs : List Byte) (h : index ≠ 0x2000) : afterReply s index bs = s := if_neg h

/-! ### Reasons (R491, R492, R495) -/

theorem writeReason_undefined {s : State} {index sub : Nat} (bs : List Byte) (h : dictEntry index sub = none) :
    writeReason s index sub bs = some 0x0001 := by rw [writeReason, accessReason_undefined true h]

/-- Why an entry that the device serves may not be written: by its access code. -/
def accessRefusal (s : State) (a : DAccess) : Option Nat :=
  match a with
  | .ro => some 0x0002
  | .const => some 0x0002
  | .rws => if s.cst.state = .shunt then none else some 0x0003
  | _ => none

theorem accessReason_write {s : State} {index sub : Nat} {e : DEntry} (he : dictEntry index sub = some e)
    (hm : mainEntry index = false ∨ mainServes s = true) : accessReason s index sub true = accessRefusal s e.access := by
  have hserved : (mainEntry index && !mainServes s) = false := by
    rcases hm with hm | hm <;> simp [hm]
  rw [accessReason, he]
  show (if (mainEntry index && !mainServes s) = true then _ else _) = _
  rw [hserved]
  rfl

theorem writeReason_of_access {s : State} {index sub c : Nat} (bs : List Byte) (h : accessReason s index sub true = some c) :
    writeReason s index sub bs = some c := by rw [writeReason, h]

theorem writeReason_of_value {s : State} {index sub : Nat} {e : DEntry} (bs : List Byte) (he : dictEntry index sub = some e)
    (h : accessReason s index sub true = none) : writeReason s index sub bs = valueReason s index sub e bs := by
  rw [writeReason, h, he]

theorem valueReason_length {s : State} {index sub n : Nat} {e : DEntry} {bs : List Byte} (hn : e.type.size = some n)
    (h : bs.length ≠ n) : valueReason s index sub e bs = some 0x0005 := by
  rw [valueReason, hn]
  exact if_pos h

theorem valueReason_range {s : State} {index sub : Nat} {e : DEntry} {bs : List Byte} (hn : e.type.size = some bs.length)
    (h : dictRange s index sub (leNat bs) = false) : valueReason s index sub e bs = some 0x0004 := by
  rw [valueReason, hn]
  refine (if_neg (fun hne => hne rfl)).trans (if_pos (.inr ?_))
  rw [h]
  rfl

end Sys2Proof.Machine

namespace Sys2Proof

open Sys2Proof.Machine

/-- Settles O52: READ by the three shapes of its answer, WRITE by the value it leaves held and by the first reason that refuses it. -/
theorem dictionaryReadAndWritten : Obligations.DictionaryReadAndWritten := by
  unfold Obligations.DictionaryReadAndWritten
  refine ⟨fun s fd i j k hp hq => ?_, fun s fd i j k bs hp hq hlen => ?_⟩
  · have hread : exec (.dapRead fd [0xC1, i, j, k] false) s = .next (serveRead s fd (i.toNat + 256 * j.toNat) k.toNat) :=
      congrArg Host.Outcome.next (receiveFrame_idle hp hq fd [0xC1, i, j, k])
    dsimp only
    refine ⟨fun c h => ?_, fun e h he hs hv => ?_, fun e h he hs hv => ?_, accessReason_undefined false⟩
    · rw [hread, serveRead_refused fd h, refuse, replyFrame_bytes]
      rfl
    · rw [hread, serveRead_value h he hs hv, replyFrame_bytes]
      rfl
    · rw [hread, serveRead_segments h he hs hv, replyFrame_bytes]
      simp only [sendSegment, sendFrame, xferClosed, State.modCst, List.map_cons, List.map_nil, List.append_assoc]
      rfl
  · have hwrite : exec (.dapWrite fd ([BitVec.ofNat 8 bs.length, i, j, k] ++ bs) false) s
        = .next (serveWrite s fd (i.toNat + 256 * j.toNat) k.toNat bs) := by
      have hkind := frameKind_write i j k hlen
      show Host.Outcome.next (if frameIs fd _ _ = true then _ else _) = _
      rw [if_pos (by rw [frameIs, hkind]; rfl), receiveFrame_idle hp hq, serveFrame, hkind]
      exact congrArg (fun l => Host.Outcome.next (serveWrite s fd (i.toNat + 256 * j.toNat) k.toNat l)) (List.take_length)
    dsimp only
    refine ⟨fun c h => ?_, fun h h1 h2 h3 h4 => ?_, writeReason_undefined bs, fun e he hm => ⟨?_, ?_, ?_, ?_⟩⟩
    · rw [hwrite, serveWrite_refused fd h, refuse, replyFrame_bytes]
      rfl
    · have hheld := (KeepsValues.refl (valueHeld (xferClosed s) (i.toNat + 256 * j.toNat) k.toNat bs)).trans
        (afterWrite_keepsValues _ (i.toNat + 256 * j.toNat) k.toNat (leNat bs) (ruleOf (xferClosed s) (i.toNat + 256 * j.toNat - 0x7100)))
      refine ⟨_, hwrite.trans (congrArg Host.Outcome.next ((serveWrite_accepted fd h).trans (afterReply_other _ _ h3))), ?_⟩
      rw [performWrite_held _ _ _ h1 h2 h3 h4, replyFrame_bytes]
      refine ⟨?_, fun x hx => ?_, hheld.store, ?_⟩
      · show (Table.find _ _).getD _ = bs
        rw [show (sendFrame _ fd _).cst.dict = _ from hheld.dict, valueHeld_dict, Table.find_insert_self]
        rfl
      · rw [show (sendFrame _ fd _).cst.dict = _ from hheld.dict]
        exact Table.find_insert_of_ne _ _ hx
      · rw [sendFrame, List.getLast?_concat, hheld.node]
        rfl
    · intro h
      refine writeReason_of_access bs ((accessReason_write he hm).trans ?_)
      rcases h with h | h <;> rw [h] <;> rfl
    · intro h hs
      refine writeReason_of_access bs ((accessReason_write he hm).trans ?_)
      rw [h]
      exact if_neg hs
    · intro n h hn hl
      rw [writeReason_of_value bs he ((accessReason_write he hm).trans (by rw [h]; rfl)), valueReason_length hn hl]
    · intro h hn hr
      rw [writeReason_of_value bs he ((accessReason_write he hm).trans (by rw [h]; rfl)), valueReason_range hn hr]

end Sys2Proof
end

section
/-!
PROOF. The Custodian's queue, segmented transfers, status frames and the mailbox (R496, R499, R501 to R505).
-/

namespace Sys2Proof.Machine

/-! ### The queue (R496) -/

/-- A request waits at the end of the Custodian's queue. -/
def queued (s : State) (q : DictReq) : State := s.modCst fun c => { c with queue := c.queue ++ [q] }

theorem receiveFrame_joins {s : State} (hp : s.power.inputPower = true) (h : s.cst.queue.length < 16) (fd : CanFormat) (b : List Byte) :
    receiveFrame s fd b true = queued s (.frame fd b) := by
  rw [receiveFrame, hp]
  exact if_neg (Nat.not_le.2 h)

theorem receiveFrame_full {s : State} (hp : s.power.inputPower = true) (h : 16 ≤ s.cst.queue.length) (fd : CanFormat) (b : List Byte) :
    receiveFrame s fd b true = replyFrame s fd 0xC8 (frIndex b) (frSub b) := by
  rw [receiveFrame, hp]
  exact if_pos h

/-- A request of either path is served. -/
def serveRequest (s : State) : DictReq → State
  | .frame fd b => serveFrame s fd b
  | .mailbox m => serveMailbox s m

/-- One request waits: it is served, and the queue is empty while it is. -/
theorem serveHead_queued {s : State} (hq : s.cst.queue = []) (q : DictReq) : serveHead (queued s q) = serveRequest s q := by
  have hjoined : (queued s q).cst.queue = [q] := by
    show s.cst.queue ++ [_] = _
    rw [hq]; rfl
  have hback : ((queued s q).modCst fun c => { c with queue := [] }) = s := modCst_queue_nil hq
  rw [serveHead, hjoined]
  dsimp only
  rw [hback]
  cases q <;> rfl

/-- What no ring waits for does nothing (assumption log 16). -/
theorem endWaitingNameless_no_rings {s : State} (h : s.hif.rings = []) : endWaitingNameless s = s := by
  rw [endWaitingNameless, h]
  rfl

/-! ### Segments (R501, R502) -/

theorem frameKind_segment (fd : CanFormat) (q : Fin 64) (bs : List Byte) :
    frameKind fd (BitVec.ofNat 8 (0x80 + q.val) :: bs) = .segment q.val := by
  have hq := q.isLt
  have hkind : frByte (BitVec.ofNat 8 (0x80 + q.val) :: bs) 0 = 0x80 + q.val := by
    show (BitVec.ofNat 8 (0x80 + q.val)).toNat = 0x80 + q.val
    rw [BitVec.toNat_ofNat]
    omega
  unfold frameKind
  rw [hkind]
  dsimp only
  rw [if_neg (by simp), if_neg (by omega), if_pos (by omega), Nat.add_sub_cancel_left]

theorem frameKind_segAck (fd : CanFormat) (i j k q : Byte) : frameKind fd [0xC5, i, j, k, q] = .segAck := rfl

theorem frameKind_writeInit (fd : CanFormat) (i j k : Byte) (n : Nat) : frameKind fd ([0xC2, i, j, k] ++ leBytes 4 n) = .writeInit := rfl

theorem at8_writeInit (i j k : Byte) {n : Nat} (h : n < 2 ^ 32) : at8 ([0xC2, i, j, k] ++ leBytes 4 n) 4 4 = n := by
  show leNat (leBytes 4 n) = n
  rw [leNat_leBytes]
  exact Nat.mod_eq_of_lt h

theorem serveWriteInit_refused {s : State} {index sub c : Nat} (fd : CanFormat) (n : Nat) (h : accessReason s index sub true = some c) :
    serveWriteInit s fd index sub n = refuse (xferClosed s) fd index sub c := by
  show (match accessReason s index sub true with
    | some _ => _ | none => _) = _
  rw [h]
  rfl

theorem serveWriteInit_opens {s : State} {index sub : Nat} (fd : CanFormat) (n : Nat) (h : accessReason s index sub true = none) :
    serveWriteInit s fd index sub n = replyFrame (s.modCst fun c => { c with
      canXfer := some { write := true, index := index, sub := sub, total := n, fd := fd } }) fd 0xC4 index sub := by
  show (match accessReason s index sub true with
    | some _ => _ | none => _) = _
  rw [h]
  rfl

theorem serveSegment_none {s : State} (fd : CanFormat) (q : Nat) (bs : List Byte) (h : s.cst.canXfer = none) :
    serveSegment s fd q bs = abortCan s fd 0x0007 0 0 := by rw [serveSegment, h]

theorem serveSegment_astray {s : State} {x : Transfer} (fd : CanFormat) {q : Nat} (bs : List Byte) (h : s.cst.canXfer = some x)
    (hx : x.write = false ∨ x.expect ≠ q) : serveSegment s fd q bs = abortCan s fd 0x0007 x.index x.sub := by
  rw [serveSegment, h]
  exact if_pos (hx.imp (fun hw => by simp [hw]) Ne.symm)

theorem serveSegment_more {s : State} {x : Transfer} (fd : CanFormat) {bs : List Byte} (h : s.cst.canXfer = some x)
    (hw : x.write = true) (hl : x.data.length + bs.length < x.total) : serveSegment s fd x.expect bs
      = replyFrame (s.modCst fun c => { c with canXfer := some { x with data := x.data ++ bs, expect := (x.expect + 1) % 64 } })
          fd 0xC5 x.index x.sub [BitVec.ofNat 8 x.expect] := by
  have htake : bs.take (x.total - x.data.length) = bs := List.take_of_length_le (by omega)
  rw [serveSegment, h]
  dsimp only
  rw [if_neg (by simp [hw]), htake, if_pos (by rw [List.length_append]; exact hl)]

theorem serveSegment_last {s : State} {x : Transfer} (fd : CanFormat) {bs : List Byte} (h : s.cst.canXfer = some x)
    (hw : x.write = true) (hl : x.data.length + bs.length = x.total) : serveSegment s fd x.expect bs
      = serveWrite s fd x.index x.sub (x.data ++ bs) := by
  have htake : bs.take (x.total - x.data.length) = bs := List.take_of_length_le (by omega)
  rw [serveSegment, h]
  dsimp only
  rw [if_neg (by simp [hw]), htake, if_neg (by rw [List.length_append]; omega)]

theorem serveSegAck_end {s : State} {x : Transfer} (fd : CanFormat) (index sub : Nat) (h : s.cst.canXfer = some x)
    (hw : x.write = false) (hl : x.total ≤ x.offset + segBytes x.fd) : serveSegAck s fd index sub x.expect = xferClosed s := by
  rw [serveSegAck, h]
  exact (if_neg (by simp [hw])).trans (if_pos hl)

theorem serveSegAck_next {s : State} {x : Transfer} (fd : CanFormat) (index sub : Nat) (h : s.cst.canXfer = some x)
    (hw : x.write = false) (hl : x.offset + segBytes x.fd < x.total) : serveSegAck s fd index sub x.expect
      = sendSegment s fd { x with offset := x.offset + segBytes x.fd, expect := (x.expect + 1) % 64 } := by
  rw [serveSegAck, h]
  exact (if_neg (by simp [hw])).trans (if_neg (by omega))

/-! ### The active rules as a bitmap (R503, R517) -/

/-- The bitmap of the first n rules that are active. -/
def ruleMap (f : Nat → Bool) (n : Nat) : Nat := (List.range n).foldl (fun a r => a + b2n (f r) * 2 ^ r) 0

theorem ruleMap_succ (f : Nat → Bool) (n : Nat) : ruleMap f (n + 1) = 2 ^ n * b2n (f n) + ruleMap f n := by
  rw [ruleMap, List.range_succ, List.foldl_append, List.foldl_cons, List.foldl_nil, Nat.add_comm, Nat.mul_comm]
  rfl

theorem ruleMap_lt (f : Nat → Bool) (n : Nat) : ruleMap f n < 2 ^ n := by
  induction n with
  | zero => exact Nat.one_pos
  | succ n ih =>
    have hbit : 2 ^ n * b2n (f n) ≤ 2 ^ n * 1 := Nat.mul_le_mul_left _ (Nat.lt_succ_iff.1 (b2n_lt_two _))
    rw [ruleMap_succ, Nat.pow_succ]
    omega

theorem ruleMap_testBit (f : Nat → Bool) (n r : Nat) : (ruleMap f n).testBit r = (decide (r < n) && f r) := by
  induction n with
  | zero => simp [ruleMap]
  | succ n ih =>
    rw [ruleMap_succ, Nat.testBit_two_pow_mul_add _ (ruleMap_lt f n)]
    rcases Nat.lt_trichotomy r n with h | h | h
    · rw [if_pos h, ih]
      simp [h, Nat.lt_succ_of_lt h]
    · subst h
      rw [if_neg (Nat.lt_irrefl r), Nat.sub_self]
      cases hf : f r <;> simp [b2n]
    · rw [if_neg (by omega)]
      have hbit : (b2n (f n)).testBit (r - n) = false :=
        Nat.testBit_lt_two_pow (Nat.lt_of_lt_of_le (b2n_lt_two _) (Nat.le_self_pow (n := r - n) (by omega) 2))
      rw [hbit]
      simp [show ¬ r < n + 1 by omega]

theorem rulesActive_getLsbD (s : State) {r : Nat} (h : r < 32) : (rulesActive s).getLsbD r = (ruleState s r).active := by
  show (BitVec.ofNat 32 (ruleMap (fun r => (ruleState s r).active) 32)).getLsbD r = _
  rw [BitVec.getLsbD_ofNat, ruleMap_testBit]
  simp [h]

/-! ### The mailbox (R504, R505) -/

/-- Bytes written one after another from a position on. -/
theorem get_foldl_set {t : Table Byte} (ht : Table.canonical 0 t = true) (m : List Byte) (a k : Nat) :
    Table.get 0 ((m.zip (List.range' a m.length)).foldl (fun t x => Table.set 0 t x.2 x.1) t) k
      = if a ≤ k ∧ k < a + m.length then nth 0 m (k - a) else Table.get 0 t k := by
  induction m generalizing a t with
  | nil => rw [if_neg (by simp)]; rfl
  | cons b m ih =>
    rw [List.length_cons, List.range'_succ, List.zip_cons_cons, List.foldl_cons, ih (Table.set_canonical 0 a b ht), Table.get_set 0 ht]
    by_cases hk : k = a
    · subst hk
      rw [if_neg (by omega), if_pos rfl, if_pos (by omega), Nat.sub_self]
      rfl
    · by_cases hin : a + 1 ≤ k ∧ k < a + 1 + m.length
      · obtain ⟨d, rfl⟩ : ∃ d, k = a + 1 + d := ⟨k - (a + 1), by omega⟩
        rw [if_pos hin, if_pos (by omega), Nat.add_sub_cancel_left, show a + 1 + d - a = d + 1 by omega]
        rfl
      · rw [if_neg hin, if_neg hk, if_neg (by omega)]

/-- A register array that holds the bytes of a message from its start on. -/
theorem get_written {t : Table Byte} (ht : Table.canonical 0 t = true) (m : List Byte) {k : Nat} (hk : k < m.length) :
    Table.get 0 ((m.zip (List.range m.length)).foldl (fun t x => Table.set 0 t x.2 x.1) t) k = nth 0 m k := by
  rw [List.range_eq_range', get_foldl_set ht, if_pos (by omega), Nat.sub_zero]

/-- The message in MBX_REQ. -/
def message (s : State) : List Byte := (List.range 2032).map fun i => Table.get 0 s.hif.mbx.req i

/-- The first values of a function that runs through a list. -/
theorem map_range_take {g : Nat → Byte} {m : List Byte} {n : Nat} (hl : m.length ≤ n) (h : ∀ i, i < m.length → g i = nth 0 m i) :
    ((List.range n).map g).take m.length = m := by
  refine List.ext_getElem (by rw [List.length_take, List.length_map, List.length_range]; omega) fun i h1 h2 => ?_
  rw [List.getElem_take, List.getElem_map, List.getElem_range, h i h2, nth, List.getD_eq_getElem _ _ h2]

theorem message_take {s : State} {m : List Byte} (hl : m.length ≤ 2032)
    (h : ∀ i, i < m.length → Table.get 0 s.hif.mbx.req i = nth 0 m i) : (message s).take m.length = m := map_range_take hl h

theorem at8_take {l : List Byte} {off n k : Nat} (h : off + n ≤ k) : at8 (l.take k) off n = at8 l off n := by
  rw [at8, at8, List.drop_take, List.take_take, Nat.min_eq_left (by omega)]

/-- The 16 bytes before a request's or a reply's data, and the data (R504, R505). -/
def request (kind final index sub off len : Nat) : List Byte :=
  leBytes 1 kind ++ leBytes 1 final ++ leBytes 2 index ++ leBytes 1 sub ++ leBytes 3 0 ++ leBytes 4 off ++ leBytes 4 len

/-- The bytes of a reply (R504, R505). -/
def replyBytes (status reason total : Nat) (data : List Byte) : List Byte :=
  leBytes 1 status ++ [0] ++ leBytes 2 reason ++ leBytes 4 0 ++ leBytes 4 total ++ leBytes 4 data.length ++ data

/-- The mailbox after a reply. -/
def replied (x : Mailbox) (m : List Byte) : Mailbox :=
  { x with rsp := (m.zip (List.range m.length)).foldl (fun t y => Table.set 0 t y.2 y.1) x.rsp
           busy := false, done := true, rspLen := m.length }

theorem mailboxReply_mbx (s : State) (status reason total : Nat) (data : List Byte) :
    (mailboxReply s status reason total data).hif.mbx = replied s.hif.mbx (replyBytes status reason total data) := by
  unfold mailboxReply
  dsimp only
  split
  · exact (sendMsix_touch ..).eq .mbx rfl
  · rfl

theorem mailboxReply_cst (s : State) (status reason total : Nat) (data : List Byte) :
    (mailboxReply s status reason total data).cst = s.cst := (mailboxReply_touch ..).eq .cst rfl

/-- The mailbox is busy with a request. -/
def mbxBusy (s : State) : State := s.modHif fun h => { h with mbx := { h.mbx with busy := true } }

/-- A reply stands in the mailbox byte by byte. -/
theorem mailboxReply_rsp {s : State} (hc : Table.canonical 0 s.hif.mbx.rsp = true) (status reason total : Nat) (data : List Byte)
    {k : Nat} (hk : k < (replyBytes status reason total data).length) :
    Table.get 0 (mailboxReply s status reason total data).hif.mbx.rsp k = nth 0 (replyBytes status reason total data) k := by
  rw [mailboxReply_mbx]
  exact get_written hc _ hk

theorem submitMailbox_busy {s : State} (d : Bool) (h : s.hif.mbx.busy = true) : submitMailbox s d = s :=
  if_pos (.inr h)

theorem mbxBusy_touch (s : State) : Touch 0x400000 s (mbxBusy s) := touch_hif_mbx s

theorem submitMailbox_joins {s : State} (hr : hostReaches s .pf0 = true) (hb : s.hif.mbx.busy = false) (h : s.cst.queue.length < 16) :
    submitMailbox s true = queued (mbxBusy s) (.mailbox (message s)) := by
  refine (if_neg (by simp [hr, hb])).trans (if_neg ?_)
  show ¬ 16 ≤ s.cst.queue.length
  omega

theorem submitMailbox_full {s : State} (hr : hostReaches s .pf0 = true) (hb : s.hif.mbx.busy = false) (h : 16 ≤ s.cst.queue.length) :
    submitMailbox s true = mailboxReply (mbxBusy s) 2 0 0 [] :=
  (if_neg (by simp [hr, hb])).trans (if_pos h)

/-- R496: a request in the mailbox is served at once where nothing waits. -/
theorem submitMailbox_idle {s : State} (hr : hostReaches s .pf0 = true) (hb : s.hif.mbx.busy = false) (hq : s.cst.queue = []) :
    submitMailbox s false = serveMailbox (mbxBusy s) (message s) := by
  have hjoined : (queued (mbxBusy s) (.mailbox (message s))).cst.queue.length = 1 := by
    show (s.cst.queue ++ [_]).length = 1
    rw [hq]; rfl
  have hq' : (mbxBusy s).cst.queue = [] := hq
  refine (if_neg (by simp [hr, hb])).trans ((if_neg ?_).trans ?_)
  · show ¬ 16 ≤ s.cst.queue.length
    rw [hq]; decide
  · show serveQueue (queued (mbxBusy s) (.mailbox (message s))).cst.queue.length (queued (mbxBusy s) (.mailbox (message s))) = _
    rw [hjoined]
    exact serveHead_queued hq' _

/-- A request's fields are those of its first 16 bytes. -/
theorem at8_message {s : State} {m : List Byte} (hl : m.length ≤ 2032) (h : ∀ i, i < m.length → Table.get 0 s.hif.mbx.req i = nth 0 m i)
    {off n : Nat} (hn : off + n ≤ m.length) : at8 (message s) off n = at8 m off n := by
  rw [← at8_take hn, message_take hl h]

theorem at8_request_len (kind final index sub off : Nat) {len : Nat} (h : len < 2 ^ 32) :
    at8 (request kind final index sub off len) 12 4 = len := by
  show leNat (leBytes 4 len) = len
  rw [leNat_leBytes]
  exact Nat.mod_eq_of_lt h

theorem at8_request_index (kind final sub off len : Nat) {index : Nat} (h : index < 2 ^ 16) :
    at8 (request kind final index sub off len) 2 2 = index := by
  show leNat (leBytes 2 index) = index
  rw [leNat_leBytes]
  exact Nat.mod_eq_of_lt h

theorem at8_request_sub (kind final index off len : Nat) {sub : Nat} (h : sub < 2 ^ 8) :
    at8 (request kind final index sub off len) 4 1 = sub := by
  show leNat (leBytes 1 sub) = sub
  rw [leNat_leBytes]
  exact Nat.mod_eq_of_lt h

theorem at8_request_off (kind final index sub len : Nat) {off : Nat} (h : off < 2 ^ 32) :
    at8 (request kind final index sub off len) 8 4 = off := by
  show leNat (leBytes 4 off) = off
  rw [leNat_leBytes]
  exact Nat.mod_eq_of_lt h

theorem request_length (kind final index sub off len : Nat) : (request kind final index sub off len).length = 16 := rfl

/-- R505: a well-formed read request is served as a read. -/
theorem serveMailbox_read {s : State} {m : List Byte} {index sub off len : Nat} (hlen : at8 m 12 4 = len) (hfin : at8 m 1 1 = 0)
    (hres : at8 m 5 3 = 0) (hkind : at8 m 0 1 = 1) (hi : at8 m 2 2 = index) (hs : at8 m 4 1 = sub) (ho : at8 m 8 4 = off)
    (hl : len ≤ 2016) : serveMailbox s m = mailboxRead s index sub off len := by
  unfold serveMailbox
  dsimp only
  rw [hlen, hfin, hres, hkind, hi, hs, ho, if_neg (by omega)]
  rfl

/-- R505: a read request that stands in the mailbox. -/
theorem serveMailbox_message_read {s t : State} {index sub off len : Nat} (hi : index < 2 ^ 16) (hs : sub < 2 ^ 8) (ho : off < 2 ^ 32)
    (hl : len ≤ 2016) (hreq : ∀ i, i < 16 → Table.get 0 s.hif.mbx.req i = nth 0 (request 1 0 index sub off len) i) :
    serveMailbox t (message s) = mailboxRead t index sub off len := by
  have hat {a n : Nat} (h : a + n ≤ 16) : at8 (message s) a n = at8 (request 1 0 index sub off len) a n :=
    at8_message (m := request 1 0 index sub off len) (by rw [request_length]; omega) hreq h
  refine serveMailbox_read ?_ ?_ ?_ ?_ ?_ ?_ ?_ hl
  · rw [hat (by omega), at8_request_len _ _ _ _ _ (by omega)]
  · rw [hat (by omega)]; rfl
  · rw [hat (by omega)]; rfl
  · rw [hat (by omega)]; rfl
  · rw [hat (by omega), at8_request_index _ _ _ _ _ hi]
  · rw [hat (by omega), at8_request_sub _ _ _ _ _ hs]
  · rw [hat (by omega), at8_request_off _ _ _ _ _ ho]

theorem mailboxRead_value {s : State} {index sub : Nat} (off len : Nat) (h : accessReason s index sub false = none) :
    mailboxRead s index sub off len = mailboxReply (s.modCst fun c => { c with mbxXfer := none }) 0 0 (dictRead s index sub).length
      (((dictRead s index sub).drop off).take len) := by
  show (match accessReason s index sub false with
    | some _ => _ | none => _) = _
  rw [h]
  rfl

end Sys2Proof.Machine

namespace Sys2Proof

open Sys2Proof.Machine

/-- Settles O53: frames by the state of the queue, segments by the transfer that is open, the status frame by the bitmap of the
rules, and the mailbox by the bytes of its request and reply. -/
theorem requestsQueueAndSegments : Obligations.RequestsQueueAndSegments := by
  unfold Obligations.RequestsQueueAndSegments
  refine ⟨fun s fd i j k hp => ⟨fun h => ?_, fun h => ?_, fun hs qs hq hr => ?_, fun x hx => ?_, fun hx => ?_, rfl, fun a b hq => ?_⟩,
    fun s fd i j k bs q hp hq => ?_, fun s hp => ⟨fun hper => ?_, fun r => rulesActive_getLsbD s, fun hper => ?_⟩, fun s hr => ?_⟩
  · exact congrArg Host.Outcome.next (receiveFrame_joins hp h fd _)
  · exact congrArg Host.Outcome.next ((receiveFrame_full hp h fd _).trans (replyFrame_bytes s fd 0xC8 i j k []))
  · have hserved : serveHead s = serveFrame { s with cst := { s.cst with queue := qs } } fd [0xC1, i, j, k] := by
      rw [serveHead, hq]
      rfl
    have hrings : (serveHead s).hif.rings = [] := by
      rw [hserved]
      exact ((serveRead_touch ..).eq .rings rfl).trans hr
    rw [step_nil s hs, idle, endWaitingNameless_no_rings hrings, hserved]
  · have htimeout : exec (.dapTransferTimeout .can) s = .next (abortCan s x.fd 0x0008 x.index x.sub) := by
      show Host.Outcome.next (match s.cst.canXfer with | some x => _ | none => _) = _
      rw [hx]
    exact ⟨_, htimeout, rfl, rfl, (abortCan_touch ..).onlyChanges_of_cells rfl fun p => by cases p <;> decide⟩
  · show Host.Outcome.next (match s.cst.canXfer with | some x => _ | none => _) = _
    rw [hx]
  · exact congrArg Host.Outcome.next (receiveFrame_idle hp hq fd [0xC9, i, j, k, a, b])
  · have hinit : ∀ n, n < 2 ^ 32 → exec (.dapWriteInit fd ([0xC2, i, j, k] ++ leBytes 4 n) false) s
        = .next (serveWriteInit s fd (i.toNat + 256 * j.toNat) k.toNat n) := fun n hn => by
      refine congrArg Host.Outcome.next ((receiveFrame_idle hp hq fd ([0xC2, i, j, k] ++ leBytes 4 n)).trans ?_)
      exact congrArg (serveWriteInit s fd (i.toNat + 256 * j.toNat) k.toNat) (at8_writeInit i j k hn)
    have hsegment : exec (.dapSegment fd (BitVec.ofNat 8 (0x80 + q.val) :: bs) false) s = .next (serveSegment s fd q.val bs) := by
      have hkind := frameKind_segment fd q bs
      show Host.Outcome.next (if frameIs fd _ _ = true then _ else _) = _
      rw [if_pos (by rw [frameIs, hkind]; rfl), receiveFrame_idle hp hq, serveFrame, hkind]
      rfl
    have hack : exec (.dapSegAck fd [0xC5, i, j, k, BitVec.ofNat 8 q.val] false) s
        = .next (serveSegAck s fd (i.toNat + 256 * j.toNat) k.toNat q.val) := by
      have hq8 : (BitVec.ofNat 8 q.val).toNat = q.val := by
        have := q.isLt
        rw [BitVec.toNat_ofNat]
        omega
      refine congrArg Host.Outcome.next ((receiveFrame_idle hp hq fd [0xC5, i, j, k, BitVec.ofNat 8 q.val]).trans ?_)
      exact congrArg (serveSegAck s fd (i.toNat + 256 * j.toNat) k.toNat) hq8
    dsimp only
    refine ⟨fun n hn h => ?_, fun n c hn h => ?_, fun x hx hw he hl => ?_, fun x hx hw he hl => ?_, fun x hx ha => ?_, fun hx => ?_,
      fun x hx hw he hf => ⟨fun hl => ?_, fun hl => ?_⟩⟩
    · rw [hinit n hn, serveWriteInit_opens fd n h, replyFrame_bytes]
      rfl
    · rw [hinit n hn, serveWriteInit_refused fd n h, refuse, replyFrame_bytes]
      rfl
    · rw [hsegment, ← he, serveSegment_more fd hx hw hl]
      rfl
    · rw [hsegment, ← he, serveSegment_last fd hx hw hl]
    · rw [hsegment, serveSegment_astray fd bs hx ha]
      rfl
    · rw [hsegment, serveSegment_none fd q.val bs hx]
      rfl
    · rw [hack, ← he, serveSegAck_end fd _ _ hx hw (by rw [hf]; exact hl)]
      rfl
    · rw [hack, ← he, serveSegAck_next fd _ _ hx hw (by rw [hf]; exact hl), hf]
      rfl
  · exact congrArg Host.Outcome.next (if_pos ⟨hp, hper⟩)
  · exact congrArg Host.Outcome.next (if_neg fun h => h.2 hper)
  · refine ⟨fun hb d => congrArg Host.Outcome.next (submitMailbox_busy d hb), fun hb h => ?_, fun hb h hc => ?_, ?_⟩
    · exact ⟨_, congrArg Host.Outcome.next (submitMailbox_joins hr hb h), rfl, rfl,
        (Touch.step (m := 0x4400000) (State_modCst_touch ..) rfl ((mbxBusy_touch s).weaken rfl)).onlyChanges_of_cells rfl
          fun p => by cases p <;> decide⟩
    · refine ⟨_, congrArg Host.Outcome.next (submitMailbox_full hr hb h), mailboxReply_rsp (s := mbxBusy s) hc 2 0 0 [] (k := 0) (by decide),
        ?_, ?_, ?_, mailboxReply_cst .., (Touch.step (m := 0x80500000) (mailboxReply_touch ..) rfl
          ((mbxBusy_touch s).weaken rfl)).onlyChanges_of_cells rfl fun p => by cases p <;> decide⟩
      all_goals rw [mailboxReply_mbx]; rfl
    · intro index sub off len bytes hb hq hc hbytes hi hs ho hl hreq h
      dsimp only
      have hread : exec (.mailboxGo false) s = .next (mailboxReply ((mbxBusy s).modCst fun c => { c with mbxXfer := none }) 0 0
          (dictRead s index sub).length (((dictRead s index sub).drop off).take len)) := by
        refine congrArg Host.Outcome.next ((submitMailbox_idle hr hb hq).trans ?_)
        rw [serveMailbox_message_read hi hs ho hl (by rw [hbytes] at hreq; exact hreq), mailboxRead_value (s := mbxBusy s) off len h]
        rfl
      refine ⟨_, hread, fun i hi => mailboxReply_rsp (s := (mbxBusy s).modCst fun c => { c with mbxXfer := none }) hc 0 0 _ _ hi,
        ?_, ?_, ?_, ?_, ?_, ?_, (Touch.step (m := 0x84500000) (mailboxReply_touch ..) rfl
          (Touch.step (State_modCst_touch ..) rfl ((mbxBusy_touch s).weaken rfl))).onlyChanges_of_cells rfl fun p => by cases p <;> decide⟩
      · rw [mailboxReply_mbx]; rfl
      · rw [mailboxReply_mbx]; rfl
      · rw [mailboxReply_mbx]; rfl
      · rw [mailboxReply_mbx]; rfl
      · rw [mailboxReply_cst]; rfl
      · rw [mailboxReply_cst]; rfl

end Sys2Proof
end

section
/-!
PROOF. The entries of the dictionary that act when they are written (R493, R508, R509, R516, R559), on either path.
-/

namespace Sys2Proof.Machine

/-! ### One write on a free path (R500, R505) -/

/-- A write request stands in MBX_REQ. -/
def postedWrite (s : State) (index sub : Nat) (bs : List Byte) : State :=
  let m := request 2 1 index sub 0 bs.length ++ bs
  s.modHif fun h => { h with mbx := { h.mbx with
    req := (m.zip (List.range m.length)).foldl (fun t x => Table.set 0 t x.2 x.1) s.hif.mbx.req } }

theorem postedWrite_touch (s : State) (index sub : Nat) (bs : List Byte) : Touch 0x400000 s (postedWrite s index sub bs) := touch_hif_mbx s

/-- The path has taken the request of a write: the client's open transfer has ended. -/
def asked (s : State) (p : DictPath) (index sub : Nat) (bs : List Byte) : State :=
  match p with
  | .can => xferClosed s
  | .mailbox => (mbxBusy (postedWrite s index sub bs)).modCst fun c => { c with mbxXfer := none }

/-- The path has carried the answer to a write of n bytes: DONE, or the reason that refused it. -/
def answered (s : State) (p : DictPath) (index sub n : Nat) (reason : Option Nat) : State :=
  match p, reason with
  | .can, none => replyFrame s .classic 0xC6 index sub
  | .can, some c => refuse s .classic index sub c
  | .mailbox, none => mailboxReply s 0 0 n []
  | .mailbox, some c => mailboxReply s 1 c 0 []

theorem asked_touch (s : State) (p : DictPath) (index sub : Nat) (bs : List Byte) : Touch 0x4400000 s (asked s p index sub bs) := by
  cases p with
  | can => exact (State_modCst_touch s fun c => { c with canXfer := none }).weaken rfl
  | mailbox =>
    exact Touch.step (State_modCst_touch (mbxBusy (postedWrite s index sub bs)) fun c => { c with mbxXfer := none }) rfl
      (Touch.step (mbxBusy_touch _) rfl ((postedWrite_touch ..).weaken rfl))

theorem asked_cst (s : State) (p : DictPath) (index sub : Nat) (bs : List Byte) : (asked s p index sub bs).cst
    = { s.cst with canXfer := (asked s p index sub bs).cst.canXfer, mbxXfer := (asked s p index sub bs).cst.mbxXfer } := by
  cases p <;> rfl

theorem answered_touch (s : State) (p : DictPath) (index sub n : Nat) (reason : Option Nat) :
    Touch 0x180500000 s (answered s p index sub n reason) := by
  cases p <;> cases reason
  · exact (replyFrame_touch ..).weaken rfl
  · exact (refuse_touch ..).weaken rfl
  · exact (mailboxReply_touch ..).weaken rfl
  · exact (mailboxReply_touch ..).weaken rfl

theorem answered_cst (s : State) (p : DictPath) (index sub n : Nat) (reason : Option Nat) :
    (answered s p index sub n reason).cst = s.cst := (answered_touch ..).eq .cst rfl

/-- What a write comes to: its reason, or its effect, the answer and then what STATE_CMD does. -/
def written (s : State) (p : DictPath) (index sub : Nat) (bs : List Byte) : State :=
  match writeReason s index sub bs with
  | some c => answered (asked s p index sub bs) p index sub bs.length (some c)
  | none => afterReply (answered (performWrite (asked s p index sub bs) index sub bs) p index sub bs.length none) index bs

theorem written_refused {s : State} {index sub c : Nat} {bs : List Byte} (p : DictPath) (h : writeReason s index sub bs = some c) :
    written s p index sub bs = answered (asked s p index sub bs) p index sub bs.length (some c) := by rw [written, h]

theorem written_accepted {s : State} {index sub : Nat} {bs : List Byte} (p : DictPath) (h : writeReason s index sub bs = none) :
    written s p index sub bs
      = afterReply (answered (performWrite (asked s p index sub bs) index sub bs) p index sub bs.length none) index bs := by
  rw [written, h]

theorem ofNat_toNat_of_lt {n : Nat} (h : n < 256) : (BitVec.ofNat 8 n).toNat = n := by
  rw [BitVec.toNat_ofNat]
  omega

/-- A frame's write on a free path. -/
theorem requestWrite_can {s : State} {index sub : Nat} {bs : List Byte} (hf : PathFree s .can) (hi : index < 65536) (hs : sub < 256)
    (hl : bs.length ≤ 4) : requestWrite s .can index sub bs = written s .can index sub bs := by
  obtain ⟨hq, hp⟩ := hf
  have hkind := frameKind_write (fd := .classic) (BitVec.ofNat 8 index) (BitVec.ofNat 8 (index / 256)) (BitVec.ofNat 8 sub) hl
  have hindex : (BitVec.ofNat 8 index).toNat + 256 * (BitVec.ofNat 8 (index / 256)).toNat = index := by
    rw [BitVec.toNat_ofNat, BitVec.toNat_ofNat]
    omega
  have hserve : requestWrite s .can index sub bs = serveWrite s .classic index sub bs := by
    refine (receiveFrame_idle hp hq .classic _).trans ?_
    rw [serveFrame, hkind]
    show serveWrite s .classic ((BitVec.ofNat 8 index).toNat + 256 * (BitVec.ofNat 8 (index / 256)).toNat) (BitVec.ofNat 8 sub).toNat
      (bs.take bs.length) = _
    rw [hindex, ofNat_toNat_of_lt hs, List.take_length]
  rw [hserve]
  cases h : writeReason s index sub bs with
  | some c => rw [serveWrite_refused _ h, written_refused _ h]; rfl
  | none => rw [serveWrite_accepted _ h, written_accepted _ h]; rfl

/-- A mailbox write of one message. -/
theorem mailboxWrite_final (s : State) (index sub : Nat) (bs : List Byte) : mailboxWrite s index sub 0 true bs
    = match writeReason s index sub bs with
      | some c => mailboxReply (s.modCst fun c => { c with mbxXfer := none }) 1 c 0 []
      | none => afterReply (mailboxReply (performWrite (s.modCst fun c => { c with mbxXfer := none }) index sub bs) 0 0 bs.length []) index bs := by
  cases ha : accessReason s index sub true with
  | some c =>
    rw [writeReason_of_access bs ha]
    show (match accessReason s index sub true, mailboxObject s index sub 0 with
      | some _, _ => _ | none, none => _ | none, some _ => _) = _
    rw [ha]
  | none =>
    show (match accessReason s index sub true, mailboxObject s index sub 0 with
      | some _, _ => _ | none, none => _ | none, some _ => _) = _
    rw [ha]
    rfl

/-- R505: a well-formed write request of one message is served as a write. -/
theorem serveMailbox_write {s : State} {m : List Byte} {index sub len : Nat} (hlen : at8 m 12 4 = len) (hfin : at8 m 1 1 = 1)
    (hres : at8 m 5 3 = 0) (hkind : at8 m 0 1 = 2) (hi : at8 m 2 2 = index) (hs : at8 m 4 1 = sub) (ho : at8 m 8 4 = 0)
    (hl : len ≤ 2016) : serveMailbox s m = mailboxWrite s index sub 0 true ((m.drop 16).take len) := by
  unfold serveMailbox
  dsimp only
  rw [hlen, hfin, hres, hkind, hi, hs, ho, if_neg (by omega)]
  rfl

/-- R505: the write request that stands in the mailbox. -/
theorem serveMailbox_posted {s : State} {index sub : Nat} {bs : List Byte} (hc : Table.canonical 0 s.hif.mbx.req = true)
    (hi : index < 65536) (hs : sub < 256) (hl : bs.length ≤ 4) (t : State) :
    serveMailbox t (message (postedWrite s index sub bs)) = mailboxWrite t index sub 0 true bs := by
  have hlen : (request 2 1 index sub 0 bs.length ++ bs).length = 16 + bs.length := List.length_append
  have hreq : ∀ i, i < (request 2 1 index sub 0 bs.length ++ bs).length →
      Table.get 0 (postedWrite s index sub bs).hif.mbx.req i = nth 0 (request 2 1 index sub 0 bs.length ++ bs) i :=
    fun i hi => get_written hc _ hi
  have hmessage : (message (postedWrite s index sub bs)).take (16 + bs.length) = request 2 1 index sub 0 bs.length ++ bs := by
    rw [← hlen]
    exact message_take (by omega) hreq
  generalize message (postedWrite s index sub bs) = m at hmessage
  have hat {a n : Nat} (h : a + n ≤ 16) : at8 m a n = at8 (request 2 1 index sub 0 bs.length) a n := by
    rw [← at8_take (l := m) (k := 16 + bs.length) (by omega), hmessage, ← at8_take h, List.take_left' (request_length _ _ _ _ _ _)]
  have hdata : (m.drop 16).take bs.length = bs := by
    rw [List.take_drop, hmessage, List.drop_left' (request_length _ _ _ _ _ _)]
  rw [serveMailbox_write (len := bs.length) (index := index) (sub := sub) ?_ ?_ ?_ ?_ ?_ ?_ ?_ (by omega), hdata]
  · rw [hat (by omega), at8_request_len _ _ _ _ _ (by omega)]
  · rw [hat (by omega)]; rfl
  · rw [hat (by omega)]; rfl
  · rw [hat (by omega)]; rfl
  · rw [hat (by omega), at8_request_index _ _ _ _ _ hi]
  · rw [hat (by omega), at8_request_sub _ _ _ _ _ hs]
  · rw [hat (by omega), at8_request_off _ _ _ _ _ (by decide)]

/-- What the mailbox holds does not bear on whether a write is refused. -/
theorem writeReason_mbx (s : State) (m : Mailbox) (index sub : Nat) (bs : List Byte) :
    writeReason (s.modHif fun h => { h with mbx := m }) index sub bs = writeReason s index sub bs := rfl

theorem requestWrite_mailbox {s : State} {index sub : Nat} {bs : List Byte} (hf : PathFree s .mailbox) (hi : index < 65536) (hs : sub < 256)
    (hl : bs.length ≤ 4) : requestWrite s .mailbox index sub bs = written s .mailbox index sub bs := by
  obtain ⟨hq, hr, hb, hc⟩ := hf
  have hserve : requestWrite s .mailbox index sub bs
      = serveMailbox (mbxBusy (postedWrite s index sub bs)) (message (postedWrite s index sub bs)) := by
    have hbytes : [2, 1] ++ leBytes 2 index ++ leBytes 1 sub ++ leBytes 3 0 ++ leBytes 4 0 ++ leBytes 4 bs.length ++ bs
        = request 2 1 index sub 0 bs.length ++ bs := rfl
    rw [← submitMailbox_idle (s := postedWrite s index sub bs) hr hb hq]
    unfold requestWrite
    dsimp only
    rw [if_neg (by simp [hr, hb]), hbytes]
    rfl
  have hreason : writeReason (mbxBusy (postedWrite s index sub bs)) index sub bs = writeReason s index sub bs :=
    (writeReason_mbx (postedWrite s index sub bs) _ index sub bs).trans (writeReason_mbx s _ index sub bs)
  rw [hserve, serveMailbox_posted hc hi hs hl, mailboxWrite_final, hreason, written]
  cases writeReason s index sub bs <;> rfl

/-- R500, R505: a write of an entry on a free path. -/
theorem requestWrite_written {s : State} {p : DictPath} {index sub : Nat} {bs : List Byte} (hf : PathFree s p) (hi : index < 65536)
    (hs : sub < 256) (hl : bs.length ≤ 4) : requestWrite s p index sub bs = written s p index sub bs := by
  cases p with
  | can => exact requestWrite_can hf hi hs hl
  | mailbox => exact requestWrite_mailbox hf hi hs hl

end Sys2Proof.Machine
end

section
/-!
PROOF. What the entries that act do: the store, the counters and the state commands (R493, R508, R509, R516, R559).
-/

namespace Sys2Proof.Machine

/-! ### Their reasons (R493, R508) -/

theorem leNat_leBytes_key (key : Word32) : leNat (leBytes 4 key.toNat) = key.toNat := by
  rw [leNat_leBytes]
  exact Nat.mod_eq_of_lt key.isLt

theorem toNat_eq_key {key k : Word32} : (key.toNat = k.toNat) ↔ key = k := ⟨BitVec.eq_of_toNat_eq, congrArg _⟩

/-- The reason of a write to an entry that takes one value only. -/
theorem valueReason_key {s : State} {index : Nat} {e : DEntry} (key k : Word32) (he : e.type = .unsigned 4)
    (hr : dictRange s index 0 key.toNat = decide (key.toNat = k.toNat)) (hne : key ≠ k) :
    valueReason s index 0 e (leBytes 4 key.toNat) = some 0x0004 := by
  refine valueReason_range (by rw [he, leBytes_length]; rfl) ?_
  rw [leNat_leBytes_key, hr]
  exact decide_eq_false fun h => hne (toNat_eq_key.1 h)

theorem saveReason (s : State) (key : Word32) : writeReason s 0x1010 0 (leBytes 4 key.toNat)
    = if key = 0x65766173 then (if s.cst.worn then some 0x000B else none) else some 0x0004 := by
  rw [writeReason_of_value (e := ⟨.unsigned 4, .wo, 0⟩) _ rfl rfl]
  split
  · rename_i h
    subst h
    rfl
  · rename_i h
    exact valueReason_key key 0x65766173 rfl rfl h

theorem defaultsReason (s : State) (key : Word32) : writeReason s 0x1011 0 (leBytes 4 key.toNat)
    = if key = 0x64616F6C then none else some 0x0004 := by
  rw [writeReason_of_value (e := ⟨.unsigned 4, .wo, 0⟩) _ rfl rfl]
  split
  · rename_i h
    subst h
    rfl
  · rename_i h
    exact valueReason_key key 0x64616F6C rfl rfl h

theorem clearReason_unserved {s : State} (bs : List Byte) (h : mainServes s = false) : writeReason s 0x6000 0 bs = some 0x0006 := by
  refine writeReason_of_access bs ?_
  show (if (true && !mainServes s) = true then _ else _) = _
  rw [h]
  rfl

theorem clearReason_served {s : State} (key : Word32) (h : mainServes s = true) : writeReason s 0x6000 0 (leBytes 4 key.toNat)
    = if key = 0x434C5231 then none else some 0x0004 := by
  have haccess : accessReason s 0x6000 0 true = none := accessReason_write (e := ⟨.unsigned 4, .wo, 0⟩) rfl (.inr h)
  rw [writeReason_of_value (e := ⟨.unsigned 4, .wo, 0⟩) _ rfl haccess]
  split
  · rename_i h
    subst h
    rfl
  · rename_i h
    exact valueReason_key key 0x434C5231 rfl rfl h

theorem stateReason (s : State) {v : Byte} (h : v = 1 ∨ v = 2 ∨ v = 3 ∨ v = 6) :
    writeReason s 0x2000 0 [v] = stateCmdReason s v.toNat := by
  rw [writeReason_of_value (e := ⟨.unsigned 1, .wo, 0⟩) _ rfl rfl]
  rcases h with rfl | rfl | rfl | rfl <;> rfl

/-! ### The store (R493) -/

/-- The records whose key meets a condition. -/
theorem Table.find_filter {α : Type} (t : Table α) (p : Nat × α → Bool) {k : Nat} (h : ∀ v, p (k, v) = true) :
    Table.find (t.filter p) k = Table.find t k := by
  induction t with
  | nil => rfl
  | cons x t ih =>
    obtain ⟨a, v⟩ := x
    by_cases ha : k = a
    · subst ha
      rw [List.filter_cons_of_pos (h v)]
      simp [Table.find]
    · by_cases hp : p (a, v) = true
      · rw [List.filter_cons_of_pos hp]
        simp [Table.find, ha, ih]
      · rw [List.filter_cons_of_neg hp, ih]
        simp [Table.find, ha]

theorem dictKey_div {i j : Nat} (h : j < 256) : dictKey i j / 256 = i := by
  unfold dictKey
  omega

theorem dictKey_mod {i j : Nat} (h : j < 256) : dictKey i j % 256 = j := by
  unfold dictKey
  omega

/-- R493: a save stores every persistent entry that a value is held for. -/
theorem find_savedStore (s : State) {i j : Nat} {e : DEntry} (hj : j < 256) (he : dictEntry i j = some e)
    (hp : isPersistent i e = true) (hi : i ≠ 0x1030) :
    Table.find (savedStore s) (dictKey i j) = Table.find s.cst.dict (dictKey i j) := by
  have hkey : dictKey i j ≠ dictKey 0x1030 0 := fun h => hi (by
    rw [← dictKey_div (i := i) hj, h]
    rfl)
  rw [savedStore, Table.find_insert_of_ne _ _ hkey]
  refine Table.find_filter _ _ fun v => ?_
  dsimp only
  rw [dictKey_div hj, dictKey_mod hj, he]
  exact hp

theorem find_savedStore_node (s : State) : Table.find (savedStore s) (dictKey 0x1030 0) = some (dictHeld s 0x1030 0) :=
  Table.find_insert_self ..

/-! ### The statistics counters (R559) -/

theorem ctrTable_clearCounters (s : State) (b : Nat) : ctrTable (clearCounters s) b = [] := by
  by_cases hb : b < 25
  · interval_cases b <;> rfl
  · simp only [ctrTable, show ¬ b < 4 by omega, show ¬ b < 8 by omega, show ¬ b < 12 by omega, show ¬ b < 16 by omega, show b ≠ 16 by omega,
      show b ≠ 17 by omega, show b ≠ 18 by omega, show b ≠ 19 by omega, show b ≠ 20 by omega, show b ≠ 21 by omega,
      show b ≠ 22 by omega, show b ≠ 23 by omega, show b ≠ 24 by omega, if_false]

/-- What carries a reply counts nothing. -/
theorem ctr_reply {s t : State} (h : Touch 0x180500000 s t) (b off : Nat) : ctr t b off = ctr s b off := by
  have hsch : t.sch = s.sch := h.eq .sch rfl
  have htmem : t.tmem = s.tmem := h.eq .tmem rfl
  have hporter : t.porter = s.porter := h.eq .porter rfl
  have hcat : t.cat = s.cat := h.eq .cat rfl
  have hhif : t.hif.ctrs = s.hif.ctrs := h.eq .hifCtrs rfl
  have htt : t.tt = s.tt := h.eq .tt rfl
  have hjn : t.jn = s.jn := h.eq .jn rfl
  have hlnk : t.lnkCtrs = s.lnkCtrs := h.eq .lnkCtrs rfl
  have hpower : t.power = s.power := h.eq .power rfl
  simp only [ctr, ctrTable, hsch, htmem, hporter, hcat, hhif, htt, hjn, hlnk, hpower]

/-! ### State commands (R508, R509) -/

/-- Where the module goes on to from a state with a target. -/
def goesOn (d target : DevState) : DevState :=
  match d, target with
  | .shunt, .depot => .toDepot
  | .service, .shunt => .leaving
  | .service, .depot => .leaving
  | .limited, .shunt => .leaving
  | .limited, .depot => .leaving
  | .depot, .shunt => .waking
  | .depot, .service => .waking
  | d, _ => d

/-- An operation that enters a state and keeps the target and the rule of HALT. -/
structure EntersState (s t : State) (d : DevState) : Prop where
  state : t.cst.state = d
  target : t.cst.target = s.cst.target
  haltRule : t.cst.haltRule = s.cst.haltRule

theorem enterState_quiet_enters {s : State} (hq : RulesQuiet s) (d : DevState) : EntersState s (enterState s d) d := by
  have h := enterState_quiet_cst hq d
  exact ⟨by rw [h], by rw [h], by rw [h]⟩

theorem leaveService_quiet_enters {s : State} (hq : RulesQuiet s) : EntersState s (leaveService s) .leaving := by
  have h : (leaveService s).cst = (enterState s .leaving).cst := (endAllUnissued_touch _).eq .cst rfl
  have he := enterState_quiet_enters hq .leaving
  exact ⟨by rw [h, he.state], by rw [h, he.target], by rw [h, he.haltRule]⟩

theorem leaveService_quiet_touch {s : State} (hq : RulesQuiet s) : Touch 0x84bc0000 s (leaveService s) :=
  Touch.step (endAllUnissued_touch _) rfl ((enterState_quiet_touch hq _).weaken rfl)

theorem settleTarget_quiet_enters {s : State} (hq : RulesQuiet s) :
    EntersState s (settleTarget s) (goesOn s.cst.state s.cst.target) := by
  have hwake : EntersState s (enterState (s.modCst fun c => { c with lost := false }) .waking) .waking := by
    have h := enterState_quiet_enters (s := s.modCst fun c => { c with lost := false }) hq .waking
    exact ⟨h.state, h.target, h.haltRule⟩
  unfold settleTarget
  generalize hs : s.cst.state = d
  generalize s.cst.target = a
  split
  · exact enterState_quiet_enters hq _
  · exact leaveService_quiet_enters hq
  · exact leaveService_quiet_enters hq
  · exact leaveService_quiet_enters hq
  · exact leaveService_quiet_enters hq
  · exact hwake
  · exact hwake
  · refine ⟨hs.trans ?_, rfl, rfl⟩
    unfold goesOn
    split <;> simp_all

theorem settleTarget_quiet_touch {s : State} (hq : RulesQuiet s) : Touch 0x84bc0000 s (settleTarget s) := by
  have hwake : Touch 0x84bc0000 s (enterState (s.modCst fun c => { c with lost := false }) .waking) :=
    Touch.step (enterState_quiet_touch (s := s.modCst fun c => { c with lost := false }) hq _) rfl ((State_modCst_touch ..).weaken rfl)
  unfold settleTarget
  split
  · exact (enterState_quiet_touch hq _).weaken rfl
  · exact leaveService_quiet_touch hq
  · exact leaveService_quiet_touch hq
  · exact leaveService_quiet_touch hq
  · exact leaveService_quiet_touch hq
  · exact hwake
  · exact hwake
  · exact Touch.refl s

theorem settleTarget_leaves {s : State} (hs : s.cst.state = .service ∨ s.cst.state = .limited)
    (ht : s.cst.target = .depot ∨ s.cst.target = .shunt) : settleTarget s = leaveService s := by
  unfold settleTarget
  rcases hs with hs | hs <;> rcases ht with ht | ht <;> rw [hs, ht]

/-! ### Fetched entries that end (R509) -/

/-- An operation that keeps every ring's fetched entries. -/
structure KeepsFetched (s t : State) : Prop where
  fetched : ∀ f r, (ringOf t f r).fetched = (ringOf s f r).fetched

theorem KeepsFetched.refl (s : State) : KeepsFetched s s := ⟨fun _ _ => rfl⟩

theorem KeepsFetched.trans {s t u : State} (h : KeepsFetched s t) (h' : KeepsFetched t u) : KeepsFetched s u :=
  ⟨fun f r => (h'.fetched f r).trans (h.fetched f r)⟩

theorem Touch.keepsFetched {m : Nat} {s t : State} (h : Touch m s t) (hm : m.testBit StatePart.rings.idx = false) :
    KeepsFetched s t := ⟨fun f r => by rw [h.ringOf hm]⟩

theorem modRing_keepsFetched (s : State) (f : Func) (r : Nat) {g : Ring → Ring} (hg : ∀ x, (g x).fetched = x.fetched) :
    KeepsFetched s (s.modRing f r g) := by
  refine ⟨fun f' r' => ?_⟩
  rw [ringOf_modRing]
  split
  · rename_i h
    rw [hg, ringOf, ringOf, h]
  · rfl

theorem writeCompletion_keepsFetched (s : State) (f : Func) (r : Nat) (e : BitVec 128) : KeepsFetched s (writeCompletion s f r e) := by
  unfold writeCompletion
  extract_lets g pos out s1 fire s2
  have h1 : KeepsFetched s s1 := ⟨fun _ _ => rfl⟩
  have h2 : KeepsFetched s s2 := h1.trans (modRing_keepsFetched s1 f r fun _ => rfl)
  split
  · exact h2.trans ((sendMsix_touch ..).keepsFetched rfl)
  · exact h2

theorem answerEntry_keepsFetched (s : State) (f : Func) (r : Nat) (c : Completion) : KeepsFetched s (answerEntry s f r c) := by
  have hopen := modRing_keepsFetched s f r (g := fun g => { g with open_ := g.open_ - 1 }) fun _ => rfl
  unfold answerEntry
  dsimp only
  split
  · exact hopen
  · split
    · exact hopen.trans (modRing_keepsFetched _ f r fun _ => rfl)
    · exact hopen.trans (writeCompletion_keepsFetched ..)

theorem answerCommand_keepsFetched (s : State) (o : Origin) (e : Entry) (cause : Nat) (wing : Wing) (unit : LogUnit) (addr detail : Nat) :
    KeepsFetched s (answerCommand s o e cause wing unit addr detail) := by
  unfold answerCommand
  extract_lets z
  have hz : KeepsFetched s z := by
    unfold z
    split
    · exact (addCtr_touch_hif ..).keepsFetched rfl
    · exact (logCause_touch ..).keepsFetched rfl
  split
  · exact hz.trans (answerEntry_keepsFetched ..)
  · exact hz

theorem endUnissued_keepsFetched (f : Func) (r cause : Nat) (s : State) (x : Entry × Nat) : KeepsFetched s (endUnissued f r cause s x) := by
  unfold endUnissued
  split
  · exact answerCommand_keepsFetched ..
  · exact ((logEntryEnd_touch ..).keepsFetched rfl).trans (answerEntry_keepsFetched ..)

theorem foldl_keepsFetched {α : Type} {g : State → α → State} (hg : ∀ s x, KeepsFetched s (g s x)) (l : List α) (s : State) :
    KeepsFetched s (l.foldl g s) := by
  induction l generalizing s with
  | nil => exact .refl s
  | cons x l ih => exact (hg s x).trans (ih _)

theorem funcOfNum_funcNum (f : Func) : funcOfNum (funcNum f) = f := by
  cases f with
  | pf0 => rfl
  | vf n =>
    refine (if_neg (Nat.succ_ne_zero n.val)).trans ?_
    exact congrArg Func.vf (Fin.ext (Nat.mod_eq_of_lt n.isLt))

/-- A ring found by its key. -/
theorem ringKey_split (f : Func) (r : Nat) : ringKey (funcOfNum (ringKey f r / 64)) (ringKey f r % 64) = ringKey f r := by
  have hfunc : ringKey f r / 64 = funcNum f := by unfold ringKey; omega
  have hring : ringKey f r % 64 = r % 64 := by unfold ringKey; omega
  rw [hfunc, hring, funcOfNum_funcNum, ringKey, ringKey, Nat.mod_mod]

/-- R509: what a ring had fetched and not begun ends. -/
def ringEmptied (s : State) (x : Nat × Ring) : State :=
  x.2.fetched.foldl (endUnissued (funcOfNum (x.1 / 64)) (x.1 % 64) 0x0803)
    (s.modRing (funcOfNum (x.1 / 64)) (x.1 % 64) fun g => { g with fetched := [] })

theorem ringEmptied_fetched (s : State) (x : Nat × Ring) (f : Func) (r : Nat)
    (h : ringKey f r = x.1 ∨ (ringOf s f r).fetched = []) : (ringOf (ringEmptied s x) f r).fetched = [] := by
  rw [ringEmptied, (foldl_keepsFetched (endUnissued_keepsFetched _ _ _) _ _).fetched, ringOf_modRing]
  split
  · rfl
  · rename_i hne
    refine h.resolve_left fun hk => hne ?_
    rw [← hk, ringKey_split]

theorem foldl_ringEmptied_fetched (l : List (Nat × Ring)) (s : State) (f : Func) (r : Nat)
    (h : ringKey f r ∈ l.map Prod.fst ∨ (ringOf s f r).fetched = []) : (ringOf (l.foldl ringEmptied s) f r).fetched = [] := by
  induction l generalizing s with
  | nil => exact h.resolve_left (by simp)
  | cons x l ih =>
    refine ih _ ?_
    rw [List.map_cons, List.mem_cons] at h
    rcases h with (h | h) | h
    · exact .inr (ringEmptied_fetched s x f r (.inl h))
    · exact .inl h
    · exact .inr (ringEmptied_fetched s x f r (.inr h))

/-- A key that a table does not list. -/
theorem Table.find_of_not_mem {α : Type} (t : Table α) {k : Nat} (h : k ∉ t.map Prod.fst) : Table.find t k = none := by
  induction t with
  | nil => rfl
  | cons x t ih =>
    rw [List.map_cons, List.mem_cons, not_or] at h
    exact (if_neg h.1).trans (ih h.2)

theorem endAllUnissued_fetched (s : State) (f : Func) (r : Nat) : (ringOf (endAllUnissued s) f r).fetched = [] := by
  unfold endAllUnissued
  dsimp only
  generalize hz : s.hif.orphans.foldl _ _ = z
  refine foldl_ringEmptied_fetched z.hif.rings z f r ?_
  by_cases h : ringKey f r ∈ z.hif.rings.map Prod.fst
  · exact .inl h
  · refine .inr ?_
    rw [ringOf, Table.find_of_not_mem _ h]
    rfl

/-! ### What a write on a path leaves -/

theorem reply_touch (s : State) (p : DictPath) (index sub : Nat) (bs : List Byte) (n : Nat) (reason : Option Nat) :
    Touch 0x184500000 s (answered (asked s p index sub bs) p index sub n reason) :=
  Touch.step (answered_touch ..) rfl ((asked_touch ..).weaken rfl)

theorem reply_cst (s : State) (p : DictPath) (index sub : Nat) (bs : List Byte) (n : Nat) (reason : Option Nat) :
    (answered (asked s p index sub bs) p index sub n reason).cst
      = { s.cst with canXfer := (asked s p index sub bs).cst.canXfer, mbxXfer := (asked s p index sub bs).cst.mbxXfer } :=
  (answered_cst ..).trans (asked_cst ..)

/-- The parts that carry a reply. -/
def replyParts : List StatePart := [.cst, .canOut, .mbx, .pages, .hostOut]

theorem Touch.onlyReply {s t : State} (h : Touch 0x184500000 s t) : OnlyChanges replyParts s t :=
  h.onlyChanges_of_cells rfl fun p => by cases p <;> decide

theorem savedStore_congr {s t : State} (hd : t.cst.dict = s.cst.dict) (hs : t.cst.strap = s.cst.strap) : savedStore t = savedStore s := by
  simp only [savedStore, dictHeld, dictDefault, hd, hs]

theorem savedStore_asked (s : State) (p : DictPath) (index sub : Nat) (bs : List Byte) : savedStore (asked s p index sub bs) = savedStore s :=
  savedStore_congr (by rw [asked_cst]) (by rw [asked_cst])

/-- R493: a save that is accepted. -/
theorem written_save {s : State} (p : DictPath) (bs : List Byte) (h : writeReason s 0x1010 0 bs = none) : written s p 0x1010 0 bs
    = answered ((asked s p 0x1010 0 bs).modCst fun c => { c with store := savedStore s }) p 0x1010 0 bs.length none := by
  rw [written_accepted p h, afterReply_other _ _ (by decide), ← savedStore_asked s p 0x1010 0 bs]
  rfl

theorem written_defaults {s : State} (p : DictPath) (bs : List Byte) (h : writeReason s 0x1011 0 bs = none) : written s p 0x1011 0 bs
    = answered ((asked s p 0x1011 0 bs).modCst fun c => { c with store := [] }) p 0x1011 0 bs.length none := by
  rw [written_accepted p h, afterReply_other _ _ (by decide)]
  rfl

theorem written_clear {s : State} (p : DictPath) (bs : List Byte) (h : writeReason s 0x6000 0 bs = none) : written s p 0x6000 0 bs
    = answered (clearCounters (asked s p 0x6000 0 bs)) p 0x6000 0 bs.length none := by
  rw [written_accepted p h, afterReply_other _ _ (by decide)]
  rfl

theorem written_state {s : State} (p : DictPath) (bs : List Byte) (h : writeReason s 0x2000 0 bs = none) : written s p 0x2000 0 bs
    = stateCmd (answered (asked s p 0x2000 0 bs) p 0x2000 0 bs.length none) (leNat bs) := by
  rw [written_accepted p h]
  rfl

/-- The states that a state command names, by its value (R508). -/
def commands (p : DictPath) : List (Instr × DevState) :=
  [(.stateCmdDepot p, .depot), (.stateCmdShunt p, .shunt), (.stateCmdService p, .service)]

/-- The value of a command of the target d. -/
def Commands (v : Byte) (d : DevState) : Prop := v = 1 ∧ d = .depot ∨ v = 2 ∧ d = .shunt ∨ v = 3 ∧ d = .service

theorem exec_commands {p : DictPath} {row : Instr × DevState} (h : row ∈ commands p) :
    ∃ v, Commands v row.2 ∧ ∀ s, exec row.1 s = .next (requestWrite s p 0x2000 0 [v]) := by
  simp only [commands, List.mem_cons, List.not_mem_nil, or_false] at h
  rcases h with rfl | rfl | rfl
  · exact ⟨1, .inl ⟨rfl, rfl⟩, fun _ => rfl⟩
  · exact ⟨2, .inr (.inl ⟨rfl, rfl⟩), fun _ => rfl⟩
  · exact ⟨3, .inr (.inr ⟨rfl, rfl⟩), fun _ => rfl⟩

theorem Commands.reason {s : State} {v : Byte} {d : DevState} (h : Commands v d) :
    writeReason s 0x2000 0 [v] = if s.cst.state = .halt then some 0x0006 else none := by
  rw [stateReason s (by rcases h with h | h | h <;> simp [h.1])]
  rcases h with ⟨rfl, -⟩ | ⟨rfl, -⟩ | ⟨rfl, -⟩ <;> rfl

/-- The target of a state command, taken on. -/
def aimed (s : State) (d : DevState) : State :=
  match d with
  | .depot => s.modCst fun c => { c with target := .depot }
  | d => s.modCst fun c => { c with wakeIgnored := false, target := d }

theorem Commands.stateCmd {v : Byte} {d : DevState} (h : Commands v d) (s : State) : stateCmd s (leNat [v]) = settleTarget (aimed s d) := by
  rcases h with ⟨rfl, rfl⟩ | ⟨rfl, rfl⟩ | ⟨rfl, rfl⟩ <;> rfl

theorem aimed_touch (s : State) (d : DevState) : Touch 0x4000000 s (aimed s d) := by
  unfold aimed
  split <;> exact State_modCst_touch ..

theorem aimed_target (s : State) (d : DevState) : (aimed s d).cst.target = d := by
  unfold aimed
  split <;> rfl

theorem aimed_state (s : State) (d : DevState) : (aimed s d).cst.state = s.cst.state := by
  unfold aimed
  split <;> rfl

theorem aimed_haltRule (s : State) (d : DevState) : (aimed s d).cst.haltRule = s.cst.haltRule := by
  unfold aimed
  split <;> rfl

theorem aimed_rules (s : State) (d : DevState) : (aimed s d).cst.rules = s.cst.rules := by
  unfold aimed
  split <;> rfl

theorem clearHaltReason (s : State) : writeReason s 0x2000 0 [6]
    = if s.cst.state ≠ .halt then some 0x0006 else if (ruleState s s.cst.haltRule.toNat).active then some 0x000A else none :=
  stateReason s (by simp)

/-- In HALT the mailbox takes no request. -/
theorem path_can_of_halt {s : State} {p : DictPath} (h : PathFree s p) (hs : s.cst.state = .halt) : p = .can := by
  cases p with
  | can => rfl
  | mailbox =>
    obtain ⟨-, hr, -⟩ := h
    simp [hostReaches, mainUp, hs] at hr

end Sys2Proof.Machine

namespace Sys2Proof

open Sys2Proof.Machine

/-- Settles O54: each entry that acts by the reason that refuses it and, where none does, by its effect before or after the reply. -/
theorem entriesThatAct : Obligations.EntriesThatAct := by
  unfold Obligations.EntriesThatAct
  refine ⟨fun s p key hf => ?_, fun s p hf hq => ?_, fun s hf hs hr => ?_⟩
  · dsimp only
    have hkeylen : (leBytes 4 key.toNat).length ≤ 4 := Nat.le_of_eq (leBytes_length ..)
    refine ⟨?_, ?_, fun hm => ?_, fun hm => ?_⟩
    · have hsave : exec (.dictSave p key) s = .next (written s p 0x1010 0 (leBytes 4 key.toNat)) :=
        congrArg Host.Outcome.next (requestWrite_written hf (by decide) (by decide) hkeylen)
      by_cases hk : key = 0x65766173 ∧ s.cst.worn = false
      · rw [written_save p _ (by rw [saveReason, if_pos hk.1, hk.2]; rfl)] at hsave
        refine ⟨_, hsave, ?_, Touch.onlyReply (Touch.step (answered_touch ..) rfl
          (Touch.step (State_modCst_touch ..) rfl ((asked_touch ..).weaken rfl))), fun _ _ => ⟨fun i j e hj he hp hi => ?_, ?_⟩, fun hn => ?_⟩
        · rw [answered_cst, modCst_cst, asked_cst]
        · rw [answered_cst, modCst_cst]
          exact find_savedStore s hj he hp hi
        · rw [answered_cst, modCst_cst]
          exact find_savedStore_node s
        · rcases hn with hn | hn
          · exact absurd hk.1 hn
          · rw [hk.2] at hn; cases hn
      · obtain ⟨c, hc⟩ : ∃ c, writeReason s 0x1010 0 (leBytes 4 key.toNat) = some c := by
          rw [saveReason]
          split
          · rename_i h
            have hw : s.cst.worn = true := by simpa using fun hw => hk ⟨h, hw⟩
            exact ⟨_, by rw [hw]; rfl⟩
          · exact ⟨_, rfl⟩
        rw [written_refused p hc] at hsave
        exact ⟨_, hsave, by rw [reply_cst], (reply_touch ..).onlyReply, fun h1 h2 => absurd ⟨h1, h2⟩ hk, fun _ => by rw [reply_cst]⟩
    · have hdefaults : exec (.dictDefaults p key) s = .next (written s p 0x1011 0 (leBytes 4 key.toNat)) :=
        congrArg Host.Outcome.next (requestWrite_written hf (by decide) (by decide) hkeylen)
      by_cases hk : key = 0x64616F6C
      · rw [written_defaults p _ (by rw [defaultsReason, if_pos hk])] at hdefaults
        refine ⟨_, hdefaults, ?_, Touch.onlyReply (Touch.step (answered_touch ..) rfl
          (Touch.step (State_modCst_touch ..) rfl ((asked_touch ..).weaken rfl))), ?_⟩
        · rw [answered_cst, modCst_cst, asked_cst]
        · rw [answered_cst, modCst_cst, if_pos hk]
      · rw [written_refused p (by rw [defaultsReason, if_neg hk])] at hdefaults
        exact ⟨_, hdefaults, by rw [reply_cst], (reply_touch ..).onlyReply, by rw [reply_cst, if_neg hk]⟩
    · have hclear : exec (.ctrClear p key) s = .next (written s p 0x6000 0 (leBytes 4 key.toNat)) :=
        congrArg Host.Outcome.next (requestWrite_written hf (by decide) (by decide) hkeylen)
      by_cases hk : key = 0x434C5231
      · rw [written_clear p _ (by rw [clearReason_served key hm, if_pos hk])] at hclear
        have hlatches : (clearCounters (asked s p 0x6000 0 (leBytes 4 key.toNat))).cst = (asked s p 0x6000 0 (leBytes 4 key.toNat)).cst :=
          (clearCounters_touch _).eq .cst rfl
        have hkept := (answered_touch (clearCounters (asked s p 0x6000 0 (leBytes 4 key.toNat))) p 0x6000 0
          (leBytes 4 key.toNat).length none).eq .latches rfl
        refine ⟨_, hclear, ?_, fun _ => ⟨fun b off => ?_, hkept.1, hkept.2⟩, fun hn => absurd hk hn⟩
        · rw [answered_cst, hlatches, asked_cst]
        · rw [ctr_reply (answered_touch ..), ctr, ctrTable_clearCounters]
          rfl
      · rw [written_refused p (by rw [clearReason_served key hm, if_neg hk])] at hclear
        exact ⟨_, hclear, by rw [reply_cst], fun h => absurd h hk, fun _ => (reply_touch ..).onlyReply⟩
    · have hclear : exec (.ctrClear p key) s = .next (written s p 0x6000 0 (leBytes 4 key.toNat)) :=
        congrArg Host.Outcome.next (requestWrite_written hf (by decide) (by decide) hkeylen)
      rw [written_refused p (clearReason_unserved _ hm)] at hclear
      exact ⟨_, hclear, (reply_touch ..).onlyReply⟩
  · dsimp only
    refine ⟨fun row hrow hs => ?_, fun row hrow hs => ?_, fun hs => ?_, fun hs => ?_⟩
    · obtain ⟨v, hv, hexec⟩ := exec_commands hrow
      have hrun := (hexec s).trans (congrArg Host.Outcome.next (requestWrite_written hf (by decide) (by decide) (Nat.le_of_ble_eq_true rfl)))
      rw [written_state p _ (by rw [hv.reason, if_neg hs]), hv.stateCmd] at hrun
      generalize hz : answered (asked s p 0x2000 0 [v]) p 0x2000 0 [v].length none = z at hrun
      have hztouch : Touch 0x184500000 s z := by rw [← hz]; exact reply_touch ..
      have hzcst : z.cst.state = s.cst.state ∧ z.cst.haltRule = s.cst.haltRule ∧ z.cst.rules = s.cst.rules := by
        rw [← hz, reply_cst]
        exact ⟨rfl, rfl, rfl⟩
      obtain ⟨hzs, hzh, hzr⟩ := hzcst
      have hzq : RulesQuiet (aimed z row.2) := rulesQuiet_congr ((aimed_rules z row.2).trans hzr) hq
      have hen := settleTarget_quiet_enters hzq
      have htouch : Touch 0x184fc0000 s (settleTarget (aimed z row.2)) := Touch.step (settleTarget_quiet_touch hzq) rfl
        (Touch.step (aimed_touch ..) rfl (hztouch.weaken rfl))
      rw [aimed_state, aimed_target, hzs] at hen
      refine ⟨_, hrun, hen.target.trans (aimed_target ..), hen.haltRule.trans ((aimed_haltRule ..).trans hzh), ?_, fun hsv hne => ?_, ?_,
        htouch.eq .tasks rfl⟩
      · rw [hen.state]
        rcases hv with ⟨-, h⟩ | ⟨-, h⟩ | ⟨-, h⟩ <;> rw [h] <;> cases s.cst.state <;> rfl
      · have htarget : row.2 = .depot ∨ row.2 = .shunt := by
          rcases hv with ⟨-, h⟩ | ⟨-, h⟩ | ⟨-, h⟩
          · exact .inl h
          · exact .inr h
          · exact absurd h hne
        rw [settleTarget_leaves (by rw [aimed_state, hzs]; exact hsv) (by rw [aimed_target]; exact htarget)]
        exact fun f r _ => endAllUnissued_fetched ..
      · intro a
        rw [htouch.cells rfl]
    · obtain ⟨v, hv, hexec⟩ := exec_commands hrow
      obtain rfl := path_can_of_halt hf hs
      have hrun := (hexec s).trans (congrArg Host.Outcome.next (requestWrite_written hf (by decide) (by decide) (Nat.le_of_ble_eq_true rfl)))
      rw [written_refused .can (by rw [hv.reason, if_pos hs])] at hrun
      refine ⟨_, hrun, ?_, ?_, ?_⟩
      · rw [reply_cst]; exact hs
      · rw [reply_cst]
      · exact (Touch.step (m := 0x104000000) (refuse_touch ..) rfl ((State_modCst_touch s fun c => { c with canXfer := none }).weaken rfl)).onlyChanges_of_cells
          rfl fun p => by cases p <;> decide
    · have hrun : exec (.clearHalt p) s = .next (written s p 0x2000 0 [6]) :=
      congrArg Host.Outcome.next (requestWrite_written hf (by decide) (by decide) (by decide))
      rw [written_state p _ (by rw [clearHaltReason, if_neg (not_not.2 hs), hq]; rfl)] at hrun
      have hq' : RulesQuiet ((answered (asked s p 0x2000 0 [6]) p 0x2000 0 [(6 : Byte)].length none).modCst fun c =>
          { c with haltRule := 0xFF, target := .depot }) := rulesQuiet_congr (by rw [modCst_cst, reply_cst]) hq
      have hen := enterState_quiet_cst hq' .depot
      refine ⟨_, hrun, ?_⟩
      show (enterState _ .depot).cst.state = _ ∧ (enterState _ .depot).cst.target = _ ∧ (enterState _ .depot).cst.haltRule = _
        ∧ (enterState _ .depot).cst.alertN = _
      rw [hen]
      exact ⟨rfl, rfl, rfl, rfl⟩
    · have hrun : exec (.clearHalt p) s = .next (written s p 0x2000 0 [6]) :=
      congrArg Host.Outcome.next (requestWrite_written hf (by decide) (by decide) (by decide))
      rw [written_refused p (by rw [clearHaltReason, if_pos hs])] at hrun
      exact ⟨_, hrun, by rw [reply_cst], by rw [reply_cst], by rw [reply_cst], (reply_touch ..).onlyReply⟩
  · have hrun : exec (.clearHalt .can) s = .next (written s .can 0x2000 0 [6]) :=
      congrArg Host.Outcome.next (requestWrite_written hf (by decide) (by decide) (by decide))
    rw [written_refused .can (by rw [clearHaltReason, if_neg (not_not.2 hs), hr]; rfl)] at hrun
    exact hrun

end Sys2Proof
end

section
/-!
PROOF. Channels and rules (R512 to R517): the median and the filter, one evaluation of a rule, and what the rule that becomes
active does.
-/

namespace Sys2Proof.Machine

/-! ### Median and filter (R512, R513) -/

theorem insertInt_eq (x : Int) (l : List Int) : insertInt x l = l.orderedInsert (· ≤ ·) x := by
  induction l with
  | nil => rfl
  | cons y l ih =>
    rw [insertInt, List.orderedInsert_cons, ih]

theorem foldr_insertInt (l : List Int) : l.foldr insertInt [] = l.insertionSort (· ≤ ·) := by
  induction l with
  | nil => rfl
  | cons x l ih => rw [List.foldr_cons, ih, insertInt_eq, List.insertionSort_cons]

/-- R512: of five values the median is one; at least three are no larger, and at least three no smaller. -/
theorem median5_spec {l : List Int} (h : l.length = 5) : median5 l ∈ l ∧ 3 ≤ (l.filter fun x => decide (x ≤ median5 l)).length
    ∧ 3 ≤ (l.filter fun x => decide (median5 l ≤ x)).length := by
  have hperm : (l.insertionSort (· ≤ ·)).Perm l := List.perm_insertionSort _ l
  have hsorted : (l.insertionSort (· ≤ ·)).Pairwise (· ≤ ·) := List.pairwise_insertionSort _ l
  have hlen : (l.insertionSort (· ≤ ·)).length = 5 := hperm.length_eq.trans h
  rw [← (hperm.filter _).length_eq, ← (hperm.filter _).length_eq, ← hperm.mem_iff, median5, foldr_insertInt]
  generalize l.insertionSort (· ≤ ·) = m at hsorted hlen
  match m, hlen with
  | [a, b, c, d, e], _ =>
    simp only [List.pairwise_cons, List.mem_cons, List.not_mem_nil, or_false, forall_eq_or_imp, forall_eq] at hsorted
    obtain ⟨⟨-, hac, -, -⟩, ⟨hbc, -, -⟩, ⟨hcd, hce⟩, -⟩ := hsorted
    refine ⟨by simp, ?_, ?_⟩
    · simp [List.filter_cons, *]
    · simp [List.filter_cons, *]
      split <;> split <;> simp

theorem sarInt_eq (x : Int) (k : Nat) : sarInt x k = x / 2 ^ k := by
  rw [sarInt, Int.fdiv_eq_ediv_of_nonneg _ (Int.natCast_nonneg _), Int.natCast_pow]
  rfl

theorem filterStep_short {c : Channel} (d : Bool) (k : Nat) (v : Int) (h : c.samples.length < 4) :
    filterStep d k c v = { c with samples := c.samples ++ [v] } := by
  have hdrop : (c.samples ++ [v]).drop (c.samples.length - 4) = c.samples ++ [v] := by
    rw [Nat.sub_eq_zero_of_le (Nat.le_of_lt h), List.drop_zero]
  rw [filterStep, hdrop]
  exact if_pos (by rw [List.length_append, List.length_singleton]; omega)

/-- The last five samples of a channel with a new one. -/
def lastFive (c : Channel) (v : Int) : List Int := (c.samples ++ [v]).drop (c.samples.length - 4)

theorem lastFive_length {c : Channel} (v : Int) (h : 4 ≤ c.samples.length) : (lastFive c v).length = 5 := by
  rw [lastFive, List.length_drop, List.length_append, List.length_singleton]
  omega

/-- The filtered value with its 8 fractional bits after a new median. -/
def filteredNext (k : Nat) (c : Channel) (m : Int) : Int := c.y.getD (256 * m) + sarInt (256 * m - c.y.getD (256 * m)) k

theorem filterStep_full {c : Channel} (d : Bool) (k : Nat) (v : Int) (h : 4 ≤ c.samples.length) : filterStep d k c v
    = if d then { samples := lastFive c v, median := median5 (lastFive c v), y := none, filtered := median5 (lastFive c v) }
      else { samples := lastFive c v, median := median5 (lastFive c v), y := some (filteredNext k c (median5 (lastFive c v)))
             filtered := sarInt (filteredNext k c (median5 (lastFive c v))) 8 } := by
  refine (if_neg ?_).trans rfl
  show ¬ (lastFive c v).length < 5
  rw [lastFive_length v h]
  decide

theorem filterStep_samples {c : Channel} (d : Bool) (k : Nat) (v : Int) (h : 4 ≤ c.samples.length) :
    (filterStep d k c v).samples = lastFive c v := by
  rw [filterStep_full d k v h]
  cases d <;> rfl

theorem filterStep_median {c : Channel} (d : Bool) (k : Nat) (v : Int) (h : 4 ≤ c.samples.length) :
    (filterStep d k c v).median = median5 (lastFive c v) := by
  rw [filterStep_full d k v h]
  cases d <;> rfl

/-! ### One evaluation of a rule (R515) -/

theorem ruleTrue_iff (x : Rule) (v : Int) : ruleTrue x v = true ↔ (x.op = 0 ∧ signed 32 x.threshold < v)
    ∨ (x.op = 1 ∧ v < signed 32 x.threshold) ∨ (x.op = 2 ∧ v = signed 32 x.threshold) ∨ (3 ≤ x.op ∧ v ≠ signed 32 x.threshold) := by
  unfold ruleTrue
  dsimp only
  split
  · rename_i h; simp [h]
  · rename_i h; simp [h]
  · rename_i h; simp [h]
  · rename_i h0 h1 h2
    have h0 : x.op ≠ 0 := h0
    have h1 : x.op ≠ 1 := h1
    have h2 : x.op ≠ 2 := h2
    have h3 : 3 ≤ x.op := by omega
    simp [h0, h1, h2, h3]

/-- Times in a row a condition has held, with this evaluation. -/
def runNext (now : Bool) (n : Nat) : Nat := if now then n + 1 else 0

theorem le_runNext {now : Bool} {n h : Nat} (hh : 1 ≤ h) : h ≤ runNext now n ↔ now = true ∧ h ≤ n + 1 := by
  cases now
  · simp [runNext]; omega
  · simp [runNext]

theorem ruleStep_eq (x : Rule) (q : RuleState) (v : Int) : ruleStep x q v =
    { active := if q.active then !decide (x.hold ≤ runNext (ruleFalse x v) q.clearRun) else decide (x.hold ≤ runNext (ruleTrue x v) q.trueRun)
      trueRun := min (runNext (ruleTrue x v) q.trueRun) 65535
      clearRun := min (runNext (ruleFalse x v) q.clearRun) 65535 } := rfl

theorem ruleStep_rises {x : Rule} {q : RuleState} (v : Int) (hh : 1 ≤ x.hold) (hq : q.active = false) :
    (ruleStep x q v).active = true ↔ ruleTrue x v = true ∧ x.hold ≤ q.trueRun + 1 := by
  rw [ruleStep_eq, hq, ← le_runNext hh]
  simp

theorem ruleStep_clears {x : Rule} {q : RuleState} (v : Int) (hh : 1 ≤ x.hold) (hq : q.active = true) :
    (ruleStep x q v).active = false ↔ ruleFalse x v = true ∧ x.hold ≤ q.clearRun + 1 := by
  rw [ruleStep_eq, hq, ← le_runNext hh]
  simp

/-! ### What an evaluation keeps -/

/-- An operation that keeps the channels, the clock and the values held. -/
structure KeepsReadings (s t : State) : Prop where
  channels : t.cst.channels = s.cst.channels
  ms : t.cst.ms = s.cst.ms
  dict : t.cst.dict = s.cst.dict
  strap : t.cst.strap = s.cst.strap

theorem KeepsReadings.refl (s : State) : KeepsReadings s s := ⟨rfl, rfl, rfl, rfl⟩

theorem KeepsReadings.trans {s t u : State} (h : KeepsReadings s t) (h' : KeepsReadings t u) : KeepsReadings s u :=
  ⟨h'.channels.trans h.channels, h'.ms.trans h.ms, h'.dict.trans h.dict, h'.strap.trans h.strap⟩

theorem KeepsReadings.after {s t u : State} (h' : KeepsReadings t u) (h : KeepsReadings s t) : KeepsReadings s u := h.trans h'

theorem Touch.keepsReadings {m : Nat} {s t : State} (h : Touch m s t) (hm : m.testBit StatePart.cst.idx = false) : KeepsReadings s t := by
  have e : t.cst = s.cst := h.eq .cst hm
  exact ⟨by rw [e], by rw [e], by rw [e], by rw [e]⟩

/-- An operation that keeps the frames sent, the trip log and the activity of the rules. -/
structure KeepsTrips (s t : State) : Prop where
  canOut : t.canOut = s.canOut
  trips : t.cst.trips = s.cst.trips
  rules : t.cst.rules = s.cst.rules

theorem KeepsTrips.refl (s : State) : KeepsTrips s s := ⟨rfl, rfl, rfl⟩

theorem KeepsTrips.trans {s t u : State} (h : KeepsTrips s t) (h' : KeepsTrips t u) : KeepsTrips s u :=
  ⟨h'.canOut.trans h.canOut, h'.trips.trans h.trips, h'.rules.trans h.rules⟩

theorem KeepsTrips.after {s t u : State} (h' : KeepsTrips t u) (h : KeepsTrips s t) : KeepsTrips s u := h.trans h'

theorem Touch.keepsTrips {m : Nat} {s t : State} (h : Touch m s t) (hm : m.testBit StatePart.cst.idx = false)
    (hc : m.testBit StatePart.canOut.idx = false) : KeepsTrips s t := by
  have e : t.cst = s.cst := h.eq .cst hm
  exact ⟨h.eq .canOut hc, by rw [e], by rw [e]⟩

theorem stateReported_readings (s : State) (d : DevState) : KeepsReadings s (stateReported s d) := (stateReported_touch ..).keepsReadings rfl
theorem stateReported_trips (s : State) (d : DevState) : KeepsTrips s (stateReported s d) := (stateReported_touch ..).keepsTrips rfl rfl

theorem enterState_eq (s : State) (d : DevState) : enterState s d
    = match (if d = .halt then none else standingCut (stateReported (s.modCst fun c => { c with state := d }) d)) with
      | some r => enterHalt (stateReported (s.modCst fun c => { c with state := d }) d) r
      | none => settleAlert (stateReported (s.modCst fun c => { c with state := d }) d) := rfl

theorem enterState_keeps (s : State) (d : DevState) : KeepsReadings s (enterState s d) ∧ KeepsTrips s (enterState s d) := by
  have hr : KeepsReadings s (stateReported (s.modCst fun c => { c with state := d }) d) :=
    (KeepsReadings.trans (t := s.modCst fun c => { c with state := d }) ⟨rfl, rfl, rfl, rfl⟩ (stateReported_readings ..))
  have ht : KeepsTrips s (stateReported (s.modCst fun c => { c with state := d }) d) :=
    (KeepsTrips.trans (t := s.modCst fun c => { c with state := d }) ⟨rfl, rfl, rfl⟩ (stateReported_trips ..))
  rw [enterState_eq]
  split
  · exact ⟨hr.trans ⟨rfl, rfl, rfl, rfl⟩, ht.trans ⟨rfl, rfl, rfl⟩⟩
  · exact ⟨hr.trans ⟨rfl, rfl, rfl, rfl⟩, ht.trans ⟨rfl, rfl, rfl⟩⟩

theorem autoWake_keeps (s : State) : KeepsReadings s (autoWake s) ∧ KeepsTrips s (autoWake s) := by
  have h := enterState_keeps (s.modCst fun c => { c with target := wakeTarget s, lost := false }) .waking
  exact ⟨h.1.after ⟨rfl, rfl, rfl, rfl⟩, h.2.after ⟨rfl, rfl, rfl⟩⟩

theorem takeActions_keeps (s : State) (rs : List Nat) : KeepsReadings s (takeActions s rs) ∧ KeepsTrips s (takeActions s rs) := by
  unfold takeActions
  dsimp only
  split
  · exact ⟨⟨rfl, rfl, rfl, rfl⟩, ⟨rfl, rfl, rfl⟩⟩
  · split
    · exact ⟨(autoWake_keeps s).1.trans ⟨rfl, rfl, rfl, rfl⟩, (autoWake_keeps s).2.trans ⟨rfl, rfl, rfl⟩⟩
    · exact ⟨⟨rfl, rfl, rfl, rfl⟩, ⟨rfl, rfl, rfl⟩⟩

theorem ruleNotice_readings (s : State) (r : Nat) (x : Rule) (clearing : Bool) (v : Int) : KeepsReadings s (ruleNotice s r x clearing v) :=
  ⟨rfl, rfl, rfl, rfl⟩

theorem activatedRule_readings (s : State) (r : Nat) (x : Rule) (v : Int) : KeepsReadings s (activatedRule s r x v) := by
  unfold activatedRule
  dsimp only
  split
  · exact ((raise_touch ..).keepsReadings rfl).after ⟨rfl, rfl, rfl, rfl⟩
  · exact ⟨rfl, rfl, rfl, rfl⟩

theorem evalRule_readings (ch : Nat) (a : State × List Nat) (r : Nat) : KeepsReadings a.1 (evalRule ch a r).1 := by
  unfold evalRule
  dsimp only
  split
  · exact .refl _
  · split
    · dsimp only
      exact (activatedRule_readings ..).after ⟨rfl, rfl, rfl, rfl⟩
    · split
      · dsimp only
        exact ((clearedRule_touch ..).keepsReadings rfl).after ⟨rfl, rfl, rfl, rfl⟩
      · exact ⟨rfl, rfl, rfl, rfl⟩

theorem foldl_evalRule_readings (ch : Nat) (l : List Nat) (a : State × List Nat) : KeepsReadings a.1 (l.foldl (evalRule ch) a).1 := by
  induction l generalizing a with
  | nil => exact .refl _
  | cons r l ih => exact (evalRule_readings ch a r).trans (ih _)

theorem evalRules_readings (s : State) (ch : Nat) : KeepsReadings s (evalRules s ch) := by
  have h := foldl_evalRule_readings ch (List.range 32) (s, [])
  unfold evalRules
  exact h.trans (takeActions_keeps ..).1

end Sys2Proof.Machine
end

section
/-!
PROOF. The one rule of a channel that becomes active, its notice, its place in the trip log and its action (R515 to R517).
-/

namespace Sys2Proof.Machine

/-! ### The evaluation of a channel with one rule -/

theorem ruleOf_congr {s t : State} (hd : t.cst.dict = s.cst.dict) (hs : t.cst.strap = s.cst.strap) (r : Nat) : ruleOf t r = ruleOf s r := by
  simp only [ruleOf, dictVal, dictHeld, dictDefault, hd, hs]

theorem evalRule_other {ch r : Nat} {a : State × List Nat} (h : (ruleOf a.1 r).channel ≠ ch) : evalRule ch a r = a := if_pos h

theorem foldl_evalRule_others {ch : Nat} (l : List Nat) (a : State × List Nat) (h : ∀ k ∈ l, (ruleOf a.1 k).channel ≠ ch) :
    l.foldl (evalRule ch) a = a := by
  induction l with
  | nil => rfl
  | cons r l ih =>
    rw [List.foldl_cons, evalRule_other (h r (List.mem_cons_self ..))]
    exact ih fun k hk => h k (List.mem_cons_of_mem _ hk)

theorem range_split {n r : Nat} (h : r < n) : List.range n = List.range r ++ r :: List.range' (r + 1) (n - (r + 1)) := by
  rw [List.range_eq_range', List.range_eq_range', ← List.range'_succ]
  have hn : n = r + (n - (r + 1) + 1) := by omega
  conv_lhs => rw [hn, ← List.range'_append_1, Nat.zero_add]

/-- Of the rules only one watches the channel. -/
theorem foldl_evalRule_only {ch n r : Nat} (s : State) (hr : r < n) (h : ∀ k, k < n → k ≠ r → (ruleOf s k).channel ≠ ch) :
    (List.range n).foldl (evalRule ch) (s, []) = evalRule ch (s, []) r := by
  have hkept := evalRule_readings ch (s, []) r
  rw [range_split hr, List.foldl_append, List.foldl_cons, foldl_evalRule_others (List.range r)]
  · refine foldl_evalRule_others _ _ fun k hk => ?_
    rw [List.mem_range'_1] at hk
    rw [ruleOf_congr hkept.dict hkept.strap]
    exact h k (by omega) (by omega)
  · intro k hk
    rw [List.mem_range] at hk
    exact h k (by omega) (by omega)

/-- A rule's activity after an evaluation. -/
def ruleNoted (s : State) (r : Nat) (q : RuleState) : State := s.modCst fun c => { c with rules := Table.insert c.rules r q }

theorem ruleState_ruleNoted (s : State) (r : Nat) (q : RuleState) : ruleState (ruleNoted s r q) r = q := by
  show (Table.find (Table.insert s.cst.rules r q) r).getD {} = q
  rw [Table.find_insert_self]
  rfl

theorem ruleState_ruleNoted_of_ne (s : State) {r k : Nat} (q : RuleState) (h : k ≠ r) : ruleState (ruleNoted s r q) k = ruleState s k := by
  show (Table.find (Table.insert s.cst.rules r q) k).getD {} = _
  rw [Table.find_insert_of_ne _ _ h]
  rfl

/-- A rule that was not active becomes active. -/
theorem evalRule_rises {ch r : Nat} {s : State} {q : RuleState} (hc : (ruleOf s r).channel = ch) (hold : (ruleState s r).active = false)
    (hq : ruleStep (ruleOf s r) (ruleState s r) (ruleValue s (ruleOf s r)) = q) (hnew : q.active = true) :
    evalRule ch (s, []) r = (activatedRule (ruleNoted s r q) r (ruleOf s r) (ruleValue s (ruleOf s r)), [r]) := by
  unfold evalRule
  dsimp only
  rw [if_neg (not_not.2 hc), hq, hold, hnew]
  rfl

/-- R515: the actions of a channel whose one rule becomes active. -/
theorem evalRules_rises {ch r : Nat} {s : State} {q : RuleState} (hr : r < 32) (hc : (ruleOf s r).channel = ch)
    (ho : ∀ k, k < 32 → k ≠ r → (ruleOf s k).channel ≠ ch) (hold : (ruleState s r).active = false)
    (hq : ruleStep (ruleOf s r) (ruleState s r) (ruleValue s (ruleOf s r)) = q) (hnew : q.active = true) :
    evalRules s ch = takeActions (activatedRule (ruleNoted s r q) r (ruleOf s r) (ruleValue s (ruleOf s r))) [r] := by
  have h := (foldl_evalRule_only s hr ho).trans (evalRule_rises hc hold hq hnew)
  unfold evalRules
  rw [h]

/-! ### Its notice and its place in the log (R517) -/

/-- The notice of a rule that becomes active. -/
def notice (s : State) (r : Nat) (x : Rule) (v : Int) : CanFrame :=
  { ident := 0x080 + s.cst.node
    bytes := [BitVec.ofNat 8 r, BitVec.ofNat 8 x.action, BitVec.ofNat 8 x.channel, BitVec.ofNat 8 s.cst.state.code] ++ leBytes 4 (wrap 32 v) }

/-- A rule is noticed and logged. -/
def logged (s : State) (r : Nat) (x : Rule) (v : Int) : State :=
  { s with
    canOut := s.canOut ++ [notice s r x v]
    cst := { s.cst with
      trips := ({ ms := s.cst.ms, rule := r, action := x.action, channel := x.channel, value := v } :: s.cst.trips).take 8 } }

theorem activatedRule_eq (s : State) (r : Nat) (x : Rule) (v : Int) : activatedRule s r x v
    = if x.action = 2 ∧ s.power.pwrGood = true then raise (logged s r x v) 0x0702 r blkCst else logged s r x v := rfl

/-- The event of an ALARM rule is all that goes beyond the notice and the log. -/
theorem activatedRule_logged (s : State) (r : Nat) (x : Rule) (v : Int) : Touch 0x801c0000 (logged s r x v) (activatedRule s r x v) := by
  rw [activatedRule_eq]
  split
  · exact raise_touch ..
  · exact Touch.refl _

theorem logged_touch (s : State) (r : Nat) (x : Rule) (v : Int) : Touch 0x104000000 s (logged s r x v) :=
  Touch.step (m := 0x104000000) (State_modCst_touch (ruleNotice s r x false v) fun c => { c with
    trips := ({ ms := c.ms, rule := r, action := x.action, channel := x.channel, value := v } :: c.trips).take 8 }) rfl
    ((ruleNotice_touch ..).weaken rfl)

theorem activatedRule_silent {x : Rule} (s : State) (r : Nat) (v : Int) (h : x.action ≠ 2) : activatedRule s r x v = logged s r x v :=
  if_neg fun hx => h hx.1

theorem activatedRule_cst (s : State) (r : Nat) (x : Rule) (v : Int) : (activatedRule s r x v).cst = (logged s r x v).cst :=
  (activatedRule_logged ..).eq .cst rfl

/-! ### Its action (R515, R516) -/

/-- The rules among those that became active whose action is k. -/
theorem acting_one {s : State} {r : Nat} (k : Nat) (h : ruleActs (ruleOf s r) s.cst.state = true) :
    [r].filter (fun r => (ruleOf s r).action == k && ruleActs (ruleOf s r) s.cst.state) = if (ruleOf s r).action = k then [r] else [] := by
  rw [List.filter_cons, h, Bool.and_true]
  by_cases hk : (ruleOf s r).action = k <;> simp [hk]

theorem takeActions_cut {s : State} {r : Nat} (h : ruleActs (ruleOf s r) s.cst.state = true) (hx : (ruleOf s r).action = 3) :
    takeActions s [r] = enterHalt s r := by
  unfold takeActions
  dsimp only
  rw [acting_one 3 h, if_pos hx]

theorem takeActions_wake {s : State} {r : Nat} (h : ruleActs (ruleOf s r) s.cst.state = true) (hx : (ruleOf s r).action = 1)
    (hs : s.cst.state = .depot) (hw : s.cst.wakeIgnored = false) : takeActions s [r] = settleAlert (autoWake s) := by
  unfold takeActions
  dsimp only
  rw [acting_one 3 h, if_neg (by omega)]
  dsimp only
  exact if_pos ⟨by rw [acting_one 1 h, if_pos hx]; rfl, hs, by rw [hw]; rfl⟩

theorem takeActions_none {s : State} {r : Nat} (h : ruleActs (ruleOf s r) s.cst.state = true) (h3 : (ruleOf s r).action ≠ 3)
    (h1 : (ruleOf s r).action ≠ 1) : takeActions s [r] = settleAlert s := by
  unfold takeActions
  dsimp only
  rw [acting_one 3 h, if_neg h3]
  dsimp only
  exact if_neg fun hn => by
    have hwakes := hn.1
    rw [acting_one 1 h, if_neg h1] at hwakes
    cases hwakes

theorem settleAlert_touch_cst (s : State) : Touch 0x4000000 s (settleAlert s) := State_modCst_touch ..

theorem alertDue_of_alarm {s : State} {r : Nat} (hr : r < 32) (ha : (ruleState s r).active = true) (hx : (ruleOf s r).action = 2)
    (h : ruleActs (ruleOf s r) s.cst.state = true) : alertDue s = true := by
  rw [alertDue, Bool.or_eq_true]
  refine .inr (List.any_eq_true.2 ⟨r, List.mem_range.2 hr, ?_⟩)
  rw [ha, hx, h]
  rfl

/-- No rule that is active cuts main power. -/
theorem standingCut_none {s : State} (h : ∀ k, (ruleState s k).active = true → (ruleOf s k).action ≠ 3) : standingCut s = none := by
  refine List.find?_eq_none.2 fun k _ hk => ?_
  simp only [Bool.and_eq_true, beq_iff_eq] at hk
  exact h k hk.1.1 hk.1.2

/-- R509: before PWR_GOOD a state is entered without an event, and no rule that is active cuts main power. -/
theorem enterState_uncut {s : State} (hp : s.power.pwrGood = false) (h : ∀ k, (ruleState s k).active = true → (ruleOf s k).action ≠ 3)
    (d : DevState) : enterState s d = settleAlert (s.modCst fun c => { c with state := d }) := by
  have hsilent : stateReported (s.modCst fun c => { c with state := d }) d = s.modCst fun c => { c with state := d } :=
    if_neg (by rw [show (s.modCst fun c => { c with state := d }).power = s.power from rfl, hp]; decide)
  have hcut : standingCut (s.modCst fun c => { c with state := d }) = none := standingCut_none h
  rw [enterState_eq, hsilent, hcut, ite_self]

/-! ### A sample (R512) -/

/-- A channel after a sample. -/
def filtered (s : State) (ch : Nat) (v : Int) : State := s.modCst fun x => { x with
  channels := Table.insert x.channels ch (filterStep (isDigital ch) (filterK s ch) (channelOf s ch) v) }

theorem channelOf_filtered (s : State) (ch : Nat) (v : Int) :
    channelOf (filtered s ch v) ch = filterStep (isDigital ch) (filterK s ch) (channelOf s ch) v := by
  show (Table.find (Table.insert s.cst.channels ch _) ch).getD {} = _
  rw [Table.find_insert_self]
  rfl

theorem sampleChannel_eq (s : State) (ch : Nat) (v : Int) : sampleChannel s ch v
    = if (filterStep (isDigital ch) (filterK s ch) (channelOf s ch) v).samples.length < 5 then filtered s ch v
      else evalRules (filtered s ch v) ch := rfl

theorem sampleChannel_few {s : State} {ch : Nat} (v : Int) (h : (channelOf s ch).samples.length < 4) :
    sampleChannel s ch v = s.modCst fun x => { x with
      channels := Table.insert x.channels ch { channelOf s ch with samples := (channelOf s ch).samples ++ [v] } } := by
  rw [sampleChannel_eq, filtered, filterStep_short _ _ _ h]
  exact if_pos (by rw [List.length_append, List.length_singleton]; omega)

theorem sampleChannel_full {s : State} {ch : Nat} (v : Int) (h : 4 ≤ (channelOf s ch).samples.length) :
    sampleChannel s ch v = evalRules (filtered s ch v) ch := by
  rw [sampleChannel_eq]
  exact if_neg (by rw [filterStep_samples _ _ _ h, lastFive_length v h]; decide)

/-- The value a rule of a sampled channel compares (R512, R514). -/
theorem ruleValue_filtered {s : State} {ch : Nat} {x : Rule} (v : Int) (h : x.channel = ch) : ruleValue (filtered s ch v) x
    = if x.source = 0 then (filterStep (isDigital ch) (filterK s ch) (channelOf s ch) v).filtered
      else (filterStep (isDigital ch) (filterK s ch) (channelOf s ch) v).median := by
  rw [ruleValue, h, channelOf_filtered]

/-! ### What its action leaves -/

/-- The one rule that is active after a sample, and the state the actions meet. -/
structure Risen (s g : State) (r : Nat) (x : Rule) : Prop where
  rule : ruleOf g r = x
  acts : ruleActs x g.cst.state = true
  active : (ruleState g r).active = true
  others : ∀ k, k ≠ r → (ruleState g k).active = false
  state : g.cst.state = s.cst.state

theorem Risen.cut {s g : State} {r : Nat} {x : Rule} (h : Risen s g r x) (hx : x.action = 3) : takeActions g [r] = enterHalt g r :=
  takeActions_cut (by rw [h.rule]; exact h.acts) (by rw [h.rule]; exact hx)

theorem Risen.settled {s g : State} {r : Nat} {x : Rule} (h : Risen s g r x) (h3 : x.action ≠ 3) (h1 : x.action ≠ 1) :
    takeActions g [r] = settleAlert g :=
  takeActions_none (by rw [h.rule]; exact h.acts) (by rw [h.rule]; exact h3) (by rw [h.rule]; exact h1)

/-- R516: an ALARM rule asserts ALERT_N. -/
theorem Risen.alarm {s g : State} {r : Nat} {x : Rule} (h : Risen s g r x) (hr : r < 32) (hx : x.action = 2) :
    (takeActions g [r]).cst.alertN = false := by
  rw [h.settled (by omega) (by omega), settleAlert, modCst_cst,
    alertDue_of_alarm hr h.active (by rw [h.rule]; exact hx) (by rw [h.rule]; exact h.acts)]
  rfl

/-- The target of a wake by a rule, taken on (R509). -/
def wakeAimed (s : State) : State := s.modCst fun c => { c with target := wakeTarget s, lost := false }

theorem ruleState_wakeAimed (s : State) (k : Nat) : ruleState (wakeAimed s) k = ruleState s k := rfl
theorem ruleOf_wakeAimed (s : State) (k : Nat) : ruleOf (wakeAimed s) k = ruleOf s k := rfl
theorem autoWake_eq (s : State) : autoWake s = enterState (wakeAimed s) .waking := rfl

/-- R516: a WAKE rule starts the wake from DEPOT. -/
theorem Risen.wake {s g : State} {r : Nat} {x : Rule} (h : Risen s g r x) (hx : x.action = 1) (hs : g.cst.state = .depot)
    (hw : g.cst.wakeIgnored = false) (hp : g.power.pwrGood = false) :
    takeActions g [r] = settleAlert (settleAlert ((wakeAimed g).modCst fun c => { c with state := .waking })) := by
  have hcut : ∀ k, (ruleState (wakeAimed g) k).active = true → (ruleOf (wakeAimed g) k).action ≠ 3 := fun k hk => by
    by_cases hkr : k = r
    · rw [ruleOf_wakeAimed, hkr, h.rule, hx]
      decide
    · rw [ruleState_wakeAimed, h.others k hkr] at hk
      cases hk
  rw [takeActions_wake (by rw [h.rule]; exact h.acts) (by rw [h.rule]; exact hx) hs hw, autoWake_eq,
    enterState_uncut (s := wakeAimed g) hp hcut]

theorem onlyCstAndFrames {s g : State} (h : Touch 0x104000000 s g) : OnlyChanges [.cst, .canOut] s g :=
  h.onlyChanges_of_cells rfl fun p => by cases p <;> decide

theorem settleAlert_cstAndFrames {s g : State} (h : Touch 0x104000000 s g) : Touch 0x104000000 s (settleAlert g) :=
  Touch.step (settleAlert_touch_cst g) rfl h

theorem woken_cstAndFrames {s g : State} (h : Touch 0x104000000 s g) :
    Touch 0x104000000 s (settleAlert (settleAlert ((wakeAimed g).modCst fun c => { c with state := .waking }))) :=
  settleAlert_cstAndFrames (settleAlert_cstAndFrames (Touch.step (State_modCst_touch (wakeAimed g) fun c => { c with state := .waking }) rfl
    (Touch.step (State_modCst_touch g fun c => { c with target := wakeTarget g, lost := false }) rfl h)))

theorem dictVal_of_dict {s t : State} (hd : t.cst.dict = s.cst.dict) (hs : t.cst.strap = s.cst.strap) (index sub : Nat) :
    dictVal t index sub = dictVal s index sub := by
  simp only [dictVal, dictHeld, dictDefault, hd, hs]

/-- What a rule that becomes active leaves before its action: its notice, its place in the log, and the event of an ALARM rule. -/
structure Logged (s g : State) (r : Nat) (x : Rule) (v : Int) : Prop where
  canOut : g.canOut = s.canOut ++ [notice s r x v]
  trips : g.cst.trips = ({ ms := s.cst.ms, rule := r, action := x.action, channel := x.channel, value := v } :: s.cst.trips).take 8
  dict : g.cst.dict = s.cst.dict
  strap : g.cst.strap = s.cst.strap
  wakeIgnored : g.cst.wakeIgnored = s.cst.wakeIgnored
  touch : Touch 0x1841c0000 s g
  silent : x.action ≠ 2 → Touch 0x104000000 s g

/-- R512, R515: a sample with which the one rule of its channel becomes active. -/
theorem sampleChannel_rises {s : State} {ch r : Nat} {v w : Int} {x : Rule} (hl : 4 ≤ (channelOf s ch).samples.length) (hq : RulesQuiet s)
    (hr : r < 32) (hx : ruleOf s r = x) (hc : x.channel = ch) (ho : ∀ k, k < 32 → k ≠ r → (ruleOf s k).channel ≠ ch)
    (hw : ruleValue (filtered s ch v) x = w) (hnew : (ruleStep x (ruleState s r) w).active = true) (hacts : ruleActs x s.cst.state = true) :
    ∃ g, sampleChannel s ch v = takeActions g [r] ∧ Risen s g r x ∧ Logged s g r x w := by
  generalize hqn : ruleStep x (ruleState s r) w = q at hnew
  have hfx : ruleOf (filtered s ch v) r = x := hx
  have hrun := evalRules_rises (s := filtered s ch v) (q := q) hr (by rw [hfx]; exact hc) ho (hq r) (by rw [hfx, hw]; exact hqn) hnew
  rw [hfx, hw] at hrun
  generalize hg : activatedRule (ruleNoted (filtered s ch v) r q) r x w = g at hrun
  have hcst : g.cst = (logged (ruleNoted (filtered s ch v) r q) r x w).cst := by rw [← hg]; exact activatedRule_cst ..
  have hstate : ∀ k, ruleState g k = ruleState (ruleNoted (filtered s ch v) r q) k := fun k => ruleState_congr (by rw [hcst]; rfl) k
  have hlogged : Touch 0x104000000 s (logged (ruleNoted (filtered s ch v) r q) r x w) :=
    Touch.step (logged_touch ..) rfl (Touch.step (State_modCst_touch ..) rfl (Touch.step (State_modCst_touch ..) rfl (Touch.refl s)))
  refine ⟨g, (sampleChannel_full v hl).trans hrun,
    { rule := (ruleOf_congr (by rw [hcst]; rfl) (by rw [hcst]; rfl) r).trans hx
      acts := by rw [hcst]; exact hacts
      active := by rw [hstate, ruleState_ruleNoted]; exact hnew
      others := fun k hk => by rw [hstate, ruleState_ruleNoted_of_ne _ _ hk]; exact hq k
      state := by rw [hcst]; rfl },
    { canOut := ?_
      trips := by rw [hcst]; rfl
      dict := by rw [hcst]; rfl
      strap := by rw [hcst]; rfl
      wakeIgnored := by rw [hcst]; rfl
      touch := by rw [← hg]; exact Touch.step (activatedRule_logged ..) rfl (hlogged.weaken rfl)
      silent := fun h => by rw [← hg, activatedRule_silent _ _ _ h]; exact hlogged }⟩
  rw [← hg, (activatedRule_logged ..).eq .canOut rfl]
  rfl

end Sys2Proof.Machine

namespace Sys2Proof

open Sys2Proof.Machine

/-- Settles O55: the median by the sorted samples, a rule by its runs, and the action of the one rule that becomes active. -/
theorem channelsAndRules : Obligations.ChannelsAndRules := by
  unfold Obligations.ChannelsAndRules
  have hsampled : ∀ (s : State) (ch : BitVec 8) (v : Word32) (ms : Word64), s.power.inputPower = true → isChannel ch.toNat = true →
      ch.toNat < 0xF0 → exec (.channelSample ch v ms) s = .next (sampleChannel (s.modCst fun c => { c with ms := ms }) ch.toNat v.toInt) := by
    intro s ch v ms hp hc hg
    refine congrArg Host.Outcome.next ((if_neg (by simp [hp, hc])).trans (if_neg (by omega)))
  refine ⟨fun s ch v ms hc hg => ?_, fun x q v hh hm => ?_, fun s ch v ms r hp hc hg hl hq hrc ho => ?_⟩
  · dsimp only
    refine ⟨fun hp hl => ?_, fun hp hl => ?_, fun hp => ?_⟩
    · rw [hsampled s ch v ms hp hc hg, sampleChannel_few (s := s.modCst fun c => { c with ms := ms }) v.toInt hl]
      rfl
    · have hl : 4 ≤ (channelOf s ch.toNat).samples.length := by omega
      have hrun := hsampled s ch v ms hp hc hg
      rw [sampleChannel_full (s := s.modCst fun c => { c with ms := ms }) v.toInt hl] at hrun
      have hkept := evalRules_readings (filtered (s.modCst fun c => { c with ms := ms }) ch.toNat v.toInt) ch.toNat
      have hchannel : channelOf (evalRules (filtered (s.modCst fun c => { c with ms := ms }) ch.toNat v.toInt) ch.toNat) ch.toNat
          = filterStep (isDigital ch.toNat) (filterK s ch.toNat) (channelOf s ch.toNat) v.toInt := by
        rw [channelOf, hkept.channels]
        exact channelOf_filtered (s.modCst fun c => { c with ms := ms }) ch.toNat v.toInt
      refine ⟨_, hrun, hkept.ms, ?_⟩
      rw [hchannel, filterStep_samples _ _ _ hl, filterStep_median _ _ _ hl]
      obtain ⟨hmem, hlow, hhigh⟩ := median5_spec (lastFive_length v.toInt hl)
      refine ⟨rfl, hmem, hlow, hhigh, fun hd => ?_, fun hd => ?_⟩
      · rw [filterStep_full _ _ _ hl, hd]
        rfl
      · rw [filterStep_full _ _ _ hl, hd, ← sarInt_eq]
        exact ⟨rfl, sarInt_eq _ 8⟩
    · exact congrArg Host.Outcome.next (if_pos (by rw [hp]; rfl))
  · exact ⟨ruleTrue_iff x v, ruleStep_rises v hh, ruleStep_clears v hh, fun h => by rw [ruleStep_eq, h]; rfl, fun h => by rw [ruleStep_eq, h]; rfl⟩
  · dsimp only
    intro hnew hacts
    have hvalue : ruleValue (filtered (s.modCst fun c => { c with ms := ms }) ch.toNat v.toInt) (ruleOf s r.val)
        = if (ruleOf s r.val).source = 0
          then (filterStep (isDigital ch.toNat) (filterK s ch.toNat) (channelOf s ch.toNat) v.toInt).filtered
          else (filterStep (isDigital ch.toNat) (filterK s ch.toNat) (channelOf s ch.toNat) v.toInt).median :=
      ruleValue_filtered (s := s.modCst fun c => { c with ms := ms }) v.toInt hrc
    obtain ⟨g, hrun, hrisen, hlog⟩ := sampleChannel_rises (s := s.modCst fun c => { c with ms := ms })
      (x := ruleOf s r.val) hl hq r.isLt rfl hrc ho hvalue hnew hacts
    have hexec := (hsampled s ch v ms hp hc hg).trans (congrArg Host.Outcome.next hrun)
    have hms : Touch 0x4000000 s (s.modCst fun c => { c with ms := ms }) := State_modCst_touch ..
    have htouch : Touch 0x1841c0000 s g := hlog.touch.step rfl (hms.weaken rfl)
    obtain ⟨-, hkept⟩ := takeActions_keeps g [r.val]
    refine ⟨_, hexec, hkept.canOut.trans hlog.canOut, hkept.trips.trans hlog.trips, ?_, fun h3 => ?_, fun h2 => ?_, fun h1 hs hw hp => ?_, fun h0 => ?_⟩
    · rw [ruleState_congr hkept.rules]
      exact hrisen.active
    · rw [hrisen.cut h3]
      exact ⟨rfl, rfl, rfl, rfl, fun _ => rfl⟩
    · have hset := hrisen.settled (by rw [h2]; decide) (by rw [h2]; decide)
      refine ⟨?_, hrisen.alarm r.isLt h2, ?_⟩
      · rw [hset]
        exact hrisen.state
      · rw [hset]
        exact (Touch.step (settleAlert_touch_cst g) rfl htouch).onlyChanges_of_cells rfl fun p => by cases p <;> decide
    · have hpower : g.power = s.power := htouch.eq .power rfl
      rw [hrisen.wake h1 (hrisen.state.trans hs) (hlog.wakeIgnored.trans hw) (by rw [hpower]; exact hp)]
      refine ⟨rfl, ?_, onlyCstAndFrames (woken_cstAndFrames ((hlog.silent (by rw [h1]; decide)).step rfl (hms.weaken rfl)))⟩
      show wakeTarget g = _
      rw [wakeTarget, dictVal_of_dict hlog.dict hlog.strap]
      rfl
    · rw [hrisen.settled (by rw [h0]; decide) (by rw [h0]; decide)]
      exact ⟨hrisen.state, onlyCstAndFrames (settleAlert_cstAndFrames ((hlog.silent (by rw [h0]; decide)).step rfl (hms.weaken rfl)))⟩

end Sys2Proof
end

section
/-!
PROOF. Core tests, sparing and uncorrectable errors of on-chip memories (R547, R552, R553).
-/

namespace Sys2Proof.Machine

/-! ### STATE of a position (R29) -/

/-- A count leaves all else of a Stationmaster. -/
theorem sch_get_addCtr (s : State) (t : Tile) (off n : Nat) : ∃ c, (addCtr s (blkSch t) off n).sch.get t = { s.sch.get t with ctrs := c } :=
  ⟨_, by rw [sch_addCtr, PerTile.get_modify_self]⟩

theorem coreState_addCtr (s : State) (t : Tile) (off n : Nat) :
    ((addCtr s (blkSch t) off n).sch.get t).coreState = (s.sch.get t).coreState := by
  obtain ⟨c, hc⟩ := sch_get_addCtr s t off n
  rw [hc]

theorem sparing_addCtr (s : State) (t : Tile) (off n : Nat) :
    ((addCtr s (blkSch t) off n).sch.get t).sparing = (s.sch.get t).sparing := by
  obtain ⟨c, hc⟩ := sch_get_addCtr s t off n
  rw [hc]

theorem onSpare_addCtr (s : State) (t : Tile) (off n : Nat) :
    ((addCtr s (blkSch t) off n).sch.get t).onSpare = (s.sch.get t).onSpare := by
  obtain ⟨c, hc⟩ := sch_get_addCtr s t off n
  rw [hc]

theorem coreStateOf_congr {s u : State} {t : Tile} (h : (u.sch.get t).coreState = (s.sch.get t).coreState) (k : Nat) :
    coreStateOf u t k = coreStateOf s t k := by rw [coreStateOf, coreStateOf, h]

theorem coreStateOf_addCtr (s : State) (t : Tile) (off n k : Nat) : coreStateOf (addCtr s (blkSch t) off n) t k = coreStateOf s t k :=
  coreStateOf_congr (coreState_addCtr ..) k

theorem Touch.coreStateOf {m : Nat} {s u : State} (h : Touch m s u) (hm : m.testBit StatePart.sch.idx = false) (t : Tile) (k : Nat) :
    coreStateOf u t k = coreStateOf s t k := by
  have e : u.sch = s.sch := h.eq .sch hm
  rw [Machine.coreStateOf, Machine.coreStateOf, e]

theorem coreState_setCoreState (s : State) (t : Tile) (n : Nat) (v : BitVec 2) :
    ((setCoreState s t n v).sch.get t).coreState = Table.set 0 (s.sch.get t).coreState n v := by
  rw [setCoreState, modSch_get]

/-- A STATE other than 0 that is set. -/
theorem coreStateOf_setCoreState {v : BitVec 2} (s : State) (t : Tile) (n k : Nat) (hv : v ≠ 0) :
    coreStateOf (setCoreState s t n v) t k = if k = n then v.toNat else coreStateOf s t k := by
  rw [coreStateOf, coreState_setCoreState]
  by_cases h : k = n
  · subst h
    rw [Table.get_set_self _ _ hv, if_pos rfl]
  · rw [Table.get_set_of_ne _ hv h, if_neg h]
    rfl

/-- STATE 0, set in a table with rising keys. -/
theorem coreStateOf_setCoreState_zero {s : State} {t : Tile} (h : Table.canonical 0 (s.sch.get t).coreState = true) (n k : Nat) :
    coreStateOf (setCoreState s t n 0) t k = if k = n then 0 else coreStateOf s t k := by
  rw [coreStateOf, coreState_setCoreState, Table.get_set 0 h]
  split <;> rfl

theorem ctr_setCoreState (s : State) (t u : Tile) (n : Nat) (v : BitVec 2) (off : Nat) :
    ctr (setCoreState s t n v) (blkSch u) off = ctr s (blkSch u) off := ctr_modSch s t u off fun _ => rfl

/-! ### Tests (R552, R553) -/

/-- Parts of the state that a core's test changes. -/
def testParts : List StatePart := [.sch, .hifCtrs, .logs, .pages, .hostOut]

theorem Touch.onlyTests {s u : State} (h : Touch 0x801c0008 s u) : OnlyChanges testParts s u :=
  h.onlyChanges_of_cells rfl fun p => by cases p <;> decide

theorem setCoreState_touch_tests (s : State) (t : Tile) (n : Nat) (v : BitVec 2) : Touch 0x801c0008 s (setCoreState s t n v) :=
  (State_modSch_touch ..).weaken rfl

theorem startCoreTest_touch_tests (s : State) (t : Tile) (n : Nat) : Touch 0x801c0008 s (startCoreTest s t n) :=
  Touch.step (addCtr_touch_sch ..) rfl (setCoreState_touch_tests ..)

theorem coreStateOf_startCoreTest (s : State) (t : Tile) (n k : Nat) :
    coreStateOf (startCoreTest s t n) t k = if k = n then 3 else coreStateOf s t k := by
  rw [startCoreTest, coreStateOf_addCtr, coreStateOf_setCoreState s t n k (by decide)]
  rfl

theorem countWords_touch_tests (s : State) (t : Tile) (n : Nat) : Touch 0x801c0008 s (countWords s t n) := by
  unfold countWords
  split
  · exact Touch.refl s
  · exact addCtr_touch_sch ..

theorem coreState_countWords (s : State) (t : Tile) (n : Nat) : ((countWords s t n).sch.get t).coreState = (s.sch.get t).coreState := by
  unfold countWords
  split
  · rfl
  · exact coreState_addCtr ..

theorem blkSch_lt (t : Tile) : blkSch t < 25 := by cases t <;> decide
theorem blkSch_ne_hif (t : Tile) : blkSch t ≠ blkHif := by cases t <;> decide

/-- R557: a count of n rises by it up to the limit. -/
theorem ctr_countWords (s : State) (t : Tile) (n : Nat) :
    (ctr (countWords s t n) (blkSch t) 0x0700).toNat = min (2 ^ 64 - 1) ((ctr s (blkSch t) 0x0700).toNat + n) := by
  unfold countWords
  split
  · rename_i h
    subst h
    have hlt := (ctr s (blkSch t) 0x0700).isLt
    omega
  · rename_i h
    exact ctr_addCtr_any s (blkSch_lt t) (fun hb => blkSch_ne_hif t hb.1) (Nat.pos_of_ne_zero h)

/-- A position is no longer being spared. -/
def sparingEnded (s : State) (t : Tile) (n : Nat) : State := s.modSch t fun x => { x with sparing := x.sparing.filter fun y => y != n }

/-- R23: a position that is retired outside SERVICE reads STATE 0b10 and gives reason 0 of LIMITED. -/
theorem retireCore_outside {s : State} (t : Tile) (n : Nat) (hs : s.cst.state ≠ .service) :
    retireCore s t n = reasonNoted (raise (setCoreState (sparingEnded s t n) t n 2) 0x0109 (coreIndex t n) (blkSch t)) 0 := by
  refine setReason_eq (by decide) ?_
  rw [(raise_touch ..).eq .cst rfl]
  exact hs

theorem retireCore_sch {s : State} (t : Tile) (n : Nat) (hs : s.cst.state ≠ .service) :
    (retireCore s t n).sch = (setCoreState (sparingEnded s t n) t n 2).sch := by
  rw [retireCore_outside t n hs]
  exact (raise_touch ..).eq .sch rfl

theorem retireCore_cst {s : State} (t : Tile) (n : Nat) (hs : s.cst.state ≠ .service) :
    (retireCore s t n).cst.limitedReasons = s.cst.limitedReasons ||| 1 := by
  rw [retireCore_outside t n hs, reasonNoted, modCst_cst, (raise_touch ..).eq .cst rfl]
  rfl

theorem not_mem_filter_ne (n : Nat) (l : List Nat) : n ∉ l.filter fun y => y != n := by simp

/-- A free spare begins to carry a position, and its cluster runs (R553). -/
theorem execCoreTestFail_spared {s : State} {t : Tile} {n : Fin 336} (h3 : coreStateOf s t n.val = 3)
    (hn : n.val ∉ (s.sch.get t).sparing) (hu : spareUsed s t n.val = false) : ∃ u, execCoreTestFail t n s = .next u
      ∧ Touch 0x8000000 ((setCoreState s t n.val 1).modSch t fun x => { x with sparing := x.sparing ++ [n.val] }) u := by
  have hu' : spareUsed (setCoreState s t n.val 1) t n.val = false := by
    rw [← hu, spareUsed, spareUsed, setCoreState, modSch_get]
  unfold execCoreTestFail
  rw [if_neg (by simpa using hn), if_neg (by omega)]
  dsimp only
  rw [if_neg (by rw [hu']; decide)]
  refine ⟨_, rfl, ?_⟩
  split
  · exact State_modCluster_touch ..
  · exact Touch.refl _

theorem execCoreTestFail_retired {s : State} {t : Tile} {n : Fin 336} (h3 : coreStateOf s t n.val = 3)
    (hn : n.val ∉ (s.sch.get t).sparing) (hu : spareUsed s t n.val = true) :
    execCoreTestFail t n s = .next (retireCore (setCoreState s t n.val 1) t n.val) := by
  have hu' : spareUsed (setCoreState s t n.val 1) t n.val = true := by
    rw [← hu, spareUsed, spareUsed, setCoreState, modSch_get]
  unfold execCoreTestFail
  rw [if_neg (by simpa using hn), if_neg (by omega)]
  dsimp only
  rw [if_pos hu']

theorem execCoreTestFail_spare {s : State} {t : Tile} {n : Fin 336} (hn : n.val ∈ (s.sch.get t).sparing) :
    execCoreTestFail t n s = .next (retireCore (addCtr s (blkSch t) 0x0718) t n.val) :=
  congrArg Host.Outcome.next (if_pos (by simpa using hn))

/-! ### A spare that passed (R553) -/

/-- The spare's test is counted and the spare carries the position. -/
def spareTaken (s : State) (t : Tile) (n : Nat) : State :=
  (addCtr s (blkSch t) 0x0718).modSch t fun x =>
    { x with sparing := x.sparing.filter (fun y => y != n), onSpare := Table.insert x.onSpare n spareRow }

/-- The spared position is in service, its memories zeroed. -/
def sparedZeroed (s : State) (t : Tile) (n : Nat) : State :=
  zeroWindow (setCoreState (spareTaken s t n) t n 0) (coreIndex t n) 0 0x2C0000

/-- A core's spare has carried its position, and that is counted and reported. -/
def spareReported (s : State) (t : Tile) (n : Nat) : State :=
  raise (addCtr (sparedZeroed s t n) (blkSch t) 0x0710) 0x0108 (coreIndex t n) (blkSch t)

theorem execCoreSpared_eq {s : State} {t : Tile} {n : Fin 336} (hn : n.val ∈ (s.sch.get t).sparing) :
    execCoreSpared t n s = .next (spareReported s t n.val) := congrArg Host.Outcome.next (if_pos (by simpa using hn))

theorem sparedZeroed_sch (s : State) (t : Tile) (n : Nat) : (sparedZeroed s t n).sch = (setCoreState (spareTaken s t n) t n 0).sch :=
  (zeroWindow_touch ..).eq .sch rfl

theorem spareReported_sch_get (s : State) (t : Tile) (n : Nat) : ∃ c, (spareReported s t n).sch.get t
    = { (setCoreState (spareTaken s t n) t n 0).sch.get t with ctrs := c } := by
  obtain ⟨c, hc⟩ := sch_get_addCtr (sparedZeroed s t n) t 0x0710 1
  exact ⟨c, by rw [spareReported, (raise_touch ..).eq .sch rfl, hc, sparedZeroed_sch]⟩

theorem coreIndex_lt (t : Tile) (n : Fin 336) : coreIndex t n.val < 1344 := by
  have := n.isLt
  cases t <;> simp only [coreIndex, tileIdx] <;> omega

theorem sparedZeroed_mem (s : State) (t : Tile) (n : Fin 336) :
    (sparedZeroed s t n.val).mem = memZero s.mem (windowBase (coreIndex t n.val)) 0x2C0000 := by
  have hin : inCoreBytes (coreIndex t n.val) 0 0x2C0000 = true := by
    have := coreIndex_lt t n
    simp [inCoreBytes, this]
  have hmem : (setCoreState (spareTaken s t n.val) t n.val 0).mem = s.mem := (addCtr_touch_sch s t 0x0718 1).cells rfl
  rw [sparedZeroed, zeroWindow, if_pos hin]
  show memZero (setCoreState (spareTaken s t n.val) t n.val 0).mem _ _ = _
  rw [hmem, Nat.add_zero]

theorem spareReported_mem (s : State) (t : Tile) (n : Fin 336) :
    (spareReported s t n.val).mem = memZero s.mem (windowBase (coreIndex t n.val)) 0x2C0000 := by
  rw [← sparedZeroed_mem]
  exact (Touch.step (m := 0x801c0008) (raise_touch ..) rfl (addCtr_touch_sch (sparedZeroed s t n.val) t 0x0710 1)).cells rfl

theorem spareTaken_touch (s : State) (t : Tile) (n : Nat) : Touch 0x801c0008 s (spareTaken s t n) :=
  Touch.step (State_modSch_touch ..) rfl (addCtr_touch_sch ..)

theorem spareReported_touch (s : State) (t : Tile) (n : Nat) : Touch 0x20801c000c s (spareReported s t n) :=
  Touch.step (raise_touch ..) rfl (Touch.step (addCtr_touch_sch ..) rfl (Touch.step (zeroWindow_touch ..) rfl
    (Touch.step (setCoreState_touch_tests ..) rfl ((spareTaken_touch ..).weaken rfl))))

/-- A core's window lies in the on-chip range of the windows (R96). -/
theorem inScratch_of_window {t : Tile} {n : Fin 336} {a : Nat} (h : a < windowBase (coreIndex t n.val) + 0x2C0000) : inScratch a := by
  have hi := coreIndex_lt t n
  unfold windowBase at h
  unfold inScratch
  omega

theorem memByte_spareReported {s : State} (hm : memCanonical s.mem = true) (t : Tile) (n : Fin 336) (a : Nat) :
    memByte (spareReported s t n.val).mem a
      = if windowBase (coreIndex t n.val) ≤ a ∧ a < windowBase (coreIndex t n.val) + 0x2C0000 then 0 else memByte s.mem a := by
  rw [spareReported_mem, memByte_memZero ((memCanonical_iff _).1 hm).1]

theorem spareReported_onlyChanges {s : State} (hm : memCanonical s.mem = true) (t : Tile) (n : Fin 336) :
    OnlyChanges [.sch, .scratch, .poison, .hifCtrs, .logs, .pages, .hostOut] s (spareReported s t n.val) := fun p hp => by
  have htouch := spareReported_touch s t n.val
  have houtside : ∀ a, ¬ inScratch a → memByte (spareReported s t n.val).mem a = memByte s.mem a := fun a ha => by
    rw [memByte_spareReported hm, if_neg fun h => ha (inScratch_of_window h.2)]
  have hrest : OnlyChanges [.mem, .frameBytes, .sch, .scratch, .poison, .hifCtrs, .logs, .pages, .hostOut] s (spareReported s t n.val) :=
    htouch.onlyChanges_of_memory (by decide) (by decide) (by decide) fun p => by cases p <;> decide
  by_cases h1 : p = .mem
  · subst h1
    exact fun a ha _ => houtside a ha
  · by_cases h2 : p = .frameBytes
    · subst h2
      refine fun a ha => houtside a fun hs => ?_
      unfold inFrames at ha
      unfold inScratch at hs
      omega
    · exact hrest p (by rw [List.mem_cons, List.mem_cons]; exact fun h => (h.resolve_left h1).elim h2 hp)

/-- The spare's count (R553). -/
theorem ctr_spareReported (s : State) (t : Tile) (n : Nat) : (ctr (spareReported s t n) (blkSch t) 0x0710).toNat
    = min (2 ^ 64 - 1) ((ctr s (blkSch t) 0x0710).toNat + 1) := by
  have hzeroed : ctr (sparedZeroed s t n) (blkSch t) 0x0710 = ctr s (blkSch t) 0x0710 := by
    have htaken : ctr (spareTaken s t n) (blkSch t) 0x0710 = ctr (addCtr s (blkSch t) 0x0718) (blkSch t) 0x0710 :=
      ctr_modSch _ _ _ _ fun _ => rfl
    rw [sparedZeroed, (zeroWindow_touch ..).ctr_sch rfl, ctr_setCoreState, htaken, ctr_addCtr_of_ne _ _ _ (by decide)]
  rw [spareReported, (raise_touch ..).ctr_sch rfl, ctr_addCtr_self, hzeroed]

/-! ### Uncorrectable errors (R547) -/

/-- An uncorrectable error of an on-chip memory is reported and counted, and the task whose access met it stops. -/
def errorMet (s : State) (t : Tile) (data id : Nat) (unit : LogUnit) (detail : Nat) : State :=
  stopTask (addCtr (raise s 0x0208 data (blkSch t)) (blkSch t) 0x0708) id 0x020B unit 0 detail

theorem errorMet_touch (s : State) (t : Tile) (data id : Nat) (unit : LogUnit) (detail : Nat) :
    Touch 0x801c0108 s (errorMet s t data id unit detail) :=
  Touch.step (stopTask_touch ..) rfl (Touch.step (addCtr_touch_sch ..) rfl ((raise_touch ..).weaken rfl))

theorem taskOf_errorMet (s : State) (t : Tile) (data id : Nat) (unit : LogUnit) (detail i : Nat) :
    taskOf (errorMet s t data id unit detail) i = (taskOf s i).map fun x => if i = id then x.stopped 0x020B else x := by
  rw [errorMet, taskOf_stopTask, (addCtr_touch_sch ..).taskOf rfl, (raise_touch ..).taskOf rfl]

theorem taskOf_errorMet_self {s : State} {id : Nat} {x : Task} (h : taskOf s id = some x) (hx : ∀ c, x.status ≠ .stopping c) (t : Tile)
    (data : Nat) (unit : LogUnit) (detail : Nat) :
    taskOf (errorMet s t data id unit detail) id = some { x with status := .stopping 0x020B } := by
  rw [taskOf_errorMet, h, Option.map_some, if_pos rfl, Task.stopped_of_ne _ hx]
  rfl

theorem taskOf_errorMet_of_ne (s : State) (t : Tile) (data : Nat) {id i : Nat} (unit : LogUnit) (detail : Nat) (h : i ≠ id) :
    taskOf (errorMet s t data id unit detail) i = taskOf s i := by
  rw [taskOf_errorMet]
  simp [h]

theorem ctr_errorMet (s : State) (t : Tile) (data id : Nat) (unit : LogUnit) (detail : Nat) :
    (ctr (errorMet s t data id unit detail) (blkSch t) 0x0708).toNat = min (2 ^ 64 - 1) ((ctr s (blkSch t) 0x0708).toNat + 1) := by
  rw [errorMet, (stopTask_touch ..).ctr_sch rfl, ctr_addCtr_self, (raise_touch ..).ctr_sch rfl]

theorem coreState_errorMet (s : State) (t : Tile) (data id : Nat) (unit : LogUnit) (detail : Nat) :
    ((errorMet s t data id unit detail).sch.get t).coreState = (s.sch.get t).coreState := by
  rw [errorMet, (stopTask_touch ..).eq .sch rfl, coreState_addCtr, (raise_touch ..).eq .sch rfl]

theorem Touch.onlyErrors {s u : State} (h : Touch 0x801c0108 s u) : OnlyChanges [.sch, .tasks, .hifCtrs, .logs, .pages, .hostOut] s u :=
  h.onlyChanges_of_cells rfl fun p => by cases p <;> decide

theorem ctr_startCoreTest (s : State) (t : Tile) (n : Nat) : ctr (startCoreTest s t n) (blkSch t) 0x0708 = ctr s (blkSch t) 0x0708 := by
  rw [startCoreTest, ctr_addCtr_of_ne _ _ _ (by decide), ctr_setCoreState]

/-- R547: a core's error, where the position is not retired. -/
theorem execOnchipUncorrectable_core {s : State} {t : Tile} {n : Fin 336} (hm : mainUp s = true) (h2 : coreStateOf s t n.val ≠ 2) (id : Nat) :
    execOnchipUncorrectable (.core t n) id s = .next (if coreStateOf s t n.val = 0
      then startCoreTest (errorMet s t (coreIndex t n.val) id .core (coreIndex t n.val)) t n.val
      else errorMet s t (coreIndex t n.val) id .core (coreIndex t n.val)) := by
  rw [← coreStateOf_congr (coreState_errorMet s t (coreIndex t n.val) id .core (coreIndex t n.val))]
  unfold execOnchipUncorrectable
  rw [if_neg (by rw [hm]; decide)]
  exact congrArg Host.Outcome.next (if_neg h2)

end Sys2Proof.Machine

namespace Sys2Proof

open Sys2Proof.Machine

/-- Settles O42: each end of a core's test by what it leaves in STATE and in the sparing, and an error by the task it stops. -/
theorem coresAndMemoriesTested : Obligations.CoresAndMemoriesTested := by
  unfold Obligations.CoresAndMemoriesTested
  refine ⟨fun s t n => ⟨fun h => ?_, fun h => ?_, fun h3 hc words => ?_, fun h3 hn => ⟨fun hu => ?_, execCoreTestFail_retired h3 hn⟩,
    execCoreTestFail_spare, fun hs => ⟨?_, retireCore_cst t n.val hs, ?_⟩, fun hn hm hc => ?_⟩, fun s t n id x hup hx hst => ⟨fun h2 => ?_, fun h2 => ?_, ?_⟩⟩
  · refine ⟨_, congrArg Host.Outcome.next (if_pos h), ?_, fun k hk => ?_, ?_, (startCoreTest_touch_tests ..).onlyTests⟩
    · rw [coreStateOf_startCoreTest, if_pos rfl]
    · rw [coreStateOf_startCoreTest, if_neg hk]
    · rw [startCoreTest, ctr_addCtr_self, ctr_setCoreState]
  · exact congrArg Host.Outcome.next (if_neg (by rw [h]; decide))
  · have hzero := coreStateOf_setCoreState_zero (s := countWords s t words) (t := t) (by rw [coreState_countWords]; exact hc) n.val
    refine ⟨_, congrArg Host.Outcome.next (if_pos h3), ?_, fun k hk => ?_, ?_,
      (Touch.step (setCoreState_touch_tests ..) rfl (countWords_touch_tests ..)).onlyTests⟩
    · rw [hzero, if_pos rfl]
    · rw [hzero, if_neg hk]
      exact coreStateOf_congr (coreState_countWords ..) k
    · rw [ctr_setCoreState, ctr_countWords]
  · obtain ⟨u, hu, htouch⟩ := execCoreTestFail_spared h3 hn hu
    have hsch : u.sch = ((setCoreState s t n.val 1).modSch t fun x => { x with sparing := x.sparing ++ [n.val] }).sch := htouch.eq .sch rfl
    refine ⟨u, hu, ?_, ?_, (Touch.step htouch rfl (Touch.step (State_modSch_touch ..) rfl
      ((State_modSch_touch ..).weaken (m := 0x8000008) rfl))).onlyChanges_of_cells rfl fun p => by cases p <;> decide⟩
    · rw [coreStateOf, hsch, modSch_get]
      exact (coreStateOf_setCoreState s t n.val n.val (by decide)).trans (if_pos rfl)
    · rw [hsch, modSch_get, setCoreState, modSch_get]
  · rw [coreStateOf, retireCore_sch t n.val hs]
    exact (coreStateOf_setCoreState (sparingEnded s t n.val) t n.val n.val (by decide)).trans (if_pos rfl)
  · rw [retireCore_sch t n.val hs, setCoreState, modSch_get, sparingEnded, modSch_get]
    exact not_mem_filter_ne n.val _
  · obtain ⟨c, hget⟩ := spareReported_sch_get s t n.val
    have htaken : ((spareTaken s t n.val).sch.get t).coreState = (s.sch.get t).coreState := by
      rw [spareTaken, modSch_get]
      exact coreState_addCtr ..
    refine ⟨_, execCoreSpared_eq hn, ?_, ?_, ?_, memByte_spareReported hm t n, ctr_spareReported s t n.val, spareReported_onlyChanges hm t n⟩
    · rw [coreStateOf, hget]
      exact (coreStateOf_setCoreState_zero (by rw [htaken]; exact hc) n.val n.val).trans (if_pos rfl)
    · rw [hget, setCoreState, modSch_get, spareTaken, modSch_get]
      exact not_mem_filter_ne n.val _
    · rw [hget, setCoreState, modSch_get, spareTaken, modSch_get]
      exact Table.find_insert_self ..
  · have hmet := coreStateOf_congr (coreState_errorMet s t (coreIndex t n.val) id .core (coreIndex t n.val)) n.val
    refine ⟨_, execOnchipUncorrectable_core hup h2 id, ?_⟩
    have htouch := errorMet_touch s t (coreIndex t n.val) id .core (coreIndex t n.val)
    have htask := taskOf_errorMet_self hx hst t (coreIndex t n.val) .core (coreIndex t n.val)
    have hctr := ctr_errorMet s t (coreIndex t n.val) id .core (coreIndex t n.val)
    by_cases h0 : coreStateOf s t n.val = 0
    · rw [if_pos h0, if_pos h0]
      have hstart := startCoreTest_touch_tests (errorMet s t (coreIndex t n.val) id .core (coreIndex t n.val)) t n.val
      refine ⟨(hstart.taskOf rfl id).trans htask, fun i hi => ?_, ?_, ?_, (Touch.step hstart rfl htouch).onlyErrors⟩
      · rw [hstart.taskOf rfl, taskOf_errorMet_of_ne _ _ _ _ _ hi]
      · rw [ctr_startCoreTest, hctr]
      · rw [coreStateOf_startCoreTest, if_pos rfl]
    · rw [if_neg h0, if_neg h0]
      exact ⟨htask, fun i hi => taskOf_errorMet_of_ne _ _ _ _ _ hi, hctr, hmet, htouch.onlyErrors⟩
  · refine congrArg Host.Outcome.next ((if_neg (by rw [hup]; decide)).trans ?_)
    exact if_pos h2
  · refine ⟨errorMet s t 0xFFFF id .memory 0, congrArg Host.Outcome.next (if_neg (by rw [hup]; decide)),
      taskOf_errorMet_self hx hst t 0xFFFF .memory 0, ctr_errorMet .., coreState_errorMet .., (errorMet_touch ..).onlyErrors⟩

end Sys2Proof
end

section
/-!
PROOF. Reasons of LIMITED that arise outside SERVICE (R510), where they change no state.
-/

namespace Sys2Proof.Machine

/-! ### Reasons of LIMITED that arise outside SERVICE -/

/-- An operation that changes no more of the Custodian than the reasons of LIMITED (R510). -/
structure ReasonTouch (m : Nat) (s t : State) : Prop where
  touch : Touch m s t
  cst : t.cst = { s.cst with limitedReasons := t.cst.limitedReasons }

theorem ReasonTouch.state {m : Nat} {s t : State} (h : ReasonTouch m s t) : t.cst.state = s.cst.state := by rw [h.cst]

theorem ReasonTouch.refl {m : Nat} (s : State) : ReasonTouch m s s := ⟨Touch.refl s, rfl⟩

theorem ReasonTouch.step {a m : Nat} {s x y : State} (h : ReasonTouch a x y) (ha : a ||| m = m) (hs : ReasonTouch m s x) :
    ReasonTouch m s y := ⟨h.touch.step ha hs.touch, by rw [h.cst, hs.cst]⟩

theorem ReasonTouch.weaken {a m : Nat} {s t : State} (h : ReasonTouch a s t) (ha : a ||| m = m) : ReasonTouch m s t :=
  h.step ha (.refl s)

/-- An operation that leaves the Custodian. -/
theorem Touch.noReason {m : Nat} {s t : State} (h : Touch m s t) (hm : m.testBit StatePart.cst.idx = false) :
    ReasonTouch m s t := ⟨h, by
  have e : t.cst = s.cst := h.eq .cst hm
  rw [e]⟩

theorem ReasonTouch.foldl {α : Type} {m : Nat} {f : State → α → State} {P : State → Prop}
    (hP : ∀ {s t}, ReasonTouch m s t → P s → P t) (hf : ∀ s x, P s → ReasonTouch m s (f s x)) (l : List α) (s : State)
    (hs : P s) : ReasonTouch m s (l.foldl f s) := by
  induction l generalizing s with
  | nil => exact .refl s
  | cons x l ih =>
    have hx := hf s x hs
    exact (ih _ (hP hx hs)).step (Nat.or_self m) hx

/-- The module is not in SERVICE, so that a reason of LIMITED changes no state. -/
def OutsideService (s : State) : Prop := s.cst.state ≠ .service

theorem ReasonTouch.outside {m : Nat} {s t : State} (h : ReasonTouch m s t) (hs : OutsideService s) : OutsideService t := by
  unfold OutsideService
  rw [h.state]
  exact hs

theorem setReason_outside {s : State} (b : Nat) (hb : BitVec.ofNat 32 (2 ^ b) ≠ 0) (hs : OutsideService s) :
    ReasonTouch 0x4000000 s (setReason s b) := by
  rw [setReason_eq hb hs]
  exact ⟨State_modCst_touch .., rfl⟩

theorem failPseudoChannel_outside {s : State} (t : Tile) (pc : Nat) (hs : OutsideService s) :
    ReasonTouch 0x841c0010 s (failPseudoChannel s t pc) := by
  unfold failPseudoChannel
  dsimp only
  split
  · exact .refl s
  · split
    · exact (Touch.step (raise_touch ..) rfl ((State_modMem_touch ..).weaken rfl)).noReason (m := 0x801c0010) rfl |>.step rfl (.refl s)
    · have hraised := (Touch.step (m := 0x801c0010) (raise_touch (s.modMem t fun m => { m with unspared := true }) 0x0206
        (2 ^ 31 + pc) (blkMem t) 0) rfl ((State_modMem_touch ..).weaken rfl)).noReason rfl
      exact (setReason_outside 3 (by decide) (hraised.outside hs)).step rfl (hraised.step rfl (.refl s))

theorem countUncorrectable_outside {s : State} (t : Tile) (pc : Nat) (hs : OutsideService s) :
    ReasonTouch 0x841c0010 s (countUncorrectable s t pc) := by
  unfold countUncorrectable
  dsimp only
  have hcounted : ReasonTouch 0x841c0010 s (s.modMem t fun m =>
      { m with ueCount := Table.set 0 m.ueCount pc (Table.get 0 (s.tmem.get t).ueCount pc + 1) }) :=
    ((State_modMem_touch ..).noReason rfl).weaken (a := 0x10) rfl
  split
  · exact (failPseudoChannel_outside t pc (hcounted.outside hs)).step rfl hcounted
  · exact hcounted

theorem memFailure_outside {s : State} (src : FailSrc) (part cause pa : Nat) (hs : OutsideService s) :
    ReasonTouch 0x841c0010 s (memFailure s src part cause pa) := by
  unfold memFailure
  extract_lets t at_ pc late s1 s2 s3 s4 s5
  have h4 : ReasonTouch 0x841c0010 s s4 := (Touch.step (logCause_touch ..) rfl (Touch.step (captureFail_touch ..) rfl
    (Touch.step (addCtr_touch_mem ..) rfl ((raise_touch ..).weaken rfl)))).noReason (m := 0x801c0010) rfl |>.step rfl (.refl s)
  split
  · exact h4
  · have h5 : ReasonTouch 0x841c0010 s s5 := ((triggerRepair_touch ..).noReason rfl).step rfl h4
    exact (countUncorrectable_outside t pc (h5.outside hs)).step rfl h5

theorem failAcc_outside {s : State} (src : FailSrc) (part : Nat) (e : AccErr) (hs : OutsideService s) :
    ReasonTouch 0x4841c0010 s (failAcc s src part e) := by
  unfold failAcc
  split
  · exact ((touch_heldAt s).noReason rfl).step rfl (.refl s)
  · split
    · exact ((imageFailure_touch ..).noReason rfl).step rfl (.refl s)
    · split
      · exact (memFailure_outside _ _ _ _ hs).step rfl (.refl s)
      · exact .refl s

end Sys2Proof.Machine
end

section
/-!
PROOF. Rails and the steps of a wake (R524 to R529, R551).
-/

namespace Sys2Proof.Machine

/-! ### The Timetable counters run on (R333, R429) -/

/-- An operation with which the Timetable counters run on, or stand still, as before. -/
structure KeepsRunning (s t : State) : Prop where
  running : ∀ v, (t.tt.get v).running = (s.tt.get v).running

theorem KeepsRunning.refl (s : State) : KeepsRunning s s := ⟨fun _ => rfl⟩

theorem KeepsRunning.trans {s t u : State} (h : KeepsRunning s t) (h' : KeepsRunning t u) : KeepsRunning s u :=
  ⟨fun v => (h'.running v).trans (h.running v)⟩

theorem KeepsRunning.after {s t u : State} (h' : KeepsRunning t u) (h : KeepsRunning s t) : KeepsRunning s u := h.trans h'

theorem KeepsRunning.foldl {α : Type} {f : State → α → State} (hf : ∀ s x, KeepsRunning s (f s x)) (l : List α) (s : State) :
    KeepsRunning s (l.foldl f s) := by
  induction l generalizing s with
  | nil => exact .refl s
  | cons x l ih => exact (hf s x).trans (ih _)

theorem Touch.keepsRunning {m : Nat} {s t : State} (h : Touch m s t) (hm : m.testBit StatePart.tt.idx = false) : KeepsRunning s t := by
  have e : t.tt = s.tt := h.eq .tt hm
  exact ⟨fun v => by rw [e]⟩

theorem modify_keepsRunning {s t : State} {w : Wing} {f : Timetable → Timetable} (h : t.tt = s.tt.modify w f)
    (hf : ∀ x, (f x).running = x.running) : KeepsRunning s t := by
  refine ⟨fun v => ?_⟩
  rw [h]
  by_cases hv : v = w
  · subst hv
    rw [PerWing.get_modify_self, hf]
  · rw [PerWing.get_modify_of_ne _ _ hv]

theorem modTt_keepsRunning (s : State) (w : Wing) {f : Timetable → Timetable} (hf : ∀ x, (f x).running = x.running) :
    KeepsRunning s (s.modTt w f) := modify_keepsRunning rfl hf

theorem addCtr_tt_keepsRunning (s : State) (w : Wing) (off n : Nat) : KeepsRunning s (addCtr s (blkTt w) off n) := by
  refine ⟨fun v => ?_⟩
  rw [addCtr_tt]
  by_cases hv : v = w
  · subst hv
    rw [PerWing.get_modify_self]
  · rw [PerWing.get_modify_of_ne _ _ hv]

theorem modCarSet_keepsRunning (s : State) (w : Wing) (k : CarSetKey) (f : CarSet → CarSet) : KeepsRunning s (s.modCarSet w k f) :=
  ⟨fun _ => rfl⟩

theorem countRetry_keepsRunning (s : State) (w : Wing) (p : SendPhase) : KeepsRunning s (countRetry s w p) := by
  unfold countRetry
  split
  · exact addCtr_tt_keepsRunning ..
  · exact .refl s

theorem offerNotice_keepsRunning (w : Wing) (s : State) (n : Notice) : KeepsRunning s (offerNotice w s n) := by
  unfold offerNotice
  split
  · exact .refl s
  · refine ((countRetry_keepsRunning s w _).trans (modTt_keepsRunning _ w ?_)).trans ((sendHeader_touch_links ..).keepsRunning rfl)
    exact fun _ => rfl

theorem offerCar_keepsRunning (w : Wing) (c : CarSet) (s : State) (x : Nat × Nat × SendPhase) : KeepsRunning s (offerCar w c s x) := by
  unfold offerCar
  split
  · exact ((countRetry_keepsRunning s w _).trans (modCarSet_keepsRunning ..)).trans ((sendHeader_touch_links ..).keepsRunning rfl)
  · exact .refl s

theorem settleArrive_keepsRunning (s : State) (w : Wing) : KeepsRunning s (settleArrive s w) := by
  obtain h | ⟨x, h⟩ := settleArrive_cases s w
  · rw [h]
    exact .refl s
  · rw [h]
    refine (modTt_keepsRunning s w ?_).trans ((sendTime_touch_links ..).keepsRunning rfl)
    exact fun _ => rfl

theorem pumpRing_keepsRunning (s : State) (w : Wing) : KeepsRunning s (pumpRing s w) := by
  unfold pumpRing
  dsimp only
  refine (settleArrive_keepsRunning ..).after ?_
  split
  · exact (KeepsRunning.foldl (offerNotice_keepsRunning w) ..).trans
      (KeepsRunning.foldl (fun s c => KeepsRunning.foldl (offerCar_keepsRunning w c) ..) ..)
  · exact .refl s

theorem loseLock_keepsRunning (s : State) (w : Wing) : KeepsRunning s (loseLock s w) := by
  refine ((addCtr_tt_keepsRunning s w 0x0110 1).trans ((raiseTt_touch _ w 0x0302).keepsRunning rfl)).trans (modTt_keepsRunning _ w ?_)
  exact fun _ => rfl

theorem linkChangedAt_keepsRunning (s : State) (w : Wing) : KeepsRunning s (linkChangedAt s w) := by
  unfold linkChangedAt
  extract_lets upP upS z t
  have hz : KeepsRunning s z := modTt_keepsRunning s w fun _ => rfl
  split
  · split
    · exact hz.trans (loseLock_keepsRunning ..)
    · exact hz
  · split
    · exact hz.trans (modTt_keepsRunning _ w fun _ => rfl)
    · exact hz

theorem settleLinks_keepsRunning (s : State) : KeepsRunning s (settleLinks s) :=
  (((linkChangedAt_keepsRunning s .east).trans (linkChangedAt_keepsRunning ..)).trans (pumpRing_keepsRunning ..)).trans
    (pumpRing_keepsRunning ..)

theorem requeueCar_keepsRunning (w : Wing) (s : State) (c : SentCar) : KeepsRunning s (requeueCar w s c) := by
  unfold requeueCar
  split
  · exact modTt_keepsRunning _ w fun _ => rfl
  · dsimp only
    split
    · exact (modCarSet_keepsRunning ..).trans (addCtr_tt_keepsRunning ..)
    · exact modCarSet_keepsRunning ..

theorem discardLink_keepsRunning (s : State) (l : LinkEnd) : KeepsRunning s (discardLink s l) := by
  unfold discardLink dropCars
  exact ((State_modLink_touch ..).keepsRunning rfl).after ((KeepsRunning.foldl (requeueCar_keepsRunning (endWing l)) ..).after
    ((State_modLink_touch ..).keepsRunning rfl))

theorem portDown_keepsRunning (s : State) (w : Wing) (p : Fin 6) (dest : PortState) : KeepsRunning s (portDown s w p dest) := by
  unfold portDown
  exact (settleLinks_keepsRunning _).after (((raisePort_touch ..).keepsRunning rfl).after (((addCtr_touch_lnk ..).keepsRunning rfl).after
    (((leavePort_touch ..).keepsRunning rfl).after (discardLink_keepsRunning ..))))

/-! ### Ports that may not train (R429) -/

/-- An operation that leaves the Concourse's state and the running of the counters. -/
structure WakesFabric (s t : State) : Prop where
  touch : Touch 0x2801fb000 s t
  cc : t.cc.state = s.cc.state
  running : KeepsRunning s t

theorem WakesFabric.refl (s : State) : WakesFabric s s := ⟨Touch.refl s, rfl, .refl s⟩

theorem WakesFabric.trans {s t u : State} (h : WakesFabric s t) (h' : WakesFabric t u) : WakesFabric s u :=
  ⟨h'.touch.step rfl h.touch, h'.cc.trans h.cc, h.running.trans h'.running⟩

theorem WakesFabric.foldl {α : Type} {f : State → α → State} (hf : ∀ s x, WakesFabric s (f s x)) (l : List α) (s : State) :
    WakesFabric s (l.foldl f s) := by
  induction l generalizing s with
  | nil => exact .refl s
  | cons x l ih => exact (hf s x).trans (ih _)

theorem portDown_wakesFabric (s : State) (w : Wing) (p : Fin 6) (dest : PortState) : WakesFabric s (portDown s w p dest) := by
  refine ⟨portDown_touch .., ?_, portDown_keepsRunning ..⟩
  rw [(linksAlone_portDown s w p dest).ccState, (leavePort_touch ..).eq .cc rfl, (linksAlone_discardLink ..).ccState]

theorem modPort_wakesFabric (s : State) (w : Wing) (p : Nat) (f : Port → Port) : WakesFabric s (s.modPort w p f) :=
  ⟨(State_modPort_touch ..).weaken rfl, rfl, (State_modPort_touch ..).keepsRunning rfl⟩

theorem applyGenAllow_wakesFabric (s : State) (w : Wing) (p : Fin 6) : WakesFabric s (applyGenAllow s w p) := by
  unfold applyGenAllow
  dsimp only
  split
  · exact .refl s
  · split
    · exact .refl s
    · exact portDown_wakesFabric ..
    · exact portDown_wakesFabric ..
    · split
      · exact portDown_wakesFabric ..
      · exact modPort_wakesFabric ..
    · exact modPort_wakesFabric ..

/-! ### Rails (R524, R525) -/

theorem railBit_getLsbD (k : Fin 6) (j : Nat) : (railBit k.val).getLsbD j = (j == k.val) := by
  have hk := k.isLt
  rw [railBit, BitVec.getLsbD_ofNat, Nat.testBit_two_pow]
  by_cases h : j = k.val
  · subst h; simp [hk]
  · simp [h, Ne.symm h]

/-- A rail's PHASE_LOST bit is set. -/
def phaseNoted (s : State) (w : Wing) (k : Nat) : State :=
  s.modPower fun p => { p with phaseLost := p.phaseLost.modify w fun b => b ||| railBit k }

/-- A rail that loses a phase is counted and reported. -/
def phaseCounted (s : State) (w : Wing) (k : Nat) : State :=
  raise (addCtr (phaseNoted s w k) (blkPwr w) 0x1018) 0x0706 k (blkPwr w)

theorem phaseCounted_power (s : State) (w : Wing) (k : Nat) : ∃ c, (phaseCounted s w k).power = { (phaseNoted s w k).power with ctrs := c } := by
  obtain ⟨c, hc⟩ := power_addCtr_pwr (phaseNoted s w k) w 0x1018 1
  exact ⟨c, ((raise_touch ..).eq .power rfl).trans hc⟩

theorem phaseCounted_touch (s : State) (w : Wing) (k : Nat) : Touch 0x881c0000 s (phaseCounted s w k) :=
  Touch.step (raise_touch ..) rfl (Touch.step (addCtr_touch_pwr ..) rfl ((State_modPower_touch ..).weaken rfl))

theorem get_otherWing_modify {α : Type} (p : PerWing α) (w : Wing) (f : α → α) : (p.modify w f).get (otherWing w) = p.get (otherWing w) := by
  cases w <;> rfl

theorem railsRise {s : State} {k : Fin 6} (hs : s.cst.state = .waking) (hp : s.power.pwrGood = false)
    (hg : s.power.good.east.toNat = 2 ^ k.val - 1) : railNext s k.val = true := by
  rw [railNext, hs, hp, hg]
  simp

/-! ### A wake that fails (R526) -/

/-- A failed wake is recorded, and WAKE actions are ignored. -/
def wakeFailed (s : State) (how : WakeFailure) : State := s.modCst fun c => { c with
  wakeFail := wakeFailCode how, wakeFails := min (2 ^ 32 - 1) (c.wakeFails + 1), target := .depot, wakeIgnored := true }

theorem execWakeFail_eq {s : State} {how : WakeFailure} (h : wakeMayFail s how = true) :
    execWakeFail how s = .next (enterState (dropMain (wakeFailed s how)) .depot) := congrArg Host.Outcome.next (if_pos h)

/-! ### Step 1 (R527) -/

/-- The state in which step 1 finds the ports. -/
def fabricWoken (s : State) (fuses : List Defect) : State :=
  let z := (loadFuses s fuses).modCst fun c => { c with heldWrites := [] }
  let run (t : Timetable) : Timetable := { t with running := true }
  let z := (z.modTt .east run).modTt .west run
  { z with tmem := z.tmem.map fun _ m => { m with en := dictVal z 0x3030 0 == 1 }, cc := { z.cc with state := .training } }

theorem wakeStep1_wakesFabric (s : State) (fuses : List Defect) : WakesFabric (fabricWoken s fuses) (wakeStep1 s fuses) :=
  WakesFabric.foldl (fun _ w => WakesFabric.foldl (fun s p => applyGenAllow_wakesFabric s w p) ..) ..

theorem loadFuses_touch_sch (s : State) (fuses : List Defect) : Touch 0x8 s (loadFuses s fuses) :=
  Touch.foldl (Touch.refl s) fun _ _ h => Touch.step (State_modSch_touch ..) rfl h

theorem fabricWoken_tt (s : State) (fuses : List Defect) (w : Wing) : ((fabricWoken s fuses).tt.get w).running = true := by
  cases w <;> rfl

theorem fabricWoken_touch (s : State) (fuses : List Defect) : Touch 0x4011018 s (fabricWoken s fuses) := by
  have hz : Touch 0x4011018 s (((loadFuses s fuses).modCst fun c => { c with heldWrites := [] }).modTt .east fun t => { t with running := true }) :=
    Touch.step (State_modTt_touch ..) rfl (Touch.step (State_modCst_touch ..) rfl ((loadFuses_touch_sch s fuses).weaken rfl))
  have hz2 := Touch.step (m := 0x4011018) (State_modTt_touch _ .west fun t => { t with running := true }) rfl hz
  exact Touch.step (m := 0x4011018) (touch_tmem_cc _) rfl hz2

theorem fabricWoken_cst (s : State) (fuses : List Defect) : (fabricWoken s fuses).cst = { s.cst with heldWrites := [] } := by
  have h : (loadFuses s fuses).cst = s.cst := (loadFuses_touch_sch s fuses).eq .cst rfl
  show { (loadFuses s fuses).cst with heldWrites := [] } = _
  rw [h]

theorem fabricWoken_tmem (s : State) (fuses : List Defect) (t : Tile) :
    ((fabricWoken s fuses).tmem.get t).en = (dictVal s 0x3030 0 == 1) := by
  have h : (loadFuses s fuses).cst = s.cst := (loadFuses_touch_sch s fuses).eq .cst rfl
  have hval : dictVal ((loadFuses s fuses).modCst fun c => { c with heldWrites := [] }) 0x3030 0 = dictVal s 0x3030 0 :=
    dictVal_of_dict (by rw [modCst_cst, h]) (by rw [modCst_cst, h]) _ _
  have hen : ((fabricWoken s fuses).tmem.get t).en
      = (dictVal ((loadFuses s fuses).modCst fun c => { c with heldWrites := [] }) 0x3030 0 == 1) := by cases t <;> rfl
  rw [hen, hval]

/-- A fuse's map of its column (R22). -/
theorem fabricWoken_defects (s : State) (d : Defect) :
    Table.find ((fabricWoken s [d]).sch.get d.tile).defects d.column.val = some d.row.val := by
  show Table.find ((loadFuses s [d]).sch.get d.tile).defects d.column.val = _
  rw [loadFuses, List.foldl_cons, List.foldl_nil, modSch_get]
  exact Table.find_insert_self ..

/-! ### Step 3 (R527, R551) -/

theorem outside_of_waking {s : State} (h : s.cst.state = .waking) : OutsideService s := by
  unfold OutsideService
  rw [h]
  decide

theorem failTraining_outside {s : State} (x : Tile × Fin 512) (hs : OutsideService s) : ReasonTouch 0x841c0010 s (failTraining s x) := by
  have hfailed := failPseudoChannel_outside x.1 x.2.val hs
  unfold failTraining
  dsimp only
  split
  · exact hfailed
  · exact ((State_modMem_touch ..).noReason rfl).step rfl hfailed

/-- The pseudo-channels that have not trained have failed. -/
def untrainedFailed (s : State) (l : List (Tile × Fin 512)) : State := l.foldl failTraining s

theorem untrainedFailed_outside {s : State} (l : List (Tile × Fin 512)) (hs : OutsideService s) :
    ReasonTouch 0x841c0010 s (untrainedFailed s l) :=
  ReasonTouch.foldl (P := OutsideService) (fun h => h.outside) (fun _ x h => failTraining_outside x h) l s hs

/-- Stacked memory is zero and free of poison. -/
def stacksZeroed (s : State) : State :=
  { s with mem := memZero s.mem 0x010000000000 0x020000000000, poison := s.poison.filter fun b => !isStacked (64 * b) }

/-- Bit 3 of the reasons follows the pseudo-channels that stand unspared. -/
def unsparedNoted (s : State) : State := if allTiles.any fun t => (s.tmem.get t).unspared then reasonNoted s 3 else reasonStruck s 3

theorem unsparedNoted_touch (s : State) : ReasonTouch 0x4000000 s (unsparedNoted s) := by
  unfold unsparedNoted
  split
  · exact ⟨State_modCst_touch .., rfl⟩
  · exact ⟨State_modCst_touch .., rfl⟩

theorem wakeStep3_eq {s : State} (l : List (Tile × Fin 512)) (hs : s.cst.state = .waking) :
    wakeStep3 s l = unsparedNoted (untrainedFailed (stacksZeroed s) l) := by
  have hfailed := untrainedFailed_outside (s := stacksZeroed s) l (outside_of_waking hs)
  have hstate : (untrainedFailed (stacksZeroed s) l).cst.state = .waking := hfailed.state.trans hs
  show (if allTiles.any fun t => ((untrainedFailed (stacksZeroed s) l).tmem.get t).unspared then
    setReason (untrainedFailed (stacksZeroed s) l) 3 else clearReason (untrainedFailed (stacksZeroed s) l) 3) = _
  rw [setReason_eq (by decide) (by rw [hstate]; decide), clearReason_eq _ (by rw [hstate]; decide) (by rw [hstate]; decide)]
  rfl

/-- R551: a pseudo-channel that has not trained is retired into a free reserve. -/
theorem failTraining_retires {s : State} {t : Tile} (pc : Fin 512) (he : (s.tmem.get t).en = true) (hu : (s.tmem.get t).used = false)
    (hm : (s.tmem.get t).moving = false) : (failTraining s (t, pc)).tmem.get t
      = { s.tmem.get t with moving := true, retiredPc := pc.val, movePos := 0 } := by
  have hfailed : failPseudoChannel s t pc.val
      = raise (s.modMem t fun m => { m with moving := true, retiredPc := pc.val, movePos := 0 }) 0x0206 pc.val (blkMem t) := by
    refine (if_neg (by simp [hu, hm])).trans (if_pos (by simp [he, hu, hm]))
  have hget : (failPseudoChannel s t pc.val).tmem.get t = { s.tmem.get t with moving := true, retiredPc := pc.val, movePos := 0 } := by
    rw [hfailed, (raise_touch ..).eq .tmem rfl, modMem_get]
  unfold failTraining
  dsimp only
  rw [if_pos (by rw [hget]; simp), hget]

/-- R551: without a reserve it stands unspared, and its reads fail. -/
theorem failTraining_unspared {s : State} {t : Tile} (pc : Fin 512) (hs : OutsideService s) (he : (s.tmem.get t).en = false)
    (hu : (s.tmem.get t).used = false) (hm : (s.tmem.get t).moving = false) :
    pc.val ∈ ((failTraining s (t, pc)).tmem.get t).dead ∧ ((failTraining s (t, pc)).tmem.get t).unspared = true := by
  have hfailed : failPseudoChannel s t pc.val
      = setReason (raise (s.modMem t fun m => { m with unspared := true }) 0x0206 (2 ^ 31 + pc.val) (blkMem t)) 3 := by
    refine (if_neg (by simp [hu, hm])).trans (if_neg (by simp [he]))
  have hout : OutsideService (raise (s.modMem t fun m => { m with unspared := true }) 0x0206 (2 ^ 31 + pc.val) (blkMem t)) := by
    unfold OutsideService
    rw [(raise_touch ..).eq .cst rfl]
    exact hs
  have hget : (failPseudoChannel s t pc.val).tmem.get t = { s.tmem.get t with unspared := true } := by
    rw [hfailed, (setReason_outside 3 (by decide) hout).touch.eq .tmem rfl, (raise_touch ..).eq .tmem rfl, modMem_get]
  have hdead : (failTraining s (t, pc)).tmem.get t
      = { s.tmem.get t with unspared := true, dead := insertSorted (s.tmem.get t).dead pc.val } := by
    unfold failTraining
    dsimp only
    rw [if_neg (by simp [hget, hm]), modMem_get, hget]
  rw [hdead]
  exact ⟨(mem_insertSorted _ _ _).2 (.inr rfl), rfl⟩

theorem mem_allTiles (t : Tile) : t ∈ allTiles := by cases t <;> decide

theorem unsparedNoted_reason {s : State} {t : Tile} (h : (s.tmem.get t).unspared = true) :
    (unsparedNoted s).cst.limitedReasons.getLsbD 3 = true := by
  rw [unsparedNoted, if_pos (List.any_eq_true.2 ⟨t, mem_allTiles t, h⟩), reasonNoted, modCst_cst]
  dsimp only
  rw [BitVec.getLsbD_or]
  simp

/-! ### Step 4 (R527, R528) -/

theorem instOf_zeroEdition_self (s : State) (i : Instance) (copy : List Byte) : ∃ us, instOf (zeroEdition s i copy) i
    = { home := .e0, current := some 0, live := [{ num := 0, base := 0, hdr := 0, copy := copy }], atUnit := us } :=
  ⟨_, instOf_modInst_self ..⟩

theorem instOf_zeroEdition_of_ne (s : State) {i j : Instance} (copy : List Byte) (h : j ≠ i) :
    instOf (zeroEdition s i copy) j = instOf s j := instOf_modInst_of_ne _ _ h

/-- On-chip memory is zero and free of poison, and two instances have an edition of zeros. -/
def chipZeroed (s : State) : State :=
  zeroEdition (zeroEdition { s with mem := memZero s.mem 0 0x100000000, poison := s.poison.filter fun b => !isOnChip (64 * b) }
    .partCfg (List.replicate 4096 0)) .group []

theorem wakeStep4_eq (s : State) : wakeStep4 s = enterShunt (startAcquiring (startAcquiring (chipZeroed s) .east) .west) := rfl

theorem chipZeroed_cst (s : State) : (chipZeroed s).cst = s.cst := (zeroEdition_touch ..).eq .cst rfl |>.trans ((zeroEdition_touch ..).eq .cst rfl)

theorem acquiring_touch (s : State) : Touch 0x1000 s (startAcquiring (startAcquiring s .east) .west) :=
  Touch.step (startAcquiring_touch ..) rfl (startAcquiring_touch ..)

theorem wakeStep4_quiet {s : State} (hq : RulesQuiet s) : Touch 0x841c1000 (chipZeroed s) (wakeStep4 s)
    ∧ (wakeStep4 s).cst = { s.cst with state := if s.cst.target = .depot then .toDepot else .shunt, alertN := true } := by
  have hcst : (startAcquiring (startAcquiring (chipZeroed s) .east) .west).cst = s.cst :=
    ((acquiring_touch _).eq .cst rfl).trans (chipZeroed_cst s)
  have hq' := rulesQuiet_congr (s := s) (t := startAcquiring (startAcquiring (chipZeroed s) .east) .west) (by rw [hcst]) hq
  rw [wakeStep4_eq]
  refine ⟨Touch.step (enterShunt_quiet_touch hq') rfl ((acquiring_touch _).weaken rfl), ?_⟩
  rw [enterShunt_quiet_cst hq', hcst]

end Sys2Proof.Machine

namespace Sys2Proof

open Sys2Proof.Machine

/-- Settles O58: the rails by their bits, a failed wake by what the loss of main power leaves, and each step of a wake apart. -/
theorem railsAndWaking : Obligations.RailsAndWaking := by
  unfold Obligations.RailsAndWaking
  refine ⟨fun s => ⟨fun w k hg hp => ?_, fun w k hp => ?_, fun k hs hp hg => ?_, fun k hg => ?_, fun how hm hq => ?_⟩,
    fun s list fuses hs hp hq hmem => ⟨fun h0 => ?_, fun h1 => ?_, fun h2 => ?_, fun h3 => ?_, fun k hk => ?_⟩⟩
  · obtain ⟨c, hc⟩ := phaseCounted_power s w k.val
    refine ⟨phaseCounted s w k.val, congrArg Host.Outcome.next (if_pos ⟨hg, by rw [hp]; rfl⟩), ?_, fun j hj => ?_, ?_, ?_, ?_,
      (phaseCounted_touch ..).onlyChanges_of_cells rfl fun p => by cases p <;> decide⟩
    · rw [hc, phaseNoted, modPower_power]
      dsimp only
      rw [PerWing.get_modify_self, BitVec.getLsbD_or, railBit_getLsbD]
      simp
    · rw [hc, phaseNoted, modPower_power]
      dsimp only
      rw [PerWing.get_modify_self, BitVec.getLsbD_or, railBit_getLsbD]
      simp [hj]
    · rw [hc, phaseNoted, modPower_power]
      exact get_otherWing_modify ..
    · rw [hc]
      rfl
    · rw [phaseCounted, ctr_raise _ _ _ _ _ (blkPwr_ne_evLost w 0x1018), ctr_addCtr_pwr]
      have hkept : ctr (phaseNoted s w k.val) (blkPwr w) 0x1018 = ctr s (blkPwr w) 0x1018 := ctr_pwr_congr rfl
      rw [hkept]
  · exact congrArg Host.Outcome.next (if_neg (by rw [hp]; simp))
  · refine ⟨_, congrArg Host.Outcome.next (if_pos (railsRise hs hp hg)), fun w j => ?_, rfl, rfl, rfl,
      (State_modPower_touch ..).onlyChanges_of_cells rfl fun p => by cases p <;> decide⟩
    cases w
    · exact (BitVec.getLsbD_or ..).trans (by rw [railBit_getLsbD]; rfl)
    · exact (BitVec.getLsbD_or ..).trans (by rw [railBit_getLsbD]; rfl)
  · refine congrArg Host.Outcome.next (if_neg fun h => hg ?_)
    simp only [railNext, Bool.and_eq_true, beq_iff_eq] at h
    exact h.2
  · have hq' : RulesQuiet (dropMain (wakeFailed s how)) := hq
    have hcst := enterState_quiet_cst hq' .depot
    have hpower : (enterState (dropMain (wakeFailed s how)) .depot).power = (dropMain (wakeFailed s how)).power :=
      (enterState_quiet_unpowered hq' rfl .depot).eq .power rfl
    refine ⟨_, execWakeFail_eq hm, ?_⟩
    rw [hcst, hpower]
    refine ⟨?_, rfl, rfl, rfl, rfl, rfl, rfl, rfl⟩
    cases how <;> rfl
  · obtain ⟨htouch, hcc, hrun⟩ := wakeStep1_wakesFabric (s.modPower fun p => { p with wakeStep := 1 }) fuses
    have hcst := (htouch.eq .cst rfl).trans (fabricWoken_cst (s.modPower fun p => { p with wakeStep := 1 }) fuses)
    have hwoken := fabricWoken_touch (s.modPower fun p => { p with wakeStep := 1 }) fuses
    refine ⟨wakeStep1 (s.modPower fun p => { p with wakeStep := 1 }) fuses, congrArg Host.Outcome.next (if_pos ⟨hs, hp, by rw [h0]; rfl⟩),
      ?_, ?_, ?_, fun w => ?_, hcc, fun t => ?_, fun a => ?_, fun d hd => ?_⟩
    · rw [htouch.eq .power rfl, hwoken.eq .power rfl]
      rfl
    · rw [hcst]; exact hs
    · rw [hcst]
    · rw [hrun.running, fabricWoken_tt]
    · rw [htouch.eq .tmem rfl, fabricWoken_tmem]
      rfl
    · rw [htouch.cells rfl, hwoken.cells rfl]
      rfl
    · subst hd
      rw [htouch.eq .sch rfl, fabricWoken_defects]
  · exact congrArg Host.Outcome.next (if_pos ⟨hs, hp, by rw [h1]; rfl⟩)
  · have hz : (s.modPower fun p => { p with wakeStep := 3 }).cst.state = .waking := hs
    have hout := outside_of_waking hz
    have hfailed := untrainedFailed_outside (s := stacksZeroed (s.modPower fun p => { p with wakeStep := 3 })) list hout
    have hrun : exec (.wakeStepDone 3 ⟨list, fuses⟩) s
        = .next (unsparedNoted (untrainedFailed (stacksZeroed (s.modPower fun p => { p with wakeStep := 3 })) list)) := by
      rw [← wakeStep3_eq list hz]
      exact congrArg Host.Outcome.next (if_pos ⟨hs, hp, by rw [h2]; rfl⟩)
    have hnoted := unsparedNoted_touch (untrainedFailed (stacksZeroed (s.modPower fun p => { p with wakeStep := 3 })) list)
    have htmem := hnoted.touch.eq .tmem rfl
    have hall := hnoted.step (m := 0x841c0010) rfl hfailed
    refine ⟨_, hrun, ?_, hall.state.trans hs, fun a => ?_, fun b hb => ?_, fun hl => ?_, fun t pc hl he hu hm => ?_, fun t pc hl he hu hm => ?_⟩
    · rw [hall.touch.eq .power rfl]
      rfl
    · rw [hall.touch.cells rfl]
      show memByte (memZero s.mem _ _) a = _
      rw [memByte_memZero ((memCanonical_iff _).1 hmem).1]
      simp only [isStacked, decide_eq_true_eq, Nat.reduceAdd]
    · rw [hall.touch.eq .poison rfl] at hb
      obtain ⟨hb1, hb2⟩ := List.mem_filter.1 hb
      exact ⟨hb1, by simpa using hb2⟩
    · subst hl
      exact htmem
    · subst hl
      rw [htmem, untrainedFailed, List.foldl_cons, List.foldl_nil,
        failTraining_retires (s := stacksZeroed (s.modPower fun p => { p with wakeStep := 3 })) pc he hu hm]
      exact ⟨rfl, rfl, rfl, rfl⟩
    · subst hl
      obtain ⟨hdead, hunspared⟩ := failTraining_unspared (s := stacksZeroed (s.modPower fun p => { p with wakeStep := 3 })) pc hout he hu hm
      rw [htmem]
      exact ⟨hdead, hunspared, unsparedNoted_reason hunspared⟩
  · obtain ⟨htouch, hcst⟩ := wakeStep4_quiet (s := s.modPower fun p => { p with wakeStep := 4 }) hq
    obtain ⟨us, hcfg⟩ := instOf_zeroEdition_self { s.modPower fun p => { p with wakeStep := 4 } with
      mem := memZero s.mem 0 0x100000000, poison := s.poison.filter fun b => !isOnChip (64 * b) } .partCfg (List.replicate 4096 0)
    have hcfg' : instOf (wakeStep4 (s.modPower fun p => { p with wakeStep := 4 })) .partCfg = _ :=
      (htouch.instOf rfl .partCfg).trans ((instOf_zeroEdition_of_ne _ [] (by decide)).trans hcfg)
    obtain ⟨vs, hgroup⟩ := instOf_zeroEdition_self (zeroEdition { s.modPower fun p => { p with wakeStep := 4 } with
      mem := memZero s.mem 0 0x100000000, poison := s.poison.filter fun b => !isOnChip (64 * b) } .partCfg (List.replicate 4096 0)) .group []
    have hgroup' : instOf (wakeStep4 (s.modPower fun p => { p with wakeStep := 4 })) .group = _ := (htouch.instOf rfl .group).trans hgroup
    have hzeroed : Touch 0x80 _ (chipZeroed (s.modPower fun p => { p with wakeStep := 4 })) :=
      Touch.step (zeroEdition_touch ..) rfl (zeroEdition_touch ..)
    refine ⟨wakeStep4 (s.modPower fun p => { p with wakeStep := 4 }), congrArg Host.Outcome.next (if_pos ⟨hs, hp, by rw [h3]; rfl⟩),
      ?_, ?_, ?_, fun a => ?_, ?_, ?_, ?_, ?_⟩
    · rw [htouch.eq .power rfl, hzeroed.eq .power rfl]
      rfl
    · rw [hcst]
      rfl
    · rw [hcst]
      rfl
    · rw [htouch.cells rfl, hzeroed.cells rfl]
      show memByte (memZero s.mem _ _) a = _
      rw [memByte_memZero ((memCanonical_iff _).1 hmem).1]
      simp only [isOnChip, decide_eq_true_eq, Nat.zero_add, Nat.zero_le, true_and]
    · rw [hcfg']
    · rw [hgroup']
    · rw [editionOf, hcfg']
      rfl
    · rw [editionOf, hgroup']
      rfl
  · exact congrArg Host.Outcome.next (if_neg fun h => hk h.2.2)

end Sys2Proof
end

section
/-!
PROOF. Entering SERVICE or LIMITED, and the work that ends while the module leaves service (R509, R510, R531, R532).
-/

namespace Sys2Proof.Machine

/-! ### Swaps that get their turn outside SERVICE (R37, R41) -/

/-- Swaps that get their turn change neither the tasks nor more of the Custodian than the reasons of LIMITED. -/
theorem serveSwaps_outside (n : Nat) {s : State} (i : Instance) (hs : OutsideService s) :
    ReasonTouch 0x3ffffffeff s (serveSwaps n s i) := by
  induction n generalizing s with
  | zero => exact .refl s
  | succ n ih =>
    unfold serveSwaps
    split
    · exact .refl s
    · next sw rest hswaps =>
      split
      · have hj : ReasonTouch 0x3ffffffeff s (judge s i sw).1 := ((judge_touch s i sw).noReason rfl).weaken rfl
        split
        · next s1 c er heq =>
          rw [heq] at hj
          have hturn (x : State) (hx : ReasonTouch 0x3ffffffeff s x) : ReasonTouch 0x3ffffffeff s (serveSwaps n
              (answerCommand (x.modInst i fun y => { y with swaps := rest }) ⟨sw.func, sw.ring, sw.sqHead, sw.answer⟩ sw.entry c
                (wingOf (instHome (x.modInst i fun y => { y with swaps := rest }) i)) .stationmaster (swapHdr sw.entry)) i) := by
            have hanswered := ((answerCommand_touch _ ⟨sw.func, sw.ring, sw.sqHead, sw.answer⟩ sw.entry c
              (wingOf (instHome (x.modInst i fun y => { y with swaps := rest }) i)) .stationmaster (swapHdr sw.entry) 0).noReason
                rfl).step rfl (((State_modInst_touch x i fun y => { y with swaps := rest }).noReason rfl).step rfl hx)
            exact (ih (hanswered.outside hs)).step rfl hanswered
          cases er with
          | none => exact hturn s1 hj
          | some er => exact hturn _ ((failAcc_outside _ _ _ (hj.outside hs)).step rfl hj)
        · next s1 e heq =>
          rw [heq] at hj
          exact ((advanceSwap_touch ..).noReason rfl).step rfl hj
        · next s1 heq =>
          rw [heq] at hj
          exact ((advanceSwap_touch ..).noReason rfl).step rfl hj
      · exact ((advanceSwap_touch ..).noReason rfl).weaken rfl
      · exact .refl s

theorem settleInst_outside {s : State} (i : Instance) (hs : OutsideService s) : ReasonTouch 0x3ffffffeff s (settleInst s i) := by
  have hretired : ReasonTouch 0x3ffffffeff s (retireUnpinned s i) := ((retireUnpinned_touch s i).noReason rfl).weaken rfl
  exact (serveSwaps_outside _ i (hretired.outside hs)).step rfl hretired

theorem releasePins_outside {s : State} (pins : List Pin) (hs : OutsideService s) :
    ReasonTouch 0x3ffffffeff s (releasePins s pins) :=
  ReasonTouch.foldl (P := OutsideService) (f := fun s (p : Pin) => settleInst s p.inst) (fun h => h.outside)
    (fun _ p => settleInst_outside p.inst) pins s hs

/-! ### Tasks that end outside SERVICE (R143, R509) -/

theorem writeRecord_outside {s : State} (t : Task) (cause : Nat) (hs : OutsideService s) :
    ReasonTouch 0x3ffffffeff s (writeRecord s t cause).1 := by
  have hsaved : ReasonTouch 0x3ffffffeff s (saveVa s (taskCtx s t) (hRecord t.hdr) (recordImage s t cause)).1 :=
    ((saveVa_touch ..).noReason rfl).weaken rfl
  unfold writeRecord
  dsimp only
  split
  · exact .refl s
  · split
    · exact hsaved
    · exact ((logTask_touch ..).noReason rfl).step rfl ((failAcc_outside _ _ _ (hsaved.outside hs)).step rfl hsaved)

/-- A task's record and its completion entry. -/
def taskReported (s : State) (t : Task) (cause : Nat) : State :=
  let r := if t.answer then writeRecord s t cause else (s, false)
  answerTask r.1 t cause r.2

theorem taskReported_outside {s : State} (t : Task) (cause : Nat) (hs : OutsideService s) :
    ReasonTouch 0x3ffffffeff s (taskReported s t cause) := by
  refine ((answerTask_touch ..).noReason rfl).step rfl ?_
  split
  · exact writeRecord_outside t cause hs
  · exact .refl s

/-- What a task held is free. -/
def taskFreed (s : State) (t : Task) : State :=
  freeStaging (t.cores.foldl (fun s i => holdRegions s i []) (closeTask s t.id)) t.id

theorem taskFreed_touch (s : State) (t : Task) : Touch 0x200000001c s (taskFreed s t) :=
  Touch.step (freeStaging_touch ..) rfl (Touch.foldl ((closeTask_touch ..).weaken rfl) fun _ _ =>
    Touch.step (holdRegions_touch ..) rfl)

/-- The list of tasks without one of them. -/
def taskRemoved (s : State) (id : Nat) : State := { s with tasks := s.tasks.filter fun x => x.id != id }

theorem finishTask_eq (s : State) (t : Task) (cause : Nat) : finishTask s t cause =
    releasePins (chargeVtime (taskRemoved (taskFreed (taskReported s t cause) t) t.id) t.home t.part (coreTicks s t)) t.pins := rfl

/-- R143: a task that ends is no longer listed, and every other task stays. -/
theorem finishTask_outside {s : State} (t : Task) (cause : Nat) (hs : OutsideService s) :
    ReasonTouch 0x3fffffffff s (finishTask s t cause)
      ∧ (finishTask s t cause).tasks = s.tasks.filter fun x => x.id != t.id := by
  have hfreed : ReasonTouch 0x3ffffffeff s (taskFreed (taskReported s t cause) t) :=
    ((taskFreed_touch ..).noReason rfl).step rfl (taskReported_outside t cause hs)
  have hremoved : ReasonTouch 0x3fffffffff s (taskRemoved (taskFreed (taskReported s t cause) t) t.id) :=
    ((touch_tasks _ fun y hy => ⟨y, List.mem_of_mem_filter hy, rfl⟩).noReason rfl).step rfl (hfreed.weaken rfl)
  have hcharged := ((chargeVtime_touch (taskRemoved (taskFreed (taskReported s t cause) t) t.id) t.home t.part
    (coreTicks s t)).noReason rfl).weaken (m := 0x3ffffffeff) rfl
  have hreleased := (releasePins_outside t.pins ((hcharged.weaken (m := 0x3fffffffff) rfl).step rfl hremoved |>.outside hs)).step rfl hcharged
  rw [finishTask_eq]
  refine ⟨hreleased.step rfl hremoved, (hreleased.touch.eq .tasks rfl).trans ?_⟩
  have htasks : (taskFreed (taskReported s t cause) t).tasks = s.tasks := hfreed.touch.eq .tasks rfl
  rw [taskRemoved, htasks]

/-- R142, R509: a task that ends at once is no longer listed, and every other task stays. -/
theorem endTaskNow_outside {s : State} (t : Task) (cause : Nat) (hs : OutsideService s) :
    ReasonTouch 0x3fffffffff s (endTaskNow s t cause)
      ∧ (endTaskNow s t cause).tasks = s.tasks.filter fun x => x.id != t.id := by
  unfold endTaskNow
  extract_lets logged left
  have hleft : ReasonTouch 0x3ffffffeff s left := by
    have hlogged : ReasonTouch 0x3ffffffeff s logged := ((logTask_touch ..).noReason rfl).weaken (a := 0x801c0000) rfl
    unfold left
    split
    · exact ((scribbleRanges_touch ..).noReason rfl).step rfl hlogged
    · exact hlogged
  have hcounted : ReasonTouch 0x3ffffffeff s (addCtr (closeTaskColl left t cause) (blkSch t.home) 0x0138) :=
    ((addCtr_touch_sch ..).noReason rfl).step rfl (((closeTaskColl_touch ..).noReason rfl).step rfl hleft)
  obtain ⟨hfinished, htasks⟩ := finishTask_outside t cause (hcounted.outside hs)
  refine ⟨hfinished.step rfl (hcounted.weaken rfl), htasks.trans ?_⟩
  rw [show (addCtr (closeTaskColl left t cause) (blkSch t.home) 0x0138).tasks = s.tasks from hcounted.touch.eq .tasks rfl]

/-- R509: tasks that end at once one after another are no longer listed. -/
theorem endTasks_outside (ts : List Task) {s : State} (hs : OutsideService s) :
    ReasonTouch 0x3fffffffff s (ts.foldl (fun s t => endTaskNow s t (drainCause t)) s)
      ∧ ∀ x ∈ (ts.foldl (fun s t => endTaskNow s t (drainCause t)) s).tasks, x ∈ s.tasks ∧ x ∉ ts := by
  induction ts generalizing s with
  | nil => exact ⟨.refl s, fun x hx => ⟨hx, List.not_mem_nil⟩⟩
  | cons t ts ih =>
    obtain ⟨hended, htasks⟩ := endTaskNow_outside t (drainCause t) hs
    obtain ⟨hrest, hgone⟩ := ih (hended.outside hs)
    refine ⟨hrest.step rfl hended, fun x hx => ?_⟩
    obtain ⟨hmem, hnot⟩ := hgone x hx
    rw [htasks, List.mem_filter] at hmem
    refine ⟨hmem.1, fun hin => ?_⟩
    obtain rfl | hin := List.mem_cons.1 hin
    · simp at hmem
    · exact hnot hin

/-! ### Commands and waiting swaps that end (R509) -/

theorem endCmd_cmds (s : State) (c : Cmd) (cause : Nat) : (endCmd s c cause).cmds = s.cmds.filter fun x => x ≠ c :=
  (answerCommand_touch { s with cmds := s.cmds.filter fun x => x ≠ c } _ c.entry cause _ _ 0 0).eq .cmds rfl

theorem endCmds_touch (l : List Cmd) (s : State) (cause : Nat) :
    Touch 0x803c0400 s (l.foldl (fun s c => endCmd s c cause) s) :=
  Touch.foldl (Touch.refl s) fun _ _ => Touch.step (endCmd_touch ..) rfl

/-- Commands that end one after another are no longer listed. -/
theorem endCmds_gone (l : List Cmd) (s : State) (cause : Nat) :
    ∀ x ∈ (l.foldl (fun s c => endCmd s c cause) s).cmds, x ∈ s.cmds ∧ x ∉ l := by
  induction l generalizing s with
  | nil => exact fun x hx => ⟨hx, List.not_mem_nil⟩
  | cons c l ih =>
    intro x hx
    obtain ⟨hmem, hnot⟩ := ih _ x hx
    rw [endCmd_cmds, List.mem_filter] at hmem
    obtain ⟨hmem, hne⟩ := hmem
    refine ⟨hmem, fun hin => ?_⟩
    obtain rfl | hin := List.mem_cons.1 hin
    · simp at hne
    · exact hnot hin

/-- The swaps of a structure that are being applied. -/
def appliedOnly (x : Inst) : Inst := { x with swaps := x.swaps.filter Swap.applying }

theorem instOf_endWaitingSwaps (cause : Nat) (s : State) (i j : Instance) :
    instOf (endWaitingSwaps cause s i) j = if j = i then appliedOnly (instOf s i) else instOf s j := by
  have hanswers : Touch 0x803c0000 (s.modInst i appliedOnly) (endWaitingSwaps cause s i) :=
    Touch.foldl (Touch.refl _) fun _ _ => Touch.step (answerCommand_touch ..) rfl
  rw [hanswers.instOf rfl, instOf_modInst]

theorem endSwaps_touch (cause : Nat) (l : List Instance) (s : State) :
    Touch 0x803c0080 s (l.foldl (endWaitingSwaps cause) s) :=
  Touch.foldl (Touch.refl s) fun _ _ => Touch.step (endWaitingSwaps_touch ..) rfl

/-- Swaps that are all being applied stay so, and those of the structures listed come to be. -/
theorem endSwaps_applying (cause : Nat) (l : List Instance) (s : State) (j : Instance)
    (h : j ∈ l ∨ ∀ x ∈ (instOf s j).swaps, x.applying = true) :
    ∀ x ∈ (instOf (l.foldl (endWaitingSwaps cause) s) j).swaps, x.applying = true := by
  induction l generalizing s with
  | nil => exact h.resolve_left List.not_mem_nil
  | cons i l ih =>
    refine ih _ ?_
    rw [instOf_endWaitingSwaps]
    by_cases hj : j = i
    · rw [if_pos hj]
      exact .inr fun x hx => (List.mem_filter.1 hx).2
    · rw [if_neg hj]
      exact h.imp_left fun hl => (List.mem_cons.1 hl).resolve_left hj

/-- A structure of which no record is kept has no swaps. -/
theorem swaps_of_unlisted {s : State} {j : Instance} (h : j ∉ s.insts.map (·.1)) : (instOf s j).swaps = [] := by
  have hnone : (s.insts.find? fun x => x.1 = j) = none :=
    List.find?_eq_none.2 fun x hx hk => h (List.mem_map.2 ⟨x, hx, of_decide_eq_true hk⟩)
  rw [instOf, hnone]
  rfl

/-- R509: what is left when everything still there has ended. -/
theorem endAllWork_outside {s : State} (hs : OutsideService s) :
    (∃ r, (endAllWork s).cst = { s.cst with limitedReasons := r }) ∧ (endAllWork s).tasks = [] ∧ (endAllWork s).cmds = []
      ∧ ∀ i, ∀ x ∈ (instOf (endAllWork s) i).swaps, x.applying = true := by
  obtain ⟨hended, hgone⟩ := endTasks_outside s.tasks hs
  unfold endAllWork
  extract_lets ts tasked broken answered
  have hended' : ReasonTouch 0x3fffffffff s tasked := hended
  have hbroken : Touch 0x801c0808 tasked broken := breakStreams_touch ..
  have hanswered : Touch 0x803c0400 broken answered := endCmds_touch ..
  have hswaps := endSwaps_touch 0x0803 (answered.insts.map (·.1)) answered
  have hquiet : Touch 0x803c0c88 tasked ((answered.insts.map (·.1)).foldl (endWaitingSwaps 0x0803) answered) :=
    hswaps.step rfl (hanswered.step rfl (hbroken.weaken rfl))
  refine ⟨⟨tasked.cst.limitedReasons, (hquiet.eq .cst rfl).trans hended'.cst⟩, (hquiet.eq .tasks rfl).trans ?_,
    (hswaps.eq .cmds rfl).trans ?_, fun i => endSwaps_applying _ _ _ i ?_⟩
  · exact List.eq_nil_iff_forall_not_mem.2 fun x hx => (hgone x hx).2 (hgone x hx).1
  · refine List.eq_nil_iff_forall_not_mem.2 fun x hx => ?_
    obtain ⟨hmem, hnot⟩ := endCmds_gone broken.cmds broken 0x0803 x hx
    exact hnot hmem
  · by_cases hi : i ∈ answered.insts.map (·.1)
    · exact .inl hi
    · refine .inr fun x hx => ?_
      rw [swaps_of_unlisted hi] at hx
      exact absurd hx List.not_mem_nil

/-! ### The states entered (R509, R510, R531) -/

/-- R509: SHUNT is entered, or, with target DEPOT, going to depot. -/
theorem enterShunt_leaves {s : State} (hq : RulesQuiet s) :
    (enterShunt s).cst.state = (if s.cst.target = .depot then .toDepot else .shunt)
      ∧ (enterShunt s).cst.target = s.cst.target := by
  rw [enterShunt_quiet_cst hq]
  exact ⟨rfl, rfl⟩

/-- R531: the failed lanes are marked and the ring configuration is checked. -/
def ringsChecked (s : State) (e w : BitVec 2) : State :=
  checkRing (checkRing ((s.modJn .east fun j => { j with laneFailed := j.laneFailed ||| e }).modJn .west fun j =>
    { j with laneFailed := j.laneFailed ||| w }) .east) .west

theorem ringsChecked_touch (s : State) (e w : BitVec 2) : Touch 0x801c5000 s (ringsChecked s e w) :=
  Touch.step (checkRing_touch ..) rfl (Touch.step (checkRing_touch ..) rfl
    (Touch.step (State_modJn_touch ..) rfl ((State_modJn_touch ..).weaken rfl)))

theorem ringsChecked_lanes (s : State) (e w : BitVec 2) :
    ((ringsChecked s e w).jn.get .east).laneFailed = (s.jn.get .east).laneFailed ||| e
      ∧ ((ringsChecked s e w).jn.get .west).laneFailed = (s.jn.get .west).laneFailed ||| w := by
  have hjn : (ringsChecked s e w).jn = ((s.modJn .east fun j => { j with laneFailed := j.laneFailed ||| e }).modJn .west fun j =>
      { j with laneFailed := j.laneFailed ||| w }).jn :=
    (Touch.step (checkRing_touch ..) rfl (checkRing_touch ..) : Touch 0x801c1000 _ (ringsChecked s e w)).eq .jn rfl
  rw [hjn]
  exact ⟨rfl, rfl⟩

/-- R510: a Concourse that is down is a reason of LIMITED. -/
def concourseJudged (s : State) : State := if concourseUp s then s else setReason s 2

theorem concourseJudged_cst {s : State} (hs : OutsideService s) : (concourseJudged s).cst =
    { s.cst with limitedReasons := s.cst.limitedReasons ||| (if concourseUp s then 0 else 4) } := by
  unfold concourseJudged
  cases concourseUp s with
  | true => simp
  | false =>
    rw [if_neg Bool.false_ne_true, if_neg Bool.false_ne_true, setReason_eq (by decide) hs]
    rfl

theorem concourseJudged_touch {s : State} (hs : OutsideService s) : Touch 0x4000000 s (concourseJudged s) := by
  unfold concourseJudged
  split
  · exact .refl s
  · exact (setReason_outside 2 (by decide) hs).touch

/-- The state that the reasons of LIMITED lead to. -/
def stateByReasons (s : State) : DevState :=
  if s.cst.limitedReasons &&& ~~~ BitVec.ofNat 32 (dictVal s 0x2004 0) = 0 then .service else .limited

/-- R532: every withheld credit is granted. -/
theorem grantAllCredits_granted (s : State) : (∀ x ∈ (grantAllCredits s).ports, x.2.link.crHeld = [])
    ∧ (grantAllCredits s).cc.east.crHeld = [] ∧ (grantAllCredits s).cc.west.crHeld = [] := by
  refine ⟨fun x hx => ?_, rfl, rfl⟩
  obtain ⟨y, -, rfl⟩ := List.mem_map.1 hx
  rfl

theorem serviceEntry_eq {s : State} (e w : BitVec 2) (hstate : s.cst.state = .shunt) (htarget : s.cst.target = .service)
    (htested : ∀ t, ∀ x ∈ (s.sch.get t).coreState, x.2 = 2) :
    exec (.serviceEntry e w) s = .next (grantAllCredits (enterState (concourseJudged (ringsChecked s e w))
      (stateByReasons (concourseJudged (ringsChecked s e w))))) := by
  have hall : allTiles.all (testsEnded s) = true :=
    List.all_eq_true.2 fun t _ => List.all_eq_true.2 fun x hx => beq_iff_eq.2 (htested t x hx)
  exact congrArg Host.Outcome.next (if_pos ⟨hstate, htarget, hall⟩)

theorem serviceEntry_refused {s : State} (e w : BitVec 2) (h : s.cst.state ≠ .shunt ∨ s.cst.target ≠ .service) :
    exec (.serviceEntry e w) s = .next s :=
  congrArg Host.Outcome.next (if_neg fun ⟨hstate, htarget, _⟩ => h.elim (· hstate) (· htarget))

/-- Before a state is entered no more of the Custodian has changed than a reason for a Concourse that is down. -/
theorem concourseJudged_ringsChecked {s : State} (e w : BitVec 2) (hq : RulesQuiet s) (hstate : s.cst.state = .shunt) :
    (concourseJudged (ringsChecked s e w)).cst =
        { s.cst with limitedReasons := s.cst.limitedReasons ||| (if concourseUp s then 0 else 4) }
      ∧ RulesQuiet (concourseJudged (ringsChecked s e w))
      ∧ Touch 0x841c5000 s (concourseJudged (ringsChecked s e w)) := by
  have hchecked := ringsChecked_touch s e w
  have hcst : (ringsChecked s e w).cst = s.cst := hchecked.eq .cst rfl
  have hcc : (ringsChecked s e w).cc = s.cc := hchecked.eq .cc rfl
  have hout : OutsideService (ringsChecked s e w) := by
    rw [OutsideService, hcst, hstate]
    decide
  have hjudged := concourseJudged_cst hout
  rw [hcst, concourseUp, hcc] at hjudged
  exact ⟨hjudged, rulesQuiet_congr (by rw [hjudged]) hq, (concourseJudged_touch hout).step rfl (hchecked.weaken rfl)⟩

end Sys2Proof.Machine

namespace Sys2Proof
open Sys2Proof.Machine

/-- R531, R532: entering SERVICE or LIMITED. -/
theorem serviceEntry_enters {s : State} (e w : BitVec 2) (hq : RulesQuiet s) (hstate : s.cst.state = .shunt)
    (htarget : s.cst.target = .service) (htested : ∀ t, ∀ x ∈ (s.sch.get t).coreState, x.2 = 2) :
    let reasons := s.cst.limitedReasons ||| (if concourseUp s then 0 else 4)
    ∃ u, exec (.serviceEntry e w) s = .next u
      ∧ u.cst.limitedReasons = reasons
      ∧ u.cst.state = (if reasons &&& ~~~ BitVec.ofNat 32 (dictVal s 0x2004 0) = 0 then .service else .limited)
      ∧ u.cst.target = .service
      ∧ (u.jn.get .east).laneFailed = (s.jn.get .east).laneFailed ||| e ∧ (u.jn.get .west).laneFailed = (s.jn.get .west).laneFailed ||| w
      ∧ (∀ x ∈ u.ports, x.2.link.crHeld = []) ∧ u.cc.east.crHeld = [] ∧ u.cc.west.crHeld = []
      ∧ OnlyChanges [.cst, .jn, .tt, .ports, .cc, .hifCtrs, .logs, .pages, .hostOut] s u := by
  intro reasons
  obtain ⟨hcst, hquiet, htouch⟩ := concourseJudged_ringsChecked e w hq hstate
  have hlanes := ringsChecked_lanes s e w
  have hjn : (concourseJudged (ringsChecked s e w)).jn = (ringsChecked s e w).jn := by
    have hout : OutsideService (ringsChecked s e w) := by
      rw [OutsideService, (ringsChecked_touch s e w).eq .cst rfl, hstate]
      decide
    exact (concourseJudged_touch hout).eq .jn rfl
  refine ⟨_, serviceEntry_eq e w hstate htarget htested, ?_⟩
  generalize hj : concourseJudged (ringsChecked s e w) = j at *
  have hdict : dictVal j 0x2004 0 = dictVal s 0x2004 0 := dictVal_of_dict (by rw [hcst]) (by rw [hcst]) ..
  have hentered := enterState_quiet_touch hquiet (stateByReasons j)
  have hgranted := grantAllCredits_touch (enterState j (stateByReasons j))
  have hfinal : (grantAllCredits (enterState j (stateByReasons j))).cst =
      { j.cst with state := stateByReasons j, alertN := !(stateByReasons j == .halt) } :=
    (hgranted.eq .cst rfl).trans (enterState_quiet_cst hquiet _)
  have hjn' : (grantAllCredits (enterState j (stateByReasons j))).jn = (ringsChecked s e w).jn :=
    (hgranted.eq .jn rfl).trans ((hentered.eq .jn rfl).trans hjn)
  obtain ⟨hports, heast, hwest⟩ := grantAllCredits_granted (enterState j (stateByReasons j))
  refine ⟨?_, ?_, ?_, by rw [hjn']; exact hlanes.1, by rw [hjn']; exact hlanes.2, hports, heast, hwest, ?_⟩
  · rw [hfinal, hcst]
  · rw [hfinal]
    show stateByReasons j = _
    rw [stateByReasons, hdict, hcst]
  · rw [hfinal, hcst]
    exact htarget
  · have hall : Touch 0x841dd000 s (grantAllCredits (enterState j (stateByReasons j))) :=
      hgranted.step rfl (hentered.step rfl (htouch.weaken rfl))
    exact hall.onlyChanges_of_cells rfl fun p => by cases p <;> decide

/-- R509: nothing issued is left while the module leaves service. -/
theorem leavingServiceDrained_enters {s : State} (hq : RulesQuiet s) (hstate : s.cst.state = .leaving) (htasks : s.tasks = [])
    (hcmds : s.cmds = []) (hswaps : ∀ x ∈ s.insts, x.2.swaps = []) :
    ∃ u, exec .leavingServiceDrained s = .next u ∧ u.cst.state = (if s.cst.target = .depot then .toDepot else .shunt)
      ∧ u.cst.target = s.cst.target ∧ OnlyChanges [.cst, .hifCtrs, .logs, .pages, .hostOut] s u := by
  have hended : workEnded s = true := by
    have hnone : (s.insts.all fun x => x.2.swaps.isEmpty) = true :=
      List.all_eq_true.2 fun x hx => List.isEmpty_iff.2 (hswaps x hx)
    rw [workEnded, htasks, hcmds, hnone]
    rfl
  obtain ⟨hs, ht⟩ := enterShunt_leaves hq
  exact ⟨_, congrArg Host.Outcome.next (if_pos ⟨hstate, hended⟩), hs, ht,
    (enterShunt_quiet_touch hq).onlyChanges_of_cells rfl fun p => by cases p <;> decide⟩

/-- R509: the drain time has passed while the module leaves service. -/
theorem shuntDrainExpiry_enters {s : State} (hq : RulesQuiet s) (hstate : s.cst.state = .leaving)
    (hfree : (enterShunt (endAllWork { s with heldAt := none })).heldAt = none) :
    ∃ u, exec .shuntDrainExpiry s = .next u ∧ u.cst.state = (if s.cst.target = .depot then .toDepot else .shunt)
      ∧ u.cst.target = s.cst.target ∧ u.tasks = [] ∧ u.cmds = [] ∧ (∀ i, ∀ x ∈ (instOf u i).swaps, x.applying = true) := by
  have hout : OutsideService { s with heldAt := none } := by
    show s.cst.state ≠ _
    rw [hstate]
    decide
  obtain ⟨⟨r, hcst⟩, htasks, hcmds, hswaps⟩ := endAllWork_outside hout
  have hquiet : RulesQuiet (endAllWork { s with heldAt := none }) := rulesQuiet_congr (s := s) (by rw [hcst]) hq
  have hexec : exec .shuntDrainExpiry s = .next (enterShunt (endAllWork { s with heldAt := none })) :=
    congrArg Host.Outcome.next ((if_pos hstate).trans (orWait_of_free hfree))
  have htouch := enterShunt_quiet_touch hquiet
  obtain ⟨hs, ht⟩ := enterShunt_leaves hquiet
  rw [hcst] at hs ht
  refine ⟨_, hexec, hs, ht, (htouch.eq .tasks rfl).trans htasks, (htouch.eq .cmds rfl).trans hcmds, fun i => ?_⟩
  rw [htouch.instOf rfl]
  exact hswaps i

/-- Settles O56: entering SERVICE adds a Concourse that is down to the reasons and no rule interferes; leaving service, the tasks,
commands and swaps still there end one by one outside SERVICE, where no reason of LIMITED changes the state. -/
theorem serviceEnteredAndLeft : Obligations.ServiceEnteredAndLeft := by
  unfold Obligations.ServiceEnteredAndLeft
  refine ⟨fun s e w hq => ⟨serviceEntry_enters e w hq, serviceEntry_refused e w⟩, fun s hq => ?_⟩
  refine ⟨leavingServiceDrained_enters hq, fun _ htasks => ?_, shuntDrainExpiry_enters hq, fun hstate => ⟨?_, ?_⟩⟩
  · refine congrArg Host.Outcome.next (if_neg fun ⟨_, hended⟩ => htasks ?_)
    rw [workEnded, Bool.and_assoc, Bool.and_eq_true] at hended
    exact List.isEmpty_iff.1 hended.1
  · exact congrArg Host.Outcome.next (if_neg fun h => hstate h.1)
  · exact congrArg Host.Outcome.next (if_neg hstate)

end Sys2Proof
end
